-- ==== Sys2Proof/Word.lean ====
section
/-! DEFINITION. The words of the FZ8 and the numbers of its units (R3, R4). -/

namespace Sys2Proof

abbrev Byte := BitVec 8
abbrev W16 := BitVec 16
abbrev W32 := BitVec 32
abbrev W64 := BitVec 64

/-- A byte string, lowest address or first octet first (R4, R430). -/
abbrev Bytes := List Byte

/-- Global core number, 64·d + 8·k + p (R3). -/
abbrev CoreId := Fin 256
/-- Global cluster number, 8·d + k (R3). -/
abbrev ClusterId := Fin 32
/-- Compute die C0 to C3 (R11). -/
abbrev CDie := Fin 4
/-- Stack S0 to S15 (R11). -/
abbrev StackId := Fin 16
/-- Global NLU number, 4·s + u (R3). -/
abbrev NluId := Fin 64
/-- Global optical lane; also a port, named by its first lane (R3, R260). -/
abbrev LaneId := Fin 16
/-- Matrix engine of a core (R3). -/
abbrev MeId := Fin 4
/-- Program context of a core (R102). -/
abbrev CtxId := Fin 2
/-- Model slot: 0 is A, 1 is B (R353). -/
abbrev SlotId := Fin 2
/-- Stack table number (R221). -/
abbrev TableId := Fin 256
/-- Power domain number (R416). -/
abbrev DomainId := Fin 337
/-- Worker ID of a group, 0 for the manager (R364, R369). -/
abbrev PeerId := Fin 1024
/-- Submission or completion ring of a port (R337). -/
abbrev RingId := Fin 64
/-- A 16-bit unit code of R391. -/
abbrev UnitCode := BitVec 16

/-- A CXL host port (R12). -/
inductive HPort where
  | h0
  | h1
  deriving DecidableEq, Repr

/-- A network die (R11). -/
inductive NDie where
  | n0
  | n1
  deriving DecidableEq, Repr

end Sys2Proof
end

