-- ==== Sys2Proof/Syntax.lean ====
section
/-! DEFINITION. The commands the block takes: one constructor of `Instr` for each row of
spec/opcode_table.json, with the operands its rules name. The table gives no row any bits. -/

namespace Sys2Proof

/-- How a host port is reset (R330). -/
inductive PortReset where
  | flr
  | hot
  | linkLoss
  deriving DecidableEq, Repr

/-- The common header of a core command (R109). -/
structure CmdHdr where
  launchRef : BitVec 10
  layer : W16
  op : W16
  deriving DecidableEq, Repr

/-- Operands of MMA (R111). -/
structure MmaOp where
  hdr : CmdHdr
  bank : BitVec 2
  keep : Bool
  fin : Bool
  engine : MeId
  wfmt : BitVec 4
  afmt : BitVec 4
  gsize : BitVec 2
  wAddr : BitVec 15
  aAddr : BitVec 15
  kBlocksM1 : BitVec 9
  mM1 : BitVec 7
  nM1 : BitVec 6
  seqBase : BitVec 4
  sideRef : BitVec 6
  fence : Bool
  deriving DecidableEq, Repr

/-- What an engine's own hardware does wrong in one attempt at a tile (R88, R97, R114 to R116). -/
inductive EngineFault where
  | ok
  /-- The array's raw group sum of (row, column) in a block is off by `delta`. -/
  | sum (row col block : Nat) (delta : Int)
  /-- The output of (row, column) comes out as `value`. -/
  | output (row col : Nat) (value : W32)
  | residue (row : Nat)
  | skew (block : Nat) (received : BitVec 4)
  | parity (line : Nat)
  deriving DecidableEq, Repr

/-- What a stack's code finds in a line that it reads (R184): errors that it corrects, or more than it corrects. -/
inductive LineErr where
  | corrected
  | uncorrectable
  deriving DecidableEq, Repr

/-- Operands of LDT (R112). -/
structure LdtOp where
  hdr : CmdHdr
  space : BitVec 2
  wtile : Bool
  tmAddr : BitVec 15
  memAddr : BitVec 38
  len : BitVec 15
  nM1 : BitVec 6
  kBlocksM1 : BitVec 9
  wfmt : BitVec 4
  gsize : BitVec 2
  deriving DecidableEq, Repr

/-- Operands of STT (R112). -/
structure SttOp where
  hdr : CmdHdr
  space : BitVec 2
  fromBank : Bool
  tmAddr : BitVec 15
  memAddr : BitVec 38
  len : BitVec 15
  deriving DecidableEq, Repr

/-- Operands of VEC (R113); the instruction words stand in the program segment at `instrOff`. -/
structure VecOp where
  hdr : CmdHdr
  instrOff : BitVec 24
  instrCount : BitVec 16
  deriving DecidableEq, Repr

/-- Operands of WAIT and SIGNAL (R113). -/
structure TokenOp where
  hdr : CmdHdr
  token : BitVec 7
  count : BitVec 8
  deriving DecidableEq, Repr

/-- Operands of TREE (R169). -/
structure TreeOp where
  hdr : CmdHdr
  standId : BitVec 8
  seg : BitVec 3
  outMode : BitVec 2
  fAddr : BitVec 15
  oAddr : BitVec 15
  fStrideM1 : BitVec 7
  oStrideM1 : BitVec 4
  samplesM1 : BitVec 11
  fence : Bool
  deriving DecidableEq, Repr

/-- The fields of a vector instruction other than its opcode (R131). `resid` counts the attempts at this execution whose
residue check reports a mismatch (R137). -/
structure VOps where
  vd : BitVec 8
  va : BitVec 8
  vb : BitVec 8
  msk : BitVec 3
  mz : Bool
  ty : BitVec 3
  imm : BitVec 24
  resid : Nat
  deriving DecidableEq, Repr

/-- A VEC command's instruction words, and by position the attempts at them whose residue check reports a mismatch (R137). -/
structure VecProg where
  words : List W64
  resid : List (Nat × Nat)
  deriving DecidableEq, Repr

/-- A tree-memory parity failure that persists after its retry: the segment, the node, and whether the
reloaded word fails again (R181, R182). -/
structure NodeFault where
  seg : Nat
  node : Nat
  again : Bool
  deriving DecidableEq, Repr

/-- An NLU command (R207). -/
structure NluCmd where
  launchRef : BitVec 10
  table : TableId
  poolOp : BitVec 2
  outFmt : BitVec 2
  keyLine : BitVec 20
  keyCountM1 : BitVec 20
  bagLine : BitVec 20
  bagCountM1 : BitVec 16
  destCluster : BitVec 5
  destLine : BitVec 18
  destStrideM1 : BitVec 8
  tensorId : BitVec 20
  reamSeq : W32
  deriving DecidableEq, Repr

/-- A device or slot region as an image or a BCB lists it (R191, R357). -/
structure RegionReq where
  first : Nat
  count : Nat
  kind : Nat
  deriving DecidableEq, Repr

/-- A stand of an image: its header and base values and node words as bytes of R161, and the
logical core that each segment is placed on (R174). -/
structure StandObj where
  offset : Nat
  bytes : Bytes
  cluster : ClusterId
  cores : List (Fin 8)
  deriving DecidableEq, Repr

/-- One gather-list entry: the 32 bytes of the NLU command it yields, read as a little-endian number (R4, R207). -/
structure GatherEntry where
  offset : Nat
  /-- The share of the group placement that it belongs to (R379). -/
  share : Nat
  word : BitVec 256
  deriving DecidableEq, Repr

/-- Where a service's request body holds keys of a gather-list entry (R303): the entry's number, the
byte offset, the number of 8-byte keys and their byte order. -/
structure SvcKeys where
  entry : Nat
  off : Nat
  count : Nat
  big : Bool
  deriving DecidableEq, Repr

/-- A service table entry (R273, R297, R303). -/
structure Service where
  id : W16
  estNs : Nat
  units : Nat
  clusters : List ClusterId
  bodyLen : Option Nat
  resultLen : Nat
  keys : List SvcKeys
  deriving DecidableEq, Repr

/-- A 128-bit core command of a program with the image offset it stands at (R109). -/
structure ProgCmd where
  offset : Nat
  word : BitVec 128
  deriving DecidableEq, Repr

/-- A core program: its logical core, context and commands, the vector words it names and the
group placement's share (R102, R109, R113). -/
structure CoreProgram where
  core : CoreId
  ctx : CtxId
  share : Nat
  cmds : List ProgCmd
  vec : List W64
  deriving DecidableEq, Repr

/-- The partition of tile memory lines and the banks of one context (R102). -/
structure CtxPart where
  firstLine : Nat
  lineCount : Nat
  banks : List (Fin 4)
  deriving DecidableEq, Repr

/-- A side table entry: the tile-memory lines of R111, and how many tokens the V tail holds when the command runs. No rule says where
the engine finds that number (R86, R87); the model takes it from the image (DESIGN CHOICE, log 76). -/
structure SideEntry where
  wSide : Nat
  aSide : Nat
  constLine : Nat
  tailW : Nat
  tailA : Nat
  tailTokens : Nat
  deriving DecidableEq, Repr

/-- A layer's descriptor (R59, R68, R82, R85, R408). -/
structure LayerDesc where
  offset : Nat
  layer : W16
  k : Nat
  cut : List Nat
  isKv : Bool
  /-- The KV cache's format (R84). -/
  kvFmt : BitVec 4
  headDim : Nat
  /-- The logical cores of the rebuild program that its KV descriptor names; none where it names no program (R408). -/
  rebuild : List CoreId
  deriving DecidableEq, Repr

/-- Where a part of a tensor lies (R462, R465). -/
inductive PartLoc where
  | tile (core : CoreId) (line lines : Nat)
  | bank (core : CoreId) (bank : Fin 4)
  | clusterSram (k : ClusterId) (line lines : Nat)
  | dieSram (d : CDie) (line lines : Nat)
  | dpa (addr bytes : Nat)
  deriving DecidableEq, Repr

/-- A tensor descriptor (R75, R77, R157, R462). `zps` is empty for a symmetric tensor. -/
structure TensorDesc where
  id : BitVec 20
  layers : List W16
  fmt : BitVec 4
  zpen : Bool
  satThresh : Nat
  spine : CDie
  posts : Nat
  scales : List Byte
  zps : List Byte
  parts : List PartLoc
  /-- For a static scale table of its own TENSOR_ID, the tensor that it serves (R77). -/
  tableOf : Option (BitVec 20)
  deriving DecidableEq, Repr

/-- A stored narrow tensor of the image: rows of blocks by R62 with weight deckles (R67). -/
structure WeightObj where
  offset : Nat
  fmt : BitVec 4
  g : Nat
  k : Nat
  rows : List Bytes
  deriving DecidableEq, Repr

/-- A section of the image: the image bytes that the load writes to stack memory, and whether the image
marks it cold (R217). -/
structure Section where
  offset : Nat
  len : Nat
  dpa : Nat
  cold : Bool
  deriving DecidableEq, Repr

/-- Where each row of a ream, one for each of its requests, has a part of its input or of its output in cluster SRAM: the share
that uses it, the logical cluster, the byte address of row 0 in context 0, the steps to the next row and to the next context, and
the bytes of a row. The manual leaves these places to the image (DESIGN CHOICE, log 13). -/
structure RowPlace where
  share : Nat
  cluster : ClusterId
  off : Nat
  step : Nat
  ctxStep : Nat
  len : Nat
  deriving DecidableEq, Repr

/-- The content of a `.bzm` image after its envelope, as the loader reads it out. The container
format is the compiler's own, so the parsed objects come with the command (DESIGN CHOICE, log 9). -/
structure Image where
  tables : List (Nat × Bytes)
  adopted : List (Nat × Bytes)
  regions : List RegionReq
  stands : List StandObj
  gather : List GatherEntry
  services : List Service
  inputs : List RowPlace
  outputs : List RowPlace
  parts : List CtxPart
  sides : List (List SideEntry)
  programs : List CoreProgram
  layers : List LayerDesc
  tensors : List TensorDesc
  weights : List WeightObj
  sections : List Section
  overhangOk : Bool
  deriving DecidableEq, Repr

/-- A canopy report (R393). -/
structure Report where
  code : W16
  suspect : UnitCode
  alt : UnitCode
  reporter : UnitCode
  gtNs : W64
  sub : BitVec 6
  stretched : Bool
  layer : W16
  op : W16
  value : W32
  count : Nat
  reporters : Nat
  deriving DecidableEq, Repr

/-- A group frame's header (R369). -/
structure GrpHdr where
  version : Byte
  typ : Byte
  len : W16
  groupId : W32
  epoch : W32
  srcId : PeerId
  srcUnassigned : Bool
  dstId : PeerId
  dstUnassigned : Bool
  seq : W32
  ack : W32
  deriving DecidableEq, Repr

/-- A journal entry's data (R382): what a promoted device rebuilds a tracker entry from. -/
structure JEntry where
  handle : Nat
  die : NDie
  requestId : W64
  deadline : W64
  service : W16
  slot : SlotId
  port : LaneId
  frame : Bytes
  outs : List W32
  untracked : Bool
  unscored : Bool
  deriving DecidableEq, Repr

/-- A record of a TABLE_BATCH (R243) with the row bytes found at SRC. -/
structure BatchRec where
  op : BitVec 4
  static : Bool
  reserved : Bool
  row : W32
  key : W64
  rowBytes : Bytes
  deriving DecidableEq, Repr

/-- What a host holds for a TABLE_BATCH: the list at RECORDS, and the row bytes at the SRC of each ROW_WRITE in order (R243). -/
structure BatchSrc where
  list : Bytes
  rows : List Bytes
  deriving DecidableEq, Repr

/-- The end of a received frame: its FCS, and the SUB of its last byte (R18, R46). -/
structure FrameEnd where
  fcsGood : Bool
  sub : BitVec 6
  deriving DecidableEq, Repr

/-- A worker's line of the member table that holders keep (R382): what a promoted device needs of it (DESIGN CHOICE, log 10). -/
structure Member where
  holder : Bool
  eligible : Bool
  ident : W64
  mac : Nat
  deriving DecidableEq, Repr

/-- A group frame's body by type (R370). A member change is none for a worker that has left. -/
inductive GrpBody where
  | announce (ident hashA hashB : W64) (eligible : Bool) (gtNs : W64)
  | welcome (id : PeerId) (gtNs : W64) (hash : W64)
  | refuse (status : Byte)
  | heartbeat (tTx tRxPrev tTxPrev : W64) (aligned ready holder draining : Bool) (load : Byte)
      (hashA hashB tgen : W64)
  | ack
  | write (space : BitVec 2) (addr : Nat) (data : Bytes)
  | work (ream : W32) (share : Nat) (slotHash : W64) (tgen : W32) (launchGt : W64)
  | result (ream : W32) (share : Nat) (status : Byte)
  | refuseWork (ream : W32) (share : Nat) (status : Byte)
  | journal (e : JEntry)
  | release (handles : List Nat)
  | members (changes : List (PeerId × Option Member))
  | tableCopy (t : TableId) (desc : Bytes) (addr : Nat) (data : Bytes) (gen : W32) (last : Bool)
  | tableBatch (t : TableId) (recs : List BatchRec) (expectGen : W32) (launchGt : W64)
  | leave
  | promote (epoch : W32)
  | probe
  deriving DecidableEq, Repr, Inhabited

/-- A table that a sweep ages: a die's forwarding table, or a stack table of KIND FLOW (R255). -/
inductive SweepOf where
  | fwd (d : NDie)
  | stack (t : TableId)
  deriving DecidableEq, Repr

/-- The commands. Each docstring names the row's rule; operands are what the outside or the
hardware brings to the step. -/
inductive Instr where
  -- start-up and reset
  | porstAssert
  | porstRelease (straps : BitVec 4)
  | firmwareVerify
  | stackFillEnd
  | configLoad
  | timeLockTimeout
  | servingEnter (sourceNs : W64)
  | hostLinkUp (p : HPort)
  | hostPortReset (p : HPort) (kind : PortReset)
  -- the packet path and the flow table
  | frameReceive (port : LaneId) (bytes : Bytes) (fcsGood : Bool) (sub : BitVec 6)
  | groupFrameReceive (port : LaneId) (bytes : Bytes) (fin : FrameEnd)
  | flowUpdate
  | flowInsert
  | flowSample
  | sampleDispatch (k : ClusterId)
  | segmentSumDone (c : CoreId) (faults : List NodeFault)
  | standOutputsReturn (k : ClusterId)
  | scoreWaitExpire (d : NDie) (ix : Nat)
  | admissionOffer
  | reamSeal
  -- launches
  | prewake (dom : DomainId)
  | launchEdge
  | lateLaunch (dom : DomainId)
  | programStart (c : CoreId) (ctx : CtxId) (ream : W32)
  -- core commands
  | nop (c : CoreId) (ctx : CtxId) (hdr : CmdHdr)
  | mma (c : CoreId) (ctx : CtxId) (op : MmaOp) (fault : EngineFault)
  | tileReexecute (c : CoreId) (m : MeId) (fault : EngineFault)
  | mmaReissue (c : CoreId) (m : MeId) (fault : EngineFault)
  | deckleStrikeClear (c : CoreId) (m : MeId)
  | checkStrikeClear (c : CoreId) (m : MeId)
  | ldt (c : CoreId) (ctx : CtxId) (op : LdtOp) (errs : List (Nat × LineErr))
  | stt (c : CoreId) (ctx : CtxId) (op : SttOp)
  | vec (c : CoreId) (ctx : CtxId) (op : VecOp) (prog : VecProg)
  | tree (c : CoreId) (ctx : CtxId) (op : TreeOp) (faults : List NodeFault)
  | parityStrikeClear (c : CoreId)
  | wait (c : CoreId) (ctx : CtxId) (op : TokenOp)
  | signal (c : CoreId) (ctx : CtxId) (op : TokenOp)
  | endProg (c : CoreId) (ctx : CtxId) (hdr : CmdHdr)
  -- vector instructions
  | vnop (c : CoreId) (v : VOps)
  | add (c : CoreId) (v : VOps)
  | sub (c : CoreId) (v : VOps)
  | mul (c : CoreId) (v : VOps)
  | fma (c : CoreId) (v : VOps)
  | residueStrikeClear (c : CoreId)
  | div (c : CoreId) (v : VOps)
  | sqrt (c : CoreId) (v : VOps)
  | max (c : CoreId) (v : VOps)
  | min (c : CoreId) (v : VOps)
  | abs (c : CoreId) (v : VOps)
  | neg (c : CoreId) (v : VOps)
  | mov (c : CoreId) (v : VOps)
  | sel (c : CoreId) (v : VOps)
  | and (c : CoreId) (v : VOps)
  | or (c : CoreId) (v : VOps)
  | xor (c : CoreId) (v : VOps)
  | shl (c : CoreId) (v : VOps)
  | shra (c : CoreId) (v : VOps)
  | shrl (c : CoreId) (v : VOps)
  | cmp (c : CoreId) (v : VOps)
  | mlog (c : CoreId) (v : VOps)
  | mcnt (c : CoreId) (v : VOps)
  | setvl (c : CoreId) (v : VOps)
  | cvt (c : CoreId) (v : VOps)
  | movi (c : CoreId) (v : VOps)
  | bcast (c : CoreId) (v : VOps)
  | iota (c : CoreId) (v : VOps)
  | vld (c : CoreId) (v : VOps)
  | vst (c : CoreId) (v : VOps)
  | vlds (c : CoreId) (v : VOps)
  | vsts (c : CoreId) (v : VOps)
  | perm (c : CoreId) (v : VOps)
  | compress (c : CoreId) (v : VOps)
  | expand (c : CoreId) (v : VOps)
  | rsum (c : CoreId) (v : VOps)
  | rmean (c : CoreId) (v : VOps)
  | rmax (c : CoreId) (v : VOps)
  | rmin (c : CoreId) (v : VOps)
  | rargmax (c : CoreId) (v : VOps)
  | rargmin (c : CoreId) (v : VOps)
  | topk (c : CoreId) (v : VOps)
  | tmerge (c : CoreId) (v : VOps)
  | exp (c : CoreId) (v : VOps)
  | log (c : CoreId) (v : VOps)
  | rsqrt (c : CoreId) (v : VOps)
  | tanh (c : CoreId) (v : VOps)
  | sigm (c : CoreId) (v : VOps)
  | gelu (c : CoreId) (v : VOps)
  | cvset (c : CoreId) (v : VOps)
  | setcc (c : CoreId) (v : VOps)
  | size (c : CoreId) (v : VOps)
  | cvtn (c : CoreId) (v : VOps)
  | side (c : CoreId) (v : VOps)
  | dcvn (c : CoreId) (v : VOps)
  | cfl (c : CoreId) (v : VOps)
  | spineClipMerge (d : CDie) (ream : W32) (tensor : BitVec 20)
  -- near-memory lookup and the stacks
  | gather (d : CDie) (cmd : NluCmd) (errs : List (Nat × LineErr))
  | pool (d : CDie) (cmd : NluCmd) (errs : List (Nat × LineErr))
  | nluLookup (u : NluId) (ream : W32) (t : TableId) (key : W64)
  | lookupForward (u : NluId)
  | poolCombine (d : CDie) (ream : W32) (tensor : BitVec 20)
  | overhangRead (u : NluId) (unit : Nat) (attempts : List (Option Bytes))
  | guardedWrite (line : Nat) (data : BitVec 512)
  | degradedRead (line : Nat)
  | scrubPass (st : StackId) (corrected : Nat) (ue : List Nat)
  | stripeParityCheck
  | stackLost (st : StackId)
  | stackRetire (p : HPort)
  | rebuildStep
  -- tables
  | tableInsert
  | entryMove (chain : Nat)
  | batchStage (t : TableId)
  | lateCommit (t : TableId)
  | retirementStart (t : TableId)
  | retirementEnd (t : TableId)
  | tblRead (p : HPort) (t : TableId)
  | tblInsert (p : HPort) (t : TableId)
  | tblUpdate (p : HPort) (t : TableId)
  | tblDelete (p : HPort) (t : TableId)
  | tblMove (p : HPort) (t : TableId)
  | fwdRead (p : HPort) (d : NDie)
  | fwdInsert (p : HPort) (d : NDie)
  | fwdUpdate (p : HPort) (d : NDie)
  | fwdDelete (p : HPort) (d : NDie)
  | fwdMove (p : HPort) (d : NDie)
  | learnHoldExpire (d : NDie) (key : W64)
  | agingVisit (sweep : SweepOf) (bucket : Nat)
  | pfxWrite (p : HPort) (d : NDie) (cmd : W32)
  | pfxRead (p : HPort) (d : NDie) (cmd : W32)
  | ruleWrite (p : HPort) (d : NDie) (cmd : W32)
  | ruleRead (p : HPort) (d : NDie) (cmd : W32)
  -- ports and egress
  | quadModeWrite (p : HPort) (d : NDie) (value : W32)
  | portUp (port : LaneId)
  | laneLost (lane : LaneId)
  | portRewidth (port : LaneId)
  | laneRejoin (lane : LaneId)
  | laserLowLight (lane : LaneId) (power : BitVec 12)
  | shaperWheelSlot (d : NDie)
  | egressSelect (port : LaneId)
  | transmitEnd (port : LaneId)
  | gateListChange (port : LaneId)
  | gateApply (p : HPort) (port : LaneId)
  | shaperConfig (p : HPort) (d : NDie) (value : W64)
  | meterConfig (p : HPort) (d : NDie) (hi : W32)
  | responseBuild (d : NDie) (ix : Nat) (ream : W32)
  | responseCellWait (d : NDie) (ix : Nat)
  | requestReap (d : NDie) (ix : Nat)
  | fifoPop (p : HPort) (d : NDie) (parityBad : Bool)
  | dropRest (p : HPort) (d : NDie)
  | slotDrained (slot : SlotId)
  | segmentMove (c : CoreId)
  | standReloadEnd (slot : SlotId)
  -- group time
  | gtReplicaSync (drift : List (UnitCode × Int))
  | holdoverEnter
  | holdoverExit (offsetPs : W32)
  | ppsInEdge
  | gtSourceWrite (p : HPort) (value : W32)
  | gtStep (p : HPort)
  | gtReadCapture (p : HPort)
  -- register reads with an effect, and writes
  | shadowRead (p : HPort) (off : BitVec 24)
  | logWordCapture (p : HPort)
  | peakRead
  | registerWrite (p : HPort) (off : BitVec 24) (size8 : Bool) (value : W64)
  | semReq (p : HPort) (token : W16)
  | semRel (p : HPort) (token : W16)
  | semLeaseExpire
  | hdmRead (p : HPort) (addr : W64) (err : Option LineErr)
  | hdmWrite (p : HPort) (addr : W64) (data : BitVec 512)
  | backInvalidate (p : HPort) (line : Nat) (dirty : Option (BitVec 512))
  | hdmCommit (p : HPort) (base : W64) (size : W64)
  -- rings and descriptors
  | sqDoorbell (p : HPort) (ring : RingId) (value : W32)
  | cqDoorbell (p : HPort) (ring : RingId) (value : W32)
  | sqLineSnoop (p : HPort) (ring : RingId) (flags : Byte)
  | sqEnable (p : HPort) (ring : RingId) (cfg : W32)
  | sqDisable (p : HPort) (ring : RingId) (cfg : W32)
  | sqStopped (p : HPort) (ring : RingId)
  | cqEnable (p : HPort) (ring : RingId) (cfg : W32)
  | cqCoalesceTimer (p : HPort) (ring : RingId)
  | descriptorFetch (p : HPort) (ring : RingId) (line : Option Bytes)
  | descriptorAccept (p : HPort) (ring : RingId)
  | loadImage
  | loadImageEnd (slot : SlotId) (env : Bytes) (content : Bytes) (img : Image)
  | activateSlot
  | overlayStore (block : Bytes)
  | overlayApplySet
  | replaceBcb (block : Bytes)
  | tableBatch (src : BatchSrc)
  | infer (body : Bytes)
  | dumpArm
  | dumpDisarm
  | dumpCopy (point : Fin 16) (part : Nat) (ream : W32)
  | dumpCopyEnd (point : Fin 16)
  | counterSnapshot
  | freeze
  | timeSetSource
  | timeSetRate
  | timeStep
  | timeRead
  | groupList
  | groupEvict
  | groupSetHolders
  | groupHandover
  | groupLeave
  | evrRead
  | evrReadHold
  | evrHoldTimeout
  | attest
  | attestReport
  | protCommit (p : HPort) (value : W32)
  -- the group
  | announceSend
  | announce
  | welcome
  | refuse
  | heartbeatSend
  | heartbeat
  | ack
  | retransmit (peer : PeerId)
  | write
  | work
  | shareEnd (ream : W32) (slot : SlotId) (launch share : Nat)
  | result
  | refuseWork
  | journal
  | release
  | members
  | table
  | leave
  | promote
  | probe
  | workerReady (peer : PeerId)
  | peerLost (peer : PeerId)
  | probeSend
  | selfPromote
  | leaveTimeout
  | trackerEmptyJoin
  -- faults
  | canopyReport (node : UnitCode) (r : Report)
  | mergeWindowEnd (node : UnitCode) (code : W16) (suspect alt : UnitCode)
  | rootAction (unit : UnitCode)
  | keepaliveSend (silent : List UnitCode)
  | nodeLost (unit : UnitCode)
  | reamRelaunch (ream : W32)
  | memTimeout (reporter : UnitCode) (st : StackId) (layer op : W16)
  | fenceCmd (p : HPort)
  | unfenceCmd (p : HPort)
  | unfenceApply
  | handoverClear (p : HPort)
  -- power
  | coreSleep (c : CoreId)
  | clusterSleep (k : ClusterId)
  | stackSelfRefresh (st : StackId)
  | laneStandby (lane : LaneId)
  | sleepEntryEnd (dom : DomainId)
  | demandWake (dom : DomainId)
  | wakeEnd (dom : DomainId)
  | wakeFail (dom : DomainId)
  | droop (k : ClusterId)
  | droopRecover (k : ClusterId)
  | powerCapWindow (watts : BitVec 11)
  | thermalThrottle (d : Fin 6) (temp : Byte)
  | thermalRelease (d : Fin 6) (temp : Byte)
  | thermtrip (d : Fin 6)
  | qclkUnlock
  | qclkRelock
  | avsRetry (d : CDie) (acked : Bool)
  | aonBrownout
  -- firmware and security
  | watchdogExpire
  | fwWrite (p : HPort) (hdr body : Bytes)
  | fwSwitch (p : HPort)
  | fwHandoff
  | fwHealthReport
  | probationExpire
  | configCopyWrite
  | raiseCounter (p : HPort)
  | revokeSlot (p : HPort)
  | custKeyInstall (p : HPort)
  | custKeyClear (p : HPort)
  | doeDiscovery (p : HPort) (index : Byte)
  | certRead (p : HPort) (dw2 dw3 : W32)
  | doeAttest (p : HPort) (nonce : Bytes)
  -- management, trace, observation
  | i3cWrite (bytes : Bytes)
  | i3cRead
  | traceFrame
  | drainWrite (n : Nat)
  | drainRiWrite (p : HPort) (value : W32)
  | freezeAtMatch
  | freezeInEdge
  | thresholdMatch
  | freezeOutEnd
  | evrFlush (code : W16)
  | evrRecordClose (code : W16)
  | ppsOutRise
  | ppsOutFall
  | feltLinkLost (link : Fin 15)
  | fwWriteComplete (readBackOk : Bool)
  | fuseBlowEnd
  | snapshotComplete
  | evrReadComplete
  | dynamicAddressAssignment (addr : BitVec 7)
  deriving DecidableEq, Repr

end Sys2Proof
end

