-- ==== Sys2Proof/Decode.lean ====
section
/-! DEFINITION. The word decoder. spec/opcode_table.json gives no row of this block any bits, so no
word spells a command. -/

namespace Sys2Proof

/-- The command that a word spells by the table's bits. -/
def decodeTableWord (_nbits _w : Nat) : Option Instr := none

end Sys2Proof
end

