-- ==== Sys2Proof/Config.lean ====
section
/-! DEFINITION. What the manual leaves open, as constants without a body: no proof can see a value
of theirs (logs 3, 6, 7, 8, 17, 35 and 37). -/

namespace Sys2Proof

/-- A fresh free value for each number drawn from `State.fresh` (DESIGN CHOICE, log 3). -/
opaque Config.free : Nat → Nat

/-- A unit's own cycle count at a stamp, by the unit code and the number drawn (R46; DESIGN CHOICE, log 100). -/
opaque Config.sub : Nat → Nat → Nat

/-- The bytes of a memory that has lost power, by the number drawn when it did (DESIGN CHOICE, log 8). -/
opaque Config.freeBytes : Nat → Bytes

/-- The last bits of a transcendental result inside the bound of R150: one table-and-polynomial
evaluation per function, which the manual does not give (R151; DEDUCED, log 7). -/
opaque Config.transRaw : Nat → BitVec 32 → BitVec 32

/-- ABS (false) and NEG (true) of the most negative integer of a width (R132; DESIGN CHOICE, log 14). -/
opaque Config.signOpen : Nat → Bool → Int

/-- The 32-bit VALUE of a canopy report whose layout the manual does not give, from the code and the
contents that its rule names (R393; DESIGN CHOICE, log 17). -/
opaque Config.packValue : Nat → List Nat → BitVec 32

/-- The bytes of a static scale table as its image stores it, from the SCALE and ZP of each block index: the
layout is the image's (R465; DESIGN CHOICE, log 35). -/
opaque Config.scaleBytes : List (Nat × Int) → Bytes

/-- The bytes of a group frame's body, and the body that bytes spell, for the types whose layout the manual does not give
(R370; DESIGN CHOICE, log 10). -/
opaque Config.grpBytes : GrpBody → Bytes
opaque Config.grpBody : Nat → Bytes → GrpBody

/-- A request's input bytes as the model's input reads them: SERVICE, FLOW_UNTRACKED, FLOW_UNSCORED, the stand outputs and the
body, in a layout that the manual leaves to the image (R21, R277; DESIGN CHOICE, log 13). -/
opaque Config.inputBytes : W16 → Bool → Bool → List W32 → Bytes → Bytes

/-- The bytes of a journal entry in its holder's JOURNAL_REGION, whose layout the manual does not give (R382; DESIGN CHOICE,
log 10). -/
opaque Config.journalBytes : JEntry → Bytes

/-- The clock's own 10-byte port identity in PTP messages (R36; DESIGN CHOICE, log 102). -/
opaque Config.ptpIdentity : Nat

/-- ROM_HASH of an attestation report, fixed for the stepping and not given (R443; DESIGN CHOICE, log 37). -/
opaque Config.romHash : Bytes

/-- SHA-384 of a byte string, 48 bytes (R430; DESIGN CHOICE, log 6). -/
opaque Config.sha384Of : Bytes → Vector Byte 48
def Config.sha384 (bs : Bytes) : Bytes := (Config.sha384Of bs).toList

/-- ECDSA P-384 verification of a signature over a byte string under a public key (R430; DESIGN CHOICE, log 6). -/
opaque Config.ecdsaVerify : Bytes → Bytes → Bytes → Bool

/-- The device's own signature over a report (R443; DESIGN CHOICE, log 6). -/
opaque Config.ecdsaSign : Bytes → Bytes

end Sys2Proof
end

