-- ==== Sys2Proof/Machine/Float.lean ====
section
/-! DEFINITION. Exact values and their single rounding: the wide formats of R55 and R56, the narrow
element encodings, and the FP32 operations of R57, R80, R94 and R135. Every value is a sign, a
natural significand and a power of two; a rounding is one integer division. -/

namespace Sys2Proof.Machine

/-- A floating-point value held exactly: `fin neg m e` is ±m·2^e; a zero keeps its sign. -/
inductive FV where
  | nan
  | inf (neg : Bool)
  | fin (neg : Bool) (m : Nat) (e : Int)
  deriving DecidableEq, Repr

/-- A wide format of R55, by its fraction and exponent bits and bias (R56). -/
structure WideFmt where
  mbits : Nat
  ebits : Nat
  bias : Nat
  deriving DecidableEq, Repr

def fp32 : WideFmt := { mbits := 23, ebits := 8, bias := 127 }
def bf16 : WideFmt := { mbits := 7, ebits := 8, bias := 127 }
def fp16 : WideFmt := { mbits := 10, ebits := 5, bias := 15 }

/-- The weight of the last place of a subnormal: 2^lsb. -/
def WideFmt.lsb (f : WideFmt) : Int := 1 - (f.bias : Int) - (f.mbits : Int)

/-- The exponent field of infinities and NaNs. -/
def WideFmt.emax (f : WideFmt) : Nat := 2 ^ f.ebits - 1

/-- The canonical quiet NaN of R57. -/
def WideFmt.qnan (f : WideFmt) : Nat := f.emax * 2 ^ f.mbits + 2 ^ (f.mbits - 1)

/-- The value of an encoding of a wide format (R56). -/
def decodeWide (f : WideFmt) (w : Nat) : FV :=
  let frac := w % 2 ^ f.mbits
  let ex := w / 2 ^ f.mbits % 2 ^ f.ebits
  let neg := w / 2 ^ (f.mbits + f.ebits) % 2 == 1
  if ex == f.emax then (if frac == 0 then .inf neg else .nan)
  else if ex == 0 then .fin neg frac f.lsb
  else .fin neg (2 ^ f.mbits + frac) (f.lsb + (ex : Int) - 1)

/-- n/d rounded to the nearest integer, ties to even. -/
def rneDiv (n d : Nat) : Nat :=
  let q := n / d
  let r := n % d
  if 2 * r < d then q
  else if d < 2 * r then q + 1
  else if q % 2 == 0 then q else q + 1

/-- A signed quotient rounded to the nearest integer, ties to even (`rne_int` of R69). -/
def rneInt (neg : Bool) (n d : Nat) : Int :=
  if neg then -(rneDiv n d : Int) else (rneDiv n d : Int)

/-- 2^e of an integer e, as the pair of factors of numerator and denominator. -/
def pow2Num (e : Int) : Nat := if 0 ≤ e then 2 ^ e.toNat else 1
def pow2Den (e : Int) : Nat := if 0 ≤ e then 1 else 2 ^ (-e).toNat

/-- The floor of the binary logarithm of n/d, both positive. -/
def floorLog2 (n d : Nat) : Int :=
  let k : Int := (Nat.log2 n : Int) - (Nat.log2 d : Int)
  if d * pow2Num k ≤ n * pow2Den k then k else k - 1

/-- n/d rounded once, ties to even, to `p` significant bits with no place below 2^lsb:
the significand and its exponent (R57). -/
def roundBits (p : Nat) (lsb : Int) (n d : Nat) : Nat × Int :=
  if n == 0 then (0, lsb)
  else
    let e := max (floorLog2 n d - ((p : Int) - 1)) lsb
    (rneDiv (n * pow2Den e) (d * pow2Num e), e)

/-- n/d·2^0 with sign, rounded once to a wide format; overflow gives a signed infinity (R57). -/
def roundQ (f : WideFmt) (neg : Bool) (n d : Nat) : FV :=
  let (m, e) := roundBits (f.mbits + 1) f.lsb n d
  if m == 0 then .fin neg 0 f.lsb
  else
    let top : Int := f.lsb + (f.emax : Int) - 1
    -- the largest finite value is (2^(mbits+1) - 1)·2^(top - 1)
    if (2 ^ (f.mbits + 1)) * pow2Num (top - 1) * pow2Den e ≤ m * pow2Num e * pow2Den (top - 1) then
      .inf neg
    else .fin neg m e

/-- ±m·2^e rounded once to a wide format. -/
def roundDy (f : WideFmt) (neg : Bool) (m : Nat) (e : Int) : FV :=
  roundQ f neg (m * pow2Num e) (pow2Den e)

/-- The encoding of a value of a wide format; a value that the format does not hold is rounded
first, once. -/
def encodeWide (f : WideFmt) (v : FV) : Nat :=
  let s (neg : Bool) : Nat := if neg then 2 ^ (f.mbits + f.ebits) else 0
  match v with
  | .nan => f.qnan
  | .inf neg => s neg + f.emax * 2 ^ f.mbits
  | .fin neg m e =>
    match roundDy f neg m e with
    | .nan => f.qnan
    | .inf n => s n + f.emax * 2 ^ f.mbits
    | .fin n m' e' =>
      if m' == 0 then s n
      else
        -- align to the format: m'·2^e' with 2^mbits ≤ significand, or a subnormal
        let k := floorLog2 m' 1
        let ex := k + e' - (f.lsb + (f.mbits : Int)) + 1
        if ex ≤ 0 then
          s n + m' * pow2Num (e' - f.lsb) / pow2Den (e' - f.lsb)
        else
          let lo := e' + k - (f.mbits : Int)
          let sig := m' * pow2Num (e' - lo) / pow2Den (e' - lo)
          s n + ex.toNat * 2 ^ f.mbits + (sig - 2 ^ f.mbits)

def FV.isNan : FV → Bool
  | .nan => true
  | _ => false

def FV.isFin : FV → Bool
  | .fin .. => true
  | _ => false

def FV.isZero : FV → Bool
  | .fin _ 0 _ => true
  | _ => false

def FV.isNeg : FV → Bool
  | .nan => false
  | .inf n => n
  | .fin n _ _ => n

def FV.zero : FV := .fin false 0 0

/-- The sign flipped (R132 NEG); a NaN stays the canonical NaN. -/
def FV.negate : FV → FV
  | .nan => .nan
  | .inf n => .inf (!n)
  | .fin n m e => .fin (!n) m e

def FV.abs : FV → FV
  | .nan => .nan
  | .inf _ => .inf false
  | .fin _ m e => .fin false m e

/-- The signed significand of ±m·2^e at the exponent `lo ≤ e`. -/
def alignTo (neg : Bool) (m : Nat) (e lo : Int) : Int :=
  let v : Int := ((m * 2 ^ (e - lo).toNat : Nat) : Int)
  if neg then -v else v

/-- The exact sum of two values: the sum of infinities of unlike sign is NaN, an exact zero of
unlike signs is +0 under round to nearest (IEEE 754-2019). -/
def addExact (a b : FV) : FV :=
  match a, b with
  | .nan, _ => .nan
  | _, .nan => .nan
  | .inf x, .inf y => if x == y then .inf x else .nan
  | .inf x, _ => .inf x
  | _, .inf y => .inf y
  | .fin na ma ea, .fin nb mb eb =>
    let lo := min ea eb
    let t := alignTo na ma ea lo + alignTo nb mb eb lo
    if t == 0 then .fin (na && nb) 0 lo
    else .fin (decide (t < 0)) t.natAbs lo

/-- The exact product; 0 × ∞ is NaN. -/
def mulExact (a b : FV) : FV :=
  match a, b with
  | .nan, _ => .nan
  | _, .nan => .nan
  | .inf x, .inf y => .inf (x != y)
  | .inf x, .fin n m _ => if m == 0 then .nan else .inf (x != n)
  | .fin n m _, .inf y => if m == 0 then .nan else .inf (n != y)
  | .fin na ma ea, .fin nb mb eb => .fin (na != nb) (ma * mb) (ea + eb)

/-- A value rounded once to a wide format (R57). -/
def roundFV (f : WideFmt) : FV → FV
  | .nan => .nan
  | .inf n => .inf n
  | .fin n m e => roundDy f n m e

/-- The quotient rounded once; 0/0 and ∞/∞ are NaN, x/0 is an infinity. -/
def divFV (f : WideFmt) (a b : FV) : FV :=
  match a, b with
  | .nan, _ => .nan
  | _, .nan => .nan
  | .inf _, .inf _ => .nan
  | .inf x, .fin n _ _ => .inf (x != n)
  | .fin n _ _, .inf y => .fin (n != y) 0 f.lsb
  | .fin na ma ea, .fin nb mb eb =>
    if mb == 0 then (if ma == 0 then .nan else .inf (na != nb))
    else roundQ f (na != nb) (ma * pow2Num (ea - eb)) (mb * pow2Den (ea - eb))

/-- The integer square root by digits: `fuel` halvings of the bit `b`. -/
def isqrtLoop : Nat → Nat → Nat → Nat
  | 0, _, r => r
  | fuel + 1, n, r =>
    let c := r + 2 ^ fuel
    isqrtLoop fuel n (if c * c ≤ n then c else r)

def isqrt (n : Nat) : Nat := isqrtLoop (Nat.log2 n / 2 + 1) n 0

/-- The square root rounded once. The significand is scaled to at least twice the bits that the
format needs plus two; a remainder sets a sticky bit below them, so the single rounding is that
of the exact root. A negative number other than −0 gives NaN. -/
def sqrtFV (f : WideFmt) (a : FV) : FV :=
  match a with
  | .nan => .nan
  | .inf n => if n then .nan else .inf false
  | .fin n m e =>
    if m == 0 then .fin n 0 f.lsb
    else if n then .nan
    else
      let sh : Nat := 2 * f.mbits + 8
      let sh := if (e - (sh : Int)) % 2 == 0 then sh else sh + 1
      let x := m * 2 ^ sh
      let r := isqrt x
      let sticky := if r * r == x then 0 else 1
      roundDy f false (2 * r + sticky) ((e - (sh : Int)) / 2 - 1)

/-- Compare two values that are not NaN, with −0 equal to +0. -/
def cmpNum (a b : FV) : Ordering :=
  match a, b with
  | .inf x, .inf y => if x == y then .eq else if x then .lt else .gt
  | .inf x, _ => if x then .lt else .gt
  | _, .inf y => if y then .gt else .lt
  | .fin na ma ea, .fin nb mb eb =>
    let lo := min ea eb
    compare (alignTo na ma ea lo) (alignTo nb mb eb lo)
  | _, _ => .eq

/-- The quiet less-than of IEEE 754-2019: false when either is a NaN (R135, R165). -/
def ltQuiet (a b : FV) : Bool :=
  match a, b with
  | .nan, _ => false
  | _, .nan => false
  | a, b => cmpNum a b == .lt

def eqQuiet (a b : FV) : Bool :=
  match a, b with
  | .nan, _ => false
  | _, .nan => false
  | a, b => cmpNum a b == .eq

/-- Order by value with −0 below +0; neither is a NaN. -/
def ltZeroSigned (a b : FV) : Bool :=
  match cmpNum a b with
  | .lt => true
  | .gt => false
  | .eq => a.isZero && b.isZero && a.isNeg && !b.isNeg

/-- maximum of IEEE 754-2019: NaN if either is, −0 below +0 (R135). -/
def maxFV (a b : FV) : FV :=
  match a, b with
  | .nan, _ => .nan
  | _, .nan => .nan
  | a, b => if ltZeroSigned a b then b else a

/-- minimum of IEEE 754-2019 (R135). -/
def minFV (a b : FV) : FV :=
  match a, b with
  | .nan, _ => .nan
  | _, .nan => .nan
  | a, b => if ltZeroSigned a b then a else b

/-- FP32 words as values and back. -/
def f32 (w : W32) : FV := decodeWide fp32 w.toNat
def toF32 (v : FV) : W32 := BitVec.ofNat 32 (encodeWide fp32 v)
def fb16 (w : W16) : FV := decodeWide bf16 w.toNat
def toBf16 (v : FV) : W16 := BitVec.ofNat 16 (encodeWide bf16 v)

/-- x + y rounded once to FP32 (R80, R94, R167). -/
def add32 (a b : FV) : FV := roundFV fp32 (addExact a b)
/-- x × y rounded once to FP32. -/
def mul32 (a b : FV) : FV := roundFV fp32 (mulExact a b)

/-- The exponent of a rounded result, for the bound of R115; 0 has the subnormal exponent. -/
def FV.exponent : FV → Int
  | .fin _ m e => if m == 0 then -126 else floorLog2 m 1 + e
  | _ => -126

/-- A finite value as an exact numerator over a power of two: num, and den. -/
def FV.num : FV → Int
  | .fin n m e => if n then -((m * pow2Num e : Nat) : Int) else ((m * pow2Num e : Nat) : Int)
  | _ => 0
def FV.den : FV → Nat
  | .fin _ _ e => pow2Den e
  | _ => 1

/-- The integer nearest to a finite value, ties to even; none for NaN and infinities (R136). -/
def rneToInt : FV → Option Int
  | .fin n m e => some (rneInt n (m * pow2Num e) (pow2Den e))
  | _ => none

/-- An integer as a value. -/
def intFV (i : Int) : FV := .fin (decide (i < 0)) i.natAbs 0

end Sys2Proof.Machine
end

