-- ==== Sys2Proof/Machine/Deckle.lean ====
section
/-! DEFINITION. Element formats, UE5M3 scales, blocks and deckles, the sizing pass and the
conversion (R55 to R73, R79, R80, R96). -/

namespace Sys2Proof.Machine

/-- The element formats of R55. -/
inductive ElemFmt where
  | fp32 | bf16 | fp16 | e4m3 | e5m2 | fp4 | int8 | int4
  deriving DecidableEq, Repr

/-- R55; codes 8 to 15 are reserved. -/
def elemFmt (c : Nat) : Option ElemFmt :=
  match c with
  | 0 => some .fp32
  | 1 => some .bf16
  | 2 => some .fp16
  | 3 => some .e4m3
  | 4 => some .e5m2
  | 5 => some .fp4
  | 6 => some .int8
  | 7 => some .int4
  | _ => none

def ElemFmt.narrow : ElemFmt → Bool
  | .fp32 | .bf16 | .fp16 => false
  | _ => true

def ElemFmt.isInt : ElemFmt → Bool
  | .int8 | .int4 => true
  | _ => false

/-- Bits of one stored element. -/
def ElemFmt.bits : ElemFmt → Nat
  | .fp32 => 32
  | .bf16 | .fp16 => 16
  | .e4m3 | .e5m2 | .int8 => 8
  | .fp4 | .int4 => 4

/-- A two's complement code of `n` bits. -/
def signedOf (n w : Nat) : Int := if 2 ^ (n - 1) ≤ w % 2 ^ n then (w % 2 ^ n : Int) - (2 ^ n : Int) else (w % 2 ^ n : Int)

/-- The value of a narrow code before scale and zero point (R56, R58, R60). -/
def codeValue (f : ElemFmt) (c : Nat) : FV :=
  match f with
  | .fp4 =>
    let ex := c / 2 % 4
    let neg := c / 8 % 2 == 1
    if ex == 0 then .fin neg (c % 2) (-1) else .fin neg (2 + c % 2) ((ex : Int) - 2)
  | .e4m3 =>
    let ex := c / 8 % 16
    let m := c % 8
    let neg := c / 128 % 2 == 1
    if ex == 15 && m == 7 then .nan
    else if ex == 0 then .fin neg m (-9) else .fin neg (8 + m) ((ex : Int) - 10)
  | .e5m2 => decodeWide { mbits := 2, ebits := 5, bias := 15 } c
  | .int8 => intFV (signedOf 8 c)
  | .int4 => intFV (signedOf 4 c)
  | .fp32 => decodeWide Machine.fp32 c
  | .bf16 => decodeWide Machine.bf16 c
  | .fp16 => decodeWide Machine.fp16 c

/-- The exponent of the unit in which R68's group accumulator counts a code: doubled integers for
FP4, 2^-9 for E4M3, 1 for integers. The factor k of R68 is the product of the two units. -/
def unitExp : ElemFmt → Int
  | .fp4 => -1
  | .e4m3 => -9
  | _ => 0

/-- A code in the units of R68's group accumulator (R58, R96); 0 for a code without a value. -/
def codeInt (f : ElemFmt) (c : Nat) : Int :=
  match codeValue f c with
  | .fin n m e => alignTo n m e (unitExp f)
  | _ => 0

/-- The FP4 and integer codes' signed sum, 0 for the 8-bit floats (R63). -/
def wsumOf (f : ElemFmt) (codes : List Nat) : Int :=
  match f with
  | .fp4 | .int8 | .int4 => (codes.map (codeInt f)).foldl (· + ·) 0
  | _ => 0

/-! ### Scales -/

/-- A UE5M3 code with a value: 0x08 to 0xFE (R61). -/
def scaleValid (c : Nat) : Bool := decide (8 ≤ c) && decide (c ≤ 254)

/-- The value of a scale code, 0 for ZERO and for the codes without a value (R61). -/
def scaleVal (c : Nat) : FV :=
  if scaleValid c then .fin false (8 + c % 8) ((c / 8 : Nat) - 18) else FV.zero

/-- A code's value at least n/d. -/
def scaleAtLeast (c n d : Nat) : Bool :=
  let e : Int := (c / 8 : Nat) - 18
  decide (n * pow2Den e ≤ (8 + c % 8) * pow2Num e * d)

/-- The rounded-up scale `ue_ceil`: the smallest code whose value is at least n/d, 0xFE above the
largest. -/
def ueCeil (n d : Nat) : Nat :=
  ((List.range' 8 247).find? (fun c => scaleAtLeast c n d)).getD 254

/-- The UE5M3 code nearest to n/d, ties to the even code, within 0x08 to 0xFE (R73). -/
def ueNearest (n d : Nat) : Nat :=
  let c := ueCeil n d
  if c ≤ 8 then 8
  else if !scaleAtLeast c n d then 254
  else
    -- twice n/d against the sum of the two neighbours
    let vc := scaleVal c
    let vb := scaleVal (c - 1)
    let s := addExact vc vb
    match cmpNum (.fin false (2 * n) 0) (mulExact s (.fin false d 0)) with
    | .lt => c - 1
    | .gt => c
    | .eq => if c % 2 == 0 then c else c - 1

/-! ### Deckles and blocks -/

/-- The fields of either deckle layout (R63, R64). -/
structure Deckle where
  scale : Nat
  seq : Nat
  const : Bool
  cut : Bool
  gsize : Nat
  /-- Signed zero point, activation layout. -/
  zp : Int
  /-- Signed sum of codes, weight layout. -/
  wsum : Int
  deriving DecidableEq, Repr

/-- G of a GSIZE code; none for the reserved code. -/
def gOf (gsize : Nat) : Option Nat :=
  match gsize with
  | 0 => some 32
  | 1 => some 64
  | 2 => some 128
  | _ => none

/-- The weight layout (R63). -/
def weightDeckle (w : Nat) : Deckle :=
  { scale := w % 256, seq := w / 256 % 16, const := w / 4096 % 2 == 1, cut := w / 8192 % 2 == 1,
    gsize := w / 16384 % 4, zp := 0, wsum := signedOf 16 (w / 65536) }

/-- The activation layout (R64). -/
def actDeckle (w : Nat) : Deckle :=
  { scale := w % 256, seq := w / 65536 % 16, const := w / 1048576 % 2 == 1,
    cut := w / 2097152 % 2 == 1, gsize := w / 4194304 % 4, zp := signedOf 8 (w / 256), wsum := 0 }

/-- A signed number as `n` bits. -/
def unsignedOf (n : Nat) (i : Int) : Nat := (i % (2 ^ n : Int)).toNat

def packWeight (d : Deckle) : Nat :=
  d.scale + d.seq * 256 + (if d.const then 4096 else 0) + (if d.cut then 8192 else 0) +
    d.gsize * 16384 + unsignedOf 16 d.wsum * 65536

def packAct (d : Deckle) : Nat :=
  d.scale + unsignedOf 8 d.zp * 256 + d.seq * 65536 + (if d.const then 1048576 else 0) +
    (if d.cut then 2097152 else 0) + d.gsize * 4194304

/-- A little-endian number from bytes (R4). -/
def leNat : Bytes → Nat
  | [] => 0
  | b :: bs => b.toNat + 256 * leNat bs

/-- The `n` bytes of a number, lowest first (R4). -/
def toLE : Nat → Nat → Bytes
  | 0, _ => []
  | n + 1, v => BitVec.ofNat 8 v :: toLE n (v / 256)

/-- A big-endian number, as on the wire. -/
def beNat (bs : Bytes) : Nat := bs.foldl (fun a b => a * 256 + b.toNat) 0

def toBE (n v : Nat) : Bytes := (toLE n v).reverse

/-- Bytes of a block of `g` elements: the deckle and the codes (R62). -/
def blockBytes (f : ElemFmt) (g : Nat) : Nat := 4 + g * f.bits / 8

/-- The codes of a block (R62): 4-bit elements low nibble first. -/
def unpackCodes (f : ElemFmt) (g : Nat) (bs : Bytes) : List Nat :=
  if f.bits == 4 then ((bs.take (g / 2)).map (fun b => [b.toNat % 16, b.toNat / 16])).flatten
  else (bs.take g).map (·.toNat)

def packCodes (f : ElemFmt) : List Nat → Bytes
  | [] => []
  | [a] => [BitVec.ofNat 8 a]
  | a :: b :: rest =>
    if f.bits == 4 then BitVec.ofNat 8 (a % 16 + 16 * (b % 16)) :: packCodes f rest
    else BitVec.ofNat 8 a :: BitVec.ofNat 8 b :: packCodes f rest

/-- A block read from storage. -/
structure Block where
  dk : Deckle
  codes : List Nat
  deriving DecidableEq, Repr

def readBlock (weight : Bool) (f : ElemFmt) (g : Nat) (bs : Bytes) : Block :=
  let w := leNat (bs.take 4)
  { dk := if weight then weightDeckle w else actDeckle w, codes := unpackCodes f g (bs.drop 4) }

/-- How a block fails R66. -/
inductive BlockFault where
  | format
  | skew (expected received : Nat)
  deriving DecidableEq, Repr

/-- A marker of a constant held in the side list (R73); activation layout only. -/
def isMarker (d : Deckle) : Bool := d.const && d.zp == 0 && d.scale != 0

/-- R66, in the table's order. `seq` is the expected tag; `matrix` says that a matrix engine reads
the block, so that an E4M3 NaN is a fault. A marker block is a legal CONST block. -/
def blockFault (f : ElemFmt) (g : Nat) (seq : Nat) (matrix : Bool) (b : Block) : Option BlockFault :=
  let d := b.dk
  let anyCode := b.codes.any (· != 0)
  if (d.scale != 0 && !scaleValid d.scale) || (d.scale == 0 && !d.const && anyCode) ||
      (d.const && anyCode) || gOf d.gsize != some g || (d.zp != 0 && !f.isInt) ||
      (matrix && f == .e4m3 && b.codes.any (fun c => c % 128 == 127)) then some .format
  else if d.seq != seq % 16 then some (.skew (seq % 16) d.seq)
  else none

/-- The decoded element of R65: SCALE × (code − ZP) for integers, SCALE × value for floats. -/
def decodeElem (f : ElemFmt) (d : Deckle) (c : Nat) : FV :=
  if f.isInt then mulExact (scaleVal d.scale) (intFV (codeInt f c - d.zp))
  else mulExact (scaleVal d.scale) (codeValue f c)

/-! ### Sizing (R69 to R73) -/

/-- The largest code magnitude of the symmetric ranges. -/
def qmaxSym : ElemFmt → Nat
  | .fp4 => 6
  | .e4m3 => 448
  | .e5m2 => 57344
  | .int4 => 7
  | .int8 => 127
  | _ => 1

def qminAsym (f : ElemFmt) : Int := if f == .int4 then -8 else -128
def qmaxAsym (f : ElemFmt) : Int := if f == .int4 then 7 else 127

/-- What the sizing pass finds for one group. -/
structure Sized where
  scale : Nat
  zp : Int
  const : Bool
  deriving DecidableEq, Repr

def sizedZero : Sized := { scale := 0, zp := 0, const := true }

/-- A group whose elements all equal v (R73). -/
def sizeConst (v : FV) : Sized :=
  if v.isZero then sizedZero
  else
    let n := v.num.natAbs
    let d := v.den
    let c := ueCeil n d
    if scaleAtLeast c n d && cmpNum (scaleVal c) v.abs == .eq then
      { scale := c, zp := if v.isNeg then 1 else -1, const := true }
    else { scale := ueNearest n d, zp := 0, const := true }

/-- min and max by value of finite numbers, −0 equal to +0. -/
def loOf (xs : List FV) : FV :=
  match xs with
  | [] => FV.zero
  | x :: rest => rest.foldl (fun a b => if cmpNum b a == .lt then b else a) x
def hiOf (xs : List FV) : FV :=
  match xs with
  | [] => FV.zero
  | x :: rest => rest.foldl (fun a b => if cmpNum a b == .lt then b else a) x

/-- The zero point that a scale gives a group with least element `lo` (R69). -/
def zpAt (f : ElemFmt) (scale : Nat) (lo : FV) : Int :=
  let lo := if cmpNum lo FV.zero == .lt then lo else FV.zero
  let s := scaleVal scale
  qminAsym f - rneInt lo.isNeg (lo.num.natAbs * s.den) (lo.den * s.num.natAbs)

/-- The asymmetric scale over [lo, hi] widened to include zero, and its zero point (R69, R77). -/
def sizeAsym (f : ElemFmt) (lo hi : FV) : Nat × Int :=
  let wlo := if cmpNum lo FV.zero == .lt then lo else FV.zero
  let whi := if cmpNum FV.zero hi == .lt then hi else FV.zero
  let r := addExact whi wlo.negate
  let steps := (qmaxAsym f - qminAsym f - 1).toNat
  let c := ueCeil r.num.natAbs (r.den * steps)
  (c, zpAt f c lo)

/-- The sizing pass over the non-cut elements of one group (R69). A group of cut channels only has
no non-cut element and range zero. -/
def sizeGroup (f : ElemFmt) (asym : Bool) (xs : List FV) : Sized :=
  if xs.any (fun x => !x.isFin) then { scale := 0xFF, zp := 0, const := false }
  else if asym then
    let lo := loOf xs
    let hi := hiOf xs
    if cmpNum lo hi == .eq then sizeConst lo
    else
      let (c, z) := sizeAsym f lo hi
      { scale := c, zp := z, const := false }
  else
    let m := hiOf (xs.map FV.abs)
    if m.isZero then sizedZero
    else { scale := ueCeil m.num.natAbs (m.den * qmaxSym f), zp := 0, const := false }

/-! ### Conversion (R71) -/

/-- The significant bits and last place of the narrow floats' grid. -/
def gridOf : ElemFmt → Nat × Int
  | .fp4 => (2, -1)
  | .e4m3 => (4, -9)
  | _ => (3, -16)

/-- The largest finite code, without sign, of a narrow float. -/
def maxCode : ElemFmt → Nat
  | .fp4 => 7
  | .e4m3 => 0x7E
  | _ => 0x7B

/-- The code without sign of a grid value m·2^e of a narrow float, by search over its codes. -/
def gridCode (f : ElemFmt) (m : Nat) (e : Int) : Nat :=
  ((List.range (maxCode f + 1)).find? (fun c => cmpNum (codeValue f c) (.fin false m e) == .eq)).getD (maxCode f)

/-- One element's code and whether it was clipped (R71). `sym` says that the block's code range is
the symmetric one of R60. -/
def convElem (f : ElemFmt) (sym : Bool) (scale : Nat) (zp : Int) (x : FV) : Nat × Bool :=
  let s := scaleVal scale
  let n := x.num.natAbs * s.den
  let d := x.den * s.num.natAbs
  let neg := x.isNeg
  if f.isInt then
    let lo : Int := if sym then -(qmaxSym f : Int) else qminAsym f
    let hi : Int := if sym then (qmaxSym f : Int) else qmaxAsym f
    let c := rneInt neg n d + zp
    let clipped := decide (c < lo) || decide (hi < c)
    let c := if c < lo then lo else if hi < c then hi else c
    (unsignedOf f.bits c, clipped)
  else
    let (p, lsb) := gridOf f
    let (m, e) := roundBits p lsb n d
    let top := codeValue f (maxCode f)
    let clipped := cmpNum top (.fin false m e) == .lt
    let c := if clipped then maxCode f else gridCode f m e
    (c + (if neg then 2 ^ (f.bits - 1) else 0), clipped)

end Sys2Proof.Machine
end

