-- ==== Sys2Proof/Machine/Maps.lean ====
section
/-! DEFINITION. Sparse data in one canonical form: maps from numbers with keys strictly rising,
sets of numbers strictly rising, and byte memories with addresses strictly rising that list no
byte equal to what an unlisted address reads as, which is 0 (DESIGN CHOICE, log 4). -/

namespace Sys2Proof.Machine

/-- Keys strictly rising. -/
def keysRise {α : Type} : List (Nat × α) → Bool
  | [] => true
  | [_] => true
  | a :: b :: rest => decide (a.1 < b.1) && keysRise (b :: rest)

/-- The value listed at a key. -/
def mapGet {α : Type} (k : Nat) : List (Nat × α) → Option α
  | [] => none
  | p :: rest => if p.1 == k then some p.2 else mapGet k rest

def mapGetD {α : Type} (d : α) (k : Nat) (m : List (Nat × α)) : α := (mapGet k m).getD d

/-- Remove a key. -/
def mapDel {α : Type} (k : Nat) (m : List (Nat × α)) : List (Nat × α) := m.filter (fun p => p.1 != k)

/-- List a value at a key, in order. -/
def mapSet {α : Type} (k : Nat) (v : α) (m : List (Nat × α)) : List (Nat × α) :=
  m.filter (fun p => decide (p.1 < k)) ++ (k, v) :: m.filter (fun p => decide (k < p.1))

/-- Write a value; the default is not listed. -/
def mapSetD {α : Type} [BEq α] (d : α) (k : Nat) (v : α) (m : List (Nat × α)) : List (Nat × α) :=
  if v == d then mapDel k m else mapSet k v m

/-- A set of numbers, strictly rising. -/
def setIns (k : Nat) (m : List Nat) : List Nat :=
  m.filter (fun x => decide (x < k)) ++ k :: m.filter (fun x => decide (k < x))
def setDel (k : Nat) (m : List Nat) : List Nat := m.filter (fun x => x != k)
def setPut (b : Bool) (k : Nat) (m : List Nat) : List Nat := if b then setIns k m else setDel k m

/-- The canonical form of a byte memory: addresses strictly rising, no zero byte listed. -/
def ramWf (r : List Host.Cell) : Bool := keysRise r && r.all (fun c => c.2 != 0)

/-- One byte; an unlisted address reads 0 (DESIGN CHOICE, log 4). -/
def ramGet (r : List Host.Cell) (a : Nat) : Byte := mapGetD 0 a r

/-- `n` bytes from cells whose addresses are at or above `a`. -/
def readCells : Nat → Nat → List Host.Cell → Bytes
  | 0, _, _ => []
  | n + 1, a, [] => 0 :: readCells n (a + 1) []
  | n + 1, a, (k, b) :: rest =>
    if k == a then b :: readCells n (a + 1) rest else 0 :: readCells n (a + 1) ((k, b) :: rest)

/-- `n` bytes from address `a` upward. -/
def ramRead (r : List Host.Cell) (a n : Nat) : Bytes := readCells n a (r.dropWhile (fun c => decide (c.1 < a)))

/-- The cells that `bs` lists from `a` upward; zeros are not listed. -/
def cellsOf : Nat → Bytes → List Host.Cell
  | _, [] => []
  | a, b :: bs => if b == 0 then cellsOf (a + 1) bs else (a, b) :: cellsOf (a + 1) bs

/-- Write bytes from address `a` upward. -/
def ramWrite (r : List Host.Cell) (a : Nat) (bs : Bytes) : List Host.Cell :=
  r.filter (fun c => decide (c.1 < a)) ++ cellsOf a bs ++
    r.filter (fun c => decide (a + bs.length ≤ c.1))

/-- Element `i` of a family of fixed size, the family with element `i` replaced, and with every element
mapped by its number. -/
def famGet {α : Type} {n : Nat} (d : α) (f : Vector α n) (i : Nat) : α := f.toList.getD i d
def famSet {α : Type} {n : Nat} (f : Vector α n) (i : Nat) (v : α) : Vector α n := f.setIfInBounds i v
def famMap {α : Type} {n : Nat} (g : Nat → α → α) (f : Vector α n) : Vector α n := ⟨⟨f.toList.mapIdx g⟩, by simp⟩

/-- Replace element `i` of a list. -/
def listSet {α : Type} (l : List α) (i : Nat) (v : α) : List α := l.set i v

/-- The first element for which `p` holds, and the list without it. -/
def takeFirst {α : Type} (p : α → Bool) : List α → Option (α × List α)
  | [] => none
  | a :: rest =>
    if p a then some (a, rest)
    else match takeFirst p rest with
      | some (b, r) => some (b, a :: r)
      | none => none

/-- Insert by a strict order, after equals. -/
def insertBy {α : Type} (lt : α → α → Bool) (x : α) : List α → List α
  | [] => [x]
  | a :: rest => if lt x a then x :: a :: rest else a :: insertBy lt x rest

/-- Stable insertion sort. -/
def sortBy {α : Type} (lt : α → α → Bool) (l : List α) : List α := l.foldl (fun acc x => insertBy lt x acc) []

/-- Bits [hi:lo] of a number. -/
def bits (w hi lo : Nat) : Nat := w / 2 ^ lo % 2 ^ (hi + 1 - lo)
def bit (w i : Nat) : Bool := w.testBit i
def b2n (b : Bool) : Nat := if b then 1 else 0

end Sys2Proof.Machine
end

