-- ==== Sys2Proof/Machine/RegTable.lean ====
section
/-! DEFINITION. The registers of BAR0 as the register lines of the manual give them: offset,
array strides, width, reset value, whether each host port holds its own copy, the selector of a
window, and the access code of every field (R5, R6, R331). A bit that no field names is reserved.
Registers whose reset the manual leaves to fuses, MRAM, straps or boot have reset 0 here, but for
SEC_FUSE.PROGRAMMED, which reads all four slots (R434; DESIGN CHOICE, log 5). The bits of a ring's or drain's host address that
must be 0 are reserved bits here (DESIGN CHOICE, log 122). -/

namespace Sys2Proof.Machine

/-- Access codes of R5. -/
inductive Acc where
  | ro | rw | w1c | wo | rws
  deriving DecidableEq, Repr

structure RegField where
  hi : Nat
  lo : Nat
  acc : Acc
  deriving DecidableEq, Repr

/-- One line: `base + s1·a + s2·b` for a < c1 and b < c2. -/
structure RegRow where
  base : Nat
  s1 : Nat
  c1 : Nat
  s2 : Nat
  c2 : Nat
  width : Nat
  reset : Nat
  /-- Each host port holds its own copy. -/
  priv : Bool
  /-- The selector register of the window the row is seen through. -/
  sel : Option Nat
  /-- N1 holds its own copy at the same offset plus 0x20_0000. -/
  net : Bool
  fields : List RegField
  deriving DecidableEq, Repr

def regRows0 : List RegRow := [
  -- HIF_ID
  ⟨0x000000, 0, 1, 0, 1, 32, 0xF2082DA5, false, none, false, [⟨15, 0, .ro⟩, ⟨31, 16, .ro⟩]⟩,
  -- HIF_STEPPING
  ⟨0x000010, 0, 1, 0, 1, 32, 0xA1, false, none, false, [⟨7, 0, .ro⟩]⟩,
  -- HIF_NUMREV
  ⟨0x000014, 0, 1, 0, 1, 32, 0x1, false, none, false, [⟨3, 0, .ro⟩]⟩,
  -- HIF_SEM
  ⟨0x000100, 0, 1, 0, 1, 32, 0x0, false, none, false, [⟨1, 0, .ro⟩, ⟨2, 2, .wo⟩, ⟨3, 3, .wo⟩, ⟨31, 16, .rw⟩]⟩,
  -- HIF_SEM_LEASE
  ⟨0x000104, 0, 1, 0, 1, 32, 0x0, false, none, false, [⟨13, 0, .ro⟩, ⟨31, 14, .ro⟩]⟩,
  -- HIF_DISCARD
  ⟨0x000200, 0, 1, 0, 1, 32, 0x0, true, none, false, [⟨0, 0, .w1c⟩, ⟨15, 8, .ro⟩]⟩,
  -- HIF_DISCARD_OFFSET
  ⟨0x000204, 0, 1, 0, 1, 32, 0x0, true, none, false, [⟨23, 0, .ro⟩]⟩,
  -- HIF_DISCARD_COUNT
  ⟨0x000208, 0, 1, 0, 1, 32, 0x0, true, none, false, [⟨31, 0, .ro⟩]⟩,
  -- HIF_EVENT
  ⟨0x000210, 0, 1, 0, 1, 32, 0x0, true, none, false, [⟨0, 0, .w1c⟩, ⟨1, 1, .w1c⟩, ⟨2, 2, .w1c⟩, ⟨3, 3, .w1c⟩, ⟨4, 4, .w1c⟩]⟩,
  -- HIF_CFG_STATUS
  ⟨0x000400, 0, 1, 0, 1, 64, 0x0, false, none, false, [⟨31, 0, .ro⟩, ⟨47, 32, .ro⟩, ⟨63, 48, .ro⟩]⟩,
  -- HIF_SLOT_STATE
  ⟨0x000500, 16, 2, 0, 1, 32, 0x0, false, none, false, [⟨2, 0, .ro⟩, ⟨22, 3, .ro⟩]⟩,
  -- HIF_SLOT_TGEN
  ⟨0x000504, 16, 2, 0, 1, 32, 0x0, false, none, false, [⟨31, 0, .ro⟩]⟩,
  -- HIF_SLOT_HASH
  ⟨0x000508, 16, 2, 0, 1, 64, 0x0, false, none, false, [⟨63, 0, .ro⟩]⟩,
  -- HIF_PROT_GEN
  ⟨0x000600, 0, 1, 0, 1, 32, 0x0, false, none, false, [⟨31, 0, .ro⟩]⟩,
  -- HIF_PROT_SEL
  ⟨0x000700, 0, 1, 0, 1, 32, 0x0, true, none, false, [⟨5, 0, .rw⟩]⟩,
  -- HIF_PROT_VIEW
  ⟨0x000708, 8, 5, 0, 1, 64, 0x0, true, none, false, [⟨63, 0, .ro⟩]⟩]

def regRows1 : List RegRow := [
  -- HIF_PROT_STAGE0
  ⟨0x000800, 0, 1, 0, 1, 32, 0x0, true, none, false, [⟨1, 0, .rws⟩, ⟨15, 4, .rws⟩, ⟨23, 16, .rws⟩, ⟨31, 24, .rws⟩]⟩,
  -- HIF_PROT_STAGE
  ⟨0x000808, 8, 4, 0, 1, 64, 0x0, true, none, false, [⟨63, 0, .rws⟩]⟩,
  -- HIF_PROT_AT
  ⟨0x000828, 0, 1, 0, 1, 64, 0x0, true, none, false, [⟨63, 0, .rws⟩]⟩,
  -- HIF_PROT_CMD
  ⟨0x000830, 0, 1, 0, 1, 32, 0x0, true, none, false, [⟨5, 0, .rws⟩, ⟨6, 6, .wo⟩, ⟨7, 7, .ro⟩]⟩,
  -- HIF_SQ_BASE
  ⟨0x010000, 65536, 2, 32, 64, 64, 0x0, false, none, false, [⟨51, 6, .rw⟩]⟩,
  -- HIF_SQ_CFG
  ⟨0x010008, 65536, 2, 32, 64, 32, 0x4, false, none, false, [⟨4, 0, .rw⟩, ⟨5, 5, .rw⟩, ⟨11, 6, .rw⟩, ⟨17, 12, .rw⟩, ⟨19, 18, .rw⟩, ⟨20, 20, .rw⟩]⟩,
  -- HIF_SQ_STATUS
  ⟨0x01000C, 65536, 2, 32, 64, 32, 0x0, false, none, false, [⟨1, 0, .ro⟩, ⟨15, 8, .ro⟩, ⟨31, 16, .ro⟩]⟩,
  -- HIF_SQ_PI
  ⟨0x010010, 65536, 2, 32, 64, 32, 0x0, false, none, false, [⟨15, 0, .ro⟩]⟩,
  -- HIF_CQ_BASE
  ⟨0x010800, 65536, 2, 32, 64, 64, 0x0, false, none, false, [⟨51, 6, .rw⟩]⟩,
  -- HIF_CQ_CFG
  ⟨0x010808, 65536, 2, 32, 64, 32, 0x4, false, none, false, [⟨4, 0, .rw⟩, ⟨5, 5, .rw⟩, ⟨13, 6, .rw⟩, ⟨19, 14, .rw⟩, ⟨31, 20, .rw⟩]⟩,
  -- HIF_CQ_STATUS
  ⟨0x01080C, 65536, 2, 32, 64, 32, 0x0, false, none, false, [⟨15, 0, .ro⟩, ⟨31, 16, .ro⟩]⟩,
  -- GT_CTL
  ⟨0x100000, 0, 1, 0, 1, 32, 0x10, false, none, false, [⟨2, 0, .rws⟩, ⟨4, 4, .ro⟩]⟩,
  -- GT_STATUS
  ⟨0x100004, 0, 1, 0, 1, 32, 0x0, false, none, false, [⟨0, 0, .ro⟩, ⟨1, 1, .ro⟩, ⟨2, 2, .ro⟩, ⟨3, 3, .w1c⟩, ⟨4, 4, .w1c⟩, ⟨7, 5, .ro⟩, ⟨8, 8, .w1c⟩]⟩,
  -- GT_READ_NS_LO
  ⟨0x100008, 0, 1, 0, 1, 32, 0x0, false, none, false, [⟨31, 0, .ro⟩]⟩,
  -- GT_READ_NS_HI
  ⟨0x10000C, 0, 1, 0, 1, 32, 0x0, false, none, false, [⟨31, 0, .ro⟩]⟩,
  -- GT_READ_FRAC
  ⟨0x100010, 0, 1, 0, 1, 32, 0x0, false, none, false, [⟨31, 0, .ro⟩]⟩]

def regRows2 : List RegRow := [
  -- GT_RATE_ADJ
  ⟨0x100018, 0, 1, 0, 1, 32, 0x0, false, none, false, [⟨31, 0, .rws⟩]⟩,
  -- GT_STEP_NS_LO
  ⟨0x100020, 0, 1, 0, 1, 32, 0x0, false, none, false, [⟨31, 0, .rws⟩]⟩,
  -- GT_STEP_NS_HI
  ⟨0x100024, 0, 1, 0, 1, 32, 0x0, false, none, false, [⟨31, 0, .rws⟩]⟩,
  -- GT_STEP_CTL
  ⟨0x100028, 0, 1, 0, 1, 32, 0x0, false, none, false, [⟨0, 0, .wo⟩]⟩,
  -- GT_OFFSET
  ⟨0x100030, 0, 1, 0, 1, 32, 0x0, false, none, false, [⟨31, 0, .ro⟩]⟩,
  -- GT_PPS_OUT
  ⟨0x100034, 0, 1, 0, 1, 32, 0x64, false, none, false, [⟨9, 0, .rws⟩, ⟨10, 10, .rws⟩]⟩,
  -- GT_PTP_PORT
  ⟨0x100038, 0, 1, 0, 1, 32, 0x0, false, none, false, [⟨3, 0, .rws⟩]⟩,
  -- GT_LINK_ASYM
  ⟨0x100040, 4, 16, 0, 1, 32, 0x0, false, none, false, [⟨15, 0, .rws⟩]⟩,
  -- GT_LATE_COUNT
  ⟨0x100080, 0, 1, 0, 1, 64, 0x0, false, none, false, [⟨63, 0, .ro⟩]⟩,
  -- GT_PAST_COUNT
  ⟨0x100088, 0, 1, 0, 1, 64, 0x0, false, none, false, [⟨63, 0, .ro⟩]⟩,
  -- PWR_STATUS
  ⟨0x200000, 0, 1, 0, 1, 32, 0x0, false, none, false, [⟨0, 0, .ro⟩, ⟨1, 1, .ro⟩, ⟨2, 2, .ro⟩, ⟨3, 3, .w1c⟩]⟩,
  -- PWR_POLICY
  ⟨0x200004, 0, 1, 0, 1, 32, 0x20A1405, false, none, false, [⟨7, 0, .rws⟩, ⟨15, 8, .rws⟩, ⟨23, 16, .rws⟩, ⟨24, 24, .rws⟩, ⟨25, 25, .rws⟩]⟩,
  -- PWR_STACK_IDLE
  ⟨0x200008, 0, 1, 0, 1, 32, 0x64, false, none, false, [⟨15, 0, .rws⟩]⟩,
  -- PWR_HOLD_AWAKE
  ⟨0x20000C, 0, 1, 0, 1, 32, 0x0, false, none, false, [⟨31, 0, .rws⟩]⟩,
  -- PWR_CAP
  ⟨0x200010, 0, 1, 0, 1, 32, 0x578, false, none, false, [⟨10, 0, .rws⟩]⟩,
  -- PWR_DROOP
  ⟨0x200014, 0, 1, 0, 1, 32, 0x1E, false, none, false, [⟨6, 0, .rws⟩]⟩]

def regRows3 : List RegRow := [
  -- PWR_THERMAL
  ⟨0x200018, 0, 1, 0, 1, 32, 0x69, false, none, false, [⟨7, 0, .rws⟩]⟩,
  -- PWR_PACKAGE
  ⟨0x200020, 0, 1, 0, 1, 32, 0x0, false, none, false, [⟨10, 0, .ro⟩, ⟨26, 16, .ro⟩]⟩,
  -- PWR_TEMP
  ⟨0x200028, 0, 1, 0, 1, 64, 0x0, false, none, false, [⟨47, 0, .ro⟩]⟩,
  -- PWR_DOMAIN_SEL
  ⟨0x200040, 0, 1, 0, 1, 32, 0x0, true, none, false, [⟨8, 0, .rw⟩]⟩,
  -- PWR_DOMAIN_STATE
  ⟨0x200044, 0, 1, 0, 1, 32, 0x0, false, none, false, [⟨2, 0, .ro⟩, ⟨3, 3, .ro⟩, ⟨31, 8, .ro⟩]⟩,
  -- PWR_DOMAIN_GT
  ⟨0x200048, 0, 1, 0, 1, 64, 0x0, false, none, false, [⟨63, 0, .ro⟩]⟩,
  -- PWR_COUNT
  ⟨0x200100, 8, 8, 0, 1, 64, 0x0, false, none, false, [⟨63, 0, .ro⟩]⟩,
  -- FLT_STATUS
  ⟨0x300000, 0, 1, 0, 1, 32, 0x8000, false, none, false, [⟨8, 0, .ro⟩, ⟨14, 9, .ro⟩, ⟨18, 15, .ro⟩, ⟨19, 19, .ro⟩, ⟨20, 20, .w1c⟩, ⟨21, 21, .w1c⟩]⟩,
  -- FLT_HANDOVER_CTL
  ⟨0x300004, 0, 1, 0, 1, 32, 0x40, false, none, false, [⟨6, 0, .rws⟩, ⟨7, 7, .wo⟩]⟩,
  -- FLT_FENCE_CMD
  ⟨0x300008, 0, 1, 0, 1, 32, 0x0, false, none, false, [⟨15, 0, .rws⟩, ⟨16, 16, .rws⟩, ⟨17, 17, .wo⟩, ⟨31, 24, .ro⟩]⟩,
  -- FLT_UNIT_SEL
  ⟨0x300010, 0, 1, 0, 1, 32, 0x0, true, none, false, [⟨15, 0, .rw⟩]⟩,
  -- FLT_UNIT_STATE
  ⟨0x300014, 0, 1, 0, 1, 32, 0x0, false, none, false, [⟨1, 0, .ro⟩, ⟨15, 4, .ro⟩, ⟨31, 16, .ro⟩]⟩,
  -- FLT_UNIT_GT
  ⟨0x300018, 0, 1, 0, 1, 64, 0x0, false, none, false, [⟨63, 0, .ro⟩]⟩,
  -- FLT_LOG_HEAD
  ⟨0x300020, 0, 1, 0, 1, 32, 0x0, false, none, false, [⟨31, 0, .ro⟩]⟩,
  -- FLT_LOG_SEL
  ⟨0x300024, 0, 1, 0, 1, 32, 0x0, true, none, false, [⟨9, 0, .rw⟩]⟩,
  -- FLT_LOG_WORD
  ⟨0x300040, 4, 16, 0, 1, 32, 0x0, false, none, false, [⟨31, 0, .ro⟩]⟩]

/-- OBS_DRAIN_BASE and OBS_DRAIN_WI_ADDR hold no bits that must be 0 (DESIGN CHOICE, log 122). -/
def regRows4 : List RegRow := [
  -- FLT_COUNT
  ⟨0x300100, 8, 8, 0, 1, 64, 0x0, false, none, false, [⟨63, 0, .ro⟩]⟩,
  -- OBS_TRACE_CTL
  ⟨0x400000, 0, 1, 0, 1, 32, 0x0, false, none, false, [⟨0, 0, .rws⟩, ⟨1, 1, .rws⟩, ⟨9, 2, .rws⟩, ⟨10, 10, .rws⟩, ⟨11, 11, .rws⟩]⟩,
  -- OBS_TRACE_CLUSTERS
  ⟨0x400004, 0, 1, 0, 1, 32, 0x0, false, none, false, [⟨31, 0, .rws⟩]⟩,
  -- OBS_DRAIN_BASE
  ⟨0x400010, 0, 1, 0, 1, 64, 0x0, false, none, false, [⟨51, 6, .rws⟩]⟩,
  -- OBS_DRAIN_CFG
  ⟨0x400018, 0, 1, 0, 1, 32, 0xC, false, none, false, [⟨4, 0, .rws⟩, ⟨5, 5, .rws⟩]⟩,
  -- OBS_DRAIN_WI_ADDR
  ⟨0x400020, 0, 1, 0, 1, 64, 0x0, false, none, false, [⟨51, 3, .rws⟩]⟩,
  -- OBS_DRAIN_RI
  ⟨0x400028, 0, 1, 0, 1, 32, 0x0, false, none, false, [⟨23, 0, .rw⟩]⟩,
  -- OBS_DRAIN_WI
  ⟨0x40002C, 0, 1, 0, 1, 32, 0x0, false, none, false, [⟨23, 0, .ro⟩]⟩,
  -- OBS_FREEZE_CTL
  ⟨0x400040, 0, 1, 0, 1, 32, 0x0, false, none, false, [⟨0, 0, .rws⟩, ⟨1, 1, .rws⟩, ⟨2, 2, .rws⟩, ⟨3, 3, .rws⟩, ⟨7, 4, .rws⟩]⟩,
  -- OBS_FREEZE_AT
  ⟨0x400048, 0, 1, 0, 1, 64, 0x0, false, none, false, [⟨63, 0, .rws⟩]⟩,
  -- OBS_THRESH_IDX
  ⟨0x400050, 0, 1, 0, 1, 32, 0x0, false, none, false, [⟨14, 0, .rws⟩]⟩,
  -- OBS_THRESH_VALUE
  ⟨0x400058, 0, 1, 0, 1, 64, 0x0, false, none, false, [⟨63, 0, .rws⟩]⟩,
  -- OBS_FREEZE_STATUS
  ⟨0x400060, 0, 1, 0, 1, 32, 0x0, false, none, false, [⟨0, 0, .ro⟩, ⟨12, 8, .ro⟩]⟩,
  -- OBS_FREEZE_GT
  ⟨0x400068, 0, 1, 0, 1, 64, 0x0, false, none, false, [⟨63, 0, .ro⟩]⟩,
  -- OBS_FREEZE_SEQ
  ⟨0x400070, 0, 1, 0, 1, 32, 0x0, false, none, false, [⟨31, 0, .ro⟩]⟩,
  -- OBS_CNT_SEL
  ⟨0x400080, 0, 1, 0, 1, 32, 0x0, true, none, false, [⟨14, 0, .rw⟩]⟩]

def regRows5 : List RegRow := [
  -- OBS_CNT_LIVE
  ⟨0x400088, 8, 2, 0, 1, 64, 0x0, false, none, false, [⟨63, 0, .ro⟩]⟩,
  -- OBS_DUMP_STATUS
  ⟨0x4000A0, 0, 1, 0, 1, 32, 0x0, false, none, false, [⟨15, 0, .ro⟩]⟩,
  -- OBS_COUNT
  ⟨0x400100, 8, 8, 0, 1, 64, 0x0, false, none, false, [⟨63, 0, .ro⟩]⟩,
  -- EVR_CTL
  ⟨0x500000, 0, 1, 0, 1, 32, 0x3E8, false, none, false, [⟨15, 0, .rws⟩]⟩,
  -- EVR_STATUS
  ⟨0x500004, 0, 1, 0, 1, 32, 0x0, false, none, false, [⟨0, 0, .ro⟩, ⟨1, 1, .ro⟩, ⟨2, 2, .w1c⟩, ⟨15, 8, .ro⟩]⟩,
  -- EVR_WRITTEN
  ⟨0x500008, 0, 1, 0, 1, 32, 0x0, false, none, false, [⟨31, 0, .ro⟩]⟩,
  -- EVR_OLDEST
  ⟨0x50000C, 0, 1, 0, 1, 32, 0x0, false, none, false, [⟨31, 0, .ro⟩]⟩,
  -- EVR_BOOT
  ⟨0x500010, 0, 1, 0, 1, 32, 0x0, false, none, false, [⟨31, 0, .ro⟩]⟩,
  -- BOOT_STATUS
  ⟨0x600000, 0, 1, 0, 1, 32, 0x0, false, none, false, [⟨2, 0, .ro⟩, ⟨3, 3, .w1c⟩, ⟨4, 4, .ro⟩, ⟨5, 5, .ro⟩, ⟨6, 6, .w1c⟩, ⟨7, 7, .w1c⟩]⟩,
  -- BOOT_READY_GT
  ⟨0x600008, 0, 1, 0, 1, 64, 0x0, false, none, false, [⟨63, 0, .ro⟩]⟩,
  -- BOOT_FW_INFO
  ⟨0x600010, 0, 1, 0, 1, 64, 0x0, false, none, false, [⟨31, 0, .ro⟩, ⟨32, 32, .ro⟩, ⟨33, 33, .ro⟩, ⟨34, 34, .ro⟩]⟩,
  -- BOOT_FW_SRC
  ⟨0x600018, 0, 1, 0, 1, 64, 0x0, false, none, false, [⟨63, 0, .rws⟩]⟩,
  -- BOOT_FW_LEN
  ⟨0x600020, 0, 1, 0, 1, 32, 0x0, false, none, false, [⟨23, 0, .rws⟩]⟩,
  -- BOOT_FW_AT
  ⟨0x600028, 0, 1, 0, 1, 64, 0x0, false, none, false, [⟨63, 0, .rws⟩]⟩,
  -- BOOT_FW_CMD
  ⟨0x600030, 0, 1, 0, 1, 32, 0x13880000, false, none, false, [⟨1, 0, .rws⟩, ⟨2, 2, .wo⟩, ⟨3, 3, .ro⟩, ⟨15, 8, .ro⟩, ⟨31, 16, .rws⟩]⟩,
  -- BOOT_STRAPS
  ⟨0x600040, 0, 1, 0, 1, 32, 0x0, false, none, false, [⟨0, 0, .ro⟩, ⟨2, 1, .ro⟩, ⟨3, 3, .ro⟩]⟩]

def regRows6 : List RegRow := [
  -- SEC_FUSE
  ⟨0x608000, 0, 1, 0, 1, 32, 0xF000, false, none, false, [⟨6, 0, .ro⟩, ⟨11, 8, .ro⟩, ⟨15, 12, .ro⟩]⟩,
  -- SEC_FUSE_CMD
  ⟨0x608004, 0, 1, 0, 1, 32, 0x0, false, none, false, [⟨1, 0, .rws⟩, ⟨8, 2, .rws⟩, ⟨9, 9, .wo⟩, ⟨10, 10, .ro⟩, ⟨23, 16, .ro⟩]⟩,
  -- SEC_ROOT_SEL
  ⟨0x608010, 0, 1, 0, 1, 32, 0x0, true, none, false, [⟨1, 0, .rw⟩]⟩,
  -- SEC_ROOT_HASH
  ⟨0x608014, 4, 12, 0, 1, 32, 0x0, true, none, false, [⟨31, 0, .ro⟩]⟩,
  -- SEC_SERIAL
  ⟨0x608050, 0, 1, 0, 1, 64, 0x0, false, none, false, [⟨63, 0, .ro⟩]⟩,
  -- SEC_IMAGE_POLICY
  ⟨0x608060, 0, 1, 0, 1, 32, 0x0, false, none, false, [⟨2, 0, .rws⟩]⟩,
  -- SEC_CUST_SEL
  ⟨0x608064, 0, 1, 0, 1, 32, 0x0, true, none, false, [⟨1, 0, .rw⟩]⟩,
  -- SEC_CUST_KEY
  ⟨0x608068, 0, 1, 0, 1, 32, 0x0, false, some 0x608064, false, [⟨0, 0, .rws⟩]⟩,
  -- SEC_CUST_HASH
  ⟨0x608070, 4, 12, 0, 1, 32, 0x0, true, none, false, [⟨31, 0, .rw⟩]⟩,
  -- SEC_COUNT
  ⟨0x608100, 8, 8, 0, 1, 64, 0x0, false, none, false, [⟨63, 0, .ro⟩]⟩,
  -- GRP_STATUS
  ⟨0x700000, 0, 1, 0, 1, 32, 0x0, false, none, false, [⟨1, 0, .ro⟩, ⟨11, 2, .ro⟩, ⟨12, 12, .ro⟩, ⟨13, 13, .ro⟩, ⟨14, 14, .w1c⟩, ⟨15, 15, .ro⟩, ⟨25, 16, .ro⟩]⟩,
  -- GRP_EPOCH
  ⟨0x700004, 0, 1, 0, 1, 32, 0x0, false, none, false, [⟨31, 0, .ro⟩]⟩,
  -- GRP_MEMBER_SEL
  ⟨0x700010, 0, 1, 0, 1, 32, 0x0, true, none, false, [⟨9, 0, .rw⟩]⟩,
  -- GRP_MEMBER
  ⟨0x700014, 0, 1, 0, 1, 32, 0x0, false, none, false, [⟨1, 0, .ro⟩, ⟨2, 2, .ro⟩, ⟨3, 3, .ro⟩, ⟨7, 4, .ro⟩, ⟨15, 8, .ro⟩, ⟨16, 16, .ro⟩]⟩,
  -- GRP_MEMBER_HB
  ⟨0x700018, 0, 1, 0, 1, 64, 0x0, false, none, false, [⟨63, 0, .ro⟩]⟩,
  -- GRP_JOURNAL
  ⟨0x700020, 0, 1, 0, 1, 32, 0x0, false, none, false, [⟨20, 0, .ro⟩]⟩]

def regRows7 : List RegRow := [
  -- GRP_COUNT
  ⟨0x700100, 8, 8, 0, 1, 64, 0x0, false, none, false, [⟨63, 0, .ro⟩]⟩,
  -- PP_QUAD_MODE
  ⟨0x800000, 0, 1, 0, 1, 32, 0x0, false, none, true, [⟨2, 0, .rws⟩, ⟨5, 3, .rws⟩]⟩,
  -- PP_MRP_PORT
  ⟨0x800004, 0, 1, 0, 1, 32, 0xB7A0, false, none, true, [⟨15, 0, .rws⟩]⟩,
  -- PP_VXLAN_PORT
  ⟨0x800008, 0, 1, 0, 1, 32, 0x12B5, false, none, true, [⟨15, 0, .rws⟩]⟩,
  -- PP_GRP_ETYPE
  ⟨0x80000C, 0, 1, 0, 1, 32, 0x88B5, false, none, true, [⟨15, 0, .rws⟩]⟩,
  -- PP_LANE_STATUS
  ⟨0x800010, 4, 8, 0, 1, 32, 0x0, false, none, true, [⟨1, 0, .ro⟩, ⟨2, 2, .ro⟩, ⟨3, 3, .w1c⟩, ⟨7, 4, .ro⟩, ⟨11, 8, .ro⟩]⟩,
  -- PP_PORT_CFG
  ⟨0x800040, 16, 8, 0, 1, 64, 0x6400000001, false, none, true, [⟨11, 0, .rws⟩, ⟨23, 12, .rws⟩, ⟨37, 24, .rws⟩, ⟨38, 38, .rws⟩]⟩,
  -- PP_PORT_MAC
  ⟨0x800048, 16, 8, 0, 1, 64, 0x0, false, none, true, [⟨47, 0, .rws⟩]⟩,
  -- PP_LOCAL_IP
  ⟨0x800100, 32, 8, 4, 4, 32, 0x0, false, none, true, [⟨31, 0, .rws⟩]⟩,
  -- PP_LOCAL_IP_AF
  ⟨0x800110, 32, 8, 0, 1, 32, 0x0, false, none, true, [⟨0, 0, .rws⟩, ⟨1, 1, .rws⟩]⟩,
  -- PP_MX_FIELD
  ⟨0x800200, 4, 32, 0, 1, 32, 0x0, false, none, true, [⟨9, 0, .rws⟩, ⟨13, 10, .rws⟩, ⟨14, 14, .rws⟩, ⟨15, 15, .rws⟩]⟩,
  -- PP_CNT_SEL
  ⟨0x800300, 0, 1, 0, 1, 32, 0x0, true, none, true, [⟨2, 0, .rw⟩]⟩,
  -- PP_COUNT
  ⟨0x800308, 8, 16, 0, 1, 64, 0x0, false, some 0x800300, true, [⟨63, 0, .ro⟩]⟩,
  -- PP_LASER
  ⟨0x800400, 4, 8, 0, 1, 32, 0x0, false, none, true, [⟨11, 0, .ro⟩, ⟨12, 12, .ro⟩, ⟨13, 13, .w1c⟩]⟩,
  -- CLS_STAGE_KEY
  ⟨0x810000, 4, 23, 0, 1, 32, 0x0, true, none, true, [⟨31, 0, .rw⟩]⟩,
  -- CLS_STAGE_MASK
  ⟨0x810060, 4, 23, 0, 1, 32, 0x0, true, none, true, [⟨31, 0, .rw⟩]⟩]

/-- The reserved bits of an action word written to CLS_DEFAULT, CLS_M_DEFAULT or CLS_STAGE_ACT are held and read back (DEDUCED, log
99). -/
def regRows8 : List RegRow := [
  -- CLS_STAGE_ACT
  ⟨0x8100C0, 0, 1, 0, 1, 64, 0x0, true, none, true, [⟨63, 0, .rw⟩]⟩,
  -- CLS_HITS
  ⟨0x8100C8, 0, 1, 0, 1, 64, 0x0, true, none, true, [⟨63, 0, .ro⟩]⟩,
  -- CLS_CMD
  ⟨0x8100D0, 0, 1, 0, 1, 32, 0x0, true, none, true, [⟨13, 0, .rw⟩, ⟨14, 14, .rw⟩, ⟨15, 15, .wo⟩, ⟨16, 16, .wo⟩, ⟨17, 17, .ro⟩, ⟨31, 24, .ro⟩]⟩,
  -- CLS_RANGE
  ⟨0x810100, 8, 64, 0, 1, 64, 0x0, false, none, true, [⟨15, 0, .rws⟩, ⟨31, 16, .rws⟩, ⟨34, 32, .rws⟩, ⟨35, 35, .rws⟩]⟩,
  -- CLS_DEFAULT
  ⟨0x810400, 16, 8, 0, 1, 64, 0x0, false, none, true, [⟨63, 0, .rws⟩]⟩,
  -- CLS_M_DEFAULT
  ⟨0x810408, 16, 8, 0, 1, 64, 0x3, false, none, true, [⟨63, 0, .rws⟩]⟩,
  -- CLS_HASH_CFG
  ⟨0x810500, 4, 8, 0, 1, 32, 0x0, false, none, true, [⟨0, 0, .rws⟩, ⟨1, 1, .rws⟩, ⟨2, 2, .rws⟩, ⟨12, 3, .rws⟩]⟩,
  -- CLS_TOEPLITZ_KEY
  ⟨0x810540, 4, 20, 0, 1, 32, 0x0, false, none, true, [⟨31, 0, .rws⟩]⟩,
  -- CLS_VLAN_SEL
  ⟨0x8105C0, 0, 1, 0, 1, 32, 0x0, true, none, true, [⟨11, 0, .rw⟩]⟩,
  -- CLS_VLAN_MEMBERS
  ⟨0x8105C4, 0, 1, 0, 1, 32, 0xFFFF, false, some 0x8105C0, true, [⟨15, 0, .rws⟩]⟩,
  -- CLS_INDIR
  ⟨0x818000, 1024, 8, 4, 256, 32, 0x0, false, none, true, [⟨15, 0, .rws⟩, ⟨31, 16, .rws⟩]⟩,
  -- FLW_CTL
  ⟨0x820000, 0, 1, 0, 1, 32, 0x100003, false, none, false, [⟨0, 0, .rws⟩, ⟨1, 1, .rws⟩, ⟨2, 2, .rws⟩, ⟨10, 3, .ro⟩, ⟨31, 11, .rws⟩]⟩,
  -- FLW_SEED_LO
  ⟨0x820004, 0, 1, 0, 1, 32, 0x1D0F6A21, false, none, false, [⟨31, 0, .rws⟩]⟩,
  -- FLW_SEED_HI
  ⟨0x820008, 0, 1, 0, 1, 32, 0x8C47B3E5, false, none, false, [⟨31, 0, .rws⟩]⟩,
  -- FLW_SCORE_EVERY
  ⟨0x82000C, 0, 1, 0, 1, 32, 0x40, false, none, false, [⟨15, 0, .rws⟩]⟩,
  -- FLW_FEAT_SRC
  ⟨0x820010, 4, 8, 0, 1, 32, 0x0, false, none, false, [⟨7, 0, .rws⟩, ⟨15, 8, .rws⟩, ⟨23, 16, .rws⟩, ⟨31, 24, .rws⟩]⟩]

def regRows9 : List RegRow := [
  -- FLW_FREE
  ⟨0x820030, 0, 1, 0, 1, 32, 0x0, false, none, false, [⟨20, 0, .ro⟩]⟩,
  -- FLW_COUNT
  ⟨0x820100, 8, 8, 0, 1, 64, 0x0, false, none, false, [⟨63, 0, .ro⟩]⟩,
  -- RQT_CTL
  ⟨0x830000, 0, 1, 0, 1, 32, 0x3E8F0, false, none, true, [⟨7, 4, .rws⟩, ⟨23, 8, .rws⟩]⟩,
  -- RQT_STATUS
  ⟨0x830004, 0, 1, 0, 1, 32, 0x0, false, none, true, [⟨19, 0, .ro⟩]⟩,
  -- RQT_COUNT
  ⟨0x830100, 8, 8, 0, 1, 64, 0x0, false, none, true, [⟨63, 0, .ro⟩]⟩,
  -- ADM_CTL
  ⟨0x840000, 0, 1, 0, 1, 32, 0x1F432, false, none, false, [⟨3, 0, .rws⟩, ⟨7, 4, .rws⟩, ⟨23, 8, .rws⟩]⟩,
  -- ADM_DELAYS
  ⟨0x840004, 0, 1, 0, 1, 32, 0x17701388, false, none, false, [⟨15, 0, .rws⟩, ⟨31, 16, .rws⟩]⟩,
  -- ADM_SVC_SEL
  ⟨0x840008, 0, 1, 0, 1, 32, 0x0, true, none, false, [⟨15, 0, .rw⟩]⟩,
  -- ADM_SVC_EST
  ⟨0x84000C, 0, 1, 0, 1, 32, 0x0, false, some 0x840008, false, [⟨23, 0, .rws⟩]⟩,
  -- ADM_CLU_CREDIT
  ⟨0x840100, 4, 32, 0, 1, 32, 0x400, false, none, false, [⟨15, 0, .rws⟩, ⟨31, 16, .ro⟩]⟩,
  -- ADM_NLU_CREDIT
  ⟨0x840200, 4, 64, 0, 1, 32, 0x4E20, false, none, false, [⟨15, 0, .rws⟩, ⟨31, 16, .ro⟩]⟩,
  -- ADM_COUNT
  ⟨0x840400, 8, 8, 0, 1, 64, 0x0, false, none, false, [⟨63, 0, .ro⟩]⟩,
  -- EGS_BUF
  ⟨0x850000, 0, 1, 0, 1, 64, 0x100000018000, false, none, true, [⟨16, 0, .ro⟩, ⟨48, 32, .rws⟩]⟩,
  -- EGS_QUEUE
  ⟨0x850400, 128, 8, 8, 16, 64, 0x1800000000008, false, none, true, [⟨2, 0, .rws⟩, ⟨10, 3, .rws⟩, ⟨22, 11, .rws⟩, ⟨23, 23, .rws⟩, ⟨48, 32, .rws⟩]⟩,
  -- EGS_PORT_SHAPER
  ⟨0x850800, 4, 8, 0, 1, 32, 0x0, false, none, true, [⟨11, 0, .rws⟩, ⟨12, 12, .rws⟩]⟩,
  -- EGS_SHAPER_SEL
  ⟨0x851000, 0, 1, 0, 1, 32, 0x0, true, none, true, [⟨11, 0, .rw⟩]⟩]

def regRows10 : List RegRow := [
  -- EGS_SHAPER_CFG
  ⟨0x851008, 0, 1, 0, 1, 64, 0x271014000000, false, some 0x851000, true, [⟨23, 0, .rws⟩, ⟨30, 24, .rws⟩, ⟨31, 31, .rws⟩, ⟨55, 32, .rws⟩]⟩,
  -- EGS_GATE_CTL
  ⟨0x852000, 32, 8, 0, 1, 32, 0x4, false, none, true, [⟨0, 0, .rws⟩, ⟨1, 1, .ro⟩, ⟨10, 2, .rws⟩, ⟨19, 11, .ro⟩, ⟨20, 20, .wo⟩]⟩,
  -- EGS_GATE_BASE
  ⟨0x852008, 32, 8, 0, 1, 64, 0x0, false, none, true, [⟨63, 0, .rws⟩]⟩,
  -- EGS_GATE_CHANGE
  ⟨0x852010, 32, 8, 0, 1, 64, 0x0, false, none, true, [⟨63, 0, .rws⟩]⟩,
  -- EGS_METER_SEL
  ⟨0x853000, 0, 1, 0, 1, 32, 0x0, true, none, true, [⟨11, 0, .rw⟩]⟩,
  -- EGS_METER_CFG0
  ⟨0x853008, 0, 1, 0, 1, 64, 0x0, false, some 0x853000, true, [⟨23, 0, .rws⟩, ⟨47, 24, .rws⟩, ⟨49, 48, .rws⟩, ⟨51, 50, .rws⟩, ⟨55, 52, .rws⟩, ⟨59, 56, .rws⟩]⟩,
  -- EGS_METER_CFG1
  ⟨0x853010, 0, 1, 0, 1, 64, 0x0, false, some 0x853000, true, [⟨23, 0, .rws⟩, ⟨55, 32, .rws⟩]⟩,
  -- EGS_METER_CNT
  ⟨0x853018, 8, 3, 0, 1, 64, 0x0, false, none, true, [⟨63, 0, .ro⟩]⟩,
  -- EGS_CNT_SEL
  ⟨0x853100, 0, 1, 0, 1, 32, 0x0, true, none, true, [⟨2, 0, .rw⟩, ⟨6, 3, .rw⟩]⟩,
  -- EGS_COUNT
  ⟨0x853108, 8, 8, 0, 1, 64, 0x0, false, none, true, [⟨63, 0, .ro⟩]⟩,
  -- EGS_GATE_ENTRY
  ⟨0x854000, 2048, 8, 8, 256, 64, 0x0, false, none, true, [⟨15, 0, .rws⟩, ⟨47, 16, .rws⟩]⟩,
  -- PP_FIFO_SEL
  ⟨0x860000, 0, 1, 0, 1, 32, 0x0, true, none, true, [⟨3, 0, .rw⟩]⟩,
  -- PP_FIFO_CTRL
  ⟨0x860004, 0, 1, 0, 1, 32, 0x0, true, none, true, [⟨31, 0, .ro⟩]⟩,
  -- PP_FIFO_DATA
  ⟨0x860008, 4, 4, 0, 1, 32, 0x0, true, none, true, [⟨31, 0, .ro⟩]⟩,
  -- PP_FIFO_CMD
  ⟨0x860018, 0, 1, 0, 1, 32, 0x0, true, none, true, [⟨0, 0, .wo⟩]⟩,
  -- PP_FIFO_LEVEL
  ⟨0x86001C, 0, 1, 0, 1, 32, 0x0, false, none, true, [⟨13, 0, .ro⟩, ⟨14, 14, .ro⟩]⟩]

def regRows11 : List RegRow := [
  -- TBL_FWD_CMD
  ⟨0x880000, 0, 1, 0, 1, 32, 0x0, true, none, true, [⟨3, 0, .rw⟩, ⟨12, 12, .wo⟩, ⟨13, 13, .ro⟩, ⟨14, 14, .ro⟩, ⟨23, 16, .ro⟩]⟩,
  -- TBL_FWD_KEY
  ⟨0x880008, 0, 1, 0, 1, 64, 0x0, true, none, true, [⟨63, 0, .rw⟩]⟩,
  -- TBL_FWD_ROW
  ⟨0x880010, 0, 1, 0, 1, 32, 0x0, true, none, true, [⟨31, 0, .rw⟩]⟩,
  -- TBL_FWD_FLAGS
  ⟨0x880014, 0, 1, 0, 1, 32, 0x0, true, none, true, [⟨0, 0, .rw⟩, ⟨15, 8, .ro⟩, ⟨17, 16, .rw⟩, ⟨18, 18, .rw⟩, ⟨25, 24, .ro⟩, ⟨26, 26, .ro⟩]⟩,
  -- TBL_FWD_GEN_OUT
  ⟨0x880018, 0, 1, 0, 1, 32, 0x0, true, none, true, [⟨31, 0, .ro⟩]⟩,
  -- TBL_LEARN_HOLD
  ⟨0x880040, 0, 1, 0, 1, 32, 0x32, false, none, true, [⟨15, 0, .rws⟩]⟩,
  -- TBL_AGE_CTL
  ⟨0x880044, 0, 1, 0, 1, 32, 0x110CC, false, none, true, [⟨15, 0, .rws⟩, ⟨16, 16, .rws⟩]⟩,
  -- TBL_LEARN_PORT
  ⟨0x880080, 4, 8, 0, 1, 32, 0xFFFF0000, false, none, true, [⟨1, 0, .rws⟩, ⟨2, 2, .rws⟩, ⟨31, 16, .rws⟩]⟩,
  -- TBL_LEARN_COUNT
  ⟨0x8800C0, 4, 8, 0, 1, 32, 0x0, false, none, true, [⟨17, 0, .ro⟩]⟩,
  -- TBL_FWD_COUNT
  ⟨0x880100, 8, 8, 0, 1, 64, 0x0, false, none, true, [⟨63, 0, .ro⟩]⟩,
  -- TBL_PFX_STAGE
  ⟨0x890000, 4, 4, 0, 1, 32, 0x0, true, none, true, [⟨31, 0, .rw⟩]⟩,
  -- TBL_PFX_STAGE4
  ⟨0x890010, 0, 1, 0, 1, 32, 0x0, true, none, true, [⟨7, 0, .rw⟩, ⟨19, 8, .rw⟩, ⟨20, 20, .rw⟩, ⟨21, 21, .rw⟩]⟩,
  -- TBL_PFX_RESULT
  ⟨0x890014, 0, 1, 0, 1, 32, 0x0, true, none, true, [⟨31, 0, .rw⟩]⟩,
  -- TBL_PFX_CMD
  ⟨0x890018, 0, 1, 0, 1, 32, 0x0, true, none, true, [⟨15, 0, .rw⟩, ⟨16, 16, .rw⟩, ⟨17, 17, .wo⟩, ⟨18, 18, .wo⟩, ⟨19, 19, .ro⟩, ⟨31, 24, .ro⟩]⟩,
  -- TBL_CMD
  ⟨0xC00000, 0, 1, 0, 1, 32, 0x0, true, none, false, [⟨3, 0, .rw⟩, ⟨11, 4, .rw⟩, ⟨12, 12, .wo⟩, ⟨13, 13, .ro⟩, ⟨14, 14, .ro⟩, ⟨23, 16, .ro⟩]⟩,
  -- TBL_KEY
  ⟨0xC00008, 0, 1, 0, 1, 64, 0x0, true, none, false, [⟨63, 0, .rw⟩]⟩]

def regRows12 : List RegRow := [
  -- TBL_ROW
  ⟨0xC00010, 0, 1, 0, 1, 32, 0x0, true, none, false, [⟨31, 0, .rw⟩]⟩,
  -- TBL_FLAGS
  ⟨0xC00014, 0, 1, 0, 1, 32, 0x0, true, none, false, [⟨0, 0, .rw⟩, ⟨15, 8, .ro⟩, ⟨17, 16, .rw⟩, ⟨18, 18, .rw⟩, ⟨25, 24, .ro⟩, ⟨26, 26, .ro⟩]⟩,
  -- TBL_GEN_OUT
  ⟨0xC00018, 0, 1, 0, 1, 32, 0x0, true, none, false, [⟨31, 0, .ro⟩]⟩,
  -- TBL_INFO_SEL
  ⟨0xC00040, 0, 1, 0, 1, 32, 0x0, true, none, false, [⟨7, 0, .rw⟩]⟩,
  -- TBL_INFO
  ⟨0xC00044, 0, 1, 0, 1, 32, 0x0, false, none, false, [⟨3, 0, .ro⟩, ⟨4, 4, .ro⟩, ⟨5, 5, .ro⟩, ⟨6, 6, .ro⟩, ⟨23, 16, .ro⟩]⟩,
  -- TBL_TGEN
  ⟨0xC00048, 0, 1, 0, 1, 32, 0x0, false, none, false, [⟨31, 0, .ro⟩]⟩,
  -- TBL_OCCUPIED
  ⟨0xC00050, 0, 1, 0, 1, 64, 0x0, false, none, false, [⟨63, 0, .ro⟩]⟩,
  -- TBL_COMMIT_GT
  ⟨0xC00058, 0, 1, 0, 1, 64, 0x0, false, none, false, [⟨63, 0, .ro⟩]⟩,
  -- TBL_COUNT
  ⟨0xC00100, 8, 8, 0, 1, 64, 0x0, false, none, false, [⟨63, 0, .ro⟩]⟩,
  -- NLU_SEL
  ⟨0xC80000, 0, 1, 0, 1, 32, 0x0, true, none, false, [⟨5, 0, .rw⟩]⟩,
  -- NLU_STATUS
  ⟨0xC80004, 0, 1, 0, 1, 32, 0x0, false, some 0xC80000, false, [⟨1, 0, .ro⟩, ⟨2, 2, .ro⟩, ⟨8, 8, .w1c⟩, ⟨9, 9, .w1c⟩, ⟨10, 10, .w1c⟩, ⟨11, 11, .w1c⟩]⟩,
  -- NLU_COUNT
  ⟨0xC80100, 8, 8, 0, 1, 64, 0x0, false, none, false, [⟨63, 0, .ro⟩]⟩,
  -- DSM_STATE
  ⟨0xE00000, 0, 1, 0, 1, 32, 0x8, false, none, false, [⟨2, 0, .ro⟩, ⟨3, 3, .ro⟩, ⟨7, 4, .ro⟩, ⟨23, 8, .ro⟩]⟩,
  -- DSM_REBUILD_CTL
  ⟨0xE00004, 0, 1, 0, 1, 32, 0xC0, false, none, false, [⟨12, 0, .rws⟩, ⟨16, 16, .rws⟩]⟩,
  -- DSM_REBUILD_NEXT
  ⟨0xE00008, 0, 1, 0, 1, 32, 0x0, false, none, false, [⟨25, 0, .ro⟩]⟩,
  -- DSM_UE_LIMIT
  ⟨0xE0000C, 0, 1, 0, 1, 32, 0x100, false, none, false, [⟨15, 0, .rws⟩]⟩]

def regRows13 : List RegRow := [
  -- DSM_RETIRE
  ⟨0xE00010, 0, 1, 0, 1, 32, 0x0, false, none, false, [⟨3, 0, .rws⟩, ⟨8, 8, .wo⟩]⟩,
  -- DSM_SCRUB_CTL
  ⟨0xE00014, 0, 1, 0, 1, 32, 0x18, false, none, false, [⟨7, 0, .rws⟩]⟩,
  -- DSM_STACK_SEL
  ⟨0xE00020, 0, 1, 0, 1, 32, 0x0, true, none, false, [⟨3, 0, .rw⟩]⟩,
  -- DSM_STACK_STATUS
  ⟨0xE00024, 0, 1, 0, 1, 32, 0x0, false, some 0xE00020, false, [⟨2, 0, .ro⟩, ⟨3, 3, .w1c⟩]⟩,
  -- DSM_COUNT
  ⟨0xE00100, 8, 8, 0, 1, 64, 0x0, false, none, false, [⟨63, 0, .ro⟩]⟩,
  -- DSM_REGION_SEL
  ⟨0xE00200, 0, 1, 0, 1, 32, 0x0, true, none, false, [⟨7, 0, .rw⟩]⟩,
  -- DSM_REGION
  ⟨0xE00208, 0, 1, 0, 1, 64, 0x0, false, none, false, [⟨25, 0, .ro⟩, ⟨52, 26, .ro⟩, ⟨56, 53, .ro⟩, ⟨57, 57, .ro⟩, ⟨58, 58, .ro⟩]⟩,
  -- ME_CORE_SEL
  ⟨0xF00000, 0, 1, 0, 1, 32, 0x0, true, none, false, [⟨7, 0, .rw⟩]⟩,
  -- ME_SEQ_STATUS
  ⟨0xF00010, 0, 1, 0, 1, 32, 0x0, false, some 0xF00000, false, [⟨1, 0, .ro⟩, ⟨3, 2, .ro⟩, ⟨5, 4, .ro⟩, ⟨11, 8, .ro⟩]⟩,
  -- ME_CTX_LAST
  ⟨0xF00018, 4, 2, 0, 1, 32, 0x0, false, some 0xF00000, false, [⟨15, 0, .ro⟩, ⟨31, 16, .ro⟩]⟩,
  -- ME_CTX_LATE
  ⟨0xF00020, 0, 1, 0, 1, 64, 0x0, false, some 0xF00000, false, [⟨63, 0, .ro⟩]⟩,
  -- ME_ENG_STATUS
  ⟨0xF00100, 64, 4, 0, 1, 32, 0x0, false, some 0xF00000, false, [⟨1, 0, .ro⟩, ⟨2, 2, .ro⟩, ⟨3, 3, .ro⟩, ⟨4, 4, .w1c⟩, ⟨15, 8, .ro⟩, ⟨21, 16, .ro⟩, ⟨22, 22, .ro⟩]⟩,
  -- ME_TILES
  ⟨0xF00108, 64, 4, 0, 1, 64, 0x0, false, some 0xF00000, false, [⟨63, 0, .ro⟩]⟩,
  -- ME_CHECK_FAILS
  ⟨0xF00110, 64, 4, 0, 1, 64, 0x0, false, some 0xF00000, false, [⟨63, 0, .ro⟩]⟩,
  -- ME_DECKLE_FAULTS
  ⟨0xF00118, 64, 4, 0, 1, 64, 0x0, false, some 0xF00000, false, [⟨63, 0, .ro⟩]⟩,
  -- ME_REEXEC_RUN
  ⟨0xF00120, 64, 4, 0, 1, 64, 0x0, false, some 0xF00000, false, [⟨63, 0, .ro⟩]⟩]

def regRows14 : List RegRow := [
  -- ME_CHECK_SKIPS
  ⟨0xF00128, 64, 4, 0, 1, 64, 0x0, false, some 0xF00000, false, [⟨63, 0, .ro⟩]⟩,
  -- ME_LAST_FAULT
  ⟨0xF00130, 64, 4, 0, 1, 32, 0x0, false, some 0xF00000, false, [⟨31, 0, .ro⟩]⟩,
  -- ME_LAST_FAULT_GT
  ⟨0xF00138, 64, 4, 0, 1, 64, 0x0, false, some 0xF00000, false, [⟨63, 0, .ro⟩]⟩,
  -- VE_STATUS
  ⟨0xF00400, 0, 1, 0, 1, 32, 0x0, false, some 0xF00000, false, [⟨1, 0, .ro⟩, ⟨2, 2, .ro⟩, ⟨8, 8, .w1c⟩, ⟨9, 9, .w1c⟩, ⟨10, 10, .w1c⟩, ⟨11, 11, .w1c⟩, ⟨12, 12, .w1c⟩, ⟨13, 13, .w1c⟩, ⟨14, 14, .w1c⟩, ⟨15, 15, .w1c⟩, ⟨16, 16, .w1c⟩, ⟨17, 17, .w1c⟩, ⟨18, 18, .w1c⟩]⟩,
  -- VE_INSTR
  ⟨0xF00408, 0, 1, 0, 1, 64, 0x0, false, some 0xF00000, false, [⟨63, 0, .ro⟩]⟩,
  -- VE_FLAG_LAST
  ⟨0xF00410, 0, 1, 0, 1, 32, 0x0, false, some 0xF00000, false, [⟨15, 0, .ro⟩, ⟨31, 16, .ro⟩]⟩,
  -- VE_FLAG_POS
  ⟨0xF00414, 0, 1, 0, 1, 32, 0x0, false, some 0xF00000, false, [⟨15, 0, .ro⟩, ⟨20, 16, .ro⟩]⟩,
  -- VE_EMPTY_COUNT
  ⟨0xF00418, 0, 1, 0, 1, 64, 0x0, false, some 0xF00000, false, [⟨63, 0, .ro⟩]⟩,
  -- VE_RESIDUE_FAILS
  ⟨0xF00420, 0, 1, 0, 1, 64, 0x0, false, some 0xF00000, false, [⟨63, 0, .ro⟩]⟩,
  -- VE_CLIPPED
  ⟨0xF00428, 0, 1, 0, 1, 64, 0x0, false, some 0xF00000, false, [⟨63, 0, .ro⟩]⟩,
  -- VE_CONVERTED
  ⟨0xF00430, 0, 1, 0, 1, 64, 0x0, false, some 0xF00000, false, [⟨63, 0, .ro⟩]⟩,
  -- TE_STATUS
  ⟨0xF00800, 0, 1, 0, 1, 32, 0x0, false, some 0xF00000, false, [⟨1, 0, .ro⟩, ⟨2, 2, .ro⟩, ⟨3, 3, .ro⟩, ⟨8, 8, .w1c⟩, ⟨9, 9, .w1c⟩, ⟨10, 10, .w1c⟩]⟩,
  -- TE_VISITS
  ⟨0xF00808, 0, 1, 0, 1, 64, 0x0, false, some 0xF00000, false, [⟨63, 0, .ro⟩]⟩,
  -- TE_PASSES
  ⟨0xF00810, 0, 1, 0, 1, 64, 0x0, false, some 0xF00000, false, [⟨63, 0, .ro⟩]⟩,
  -- TE_NAN_SEEN
  ⟨0xF00818, 0, 1, 0, 1, 64, 0x0, false, some 0xF00000, false, [⟨63, 0, .ro⟩]⟩,
  -- TE_STALLS
  ⟨0xF00820, 0, 1, 0, 1, 64, 0x0, false, some 0xF00000, false, [⟨63, 0, .ro⟩]⟩]

def regRows15 : List RegRow := [
  -- TE_PARITY_FAULTS
  ⟨0xF00828, 0, 1, 0, 1, 64, 0x0, false, some 0xF00000, false, [⟨63, 0, .ro⟩]⟩,
  -- TE_STREAM_SAMPLES
  ⟨0xF00830, 0, 1, 0, 1, 64, 0x0, false, some 0xF00000, false, [⟨63, 0, .ro⟩]⟩,
  -- TE_FLOW_DROPS
  ⟨0xF00838, 0, 1, 0, 1, 64, 0x0, false, some 0xF00000, false, [⟨63, 0, .ro⟩]⟩,
  -- TE_NODES_USED
  ⟨0xF00840, 0, 1, 0, 1, 32, 0x0, false, some 0xF00000, false, [⟨17, 0, .ro⟩, ⟨22, 18, .ro⟩]⟩,
  -- TE_SEG_MAP
  ⟨0xF00880, 4, 16, 0, 1, 32, 0x0, false, some 0xF00000, false, [⟨7, 0, .ro⟩, ⟨8, 8, .ro⟩, ⟨11, 9, .ro⟩, ⟨12, 12, .ro⟩, ⟨13, 13, .ro⟩, ⟨30, 14, .ro⟩]⟩]

/-- Decoder 0 of a port's HDM Decoder Capability Structure as CXL 3.1 lays it out (PRESUMED, log 121); HDM_COMMIT programs it
(R332). -/
def regRows16 : List RegRow := [
  -- Decoder 0 Base Low
  ⟨0xFF1020, 0, 1, 0, 1, 32, 0x0, true, none, false, [⟨31, 28, .ro⟩]⟩,
  -- Decoder 0 Base High
  ⟨0xFF1024, 0, 1, 0, 1, 32, 0x0, true, none, false, [⟨31, 0, .ro⟩]⟩,
  -- Decoder 0 Size Low
  ⟨0xFF1028, 0, 1, 0, 1, 32, 0x0, true, none, false, [⟨31, 28, .ro⟩]⟩,
  -- Decoder 0 Size High
  ⟨0xFF102C, 0, 1, 0, 1, 32, 0x0, true, none, false, [⟨31, 0, .ro⟩]⟩,
  -- Decoder 0 Control: Committed, Error Not Committed
  ⟨0xFF1030, 0, 1, 0, 1, 32, 0x0, true, none, false, [⟨10, 10, .ro⟩, ⟨11, 11, .ro⟩]⟩]

/-- Every register line, in ascending offset. -/
def regRows : List RegRow :=
  regRows0 ++
  regRows1 ++
  regRows2 ++
  regRows3 ++
  regRows4 ++
  regRows5 ++
  regRows6 ++
  regRows7 ++
  regRows8 ++
  regRows9 ++
  regRows10 ++
  regRows11 ++
  regRows12 ++
  regRows13 ++
  regRows14 ++
  regRows15 ++
  regRows16

/-- The offset within an array row of the register that holds `off`, in bytes from its own start. -/
def RegRow.within (r : RegRow) (off : Nat) : Option Nat :=
  if off < r.base then none
  else
    let x := off - r.base
    let a := if r.s1 == 0 then 0 else min (x / r.s1) (r.c1 - 1)
    let y := x - a * r.s1
    let b := if r.s2 == 0 then 0 else min (y / r.s2) (r.c2 - 1)
    let z := y - b * r.s2
    if z * 8 < max r.width 32 then some z else none

/-- The line that holds a byte offset of BAR0. N1's packet-path registers stand 0x20_0000 above
N0's; FLW_ registers are one set seen at both places. -/
def regFind (off : Nat) : Option (RegRow × Nat) :=
  regRows.findSome? (fun r => (r.within off).map (fun z => (r, z)))

end Sys2Proof.Machine
end

