-- ==== Sys2Proof/Machine/State.lean ====
section
/-! DEFINITION. The state of the FZ8 as plain data: every register, memory, queue, counter and mode
that the manual gives it, the queue of waiting commands, and the machine after reset. -/

namespace Sys2Proof.Machine

/-- Why a step stops with a fault. -/
inductive Fault where
  /-- Raised by a core command (MMA, LDT, STT, VEC, TREE), a vector load, store or conversion (VLD, VST, VLDS, VSTS,
  CVTN, DCVN), an NLU command (GATHER, POOL), GUARDED_WRITE or DEGRADED_READ for an address outside the memory that
  it names (R19, R95, R188): the manual gives no such access an effect, and LOAD_IMAGE rejects programs that
  hold one. Safe: the device stops. -/
  | addressOutside (addr : Nat)
  deriving DecidableEq, Repr

/-- Why a command has no meaning. -/
inductive Refusal where
  /-- Raised by the arms of Dispatch.lean alone, for a command without a meaning. Safe. -/
  | notModelled (mnemonic : String)
  /-- Raised by a core command or vector instruction that holds a value which LOAD_IMAGE rejects
  (R110, R129, R169), so that no loaded program holds it. Safe. -/
  | unlistedOperand
  deriving DecidableEq, Repr

/-! ### Cores: sequencer, engines, tile and tree memory (R92 to R182) -/

/-- An MMA command held by a matrix engine or waiting for one (R89, R117). -/
structure MmaRun where
  ctx : CtxId
  op : MmaOp
  /-- The engine whose check failed, after the first check failure (R117, R119). -/
  checkFail : Option MeId
  /-- The engine on which the tile ended faulted by R66 (R90, R91). -/
  deckleFail : Option MeId
  /-- That failure fenced the engine, which its strike stood on (R91, R119). -/
  fenced : Bool
  /-- The command moved from another engine (R117, R120). -/
  moved : Bool
  deriving DecidableEq, Repr

/-- A matrix engine (R90, R118, R125). -/
structure MEng where
  deckleStrike : Bool
  checkStrike : Bool
  /-- Tiles completed without the fault since the strike was set. -/
  deckleClean : Nat
  checkClean : Nat
  /-- A tile poisoned by R88 or R66 that waits for its re-execution (R89). -/
  reexec : Option MmaRun
  lastKind : Byte
  lastSub : BitVec 6
  lastStretched : Bool
  lastOp : W16
  lastLayer : W16
  lastGt : W64
  deriving DecidableEq, Repr

def MEng.idle : MEng :=
  { deckleStrike := false, checkStrike := false, deckleClean := 0, checkClean := 0, reexec := none,
    lastKind := 0, lastSub := 0, lastStretched := false, lastOp := 0, lastLayer := 0, lastGt := 0 }

/-- State of a program context (R103, ME_SEQ_STATUS). -/
inductive CtxState where
  | idle
  | waitLaunch
  | running
  | waitToken
  deriving DecidableEq, Repr

/-- A convert slot (R152, R155). -/
structure CSlot where
  tensor : BitVec 20
  fmt : BitVec 4
  gsize : BitVec 2
  weight : Bool
  zpen : Bool
  constLine : BitVec 15
  cursor : Nat
  clipped : Nat
  converted : Nat
  /-- By block index: the minimum and maximum of the non-cut elements, and the clip bit. -/
  blocks : List (Nat × (W32 × W32 × Bool))
  deriving DecidableEq, Repr

def CSlot.cleared : CSlot :=
  { tensor := 0, fmt := 0, gsize := 0, weight := false, zpen := false, constLine := 0, cursor := 0,
    clipped := 0, converted := 0, blocks := [] }

/-- A program context of a core (R102, R103, R130). -/
structure Ctx where
  st : CtxState
  ream : W32
  slot : SlotId
  lastOp : W16
  lastLayer : W16
  /-- Commands completed since the program started (R463's occurrences). -/
  done : Nat
  cslots : Vector CSlot 8
  deriving DecidableEq, Repr

def Ctx.idle : Ctx :=
  { st := .idle, ream := 0, slot := 0, lastOp := 0, lastLayer := 0, done := 0,
    cslots := Vector.replicate 8 CSlot.cleared }

/-- An accumulator bank: its 24 KiB as bytes by R98, and its poison mark (R101). -/
structure Bank where
  mem : List Host.Cell
  poison : Bool
  deriving DecidableEq, Repr

def Bank.empty : Bank := { mem := [], poison := false }

/-- The vector engine (R126) with the VEC command it is in. -/
structure VEng where
  /-- Where the free values start that registers not written in this VEC command hold (R130). -/
  epoch : Option Nat
  regs : List (Nat × List W32)
  regPoison : List Nat
  masks : List (Nat × BitVec 128)
  maskPoison : List Nat
  vl : Nat
  vlPoison : Bool
  ctx : CtxId
  op : W16
  layer : W16
  /-- Position of the next instruction in its VEC command (VE_FLAG_POS). -/
  pos : Nat
  flagOp : W16
  flagLayer : W16
  flagPos : W16
  flagBit : Nat
  strike : Bool
  /-- VEC commands completed without a mismatch since the strike was set (R137). -/
  clean : Nat
  /-- Columns 48·n + c wholly written without poison by this VEC command (R140). -/
  cleanCols : List Nat
  /-- A mismatch or a fence ended this VEC command's clean run. -/
  mismatch : Bool
  deriving DecidableEq, Repr

def VEng.reset : VEng :=
  { epoch := none, regs := [], regPoison := [], masks := [], maskPoison := [], vl := 128, vlPoison := false,
    ctx := 0, op := 0, layer := 0, pos := 0, flagOp := 0, flagLayer := 0, flagPos := 0,
    flagBit := 0, strike := false, clean := 0, cleanCols := [], mismatch := false }

/-- A segment held in tree memory (R174, TE_SEG_MAP). -/
structure SegEntry where
  stand : Nat
  slot : SlotId
  seg : Nat
  flow : Bool
  base : Nat
  count : Nat
  deriving DecidableEq, Repr

/-- The tree engine and tree memory (R163, R174, R182). -/
structure TEng where
  words : List (Nat × W64)
  segs : List (Nat × SegEntry)
  /-- Addresses of words whose copy in stack memory is damaged (R182). -/
  bad : List Nat
  /-- The stream input: numbers of the samples dispatched to the core, oldest first (R490). -/
  stream : List Nat
  strike : Bool
  clean : Nat
  deriving DecidableEq, Repr

def TEng.empty : TEng := { words := [], segs := [], bad := [], stream := [], strike := false, clean := 0 }

/-- A core. Sparse maps list only cores that differ from the core at reset. -/
structure CoreState where
  tile : List Host.Cell
  /-- Tile-memory lines whose data carry POISON = 1 (R97, R140). -/
  tilePoison : List Nat
  banks : Vector Bank 4
  engines : Vector MEng 4
  /-- Commands to be re-issued on another engine, oldest first (R117). -/
  reissue : List MmaRun
  ctxs : Vector Ctx 2
  ve : VEng
  te : TEng
  /-- GT at which it last ran a command (R418). -/
  lastRun : Nat
  deriving DecidableEq, Repr

def CoreState.reset : CoreState :=
  { tile := [], tilePoison := [], banks := Vector.replicate 4 Bank.empty,
    engines := Vector.replicate 4 MEng.idle, reissue := [], ctxs := Vector.replicate 2 Ctx.idle,
    ve := VEng.reset, te := TEng.empty, lastRun := 0 }

/-- A flow-scoring sample (R177). -/
structure Sample where
  id : Nat
  die : NDie
  /-- The flow's table index. -/
  index : Nat
  key : Nat
  feats : List W16
  slot : SlotId
  stand : Nat
  /-- The tracker entry that waits for the outputs, on the sample's die (R301). -/
  waiter : Option Nat
  deriving DecidableEq, Repr

/-- A dispatched sample with the segment sums that have arrived (R490). -/
structure InFlight where
  sample : Sample
  sums : List (Nat × List W32)
  poisoned : Bool
  deriving DecidableEq, Repr

/-- A cluster: tokens, SRAM and stand combiner (R19, R108, R179, R490). -/
structure ClusterState where
  sram : List Host.Cell
  sramPoison : List Nat
  /-- Cluster tokens by 64·context + number. -/
  tokens : List (Nat × Nat)
  queue : List Sample
  inFlight : List InFlight
  deriving DecidableEq, Repr

def ClusterState.reset : ClusterState :=
  { sram := [], sramPoison := [], tokens := [], queue := [], inFlight := [] }

/-- One post of clip counts and extremes to a die spine, merged by tensor and ream (R157). -/
structure ClipMerge where
  tensor : BitVec 20
  ream : W32
  slot : SlotId
  posts : Nat
  clipped : Nat
  converted : Nat
  blocks : List (Nat × (W32 × W32))
  deriving DecidableEq, Repr

/-- A raise of static scales that waits for its first ream (R77). -/
structure ScaleRaise where
  slot : SlotId
  tensor : BitVec 20
  /-- GT at which the raising ream's conversions ended. -/
  at_ : Nat
  scales : List (Nat × (Nat × Int))
  deriving DecidableEq, Repr

/-- What the last event SAT_SHARE that a spine raised carries (R75). -/
structure SatEvent where
  tensor : BitVec 20
  layer : W16
  launchNs : Nat
  share : Nat
  deriving DecidableEq, Repr

/-- A compute die's shared SRAM, die tokens and spine merges (R19, R108, R157). -/
structure DieState where
  sram : List Host.Cell
  sramPoison : List Nat
  tokens : List (Nat × Nat)
  merges : List ClipMerge
  sat : Option SatEvent
  deriving DecidableEq, Repr

def DieState.reset : DieState := { sram := [], sramPoison := [], tokens := [], merges := [], sat := none }

/-- A live copy of a static scale table (R77): block index to SCALE and ZP. -/
structure LiveScales where
  slot : SlotId
  tensor : BitVec 20
  scales : List (Nat × (Nat × Int))
  deriving DecidableEq, Repr
/-! ### The canopy, unit states and the fault log (R389 to R413) -/

/-- An open merge window at a canopy node (R394). -/
structure CanWindow where
  node : UnitCode
  first : Report
  endsAt : Nat
  count : Nat
  reporters : List UnitCode
  /-- Reporters of count records merged beyond those listed. -/
  moreReporters : Nat
  deriving DecidableEq, Repr

/-- The root's window on one named unit (R397). -/
structure RootWin where
  unit : UnitCode
  endsAt : Nat
  count : Nat
  windthrow : Bool
  /-- Reports that name the unit, in order of arrival, each with whether a windthrow covers it. -/
  reports : List (Report × Bool)
  deriving DecidableEq, Repr

/-- A unit's state, the code that fenced or lost it, and the GT of the change (FLT_UNIT_STATE). -/
structure UnitRec where
  /-- 0 ACTIVE, 1 FENCED, 2 LOST. -/
  st : Nat
  cause : W16
  gtNs : W64
  deriving DecidableEq, Repr

def UnitRec.active : UnitRec := { st := 0, cause := 0, gtNs := 0 }

structure Canopy where
  /-- Reports on their way, each with the node it arrives at next. -/
  transit : List (UnitCode × Report)
  windows : List CanWindow
  roots : List RootWin
  units : List (Nat × UnitRec)
  /-- Logical core to physical core, and logical to physical cluster, where they differ (R401). -/
  coreMap : List (Nat × Nat)
  clusterMap : List (Nat × Nat)
  /-- GT of the last keepalive of each node, by unit code (R396). -/
  keepalive : List (Nat × Nat)
  /-- Units to return to service, each with the ream window from which it does (R406). -/
  unfence : List (UnitCode × Nat)
  /-- Cluster SRAM reads that failed their retry in each cluster's latest 1 s window: window and count. -/
  sram : List (Nat × (Nat × Nat))
  handedOver : Bool
  /-- Reams that held work on a unit when it was fenced or lost, oldest first (R404). -/
  relaunch : List W32
  /-- Reams and layers whose KV entries are invalid and are rebuilt before the relaunch (R408). -/
  kvInvalid : List (W32 × W16)
  log : List (Nat × Bytes)
  logWritten : Nat
  deriving DecidableEq, Repr

def Canopy.reset : Canopy :=
  { transit := [], windows := [], roots := [], units := [], coreMap := [], clusterMap := [],
    keepalive := [], unfence := [], sram := [], handedOver := false, relaunch := [], kvInvalid := [], log := [], logWritten := 0 }
/-! ### Group time and launches (R28 to R44) -/

/-- A Sync as received: its transmitter and sequence number, its receive time in ns, and its correction in 2^-16 ns. -/
structure PtpSync where
  port : Nat
  seq : Nat
  rx : Nat
  corr : Int
  deriving DecidableEq, Repr

/-- The ordinary clock of R36: the two-step Sync that waits for its Follow_Up, t2 - t1 of the last Sync and the mean path
delay in 2^-16 ns, the next Delay_Req's sequence number, and the one under way with its transmit time in ns. -/
structure PtpClock where
  sync : Option PtpSync
  diff : Option Int
  delay : Option Int
  nextSeq : Nat
  req : Option (Nat × Option Nat)
  deriving DecidableEq, Repr

def PtpClock.reset : PtpClock := { sync := none, diff := none, delay := none, nextSeq := 0, req := none }

structure TimeState where
  /-- The source in use (GT_CTL.SOURCE, R30). -/
  source : Nat
  /-- GT_RATE_ADJ, signed; the servo's value under sources other than FREE. -/
  adj : Int
  locked : Bool
  aligned : Bool
  holdover : Bool
  /-- Last measured offset in picoseconds. -/
  offset : Int
  /-- Consecutive exchanges within and beyond 5 ns (R34). -/
  within : Nat
  beyond : Nat
  /-- GT of the last PPS_IN edge (R32). -/
  lastPps : Option Nat
  /-- GT of the last completed exchange, Sync or reference check (R32). -/
  lastExchange : Option Nat
  ppsOut : Bool
  ppsRise : Nat
  /-- A step that takes effect at the next edge (GT_STEP_CTL), and whether it is the one of a joining worker
  (R33, R374). -/
  stepTo : Option W64
  stepJoin : Bool
  /-- GT of the edge before the latest one (R37). -/
  prevGt : BitVec 96
  /-- The replicas that differ from the root, by unit code, with the difference in 2^-32 ns (R29). -/
  replicas : List (Nat × Int)
  /-- The 1 µs period in which the root last sent GT (R29). -/
  syncUs : Option Nat
  /-- MODEL: the number of free values drawn before the latest edge (log 100). -/
  edgeFresh : Nat
  ptp : PtpClock
  deriving DecidableEq, Repr

def TimeState.reset : TimeState :=
  { source := 0, adj := 0, locked := false, aligned := false, holdover := false, offset := 0,
    within := 0, beyond := 0, lastPps := none, lastExchange := none, ppsOut := false, ppsRise := 0,
    stepTo := none, stepJoin := false, prevGt := 0, replicas := [], syncUs := none, edgeFresh := 0, ptp := PtpClock.reset }
/-! ### Clock-crossing FIFOs and trace streams (R306 to R310, R450) -/

/-- A FIFO word: control and data fields of R307. -/
structure FifoWord where
  ctl : W32
  data : BitVec 128
  deriving DecidableEq, Repr

structure Fifo where
  words : List FifoWord
  /-- Items dropped since the last word was queued (R310). -/
  gap : Nat
  deriving DecidableEq, Repr

def Fifo.empty : Fifo := { words := [], gap := 0 }

/-- A trace buffer: streams 0 to 31 are clusters, 32 to 35 spines, 36 and 37 network dies. -/
structure TraceStream where
  fifo : Fifo
  /-- GT_NS of the stream's last record, and the 1 ms window of its last SYNC (R452). -/
  lastNs : Nat
  syncMs : Option Nat
  /-- The next record is the first since EN was set, or follows a GAP. -/
  needSync : Bool
  deriving DecidableEq, Repr

def TraceStream.empty : TraceStream := { fifo := Fifo.empty, lastNs := 0, syncMs := none, needSync := true }

/-! ### Stretching (R423, R424) -/

structure Stretch where
  /-- Clusters that stretch for droop, with the GT at which each began. -/
  droop : List (Nat × Nat)
  cap : Bool
  /-- Dies that stretch for temperature. -/
  thermal : List Nat
  /-- AVS failures: every cluster stretches (R480). -/
  avs : List Nat
  deriving DecidableEq, Repr

def Stretch.none_ : Stretch := { droop := [], cap := false, thermal := [], avs := [] }

/-! ### Model slots (R353 to R355) -/

/-- A model slot with the image it holds. -/
structure Slot where
  /-- STATE of HIF_SLOT_STATE. -/
  st : Nat
  image : Option Image
  hash : Bytes
  /-- Requests bound to the slot. -/
  bound : Nat
  /-- Its stands are being reloaded (R488). -/
  reload : Bool
  /-- Customer slots whose signatures counted for its image, as bits (R443). -/
  signers : Nat
  deriving DecidableEq, Repr

def Slot.empty : Slot := { st := 0, image := none, hash := [], bound := 0, reload := false, signers := 0 }
/-! ### Events, freezes and dumps (R459 to R472) -/

/-- An event record (R467, R469). -/
structure EvRec where
  code : Nat
  open_ : Bool
  stretched : Bool
  cut : Bool
  saturated : Bool
  seq : Nat
  boot : Nat
  firstGt : Nat
  lastGt : Nat
  endGt : Nat
  count : Nat
  firstUnit : UnitCode
  lastUnit : UnitCode
  min_ : Int
  max_ : Int
  sum : Int
  hist : List Nat
  base : Nat
  firstOp : Nat
  lastOp : Nat
  detail : Bytes
  deriving DecidableEq, Repr

/-- The event recorder: the open table by code, and the MRAM by slot, the first area at 0 to 2,047
and the second from 2,048 (R466, R467). -/
structure Recorder where
  opened : List (Nat × EvRec)
  mram : List (Nat × EvRec)
  /-- SEQ of the next record. -/
  written : Nat
  boot : Nat
  /-- GT at which the hold of R472 began. -/
  hold : Option Nat
  /-- MRAM writes that a hold suspends, in SEQ order. -/
  waiting : List EvRec
  deriving DecidableEq, Repr

def Recorder.empty : Recorder := { opened := [], mram := [], written := 0, boot := 0, hold := none, waiting := [] }

/-- The freezes (R459, R460). -/
structure FreezeState where
  seq : Nat
  /-- GT of the last freeze edge and of the one before it. -/
  gt : Nat
  prev : Nat
  sources : Nat
  /-- Domains whose clocks were stretched or gated since the last freeze, and in the interval that it closed. -/
  seen : List Nat
  closed : List Nat
  /-- GT at which FREEZE_OUT falls. -/
  out : Option Nat
  /-- Edges until the freeze of a FREEZE_IN that was sampled high, and of a threshold that was reached. -/
  inEdge : Option Nat
  thresh : Option Nat
  /-- By domain: the GT at which its clock last ceased to be stretched or gated (R47). -/
  until_ : List (Nat × Nat)
  /-- The counters as they stood at the latest edge (R44). -/
  edge : List (Nat × Nat)
  deriving DecidableEq, Repr

def FreezeState.none_ : FreezeState :=
  { seq := 0, gt := 0, prev := 0, sources := 0, seen := [], closed := [], out := none,
    inEdge := none, thresh := none, until_ := [], edge := [] }

/-- The trace port and the drain: FRAME_SEQ of the next frame, the frame sent last, and a drain that a reset of
its port has stopped (R454, R455). -/
structure TracePort where
  frameSeq : Nat
  frame : Bytes
  drainOff : Bool
  deriving DecidableEq, Repr

def TracePort.reset : TracePort := { frameSeq := 0, frame := [], drainOff := false }
/-! ### Memory stacks and near-memory lookup (R183 to R220) -/

/-- A region table entry (R191, DSM_REGION). -/
structure Region where
  first : Nat
  count : Nat
  kind : Nat
  slot : SlotId
  /-- A slot region from LOAD_IMAGE; else a device region from the BCB. -/
  owned : Bool
  deriving DecidableEq, Repr

/-- The stacks. A stack byte has key 2^38·stack + offset, a line that key over 64. -/
structure Dsm where
  cells : List Host.Cell
  reloc : List Nat
  poison : List Nat
  /-- Lines whose stored code word holds an error, corrected or uncorrectable at their next read (R184, R199). -/
  flaws : List (Nat × LineErr)
  regions : List (Nat × Region)
  /-- DSM_STATE.STATE. -/
  st : Nat
  firstLost : Nat
  lost : List Nat
  retired : List Nat
  /-- DSM_REBUILD_NEXT. -/
  next : Nat
  /-- GT at which the rebuild began. -/
  started : Nat
  /-- Uncorrectable lines of each stack in its latest 1 s window: window number and count. -/
  ue : List (Nat × (Nat × Nat))
  /-- GT of the last access to each stack (R419). -/
  used : List (Nat × Nat)
  /-- The snoop filters: lines that a port's host may hold, oldest first (R333). -/
  snoop : List (HPort × Nat)
  deriving DecidableEq, Repr

def Dsm.reset : Dsm :=
  { cells := [], reloc := [], poison := [], flaws := [], regions := [], st := 0, firstLost := 0, lost := [], retired := [],
    next := 0, started := 0, ue := [], used := [], snoop := [] }

/-- A key that waits in a forward queue: its ream, table, key and the NLU of its bucket 0 (R214). -/
structure FwdLookup where
  ream : W32
  table : TableId
  key : W64
  owner : NluId
  /-- Epochs of bucket 0 as its owner read it (R229). -/
  epoch : Nat
  tries : Nat
  deriving DecidableEq, Repr

/-- What a lookup resolves to: a row, the default row, or poison of a bucket it read. -/
inductive RowRes where
  | row (n : Nat)
  | default_
  | poisoned
  deriving DecidableEq, Repr

/-- A distinct pair of a ream in a coalescing table, with what it resolved to once its lookup ended
(R213, R214). -/
structure Coal where
  ream : W32
  table : TableId
  key : W64
  res : Option RowRes
  /-- The row fetched for the pair, with POISON. -/
  data : Option (Bytes × Bool)
  /-- Occurrences counted ahead of the command that serves them. -/
  served : Nat
  /-- Fetched uncoalesced, the table being full. -/
  uncoal : Bool
  deriving DecidableEq, Repr

/-- An NLU. Sparse maps list only NLUs that differ from one at reset. -/
structure Nlu where
  coal : List Coal
  fwd : List FwdLookup
  /-- Its copies of the tables' move epochs (R230). -/
  epochs : List (Nat × Nat)
  /-- Lookups held because the forward queue they go to is full. -/
  held : List FwdLookup
  deriving DecidableEq, Repr

def Nlu.empty : Nlu := { coal := [], fwd := [], epochs := [], held := [] }

/-- A POOL's bags at a pool combiner, before rounding (R212). -/
structure PoolJob where
  die : CDie
  cmd : NluCmd
  /-- For each bag: its exact elements in units of 2^-26, or their maxima, none where an element has no number; its length and its
  poison. -/
  bags : List (List (Option Int) × Nat × Bool)
  deriving DecidableEq, Repr

/-- A 4 KiB overhang unit's placement (R217 to R219): the section's table or weight, its host range
and mirror, its CRC. -/
structure OvhUnit where
  /-- The DPA of its first byte. -/
  dpa : Nat
  port : HPort
  addr : Nat
  mirror : Option Nat
  crc : W32
  deriving DecidableEq, Repr

/-- Overhang: the units of the loaded images, and what the last read of each delivered, with POISON. -/
structure Overhang where
  units : List (Nat × OvhUnit)
  delivered : List (Nat × (Bytes × Bool))
  deriving DecidableEq, Repr

def Overhang.empty : Overhang := { units := [], delivered := [] }
/-! ### Host ports, rings and configuration (R327 to R363) -/

/-- A customer key slot (R448). -/
structure CustSlot where
  valid : Bool
  hash : Bytes
  deriving DecidableEq, Repr

def CustSlot.empty : CustSlot := { valid := false, hash := [] }

/-- An accepted descriptor (R342, R343). -/
structure Desc where
  port : HPort
  ring : RingId
  bytes : Bytes
  /-- GT at or after which it starts: 0 for none (R38, R39). -/
  due : Nat
  protGen : Nat
  stampNs : Nat
  sub : Nat
  /-- Its number in order of acceptance. -/
  seq : Nat
  /-- The port's resets before its acceptance (R330). -/
  era : Nat
  /-- Launch-table entries that it holds, as 1024·die + index (R40). -/
  entries : List Nat
  /-- For LOAD_IMAGE, MIN_SIGS and the customer key slots in force at its acceptance (R448). -/
  minSigs : Nat
  keys : List CustSlot
  deriving DecidableEq, Repr

/-- A submission ring (R337 to R342). -/
structure Sq where
  /-- 0 DISABLED, 1 RUNNING, 2 STOPPING, 3 ERROR. -/
  st : Nat
  err : Nat
  head : Nat
  pi : Nat
  phase : Bool
  /-- Fetched descriptors that wait for acceptance. -/
  fetched : List Bytes
  /-- Accepted descriptors that have not completed. -/
  inflight : Nat
  /-- FLAGS byte last read from the watched line. -/
  watch : Option Byte
  deriving DecidableEq, Repr

def Sq.reset : Sq := { st := 0, err := 0, head := 0, pi := 0, phase := true, fetched := [], inflight := 0, watch := none }

/-- A completion ring (R341, R345). -/
structure Cq where
  tail : Nat
  head : Nat
  phase : Bool
  unconsumed : Nat
  reserved : Nat
  unsignalled : Nat
  /-- GT of the first unsignalled completion. -/
  since : Option Nat
  deriving DecidableEq, Repr

def Cq.reset : Cq := { tail := 0, head := 0, phase := true, unconsumed := 0, reserved := 0, unsignalled := 0, since := none }

/-- A host port. -/
structure PortState where
  linkUp : Bool
  era : Nat
  sqs : List (Nat × Sq)
  cqs : List (Nat × Cq)
  /-- The ring served last at each priority (R342). -/
  lastRing : List (Nat × Nat)
  /-- High halves captured by reads of low halves (R54, R124), by the offset that reads them. -/
  shadow : List (Nat × Nat)
  /-- The fault record captured by a read of FLT_LOG_WORD0. -/
  logShadow : Bytes
  hdmBase : Nat
  hdmSize : Nat
  hdmError : Bool
  /-- Bytes that the device has written to the port's host memory, by address. -/
  written : List Host.Cell
  /-- MSI-X messages sent, by vector. -/
  irqs : List (Nat × Nat)
  deriving DecidableEq, Repr

def PortState.reset : PortState :=
  { linkUp := false, era := 0, sqs := [], cqs := [], lastRing := [], shadow := [], logShadow := [],
    hdmBase := 0, hdmSize := 0, hdmError := false, written := [], irqs := [] }

/-- HIF_SEM (R334, R335). -/
structure Sem where
  owner : Option HPort
  token : Nat
  leaseEnd : Nat
  expiries : Nat
  /-- The port served first at the next tie: the loser of the previous one. -/
  tieFirst : HPort
  /-- MODEL: the port whose write still waiting in the queue was served already, at a tie (log 66). -/
  servedEarly : Option HPort
  deriving DecidableEq, Repr

def Sem.free : Sem := { owner := none, token := 0, leaseEnd := 0, expiries := 0, tieFirst := .h0, servedEarly := none }

/-- A protection window (R362). -/
structure ProtWin where
  pl : Nat
  ops : Nat
  tableLo : Nat
  tableHi : Nat
  base0 : Nat
  limit0 : Nat
  base1 : Nat
  limit1 : Nat
  deriving DecidableEq, Repr

def ProtWin.closed : ProtWin :=
  { pl := 0, ops := 0, tableLo := 0, tableHi := 0, base0 := 0, limit0 := 0, base1 := 0, limit1 := 0 }

/-- A committed window change that awaits its edge (R363). -/
structure ProtChange where
  port : HPort
  window : Nat
  content : ProtWin
  due : Nat
  deriving DecidableEq, Repr

/-- A scheduled change of configuration, slot or counters (R41). -/
inductive SchedKind where
  | freeze
  | store (number : Nat) (block : Bytes)
  | applySet (mask : Nat)
  | bcb (block : Bytes)
  | activate (slot : SlotId)
  deriving DecidableEq, Repr

structure Sched where
  desc : Desc
  kind : SchedKind
  deriving DecidableEq, Repr

/-- The configuration (R357 to R361). -/
structure Cfg where
  gen : Nat
  applied : Nat
  stored : List (Nat × Bytes)
  bcb : Option Bytes
  /-- Effective FIELD entries by FIELD_ID. -/
  fields : List (Nat × Nat)
  deriving DecidableEq, Repr

def Cfg.empty : Cfg := { gen := 0, applied := 0, stored := [], bcb := none, fields := [] }

/-- A dump point (R462 to R465). -/
structure DumpPoint where
  desc : Desc
  slot : SlotId
  tensor : BitVec 20
  /-- GT of acceptance. -/
  since : Nat
  /-- Occurrences seen. -/
  seen : Nat
  /-- Parts produced by reams whose occurrence is not the dumping one, and the reams whose conversions of the
  tensor have ended (R77). -/
  marks : List (W32 × List Nat)
  ends : List W32
  /-- Once the dumping occurrence has come: its ream, the parts copied, and what the header holds of it. -/
  ream : Option W32
  copied : List Nat
  op : W16
  stampNs : Nat
  sub : Nat
  poison : Bool
  stretched : Bool
  gen : Nat
  reqIx : Nat
  disarmed : Bool
  deriving DecidableEq, Repr

/-- An abandoned ream's occurrence does not count (R463). -/
def DumpPoint.abandon (seq : W32) (p : DumpPoint) : DumpPoint :=
  let q : DumpPoint := { p with marks := p.marks.filter (fun m => m.1 != seq), ends := p.ends.filter (· != seq) }
  if p.ream == some seq then { q with ream := none, copied := [], poison := false, stretched := false } else q

/-- An EVR_READ in progress; one under hold keeps the records of its acceptance and its RESULT (R472). -/
structure EvrRead where
  desc : Desc
  hold : Bool
  got : Bytes
  result : Nat
  deriving DecidableEq, Repr

/-- A LOAD_IMAGE in progress, with the state that its slot had (R347). -/
structure Load where
  desc : Desc
  prev : Nat
  deriving DecidableEq, Repr

/-- The host interface of the device. -/
structure HostState where
  ports : Vector PortState 2
  sem : Sem
  /-- Accepted descriptors handed to their units, in stamp order. -/
  inbox : List Desc
  /-- Descriptors accepted since start-up. -/
  accepted : Nat
  sched : List Sched
  /-- Loads in progress, by slot. -/
  loads : List (Nat × Load)
  prot : List (Nat × ProtWin)
  protGen : Nat
  protPending : List ProtChange
  cfg : Cfg
  /-- Launch tables: 1024·die + index to LAUNCH_GT; dies C0 to C3, N0, N1 (R40). -/
  launch : List (Nat × Nat)
  dumps : List (Nat × DumpPoint)
  /-- Snapshots and event reads in progress. -/
  snapReads : List Desc
  evrReads : List EvrRead
  deriving DecidableEq, Repr

def HostState.reset : HostState :=
  { ports := Vector.replicate 2 PortState.reset, sem := Sem.free, inbox := [], accepted := 0, sched := [], loads := [],
    prot := [], protGen := 0, protPending := [], cfg := Cfg.empty, launch := [], dumps := [], snapReads := [],
    evrReads := [] }
/-! ### Stack tables, forwarding tables and prefixes (R221 to R259) -/

/-- A table descriptor (R222). -/
structure TblDesc where
  table : Nat
  kind : Nat
  blog : Nat
  maxKick : Nat
  fmt : Nat
  gsize : Nat
  seed0 : Nat
  seed1 : Nat
  rowLen : Nat
  bucketBase : Nat
  rowBase : Nat
  rowLimit : Nat
  default_ : Nat
  agePeriod : Nat
  deriving DecidableEq, Repr

/-- Who asked for a change of a table. -/
inductive ChangeBy where
  | desc (d : Desc)
  | cmd (p : HPort) (op seq : Nat)
  | group (seq : Nat)
  deriving DecidableEq, Repr

/-- A change accepted and not yet committed (R239 to R241). -/
structure Change where
  who : ChangeBy
  recs : List BatchRec
  expect : Nat
  /-- Its launch edge; 0 for none. -/
  due : Nat
  deriving DecidableEq, Repr

/-- A lookup for which moves on its table are held: its ream, its key, and the GT at which the hold began (R230). -/
structure Hold where
  ream : W32
  key : Nat
  since : Nat
  deriving DecidableEq, Repr

/-- A stack table (R237, R242). -/
structure Tbl where
  desc : TblDesc
  /-- The slots that hold it; none for the flow table. -/
  owners : List SlotId
  gen : Nat
  pending : Bool
  commitGt : Nat
  retiring : Bool
  /-- The writer has revisited the changed keys. -/
  revisited : Bool
  kick : Nat
  epoch : Nat
  /-- Row indices named by occupied slots, with the number of slots that name them. -/
  refs : List (Nat × Nat)
  occupied : Nat
  changed : List Nat
  queue : List Change
  staging : Option Change
  /-- The GT at which the staging of the pending change ended (R241). -/
  stagedAt : Nat
  holds : List Hold
  /-- The sweep's last visit, as its due time and 1, and the buckets that it has visited at this edge (R255, R256). -/
  swept : Nat
  visited : List Nat
  deriving DecidableEq, Repr

/-- A slot's entry (R226). -/
structure Entry where
  key : Nat
  row : Nat
  flags : Nat
  deriving DecidableEq, Repr

def Entry.empty : Entry := { key := 0, row := 0, flags := 0 }

/-- A change of one entry that waits for the table writer (R232, R246): OP of TBL_CMD, the entry, the bucket number and slot that
a MOVE names, the port that asked, and its number in the order of acceptance. -/
structure InsReq where
  table : TableId
  op : Nat
  entry : Entry
  target : Nat × Nat
  port : HPort
  ord : Nat
  deriving DecidableEq, Repr

/-- One move of a chain: the slot it empties and the slot it fills. -/
structure Move where
  fromB : Nat
  fromS : Nat
  toB : Nat
  toS : Nat
  deriving DecidableEq, Repr

/-- An insertion chain whose moves are under way, the next move first (R233, R234). -/
structure Chain where
  req : InsReq
  moves : List Move
  deriving DecidableEq, Repr

/-- A key in a learn hold filter (R251). -/
structure Held where
  port : Nat
  until_ : Nat
  moveSeen : Bool
  deriving DecidableEq, Repr

/-- A prefix entry and its result (R257). -/
structure Pfx where
  addr : BitVec 128
  len : Nat
  vrf : Nat
  v6 : Bool
  vrfAny : Bool
  valid : Bool
  result : W32
  deriving DecidableEq, Repr

def Pfx.empty : Pfx := { addr := 0, len := 0, vrf := 0, v6 := false, vrfAny := false, valid := false, result := 0 }

/-- The tables of a network die. -/
structure NetTables where
  fwd : List Host.Cell
  fwdKick : Nat
  hold : List (Nat × Held)
  /-- ORIGIN = 1 entries naming each port. -/
  learned : List (Nat × Nat)
  /-- GT, SUB and port of the last frame that the pipelines took (R250, R325). -/
  lastRx : Nat × Nat × Nat
  /-- The sweep's last visit, as its due time and 1, and the buckets that it has visited at this edge (R255, R256). -/
  swept : Nat
  visited : List Nat
  learnFifo : Fifo
  pfx : List (Nat × Pfx)
  deriving DecidableEq, Repr

def NetTables.empty : NetTables :=
  { fwd := [], fwdKick := 0, hold := [], learned := [], lastRx := (0, 0, 0), swept := 0, visited := [], learnFifo := Fifo.empty, pfx := [] }

structure TableState where
  tables : List (Nat × Tbl)
  inserts : List InsReq
  /-- Changes that the table writer has accepted. -/
  ords : Nat
  chains : List Chain
  net : Vector NetTables 2
  missFifo : Fifo
  deriving DecidableEq, Repr

def TableState.empty : TableState :=
  { tables := [], inserts := [], ords := 0, chains := [], net := Vector.replicate 2 NetTables.empty, missFifo := Fifo.empty }

/-! ### Reams (R302 to R304, R379, R380, R404) -/

/-- An NLU command of a ream that has not run. -/
structure NluJob where
  die : CDie
  pool : Bool
  cmd : NluCmd
  deriving DecidableEq, Repr

/-- A row of a ream: the request whose row it is, as its input bytes stood when the ream was sealed (R277). -/
structure ReamRow where
  req : Nat
  service : W16
  body : Bytes
  input : Bytes
  deriving DecidableEq, Repr

/-- A ream from its first request to its end. -/
structure Ream where
  seq : W32
  slot : SlotId
  /-- Its ream window n, and its part when a slot switch splits the window (R355). -/
  window : Nat
  part : Nat
  /-- LAUNCH_GT in ns. -/
  launchNs : Nat
  sealed_ : Bool
  launched : Bool
  /-- The table view: its first launch edge (R238, R404). -/
  view : Nat
  /-- Its requests, as 524288·die + tracker index. -/
  reqs : List Nat
  /-- One row for each request that it was sealed with. -/
  rows : List ReamRow
  jobs : List NluJob
  /-- Cores whose programs for the ream have not ended. -/
  cores : List CoreId
  /-- Cores whose rebuild programs run ahead of them in a relaunched ream and have not ended (R408). -/
  rebuild : List CoreId
  started : List CoreId
  /-- Cores whose context was occupied at the launch edge (R103). -/
  occupied : List CoreId
  /-- Credits held: clusters with units, NLUs with keys (R303). -/
  cluCredit : List (Nat × Nat)
  nluCredit : List (Nat × Nat)
  entries : List Nat
  /-- Table-set generation that it reads (R50). -/
  tgen : Nat
  /-- The peer whose work it is, with the share, on a worker (R380). -/
  share : Option (PeerId × Nat)
  /-- The shares of a manager's ream: number, the worker that runs it (0 for the device itself), and
  whether its outputs are complete (R379). -/
  shares : List (Nat × (Nat × Bool))
  /-- Abandoned and waiting to relaunch (R404). -/
  abandoned : Bool
  deriving DecidableEq, Repr
/-! ### Lanes, packet path and egress (R260 to R326) -/

/-- An optical lane (R260, R263, R476). -/
structure Lane where
  /-- 0 DOWN, 1 TRAINING, 2 UP, 3 STANDBY. -/
  st : Nat
  /-- The lane has failed and is out of its port; `dark` when for low light. -/
  lost : Bool
  dark : Bool
  /-- Laser input power in 0.1 mW (PP_LASER). -/
  power : Nat
  deriving DecidableEq, Repr

def Lane.down : Lane := { st := 0, lost := false, dark := false, power := 0 }

/-- A classification rule (R280, R281). -/
structure Rule where
  key : Nat
  mask : Nat
  act : Nat
  valid : Bool
  hits : Nat
  deriving DecidableEq, Repr

def Rule.empty : Rule := { key := 0, mask := 0, act := 0, valid := false, hits := 0 }

/-- A frame in a packet buffer until its last copy has left (R313), for a group frame with what it carries. -/
structure BufFrame where
  die : NDie
  len : Nat
  bytes : Bytes
  grp : Option (GrpHdr × GrpBody)
  copies : Nat
  /-- The cells it occupies, from BUF_CELL of its request onward (R295). -/
  cells : List Nat
  deriving DecidableEq, Repr

/-- A copy of a frame in a queue. -/
structure QItem where
  frame : Nat
  /-- The tracker entry that it answers, as 524288·die + index. -/
  entry : Option Nat
  mirror : Bool
  /-- A group frame, charged to the group's shaper. -/
  group : Bool
  /-- Close of the opening in which its wait was counted (R320). -/
  deferred : Option Nat
  deriving DecidableEq, Repr

/-- A gate list: base time, and gates with their intervals (R320). -/
structure GateList where
  base : Nat
  entries : List (Nat × Nat)
  deriving DecidableEq, Repr

/-- A port under the present quad modes, by its first lane. -/
structure EPort where
  /-- 0 DOWN, 1 TRAINING, 2 UP. -/
  st : Nat
  /-- A lane was lost or joins, and the new width is not agreed (R263). -/
  pause : Bool
  queues : List (Nat × List QItem)
  /-- The copy being sent, its queue, and the GT at which its occupancy ends. -/
  sending : Option (QItem × Nat)
  endAt : Nat
  /-- Deficits by queue, and the queue visited last at each priority (R314). -/
  deficit : List (Nat × Nat)
  turn : List (Nat × Nat)
  oper : Option GateList
  /-- A change that awaits its edge (R322). -/
  change : Option (Nat × GateList)
  deriving DecidableEq, Repr

def EPort.down : EPort :=
  { st := 0, pause := false, queues := [], sending := none, endAt := 0, deficit := [], turn := [], oper := none, change := none }

/-- A shaper (R316 to R318): tokens in units of 2^-16 byte and the truncated fraction of a refill. -/
structure Shaper where
  tokens : Int
  frac : Nat
  last : Nat
  rate : Nat
  overhead : Int
  burst : Nat
  en : Bool
  /-- Its configuration word awaits the next refill. -/
  cfg : Option Nat
  eligible : Bool
  deriving DecidableEq, Repr

def Shaper.reset : Shaper :=
  { tokens := 655360000, frac := 0, last := 0, rate := 0, overhead := 20, burst := 10000, en := false, cfg := none, eligible := true }

/-- A meter (R324): its configuration words, its buckets in 1/8000 byte, and its colour counts. -/
structure Meter where
  cfg0 : Nat
  cfg1 : Nat
  tc : Nat
  tp : Nat
  last : Nat
  counts : List Nat
  deriving DecidableEq, Repr

def Meter.reset : Meter := { cfg0 := 0, cfg1 := 0, tc := 0, tp := 0, last := 0, counts := [0, 0, 0] }

/-- A PTP message punted to the management processors (R36). -/
structure PtpPunt where
  port : LaneId
  gtNs : Nat
  sub : BitVec 6
  bytes : Bytes
  deriving DecidableEq, Repr

structure NetState where
  lanes : List (Nat × Lane)
  ports : List (Nat × EPort)
  /-- Rules by 16384·die + index. -/
  rules : List (Nat × Rule)
  frames : List (Nat × BufFrame)
  nextFrame : Nat
  /-- Shapers and meters by 4096·die + number; the wheel's entries as (slot time, shaper) in order. -/
  shapers : List (Nat × Shaper)
  wheel : List (Nat × Nat)
  /-- Slot time that each die's wheel processed last. -/
  wheelAt : List (Nat × Nat)
  meters : List (Nat × Meter)
  /-- Punt queues by 8·die + queue. -/
  punt : List (Nat × Fifo)
  ptp : List PtpPunt
  deriving DecidableEq, Repr

def NetState.reset : NetState :=
  { lanes := [], ports := [], rules := [], frames := [], nextFrame := 0, shapers := [], wheel := [], wheelAt := [],
    meters := [], punt := [], ptp := [] }

/-! ### Flow records, requests and admission (R177, R288 to R304) -/

/-- What a tracked frame brings to its flow record (R290, R291). -/
structure FlowFrame where
  key : Nat
  classM : Bool
  die : NDie
  port : LaneId
  gtNs : Nat
  len : Nat
  ttl : Option Nat
  dscp : Option Nat
  l4dst : Option Nat
  tcp : Option Nat
  /-- Enabled extraction fields by number. -/
  fields : List (Nat × Bytes)
  score : Bool
  /-- The tracker entry of a class M request. -/
  entry : Option Nat
  deriving DecidableEq, Repr

/-- A hardware flow insertion (R232, R292). -/
structure FlowIns where
  frame : FlowFrame
  index : Nat
  /-- Its number in the order in which the table writer accepts changes (R232). -/
  ord : Nat
  deriving DecidableEq, Repr

/-- A sample's outputs on their way to the network die. -/
structure SampleOut where
  sample : Sample
  outs : List W32
  deriving DecidableEq, Repr

structure FlowState where
  /-- Flow-port requests, oldest first, each with its NLU (R215). -/
  queue : List (Nat × FlowFrame)
  inserts : List FlowIns
  /-- Hardware indices taken from the free list. -/
  used : List Nat
  /-- Samples on their way to their combiner, and outputs on their way back. -/
  samples : List Sample
  outs : List SampleOut
  nextSample : Nat
  deriving DecidableEq, Repr

def FlowState.empty : FlowState := { queue := [], inserts := [], used := [], samples := [], outs := [], nextSample := 0 }

/-- A tracker entry (R295) with what its packet-buffer cells hold (R277). -/
structure Req where
  id : W64
  deadline : Nat
  /-- STATE of R296, never FREE for a listed entry. -/
  st : Nat
  slot : SlotId
  port : LaneId
  worker : Nat
  hint : Bool
  untracked : Bool
  unscored : Bool
  service : W16
  ream : W32
  flowIndex : Option Nat
  /-- The request's frame, or the INFER descriptor it came from. -/
  frame : Option Nat
  infer : Option Desc
  clientTag : Bytes
  body : Bytes
  outs : List W32
  /-- GT at which its scoring sample left (R301). -/
  sampled : Option Nat
  /-- The number of that sample. -/
  sample : Option Nat
  /-- Its number in order of the offers (R304), and the GT of its offer (R300). -/
  ord : Nat
  offeredAt : Nat
  carries : Nat
  /-- Credits taken, as (cluster, units) and (NLU, keys). -/
  clu : List (Nat × Nat)
  nlu : List (Nat × Nat)
  /-- Its result with STATUS, once complete: table-set generation, image hash, body. -/
  reply : Option (Nat × Bytes × Bytes)
  /-- Counted as bound to its slot (R353). -/
  bound : Bool
  /-- Re-placed once for poison (R407). -/
  replaced : Bool
  deriving DecidableEq, Repr

structure AdmState where
  /-- Requests offered to the admission unit, in order of arrival. -/
  offers : List Nat
  carried : List Nat
  /-- Offers made since start-up. -/
  offered : Nat
  /-- Windows up to this one are sealed. -/
  window : Nat
  /-- REAM_SEQ of the next ream. -/
  nextSeq : Nat
  /-- Service estimates written by software, by slot·65536 + service. -/
  est : List (Nat × Nat)
  /-- The core and cluster maps as the latest window found them, and the unfenced cores of each pool below 8 (R405). -/
  coreMap : List (Nat × Nat)
  clusterMap : List (Nat × Nat)
  poolUnits : List (Nat × Nat)
  /-- The SHED of R412. -/
  shedAll : Bool
  deriving DecidableEq, Repr

def AdmState.reset : AdmState :=
  { offers := [], carried := [], offered := 0, window := 0, nextSeq := 0, est := [], coreMap := [], clusterMap := [], poolUnits := [], shedAll := false }

/-! ### The group (R364 to R388) -/

/-- A sequenced frame that is not acknowledged, with the GT of its last sending (R371). -/
structure Unacked where
  seq : W32
  body : GrpBody
  sent : Nat
  deriving DecidableEq, Repr

/-- A member of the group with whom the device holds a sequence: a worker by its ID on a manager, the
manager as 0 on a worker. -/
structure Peer where
  /-- STATE of GRP_MEMBER: 1 JOINED, 2 READY, 3 LEAVING. -/
  st : Nat
  port : LaneId
  /-- The MAC address of the worker's port that its ANNOUNCE came from. -/
  mac : Nat
  ident : W64
  eligible : Bool
  aligned : Bool
  load : Nat
  hashA : W64
  hashB : W64
  tgen : W64
  /-- Receipt of its last heartbeat in ns, that heartbeat's T_TX, and our last T_TX to it. -/
  hbNs : Nat
  hbTx : Nat
  /-- GT from which its silence is counted (R378). -/
  heard : Nat
  nextSeq : W32
  expect : W32
  unacked : List Unacked
  waiting : List GrpBody
  /-- Tables still to be copied to it (R376). -/
  copies : List Nat
  deriving DecidableEq, Repr

/-- A received group frame in the engine's receive queue (R372). -/
structure GrpRx where
  port : LaneId
  gtNs : Nat
  /-- Source MAC address. -/
  smac : Nat
  hdr : GrpHdr
  body : GrpBody
  deriving DecidableEq, Repr

structure GroupState where
  /-- ROLE of GRP_STATUS (R364): 0 STANDALONE, 1 MANAGER, 2 WORKER, 3 JOINING. -/
  role : Nat
  id : Nat
  epoch : W32
  timeAhead : Bool
  peers : List (Nat × Peer)
  /-- The holders in force, and those that SET_HOLDERS names. -/
  holders : List Nat
  setHolders : List Nat
  /-- Holders that have not yet acknowledged the journal sent to them (R382). -/
  degraded : List Nat
  /-- JOURNAL frames that a holder has not acknowledged: (holder, SEQ) and the handle. -/
  journalling : List ((Nat × Nat) × Nat)
  /-- Group frames stop while the quiet clock is unlocked (R415). -/
  stopped : Bool
  /-- Handles that a holder has acknowledged. -/
  journalled : List Nat
  /-- Worker IDs released, with the GT (R373). -/
  freed : List (Nat × Nat)
  rx : List GrpRx
  /-- Entries held as a holder, by handle, and the holder's member table. -/
  held : List (Nat × JEntry)
  members : List (Nat × Member)
  /-- A worker that leaves once the shares it holds have ended (R365). -/
  toLeave : Bool
  /-- The device is a holder of its manager. -/
  holder : Bool
  /-- GT at which the manager was lost, and its last heartbeat (R384). -/
  lost : Option Nat
  lastAnnounce : Option Nat
  lastProbe : Option Nat
  /-- A frame of the current epoch has been heard from the manager since it was lost (R384). -/
  heardMgr : Bool
  lastHb : Nat
  /-- GT at which a worker began to leave (R365). -/
  leaving : Option Nat
  /-- A manager that turns worker once its tracker is empty (R366). -/
  toWorker : Bool
  /-- A worker that turns manager once its shares have ended (R366). -/
  toManager : Bool
  /-- Tables whose copy from the manager is complete (R376). -/
  copied : List Nat
  /-- Key and bag lists that the manager has written for a share: address and bytes (DEDUCED, log 24). -/
  inputs : List (Nat × Nat)
  deriving DecidableEq, Repr

def GroupState.reset : GroupState :=
  { role := 0, id := 0, epoch := 0, timeAhead := false, peers := [], holders := [], setHolders := [], degraded := [],
    journalling := [], journalled := [], stopped := false, freed := [], rx := [], held := [], members := [], toLeave := false, holder := false,
    lost := none, lastAnnounce := none, lastProbe := none, heardMgr := false, lastHb := 0, leaving := none, toWorker := false,
    toManager := false, copied := [], inputs := [] }

/-! ### Power domains (R415 to R424) -/

/-- A power domain (R416, PWR_DOMAIN_STATE). -/
structure Dom where
  /-- 0 OFF, 1 ENTERING, 2 ASLEEP, 3 WAKING, 4 ON. -/
  st : Nat
  wakes : Nat
  gtNs : Nat
  /-- GT at which the entry or the wake began. -/
  since : Nat
  /-- A wake was requested during the entry (R421). -/
  want : Bool
  /-- Its wake was retried (R422). -/
  retried : Bool
  deriving DecidableEq, Repr

def Dom.off : Dom := { st := 0, wakes := 0, gtNs := 0, since := 0, want := false, retried := false }

structure PowerState where
  doms : List (Nat × Dom)
  qclk : Bool
  watts : Nat
  peak : Nat
  /-- Hottest sensor of each die in °C, C0 to C3, N0, N1. -/
  temps : Vector Nat 6
  /-- The 1 ms window that was closed last. -/
  window : Option Nat
  /-- Failed AVSBus transactions in succession, by compute die (R480). -/
  avsFails : List (Nat × Nat)
  /-- Launches that wait for a unit: its domain, and the LAUNCH_GT in ns (R43). -/
  late : List (Nat × Nat)
  /-- THERMTRIP_N is driven low (R483). -/
  trip : Bool
  deriving DecidableEq, Repr

def PowerState.reset : PowerState :=
  { doms := [], qclk := false, watts := 0, peak := 0, temps := Vector.replicate 6 0, window := none, avsFails := [],
    late := [], trip := false }


/-! ### Start-up, flash, fuses and security (R425 to R448, R484, R485) -/

/-- A root key slot of the fuses (R434). -/
structure RootSlot where
  hash : Bytes
  programmed : Bool
  revoked : Bool
  deriving DecidableEq, Repr

structure Fuses where
  roots : Vector RootSlot 4
  counter : Nat
  serial : W64
  /-- The identity public key (R441). -/
  identity : Bytes
  deriving DecidableEq, Repr

/-- A firmware copy: its 512-byte header and its body (R431). -/
structure FwCopy where
  hdr : Bytes
  body : Bytes
  deriving DecidableEq, Repr

def FwCopy.empty : FwCopy := { hdr := [], body := [] }

/-- A directory copy (R429). -/
structure DirCopy where
  seq : Nat
  preferB : Bool
  crcOk : Bool
  deriving DecidableEq, Repr

/-- A configuration copy (R436). -/
structure CfgCopy where
  seq : Nat
  bcb : Option Bytes
  stored : List (Nat × Bytes)
  applied : Nat
  crcOk : Bool
  deriving DecidableEq, Repr

def CfgCopy.empty : CfgCopy := { seq := 0, bcb := none, stored := [], applied := 0, crcOk := false }

/-- The SPI NOR flash (R429). -/
structure Flash where
  dir : Vector DirCopy 2
  fw : Vector FwCopy 2
  cfg : Vector CfgCopy 2
  certs : List Bytes
  deriving DecidableEq, Repr

/-- A firmware WRITE in progress: the copy it programs, and whether it began in HOLD (R433, R438). -/
structure FwWrite where
  copy : Nat
  hold : Bool
  image : FwCopy
  deriving DecidableEq, Repr

/-- Who asked for an attestation report (R444). -/
inductive AttestTo where
  | desc (d : Desc)
  | doe (p : HPort)
  deriving DecidableEq, Repr

structure AttestReq where
  whom : AttestTo
  nonce : Bytes
  deriving DecidableEq, Repr

structure BootState where
  /-- PORST_N is low. -/
  held : Bool
  /-- PREFERRED of the directory that the ROM used, copy B (R432, R433). -/
  prefB : Bool
  straps : BitVec 4
  /-- Stage 2 has ended: firmware runs. -/
  fwUp : Bool
  /-- Stage 4 has ended. -/
  filled : Bool
  /-- GT at the end of stage 6. -/
  configAt : Option Nat
  /-- Stage 8 has ended. -/
  timeDone : Bool
  fuses : Fuses
  flash : Flash
  /-- The running firmware, and the one resident in the other bank after a switch. -/
  running : FwCopy
  resident : Option (Nat × FwCopy)
  standby : Option (Nat × FwCopy)
  write : Option FwWrite
  /-- The launch edge of a pending SWITCH, and the end of a probation. -/
  switchAt : Option Nat
  probation : Option Nat
  /-- Fuses being blown: the action and its target. -/
  fuseJob : Option (Nat × Nat)
  cust : Vector CustSlot 4
  /-- The certificate chain as the security engine holds it. -/
  certs : List Bytes
  /-- A configuration change that has no copy in flash yet. -/
  cfgDirty : Bool
  attest : List AttestReq
  /-- The response object that each port's DOE mailbox holds. -/
  doe : List (Nat × Bytes)
  i3cAddr : Nat
  i3cOff : Nat
  i3cOut : Bytes
  deriving DecidableEq, Repr

/-- Fuses and flash of a device: the slots are programmed; what they hold is not given (DESIGN CHOICE, log 5). -/
def Fuses.blank : Fuses :=
  { roots := Vector.replicate 4 { hash := [], programmed := true, revoked := false }, counter := 0, serial := 0, identity := [] }
def Flash.blank : Flash :=
  { dir := Vector.replicate 2 { seq := 0, preferB := false, crcOk := false }, fw := Vector.replicate 2 FwCopy.empty,
    cfg := Vector.replicate 2 CfgCopy.empty, certs := [] }

def BootState.reset : BootState :=
  { held := true, prefB := false, straps := 0, fwUp := false, filled := false, configAt := none, timeDone := false, fuses := Fuses.blank,
    flash := Flash.blank, running := FwCopy.empty, resident := none, standby := none, write := none, switchAt := none, probation := none,
    fuseJob := none, cust := Vector.replicate 4 CustSlot.empty, certs := [], cfgDirty := false, attest := [], doe := [],
    i3cAddr := 0, i3cOff := 0, i3cOut := [] }
/-- The whole machine. -/
structure State where
  /-- GT in units of 2^-32 ns, 96 bits (R28). -/
  gt : BitVec 96
  time : TimeState
  cores : List (Nat × CoreState)
  clusters : List (Nat × ClusterState)
  dies : List (Nat × DieState)
  canopy : Canopy
  liveScales : List LiveScales
  scaleRaises : List ScaleRaise
  trace : List (Nat × TraceStream)
  stretch : Stretch
  slots : Vector Slot 2
  recorder : Recorder
  freeze : FreezeState
  tport : TracePort
  dsm : Dsm
  nlus : List (Nat × Nlu)
  pools : List PoolJob
  overhang : Overhang
  host : HostState
  tbl : TableState
  reams : List Ream
  net : NetState
  flow : FlowState
  rqt : List (Nat × Req)
  adm : AdmState
  grp : GroupState
  pwr : PowerState
  boot : BootState
  /-- Stored register words by offset and index, where they differ from reset (RegTable.lean). -/
  regs : List (Nat × Nat)
  /-- Counter positions of R456 that are not 0: live values and snapshots. -/
  counters : List (Nat × Nat)
  snaps : List (Nat × Nat)
  /-- The model's own counter for free values (DESIGN CHOICE, log 3); not the manual's. -/
  fresh : Nat
  /-- Commands waiting, first in, first out. -/
  pending : List Instr
  deriving DecidableEq, Repr

/-- The machine right after reset (R425, R426): GT 0, everything empty. -/
def State.reset : State :=
  { gt := 0, time := TimeState.reset, cores := [], clusters := [], dies := [], canopy := Canopy.reset,
    liveScales := [], scaleRaises := [], trace := [], stretch := Stretch.none_, slots := Vector.replicate 2 Slot.empty,
    recorder := Recorder.empty, freeze := FreezeState.none_, tport := TracePort.reset, dsm := Dsm.reset, nlus := [], pools := [],
    overhang := Overhang.empty, host := HostState.reset,
    tbl := TableState.empty, reams := [], net := NetState.reset, flow := FlowState.empty, rqt := [], adm := AdmState.reset, grp := GroupState.reset, pwr := PowerState.reset, boot := BootState.reset,
    regs := [], counters := [], snaps := [], fresh := 0, pending := [] }

end Sys2Proof.Machine
end

