-- ==== Sys2Proof/Machine/Ops.lean ====
section
/-! DEFINITION. Named operations over the state: time, free values, registers, counters, units,
cores and clusters, and the reporting of faults. -/

namespace Sys2Proof.Machine

/-- What every meaning answers. -/
abbrev Res := Host.Outcome State Fault Refusal

/-! ### Time (R28) -/

def now (s : State) : Nat := s.gt.toNat
/-- GT_NS. -/
def nowNs (s : State) : Nat := now s / 2 ^ 32
/-- Nanoseconds and microseconds in units of GT. -/
def nsT (n : Nat) : Nat := 2 ^ 32 * n
def usT (n : Nat) : Nat := 1000 * 2 ^ 32 * n
def msT (n : Nat) : Nat := 1000000 * 2 ^ 32 * n

/-! ### Free values (DESIGN CHOICE, log 3) -/

/-- Draw a free value. -/
def drawFree (s : State) : Nat × State := (Config.free s.fresh, { s with fresh := s.fresh + 1 })

/-- SUB of a unit's stamp (R46): the unit's own cycle count, which the manual leaves open; within one quiet-clock edge it
never falls from one stamp to the next (DESIGN CHOICE, log 100). -/
def drawSub (u : UnitCode) (s : State) : BitVec 6 × State :=
  let n := s.time.edgeFresh
  (BitVec.ofNat 6 (((List.range' n (s.fresh + 1 - n)).map (fun i => Config.sub u.toNat i % 64)).foldl max 0), { s with fresh := s.fresh + 1 })

/-! ### Registers -/

/-- The key of a stored register word: its word offset and an index (port, or window selector). -/
def regKey (off idx : Nat) : Nat := off / 4 * 4 + 16777216 * idx

/-- N1's packet-path registers stand 0x20_0000 above N0's; the FLW_ and ADM_ registers are one set
(R294, R302). -/
def normOff (off : Nat) : Nat :=
  if (0xA20000 ≤ off && off < 0xA30000) || (0xA40000 ≤ off && off < 0xA50000) then off - 0x200000 else off

/-- The offset at which a register's line stands. -/
def lineOff (off : Nat) : Nat :=
  if 0xA00000 ≤ off && off < 0xC00000 then off - 0x200000 else off

/-- The reset value of the 32-bit word at a byte offset (word-aligned). -/
def regReset (off : Nat) : Nat :=
  match regFind (lineOff off) with
  | some (r, z) => r.reset / 2 ^ (8 * z) % 2 ^ 32
  | none => 0

/-- A stored register word. -/
def regW (s : State) (off idx : Nat) : Nat :=
  match mapGet (regKey off idx) s.regs with
  | some v => v
  | none => regReset (off / 4 * 4)

/-- A stored 64-bit register. -/
def regQ (s : State) (off idx : Nat) : Nat := regW s off idx + 2 ^ 32 * regW s (off + 4) idx

/-- A field of a stored register word. -/
def regF (s : State) (off idx hi lo : Nat) : Nat := bits (regW s off idx) hi lo

def setRegW (off idx v : Nat) (s : State) : State :=
  { s with regs :=
      if v % 2 ^ 32 == regReset (off / 4 * 4) then mapDel (regKey off idx) s.regs
      else mapSet (regKey off idx) (v % 2 ^ 32) s.regs }

def setRegQ (off idx v : Nat) (s : State) : State :=
  setRegW (off + 4) idx (v / 2 ^ 32) (setRegW off idx v s)

/-- Replace bits [hi:lo] of a number. -/
def setBits (w hi lo v : Nat) : Nat :=
  w - bits w hi lo * 2 ^ lo + v % 2 ^ (hi + 1 - lo) * 2 ^ lo

def setRegF (off idx hi lo v : Nat) (s : State) : State :=
  setRegW off idx (setBits (regW s off idx) hi lo v) s

/-- Set a sticky bit (W1C fields of R5). -/
def setSticky (off idx b : Nat) (s : State) : State := setRegF off idx b b 1 s

/-- The packet-path registers of a network die. -/
def dieOff (d : NDie) (off : Nat) : Nat :=
  match d with
  | .n0 => off
  | .n1 => off + 0x200000

def portIx : HPort → Nat
  | .h0 => 0
  | .h1 => 1

def dieIx : NDie → Nat
  | .n0 => 0
  | .n1 => 1

/-- BAR0 answers in full: neither in HOLD nor under STRAP_TEST (R433, R484). -/
def barUp (s : State) : Bool := !s.boot.straps.getLsbD 3 && regF s 0x600000 0 2 0 != 1

/-- BAR0 answers at an offset: in HOLD only HIF_ID, HIF_STEPPING, HIF_NUMREV, HIF_SEM and the BOOT_ and SEC_
registers (R433). -/
def barOpen (s : State) (off : Nat) : Bool :=
  barUp s || (!s.boot.straps.getLsbD 3 &&
    ([0x00, 0x10, 0x14, 0x100].contains (off / 4 * 4) || (0x600000 ≤ off && off < 0x610000)))

/-! ### Counters (R456, R457) -/

def cntGet (s : State) (i : Nat) : Nat := mapGetD 0 i s.counters

/-- Add to a counter position; it saturates at 2^64 − 1, HIF_DISCARD_COUNT at 2^32 − 1. -/
def addCnt (i n : Nat) (s : State) : State :=
  let top := if i == 19666 || i == 19667 then 2 ^ 32 - 1 else 2 ^ 64 - 1
  { s with counters := mapSetD 0 i (min (cntGet s i + n) top) s.counters }

def incCnt (i : Nat) (s : State) : State := addCnt i 1 s

/-- Set a command counter (R458) or a saturating position. -/
def setCnt (i n : Nat) (s : State) : State := { s with counters := mapSetD 0 i n s.counters }

def cntEngine (e n : Nat) : Nat := 8 * e + n
def cntCore (c n : Nat) : Nat := 8192 + 24 * c + n
def cntCluster (k n : Nat) : Nat := 14336 + 8 * k + n
def cntStack (t n : Nat) : Nat := 14592 + 8 * t + n
def cntNlu (u n : Nat) : Nat := 14720 + 8 * u + n
def cntTable (t n : Nat) : Nat := 15232 + 8 * t + n
def cntPort (g n : Nat) : Nat := 17280 + 16 * g + n
def cntQueue (g q n : Nat) : Nat := 17536 + 128 * g + 8 * q + n
def cntFwd (d n : Nat) : Nat := 19584 + 8 * d + n
def cntFlw (n : Nat) : Nat := 19600 + n
def cntRqt (d n : Nat) : Nat := 19608 + 8 * d + n
def cntAdm (n : Nat) : Nat := 19624 + n
def cntGrp (n : Nat) : Nat := 19632 + n
def cntFlt (n : Nat) : Nat := 19640 + n
def cntPwr (n : Nat) : Nat := 19648 + n
def cntSec (n : Nat) : Nat := 19656 + n
def cntLate : Nat := 19664
def cntPast : Nat := 19665
def cntDiscard (p : Nat) : Nat := 19666 + p
def cntObs (n : Nat) : Nat := 19672 + n

/-- Start a command counter (R458): the unit's OP_ID over a count. The cycles between issue and
completion are timing, so the count is a free value (DESIGN CHOICE, log 11). -/
def startCmdCnt (i : Nat) (op : W16) (s : State) : State :=
  let (v, s) := drawFree s
  setCnt i (op.toNat * 2 ^ 48 + v % 2 ^ 48) s

/-! ### Unit codes (R391) -/

def unitCode (cls ix : Nat) : UnitCode := BitVec.ofNat 16 (cls * 4096 + ix)
def ucEngine (c : CoreId) (m : MeId) : UnitCode := unitCode 1 (4 * c.val + m.val)
def ucCore (c : CoreId) : UnitCode := unitCode 2 c.val
def ucCluster (k : ClusterId) : UnitCode := unitCode 3 k.val
def ucSpine (d : CDie) : UnitCode := unitCode 4 d.val
def ucNet (d : NDie) : UnitCode := unitCode 4 (4 + dieIx d)
def ucStack (t : StackId) : UnitCode := unitCode 5 t.val
def ucNlu (u : NluId) : UnitCode := unitCode 6 u.val
def ucFelt (l : Nat) : UnitCode := unitCode 7 l
def ucLane (l : LaneId) : UnitCode := unitCode 8 l.val
def ucPort (l : LaneId) : UnitCode := unitCode 9 l.val
def ucHost (p : HPort) : UnitCode := unitCode 10 (portIx p)
def ucPeer (i : PeerId) : UnitCode := unitCode 12 i.val
def ucPackage : UnitCode := 0

def ucClass (u : UnitCode) : Nat := u.toNat / 4096
def ucIndex (u : UnitCode) : Nat := u.toNat % 4096

/-- The cluster and die of a core, the die of a cluster and a stack (R3). -/
def clusterOf (c : CoreId) : ClusterId := ⟨c.val / 8, by omega⟩
def dieOfCore (c : CoreId) : CDie := ⟨c.val / 64, by omega⟩
def dieOfCluster (k : ClusterId) : CDie := ⟨k.val / 8, by omega⟩
def dieOfStack (t : StackId) : CDie := ⟨t.val / 4, by omega⟩
def stackOfNlu (u : NluId) : StackId := ⟨u.val / 4, by omega⟩
def dieOfLane (l : LaneId) : NDie := if l.val < 8 then .n0 else .n1

/-! ### Units (R401) -/

def unitRec (s : State) (u : UnitCode) : UnitRec := mapGetD UnitRec.active u.toNat s.canopy.units
def unitActive (s : State) (u : UnitCode) : Bool := (unitRec s u).st == 0
def setUnit (u : UnitCode) (st : Nat) (cause : W16) (s : State) : State :=
  { s with canopy := { s.canopy with
      units := mapSet u.toNat { st := st, cause := cause, gtNs := BitVec.ofNat 64 (nowNs s) } s.canopy.units } }

/-! ### Cores, clusters, dies -/

def getCore (s : State) (c : CoreId) : CoreState := mapGetD CoreState.reset c.val s.cores
def setCore (c : CoreId) (x : CoreState) (s : State) : State := { s with cores := mapSetD CoreState.reset c.val x s.cores }
def modCore (c : CoreId) (f : CoreState → CoreState) (s : State) : State := setCore c (f (getCore s c)) s

def getCluster (s : State) (k : ClusterId) : ClusterState := mapGetD ClusterState.reset k.val s.clusters
def setCluster (k : ClusterId) (x : ClusterState) (s : State) : State :=
  { s with clusters := mapSetD ClusterState.reset k.val x s.clusters }
def modCluster (k : ClusterId) (f : ClusterState → ClusterState) (s : State) : State := setCluster k (f (getCluster s k)) s

def getDie (s : State) (d : CDie) : DieState := mapGetD DieState.reset d.val s.dies
def setDie (d : CDie) (x : DieState) (s : State) : State := { s with dies := mapSetD DieState.reset d.val x s.dies }
def modDie (d : CDie) (f : DieState → DieState) (s : State) : State := setDie d (f (getDie s d)) s

def getEngine (x : CoreState) (m : MeId) : MEng := famGet MEng.idle x.engines m.val
def setEngine (m : MeId) (e : MEng) (x : CoreState) : CoreState := { x with engines := famSet x.engines m.val e }
def getCtx (x : CoreState) (i : CtxId) : Ctx := famGet Ctx.idle x.ctxs i.val
def setCtx (i : CtxId) (c : Ctx) (x : CoreState) : CoreState := { x with ctxs := famSet x.ctxs i.val c }
def getBank (x : CoreState) (n : Nat) : Bank := famGet Bank.empty x.banks n
def setBank (n : Nat) (b : Bank) (x : CoreState) : CoreState := { x with banks := famSet x.banks n b }

/-- Tile memory has 32,768 lines of 64 bytes (R95). -/
def tileBytes : Nat := 2097152

/-- The lines that bytes [a, a + n) touch. -/
def linesOf (a n : Nat) : List Nat := if n == 0 then [] else List.range' (a / 64) ((a + n - 1) / 64 - a / 64 + 1)

def tilePoisoned (x : CoreState) (a n : Nat) : Bool := (linesOf a n).any (fun l => x.tilePoison.contains l)

/-- Write tile memory; poisoned data mark the lines they touch, other data clear the marks of the
lines they cover whole (R140; DEDUCED, log 12). -/
def tileWrite (a : Nat) (bs : Bytes) (poison : Bool) (x : CoreState) : CoreState :=
  let ls := linesOf a bs.length
  { x with
    tile := ramWrite x.tile a bs
    tilePoison :=
      if poison then ls.foldl (fun m l => setIns l m) x.tilePoison
      else ls.foldl (fun m l => if a ≤ 64 * l && 64 * l + 64 ≤ a + bs.length then setDel l m else m) x.tilePoison }

/-! ### Stretching seen by stamps (R46, R47) -/

def clusterStretched (s : State) (k : Nat) : Bool :=
  s.stretch.cap || s.stretch.droop.any (fun p => p.1 == k) || s.stretch.thermal.contains (k / 8) ||
    s.stretch.avs.contains (k / 8)

/-- The power domains that clock a unit (R415, R416): spines, network dies and host ports among them. -/
def unitDoms (u : UnitCode) : List Nat :=
  let i := ucIndex u
  match ucClass u with
  | 1 => [i / 4, 256 + i / 32]
  | 2 => [i, 256 + i / 8]
  | 3 => [256 + i]
  | 5 => [292 + i]
  | 6 => [292 + i / 4]
  | 8 => [316 + i]
  | 11 => [308 + i]
  | _ => []

/-- A domain's clock is stretched or gated: one of a cluster that stretches, or one asleep or waking (R46, R47). -/
def domSlow (s : State) (n : Nat) : Bool :=
  (256 ≤ n && n < 288 && clusterStretched s (n - 256)) || (match mapGet n s.pwr.doms with
    | some d => d.st == 2 || d.st == 3
    | none => false)

/-- A domain's clock was stretched or gated within [t, now]. -/
def slowSince (s : State) (n t : Nat) : Bool := domSlow s n || (match mapGet n s.freeze.until_ with
  | some u => decide (t < u)
  | none => false)

/-- STRETCHED of a stamp by a unit: its clock was stretched or gated since the latest edge, at which GT stands; a change at
that GT comes after the edge. -/
def unitStretched (s : State) (u : UnitCode) : Bool :=
  (unitDoms u).any (fun n => domSlow s n || mapGet n s.freeze.until_ == some (now s))

/-- SUB of a stamp by a unit: 63 when its clock was stretched or gated since the edge, else open (R46). -/
def stampSub (u : UnitCode) (s : State) : BitVec 6 × State :=
  if unitStretched s u then (63, s) else drawSub u s

/-! ### Reports (R393) -/

/-- The canopy node that a unit reports to: engines and cores to their core's node, stacks, NLUs
and Felt links to the owning spine, packet-path units to their network die's node. -/
def reportNode (u : UnitCode) : UnitCode :=
  let i := ucIndex u
  match ucClass u with
  | 1 => unitCode 2 (i / 4)
  | 5 => unitCode 4 (i / 4)
  | 6 => unitCode 4 (i / 16)
  | 7 => unitCode 4 (if i < 5 then 0 else if i < 9 then 1 else if i < 12 then 2 else if i < 14 then 3 else 4)
  | 8 => unitCode 4 (4 + i / 8)
  | 9 => unitCode 4 (4 + i / 8)
  | 10 => unitCode 4 (4 + i)
  | 11 => unitCode 4 (4 + i / 4)
  | 12 => unitCode 4 4
  | _ => u

/-- The parent of a canopy node: core, cluster, spine or network-die node, root. -/
def parentNode (u : UnitCode) : UnitCode :=
  match ucClass u with
  | 2 => unitCode 3 (ucIndex u / 8)
  | 3 => unitCode 4 (ucIndex u / 8)
  | _ => ucPackage

/-- Send a report to its node (R393), stamped by R46. -/
def report (code : Nat) (suspect alt reporter : UnitCode) (layer op : W16) (value : Nat) (s : State) : State :=
  let (sub, s) := stampSub reporter s
  let r : Report :=
    { code := BitVec.ofNat 16 code, suspect := suspect, alt := alt, reporter := reporter,
      gtNs := BitVec.ofNat 64 (nowNs s), sub := sub, stretched := unitStretched s reporter, layer := layer, op := op,
      value := BitVec.ofNat 32 value, count := 1, reporters := 1 }
  { s with canopy := { s.canopy with transit := s.canopy.transit ++ [(reportNode reporter, r)] } }

/-- A report whose VALUE carries the named contents in a layout that the manual does not give (DESIGN CHOICE, log 17). -/
def reportWith (code : Nat) (suspect alt reporter : UnitCode) (layer op : W16) (content : List Nat) (s : State) : State :=
  report code suspect alt reporter layer op (Config.packValue code content).toNat s

/-- A reference into a die's launch table names a launch time that has not come; index 0 names none (R40). -/
def refPending (s : State) (die ref : Nat) : Bool :=
  ref != 0 && ((mapGet (1024 * die + ref) s.host.launch).map (fun t => decide (now s < nsT t))).getD false

end Sys2Proof.Machine
end

