-- ==== Sys2Proof/Machine/Fence.lean ====
section
/-! DEFINITION. Fencing of engines, cores and clusters, the maps of logical onto physical units, and
the marking of reams for relaunch (R107, R401, R402, R404). -/

namespace Sys2Proof.Machine

def logicalCorePhys (s : State) (l : Nat) : Nat := mapGetD l l s.canopy.coreMap
def logicalClusterPhys (s : State) (l : Nat) : Nat := mapGetD l l s.canopy.clusterMap

/-- The logical cores that a physical core holds (R402). -/
def logicalsOfCore (s : State) (c : Nat) : List Nat := (List.range 256).filter (fun l => logicalCorePhys s l == c)
def logicalsOfCluster (s : State) (k : Nat) : List Nat := (List.range 32).filter (fun l => logicalClusterPhys s l == k)

def setCoreMap (l p : Nat) (s : State) : State :=
  { s with canopy := { s.canopy with coreMap := if l == p then mapDel l s.canopy.coreMap else mapSet l p s.canopy.coreMap } }
def setClusterMap (l p : Nat) (s : State) : State :=
  { s with canopy := { s.canopy with clusterMap := if l == p then mapDel l s.canopy.clusterMap else mapSet l p s.canopy.clusterMap } }

/-- The element with the least measure, the first on a tie. -/
def argMin (f : Nat → Nat) : List Nat → Option Nat
  | [] => none
  | x :: rest =>
    match argMin f rest with
    | none => some x
    | some y => if f y < f x then some y else some x

/-- The element with the greatest measure, the first on a tie. -/
def argMax (f : Nat → Nat) : List Nat → Option Nat
  | [] => none
  | x :: rest =>
    match argMax f rest with
    | none => some x
    | some y => if f x < f y then some y else some x

def coreActive (s : State) (c : Nat) : Bool := unitActive s (unitCode 2 c)
def clusterActive (s : State) (k : Nat) : Bool := unitActive s (unitCode 3 k)

def segNodes (x : CoreState) : Nat := (x.te.segs.map (fun p => p.2.count)).foldl (· + ·) 0

/-- Tree memory of `b` has room for the segments of `a` beside its own (R174, R402). -/
def segsFit (a b : CoreState) : Bool :=
  decide (segNodes a + segNodes b ≤ 131072) && decide (a.te.segs.length + b.te.segs.length ≤ 16)

/-- A report by the unit's own node that it is fenced; its record is UNIT_FENCED (R392). -/
def fenceMark (u : UnitCode) (cause : Nat) (s : State) : State :=
  reportWith 0x50 u 0 (reportNode u) 0 0 [cause] (incCnt (cntFlt 3) (setUnit u 1 (BitVec.ofNat 16 cause) s))

/-- A ream whose work a fence or loss interrupts is relaunched by R404. -/
def markRelaunch (ream : W32) (s : State) : State :=
  if s.canopy.relaunch.contains ream then s
  else { s with canopy := { s.canopy with relaunch := s.canopy.relaunch ++ [ream] } }

def markCoreReams (c : CoreId) (s : State) : State :=
  (getCore s c).ctxs.toList.foldl (fun s x => if x.st == .idle then s else markRelaunch x.ream s) s

/-- The cluster that takes the logical clusters of another: of the same die if it has an unfenced one, else of the
lowest die that has (R402). -/
def clusterTarget (s : State) (k : Nat) : Option Nat :=
  let ok := (List.range 32).filter (fun j => clusterActive s j && j != k)
  let own := ok.filter (fun j => j / 8 == k / 8)
  let die := (ok.map (· / 8)).head?
  argMin (fun j => (logicalsOfCluster s j).length) (if own.isEmpty then ok.filter (fun j => some (j / 8) == die) else own)

/-- The logical clusters of a physical cluster go together to one other (R402). -/
def moveCluster (k : Nat) (s : State) : State :=
  match clusterTarget s k with
  | some j => (logicalsOfCluster s k).foldl (fun s l => setClusterMap l j s) s
  | none => s

/-- Fence a cluster (R401). -/
def fenceCluster (k : Nat) (cause : Nat) (s : State) : State :=
  if !clusterActive s k then s
  else
    let s := fenceMark (unitCode 3 k) cause s
    let s := (List.finRange 256).foldl (fun s c => if c.val / 8 == k then markCoreReams c s else s) s
    moveCluster k s

/-- The logical cores of a fenced core go to a core of the same cluster with room for their
segments, the one holding the fewest; without one the whole cluster moves (R402). -/
def moveCore (c : CoreId) (s : State) : State :=
  let k := c.val / 8
  let room := (List.finRange 256).filter (fun j =>
    j.val / 8 == k && j != c && coreActive s j.val && segsFit (getCore s c) (getCore s j))
  match argMin (fun j => (logicalsOfCore s j).length) (room.map (·.val)) with
  | some j => (logicalsOfCore s c.val).foldl (fun s l => setCoreMap l j s) s
  | none => moveCluster k s

/-- Fence a core (R401); when every core of its cluster is fenced, the cluster is fenced. -/
def fenceCore (c : CoreId) (cause : Nat) (s : State) : State :=
  if !coreActive s c.val then s
  else
    let s := markCoreReams c (fenceMark (ucCore c) cause s)
    let k := c.val / 8
    if (List.range 8).all (fun p => !coreActive s (8 * k + p)) then fenceCluster k cause s
    else moveCore c s

def engineActive (s : State) (c : CoreId) (m : MeId) : Bool := unitActive s (ucEngine c m)

/-- Fence a matrix engine (R90, R118); a command it holds is re-issued without a strike (R120); when
every engine of the core is fenced, the core is fenced (R107). -/
def fenceEngine (c : CoreId) (m : MeId) (cause : Nat) (s : State) : State :=
  if !engineActive s c m then s
  else
    let s := fenceMark (ucEngine c m) cause s
    let x := getCore s c
    let e := getEngine x m
    let x := match e.reexec with
      | some r => { x with reissue := x.reissue ++ [{ r with moved := true }] }
      | none => x
    let s := setCore c (setEngine m { e with reexec := none } x) s
    if (List.finRange 4).all (fun j => !engineActive s c j) then fenceCore c cause s else s

/-- Return a unit to service: its strikes clear and its logical units come home (R406). -/
def unfenceUnit (u : UnitCode) (s : State) : State :=
  let s := setUnit u 0 0 s
  let i := ucIndex u
  match ucClass u with
  | 1 =>
    if h : i < 1024 then
      let c : CoreId := ⟨i / 4, by omega⟩
      let m : MeId := ⟨i % 4, by omega⟩
      modCore c (fun x => setEngine m { getEngine x m with deckleStrike := false, checkStrike := false, deckleClean := 0, checkClean := 0 } x) s
    else s
  | 2 =>
    if h : i < 256 then
      let clean (x : CoreState) : CoreState :=
        { x with ve := { x.ve with strike := false, clean := 0 }, te := { x.te with strike := false, clean := 0 } }
      let s := setCoreMap i i (modCore ⟨i, h⟩ clean s)
      -- a cluster that had no room for the core's segments comes home with its last such core
      let k := i / 8
      if clusterActive s k && (List.range 8).all (fun p => coreActive s (logicalCorePhys s (8 * k + p))) then setClusterMap k k s else s
    else s
  | 3 => setClusterMap i i s
  | _ => s

end Sys2Proof.Machine
end

