-- ==== Sys2Proof/Machine/Fifo.lean ====
section
/-! DEFINITION. The clock-crossing FIFOs and the trace streams that use them (R306 to R310, R450 to
R453). Each view of the pointers is exact here: the lag of R306 errs only toward full or empty
and is timing (DESIGN CHOICE, log 11). -/

namespace Sys2Proof.Machine

def gapWord (n : Nat) : FifoWord := { ctl := 5, data := BitVec.ofNat 128 (min n 0xFFFFFFFF) }

/-- Queue the GAP word of pending drops as soon as one word is free (R310). -/
def fifoSettle (cap : Nat) (f : Fifo) : Fifo :=
  if 0 < f.gap && f.words.length < cap then { words := f.words ++ [gapWord f.gap], gap := 0 } else f

/-- Queue an item of one or more words, all or none (R310). -/
def fifoPush (cap : Nat) (ws : List FifoWord) (f : Fifo) : Fifo :=
  let f := fifoSettle cap f
  if f.gap == 0 && f.words.length + ws.length ≤ cap then { f with words := f.words ++ ws }
  else fifoSettle cap { f with gap := min (f.gap + 1) 0xFFFFFFFF }

/-- Whether the item was dropped. -/
def fifoDropped (cap : Nat) (ws : List FifoWord) (f : Fifo) : Bool :=
  let f := fifoSettle cap f
  !(f.gap == 0 && f.words.length + ws.length ≤ cap)

/-- Take the oldest word; an empty FIFO gives none and pops nothing (R308). -/
def fifoPop (cap : Nat) (f : Fifo) : Option FifoWord × Fifo :=
  match f.words with
  | [] => (none, f)
  | w :: rest => (some w, fifoSettle cap { f with words := rest })

/-! ### Trace records (R450 to R453) -/

def streamOfUnit (u : UnitCode) : Nat :=
  let i := ucIndex u
  match ucClass u with
  | 1 => i / 32
  | 2 => i / 8
  | 3 => i
  | 4 => 32 + i
  | 5 => 32 + i / 4
  | 6 => 32 + i / 16
  | 8 => 36 + i / 8
  | 9 => 36 + i / 8
  | 10 => 36 + i
  | 11 => 36 + i / 4
  | _ => 36

/-- Records a buffer holds: 16,384, or 65,536 on a network die. -/
def traceCap (n : Nat) : Nat := if n < 36 then 16384 else 65536

/-- The source is enabled and EN is set (OBS_TRACE_CTL). -/
def traceOn (s : State) (n kind : Nat) : Bool :=
  let c := regW s 0x400000 0
  bit c 0 && bit c kind &&
    (if n < 32 then bit (regW s 0x400004 0) n else if n < 36 then bit c 11 else bit c 10)

def traceWord (d : Nat) : FifoWord := { ctl := 1, data := BitVec.ofNat 128 d }

/-- The record of R450. -/
def traceRec (kind : Nat) (u : UnitCode) (delta sub : Nat) (str : Bool) (layer op : W16) (payload : Nat) : Nat :=
  kind + u.toNat * 2 ^ 8 + delta * 2 ^ 24 + sub * 2 ^ 40 + b2n str * 2 ^ 46 + layer.toNat * 2 ^ 48 +
    op.toNat * 2 ^ 64 + payload % 2 ^ 48 * 2 ^ 80

/-- The SYNC record of R450 and R451. -/
def syncRec (u : UnitCode) (sub : Nat) (str : Bool) (ns : Nat) : Nat :=
  0x01 + u.toNat * 2 ^ 8 + sub * 2 ^ 40 + b2n str * 2 ^ 46 + ns * 2 ^ 64

/-- Write a record into its source's stream, with a SYNC ahead of it in the cases of R452. A record
that finds the buffer full is dropped and counted (R310, R453). -/
def emitTrace (kind : Nat) (u : UnitCode) (layer op : W16) (payload : Nat) (s : State) : State :=
  let n := streamOfUnit u
  if !traceOn s n kind then s
  else
    let st := mapGetD TraceStream.empty n s.trace
    let (sub, s) := stampSub u s
    let str := unitStretched s u
    let ns := nowNs s
    let ms := ns / 1000000
    let sync := st.needSync || decide (65535 < ns - st.lastNs) || st.syncMs != some ms
    let r := traceWord (traceRec kind u (if sync then 0 else ns - st.lastNs) sub.toNat str layer op payload)
    let ws := if sync then [traceWord (syncRec u sub.toNat str ns), r] else [r]
    if fifoDropped (traceCap n) ws st.fifo then
      let st := { st with fifo := fifoPush (traceCap n) ws st.fifo, needSync := true }
      incCnt (cntObs 1) { s with trace := mapSet n st s.trace }
    else
      let st : TraceStream :=
        { fifo := fifoPush (traceCap n) ws st.fifo, lastNs := ns,
          syncMs := if sync then some ms else st.syncMs, needSync := false }
      addCnt (cntObs 0) ws.length { s with trace := mapSet n st s.trace }

end Sys2Proof.Machine
end

