-- ==== Sys2Proof/Machine/Mma.lean ====
section
/-! DEFINITION. The matrix engines: operands in tile memory, the tile's values, the checks, and what
the core does when a tile faults (R79 to R101, R107, R111, R114 to R120, R125). -/

namespace Sys2Proof.Machine

/-! ### Operands -/

def ceilTo (n a : Nat) : Nat := (n + a - 1) / a * a

/-- Elements of a reduction block: G, or units of 32 for wide formats (R95). -/
def mmaG (op : MmaOp) : Nat := (gOf op.gsize.toNat).getD 32

/-- Bytes of one row, rounded up to 64 (R95). -/
def rowStride (f : ElemFmt) (g nb : Nat) : Nat :=
  if f.narrow then ceilTo (nb * blockBytes f g) 64 else ceilTo (nb * g * f.bits / 8) 64

/-- The operand pairs of R68. -/
def pairOk (w a : ElemFmt) : Bool :=
  match w, a with
  | .fp4, .fp4 | .int4, .int4 | .fp4, .int4 | .fp4, .e4m3 | .fp4, .int8 | .int4, .int8
  | .e4m3, .e4m3 | .int8, .int8 | .bf16, .bf16 | .fp16, .fp16 => true
  | _, _ => false

/-- An MMA command's operand values that LOAD_IMAGE accepts (R110, R111). -/
def mmaListed (op : MmaOp) : Bool :=
  (match elemFmt op.wfmt.toNat, elemFmt op.afmt.toNat with
    | some w, some a => pairOk w a && (w.narrow || op.gsize == 0)
    | _, _ => false) && op.gsize != 3 && decide (op.nM1.toNat < 48) && decide (op.kBlocksM1.toNat < 512) &&
    (op.fin || op.sideRef == 0)

/-- The number of blocks, rows and channels. -/
def mmaNb (op : MmaOp) : Nat := op.kBlocksM1.toNat + 1
def mmaM (op : MmaOp) : Nat := op.mM1.toNat + 1
def mmaN (op : MmaOp) : Nat := op.nM1.toNat + 1

/-- One narrow row as blocks. -/
def readRowBlocks (x : CoreState) (weight : Bool) (f : ElemFmt) (g nb a : Nat) : List Block :=
  (List.range nb).map (fun j => readBlock weight f g (ramRead x.tile (a + j * blockBytes f g) (blockBytes f g)))

/-- One wide row as values. -/
def readWideRow (x : CoreState) (f : ElemFmt) (n a : Nat) : List FV :=
  (List.range n).map (fun i => codeValue f (leNat (ramRead x.tile (a + i * (f.bits / 8)) (f.bits / 8))))

/-- The tile-memory byte ranges of a command's tiles: activation rows, and weight rows with their
checksum column (R95). -/
def mmaRanges (op : MmaOp) (w a : ElemFmt) : List (Nat × Nat) :=
  let g := mmaG op
  let nb := mmaNb op
  let csum := if w.narrow then nb * g * 4 else 0
  [(64 * op.aAddr.toNat, mmaM op * rowStride a g nb),
   (64 * op.wAddr.toNat, mmaN op * rowStride w g nb + csum)]

/-- The side table entry that a FINAL command names (R111). -/
def sideEntryOf (s : State) (slot : SlotId) (ctx : CtxId) (op : MmaOp) : Option SideEntry :=
  if op.fin && op.sideRef != 0 then
    match ((famGet Slot.empty s.slots slot.val).image).bind (fun im => (im.sides.getD ctx.val [])[op.sideRef.toNat]?) with
    | some e => some e
    | none => none
  else none

/-- The cut channels of a layer of the slot's image (R82). -/
def layerCuts (s : State) (slot : SlotId) (layer : W16) : List Nat :=
  match (famGet Slot.empty s.slots slot.val).image with
  | some im => ((im.layers.find? (fun l => l.layer == layer)).map (·.cut)).getD []
  | none => []

/-- The tile-memory byte ranges of a FINAL command's side lists: the V tail, the channel parts, and the constants
of `consts` marker blocks (R82, R86, R111). -/
def sideRanges (op : MmaOp) (e : Option SideEntry) (cuts : List Nat) (consts : Nat) : List (Nat × Nat) :=
  match e with
  | none => []
  | some e =>
    let pad := ceilTo (2 * e.tailTokens) 64
    (if e.tailTokens == 0 then [] else [(64 * e.tailW, mmaN op * pad), (64 * e.tailA, mmaM op * pad)]) ++
    (if cuts.isEmpty then [] else [(64 * e.wSide, 64 * mmaN op), (64 * e.aSide, 64 * mmaM op)]) ++
    [(64 * e.constLine, 2 * consts)]

/-- BF16 element `i` of a byte range of tile memory. -/
def bf16At (x : CoreState) (a i : Nat) : FV := fb16 (BitVec.ofNat 16 (leNat (ramRead x.tile (a + 2 * i) 2)))

/-! ### Values (R79 to R87, R94) -/

/-- The exact sum of products of one block pair in R68's units, before any zero-point correction. -/
def rawSum (w a : ElemFmt) (bw ba : Block) : Int :=
  ((bw.codes.zip ba.codes).map (fun p => codeInt w p.1 * codeInt a p.2)).foldl (· + ·) 0

/-- S·2^u × the two scales, an exact zero being +0 (R80, R81). -/
def scaledTerm (n : Int) (u : Int) (sw sa : Nat) : FV :=
  let v := mulExact (mulExact (.fin (decide (n < 0)) n.natAbs u) (scaleVal sw)) (scaleVal sa)
  if v.isZero then FV.zero else v

/-- The exact term of one block pair: from the group sum with its zero-point correction, or from the
side-list constant (R73, R79, R81). -/
def blockTerm (w a : ElemFmt) (bw ba : Block) (const : FV) : FV :=
  if isMarker ba.dk then
    let v := mulExact (mulExact const (scaleVal bw.dk.scale))
      (.fin (decide (bw.dk.wsum < 0)) bw.dk.wsum.natAbs (if w == .fp4 then -1 else 0))
    if v.isZero then FV.zero else v
  else
    scaledTerm (rawSum w a bw ba - ba.dk.zp * bw.dk.wsum) (unitExp w + unitExp a) bw.dk.scale ba.dk.scale

/-- The terms of one narrow output element by block, exact (R80, R81). -/
def narrowTerms (w a : ElemFmt) (ws as_ : List Block) (consts : List FV) : List FV :=
  ((ws.zip as_).zip consts).map (fun p => blockTerm w a p.1.1 p.1.2 p.2)

/-- A running FP32 sum of rounded terms, in ascending order (R80). -/
def sumAcc (start : FV) (terms : List FV) : FV := terms.foldl (fun acc p => add32 acc (roundFV fp32 p)) start

/-- One narrow output element: the groups in ascending block order from the start value (R80). -/
def narrowAcc (w a : ElemFmt) (start : FV) (ws as_ : List Block) (consts : List FV) : FV :=
  sumAcc start (narrowTerms w a ws as_ consts)

/-- A running FP32 sum of rounded products, in ascending order (R83, R87, R94). -/
def dotAcc (start : FV) (xs ys : List FV) : FV :=
  (xs.zip ys).foldl (fun acc p => add32 acc (mul32 p.1 p.2)) start

/-- The side-list constants of each activation row's marker blocks, in block order over the tile
(R82); without a constant part the constant is a free value (DEDUCED, log 13). -/
def rowConsts (free : Nat → FV) (part : Option (Nat → FV)) : List (List Block) → Nat → List (List FV)
  | [], _ => []
  | row :: rest, k =>
    let step := row.foldl (fun (p : List FV × Nat) b =>
      if isMarker b.dk then
        (p.1 ++ [match part with
          | some f => f p.2
          | none => free p.2], p.2 + 1)
      else (p.1 ++ [FV.zero], p.2)) ([], k)
    step.1 :: rowConsts free part rest step.2

/-- The bank's value for (r, c) (R98). -/
def bankAt (b : Bank) (r c : Nat) : FV := f32 (BitVec.ofNat 32 (leNat (ramRead b.mem (512 * c + 4 * r) 4)))

/-- The pairs of a V tail's products for (r, c), in ascending token order (R87). -/
def tailPairs (x : CoreState) (e : Option SideEntry) (r c : Nat) : List (FV × FV) :=
  match e with
  | none => []
  | some e =>
    let pad := ceilTo (2 * e.tailTokens) 64
    (List.range e.tailTokens).map (fun i => (bf16At x (64 * e.tailW + pad * c) i, bf16At x (64 * e.tailA + pad * r) i))

/-- The pairs of the cut channels' products for (r, c), in ascending order (R83). -/
def cutPairs (x : CoreState) (e : Option SideEntry) (cuts : List Nat) (r c : Nat) : List (FV × FV) :=
  match e with
  | none => []
  | some e => (List.range cuts.length).map (fun i => (bf16At x (64 * (e.wSide + c)) i, bf16At x (64 * (e.aSide + r)) i))

/-- One closing addition: the sum of products of its own, added once. -/
def closeWith (ps : List (FV × FV)) (acc : FV) : FV :=
  if ps.isEmpty then acc else add32 acc (dotAcc FV.zero (ps.map (·.1)) (ps.map (·.2)))

/-- The closing additions of a FINAL command (R83, R87): V tail, then outlier sum. -/
def closing (x : CoreState) (e : Option SideEntry) (cuts : List Nat) (r c : Nat) (acc : FV) : FV :=
  closeWith (cutPairs x e cuts r c) (closeWith (tailPairs x e r c) acc)

/-! ### The bound check (R115) -/

/-- Half a unit in the last place of a rounded result: 2^(max(E, -126) - 24). -/
def halfUlp (v : FV) : FV :=
  match v with
  | .fin _ m e => .fin false 1 (max (if m == 0 then -126 else floorLog2 m 1 + e) (-126) - 24)
  | _ => .fin false 0 0

def sumExact (xs : List FV) : FV := xs.foldl addExact FV.zero

/-- The results of the roundings of a running sum of rounded terms: each term and each partial sum. -/
def roundings (start : FV) : List FV → List FV
  | [] => []
  | t :: rest =>
    let g := roundFV fp32 t
    let acc := add32 start g
    g :: acc :: roundings acc rest

/-- What one closing addition adds exactly, and the results of its roundings. -/
def closeCheck (ps : List (FV × FV)) (acc : FV) : List FV × List FV :=
  let ts := ps.map (fun p => mulExact p.1 p.2)
  (ts, if ps.isEmpty then [] else roundings FV.zero ts ++ [closeWith ps acc])

/-- One output element as the check lane follows it: its exact terms from the start value, and the results of every
rounding made for it. -/
def elemCheck (start : FV) (terms : List FV) (tail cut : List (FV × FV)) : List FV × List FV :=
  let acc := sumAcc start terms
  let t := closeCheck tail acc
  let o := closeCheck cut (closeWith tail acc)
  (start :: terms ++ t.1 ++ o.1, roundings start terms ++ t.2 ++ o.2)

/-- |d| exceeds b, both exact. -/
def absExceeds (d b : FV) : Bool :=
  match d, b with
  | .fin _ m e, .fin _ n k =>
    let lo := min e k
    decide (alignTo false n k lo < alignTo false m e lo)
  | _, _ => false

/-- The bound check of one row, from its outputs and what its elements gathered: none when it is skipped, since an output or e is not finite, else whether |y - e| stays within b. -/
def boundCheck (outs : List FV) (els : List (List FV × List FV)) : Option Bool :=
  let e := sumExact (els.map (·.1)).flatten
  if outs.any (fun v => !v.isFin) || !e.isFin then none
  else some (!absExceeds (addExact (sumExact outs) e.negate) (sumExact (((els.map (·.2)).flatten).map halfUlp)))

/-! ### One attempt at a tile -/

/-- What one attempt at a tile finds. -/
inductive TileOut where
  /-- The tile's values by column, and the rows whose bound check was skipped (R115). -/
  | values (cols : List (List FV)) (skips : Nat)
  /-- A block of a weight row or, with `act`, of an activation row fails R66. -/
  | format (act : Bool) (block : Nat)
  | skew (expected received : Nat) (block : Nat)
  | exact (row : Nat)
  | bound (row : Nat)
  | residue (row : Nat)
  | parity
  | poison
  deriving DecidableEq, Repr

/-- A block's fault by R66 in the rows of one operand. -/
def rowsFault (f : ElemFmt) (g seq j : Nat) (rows : List (List Block)) : Option BlockFault :=
  rows.findSome? (fun r => (r[j]?).bind (blockFault f g (seq + j) true))

/-- The exact check of one row and block (R114): the sum over channels of the raw group sums, `delta` off where the
hardware is, against the activation codes times the checksum column. -/
def exactOk (w a : ElemFmt) (wrows : List (List Block)) (arow : List Block) (csum : Nat → Nat → Int) (delta : Int) (j : Nat) : Bool :=
  match arow[j]? with
  | none => true
  | some ba =>
    let lhs := (wrows.map (fun wr => match wr[j]? with
      | some bw => rawSum w a bw ba
      | none => 0)).foldl (· + ·) delta
    let rhs := ((List.range ba.codes.length).map (fun i => codeInt a (ba.codes.getD i 0) * csum j i)).foldl (· + ·) 0
    lhs == rhs

/-- How far the hardware's raw sum of a row in a block is off, over the tile's columns. -/
def sumDelta (f : EngineFault) (n r j : Nat) : Int :=
  match f with
  | .sum row col block d => if row == r && block == j && decide (col < n) then d else 0
  | _ => 0

/-- What block `j` of a narrow tile shows: the tags first (R88), then R66, then, after the block, the exact check of
its rows (R114). -/
def blockFinds (w a : ElemFmt) (g seq m : Nat) (wrows arows : List (List Block)) (csum : Nat → Nat → Int) (f : EngineFault)
    (j : Nat) : Option TileOut :=
  let ex := (seq + j) % 16
  let slip := match f with
    | .skew b t => if b == j && t.toNat != ex then some t.toNat else none
    | _ => none
  match slip with
  | some rc => some (.skew ex rc j)
  | none =>
    match rowsFault w g seq j wrows, rowsFault a g seq j arows with
    | some .format, _ => some (.format false j)
    | some (.skew e rc), _ => some (.skew e rc j)
    | none, some .format => some (.format true j)
    | none, some (.skew e rc) => some (.skew e rc j)
    | none, none =>
      ((List.range m).find? (fun r => !exactOk w a wrows (arows.getD r []) csum (sumDelta f wrows.length r j) j)).map .exact

/-- The tile's outputs with the one that the hardware has wrong. -/
def outCols (f : EngineFault) (cols : List (List FV)) : List (List FV) :=
  match f with
  | .output r c v => cols.modify c (fun col => col.set r (f32 v))
  | _ => cols

/-- One attempt: the operands are read, checked by R66 and R88, and the tile computed and checked
(R114 to R116). `hw` is a fault of the engine's own hardware. -/
def attemptTile (s : State) (c : CoreId) (ctx : CtxId) (op : MmaOp) (hw : EngineFault) : TileOut :=
  match elemFmt op.wfmt.toNat, elemFmt op.afmt.toNat with
  | some w, some a =>
    let x := getCore s c
    let cx := getCtx x ctx
    let g := mmaG op
    let nb := mmaNb op
    let m := mmaM op
    let n := mmaN op
    let bank := getBank x op.bank.toNat
    let e := sideEntryOf s cx.slot ctx op
    let cuts := layerCuts s cx.slot op.hdr.layer
    let a0 := 64 * op.aAddr.toNat
    let w0 := 64 * op.wAddr.toNat
    let sa := rowStride a g nb
    let sw := rowStride w g nb
    let start (r c : Nat) : FV := if op.keep then bankAt bank r c else FV.zero
    let cols (accs : Nat → Nat → FV) : List (List FV) :=
      (List.range n).map (fun c => (List.range m).map (fun r => closing x e cuts r c (accs r c)))
    let residueOr (k : TileOut) : TileOut := match hw with
      | .residue r => if r < m then .residue r else k
      | _ => k
    if (mmaRanges op w a ++ sideRanges op e cuts 0).any (fun p => tilePoisoned x p.1 p.2) then .poison
    else match hw, w.narrow with
    | .parity _, _ => .parity
    | _, true =>
      let arows := (List.range m).map (fun r => readRowBlocks x false a g nb (a0 + r * sa))
      let wrows := (List.range n).map (fun c => readRowBlocks x true w g nb (w0 + c * sw))
      let csum (j i : Nat) : Int := signedOf 32 (leNat (ramRead x.tile (w0 + n * sw + 4 * (j * g + i)) 4))
      match (List.range nb).findSome? (blockFinds w a g op.seqBase.toNat m wrows arows csum hw) with
      | some t => t
      | none =>
        let marks := ((arows.flatten).filter (fun b => isMarker b.dk)).length
        if (sideRanges op e [] marks).any (fun p => tilePoisoned x p.1 p.2) then .poison
        else
        let consts := rowConsts (fun k => f32 (BitVec.ofNat 32 (Config.free (s.fresh + k))))
          (e.map (fun e => bf16At x (64 * e.constLine))) arows 0
        let terms (r c : Nat) : List FV := narrowTerms w a (wrows.getD c []) (arows.getD r []) (consts.getD r [])
        let outs := outCols hw (cols (fun r c => sumAcc (start r c) (terms r c)))
        let checks := (List.range m).map (fun r => boundCheck (outs.map (fun col => col.getD r FV.zero))
          ((List.range n).map (fun c => elemCheck (start r c) (terms r c) (tailPairs x e r c) (cutPairs x e cuts r c))))
        residueOr (match checks.findIdx? (· == some false) with
          | some r => .bound r
          | none => .values outs (checks.filter (·.isNone)).length)
    | _, false =>
      residueOr (.values (outCols hw
        (cols (fun r c => dotAcc (start r c) (readWideRow x w (nb * 32) (w0 + c * sw)) (readWideRow x a (nb * 32) (a0 + r * sa))))) 0)
  | _, _ => .format false 0

/-! ### Ending a command (R99, R101) -/

/-- Write the tile's values into its bank: rows 0 to M − 1 of columns 0 to N − 1 (R99). -/
def writeCols (b : Bank) (cols : List (List W32)) (poison : Bool) : Bank :=
  { mem := (cols.zip (List.range cols.length)).foldl
      (fun mem p => ramWrite mem (512 * p.2) ((p.1.map (fun w => toLE 4 w.toNat)).flatten)) b.mem
    poison := poison }

/-- Values that carry no meaning, for a tile that ends poisoned (R99, R101; DESIGN CHOICE, log 3). -/
def freeCols (s : State) (op : MmaOp) : List (List W32) :=
  (List.range (mmaN op)).map (fun c => (List.range (mmaM op)).map (fun r =>
    BitVec.ofNat 32 (Config.free (s.fresh + (c * mmaM op + r)))))

/-- A command has completed in its context: R463's occurrence, and the engine's CMD_END. -/
def ctxDone (c : CoreId) (ctx : CtxId) (s : State) : State :=
  modCore c (fun x => { setCtx ctx { getCtx x ctx with done := (getCtx x ctx).done + 1 } x with lastRun := now s }) s

def ctxIssued (c : CoreId) (ctx : CtxId) (h : CmdHdr) (s : State) : State :=
  modCore c (fun x => { setCtx ctx { getCtx x ctx with lastOp := h.op, lastLayer := h.layer } x with lastRun := now s }) s

/-- CMD_START and CMD_END of R451. -/
def traceStart (c : CoreId) (u : UnitCode) (ctx : CtxId) (h : CmdHdr) (opcode eng : Nat) (s : State) : State :=
  emitTrace 2 u h.layer h.op (opcode + eng * 64 + ctx.val * 256 + (getCtx (getCore s c) ctx).ream.toNat * 65536) s
def traceEnd (u : UnitCode) (h : CmdHdr) (s : State) : State :=
  let (v, s) := drawFree s
  emitTrace 3 u h.layer h.op v s

/-- The command completes with its values: the bank is written, TILES counts, strikes age (R90,
R99, R118), and a moved command counts REEXEC_RUN (R117). -/
def mmaFinish (c : CoreId) (m : MeId) (r : MmaRun) (cols : List (List W32)) (poison checkGood : Bool) (skips : Nat) (s : State) : State :=
  let x := getCore s c
  let e := getEngine x m
  let e := { e with
    deckleClean := if e.deckleStrike then e.deckleClean + 1 else 0
    checkClean := if e.checkStrike && checkGood then e.checkClean + 1 else 0
    reexec := none }
  let b := writeCols (getBank x r.op.bank.toNat) cols poison
  let s := setCore c (setBank r.op.bank.toNat b (setEngine m e x)) s
  let g := 4 * c.val + m.val
  let s := incCnt (cntEngine g 0) s
  let s := if r.moved then incCnt (cntEngine g 3) s else s
  let s := addCnt (cntEngine g 4) skips s
  traceEnd (ucEngine c m) r.op.hdr (ctxDone c r.ctx s)

/-- The command ends with its tile poisoned (R91, R119); one that failed a check is no clean tile of R118. -/
def mmaPoison (c : CoreId) (m : MeId) (r : MmaRun) (checkGood : Bool) (s : State) : State :=
  let cols := freeCols s r.op
  mmaFinish c m r cols true checkGood 0 { s with fresh := s.fresh + mmaN r.op * mmaM r.op }

/-- The last fault of an engine (ME_ENG_STATUS, ME_LAST_FAULT, R125). -/
def noteFault (c : CoreId) (m : MeId) (kind : Nat) (h : CmdHdr) (s : State) : State :=
  let (sub, s) := stampSub (ucEngine c m) s
  let str := unitStretched s (ucEngine c m)
  let ns := nowNs s
  modCore c (fun x => setEngine m { getEngine x m with
    lastKind := BitVec.ofNat 8 kind, lastSub := sub, lastStretched := str, lastOp := h.op,
    lastLayer := h.layer, lastGt := BitVec.ofNat 64 ns } x) s

/-- The offset of ME_ENG_STATUS of engine m. -/
def engStatusOff (m : MeId) : Nat := 0xF00100 + 0x40 * m.val

/-- The core holds an unfenced engine other than `m` for the re-issue of R117. -/
def otherEngine (s : State) (c : CoreId) (m : MeId) : Bool :=
  (List.finRange 4).any (fun j => j != m && engineActive s c j)

/-- Hand a command to another engine of the core; without one it moves with the core's remaining
work, so its ream is relaunched (R117, R120). -/
def reissueOn (c : CoreId) (m : MeId) (r : MmaRun) (s : State) : State :=
  let s := modCore c (fun x => setEngine m { getEngine x m with reexec := none } x) s
  if otherEngine s c m then
    modCore c (fun x => { x with reissue := x.reissue ++ [{ r with moved := true }] }) s
  else markRelaunch (getCtx (getCore s c) r.ctx).ream s

/-- An engine that one of these causes fenced is in service again, with its strikes as they are: its failure was the
data's (R91, R119). -/
def liftFence (u : UnitCode) (causes : List Nat) (s : State) : State :=
  if causes.contains (unitRec s u).cause.toNat then setUnit u 0 0 s else s

/-- A deckle fault (R88 to R91): strike and re-execution on the same engine; with the strike set,
fence and move; with R66 on a second engine, the source data are damaged, and DECKLE_DATA names the tensor by the operand
and its line, since the command holds no TENSOR_ID (DEDUCED, log 17). -/
def deckleFault (c : CoreId) (m : MeId) (r : MmaRun) (code : Nat) (value : List Nat) (act : Bool) (s : State) : State :=
  let h := r.op.hdr
  let s := noteFault c m code h s
  let s := incCnt (cntEngine (4 * c.val + m.val) 2) s
  let s := reportWith code (ucEngine c m) 0 (ucEngine c m) h.layer h.op value s
  let struck := (getEngine (getCore s c) m).deckleStrike
  let strike (s : State) : State := modCore c (fun x => setEngine m { getEngine x m with deckleStrike := true, deckleClean := 0 } x) s
  match (if code == 2 then r.deckleFail.filter (· != m) else none) with
  | some m0 =>
    -- neither engine is fenced by this fault
    let s := reportWith 8 (ucCore c) 0 (ucEngine c m) h.layer h.op ([b2n act, if act then r.op.aAddr.toNat else r.op.wAddr.toNat] ++ value) s
    strike (mmaPoison c m r true (if r.fenced then liftFence (ucEngine c m0) [2] s else s))
  | none =>
    let r := if code == 2 then { r with deckleFail := some m, fenced := struck } else r
    if struck then fenceEngine c m code (reissueOn c m r s)
    else modCore c (fun x => setEngine m { getEngine x m with reexec := some r } x) (strike s)

/-- The lines of a command's operand tiles, first and last: weights, then activations (R119). -/
def operandLines (op : MmaOp) : List Nat :=
  match elemFmt op.wfmt.toNat, elemFmt op.afmt.toNat with
  | some w, some a => ((mmaRanges op w a).reverse.map (fun p => [p.1 / 64, (p.1 + p.2 - 1) / 64])).flatten
  | _, _ => []

/-- A check failure (R117 to R119). -/
def checkFault (c : CoreId) (m : MeId) (r : MmaRun) (code row : Nat) (s : State) : State :=
  let h := r.op.hdr
  let s := incCnt (cntEngine (4 * c.val + m.val) 1) s
  let s := reportWith code (ucEngine c m) 0 (ucEngine c m) h.layer h.op [row] s
  match r.checkFail with
  | some m0 =>
    -- the second engine: the operands are damaged, no strike and no fence
    let s := noteFault c m 7 h s
    let s := reportWith 7 (ucCore c) 0 (ucEngine c m) h.layer h.op (operandLines r.op) s
    mmaPoison c m r false (if r.fenced then liftFence (ucEngine c m0) [3, 4, 5] s else s)
  | none =>
    let s := noteFault c m code h s
    let struck := (getEngine (getCore s c) m).checkStrike
    let s := modCore c (fun x => setEngine m { getEngine x m with checkStrike := true, checkClean := 0 } x) s
    let s := reissueOn c m { r with checkFail := some m, fenced := struck } s
    if struck then fenceEngine c m code s else s

/-- One attempt at a command on an engine. `again` says that it is the re-execution of R89. -/
def mmaAttempt (c : CoreId) (m : MeId) (r : MmaRun) (f : EngineFault) (again : Bool) (s : State) : State :=
  let s := startCmdCnt (cntEngine (4 * c.val + m.val) 5) r.op.hdr.op s
  let s := startCmdCnt (cntEngine (4 * c.val + m.val) 6) r.op.hdr.op s
  let h := r.op.hdr
  let hold (s : State) : State := modCore c (fun x => setEngine m { getEngine x m with reexec := some r } x) s
  match attemptTile s c r.ctx r.op f with
  | .values cols skips =>
    let poison := r.op.keep && (getBank (getCore s c) r.op.bank.toNat).poison
    mmaFinish c m r (cols.map (fun col => col.map toF32)) poison true skips
      { s with fresh := s.fresh + mmaM r.op * mmaNb r.op }
  | .format act j => deckleFault c m r 2 [j] act s
  | .skew ex rc j => deckleFault c m r 1 [ex, rc, j] false s
  | .exact row => checkFault c m r 3 row s
  | .bound row => checkFault c m r 4 row s
  | .residue row => checkFault c m r 5 row s
  | .parity =>
    let s := noteFault c m 6 h s
    let s := reportWith 6 (ucEngine c m) 0 (ucEngine c m) h.layer h.op [] s
    let s := setSticky (engStatusOff m) c.val 4 s
    if again then mmaPoison c m r true s else hold s
  | .poison =>
    let s := setSticky (engStatusOff m) c.val 4 s
    if again then mmaPoison c m r true s else hold s

/-! ### Issue and hazards (R106, R108) -/

/-- The commands of a context that have issued and not completed: held for re-execution or on their way to another
engine. -/
def pendingRuns (x : CoreState) (ctx : CtxId) : List MmaRun :=
  (x.reissue ++ x.engines.toList.filterMap (·.reexec)).filter (fun r => r.ctx == ctx)

def ctxBusy (x : CoreState) (ctx : CtxId) : Bool := !(pendingRuns x ctx).isEmpty

/-- A program's first command waits for the launch edge that its reference names (R104). -/
def firstHeld (s : State) (c : CoreId) (ctx : CtxId) (h : CmdHdr) : Bool :=
  (getCtx (getCore s c) ctx).done == 0 && refPending s (c.val / 64) h.launchRef.toNat

/-- The core runs, and neither a WAIT nor the program's launch edge holds the command (R104, R108). -/
def canIssue (s : State) (c : CoreId) (ctx : CtxId) (h : CmdHdr) : Bool :=
  coreActive s c.val && (getCtx (getCore s c) ctx).st != .waitToken && !firstHeld s c ctx h

def rangesMeet (p q : Nat × Nat) : Bool :=
  p.2 != 0 && q.2 != 0 && decide (p.1 < q.1 + q.2) && decide (q.1 < p.1 + p.2)

/-- A pending command reads a line that these byte ranges write. -/
def lineHazard (s : State) (c : CoreId) (ctx : CtxId) (writes : List (Nat × Nat)) : Bool :=
  let x := getCore s c
  (pendingRuns x ctx).any (fun r =>
    let reads := match elemFmt r.op.wfmt.toNat, elemFmt r.op.afmt.toNat with
      | some w, some a => mmaRanges r.op w a ++ sideRanges r.op (sideEntryOf s (getCtx x ctx).slot ctx r.op)
          (layerCuts s (getCtx x ctx).slot r.op.hdr.layer) (mmaM r.op * mmaNb r.op)
      | _, _ => []
    reads.any (fun p => writes.any (rangesMeet p)))

/-- A pending command writes a bank. -/
def bankHazard (x : CoreState) (ctx : CtxId) (b : Nat) : Bool := (pendingRuns x ctx).any (fun r => r.op.bank.toNat == b)

/-- The engine that runs a command: the one it names, else the lowest-numbered unfenced engine that holds no other tile
(R107). A command waiting for re-issue goes ahead on every engine that may take it (R117). -/
def engineFor (s : State) (c : CoreId) (m : MeId) (ban : List MeId) : Option MeId :=
  let x := getCore s c
  let owed (j : MeId) : Bool := x.reissue.any (fun r => r.checkFail != some j && r.deckleFail != some j)
  let ok (j : MeId) : Bool := engineActive s c j && (getEngine x j).reexec == none && !ban.contains j && !owed j
  if engineActive s c m && !ban.contains m then (if ok m then some m else none)
  else (List.finRange 4).find? ok

/-- The address range stays inside tile memory. -/
def mmaInside (op : MmaOp) : Bool :=
  match elemFmt op.wfmt.toNat, elemFmt op.afmt.toNat with
  | some w, some a => (mmaRanges op w a).all (fun p => decide (p.1 + p.2 ≤ tileBytes))
  | _, _ => false

/-- MMA (R99, R106, R107, R111). A command that a hazard holds, whose engine holds another tile, or whose core has
no unfenced engine, waits: the state stands (DESIGN CHOICE, log 2). -/
def issueMma (c : CoreId) (ctx : CtxId) (op : MmaOp) (f : EngineFault) (s : State) : Res :=
  if !mmaListed op then .refused .unlistedOperand
  else if !mmaInside op then .fault (.addressOutside (64 * op.wAddr.toNat))
  else if !canIssue s c ctx op.hdr || bankHazard (getCore s c) ctx op.bank.toNat || (op.fence && ctxBusy (getCore s c) ctx) then .next s
  else match engineFor s c op.engine [] with
    | none => .next s
    | some m =>
      let s := ctxIssued c ctx op.hdr s
      let s := traceStart c (ucEngine c m) ctx op.hdr 1 m.val s
      .next (mmaAttempt c m { ctx := ctx, op := op, checkFail := none, deckleFail := none, fenced := false, moved := false } f false s)

/-- TILE_REEXECUTE: the poisoned tile that the engine holds runs again from its first block, with
its accumulators restarted (R89). -/
def execTileReexecute (c : CoreId) (m : MeId) (f : EngineFault) (s : State) : Res :=
  match (getEngine (getCore s c) m).reexec with
  | none => .next s
  | some r => if engineActive s c m then .next (mmaAttempt c m r f true s) else .next s

/-- MMA_REISSUE: the oldest failed or abandoned command of the core is issued to an engine that is
unfenced and free, other than the one that failed it (R117, R120). -/
def execMmaReissue (c : CoreId) (m : MeId) (f : EngineFault) (s : State) : Res :=
  let x := getCore s c
  match x.reissue with
  | [] => .next s
  | r :: rest =>
    if engineActive s c m && (getEngine x m).reexec == none && r.checkFail != some m && r.deckleFail != some m then
      let s := setCore c { x with reissue := rest } s
      let s := traceStart c (ucEngine c m) r.ctx r.op.hdr 1 m.val s
      .next (mmaAttempt c m { r with moved := true } f false s)
    else .next s

/-- DECKLE_STRIKE_CLEAR: after 65,536 further tiles without either deckle fault (R90). -/
def execDeckleStrikeClear (c : CoreId) (m : MeId) (s : State) : Res :=
  let e := getEngine (getCore s c) m
  if e.deckleStrike && decide (65536 ≤ e.deckleClean) then
    .next (modCore c (setEngine m { e with deckleStrike := false, deckleClean := 0 }) s)
  else .next s

/-- CHECK_STRIKE_CLEAR: after 65,536 further tiles without a check failure (R118). -/
def execCheckStrikeClear (c : CoreId) (m : MeId) (s : State) : Res :=
  let e := getEngine (getCore s c) m
  if e.checkStrike && decide (65536 ≤ e.checkClean) then
    .next (modCore c (setEngine m { e with checkStrike := false, checkClean := 0 }) s)
  else .next s

end Sys2Proof.Machine
end

