-- ==== Sys2Proof/Machine/Trans.lean ====
section
/-! DEFINITION. The transcendental functions of R150 and R151. The exact result is enclosed by
fixed-point arithmetic with many guard bits; the device's own value (Config.transRaw) is taken
where it lies within the manual's bound of every point of the enclosure, and the correctly rounded
value otherwise (DEDUCED, log 7). -/

namespace Sys2Proof.Machine

/-- The values [lo, hi]·2^e. -/
structure Encl where
  lo : Int
  hi : Int
  e : Int
  deriving DecidableEq, Repr

def fxP : Nat := 192

/-- Σ z^(2k+1)/(2k+1) with signs all + (atanh) in fixed point 2^p; `t` is the present power. -/
def oddSeries (p : Nat) (z2 : Nat) : Nat → Nat → Nat → Nat → Nat
  | 0, _, _, acc => acc
  | fuel + 1, t, k, acc => oddSeries p z2 fuel (t * z2 / 2 ^ p) (k + 1) (acc + t / (2 * k + 1))

def atanhFx (p z : Nat) : Nat := oddSeries p (z * z / 2 ^ p) p z 0 0

def ln2Fx (p : Nat) : Nat := 2 * atanhFx p (2 ^ p / 3)

/-- Σ r^k/k! in fixed point. -/
def expSeries (p r : Nat) : Nat → Nat → Nat → Nat → Nat
  | 0, _, _, acc => acc
  | fuel + 1, t, k, acc => expSeries p r fuel (t * r / 2 ^ p / (k + 1)) (k + 1) (acc + t)

/-- e^x for x = ±n/d as E·2^(k - p), E in fixed point near [1, 2]. -/
def expFx (p : Nat) (neg : Bool) (n d : Nat) : Nat × Int :=
  let l := ln2Fx p
  let x := n * 2 ^ p / d
  let q := x / l
  if neg then
    let r := (q + 1) * l - x
    (expSeries p r 80 (2 ^ p) 0 0, -((q : Int) + 1))
  else (expSeries p (x - q * l) 80 (2 ^ p) 0 0, (q : Int))

def numDen (m : Nat) (e : Int) : Nat × Nat := (m * pow2Num e, pow2Den e)

def expEncl (neg : Bool) (m : Nat) (e : Int) : Encl :=
  let (n, d) := numDen m e
  let (x, k) := expFx fxP neg n d
  { lo := (x : Int) - 2 ^ 24, hi := (x : Int) + 2 ^ 24, e := k - (fxP : Int) }

/-- ln of m·2^e, m positive. -/
def logEncl (m : Nat) (e : Int) : Encl :=
  let b := Nat.log2 m
  -- t = m/2^b in [1, 2), halved when above √2
  let big := decide (2 ^ (2 * b + 1) < m * m)
  let k : Int := e + (b : Int) + (if big then 1 else 0)
  let den := if big then 2 ^ (b + 1) else 2 ^ b
  let neg := decide (m < den)
  let z := (if neg then den - m else m - den) * 2 ^ fxP / (m + den)
  let l : Int := ((2 * atanhFx fxP z : Nat) : Int)
  let v := k * (ln2Fx fxP : Int) + (if neg then -l else l)
  { lo := v - 2 ^ 20, hi := v + 2 ^ 20, e := -(fxP : Int) }

def rsqrtEncl (m : Nat) (e : Int) : Encl :=
  let (m, e) := if e % 2 == 0 then (m, e) else (2 * m, e - 1)
  let r : Int := ((isqrt (2 ^ 256 / m) : Nat) : Int)
  { lo := r, hi := r + 2, e := -128 - e / 2 }

def signEncl (neg : Bool) (x : Encl) : Encl := if neg then { lo := -x.hi, hi := -x.lo, e := x.e } else x

def tanhEncl (neg : Bool) (m : Nat) (e : Int) : Encl :=
  let (n, d) := numDen m e
  if n * 32 < d then
    let p := fxP
    let y := n * n * 2 ^ p / (d * d)
    let y2 := y * y / 2 ^ p
    let y3 := y2 * y / 2 ^ p
    let y4 := y3 * y / 2 ^ p
    let y5 := y4 * y / 2 ^ p
    let f : Int := ((2 ^ p + 2 * y2 / 15 + 62 * y4 / 2835 : Nat) : Int) - ((y / 3 + 17 * y3 / 315 + 1382 * y5 / 155925 : Nat) : Int)
    signEncl neg { lo := (m : Int) * (f - 2 ^ (p - 60)), hi := (m : Int) * (f + 2 ^ (p - 60)), e := e - (p : Int) }
  else
    let (x, k) := expFx fxP false (2 * n) d
    let x := x * 2 ^ k.toNat
    let t : Int := (((x - 2 ^ fxP) * 2 ^ fxP / (x + 2 ^ fxP) : Nat) : Int)
    signEncl neg { lo := t - 2 ^ 40, hi := t + 2 ^ 40, e := -(fxP : Int) }

def sigmEncl (neg : Bool) (m : Nat) (e : Int) : Encl :=
  let (n, d) := numDen m e
  let (x, k) := expFx fxP neg n d
  if neg then
    let t : Int := ((x * 2 ^ fxP / (2 ^ fxP + x / 2 ^ (-k).toNat) : Nat) : Int)
    { lo := t - 2 ^ 40, hi := t + 2 ^ 40, e := k - (fxP : Int) }
  else
    let x := x * 2 ^ k.toNat
    let t : Int := ((x * 2 ^ fxP / (x + 2 ^ fxP) : Nat) : Int)
    { lo := t - 2 ^ 40, hi := t + 2 ^ 40, e := -(fxP : Int) }

def gxP : Nat := 512

/-- Σ (−1)^k z^(2k+1)/(2k+1) (arctangent). -/
def altSeries (p : Nat) (z2 : Nat) : Nat → Nat → Nat → Int → Int
  | 0, _, _, acc => acc
  | fuel + 1, t, k, acc =>
    let u : Int := ((t / (2 * k + 1) : Nat) : Int)
    altSeries p z2 fuel (t * z2 / 2 ^ p) (k + 1) (if k % 2 == 0 then acc + u else acc - u)

def atanFx (p q : Nat) : Int :=
  let z := 2 ^ p / q
  altSeries p (z * z / 2 ^ p) (p / 4) z 0 0

def piFx (p : Nat) : Nat := (16 * atanFx p 5 - 4 * atanFx p 239).toNat

/-- 1/√(2π) in fixed point. -/
def invSqrt2Pi (p : Nat) : Nat := isqrt (2 ^ (3 * p) / (2 * piFx p))

/-- Σ (−1)^k x^(2k+1)/(k!·2^k·(2k+1)), with h = x²/2. -/
def phiSeries (p h : Nat) : Nat → Nat → Nat → Int → Int
  | 0, _, _, acc => acc
  | fuel + 1, t, k, acc =>
    let u : Int := ((t / (2 * k + 1) : Nat) : Int)
    phiSeries p h fuel (t * h / 2 ^ p / (k + 1)) (k + 1) (if k % 2 == 0 then acc + u else acc - u)

def geluEncl (neg : Bool) (m : Nat) (e : Int) : Encl :=
  let p := gxP
  let (n, d) := numDen m e
  let h := n * n * 2 ^ p / (2 * d * d)
  let sum := phiSeries p h 640 (n * 2 ^ p / d) 0 0
  let half : Int := 2 ^ (p - 1)
  let a := sum * (invSqrt2Pi p : Int) / 2 ^ p
  let phi := if neg then half - a else half + a
  let w : Int := 2 ^ (p - 300)
  signEncl neg { lo := (m : Int) * (phi - w), hi := (m : Int) * (phi + w), e := e - (p : Int) }

/-- An exact dyadic of an integer. -/
def dyFV (i : Int) (e : Int) : FV := .fin (decide (i < 0)) i.natAbs e

/-- The correctly rounded FP32 value of the middle of an enclosure. -/
def enclMid (x : Encl) : FV := roundFV fp32 (dyFV (x.lo + x.hi) (x.e - 1))

/-- `raw` lies within `ulps` units of every point of the enclosure (R150). -/
def withinBound (ulps : Nat) (x : Encl) (raw : FV) : Bool :=
  match raw with
  | .fin n _ _ =>
    let k := floorLog2 (x.lo + x.hi).natAbs 1 + x.e - 1
    let (b, u) : Nat × Int := if k < -126 then (2, -149) else (ulps, k - 23)
    let bound := FV.fin false b u
    let lo := dyFV x.lo x.e
    let hi := dyFV x.hi x.e
    (n == (enclMid x).isNeg) &&
      cmpNum (addExact hi bound.negate) raw != .gt && cmpNum raw (addExact lo bound) != .gt
  | _ => false

/-- The value the device gives: its own where the bound admits it. -/
def enclResult (op ulps : Nat) (w : W32) (x : Encl) : FV :=
  let raw := f32 (Config.transRaw op w)
  if withinBound ulps x raw then raw else enclMid x

/-- Opcodes of R132 name the functions. -/
inductive TransFn where
  | exp | log | rsqrt | tanh | sigm | gelu
  deriving DecidableEq, Repr

/-- A decimal threshold n/10^6 compared with a value. -/
def cmpMicro (v : FV) (neg : Bool) (n : Nat) : Ordering :=
  cmpNum (mulExact v (.fin false 1000000 0)) (.fin neg n 0)

/-- One lane: the FP32 result, and whether INVALID is raised (R150). -/
def transLane (fn : TransFn) (w : W32) : FV × Bool :=
  let x := f32 w
  match fn, x with
  | _, .nan => (.nan, false)
  | .exp, .inf n => (if n then FV.zero else .inf false, false)
  | .exp, .fin n m e =>
    if m == 0 then (.fin false 1 0, false)
    else if cmpMicro x false 88722840 == .gt then (.inf false, false)
    else if cmpMicro x true 103972084 == .lt then (FV.zero, false)
    else (enclResult 0x48 2 w (expEncl n m e), false)
  | .log, .inf n => (if n then .nan else .inf false, n)
  | .log, .fin n m e =>
    if m == 0 then (.inf true, false)
    else if n then (.nan, true)
    else if cmpNum x (.fin false 1 0) == .eq then (FV.zero, false)
    else (enclResult 0x49 2 w (logEncl m e), false)
  | .rsqrt, .inf n => (if n then .nan else FV.zero, n)
  | .rsqrt, .fin n m e =>
    if m == 0 then (.inf n, false)
    else if n then (.nan, true)
    else (enclResult 0x4A 1 w (rsqrtEncl m e), false)
  | .tanh, .inf n => (.fin n 1 0, false)
  | .tanh, .fin n m e =>
    if m == 0 then (x, false)
    else if cmpMicro x.abs false 9100000 != .lt then (.fin n 1 0, false)
    else (enclResult 0x4B 2 w (tanhEncl n m e), false)
  | .sigm, .inf n => (if n then FV.zero else .fin false 1 0, false)
  | .sigm, .fin n m e =>
    if m == 0 then (.fin false 1 (-1), false)
    else if cmpMicro x false 17500000 != .lt then (.fin false 1 0, false)
    else if cmpMicro x true 103972084 == .lt then (FV.zero, false)
    else (enclResult 0x4C 2 w (sigmEncl n m e), false)
  | .gelu, .inf n => (if n then .fin true 0 0 else .inf false, false)
  | .gelu, .fin n m e =>
    if m == 0 then (x, false)
    else if cmpMicro x false 5500000 != .lt then (x, false)
    else if cmpMicro x true 15000000 != .gt then (.fin true 0 0, false)
    else (enclResult 0x4D 4 w (geluEncl n m e), false)

end Sys2Proof.Machine
end

