-- ==== Sys2Proof/Machine/Flags.lean ====
section
/-! DEFINITION. The sticky flags of the vector engine: their places in VE_STATUS and how an instruction sets
them (R159). -/

namespace Sys2Proof.Machine

/-- Set sticky flags of VE_STATUS; VE_FLAG_LAST and VE_FLAG_POS describe the last instruction that
set any (R159). Which of several flags of one instruction is named last is open (DESIGN CHOICE, log 3). -/
def setVFlags (c : CoreId) (flags : List Nat) (s : State) : State :=
  match flags with
  | [] => s
  | f :: rest =>
    let (k, s) := if rest.isEmpty then (0, s) else drawFree s
    let s := flags.foldl (fun s b => setSticky 0xF00400 c.val b s) s
    modCore c (fun x => { x with ve := { x.ve with
      flagOp := x.ve.op, flagLayer := x.ve.layer, flagPos := BitVec.ofNat 16 x.ve.pos,
      flagBit := (f :: rest).getD (k % flags.length) f } }) s

def vfEmpty : Nat := 8
def vfPerm : Nat := 9
def vfInvalid : Nat := 10
def vfOverflow : Nat := 11
def vfSat : Nat := 12
def vfTopk : Nat := 13
def vfPoison : Nat := 14
def vfVl : Nat := 15
def vfCut : Nat := 16
def vfDeckle : Nat := 17
def vfResidue : Nat := 18

/-- The flags whose conditions hold. -/
def flagList (l : List (Bool × Nat)) : List Nat := (l.filter (·.1)).map (·.2)

end Sys2Proof.Machine
end

