-- ==== Sys2Proof/Machine/Operands.lean ====
section
/-! DEFINITION. The vector engine's operands: lanes, element types, registers, masks and VL, and the
writing of destinations with their poison (R126 to R134, R140). -/

namespace Sys2Proof.Machine

/-- Element types of R127. -/
inductive VTy where
  | f32 | bf16 | i32 | i16 | i8
  deriving DecidableEq, Repr

def vty (c : Nat) : Option VTy :=
  match c with
  | 0 => some .f32
  | 1 => some .bf16
  | 2 => some .i32
  | 3 => some .i16
  | 4 => some .i8
  | _ => none

def VTy.isFloat : VTy → Bool
  | .f32 | .bf16 => true
  | _ => false

def VTy.bits : VTy → Nat
  | .f32 | .i32 => 32
  | .bf16 | .i16 => 16
  | .i8 => 8

def VTy.wide : VTy → WideFmt
  | .bf16 => Machine.bf16
  | _ => Machine.fp32

/-- A lane's bits as a value or an integer. -/
def laneFV (t : VTy) (w : W32) : FV := if t == .bf16 then fb16 (w.setWidth 16) else Machine.f32 w
def laneInt (t : VTy) (w : W32) : Int := signedOf t.bits w.toNat

/-- Values as a lane holds them (R127). -/
def fvLane (t : VTy) (v : FV) : W32 := if t == .bf16 then (toBf16 v).setWidth 32 else toF32 v
def intLane (t : VTy) (i : Int) : W32 := BitVec.ofNat 32 (unsignedOf 32 (signedOf t.bits (unsignedOf t.bits i)))

/-- A lane's bits moved unchanged, as the type holds them. -/
def moveLane (t : VTy) (w : W32) : W32 := if t.isFloat then (if t == .bf16 then (w.setWidth 16).setWidth 32 else w) else intLane t (laneInt t w)

def intMax (t : VTy) : Int := 2 ^ (t.bits - 1) - 1
def intMin (t : VTy) : Int := -(2 ^ (t.bits - 1))

/-- Saturation to the type's range, and whether it took place (R136). -/
def satInt (t : VTy) (i : Int) : Int × Bool :=
  if intMax t < i then (intMax t, true) else if i < intMin t then (intMin t, true) else (i, false)

/-- A signalling NaN encoding: the fraction's top bit is clear. -/
def isSnan (t : VTy) (w : W32) : Bool :=
  if t == .f32 then (Machine.f32 w).isNan && !w.getLsbD 22
  else if t == .bf16 then (fb16 (w.setWidth 16)).isNan && !w.getLsbD 6
  else false

/-! ### Naming operands (R128) -/

def isVReg (n : BitVec 8) : Bool := decide (n.toNat < 32)
/-- A listed vector operand. -/
def vecListed (n : BitVec 8) : Bool := isVReg n || decide (64 ≤ n.toNat)
/-- A listed mask operand, and one that can be written. -/
def mskListed (n : BitVec 8) : Bool := decide (n.toNat < 8)
def mskDest (n : BitVec 8) : Bool := decide (n.toNat < 8) && n != 0

def winOf (n : Nat) : Nat := (n - 64) / 48
def colOf (n : Nat) : Nat := (n - 64) % 48

/-! ### Reading -/

def zeroLanes : List W32 := List.replicate 128 0
def laneOf (l : List W32) (i : Nat) : W32 := l.getD i 0

/-- A V register: what was written, else 0 after reset, else a value open since the VEC command
began, as V carries nothing from one VEC command to the next (R130; DESIGN CHOICE, log 3). -/
def readV (x : CoreState) (n : Nat) : List W32 :=
  match mapGet n x.ve.regs, x.ve.epoch with
  | some l, _ => (List.range 128).map (laneOf l)
  | none, none => zeroLanes
  | none, some e => (List.range 128).map (fun i => BitVec.ofNat 32 (Config.free (e + 128 * n + i)))

/-- A column of an accumulator bank (R98). -/
def readCol (x : CoreState) (n : Nat) : List W32 :=
  let b := getBank x (winOf n)
  (List.range 128).map (fun r => BitVec.ofNat 32 (leNat (ramRead b.mem (512 * colOf n + 4 * r) 4)))

def readVec (x : CoreState) (n : BitVec 8) : List W32 := if isVReg n then readV x n.toNat else readCol x n.toNat

def vecPoison (x : CoreState) (n : BitVec 8) : Bool :=
  if isVReg n then x.ve.regPoison.contains n.toNat else (getBank x (winOf n.toNat)).poison

/-- A mask register; M0 reads all ones (R126). -/
def readMask (x : CoreState) (n : Nat) : BitVec 128 :=
  if n == 0 then BitVec.allOnes 128
  else match mapGet n x.ve.masks, x.ve.epoch with
    | some m, _ => m
    | none, none => 0
    | none, some e => BitVec.ofNat 128 (Config.free (e + 8192 + n))

def maskPoisoned (x : CoreState) (n : Nat) : Bool := x.ve.maskPoison.contains n

/-- Lane i is active: below VL, and its mask bit is 1 (R133). -/
def laneActive (x : CoreState) (m : BitVec 3) (i : Nat) : Bool := decide (i < x.ve.vl) && (readMask x m.toNat).getLsbD i

def activeCount (x : CoreState) (m : BitVec 3) : Nat := ((List.range 128).filter (laneActive x m)).length

/-! ### Writing -/

/-- The new lanes of a destination; `none` keeps a lane. -/
def mergeLanes (old : List W32) (new : List (Option W32)) : List W32 := (old.zip new).map (fun p => p.2.getD p.1)

/-- Results in the active lanes; others are kept or written 0 by MZ (R133). -/
def maskedLanes (x : CoreState) (v : VOps) (f : Nat → W32) : List (Option W32) :=
  (List.range 128).map (fun i => if laneActive x v.msk i then some (f i) else if v.mz then some 0 else none)

/-- Write a V register or a bank column. A lane kept from a poisoned destination leaves it poisoned;
a bank's mark is set by a poisoned write and cleared once this VEC command has written all 48
columns whole and clean (R140; DEDUCED, log 12). -/
def writeVec (n : BitVec 8) (lanes : List (Option W32)) (poison : Bool) (x : CoreState) : CoreState :=
  let keeps := lanes.any (·.isNone)
  let vals := mergeLanes (readVec x n) lanes
  if isVReg n then
    let p := poison || (keeps && vecPoison x n)
    { x with ve := { x.ve with regs := mapSet n.toNat vals x.ve.regs, regPoison := setPut p n.toNat x.ve.regPoison } }
  else
    let w := winOf n.toNat
    let c := colOf n.toNat
    let b := getBank x w
    let mem := ramWrite b.mem (512 * c) ((vals.map (fun v => toLE 4 v.toNat)).flatten)
    let clean := if poison then setDel (48 * w + c) x.ve.cleanCols
      else if keeps && b.poison then x.ve.cleanCols else setIns (48 * w + c) x.ve.cleanCols
    let all := (List.range 48).all (fun j => clean.contains (48 * w + j))
    let x := setBank w { mem := mem, poison := poison || (b.poison && !all) } x
    { x with ve := { x.ve with cleanCols := clean } }

def writeMask (n : Nat) (m : BitVec 128) (poison : Bool) (x : CoreState) : CoreState :=
  { x with ve := { x.ve with masks := mapSet n m x.ve.masks, maskPoison := setPut poison n x.ve.maskPoison } }

/-! ### Instructions -/

/-- Poison of everything that an instruction with these sources reads (R134, R140). -/
def srcPoison (x : CoreState) (v : VOps) (srcs : List (BitVec 8)) : Bool :=
  x.ve.vlPoison || maskPoisoned x v.msk.toNat || srcs.any (vecPoison x)

/-- An instruction has completed: VE_INSTR counts it, and the position moves on. -/
def vDone (c : CoreId) (s : State) : State :=
  incCnt (cntCore c.val 1) (modCore c (fun x => { x with ve := { x.ve with pos := x.ve.pos + 1 } }) s)

/-- Run an instruction whose fields are listed. A fenced core runs nothing (R401). -/
def vRun (c : CoreId) (listed : Bool) (f : State → State) (s : State) : Res :=
  if !listed then .refused .unlistedOperand
  else if !coreActive s c.val then .next s
  else .next (vDone c (f s))

/-- A mismatch of the residue check: flagged, counted and reported; with the strike set it fences the core, else it sets
the strike (R137). -/
def residueFails (c : CoreId) (s : State) : State :=
  let ve := (getCore s c).ve
  let s := setVFlags c [vfResidue] (incCnt (cntCore c.val 3) s)
  let s := reportWith 0x0A (ucCore c) 0 (ucCore c) ve.layer ve.op [ve.pos] s
  if ve.strike then fenceCore c 0x0A s
  else modCore c (fun x => { x with ve := { x.ve with strike := true, clean := 0, mismatch := true } }) s

/-- The residue check of R137 around an arithmetic instruction: one mismatch, and the instruction runs again from the same
operands; a second meets the strike. -/
def withResidue (c : CoreId) (v : VOps) (listed : Bool) (f : State → State) (s : State) : Res :=
  if !listed then .refused .unlistedOperand
  else if !coreActive s c.val then .next s
  else
    let s := if v.resid == 0 then s else residueFails c s
    let s := if v.resid ≤ 1 || !coreActive s c.val then s else residueFails c s
    if coreActive s c.val then .next (vDone c (f s)) else .next s

/-- One lane's outcome: its bits and the flags it raises. -/
structure LaneOut where
  w : W32
  invalid : Bool
  overflow : Bool
  sat : Bool
  deriving DecidableEq, Repr

def laneBits (w : W32) : LaneOut := { w := w, invalid := false, overflow := false, sat := false }

/-- Write lane outcomes into the active lanes of VD with their flags (R133, R136, R140). -/
def writeLanes (c : CoreId) (v : VOps) (srcs : List (BitVec 8)) (f : CoreState → List LaneOut) (s : State) : State :=
  let x := getCore s c
  let outs := f x
  let act := (outs.zip (List.range 128)).filter (fun p => laneActive x v.msk p.2)
  let poison := srcPoison x v srcs
  let s := setCore c (writeVec v.vd (maskedLanes x v (fun i => (outs.getD i (laneBits 0)).w)) poison x) s
  setVFlags c (flagList [(act.any (fun p => p.1.invalid), vfInvalid), (act.any (fun p => p.1.overflow), vfOverflow),
    (act.any (fun p => p.1.sat), vfSat), (poison, vfPoison)]) s

/-! ### NLU commands (R207) -/

/-- OP of a command word: 1 GATHER, 2 POOL. -/
def nluOp (w : BitVec 256) : Nat := bits w.toNat 3 0

/-- The fields of a command word. -/
def nluCmdOf (w : BitVec 256) : NluCmd :=
  { launchRef := w.extractLsb' 4 10
    table := ⟨(w.extractLsb' 14 8).toNat, (w.extractLsb' 14 8).isLt⟩
    poolOp := w.extractLsb' 22 2
    outFmt := w.extractLsb' 24 2
    keyLine := w.extractLsb' 32 20
    keyCountM1 := w.extractLsb' 52 20
    bagLine := w.extractLsb' 72 20
    bagCountM1 := w.extractLsb' 92 16
    destCluster := w.extractLsb' 108 5
    destLine := w.extractLsb' 113 18
    destStrideM1 := w.extractLsb' 131 8
    tensorId := w.extractLsb' 139 20
    reamSeq := w.extractLsb' 159 32 }

/-- The operand values of a command word are listed, and its reserved bits are zero. -/
def nluWordOk (w : BitVec 256) : Bool :=
  let c := nluCmdOf w
  w.extractLsb' 26 6 == 0 && w.extractLsb' 191 65 == 0 && c.outFmt != 3 &&
    (if nluOp w == 2 then c.poolOp != 3 && c.outFmt != 2
     else nluOp w == 1 && c.poolOp == 0 && c.bagLine == 0 && c.bagCountM1 == 0)

def entryCmd (e : GatherEntry) : NluCmd := nluCmdOf e.word
/-- A gather-list entry yields a POOL. -/
def entryPool (e : GatherEntry) : Bool := nluOp e.word == 2

end Sys2Proof.Machine
end

