-- ==== Sys2Proof/Machine/Vector.lean ====
section
/-! DEFINITION. The lane-wise vector instructions, loads and stores, permutations, reductions, top-k
and transcendentals (R129 to R151). -/

namespace Sys2Proof.Machine

/-! ### Arithmetic (R135, R136) -/

/-- Lane outcomes of a float operation: the result rounded once to the type, INVALID for a NaN
from operands without one or for a signalling NaN, OVERFLOW for an infinity from finite operands. -/
def floatOut (t : VTy) (ins : List W32) (exact : FV) : LaneOut :=
  let r := roundFV t.wide exact
  let vs := ins.map (laneFV t)
  { w := fvLane t r
    invalid := ins.any (isSnan t) || (r.isNan && !vs.any (·.isNan))
    overflow := vs.all (·.isFin) && !r.isFin && !r.isNan
    sat := false }

def intOut (t : VTy) (i : Int) : LaneOut :=
  let (v, sat) := satInt t i
  { w := intLane t v, invalid := false, overflow := false, sat := sat }

/-- ADD, SUB and MUL by type. -/
def binLane (t : VTy) (fv : FV → FV → FV) (iv : Int → Int → Int) (a b : W32) : LaneOut :=
  if t.isFloat then floatOut t [a, b] (fv (laneFV t a) (laneFV t b)) else intOut t (iv (laneInt t a) (laneInt t b))

def listed2 (v : VOps) (t : Option VTy) : Bool := t.isSome && vecListed v.vd && vecListed v.va && vecListed v.vb
def listed1 (v : VOps) (t : Option VTy) : Bool := t.isSome && vecListed v.vd && vecListed v.va && v.vb == 0
def vtyD (v : VOps) : VTy := (vty v.ty.toNat).getD .f32

/-- A two-source lane-wise arithmetic instruction with the residue check. -/
def arith2 (c : CoreId) (v : VOps) (fv : FV → FV → FV) (iv : Int → Int → Int) (s : State) : Res :=
  withResidue c v (listed2 v (vty v.ty.toNat))
    (writeLanes c v [v.va, v.vb] (fun x => List.zipWith (binLane (vtyD v) fv iv) (readVec x v.va) (readVec x v.vb))) s

def subExact (a b : FV) : FV := addExact a b.negate

/-- VNOP (R132). -/
def execVnop (c : CoreId) (v : VOps) (s : State) : Res := vRun c ((vty v.ty.toNat).isSome && v.vd == 0 && v.va == 0 && v.vb == 0) (fun s => s) s

/-- ADD (R135, R136). -/
def execAdd (c : CoreId) (v : VOps) (s : State) : Res := arith2 c v addExact (· + ·) s

/-- SUB (R135, R136). -/
def execSub (c : CoreId) (v : VOps) (s : State) : Res := arith2 c v subExact (· - ·) s

/-- MUL (R135, R136). -/
def execMul (c : CoreId) (v : VOps) (s : State) : Res := arith2 c v mulExact (· * ·) s

/-- FMA: d ← d + a × b with one rounding (R135); integers are exact and saturate as in R136. -/
def execFma (c : CoreId) (v : VOps) (s : State) : Res :=
  let t := vtyD v
  withResidue c v (listed2 v (vty v.ty.toNat))
    (writeLanes c v [v.va, v.vb, v.vd] (fun x => List.zipWith (fun (p : W32 × W32) d =>
      if t.isFloat then floatOut t [p.1, p.2, d] (addExact (mulExact (laneFV t p.1) (laneFV t p.2)) (laneFV t d))
      else intOut t (laneInt t d + laneInt t p.1 * laneInt t p.2))
      ((readVec x v.va).zip (readVec x v.vb)) (readVec x v.vd))) s

/-- DIV, FP32 and BF16 only, correctly rounded (R132). -/
def execDiv (c : CoreId) (v : VOps) (s : State) : Res :=
  let t := vtyD v
  withResidue c v (listed2 v (vty v.ty.toNat) && t.isFloat)
    (writeLanes c v [v.va, v.vb] (fun x => List.zipWith (fun a b =>
      floatOut t [a, b] (divFV t.wide (laneFV t a) (laneFV t b))) (readVec x v.va) (readVec x v.vb))) s

/-- SQRT, FP32 and BF16 only, correctly rounded (R132). -/
def execSqrt (c : CoreId) (v : VOps) (s : State) : Res :=
  let t := vtyD v
  withResidue c v (listed1 v (vty v.ty.toNat) && t.isFloat)
    (writeLanes c v [v.va] (fun x => (readVec x v.va).map (fun a => floatOut t [a] (sqrtFV t.wide (laneFV t a))))) s

/-- A lane-wise instruction on two sources without the residue check. -/
def lane2 (c : CoreId) (v : VOps) (ok : Bool) (f : VTy → W32 → W32 → LaneOut) (s : State) : Res :=
  vRun c (listed2 v (vty v.ty.toNat) && ok)
    (writeLanes c v [v.va, v.vb] (fun x => List.zipWith (f (vtyD v)) (readVec x v.va) (readVec x v.vb))) s

def lane1 (c : CoreId) (v : VOps) (ok : Bool) (f : VTy → W32 → LaneOut) (s : State) : Res :=
  vRun c (listed1 v (vty v.ty.toNat) && ok)
    (writeLanes c v [v.va] (fun x => (readVec x v.va).map (f (vtyD v)))) s

def pickLane (t : VTy) (fv : FV → FV → FV) (iv : Int → Int → Int) (a b : W32) : LaneOut :=
  if t.isFloat then
    { w := fvLane t (fv (laneFV t a) (laneFV t b)), invalid := isSnan t a || isSnan t b, overflow := false, sat := false }
  else laneBits (intLane t (iv (laneInt t a) (laneInt t b)))

/-- MAX (R135). -/
def execMax (c : CoreId) (v : VOps) (s : State) : Res := lane2 c v true (fun t => pickLane t maxFV max) s

/-- MIN (R135). -/
def execMin (c : CoreId) (v : VOps) (s : State) : Res := lane2 c v true (fun t => pickLane t minFV min) s

/-- ABS and NEG of the most negative integer have no stated result: a free value of the type and the operation
(DESIGN CHOICE, log 14). -/
def openLane (t : VTy) (neg : Bool) : W32 := intLane t (Config.signOpen t.bits neg)

def signInstr (c : CoreId) (v : VOps) (fv : FV → FV) (iv : Int → Int) (neg : Bool) (s : State) : Res :=
  lane1 c v true (fun t a =>
    if t.isFloat then laneBits (fvLane t (fv (laneFV t a)))
    else if laneInt t a == intMin t then laneBits (openLane t neg)
    else laneBits (intLane t (iv (laneInt t a)))) s

/-- ABS (R132). -/
def execAbs (c : CoreId) (v : VOps) (s : State) : Res := signInstr c v FV.abs (fun i => if i < 0 then -i else i) false s

/-- NEG (R132). -/
def execNeg (c : CoreId) (v : VOps) (s : State) : Res := signInstr c v FV.negate (fun i => -i) true s

/-- MOV (R132). -/
def execMov (c : CoreId) (v : VOps) (s : State) : Res := lane1 c v true (fun t a => laneBits (moveLane t a)) s

/-- SEL: by mask bit in lanes below VL; MZ governs lanes at or above VL (R132). -/
def execSel (c : CoreId) (v : VOps) (s : State) : Res :=
  vRun c (listed2 v (vty v.ty.toNat)) (fun s =>
    let x := getCore s c
    let t := vtyD v
    let a := readVec x v.va
    let b := readVec x v.vb
    let m := readMask x v.msk.toNat
    let poison := srcPoison x v [v.va, v.vb]
    let lanes := (List.range 128).map (fun i =>
      if i < x.ve.vl then some (moveLane t (laneOf (if m.getLsbD i then a else b) i)) else if v.mz then some 0 else none)
    setVFlags c (flagList [(poison, vfPoison)]) (setCore c (writeVec v.vd lanes poison x) s)) s

def bitLane (f : W32 → W32 → W32) (t : VTy) (a b : W32) : LaneOut := laneBits (intLane t (f a b).toNat)

/-- AND, integer types only (R136). -/
def execAnd (c : CoreId) (v : VOps) (s : State) : Res := lane2 c v (!(vtyD v).isFloat) (bitLane (· &&& ·)) s

/-- OR, integer types only (R136). -/
def execOr (c : CoreId) (v : VOps) (s : State) : Res := lane2 c v (!(vtyD v).isFloat) (bitLane (· ||| ·)) s

/-- XOR, integer types only (R136). -/
def execXor (c : CoreId) (v : VOps) (s : State) : Res := lane2 c v (!(vtyD v).isFloat) (bitLane (· ^^^ ·)) s

/-- The shift amount IMM[4:0]; shifts act on the type's bits without saturation (R136). -/
def shAmt (v : VOps) : Nat := bits v.imm.toNat 4 0
def rawLane (t : VTy) (n : Nat) : W32 := if t.isFloat then BitVec.ofNat 32 (n % 2 ^ t.bits) else intLane t n

/-- SHL (R136). -/
def execShl (c : CoreId) (v : VOps) (s : State) : Res :=
  lane1 c v (!(vtyD v).isFloat) (fun t a => laneBits (rawLane t (a.toNat % 2 ^ t.bits * 2 ^ shAmt v))) s

/-- SHRA (R136). -/
def execShra (c : CoreId) (v : VOps) (s : State) : Res :=
  lane1 c v true (fun t a => laneBits (rawLane t (unsignedOf t.bits (signedOf t.bits a.toNat / 2 ^ shAmt v)))) s

/-- SHRL, of the type's bits (R136). -/
def execShrl (c : CoreId) (v : VOps) (s : State) : Res :=
  lane1 c v true (fun t a => laneBits (rawLane t (a.toNat % 2 ^ t.bits / 2 ^ shAmt v))) s

/-! ### Masks and VL -/

/-- A predicate of CMP (R132, R135). -/
def cmpPred (t : VTy) (p : Nat) (a b : W32) : Bool :=
  if t.isFloat then
    let x := laneFV t a
    let y := laneFV t b
    let un := x.isNan || y.isNan
    match p with
    | 0 => eqQuiet x y
    | 1 => !eqQuiet x y
    | 2 => ltQuiet x y
    | 3 => ltQuiet x y || eqQuiet x y
    | 4 => ltQuiet y x
    | 5 => ltQuiet y x || eqQuiet x y
    | _ => un
  else
    let x := laneInt t a
    let y := laneInt t b
    match p with
    | 0 => x == y
    | 1 => x != y
    | 2 => decide (x < y)
    | 3 => decide (x ≤ y)
    | 4 => decide (y < x)
    | 5 => decide (y ≤ x)
    | _ => false

/-- A mask from its bits. -/
def maskOf (f : Nat → Bool) : BitVec 128 :=
  BitVec.ofNat 128 ((List.range 128).foldl (fun n i => if f i then n + 2 ^ i else n) 0)

/-- CMP: mask d by the rule of R133 bit by bit. -/
def execCmp (c : CoreId) (v : VOps) (s : State) : Res :=
  let p := bits v.imm.toNat 2 0
  let t := vtyD v
  vRun c ((vty v.ty.toNat).isSome && mskDest v.vd && vecListed v.va && vecListed v.vb && decide (p < 7)) (fun s =>
    let x := getCore s c
    let a := readVec x v.va
    let b := readVec x v.vb
    let old := readMask x v.vd.toNat
    let poison := srcPoison x v [v.va, v.vb]
    let keep := !v.mz && (List.range 128).any (fun i => !laneActive x v.msk i) && maskPoisoned x v.vd.toNat
    let m := maskOf (fun i => if laneActive x v.msk i then cmpPred t p (laneOf a i) (laneOf b i) else if v.mz then false else old.getLsbD i)
    let inv := (List.range 128).any (fun i => laneActive x v.msk i && (isSnan t (laneOf a i) || isSnan t (laneOf b i)))
    setVFlags c (flagList [(inv, vfInvalid), (poison, vfPoison)]) (setCore c (writeMask v.vd.toNat m (poison || keep) x) s)) s

/-- MLOG: all 128 bits of mask d (R132). -/
def execMlog (c : CoreId) (v : VOps) (s : State) : Res :=
  let p := bits v.imm.toNat 2 0
  vRun c ((vty v.ty.toNat).isSome && mskDest v.vd && mskListed v.va && mskListed v.vb && decide (p < 5) && (p != 4 || v.vb == 0)) (fun s =>
    let x := getCore s c
    let a := readMask x v.va.toNat
    let b := readMask x v.vb.toNat
    let m := match p with
      | 0 => a &&& b
      | 1 => a ||| b
      | 2 => a ^^^ b
      | 3 => a &&& ~~~b
      | _ => ~~~a
    let poison := x.ve.vlPoison || maskPoisoned x v.va.toNat || (p != 4 && maskPoisoned x v.vb.toNat)
    setVFlags c (flagList [(poison, vfPoison)]) (setCore c (writeMask v.vd.toNat m poison x) s)) s

/-- MCNT: every lane of d ← the count of active lanes (R132). -/
def execMcnt (c : CoreId) (v : VOps) (s : State) : Res :=
  vRun c ((vty v.ty.toNat).isSome && vecListed v.vd && v.va == 0 && v.vb == 0) (fun s =>
    let x := getCore s c
    let poison := srcPoison x v []
    let w := BitVec.ofNat 32 (activeCount x v.msk)
    setVFlags c (flagList [(poison, vfPoison)]) (setCore c (writeVec v.vd (List.replicate 128 (some w)) poison x) s)) s

/-- SETVL (R134). -/
def execSetvl (c : CoreId) (v : VOps) (s : State) : Res :=
  let reg := bit v.imm.toNat 8
  let n := bits v.imm.toNat 7 0
  vRun c ((vty v.ty.toNat).isSome && v.vd == 0 && v.vb == 0 && (if reg then vecListed v.va else v.va == 0 && decide (n ≤ 128))) (fun s =>
    let x := getCore s c
    if !reg then setCore c { x with ve := { x.ve with vl := n } } s
    else if vecPoison x v.va then
      setVFlags c [vfPoison] (setCore c { x with ve := { x.ve with vl := 0, vlPoison := true } } s)
    else
      let i := signedOf 32 (laneOf (readVec x v.va) 0).toNat
      let vl := if i < 0 then 0 else if 128 < i then 128 else i.toNat
      setVFlags c (flagList [(decide (i < 0) || decide (128 < i), vfVl)]) (setCore c { x with ve := { x.ve with vl := vl } } s)) s

/-! ### Conversion and constants -/

/-- CVT of one lane (R136). -/
def cvtLane (a b : VTy) (w : W32) : LaneOut :=
  if a.isFloat then
    let v := laneFV a w
    if b.isFloat then
      let r := roundFV b.wide v
      { w := fvLane b r, invalid := isSnan a w, overflow := v.isFin && !r.isFin, sat := false }
    else match v with
      | .nan => { w := 0, invalid := true, overflow := false, sat := false }
      | .inf n => { w := intLane b (if n then intMin b else intMax b), invalid := false, overflow := false, sat := true }
      | _ => intOut b ((rneToInt v).getD 0)
  else if b.isFloat then laneBits (fvLane b (roundFV b.wide (intFV (laneInt a w))))
  else intOut b (laneInt a w)

/-- CVT: from TYPE to the type in IMM[2:0] (R132, R136). -/
def execCvt (c : CoreId) (v : VOps) (s : State) : Res :=
  let b := vty (bits v.imm.toNat 2 0)
  lane1 c v b.isSome (fun t a => cvtLane t (b.getD .f32) a) s

/-- MOVI: IMM[15:0] as BF16 widened, or sign-extended (R132). -/
def execMovi (c : CoreId) (v : VOps) (s : State) : Res :=
  let k := bits v.imm.toNat 15 0
  vRun c ((vty v.ty.toNat).isSome && vecListed v.vd && v.va == 0 && v.vb == 0)
    (writeLanes c v [] (fun _ => List.replicate 128 (laneBits (match vtyD v with
      | .f32 => BitVec.ofNat 32 (k * 65536)
      | .bf16 => BitVec.ofNat 32 k
      | t => intLane t (signedOf 16 k))))) s

/-- BCAST: lane IMM[6:0] of a (R132). -/
def execBcast (c : CoreId) (v : VOps) (s : State) : Res :=
  vRun c (listed1 v (vty v.ty.toNat))
    (writeLanes c v [v.va] (fun x => List.replicate 128 (laneBits (moveLane (vtyD v) (laneOf (readVec x v.va) (bits v.imm.toNat 6 0)))))) s

/-- IOTA: i + IMM as INT32 (R132). -/
def execIota (c : CoreId) (v : VOps) (s : State) : Res :=
  vRun c ((vty v.ty.toNat).isSome && vecListed v.vd && v.va == 0 && v.vb == 0)
    (writeLanes c v [] (fun _ => (List.range 128).map (fun i => laneBits (BitVec.ofNat 32 (i + v.imm.toNat))))) s

/-! ### Loads and stores (R138 to R140) -/

def tyBytes (t : VTy) : Nat := t.bits / 8

/-- A stored element as a lane holds it. -/
def loadLane (t : VTy) (bs : Bytes) : W32 :=
  if t.isFloat then BitVec.ofNat 32 (leNat bs) else intLane t (signedOf t.bits (leNat bs))

/-- The byte address of lane i of VLD and VST, and of VLDS and VSTS. -/
def unitAddr (v : VOps) (i : Nat) : Nat := 64 * bits v.imm.toNat 14 0 + i * tyBytes (vtyD v)
def strideAddr (v : VOps) (i : Nat) : Nat :=
  64 * (bits v.imm.toNat 14 0 + i * bits v.imm.toNat 23 15) + bits v.vb.toNat 5 0 * tyBytes (vtyD v)

def strideListed (v : VOps) : Bool :=
  (vty v.ty.toNat).isSome && decide (v.vb.toNat < 64) && decide (bits v.vb.toNat 5 0 * tyBytes (vtyD v) + tyBytes (vtyD v) ≤ 64)

/-- The last byte that the active lanes reach stays inside tile memory (R129). -/
def lanesInside (x : CoreState) (v : VOps) (addr : Nat → Nat) : Bool :=
  (List.range 128).all (fun i => !laneActive x v.msk i || decide (addr i + tyBytes (vtyD v) ≤ tileBytes))

def loadInstr (c : CoreId) (v : VOps) (ok : Bool) (addr : Nat → Nat) (s : State) : Res :=
  let x := getCore s c
  if !ok then .refused .unlistedOperand
  else if !lanesInside x v addr then .fault (.addressOutside (addr 127))
  else vRun c true (fun s =>
    let x := getCore s c
    let t := vtyD v
    let n := tyBytes t
    let act := (List.range 128).filter (laneActive x v.msk)
    let poison := srcPoison x v [] || act.any (fun i => tilePoisoned x (addr i) n)
    let lanes := maskedLanes x v (fun i => loadLane t (ramRead x.tile (addr i) n))
    setVFlags c (flagList [(poison, vfPoison)]) (setCore c (writeVec v.vd lanes poison x) s)) s

/-- Store lanes in ascending order; a poisoned source marks the lines it writes (R139, R140). -/
def storeLanes (x : CoreState) (n : Nat) (addr : Nat → Nat) (vals : List W32) (poison : Bool) (act : List Nat) : CoreState :=
  act.foldl (fun x i => tileWrite (addr i) (toLE n (laneOf vals i).toNat) poison x) x

def storeInstr (c : CoreId) (v : VOps) (ok : Bool) (addr : Nat → Nat) (s : State) : Res :=
  let x := getCore s c
  if !ok then .refused .unlistedOperand
  else if !lanesInside x v addr then .fault (.addressOutside (addr 127))
  else vRun c true (fun s =>
    let x := getCore s c
    let act := (List.range 128).filter (laneActive x v.msk)
    let poison := srcPoison x v [v.va]
    let n := tyBytes (vtyD v)
    let x1 := storeLanes x n addr (readVec x v.va) poison act
    -- lines that the store covers whole and clean carry no poison afterwards
    let covered (l : Nat) : Bool := (List.range 64).all (fun b =>
      act.any (fun i => decide (addr i ≤ 64 * l + b) && decide (64 * l + b < addr i + n)))
    let x2 := if poison then x1 else
      { x1 with tilePoison := x1.tilePoison.filter (fun l => !covered l) }
    setVFlags c (flagList [(poison, vfPoison)]) (setCore c x2 s)) s

/-- VLD (R138). -/
def execVld (c : CoreId) (v : VOps) (s : State) : Res :=
  loadInstr c v ((vty v.ty.toNat).isSome && vecListed v.vd && v.va == 0 && v.vb == 0) (unitAddr v) s

/-- VST (R138). -/
def execVst (c : CoreId) (v : VOps) (s : State) : Res :=
  storeInstr c v ((vty v.ty.toNat).isSome && vecListed v.va && v.vd == 0 && v.vb == 0) (unitAddr v) s

/-- VLDS (R139). -/
def execVlds (c : CoreId) (v : VOps) (s : State) : Res :=
  loadInstr c v (strideListed v && vecListed v.vd && v.va == 0) (strideAddr v) s

/-- VSTS (R139). -/
def execVsts (c : CoreId) (v : VOps) (s : State) : Res :=
  storeInstr c v (strideListed v && vecListed v.va && v.vd == 0) (strideAddr v) s

/-! ### Permutations (R145, R146) -/

/-- PERM: an index at or above VL gives 0 and sets PERM_RANGE. PERM, COMPRESS and EXPAND move all 32 bits of a lane whatever TYPE says:
R146 moves bits unchanged, where R127 writes the upper bits of a narrow type 0 (DEDUCED, log 107). -/
def execPerm (c : CoreId) (v : VOps) (s : State) : Res :=
  vRun c (listed2 v (vty v.ty.toNat)) (fun s =>
    let x := getCore s c
    let a := readVec x v.va
    let b := readVec x v.vb
    let poison := srcPoison x v [v.va, v.vb]
    let lanes := (List.range 128).map (fun i =>
      if laneActive x v.msk i then
        (if (laneOf b i).toNat < x.ve.vl then some (laneOf a (laneOf b i).toNat) else some 0)
      else if v.mz then some 0 else none)
    let range := (List.range 128).any (fun i => laneActive x v.msk i && decide (x.ve.vl ≤ (laneOf b i).toNat))
    setVFlags c (flagList [(range, vfPerm), (poison, vfPoison)]) (setCore c (writeVec v.vd lanes poison x) s)) s

/-- COMPRESS: active lanes into lanes 0 to n − 1. -/
def execCompress (c : CoreId) (v : VOps) (s : State) : Res :=
  vRun c (listed1 v (vty v.ty.toNat)) (fun s =>
    let x := getCore s c
    let a := readVec x v.va
    let act := (List.range 128).filter (laneActive x v.msk)
    let poison := srcPoison x v [v.va]
    let lanes := (List.range 128).map (fun i =>
      match act[i]? with
      | some j => some (laneOf a j)
      | none => if v.mz then some 0 else none)
    setVFlags c (flagList [(poison, vfPoison)]) (setCore c (writeVec v.vd lanes poison x) s)) s

/-- EXPAND: lane j of a to the j-th active lane. -/
def execExpand (c : CoreId) (v : VOps) (s : State) : Res :=
  vRun c (listed1 v (vty v.ty.toNat)) (fun s =>
    let x := getCore s c
    let a := readVec x v.va
    let act := (List.range 128).filter (laneActive x v.msk)
    let poison := srcPoison x v [v.va]
    let lanes := (List.range 128).map (fun i =>
      match act.findIdx? (· == i) with
      | some j => some (laneOf a j)
      | none => if v.mz then some 0 else none)
    setVFlags c (flagList [(poison, vfPoison)]) (setCore c (writeVec v.vd lanes poison x) s)) s

/-! ### Reductions (R141 to R144) -/

/-- One level of the pairwise tree. -/
def treeLevel {α : Type} (op : α → α → α) : List α → List α
  | a :: b :: rest => op a b :: treeLevel op rest
  | l => l

/-- The fixed tree over lanes 0 to 127: seven levels. -/
def treeReduce {α : Type} (op : α → α → α) (l : List α) : List α :=
  (List.range 7).foldl (fun l _ => treeLevel op l) l

/-- A partial with the flags raised below it: INVALID, OVERFLOW. -/
def sumNode (a b : FV × Bool × Bool) : FV × Bool × Bool :=
  let r := add32 a.1 b.1
  (r, a.2.1 || b.2.1 || (r.isNan && !a.1.isNan && !b.1.isNan), a.2.2 || b.2.2 || (a.1.isFin && b.1.isFin && !r.isFin && !r.isNan))

/-- What a reduction leaves in lane 0 (and lane 1), and its flags. -/
structure RedOut where
  lane0 : W32
  lane1 : Option W32
  invalid : Bool
  overflow : Bool
  sat : Bool
  deriving DecidableEq, Repr

def negInf (t : VTy) : W32 := if t.isFloat then fvLane t (.inf true) else intLane t (intMin t)
def posInf (t : VTy) : W32 := if t.isFloat then fvLane t (.inf false) else intLane t (intMax t)

/-- RSUM over (lane, active) (R141). -/
def redSum (t : VTy) (l : List (W32 × Bool)) : RedOut :=
  if t.isFloat then
    let leaf (p : W32 × Bool) : FV × Bool × Bool := if p.2 then (laneFV t p.1, isSnan t p.1, false) else (FV.zero, false, false)
    match treeReduce sumNode (l.map leaf) with
    | (v, i, o) :: _ =>
      let r := roundFV t.wide v
      { lane0 := fvLane t r, lane1 := none, invalid := i, overflow := o || (v.isFin && !r.isFin), sat := false }
    | [] => { lane0 := 0, lane1 := none, invalid := false, overflow := false, sat := false }
  else
    let sum := (treeReduce (· + ·) (l.map (fun p => if p.2 then laneInt t p.1 else 0))).headD 0
    let (v, sat) := satInt t sum
    { lane0 := intLane t v, lane1 := none, invalid := false, overflow := false, sat := sat }

/-- A signed integer quotient rounded to nearest, ties to even. -/
def rneQuot (i : Int) (n : Nat) : Int := rneInt (decide (i < 0)) i.natAbs n

/-- RMEAN: the RSUM result over the count (R144). -/
def redMean (t : VTy) (l : List (W32 × Bool)) : RedOut :=
  let r := redSum t l
  let n := (l.filter (·.2)).length
  if t.isFloat then
    let v := laneFV t r.lane0
    { r with lane0 := fvLane t (divFV t.wide v (.fin false n 0)) }
  else { r with lane0 := intLane t (rneQuot (laneInt t r.lane0) n) }

/-- RMAX and RMIN (R135, R141). -/
def redExt (t : VTy) (fv : FV → FV → FV) (iv : Int → Int → Int) (idn : W32) (l : List (W32 × Bool)) : RedOut :=
  let inv := l.any (fun p => p.2 && isSnan t p.1)
  let ws := l.map (fun p => if p.2 then p.1 else idn)
  let w := if t.isFloat then fvLane t ((treeReduce fv (ws.map (laneFV t))).headD .nan)
    else intLane t ((treeReduce iv (ws.map (laneInt t))).headD 0)
  { lane0 := w, lane1 := none, invalid := inv, overflow := false, sat := false }

/-- The better of two lanes for RARGMAX and RARGMIN; the lower lane on a tie, NaN first (R143). -/
def argBetter (t : VTy) (isMax : Bool) (a b : W32) : Bool :=
  if t.isFloat then
    let x := laneFV t a
    let y := laneFV t b
    if x.isNan then false else if y.isNan then true
    else if isMax then ltZeroSigned x y else ltZeroSigned y x
  else if isMax then decide (laneInt t a < laneInt t b) else decide (laneInt t b < laneInt t a)

def redArg (t : VTy) (isMax : Bool) (l : List (W32 × Bool)) : RedOut :=
  let act := (l.zip (List.range l.length)).filter (·.1.2)
  let best := act.foldl (fun (b : Option (W32 × Nat)) p => match b with
    | none => some (p.1.1, p.2)
    | some q => if argBetter t isMax q.1 p.1.1 then some (p.1.1, p.2) else some q) none
  match best with
  | some (w, i) => { lane0 := if t.isFloat then fvLane t (laneFV t w) else intLane t (laneInt t w), lane1 := some (BitVec.ofNat 32 i),
                     invalid := act.any (fun p => isSnan t p.1.1), overflow := false, sat := false }
  | none => { lane0 := if isMax then negInf t else posInf t, lane1 := some 0xFFFF, invalid := false, overflow := false, sat := false }

/-- A reduction writes lane 0 (and 1) only; with no active lane the identity, and EMPTY (R142). -/
def redLanes (c : CoreId) (v : VOps) (f : VTy → List (W32 × Bool) → RedOut) (idn : VTy → W32) (arg : Bool) (s : State) : State :=
  let x := getCore s c
  let t := vtyD v
  let l := (readVec x v.va).zip ((List.range 128).map (laneActive x v.msk))
  let empty := !l.any (·.2)
  let r : RedOut := if empty then
      { lane0 := idn t, lane1 := if arg then some 0xFFFF else none, invalid := false, overflow := false, sat := false }
    else f t l
  let poison := srcPoison x v [v.va]
  let lanes := (List.range 128).map (fun i => if i == 0 then some r.lane0 else if i == 1 then r.lane1 else none)
  let s := setCore c (writeVec v.vd lanes poison x) s
  let s := if empty then incCnt (cntCore c.val 2) s else s
  setVFlags c (flagList [(empty, vfEmpty), (r.invalid, vfInvalid), (r.overflow, vfOverflow), (r.sat, vfSat), (poison, vfPoison)]) s

def redInstr (c : CoreId) (v : VOps) (f : VTy → List (W32 × Bool) → RedOut) (idn : VTy → W32) (arg : Bool) (s : State) : Res :=
  vRun c (listed1 v (vty v.ty.toNat)) (redLanes c v f idn arg) s

/-- A sum, whose adders carry the residue check (R137). -/
def sumInstr (c : CoreId) (v : VOps) (f : VTy → List (W32 × Bool) → RedOut) (s : State) : Res :=
  withResidue c v (listed1 v (vty v.ty.toNat)) (redLanes c v f (fun _ => 0) false) s

/-- RSUM (R141). -/
def execRsum (c : CoreId) (v : VOps) (s : State) : Res := sumInstr c v redSum s

/-- RMEAN (R144). -/
def execRmean (c : CoreId) (v : VOps) (s : State) : Res := sumInstr c v redMean s

/-- RMAX (R141). -/
def execRmax (c : CoreId) (v : VOps) (s : State) : Res := redInstr c v (fun t => redExt t maxFV max (negInf t)) negInf false s

/-- RMIN (R141). -/
def execRmin (c : CoreId) (v : VOps) (s : State) : Res := redInstr c v (fun t => redExt t minFV min (posInf t)) posInf false s

/-- RARGMAX (R143). -/
def execRargmax (c : CoreId) (v : VOps) (s : State) : Res := redInstr c v (fun t => redArg t true) negInf true s

/-- RARGMIN (R143). -/
def execRargmin (c : CoreId) (v : VOps) (s : State) : Res := redInstr c v (fun t => redArg t false) posInf true s

/-! ### Top-k (R147 to R149) -/

/-- A ranks strictly before B by value: NaN above +∞, +0 above −0. -/
def rankGt (t : VTy) (a b : W32) : Bool :=
  if t.isFloat then
    let x := laneFV t a
    let y := laneFV t b
    if y.isNan then false else if x.isNan then true else ltZeroSigned y x
  else decide (laneInt t b < laneInt t a)

/-- The total order of R147 on (value, index); ties keep their order of listing. -/
def rankBefore (t : VTy) (a b : W32 × Int) : Bool :=
  rankGt t a.1 b.1 || (!rankGt t b.1 a.1 && decide (a.2 < b.2))

def topkTy (t : Option VTy) : Bool :=
  match t with
  | some .f32 | some .bf16 | some .i32 => true
  | _ => false

/-- The best k entries in the form of R148: the values and indices of lanes 0 to 127. -/
def topkLists (t : VTy) (k : Nat) (es : List (W32 × Int)) : List W32 × List W32 :=
  let best := (sortBy (rankBefore t) es).take k
  let canon (w : W32) : W32 := if t.isFloat then fvLane t (laneFV t w) else w
  ((List.range 128).map (fun i => match best[i]? with
     | some e => canon e.1
     | none => negInf t),
   (List.range 128).map (fun i => match best[i]? with
     | some e => BitVec.ofNat 32 (unsignedOf 32 e.2)
     | none => 0xFFFF))

def writeTopk (c : CoreId) (v : VOps) (es : List (W32 × Int)) (poison empty : Bool) (s : State) : State :=
  let x := getCore s c
  let t := vtyD v
  let (vals, ixs) := topkLists t (bits v.imm.toNat 6 0) es
  let x := writeVec v.vd (vals.map some) poison x
  let x := writeVec (v.vd + 1) (ixs.map some) poison x
  let nan := t.isFloat && es.any (fun e => (laneFV t e.1).isNan)
  let s := setCore c x s
  let s := if empty then incCnt (cntCore c.val 2) s else s
  setVFlags c (flagList [(empty, vfEmpty), (nan, vfTopk), (poison, vfPoison)]) s

def topkListed (v : VOps) : Bool :=
  topkTy (vty v.ty.toNat) && isVReg v.vd && decide (v.vd.toNat % 2 = 0) &&
    decide (1 ≤ bits v.imm.toNat 6 0) && decide (bits v.imm.toNat 6 0 ≤ 64)

/-- TOPK (R148). -/
def execTopk (c : CoreId) (v : VOps) (s : State) : Res :=
  vRun c (topkListed v && vecListed v.va && vecListed v.vb) (fun s =>
    let x := getCore s c
    let a := readVec x v.va
    let b := readVec x v.vb
    let act := (List.range 128).filter (laneActive x v.msk)
    let es := act.map (fun i => (laneOf a i, (((laneOf b i).toNat % 65536 : Nat) : Int)))
    writeTopk c v es (srcPoison x v [v.va, v.vb]) act.isEmpty s) s

/-- TMERGE: lanes 0 to 63 of both lists, whatever VL and MSK (R149). -/
def execTmerge (c : CoreId) (v : VOps) (s : State) : Res :=
  vRun c (topkListed v && vecListed v.va && vecListed v.vb && vecListed (v.va + 1) && vecListed (v.vb + 1) &&
      v.va != 0xFF && v.vb != 0xFF) (fun s =>
    let x := getCore s c
    let pairs (n : BitVec 8) : List (W32 × Int) := (((readVec x n).zip (readVec x (n + 1))).take 64).map (fun p =>
      (p.1, signedOf 32 p.2.toNat))
    let poison := x.ve.vlPoison || [v.va, v.va + 1, v.vb, v.vb + 1].any (vecPoison x)
    writeTopk c v (pairs v.va ++ pairs v.vb) poison false s) s

/-! ### Transcendentals (R150, R151) -/

/-- One lane: the FP32 result; the BF16 form rounds it once to BF16. -/
def transOut (fn : TransFn) (t : VTy) (w : W32) : LaneOut :=
  let v := laneFV t w
  let (r, inv) := transLane fn (toF32 v)
  let r := roundFV t.wide r
  { w := fvLane t r, invalid := inv, overflow := v.isFin && !r.isFin && !r.isNan, sat := false }

def transInstr (c : CoreId) (v : VOps) (fn : TransFn) (s : State) : Res :=
  withResidue c v (listed1 v (vty v.ty.toNat) && (vtyD v).isFloat)
    (writeLanes c v [v.va] (fun x => (readVec x v.va).map (transOut fn (vtyD v)))) s

/-- EXP (R150). -/
def execExp (c : CoreId) (v : VOps) (s : State) : Res := transInstr c v .exp s
/-- LOG (R150). -/
def execLog (c : CoreId) (v : VOps) (s : State) : Res := transInstr c v .log s
/-- RSQRT (R150). -/
def execRsqrt (c : CoreId) (v : VOps) (s : State) : Res := transInstr c v .rsqrt s
/-- TANH (R150). -/
def execTanh (c : CoreId) (v : VOps) (s : State) : Res := transInstr c v .tanh s
/-- SIGM (R150). -/
def execSigm (c : CoreId) (v : VOps) (s : State) : Res := transInstr c v .sigm s
/-- GELU (R150). -/
def execGelu (c : CoreId) (v : VOps) (s : State) : Res := transInstr c v .gelu s

/-- RESIDUE_STRIKE_CLEAR: after 65,536 further VEC commands without a mismatch (R137). -/
def execResidueStrikeClear (c : CoreId) (s : State) : Res :=
  let x := getCore s c
  if x.ve.strike && decide (65536 ≤ x.ve.clean) then
    .next (setCore c { x with ve := { x.ve with strike := false, clean := 0 } } s)
  else .next s

end Sys2Proof.Machine
end

