-- ==== Sys2Proof/Machine/Convert.lean ====
section
/-! DEFINITION. The convert group: sizing, conversion to narrow blocks, side lists, decoding, and the
posting of clip counts (R69 to R73, R152 to R157). -/

namespace Sys2Proof.Machine

def getSlot8 (x : CoreState) (v : VOps) : CSlot := famGet CSlot.cleared (getCtx x x.ve.ctx).cslots v.ty.toNat
def setSlot8 (v : VOps) (k : CSlot) (x : CoreState) : CoreState :=
  setCtx x.ve.ctx { getCtx x x.ve.ctx with cslots := famSet (getCtx x x.ve.ctx).cslots v.ty.toNat k } x

/-- A slot's format and group size; one that no CVSET has set up has none that the manual states, and takes these (DESIGN
CHOICE, log 108). -/
def slotFmt (k : CSlot) : ElemFmt := (elemFmt k.fmt.toNat).getD .int8
def slotG (k : CSlot) : Nat := (gOf k.gsize.toNat).getD 128

/-- CVSET (R152). -/
def execCvset (c : CoreId) (v : VOps) (s : State) : Res :=
  let f := v.va.toNat
  let fl := match elemFmt f with
    | some e => !e.isInt
    | none => true
  let ok := v.vd == 0 && decide (3 ≤ f) && decide (f ≤ 7) && decide (v.vb.toNat < 16) && decide (v.vb.toNat % 4 < 3) &&
    !(bit v.vb.toNat 3 && (fl || bit v.vb.toNat 2))
  vRun c ok (fun s => modCore c (setSlot8 v
    { CSlot.cleared with
      tensor := BitVec.ofNat 20 v.imm.toNat, fmt := BitVec.ofNat 4 f, gsize := BitVec.ofNat 2 v.vb.toNat,
      weight := bit v.vb.toNat 2, zpen := bit v.vb.toNat 3,
      constLine := (getSlot8 (getCore s c) v).constLine, cursor := (getSlot8 (getCore s c) v).cursor }) s) s

/-- SETCC (R152). -/
def execSetcc (c : CoreId) (v : VOps) (s : State) : Res :=
  vRun c (v.vd == 0 && v.va == 0 && v.vb == 0) (fun s => modCore c (fun x => setSlot8 v
    { getSlot8 x v with constLine := BitVec.ofNat 15 v.imm.toNat, cursor := 0 } x) s) s

/-- A lane that enters the convert group: its value, and whether it is cut; lanes from VL on are
+0 and not cut. -/
structure CvLane where
  val : FV
  word : W32
  cut : Bool
  live : Bool
  deriving DecidableEq, Repr

def cvLanes (x : CoreState) (v : VOps) : List CvLane :=
  ((readVec x v.va).zip (List.range 128)).map (fun p =>
    if p.2 < x.ve.vl then { val := Machine.f32 p.1, word := p.1, cut := !(readMask x v.msk.toNat).getLsbD p.2, live := true }
    else { val := FV.zero, word := 0, cut := false, live := false })

/-- The processed groups: their number and lanes (R153). -/
def cvGroups (x : CoreState) (v : VOps) (g : Nat) : List (List CvLane) :=
  ((List.range (128 / g)).filter (fun i => i * g < x.ve.vl)).map (fun i => ((cvLanes x v).drop (i * g)).take g)

def uncut (ls : List CvLane) : List FV := (ls.filter (fun l => !l.cut)).map (·.val)

/-- The deckle word that SIZE writes for a group (R153). -/
def sizeWord (k : CSlot) (ls : List CvLane) : Nat :=
  let z := sizeGroup (slotFmt k) k.zpen (uncut ls)
  let d : Deckle := { scale := z.scale, seq := 0, const := z.const, cut := ls.any (·.cut), gsize := k.gsize.toNat,
                      zp := if k.zpen then z.zp else 0, wsum := 0 }
  if k.weight then packWeight d else packAct d

/-- SIZE (R153). -/
def execSize (c : CoreId) (v : VOps) (s : State) : Res :=
  vRun c (vecListed v.vd && vecListed v.va && v.vb == 0) (fun s =>
    let x := getCore s c
    let k := getSlot8 x v
    let ws := (cvGroups x v (slotG k)).map (sizeWord k)
    let poison := srcPoison x v [v.va]
    let lanes := (List.range 128).map (fun i => some (BitVec.ofNat 32 (ws.getD i 0)))
    setVFlags c (flagList [(poison, vfPoison)]) (setCore c (writeVec v.vd lanes poison x) s)) s

/-- Minimum and maximum by value of FP32 words, merged with what a slot holds. -/
def mergeExt (a b : W32 × W32) : W32 × W32 :=
  (if cmpNum (Machine.f32 b.1) (Machine.f32 a.1) == .lt then b.1 else a.1,
   if cmpNum (Machine.f32 a.2) (Machine.f32 b.2) == .lt then b.2 else a.2)

/-- One converted block: its bytes, a side-list constant, and what R155 counts. -/
structure CvBlock where
  bytes : Bytes
  const : Option W16
  poisoned : Bool
  converted : Nat
  clipped : Nat
  ext : Option (W32 × W32)
  deriving DecidableEq, Repr

/-- Convert one processed group with its deckle word (R154, R155). The extremes are those of every non-cut element, the +0
ones past VL among them; a NaN, which has no place in an order, takes no part (DEDUCED, log 110). -/
def convGroup (k : CSlot) (j : Nat) (word : Nat) (srcBad : Bool) (ls : List CvLane) : CvBlock :=
  let f := slotFmt k
  let d0 := if k.weight then weightDeckle word else actDeckle word
  let n := (ls.filter (fun l => l.live && !l.cut)).length
  let badWord := (d0.scale != 0 && !scaleValid d0.scale) || (d0.scale == 0 && !d0.const) || (d0.zp != 0 && !f.isInt) || d0.gsize != k.gsize.toNat
  let badVal := (uncut ls).any (fun v => !v.isFin)
  let base : Deckle := { scale := 0xFF, seq := j % 16, const := false, cut := ls.any (·.cut), gsize := k.gsize.toNat, zp := 0, wsum := 0 }
  let pack (d : Deckle) : Bytes := toLE 4 (if k.weight then packWeight d else packAct d)
  let zeros := ls.map (fun _ => 0)
  let lo := ((ls.filter (fun l => !l.cut && !l.val.isNan)).map (·.word))
  let ext := match lo with
    | [] => none
    | w :: rest => some (rest.foldl (fun a b => mergeExt a (b, b)) (w, w))
  if badWord || badVal || srcBad then
    { bytes := pack base ++ packCodes f zeros, const := none, poisoned := true, converted := n, clipped := 0, ext := ext }
  else
    let d := { base with scale := d0.scale, zp := d0.zp, const := d0.const }
    if d0.const then
      { bytes := pack d ++ packCodes f zeros,
        const := if isMarker d then some (toBf16 ((uncut ls).headD FV.zero)) else none
        poisoned := false, converted := n, clipped := 0, ext := ext }
    else
      let cs := ls.map (fun l => if l.cut then (if k.zpen then unsignedOf f.bits d0.zp else 0, false)
        else convElem f (!k.zpen) d0.scale d0.zp l.val)
      let codes := cs.map (·.1)
      let clip := ((ls.zip cs).filter (fun p => p.1.live && p.2.2)).length
      let d := { d with wsum := if k.weight then wsumOf f codes else 0 }
      { bytes := pack d ++ packCodes f codes, const := none, poisoned := false, converted := n, clipped := clip, ext := ext }

/-- The slot after a block (R155). -/
def noteBlock (j : Nat) (b : CvBlock) (k : CSlot) : CSlot :=
  let blocks := match b.ext with
    | none => k.blocks
    | some e =>
      let clip := decide (0 < b.clipped)
      match mapGet j k.blocks with
      | none => mapSet j (e.1, e.2, clip) k.blocks
      | some (lo, hi, cl) => mapSet j ((mergeExt (lo, hi) e).1, (mergeExt (lo, hi) e).2, cl || clip) k.blocks
  { k with converted := k.converted + b.converted, clipped := k.clipped + b.clipped, blocks := blocks,
           cursor := if b.const.isSome then k.cursor + 1 else k.cursor }

/-- The blocks that CVTN writes, with the deckle words of VB (R154). -/
def cvBlocks (x : CoreState) (v : VOps) (bad : Bool) : List CvBlock :=
  let k := getSlot8 x v
  let gs := cvGroups x v (slotG k)
  (gs.zip (List.range gs.length)).map (fun p =>
    convGroup k (bits v.imm.toNat 23 15 + p.2) (laneOf (readVec x v.vb) p.2).toNat bad p.1)

/-- A block's constant goes to the constant list, and the slot notes the block (R155). -/
def cvtnNote (j0 : Nat) (p : CoreState × CSlot) (b : CvBlock × Nat) : CoreState × CSlot :=
  let x := match b.1.const with
    | some w => tileWrite (64 * p.2.constLine.toNat + 2 * p.2.cursor) (toLE 2 w.toNat) false p.1
    | none => p.1
  (x, noteBlock (j0 + b.2) b.1 p.2)

/-- CVTN (R154, R155). -/
def execCvtn (c : CoreId) (v : VOps) (s : State) : Res :=
  let x := getCore s c
  let k := getSlot8 x v
  let g := slotG k
  let bb := blockBytes (slotFmt k) g
  let j0 := bits v.imm.toNat 23 15
  let row := 64 * bits v.imm.toNat 14 0
  let n := (cvGroups x v g).length
  let endA := row + (j0 + n) * bb
  if !(v.vd == 0 && vecListed v.va && vecListed v.vb) then .refused .unlistedOperand
  else if tileBytes < ceilTo endA 64 then .fault (.addressOutside row)
  else vRun c true (fun s =>
    let x := getCore s c
    let bad := srcPoison x v [v.va, v.vb]
    let bs := cvBlocks x v bad
    let pad := if n == 0 then [] else List.replicate (ceilTo endA 64 - endA) 0
    let x1 := tileWrite (row + j0 * bb) ((bs.map (·.bytes)).flatten ++ pad) false x
    let step := (bs.zip (List.range n)).foldl (cvtnNote j0) (x1, k)
    let s := setCore c (setSlot8 v step.2 step.1) s
    let s := addCnt (cntCore c.val 4) ((bs.map (·.clipped)).foldl (· + ·) 0) s
    let s := addCnt (cntCore c.val 5) ((bs.map (·.converted)).foldl (· + ·) 0) s
    setVFlags c (flagList [(bs.any (·.poisoned), vfPoison)]) s) s

/-- SIDE (R155). -/
def execSide (c : CoreId) (v : VOps) (s : State) : Res :=
  let line := bits v.imm.toNat 14 0
  let slot0 := bits v.imm.toNat 19 15
  vRun c (v.vd == 0 && vecListed v.va && v.vb == 0) (fun s =>
    let x := getCore s c
    let poison := srcPoison x v [v.va]
    let cuts := (cvLanes x v).filter (·.cut)
    let x := if slot0 == 0 then tileWrite (64 * line) (List.replicate 64 0) poison x else x
    let kept := cuts.take (32 - slot0)
    let x := tileWrite (64 * line + 2 * slot0) ((kept.map (fun l => toLE 2 (toBf16 l.val).toNat)).flatten) poison x
    setVFlags c (flagList [(poison, vfPoison), (decide (32 - slot0 < cuts.length), vfCut)]) (setCore c x s)) s

/-- One decoded group: its lanes, the cursor after it, and how it fails (R156). -/
def decodeGroup (x : CoreState) (k : CSlot) (a j : Nat) (cur : Nat) : List W32 × Nat × Option BlockFault :=
  let f := slotFmt k
  let g := slotG k
  let b := readBlock k.weight f g (ramRead x.tile a (blockBytes f g))
  match blockFault f g j false b with
  | some e => (List.replicate g 0, cur, some e)
  | none =>
    if !k.weight && isMarker b.dk then
      (List.replicate g (toF32 (bf16At x (64 * k.constLine.toNat) cur)), cur + 1, none)
    else (b.codes.map (fun cd => toF32 (decodeElem f b.dk cd)), cur, none)

/-- The number of groups that DCVN decodes. -/
def dcvnGroups (x : CoreState) (v : VOps) : Nat :=
  ((List.range (128 / slotG (getSlot8 x v))).filter (fun i => i * slotG (getSlot8 x v) < x.ve.vl)).length

/-- The elements that DCVN decodes, the slot's cursor after them, and the faults of blocks (R156). -/
def decodeBlocks (x : CoreState) (v : VOps) : List W32 × Nat × List BlockFault :=
  let k := getSlot8 x v
  let bb := blockBytes (slotFmt k) (slotG k)
  let j0 := bits v.imm.toNat 23 15
  let row := 64 * bits v.imm.toNat 14 0
  (List.range (dcvnGroups x v)).foldl (fun (p : List W32 × Nat × List BlockFault) i =>
    let (ws, cur, e) := decodeGroup x k (row + (j0 + i) * bb) (j0 + i) p.2.1
    (p.1 ++ ws, cur, match e with
      | some e => p.2.2 ++ [e]
      | none => p.2.2)) ([], k.cursor, [])

/-- DCVN (R156). -/
def execDcvn (c : CoreId) (v : VOps) (s : State) : Res :=
  let x := getCore s c
  let k := getSlot8 x v
  let g := slotG k
  let bb := blockBytes (slotFmt k) g
  let j0 := bits v.imm.toNat 23 15
  let row := 64 * bits v.imm.toNat 14 0
  let n := dcvnGroups x v
  if !(vecListed v.vd && v.va == 0 && v.vb == 0) then .refused .unlistedOperand
  else if tileBytes < row + (j0 + n) * bb then .fault (.addressOutside row)
  else vRun c true (fun s =>
    let x := getCore s c
    let r := decodeBlocks x v
    let bad := !r.2.2.isEmpty
    let dataPoison := tilePoisoned x (row + j0 * bb) (n * bb) || srcPoison x v []
    let poison := bad || dataPoison
    let lanes := (List.range 128).map (fun i =>
      if laneActive x v.msk i && decide (i < n * g) then some (laneOf r.1 i) else none)
    let s := setCore c (setSlot8 v { k with cursor := r.2.1 } (writeVec v.vd lanes poison x)) s
    let s := r.2.2.foldl (fun s e =>
      match e with
      | .format => reportWith 2 (ucCore c) 0 (ucCore c) x.ve.layer x.ve.op [] s
      | .skew ex rc => reportWith 1 (ucCore c) 0 (ucCore c) x.ve.layer x.ve.op [ex, rc] s) s
    setVFlags c (flagList [(bad, vfDeckle), (dataPoison, vfPoison)]) s) s

/-- The tensor descriptor of a slot's image (R157). -/
def tensorOf (s : State) (slot : SlotId) (t : BitVec 20) : Option TensorDesc :=
  ((famGet Slot.empty s.slots slot.val).image).bind (fun im => im.tensors.find? (fun d => d.id == t))

/-- Merge a post into a spine's record for its tensor and ream (R157). -/
def mergePost (p : ClipMerge) : List ClipMerge → List ClipMerge
  | [] => [p]
  | m :: rest =>
    if m.tensor == p.tensor && m.ream == p.ream then
      { m with posts := m.posts + 1, clipped := m.clipped + p.clipped, converted := m.converted + p.converted,
               blocks := p.blocks.foldl (fun bs b => match mapGet b.1 bs with
                 | none => mapSet b.1 b.2 bs
                 | some e => mapSet b.1 (mergeExt e b.2) bs) m.blocks } :: rest
    else m :: mergePost p rest

/-- CFL (R157). A tensor that the image does not describe names no spine, and the post is not kept
(DEDUCED, log 80). -/
def execCfl (c : CoreId) (v : VOps) (s : State) : Res :=
  vRun c (v.vd == 0 && v.va == 0 && v.vb == 0) (fun s =>
    let x := getCore s c
    let k := getSlot8 x v
    let cx := getCtx x x.ve.ctx
    let post : ClipMerge := { tensor := k.tensor, ream := cx.ream, slot := cx.slot, posts := 1, clipped := k.clipped, converted := k.converted,
                              blocks := (k.blocks.filter (fun b => b.2.2.2)).map (fun b => (b.1, (b.2.1, b.2.2.1))) }
    let s := setCore c (setSlot8 v { k with clipped := 0, converted := 0, blocks := [] } x) s
    match tensorOf s cx.slot k.tensor with
    | some t => modDie t.spine (fun d => { d with merges := mergePost post d.merges }) s
    | none => s) s

end Sys2Proof.Machine
end

