-- ==== Sys2Proof/Machine/Scales.lean ====
section
/-! DEFINITION. The live copies of static scale tables: raises, when they take effect, and what a program reads (R75, R77,
R78). -/

namespace Sys2Proof.Machine

/-- A block's SCALE and ZP in the image's table (R74). -/
def imageScale (t : TensorDesc) (j : Nat) : Nat × Int := ((t.scales.getD j 0).toNat, (t.zps.getD j 0).toInt)

/-- A block's present SCALE and ZP: its live copy, else the image's table. -/
def liveScale (s : State) (sl : SlotId) (t : TensorDesc) (j : Nat) : Nat × Int :=
  match s.liveScales.find? (fun l => l.slot == sl && l.tensor == t.id) with
  | some l => mapGetD (imageScale t j) j l.scales
  | none => imageScale t j

/-- A block's raise from the ream's range: its scale never falls, and an asymmetric tensor's ZP follows `lo` by R69 at the
scale in force. -/
def raiseBlock (t : TensorDesc) (cur : Nat × Int) (lo hi : FV) : Option (Nat × Int) :=
  match elemFmt t.fmt.toNat with
  | none => none
  | some f =>
    if t.zpen then
      let c := max cur.1 (sizeAsym f lo hi).1
      some (c, zpAt f c lo)
    else
      let m := hiOf [lo.abs, hi.abs]
      let c := ueCeil m.num.natAbs (m.den * qmaxSym f)
      if cur.1 < c then some (c, 0) else none

/-- A raise stands where its scale is no lower; of two that ended together the higher stands. -/
def putRaise (m : List (Nat × (Nat × Int))) (b : Nat × (Nat × Int)) : List (Nat × (Nat × Int)) :=
  match mapGet b.1 m with
  | some x => if x.1 ≤ b.2.1 then mapSet b.1 b.2 m else m
  | none => mapSet b.1 b.2 m

/-- The whole table that a view sees: the image's, the live copy, and the raises that ended before it. -/
def scalesAt (s : State) (sl : SlotId) (t : TensorDesc) (view : Nat) : List (Nat × (Nat × Int)) :=
  let base := (List.range t.scales.length).map (fun j => (j, liveScale s sl t j))
  ((s.scaleRaises.filter (fun r => r.slot == sl && r.tensor == t.id && decide (r.at_ < view))).map (·.scales)).flatten.foldl putRaise base

/-- Raises whose conversions ended before a launch edge enter the live copy, once no ream launched earlier still reads the
copy as it was (R77). -/
def applyRaises (s : State) : State :=
  let due (r : ScaleRaise) : Bool :=
    decide (r.at_ < now s) && s.reams.all (fun m => m.view == 0 || m.slot != r.slot || decide (r.at_ < m.view))
  let put (ls : List LiveScales) (r : ScaleRaise) : List LiveScales :=
    let mine (l : LiveScales) : Bool := l.slot == r.slot && l.tensor == r.tensor
    let old := ((ls.find? mine).map (·.scales)).getD []
    ls.filter (fun l => !mine l) ++ [{ slot := r.slot, tensor := r.tensor, scales := r.scales.foldl putRaise old }]
  { s with liveScales := (s.scaleRaises.filter due).foldl put s.liveScales, scaleRaises := s.scaleRaises.filter (fun r => !due r) }

/-- A slot holds a live copy of a tensor's table. -/
def hasLive (s : State) (sl : SlotId) (tensor : BitVec 20) : Bool :=
  s.liveScales.any (fun l => l.slot == sl && l.tensor == tensor) || s.scaleRaises.any (fun r => r.slot == sl && r.tensor == tensor)

/-! ### What a program reads of a table with a live copy (R77) -/

def partBytes (x : PartLoc) : Nat :=
  match x with
  | .tile _ _ n => 64 * n
  | .bank _ _ => 24576
  | .clusterSram _ _ n => 64 * n
  | .dieSram _ _ n => 64 * n
  | .dpa _ n => n

/-- Bytes laid over line `l` of a space from byte address `a`. -/
def patchLine (a : Nat) (bs : Bytes) (l : Nat) (x : Bytes) : Bytes :=
  (List.range 64).map (fun i =>
    let b := 64 * l + i
    if a ≤ b ∧ b < a + bs.length then bs.getD (b - a) 0 else x.getD i 0)

/-- The parts of the static tables of a slot's image that have a live copy, with the bytes that each holds for a view; the
layout is the image's (DESIGN CHOICE, log 35). -/
def liveParts (s : State) (sl : SlotId) (view : Nat) : List (PartLoc × Bytes) :=
  let im := (famGet Slot.empty s.slots sl.val).image
  let tabs := (im.map (·.tensors)).getD []
  (tabs.map (fun tb =>
    match tb.tableOf.bind (fun of => tensorOf s sl of) with
    | none => []
    | some t =>
      if hasLive s sl t.id then
        let bs := Config.scaleBytes ((scalesAt s sl t view).map (·.2))
        (tb.parts.foldl (fun (p : List (PartLoc × Bytes) × Nat) x => (p.1 ++ [(x, (bs.drop p.2).take (partBytes x))], p.2 + partBytes x)) ([], 0)).1
      else [])).flatten

end Sys2Proof.Machine
end

