-- ==== Sys2Proof/Machine/Domains.lean ====
section
/-! DEFINITION. Power domains: their numbers, units and latencies, their states, and the beginning of a wake (R416, R417, R421). -/

namespace Sys2Proof.Machine

def domCore (c : Nat) : Nat := c
def domCluster (k : Nat) : Nat := 256 + k
def domStack (t : Nat) : Nat := 292 + t
def domPipe (i : Nat) : Nat := 308 + i
def domLane (l : Nat) : Nat := 316 + l

/-- The unit code of a domain. -/
def domUnit (n : Nat) : UnitCode :=
  if n < 256 then unitCode 2 n
  else if n < 288 then unitCode 3 (n - 256)
  else if n < 292 then unitCode 4 (n - 288)
  else if n < 308 then unitCode 5 (n - 292)
  else if n < 316 then unitCode 11 (n - 308)
  else if n < 332 then unitCode 8 (n - 316)
  else if n < 334 then unitCode 10 (n - 332)
  else if n < 336 then unitCode 4 (4 + (n - 334))
  else ucPackage

/-- Wake latency and entry time in ns (R416). -/
def wakeNs (n : Nat) : Nat :=
  if n < 256 then 1500 else if n < 288 then 4000 else if n < 292 then 0 else if n < 308 then 20000
  else if n < 316 then 2000 else if n < 332 then 50000 else 0
def entryNs (n : Nat) : Nat :=
  if n < 256 then 500 else if n < 288 then 1000 else if n < 292 then 0 else if n < 308 then 2000
  else if n < 316 then 100 else if n < 332 then 5000 else 0

def getDom (s : State) (n : Nat) : Dom := mapGetD Dom.off n s.pwr.doms
def putDom (n : Nat) (d : Dom) (s : State) : State := { s with pwr := { s.pwr with doms := mapSetD Dom.off n d s.pwr.doms } }
def stackLost (s : State) (st : Nat) : Bool := s.dsm.lost.contains st

/-- STATE as software sees it: fenced and lost units are OFF, the cores of a fenced cluster too (R416, R417). -/
def domState (s : State) (n : Nat) : Nat :=
  if unitActive s (domUnit n) && !(n < 256 && !clusterActive s (n / 8)) && !(292 ≤ n && n < 308 && stackLost s (n - 292)) then
    (getDom s n).st
  else 0

/-- How long the unit needs from a GT before it can start: R42, R302 and R421, in units of GT. -/
def wakeLeft (s : State) (n t : Nat) : Nat :=
  let d := getDom s n
  match domState s n with
  | 1 => nsT (wakeNs n) + (d.since + nsT (entryNs n) - t)
  | 2 => nsT (wakeNs n)
  | 3 => d.since + nsT (wakeNs n) - t
  | _ => 0

/-- Begin a wake (R42, R419); during an entry it begins at the entry's end (R421). Counts as `cnt`. -/
def beginWake (n cnt : Nat) (s : State) : State :=
  let d := getDom s n
  match domState s n with
  | 2 => incCnt (cntPwr cnt) (putDom n { d with st := 3, wakes := min (d.wakes + 1) (2 ^ 24 - 1), gtNs := nowNs s, since := now s, retried := false } s)
  | 1 => if d.want then s else incCnt (cntPwr cnt) (putDom n { d with want := true } s)
  | _ => s

end Sys2Proof.Machine
end

