-- ==== Sys2Proof/Machine/Recorder.lean ====
section
/-! DEFINITION. The event recorder's occurrences, the global freeze and the fault log (R413, R459,
R460, R466 to R470). -/

namespace Sys2Proof.Machine

/-! ### CRC-32C -/

/-- One byte into a reflected CRC-32C register, polynomial 0x82F6_3B78. -/
def crcByte (c : Nat) (b : Byte) : Nat :=
  (List.range 8).foldl (fun r _ => if r % 2 == 1 then (r / 2) ^^^ 0x82F63B78 else r / 2) (c ^^^ b.toNat)

/-- CRC-32C with the register initialised to `init` and the result complemented (R228). -/
def crc32cFrom (init : Nat) (bs : Bytes) : Nat := bs.foldl crcByte init ^^^ 0xFFFFFFFF

def crc32c (bs : Bytes) : Nat := crc32cFrom 0xFFFFFFFF bs

/-! ### Events (R467, R468) -/

/-- The class of a fault code (R392). -/
def faultClass (code : Nat) : Nat :=
  match code with
  | 0x07 | 0x08 | 0x52 | 0x54 => 3
  | 0x21 | 0x32 | 0x40 | 0x41 | 0x50 | 0x57 => 2
  | 0x33 | 0x55 => 4
  | _ => 1

/-- The histogram base of a code (R468). -/
def histBase (code : Nat) : Nat :=
  match code with
  | 0x1002 | 0x1005 | 0x1008 => 1000
  | _ => 1

/-- The histogram bin of a VALUE (R468). -/
def histBin (base : Nat) (v : Int) : Nat :=
  if v < (base : Int) then 0
  else ((List.range 6).find? (fun k => decide (v < ((base * 4 ^ (k + 1) : Nat) : Int)))).elim 7 (· + 1)

/-- A signed 64-bit sum that saturates (R469). -/
def satSum (i : Int) : Int :=
  if i < -(2 ^ 63 : Int) then -(2 ^ 63) else if (2 ^ 63 - 1 : Int) < i then 2 ^ 63 - 1 else i

/-- The MRAM slot of a sequence number: the first area, or the second (R466). -/
def mramSlot (seq : Nat) : Nat := if seq < 2048 then seq else 2048 + seq % 2048

/-- Write a record to MRAM, or hold the write back under R472. -/
def mramWrite (r : EvRec) (e : Recorder) : Recorder :=
  match e.hold with
  | some _ => { e with waiting := e.waiting.filter (fun w => w.seq != r.seq) ++ [r] }
  | none => { e with mram := mapSet (mramSlot r.seq) r e.mram }

/-- Close a code's open record and write it (R467). -/
def closeRec (code : Nat) (e : Recorder) : Recorder :=
  match mapGet code e.opened with
  | none => e
  | some r => mramWrite { r with open_ := false } { e with opened := mapDel code e.opened }

def foldRec (r : EvRec) (t : Nat) (u : UnitCode) (v : Int) (str : Bool) (op : Nat) : EvRec :=
  let k := histBin r.base v
  let top := 2 ^ 64 - 1
  { r with
    stretched := r.stretched || str
    saturated := r.saturated || r.count == top || r.hist.getD k 0 == top
    lastGt := t
    count := min (r.count + 1) top
    lastUnit := u
    min_ := min r.min_ v
    max_ := max r.max_ v
    sum := satSum (r.sum + v)
    hist := listSet r.hist k (min (r.hist.getD k 0 + 1) top)
    lastOp := op }

/-- An occurrence of a code opens its record or folds into it; the open record is written when it
opens (R467). -/
def event (code : Nat) (u : UnitCode) (v : Int) (layer op : W16) (detail : Bytes) (s : State) : State :=
  let t := nowNs s
  let str := unitStretched s u
  let w := op.toNat + 65536 * layer.toNat
  let s := incCnt (cntObs 6) s
  let e := s.recorder
  let e := match mapGet code e.opened with
    | some r => if r.endGt ≤ t then closeRec code e else e
    | none => e
  match mapGet code e.opened with
  | some r => { s with recorder := { e with opened := mapSet code (foldRec r t u v str w) e.opened } }
  | none =>
    let b := histBase code
    let r : EvRec :=
      { code := code, open_ := true, stretched := str, cut := false, saturated := false, seq := e.written % 2 ^ 32,
        boot := e.boot, firstGt := t, lastGt := t, endGt := t + regF s 0x500000 0 15 0 * 1000000, count := 1,
        firstUnit := u, lastUnit := u, min_ := v, max_ := v, sum := satSum v,
        hist := listSet (List.replicate 8 0) (histBin b v) 1, base := b, firstOp := w, lastOp := w,
        detail := detail }
    let e := mramWrite r { e with opened := mapSet code r e.opened, written := (e.written + 1) % 2 ^ 32 }
    incCnt (cntObs 7) { s with recorder := e }

/-- A device event of R468, which names no command. -/
def devEvent (code : Nat) (u : UnitCode) (v : Int) (s : State) : State := event code u v 0 0 [] s

/-- A signed value's 8 bytes. -/
def i64 (v : Int) : Bytes := toLE 8 (unsignedOf 64 v)

/-- A record's 256 bytes (R469). -/
def evBytes (r : EvRec) : Bytes :=
  let body :=
    toLE 2 r.code ++ toLE 2 (b2n r.open_ + 2 * b2n r.stretched + 4 * b2n r.cut + 8 * b2n r.saturated) ++
    toLE 4 r.seq ++ toLE 4 r.boot ++ toLE 4 0 ++ toLE 8 r.firstGt ++ toLE 8 r.lastGt ++ toLE 8 r.endGt ++
    toLE 8 r.count ++ toLE 2 r.firstUnit.toNat ++ toLE 2 r.lastUnit.toNat ++ toLE 4 0 ++ i64 r.min_ ++ i64 r.max_ ++
    i64 r.sum ++ (r.hist.map (toLE 8)).flatten ++ toLE 8 r.base ++ toLE 4 r.firstOp ++ toLE 4 r.lastOp ++
    (r.detail ++ List.replicate 64 0).take 64 ++ List.replicate 28 0
  body ++ toLE 4 (crc32c body)

/-- EVR_OLDEST. -/
def evrOldest (s : State) : Nat := max 2048 (s.recorder.written - 2048)

/-- The record with a sequence number that readers see: an open one as it stands, then one whose write is held back
(DESIGN CHOICE, log 124), else from MRAM. -/
def evrGet (e : Recorder) (seq : Nat) : Option EvRec :=
  match (e.opened.map (·.2) ++ e.waiting).find? (fun r => r.seq == seq) with
  | some r => some r
  | none =>
    match mapGet (mramSlot seq) e.mram with
    | some r => if r.seq == seq then some r else none
    | none => none

/-- End a hold: the suspended writes are made in SEQ order (R472). -/
def endHold (s : State) : State :=
  let e := s.recorder
  let ws := sortBy (fun a b => decide (a.seq < b.seq)) e.waiting
  { s with recorder := ws.foldl (fun e r => mramWrite r e) { e with hold := none, waiting := [] } }

/-- The start-up closing of records left open (R470). -/
def cutRecords (s : State) : State :=
  let e := s.recorder
  let left := e.mram.any (fun p => p.2.open_)
  let e := { e with mram := e.mram.map (fun p => if p.2.open_ then (p.1, { p.2 with open_ := false, cut := true }) else p),
                    opened := [], waiting := [], hold := none, boot := (e.boot + 1) % 2 ^ 32 }
  let s := { s with recorder := e }
  if left then setSticky 0x500004 0 2 s else s

/-- Stage 9 ends: SERVING, with its edge and event COLD_START (R427, R428, R468). -/
def beginServing (s : State) : State :=
  devEvent 0x1008 ucPackage (nowNs s / 1000000 : Nat) (setRegQ 0x600008 0 (nowNs s) (setRegF 0x600000 0 2 0 5 s))

/-! ### The global freeze (R459, R460) -/

def slowDoms (s : State) : List Nat := (List.range 337).filter (domSlow s)

/-- Note the domains whose clocks are stretched or gated now, before a change (R47). -/
def markStretch (s : State) : State :=
  { s with freeze := { s.freeze with until_ := (slowDoms s).foldl (fun m k => mapSet k (now s) m) s.freeze.until_ } }

/-- Note them for the next snapshot's header. -/
def noteStretch (s : State) : State :=
  { s with freeze := { s.freeze with seen := (slowDoms s).foldl (fun m k => setIns k m) s.freeze.seen } }

/-- The descriptors that hold the snapshot lock: COUNTER_SNAPSHOTs from acceptance to completion (R460). -/
def snapLocks (s : State) : List Desc := s.host.inbox.filter (fun d => d.bytes.head? == some 7) ++ s.host.snapReads

/-- A freeze by the sources of a mask on this edge: it samples the counters as they stood at the edge, since what is counted
at the freeze's GT belongs to the next interval (R44). Sources that fire on one edge make a single
freeze. A lock taken at an earlier edge makes it lost. The answer says whether it was taken. -/
def takeFreeze (sources : Nat) (out : Bool) (s : State) : Bool × State :=
  let f := s.freeze
  if f.seq != 0 && f.gt == now s then
    (true, { s with freeze := { f with sources := f.sources ||| sources,
                                       out := if out then some (now s + nsT 100) else f.out } })
  else if (snapLocks s).any (fun d => d.stampNs != nowNs s) then (false, incCnt (cntObs 3) s)
  else
    let s := noteStretch s
    let f := s.freeze
    let s := { s with
      snaps := f.edge
      freeze := { f with
        seq := (f.seq + 1) % 2 ^ 32, gt := now s, prev := f.gt, sources := sources,
        closed := f.seen, seen := slowDoms s,
        out := if out || bit (regW s 0x400040 0) 1 then some (now s + nsT 100) else f.out } }
    (true, devEvent 0x100B ucPackage sources (incCnt (cntObs 2) s))

/-! ### The fault log (R413) -/

/-- The actions of R413. -/
structure FaultAct where
  act : Nat
  windthrow : Bool
  partners : List (UnitCode × Nat)
  deriving DecidableEq, Repr

def FaultAct.plain (a : Nat) : FaultAct := { act := a, windthrow := false, partners := [] }

/-- The action that a code's own mechanism has taken when its report arrives (R390; DEDUCED, log 15). -/
def actOfCode (code : Nat) : Nat :=
  match code with
  | 0x01 | 0x02 | 0x06 => 2
  | 0x03 | 0x04 | 0x05 => 3
  | 0x0A => 2
  | 0x0B | 0x10 | 0x11 | 0x20 => 1
  | 0x21 => 6
  | 0x40 => 7
  | 0x50 => 4
  | 0x51 => 5
  | 0x52 => 9
  | 0x55 => 8
  | _ => 0

/-- The 64 bytes of a fault record. -/
def faultBytes (r : Report) (a : FaultAct) : Bytes :=
  let head :=
    toLE 2 r.code.toNat ++ toLE 2 r.suspect.toNat ++ toLE 2 r.alt.toNat ++ toLE 2 r.reporter.toNat ++
    toLE 6 r.gtNs.toNat ++ toLE 1 (r.sub.toNat + 64 * b2n r.stretched + 128 * b2n a.windthrow) ++
    toLE 1 (faultClass r.code.toNat + 16 * a.act) ++ toLE 2 r.layer.toNat ++ toLE 2 r.op.toNat ++
    toLE 4 r.value.toNat ++ toLE 2 (min r.count 65535) ++ toLE 2 (min r.reporters 65535) ++ toLE 4 0
  let parts := ((a.partners.take 8).map (fun p => toLE 2 p.1.toNat ++ toLE 2 (min p.2 65535))).flatten
  head ++ (parts ++ List.replicate 32 0).take 32

/-- Write a fault record: into the log, as a FAULT trace record, to the event recorder, and as a
freeze source when its class is enabled. -/
def faultRecord (r : Report) (a : FaultAct) (s : State) : State :=
  let bs := faultBytes r a
  let c := s.canopy
  let s := { s with canopy := { c with log := mapSet (c.logWritten % 1024) bs c.log, logWritten := (c.logWritten + 1) % 2 ^ 32 } }
  let s := incCnt (cntFlt 1) s
  let s := emitTrace 0x08 ucPackage r.layer r.op (r.code.toNat + 2 ^ 16 * r.suspect.toNat + 2 ^ 32 * r.alt.toNat) s
  let s := event r.code.toNat r.suspect r.value.toNat r.layer r.op bs s
  if bit (regW s 0x400040 0) (3 + faultClass r.code.toNat) then (takeFreeze 8 false s).2 else s

end Sys2Proof.Machine
end

