-- ==== Sys2Proof/Machine/HostOps.lean ====
section
/-! DEFINITION. Operations of the host interface that other units use: host writes, interrupts,
HIF_SEM, launch tables, descriptors and completions (R330, R334 to R346, R38 to R40). -/

namespace Sys2Proof.Machine

/-! ### Status codes (R8) -/

def stOk : Nat := 0
def stShed : Nat := 1
def stBusy : Nat := 2
def stCapacity : Nat := 3
def stFormat : Nat := 4
def stSignature : Nat := 5
def stProtection : Nat := 6
def stPoison : Nat := 7
def stNotFound : Nat := 8
def stNoRoom : Nat := 9
def stLate : Nat := 10
def stStale : Nat := 11
def stSemHeld : Nat := 12

/-! ### Ports -/

def getPort (s : State) (p : HPort) : PortState := famGet PortState.reset s.host.ports (portIx p)
def setPort (p : HPort) (x : PortState) (s : State) : State :=
  { s with host := { s.host with ports := famSet s.host.ports (portIx p) x } }
def modPort (p : HPort) (f : PortState → PortState) (s : State) : State := setPort p (f (getPort s p)) s

def otherPort (p : HPort) : HPort :=
  match p with
  | .h0 => .h1
  | .h1 => .h0

def portDie (p : HPort) : NDie :=
  match p with
  | .h0 => .n0
  | .h1 => .n1

/-- Bytes that the device writes to a port's host memory; zeros are recorded too. -/
def hostWrite (p : HPort) (a : Nat) (bs : Bytes) (s : State) : State :=
  let cells := (List.range bs.length).zipWith (fun i b => (a + i, b)) bs
  modPort p (fun x => { x with written := x.written.filter (fun c => decide (c.1 < a)) ++ cells ++ x.written.filter (fun c => decide (a + bs.length ≤ c.1)) }) s

/-- An MSI-X message. -/
def sendIrq (p : HPort) (v : Nat) (s : State) : State :=
  modPort p (fun x => { x with irqs := mapSet v (mapGetD 0 v x.irqs + 1) x.irqs }) s

/-- Set a bit of the port's HIF_EVENT, which raises vector 0. -/
def hifEvent (p : HPort) (b : Nat) (s : State) : State := sendIrq p 0 (setSticky 0x210 (portIx p) b s)

/-! ### HIF_SEM (R334 to R336) -/

/-- The port holds HIF_SEM: the lease is half-open (R44, R334). -/
def holdsSem (s : State) (p : HPort) : Bool := s.host.sem.owner == some p && decide (now s < s.host.sem.leaseEnd)

/-- A discarded RWS write of a port (R336). -/
def discardRws (p : HPort) (off : Nat) (s : State) : State :=
  let i := portIx p
  let s :=
    if regF s 0x200 i 0 0 == 1 then s
    else setRegF 0x204 i 23 0 off (setRegF 0x200 i 15 8 stSemHeld (setSticky 0x200 i 0 s))
  hifEvent p 0 (incCnt (cntDiscard i) s)

/-! ### Launch tables (R38 to R40) -/

/-- The lowest free index of a die's launch table, none when it is full. -/
def freeIx (s : State) (die : Nat) : Option Nat :=
  (List.range' 1 1023).find? (fun i => (mapGet (1024 * die + i) s.host.launch).isNone)

/-- Take an entry on each die for a launch time; none when a die's table is full. -/
def allocLaunch (dies : List Nat) (gtNs : Nat) (s : State) : Option (List Nat × State) :=
  dies.foldl (fun acc d =>
    match acc with
    | none => none
    | some (es, s) =>
      match freeIx s d with
      | none => none
      | some i => some (es ++ [1024 * d + i],
          { s with host := { s.host with launch := mapSet (1024 * d + i) gtNs s.host.launch } })) (some ([], s))

def freeLaunch (es : List Nat) (s : State) : State :=
  { s with host := { s.host with launch := s.host.launch.filter (fun p => !es.contains p.1) } }

/-- Free the entries of an item that ends or moves before its launch edge; at the edge they are free already (R40). -/
def dropLaunch (due : Nat) (es : List Nat) (s : State) : State := if now s < due then freeLaunch es s else s

/-- An edge frees the entries whose launch edge it is (R38, R40). -/
def edgeLaunches (s : State) : State :=
  { s with host := { s.host with launch := s.host.launch.filter (fun p => decide (now s < nsT p.2)) } }

/-- The edge from which an item starts, in GT units: at once without a LAUNCH_GT, the first edge after
acceptance when it has passed, else its launch edge (R38, R39). -/
def dueOf (s : State) (gtNs : Nat) : Nat :=
  if gtNs == 0 then 0 else if nsT gtNs ≤ now s then now s + 1 else nsT gtNs

/-- Count an accepted item whose launch time has passed (R39). -/
def notePast (gtNs : Nat) (s : State) : State :=
  if gtNs != 0 && nsT gtNs ≤ now s then incCnt cntPast s else s

/-- A launch time more than 60 s beyond acceptance (R39). -/
def tooFar (s : State) (gtNs : Nat) : Bool := decide (now s + nsT 60000000000 < nsT gtNs)

/-! ### Descriptors (R343) -/

def dNum (d : Desc) (off n : Nat) : Nat := leNat ((d.bytes.drop off).take n)
def dOp (d : Desc) : Nat := dNum d 0 1
def dTag (d : Desc) : Nat := dNum d 2 2
def dQuiet (d : Desc) : Bool := bit (dNum d 1 1) 1
def dLaunch (d : Desc) : Nat := dNum d 8 8

def sqOff (p : HPort) (i r : Nat) : Nat := 0x10000 + 0x10000 * portIx p + 0x20 * i + r
def cqOff (p : HPort) (i r : Nat) : Nat := 0x10800 + 0x10000 * portIx p + 0x20 * i + r

def getSq (s : State) (p : HPort) (i : Nat) : Sq := mapGetD Sq.reset i (getPort s p).sqs
def setSq (p : HPort) (i : Nat) (q : Sq) (s : State) : State := modPort p (fun x => { x with sqs := mapSetD Sq.reset i q x.sqs }) s
def getCq (s : State) (p : HPort) (i : Nat) : Cq := mapGetD Cq.reset i (getPort s p).cqs
def setCq (p : HPort) (i : Nat) (q : Cq) (s : State) : State := modPort p (fun x => { x with cqs := mapSetD Cq.reset i q x.cqs }) s

/-- The completion ring of a submission ring. -/
def cqOf (s : State) (p : HPort) (i : Nat) : Nat := regF s (sqOff p i 8) 0 11 6
def sqSize (s : State) (p : HPort) (i : Nat) : Nat := 2 ^ regF s (sqOff p i 8) 0 4 0
def cqSize (s : State) (p : HPort) (i : Nat) : Nat := 2 ^ regF s (cqOff p i 8) 0 4 0

/-- The interrupt of a completion ring, when its count or its first completion asks for it (R345). -/
def cqSignal (p : HPort) (i : Nat) (s : State) : State :=
  let cfg := regW s (cqOff p i 8) 0
  let q := getCq s p i
  let v := bits cfg 13 6
  if v == 0 then s
  else if max 1 (bits cfg 19 14) ≤ q.unsignalled then
    sendIrq p v (setCq p i { q with unsignalled := 0, since := none } s)
  else s

/-- A completion's 16 bytes (R345). -/
def compBytes (tag status : Nat) (phase : Bool) (head sq prot result : Nat) : Bytes :=
  toLE 2 tag ++ toLE 1 status ++ toLE 1 (b2n phase) ++ toLE 2 head ++ toLE 1 sq ++ toLE 1 prot ++ toLE 8 result

/-- Write a completion and end a descriptor. After a reset of its port the completion is discarded
(R330); a QUIET descriptor that ends OK writes none (R343). -/
def completeRaw (p : HPort) (ring : Nat) (tag : Nat) (quiet : Bool) (prot status result : Nat) (s : State) : State :=
  let q := getSq s p ring
  let s := setSq p ring { q with inflight := q.inflight - 1 } s
  let ci := cqOf s p ring
  let c := getCq s p ci
  let c := { c with reserved := c.reserved - 1 }
  if (quiet && status == stOk) || !bit (regW s (cqOff p ci 8) 0) 5 then setCq p ci c s
  else
    let s := hostWrite p (regQ s (cqOff p ci 0) 0 + 16 * c.tail) (compBytes tag status c.phase q.head ring prot result) s
    let wrap := c.tail + 1 == cqSize s p ci
    let c := { c with
      tail := if wrap then 0 else c.tail + 1
      phase := if wrap then !c.phase else c.phase
      unconsumed := c.unconsumed + 1
      unsignalled := c.unsignalled + 1
      since := if c.since.isNone then some (now s) else c.since }
    cqSignal p ci (setCq p ci c s)

/-- End an accepted descriptor with a status and a RESULT. -/
def complete (d : Desc) (status result : Nat) (s : State) : State :=
  let s := dropLaunch d.due d.entries s
  if d.era != (getPort s d.port).era then hifEvent d.port 4 s
  else completeRaw d.port d.ring.val (dTag d) (dQuiet d) d.protGen status result s

/-- End an accepted descriptor with a status for which no rule names the RESULT: a free value (DESIGN CHOICE, log 3). -/
def completeBare (d : Desc) (status : Nat) (s : State) : State :=
  let (v, s) := drawFree s
  complete d status v s

/-- A host write for a descriptor; after a reset of its port it is discarded (R330). -/
def descWrite (d : Desc) (a : Nat) (bs : Bytes) (s : State) : State :=
  if d.era != (getPort s d.port).era then s else hostWrite d.port a bs s

/-- Where an accepted item stands in the order of acceptance, as a number: by its stamp, H0 before H1 and the lower ring first
where stamps are equal, then as it came (R342). -/
def acceptKey (ns sub port ring n : Nat) : Nat := (((ns * 64 + sub % 64) * 2 + port % 2) * 64 + ring % 64) * 2 ^ 64 + n

/-- The number of an item accepted now that carries no SUB: behind the descriptors of this nanosecond (DESIGN CHOICE, log 116). -/
def acceptNow (s : State) : Nat × State :=
  (acceptKey (nowNs s) 63 1 63 s.host.accepted, { s with host := { s.host with accepted := s.host.accepted + 1 } })

/-- The inbox with a descriptor in its place. -/
def inboxPut (d : Desc) (l : List Desc) : List Desc :=
  l.filter (fun x => decide (x.seq ≤ d.seq)) ++ [d] ++ l.filter (fun x => decide (d.seq < x.seq))

/-- Freezes, configuration changes, slot switches or protection windows whose launch edge has come and that have not acted:
what starts at the same edge waits for them (R41). -/
def edgeOwed (s : State) : Bool :=
  let come (t : Nat) : Bool := t != 0 && decide (t ≤ now s)
  let held (k : SchedKind) : Bool :=
    match k with
    | .activate sl => (famGet Slot.empty s.slots sl.val).reload
    | _ => false
  s.host.sched.any (fun x => come x.desc.due && !held x.kind) || s.host.protPending.any (fun c => come c.due) ||
    s.host.inbox.any (fun d => [2, 3, 8].contains (dOp d) && come d.due)

/-- A descriptor's launch edge has come, and what goes ahead of it there has acted; one without a LAUNCH_GT starts at once
(R38, R39, R41). -/
def descDue (s : State) (d : Desc) : Bool := d.due == 0 || (decide (d.due ≤ now s) && !edgeOwed s)

/-- The oldest accepted descriptor that a test picks and that may start; it leaves the inbox. -/
def takeDesc (test : Desc → Bool) (s : State) : Option (Desc × State) :=
  match takeFirst (fun d => test d && descDue s d) s.host.inbox with
  | some (d, rest) => some (d, { s with host := { s.host with inbox := rest } })
  | none => none

/-- The same, whether or not the launch edge has come: for a unit that schedules it. -/
def takeDescAny (test : Desc → Bool) (s : State) : Option (Desc × State) :=
  match takeFirst test s.host.inbox with
  | some (d, rest) => some (d, { s with host := { s.host with inbox := rest } })
  | none => none

/-! ### The configuration's fields (R360) -/

def cfgField (s : State) (id dflt : Nat) : Nat := mapGetD dflt id s.host.cfg.fields
/-- The numerics mode in force (R74). -/
def numericsMode (s : State) : Nat := cfgField s 4 0

end Sys2Proof.Machine
end

