-- ==== Sys2Proof/Machine/Rows.lean ====
section
/-! DEFINITION. Table descriptors, the places of a table's rows and buckets, and what a host may not write (R222 to R225, R242). -/

namespace Sys2Proof.Machine

/-! ### Table descriptors (R222 to R225) -/

def decodeDesc (bs : Bytes) : TblDesc :=
  let w := leNat (bs.take 4)
  let f (o n : Nat) : Nat := leNat ((bs.drop o).take n)
  { table := bits w 7 0, kind := bits w 11 8, blog := bits w 16 12, maxKick := bits w 23 17,
    fmt := bits w 27 24, gsize := bits w 29 28, seed0 := f 4 4, seed1 := f 8 4, rowLen := f 12 4 % 2048,
    bucketBase := f 16 8, rowBase := f 24 8, rowLimit := f 32 4, default_ := f 36 4, agePeriod := f 40 4 }

/-- The blocks of a row and its stride T (R62, R209, R225). -/
def rowFmt (d : TblDesc) : Option (ElemFmt × Nat) :=
  match elemFmt d.fmt, gOf d.gsize with
  | some f, some g => some (f, g)
  | _, _ => none
def rowBlocks (d : TblDesc) (g : Nat) : Nat := (d.rowLen + g - 1) / g
def rowSize (d : TblDesc) : Nat :=
  match rowFmt d with
  | some (f, g) => rowBlocks d g * blockBytes f g
  | none => 0
def rowT (d : TblDesc) : Nat := if d.kind == 1 then 128 else (rowSize d + 63) / 64 * 64
/-- The DPA of row r. -/
def rowAddr (d : TblDesc) (r : Nat) : Nat :=
  if d.kind == 1 then d.rowBase + 128 * r
  else
    let q := 4096 / rowT d
    d.rowBase + 4096 * (r / q) + rowT d * (r % q)
/-- Bytes of the row area and of the bucket area. -/
def rowAreaBytes (d : TblDesc) : Nat :=
  if d.kind == 1 then 128 * d.rowLimit else rowAddr d (d.rowLimit - 1) + rowT d - d.rowBase
def bucketAreaBytes (d : TblDesc) : Nat := 64 * 2 ^ d.blog

/-! ### What a host may not write (R242) -/

/-- A line of a table's bucket area, which accepts writes from the table writer alone (R242). -/
def bucketLine (d : TblDesc) (l : Nat) : Bool := decide (d.bucketBase ≤ 64 * l) && decide (64 * l < d.bucketBase + 64 * 2 ^ d.blog)
def refd (x : Tbl) (row : Nat) : Bool := mapGetD 0 row x.refs != 0

/-- The table that rejects a host write of a line: any table's bucket area, or a referenced row of an
EMBED table (R242). -/
def rejectsHostWrite (s : State) (l : Nat) : Option Nat :=
  (s.tbl.tables.find? (fun p =>
    let d := p.2.desc
    let a := 64 * l
    bucketLine d l ||
      (d.kind == 0 && decide (d.rowBase ≤ a) && decide (a < d.rowBase + rowAreaBytes d) &&
        (let q := 4096 / rowT d
         let u := (a - d.rowBase) / 4096
         let r := (a - d.rowBase) % 4096 / rowT d
         decide (r < q) && refd p.2 (q * u + r))))).map (·.1)

end Sys2Proof.Machine
end

