-- ==== Sys2Proof/Machine/Stacks.lean ====
section
/-! DEFINITION. The memory stacks: the address map, guarded and regenerable stripes, degraded reads,
the rebuild into the clearing, scrubbing and the loss of a stack (R183 to R205). -/

namespace Sys2Proof.Machine

/-! ### The field of Q (R189) -/

/-- Product in GF(2^8) with polynomial 0x11D. -/
def gfMul (a b : Nat) : Nat :=
  ((List.range 8).foldl (fun (p : Nat × Nat) i =>
    (if b.testBit i then p.1 ^^^ p.2 else p.1,
     if 128 ≤ p.2 then ((2 * p.2) ^^^ 0x11D) % 256 else 2 * p.2)) (0, a)).1

def gfPow (s : Nat) : Nat := (List.range s).foldl (fun a _ => gfMul a 2) 1

/-- The inverse, a^254. -/
def gfInv (a : Nat) : Nat := (List.range 253).foldl (fun r _ => gfMul r a) a

def xorLine (a b : Bytes) : Bytes := (a.zip b).map (fun p => p.1 ^^^ p.2)
def mulLine (c : Nat) (a : Bytes) : Bytes := a.map (fun b => BitVec.ofNat 8 (gfMul c b.toNat))
def zeroLine : Bytes := List.replicate 64 0

/-- The 64 bytes of a line whose content the manual leaves open (DESIGN CHOICE, log 3). -/
def drawLine (s : State) : Bytes × State :=
  let (v, s) := drawFree s
  (toLE 64 v, s)

/-! ### The address map (R187, R188) -/

/-- Lines that DPAs name: 3328 GiB over 64. -/
def dpaLines : Nat := 55834574848
def stripeCount : Nat := 67108864

def lineStripe (l : Nat) : Nat := l / 64 / 13
def lineSlot (l : Nat) : Nat := l / 64 % 13
/-- The line's index in its unit. -/
def lineIx (l : Nat) : Nat := l % 64

/-- The stack of a slot of stripe t. -/
def slotStack (t x : Nat) : Nat := (t % 16 + x) % 16
/-- The key of line k of stripe t on a stack. -/
def lineKey (st t k : Nat) : Nat := st * 2 ^ 32 + 64 * t + k
def keyStack (key : Nat) : Nat := key / 2 ^ 32

/-- The region that covers a stripe, and its kind; 0 is FREE (R191). -/
def regionOf (s : State) (t : Nat) : Option Region :=
  (s.dsm.regions.find? (fun p => decide (p.2.first ≤ t) && decide (t < p.2.first + p.2.count))).map (·.2)
def kindOf (s : State) (t : Nat) : Nat := ((regionOf s t).map (·.kind)).getD 0
def regenKind (k : Nat) : Bool := k == 2 || k == 3 || k == 4

/-- Whether line k of slot x has moved into the clearing unit (R202). -/
def moved (s : State) (t x k : Nat) : Bool :=
  x != 13 && s.dsm.st != 0 && slotStack t x == s.dsm.firstLost &&
    s.dsm.reloc.contains (lineKey (slotStack t 13) t k)

/-- Where line k of slot x lies; none when its unit is absent. -/
def place (s : State) (t x k : Nat) : Option Nat :=
  if !stackLost s (slotStack t x) then some (lineKey (slotStack t x) t k)
  else if moved s t x k && !stackLost s (slotStack t 13) then some (lineKey (slotStack t 13) t k)
  else none

/-- A slot's coefficient in Q (R189, R202). -/
def coefOf (s : State) (t x k : Nat) : Nat := gfPow (if moved s t x k then 13 else x)

/-- The stripe's home (R194, R202): the stack of P, else the stack of Q. -/
def homeOf (s : State) (t k : Nat) : Nat :=
  match place s t 14 k with
  | some key => keyStack key
  | none => (place s t 15 k).elim (slotStack t 15) keyStack

/-! ### Lines -/

def rawLine (s : State) (key : Nat) : Bytes := ramRead s.dsm.cells (64 * key) 64
def setRaw (key : Nat) (bs : Bytes) (s : State) : State :=
  { s with dsm := { s.dsm with cells := ramWrite s.dsm.cells (64 * key) bs, flaws := mapDel key s.dsm.flaws } }
def setPoisonKey (key : Nat) (p : Bool) (s : State) : State :=
  { s with dsm := { s.dsm with poison := setPut p key s.dsm.poison } }

/-- A line of a stack cannot be read: its code finds more than it corrects (R184). -/
def torn (s : State) (key : Nat) : Bool := mapGet key s.dsm.flaws == some .uncorrectable

/-- The readable content of line k of slot x: absent and uncorrectable lines have none (R199). -/
def unitLine (s : State) (t k : Nat) (x : Nat) : Option Bytes :=
  match place s t x k with
  | some key => if torn s key then none else some (rawLine s key)
  | none => none

/-- Line k of slot x from the other units of a guarded stripe (R198): by P, by Q, or by both for two
units. -/
def reconstruct (s : State) (t k : Nat) (x : Nat) : Option Bytes :=
  let data := List.range 13
  let unit (y : Nat) : Option Bytes := if y == x then none else unitLine s t k y
  let absent := data.filter (fun d => (unit d).isNone)
  let sumP := data.foldl (fun a d => xorLine a ((unit d).getD zeroLine)) zeroLine
  let sumQ := data.foldl (fun a d =>
    match unit d with
    | some v => xorLine a (mulLine (coefOf s t d k) v)
    | none => a) zeroLine
  let p := unit 14
  let q := unit 15
  let one (y : Nat) : Option Bytes :=
    match p, q with
    | some p, _ => some (xorLine p sumP)
    | none, some q => some (mulLine (gfInv (coefOf s t y k)) (xorLine q sumQ))
    | none, none => none
  match absent with
  | [] => if x == 14 then some sumP else if x == 15 then some sumQ else none
  | [y] =>
    match one y with
    | none => none
    | some v =>
      if x == 14 then (if p.isNone then some (xorLine sumP v) else none)
      else if x == 15 then some (xorLine sumQ (mulLine (coefOf s t y k) v))
      else some v
  | [y, z] =>
    match p, q with
    | some p, some q =>
      let o := if y == x then z else y
      let a := xorLine p sumP
      let b := xorLine q sumQ
      let cx := coefOf s t x k
      let co := coefOf s t o k
      if x < 13 then some (mulLine (gfInv (cx ^^^ co)) (xorLine b (mulLine co a))) else none
    | _, _ => none
  | _ => none

/-! ### The loss of a stack (R197, R205) -/

def getNlu (s : State) (u : Nat) : Nlu := mapGetD Nlu.empty u s.nlus
def setNlu (u : Nat) (x : Nlu) (s : State) : State := { s with nlus := mapSetD Nlu.empty u x s.nlus }

/-- A lost stack's NLUs stop; the reams whose work they hold relaunch (R404). -/
def stopNlus (st : Nat) (s : State) : State :=
  (List.range 4).foldl (fun s i =>
    let u := 4 * st + i
    let x := getNlu s u
    let reams := x.coal.map (·.ream) ++ x.fwd.map (·.ream) ++ x.held.map (·.ream)
    setNlu u Nlu.empty (reams.foldl (fun s r => markRelaunch r s) s)) s

/-- Declare a stack lost (R197, R205). -/
def declareLost (st : StackId) (retired : Bool) (cause : Nat) (s : State) : State :=
  if stackLost s st.val then s
  else
    let d := s.dsm
    let lost := setIns st.val d.lost
    let first := d.st == 0
    let st' := if 3 ≤ lost.length then 4 else if first then 1 else if d.st == 2 then 3 else d.st
    let s := { s with dsm := { d with
      lost := lost
      retired := if retired then setIns st.val d.retired else d.retired
      st := st'
      firstLost := if first then st.val else d.firstLost
      next := if first then 0 else d.next
      started := if first then now s else d.started } }
    let s := setUnit (ucStack st) 2 (BitVec.ofNat 16 cause) (stopNlus st.val s)
    reportWith 0x21 (ucStack st) 0 (ucSpine (dieOfStack st)) 0 0 [cause] s

/-- An uncorrectable line of a stack (R184, R197): counted, seen, reported, and above the limit of its
1 s window the stack is lost. -/
def noteUe (st : StackId) (s : State) : State :=
  let w := nowNs s / 1000000000
  let (w0, n0) := mapGetD (w, 0) st.val s.dsm.ue
  let n := if w0 == w then n0 + 1 else 1
  let s := { s with dsm := { s.dsm with ue := mapSet st.val (w, n) s.dsm.ue } }
  let s := setSticky 0xE00024 st.val 3 (incCnt (cntStack st.val 1) s)
  let s := reportWith 0x20 (ucStack st) 0 (ucStack st) 0 0 [] s
  if regF s 0xE0000C 0 15 0 < n then declareLost st false 0x21 s else s

def stackFin (n : Nat) : StackId := ⟨n % 16, by omega⟩

/-- An access to a stack: it wakes the stack, and is noted (R419). How long it waits for the wake is timing. -/
def touchStack (st : Nat) (s : State) : State :=
  beginWake (domStack st) 1 { s with dsm := { s.dsm with used := mapSet st (now s) s.dsm.used } }

/-! ### Ownership of lines by NLUs (R206) -/

/-- The next surviving stack after a lost one. -/
def nextAlive (s : State) (st : Nat) : Option Nat :=
  ((List.range' 1 15).map (fun i => (st + i) % 16)).find? (fun j => !stackLost s j)

/-- The NLU that owns a line of the DPA space, with whether it reads it as a substitute. -/
def ownerOf (s : State) (l : Nat) : Option (Nat × Bool) :=
  let t := lineStripe l
  let st := slotStack t (lineSlot l)
  let u := (64 * t + lineIx l) % 32 / 8
  match place s t (lineSlot l) (lineIx l) with
  | some key => some (4 * keyStack key + u, false)
  | none => (nextAlive s st).map (fun j => (4 * j + u, true))

/-! ### Overhang (R217 to R219) -/

/-- The overhang unit that holds a line of the DPA space. -/
def ovhOf (s : State) (l : Nat) : Option (Nat × OvhUnit) :=
  s.overhang.units.find? (fun p => decide (p.2.dpa ≤ 64 * l) && decide (64 * l < p.2.dpa + 4096))

/-- What a port reads of a unit's copy; none for a failed read: the link is down, or the device has not written the copy whole. -/
def ovhCopy (s : State) (p : HPort) (a : Nat) : Option Bytes :=
  let x := getPort s p
  let cells := x.written.filter (fun c => decide (a ≤ c.1) && decide (c.1 < a + 4096))
  if x.linkUp && cells.length == 4096 then some (cells.map (·.2)) else none

/-- The attempts that a read of a unit may make, as its copies stand (R219). -/
def ovhAttempts (s : State) (o : OvhUnit) : List (Option Bytes) :=
  let c := ovhCopy s o.port o.addr
  [c, c] ++ (o.mirror.map (fun m => [ovhCopy s (otherPort o.port) m])).getD []

def ovhGood (o : OvhUnit) (a : Option Bytes) : Bool :=
  match a with
  | some bs => bs.length == 4096 && crc32c bs == o.crc.toNat
  | none => false

/-- A unit is read for an NLU: the attempts in order, each the 4 KiB that arrived or a failed read, two from the copy and one
from the mirror. The first that passes its CRC is delivered; after the last the unit is delivered poisoned (R219, R220). -/
def deliverUnit (u unit : Nat) (o : OvhUnit) (attempts : List (Option Bytes)) (s : State) : State :=
  let tried := attempts.take (if o.mirror.isSome then 3 else 2)
  let fails := (tried.takeWhile (fun a => !ovhGood o a)).length
  let s := incCnt (cntNlu u 5) (addCnt (cntNlu u 6) fails s)
  let put (x : Bytes × Bool) (s : State) : State := { s with overhang := { s.overhang with delivered := mapSet unit x s.overhang.delivered } }
  match tried.find? (ovhGood o) with
  | some (some bs) => put (bs, false) s
  | _ => put ([], true) (setSticky 0xC80004 u 11 s)

/-- A line of an overhang unit with POISON: as the unit was last delivered, or as its copies stand (DEDUCED, log 29). -/
def ovhLine (l unit : Nat) (o : OvhUnit) (s : State) : (Bytes × Bool) × State :=
  let s := if (mapGet unit s.overhang.delivered).isSome then s
    else deliverUnit (((ownerOf s l).map (·.1)).getD 0) unit o (ovhAttempts s o) s
  match mapGet unit s.overhang.delivered with
  | some (bs, false) => (((bs.drop (64 * l - o.dpa)).take 64, false), s)
  | _ =>
    let (v, s) := drawLine s
    ((v, true), s)

/-- Write bytes of a copy. The writes of a port whose link is down, or which has been reset since the descriptor that writes
was accepted, are discarded (R330). -/
def copyWrite (by_ : Option (HPort × Nat)) (p : HPort) (a : Nat) (bs : Bytes) (s : State) : State :=
  if by_.any (fun e => e.1 == p && e.2 != (getPort s p).era) then hifEvent p 4 s
  else if (getPort s p).linkUp then hostWrite p a bs s else s

/-- Write bytes at an offset of a unit into every copy (R218). -/
def copiesWrite (by_ : Option (HPort × Nat)) (o : OvhUnit) (off : Nat) (bs : Bytes) (s : State) : State :=
  let s := copyWrite by_ o.port (o.addr + off) bs s
  match o.mirror with
  | some m => copyWrite by_ (otherPort o.port) (m + off) bs s
  | none => s

/-- Write bytes of a unit, whose CRC is computed anew (R219). The unit's other bytes are as it is read; a unit that cannot be
read keeps its CRC, and so stays faulty (DEDUCED, log 29). -/
def ovhWrite (by_ : Option (HPort × Nat)) (unit : Nat) (o : OvhUnit) (off : Nat) (bs : Bytes) (s : State) : State :=
  let s := match (ovhAttempts s o).find? (ovhGood o) with
    | some (some old) =>
      let crc := crc32c (old.take off ++ bs ++ old.drop (off + bs.length))
      { s with overhang := { s.overhang with units := mapSet unit { o with crc := BitVec.ofNat 32 crc } s.overhang.units } }
    | _ => s
  copiesWrite by_ o off bs { s with overhang := { s.overhang with delivered := mapDel unit s.overhang.delivered } }

/-! ### Reads (R184, R193, R198, R199, R202) -/

/-- Errors that have come about in lines of the DPA space, which the stacks find when the lines are next read. -/
def putErrs (errs : List (Nat × LineErr)) (s : State) : State :=
  errs.foldl (fun s e =>
    match place s (lineStripe e.1) (lineSlot e.1) (lineIx e.1) with
    | some key => { s with dsm := { s.dsm with flaws := mapSet key e.2 s.dsm.flaws } }
    | none => s) s

/-- The stack reads a line: an error that it corrects is written back and counted, one that it cannot is counted and
reported (R184). -/
def findErr (key : Nat) (s : State) : State :=
  match mapGet key s.dsm.flaws with
  | none => s
  | some .corrected => incCnt (cntStack (keyStack key) 0) { s with dsm := { s.dsm with flaws := mapDel key s.dsm.flaws } }
  | some .uncorrectable => noteUe (stackFin (keyStack key)) s

/-- Line k of slot x by R198: the home reads the other units of the stripe, with Q where P or another unit is missing. -/
def readOthers (t k x : Nat) (s : State) : Option Bytes × State :=
  let read (s : State) (y : Nat) : State := if y == x then s else (place s t y k).elim s (fun key => findErr key (touchStack (keyStack key) s))
  let s := (List.range 13 ++ [14]).foldl read s
  let short := (List.range 13 ++ [14]).any (fun y => y != x && (unitLine s t k y).isNone) || x == 15
  let s := if short then read s 15 else s
  (reconstruct s t k x, s)

/-- Line k of slot x of a guarded stripe at its home: an absent unit by R198, counted for a data unit, and an uncorrectable
line reconstructed and written back (R199). -/
def readUnit (t k x : Nat) (s : State) : Option Bytes × State :=
  match place s t x k with
  | none =>
    let s := if x ≤ 12 then incCnt (cntStack (homeOf s t k) 3) s else s
    readOthers t k x s
  | some key =>
    let s := findErr key s
    if torn s key then
      match readOthers t k x s with
      | (some v, s) => (some v, incCnt (cntStack (keyStack key) 2) (setRaw key v s))
      | (none, s) => (none, s)
    else (some (rawLine s key), s)

/-- Read line l of the DPA space from its stack. The answer carries POISON. -/
def stackLine (l : Nat) (s : State) : (Bytes × Bool) × State :=
  let t := lineStripe l
  let d := lineSlot l
  let k := lineIx l
  let kind := kindOf s t
  let s := touchStack (slotStack t d) s
  let key := (place s t d k).getD (lineKey (slotStack t d) t k)
  let mark := s.dsm.poison.contains key
  if kind == 0 then ((zeroLine, false), s)
  else
    let (v, s) :=
      if kind == 1 then readUnit t k d s
      else match place s t d k with
        | some key =>
          let s := findErr key s
          (if torn s key then none else some (rawLine s key), s)
        | none => (none, s)
    match v with
    | some v => ((v, mark), s)
    | none =>
      let (v, s) := drawLine s
      ((v, true), s)

/-! ### The rebuild (R201 to R204) -/

/-- The rebuild runs: state REBUILDING. -/
def rebuilding (s : State) : Bool := s.dsm.st == 1

/-- The slot of stripe t on stack F. -/
def slotOnStack (t st : Nat) : Nat := (st + 16 - t % 16) % 16

/-- One line of a guarded stripe's step. -/
def rebuildLine (t x : Nat) (s : State) (k : Nat) : State :=
  match readOthers t k x s with
  | (none, s) => s
  | (some v, s) =>
    let clr := lineKey (slotStack t 13) t k
    let mark := s.dsm.poison.contains (lineKey (slotStack t x) t k)
    let (q, s) := if x ≤ 12 && (place s t 15 k).isSome then readUnit t k 15 s else (none, s)
    let s := setPoisonKey clr mark (setRaw clr v s)
    let s := { s with dsm := { s.dsm with reloc := setIns clr s.dsm.reloc } }
    match q, place s t 15 k with
    | some q, some key => setRaw key (xorLine q (mulLine (gfPow x ^^^ gfPow 13) v)) s
    | _, _ => s

/-- The step of R201 on stripe t. -/
def rebuildStripe (t : Nat) (s : State) : State :=
  let x := slotOnStack t s.dsm.firstLost
  let clr := slotStack t 13
  let home := homeOf s t 0
  let s := incCnt (cntStack home 6) s
  if x == 13 || stackLost s clr || s.dsm.reloc.contains (lineKey clr t 0) then s
  else if regenKind (kindOf s t) then
    (List.range 64).foldl (fun s k =>
      let key := lineKey clr t k
      { s with dsm := { s.dsm with reloc := setIns key s.dsm.reloc, poison := setIns key s.dsm.poison } }) s
  else
    let s := if x ≤ 12 && kindOf s t == 1 then addCnt (cntStack home 3) 64 s else s
    (List.range 64).foldl (rebuildLine t x) s

/-- REBUILD_STEP: the next stripe's step; after the last stripe the rebuild ends (R201, R204, R205). -/
def execRebuildStep (s : State) : Res :=
  if !rebuilding s || bit (regW s 0xE00004 0) 16 then .next s
  else
    let s := rebuildStripe s.dsm.next s
    let n := s.dsm.next + 1
    let s := { s with dsm := { s.dsm with next := n } }
    if n < stripeCount then .next s
    else
      let ms : Nat := (nowNs s - s.dsm.started / 2 ^ 32) / 1000000
      let s := { s with dsm := { s.dsm with st := if s.dsm.lost.length == 1 then 2 else 3 } }
      .next (devEvent 0x1005 (unitCode 5 s.dsm.firstLost) ms s)

/-! ### Writes (R192, R194, R200, R203) -/

/-- A parity line of a guarded stripe as the home reads it, when its unit is not absent. -/
def readParity (t k x : Nat) (s : State) : Option Bytes × State := if (place s t x k).isSome then readUnit t k x s else (none, s)

/-- A guarded write of line k of slot d (R194, R200): the old line, P and Q are read and the three are written. Where too
many units are unreadable for the old line, the line alone is written (DEDUCED, log 83). -/
def writeGuarded (t k d : Nat) (bs : Bytes) (poison : Bool) (s : State) : State :=
  let (old, s) := readUnit t k d s
  let (p, s) := readParity t k 14 s
  let (q, s) := readParity t k 15 s
  let own := lineKey (slotStack t d) t k
  let put (s : State) : State := match place s t d k with
    | some key => setPoisonKey key poison (setRaw key bs s)
    | none => setPoisonKey own poison s
  match old with
  | none => if (place s t d k).isSome then put s else s
  | some old =>
    let delta := xorLine old bs
    let c := coefOf s t d k
    let s := put s
    let s := match p, place s t 14 k with
      | some p, some key => setRaw key (xorLine p delta) s
      | _, _ => s
    match q, place s t 15 k with
    | some q, some key => setRaw key (xorLine q (mulLine c delta)) s
    | _, _ => s

/-- Write line l of the DPA space in its stack, whole. -/
def putLine (l : Nat) (bs : Bytes) (poison : Bool) (s : State) : State :=
  let t := lineStripe l
  let d := lineSlot l
  let k := lineIx l
  let kind := kindOf s t
  let s := touchStack (slotStack t d) s
  let s := if kind == 1 then touchStack (slotStack t 14) (touchStack (slotStack t 15) s) else s
  if kind == 0 then incCnt (cntStack (homeOf s t k) 5) s
  else if kind == 1 then writeGuarded t k d bs poison s
  else
    match place s t d k with
    | some key => setPoisonKey key poison (setRaw key bs s)
    | none =>
      if rebuilding s && slotStack t d == s.dsm.firstLost && !stackLost s (slotStack t 13) then
        let s := rebuildStripe t s
        let key := lineKey (slotStack t 13) t k
        setPoisonKey key poison (setRaw key bs s)
      else s

/-! ### Lines that a host holds (R242, R333) -/

/-- The port whose host may hold a line. -/
def holderOf (s : State) (l : Nat) : Option HPort := (s.dsm.snoop.find? (fun h => h.2 == l)).map (·.1)

/-- A host's write of a line: discarded where a table rejects it, else a guarded or plain write. -/
def hostLine (l : Nat) (bs : Bytes) (s : State) : State :=
  match rejectsHostWrite s l with
  | some t => incCnt (cntTable t 6) s
  | none => putLine l bs false s

/-- A host gives up a line. -/
def forgetLine (l : Nat) (s : State) : State :=
  { s with dsm := { s.dsm with snoop := s.dsm.snoop.filter (fun h => h.2 != l) } }

/-- Before an access, the line of a host that may hold it is back-invalidated; whether the host has changed it, and to what, is
open (DESIGN CHOICE, log 120). -/
def recallLine (l : Nat) (s : State) : State :=
  match holderOf s l with
  | none => s
  | some _ =>
    let (v, s) := drawFree (forgetLine l s)
    if v % 2 == 1 then hostLine l (toLE 64 (v / 2)) s else s

/-- A device unit writes line l of the DPA space whole. -/
def writeLine (l : Nat) (bs : Bytes) (poison : Bool) (s : State) : State := putLine l bs poison (recallLine l s)

/-- Line l of the DPA space: from its overhang unit, or from its stack. The answer carries POISON. -/
def fetchLine (l : Nat) (s : State) : (Bytes × Bool) × State :=
  match ovhOf s l with
  | some (unit, o) => ovhLine l unit o s
  | none => stackLine l s

/-- A device unit reads line l of the DPA space. -/
def readLine (l : Nat) (s : State) : (Bytes × Bool) × State := fetchLine l (recallLine l s)

/-- Read lines in ascending order. -/
def readLines : Nat → Nat → State → List (Bytes × Bool) × State
  | 0, _, s => ([], s)
  | n + 1, l, s =>
    let (a, s) := readLine l s
    let (rest, s) := readLines n (l + 1) s
    (a :: rest, s)

/-- Bytes of the DPA space, with POISON when a line they lie in carries it. -/
def readDpa (a n : Nat) (s : State) : (Bytes × Bool) × State :=
  if n == 0 then (([], false), s)
  else
    let (ls, s) := readLines ((a + n - 1) / 64 - a / 64 + 1) (a / 64) s
    ((((ls.map (·.1)).flatten.drop (a % 64)).take n, ls.any (·.2)), s)

/-- Write bytes at any DPA; lines covered in part keep their other bytes. -/
def writeDpa (a : Nat) (bs : Bytes) (s : State) : State :=
  (linesOf a bs.length).foldl (fun s l =>
    let lo := max a (64 * l)
    let hi := min (a + bs.length) (64 * l + 64)
    let part := (bs.drop (lo - a)).take (hi - lo)
    if lo == 64 * l && hi == 64 * l + 64 then writeLine l part false s
    else
      let ((old, p), s) := readLine l s
      writeLine l (old.take (lo - 64 * l) ++ part ++ old.drop (hi - 64 * l)) p s) s

/-- Write a row of a table: into every copy of an overhang unit, or into the stacks. -/
def writeRow (by_ : Option (HPort × Nat)) (a : Nat) (bs : Bytes) (s : State) : State :=
  match ovhOf s (a / 64) with
  | some (unit, o) => ovhWrite by_ unit o (a - o.dpa) bs s
  | none => writeDpa a bs s

/-- A line of any table's bucket area. -/
def inBuckets (s : State) (l : Nat) : Bool := s.tbl.tables.any (fun p => bucketLine p.2.desc l)

/-- Lines that a unit other than the table writer writes: those of bucket areas are discarded. -/
def unitLines : Nat → List (Bytes × Bool) → State → State
  | _, [], s => s
  | l, a :: rest, s => unitLines (l + 1) rest (if inBuckets s l then s else writeLine l a.1 a.2 s)

/-! ### Commands -/

/-- GUARDED_WRITE: a write of one line of a guarded stripe at its home (R194). -/
def execGuardedWrite (line : Nat) (data : BitVec 512) (s : State) : Res :=
  if dpaLines ≤ line then .fault (.addressOutside (64 * line))
  else if kindOf s (lineStripe line) != 1 || inBuckets s line then .next s
  else .next (writeLine line (toLE 64 data.toNat) false s)

/-- DEGRADED_READ: a read of a line of an absent data unit at its stripe's home (R198). -/
def execDegradedRead (line : Nat) (s : State) : Res :=
  if dpaLines ≤ line then .fault (.addressOutside (64 * line))
  else if kindOf s (lineStripe line) != 1 || (place s (lineStripe line) (lineSlot line) (lineIx line)).isSome then .next s
  else .next (readLine line s).2

/-- A scrub read of a line number of a stack: its unit is read by R184 and, in a guarded stripe, repaired by R199. -/
def scrubLine (st : StackId) (s : State) (n : Nat) : State :=
  let t := n / 64
  let k := n % 64
  let key := lineKey st.val t k
  let on := slotOnStack t st.val
  -- a relocated unit is the unit that the clearing holds; a clearing unit that holds none is zero
  let x := if on == 13 && s.dsm.reloc.contains key then slotOnStack t s.dsm.firstLost else on
  if kindOf s t == 1 && x != 13 then (readUnit t k x s).2
  else
    let s := findErr key s
    if kindOf s t == 1 && torn s key then incCnt (cntStack st.val 2) (setRaw key zeroLine s) else s

/-- SCRUB_PASS: every line of a stack is read once (R185); `corrected` and `ue` tell what errors have come about in its
lines, the latter by line number. -/
def execScrubPass (st : StackId) (corrected : Nat) (ue : List Nat) (s : State) : Res :=
  if stackLost s st.val then .next s
  else
    let s := addCnt (cntStack st.val 0) corrected s
    let put (m : List (Nat × LineErr)) (n : Nat) : List (Nat × LineErr) := if n < 2 ^ 32 then mapSet (st.val * 2 ^ 32 + n) .uncorrectable m else m
    let s := { s with dsm := { s.dsm with flaws := ue.foldl put s.dsm.flaws } }
    let mine := (s.dsm.flaws.filter (fun p => keyStack p.1 == st.val)).map (fun p => p.1 % 2 ^ 32)
    .next (mine.foldl (fun s n => if stackLost s st.val then s else scrubLine st s n) s)

/-- The stripes on which any stack holds a nonzero byte. -/
def usedStripes (s : State) : List Nat :=
  (s.dsm.cells.map (fun c => c.1 % 2 ^ 38 / 4096)).foldl (fun m t => if m.head? == some t then m else t :: m) []
    |>.foldl (fun m t => setIns t m) []

/-- Line k of every data slot of a guarded stripe, none when one of them cannot be had. -/
def stripeData (t k : Nat) (s : State) : Option (List Bytes) × State :=
  (List.range 13).foldl (fun (a : Option (List Bytes) × State) d =>
    let (v, s) := readUnit t k d a.2
    (match a.1, v with
      | some ls, some v => some (ls ++ [v])
      | _, _ => none, s)) (some [], s)

/-- P and Q of line k of a guarded stripe, each present one rewritten from the data where it does not match; answers
whether one was (R185). -/
def parityLine (t : Nat) (a : Bool × State) (k : Nat) : Bool × State :=
  let (ls, s) := stripeData t k a.2
  match ls with
  | none => (a.1, s)
  | some ls =>
    let want (x : Nat) : Bytes := (ls.zip (List.range 13)).foldl (fun b p => xorLine b (mulLine (if x == 14 then 1 else coefOf s t p.2 k) p.1)) zeroLine
    [14, 15].foldl (fun a x =>
      let (v, s) := readParity t k x a.2
      match v, place s t x k with
      | some v, some key => if v == want x then (a.1, s) else (true, setRaw key (want x) s)
      | _, _ => (a.1, s)) (a.1, s)

/-- The check of one guarded stripe (R185). -/
def parityStripe (s : State) (t : Nat) : State :=
  let (bad, s) := (List.range 64).foldl (parityLine t) (false, s)
  if bad then devEvent 0x1004 (unitCode 5 (homeOf s t 0)) t (incCnt (cntStack (homeOf s t 0) 4) s) else s

/-- STRIPE_PARITY_CHECK: P and Q of every stripe of every guarded region (R185). A stripe of zeros
matches. -/
def execStripeParityCheck (s : State) : Res :=
  .next (((usedStripes s).filter (fun t => kindOf s t == 1)).foldl parityStripe s)

end Sys2Proof.Machine
end

