-- ==== Sys2Proof/Machine/LoadStore.lean ====
section
/-! DEFINITION. The load path: LDT and STT between tile memory, the banks, the on-chip SRAMs and the
stacks (R77, R96, R112, R123, R206, R216, R408, R409). -/

namespace Sys2Proof.Machine

/-! ### On-chip SRAMs (R19) -/

def clusterSramBytes : Nat := 16777216
def dieSramBytes : Nat := 67108864

/-- Where a load or store goes (R112). -/
inductive MemSpace where
  | device
  | die
  | cluster
  deriving DecidableEq, Repr

def memSpace (sp : BitVec 2) : Option MemSpace :=
  match sp.toNat with
  | 0 => some .device
  | 1 => some .die
  | 2 => some .cluster
  | _ => none

/-- Lines of a space. -/
def spaceLines : MemSpace → Nat
  | .device => dpaLines
  | .die => dieSramBytes / 64
  | .cluster => clusterSramBytes / 64

/-- `n` lines of an on-chip SRAM with their poison marks. -/
def sramLines (ram : List Host.Cell) (poison : List Nat) (l n : Nat) : List (Bytes × Bool) :=
  (List.range n).map (fun i => (ramRead ram (64 * (l + i)) 64, poison.contains (l + i)))

def putSram (ram : List Host.Cell) (poison : List Nat) (l : Nat) (ls : List (Bytes × Bool)) : List Host.Cell × List Nat :=
  (ramWrite ram (64 * l) ((ls.map (·.1)).flatten),
   (ls.zip (List.range ls.length)).foldl (fun m p => setPut p.1.2 (l + p.2) m) poison)

def loadLines (c : CoreId) (sp : MemSpace) (l n : Nat) (s : State) : List (Bytes × Bool) × State :=
  match sp with
  | .device => readLines n l s
  | .die => (sramLines (getDie s (dieOfCore c)).sram (getDie s (dieOfCore c)).sramPoison l n, s)
  | .cluster => (sramLines (getCluster s (clusterOf c)).sram (getCluster s (clusterOf c)).sramPoison l n, s)

def storeLines (c : CoreId) (sp : MemSpace) (l : Nat) (ls : List (Bytes × Bool)) (s : State) : State :=
  match sp with
  | .device => unitLines l ls s
  | .die => modDie (dieOfCore c) (fun d =>
      { d with sram := (putSram d.sram d.sramPoison l ls).1, sramPoison := (putSram d.sram d.sramPoison l ls).2 }) s
  | .cluster => modCluster (clusterOf c) (fun k =>
      { k with sram := (putSram k.sram k.sramPoison l ls).1, sramPoison := (putSram k.sram k.sramPoison l ls).2 }) s

/-- Where a part of a tensor starts in a load's space, for a core. -/
def partAt (c : CoreId) (sp : MemSpace) (x : PartLoc) : Option Nat :=
  match sp, x with
  | .device, .dpa a _ => some a
  | .die, .dieSram d l _ => if d == dieOfCore c then some (64 * l) else none
  | .cluster, .clusterSram k l _ => if k == clusterOf c then some (64 * l) else none
  | _, _ => none

/-- Loaded lines as a program sees them: a static scale table with a live copy reads as that copy at the ream's launch edge
(R77). -/
def withLive (c : CoreId) (ctx : CtxId) (sp : MemSpace) (l : Nat) (ls : List (Bytes × Bool)) (s : State) : List (Bytes × Bool) :=
  let cx := getCtx (getCore s c) ctx
  let view := (((s.reams.find? (fun r => r.seq == cx.ream)).map (·.view)).getD (now s))
  (liveParts s cx.slot view).foldl (fun ls p =>
    match partAt c sp p.1 with
    | some a => (ls.zip (List.range ls.length)).map (fun x => (patchLine a p.2 (l + x.2) x.1.1, x.1.2))
    | none => ls) ls

/-- Write lines of tile memory with their poison marks. -/
def tileLines (l : Nat) (ls : List (Bytes × Bool)) (x : CoreState) : CoreState :=
  { x with tile := (putSram x.tile x.tilePoison l ls).1, tilePoison := (putSram x.tile x.tilePoison l ls).2 }

/-! ### Weight tiles (R96, R216) -/

/-- The sum of reduction index i over the tile's rows, in R68's units, and whether a poisoned line
feeds it. -/
def checksumElem (f : ElemFmt) (g : Nat) (rows : List (Bytes × List Bool)) (i : Nat) : Int × Bool :=
  let bb := blockBytes f g
  let pos := i / g * bb + 4 + i % g * f.bits / 8
  rows.foldl (fun (p : Int × Bool) r =>
    let byte := (r.1.getD pos 0).toNat
    let code := if f.bits == 4 then (if i % 2 == 0 then byte % 16 else byte / 16) else byte
    (p.1 + codeInt f code, p.2 || r.2.getD (pos / 64) false)) (0, false)

/-- The checksum column as lines. -/
def checksumLines (f : ElemFmt) (g nb stride : Nat) (ls : List (Bytes × Bool)) : List (Bytes × Bool) :=
  let per := stride / 64
  let rows := (List.range (ls.length / per)).map (fun r =>
    let q := (ls.drop (r * per)).take per
    ((q.map (·.1)).flatten, q.map (·.2)))
  let es := (List.range (nb * g)).map (checksumElem f g rows)
  (List.range (nb * g / 16)).map (fun j =>
    let q := (es.drop (16 * j)).take 16
    ((q.map (fun e => toLE 4 (unsignedOf 32 e.1))).flatten, q.any (·.2)))

/-! ### LDT and STT -/

/-- The layer of a core's context is a sequence layer (R408). -/
def isKvLayer (s : State) (c : CoreId) (ctx : CtxId) (layer : W16) : Bool :=
  match (famGet Slot.empty s.slots (getCtx (getCore s c) ctx).slot.val).image with
  | some im => im.layers.any (fun l => l.layer == layer && l.isKv)
  | none => false

/-- What a poisoned read of a regenerable line brings about: KV entries are rebuilt under a relaunch,
scratch is a fault of the program (R193, R408, R409). -/
def regenPoison (c : CoreId) (ctx : CtxId) (h : CmdHdr) (lines : List Nat) (s : State) : State :=
  let s :=
    if lines.any (fun l => kindOf s (lineStripe l) == 3) && isKvLayer s c ctx h.layer then
      let r := (getCtx (getCore s c) ctx).ream
      let s := markRelaunch r s
      if s.canopy.kvInvalid.contains (r, h.layer) then s
      else { s with canopy := { s.canopy with kvInvalid := s.canopy.kvInvalid ++ [(r, h.layer)] } }
    else s
  if lines.any (fun l => kindOf s (lineStripe l) == 4) then
    reportWith 0x54 (ucCore c) 0 (ucCore c) h.layer h.op [] s
  else s

/-- The lines that an LDT reads, and for a weight tile its format, G, blocks and stride. -/
def ldtShape (op : LdtOp) : Option (Nat × Option (ElemFmt × Nat × Nat × Nat)) :=
  if op.wtile then
    match elemFmt op.wfmt.toNat, gOf op.gsize.toNat with
    | some f, some g =>
      let nb := op.kBlocksM1.toNat + 1
      let stride := rowStride f g nb
      if f.narrow && op.space == 0 then some ((op.nM1.toNat + 1) * (stride / 64), some (f, g, nb, stride)) else none
    | _, _ => none
  else if op.len == 0 then none
  else some (op.len.toNat, none)

/-- LDT (R112). `errs` names the errors that the stacks find in lines. -/
def execLdt (c : CoreId) (ctx : CtxId) (op : LdtOp) (errs : List (Nat × LineErr)) (s : State) : Res :=
  match memSpace op.space, ldtShape op with
  | some sp, some (n, wt) =>
    let l := op.memAddr.toNat
    let extra := match wt with
      | some (_, g, nb, _) => nb * g / 16
      | none => 0
    if spaceLines sp < l + n then .fault (.addressOutside (64 * (l + n - 1)))
    else if 32768 < op.tmAddr.toNat + n + extra then .fault (.addressOutside (64 * (op.tmAddr.toNat + n + extra - 1)))
    else if !canIssue s c ctx op.hdr || lineHazard s c ctx [(64 * op.tmAddr.toNat, 64 * (n + extra))] then .next s
    else
      let s := traceStart c (ucCore c) ctx op.hdr 2 0 (ctxIssued c ctx op.hdr s)
      let (ls, s) := loadLines c sp l n (putErrs errs s)
      let ls := withLive c ctx sp l ls s
      let s :=
        if sp == .device && ls.any (·.2) then
          let bad := ((List.range n).zip ls).filterMap (fun p => if p.2.2 then some (l + p.1) else none)
          let s := match ownerOf s l with
            | some (u, _) => setSticky 0xC80004 u 11 s
            | none => s
          regenPoison c ctx op.hdr bad s
        else s
      let ls := match wt with
        | some (f, g, nb, stride) => ls ++ checksumLines f g nb stride ls
        | none => ls
      let s := modCore c (tileLines op.tmAddr.toNat ls) s
      .next (traceEnd (ucCore c) op.hdr (ctxDone c ctx s))
  | _, _ => .refused .unlistedOperand

/-- The lines that an STT stores: a bank's 384, or lines of tile memory. -/
def sttSource (x : CoreState) (op : SttOp) : List (Bytes × Bool) :=
  if op.fromBank then
    let b := getBank x (op.len.toNat % 4)
    (List.range 384).map (fun i => (ramRead b.mem (64 * i) 64, b.poison))
  else sramLines x.tile x.tilePoison op.tmAddr.toNat op.len.toNat

/-- STT (R112). -/
def execStt (c : CoreId) (ctx : CtxId) (op : SttOp) (s : State) : Res :=
  let n := if op.fromBank then 384 else op.len.toNat
  match memSpace op.space with
  | none => .refused .unlistedOperand
  | some sp =>
    let l := op.memAddr.toNat
    if n == 0 || (op.fromBank && 4 ≤ op.len.toNat) then .refused .unlistedOperand
    else if spaceLines sp < l + n then .fault (.addressOutside (64 * (l + n - 1)))
    else if !op.fromBank && 32768 < op.tmAddr.toNat + n then .fault (.addressOutside (64 * (op.tmAddr.toNat + n - 1)))
    else if !canIssue s c ctx op.hdr || (op.fromBank && bankHazard (getCore s c) ctx (op.len.toNat % 4)) then .next s
    else
      let s := traceStart c (ucCore c) ctx op.hdr 3 0 (ctxIssued c ctx op.hdr s)
      let s := storeLines c sp l (sttSource (getCore s c) op) s
      .next (traceEnd (ucCore c) op.hdr (ctxDone c ctx s))

end Sys2Proof.Machine
end

