-- ==== Sys2Proof/Machine/Buckets.lean ====
section
/-! DEFINITION. Buckets, slots and hashing, and the choice of an insertion's slot or path, which stack
tables and forwarding tables share (R226 to R228, R233). -/

namespace Sys2Proof.Machine

/-! ### Slots (R226, R227) -/

def eVis (e : Entry) : Nat := bits e.flags 7 6
def eAge (e : Entry) : Nat := bits e.flags 2 0
def eOrigin (e : Entry) : Bool := bit e.flags 3
def eHit (e : Entry) : Bool := bit e.flags 4
def eStatic (e : Entry) : Bool := bit e.flags 5
def eEmpty (e : Entry) : Bool := eVis e == 0

def mkFlags (age : Nat) (origin hit static : Bool) (vis : Nat) : Nat :=
  age % 8 + 8 * b2n origin + 16 * b2n hit + 32 * b2n static + 64 * (vis % 4)

def withVis (e : Entry) (v : Nat) : Entry := { e with flags := setBits e.flags 7 6 v }
def withHit (e : Entry) : Entry := { e with flags := setBits e.flags 4 4 1 }

/-- A hit (R227); one that reaches a slot in the cycle of the sweep's visit applies first, and the visit then clears it (R256). -/
def hitEntry (visited : Bool) (e : Entry) : Entry :=
  if visited && !eStatic e then { e with flags := setBits (setBits e.flags 4 4 0) 2 0 0 } else withHit e

/-- What a sweep visit makes of a slot (R255). AGE 7 deletes the entry when the visit's cycle ends (R256). -/
def ageSlot (e : Entry) : Entry :=
  if eVis e != 1 || eStatic e then e
  else if eHit e then { e with flags := setBits (setBits e.flags 4 4 0) 2 0 0 }
  else { e with flags := setBits e.flags 2 0 (min 7 (eAge e + 1)) }

/-- A visited slot's entry has aged out. -/
def agedOut (e : Entry) : Bool := eVis e == 1 && !eStatic e && !eHit e && eAge e == 7

/-- The due time of a bucket's latest visit, of `n` buckets with a period of `ms` milliseconds: n·P + ⌊b·P/B⌋, floored to whole
nanoseconds (R255; DESIGN CHOICE, log 114); none before its first. -/
def visitDue (t ms n b : Nat) : Option Nat :=
  let p := msT ms
  let off := nsT (b * (1000000 * ms) / n)
  if p == 0 || t < off then none else some ((t - off) / p * p + off)

/-- A bucket's visit falls on this edge: its due time lies after the edge before, and after the last visit's (R255). -/
def visitNow (s : State) (swept ms n b : Nat) : Option Nat :=
  (visitDue (now s) ms n b).filter (fun d => (s.time.prevGt.toNat < d || d == now s) && swept ≤ d)

def decodeBucket (bs : Bytes) : List Entry :=
  (List.range 4).map (fun n =>
    { key := leNat ((bs.drop (8 * n)).take 8), row := leNat ((bs.drop (32 + 4 * n)).take 4),
      flags := leNat ((bs.drop (48 + n)).take 1) })

def encodeBucket (es : List Entry) : Bytes :=
  (es.map (fun e => toLE 8 e.key)).flatten ++ (es.map (fun e => toLE 4 e.row)).flatten ++
    (es.map (fun e => toLE 1 e.flags)).flatten ++ List.replicate 12 0

def emptyBucket : List Entry := List.replicate 4 Entry.empty

/-! ### Hashing (R228) -/

/-- The low bits of H_n of a key. -/
def hashBucket (seed blog key : Nat) : Nat := crc32cFrom seed (toLE 8 key) % 2 ^ blog

/-! ### Where an insertion goes (R233) -/

/-- The slot that an entry is written into, after the moves, which stand in the order in which they
are made. -/
structure InsPlan where
  bucket : Nat
  slot : Nat
  moves : List Move
  deriving DecidableEq, Repr

def emptySlot (es : List Entry) : Option Nat := (List.range 4).find? (fun n => (es[n]?.map eEmpty).getD false)

/-- The next victim slot of bucket b that is not on the path, trying at most four. -/
def kickSlot : Nat → Nat → List (Nat × Nat) → Nat → Option Nat × Nat
  | 0, _, _, kick => (none, kick)
  | n + 1, b, path, kick =>
    if path.contains (b, kick % 4) then kickSlot n b path (kick + 1) else (some (kick % 4), kick + 1)

/-- Follow displaced keys for at most `n` steps. `path` holds the moves so far, the latest first. -/
def chase (rd : Nat → State → List Entry × State) (other : Nat → Nat → Nat) :
    Nat → Nat → List Move → Nat → State → Option (List Move) × Nat × State
  | 0, _, _, kick, s => (none, kick, s)
  | n + 1, b, path, kick, s =>
    match kickSlot 4 b (path.map (fun m => (m.fromB, m.fromS))) kick with
    | (none, kick) => (none, kick, s)
    | (some sl, kick) =>
      let (es, s) := rd b s
      let nb := other ((es.getD sl Entry.empty).key) b
      let (ns, s) := rd nb s
      match emptySlot ns with
      | some f => (some ({ fromB := b, fromS := sl, toB := nb, toS := f } :: path), kick, s)
      | none => chase rd other n nb ({ fromB := b, fromS := sl, toB := nb, toS := 0 } :: path) kick s

/-- Each earlier move fills the slot that the move after it on the path empties. -/
def linkMoves : Option (Nat × Nat) → List Move → List Move
  | _, [] => []
  | none, m :: rest => m :: linkMoves (some (m.fromB, m.fromS)) rest
  | some x, m :: rest => { m with toB := x.1, toS := x.2 } :: linkMoves (some (m.fromB, m.fromS)) rest

/-- The plan of R233 for a key with buckets b0 and b1, with the kick counter that it leaves. -/
def planInsert (rd : Nat → State → List Entry × State) (other : Nat → Nat → Nat) (maxKick b0 b1 kick : Nat)
    (s : State) : Option InsPlan × Nat × State :=
  let (e0, s) := rd b0 s
  match emptySlot e0 with
  | some n => (some { bucket := b0, slot := n, moves := [] }, kick, s)
  | none =>
    let (e1, s) := rd b1 s
    match emptySlot e1 with
    | some n => (some { bucket := b1, slot := n, moves := [] }, kick, s)
    | none =>
      match chase rd other maxKick b0 [] kick s with
      | (some path, kick, s) =>
        let ms := linkMoves none path
        let first := ms.getLastD { fromB := b0, fromS := 0, toB := b0, toS := 0 }
        (some { bucket := first.fromB, slot := first.fromS, moves := ms }, kick, s)
      | (none, kick, s) => (none, kick, s)

end Sys2Proof.Machine
end

