-- ==== Sys2Proof/Machine/Tables.lean ====
section
/-! DEFINITION. The stack tables and their writer: lookups, insertion chains, staging, commit and
retirement, TABLE_BATCH and TBL_CMD (R221 to R246, R487). -/

namespace Sys2Proof.Machine

/-! ### Table access -/

def getTbl (s : State) (t : Nat) : Option Tbl := mapGet t s.tbl.tables
def setTbl (t : Nat) (x : Tbl) (s : State) : State := { s with tbl := { s.tbl with tables := mapSet t x s.tbl.tables } }
def modTbl (t : Nat) (f : Tbl → Tbl) (s : State) : State :=
  match getTbl s t with
  | some x => setTbl t (f x) s
  | none => s

/-- A slot's table-set generation (R237). -/
def slotTgen (s : State) (sl : SlotId) : Nat :=
  ((s.tbl.tables.map (fun p => if p.2.owners.contains sl then p.2.gen else 0)).foldl (· + ·) 0) % 2 ^ 32

def bucketN (d : TblDesc) (n key : Nat) : Nat := hashBucket (if n == 0 then d.seed0 else d.seed1) d.blog key
def otherBucket (d : TblDesc) (key b : Nat) : Nat := if bucketN d 0 key == b then bucketN d 1 key else bucketN d 0 key

/-- A bucket's slots, with POISON; a poisoned bucket of a FLOW table is empty (R193). -/
def readBucket (d : TblDesc) (b : Nat) (s : State) : (List Entry × Bool) × State :=
  let ((bs, p), s) := readLine (d.bucketBase / 64 + b) s
  if p then ((emptyBucket, d.kind != 1), s) else ((decodeBucket bs, false), s)

def bucketRd (d : TblDesc) (b : Nat) (s : State) : List Entry × State :=
  let ((es, _), s) := readBucket d b s
  (es, s)

/-- Write one slot, as a write of the whole bucket line (R234), keeping the occupancy and the reference
bits (R242). -/
def putSlot (t : Nat) (b sl : Nat) (e : Entry) (s : State) : State :=
  match getTbl s t with
  | none => s
  | some x =>
    let (es, s) := bucketRd x.desc b s
    let old := es.getD sl Entry.empty
    let refs := if eEmpty old then x.refs else mapSetD 0 old.row (mapGetD 0 old.row x.refs - 1) x.refs
    let refs := if eEmpty e then refs else mapSetD 0 e.row (mapGetD 0 e.row refs + 1) refs
    let s := writeLine (x.desc.bucketBase / 64 + b) (encodeBucket (listSet es sl e)) false s
    modTbl t (fun y => { y with refs := refs, occupied := y.occupied - b2n (!eEmpty old) + b2n (!eEmpty e) }) s

/-- Visibility of a slot in a view (R238). -/
def visibleIn (x : Tbl) (view : Nat) (e : Entry) : Bool :=
  match eVis e with
  | 1 => true
  | 2 => x.retiring && decide (x.commitGt ≤ view)
  | 3 => !x.retiring || decide (view < x.commitGt)
  | _ => false

/-- Where a key stands: its bucket 0 or 1, that bucket, the slot and the entry. -/
structure Found where
  n : Nat
  bucket : Nat
  slot : Nat
  entry : Entry
  deriving DecidableEq, Repr

/-- The entry is hit: HIT in every copy of it (R227, R229). -/
def touchKey (t : Nat) (ok : Entry → Bool) (key : Nat) (s : State) : State :=
  match getTbl s t with
  | none => s
  | some x =>
    [bucketN x.desc 0 key, bucketN x.desc 1 key].eraseDups.foldl (fun s b =>
      (List.range 4).foldl (fun s i =>
        let (es, s) := bucketRd x.desc b s
        let e := es.getD i Entry.empty
        let e' := hitEntry (x.visited.contains b) e
        if e.key == key && !eEmpty e && ok e && e' != e then putSlot t b i e' s else s) s) s

def findIn (ok : Entry → Bool) (key n b : Nat) (es : List Entry) : Option Found :=
  ((List.range 4).find? (fun i => let e := es.getD i Entry.empty; e.key == key && !eEmpty e && ok e)).map
    (fun i => { n := n, bucket := b, slot := i, entry := es.getD i Entry.empty })

/-- Find a key's slot of which a test holds, in bucket 0, then bucket 1. -/
def findKey (d : TblDesc) (ok : Entry → Bool) (key : Nat) (s : State) : Option Found × State :=
  let b0 := bucketN d 0 key
  let b1 := bucketN d 1 key
  let (e0, s) := bucketRd d b0 s
  match findIn ok key 0 b0 e0 with
  | some f => (some f, s)
  | none =>
    if b0 == b1 then (none, s)
    else
      let (e1, s) := bucketRd d b1 s
      (findIn ok key 1 b1 e1, s)

/-! ### The writer's moves (R233 to R236) -/

/-- The NLU serves lookups: its stack is neither lost, nor asleep, nor yet started (R235). -/
def nluServing (s : State) (u : Nat) : Bool := !stackLost s (u / 4) && (mapGet (292 + u / 4) s.pwr.doms).any (fun d => d.st == 4)

/-- The move epoch rises, and every NLU that serves lookups acknowledges it (R234, R235). -/
def raiseEpoch (t : Nat) (s : State) : State :=
  match getTbl s t with
  | none => s
  | some x =>
    let e := x.epoch + 1
    ((List.range 64).filter (nluServing s)).foldl (fun s u =>
      let n := getNlu s u
      setNlu u { n with epochs := mapSetD 0 t e n.epochs } s) (setTbl t { x with epoch := e } s)

/-- An NLU takes the move epochs of the tables before it serves a lookup: one that was stopped, asleep or not started has none
of the later ones (R235). -/
def takeEpoch (u t : Nat) (s : State) : State :=
  match getTbl s t with
  | none => s
  | some x =>
    let n := getNlu s u
    if mapGetD 0 t n.epochs == x.epoch then s else setNlu u { n with epochs := mapSetD 0 t x.epoch n.epochs } s

/-- One move: the entry into its new slot, the epoch, and the overwriting of its old slot by the
previous step's entry, or by the new entry at the first step (R234). -/
def makeMove (t : Nat) (m : Move) (next : Option Move) (e : Entry) (s : State) : State :=
  match getTbl s t with
  | none => s
  | some x =>
    let (es, s) := bucketRd x.desc m.fromB s
    let s := putSlot t m.toB m.toS (es.getD m.fromS Entry.empty) s
    let s := incCnt (cntTable t 2) (raiseEpoch t s)
    match next with
    | some p =>
      let (ps, s) := bucketRd x.desc p.fromB s
      putSlot t m.fromB m.fromS (ps.getD p.fromS Entry.empty) s
    | none => putSlot t m.fromB m.fromS e s

def makeMoves (t : Nat) (e : Entry) : List Move → State → State
  | [], s => s
  | m :: rest, s => makeMoves t e rest (makeMove t m rest.head? e s)

/-- Plan an insertion; the kick counter advances (R233). -/
def planFor (t : Nat) (key : Nat) (s : State) : Option InsPlan × State :=
  match getTbl s t with
  | none => (none, s)
  | some x =>
    let d := x.desc
    let (p, kick, s) := planInsert (bucketRd d) (otherBucket d) d.maxKick (bucketN d 0 key) (bucketN d 1 key) x.kick s
    (p, modTbl t (fun y => { y with kick := kick }) s)

/-- An insertion with all its moves; NO_ROOM leaves the table unchanged (R233, R236). -/
def insertNow (t : Nat) (e : Entry) (s : State) : Bool × State :=
  match planFor t e.key s with
  | (none, s) => (false, incCnt (cntTable t 3) s)
  | (some p, s) =>
    let s := if p.moves.isEmpty then putSlot t p.bucket p.slot e s else makeMoves t e p.moves s
    (true, incCnt (cntTable t 0) s)

/-! ### Rows (R62, R66, R67, R209) -/

/-- A row's bytes pass the checks of R67 and R209. -/
def rowValid (d : TblDesc) (bs : Bytes) : Bool :=
  match rowFmt d with
  | none => false
  | some (f, g) =>
    let nb := rowBlocks d g
    let bb := blockBytes f g
    decide (nb * bb ≤ bs.length) && (bs.drop (nb * bb)).all (· == 0) &&
      (List.range nb).all (fun j =>
        let b := readBlock true f g ((bs.drop (j * bb)).take bb)
        (blockFault f g j true b).isNone && !b.dk.cut && b.dk.wsum == wsumOf f b.codes &&
          ((b.codes.zip (List.range g)).all (fun p => decide (j * g + p.2 < d.rowLen) || p.1 == 0)))

/-! ### Staging (R239, R244) -/


def noteChanged (t key : Nat) (s : State) : State :=
  modTbl t (fun x => { x with changed := if x.changed.contains key then x.changed else x.changed ++ [key] }) s

/-- The key's slot that staged changes leave present: the ADDED one, else a LIVE one. -/
def stagedPresent (d : TblDesc) (key : Nat) (s : State) : Option Found × State :=
  match findKey d (fun e => eVis e == 2) key s with
  | (some f, s) => (some f, s)
  | (none, s) => findKey d (fun e => eVis e == 1) key s

/-- Take a present entry out: an ADDED slot is emptied, a LIVE one is marked REMOVED. -/
def stageRemove (t : Nat) (f : Found) (s : State) : State :=
  noteChanged t f.entry.key
    (if eVis f.entry == 2 then putSlot t f.bucket f.slot Entry.empty s
     else putSlot t f.bucket f.slot (withVis f.entry 3) s)

/-- Return staged slots to their prior state (R244). -/
def revertStaging (t : Nat) (s : State) : State :=
  match getTbl s t with
  | none => s
  | some x =>
    let s := x.changed.foldl (fun s key =>
      let (a, s) := findKey x.desc (fun e => eVis e == 2) key s
      let s := match a with
        | some f => putSlot t f.bucket f.slot Entry.empty s
        | none => s
      let (r, s) := findKey x.desc (fun e => eVis e == 3) key s
      match r with
      | some f => putSlot t f.bucket f.slot (withVis f.entry 1) s
      | none => s) s
    modTbl t (fun y => { y with changed := [], staging := none, pending := false }) s

def addedEntry (r : BatchRec) : Entry := { key := r.key.toNat, row := r.row.toNat, flags := mkFlags 0 false false r.static 2 }

/-- A record's new row may be named: below the limit, unreferenced, and valid (R242, R244). -/
def rowNameable (x : Tbl) (row : Nat) (written : List Nat) (s : State) : Bool × State :=
  if x.desc.rowLimit ≤ row || refd x row then (false, s)
  else if written.contains row then (true, s)
  else
    let ((bs, p), s) := readDpa (rowAddr x.desc row) (rowT x.desc) s
    (!p && rowValid x.desc bs, s)

/-- Step 2 of R244 on one record: none when it fails. -/
def rowWriteRec (by_ : Option (HPort × Nat)) (t : Nat) (r : BatchRec) (s : State) : Option (List Nat × State) :=
  match getTbl s t with
  | none => none
  | some x =>
    if r.reserved || r.op == 0 || 4 < r.op.toNat then none
    else if r.op != 4 then some ([], s)
    else
      let row := r.row.toNat
      if x.desc.rowLimit ≤ row || refd x row || rowT x.desc < r.rowBytes.length || !rowValid x.desc r.rowBytes then none
      else
        let pad := r.rowBytes ++ List.replicate (rowT x.desc - r.rowBytes.length) 0
        some ([row], writeRow by_ (rowAddr x.desc row) pad s)

/-- Step 2 over the list: the written rows, or the index of the failing record. -/
def rowWrites (by_ : Option (HPort × Nat)) (t : Nat) : List BatchRec → Nat → List Nat → State → (Option Nat × List Nat) × State
  | [], _, ws, s => ((none, ws), s)
  | r :: rest, i, ws, s =>
    match rowWriteRec by_ t r s with
    | none => ((some i, ws), s)
    | some (w, s) => rowWrites by_ t rest (i + 1) (ws ++ w) s

/-- Step 3 on one record: its status (R239, R244). -/
def stageRec (t : Nat) (written : List Nat) (r : BatchRec) (s : State) : Nat × State :=
  match getTbl s t with
  | none => (stNotFound, s)
  | some x =>
    let key := r.key.toNat
    if r.op == 4 then (stOk, s)
    else
      let (present, s) := stagedPresent x.desc key s
      match r.op.toNat, present with
      | 3, none => (stNotFound, s)
      | 3, some f => (stOk, stageRemove t f s)
      | 2, none => (stNotFound, s)
      | _, _ =>
        let (ok, s) := rowNameable x r.row.toNat written s
        if !ok then (stFormat, s)
        else
          let s := match present with
            | some f => stageRemove t f s
            | none => s
          let (done, s) := insertNow t (addedEntry r) s
          if done then (stOk, noteChanged t key s) else (stNoRoom, s)

/-- Step 3 over the list: the failing record's index and status. -/
def stageRecs (t : Nat) (written : List Nat) : List BatchRec → Nat → State → Option (Nat × Nat) × State
  | [], _, s => (none, s)
  | r :: rest, i, s =>
    let (st, s) := stageRec t written r s
    if st == stOk then stageRecs t written rest (i + 1) s else (some (i, st), s)

/-! ### TBL_CMD registers (R245) -/

def tblCmdOff : Nat := 0xC00000
def tblBusy (s : State) (p : HPort) : Bool := bit (regW s tblCmdOff (portIx p)) 13

/-- End a port's TBL_CMD. -/
def tblEnd (p : HPort) (t status : Nat) (s : State) : State :=
  let g := ((getTbl s t).map (·.gen)).getD 0
  let s := setRegF tblCmdOff (portIx p) 23 16 status (setRegF tblCmdOff (portIx p) 13 13 0 s)
  setRegW (tblCmdOff + 0x18) (portIx p) g s

/-- Start a port's TBL_CMD: OP, TABLE and BUSY. -/
def tblStart (p : HPort) (t op : Nat) (s : State) : State :=
  let w := regW s tblCmdOff (portIx p)
  setRegW tblCmdOff (portIx p) (setBits (setBits (setBits (setBits w 3 0 op) 11 4 t) 13 13 1) 14 14 0) s

def tblKey (s : State) (p : HPort) : Nat := regQ s (tblCmdOff + 8) (portIx p)
def tblRow (s : State) (p : HPort) : Nat := regW s (tblCmdOff + 0x10) (portIx p)
def tblStatic (s : State) (p : HPort) : Bool := bit (regW s (tblCmdOff + 0x14) (portIx p)) 0
def setExisted (p : HPort) (s : State) : State := setRegF tblCmdOff (portIx p) 14 14 1 s

/-- End a change with a status, whoever asked for it. -/
def changeEnd (t : Nat) (w : ChangeBy) (status result : Nat) (s : State) : State :=
  match w with
  | .desc d => if status == stStale then completeBare d status s else complete d status result s
  | .cmd p _ _ => tblEnd p t status s
  | .group _ => s

/-! ### Commit and retirement (R239 to R241) -/

/-- Commit the staged change of a table at this edge. One whose launch edge came before its staging ended is late (R241). -/
def commitTable (t : Nat) (s : State) : State :=
  match getTbl s t with
  | none => s
  | some x =>
    match x.staging with
    | none => s
    | some ch =>
      let g := (x.gen + 1) % 2 ^ 32
      let s := setTbl t { x with gen := g, pending := false, commitGt := now s, retiring := true, revisited := false,
                                 staging := none } s
      let s := if ch.due != 0 && ch.due < x.stagedAt then incCnt (cntTable t 5) s else s
      changeEnd t ch.who stOk g s

/-- A staged change of one entry commits at the next quiet-clock edge (R246). -/
def commitCmds (s : State) : State :=
  s.tbl.tables.foldl (fun s p =>
    match p.2.staging with
    | some { who := .cmd _ _ _, .. } => if p.2.pending then commitTable p.1 s else s
    | _ => s) s

/-- Staged batches whose launch edge is this edge, in order of acceptance (R41). -/
def changeSeq (ch : Change) : Nat :=
  match ch.who with
  | .desc d => d.seq
  | .cmd _ _ n => n
  | .group n => n

def dueBatches (s : State) : List Nat :=
  let l := s.tbl.tables.filterMap (fun p =>
    match p.2.staging with
    | some ch =>
      match ch.who with
      | .cmd _ _ _ => none
      | _ => if p.2.pending && ch.due != 0 && ch.due ≤ now s then some (changeSeq ch, p.1) else none
    | none => none)
  (sortBy (fun a b => decide (a.1 < b.1)) l).map (·.2)

def commitBatches (s : State) : State := (dueBatches s).foldl (fun s t => commitTable t s) s

/-- A ream's launch edge as its view: its first one, or the one to come (R238). -/
def viewOf (r : Ream) : Nat := if r.view == 0 then nsT r.launchNs else r.view

/-- No ream whose launch edge lies before a commit has an NLU command left on the table (R240). -/
def reamsDone (s : State) (t : Nat) (commit : Nat) : Bool :=
  s.reams.all (fun r => decide (commit ≤ viewOf r) || r.jobs.all (fun j => j.cmd.table.val != t))

/-- The writer's visit to one changed key: ADDED becomes LIVE, REMOVED becomes EMPTY. -/
def retireKey (t : Nat) (d : TblDesc) (key : Nat) (s : State) : State :=
  let (r, s) := findKey d (fun e => eVis e == 3) key s
  let s := match r with
    | some f => incCnt (cntTable t 1) (putSlot t f.bucket f.slot Entry.empty s)
    | none => s
  let (a, s) := findKey d (fun e => eVis e == 2) key s
  match a with
  | some f => putSlot t f.bucket f.slot (withVis f.entry 1) s
  | none => s

/-- RETIREMENT_START (R240): the writer revisits the changed keys. -/
def execRetirementStart (t : TableId) (s : State) : Res :=
  match getTbl s t.val with
  | none => .next s
  | some x =>
    if x.retiring && !x.revisited && reamsDone s t.val x.commitGt then
      .next (modTbl t.val (fun y => { y with revisited := true })
        (x.changed.foldl (fun s key => retireKey t.val x.desc key s) s))
    else .next s

/-- RETIREMENT_END (R240). -/
def execRetirementEnd (t : TableId) (s : State) : Res :=
  match getTbl s t.val with
  | none => .next s
  | some x =>
    if x.retiring && x.revisited then
      .next (setTbl t.val { x with retiring := false, revisited := false, changed := [] } s)
    else .next s

/-- LATE_COMMIT (R241): a batch whose launch edge came before its staging ended, or that has none, commits at the first edge
after the end of its staging. -/
def execLateCommit (t : TableId) (s : State) : Res :=
  match getTbl s t.val with
  | none => .next s
  | some x =>
    match x.staging with
    | some ch =>
      match ch.who with
      | .cmd _ _ _ => .next s
      | _ => if x.pending && ch.due ≤ now s && x.stagedAt < now s then .next (commitTable t.val s) else .next s
    | none => .next s

/-- End a change that fails while it is staged. -/
def failStaging (t : Nat) (ch : Change) (status result : Nat) (s : State) : State :=
  changeEnd t ch.who status result (revertStaging t s)

/-- The staging of a table's change has ended. -/
def stagingEnds (t : Nat) (s : State) : State := modTbl t (fun y => { y with pending := true, stagedAt := now s }) s

/-- The port and its reset count under which a change was accepted. -/
def changeEra (w : ChangeBy) : Option (HPort × Nat) :=
  match w with
  | .desc d => some (d.port, d.era)
  | _ => none

/-- Stage a batch whole (R244). -/
def stageBatch (t : Nat) (ch : Change) (s : State) : State :=
  match getTbl s t with
  | none => s
  | some x =>
    if ch.expect != 0xFFFFFFFF && ch.expect != x.gen then failStaging t ch stStale 0 s
    else
      match rowWrites (changeEra ch.who) t ch.recs 0 [] s with
      | ((some i, _), s) => failStaging t ch stFormat i s
      | ((none, ws), s) =>
        match stageRecs t ws ch.recs 0 s with
        | (some (i, st), s) => failStaging t ch st i s
        | (none, s) => stagingEnds t s

/-- A change of one entry waits for the table writer. -/
def askWriter (r : InsReq) (s : State) : State :=
  { s with tbl := { s.tbl with ords := s.tbl.ords + 1, inserts := s.tbl.inserts ++ [{ r with ord := s.tbl.ords }] } }

/-- Stage a change of one entry; an insertion waits for its chain (R246). -/
def stageCmd (t : Nat) (p : HPort) (op : Nat) (ch : Change) (r : BatchRec) (s : State) : State :=
  match getTbl s t with
  | none => s
  | some x =>
    let (present, s) := stagedPresent x.desc r.key.toNat s
    match op, present with
    | 3, none => failStaging t ch stNotFound 0 s
    | 3, some f => stagingEnds t (stageRemove t f s)
    | 2, none => failStaging t ch stNotFound 0 s
    | _, _ =>
      if x.desc.rowLimit ≤ r.row.toNat || refd x r.row.toNat then failStaging t ch stFormat 0 s
      else
        let s := match present with
          | some f =>
            let s := stageRemove t f s
            if op == 1 then setExisted p s else s
          | none => s
        askWriter { table := ⟨t % 256, by omega⟩, op := 1, entry := addedEntry r, target := (0, 0), port := p, ord := 0 } s

/-- Moves on a table are held for a lookup, for at most 2 µs (R230). -/
def movesHeld (s : State) (x : Tbl) : Bool := x.holds.any (fun h => decide (now s < h.since + usT 2))

/-- A batch of a table accepted before a change still waits in the inbox. -/
def batchAhead (s : State) (t : Nat) (ch : Change) : Bool :=
  s.host.inbox.any (fun d => dOp d == 4 && dNum d 16 1 == t && decide (d.seq < changeSeq ch))

/-- A change joins its table's queue in the order of acceptance (R241). -/
def queueChange (t : Nat) (ch : Change) (s : State) : State :=
  modTbl t (fun x => { x with
    queue := x.queue.filter (fun c => decide (changeSeq c ≤ changeSeq ch)) ++ [ch] ++ x.queue.filter (fun c => decide (changeSeq ch < changeSeq c)) }) s

/-- BATCH_STAGE (R241): the oldest change of a table begins staging once the table is neither PENDING
nor RETIRING. It waits while moves on the table are held. -/
def execBatchStage (t : TableId) (s : State) : Res :=
  match getTbl s t.val with
  | none => .next s
  | some x =>
    if x.pending || x.retiring || x.staging.isSome || movesHeld s x then .next s
    else match x.queue with
      | [] => .next s
      | ch :: rest =>
        if batchAhead s t.val ch then .next s
        else
          let s := setTbl t.val { x with queue := rest, staging := some ch, changed := [] } s
          match ch.who, ch.recs with
          | .cmd p op _, r :: _ => .next (stageCmd t.val p op ch r s)
          | _, _ => .next (stageBatch t.val ch s)

/-! ### TABLE_INSERT and ENTRY_MOVE -/

/-- An insertion asked for by TBL_CMD has ended. -/
def insertEnd (r : InsReq) (ok : Bool) (s : State) : State :=
  let t := r.table.val
  match getTbl s t with
  | none => s
  | some x =>
    match x.staging with
    | some ch => if ok then stagingEnds t (noteChanged t r.entry.key s) else failStaging t ch stNoRoom 0 s
    | none => tblEnd r.port t (if ok then stOk else stNoRoom) s

def planBuckets (p : InsPlan) : List Nat := p.bucket :: (p.moves.map (fun m => [m.fromB, m.toB])).flatten
def chainBuckets (c : Chain) : List Nat := (c.moves.map (fun m => [m.fromB, m.toB])).flatten

/-- The buckets that a change of a key may touch: the key's own, and those of an insertion's path. -/
def changeBuckets (x : Tbl) (op key : Nat) (s : State) : List Nat :=
  let path := if op == 1 then ((planFor x.desc.table key s).1.map planBuckets).getD [] else []
  [bucketN x.desc 0 key, bucketN x.desc 1 key] ++ path

/-- A change must wait: its buckets meet those of a running chain, or of a change accepted before it that waits (R232). -/
def writerBusy (t op key ord : Nat) (s : State) : Bool :=
  match getTbl s t with
  | none => false
  | some x =>
    let bs := changeBuckets x op key s
    let meets (cs : List Nat) : Bool := cs.any (fun b => bs.contains b)
    s.tbl.chains.any (fun c => c.req.table.val == t && meets (chainBuckets c)) ||
      s.tbl.inserts.any (fun r => r.table.val == t && decide (r.ord < ord) && meets (changeBuckets x r.op r.entry.key s)) ||
      (x.desc.kind == 1 && s.flow.inserts.any (fun i => decide (i.ord < ord) && meets (changeBuckets x 1 i.frame.key s)))

/-- The entry of a key that is visible now. -/
def visibleNow (x : Tbl) (key : Nat) (s : State) : Option Found × State :=
  findKey x.desc (visibleIn x (now s)) key s

/-- Replace the row and STATIC of a present entry of a FLOW table, in every copy of it: an update, which sets HIT (R227). -/
def replaceEntry (t : Nat) (f : Found) (row : Nat) (static : Bool) (s : State) : State :=
  match getTbl s t with
  | none => s
  | some x =>
    touchKey t (visibleIn x (now s)) f.entry.key
      (putSlot t f.bucket f.slot { f.entry with row := row, flags := setBits f.entry.flags 5 5 (b2n static) } s)

/-- Insert an absent key: at once, or by a chain where its path has moves (R233). -/
def startInsert (r : InsReq) (s : State) : State :=
  let t := r.table.val
  match planFor t r.entry.key s with
  | (none, s) => insertEnd r false (incCnt (cntTable t 3) s)
  | (some p, s) =>
    if p.moves.isEmpty then insertEnd r true (incCnt (cntTable t 0) (putSlot t p.bucket p.slot r.entry s))
    else { s with tbl := { s.tbl with chains := s.tbl.chains ++ [{ req := r, moves := p.moves }] } }

/-- A TBL_CMD change of one entry runs (R246): on an EMBED table, the insertion that its staging left; on a FLOW table, and for a
MOVE, by what the table holds now. -/
def runReq (r : InsReq) (s : State) : State :=
  let t := r.table.val
  match getTbl s t with
  | none => s
  | some x =>
    if r.op == 1 && x.staging.isSome then startInsert r s
    else
      let (found, s) := visibleNow x r.entry.key s
      match r.op, found with
      | 1, none => startInsert r s
      | 1, some f => tblEnd r.port t stOk (setRegF tblCmdOff (portIx r.port) 14 14 1 (replaceEntry t f r.entry.row (eStatic r.entry) s))
      | _, none => tblEnd r.port t stNotFound s
      | 2, some f => tblEnd r.port t stOk (replaceEntry t f r.entry.row (eStatic r.entry) s)
      | 3, some f => tblEnd r.port t stOk (incCnt (cntTable t 1) (putSlot t f.bucket f.slot Entry.empty s))
      | _, some f =>
        let b := bucketN x.desc r.target.1 r.entry.key
        let (es, s) := bucketRd x.desc b s
        if eEmpty (es.getD r.target.2 Entry.empty) then
          tblEnd r.port t stOk (makeMove t { fromB := f.bucket, fromS := f.slot, toB := b, toS := r.target.2 } none Entry.empty s)
        else tblEnd r.port t stNoRoom s

/-- A waiting change may start: it is not busy, a MOVE is not held, and 64 chains at most run (R230, R232). -/
def mayRun (r : InsReq) (s : State) : Bool :=
  !writerBusy r.table.val r.op r.entry.key r.ord s &&
    (r.op != 4 || ((getTbl s r.table.val).map (fun x => !movesHeld s x)).getD true) && (r.op != 1 || decide (s.tbl.chains.length < 64))

/-- TABLE_INSERT (R232, R233): the writer takes the oldest waiting change that may start. -/
def execTableInsert (s : State) : Res :=
  match takeFirst (fun r => mayRun r s) s.tbl.inserts with
  | none => .next s
  | some (r, rest) => .next (runReq r { s with tbl := { s.tbl with inserts := rest } })

/-- ENTRY_MOVE (R234): the next move of a running chain. -/
def execEntryMove (chain : Nat) (s : State) : Res :=
  match s.tbl.chains[chain]? with
  | none => .next s
  | some c =>
    let t := c.req.table.val
    match getTbl s t, c.moves with
    | some x, m :: rest =>
      if movesHeld s x then .next s
      else
        let s := makeMove t m rest.head? c.req.entry s
        if rest.isEmpty then
          let s := { s with tbl := { s.tbl with chains := s.tbl.chains.eraseIdx chain } }
          .next (insertEnd c.req true (incCnt (cntTable t 0) s))
        else .next { s with tbl := { s.tbl with chains := s.tbl.chains.set chain { c with moves := rest } } }
    | _, _ => .next { s with tbl := { s.tbl with chains := s.tbl.chains.eraseIdx chain } }

/-! ### TBL_CMD (R245, R246) -/

/-- Queue a change of one entry on an EMBED table. -/
def queueCmd (p : HPort) (t op : Nat) (s : State) : State :=
  let r : BatchRec :=
    { op := BitVec.ofNat 4 op, static := tblStatic s p, reserved := false, row := BitVec.ofNat 32 (tblRow s p),
      key := BitVec.ofNat 64 (tblKey s p), rowBytes := [] }
  let (n, s) := acceptNow s
  queueChange t { who := .cmd p op n, recs := [r], expect := 0xFFFFFFFF, due := 0 } s

/-- A change that a TBL_CMD asks the writer for. -/
def tblReq (p : HPort) (t : TableId) (op : Nat) (s : State) : InsReq :=
  let w := regW s (tblCmdOff + 0x14) (portIx p)
  { table := t, op := op, port := p, ord := s.tbl.ords, target := (bits w 18 18, bits w 17 16)
    entry := { key := tblKey s p, row := tblRow s p, flags := mkFlags 0 false false (tblStatic s p) 1 } }

/-- The writer makes a change at once, or it waits. An insertion of an absent key waits for TABLE_INSERT. -/
def requestNow (r : InsReq) (s : State) : State :=
  let absent : Bool := match getTbl s r.table.val with
    | some x => r.op == 1 && (visibleNow x r.entry.key s).1.isNone
    | none => false
  if absent || !mayRun r s then askWriter r s else runReq r s

/-- The shape of every TBL_CMD: discarded while BUSY, NOT_FOUND for a number that no table holds. -/
def tblCmd (p : HPort) (t : TableId) (op : Nat) (f : Tbl → State → State) (s : State) : Res :=
  if tblBusy s p then .next s
  else
    let s := tblStart p t.val op s
    match getTbl s t.val with
    | none => .next (tblEnd p t.val stNotFound s)
    | some x => .next (f x s)

/-- TBL_READ: a lookup, which sets HIT (R227); FOUND_FLAGS are those that it finds. -/
def execTblRead (p : HPort) (t : TableId) (s : State) : Res :=
  if !barUp s then .next s else
  tblCmd p t 0 (fun x s =>
    match visibleNow x (tblKey s p) s with
    | (none, s) => tblEnd p t.val stNotFound s
    | (some f, s) =>
      let i := portIx p
      let s := setRegW (tblCmdOff + 0x10) i f.entry.row s
      let w := regW s (tblCmdOff + 0x14) i
      let s := setRegW (tblCmdOff + 0x14) i (setBits (setBits (setBits w 15 8 f.entry.flags) 25 24 f.slot) 26 26 f.n) s
      tblEnd p t.val stOk (touchKey t.val (visibleIn x (now s)) f.entry.key s)) s

/-- FLW_CTL.HW_RECORDS (R292). -/
def hwRecords (s : State) : Nat := regF s 0x820000 0 31 11

/-- TBL_INSERT. -/
def execTblInsert (p : HPort) (t : TableId) (s : State) : Res :=
  if !barUp s then .next s else
  tblCmd p t 1 (fun x s =>
    if x.desc.kind == 0 then queueCmd p t.val 1 s
    else if tblRow s p < hwRecords s || x.desc.rowLimit ≤ tblRow s p then tblEnd p t.val stFormat s
    else requestNow (tblReq p t 1 s) s) s

/-- TBL_UPDATE. -/
def execTblUpdate (p : HPort) (t : TableId) (s : State) : Res :=
  if !barUp s then .next s else
  tblCmd p t 2 (fun x s =>
    if x.desc.kind == 0 then queueCmd p t.val 2 s
    else if x.desc.rowLimit ≤ tblRow s p then tblEnd p t.val stFormat s
    else requestNow (tblReq p t 2 s) s) s

/-- TBL_DELETE. -/
def execTblDelete (p : HPort) (t : TableId) (s : State) : Res :=
  if !barUp s then .next s else
  tblCmd p t 3 (fun x s => if x.desc.kind == 0 then queueCmd p t.val 3 s else requestNow (tblReq p t 3 s) s) s

/-- TBL_MOVE: contents and GEN do not change. -/
def execTblMove (p : HPort) (t : TableId) (s : State) : Res :=
  if !barUp s then .next s else tblCmd p t 4 (fun _ s => requestNow (tblReq p t 4 s) s) s

/-! ### Freed tables and host writes (R242, R487) -/

/-- Free a table: its unfinished changes end with STALE_SLOT, batches that still wait in the inbox among them (R487). -/
def freeTable (t : Nat) (s : State) : State :=
  match getTbl s t with
  | none => s
  | some x =>
    let s := match x.staging with
      | some ch => failStaging t ch stStale 0 s
      | none => s
    let s := x.queue.foldl (fun s ch => changeEnd t ch.who stStale 0 s) s
    let batch (d : Desc) : Bool := dOp d == 4 && dNum d 16 1 == t
    let late := s.host.inbox.filter batch
    let s := late.foldl (fun s d => completeBare d stStale s) { s with host := { s.host with inbox := s.host.inbox.filter (fun d => !batch d) } }
    let waits := s.tbl.inserts ++ s.tbl.chains.map (·.req)
    let s := (waits.filter (fun r => r.table.val == t)).foldl (fun s r => tblEnd r.port t stStale s) s
    { s with tbl := { s.tbl with
        tables := mapDel t s.tbl.tables
        inserts := s.tbl.inserts.filter (fun r => r.table.val != t)
        chains := s.tbl.chains.filter (fun c => c.req.table.val != t) } }

end Sys2Proof.Machine
end

