-- ==== Sys2Proof/Machine/Nlu.lean ====
section
/-! DEFINITION. Near-memory lookup: keys, coalescing, the forward queues, misses, GATHER and POOL, the
pool combiner and overhang reads (R206 to R219, R229 to R231). -/

namespace Sys2Proof.Machine

/-! ### Reams seen by the NLUs -/

def reamOf (s : State) (seq : W32) : Option Ream := s.reams.find? (fun r => r.seq == seq)
/-- The view of a ream's lookups: its launch edge, though they are made before it, or now for a ream the device does not
hold (R238). -/
def reamView (s : State) (seq : W32) : Nat := ((reamOf s seq).map viewOf).getD (now s)

/-- The launch edge of an NLU command lies ahead (R38, R40). -/
def nluAhead (s : State) (d : CDie) (cmd : NluCmd) : Bool :=
  ((reamOf s cmd.reamSeq).map (fun r => !r.launched)).getD false || refPending s d.val cmd.launchRef.toNat

/-- An NLU command waits for its launch edge, and then for every stack that is not awake (R38, R40, R43). -/
def nluWaits (s : State) (d : CDie) (cmd : NluCmd) : Bool :=
  nluAhead s d cmd ||
    (List.range 16).any (fun t => !stackLost s t && (mapGet (292 + t) s.pwr.doms).any (fun d => d.st == 1 || d.st == 2 || d.st == 3))

/-- A command that waits for stacks wakes them (R419). -/
def nluWake (d : CDie) (cmd : NluCmd) (s : State) : State :=
  if nluAhead s d cmd then s else (List.range 16).foldl (fun s t => beginWake (domStack t) 1 s) s

def modReam (seq : W32) (f : Ream → Ream) (s : State) : State :=
  { s with reams := s.reams.map (fun r => if r.seq == seq then f r else r) }

/-! ### Lookups (R229 to R231) -/

def nluOf (s : State) (d : TblDesc) (b : Nat) : Nat := ((ownerOf s (d.bucketBase / 64 + b)).map (·.1)).getD 0

/-- A bucket's answer for a key in a view: a row, whose slot is hit (R227), poison, or no match. -/
def bucketAnswer (x : Tbl) (n key view : Nat) (s : State) : Option RowRes × State :=
  let ((es, p), s) := readBucket x.desc (bucketN x.desc n key) s
  if p then (some .poisoned, s)
  else match findIn (visibleIn x view) key n 0 es with
    | some f => (some (.row f.entry.row), if eHit f.entry then s else touchKey x.desc.table (visibleIn x view) key s)
    | none => (none, s)

/-- A miss notification (R231). -/
def postMiss (u : Nat) (ream : W32) (t key : Nat) (s : State) : State :=
  let w : FifoWord :=
    { ctl := 0x401, data := BitVec.ofNat 128 (key + t * 2 ^ 64 + u * 2 ^ 72 + ream.toNat * 2 ^ 80) }
  let s := { s with tbl := { s.tbl with missFifo := fifoPush 4096 [w] s.tbl.missFifo } }
  incCnt (cntTable t 7) s

/-- A final miss of a lookup of owner u (R214). -/
def finalMiss (u : Nat) (ream : W32) (t key : Nat) (s : State) : RowRes × State :=
  (.default_, postMiss u ream t key (incCnt (cntNlu u 1) s))

/-- A whole lookup: bucket 0, then bucket 1, then the default row. Nothing moves in between, so the
epochs agree. -/
def lookupNow (u : Nat) (x : Tbl) (ream : W32) (key view : Nat) (s : State) : RowRes × State :=
  match bucketAnswer x 0 key view s with
  | (some r, s) => (r, s)
  | (none, s) =>
    if bucketN x.desc 0 key == bucketN x.desc 1 key then finalMiss u ream x.desc.table key s
    else match bucketAnswer x 1 key view s with
      | (some r, s) => (r, s)
      | (none, s) => finalMiss u ream x.desc.table key s

def sameCoal (ream : W32) (t : TableId) (key : W64) (c : Coal) : Bool := c.ream == ream && c.table == t && c.key == key

/-- The pair finds no place in the coalescing table: 16,384 pairs for each of two reams (R213). -/
def coalFull (x : Nlu) (ream : W32) : Bool :=
  let mine := x.coal.filter (fun c => !c.uncoal && c.ream == ream)
  let others := ((x.coal.filter (fun c => !c.uncoal && c.ream != ream)).map (·.ream)).eraseDups
  decide (16384 ≤ mine.length) || (mine.isEmpty && decide (2 ≤ others.length))

/-- Start a lookup at its bucket-0 owner: counted, with an entry in the coalescing table when it has
room. -/
def startCoal (u : Nat) (ream : W32) (t : TableId) (key : W64) (served : Nat) (s : State) : State :=
  let full := coalFull (getNlu s u) ream
  let s := incCnt (cntNlu u 0) s
  let s := if full then setSticky 0xC80004 u 8 (incCnt (cntNlu u 3) s) else s
  let x := getNlu s u
  setNlu u { x with coal := x.coal ++ [{ ream := ream, table := t, key := key, res := none, data := none, served := served, uncoal := full }] } s

/-- A lookup has ended: moves are no longer held for it (R230). -/
def dropHold (t : Nat) (ream : W32) (key : Nat) (s : State) : State :=
  match getTbl s t with
  | some x =>
    let rest := x.holds.filter (fun h => !(h.ream == ream && h.key == key))
    if rest.length == x.holds.length then s else setTbl t { x with holds := rest } s
  | none => s

/-- Record what a lookup resolved to. -/
def resolveCoal (u : Nat) (ream : W32) (t : TableId) (key : W64) (r : RowRes) (s : State) : State :=
  let s := dropHold t.val ream key.toNat s
  let x := getNlu s u
  match takeFirst (fun c => sameCoal ream t key c && c.res.isNone) x.coal with
  | some (c, rest) => setNlu u { x with coal := rest ++ [{ c with res := some r }] } s
  | none => s

/-- Pass a bucket-0 miss to the owner of bucket 1; a full queue leaves it with its bucket-0 owner
(R214). -/
def forwardTo (x : Tbl) (f : FwdLookup) (s : State) : State :=
  let v := nluOf s x.desc (bucketN x.desc 1 f.key.toNat)
  let q := getNlu s v
  if q.fwd.length < 4096 then setNlu v { q with fwd := q.fwd ++ [f] } s
  else
    let s := setSticky 0xC80004 v 9 s
    let o := getNlu s f.owner.val
    setNlu f.owner.val { o with held := o.held ++ [f] } s

/-- Read bucket 0 for a lookup in progress, with the owner's copy of the move epoch noted before, and forward it on a miss (R230). -/
def startBucket0 (x : Tbl) (f : FwdLookup) (s : State) : State :=
  let view := reamView s f.ream
  let key := f.key.toNat
  let s := takeEpoch f.owner.val f.table.val s
  let noted := mapGetD 0 f.table.val (getNlu s f.owner.val).epochs
  match bucketAnswer x 0 key view s with
  | (some r, s) => resolveCoal f.owner.val f.ream f.table f.key r s
  | (none, s) =>
    if bucketN x.desc 0 key == bucketN x.desc 1 key then
      let (r, s) := finalMiss f.owner.val f.ream f.table.val key s
      resolveCoal f.owner.val f.ream f.table f.key r s
    else forwardTo x { f with epoch := noted } s

/-- NLU_LOOKUP (R210, R213, R229): a key occurrence of a ream reaches the NLU that owns its bucket 0. -/
def execNluLookup (u : NluId) (ream : W32) (t : TableId) (key : W64) (s : State) : Res :=
  match getTbl s t.val with
  | none => .next s
  | some x =>
    if x.desc.kind != 0 || nluOf s x.desc (bucketN x.desc 0 key.toNat) != u.val then .next s
    else
      let n := getNlu s u.val
      match takeFirst (fun c => sameCoal ream t key c && !c.uncoal) n.coal with
      | some (c, rest) =>
        .next (setNlu u.val { n with coal := rest ++ [{ c with served := c.served + 1 }] } (incCnt (cntNlu u.val 2) s))
      | none =>
        let s := startCoal u.val ream t key 1 s
        .next (startBucket0 x { ream := ream, table := t, key := key, owner := u, epoch := x.epoch, tries := 0 } s)

/-- A held lookup enters a forward queue that has room again. -/
def refillFwd (v : Nat) (s : State) : State :=
  let wants (f : FwdLookup) : Bool :=
    match getTbl s f.table.val with
    | some x => nluOf s x.desc (bucketN x.desc 1 f.key.toNat) == v
    | none => false
  match s.nlus.find? (fun p => p.2.held.any wants) with
  | none => s
  | some (o, n) =>
    match takeFirst wants n.held with
    | none => s
    | some (f, rest) =>
      let s := setNlu o { n with held := rest } s
      let q := getNlu s v
      if q.fwd.length < 4096 then setNlu v { q with fwd := q.fwd ++ [f] } s else s

/-- LOOKUP_FORWARD (R214, R230): the oldest forwarded lookup of an NLU reads bucket 1; a miss with an
epoch that differs starts again at bucket 0, and after four retries moves are held. -/
def execLookupForward (u : NluId) (s : State) : Res :=
  let n := getNlu s u.val
  match n.fwd with
  | [] => .next s
  | f :: rest =>
    let s := setNlu u.val { n with fwd := rest } s
    let s := refillFwd u.val s
    match getTbl s f.table.val with
    | none => .next s
    | some x =>
      let key := f.key.toNat
      let s := takeEpoch u.val f.table.val s
      match bucketAnswer x 1 key (reamView s f.ream) s with
      | (some r, s) => .next (resolveCoal f.owner.val f.ream f.table f.key r s)
      | (none, s) =>
        if mapGetD 0 f.table.val (getNlu s u.val).epochs == f.epoch then
          let (r, s) := finalMiss f.owner.val f.ream f.table.val key s
          .next (resolveCoal f.owner.val f.ream f.table f.key r s)
        else
          let s := incCnt (cntTable f.table.val 4) s
          let hold : Hold := { ream := f.ream, key := key, since := now s }
          let s := if f.tries + 1 == 4 then modTbl f.table.val (fun y => { y with holds := y.holds ++ [hold] }) s else s
          .next (startBucket0 x { f with tries := f.tries + 1 } s)

/-! ### Keys of a command -/

/-- Forget a lookup in progress that its command now completes itself. -/
def dropFwd (ream : W32) (t : TableId) (key : W64) (s : State) : State :=
  let keep (f : FwdLookup) : Bool := !(f.ream == ream && f.table == t && f.key == key)
  let s := dropHold t.val ream key.toNat s
  { s with nlus := s.nlus.map (fun p => (p.1, { p.2 with fwd := p.2.fwd.filter keep, held := p.2.held.filter keep })) }

/-- A row's elements, none when it is poisoned or fails R66, where an E4M3 NaN is a fault of matrix operands alone (R211). -/
def rowElems (d : TblDesc) (bs : Bytes) : Option (List FV) :=
  match rowFmt d with
  | none => none
  | some (f, g) =>
    let bb := blockBytes f g
    let blocks := (List.range (rowBlocks d g)).map (fun j => readBlock true f g ((bs.drop (j * bb)).take bb))
    if ((List.range blocks.length).zip blocks).any (fun p => (blockFault f g p.1 false p.2).isSome) then none
    else some (((blocks.map (fun b => b.codes.map (decodeElem f b.dk))).flatten).take d.rowLen)

/-- A row's bytes with POISON. -/
def fetchRow (x : Tbl) (r : RowRes) (s : State) : (Bytes × Bool) × State :=
  match r with
  | .poisoned => (([], true), s)
  | _ =>
    let row := match r with
      | .row n => n
      | _ => x.desc.default_
    let ((bs, p), s) := readDpa (rowAddr x.desc row) (rowT x.desc) s
    ((bs, p || (rowElems x.desc bs).isNone), s)

/-- The row of one key occurrence of a command, at the NLU that owns the key's bucket 0: counted unless NLU_LOOKUP has counted
it. A pair that the coalescing table holds has its row fetched once, any other at every occurrence (R213); the NLU notes a
poisoned row (R220). -/
def keyRow (x : Tbl) (ream : W32) (t : TableId) (key : W64) (s : State) : (Bytes × Bool) × State :=
  let u := nluOf s x.desc (bucketN x.desc 0 key.toNat)
  let view := reamView s ream
  let note (b : Bytes × Bool) (s : State) : State := if b.2 then setSticky 0xC80004 u 11 s else s
  let mine (c : Coal) : Bool := sameCoal ream t key c && (!c.uncoal || c.served != 0)
  let known := (getNlu s u).coal.any mine
  let s := if known then s else startCoal u ream t key 1 s
  match takeFirst mine (getNlu s u).coal with
  | none => (([], true), s)
  | some (c, _) =>
    let s := if known && c.served == 0 then incCnt (cntNlu u 2) s else s
    let (r, s) := match c.res with
      | some r => (r, s)
      | none => lookupNow u x ream key.toNat view (dropFwd ream t key s)
    let (b, s) := match c.data with
      | some b => (b, s)
      | none => fetchRow x r s
    let n := getNlu s u
    let rest := ((takeFirst mine n.coal).map (·.2)).getD n.coal
    let coal := if c.uncoal then rest else rest ++ [{ c with served := c.served - 1, res := some r, data := some b }]
    (b, note b (setNlu u { n with coal := coal } s))

/-- The rows of a key list in order; a key that its poisoned line hides has none. -/
def keyRows (x : Tbl) (ream : W32) (t : TableId) : List (Option W64) → State → List (Bytes × Bool) × State
  | [], s => ([], s)
  | k :: rest, s =>
    let (b, s) := match k with
      | some k => keyRow x ream t k s
      | none => (([], true), s)
    let (bs, s) := keyRows x ream t rest s
    (b :: bs, s)

/-- `n` entries of `w` bytes of a list that starts at a line of die SRAM; none for one whose line is poisoned. -/
def listEntries (s : State) (d : CDie) (line w n : Nat) : List (Option Nat) :=
  let x := getDie s d
  (List.range n).map (fun i =>
    let a := 64 * line + w * i
    if x.sramPoison.contains (a / 64) then none else some (leNat (ramRead x.sram a w)))

/-- The 64-bit keys of a command's list in die SRAM. -/
def keyList (s : State) (d : CDie) (line count : Nat) : List (Option W64) :=
  (listEntries s d line 8 count).map (fun k => k.map (BitVec.ofNat 64))

/-- Write output `i` of a command into its cluster's SRAM; a poisoned output marks its lines. -/
def writeOut (cmd : NluCmd) (i : Nat) (bs : Bytes) (poison : Bool) (s : State) : State :=
  let l := cmd.destLine.toNat + i * (cmd.destStrideM1.toNat + 1)
  let k : ClusterId := ⟨cmd.destCluster.toNat, cmd.destCluster.isLt⟩
  modCluster k (fun c => { c with
    sram := ramWrite c.sram (64 * l) bs
    sramPoison := (linesOf (64 * l) bs.length).foldl (fun m j => setPut poison j m) c.sramPoison }) s

/-- Free bytes for an output that is poisoned (DESIGN CHOICE, log 3). -/
def freeBytes (n : Nat) (s : State) : Bytes × State :=
  let (v, s) := drawFree s
  (toLE n v, s)

def outBytes (d : TblDesc) (outFmt : Nat) : Nat :=
  if outFmt == 2 then rowSize d else if outFmt == 1 then 2 * d.rowLen else 4 * d.rowLen

def encodeOut (outFmt : Nat) (v : FV) : Bytes :=
  if outFmt == 1 then toLE 2 (toBf16 (roundFV bf16 v)).toNat else toLE 4 (toF32 (roundFV fp32 v)).toNat

/-- The command's operand values and extents (R207, R208). -/
def nluListed (s : State) (d : CDie) (pool : Bool) (cmd : NluCmd) : Bool :=
  cmd.destCluster.toNat / 8 == d.val && cmd.outFmt != 3 &&
    (if pool then cmd.poolOp != 3 && cmd.outFmt != 2
     else cmd.poolOp == 0 && cmd.bagLine == 0 && cmd.bagCountM1 == 0) &&
    (match getTbl s cmd.table.val with
     | some x => x.desc.kind == 0
     | none => false)

def nluExtent (pool : Bool) (cmd : NluCmd) : Nat :=
  cmd.destLine.toNat + ((if pool then cmd.bagCountM1.toNat else cmd.keyCountM1.toNat) + 1) * (cmd.destStrideM1.toNat + 1)

/-- The bucket-0 owners of keys, as trace counts them. -/
def keyOwners (s : State) (x : Tbl) (keys : List W64) : List Nat := keys.map (fun k => nluOf s x.desc (bucketN x.desc 0 k.toNat))

/-- The NLUs that keys of a ream's commands still reach. -/
def nlusLeft (s : State) (seq : W32) : List Nat :=
  let of (j : NluJob) : List Nat :=
    match getTbl s j.cmd.table.val with
    | some x => keyOwners s x ((keyList s j.die j.cmd.keyLine.toNat (j.cmd.keyCountM1.toNat + 1)).filterMap id)
    | none => []
  ((reamOf s seq).map (fun r => (r.jobs.map of).flatten)).getD []

/-- The command has run on its NLUs. An NLU that none of the ream's commands reaches any more returns its credits and frees the
ream's coalescing entries (R213, R303); each NLU that served keys records NLU_CMD_END. -/
def nluDone (pool : Bool) (d : CDie) (cmd : NluCmd) (served : List Nat) (s : State) : State :=
  let s := modReam cmd.reamSeq (fun r => { r with jobs := r.jobs.erase { die := d, pool := pool, cmd := cmd } }) s
  let s := served.eraseDups.foldl (fun s u =>
    emitTrace 5 (unitCode 6 u) 0 0 (cmd.table.val + 2 ^ 8 * min (served.filter (· == u)).length 0xFFFFFF) s) s
  let left := nlusLeft s cmd.reamSeq
  let s := modReam cmd.reamSeq (fun r => { r with nluCredit := r.nluCredit.filter (fun p => left.contains p.1) }) s
  { s with nlus := s.nlus.filterMap (fun p =>
      let n := if left.contains p.1 then p.2 else { p.2 with coal := p.2.coal.filter (fun c => c.ream != cmd.reamSeq) }
      if n == Nlu.empty then none else some (p.1, n)) }

/-- The write of a GATHER's outputs. -/
def gatherOuts (d : TblDesc) (cmd : NluCmd) : List (Bytes × Bool) → Nat → State → State
  | [], _, s => s
  | (bs, bad) :: rest, i, s =>
    let fmt := cmd.outFmt.toNat
    let out := if bad then none
      else if fmt == 2 then some (bs.take (rowSize d))
      else (rowElems d bs).map (fun es => (es.map (encodeOut fmt)).flatten)
    let s := match out with
      | some o => writeOut cmd i o false s
      | none =>
        let (o, s) := freeBytes (outBytes d fmt) s
        writeOut cmd i o true s
    gatherOuts d cmd rest (i + 1) s

/-- GATHER (R208 to R211). `errs` names the errors that have come about in lines. -/
def execGather (d : CDie) (cmd : NluCmd) (errs : List (Nat × LineErr)) (s : State) : Res :=
  if !nluListed s d false cmd then .refused .unlistedOperand
  else if 262144 < nluExtent false cmd then .fault (.addressOutside (64 * nluExtent false cmd))
  else if nluWaits s d cmd then .next (nluWake d cmd s)
  else match getTbl s cmd.table.val with
    | none => .refused .unlistedOperand
    | some x =>
      let keys := keyList s d cmd.keyLine.toNat (cmd.keyCountM1.toNat + 1)
      let served := keyOwners s x (keys.filterMap id)
      let (rows, s) := keyRows x cmd.reamSeq cmd.table keys (putErrs errs s)
      .next (nluDone false d cmd served (gatherOuts x.desc cmd rows 0 s))

/-! ### POOL (R208, R212) -/

/-- An element in units of 2^-26; a NaN has no number. -/
def fixed26 (v : FV) : Option Int :=
  match v with
  | .fin n m e => some (alignTo n m e (-26))
  | _ => none

/-- Two elements added exactly, or the larger of them. -/
def poolPair (isMax : Bool) (p q : Option Int) : Option Int :=
  match p, q with
  | some p, some q => some (if isMax then max p q else p + q)
  | _, _ => none

/-- A bag's exact partials from its rows: sums, or maxima. -/
def bagPartial (d : TblDesc) (isMax : Bool) (rows : List (Bytes × Bool)) : List (Option Int) × Bool :=
  let es := rows.map (fun r => if r.2 then none else (rowElems d r.1).map (fun l => l.map fixed26))
  if es.any (·.isNone) then ([], true)
  else
    match es.filterMap id with
    | [] => ([], false)
    | a :: rest => (rest.foldl (fun acc b => acc.zipWith (poolPair isMax) b) a, false)

/-- A bag lies in the key list and holds a listed number of keys. -/
def bagFits (n : Nat) (b : Nat × Nat) : Bool := decide (b.1 + b.2 ≤ n) && decide (b.2 ≤ 256)
def inBag (i : Nat) (b : Nat × Nat) : Bool := decide (b.1 ≤ i) && decide (i < b.1 + b.2)

/-- A bag list's entries: FIRST and LEN of each (R208); none for one whose line is poisoned. -/
def bagList (s : State) (d : CDie) (line n : Nat) : List (Option (Nat × Nat)) :=
  (listEntries s d line 4 n).map (fun b => b.map (fun w => (bits w 19 0, bits w 28 20)))

/-- The keys of a POOL that are looked up: those that only bags beyond the key list name are not (R208), and those that no bag
names are (DESIGN CHOICE, log 112). -/
def poolKeys (keys : List (Option W64)) (bags : List (Option (Nat × Nat))) : List (Option W64) :=
  let n := keys.length
  let bs := bags.filterMap id
  (keys.zip (List.range n)).map (fun k =>
    if bs.any (fun b => bagFits n b && inBag k.2 b) || !bs.any (fun b => inBag k.2 b) then k.1 else none)

/-- A bag's partials, length and poison from the rows of the key list. -/
def poolBag (x : Tbl) (cmd : NluCmd) (rows : List (Bytes × Bool)) (b : Option (Nat × Nat)) : List (Option Int) × Nat × Bool :=
  match b with
  | none => ([], 0, true)
  | some b =>
    if bagFits rows.length b then
      let (es, bad) := bagPartial x.desc (cmd.poolOp == 2) ((rows.drop b.1).take b.2)
      (es, b.2, bad)
    else ([], b.2, true)

/-- EMPTY_BAGS counts the bags without keys, at NLU0 of the lowest stack of the destination's die that is not
lost (R212). -/
def countEmpty (cmd : NluCmd) (n : Nat) (bags : List (Option (Nat × Nat))) (s : State) : State :=
  match (List.range' (4 * (cmd.destCluster.toNat / 8)) 4).find? (fun j => !stackLost s j) with
  | some j => addCnt (cntNlu (4 * j) 7) ((bags.filterMap id).filter (fun b => b.2 == 0 && bagFits n b)).length s
  | none => s

/-- POOL: the exact partials of every bag reach the pool combiner (R212). -/
def execPool (d : CDie) (cmd : NluCmd) (errs : List (Nat × LineErr)) (s : State) : Res :=
  if !nluListed s d true cmd then .refused .unlistedOperand
  else if 262144 < nluExtent true cmd then .fault (.addressOutside (64 * nluExtent true cmd))
  else if nluWaits s d cmd then .next (nluWake d cmd s)
  else match getTbl s cmd.table.val with
    | none => .refused .unlistedOperand
    | some x =>
      let bags := bagList s d cmd.bagLine.toNat (cmd.bagCountM1.toNat + 1)
      let keys := poolKeys (keyList s d cmd.keyLine.toNat (cmd.keyCountM1.toNat + 1)) bags
      let served := keyOwners s x (keys.filterMap id)
      let (rows, s) := keyRows x cmd.reamSeq cmd.table keys (putErrs errs s)
      let s := countEmpty cmd keys.length bags s
      .next (nluDone true d cmd served { s with pools := s.pools ++ [{ die := d, cmd := cmd, bags := bags.map (poolBag x cmd rows) }] })

/-- One element of a pooled output: rounded once (R212). -/
def poolElem (op outFmt len : Nat) (v : Int) : Bytes :=
  let f := if outFmt == 1 then bf16 else fp32
  let r := if op == 1 then roundQ f (decide (v < 0)) v.natAbs (len * 2 ^ 26) else roundQ f (decide (v < 0)) v.natAbs (2 ^ 26)
  encodeOut outFmt (if r.isZero then FV.zero else r)

/-- The elements of a pooled output; one with a NaN among its terms is a free value, the manual giving none (log 18). -/
def poolElems (op outFmt len : Nat) : List (Option Int) → State → Bytes × State
  | [], s => ([], s)
  | e :: rest, s =>
    let (b, s) := match e with
      | some v => (poolElem op outFmt len v, s)
      | none => freeBytes (if outFmt == 1 then 2 else 4) s
    let (bs, s) := poolElems op outFmt len rest s
    (b ++ bs, s)

/-- A pooled output of `n` elements: an empty bag gives +0, or −∞ for MAX (R212). -/
def poolOut (op outFmt n : Nat) (len : Nat) (es : List (Option Int)) (s : State) : Bytes × State :=
  if len == 0 then ((List.replicate n (encodeOut outFmt (if op == 2 then .inf true else FV.zero))).flatten, s)
  else poolElems op outFmt len es s

def poolOuts (d : TblDesc) (cmd : NluCmd) : List (List (Option Int) × Nat × Bool) → Nat → State → State
  | [], _, s => s
  | (es, len, bad) :: rest, i, s =>
    let (o, s) := if bad then freeBytes (outBytes d cmd.outFmt.toNat) s else poolOut cmd.poolOp.toNat cmd.outFmt.toNat d.rowLen len es s
    poolOuts d cmd rest (i + 1) (writeOut cmd i o bad s)

/-- POOL_COMBINE: the combiner adds the partials, rounds once and writes the outputs (R212). -/
def execPoolCombine (d : CDie) (ream : W32) (tensor : BitVec 20) (s : State) : Res :=
  match takeFirst (fun j => j.die == d && j.cmd.reamSeq == ream && j.cmd.tensorId == tensor) s.pools with
  | none => .next s
  | some (j, rest) =>
    let s := { s with pools := rest }
    match getTbl s j.cmd.table.val with
    | none => .next s
    | some x => .next (poolOuts x.desc j.cmd j.bags 0 s)

/-! ### Overhang (R218, R219) -/

/-- OVERHANG_READ: a unit is read for an NLU. -/
def execOverhangRead (u : NluId) (unit : Nat) (attempts : List (Option Bytes)) (s : State) : Res :=
  match mapGet unit s.overhang.units with
  | none => .next s
  | some o => .next (deliverUnit u.val unit o attempts s)

end Sys2Proof.Machine
end

