-- ==== Sys2Proof/Machine/FwdTable.lean ====
section
/-! DEFINITION. The forwarding table of each network die, learning and aging, and the prefix memory
(R247 to R259, R491). -/

namespace Sys2Proof.Machine

def getNet (s : State) (d : NDie) : NetTables := famGet NetTables.empty s.tbl.net (dieIx d)
def setNet (d : NDie) (x : NetTables) (s : State) : State :=
  { s with tbl := { s.tbl with net := famSet s.tbl.net (dieIx d) x } }
def modNet (d : NDie) (f : NetTables → NetTables) (s : State) : State := setNet d (f (getNet s d)) s

/-! ### The table (R228, R247, R248) -/

def fwdSeed0 : Nat := 0x5A5A0F0F
def fwdSeed1 : Nat := 0xC3C37171
def fwdHash (n key : Nat) : Nat := hashBucket (if n == 0 then fwdSeed0 else fwdSeed1) 16 key

def fwdBucket (d : NDie) (b : Nat) (s : State) : List Entry := decodeBucket (ramRead (getNet s d).fwd (64 * b) 64)

def fwdPut (d : NDie) (b sl : Nat) (e : Entry) (s : State) : State :=
  modNet d (fun x => { x with fwd := ramWrite x.fwd (64 * b) (encodeBucket (listSet (fwdBucket d b s) sl e)) }) s

/-- The bucket number n, bucket, slot and entry of a key. -/
def fwdFind (s : State) (d : NDie) (key : Nat) : Option (Nat × Nat × Nat × Entry) :=
  let look (n : Nat) : Option (Nat × Nat × Nat × Entry) :=
    let b := fwdHash n key
    let es := fwdBucket d b s
    ((List.range 4).find? (fun i => let e := es.getD i Entry.empty; !eEmpty e && e.key == key)).map
      (fun i => (n, b, i, es.getD i Entry.empty))
  match look 0 with
  | some f => some f
  | none => look 1

/-- An entry's port. -/
def fwdPort (e : Entry) : Nat := e.row % 16

/-- A key of a MAC and a VLAN (R247). -/
def fwdKey (mac vid : Nat) : Nat := mac % 2 ^ 48 + vid % 4096 * 2 ^ 48

/-- Count an ORIGIN = 1 entry into or out of its port's count. -/
def learnCount (d : NDie) (port : Nat) (up : Bool) (s : State) : State :=
  let step (n : Nat) : Nat := if up then n + 1 else n - 1
  modNet d (fun x => { x with learned := mapSetD 0 port (step (mapGetD 0 port x.learned)) x.learned }) s

/-- Write a slot, keeping the ports' counts of ORIGIN = 1 entries (R253). -/
def fwdWrite (d : NDie) (b sl : Nat) (old e : Entry) (s : State) : State :=
  let s := if !eEmpty old && eOrigin old then learnCount d (fwdPort old) false s else s
  let s := if !eEmpty e && eOrigin e then learnCount d (fwdPort e) true s else s
  fwdPut d b sl e s

/-- Insert by R233 with MAX_KICK = 32; moves take no epoch (R248). -/
def fwdInsert (d : NDie) (e : Entry) (s : State) : Bool × State :=
  let rd (b : Nat) (s : State) : List Entry × State := (fwdBucket d b s, s)
  let other (k b : Nat) : Nat := if fwdHash 0 k == b then fwdHash 1 k else fwdHash 0 k
  match planInsert rd other 32 (fwdHash 0 e.key) (fwdHash 1 e.key) (getNet s d).fwdKick s with
  | (none, kick, s) => (false, modNet d (fun x => { x with fwdKick := kick }) s)
  | (some p, kick, s) =>
    let s := modNet d (fun x => { x with fwdKick := kick }) s
    let s := p.moves.foldl (fun s m =>
      fwdPut d m.toB m.toS ((fwdBucket d m.fromB s).getD m.fromS Entry.empty) s) s
    (true, fwdWrite d p.bucket p.slot Entry.empty e s)

/-- A found entry is hit (R227, R256). -/
def touchHit (d : NDie) (f : Nat × Nat × Nat × Entry) (s : State) : State :=
  fwdPut d f.2.1 f.2.2.1 (hitEntry ((getNet s d).visited.contains f.2.1) f.2.2.2) s

/-- A lookup that sets HIT (R227). -/
def fwdLookup (d : NDie) (key : Nat) (s : State) : Option Entry × State :=
  match fwdFind s d key with
  | some f => (some f.2.2.2, touchHit d f s)
  | none => (none, s)

/-! ### Learning (R250 to R254) -/

/-- The learning register of a port: MODE, EXCESS and LIMIT. -/
def learnReg (s : State) (port : Nat) : Nat :=
  regW s (dieOff (if port < 8 then .n0 else .n1) (0x880080 + 4 * (port % 8))) 0
def learnMode (s : State) (port : Nat) : Nat := bits (learnReg s port) 1 0

/-- A notification's payload (R252). -/
def learnWord (key port port2 : Nat) (moveSeen moved aged : Bool) (gt : Nat) : FifoWord :=
  { ctl := 0x401
    data := BitVec.ofNat 128 (key % 2 ^ 60 + port % 16 * 2 ^ 64 + port2 % 16 * 2 ^ 68 + b2n moveSeen * 2 ^ 72 +
      b2n moved * 2 ^ 73 + b2n aged * 2 ^ 74 + gt % 2 ^ 48 * 2 ^ 80) }

/-- Offer a notification to the die's learn FIFO. -/
def postLearn (d : NDie) (w : FifoWord) (moveSeen : Bool) (s : State) : State :=
  let s := incCnt (cntFwd (dieIx d) 0) s
  let s := if moveSeen then incCnt (cntFwd (dieIx d) 2) s else s
  modNet d (fun x => { x with learnFifo := fifoPush 4096 [w] x.learnFifo }) s

/-- What learning does to the frame (R253, R254, R491). -/
inductive LearnOut where
  | none
  | drop
  | flood
  deriving DecidableEq, Repr

/-- LEARN_HOLD in GT units. -/
def learnHold (s : State) (d : NDie) : Nat := usT (regF s (dieOff d 0x880040) 0 15 0)

/-- A key held at this GT. -/
def heldKey (s : State) (d : NDie) (key : Nat) : Option Held :=
  match mapGet key (getNet s d).hold with
  | some h => if now s < h.until_ then some h else none
  | none => none

/-- Enter a key in the hold filter and post; a full filter posts nothing (R251). -/
def holdPost (d : NDie) (key port : Nat) (w : FifoWord) (s : State) : State :=
  let live := (getNet s d).hold.filter (fun p => decide (now s < p.2.until_))
  if 4096 ≤ live.length then incCnt (cntFwd (dieIx d) 3) (modNet d (fun x => { x with hold := live }) s)
  else
    let h : Held := { port := port, until_ := now s + learnHold s d, moveSeen := false }
    postLearn d w false (modNet d (fun x => { x with hold := mapSet key h live }) s)

/-- NATIVE learning (R251). -/
def learnNative (d : NDie) (port key gt : Nat) (s : State) : State :=
  let f := fwdFind s d key
  let s := f.elim s (fun f => touchHit d f s)
  let second (h : Held) (moved : Bool) (pt : Nat) (s : State) : State :=
    if h.port == port || h.moveSeen then incCnt (cntFwd (dieIx d) 1) s
    else
      let s := modNet d (fun x => { x with hold := mapSet key { h with moveSeen := true } x.hold }) s
      postLearn d (learnWord key pt port true moved false gt) true s
  match f.map (fun f => fwdPort f.2.2.2), heldKey s d key with
  | none, none => holdPost d key port (learnWord key port 0 false false false gt) s
  | none, some h => second h false h.port s
  | some q, held =>
    if q == port then s
    else match held with
      | none => holdPost d key port (learnWord key q port false true false gt) s
      | some h => second h true q s

/-- LEGACY learning (R253, R254). -/
def learnLegacy (d : NDie) (port key : Nat) (s : State) : LearnOut × State :=
  let w := learnReg s port
  let full (s : State) : Bool := decide (bits w 31 16 ≤ mapGetD 0 port (getNet s d).learned)
  let excess (s : State) : LearnOut × State :=
    ((if bit w 2 then .flood else .drop), incCnt (cntFwd (dieIx d) 5) s)
  match fwdFind s d key with
  | some f =>
    let s := touchHit d f s
    let e := withHit f.2.2.2
    if eStatic e || fwdPort e == port then (.none, s)
    else if full s then excess s
    else
      let e' : Entry := { e with row := setBits e.row 3 0 port, flags := mkFlags 0 true true false 1 }
      (.none, incCnt (cntFwd (dieIx d) 6) (fwdWrite d f.2.1 f.2.2.1 e e' s))
  | none =>
    if full s then excess s
    else
      let e : Entry := { key := key, row := port, flags := mkFlags 0 true true false 1 }
      match fwdInsert d e s with
      | (true, s) => (.none, incCnt (cntFwd (dieIx d) 6) s)
      | (false, s) => (.flood, incCnt (cntFwd (dieIx d) 4) s)

/-- Learning on a frame (R250): a group source address is never learned. -/
def learnFrame (d : NDie) (port mac vid gt : Nat) (s : State) : LearnOut × State :=
  if bit mac 40 then (.none, s)
  else match learnMode s port with
    | 1 => (.none, learnNative d port (fwdKey mac vid) gt s)
    | 2 => learnLegacy d port (fwdKey mac vid) s
    | _ => (.none, s)

/-- LEARN_HOLD_EXPIRE (R251). -/
def execLearnHoldExpire (d : NDie) (key : W64) (s : State) : Res :=
  match mapGet key.toNat (getNet s d).hold with
  | some h => if h.until_ ≤ now s then .next (modNet d (fun x => { x with hold := mapDel key.toNat x.hold }) s) else .next s
  | none => .next s

/-! ### Aging (R255, R256) -/

/-- A sweep visit to a bucket of a forwarding table, on the edge on which it falls due. -/
def ageFwd (d : NDie) (b : Nat) (s : State) : State :=
  let w := regW s (dieOff d 0x880044) 0
  match (if bit w 16 && decide (b < 65536) then visitNow s (getNet s d).swept (10 * bits w 15 0) 65536 b else none) with
  | none => s
  | some t =>
    let s := modNet d (fun x => { x with swept := t + 1, visited := x.visited ++ [b] }) s
    (List.range 4).foldl (fun s i => fwdPut d b i (ageSlot ((fwdBucket d b s).getD i Entry.empty)) s) s

/-- The cycle of a visit ends: entries that have aged out are deleted, counted and, for a port that learns, posted (R255). -/
def endFwdVisit (d : NDie) (s : State) (b : Nat) : State :=
  (List.range 4).foldl (fun s i =>
    let e := (fwdBucket d b s).getD i Entry.empty
    if !agedOut e then s
    else
      let s := incCnt (cntFwd (dieIx d) 7) (fwdWrite d b i e Entry.empty s)
      let m := learnMode s (fwdPort e)
      if m == 1 || m == 2 then postLearn d (learnWord e.key (fwdPort e) 0 false false true (nowNs s)) false s else s) s

/-- The visits of an edge on both dies end. -/
def endFwdVisits (s : State) : State :=
  [NDie.n0, NDie.n1].foldl (fun s d =>
    let bs := (getNet s d).visited
    if bs.isEmpty then s else modNet d (fun x => { x with visited := [] }) (bs.foldl (endFwdVisit d) s)) s

/-! ### TBL_FWD (R246, R247) -/

def fwdCmdOff (d : NDie) : Nat := dieOff d 0x880000
def fwdRegKey (s : State) (p : HPort) (d : NDie) : Nat := regQ s (fwdCmdOff d + 8) (portIx p)
def fwdRegRow (s : State) (p : HPort) (d : NDie) : Nat := regW s (fwdCmdOff d + 0x10) (portIx p)
def fwdRegFlags (s : State) (p : HPort) (d : NDie) : Nat := regW s (fwdCmdOff d + 0x14) (portIx p)

/-- The command word after a command: OP, EXISTED and STATUS; BUSY has cleared. -/
def fwdEnd (p : HPort) (d : NDie) (op status : Nat) (existed : Bool) (s : State) : State :=
  setRegW (fwdCmdOff d) (portIx p) (op + 2 ^ 14 * b2n existed + 2 ^ 16 * status) s

/-- The shape of every TBL_FWD command: reserved bits of the key or the result word end it with
FORMAT. -/
def fwdCmd (p : HPort) (d : NDie) (op : Nat) (f : State → Nat × Bool × State) (s : State) : Res :=
  if fwdRegKey s p d / 2 ^ 60 != 0 || fwdRegRow s p d / 64 != 0 then .next (fwdEnd p d op stFormat false s)
  else
    let (st, ex, s) := f s
    .next (fwdEnd p d op st ex s)

/-- FWD_READ: a lookup, which sets HIT (R227). -/
def execFwdRead (p : HPort) (d : NDie) (s : State) : Res :=
  if !barUp s then .next s else
  fwdCmd p d 0 (fun s =>
    match fwdFind s d (fwdRegKey s p d) with
    | none => (stNotFound, false, s)
    | some (n, b, sl, e) =>
      let s := touchHit d (n, b, sl, e) s
      let w := setBits (setBits (setBits (fwdRegFlags s p d) 15 8 e.flags) 25 24 sl) 26 26 n
      (stOk, false, setRegW (fwdCmdOff d + 0x14) (portIx p) w (setRegW (fwdCmdOff d + 0x10) (portIx p) e.row s))) s

/-- Software's replacement of an entry: result and STATIC, with ORIGIN = 0 (R253), an update that sets HIT (R227). -/
def fwdReplace (p : HPort) (d : NDie) (f : Nat × Nat × Nat × Entry) (s : State) : State :=
  let e := f.2.2.2
  let fl := setBits (setBits e.flags 5 5 (b2n (bit (fwdRegFlags s p d) 0))) 3 3 0
  fwdWrite d f.2.1 f.2.2.1 e (hitEntry ((getNet s d).visited.contains f.2.1) { e with row := fwdRegRow s p d, flags := fl }) s

/-- FWD_INSERT. -/
def execFwdInsert (p : HPort) (d : NDie) (s : State) : Res :=
  if !barUp s then .next s else
  fwdCmd p d 1 (fun s =>
    match fwdFind s d (fwdRegKey s p d) with
    | some f => (stOk, true, fwdReplace p d f s)
    | none =>
      let e : Entry := { key := fwdRegKey s p d, row := fwdRegRow s p d,
                         flags := mkFlags 0 false false (bit (fwdRegFlags s p d) 0) 1 }
      match fwdInsert d e s with
      | (true, s) => (stOk, false, s)
      | (false, s) => (stNoRoom, false, incCnt (cntFwd (dieIx d) 4) s)) s

/-- FWD_UPDATE. -/
def execFwdUpdate (p : HPort) (d : NDie) (s : State) : Res :=
  if !barUp s then .next s else
  fwdCmd p d 2 (fun s =>
    match fwdFind s d (fwdRegKey s p d) with
    | some f => (stOk, false, fwdReplace p d f s)
    | none => (stNotFound, false, s)) s

/-- FWD_DELETE. -/
def execFwdDelete (p : HPort) (d : NDie) (s : State) : Res :=
  if !barUp s then .next s else
  fwdCmd p d 3 (fun s =>
    match fwdFind s d (fwdRegKey s p d) with
    | some f => (stOk, false, fwdWrite d f.2.1 f.2.2.1 f.2.2.2 Entry.empty s)
    | none => (stNotFound, false, s)) s

/-- FWD_MOVE. -/
def execFwdMove (p : HPort) (d : NDie) (s : State) : Res :=
  if !barUp s then .next s else
  fwdCmd p d 4 (fun s =>
    match fwdFind s d (fwdRegKey s p d) with
    | none => (stNotFound, false, s)
    | some f =>
      let w := fwdRegFlags s p d
      let b := fwdHash (bits w 18 18) (fwdRegKey s p d)
      let sl := bits w 17 16
      if eEmpty ((fwdBucket d b s).getD sl Entry.empty) then
        (stOk, false, fwdPut d f.2.1 f.2.2.1 Entry.empty (fwdPut d b sl f.2.2.2 s))
      else (stNoRoom, false, s)) s

/-! ### Prefixes (R257 to R259) -/

/-- The address width of a family and the match of R258. -/
def pfxMatches (e : Pfx) (v6 : Bool) (vrf : Nat) (addr : Nat) : Bool :=
  let w := if v6 then 128 else 32
  e.valid && e.v6 == v6 && (e.vrfAny || e.vrf == vrf) && addr / 2 ^ (w - e.len) == e.addr.toNat % 2 ^ w / 2 ^ (w - e.len)

/-- The match of lowest index. -/
def pfxLookup (s : State) (d : NDie) (v6 : Bool) (vrf addr : Nat) : Option Pfx :=
  ((getNet s d).pfx.find? (fun p => pfxMatches p.2 v6 vrf addr)).map (·.2)

def pfxOff (d : NDie) (o : Nat) : Nat := dieOff d (0x890000 + o)

/-- The staged entry of a port. -/
def pfxStaged (s : State) (p : HPort) (d : NDie) (valid : Bool) : Pfx :=
  let w (n : Nat) : Nat := regW s (pfxOff d (4 * n)) (portIx p)
  let x := w 4
  { addr := BitVec.ofNat 128 (w 0 + w 1 * 2 ^ 32 + w 2 * 2 ^ 64 + w 3 * 2 ^ 96), len := bits x 7 0, vrf := bits x 19 8,
    v6 := bit x 20, vrfAny := bit x 21, valid := valid, result := BitVec.ofNat 32 (regW s (pfxOff d 0x14) (portIx p)) }

/-- ADDR has no bit below the prefix and LEN is within the family's limit (R259). -/
def pfxOk (e : Pfx) : Bool :=
  let w := if e.v6 then 128 else 32
  decide (e.len ≤ w) && e.addr.toNat % 2 ^ (w - e.len) == 0

/-- PFX_WRITE: TBL_PFX_CMD with GO; without GO and READ, INDEX and VALID are stored. -/
def execPfxWrite (p : HPort) (d : NDie) (cmd : W32) (s : State) : Res :=
  if !barUp s then .next s else
  let c := cmd.toNat
  let e := pfxStaged s p d (bit c 16)
  let ok := pfxOk e
  if !bit c 17 then
    .next (if bit c 18 then s else setRegW (pfxOff d 0x18) (portIx p) (setBits (regW s (pfxOff d 0x18) (portIx p)) 16 0 (bits c 16 0)) s)
  else
  let s := setRegW (pfxOff d 0x18) (portIx p) (bits c 16 0 + 2 ^ 24 * (if ok then stOk else stFormat)) s
  if ok then .next (modNet d (fun x => { x with pfx := mapSetD Pfx.empty (bits c 15 0) e x.pfx }) s) else .next s

/-- PFX_READ: TBL_PFX_CMD with READ. -/
def execPfxRead (p : HPort) (d : NDie) (cmd : W32) (s : State) : Res :=
  if !barUp s then .next s else
  if !bit cmd.toNat 18 then .next s else
  let ix := bits cmd.toNat 15 0
  let e := mapGetD Pfx.empty ix (getNet s d).pfx
  let i := portIx p
  let s := (List.range 4).foldl (fun s n => setRegW (pfxOff d (4 * n)) i (bits e.addr.toNat (32 * n + 31) (32 * n)) s) s
  let s := setRegW (pfxOff d 0x10) i (e.len + 256 * e.vrf + 2 ^ 20 * b2n e.v6 + 2 ^ 21 * b2n e.vrfAny) s
  let s := setRegW (pfxOff d 0x14) i e.result.toNat s
  .next (setRegW (pfxOff d 0x18) i (ix + 65536 * b2n e.valid) s)

end Sys2Proof.Machine
end

