-- ==== Sys2Proof/Machine/Parse.lean ====
section
/-! DEFINITION. Class G parsing of a frame's headers, the MRP request header, and the frames that
answer a request (R269 to R276). -/

namespace Sys2Proof.Machine

def byteAt (bs : Bytes) (i : Nat) : Nat := (bs.getD i 0).toNat
def be16 (bs : Bytes) (i : Nat) : Nat := byteAt bs i * 256 + byteAt bs (i + 1)
def beField (bs : Bytes) (i n : Nat) : Nat := beNat ((bs.drop i).take n)

/-- The one's complement sum of big-endian 16-bit words, an odd byte padded with zero. -/
def onesSum : Bytes → Nat → Nat
  | [], acc => acc
  | [a], acc => acc + a.toNat * 256
  | a :: b :: rest, acc => onesSum rest (acc + a.toNat * 256 + b.toNat)
def fold16 (n : Nat) : Nat :=
  let n := n % 65536 + n / 65536
  let n := n % 65536 + n / 65536
  n % 65536 + n / 65536
def inetSum (bs : Bytes) (acc : Nat) : Nat := fold16 (onesSum bs acc)

/-- The fields that class G parsing fills (R269, R271, R278); those of headers not parsed are zero. -/
structure Parsed where
  ok : Bool
  (tags etype outerVid outerPcp innerVid dmac smac : Nat)
  (ip v6 : Bool)
  (src dst proto dscp ecn ttl : Nat)
  (frag l4 : Bool)
  (l4src l4dst : Nat)
  /-- L4_DST is present: UDP or TCP. -/
  ports : Bool
  tcp : Option Nat
  vxlan : Bool
  vni : Nat
  /-- Offset and length of the UDP payload. -/
  udp : Option (Nat × Nat)
  /-- Offsets of the IP header and of the L4 header. -/
  (ipOff l4Off : Nat)
  deriving DecidableEq, Repr

/-- The L4 header at `o`, in an IP payload that ends at `e` (R269, R270). -/
def parseL4 (bs : Bytes) (vxlanPort o e : Nat) (p : Parsed) : Parsed :=
  let n := e - o
  if p.proto == 17 then
    let len := be16 bs (o + 4)
    if len < 8 || n < len || 256 < o + 8 then { p with ok := false }
    else
      let dst := be16 bs (o + 2)
      let q := { p with l4 := true, l4src := be16 bs o, l4dst := dst, ports := true, udp := some (o + 8, len - 8), l4Off := o }
      if dst == vxlanPort && 16 ≤ len && bit (byteAt bs (o + 8)) 3 then
        if 256 < o + 16 then { q with ok := false } else { q with vxlan := true, vni := beField bs (o + 12) 3 }
      else q
  else if p.proto == 6 then
    let hl := 4 * (byteAt bs (o + 12) / 16)
    if n < 20 || hl < 20 || n < hl || 256 < o + hl then { p with ok := false }
    else { p with l4 := true, l4src := be16 bs o, l4dst := be16 bs (o + 2), ports := true, tcp := some (byteAt bs (o + 13)), l4Off := o }
  else if p.proto == 1 || p.proto == 58 then
    if n < 4 || 256 < o + 4 then { p with ok := false } else { p with l4 := true, l4src := be16 bs o, l4Off := o }
  else p

/-- IPv4 at `o`; `e` is the end of the bytes received before the FCS. -/
def parseV4 (bs : Bytes) (vxlanPort o e : Nat) (p : Parsed) : Parsed :=
  let hl := 4 * (byteAt bs o % 16)
  let total := be16 bs (o + 2)
  if byteAt bs o / 16 != 4 || hl < 20 || e - o < hl || 256 < o + hl || inetSum ((bs.drop o).take hl) 0 != 65535 ||
      total < hl || e - o < total then { p with ok := false }
  else
    let fr := be16 bs (o + 6)
    let p := { p with
      ip := true, src := beField bs (o + 12) 4, dst := beField bs (o + 16) 4, proto := byteAt bs (o + 9),
      dscp := byteAt bs (o + 1) / 4, ecn := byteAt bs (o + 1) % 4, ttl := byteAt bs (o + 8),
      frag := fr % 16384 != 0, ipOff := o }
    if p.frag then p else parseL4 bs vxlanPort (o + hl) (o + total) p

/-- The IPv6 extension headers from `o` with next header `nh`: at most two, Hop-by-Hop first only
(R269, R270). After a Fragment header that is not the first fragment's, no header follows. -/
def parseExt (bs : Bytes) (vxlanPort e : Nat) : Nat → Nat → Nat → Parsed → Parsed
  | left, nh, o, p =>
    if nh == 0 || nh == 43 || nh == 44 || nh == 60 then
      match left with
      | 0 => { p with ok := false }
      | left + 1 =>
        let hl := if nh == 44 then 8 else 8 * (byteAt bs (o + 1) + 1)
        if (nh == 0 && left != 1) || 256 < o + hl then { p with ok := false }
        else if nh == 44 then
          let p := { p with frag := true }
          if be16 bs (o + 2) / 8 != 0 then { p with proto := byteAt bs o }
          else parseExt bs vxlanPort e left (byteAt bs o) (o + hl) p
        else parseExt bs vxlanPort e left (byteAt bs o) (o + hl) p
    else
      let p := { p with proto := nh }
      if p.frag then p else parseL4 bs vxlanPort o e p

def parseV6 (bs : Bytes) (vxlanPort o e : Nat) (p : Parsed) : Parsed :=
  let len := be16 bs (o + 4)
  if byteAt bs o / 16 != 6 || e - o < 40 || 256 < o + 40 || e - o - 40 < len then { p with ok := false }
  else
    let tc := byteAt bs o % 16 * 16 + byteAt bs (o + 1) / 16
    let p := { p with
      ip := true, v6 := true, src := beField bs (o + 8) 16, dst := beField bs (o + 24) 16,
      dscp := tc / 4, ecn := tc % 4, ttl := byteAt bs (o + 7), ipOff := o }
    parseExt bs vxlanPort (o + 40 + len) 2 (byteAt bs (o + 6)) (o + 40) p

def isTpid (t : Nat) : Bool := t == 0x8100 || t == 0x88A8

/-- Class G parsing of a frame that was received whole, FCS included (R269 to R271). -/
def parseFrame (bs : Bytes) (pvid vxlanPort : Nat) : Parsed :=
  let t1 := isTpid (be16 bs 12)
  let t2 := t1 && isTpid (be16 bs 16)
  let tags := b2n t1 + b2n t2
  let o := 12 + 4 * tags
  let et := be16 bs o
  let p : Parsed :=
    { ok := !(t2 && isTpid et), tags := tags, etype := et,
      outerVid := if t1 then be16 bs 14 % 4096 else pvid, outerPcp := if t1 then be16 bs 14 / 8192 else 0,
      innerVid := if t2 then be16 bs 18 % 4096 else 0, dmac := beField bs 0 6, smac := beField bs 6 6,
      ip := false, v6 := false, src := 0, dst := 0, proto := 0, dscp := 0, ecn := 0, ttl := 0, frag := false,
      l4 := false, l4src := 0, l4dst := 0, ports := false, tcp := none, vxlan := false, vni := 0, udp := none,
      ipOff := 0, l4Off := 0 }
  if !p.ok then p
  else if et == 0x0800 then parseV4 bs vxlanPort (o + 2) (bs.length - 4) p
  else if et == 0x86DD then parseV6 bs vxlanPort (o + 2) (bs.length - 4) p
  else p

/-- A PTP message (R36). -/
def isPtp (p : Parsed) : Bool :=
  p.etype == 0x88F7 || (p.ok && p.udp.isSome && (p.l4dst == 319 || p.l4dst == 320))

/-- The UDP checksum is absent over IPv4 or right (R274). -/
def udpCsumOk (bs : Bytes) (p : Parsed) : Bool :=
  match p.udp with
  | none => true
  | some (off, len) =>
    if be16 bs (p.l4Off + 6) == 0 then true
    else
      let pseudo := if p.v6 then toBE 16 p.src ++ toBE 16 p.dst else toBE 4 p.src ++ toBE 4 p.dst
      inetSum ((bs.drop p.l4Off).take (len + (off - p.l4Off))) (onesSum pseudo (17 + (len + 8))) == 65535

/-! ### MRP (R273, R274) -/

/-- What an MRP request's payload holds. -/
structure Mrp where
  id : W64
  subject : Nat
  budget : Nat
  service : W16
  tag : Bytes
  body : Bytes
  deriving DecidableEq, Repr

/-- The payload is a request's, so that the FZ8 answers it (R274). -/
def mrpAnswerable (pl : Bytes) : Bool := 12 ≤ pl.length && byteAt pl 0 == 1 && byteAt pl 1 == 1

/-- The payload meets R273. -/
def mrpValid (pl : Bytes) : Bool :=
  mrpAnswerable pl && 48 ≤ pl.length && be16 pl 2 == 48 && beField pl 20 4 != 0 && be16 pl 26 == 0 &&
    beField pl 28 4 == pl.length - 48

def mrpOf (pl : Bytes) : Mrp :=
  { id := BitVec.ofNat 64 (beField pl 4 8), subject := beField pl 12 8, budget := beField pl 20 4,
    service := if 26 ≤ pl.length then BitVec.ofNat 16 (be16 pl 24) else 0,
    tag := if 48 ≤ pl.length then (pl.drop 32).take 16 else List.replicate 16 0, body := pl.drop 48 }

/-! ### Answers (R276) -/

/-- The Ethernet FCS: reflected CRC-32 with polynomial 0xEDB8_8320, sent lowest byte first. -/
def fcsByte (c : Nat) (b : Byte) : Nat :=
  (List.range 8).foldl (fun r _ => if r % 2 == 1 then (r / 2) ^^^ 0xEDB88320 else r / 2) (c ^^^ b.toNat)
def fcsOf (bs : Bytes) : Bytes := toLE 4 (bs.foldl fcsByte 0xFFFFFFFF ^^^ 0xFFFFFFFF)

/-- The 64-byte response header with its body (R276). -/
def mrpResponse (id : W64) (service : W16) (tag : Bytes) (status numrev gen : Nat) (hash body : Bytes) : Bytes :=
  toBE 1 1 ++ toBE 1 2 ++ toBE 2 64 ++ toBE 8 id.toNat ++ toBE 1 status ++ toBE 1 numrev ++ toBE 2 service.toNat ++
    toBE 4 gen ++ (hash ++ List.replicate 8 0).take 8 ++ toBE 4 body.length ++ (tag ++ List.replicate 16 0).take 16 ++
    List.replicate 16 0 ++ body

/-- The frame that carries a response, with headers made from the request's (R276). -/
def answerFrame (req : Bytes) (mac vxlanPort : Nat) (payload : Bytes) : Bytes :=
  let p := parseFrame req 0 vxlanPort
  let eth := toBE 6 p.smac ++ toBE 6 mac ++ (req.drop 12).take (4 * p.tags + 2)
  let ulen := 8 + payload.length
  let pseudo := if p.v6 then toBE 16 p.dst ++ toBE 16 p.src else toBE 4 p.dst ++ toBE 4 p.src
  let udp0 := toBE 2 p.l4dst ++ toBE 2 p.l4src ++ toBE 2 ulen
  let sum := 65535 - inetSum (udp0 ++ [0, 0] ++ payload) (onesSum pseudo (17 + ulen))
  let udp := udp0 ++ toBE 2 (if sum == 0 then 65535 else sum) ++ payload
  let iph :=
    if p.v6 then
      let w := 6 * 2 ^ 28 + p.dscp * 4 * 2 ^ 20 + beField req (p.ipOff + 1) 3 % 2 ^ 20
      toBE 4 w ++ toBE 2 ulen ++ toBE 1 17 ++ toBE 1 64 ++ toBE 16 p.dst ++ toBE 16 p.src
    else
      let h0 := toBE 1 0x45 ++ toBE 1 (p.dscp * 4) ++ toBE 2 (20 + ulen) ++ toBE 2 0 ++ toBE 2 0x4000 ++ toBE 1 64 ++ toBE 1 17
      let addrs := toBE 4 p.dst ++ toBE 4 p.src
      h0 ++ toBE 2 (65535 - inetSum (h0 ++ [0, 0] ++ addrs) 0) ++ addrs
  let f := eth ++ iph ++ udp
  f ++ fcsOf f

end Sys2Proof.Machine
end

