-- ==== Sys2Proof/Machine/Ports.lean ====
section
/-! DEFINITION. Lanes and ports, the packet buffer, the egress queues and the punt queues (R260 to
R265, R295, R306 to R315). -/

namespace Sys2Proof.Machine

/-! ### Ports (R260) -/

def laneDie (g : Nat) : NDie := if g < 8 then .n0 else .n1
/-- A packet-path register of a lane's die. -/
def pp (g off : Nat) : Nat := dieOff (laneDie g) off

/-- The mode of a die's quad. -/
def quadMode (s : State) (d : NDie) (q : Nat) : Nat := regF s (dieOff d 0x800000) 0 (3 * q + 2) (3 * q)

/-- The first lane of a lane's port, the number of its lanes and its Gbit/s per lane (R260). -/
def portOfLane (s : State) (g : Nat) : Nat × Nat × Nat :=
  match quadMode s (laneDie g) (g % 8 / 4) with
  | 1 => (g / 2 * 2, 2, 400)
  | 2 => (g / 4 * 4, 4, 400)
  | 3 => (g / 4 * 4, 4, 200)
  | 4 => (g / 8 * 8, 8, 200)
  | _ => (g, 1, 400)

def isPort (s : State) (g : Nat) : Bool := g < 16 && (portOfLane s g).1 == g
def portLanes (s : State) (g : Nat) : List Nat := List.range' g (portOfLane s g).2.1
def portNative (s : State) (g : Nat) : Bool := (portOfLane s g).2.2 == 400

def getLane (s : State) (l : Nat) : Lane := mapGetD Lane.down l s.net.lanes
def setLane (l : Nat) (x : Lane) (s : State) : State := { s with net := { s.net with lanes := mapSetD Lane.down l x s.net.lanes } }
def modLane (l : Nat) (f : Lane → Lane) (s : State) : State := setLane l (f (getLane s l)) s
def getEPort (s : State) (g : Nat) : EPort := mapGetD EPort.down g s.net.ports
def setEPort (g : Nat) (x : EPort) (s : State) : State := { s with net := { s.net with ports := mapSetD EPort.down g x s.net.ports } }
def modEPort (g : Nat) (f : EPort → EPort) (s : State) : State := setEPort g (f (getEPort s g)) s

def portCfg (s : State) (g : Nat) : Nat := regQ s (pp g (0x800040 + 0x10 * (g % 8))) 0
def portEn (s : State) (g : Nat) : Bool := bit (portCfg s g) 38
def portPvid (s : State) (g : Nat) : Nat := bits (portCfg s g) 11 0
def portVrf (s : State) (g : Nat) : Nat := bits (portCfg s g) 23 12
def portMaxFrame (s : State) (g : Nat) : Nat := bits (portCfg s g) 37 24

def isManager (s : State) : Bool := s.grp.role == 1

/-- The address to which a port answers (R368). -/
def portMac (s : State) (g : Nat) : Nat :=
  if isManager s then cfgField s 0x11 0 % 2 ^ 48 else regQ s (pp g (0x800048 + 0x10 * (g % 8))) 0 % 2 ^ 48

/-- A port to which frames can be sent: a first lane, up and enabled (R263). -/
def portUp (s : State) (g : Nat) : Bool := isPort s g && (getEPort s g).st == 2 && portEn s g

/-- The port's line rate in Gbit/s: native ports run on the lanes that are left (R263). -/
def portRate (s : State) (g : Nat) : Nat :=
  let n := ((portLanes s g).filter (fun l => (getLane s l).st == 2)).length
  n * (portOfLane s g).2.2

/-! ### The packet buffer (R313) -/

def bufCells : Nat := 98304
def cellsOfLen (n : Nat) : Nat := (n + 255) / 256
def cellsUsed (s : State) (d : NDie) : Nat :=
  s.net.frames.foldl (fun a p => if p.2.die == d then a + cellsOfLen p.2.len else a) 0
/-- The first number from `k` that a rising list does not hold. -/
def firstGap : Nat → List Nat → Nat
  | k, [] => k
  | k, a :: rest => if a == k then firstGap (k + 1) rest else if a < k then firstGap k rest else k

/-- `n` cells, the lowest free ones, given the rising list of those in use from `k` on. -/
def freeCells : Nat → Nat → List Nat → List Nat
  | 0, _, _ => []
  | n + 1, k, used => let c := firstGap k used; c :: freeCells n (c + 1) used
/-- The cells that a frame of a die takes: the lowest free ones (DESIGN CHOICE, log 119). -/
def takeCells (s : State) (d : NDie) (len : Nat) : List Nat :=
  freeCells (cellsOfLen len) 0 (sortBy (fun a b => decide (a < b)) (s.net.frames.flatMap (fun p => if p.2.die == d then p.2.cells else [])))
def respReserve (s : State) (d : NDie) : Nat := bits (regQ s (dieOff d 0x850000) 0) 48 32

/-- Whether a frame finds cells; all but answers leave the reserve (R313). -/
def hasCells (s : State) (d : NDie) (n : Nat) (answer : Bool) : Bool :=
  decide (cellsUsed s d + cellsOfLen n + (if answer then 0 else respReserve s d) ≤ bufCells)

/-- Put a frame in a buffer, with no copies yet. -/
def putFrame (d : NDie) (bs : Bytes) (len : Nat) (grp : Option (GrpHdr × GrpBody)) (s : State) : Nat × State :=
  let i := s.net.nextFrame
  let f : BufFrame := { die := d, len := len, bytes := bs, grp := grp, copies := 0, cells := takeCells s d len }
  (i, { s with net := { s.net with frames := mapSet i f s.net.frames, nextFrame := i + 1 } })

def getFrame (s : State) (i : Nat) : Option BufFrame := mapGet i s.net.frames
def frameLen (s : State) (i : Nat) : Nat := ((getFrame s i).map (·.len)).getD 0
def frameBytes (s : State) (i : Nat) : Bytes := ((getFrame s i).map (·.bytes)).getD []

/-- BUF_CELL of a tracker entry (R295): the first cell of its request's frame; 0 for an INFER request, which has none. -/
def bufCell (s : State) (r : Req) : Nat := (r.frame.bind (getFrame s)).elim 0 (fun f => f.cells.headD 0)

/-- Hold one more copy of a frame. -/
def holdFrame (i : Nat) (s : State) : State :=
  match getFrame s i with
  | some f => { s with net := { s.net with frames := mapSet i { f with copies := f.copies + 1 } s.net.frames } }
  | none => s

/-- A copy has left or is dropped; the cells free with the last one. -/
def dropFrame (i : Nat) (s : State) : State :=
  match getFrame s i with
  | some f =>
    let fs := if f.copies ≤ 1 then mapDel i s.net.frames else mapSet i { f with copies := f.copies - 1 } s.net.frames
    { s with net := { s.net with frames := fs } }
  | none => s

/-- Free a frame of which no copy was queued. -/
def freeUnheld (i : Nat) (s : State) : State :=
  match getFrame s i with
  | some f => if f.copies == 0 then { s with net := { s.net with frames := mapDel i s.net.frames } } else s
  | none => s

/-! ### Queues (R314, R315) -/

def getQueue (s : State) (g q : Nat) : List QItem := mapGetD [] q (getEPort s g).queues
def setQueue (g q : Nat) (l : List QItem) (s : State) : State := modEPort g (fun x => { x with queues := mapSetD [] q l x.queues }) s
def queueCfg (s : State) (g q : Nat) : Nat := regQ s (pp g (0x850400 + 0x80 * (g % 8) + 8 * q)) 0
def queueCells (s : State) (g q : Nat) : Nat := (getQueue s g q).foldl (fun a it => a + cellsOfLen (frameLen s it.frame)) 0

/-- Queue a copy; answers ignore MAX_CELLS (R315). The answer says whether it was queued. -/
def enqueue (g q : Nat) (it : QItem) (answer : Bool) (s : State) : Bool × State :=
  if !answer && bits (queueCfg s g q) 48 32 < queueCells s g q + cellsOfLen (frameLen s it.frame) then
    (false, incCnt (cntQueue g q 1) s)
  else
    let s := setQueue g q (getQueue s g q ++ [it]) (holdFrame it.frame s)
    (true, incCnt (cntQueue g q 0) s)

def plainItem (i : Nat) : QItem := { frame := i, entry := none, mirror := false, group := false, deferred := none }

def respQueue (s : State) (d : NDie) : Nat := regF s (dieOff d 0x830000) 0 7 4

/-! ### The punt queues (R310, R311) -/

def puntCap : Nat := 8192
def getPunt (s : State) (d : NDie) (q : Nat) : Fifo := mapGetD Fifo.empty (8 * dieIx d + q) s.net.punt
def setPunt (d : NDie) (q : Nat) (f : Fifo) (s : State) : State :=
  { s with net := { s.net with punt := mapSetD Fifo.empty (8 * dieIx d + q) f s.net.punt } }

/-- The data words of a punted frame. -/
def puntWords : Nat → Bytes → List FifoWord
  | 0, _ => []
  | n + 1, bs =>
    let k := min 16 bs.length
    { ctl := BitVec.ofNat 32 (1 + (if n == 0 then 16 else 0) + 64 * k), data := BitVec.ofNat 128 (leNat (bs.take 16)) } ::
      puntWords n (bs.drop 16)

/-- Punt a frame: a META word and its bytes, all or none (R311). -/
def puntFrame (d : NDie) (q g gt : Nat) (sub : BitVec 6) (str : Bool) (rule : Option Nat) (bs : Bytes) (s : State) : State :=
  let m := gt % 2 ^ 48 + sub.toNat * 2 ^ 48 + b2n str * 2 ^ 54 + g * 2 ^ 55 + bs.length * 2 ^ 59 +
    (rule.getD 0) * 2 ^ 73 + b2n rule.isNone * 2 ^ 87
  let meta_ : FifoWord := { ctl := BitVec.ofNat 32 (1 + 8 + 32 + 64 * 16), data := BitVec.ofNat 128 m }
  setPunt d q (fifoPush puntCap (meta_ :: puntWords ((bs.length + 15) / 16) bs) (getPunt s d q)) s

/-! ### The request tracker (R295 to R298) -/

def rqtKey (d : NDie) (ix : Nat) : Nat := 524288 * dieIx d + ix
def rqtDie (k : Nat) : NDie := if k < 524288 then .n0 else .n1
def getReq (s : State) (k : Nat) : Option Req := mapGet k s.rqt
def setReq (k : Nat) (r : Req) (s : State) : State := { s with rqt := mapSet k r s.rqt }
def modReq (k : Nat) (f : Req → Req) (s : State) : State :=
  match getReq s k with
  | some r => setReq k (f r) s
  | none => s
def rqtInUse (s : State) (d : NDie) : Nat := (s.rqt.filter (fun p => rqtDie p.1 == d)).length

/-- A FREE entry of a tracker half, the lowest one (DESIGN CHOICE, log 19). -/
def freeReq (s : State) (d : NDie) : Option Nat :=
  let k := firstGap (rqtKey d 0) (s.rqt.map (·.1))
  if k < rqtKey d 0 + 524288 then some k else none

/-! ### Answers (R274, R297, R315) -/

/-- Queue an answer without scores to a request frame, from the request's own cells or new ones. An
answer that finds no cell is dropped. -/
def answer (g : Nat) (req : Bytes) (status : Nat) (s : State) : State :=
  let d := laneDie g
  let p := parseFrame req 0 (regF s (pp g 0x800008) 0 15 0)
  let pl := match p.udp with
    | some (o, n) => (req.drop o).take n
    | none => []
  let m := mrpOf pl
  let f := answerFrame req (portMac s g) (regF s (pp g 0x800008) 0 15 0) (mrpResponse m.id m.service m.tag status 0 0 [] [])
  if hasCells s d f.length true then
    let (i, s) := putFrame d f f.length none s
    (enqueue g (respQueue s d) (plainItem i) true s).2
  else incCnt (cntRqt (dieIx d) 6) s

end Sys2Proof.Machine
end

