-- ==== Sys2Proof/Machine/Classify.lean ====
section
/-! DEFINITION. Classification: extraction, the rule key, rules and their commands, hashing,
indirection, destinations and meters (R275 to R288, R324 to R326). -/

namespace Sys2Proof.Machine

/-! ### Extraction (R266, R275) -/

def mxField (s : State) (d : NDie) (n : Nat) : Nat := regW s (dieOff d (0x800200 + 4 * n)) 0
def mxEnabled (s : State) (d : NDie) : List Nat := (List.range 32).filter (fun n => bit (mxField s d n) 14)
def mxEnd (w : Nat) : Nat := bits w 9 0 + bits w 13 10 + 1

/-- Every enabled field lies inside the payload. -/
def mxFits (s : State) (d : NDie) (pl : Bytes) : Bool := (mxEnabled s d).all (fun n => mxEnd (mxField s d n) ≤ pl.length)

/-- The enabled fields that the payload holds, by number. -/
def mxFields (s : State) (d : NDie) (pl : Bytes) : List (Nat × Bytes) :=
  ((mxEnabled s d).filter (fun n => mxEnd (mxField s d n) ≤ pl.length)).map (fun n =>
    (n, (pl.drop (bits (mxField s d n) 9 0)).take (bits (mxField s d n) 13 10 + 1)))

/-- AUX: the first 16 bytes of the fields with RULE set, the first byte highest. -/
def auxOf (s : State) (d : NDie) (fs : List (Nat × Bytes)) : Nat :=
  let bs := ((fs.filter (fun f => bit (mxField s d f.1) 15)).map (·.2)).flatten
  beNat ((bs ++ List.replicate 16 0).take 16)

/-! ### Class M (R272) -/

/-- A valid local address of the family that equals the destination (R272, R368). -/
def localIp (s : State) (g : Nat) (v6 : Bool) (dst : Nat) : Bool :=
  (List.range 8).any (fun n =>
    let w (k : Nat) : Nat := regW s (pp g (0x800100 + 0x20 * n + 4 * k)) 0
    let a := w 0 + w 1 * 2 ^ 32 + w 2 * 2 ^ 64 + w 3 * 2 ^ 96
    let service := bit (cfgField s 0x16 0) n
    bit (w 4) 1 && bit (w 4) 0 == v6 && (if v6 then a else a % 2 ^ 32) == dst && (!service || isManager s))

def isClassM (s : State) (g : Nat) (p : Parsed) : Bool :=
  p.ok && !p.frag && p.udp.isSome && p.l4dst == regF s (pp g 0x800004) 0 15 0 && localIp s g p.v6 p.dst &&
    p.dmac == portMac s g

/-! ### The rule key (R278, R279) -/

/-- What the lookups and the class give to the key. -/
structure KeyExtra where
  classM : Bool
  fdbHit : Bool
  pfx : Option W32
  aux : Nat
  len : Nat
  deriving DecidableEq, Repr

/-- A comparator's field, absent when the frame does not carry it. -/
def rangeField (p : Parsed) (x : KeyExtra) (f : Nat) : Option Nat :=
  match f with
  | 0 => if p.l4 then some p.l4src else none
  | 1 => if p.ports then some p.l4dst else none
  | 2 => some p.outerVid
  | 3 => if p.tags == 2 then some p.innerVid else none
  | 4 => some x.len
  | 5 => some p.etype
  | 6 => x.pfx.map (fun r => bits r.toNat 15 0)
  | _ => none

def rangeBits (s : State) (g : Nat) (p : Parsed) (x : KeyExtra) : Nat :=
  (List.range 64).foldl (fun a n =>
    let c := regQ s (pp g (0x810100 + 8 * n)) 0
    match rangeField p x (bits c 34 32) with
    | some v => if bit c 35 && bits c 15 0 ≤ v && v ≤ bits c 31 16 then a + 2 ^ n else a
    | none => a) 0

def ruleKey (s : State) (g : Nat) (p : Parsed) (x : KeyExtra) : Nat :=
  g + b2n x.classM * 2 ^ 4 + b2n p.frag * 2 ^ 5 + b2n p.l4 * 2 ^ 6 + b2n p.ip * 2 ^ 7 + b2n p.v6 * 2 ^ 8 + p.tags * 2 ^ 9 +
    b2n p.vxlan * 2 ^ 11 + b2n x.pfx.isSome * 2 ^ 12 + b2n x.fdbHit * 2 ^ 13 + p.etype * 2 ^ 16 + p.outerVid * 2 ^ 32 +
    p.outerPcp * 2 ^ 44 + p.innerVid * 2 ^ 48 + p.dmac * 2 ^ 64 + p.smac * 2 ^ 112 + p.src * 2 ^ 160 + p.dst * 2 ^ 288 +
    p.proto * 2 ^ 416 + p.dscp * 2 ^ 424 + p.ecn * 2 ^ 430 + p.l4src * 2 ^ 432 + p.l4dst * 2 ^ 448 + p.tcp.getD 0 * 2 ^ 464 +
    p.ttl * 2 ^ 472 + bits ((x.pfx.getD 0).toNat) 15 0 * 2 ^ 480 + portVrf s g * 2 ^ 496 + p.vni * 2 ^ 512 + x.aux * 2 ^ 544 +
    rangeBits s g p x * 2 ^ 672

/-- The matching rule of lowest index (R280). -/
def matchRule (s : State) (d : NDie) (key : Nat) : Option (Nat × Rule) :=
  s.net.rules.find? (fun r => r.1 / 16384 == dieIx d && r.2.valid && (key &&& r.2.mask) == r.2.key)

def countRule (k : Nat) (s : State) : State :=
  match mapGet k s.net.rules with
  | some r => { s with net := { s.net with rules := mapSet k { r with hits := min (r.hits + 1) (2 ^ 64 - 1) } s.net.rules } }
  | none => s

/-! ### Rule commands (R285) -/

def clsOff (d : NDie) (o : Nat) : Nat := dieOff d (0x810000 + o)

/-- An action word holds no unlisted value: DISP 4 to 7. Reserved bits are ignored. -/
def actListed (a : Nat) : Bool := bits a 2 0 < 4

def stagedWide (s : State) (p : HPort) (base n : Nat) : Nat :=
  (List.range n).foldl (fun a w => a + regW s (base + 4 * w) (portIx p) * 2 ^ (32 * w)) 0

def setCmdStatus (off : Nat) (p : HPort) (cmd status : Nat) (s : State) : State :=
  setRegW off (portIx p) (cmd + status * 2 ^ 24) s

def getRule (s : State) (d : NDie) (ix : Nat) : Rule := mapGetD Rule.empty (16384 * dieIx d + ix) s.net.rules
def setRule (d : NDie) (ix : Nat) (r : Rule) (s : State) : State :=
  { s with net := { s.net with rules := mapSetD Rule.empty (16384 * dieIx d + ix) r s.net.rules } }

/-- A write of a command register without GO and READ stores its low `n` bits, INDEX and VALID (R294). -/
def storeCmd (off : Nat) (p : HPort) (n cmd : Nat) (s : State) : State :=
  setRegW off (portIx p) (setBits (regW s off (portIx p)) (n - 1) 0 (cmd % 2 ^ n)) s

/-- RULE_WRITE: CLS_CMD with GO (R285). -/
def execRuleWrite (p : HPort) (d : NDie) (cmd : W32) (s : State) : Res :=
  if !barUp s then .next s else
  let c := cmd.toNat
  if !bit c 15 then .next (if bit c 16 then s else storeCmd (clsOff d 0xD0) p 15 c s)
  else
    let key := stagedWide s p (clsOff d 0) 23
    let mask := stagedWide s p (clsOff d 0x60) 23
    let act := regQ s (clsOff d 0xC0) (portIx p)
    let cmd' := bits c 14 0
    if (key &&& mask) != key || !actListed act then .next (setCmdStatus (clsOff d 0xD0) p cmd' stFormat s)
    else
      let s := setRule d (bits c 13 0) { key := key, mask := mask, act := act, valid := bit c 14, hits := 0 } s
      .next (setCmdStatus (clsOff d 0xD0) p cmd' stOk s)

/-- RULE_READ: CLS_CMD with READ copies a rule into the staging set. -/
def execRuleRead (p : HPort) (d : NDie) (cmd : W32) (s : State) : Res :=
  if !barUp s then .next s else
  let c := cmd.toNat
  if !bit c 16 then .next s
  else
    let r := getRule s d (bits c 13 0)
    let i := portIx p
    let s := (List.range 23).foldl (fun s w => setRegW (clsOff d (4 * w)) i (r.key / 2 ^ (32 * w)) s) s
    let s := (List.range 23).foldl (fun s w => setRegW (clsOff d (0x60 + 4 * w)) i (r.mask / 2 ^ (32 * w)) s) s
    let s := setRegQ (clsOff d 0xC8) i r.hits (setRegQ (clsOff d 0xC0) i r.act s)
    .next (setCmdStatus (clsOff d 0xD0) p (bits c 13 0 + b2n r.valid * 2 ^ 14) stOk s)

/-! ### Hashing (R286) -/

/-- The hash string of selected fields; an untagged or absent field is zero. -/
def hashString (p : Parsed) (aux fields : Nat) (sym : Bool) : Bytes :=
  let swapIp := sym && (decide (p.dst < p.src) || (p.src == p.dst && decide (p.l4dst < p.l4src)))
  let swapMac := sym && decide (p.dmac < p.smac)
  let sm := if swapMac then p.dmac else p.smac
  let dm := if swapMac then p.smac else p.dmac
  let (is, id_, ls, ld) := if swapIp then (p.dst, p.src, p.l4dst, p.l4src) else (p.src, p.dst, p.l4src, p.l4dst)
  let all := [toBE 6 sm, toBE 6 dm, toBE 2 p.outerVid, toBE 16 is, toBE 16 id_, toBE 1 p.proto, toBE 2 ls, toBE 2 ld,
    toBE 3 p.vni, toBE 16 aux]
  (((List.range 10).zip all).map (fun f => if bit fields f.1 then f.2 else [])).flatten

/-- The Toeplitz hash under a 640-bit key whose bit 0 is its highest. -/
def toeplitz (key : Nat) (bs : Bytes) : Nat :=
  let n := 8 * bs.length
  let v := beNat bs
  (List.range n).foldl (fun h i => if v.testBit (n - 1 - i) then h ^^^ (key / 2 ^ (608 - i) % 2 ^ 32) else h) 0

def toeplitzKey (s : State) (d : NDie) : Nat :=
  (List.range 20).foldl (fun a w => a * 2 ^ 32 + regW s (clsOff d (0x540 + 4 * w)) 0) 0

def hashCfg (s : State) (g : Nat) : Nat := regW s (pp g (0x810500 + 4 * (g % 8))) 0

/-- The indirection index, when the port hashes. -/
def hashIndex (s : State) (g : Nat) (p : Parsed) (aux : Nat) : Option Nat :=
  let c := hashCfg s g
  if !bit c 0 then none
  else
    let str := hashString p aux (bits c 12 3) (bit c 2)
    some ((if bit c 1 then toeplitz (toeplitzKey s (laneDie g)) str else crc32c str) % 512)

/-- An indirection entry's KIND and VALUE (R287). -/
def indirEntry (s : State) (g i : Nat) : Nat × Nat :=
  let w := bits (regW s (pp g (0x818000 + 0x400 * (g % 8) + 2 * i) / 4 * 4) 0) (if i % 2 == 0 then 15 else 31) (if i % 2 == 0 then 0 else 16)
  (w / 16384, w % 16384)

/-- The port that an INDIRECT destination chooses from entry `i` on: the next PATH entry whose port
is up (R287). -/
def indirPath (s : State) (g i : Nat) : Option Nat :=
  ((List.range 512).map (fun k => indirEntry s g ((i + k) % 512))).findSome? (fun e =>
    if e.1 == 2 && portUp s e.2 then some e.2 else none)

/-! ### Destinations (R282) -/

/-- Where a frame goes. -/
inductive Dest where
  | ports (l : List Nat)
  | drop
  | punt (q : Nat)
  | linkDown
  | noPath
  deriving DecidableEq, Repr

def vlanMembers (s : State) (d : NDie) (vid : Nat) : Nat := regW s (clsOff d 0x5C4) vid

/-- The ports that a flood reaches (R282). -/
def floodPorts (s : State) (g vid : Nat) : List Nat :=
  (List.range 16).filter (fun o => o != g && bit (vlanMembers s (laneDie g) vid) o && portUp s o)

def toPort (s : State) (o : Nat) : Dest := if portUp s o then .ports [o] else .linkDown

def fdbDest (s : State) (g : Nat) (p : Parsed) (hit : Option Entry) : Dest :=
  let flood := Dest.ports (floodPorts s g p.outerVid)
  match hit with
  | some e =>
    if bit e.row 4 then .drop
    else if bit e.row 5 then .punt 0
    else if bit p.dmac 40 then flood
    else if fwdPort e == g then .drop
    else toPort s (fwdPort e)
  | none => flood

/-- FORWARD's destination, and whether the forwarding table resolved it (R282, R491). -/
def forwardDest (s : State) (g : Nat) (p : Parsed) (act : Nat) (hit : Option Entry) (pfx : Option W32) (ix : Option Nat) :
    Dest × Bool :=
  match bits act 4 3 with
  | 0 => (fdbDest s g p hit, true)
  | 1 =>
    match pfx with
    | some r => if bit r.toNat 20 then (toPort s (bits r.toNat 19 16), false) else (fdbDest s g p hit, true)
    | none => (fdbDest s g p hit, true)
  | 2 => (toPort s (bits act 8 5), false)
  | _ =>
    match indirPath s g (ix.getD 0) with
    | some o => (.ports [o], false)
    | none => (.noPath, false)

/-! ### Meters (R324, R325) -/

def getMeter (s : State) (k : Nat) : Meter := mapGetD Meter.reset k s.net.meters
def setMeter (k : Nat) (m : Meter) (s : State) : State := { s with net := { s.net with meters := mapSetD Meter.reset k m s.net.meters } }

/-- The two-rate three-colour marker of RFC 2698 in colour-blind mode: 0 green, 1 yellow, 2 red.
Buckets are held exactly, in 1/8000 byte (DEDUCED, log 20). -/
def meterFrame (k len ns : Nat) (s : State) : Nat × State :=
  let m := getMeter s k
  let dt := ns - m.last
  let tc := min (8000 * bits m.cfg1 23 0) (m.tc + bits m.cfg0 23 0 * dt)
  let tp := min (8000 * bits m.cfg1 55 32) (m.tp + bits m.cfg0 47 24 * dt)
  let b := 8000 * len
  let (col, tc, tp) := if tp < b then (2, tc, tp) else if tc < b then (1, tc, tp - b) else (0, tc - b, tp - b)
  let n := min (m.counts.getD col 0 + 1) (2 ^ 64 - 1)
  (col, setMeter k { m with tc := tc, tp := tp, last := ns, counts := listSet m.counts col n } s)

/-- What a colour does: 0 PASS, 1 DROP, 2 QUEUE with its queue. -/
def colourAct (m : Meter) (col : Nat) : Nat × Nat :=
  match col with
  | 1 => (bits m.cfg0 49 48, bits m.cfg0 55 52)
  | 2 => (bits m.cfg0 51 50, bits m.cfg0 59 56)
  | _ => (0, 0)

/-- The write of EGS_METER_CFG1's high half applies the whole staged configuration of meter n, with full
buckets (DEDUCED, log 20). A PIR below CIR is unlisted (R7). -/
def writeMeter (d : NDie) (n hi : Nat) (s : State) : State :=
  let k := 4096 * dieIx d + n
  let m := getMeter s k
  let c0 := regQ s (dieOff d 0x853008) n
  let s := setRegW (dieOff d 0x853014) n (bits hi 23 0) s
  let c1 := regQ s (dieOff d 0x853010) n
  let c0 := if bits c0 47 24 < bits c0 23 0 then setBits (setBits c0 23 0 (bits m.cfg0 23 0)) 47 24 (bits m.cfg0 47 24) else c0
  let m := { m with cfg0 := c0, cfg1 := c1, tc := 8000 * bits c1 23 0, tp := 8000 * bits c1 55 32, last := nowNs s }
  setMeter k m s

/-- METER_CONFIG: of the port's selected meter. -/
def execMeterConfig (p : HPort) (d : NDie) (hi : W32) (s : State) : Res :=
  if !barUp s then .next s else
  if !holdsSem s p then .next (discardRws p (dieOff d 0x853014) s)
  else .next (writeMeter d (regF s (dieOff d 0x853000) (portIx p) 11 0) hi.toNat s)

end Sys2Proof.Machine
end

