-- ==== Sys2Proof/Machine/Ingress.lean ====
section
/-! DEFINITION. The arrival of a frame: receiving, classification, disposition, entry in the request
tracker and the request to the flow table (R264 to R268, R272, R274, R280 to R288, R297, R326). -/

namespace Sys2Proof.Machine

/-! ### The flow table and its keys (R288) -/

/-- The flow table of the BCB, by number. -/
def flowTable (s : State) : Option (Nat × Tbl) := s.tbl.tables.find? (fun p => p.2.desc.kind == 1)

/-- The key of a frame without a SUBJECT. -/
def tupleKey (s : State) (g : Nat) (p : Parsed) : Nat :=
  let sym := regF s 0x820000 0 2 2 == 1
  let swap := sym && (decide (p.dst < p.src) || (p.src == p.dst && decide (p.l4dst < p.l4src)))
  let (a, b, x, y) := if swap then (p.dst, p.src, p.l4dst, p.l4src) else (p.src, p.dst, p.l4src, p.l4dst)
  let bs := toBE 2 (portVrf s g) ++ toBE 1 p.proto ++ toBE 16 a ++ toBE 16 b ++ toBE 2 x ++ toBE 2 y
  let k := crc32cFrom (regW s 0x820008 0) bs * 2 ^ 32 + crc32cFrom (regW s 0x820004 0) bs
  if k == 0 then 1 else k

def mEn (s : State) : Bool := regF s 0x820000 0 0 0 == 1
def gEn (s : State) : Bool := regF s 0x820000 0 1 1 == 1

/-- Send a tracked frame to the flow port of the NLU that owns its key's bucket (R215). Without a flow
table it is untracked and counted; at a full queue it is not served. -/
def sendFlow (f : FlowFrame) (s : State) : Bool × State :=
  match flowTable s with
  | none => (false, incCnt (cntFlw 2) s)
  | some (_, t) =>
    match ownerOf s (t.desc.bucketBase / 64 + bucketN t.desc 0 f.key) with
    | none => (false, incCnt (cntFlw 2) s)
    | some (u, _) =>
      if 1024 ≤ (s.flow.queue.filter (fun q => q.1 == u)).length then (false, setSticky 0xC80004 u 10 (incCnt (cntNlu u 4) s))
      else (true, { s with flow := { s.flow with queue := s.flow.queue ++ [(u, f)] } })

/-! ### Requests (R297) -/

/-- Offer a request to the admission unit. Offers of one GT count as reaching it in one cycle, those of N0 first (R300; DESIGN
CHOICE, log 104). -/
def offer (k : Nat) (s : State) : State :=
  let s := modReq k (fun r => { r with st := 3, ord := s.adm.offered, offeredAt := now s }) s
  let ahead (j : Nat) : Bool := rqtDie k == .n1 || rqtDie j == .n0 || ((getReq s j).map (fun r => r.offeredAt != now s)).getD true
  { s with adm := { s.adm with offers := s.adm.offers.filter ahead ++ [k] ++ s.adm.offers.filter (fun j => !ahead j), offered := s.adm.offered + 1 } }

/-- What a class M request brings to its tracker half. -/
structure Arrival where
  g : Nat
  gtNs : Nat
  bytes : Bytes
  frame : Nat
  p : Parsed
  m : Mrp
  fields : List (Nat × Bytes)
  hint : Option Nat
  deriving DecidableEq, Repr

/-- The flow facts of a frame (R291). -/
def flowFacts (s : State) (g gtNs len : Nat) (p : Parsed) (classM : Bool) (subject : Nat) (fields : List (Nat × Bytes))
    (score : Bool) (entry : Option Nat) : FlowFrame :=
  { key := if classM && subject != 0 then subject else tupleKey s g p
    classM := classM, die := laneDie g, port := ⟨g % 16, by omega⟩, gtNs := gtNs, len := len
    ttl := if p.ip then some p.ttl else none, dscp := if p.ip then some p.dscp else none
    l4dst := if p.ports then some p.l4dst else none, tcp := p.tcp, fields := fields, score := score, entry := entry }

/-- A new tracker entry (R295, R297). -/
def newReq (a : Arrival) : Req :=
  { id := a.m.id, deadline := a.gtNs + a.m.budget, st := 1, slot := 0, port := ⟨a.g % 16, by omega⟩, worker := a.hint.getD 0,
    hint := a.hint.isSome, untracked := true, unscored := false, service := a.m.service, ream := 0, flowIndex := none,
    frame := some a.frame, infer := none, clientTag := a.m.tag, body := a.m.body, outs := [], sampled := none, sample := none, ord := 0, offeredAt := 0,
    carries := 0, clu := [], nlu := [], reply := none, bound := false, replaced := false }

/-- Enter a request: BUSY when the half is full; then steps 3 and 4 of R20, or admission at once when
it is not tracked. -/
def enterRequest (a : Arrival) (s : State) : State :=
  let d := laneDie a.g
  if !unitActive s (ucNet .n0) then answer a.g a.bytes stShed s
  else match freeReq s d with
  | none => answer a.g a.bytes stBusy (emitTrace 6 (ucNet d) 0 0 (3 + dieIx d * 2 ^ 23) (incCnt (cntRqt (dieIx d) 1) s))
  | some k =>
    let s := incCnt (cntRqt (dieIx d) 0) (setReq k (newReq a) (holdFrame a.frame s))
    if !mEn s then offer k s
    else
      match sendFlow (flowFacts s a.g a.gtNs a.bytes.length a.p true a.m.subject a.fields true (some k)) s with
      | (true, s) => modReq k (fun r => { r with untracked := false }) s
      | (false, s) => offer k s

/-! ### Disposition (R280 to R284, R287, R324, R326, R491) -/

/-- A classified frame. -/
structure Classed where
  g : Nat
  gtNs : Nat
  sub : BitVec 6
  bytes : Bytes
  p : Parsed
  mrp : Option Mrp
  fields : List (Nat × Bytes)
  act : Nat
  rule : Option Nat
  fdb : Option Entry
  pfx : Option W32
  ix : Option Nat
  learn : LearnOut
  /-- The action is the port's DEFAULT; DEFAULT_TAKEN has counted the frame. -/
  dflt : Bool
  counted : Bool
  classM : Bool
  deriving DecidableEq, Repr

def defaultAct (s : State) (g : Nat) : Nat := regQ s (pp g (0x810400 + 0x10 * (g % 8))) 0
def mDefaultAct (s : State) (g : Nat) : Nat := regQ s (pp g (0x810408 + 0x10 * (g % 8))) 0

/-- FORWARD to INDIRECT without a usable path takes the port's DEFAULT action (R287). -/
def resolveAct (c : Classed) (s : State) : Classed × State :=
  if bits c.act 2 0 == 0 && bits c.act 4 3 == 3 && (indirPath s c.g (c.ix.getD 0)).isNone && !c.dflt then
    ({ c with act := defaultAct s c.g, dflt := true, counted := true }, if c.counted then s else incCnt (cntPort c.g 10) s)
  else (c, s)

/-- The frame's queue before its colour (R284). -/
def baseQueue (c : Classed) (s : State) : Nat :=
  if bit c.act 29 then bits c.act 33 30
  else match c.ix with
    | some i => let e := indirEntry s c.g i; if e.1 == 1 then e.2 else 0
    | none => 0

/-- Queue copies to ports, each in the frame's queue. -/
def sendCopies (i q : Nat) (ps : List Nat) (s : State) : State :=
  ps.foldl (fun s o => (enqueue o q (plainItem i) false s).2) s

/-- The mirror copy (R284). -/
def mirrorCopy (c : Classed) (i q : Nat) (s : State) : State :=
  if !bit c.act 9 then s
  else
    let o := bits c.act 13 10
    if portUp s o then (enqueue o q { plainItem i with mirror := true } false s).2 else incCnt (cntPort c.g 11) s

/-- Where a FORWARD goes, with learning's outcome (R282, R491). -/
def forward (c : Classed) (i q : Nat) (s : State) : State :=
  let (dest, byFdb) := forwardDest s c.g c.p c.act c.fdb c.pfx c.ix
  let dest := if c.learn == LearnOut.flood && byFdb then Dest.ports (floodPorts s c.g c.p.outerVid) else dest
  match dest with
  | .ports ps => sendCopies i q ps s
  | .drop => s
  | .punt n => puntFrame (laneDie c.g) n c.g c.gtNs c.sub false c.rule c.bytes s
  | .linkDown => incCnt (cntPort c.g 11) s
  | .noPath => incCnt (cntPort c.g 11) s

/-- Track a class G frame (R288, R293). -/
def trackG (c : Classed) (s : State) : State :=
  if !c.classM && bit c.act 14 && gEn s then
    (sendFlow (flowFacts s c.g c.gtNs c.bytes.length c.p false 0 [] (bit c.act 15) none) s).2
  else s

/-- Dispose of a frame whose colour lets it pass, in queue `q`. -/
def dispose (c : Classed) (q : Nat) (s : State) : State :=
  let (i, s) := putFrame (laneDie c.g) c.bytes c.bytes.length none s
  let s := mirrorCopy c i q s
  let s :=
    if c.learn == LearnOut.drop then s
    else match bits c.act 2 0, c.mrp with
      | 0, _ => forward c i q s
      | 2, _ => puntFrame (laneDie c.g) (bits c.act 36 34) c.g c.gtNs c.sub false c.rule c.bytes s
      | 3, some m =>
        let hint := match c.ix with
          | some x => let e := indirEntry s c.g x; if e.1 == 3 then some e.2 else none
          | none => none
        enterRequest { g := c.g, gtNs := c.gtNs, bytes := c.bytes, frame := i, p := c.p, m := m, fields := c.fields, hint := hint } s
      | 3, none => if c.counted then s else incCnt (cntPort c.g 10) s
      | _, _ => s
  freeUnheld i s

/-- The resolved action: flow tracking, meter, queue and disposition (R267). -/
def actOn (c : Classed) (s : State) : State :=
  let (c, s) := resolveAct c s
  let d := laneDie c.g
  let s := trackG c s
  if !bit c.act 16 then dispose c (baseQueue c s) s
  else
    let k := 4096 * dieIx d + bits c.act 28 17
    let (col, s) := meterFrame k c.bytes.length c.gtNs s
    match colourAct (getMeter s k) col with
    | (1, _) =>
      if bits c.act 2 0 == 3 && c.mrp.isSome then answer c.g c.bytes stShed (incCnt (cntAdm 5) s) else s
    | (2, q) => dispose c q s
    | _ => dispose c (baseQueue c s) s

/-- Classify an accepted frame: rules when it parses, else the port's DEFAULT action (R270, R280). -/
def classify (g gtNs : Nat) (sub : BitVec 6) (bs : Bytes) (p : Parsed) (m : Bool) (mrp : Option Mrp)
    (fields : List (Nat × Bytes)) (failed : Bool) (s : State) : State :=
  let d := laneDie g
  let aux := auxOf s d fields
  let (fdb, s) := fwdLookup d (fwdKey p.dmac p.outerVid) s
  let (learn, s) := if m then (LearnOut.none, s) else learnFrame d g p.smac p.outerVid gtNs s
  let pfx := if p.ip && !m then (pfxLookup s d p.v6 (portVrf s g) p.dst).map (·.result) else none
  let ix := hashIndex s g p aux
  let c : Classed :=
    { g := g, gtNs := gtNs, sub := sub, bytes := bs, p := p, mrp := mrp, fields := fields, act := defaultAct s g, rule := none,
      fdb := fdb, pfx := pfx, ix := ix, learn := learn, dflt := true, counted := true, classM := m }
  if failed then actOn c (incCnt (cntPort g 10) (incCnt (cntPort g 5) s))
  else
    match matchRule s d (ruleKey s g p { classM := m, fdbHit := fdb.isSome, pfx := pfx, aux := aux, len := bs.length }) with
    | some (k, r) => actOn { c with act := r.act, rule := some (k % 16384), dflt := false, counted := false } (countRule k s)
    | none =>
      let s := incCnt (cntPort g 10) s
      if m then actOn { c with act := mDefaultAct s g, dflt := false } s else actOn c s

/-- A class M frame: its checksum, then a valid request, a FORMAT answer or the DEFAULT action (R274). -/
def classMFrame (g gtNs : Nat) (sub : BitVec 6) (bs : Bytes) (p : Parsed) (s : State) : State :=
  let s := incCnt (cntPort g 7) s
  let pl := match p.udp with
    | some (o, n) => (bs.drop o).take n
    | none => []
  if !udpCsumOk bs p then incCnt (cntPort g 9) s
  else if mrpValid pl && mxFits s (laneDie g) pl then
    classify g gtNs sub bs p true (some (mrpOf pl)) (mxFields s (laneDie g) pl) false s
  else if mrpAnswerable pl then answer g bs stFormat (incCnt (cntPort g 8) s)
  else classify g gtNs sub bs p true none [] true s

end Sys2Proof.Machine
end

