-- ==== Sys2Proof/Machine/GroupOps.lean ====
section
/-! DEFINITION. The group transport: sending, sequences and acknowledgement (R369 to R372), and the
journal's handles (R382). -/

namespace Sys2Proof.Machine

def getPeer (s : State) (i : Nat) : Option Peer := mapGet i s.grp.peers
def setPeer (i : Nat) (p : Peer) (s : State) : State := { s with grp := { s.grp with peers := mapSet i p s.grp.peers } }
def modPeer (i : Nat) (f : Peer → Peer) (s : State) : State :=
  match getPeer s i with
  | some p => setPeer i (f p) s
  | none => s
def modGrp (f : GroupState → GroupState) (s : State) : State := { s with grp := f s.grp }

/-- TYPE of a body (R370). -/
def grpType : GrpBody → Nat
  | .announce _ _ _ _ _ => 0x01
  | .welcome _ _ _ => 0x02
  | .refuse _ => 0x03
  | .heartbeat _ _ _ _ _ _ _ _ _ _ _ => 0x04
  | .ack => 0x05
  | .write _ _ _ => 0x10
  | .work _ _ _ _ _ => 0x11
  | .result _ _ _ => 0x12
  | .refuseWork _ _ _ => 0x13
  | .journal _ => 0x14
  | .release _ => 0x15
  | .members _ => 0x16
  | .tableCopy _ _ _ _ _ _ => 0x17
  | .tableBatch _ _ _ _ => 0x17
  | .leave => 0x18
  | .promote _ => 0x19
  | .probe => 0x1A

def sequenced (t : Nat) : Bool := 0x10 ≤ t && t ≤ 0x18

/-- A body's bytes: HEARTBEAT by R377, nothing for ACK, LEAVE and PROBE; the layouts of the others are not given, and their
bytes and lengths are open within LEN's range (DESIGN CHOICE, log 10). -/
def bodyBytes : GrpBody → Bytes
  | .heartbeat tTx tRxPrev tTxPrev aligned ready holder draining load hashA hashB tgen =>
    toLE 8 tTx.toNat ++ toLE 8 tRxPrev.toNat ++ toLE 8 tTxPrev.toNat ++
      toLE 1 (b2n aligned + 2 * b2n ready + 4 * b2n holder + 8 * b2n draining) ++ toLE 1 load.toNat ++ toLE 6 0 ++
      toLE 8 hashA.toNat ++ toLE 8 hashB.toNat ++ toLE 8 tgen.toNat
  | .ack => []
  | .leave => []
  | .probe => []
  | b => (Config.grpBytes b).take 8192

/-- The body that the bytes of a frame of a type spell. -/
def bodyOf (t : Nat) (bs : Bytes) : GrpBody :=
  let q (o : Nat) : W64 := BitVec.ofNat 64 (leNat ((bs.drop o).take 8))
  match t with
  | 0x04 =>
    let f := byteAt bs 24
    .heartbeat (q 0) (q 8) (q 16) (bit f 0) (bit f 1) (bit f 2) (bit f 3) (BitVec.ofNat 8 (byteAt bs 25)) (q 32) (q 40) (q 48)
  | 0x05 => .ack
  | 0x18 => .leave
  | 0x1A => .probe
  | _ => Config.grpBody t bs

/-- The header's 32 bytes (R369). -/
def grpHdrBytes (h : GrpHdr) : Bytes :=
  let id (i : PeerId) (un : Bool) : Bytes := toLE 2 (if un then 1024 else i.val)
  toLE 1 h.version.toNat ++ toLE 1 h.typ.toNat ++ toLE 2 h.len.toNat ++ toLE 4 h.groupId.toNat ++ toLE 4 h.epoch.toNat ++
    id h.srcId h.srcUnassigned ++ id h.dstId h.dstUnassigned ++ toLE 4 h.seq.toNat ++ toLE 4 h.ack.toNat ++ toLE 8 0

/-- Read a header. -/
def grpHdrOf (bs : Bytes) : GrpHdr :=
  let w (o n : Nat) : Nat := leNat ((bs.drop o).take n)
  let id (o : Nat) : PeerId := if bit (w o 2) 10 then 0 else ⟨w o 2 % 1024, by omega⟩
  { version := BitVec.ofNat 8 (w 0 1), typ := BitVec.ofNat 8 (w 1 1), len := BitVec.ofNat 16 (w 2 2), groupId := BitVec.ofNat 32 (w 4 4),
    epoch := BitVec.ofNat 32 (w 8 4), srcId := id 12, srcUnassigned := bit (w 12 2) 10, dstId := id 14, dstUnassigned := bit (w 14 2) 10,
    seq := BitVec.ofNat 32 (w 16 4), ack := BitVec.ofNat 32 (w 20 4) }

def groupPorts (s : State) : List Nat := (List.range 16).filter (fun g => bit (cfgField s 0x12 0) g)
def upGroupPorts (s : State) : List Nat := (groupPorts s).filter (portUp s)
def groupId (s : State) : W32 := BitVec.ofNat 32 (cfgField s 0x10 0)

def laneFin (g : Nat) : LaneId := ⟨g % 16, by omega⟩
def peerFin (i : Nat) : PeerId := ⟨i % 1024, by omega⟩

/-- A group frame as it leaves a port, FCS included: Ethernet header, header and body, padded to the shortest frame (R369). -/
def grpFrame (s : State) (g dmac : Nat) (h : GrpHdr) (b : GrpBody) : Bytes :=
  let f := toBE 6 dmac ++ toBE 6 (portMac s g) ++ toBE 2 (regF s (pp g 0x80000C) 0 15 0) ++ grpHdrBytes h ++ bodyBytes b
  let f := f ++ List.replicate (60 - f.length) 0
  f ++ fcsOf f

/-- The MAC address of a frame's receiver: GROUP_MAC for the manager and for all, a worker's own port for a worker. -/
def grpMac (s : State) (dst : Option Nat) : Nat :=
  match dst with
  | some (i + 1) => ((getPeer s (i + 1)).map (·.mac)).getD (cfgField s 0x11 0 % 2 ^ 48)
  | _ => cfgField s 0x11 0 % 2 ^ 48

/-- The device holds an ID: as a manager, or as a worker. -/
def hasId (s : State) : Bool := s.grp.role == 1 || s.grp.role == 2

/-- Put a group frame into the queue of GRP_EGRESS of a port (R372). No frame leaves while the quiet
clock is unlocked (R415), nor after the loss of N0 (R396). -/
def sendTo (g dmac : Nat) (dst : Option Nat) (seq ack : W32) (b : GrpBody) (s : State) : State :=
  if s.grp.stopped || !unitActive s (ucNet .n0) || !portUp s g then s
  else
    let h : GrpHdr :=
      { version := 1, typ := BitVec.ofNat 8 (grpType b), len := BitVec.ofNat 16 (bodyBytes b).length, groupId := groupId s, epoch := s.grp.epoch,
        srcId := if hasId s then peerFin s.grp.id else 0, srcUnassigned := !hasId s, dstId := peerFin (dst.getD 0),
        dstUnassigned := dst.isNone, seq := seq, ack := ack }
    let f := grpFrame s g dmac h b
    if !hasCells s (laneDie g) f.length false then s
    else
      let (i, s) := putFrame (laneDie g) f f.length (some (h, b)) s
      let (ok, s) := enqueue g (bits (cfgField s 0x15 0) 3 0) { plainItem i with group := true } false s
      freeUnheld i (if ok then incCnt (cntGrp 0) s else s)

/-- Send a frame to a peer or to the group's address. -/
def sendFrame (g : Nat) (dst : Option Nat) (seq ack : W32) (b : GrpBody) (s : State) : State := sendTo g (grpMac s dst) dst seq ack b s

/-- The port to a peer; when it is down the pair moves to the lowest group port that is up (R372). -/
def peerPort (s : State) (p : Peer) : Nat :=
  if portUp s p.port.val then p.port.val else ((upGroupPorts s).head?).getD p.port.val

/-- Send a frame to a peer with the acknowledgement due. -/
def toPeer (i : Nat) (seq : W32) (b : GrpBody) (s : State) : State :=
  match getPeer s i with
  | none => s
  | some p =>
    let g := peerPort s p
    let s := setPeer i { p with port := laneFin g } s
    sendFrame g (some i) seq p.expect b s

/-- Send a sequenced message: at most 1,024 are unacknowledged, further ones wait (R371). -/
def sendSeq (i : Nat) (b : GrpBody) (s : State) : State :=
  match getPeer s i with
  | none => s
  | some p =>
    if 1024 ≤ p.unacked.length || !p.waiting.isEmpty then setPeer i { p with waiting := p.waiting ++ [b] } s
    else
      let s := setPeer i { p with nextSeq := p.nextSeq + 1, unacked := p.unacked ++ [{ seq := p.nextSeq, body := b, sent := now s }] } s
      toPeer i p.nextSeq b s

/-- Send the messages that wait, as the window opens. -/
def sendWaiting (i : Nat) : Nat → State → State
  | 0, s => s
  | n + 1, s =>
    match getPeer s i with
    | none => s
    | some p =>
      match p.waiting with
      | [] => s
      | b :: rest =>
        if 1024 ≤ p.unacked.length then s
        else sendWaiting i n (let q := { p with waiting := rest
                                                nextSeq := p.nextSeq + 1
                                                unacked := p.unacked ++ [{ seq := p.nextSeq, body := b, sent := now s }] }
                              toPeer i p.nextSeq b (setPeer i q s))

/-- An acknowledgement: every frame before SEQ `ack` has been delivered. A holder's acknowledgement of
a JOURNAL frame counts for its request (R382). -/
def ackFrom (i : Nat) (ack : W32) (s : State) : State :=
  match getPeer s i with
  | none => s
  | some p =>
    let old (u : Unacked) : Bool := decide ((ack - u.seq).toNat - 1 < 2 ^ 31) && ack != u.seq
    let gone := p.unacked.filter old
    let s := setPeer i { p with unacked := p.unacked.filter (fun u => !old u) } s
    let keys := gone.map (fun u => (i, u.seq.toNat))
    let hs := (s.grp.journalling.filter (fun j => keys.contains j.1)).map (·.2)
    let left := s.grp.journalling.filter (fun j => !keys.contains j.1)
    let s := modGrp (fun g => { g with
      journalling := left
      journalled := hs.foldl (fun m h => setIns h m) g.journalled
      degraded := if left.any (fun j => j.1.1 == i) then g.degraded else setDel i g.degraded }) s
    sendWaiting i p.waiting.length s

/-! ### The journal (R382) -/

/-- The journal entry of a request. -/
def journalOf (s : State) (k : Nat) (r : Req) : JEntry :=
  { handle := k, die := rqtDie k, requestId := r.id, deadline := BitVec.ofNat 64 r.deadline, service := r.service, slot := r.slot,
    port := r.port, frame := (r.frame.map (frameBytes s)).getD [], outs := r.outs, untracked := r.untracked, unscored := r.unscored }

/-- Send a request's entry to a holder. -/
def journalTo (i k : Nat) (s : State) : State :=
  match getReq s k, getPeer s i with
  | some r, some p =>
    let seq := (p.nextSeq + BitVec.ofNat 32 p.waiting.length).toNat
    sendSeq i (.journal (journalOf s k r)) (modGrp (fun g => { g with journalling := g.journalling ++ [((i, seq), k)] }) s)
  | _, _ => s

/-- Send an admitted request's entry to each holder; without a holder nothing is journalled. -/
def journalReq (k : Nat) (s : State) : State := if isManager s then s.grp.holders.foldl (fun s i => journalTo i k s) s else s

/-- A freed entry's handle goes to the holders (R382). -/
def releaseHandle (k : Nat) (s : State) : State :=
  if isManager s && (s.grp.journalled.contains k || s.grp.journalling.any (fun j => j.2 == k)) then
    let s := modGrp (fun g => { g with journalled := setDel k g.journalled, journalling := g.journalling.filter (fun j => j.2 != k) }) s
    s.grp.holders.foldl (fun s i => sendSeq i (.release [k]) s) s
  else s

end Sys2Proof.Machine
end

