-- ==== Sys2Proof/Machine/Requests.lean ====
section
/-! DEFINITION. Answering and freeing tracked requests (R274, R276, R297 to R299, R315, R330, R351,
R407). -/

namespace Sys2Proof.Machine

def getSlot (s : State) (i : Nat) : Slot := famGet Slot.empty s.slots i
def setSlot (i : Nat) (x : Slot) (s : State) : State := { s with slots := famSet s.slots i x }
def modSlot (i : Nat) (f : Slot → Slot) (s : State) : State := setSlot i (f (getSlot s i)) s

/-- A tracker entry returns to FREE: its cells, its binding and its journal entries are released. -/
def freeEntry (k : Nat) (s : State) : State :=
  match getReq s k with
  | none => s
  | some r =>
    let s := match r.frame with
      | some i => dropFrame i s
      | none => s
    let s := if r.bound then modSlot r.slot.val (fun x => { x with bound := x.bound - 1 }) s else s
    let s := { s with
      rqt := mapDel k s.rqt
      adm := { s.adm with offers := s.adm.offers.filter (· != k), carried := s.adm.carried.filter (· != k) }
      reams := s.reams.map (fun m => { m with reqs := m.reqs.filter (· != k) }) }
    releaseHandle k s

/-- The request leaves the admission unit with an answer on its way. -/
def leaveAdmission (k : Nat) (s : State) : State :=
  { s with adm := { s.adm with offers := s.adm.offers.filter (· != k), carried := s.adm.carried.filter (· != k) } }

/-- The RESPONSE trace record of R451. -/
def traceResponse (k status : Nat) (s : State) : State :=
  emitTrace 7 (ucNet (rqtDie k)) 0 0 (status + k % 524288 * 2 ^ 8 + dieIx (rqtDie k) * 2 ^ 27) s

/-- Write an INFER request's response header and body at OUTPUT and complete its descriptor. Answers the
status that both carry (R351). -/
def inferAnswer (r : Req) (d : Desc) (status gen : Nat) (hash body : Bytes) (s : State) : Nat × State :=
  let fits (b : Bytes) : Bool := decide (64 + b.length ≤ dNum d 48 4)
  let (status, gen, hash, body) := if fits body then (status, gen, hash, body) else (stFormat, 0, [], [])
  let bs := mrpResponse r.id r.service r.clientTag status (if status == stOk then 1 else 0) gen hash body
  let s := if fits [] then descWrite d (dNum d 40 8) bs s else s
  (status, complete d status (gen + r.deadline % 2 ^ 32 * 2 ^ 32) s)

/-- End an INFER request in the tracker, and release its entry (R298). -/
def inferEnd (k : Nat) (r : Req) (d : Desc) (status gen : Nat) (hash body : Bytes) (s : State) : State :=
  let (status, s) := inferAnswer r d status gen hash body s
  freeEntry k (traceResponse k status (if status == stOk then incCnt (cntRqt (dieIx (rqtDie k)) 2) s else s))

/-- The frame of an answer or response to a tracked request. -/
def reqFrame (s : State) (r : Req) (status gen : Nat) (hash body : Bytes) : Bytes :=
  let g := r.port.val
  answerFrame ((r.frame.map (frameBytes s)).getD []) (portMac s g) (regF s (pp g 0x800008) 0 15 0)
    (mrpResponse r.id r.service r.clientTag status (if status == stOk then 1 else 0) gen hash body)

/-- Queue a response; the entry stays until its last bit has left. False when it finds no cell. A response
for a port that is down is dropped and counted (R263). -/
def queueResponse (k : Nat) (r : Req) (f : Bytes) (s : State) : Bool × State :=
  let g := r.port.val
  let d := laneDie g
  if !portUp s g then (true, freeEntry k (incCnt (cntPort g 11) s))
  else if hasCells s d f.length true then
    let (i, s) := putFrame d f f.length none s
    let (_, s) := enqueue g (respQueue s d) { plainItem i with entry := some k } true s
    (true, modReq k (fun q => { q with st := 6 }) s)
  else (false, s)

/-- Answer a tracked request without scores. An answer that finds no cell is dropped, and its entry
freed (R315). -/
def answerReq (k status : Nat) (s : State) : State :=
  match getReq s k with
  | none => s
  | some r =>
    let s := leaveAdmission k s
    match r.infer with
    | some d => inferEnd k r d status 0 [] [] s
    | none =>
      match queueResponse k r (reqFrame s r status 0 [] []) s with
      | (true, s) => traceResponse k status s
      | (false, s) => freeEntry k (incCnt (cntRqt (dieIx (rqtDie k)) 6) s)

/-- Answer a request with its scores (R299). One beyond MAX_FRAME is answered FORMAT; one without a
cell waits in RESPONDING (R315). -/
def respond (k gen : Nat) (hash body : Bytes) (s : State) : State :=
  match getReq s k with
  | none => s
  | some r =>
    match r.infer with
    | some d => inferEnd k r d stOk gen hash body s
    | none =>
      let f := reqFrame s r stOk gen hash body
      if portMaxFrame s r.port.val < f.length then answerReq k stFormat (incCnt (cntRqt (dieIx (rqtDie k)) 5) s)
      else
        let s := modReq k (fun q => { q with st := 6, reply := some (gen, hash, body) }) s
        (queueResponse k r f (traceResponse k stOk s)).2

/-- Answer a request POISON (R407). -/
def answerPoison (k : Nat) (s : State) : State :=
  match getReq s k with
  | none => s
  | some r =>
    let s := report 0x52 ucPackage 0 (ucNet (rqtDie k)) 0 0 (r.id.toNat % 2 ^ 32) (incCnt (cntFlt 5) s)
    answerReq k stPoison s

/-- RESPONSE_CELL_WAIT: a scored response that waits for cells is queued once they are free (R315). -/
def execResponseCellWait (d : NDie) (ix : Nat) (s : State) : Res :=
  let k := rqtKey d ix
  match getReq s k with
  | none => .next s
  | some r =>
    match r.reply with
    | none => .next s
    | some (gen, hash, body) =>
      let queued := s.net.ports.any (fun p =>
        p.2.queues.any (fun q => q.2.any (fun it => it.entry == some k)) || (p.2.sending.map (fun x => x.1.entry == some k)).getD false)
      if r.st != 6 || queued then .next s else .next (queueResponse k r (reqFrame s r stOk gen hash body) s).2

/-- REQUEST_REAP: an entry still held REAP_US after its deadline is answered LATE and freed (R298). -/
def execRequestReap (d : NDie) (ix : Nat) (s : State) : Res :=
  let k := rqtKey d ix
  match getReq s k with
  | none => .next s
  | some r =>
    let grace := regF s (dieOff d 0x830000) 0 23 8 * 1000
    if r.st == 6 || nowNs s < r.deadline + grace then .next s
    else .next (answerReq k stLate (incCnt (cntRqt (dieIx d) 3) s))

/-- TRANSMIT_END: the last bit of a frame leaves; its cells free with its last copy, and a response's
entry returns to FREE (R298, R299, R313). -/
def execTransmitEnd (port : LaneId) (s : State) : Res :=
  let g := port.val
  let x := getEPort s g
  match x.sending with
  | none => .next s
  | some (it, q) =>
    if now s < x.endAt then .next s
    else
      let len := frameLen s it.frame
      let s := setEPort g { x with sending := none } s
      let s := addCnt (cntQueue g q 3) len (incCnt (cntQueue g q 2) s)
      let s := addCnt (cntPort g 13) len (incCnt (cntPort g 12) s)
      let s := dropFrame it.frame s
      match it.entry.bind (fun k => (getReq s k).map (fun r => (k, r))) with
      | none => .next s
      | some (k, r) =>
        let c := dieIx (rqtDie k)
        let s := if r.reply.isSome then incCnt (cntRqt c 2) s else s
        let s := if r.reply.isSome && r.deadline ≤ nowNs s then incCnt (cntRqt c 4) s else s
        .next (freeEntry k s)

end Sys2Proof.Machine
end

