-- ==== Sys2Proof/Machine/Sequencer.lean ====
section
/-! DEFINITION. The core sequencer's own commands: NOP, VEC, WAIT and SIGNAL (R105 to R110, R113,
R129 to R132, R137). -/

namespace Sys2Proof.Machine

/-- The fields of a vector instruction word (R131). -/
def vecFields (w : W64) : VOps :=
  let n := w.toNat
  { vd := BitVec.ofNat 8 (bits n 15 8), va := BitVec.ofNat 8 (bits n 23 16), vb := BitVec.ofNat 8 (bits n 31 24),
    msk := BitVec.ofNat 3 (bits n 34 32), mz := bit n 35, ty := BitVec.ofNat 3 (bits n 38 36),
    imm := BitVec.ofNat 24 (bits n 63 40), resid := 0 }

def vecOpcode (w : W64) : Nat := bits w.toNat 7 0

/-- Run one instruction word by its OPCODE (R132); `resid` attempts at it fail their residue check. -/
def vecInstr (c : CoreId) (resid : Nat) (w : W64) (s : State) : Res :=
  let v := { vecFields w with resid := resid }
  if bit w.toNat 39 then .refused .unlistedOperand
  else match vecOpcode w with
    | 0x00 => execVnop c v s
    | 0x01 => execAdd c v s
    | 0x02 => execSub c v s
    | 0x03 => execMul c v s
    | 0x04 => execFma c v s
    | 0x05 => execDiv c v s
    | 0x06 => execSqrt c v s
    | 0x07 => execMax c v s
    | 0x08 => execMin c v s
    | 0x09 => execAbs c v s
    | 0x0A => execNeg c v s
    | 0x0B => execMov c v s
    | 0x0C => execSel c v s
    | 0x10 => execAnd c v s
    | 0x11 => execOr c v s
    | 0x12 => execXor c v s
    | 0x13 => execShl c v s
    | 0x14 => execShra c v s
    | 0x15 => execShrl c v s
    | 0x18 => execCmp c v s
    | 0x19 => execMlog c v s
    | 0x1A => execMcnt c v s
    | 0x1B => execSetvl c v s
    | 0x20 => execCvt c v s
    | 0x21 => execMovi c v s
    | 0x22 => execBcast c v s
    | 0x23 => execIota c v s
    | 0x28 => execVld c v s
    | 0x29 => execVst c v s
    | 0x2A => execVlds c v s
    | 0x2B => execVsts c v s
    | 0x30 => execPerm c v s
    | 0x31 => execCompress c v s
    | 0x32 => execExpand c v s
    | 0x38 => execRsum c v s
    | 0x39 => execRmean c v s
    | 0x3A => execRmax c v s
    | 0x3B => execRmin c v s
    | 0x3C => execRargmax c v s
    | 0x3D => execRargmin c v s
    | 0x40 => execTopk c v s
    | 0x41 => execTmerge c v s
    | 0x48 => execExp c v s
    | 0x49 => execLog c v s
    | 0x4A => execRsqrt c v s
    | 0x4B => execTanh c v s
    | 0x4C => execSigm c v s
    | 0x4D => execGelu c v s
    | 0x50 => execCvset c v s
    | 0x51 => execSetcc c v s
    | 0x52 => execSize c v s
    | 0x53 => execCvtn c v s
    | 0x54 => execSide c v s
    | 0x55 => execDcvn c v s
    | 0x56 => execCfl c v s
    | _ => .refused .unlistedOperand

/-- Run words in order, stopping at a fault or a refusal; `resid` names the positions whose residue check fails, and how
often. -/
def vecRun (c : CoreId) (resid : List (Nat × Nat)) : List W64 → State → Res
  | [], s => .next s
  | w :: rest, s =>
    match vecInstr c (mapGetD 0 (getCore s c).ve.pos resid) w s with
    | .next s' => vecRun c resid rest s'
    | .fault e => .fault e
    | .refused e => .refused e

/-! ### What a VEC command reads and writes (R106, R128) -/

/-- The vector operands that an opcode reads, and those that it writes. -/
def vecReads (op : Nat) (v : VOps) : List (BitVec 8) :=
  if op == 0x04 then [v.va, v.vb, v.vd]
  else if [0x01, 0x02, 0x03, 0x05, 0x07, 0x08, 0x0C, 0x10, 0x11, 0x12, 0x18, 0x30, 0x40, 0x53].contains op then [v.va, v.vb]
  else if op == 0x41 then [v.va, v.va + 1, v.vb, v.vb + 1]
  else if [0x06, 0x09, 0x0A, 0x0B, 0x13, 0x14, 0x15, 0x20, 0x22, 0x29, 0x2B, 0x31, 0x32, 0x38, 0x39, 0x3A, 0x3B, 0x3C, 0x3D,
      0x48, 0x49, 0x4A, 0x4B, 0x4C, 0x4D, 0x52, 0x54].contains op then [v.va]
  else if op == 0x1B && bit v.imm.toNat 8 then [v.va]
  else []

def vecWrites (op : Nat) (v : VOps) : List (BitVec 8) :=
  if op == 0x40 || op == 0x41 then [v.vd, v.vd + 1]
  else if [0x00, 0x18, 0x19, 0x1B, 0x29, 0x2B, 0x50, 0x51, 0x53, 0x54, 0x56].contains op then []
  else [v.vd]

/-- Mask registers that an opcode reads beside MSK. -/
def maskReads (op : Nat) (v : VOps) : List Nat :=
  (if op == 0x19 then (if bits v.imm.toNat 2 0 == 4 then [v.va.toNat] else [v.va.toNat, v.vb.toNat]) else []) ++ [v.msk.toNat]

/-- The tile-memory bytes that an instruction accesses with the vector length and convert slots that it
finds, by all lanes below VL; which blocks are markers is data, so a conversion may reach a constant for each of its
blocks (DEDUCED, log 109). -/
def vecRanges (x : CoreState) (op : Nat) (v : VOps) : List (Nat × Nat) :=
  let k := getSlot8 x v
  let g := slotG k
  let bb := blockBytes (slotFmt k) g
  let line := 64 * bits v.imm.toNat 14 0
  let j0 := bits v.imm.toNat 23 15
  let n := (x.ve.vl + g - 1) / g
  let consts := if k.weight then [] else [(64 * k.constLine.toNat + 2 * k.cursor, 2 * n)]
  let each (f : Nat → Nat) : List (Nat × Nat) := (List.range x.ve.vl).map (fun i => (f i, tyBytes (vtyD v)))
  if op == 0x28 || op == 0x29 then each (unitAddr v)
  else if op == 0x2A || op == 0x2B then each (strideAddr v)
  else if op == 0x53 then (line + j0 * bb, ceilTo ((j0 + n) * bb) 64 - j0 * bb) :: consts
  else if op == 0x55 then (line + j0 * bb, n * bb) :: consts
  else if op == 0x54 then [(line, 64)]
  else []

/-- What the footprint of the words after one follows: VL, the convert slots, and a cursor past every constant that the
word may reach. -/
def vecFollow (c : CoreId) (w : W64) (t : State) : State :=
  let op := vecOpcode w
  let v := vecFields w
  if op == 0x1B && bit v.imm.toNat 8 then modCore c (fun x => { x with ve := { x.ve with vl := 128 } }) t
  else if [0x1B, 0x50, 0x51].contains op then
    (match vecInstr c 0 w t with
      | .next t => t
      | _ => t)
  else if op == 0x53 || op == 0x55 then
    let x := getCore t c
    let k := getSlot8 x v
    if k.weight then t
    else setCore c (setSlot8 v { k with cursor := k.cursor + (x.ve.vl + slotG k - 1) / slotG k } x) t
  else t

/-- The banks and the written byte ranges of one instruction. -/
def vecBanks (op : Nat) (v : VOps) : List Nat := ((vecReads op v ++ vecWrites op v).filter (fun r => !isVReg r)).map (fun r => winOf r.toNat)
def vecStores (x : CoreState) (op : Nat) (v : VOps) : List (Nat × Nat) :=
  if [0x29, 0x2B, 0x53, 0x54].contains op then vecRanges x op v else []

/-- A VEC command's hazard with the pending commands of its context: it uses a bank that one writes, or writes a line
that one reads. `t` follows VL and the convert slots over the command's words. -/
def vecHazard (c : CoreId) (ctx : CtxId) (s : State) : List W64 → State → Bool
  | [], _ => false
  | w :: rest, t =>
    let op := vecOpcode w
    let v := vecFields w
    (vecBanks op v).any (bankHazard (getCore s c) ctx) || lineHazard s c ctx (vecStores (getCore t c) op v) ||
      vecHazard c ctx s rest (vecFollow c w t)

/-- The start of a VEC command: VL is 128, and V and M carry nothing over (R129, R130). -/
def vecStart (c : CoreId) (ctx : CtxId) (h : CmdHdr) (s : State) : State :=
  let e := s.fresh
  modCore c (fun x => { x with ve := { x.ve with
    epoch := some e, regs := [], regPoison := [], masks := [], maskPoison := [], vl := 128, vlPoison := false,
    ctx := ctx, op := h.op, layer := h.layer, pos := 0, cleanCols := [], mismatch := false } })
    { s with fresh := s.fresh + 8200 }

/-- The end of a VEC command: a clean one ages the residue strike (R137). -/
def vecEnd (c : CoreId) (ctx : CtxId) (h : CmdHdr) (s : State) : State :=
  let s := modCore c (fun x => { x with ve := { x.ve with
    clean := if x.ve.strike && !x.ve.mismatch then x.ve.clean + 1 else x.ve.clean } }) s
  traceEnd (ucCore c) h (ctxDone c ctx s)

/-- VEC: the words that stand at INSTR_OFF in the program segment run to completion (R113, R130). -/
def issueVec (c : CoreId) (ctx : CtxId) (op : VecOp) (prog : List W64) (resid : List (Nat × Nat)) (s : State) : Res :=
  if op.instrCount == 0 || prog.length != op.instrCount.toNat then .refused .unlistedOperand
  else if !canIssue s c ctx op.hdr || (ctxBusy (getCore s c) ctx && vecHazard c ctx s prog (vecStart c ctx op.hdr s)) then .next s
  else
    let s := startCmdCnt (cntCore c.val 12) op.hdr.op (ctxIssued c ctx op.hdr s)
    let s := traceStart c (ucCore c) ctx op.hdr 4 0 s
    match vecRun c resid prog (vecStart c ctx op.hdr s) with
    | .next s => .next (if coreActive s c.val then vecEnd c ctx op.hdr s else s)
    | .fault e => .fault e
    | .refused e => .refused e

/-- NOP (R110). -/
def execNop (c : CoreId) (ctx : CtxId) (h : CmdHdr) (s : State) : Res :=
  if !canIssue s c ctx h then .next s else .next (ctxDone c ctx (ctxIssued c ctx h s))

/-- A token's value: 0 to 63 are the cluster's, 64 to 127 the die's, one set for each context
(R108, R113). -/
def tokenGet (s : State) (c : CoreId) (ctx : CtxId) (t : Nat) : Nat :=
  if t < 64 then mapGetD 0 (64 * ctx.val + t) (getCluster s (clusterOf c)).tokens
  else mapGetD 0 (64 * ctx.val + (t - 64)) (getDie s (dieOfCore c)).tokens

def tokenSet (c : CoreId) (ctx : CtxId) (t v : Nat) (s : State) : State :=
  if t < 64 then modCluster (clusterOf c) (fun k => { k with tokens := mapSetD 0 (64 * ctx.val + t) v k.tokens }) s
  else modDie (dieOfCore c) (fun d => { d with tokens := mapSetD 0 (64 * ctx.val + (t - 64)) v d.tokens }) s

def setCtxState (c : CoreId) (ctx : CtxId) (st : CtxState) (s : State) : State :=
  modCore c (fun x => setCtx ctx { getCtx x ctx with st := st } x) s

/-- WAIT: issues once its token is at least COUNT, and subtracts COUNT; until then the context waits
for the token (R108). -/
def execWait (c : CoreId) (ctx : CtxId) (op : TokenOp) (s : State) : Res :=
  if op.count == 0 then .refused .unlistedOperand
  else if !coreActive s c.val || firstHeld s c ctx op.hdr then .next s
  else
    let v := tokenGet s c ctx op.token.toNat
    if v < op.count.toNat then .next (setCtxState c ctx .waitToken s)
    else
      let s := tokenSet c ctx op.token.toNat (v - op.count.toNat) s
      let s := if (getCtx (getCore s c) ctx).st == .waitToken then setCtxState c ctx .running s else s
      .next (ctxDone c ctx (ctxIssued c ctx op.hdr s))

/-- SIGNAL: once every earlier command of the context has completed, adds COUNT to its token, which holds at 65,535 with fault TOKEN_OVERFLOW (R108). -/
def execSignal (c : CoreId) (ctx : CtxId) (op : TokenOp) (s : State) : Res :=
  if op.count == 0 then .refused .unlistedOperand
  else if !canIssue s c ctx op.hdr || ctxBusy (getCore s c) ctx then .next s
  else
    let v := tokenGet s c ctx op.token.toNat + op.count.toNat
    let s := tokenSet c ctx op.token.toNat (min v 65535) s
    let s := if 65535 < v then reportWith 9 (ucCore c) 0 (ucCore c) op.hdr.layer op.hdr.op [op.token.toNat] s else s
    .next (ctxDone c ctx (ctxIssued c ctx op.hdr s))

end Sys2Proof.Machine
end

