-- ==== Sys2Proof/Machine/Tree.lean ====
section
/-! DEFINITION. Tree engines: stands, the branch rule, the sums, the TREE command, and tree-memory
faults (R160 to R172, R180 to R182). -/

namespace Sys2Proof.Machine

/-- A stand's header (R161). -/
structure StandHdr where
  id : Nat
  bf16 : Bool
  flow : Bool
  segCount : Nat
  maxDepth : Nat
  numFeat : Nat
  numOut : Nat
  numTrees : Nat
  nodes : Nat
  /-- TREE_COUNT and NODE_COUNT of each segment. -/
  segs : List (Nat × Nat)
  deriving DecidableEq, Repr

def standHdr (bs : Bytes) : StandHdr :=
  let w (a n : Nat) : Nat := leNat ((bs.drop a).take n)
  let w0 := w 0 4
  { id := bits w0 7 0, bf16 := bit w0 8, flow := bit w0 9, segCount := bits w0 13 10, maxDepth := bits w0 18 14,
    numFeat := bits w0 31 19, numOut := bits (w 4 4) 8 0, numTrees := bits (w 8 4) 16 0, nodes := bits (w 12 4) 20 0,
    segs := (List.range 8).map (fun k => (bits (w (64 + 8 * k) 8) 16 0, bits (w (64 + 8 * k) 8) 34 17)) }

/-- Where the base values end and segment k's node words start (R161). -/
def standSegOff (h : StandHdr) (k : Nat) : Nat :=
  (List.range k).foldl (fun a j => ceilTo (a + 8 * (h.segs.getD j (0, 0)).2) 64) (ceilTo (128 + 4 * h.numOut) 64)

def standBase (bs : Bytes) (o : Nat) : FV := f32 (BitVec.ofNat 32 (leNat ((bs.drop (128 + 4 * o)).take 4)))

/-- Node word i of segment k. -/
def standNode (h : StandHdr) (bs : Bytes) (k i : Nat) : W64 :=
  BitVec.ofNat 64 (leNat ((bs.drop (standSegOff h k + 8 * i)).take 8))

/-- The stand of a slot's image by STAND_ID (R162). -/
def standOf (s : State) (slot : SlotId) (id : Nat) : Option StandObj :=
  ((famGet Slot.empty s.slots slot.val).image).bind (fun im => im.stands.find? (fun o => (standHdr o.bytes).id == id))

/-- The segment entry of a core's tree memory. -/
def segEntry (x : CoreState) (slot : SlotId) (stand seg : Nat) : Option SegEntry :=
  (x.te.segs.find? (fun p => p.2.slot == slot && p.2.stand == stand && p.2.seg == seg)).map (·.2)

/-! ### The guarded copy (R176) -/

/-- The DPA of a byte of an image, where a section puts it. -/
def imageDpa (im : Image) (off : Nat) : Option Nat :=
  (im.sections.find? (fun x => decide (x.offset ≤ off) && decide (off < x.offset + x.len))).map (fun x => x.dpa + (off - x.offset))

/-- The node words of line j of a stand's segment, each with POISON: from the copy in stack memory, in the section of the image
that holds the stand (DEDUCED, log 111). A stand that no section holds is taken from the image. -/
def guardedLine (s : State) (slot : SlotId) (o : StandObj) (k j : Nat) : List (W64 × Bool) × State :=
  let h := standHdr o.bytes
  let n := min 8 ((h.segs.getD k (0, 0)).2 - 8 * j)
  let at_ := ((famGet Slot.empty s.slots slot.val).image).bind (fun im => imageDpa im (o.offset + standSegOff h k + 64 * j))
  match at_ with
  | some a =>
    let ((bs, p), s) := readDpa a (8 * n) s
    ((List.range n).map (fun i => (BitVec.ofNat 64 (leNat ((bs.drop (8 * i)).take 8)), p)), s)
  | none => ((List.range n).map (fun i => (standNode h o.bytes k (8 * j + i), false)), s)

def guardedLines (slot : SlotId) (o : StandObj) (k : Nat) : List Nat → State → List (W64 × Bool) × State
  | [], s => ([], s)
  | j :: rest, s =>
    let (a, s) := guardedLine s slot o k j
    let (b, s) := guardedLines slot o k rest s
    (a ++ b, s)

/-- The node words of a stand's segment. -/
def segWords (slot : SlotId) (o : StandObj) (k : Nat) (s : State) : List (W64 × Bool) × State :=
  guardedLines slot o k (List.range (((standHdr o.bytes).segs.getD k (0, 0)).2 / 8 + 1)) s

/-! ### Walks (R163 to R166) -/

/-- What a walk gathers: the leaf it reaches, the nodes it visits and the features it compares, in order, and its comparisons
with a NaN. -/
structure Walk where
  leaf : W64
  nodes : List Nat
  feats : List Nat
  nans : Nat
  deriving DecidableEq, Repr

/-- Node visits of a walk: its internal nodes and its leaf. -/
def walkVisits (w : Walk) : Nat := w.nodes.length

/-- Whether the walk goes left: ORD16 unsigned, BF16 the quiet less-than (R165). -/
def goesLeft (isBf : Bool) (feat thresh : W16) : Bool :=
  if isBf then ltQuiet (fb16 feat) (fb16 thresh) else decide (feat.toNat < thresh.toNat)

/-- Walk from node `i`; every child lies after its parent, and `fuel` bounds the depth. -/
def walk (word : Nat → W64) (isBf : Bool) (feats : Nat → W16) : Nat → Nat → Walk
  | 0, i => { leaf := word i, nodes := [i], feats := [], nans := 0 }
  | fuel + 1, i =>
    let w := (word i).toNat
    if bit w 63 then { leaf := word i, nodes := [i], feats := [], nans := 0 }
    else
      let f := bits w 11 0
      let left := bits w 51 28
      let r := walk word isBf feats fuel (if goesLeft isBf (feats f) (BitVec.ofNat 16 (bits w 27 12)) then left else left + 1)
      { leaf := r.leaf, nodes := i :: r.nodes, feats := f :: r.feats, nans := r.nans + b2n (isBf && (fb16 (feats f)).isNan) }

/-- The walks of all trees of a segment for one sample, in ascending tree order. -/
def segWalks (word : Nat → W64) (h : StandHdr) (trees : Nat) (feats : Nat → W16) : List Walk :=
  (List.range trees).map (fun k => walk word h.bf16 feats (h.maxDepth + 1) k)

def visitsOf (ws : List Walk) : Nat := (ws.map walkVisits).foldl (· + ·) 0
def nansOf (ws : List Walk) : Nat := (ws.map (·.nans)).foldl (· + ·) 0

/-- The segment sum of output o: +0, then the leaves naming o in ascending tree order (R167). -/
def segSum (ws : List Walk) (o : Nat) : FV :=
  ws.foldl (fun a w => if bits w.leaf.toNat 39 32 == o then add32 a (f32 (BitVec.ofNat 32 (bits w.leaf.toNat 31 0))) else a) FV.zero

/-- A held segment's node words, as its walks number them. -/
def segWord (x : CoreState) (e : SegEntry) (i : Nat) : W64 := mapGetD 0 (e.base + i) x.te.words

/-- A walk of a segment reads a damaged word (R182). -/
def walksDead (x : CoreState) (e : SegEntry) (ws : List Walk) : Bool :=
  ws.any (fun w => w.nodes.any (fun i => x.te.bad.contains (e.base + i)))

/-! ### Tree-memory faults (R181, R182) -/

/-- Count visits and comparisons with a NaN, which set the flag (R166). -/
def countWalks (c : CoreId) (visits nans : Nat) (s : State) : State :=
  let s := addCnt (cntCore c.val 8) nans (addCnt (cntCore c.val 6) visits s)
  if 0 < nans then setSticky 0xF00800 c.val 8 s else s

/-- Visits and comparisons that walks make before they start again or stop: how many of theirs is open (DESIGN CHOICE, log 3). -/
def countCut (c : CoreId) (ws : List Walk) (s : State) : State :=
  let (v, s) := drawFree s
  let (n, s) := drawFree s
  countWalks c (v % (visitsOf ws + 1)) (n % (nansOf ws + 1)) s

/-- Load one word of a held segment from the stand's copy; one that fails again is damaged (R181, R182). -/
def reloadWord (c : CoreId) (e : SegEntry) (o : StandObj) (f : NodeFault) (s : State) : State :=
  let (ws, s) := guardedLine s e.slot o f.seg (f.node / 8)
  let (w, bad) := ws.getD (f.node % 8) (0, false)
  modCore c (fun x => { x with te := { x.te with
    words := mapSetD 0 (e.base + f.node) w x.te.words
    bad := setPut (bad || f.again) (e.base + f.node) x.te.bad } }) s

/-- A node read that fails parity after its retry: the word is reloaded, the items that read it start again, and the strike is
set; with the strike set the core is fenced. `ws` are the walks of the failing segment. -/
def nodeFault (c : CoreId) (slot : SlotId) (layer op : W16) (o : StandObj) (ws : Nat → List Walk) (s : State) (f : NodeFault) : State :=
  let h := standHdr o.bytes
  let x := getCore s c
  match segEntry x slot h.id f.seg with
  | none => s
  | some e =>
    if !coreActive s c.val then s
    else
      let s := setSticky 0xF00800 c.val 9 (incCnt (cntCore c.val 10) s)
      let s := reportWith 0x0B (ucCore c) 0 (ucCore c) layer op [h.id, f.seg, f.node] s
      let s := countCut c ((ws f.seg).filter (fun w => w.nodes.contains f.node)) s
      let s := reloadWord c e o f s
      let s := modCore c (fun x => { x with te := { x.te with strike := true, clean := 0 } }) s
      if x.te.strike then fenceCore c 0x0B s else s

/-- A clean TREE command or stream sample ages the strike. -/
def treeClean (c : CoreId) (s : State) : State :=
  modCore c (fun x => { x with te := { x.te with clean := if x.te.strike then x.te.clean + 1 else x.te.clean } }) s

/-! ### The TREE command (R169 to R172) -/

def treeFeat (x : CoreState) (op : TreeOp) (i f : Nat) : W16 :=
  BitVec.ofNat 16 (leNat (ramRead x.tile (64 * (op.fAddr.toNat + i * (op.fStrideM1.toNat + 1)) + 2 * f) 2))

def treeFeatAddr (op : TreeOp) (i : Nat) : Nat := 64 * (op.fAddr.toNat + i * (op.fStrideM1.toNat + 1))
def treeOutAddr (op : TreeOp) (i : Nat) : Nat := 64 * (op.oAddr.toNat + i * (op.oStrideM1.toNat + 1))

/-- Operand values that LOAD_IMAGE accepts (R169, R170). -/
def treeListed (op : TreeOp) (h : StandHdr) : Bool :=
  op.outMode != 3 && (op.outMode != 1 || op.seg == 0) && decide (op.seg.toNat < h.segCount) &&
    decide (op.samplesM1.toNat < 2048) && decide (2 * h.numFeat ≤ 64 * (op.fStrideM1.toNat + 1)) &&
    decide (4 * h.numOut ≤ 64 * (op.oStrideM1.toNat + 1))

/-- One sample of a TREE command on the core as the command finds it, `x0`: writes its outputs line by line into `p`'s
core, a line poisoned by a feature that the sample's walks read, by a damaged word or, under ADD, by what it held. Answers the
core and whether poison was read (R170, R171, R182). -/
def treeSample (x0 : CoreState) (base : Nat → FV) (h : StandHdr) (e : SegEntry) (op : TreeOp) (ws : Nat → List Walk) (p : CoreState × Bool)
    (i : Nat) : CoreState × Bool :=
  let oa := treeOutAddr op i
  let seen := (ws i).any (fun w => w.feats.any (fun f => tilePoisoned x0 (treeFeatAddr op i + 2 * f) 2))
  let held (l : Nat) : Bool := op.outMode == 2 && tilePoisoned x0 (oa + 64 * l) 64
  let bad := seen || walksDead x0 e (ws i)
  let out (o : Nat) : W32 :=
    let t := segSum (ws i) o
    toF32 (match op.outMode.toNat with
      | 0 => t
      | 1 => add32 (base o) t
      | _ => add32 (f32 (BitVec.ofNat 32 (leNat (ramRead x0.tile (oa + 4 * o) 4)))) t)
  let lines := List.range ((h.numOut + 15) / 16)
  let x := lines.foldl (fun x l =>
    tileWrite (oa + 64 * l) (((List.range' (16 * l) (min 16 (h.numOut - 16 * l))).map (fun o => toLE 4 (out o).toNat)).flatten)
      (bad || held l) x) p.1
  (x, p.2 || seen || lines.any held)

/-- The walks of a command's sample. -/
def treeWalks (x : CoreState) (h : StandHdr) (e : SegEntry) (op : TreeOp) (i : Nat) : List Walk :=
  segWalks (segWord x e) h (h.segs.getD op.seg.toNat (0, 0)).1 (treeFeat x op i)

/-- Stall cycles of some items: open, but none where the reorder buffer holds them all (R172; DESIGN CHOICE, log 3). -/
def countStalls (c : CoreId) (items : Nat) (s : State) : State :=
  if items ≤ 512 then s
  else
    let (v, s) := drawFree s
    addCnt (cntCore c.val 9) v s

/-- TREE (R170). A stand or segment that the core does not hold is moving, and the command waits
for it (R489): the state stands (DESIGN CHOICE, log 2). -/
def issueTree (c : CoreId) (ctx : CtxId) (op : TreeOp) (faults : List NodeFault) (s : State) : Res :=
  let x := getCore s c
  let slot := (getCtx x ctx).slot
  match standOf s slot op.standId.toNat, segEntry x slot op.standId.toNat op.seg.toNat with
  | some so, some se =>
    let h := standHdr so.bytes
    let n := op.samplesM1.toNat + 1
    if !treeListed op h then .refused .unlistedOperand
    else if tileBytes < max (treeFeatAddr op (n - 1) + 2 * h.numFeat) (treeOutAddr op (n - 1) + 4 * h.numOut) then
      .fault (.addressOutside (treeOutAddr op (n - 1)))
    else if !canIssue s c ctx op.hdr || (op.fence && ctxBusy x ctx) ||
        lineHazard s c ctx ((List.range n).map (fun i => (treeOutAddr op i, 4 * h.numOut))) then .next s
    else
      let s := startCmdCnt (cntCore c.val 13) op.hdr.op (ctxIssued c ctx op.hdr s)
      let s := traceStart c (ucCore c) ctx op.hdr 5 0 s
      let all (x : CoreState) : List Walk := ((List.range n).map (treeWalks x h se op)).flatten
      let faults := faults.filter (fun f => f.seg == op.seg.toNat && (all x).any (fun w => w.nodes.contains f.node))
      let s := faults.foldl (nodeFault c slot op.hdr.layer op.hdr.op so (fun _ => all x)) s
      if !coreActive s c.val then .next (countCut c (all x) s)
      else
        let x := getCore s c
        let r := (List.range n).foldl (treeSample x (standBase so.bytes) h se op (treeWalks x h se op)) (x, false)
        let s := countWalks c (visitsOf (all x)) (nansOf (all x)) (setCore c r.1 s)
        let s := if r.2 then setSticky 0xF00800 c.val 10 s else s
        let s := incCnt (cntCore c.val 7) (countStalls c (all x).length s)
        let s := if faults.isEmpty then treeClean c s else s
        .next (traceEnd (ucCore c) op.hdr (ctxDone c ctx s))
  | _, _ => .next s

/-- PARITY_STRIKE_CLEAR: after 65,536 further clean commands and samples (R182). -/
def execParityStrikeClear (c : CoreId) (s : State) : Res :=
  let x := getCore s c
  if x.te.strike && decide (65536 ≤ x.te.clean) then
    .next (setCore c { x with te := { x.te with strike := false, clean := 0 } } s)
  else .next s

end Sys2Proof.Machine
end

