-- ==== Sys2Proof/Machine/Flow.lean ====
section
/-! DEFINITION. Flow records, hardware insertion, the aging sweep's visits and the flow-scoring stand
(R176 to R181, R255, R289 to R293, R301, R489, R490). -/

namespace Sys2Proof.Machine

/-! ### Flow records (R289 to R291) -/

/-- A flow record. -/
structure FlowRec where
  key : Nat
  first : Nat
  last : Nat
  packets : Nat
  bytes64 : Nat
  requests : Nat
  flags : Nat
  hist : List Nat
  outs : List Nat
  feats : List Nat
  deriving DecidableEq, Repr

def words (n : Nat) (bs : Bytes) (count : Nat) : List Nat :=
  (List.range count).map (fun i => leNat ((bs.drop (n * i)).take n))

def decodeFlow (bs : Bytes) : FlowRec :=
  let f (o n : Nat) : Nat := leNat ((bs.drop o).take n)
  { key := f 0 8, first := f 8 8, last := f 16 8, packets := f 24 4, bytes64 := f 28 4, requests := f 32 4, flags := f 36 4,
    hist := words 1 (bs.drop 40) 8, outs := words 4 (bs.drop 48) 4, feats := words 2 (bs.drop 64) 32 }

def encodeFlow (r : FlowRec) : Bytes :=
  toLE 8 r.key ++ toLE 8 r.first ++ toLE 8 r.last ++ toLE 4 r.packets ++ toLE 4 r.bytes64 ++ toLE 4 r.requests ++
    toLE 4 r.flags ++ (r.hist.map (toLE 1)).flatten ++ (r.outs.map (toLE 4)).flatten ++ (r.feats.map (toLE 2)).flatten

/-- ⌊256·log₂(1 + x)⌋, exactly. -/
def lg16 (x : Nat) : Nat := Nat.log2 ((1 + x) ^ 256)

/-- The bin of an inter-arrival in ns (R290). -/
def iatBin (ns : Nat) : Nat := ((List.range 7).find? (fun k => decide (ns < 1000 * 4 ^ k))).getD 7

/-- Count an inter-arrival; a bin that would pass 255 first halves every bin. -/
def bumpHist (h : List Nat) (k : Nat) : List Nat :=
  let h := if h.getD k 0 == 255 then h.map (· / 2) else h
  listSet h k (h.getD k 0 + 1)

def featSrc (s : State) (n : Nat) : Nat := bits (regW s (0x820010 + 4 * (n / 4)) 0) (8 * (n % 4) + 7) (8 * (n % 4))

/-- A feature's new value, none where the frame does not supply the source (R291). -/
def feature (src : Nat) (r : FlowRec) (iat : Nat) (f : FlowFrame) : Option Nat :=
  match src with
  | 0x00 => some 0
  | 0x01 => some (lg16 r.packets)
  | 0x02 => some (lg16 (64 * r.bytes64))
  | 0x03 => some (lg16 r.requests)
  | 0x04 => some (lg16 ((r.last - r.first) / 1000))
  | 0x05 => some (lg16 iat)
  | 0x06 => some (bits r.flags 6 3)
  | 0x10 => some f.len
  | 0x11 => f.ttl
  | 0x12 => f.dscp
  | 0x13 => f.l4dst
  | 0x14 => f.tcp
  | _ =>
    if 0x08 ≤ src && src ≤ 0x0F then some (r.hist.getD (src - 8) 0)
    else if 0x20 ≤ src && src ≤ 0x3F && f.classM then
      (f.fields.find? (fun x => x.1 == src - 0x20)).map (fun x => beNat (x.2.drop (x.2.length - 2)))
    else none

def recompute (s : State) (iat : Nat) (f : FlowFrame) (r : FlowRec) : FlowRec :=
  { r with feats := (List.range 32).map (fun n => ((feature (featSrc s n) r iat f).getD (r.feats.getD n 0)) % 65536) }

def frameFlags (f : FlowFrame) (flags : Nat) : Nat :=
  setBits (setBits flags 6 3 f.port.val) (if f.classM then 1 else 2) (if f.classM then 1 else 2) 1

/-- The record of a flow's first frame (R290). -/
def firstRecord (s : State) (f : FlowFrame) : FlowRec :=
  recompute s 0 f
    { key := f.key, first := f.gtNs, last := f.gtNs, packets := 1, bytes64 := (f.len + 63) / 64, requests := b2n f.classM,
      flags := frameFlags f 0, hist := List.replicate 8 0, outs := List.replicate 4 0, feats := List.replicate 32 0 }

/-- A further frame's update (R290). -/
def updateRecord (s : State) (f : FlowFrame) (r : FlowRec) : FlowRec :=
  let top := 2 ^ 32 - 1
  let iat := f.gtNs - r.last
  recompute s iat f
    { r with
      last := max r.last f.gtNs, packets := min (r.packets + 1) top, bytes64 := min (r.bytes64 + (f.len + 63) / 64) top,
      requests := min (r.requests + b2n f.classM) top, flags := frameFlags f r.flags, hist := bumpHist r.hist (iatBin iat) }

/-- Read a record; a poisoned one is treated as empty (R193). -/
def readFlow (t : Tbl) (row : Nat) (s : State) : Option FlowRec × State :=
  let ((bs, bad), s) := readDpa (rowAddr t.desc row) 128 s
  if bad then (none, incCnt (cntFlw 6) s) else (some (decodeFlow bs), s)

def writeFlow (t : Tbl) (row : Nat) (r : FlowRec) (s : State) : State := writeDpa (rowAddr t.desc row) (encodeFlow r) s

/-- Apply a frame to a present record. -/
def applyFrame (t : Tbl) (row : Nat) (f : FlowFrame) (s : State) : FlowRec × State :=
  match readFlow t row s with
  | (some r, s) => let r := updateRecord s f r; (r, writeFlow t row r s)
  | (none, s) => let r := firstRecord s f; (r, writeFlow t row r s)

/-! ### Samples (R177, R178, R293) -/

def activeSlot (s : State) : Option SlotId := (List.finRange 2).find? (fun i => (famGet Slot.empty s.slots i.val).st == 3)

/-- The flow-scoring stand of a slot. -/
def flowStandOf (s : State) (sl : SlotId) : Option StandObj :=
  ((famGet Slot.empty s.slots sl.val).image).bind (fun im => im.stands.find? (fun o => (standHdr o.bytes).flow))

/-- A feature as it is sent: for a BF16 stand, the nearest BF16 value of its code, but M_FIELD raw. -/
def sentFeat (s : State) (bf : Bool) (n code : Nat) : W16 :=
  let src := featSrc s n
  if bf && !(0x20 ≤ src && src ≤ 0x3F) then toBf16 (roundFV bf16 (intFV code)) else BitVec.ofNat 16 code

/-- A request leaves flow scoring unscored, with its record's last outputs (R179, R301). -/
def offerUnscored (k : Nat) (outs : List W32) (s : State) : State :=
  offer k (modReq k (fun r => { r with unscored := true, outs := outs }) s)

def recOuts (r : FlowRec) : List W32 := r.outs.map (BitVec.ofNat 32)

/-- Send a scoring sample with a record's features. -/
def sendSample (f : FlowFrame) (row : Nat) (r : FlowRec) (s : State) : State :=
  match (activeSlot s).bind (fun sl => (flowStandOf s sl).map (fun o => (sl, o))) with
  | none =>
    let s := incCnt (cntFlw 7) s
    match f.entry with
    | some k => offerUnscored k (recOuts r) s
    | none => s
  | some (sl, o) =>
    let h := standHdr o.bytes
    let feats := (List.range 32).map (fun n => sentFeat s h.bf16 n (r.feats.getD n 0))
    let x : Sample :=
      { id := s.flow.nextSample, die := f.die, index := row, key := f.key, feats := feats, slot := sl, stand := h.id, waiter := f.entry }
    let s := incCnt (cntFlw 5) { s with flow := { s.flow with samples := s.flow.samples ++ [x], nextSample := s.flow.nextSample + 1 } }
    match f.entry with
    | some k => modReq k (fun q => { q with st := 2, sampled := some (now s), sample := some x.id }) s
    | none => s

/-- Whether an update sends a sample (R293). -/
def sampleDue (s : State) (f : FlowFrame) (r : FlowRec) : Bool :=
  f.classM || (f.score && (r.packets == 1 || r.packets % max 1 (regF s 0x82000C 0 15 0) == 0))

/-- A tracked frame's request goes on, or its frame stays untracked. -/
def flowUntracked (f : FlowFrame) (s : State) : State :=
  let s := incCnt (cntFlw 2) s
  match f.entry with
  | some k => offer k (modReq k (fun r => { r with untracked := true }) s)
  | none => s

def noteIndex (f : FlowFrame) (row : Nat) (s : State) : State :=
  match f.entry with
  | some k => modReq k (fun r => { r with flowIndex := some row }) s
  | none => s

/-- A request whose flow got no record names none (R292). -/
def dropIndex (f : FlowFrame) (s : State) : State :=
  match f.entry with
  | some k => modReq k (fun r => { r with flowIndex := none }) s
  | none => s

/-- Every update of a flow's record sets HIT of its slot (R255). -/
def touchFlow (t : Nat) (f : Found) (s : State) : State := touchKey t (fun e => eVis e == 1) f.entry.key s

/-- FLOW_UPDATE: the oldest request of the flow ports is served (R290, R292). -/
def execFlowUpdate (s : State) : Res :=
  match s.flow.queue with
  | [] => .next s
  | (_, f) :: rest =>
    let s := { s with flow := { s.flow with queue := rest } }
    match flowTable s with
    | none => .next (flowUntracked f s)
    | some (t, x) =>
      match findKey x.desc (fun e => eVis e == 1) f.key s with
      | (some fd, s) =>
        let (r, s) := applyFrame x fd.entry.row f s
        let s := incCnt (cntFlw 0) (touchFlow t fd (noteIndex f fd.entry.row s))
        .next (if sampleDue s f r then sendSample f fd.entry.row r s else s)
      | (none, s) =>
        let ix := firstGap 0 s.flow.used
        if hwRecords s ≤ ix || 4096 ≤ s.flow.inserts.length then .next (flowUntracked f s)
        else
          let r := firstRecord s f
          let s := writeFlow x ix r s
          let i : FlowIns := { frame := f, index := ix, ord := s.tbl.ords }
          let s := { s with
            tbl := { s.tbl with ords := s.tbl.ords + 1 }
            flow := { s.flow with used := setIns ix s.flow.used, inserts := s.flow.inserts ++ [i] } }
          let s := incCnt (cntFlw 0) (noteIndex f ix s)
          .next (if sampleDue s f r then sendSample f ix r s else s)

/-- A sample's record is the one its flow keeps after a merge (R292, R293). -/
def redirect (key ix to_ : Nat) (s : State) : State :=
  let f (x : Sample) : Sample := if x.index == ix && x.key == key then { x with index := to_ } else x
  let s := { s with flow := { s.flow with samples := s.flow.samples.map f } }
  (List.finRange 32).foldl (fun s k =>
    let c := getCluster s k
    if c.queue.any (fun x => f x != x) || c.inFlight.any (fun g => f g.sample != g.sample) then
      modCluster k (fun c => { c with queue := c.queue.map f, inFlight := c.inFlight.map (fun g => { g with sample := f g.sample }) }) s
    else s) s

def freeIndex (ix : Nat) (s : State) : State := { s with flow := { s.flow with used := setDel ix s.flow.used } }

/-- FLOW_INSERT: the writer takes the oldest hardware insertion; a key found present merges, and one
without room returns its index (R292). It waits while its buckets overlap a running chain's or those of an earlier change, and
while moves are held (R230, R232). -/
def execFlowInsert (s : State) : Res :=
  match s.flow.inserts with
  | [] => .next s
  | i :: rest =>
    let s1 := { s with flow := { s.flow with inserts := rest } }
    match flowTable s1 with
    | none => .next (freeIndex i.index s1)
    | some (t, x) =>
      if writerBusy t 1 i.frame.key i.ord s || movesHeld s x then .next s
      else match findKey x.desc (fun e => eVis e == 1) i.frame.key s1 with
        | (some fd, s1) =>
          let (_, s1) := applyFrame x fd.entry.row i.frame s1
          let s1 := redirect i.frame.key i.index fd.entry.row (noteIndex i.frame fd.entry.row (freeIndex i.index s1))
          .next (incCnt (cntFlw 4) (incCnt (cntFlw 0) (touchFlow t fd s1)))
        | (none, s1) =>
          match insertNow t { key := i.frame.key, row := i.index, flags := mkFlags 0 true true false 1 } s1 with
          | (true, s1) => .next (incCnt (cntFlw 1) s1)
          | (false, s1) => .next (incCnt (cntFlw 3) (dropIndex i.frame (freeIndex i.index s1)))

/-! ### The sweep (R255, R256) -/

/-- A sweep visit to a bucket of a flow table, on the edge on which it falls due. A bucket that a running chain touches waits
(R232). -/
def ageFlow (t : Nat) (x : Tbl) (b : Nat) (s : State) : State :=
  match (if decide (b < 2 ^ x.desc.blog) then visitNow s x.swept x.desc.agePeriod (2 ^ x.desc.blog) b else none) with
  | none => s
  | some due =>
    if s.tbl.chains.any (fun c => c.req.table.val == t && (chainBuckets c).contains b) then s
    else
      let s := modTbl t (fun y => { y with swept := due + 1, visited := y.visited ++ [b] }) s
      (List.range 4).foldl (fun s n =>
        let (es, s) := bucketRd x.desc b s
        let e := es.getD n Entry.empty
        if ageSlot e == e then s else putSlot t b n (ageSlot e) s) s

/-- The cycle of a visit ends: entries that have aged out are deleted, and their indices return to the free list. -/
def endFlowVisit (t : Nat) (x : Tbl) (s : State) (b : Nat) : State :=
  (List.range 4).foldl (fun s n =>
    let (es, s) := bucketRd x.desc b s
    let e := es.getD n Entry.empty
    if !agedOut e then s
    else
      let s := incCnt (cntTable t 1) (putSlot t b n Entry.empty s)
      if e.row < hwRecords s then freeIndex e.row s else s) s

/-- The sweeps' visits of this edge end (R256). -/
def endVisits (s : State) : State :=
  s.tbl.tables.foldl (fun s p =>
    if p.2.visited.isEmpty then s
    else modTbl p.1 (fun y => { y with visited := [] }) (p.2.visited.foldl (endFlowVisit p.1 p.2) s)) (endFwdVisits s)

/-- AGING_VISIT: the sweep visits a bucket of a forwarding table or a FLOW table (R255). An entry that reaches AGE 7 is deleted
when the cycle ends, unless a hit of the same cycle keeps it (R256). -/
def execAgingVisit (sweep : SweepOf) (bucket : Nat) (s : State) : Res :=
  match sweep with
  | .fwd d => .next (ageFwd d bucket s)
  | .stack t =>
    match getTbl s t.val with
    | some x => if x.desc.kind == 1 then .next (ageFlow t.val x bucket s) else .next s
    | none => .next s

/-! ### The stand combiner (R179, R490) -/

/-- The physical core of a stand's segment. -/
def segCore (s : State) (o : StandObj) (k : Nat) : Nat :=
  logicalCorePhys s (8 * logicalClusterPhys s o.cluster.val + (o.cores.getD k 0).val)

def segPlaced (s : State) (sl : SlotId) (o : StandObj) (k : Nat) : Bool :=
  match (List.finRange 256)[segCore s o k]? with
  | some c => (segEntry (getCore s c) sl (standHdr o.bytes).id k).isSome && coreActive s c.val
  | none => false

/-- Every segment of the stand is in place (R489). -/
def standPlaced (s : State) (sl : SlotId) (o : StandObj) : Bool := (List.range (standHdr o.bytes).segCount).all (segPlaced s sl o)

/-- The outputs that a flow's record last held, zeros where it has none (R179, R301). -/
def lastOuts (index : Option Nat) (s : State) : List W32 × State :=
  match index, flowTable s with
  | some ix, some (_, t) =>
    let (r, s) := readFlow t ix s
    ((r.map recOuts).getD (List.replicate 4 0), s)
  | _, _ => (List.replicate 4 0, s)

/-- The entry that still waits for a sample. -/
def waitsFor (s : State) (x : Sample) : Option Nat :=
  x.waiter.filter (fun w => ((getReq s w).map (fun r => r.st == 2 && r.sample == some x.id)).getD false)

/-- A sample is not scored: the request that waits for it goes on to admission (R179). -/
def unscored (x : Sample) (s : State) : State :=
  match waitsFor s x with
  | some w =>
    let (outs, s) := lastOuts (some x.index) s
    offerUnscored w outs s
  | none => s

/-- FLOW_SAMPLE: the oldest sample reaches its combiner's queue, or is dropped (R179). -/
def execFlowSample (s : State) : Res :=
  match s.flow.samples with
  | [] => .next s
  | x :: rest =>
    let s := { s with flow := { s.flow with samples := rest } }
    match standOf s x.slot x.stand with
    | none => .next (unscored x (incCnt (cntFlw 7) s))
    | some o =>
      let k : ClusterId := ⟨logicalClusterPhys s o.cluster.val % 32, by omega⟩
      if 1024 ≤ (getCluster s k).queue.length || !standPlaced s x.slot o then .next (unscored x (incCnt (cntCluster k.val 0) s))
      else .next (modCluster k (fun c => { c with queue := c.queue ++ [x] }) s)

/-- SAMPLE_DISPATCH (R490). -/
def execSampleDispatch (k : ClusterId) (s : State) : Res :=
  match (getCluster s k).queue with
  | [] => .next s
  | x :: rest =>
    match standOf s x.slot x.stand with
    | none => .next (unscored x (modCluster k (fun c => { c with queue := rest }) s))
    | some o =>
      let cores := ((List.range (standHdr o.bytes).segCount).map (segCore s o)).eraseDups
      let room := (List.finRange 256).all (fun c => !cores.contains c.val || decide ((getCore s c).te.stream.length < 64))
      if !standPlaced s x.slot o || !room then .next s
      else
        let s := (List.finRange 256).foldl (fun s c =>
          if cores.contains c.val then modCore c (fun y => { y with te := { y.te with stream := y.te.stream ++ [x.id] } }) s else s) s
        .next (modCluster k (fun c => { c with queue := rest, inFlight := c.inFlight ++ [{ sample := x, sums := [], poisoned := false }] }) s)

/-- The cluster whose combiner holds a dispatched sample. -/
def combinerOf (s : State) (id : Nat) : Option ClusterId :=
  (List.finRange 32).find? (fun k => (getCluster s k).inFlight.any (fun f => f.sample.id == id))

/-- The segments of a dispatched sample that a core holds and whose sums the combiner lacks. -/
def segsOwed (x : CoreState) (f : InFlight) : List Nat :=
  (List.range 8).filter (fun n => (mapGet n f.sums).isNone && (segEntry x f.sample.slot f.sample.stand n).isSome)

/-- A core's stream input: the samples that it owes sums, oldest dispatched first, as far as it has room (R490). -/
def fillStream (c : CoreId) (s : State) : State :=
  let flying := ((List.finRange 32).map (fun k => (getCluster s k).inFlight)).flatten
  let ids := ((flying.filter (fun f => !(segsOwed (getCore s c) f).isEmpty)).map (fun f => f.sample.id)).take 64
  modCore c (fun y => { y with te := { y.te with stream := ids } }) s

/-- A sample's walks on a held segment. -/
def streamWalks (x : CoreState) (o : StandObj) (sm : Sample) (n : Nat) : List Walk :=
  match segEntry x sm.slot sm.stand n with
  | some e => segWalks (segWord x e) (standHdr o.bytes) ((standHdr o.bytes).segs.getD n (0, 0)).1 (fun i => sm.feats.getD i 0)
  | none => []

/-- A sample's sum of a segment depends on a damaged word. -/
def streamDead (x : CoreState) (o : StandObj) (sm : Sample) (n : Nat) : Bool :=
  ((segEntry x sm.slot sm.stand n).map (fun e => walksDead x e (streamWalks x o sm n))).getD false

/-- Items of the samples in a core's stream input. -/
def streamItems (s : State) (c : CoreId) : Nat :=
  let x := getCore s c
  (x.te.stream.map (fun id =>
    (((combinerOf s id).bind (fun k => (getCluster s k).inFlight.find? (fun f => f.sample.id == id))).map (fun f =>
      (((standOf s f.sample.slot f.sample.stand).map (fun o =>
        ((segsOwed x f).map (fun n => ((standHdr o.bytes).segs.getD n (0, 0)).1)).foldl (· + ·) 0)).getD 0))).getD 0)).foldl (· + ·) 0

/-- SEGMENT_SUM_DONE: a core completes the sums of the oldest sample of its stream input, for the
segments that it holds and that the combiner lacks (R490, R181). -/
def execSegmentSumDone (c : CoreId) (faults : List NodeFault) (s : State) : Res :=
  let x := getCore s c
  match x.te.stream with
  | [] => .next s
  | id :: _ =>
    let k := (combinerOf s id).getD (clusterOf c)
    match (getCluster s k).inFlight.find? (fun f => f.sample.id == id) with
    | none => .next (fillStream c s)
    | some f =>
      match standOf s f.sample.slot f.sample.stand with
      | none => .next (fillStream c s)
      | some o =>
        if !coreActive s c.val then .next s
        else
          let segs := segsOwed x f
          let all (x : CoreState) : List Walk := (segs.map (streamWalks x o f.sample)).flatten
          let faults := faults.filter (fun q => segs.contains q.seg && (streamWalks x o f.sample q.seg).any (fun w => w.nodes.contains q.node))
          let s := faults.foldl (nodeFault c f.sample.slot 0 0 o (streamWalks x o f.sample)) s
          if !coreActive s c.val then .next (countCut c (all x) s)
          else
            let x := getCore s c
            let sum (n : Nat) : List W32 := (List.range (standHdr o.bytes).numOut).map (fun i => toF32 (segSum (streamWalks x o f.sample n) i))
            let s := incCnt (cntCore c.val 11) (countWalks c (visitsOf (all x)) (nansOf (all x)) (countStalls c (streamItems s c) s))
            let s := if faults.isEmpty then treeClean c s else s
            let f' := { f with
              sums := segs.foldl (fun m n => mapSet n (sum n) m) f.sums, poisoned := f.poisoned || segs.any (streamDead x o f.sample) }
            .next (fillStream c (modCluster k (fun y => { y with inFlight := y.inFlight.map (fun g => if g.sample.id == id then f' else g) }) s))

/-- A sample's outputs: the base values and the segment sums in ascending segment (R167). -/
def sampleOuts (o : StandObj) (f : InFlight) : List W32 :=
  let h := standHdr o.bytes
  (List.range h.numOut).map (fun i =>
    toF32 ((List.range h.segCount).foldl (fun a n => add32 a (f32 ((mapGetD [] n f.sums).getD i 0))) (standBase o.bytes i)))

/-- The record of a sample's flow is still the one it was sent for (R293). -/
def sampleRecord (t : Nat) (x : Tbl) (sm : Sample) (s : State) : Bool × State :=
  if s.flow.inserts.any (fun i => i.index == sm.index && i.frame.key == sm.key) then (true, s)
  else
    let (fd, s) := findKey x.desc (fun e => eVis e == 1 && e.row == sm.index) sm.key s
    (fd.isSome && t < 256, s)

/-- STAND_OUTPUTS_RETURN: the oldest dispatched sample of a cluster, once all its sums have arrived,
returns its outputs to the flow record and the waiting entry (R293, R301, R490). Poisoned outputs
are not written, and the request that depends on them is answered POISON (R182, R407). -/
def execStandOutputsReturn (k : ClusterId) (s : State) : Res :=
  match (getCluster s k).inFlight with
  | [] => .next s
  | f :: rest =>
    match standOf s f.sample.slot f.sample.stand with
    | none => .next (unscored f.sample (modCluster k (fun y => { y with inFlight := rest }) s))
    | some o =>
      if (List.range (standHdr o.bytes).segCount).any (fun n => (mapGet n f.sums).isNone) then .next s
      else
        let s := modCluster k (fun y => { y with inFlight := rest }) s
        let outs := sampleOuts o f
        let s := match flowTable s with
          | none => s
          | some (t, x) =>
            match sampleRecord t x f.sample s with
            | (false, s) => s
            | (true, s) =>
              match readFlow x f.sample.index s with
              | (none, s) => s
              | (some r, s) =>
                if f.poisoned then s
                else
                  let os := (outs.map (fun (w : W32) => w.toNat) ++ List.replicate 4 0).take 4
                  writeFlow x f.sample.index { r with outs := os, flags := setBits r.flags 0 0 1 } s
        match waitsFor s f.sample with
        | some w => .next (if f.poisoned then answerPoison w s else offer w (modReq w (fun q => { q with outs := outs }) s))
        | none => .next s

/-- SCORE_WAIT_EXPIRE (R301). -/
def execScoreWaitExpire (d : NDie) (ix : Nat) (s : State) : Res :=
  let k := rqtKey d ix
  match getReq s k with
  | none => .next s
  | some r =>
    match r.sampled with
    | none => .next s
    | some t =>
      if r.st != 2 || now s < t + nsT (10 * regF s 0x840000 0 23 8) then .next s
      else
        let s := incCnt (cntAdm 4) s
        let (outs, s) := lastOuts r.flowIndex s
        .next (offerUnscored k outs s)

/-! ### Moves of segments (R176, R489) -/

/-- Move the segments of tree memory together from word 0. -/
def packSegs (te : TEng) : TEng :=
  te.segs.foldl (fun y p =>
    let used := (y.segs.map (fun q => q.2.count)).foldl (· + ·) 0
    let ws := (List.range p.2.count).map (fun i => (used + i, p.2.base + i))
    { y with
      words := ws.foldl (fun m w => mapSetD 0 w.1 (mapGetD 0 w.2 te.words) m) y.words
      bad := ws.foldl (fun m w => setPut (te.bad.contains w.2) w.1 m) y.bad
      segs := y.segs ++ [(p.1, { p.2 with base := used })] })
    { te with words := [], bad := [], segs := [] }

/-- Place a segment in tree memory with its words, each with whether it is damaged; none when the core has
no room: 16 segments, or 131,072 node words in all (R174). It takes the first free run of words that holds it, where there is none
after the segments have been moved together, and the lowest free map entry (DESIGN CHOICE, log 113). -/
def holdSeg (e : SegEntry) (ws : List (W64 × Bool)) (te : TEng) : Option TEng :=
  let total := (te.segs.map (fun p => p.2.count)).foldl (· + ·) 0
  if 16 ≤ te.segs.length || 131072 < total + e.count then none
  else
    let used := te.segs.map (fun p => (p.2.base, p.2.count))
    let fits (b : Nat) : Bool := decide (b + e.count ≤ 131072) && used.all (fun p => b + e.count ≤ p.1 || p.1 + p.2 ≤ b)
    let (te, b) := match (0 :: used.map (fun p => p.1 + p.2)).find? fits with
      | some b => (te, b)
      | none => (packSegs te, total)
    let cells := (List.range ws.length).zip ws
    some { te with
      words := cells.foldl (fun m w => mapSetD 0 (b + w.1) w.2.1 m) te.words
      bad := cells.foldl (fun m w => setPut w.2.2 (b + w.1) m) te.bad
      segs := mapSet (firstGap 0 (te.segs.map (·.1))) { e with base := b } te.segs }

/-- The core that a held segment goes to: the one that its stand now places it on, when that one runs and another holds it. -/
def moveTarget (s : State) (c : CoreId) (e : SegEntry) : Option (StandObj × CoreId) :=
  (standOf s e.slot e.stand).bind (fun o =>
    ((List.finRange 256)[segCore s o e.seg]?).bind (fun j => if j == c || !coreActive s j.val then none else some (o, j)))

/-- SEGMENT_MOVE: the core's next segment that R402 has placed elsewhere is copied from its guarded copy onto the core
chosen; samples already dispatched restart there (R176, R489). A segment of a stand that no slot holds any more ends. -/
def execSegmentMove (c : CoreId) (s : State) : Res :=
  let x := getCore s c
  let drop (n : Nat) (s : State) : State := modCore c (fun y => { y with te := { y.te with segs := mapDel n y.te.segs } }) s
  match x.te.segs.find? (fun p => (standOf s p.2.slot p.2.stand).isNone || (moveTarget s c p.2).isSome) with
  | none => .next s
  | some (n, e) =>
    match moveTarget s c e with
    | none => .next (drop n s)
    | some (o, j) =>
      let (ws, s) := segWords e.slot o e.seg s
      match holdSeg { e with base := 0 } ws (getCore s j).te with
      | none => .next s
      | some te => .next (fillStream j (fillStream c (modCore j (fun y => { y with te := te }) (drop n s))))

end Sys2Proof.Machine
end

