-- ==== Sys2Proof/Machine/Lanes.lean ====
section
/-! DEFINITION. Changes of lanes and ports: quad modes, training, lost and rejoining lanes (R260, R263,
R476). -/

namespace Sys2Proof.Machine

/-- Frees what a queued copy holds. -/
def dropItem (g : Nat) (it : QItem) (s : State) : State :=
  let s := incCnt (cntPort g 11) (dropFrame it.frame s)
  match it.entry with
  | some k => freeEntry k s
  | none => s

/-- A port goes down: the frames queued for it are dropped and counted (R263). -/
def portDown (g st : Nat) (s : State) : State :=
  let x := getEPort s g
  let items := (x.queues.map (·.2)).flatten ++ (x.sending.map (fun p => [p.1])).getD []
  let s := setEPort g { x with st := st, pause := false, queues := [], sending := none, deficit := [], turn := [] } s
  items.foldl (fun s it => dropItem g it s) s

/-- A lane fails (R263): its port runs on at reduced width once both ends agree, or goes down. -/
def loseLane (l : Nat) (dark : Bool) (s : State) : State :=
  let x := getLane s l
  if x.lost then s
  else
    let g := (portOfLane s l).1
    let s := setLane l { x with st := 1, lost := true, dark := dark } s
    let s := reportWith 0x40 (unitCode 8 l) 0 (unitCode 8 l) 0 0 [] s
    let left := (portLanes s g).filter (fun j => (getLane s j).st == 2)
    if (getEPort s g).st != 2 then s
    else if portNative s g && !left.isEmpty then modEPort g (fun p => { p with pause := true }) s
    else reportWith 0x41 (unitCode 9 g) 0 (unitCode 9 g) 0 0 [] (portDown g 0 s)

/-- LANE_LOST (R263). -/
def execLaneLost (lane : LaneId) (s : State) : Res := .next (loseLane lane.val false s)

/-- LASER_LOW_LIGHT: a measurement of a lane's laser input; below 10 dBm, 100 units of 0.1 mW, the lane is
lost, but not in STANDBY (R476). -/
def execLaserLowLight (lane : LaneId) (power : BitVec 12) (s : State) : Res :=
  let l := lane.val
  let s := modLane l (fun x => { x with power := power.toNat }) s
  if 100 ≤ power.toNat || (getLane s l).st == 3 then .next s
  else
    let s := setSticky (pp l (0x800400 + 4 * (l % 8))) 0 13 s
    .next (if (getLane s l).lost then modLane l (fun x => { x with dark := true }) s else loseLane l true s)

/-- PORT_REWIDTH: both ends agree, and the port resumes on its lanes (R263). -/
def execPortRewidth (port : LaneId) (s : State) : Res := .next (modEPort port.val (fun p => { p with pause := false }) s)

/-- A lane is back in its port: a wide native port pauses until the width is agreed, a port that is down
comes up with its last lane (R263). -/
def rejoin (l : Nat) (s : State) : State :=
  let g := (portOfLane s l).1
  let s := modLane l (fun x => { x with st := 2, lost := false, dark := false }) s
  if (getEPort s g).st == 2 then modEPort g (fun p => { p with pause := true }) s
  else if (portLanes s g).all (fun j => (getLane s j).st == 2) then modEPort g (fun p => { p with st := 2 }) s
  else s

/-- LANE_REJOIN: a lost lane has retrained and was clean for 1 s; one lost for low light rejoins only by
R476. -/
def execLaneRejoin (lane : LaneId) (s : State) : Res :=
  let x := getLane s lane.val
  .next (if x.lost && !x.dark then rejoin lane.val s else s)

/-- PORT_UP: a port finishes training, which begins with the firmware (R260, R426, R433). A lost lane stays out; a native port comes up on the others. -/
def execPortUp (port : LaneId) (s : State) : Res :=
  let g := port.val
  if !s.boot.fwUp || !isPort s g || (getEPort s g).st == 2 then .next s
  else
    let ls := (portLanes s g).filter (fun l => !(getLane s l).lost && (getLane s l).st != 3)
    if ls.isEmpty || (!portNative s g && ls.length < (portLanes s g).length) then .next s
    else .next (modEPort g (fun p => { p with st := 2 }) (ls.foldl (fun s l => modLane l (fun x => { x with st := 2 }) s) s))

/-- Take down and retrain the lanes of a quad (R260). -/
def retrainQuad (d : NDie) (q : Nat) (s : State) : State :=
  let lanes := List.range' (8 * dieIx d + 4 * q) 4
  lanes.foldl (fun s l =>
    let s := portDown l 1 s
    modLane l (fun x => { x with st := if x.st == 3 then 3 else 1, lost := x.dark }) s) s

/-- A write of a die's quad modes: a value above 4 leaves its field, and COMPAT_DR8 on one quad alone
leaves both (R7, R260). The ports of a quad whose mode changes go down and retrain. -/
def writeQuads (d : NDie) (value : Nat) (s : State) : State :=
  let f (q : Nat) : Nat := let v := bits value (3 * q + 2) (3 * q); if 4 < v then quadMode s d q else v
  let (a, b) := (f 0, f 1)
  if (a == 4) != (b == 4) then s
  else
    let (o0, o1) := (quadMode s d 0, quadMode s d 1)
    let s := if a != o0 then retrainQuad d 0 s else s
    let s := if b != o1 then retrainQuad d 1 s else s
    setRegW (dieOff d 0x800000) 0 (a + 8 * b) s

/-- QUAD_MODE_WRITE. -/
def execQuadModeWrite (p : HPort) (d : NDie) (value : W32) (s : State) : Res :=
  if !barUp s then .next s else
  if !holdsSem s p then .next (discardRws p (dieOff d 0x800000) s) else .next (writeQuads d value.toNat s)

/-- PP_PORT_CFG.EN written 0 and then 1 brings back lanes lost for low light whose input is above
14 dBm, 251.2 units of 0.1 mW (R476). -/
def enableLanes (g : Nat) (s : State) : State :=
  (portLanes s g).foldl (fun s l =>
    let x := getLane s l
    if x.lost && x.dark && 252 ≤ x.power then rejoin l s else s) s

end Sys2Proof.Machine
end

