-- ==== Sys2Proof/Machine/Power.lean ====
section
/-! DEFINITION. Power domains: sleep, wakes and their failure, stretching, and the quiet clock (R415 to
R424). -/

namespace Sys2Proof.Machine

/-- A change of a domain's STATE; the start of a sleep entry and the end of a wake are POWER trace records
(R451, R453). Its clock is gated from here or until here (R46, R47). -/
def setDom (n st : Nat) (s : State) : State :=
  let d := getDom s n
  let s := if st == 1 || st == 4 then emitTrace 9 (domUnit n) 0 0 (b2n (st == 4) + 2 * n) s else s
  noteStretch (putDom n { d with st := st, gtNs := nowNs s, since := now s } (markStretch s))

/-! ### What a pending launch names (R42, R418) -/

/-- The domains that a slot's placement names for the cores of a ream: their cores and clusters, and
every stack when the image gathers (rows are striped over all of them). -/
def placementDoms (s : State) (sl : SlotId) (cores : List Nat) : List Nat :=
  let im := (getSlot s sl.val).image
  let gathers := (im.map (fun i => !i.gather.isEmpty)).getD false
  cores.map domCore ++ ((cores.map (· / 8)).eraseDups.map domCluster) ++ (if gathers then (List.range 16).map domStack else [])

/-- The physical core of a program's logical core. -/
def physCore (s : State) (c : CoreId) : Nat := logicalCorePhys s (8 * logicalClusterPhys s (c.val / 8) + c.val % 8)

/-- The domains that a sealed ream names. -/
def reamDoms (s : State) (r : Ream) : List Nat := placementDoms s r.slot ((r.rebuild ++ r.cores).map (physCore s))

/-- The clusters of a slot's flow-scoring stand. -/
def flowCluster (s : State) (sl : SlotId) : Option Nat := (flowStandOf s sl).map (fun o => logicalClusterPhys s o.cluster.val)

/-- The lanes that carry a ream's shares to workers (R420). -/
def shareLanes (s : State) (r : Ream) : List Nat :=
  ((r.shares.filterMap (fun x => if x.2.1 == 0 then none else getPeer s x.2.1)).map (fun p => (portLanes s p.port.val).map domLane)).flatten

/-- Pending launches: each LAUNCH_GT in ns with the domains it names. A switch of slot names the cluster
of the new flow-scoring stand (R178). -/
def pendingLaunches (s : State) : List (Nat × List Nat) :=
  (s.reams.filter (fun r => r.sealed_ && !r.launched)).map (fun r => (r.launchNs, reamDoms s r ++ shareLanes s r)) ++
    s.host.sched.filterMap (fun x =>
      match x.kind with
      | .activate sl => (flowCluster s sl).map (fun k => (dLaunch x.desc, domCluster k :: (List.range 8).map (fun p => domCore (8 * k + p))))
      | _ => none)

def namedBefore (s : State) (n t : Nat) : Bool := (pendingLaunches s).any (fun l => l.2.contains n && decide (nsT l.1 < t))

/-! ### Held awake (R22, PWR_HOLD_AWAKE) -/

def ruleScores (a : Nat) : Bool := bits a 2 0 == 3 || (bit a 14 && bit a 15)

/-- Some port's rule set directs traffic to flow scoring. -/
def scoringOn (s : State) : Bool :=
  s.net.rules.any (fun r => r.2.valid && ruleScores r.2.act) ||
    (List.range 16).any (fun g => isPort s g && (ruleScores (defaultAct s g) || ruleScores (mDefaultAct s g)))

def heldAwake (s : State) (k : Nat) : Bool :=
  bit (regW s 0x20000C 0) k ||
    (scoringOn s && (List.finRange 2).any (fun sl => ((getSlot s sl.val).st == 3 || (getSlot s sl.val).st == 4) && flowCluster s sl == some k))

/-! ### Sleep (R418 to R421) -/

def policy (s : State) (hi lo : Nat) : Nat := regF s 0x200004 0 hi lo

/-- CORE_SLEEP (R418). -/
def execCoreSleep (c : CoreId) (s : State) : Res :=
  let n := domCore c.val
  let x := getCore s c
  let idle := x.ctxs.toList.all (fun y => y.st == .idle || y.st == .waitLaunch) && x.te.stream.isEmpty && decide (x.lastRun + usT (policy s 7 0) ≤ now s)
  let far := !namedBefore s n (now s + nsT (entryNs n + wakeNs n) + usT (policy s 23 16))
  if domState s n == 4 && idle && far && !heldAwake s (c.val / 8) then .next (setDom n 1 s) else .next s

/-- CLUSTER_SLEEP (R418): every core asleep or fenced. -/
def execClusterSleep (k : ClusterId) (s : State) : Res :=
  let n := domCluster k.val
  let cores := (List.finRange 256).filter (fun c => c.val / 8 == k.val)
  let down := cores.all (fun c => !coreActive s c.val || domState s (domCore c.val) == 2)
  let idle := cores.all (fun c => decide ((getCore s c).lastRun + usT (policy s 15 8) ≤ now s))
  let far := !namedBefore s n (now s + nsT (entryNs n + wakeNs n) + usT (policy s 23 16))
  if domState s n == 4 && down && idle && far && !heldAwake s k.val then .next (setDom n 1 s) else .next s

/-- STACK_SELF_REFRESH (R419). -/
def execStackSelfRefresh (st : StackId) (s : State) : Res :=
  let n := domStack st.val
  let idle := decide (mapGetD 0 st.val s.dsm.used + msT (regF s 0x200008 0 15 0) ≤ now s)
  let far := !namedBefore s n (now s + nsT 22000 + usT (policy s 23 16))
  if policy s 24 24 == 1 && domState s n == 4 && idle && far then .next (setDom n 1 s) else .next s

/-- LANE_STANDBY (R420). -/
def execLaneStandby (lane : LaneId) (s : State) : Res :=
  let l := lane.val
  let n := domLane l
  if policy s 25 25 == 1 && !portEn s (portOfLane s l).1 && domState s n == 4 then
    .next (modLane l (fun x => { x with st := 3 }) (setDom n 1 s))
  else .next s

/-- What a domain loses when it is asleep: a core its tile memory and banks, a cluster its SRAM. Their
bytes are then free values (R97, R416; DESIGN CHOICE, log 8). -/
def loseMemory (n : Nat) (s : State) : State :=
  let e := s.fresh
  if n < 256 then
    let mem (i len : Nat) : List Host.Cell := cellsOf 0 ((Config.freeBytes (e + i)).take len)
    (List.finRange 256).foldl (fun s c =>
      if c.val == n then
        modCore c (fun x => { x with
          tile := mem 0 tileBytes, tilePoison := [],
          banks := famMap (fun b _ => { mem := mem (1 + b) 24576, poison := false }) x.banks }) s
      else s) { s with fresh := e + 5 }
  else if n < 288 then
    (List.finRange 32).foldl (fun s k =>
      if k.val == n - 256 then
        modCluster k (fun x => { x with sram := cellsOf 0 ((Config.freeBytes e).take clusterSramBytes), sramPoison := [] }) s
      else s) { s with fresh := e + 1 }
  else s

/-- A cluster that falls asleep discards the records left in its trace buffer (R453). -/
def dropTrace (n : Nat) (s : State) : State :=
  match mapGet n s.trace with
  | none => s
  | some t =>
    let k := t.fifo.words.length
    let f : Fifo := { words := [], gap := min (t.fifo.gap + k) 0xFFFFFFFF }
    addCnt (cntObs 1) k { s with trace := mapSet n { t with fifo := f, needSync := true } s.trace }

/-- SLEEP_ENTRY_END: a wake requested during the entry begins at its end (R421). -/
def execSleepEntryEnd (dom : DomainId) (s : State) : Res :=
  let n := dom.val
  let d := getDom s n
  if domState s n != 1 || now s < d.since + nsT (entryNs n) then .next s
  else
    let s := loseMemory n (setDom n 2 s)
    let s := if 256 ≤ n && n < 288 then dropTrace (n - 256) s else s
    let d' := getDom s n
    if d.want then
      .next (putDom n { d' with st := 3, want := false, wakes := min (d'.wakes + 1) (2 ^ 24 - 1), since := now s, retried := false } s)
    else .next s

/-- PREWAKE, also of a unit whose launch edge has passed; a unit in entry needs its remaining entry time too (R42, R43, R421). -/
def execPrewake (dom : DomainId) (s : State) : Res :=
  let n := dom.val
  if (pendingLaunches s).any (fun l => l.2.contains n && decide (nsT l.1 ≤ now s + wakeLeft s n (now s))) || s.pwr.late.any (fun l => l.1 == n) then .next (beginWake n 0 s)
  else .next s

/-- DEMAND_WAKE: an access or a port enable (R419, R420). -/
def execDemandWake (dom : DomainId) (s : State) : Res := .next (beginWake dom.val 1 s)

/-- A domain can start an item; a lane leaves STANDBY and trains. -/
def domAwake (n : Nat) (s : State) : State :=
  let s := setDom n 4 s
  if 316 ≤ n && n < 332 then modLane (n - 316) (fun x => { x with st := if x.st == 3 then 1 else x.st }) s else s

/-- WAKE_END: the unit can start an item; a cluster's wake includes that of the cores an item names
(R42, R416). -/
def execWakeEnd (dom : DomainId) (s : State) : Res :=
  let n := dom.val
  if domState s n != 3 || now s < (getDom s n).since + nsT (wakeNs n) then .next s
  else
    let s := domAwake n s
    if 256 ≤ n && n < 288 then
      let named := ((pendingLaunches s).map (·.2)).flatten ++ s.pwr.late.map (·.1)
      .next ((List.range' (8 * (n - 256)) 8).foldl (fun s c =>
        if named.contains c && (domState s c == 2 || domState s c == 3) then setDom c 4 s else s) s)
    else .next s

/-- The ports fed by a pipeline's lanes (R261). -/
def pipePorts (s : State) (i : Nat) : List Nat :=
  (List.range' (i / 4 * 8) 8).filter (fun g =>
    isPort s g && (List.range (portOfLane s g).2.1).any (fun j => (g + j) % 4 == i % 4))

/-- WAKE_FAIL: not awake at 4 × its wake latency (R422). -/
def execWakeFail (dom : DomainId) (s : State) : Res :=
  let n := dom.val
  let d := getDom s n
  if domState s n != 3 || wakeNs n == 0 || now s < d.since + nsT (4 * wakeNs n) then .next s
  else
    let s := incCnt (cntPwr 2) s
    let u := domUnit n
    let rep (suspect : UnitCode) (s : State) : State := reportWith 0x32 suspect 0 u 0 0 [n] s
    if n < 256 then
      if !d.retried then .next (putDom n { d with since := now s, retried := true } (rep u s))
      else .next (fenceCluster (n / 8) 0x32 (rep (unitCode 3 (n / 8)) s))
    else if n < 288 then .next (fenceCluster (n - 256) 0x32 (rep u s))
    else if n < 308 then .next (declareLost (stackFin (n - 292)) false 0x32 (rep u s))
    else if n < 316 then
      let s := putDom n { d with st := 2 } (rep u s)
      .next ((pipePorts s (n - 308)).foldl (fun s g => portDown g 0 s) s)
    else .next (loseLane (n - 316) false (putDom n { d with st := 2 } (rep u s)))

/-! ### Stretching (R423, R424, R480) -/

def setStretch (f : Stretch → Stretch) (s : State) : State := noteStretch { markStretch s with stretch := f s.stretch }

/-- A cluster's suppressed edges over a stretch that ends; their number is timing (DESIGN CHOICE, log 11). -/
def countStretch (k : Nat) (s : State) : State :=
  let (v, s) := drawFree s
  let v := v % 2 ^ 48
  addCnt (cntPwr 4) v (addCnt (cntCluster k 1) v s)

/-- DROOP (R423). -/
def execDroop (k : ClusterId) (s : State) : Res :=
  if s.stretch.droop.any (fun p => p.1 == k.val) then .next s
  else .next (incCnt (cntPwr 3) (setStretch (fun x => { x with droop := mapSet k.val (now s) x.droop }) s))

/-- DROOP_RECOVER (R423). -/
def execDroopRecover (k : ClusterId) (s : State) : Res :=
  match mapGet k.val s.stretch.droop with
  | some t =>
    if now s < t + nsT 100 then .next s
    else .next (countStretch k.val (setStretch (fun x => { x with droop := mapDel k.val x.droop }) s))
  | none => .next s

/-- POWER_CAP_WINDOW: the average of the 1 ms window that ends (R424). -/
def execPowerCapWindow (watts : BitVec 11) (s : State) : Res :=
  let w := watts.toNat
  let ms := nowNs s / 1000000
  if s.pwr.window == some ms then .next s
  else
    let limit := regF s 0x200010 0 10 0
    let s := if s.stretch.cap then incCnt (cntPwr 5) s else s
    let s := if s.stretch.thermal.isEmpty then s else incCnt (cntPwr 6) s
    let s := { s with pwr := { s.pwr with watts := w, peak := max s.pwr.peak w, window := some ms } }
    let cap := if s.stretch.cap then !decide (100 * w < 95 * limit) else decide (limit < w)
    let s := if s.stretch.cap && !cap then (List.range 32).foldl (fun s k => countStretch k s) s else s
    .next (setStretch (fun x => { x with cap := cap }) s)

def setTemp (d : Fin 6) (t : Byte) (s : State) : State := { s with pwr := { s.pwr with temps := famSet s.pwr.temps d.val t.toNat } }
def throttleC (s : State) : Nat := regF s 0x200018 0 7 0

/-- THERMAL_THROTTLE: a die reaches THROTTLE_C (R424). -/
def execThermalThrottle (d : Fin 6) (temp : Byte) (s : State) : Res :=
  let s := setTemp d temp s
  if temp.toNat < throttleC s then .next s else .next (setStretch (fun x => { x with thermal := setIns d.val x.thermal }) s)

/-- THERMAL_RELEASE: the die is 5 °C below (R424). -/
def execThermalRelease (d : Fin 6) (temp : Byte) (s : State) : Res :=
  let s := setTemp d temp s
  if throttleC s < temp.toNat + 5 || !s.stretch.thermal.contains d.val then .next s
  else
    let s := (List.range 32).foldl (fun s k => if k / 8 == d.val then countStretch k s else s) s
    .next (setStretch (fun x => { x with thermal := setDel d.val x.thermal }) s)

/-- THERMTRIP: at 120 °C THERMTRIP_N is driven low (R483). -/
def execThermtrip (d : Fin 6) (s : State) : Res :=
  let s := setTemp d 120 s
  .next { s with pwr := { s.pwr with trip := true } }

/-- AVS_RETRY: a transaction is retried or succeeds; after the third failure in succession the die's
clusters stretch until one succeeds (R480). -/
def execAvsRetry (d : CDie) (acked : Bool) (s : State) : Res :=
  let n := mapGetD 0 d.val s.pwr.avsFails
  let put (v : Nat) (s : State) : State := { s with pwr := { s.pwr with avsFails := mapSetD 0 d.val v s.pwr.avsFails } }
  if acked then
    let s := if s.stretch.avs.contains d.val then (List.range 32).foldl (fun s k => if k / 8 == d.val then countStretch k s else s) s else s
    .next (setStretch (fun x => { x with avs := setDel d.val x.avs }) (put 0 s))
  else
    let s := put (min (n + 1) 3) s
    .next (if 2 ≤ n then setStretch (fun x => { x with avs := setIns d.val x.avs }) s else s)

/-! ### The quiet clock (R415) -/

/-- QCLK_UNLOCK. -/
def execQclkUnlock (s : State) : Res :=
  let s := setSticky 0x200000 0 3 { s with pwr := { s.pwr with qclk := false } }
  .next (modGrp (fun g => { g with stopped := true }) s)

/-- QCLK_RELOCK. -/
def execQclkRelock (s : State) : Res :=
  .next (modGrp (fun g => { g with stopped := false }) { s with pwr := { s.pwr with qclk := true } })

end Sys2Proof.Machine
end

