-- ==== Sys2Proof/Machine/Admission.lean ====
section
/-! DEFINITION. Admission: prediction, credits, carrying, the sealing of reams, the placement of their
shares on workers, and the launch of reams (R300 to R304, R355, R379, R380, R382, R405). -/

namespace Sys2Proof.Machine

/-! ### Windows (R302) -/

def reamWindow (s : State) : Nat := cfgField s 2 0
def launchLead (s : State) : Nat := cfgField s 3 0
/-- The window that a GT_NS falls in, and its launch. -/
def windowOf (s : State) (ns : Nat) : Nat := ns / reamWindow s
def launchAt (s : State) (n : Nat) : Nat := (n + 1) * reamWindow s + launchLead s

/-- BOOT_STATUS.STAGE (R427). -/
def bootStage (s : State) : Nat := regF s 0x600000 0 2 0

/-- Admission answers SHED: before SERVING, after a standalone handover, and in roles that do not admit
(R27, R364, R412, R428). A device that has handed over sheds from that edge on, since it admits nothing while HANDED_OVER is 1
(DEDUCED, log 123). -/
def shedding (s : State) : Bool :=
  bootStage s != 5 || s.adm.shedAll || s.canopy.handedOver || 2 ≤ s.grp.role || s.grp.toWorker || reamWindow s == 0

/-! ### Placement -/

def slotImage (s : State) (sl : SlotId) : Option Image := (getSlot s sl.val).image
def svcOf (s : State) (sl : SlotId) (id : W16) : Option Service :=
  (slotImage s sl).bind (fun im => im.services.find? (fun v => v.id == id))

/-- The shares into which an image's group placement divides a ream. -/
def shareCount (im : Image) : Nat :=
  (im.programs.map (fun (p : CoreProgram) => p.share + 1) ++ im.gather.map (fun (g : GatherEntry) => g.share + 1)).foldl max 0

/-- The logical cores of a ream's programs in some shares: its context is its sequence number mod 2. -/
def progsOf (im : Image) (seq : W32) (shares : List Nat) : List CoreId :=
  ((im.programs.filter (fun p => p.ctx.val == seq.toNat % 2 && shares.contains p.share)).map (·.core)).eraseDups

def progsClusters (ps : List CoreId) : List Nat := (ps.map (fun c => c.val / 8)).eraseDups

/-- The hash prefix of a slot's image, as the field that carries it reads (R430). -/
def slotPrefix (s : State) (sl : SlotId) : W64 := BitVec.ofNat 64 (leNat ((getSlot s sl.val).hash.take 8))

/-- The units of cluster credit of all pools, and those that a worker reports free (R377, R379). -/
def totalCredits (s : State) : Nat := (List.range 32).foldl (fun a c => a + regF s (0x840100 + 4 * c) 0 15 0) 0
def freeCredits (s : State) (p : Peer) : Nat := totalCredits s * (256 - p.load) / 256

/-- Workers eligible for a share that needs some credits, lowest ID first (R35, R379). -/
def eligibleWorkers (s : State) (sl : SlotId) (need : Nat) : List Nat :=
  (s.grp.peers.filter (fun q =>
    let p := q.2
    q.1 != 0 && p.st == 2 && p.aligned && (p.hashA == slotPrefix s sl || p.hashB == slotPrefix s sl) &&
      decide (need ≤ freeCredits s p))).map (·.1)

/-- The credits that a request takes on the clusters of one share. -/
def shareNeed (svc : Service) (clusters : List Nat) : Nat := svc.units * (svc.clusters.filter (fun k => clusters.contains k.val)).length

/-- The worker of each share: share 0 stays on the device, every other goes to the lowest eligible
worker that has none of the ream yet, else it stays (DESIGN CHOICE, log 25). 0 stands for the device. -/
def placeShares (s : State) (sl : SlotId) (im : Image) (seq : W32) (svcs : List Service) : List (Nat × Nat) :=
  (List.range (shareCount im)).foldl (fun acc n =>
    if n == 0 || !isManager s then acc ++ [(n, 0)]
    else
      let cl := progsClusters (progsOf im seq [n])
      let need := (svcs.map (fun v => shareNeed v cl)).foldl (· + ·) 0
      let free := (eligibleWorkers s sl need).filter (fun i => !(acc.map (·.2)).contains i)
      acc ++ [(n, free.headD 0)]) []

/-! ### Credits (R303, R405) -/

/-- A ream has no work left. -/
def reamComplete (r : Ream) : Bool := r.launched && r.jobs.isEmpty && r.cores.isEmpty && r.shares.all (fun x => x.2.2)

def cluHeld (s : State) (c : Nat) : Nat := (s.reams.map (fun r => if reamComplete r then 0 else mapGetD 0 c r.cluCredit)).foldl (· + ·) 0
def nluHeld (s : State) (u : Nat) : Nat := (s.reams.map (fun r => mapGetD 0 u r.nluCredit)).foldl (· + ·) 0

/-- The unfenced physical cores that a pool's logical cores run on. -/
def poolCores (s : State) (c : Nat) : List Nat :=
  (((List.range 8).map (fun p => logicalCorePhys s (8 * logicalClusterPhys s c + p))).eraseDups).filter (coreActive s)
def cluCap (s : State) (c : Nat) : Nat :=
  let m := regF s (0x840100 + 4 * c) 0 15 0
  m * mapGetD 8 c s.adm.poolUnits / 8
def nluCap (s : State) (u : Nat) : Nat := regF s (0x840200 + 4 * u) 0 15 0

/-- The stacking factor of the active placement, by the maps of the latest window (R405). -/
def stacking (s : State) (im : Image) : Nat :=
  let s := { s with canopy := { s.canopy with coreMap := s.adm.coreMap, clusterMap := s.adm.clusterMap } }
  let ls := (im.programs.map (·.core)).eraseDups
  let ps := ls.map (physCore s)
  max 1 ((ps.map (fun c => (ps.filter (· == c)).length)).foldl max 0)

/-- Keys of a body for one gather-list entry. -/
def bodyKeys (svc : Service) (g : Nat) (body : Bytes) : List W64 :=
  ((svc.keys.filter (fun k => k.entry == g)).map (fun k =>
    (List.range k.count).map (fun i =>
      let b := (body.drop (k.off + 8 * i)).take 8
      BitVec.ofNat 64 (leNat (if k.big then b.reverse else b))))).flatten

/-- The body holds the layout of its service entry. -/
def bodyFits (svc : Service) (body : Bytes) : Bool :=
  (svc.bodyLen.map (fun n => n == body.length)).getD true && svc.keys.all (fun k => decide (k.off + 8 * k.count ≤ body.length))

/-- The NLU credits of a request: one for each key occurrence, by its H0 owner. -/
def nluNeed (s : State) (im : Image) (svc : Service) (body : Bytes) : List (Nat × Nat) :=
  (im.gather.zip (List.range im.gather.length)).foldl (fun acc g =>
    match getTbl s (entryCmd g.1).table.val with
    | none => acc
    | some x => (bodyKeys svc g.2 body).foldl (fun acc k =>
        let u := nluOf s x.desc (bucketN x.desc 0 k.toNat)
        mapSet u (mapGetD 0 u acc + 1) acc) acc) []

def cluNeed (svc : Service) : List (Nat × Nat) := svc.clusters.map (fun c => (c.val, svc.units))

/-- Sum of two credit lists. -/
def addCredits (a b : List (Nat × Nat)) : List (Nat × Nat) := b.foldl (fun m p => mapSetD 0 p.1 (mapGetD 0 p.1 m + p.2) m) a
def subCredits (a b : List (Nat × Nat)) : List (Nat × Nat) := b.foldl (fun m p => mapSetD 0 p.1 (mapGetD 0 p.1 m - p.2) m) a

def hasCredits (s : State) (clu nlu : List (Nat × Nat)) : Bool :=
  clu.all (fun p => decide (cluHeld s p.1 + p.2 ≤ cluCap s p.1)) && nlu.all (fun p => decide (nluHeld s p.1 + p.2 ≤ nluCap s p.1))

/-! ### Reams -/

def emptyReam (seq : W32) (sl : SlotId) (n part launch : Nat) : Ream :=
  { seq := seq, slot := sl, window := n, part := part, launchNs := launch, sealed_ := false, launched := false, view := 0,
    reqs := [], rows := [], jobs := [], cores := [], rebuild := [], started := [], occupied := [], cluCredit := [], nluCredit := [], entries := [], tgen := 0,
    share := none, shares := [], abandoned := false }

/-- The open ream of a window and slot; a slot switch leaves the window a second one (R355). -/
def openReam (s : State) (n : Nat) (sl : SlotId) : Option Ream :=
  s.reams.find? (fun r => !r.sealed_ && r.share.isNone && r.window == n && r.slot == sl)

/-! ### The prediction (R302) -/

def reamsInFlight (s : State) : Nat := (s.reams.filter (fun r => r.sealed_ && !reamComplete r)).length

/-- Whether a request decided at a GT_NS for the ream of a sequence number and a launch completes before
its deadline. -/
def completesBy (s : State) (sl : SlotId) (im : Image) (svc : Service) (seq : W32) (a launch deadline : Nat) : Bool :=
  let e := mapGetD svc.estNs (65536 * sl.val + svc.id.toNat) s.adm.est
  let e := e * stacking s im
  let shares := placeShares s sl im seq [svc]
  let mine := (shares.filter (fun x => x.2 == 0)).map (·.1)
  let doms := placementDoms s sl ((progsOf im seq mine).map (physCore s))
  let wake := (doms.map (fun n => nsT a + wakeLeft s n (nsT a) - nsT launch)).foldl max 0
  let d := regW s 0x840004 0
  let load := bits d 15 0 * (reamsInFlight s - regF s 0x840000 0 7 4)
  let grp := if shares.any (fun x => x.2 != 0) then bits d 31 16 else 0
  decide (nsT (launch + e + load + grp) + wake < nsT deadline)

/-- The sequence number of the ream that a request of a window joins. -/
def joinSeq (s : State) (n : Nat) (sl : SlotId) : W32 := ((openReam s n sl).map (·.seq)).getD s.adm.nextSeq

/-- The ADMIT trace record of R451. -/
def traceAdmit (outcome k : Nat) (sl : SlotId) (s : State) : State :=
  emitTrace 6 (ucNet .n0) 0 0 (outcome + sl.val * 2 ^ 3 + k % 524288 * 2 ^ 4 + dieIx (rqtDie k) * 2 ^ 23) s

/-- Bind a request to a slot; one that is bound keeps its slot (R24). -/
def bindReq (k : Nat) (sl : SlotId) (s : State) : State :=
  match getReq s k with
  | some r => if r.bound then s else setReq k { r with slot := sl, bound := true } (modSlot sl.val (fun x => { x with bound := x.bound + 1 }) s)
  | none => s

/-- Admit a request to the ream of a window: it binds to the slot and takes its credits (R24, R303); a
manager journals it (R382). -/
def admitReq (k : Nat) (sl : SlotId) (n : Nat) (clu nlu : List (Nat × Nat)) (s : State) : State :=
  let s := match openReam s n sl with
    | some _ => s
    | none =>
      let part := (s.reams.filter (fun r => r.window == n && r.share.isNone)).length
      { s with reams := s.reams ++ [emptyReam s.adm.nextSeq sl n part (launchAt s n)], adm := { s.adm with nextSeq := s.adm.nextSeq + 1 } }
  match openReam s n sl with
  | none => s
  | some m =>
    let s := modReam m.seq (fun r => { r with
      reqs := r.reqs ++ [k], cluCredit := addCredits r.cluCredit clu, nluCredit := addCredits r.nluCredit nlu }) s
    let s := bindReq k sl s
    let s := modReq k (fun r => { r with st := 4, ream := m.seq, clu := clu, nlu := nlu }) s
    journalReq k (traceAdmit 0 k sl (incCnt (cntAdm 0) s))

/-- Carry a request into the next window, or answer it SHED (R304); it keeps the slot to which it is bound (R24). -/
def carryReq (k : Nat) (s : State) : State :=
  match getReq s k with
  | none => s
  | some r =>
    if regF s 0x840000 0 3 0 ≤ r.carries then answerReq k stShed (traceAdmit 1 k 0 (incCnt (cntAdm 3) s))
    else
      let s := modReq k (fun q => { q with st := 3, carries := q.carries + 1, clu := [], nlu := [] }) s
      traceAdmit 2 k 0 <| incCnt (cntAdm 2) { s with adm := { s.adm with carried := s.adm.carried.filter (· != k) ++ [k] } }

/-- A request leaves its ream with its credits, to be carried (R40, R382). -/
def leaveReam (k : Nat) (s : State) : State :=
  match getReq s k with
  | none => s
  | some r =>
    carryReq k (modReam r.ream (fun m => { m with
      reqs := m.reqs.filter (· != k), cluCredit := subCredits m.cluCredit r.clu, nluCredit := subCredits m.nluCredit r.nlu }) s)

/-- The slot of a request: the one to which it is bound, else the active one (R24, R297). -/
def reqSlot (s : State) (r : Req) : Option SlotId := if r.bound then some r.slot else activeSlot s

/-- Decide one request with an admission stamp (R297, R302 to R304). -/
def decideReq (k a : Nat) (again : Bool) (s : State) : State :=
  let s := leaveAdmission k s
  match getReq s k with
  | none => s
  | some r =>
    match reqSlot s r with
    | none => answerReq k stShed (traceAdmit 1 k 0 s)
    | some sl =>
      if shedding s then answerReq k stShed (traceAdmit 1 k sl s)
      else match slotImage s sl, svcOf s sl r.service with
        | some im, some svc =>
          let n := windowOf s a
          if !bodyFits svc r.body then answerReq k stFormat (incCnt (cntAdm 6) s)
          else if !completesBy s sl im svc (joinSeq s n sl) a (launchAt s n) r.deadline then
            answerReq k stShed (traceAdmit 1 k sl (incCnt (cntAdm (if again then 3 else 1)) s))
          else
            let clu := cluNeed svc
            let nlu := nluNeed s im svc r.body
            if hasCredits s clu nlu then admitReq k sl n clu nlu s else carryReq k s
        | _, _ => answerReq k stFormat (incCnt (cntAdm 6) s)

/-! ### Sealing (R302, R303, R355, R380) -/

/-- Memory of another device as a group WRITE addresses it: the unit over 2^32 bytes (DESIGN CHOICE, log 10). -/
def peerAddr (unit a : Nat) : Nat := unit * 2 ^ 32 + a

/-- Send bytes in WRITE frames of at most 4,096 bytes of data. -/
def sendWrites (i : Nat) (space : BitVec 2) : Nat → Nat → Bytes → State → State
  | 0, _, _, s => s
  | n + 1, a, bs, s =>
    if bs.isEmpty then s
    else sendWrites i space n (a + 4096) (bs.drop 4096) (sendSeq i (.write space a (bs.take 4096)) s)

/-- The rows of a ream: its requests in order, with their input bytes as they stand now. -/
def rowsOf (s : State) (r : Ream) : List ReamRow :=
  r.reqs.filterMap (fun k => (getReq s k).map (fun q =>
    { req := k, service := q.service, body := q.body, input := Config.inputBytes q.service q.untracked q.unscored q.outs q.body }))

/-- The address of a row's part. -/
def placeAddr (p : RowPlace) (seq : W32) (i : Nat) : Nat := p.off + seq.toNat % 2 * p.ctxStep + i * p.step

/-- A row's input as a place takes it. -/
def rowInput (p : RowPlace) (x : ReamRow) : Bytes := (x.input ++ List.replicate (p.len - x.input.length) 0).take p.len

/-- Write bytes into a cluster's SRAM; what lies beyond its end is not written, and the lines written lose their poison. -/
def sramPut (k : Nat) (a : Nat) (bs : Bytes) (s : State) : State :=
  if clusterSramBytes < a + bs.length then s
  else match (List.finRange 32)[k]? with
    | some k => modCluster k (fun y => { y with
        sram := ramWrite y.sram a bs, sramPoison := y.sramPoison.filter (fun l => !(linesOf a bs.length).contains l) }) s
    | none => s

/-- Write the input rows of a ream for the shares that the device runs itself (R21). -/
def putInputs (r : Ream) (im : Image) (shares : List Nat) (s : State) : State :=
  (im.inputs.filter (fun p => shares.contains p.share)).foldl (fun s p =>
    (r.rows.zip (List.range r.rows.length)).foldl (fun s x =>
      sramPut (logicalClusterPhys s p.cluster.val) (placeAddr p r.seq x.2) (rowInput p x.1) s) s) s

/-- The key list and the bag list of a gather-list entry over the ream's rows in order, one bag for
each row (DEDUCED, log 13). -/
def gatherLists (s : State) (r : Ream) (g : Nat) : List W64 × List (Nat × Nat) :=
  r.rows.foldl (fun acc q =>
    match svcOf s r.slot q.service with
    | none => acc
    | some svc =>
      let ks := bodyKeys svc g q.body
      if svc.keys.any (fun x => x.entry == g) then (acc.1 ++ ks, acc.2 ++ [(acc.1.length, ks.length)]) else acc) ([], [])

def keyBytes (ks : List W64) : Bytes := (ks.map (fun (k : W64) => toLE 8 k.toNat)).flatten
def bagBytes (bs : List (Nat × Nat)) : Bytes := (bs.map (fun b => toLE 4 (b.1 % 2 ^ 20 + b.2 % 2 ^ 9 * 2 ^ 20))).flatten

/-- The NLU command that a gather-list entry yields for a ream with some keys and bags, whose lists stand on a die. -/
def yieldCmd (s : State) (d : CDie) (e : GatherEntry) (seq : W32) (entries : List Nat) (keys bags : Nat) : NluJob :=
  let k := logicalClusterPhys s (entryCmd e).destCluster.toNat % 32
  let pool := entryPool e
  let ref := ((entries.find? (fun x => x / 1024 == d.val)).getD 0) % 1024
  { die := d, pool := pool,
    cmd := { entryCmd e with
      launchRef := BitVec.ofNat 10 ref, keyCountM1 := BitVec.ofNat 20 (keys - 1),
      bagCountM1 := if pool then BitVec.ofNat 16 (bags - 1) else 0, destCluster := BitVec.ofNat 5 k, reamSeq := seq } }

/-- The die of the cluster that a gather-list entry names, on this device. -/
def gatherDie (s : State) (e : GatherEntry) : CDie := dieOfCluster ⟨logicalClusterPhys s (entryCmd e).destCluster.toNat % 32, by omega⟩

/-- Write a gather-list entry's lists into die SRAM and issue its command. -/
def issueGather (r : Ream) (e : GatherEntry) (g : Nat) (s : State) : State :=
  let (ks, bs) := gatherLists s r g
  if ks.isEmpty then s
  else
    let j := yieldCmd s (gatherDie s e) e r.seq r.entries ks.length bs.length
    let put (line : Nat) (b : Bytes) (s : State) : State :=
      modDie j.die (fun d => { d with
        sram := ramWrite d.sram (64 * line) b
        sramPoison := d.sramPoison.filter (fun l => !(linesOf (64 * line) b.length).contains l) }) s
    let s := put (entryCmd e).keyLine.toNat (keyBytes ks) s
    let s := if j.pool then put (entryCmd e).bagLine.toNat (bagBytes bs) s else s
    modReam r.seq (fun m => { m with jobs := m.jobs ++ [j] }) s

/-- Write the inputs and issue the commands of the shares that the device runs itself. -/
def issueJobs (r : Ream) (im : Image) (shares : List Nat) (s : State) : State :=
  let s := putInputs r im shares s
  (im.gather.zip (List.range im.gather.length)).foldl (fun s g =>
    if shares.contains g.1.share then issueGather r g.1 g.2 s else s) s

/-- A core's context waits for the launch of a ream when it is free (R103). -/
def markCtx (r : Ream) (l : CoreId) (s : State) : State :=
  (List.finRange 256).foldl (fun s c =>
    if c.val != physCore s l then s
    else
      let i : CtxId := if r.seq.toNat % 2 == 0 then 0 else 1
      let x := getCtx (getCore s c) i
      if x.st == .idle then modCore c (fun y => setCtx i { x with st := .waitLaunch, ream := r.seq, slot := r.slot } y) s else s) s

/-- The generation that a slot has at a launch, with the batches already accepted for then (R50). -/
def tgenAt (s : State) (sl : SlotId) (launch : Nat) : Nat :=
  let due (c : Change) : Bool := c.due != 0 && decide (c.due ≤ nsT launch)
  s.tbl.tables.foldl (fun a p =>
    if p.2.owners.contains sl then
      let inbox := s.host.inbox.filter (fun d => dOp d == 4 && dNum d 16 1 == p.1 && d.due != 0 && decide (d.due ≤ nsT launch))
      a + ((p.2.staging.map (fun c => b2n (due c))).getD 0) + (p.2.queue.filter due).length + inbox.length
    else a) (slotTgen s sl)

/-- Send a share's inputs and its WORK to a worker (R380). -/
def sendShare (i : Nat) (r : Ream) (im : Image) (n tgen launch : Nat) (s : State) : State :=
  let s := (im.gather.zip (List.range im.gather.length)).foldl (fun s (g : GatherEntry × Nat) =>
    if g.1.share != n then s
    else
      let (ks, bs) := gatherLists s r g.2
      let d := (entryCmd g.1).destCluster.toNat / 8
      let s := sendWrites i 0 (ks.length + 1) (peerAddr d (64 * (entryCmd g.1).keyLine.toNat)) (keyBytes ks) s
      if entryPool g.1 then sendWrites i 0 (bs.length + 1) (peerAddr d (64 * (entryCmd g.1).bagLine.toNat)) (bagBytes bs) s else s) s
  let s := (im.inputs.filter (fun p => p.share == n)).foldl (fun s p =>
    (r.rows.zip (List.range r.rows.length)).foldl (fun s x =>
      sendWrites i 1 (p.len + 1) (peerAddr p.cluster.val (placeAddr p r.seq x.2)) (rowInput p x.1) s) s) s
  let s := r.reqs.foldl (fun s k => modReq k (fun q => { q with worker := i }) s) s
  sendSeq i (.work r.seq n (slotPrefix s r.slot) (BitVec.ofNat 32 tgen) (BitVec.ofNat 64 launch)) s

/-- The dies whose launch tables take a ream's launch time: those that run its part, N0, and N1 when it
answers one of its requests. -/
def launchDies (s : State) (r : Ream) (im : Image) (cores : List CoreId) : List Nat :=
  let own := (cores.map (fun c => physCore s c / 64)).eraseDups
  let own := if im.gather.isEmpty then own else [0, 1, 2, 3]
  own ++ [4] ++ (if r.reqs.any (fun k => 524288 ≤ k) then [5] else [])

/-- Seal an open ream: its launch times enter the launch tables, its commands are issued and its shares
placed. Without an entry its requests are carried (R40). -/
def sealReam (seq : W32) (s : State) : State :=
  match reamOf s seq with
  | none => s
  | some r =>
    let drop (s : State) : State := { s with reams := s.reams.filter (fun m => m.seq != seq) }
    match slotImage s r.slot with
    | none => drop s
    | some im =>
      if r.reqs.isEmpty then drop s
      else
        let svcs := r.reqs.filterMap (fun k => (getReq s k).bind (fun q => svcOf s r.slot q.service))
        let shares := placeShares s r.slot im seq svcs
        let mine := (shares.filter (fun x => x.2 == 0)).map (·.1)
        let cores := progsOf im seq mine
        match allocLaunch (launchDies s r im cores) r.launchNs s with
        | none => drop (r.reqs.foldl (fun s k => leaveReam k s) s)
        | some (es, s) =>
          let rows := rowsOf s r
          let s := modReam seq (fun m => { m with
            sealed_ := true, rows := rows, entries := es, cores := cores, shares := shares.map (fun x => (x.1, (x.2, x.2 == 0))) }) s
          let r' := { r with rows := rows, entries := es }
          let s := issueJobs r' im mine s
          let s := cores.foldl (fun s l => markCtx r' l s) s
          shares.foldl (fun s x => if x.2 == 0 then s else sendShare x.2 r' im x.1 (tgenAt s r.slot r.launchNs) r.launchNs s) s

/-- Seal every open ream of which a test holds, in the order in which they opened. -/
def sealWhere (test : Ream → Bool) (s : State) : State :=
  ((s.reams.filter (fun r => !r.sealed_ && r.share.isNone && test r)).map (·.seq)).foldl (fun s q => sealReam q s) s

/-- Open reams of past windows are sealed. The limits of R405 follow the maps from here on. -/
def sealPast (s : State) : State :=
  let n := windowOf s (nowNs s)
  let s := sealWhere (fun r => decide (r.window < n)) s
  let units := (List.range 32).filterMap (fun c => let u := min 8 (poolCores s c).length; if u == 8 then none else some (c, u))
  let units := if s.canopy.coreMap.isEmpty && s.canopy.clusterMap.isEmpty then [] else units
  { s with adm := { s.adm with window := n, coreMap := s.canopy.coreMap, clusterMap := s.canopy.clusterMap, poolUnits := units } }

/-- The carried requests are decided again in their original order, with the window's start as their stamp (R304). -/
def decideCarried (s : State) : State :=
  let before (a b : Nat × Nat × Nat × Nat) : Bool :=
    decide (a.1 < b.1) || (a.1 == b.1 && (decide (a.2.1 < b.2.1) || (a.2.1 == b.2.1 && decide (a.2.2.1 < b.2.2.1))))
  let again := sortBy before (s.adm.carried.filterMap (fun k => (getReq s k).map (fun r => (r.offeredAt, dieIx (rqtDie k), r.ord, k))))
  again.foldl (fun s p => decideReq p.2.2.2 (s.adm.window * reamWindow s) true s) { s with adm := { s.adm with carried := [] } }

/-- A window has ended that is not sealed yet. -/
def windowPassed (s : State) : Bool := reamWindow s != 0 && windowOf s (nowNs s) != s.adm.window

/-- The end of ream windows. -/
def windowEnd (s : State) : State := if windowPassed s then decideCarried (sealPast s) else s

/-- REAM_SEAL (R302, R304); what R41 puts ahead of admission at this edge acts first. -/
def execReamSeal (s : State) : Res := if edgeOwed s then .next s else .next (windowEnd s)

/-- ADMISSION_OFFER: the oldest offer is decided, after the carried requests of a new window and after what R41 puts ahead
of admission at this edge (R41, R300, R304). -/
def execAdmissionOffer (s : State) : Res :=
  if edgeOwed s then .next s
  else
    let s := windowEnd s
    match s.adm.offers with
    | [] => .next s
    | k :: _ => .next (decideReq k (nowNs s) false s)

/-! ### Launch (R38, R43, R50, R77, R382) -/

/-- A manager's request without a holder's acknowledgement at the launch edge. -/
def unjournalled (s : State) (k : Nat) : Bool :=
  isManager s && !s.grp.holders.isEmpty && !s.grp.journalled.contains k

/-- The contexts that a ream finds occupied on its cores (R103). -/
def occupiedCores (s : State) (r : Ream) : List CoreId :=
  r.cores.filter (fun l =>
    (List.finRange 256).any (fun c =>
      let x := getCtx (getCore s c) (if r.seq.toNat % 2 == 0 then 0 else 1)
      let mates := r.cores.filter (fun j => physCore s j / 8 == physCore s l / 8)
      (mates.map (physCore s)).contains c.val && x.st != .idle && x.ream != r.seq))

/-- Units that are not awake at a launch edge start its items late (R43). -/
def lateUnits (doms : List Nat) (launchNs : Nat) (s : State) : State :=
  let late := (doms.eraseDups.filter (fun n => domState s n != 4)).map (fun n => (n, launchNs))
  { s with pwr := { s.pwr with late := s.pwr.late ++ late } }

/-- Launch a ream at its edge: it reads the generation current after the commits of this edge, unless it
relaunches (R50, R404). Units that are not awake start it late (R43). -/
def launchReam (seq : W32) (s : State) : State :=
  match reamOf s seq with
  | none => s
  | some r =>
    let s := (r.reqs.filter (unjournalled s)).foldl (fun s k => leaveReam k s) s
    let s := lateUnits (reamDoms s r ++ shareLanes s r) r.launchNs (applyRaises (dropLaunch (nsT r.launchNs) r.entries s))
    let s := emitTrace 4 (ucNet .n0) 0 0 (seq.toNat + min r.reqs.length 65535 * 2 ^ 32) s
    let first := r.view == 0
    let gen := slotTgen s r.slot
    match r.share with
    | some (peer, n) =>
      if r.tgen != gen then
        sendSeq peer.val (.refuseWork seq n (BitVec.ofNat 8 stStale)) { s with reams := s.reams.filter (fun m => m.seq != seq) }
      else modReam seq (fun m => { m with launched := true, entries := [], view := now s, occupied := occupiedCores s r }) s
    | none =>
      let s := modReam seq (fun m => { m with
        launched := true, entries := [], view := if first then now s else m.view, tgen := if first then gen else m.tgen,
        occupied := occupiedCores s r }) s
      r.reqs.foldl (fun s k => modReq k (fun q => { q with st := if q.st == 4 then 5 else q.st }) s) s

/-- Sealed reams whose launch edge has come, in order of their sequence. -/
def dueReams (s : State) : List W32 :=
  (s.reams.filter (fun r => r.sealed_ && !r.launched && !r.abandoned && decide (nsT r.launchNs ≤ now s))).map (·.seq)

def launchReams (s : State) : State := (dueReams s).foldl (fun s q => launchReam q s) s

/-- LATE_LAUNCH: a unit that was asleep at a launch edge starts its items once it is awake (R43). -/
def execLateLaunch (dom : DomainId) (s : State) : Res :=
  let n := dom.val
  if domState s n != 4 then .next s
  else
    let mine := s.pwr.late.filter (fun p => p.1 == n)
    let s := { s with pwr := { s.pwr with late := s.pwr.late.filter (fun p => p.1 != n) } }
    .next (mine.foldl (fun s p =>
      devEvent 0x1002 (domUnit n) (nowNs s - p.2 : Nat) (incCnt cntLate s)) s)

end Sys2Proof.Machine
end

