-- ==== Sys2Proof/Machine/HostPort.lean ====
section
/-! DEFINITION. The host ports: link, resets, HIF_SEM and the HDM window (R327, R330, R332 to R336). -/

namespace Sys2Proof.Machine

/-! ### Link and resets (R327, R330, R417) -/

def domHost (p : HPort) : Nat := 332 + portIx p

/-- HOST_LINK_UP: the port's domain is ON while its link is trained. A port of a lost network die stays
down (R396). -/
def execHostLinkUp (p : HPort) (s : State) : Res :=
  if !unitActive s (ucNet (portDie p)) || s.boot.straps.getLsbD 3 then .next s
  else .next (setDom (domHost p) 4 (modPort p (fun x => { x with linkUp := true }) s))

/-- Stop fetching on a ring: descriptors fetched and not accepted are dropped with their reserved completion
slots, and HEAD returns to the first of them. -/
def dropFetched (p : HPort) (i : Nat) (s : State) : State :=
  let q := getSq s p i
  let n := q.fetched.length
  let size := sqSize s p i
  let head := (q.head + size - n % size) % size
  let ci := cqOf s p i
  let c := getCq s p ci
  let s := setSq p i { q with fetched := [], head := head, phase := if q.head < n then !q.phase else q.phase } s
  if n == 0 then s else setCq p ci { c with reserved := c.reserved - n } s

/-- A register line private to each port that R330 resets: HIF_DISCARD and HIF_EVENT are none of the
selectors, staging sets and MSI-X state. -/
def resetsWithPort (off : Nat) : Bool :=
  match regFind (lineOff off) with
  | some (r, _) => r.priv && !(0x200 ≤ off && off < 0x300)
  | none => false

/-- Reset a host port (R330). -/
def resetPort (p : HPort) (kind : PortReset) (s : State) : State :=
  let i := portIx p
  let x := getPort s p
  let s := (List.range 64).foldl (fun s n =>
    setRegF (cqOff p n 8) 0 5 5 0 (setRegF (sqOff p n 8) 0 5 5 0 (dropFetched p n s))) s
  let y := getPort s p
  let y := { y with
    era := x.era + 1, linkUp := if kind == .linkLoss then false else x.linkUp
    sqs := y.sqs.map (fun q => (q.1, { q.2 with st := 0, err := 0, inflight := 0, watch := none }))
    cqs := y.cqs.map (fun q => (q.1, { q.2 with reserved := 0, unsignalled := 0, since := none }))
    shadow := [], logShadow := [], irqs := [] }
  let s := setPort p y s
  let s := { s with regs := s.regs.filter (fun r => !((r.1 / 2 ^ 24 == i || r.1 / 2 ^ 24 == 1048576 + i) && resetsWithPort (r.1 % 2 ^ 24))) }
  let s := { s with host := { s.host with protPending := s.host.protPending.filter (fun c => c.port != p) } }
  let s := if kind == .linkLoss then setDom (domHost p) 0 s
    else if s.host.sem.owner == some p then { s with host := { s.host with sem := { s.host.sem with owner := none, token := 0 } } }
    else s
  -- a drain into the port's host memory stops (R455)
  if b2n (bit (regW s 0x400018 0) 5) == i && bit (regW s 0x400000 0) 1 then { s with tport := { s.tport with drainOff := true } } else s

/-- HOST_PORT_RESET. -/
def execHostPortReset (p : HPort) (kind : PortReset) (s : State) : Res := .next (resetPort p kind s)

/-! ### HIF_SEM (R334 to R336) -/

/-- The lease has ended: the semaphore is free from that edge. -/
def endLease (s : State) : State :=
  let m := s.host.sem
  match m.owner with
  | none => s
  | some p =>
    if now s < m.leaseEnd then s
    else
      let m := { m with owner := none, token := 0, expiries := min (m.expiries + 1) (2 ^ 18 - 1) }
      hifEvent p 1 { s with host := { s.host with sem := m } }

/-- SEM_LEASE_EXPIRE. -/
def execSemLeaseExpire (s : State) : Res := .next (endLease s)

/-- One write of HIF_SEM: REQ acquires a free semaphore, or renews one's own lease; REL frees it; every other
write is discarded (R334). A renewal at the lease's end acquires afresh (R44). -/
def semApply (p : HPort) (rel : Bool) (token : W16) (s : State) : State :=
  let t := token.toNat
  if t == 0 then s
  else
    let s := endLease s
    let m := s.host.sem
    let mine := m.owner == some p && m.token == t
    if rel then
      if mine then { s with host := { s.host with sem := { m with owner := none, token := 0 } } } else discardRws p 0x100 s
    else if m.owner == none || mine then
      { s with host := { s.host with sem := { m with owner := some p, token := t, leaseEnd := now s + msT 10 } } }
    else discardRws p 0x100 s

/-- A command's write of HIF_SEM: its port, whether it is REL, and its token. -/
def semWriteOf : Instr → Option (HPort × Bool × W16)
  | .semReq p t => some (p, false, t)
  | .semRel p t => some (p, true, t)
  | _ => none

/-- The oldest waiting write of HIF_SEM from a port: the commands of the queue stand at one edge (log 1). -/
def semWaiting (p : HPort) (s : State) : Option (HPort × Bool × W16) :=
  (s.pending.filterMap semWriteOf).find? (fun w => w.1 == p)

/-- A write of HIF_SEM reaches it. When the other port's write waits at the same edge, the port that lost the
previous tie is served first, the first time H0 (R335); a write served ahead of its turn in the queue has no
effect at its turn. -/
def semWrite (p : HPort) (rel : Bool) (token : W16) (s : State) : Res :=
  let m := s.host.sem
  if s.boot.straps.getLsbD 3 then .next s
  else if m.servedEarly == some p then .next { s with host := { s.host with sem := { m with servedEarly := none } } }
  else
    match (if m.servedEarly == none then semWaiting (otherPort p) s else none) with
    | none => .next (semApply p rel token s)
    | some w =>
      if m.tieFirst == p then
        .next (semApply p rel token { s with host := { s.host with sem := { m with tieFirst := otherPort p } } })
      else
        .next (semApply p rel token (semApply w.1 w.2.1 w.2.2
          { s with host := { s.host with sem := { m with tieFirst := p, servedEarly := some w.1 } } }))

/-- SEM_REQ. -/
def execSemReq (p : HPort) (token : W16) (s : State) : Res := semWrite p false token s

/-- SEM_REL. -/
def execSemRel (p : HPort) (token : W16) (s : State) : Res := semWrite p true token s

/-! ### The HDM window (R242, R332, R333) -/

/-- Lines of a port's snoop filter. -/
def snoopCap : Nat := 1048576

/-- The device line of a host address that the port's decoder claims. -/
def hdmLine (s : State) (p : HPort) (addr : Nat) : Option Nat :=
  let x := getPort s p
  if !x.hdmError && x.hdmBase ≤ addr && addr < x.hdmBase + x.hdmSize then some ((addr - x.hdmBase) / 64) else none

/-- A port's filter has room for another line: when it is full, its oldest entry is back-invalidated. -/
def makeRoom (p : HPort) (s : State) : State :=
  let mine := s.dsm.snoop.filter (fun h => h.1 == p)
  match mine with
  | h :: _ => if snoopCap ≤ mine.length then recallLine h.2 s else s
  | [] => s

/-- The port's host may hold a line from here on. -/
def noteLine (p : HPort) (l : Nat) (s : State) : State :=
  if (holderOf s l).isSome then s
  else
    let s := makeRoom p s
    { s with dsm := { s.dsm with snoop := s.dsm.snoop ++ [(p, l)] } }

/-- The other port's host may hold the line: an access to it waits for its back-invalidation. -/
def heldElsewhere (s : State) (p : HPort) (l : Nat) : Bool := holderOf s l == some (otherPort p)

/-- HDM_READ: the port's host may hold the line from here on. The device claims no address outside the window. -/
def execHdmRead (p : HPort) (addr : W64) (err : Option LineErr) (s : State) : Res :=
  if !barUp s then .next s else
  let x := getPort s p
  match hdmLine s p addr.toNat with
  | none => .next s
  | some l =>
    if !x.linkUp || heldElsewhere s p l then .next s
    else .next (noteLine p l (fetchLine l (putErrs ((err.map (fun e => (l, e))).toList) s)).2)

/-- HDM_WRITE. -/
def execHdmWrite (p : HPort) (addr : W64) (data : BitVec 512) (s : State) : Res :=
  if !barUp s then .next s else
  match hdmLine s p addr.toNat with
  | none => .next s
  | some l =>
    if !(getPort s p).linkUp || heldElsewhere s p l then .next s
    else .next (hostLine l (toLE 64 data.toNat) s)

/-- BACK_INVALIDATE: the host gives up a line, writing it back when it had changed it. -/
def execBackInvalidate (p : HPort) (line : Nat) (dirty : Option (BitVec 512)) (s : State) : Res :=
  if holderOf s line != some p then .next s
  else
    let s := forgetLine line s
    match dirty with
    | some d => .next (hostLine line (toLE 64 d.toNat) s)
    | none => .next s

/-- HDM_COMMIT: a size that is no multiple of 256 MiB or exceeds the usable capacity fails and maps nothing. -/
def execHdmCommit (p : HPort) (base size : W64) (s : State) : Res :=
  if !barUp s then .next s else
  let n := size.toNat
  if n % 2 ^ 28 != 0 || 64 * dpaLines < n then
    .next (modPort p (fun x => { x with hdmBase := base.toNat, hdmSize := n, hdmError := true }) s)
  else .next (modPort p (fun x => { x with hdmBase := base.toNat, hdmSize := n, hdmError := false }) s)

end Sys2Proof.Machine
end

