-- ==== Sys2Proof/Machine/Programs.lean ====
section
/-! DEFINITION. Core programs of reams from start to end, clip counts at the spines, the re-placement of
shares, responses, and the draining of a slot (R75, R77, R103, R110, R157, R276, R303, R354, R379 to
R383, R407). -/

namespace Sys2Proof.Machine

/-! ### Programs (R103, R108) -/

def ctxOf (seq : W32) : CtxId := if seq.toNat % 2 == 0 then 0 else 1

/-- The logical cores with programs of a ream that have not ended: those of its rebuild programs first (R408). -/
def progsLeft (r : Ream) : List CoreId := if r.rebuild.isEmpty then r.cores else r.rebuild

/-- The logical core of a ream that starts next on a physical core: the lowest that has not started
(R402). -/
def nextProg (s : State) (r : Ream) (c : CoreId) : Option CoreId :=
  (List.finRange 256).find? (fun l => (progsLeft r).contains l && !r.started.contains l && physCore s l == c.val)

/-- Every other core of the cluster that works on the ream has ended its previous program in the
context. -/
def peersFree (s : State) (r : Ream) (c : CoreId) : Bool :=
  (List.finRange 256).all (fun j =>
    let x := getCtx (getCore s j) (ctxOf r.seq)
    j.val / 8 != c.val / 8 || !(r.rebuild ++ r.cores).any (fun l => physCore s l == j.val) || x.st == .idle || x.st == .waitLaunch || x.ream == r.seq)

/-- Tokens of the context are 0 when the ream's programs start in the cluster, and in the die (R108). -/
def clearTokens (r : Ream) (c : CoreId) (s : State) : State :=
  let i := (ctxOf r.seq).val
  let drop (m : List (Nat × Nat)) : List (Nat × Nat) := m.filter (fun t => t.1 / 64 != i)
  let s := if r.started.any (fun l => physCore s l / 8 == c.val / 8) then s
    else modCluster (clusterOf c) (fun k => { k with tokens := drop k.tokens }) s
  if r.started.any (fun l => physCore s l / 64 == c.val / 64) then s
  else modDie (dieOfCore c) (fun d => { d with tokens := drop d.tokens }) s

/-- PROGRAM_START: the latest of the launch edge, the end of the context's previous program, and its end
on the cluster's other cores of the ream; the unit is awake, and the context's convert slots are cleared (R43, R103, R130). -/
def execProgramStart (c : CoreId) (ctx : CtxId) (ream : W32) (s : State) : Res :=
  match reamOf s ream with
  | none => .next s
  | some r =>
    let x := getCtx (getCore s c) ctx
    let free := x.st == .idle || x.st == .waitLaunch
    let awake := domState s (domCore c.val) == 4 && domState s (domCluster (c.val / 8)) == 4
    match nextProg s r c with
    | none => .next s
    | some l =>
      if ctx != ctxOf ream || !r.launched || !free || !awake || !coreActive s c.val || !peersFree s r c then .next s
      else
        let s := clearTokens r c s
        let s := modCore c (fun y => { setCtx ctx { x with st := .running, ream := ream, slot := r.slot, done := 0, cslots := Vector.replicate 8 CSlot.cleared } y with
            lastRun := now s }) s
        let s := modReam ream (fun m => { m with started := m.started ++ [l] }) s
        .next (if r.occupied.contains l then incCnt (cntCore c.val 0) s else s)

/-- The ream whose program a freed context waits for: the first sealed one that has one left for it. -/
def waitingReam (s : State) (c : CoreId) (ctx : CtxId) : Option Ream :=
  s.reams.find? (fun r => r.sealed_ && !r.abandoned && ctxOf r.seq == ctx && (nextProg s r c).isSome)

/-- A context is free: it waits for the next launch that names it. -/
def freeCtx (c : CoreId) (ctx : CtxId) (s : State) : State :=
  let x := getCtx (getCore s c) ctx
  match waitingReam s c ctx with
  | some r => modCore c (fun y => setCtx ctx { x with st := .waitLaunch, ream := r.seq, slot := r.slot } y) s
  | none => modCore c (fun y => setCtx ctx { x with st := .idle } y) s

/-- Credits of clusters on which none of the ream's programs is left return (R303). -/
def returnCredits (seq : W32) (s : State) : State :=
  modReam seq (fun r =>
    let left := progsClusters r.cores
    { r with cluCredit := if r.cores.isEmpty then [] else r.cluCredit.filter (fun p => left.contains p.1) }) s

/-- The program of a logical core has ended for a ream. The last of its rebuild programs makes the KV entries valid, and the ream's own
programs start (R408). -/
def endCore (r : Ream) (l : CoreId) (s : State) : State :=
  if r.rebuild.isEmpty then returnCredits r.seq (modReam r.seq (fun m => { m with cores := m.cores.filter (· != l) }) s)
  else
    let left := r.rebuild.filter (· != l)
    let s := modReam r.seq (fun m => { m with rebuild := left, started := if left.isEmpty then [] else m.started }) s
    if left.isEmpty then { s with canopy := { s.canopy with kvInvalid := s.canopy.kvInvalid.filter (fun p => p.1 != r.seq) } } else s

/-- END: once every earlier command has completed, the program ends and its context is free (R110). -/
def execEndProg (c : CoreId) (ctx : CtxId) (h : CmdHdr) (s : State) : Res :=
  let x := getCore s c
  let cx := getCtx x ctx
  if !canIssue s c ctx h || ctxBusy x ctx then .next s
  else
    let s := ctxDone c ctx (ctxIssued c ctx h s)
    match reamOf s cx.ream with
    | none => .next (freeCtx c ctx s)
    | some r =>
      let s := match r.started.find? (fun l => physCore s l == c.val && (progsLeft r).contains l) with
        | some l => endCore r l s
        | none => s
      .next (freeCtx c ctx s)

/-! ### Clip counts at the spine (R75, R77, R157) -/

/-- SPINE_CLIP_MERGE: all declared posts have arrived. -/
def execSpineClipMerge (d : CDie) (ream : W32) (tensor : BitVec 20) (s : State) : Res :=
  match (getDie s d).merges.find? (fun m => m.ream == ream && m.tensor == tensor) with
  | none => .next s
  | some m =>
    match tensorOf s m.slot tensor with
    | none => .next s
    | some t =>
      if m.posts < t.posts then .next s
      else
        let s := modDie d (fun y => { y with merges := y.merges.filter (fun q => !(q.ream == ream && q.tensor == tensor)) }) s
        let s :=
          if t.satThresh * m.converted < m.clipped * 65536 then
            let e : SatEvent := { tensor := tensor, layer := t.layers.headD 0, launchNs := ((reamOf s ream).map (·.launchNs)).getD 0,
                                  share := m.clipped * 65536 / m.converted }
            event 0x1003 (ucSpine d) (e.share : Nat) e.layer 0 [] (modDie d (fun y => { y with sat := some e }) s)
          else s
        let s := { s with host := { s.host with dumps := s.host.dumps.map (fun p =>
          let own := ((tensorOf s p.2.slot p.2.tensor).bind (·.tableOf)) == some tensor && p.2.slot == m.slot
          (p.1, if own then { p.2 with ends := p.2.ends ++ [ream] } else p.2)) } }
        if numericsMode s == 0 then .next s
        else
          let ups := m.blocks.filterMap (fun b =>
            (raiseBlock t (liveScale s m.slot t b.1) (f32 b.2.1) (f32 b.2.2)).map (fun r => (b.1, r)))
          if ups.isEmpty then .next s
          else .next { s with scaleRaises := s.scaleRaises ++ [{ slot := m.slot, tensor := tensor, at_ := now s, scales := ups }] }

/-! ### Abandoned work (R383, R385, R404, R408) -/

/-- Abandon a ream's work on every unit: contexts, commands held for another engine, lookups, bags and posts. -/
def abandonReam (seq : W32) (s : State) : State :=
  let s := (List.finRange 256).foldl (fun s c =>
    let x := getCore s c
    let i := ctxOf seq
    let cx := getCtx x i
    if cx.st == .idle || cx.ream != seq then s
    else
      let keep (r : MmaRun) : Bool := r.ctx != i
      let x := { x with
        reissue := x.reissue.filter keep
        engines := famMap (fun _ e => { e with reexec := e.reexec.bind (fun r => if keep r then some r else none) }) x.engines }
      setCore c (setCtx i { cx with st := .idle } x) s) s
  let nlu (n : Nlu) : Nlu :=
    { n with coal := n.coal.filter (fun c => c.ream != seq), fwd := n.fwd.filter (fun f => f.ream != seq), held := n.held.filter (fun f => f.ream != seq) }
  let s := { s with
    nlus := (s.nlus.map (fun p => (p.1, nlu p.2))).filter (fun p => p.2 != Nlu.empty)
    pools := s.pools.filter (fun j => j.cmd.reamSeq != seq)
    tbl := { s.tbl with tables := s.tbl.tables.map (fun p => (p.1, { p.2 with holds := p.2.holds.filter (fun h => h.ream != seq) })) }
    host := { s.host with dumps := s.host.dumps.map (fun p => (p.1, p.2.abandon seq)) } }
  (List.finRange 4).foldl (fun s d =>
    if (getDie s d).merges.any (fun m => m.ream == seq) then modDie d (fun y => { y with merges := y.merges.filter (fun m => m.ream != seq) }) s
    else s) s

/-- A ream is given up, with its work on every unit and its launch entries. -/
def dropReam (seq : W32) (s : State) : State :=
  match reamOf s seq with
  | none => s
  | some r =>
    let s := abandonReam seq s
    let s := { s with canopy := { s.canopy with kvInvalid := s.canopy.kvInvalid.filter (fun p => p.1 != seq) } }
    dropLaunch (nsT r.launchNs) r.entries { s with reams := s.reams.filter (fun m => m.seq != seq) }

/-- A ream that finds a launch table full is given up, and its requests that wait for scores are carried (R40). -/
def carryReam (seq : W32) (s : State) : State :=
  match reamOf s seq with
  | none => s
  | some r =>
    let live := r.reqs.filter (fun k => ((getReq s k).map (fun q => q.st != 6)).getD false)
    live.foldl (fun s k => carryReq k s) (dropReam seq s)

/-! ### Re-placement of shares (R383, R407) -/

/-- Requests of a ream that would miss their deadlines from a new launch are answered LATE. -/
def retestReqs (seq : W32) (launch : Nat) (cnt : List Nat) (s : State) : State :=
  match reamOf s seq with
  | none => s
  | some r =>
    r.reqs.foldl (fun s k =>
      match getReq s k, slotImage s r.slot with
      | some q, some im =>
        match svcOf s r.slot q.service with
        | some svc =>
          if q.st == 6 || completesBy s r.slot im svc r.seq (nowNs s) launch q.deadline then s
          else answerReq k stLate (cnt.foldl (fun s c => incCnt c s) s)
        | none => s
      | _, _ => s) s

/-- The credits that a share of a ream takes. -/
def shareCost (s : State) (r : Ream) (im : Image) (n : Nat) : Nat :=
  let cl := progsClusters (progsOf im r.seq [n])
  ((r.reqs.filterMap (fun k => (getReq s k).bind (fun q => svcOf s r.slot q.service))).map (fun v => shareNeed v cl)).foldl (· + ·) 0

/-- Workers other than one that may take a share; each runs at most one share of a ream at a time. -/
def shareTargets (s : State) (r : Ream) (im : Image) (n not : Nat) : List Nat :=
  let busy := (r.shares.filter (fun x => !x.2.2)).map (·.2.1)
  if isManager s then (eligibleWorkers s r.slot (shareCost s r im n)).filter (fun i => i != not && !busy.contains i) else []

/-- Launch a share anew on a worker, or on the device itself as worker 0, from a launch time; without a launch entry the ream's
requests are carried (R40). -/
def moveShare (seq : W32) (n w launch : Nat) (s : State) : State :=
  match reamOf s seq with
  | none => s
  | some r =>
    match slotImage s r.slot with
    | none => s
    | some im =>
      let gen := if r.view == 0 then tgenAt s r.slot launch else r.tgen
      let put (v : Nat × Bool) (m : Ream) : Ream := { m with shares := mapSet n v m.shares }
      if w != 0 then sendShare w r im n gen launch (modReam seq (put (w, false)) s)
      else
        let cores := progsOf im seq [n]
        match allocLaunch (launchDies s r im cores) launch s with
        | none => carryReam seq s
        | some (es, s) =>
          let s := modReam seq (fun m => put (0, true) { m with
            launched := false, launchNs := launch, entries := m.entries ++ es, cores := m.cores ++ cores }) s
          let s := issueJobs { r with entries := es } im [n] s
          cores.foldl (fun s l => markCtx r l s) s

/-- Re-place a share that a worker held: its requests are tested, and it goes to another eligible worker
or to the manager itself (R383). -/
def replaceShare (seq : W32) (n not : Nat) (s : State) : State :=
  let launch := nowNs s + launchLead s
  let s := incCnt (cntGrp 5) (retestReqs seq launch [cntGrp 6] s)
  match reamOf s seq with
  | none => s
  | some r =>
    match slotImage s r.slot with
    | none => s
    | some im => moveShare seq n ((shareTargets s r im n not).headD 0) launch s

/-! ### Responses (R276, R299, R407) -/

/-- Forget the reams whose requests have all been answered and whose work has ended. -/
def endReams (s : State) : State :=
  { s with reams := s.reams.filter (fun r =>
      r.share.isSome || !reamComplete r || r.reqs.any (fun k => ((getReq s k).map (fun q => q.st != 6)).getD false)) }

/-- A poisoned result on a manager: each poisoned share goes once to an eligible worker other than the one
that produced it. -/
def poisonShares (s : State) (r : Ream) (im : Image) (shares : List Nat) : Option (List (Nat × Nat)) :=
  let ts := shares.map (fun n => (n, (shareTargets s r im n ((mapGetD (0, false) n r.shares).1)).head?))
  if shares.isEmpty || ts.any (fun t => t.2.isNone) then none else some (ts.map (fun t => (t.1, t.2.getD 0)))

/-- A row's output at a place, and whether a line of it is poisoned. -/
def outputAt (s : State) (p : RowPlace) (seq : W32) (i : Nat) : Bytes × Bool :=
  match (List.finRange 32)[logicalClusterPhys s p.cluster.val]? with
  | some k =>
    let y := getCluster s k
    (ramRead y.sram (placeAddr p seq i) p.len, (linesOf (placeAddr p seq i) p.len).any (fun l => y.sramPoison.contains l))
  | none => ([], false)

/-- A row's output, its places in the order that the image fixes, and the shares whose part is poisoned (R51, R407). -/
def rowResult (s : State) (im : Image) (seq : W32) (i : Nat) : Bytes × List Nat :=
  let xs := im.outputs.map (fun p => (p.share, outputAt s p seq i))
  ((xs.map (fun x => x.2.1)).flatten, ((xs.filter (fun x => x.2.2)).map (·.1)).eraseDups)

/-- RESPONSE_BUILD: the results of a request of ream `ream` are complete; the body is its row's output, as long as its
service's result. -/
def execResponseBuild (d : NDie) (ix : Nat) (ream : W32) (s : State) : Res :=
  let k := rqtKey d ix
  match getReq s k with
  | none => .next s
  | some q =>
    match (reamOf s q.ream).bind (fun r => (slotImage s r.slot).map (fun im => (r, im))) with
    | none => .next s
    | some (r, im) =>
      let i := (r.rows.takeWhile (fun x => x.req != k)).length
      let (body, bad) := rowResult s im r.seq i
      let len := ((svcOf s r.slot q.service).map (·.resultLen)).getD body.length
      if q.st != 5 || q.ream != ream || !reamComplete r then .next s
      else if !bad.isEmpty then
        match poisonShares s r im bad, q.replaced with
        | some ts, false =>
          let launch := nowNs s + launchLead s
          let s := retestReqs r.seq launch [cntGrp 6] (modReq k (fun x => { x with replaced := true }) s)
          .next (ts.foldl (fun s t => moveShare r.seq t.1 t.2 launch (incCnt (cntGrp 5) s)) s)
        | _, _ => .next (endReams (answerPoison k s))
      else .next (endReams (respond k r.tgen ((getSlot s r.slot.val).hash.take 8) (body.take len) s))

/-! ### Slots that drain (R176, R354) -/

/-- Release a slot's tree memory. -/
def releaseStands (sl : SlotId) (s : State) : State :=
  (List.finRange 256).foldl (fun s c =>
    let x := getCore s c
    if x.te.segs.any (fun p => p.2.slot == sl) then
      modCore c (fun y => { y with te := { y.te with segs := y.te.segs.filter (fun p => p.2.slot != sl) } }) s
    else s) s

/-- Dump points of a slot that becomes READY without dumping end with STALE_SLOT (R464). -/
def staleDumps (sl : SlotId) (s : State) : State :=
  s.host.dumps.foldl (fun s p =>
    if p.2.slot == sl && p.2.ream.isNone then
      completeBare p.2.desc stStale { s with host := { s.host with dumps := s.host.dumps.filter (fun q => q.1 != p.1) } }
    else s) s

/-- Samples of a slot's flow-scoring stand are still on their way or being scored (R178). -/
def slotSamples (s : State) (sl : SlotId) : Bool :=
  s.flow.samples.any (fun x => x.slot == sl) || (List.finRange 32).any (fun k =>
    let c := getCluster s k
    c.queue.any (fun x => x.slot == sl) || c.inFlight.any (fun f => f.sample.slot == sl))

/-- SLOT_DRAINED: the last bound request is freed, the last ream has ended, and the samples already sent have finished. -/
def execSlotDrained (slot : SlotId) (s : State) : Res :=
  let x := getSlot s slot.val
  let s' := endReams s
  if x.st != 4 || x.bound != 0 || s'.reams.any (fun r => r.slot == slot) || slotSamples s' slot then .next s
  else .next (staleDumps slot (releaseStands slot (setSlot slot.val { x with st := 2 } s')))

end Sys2Proof.Machine
end

