-- ==== Sys2Proof/Machine/TimeOps.lean ====
section
/-! DEFINITION. Group time: sources, holdover, steps, rate, the PPS pins, and TIME_CTL (R28 to R37, R54,
R352). -/

namespace Sys2Proof.Machine

/-! ### Sources (R30 to R32) -/

/-- A write of SOURCE is refused: any on a worker, and GROUP on a standalone device, on a manager and before WELCOME
(R31); a joining device whose WELCOME left it TIME_AHEAD has had its WELCOME (R374). -/
def sourceRefused (s : State) (v : Nat) : Bool := s.grp.role == 2 || (v == 1 && !(s.grp.role == 3 && s.grp.timeAhead))

def modTime (f : TimeState → TimeState) (s : State) : State := { s with time := f s.time }

/-- Change the source; GT continues without a step. -/
def setSource (v : Nat) (s : State) : State :=
  modTime (fun t => { t with
    source := v, locked := false, aligned := false, holdover := false, within := 0, beyond := 0,
    offset := if v == 0 then 0 else t.offset, lastPps := some (now s), lastExchange := some (now s) }) s

/-- The servo's rate under a source: what it computes is open, within ±50 ppm (R33; DESIGN CHOICE, log 3). -/
def servoRate (s : State) : State :=
  let (v, s) := drawFree s
  modTime (fun t => { t with adj := (v % 429497 : Nat) - 214748 }) s

/-- A signed number that saturates at 32 bits. -/
def sat32 (i : Int) : Int := if i < -(2 ^ 31 : Int) then -(2 ^ 31) else if (2 ^ 31 - 1 : Int) < i then 2 ^ 31 - 1 else i

/-- A measurement of the offset, in picoseconds: LOCKED while it is within 5 ns; a worker is ALIGNED after 16
exchanges within 5 ns and loses it after 4 beyond (R34). In holdover the rate adjustment is held, and nothing is locked or
aligned until the device leaves it (R32). -/
def measured (ps : Int) (worker : Bool) (s : State) : State :=
  let ok := decide (ps.natAbs ≤ 5000)
  if s.time.holdover then modTime (fun t => { t with offset := sat32 ps, lastExchange := some (now s) }) s else
  let s := modTime (fun t =>
    let w := if ok then min (t.within + 1) 16 else 0
    let b := if ok then 0 else min (t.beyond + 1) 4
    { t with
      offset := sat32 ps, locked := ok, within := w, beyond := b, lastExchange := some (now s),
      aligned := worker && (if w == 16 then true else if b == 4 then false else t.aligned) }) s
  servoRate s

/-- Holdover begins (R32). -/
def enterHoldover (s : State) : State :=
  let s := modTime (fun t => { t with holdover := true, locked := false, aligned := false, within := 0, beyond := 0 }) s
  devEvent 0x1001 ucPackage 0 (setSticky 0x100004 0 3 s)

/-- The selected source has been silent for as long as R32 allows: no exchange with the manager for 300 µs, no Sync for 3 s,
or no PPS_IN edge for 1.1 s. -/
def sourceSilent (s : State) : Bool :=
  let t := s.time
  let since (o : Option Nat) : Nat := now s - o.getD 0
  match t.source with
  | 1 => decide (usT 300 ≤ since t.lastExchange)
  | 2 => decide (nsT 3000000000 ≤ since t.lastExchange)
  | 3 => decide (nsT 1100000000 ≤ since t.lastPps)
  | 4 => decide (nsT 1100000000 ≤ since t.lastPps)
  | _ => false

/-- HOLDOVER_ENTER: the selected source is lost (R32). Under PPS_REF the command also stands for a deviation of TIME_REF_IN,
which the board shows (DESIGN CHOICE, log 68). -/
def execHoldoverEnter (s : State) : Res :=
  if s.time.holdover || !(sourceSilent s || s.time.source == 3) then .next s
  else .next (enterHoldover s)

/-- HOLDOVER_EXIT: the source has returned, and the offset is corrected by slewing alone (R32, R33). -/
def execHoldoverExit (offsetPs : W32) (s : State) : Res :=
  if !s.time.holdover || sourceSilent s then .next s
  else .next (measured offsetPs.toInt (s.time.source == 1) (modTime (fun t => { t with holdover := false }) s))

/-! ### The replicas (R29) -/

/-- A unit of the package holds a replica; Felt links and the devices of the group do not. -/
def hasReplica (u : UnitCode) : Bool := (1 ≤ ucClass u && ucClass u ≤ 6) || (8 ≤ ucClass u && ucClass u ≤ 11)

/-- A replica's difference from the root at a sending: it reports and reloads beyond 1 ns. -/
def syncReplica (u : UnitCode) (s : State) : State :=
  let d := mapGetD 0 u.toNat s.time.replicas
  if d.natAbs ≤ nsT 1 then s
  else report 0x31 u 0 u 0 0 0 (modTime (fun t => { t with replicas := mapDel u.toNat t.replicas }) s)

/-- GT_REPLICA_SYNC: the root sends GT to every replica, once in each 1 µs; `drift` is what faults have added to replicas
since, in 2^-32 ns. -/
def execGtReplicaSync (drift : List (UnitCode × Int)) (s : State) : Res :=
  if s.time.syncUs == some (nowNs s / 1000) then .next s
  else
    let moved := (drift.filter (fun x => hasReplica x.1)).foldl (fun m x => mapSetD 0 x.1.toNat (mapGetD 0 x.1.toNat m + x.2) m) s.time.replicas
    let s := modTime (fun t => { t with replicas := moved, syncUs := some (nowNs s / 1000) }) s
    .next (moved.foldl (fun s x => syncReplica (BitVec.ofNat 16 x.1) s) s)

def secondT : Nat := nsT 1000000000

/-- The offset of GT from the nearest whole second, in picoseconds (R37). -/
def ppsOffset (g : Nat) : Int :=
  let r := g % secondT
  if 2 * r < secondT then ((r * 1000 / 2 ^ 32 : Nat) : Int) else -(((secondT - r) * 1000 / 2 ^ 32 : Nat) : Int)

/-- PPS_IN_EDGE (R37). -/
def execPpsInEdge (s : State) : Res :=
  if s.time.source == 3 || s.time.source == 4 then
    .next (measured (ppsOffset (now s)) false (modTime (fun t => { t with lastPps := some (now s) }) s))
  else .next s

/-- A write of SOURCE that is not discarded. An unlisted value that is not refused leaves the field (R7, R31). -/
def writeSource (v : Nat) (s : State) : State :=
  if sourceRefused s v then setSticky 0x100004 0 8 s else if 4 < v then s else setSource v s

/-- GT_SOURCE_WRITE (R31). -/
def execGtSourceWrite (p : HPort) (value : W32) (s : State) : Res :=
  if !barUp s then .next s else
  if !holdsSem s p then .next (discardRws p 0x100000 s) else .next (writeSource (bits value.toNat 2 0) s)

/-! ### Steps (R33) -/

/-- The device holds a pending launch: an entry of a launch table, a change of a protection window, a table change that
waits for its edge, or a firmware switch. -/
def holdsLaunch (s : State) : Bool :=
  !s.host.launch.isEmpty || !s.host.protPending.isEmpty || s.boot.switchAt.isSome ||
    s.tbl.tables.any (fun p => (p.2.queue ++ p.2.staging.toList).any (fun c => decide (now s < c.due)))

/-- A step to a GT_NS is allowed: forward, with no pending launch, on neither a manager nor an admitted worker; the one of a
joining worker is taken as it is admitted (R33, R374). -/
def stepAllowed (s : State) (target : Nat) (join : Bool) : Bool :=
  decide (now s < nsT target) && !holdsLaunch s && (join || (s.grp.role != 1 && s.grp.role != 2))

/-- A step of GT to a GT_NS at the next edge, or its refusal. It is judged at the write, against GT at the write, and again
at the edge (DESIGN CHOICE, log 101). -/
def tryStep (target : Nat) (s : State) : Bool × State :=
  if !stepAllowed s target false then (false, setSticky 0x100004 0 4 s)
  else (true, modTime (fun t => { t with stepTo := some (BitVec.ofNat 64 target), stepJoin := false }) s)

/-- GT_STEP (GT_STEP_CTL.GO). -/
def execGtStep (p : HPort) (s : State) : Res :=
  if !barUp s then .next s else
  if !holdsSem s p then .next (discardRws p 0x100028 s)
  else .next (tryStep (regW s 0x100020 0 + 2 ^ 32 * regW s 0x100024 0) s).2

/-- GT_READ_CAPTURE (R54). -/
def execGtReadCapture (p : HPort) (s : State) : Res :=
  if !barUp s then .next s else
  .next (modPort p (fun x => { x with
    shadow := mapSet 0x100010 (now s % 2 ^ 32) (mapSet 0x10000C (nowNs s / 2 ^ 32 % 2 ^ 32) x.shadow) }) s)

/-! ### The PPS output (R37) -/

/-- The advance of GT at a quiet-clock edge (R28, R30). -/
def gtStepUnits (s : State) : Nat := (10 * 2 ^ 32 + 10 * s.time.adj).toNat

/-- PPS_OUT_RISE: the edge is the first at or after a whole second of GT, which the one before it had not reached. -/
def execPpsOutRise (s : State) : Res :=
  let first := decide (s.time.prevGt.toNat / secondT < now s / secondT) || now s == 0
  if bit (regW s 0x100034 0) 10 && first && !s.time.ppsOut then
    .next (modTime (fun t => { t with ppsOut := true, ppsRise := now s }) s)
  else .next s

/-- PPS_OUT_FALL: WIDTH_MS after the rise. -/
def execPpsOutFall (s : State) : Res :=
  if s.time.ppsOut && decide (s.time.ppsRise + msT (regF s 0x100034 0 9 0) ≤ now s) then
    .next (modTime (fun t => { t with ppsOut := false }) s)
  else .next s

/-! ### TIME_CTL (R31, R33, R352) -/

def isTimeCtl (action : Nat) (d : Desc) : Bool := dOp d == 9 && dNum d 16 1 == action

/-- TIME_SET_SOURCE. -/
def execTimeSetSource (s : State) : Res :=
  match takeDesc (isTimeCtl 0) s with
  | none => .next s
  | some (d, s) =>
    let v := dNum d 17 1
    if sourceRefused s v then .next (complete d stFormat 17 (setSticky 0x100004 0 8 s))
    else .next (complete d stOk (nowNs s) (setSource v s))

/-- A rate adjustment clamped to ±50 ppm. -/
def clampAdj (w : Nat) : Int :=
  let i := (BitVec.ofNat 32 w).toInt
  if i < -214748 then -214748 else if 214748 < i then 214748 else i

/-- TIME_SET_RATE: the rate is written under FREE alone; under another source the servo sets it. -/
def execTimeSetRate (s : State) : Res :=
  match takeDesc (isTimeCtl 1) s with
  | none => .next s
  | some (d, s) =>
    if s.time.source == 0 then .next (complete d stOk (nowNs s) (modTime (fun t => { t with adj := clampAdj (dNum d 20 4) }) s))
    else .next (complete d stFormat 20 s)

/-- TIME_STEP. -/
def execTimeStep (s : State) : Res :=
  match takeDesc (isTimeCtl 2) s with
  | none => .next s
  | some (d, s) =>
    match tryStep (dNum d 24 8) s with
    | (true, s) => .next (complete d stOk (nowNs s) s)
    | (false, s) => .next (complete d stFormat 24 s)

/-- TIME_READ. -/
def execTimeRead (s : State) : Res :=
  match takeDesc (isTimeCtl 3) s with
  | none => .next s
  | some (d, s) => .next (complete d stOk (nowNs s) s)

end Sys2Proof.Machine
end

