-- ==== Sys2Proof/Machine/Group.lean ====
section
/-! DEFINITION. The group: receiving, joining, heartbeats, shares, the journal, and the loss of workers
and managers (R364 to R388). -/

namespace Sys2Proof.Machine

/-! ### Frames taken from the receive queue (R371, R372) -/

/-- The oldest received frame of a type; a sequenced one only when no earlier sequenced frame of its sender
waits before it. -/
def takeRx (t : Nat) (s : State) : Option (GrpRx × State) :=
  match takeFirst (fun x => x.hdr.typ.toNat == t) s.grp.rx with
  | none => none
  | some (x, rest) =>
    let before := s.grp.rx.takeWhile (fun y => y.hdr.typ.toNat != t)
    if sequenced t && before.any (fun y => sequenced y.hdr.typ.toNat && y.hdr.srcId == x.hdr.srcId) then none
    else some (x, modGrp (fun g => { g with rx := rest }) s)

/-- The peer that a frame comes from: a worker by its ID on a manager, the manager as 0 on a worker. -/
def rxPeer (s : State) (x : GrpRx) : Option Nat :=
  if x.hdr.srcUnassigned then none
  else if isManager s || x.hdr.srcId == 0 then (if (getPeer s x.hdr.srcId.val).isSome then some x.hdr.srcId.val else none)
  else none

/-- A process step on the next frame of a type. -/
def onRx (t : Nat) (f : GrpRx → State → State) (s : State) : Res :=
  match takeRx t s with
  | none => .next s
  | some (x, s) => .next (f x s)

def grpCount (n : Nat) (s : State) : State := incCnt (cntGrp n) s

/-! ### The member table and the holders (R382, R388) -/

def workers (s : State) : List Nat := (s.grp.peers.filter (fun p => p.1 != 0)).map (·.1)

/-- A worker's line of the member table. -/
def memberOf (s : State) (i : Nat) : Option Member :=
  (getPeer s i).map (fun p => { holder := s.grp.holders.contains i, eligible := p.eligible, ident := p.ident, mac := p.mac })

def tellHolders (changes : List (PeerId × Option Member)) (s : State) : State :=
  s.grp.holders.foldl (fun s i => sendSeq i (.members changes) s) s

def readyEligible (s : State) : List Nat := (s.grp.peers.filter (fun p => p.1 != 0 && p.2.st == 2 && p.2.eligible)).map (·.1)

/-- The holders that are wanted: those named by SET_HOLDERS, holders in force that still are members, and
then the lowest-numbered READY workers that may hold. -/
def wantedHolders (s : State) : List Nat :=
  let named := (s.grp.setHolders.filter (fun i => i != 0xFFFF && (getPeer s i).isSome)).eraseDups
  let free := if s.grp.setHolders.isEmpty then 2 else s.grp.setHolders.length - (s.grp.setHolders.filter (· != 0xFFFF)).length
  let kept := ((s.grp.holders.filter (fun i => !named.contains i && (getPeer s i).isSome)).take free)
  let new := ((readyEligible s).filter (fun i => !named.contains i && !kept.contains i)).take (free - kept.length)
  sortBy (fun a b => decide (a < b)) (named ++ kept ++ new)

/-- The requests whose entries are live: admitted and not freed. -/
def liveEntries (s : State) : List Nat := (s.rqt.filter (fun p => p.2.bound)).map (·.1)

/-- Bring the holders up to date: a new holder receives the member table and every live entry, and until it
has acknowledged them the journal is degraded. -/
def refreshHolders (s : State) : State :=
  if !isManager s then s
  else
    let want := wantedHolders s
    let new := want.filter (fun i => !s.grp.holders.contains i)
    let gone := s.grp.holders.filter (fun i => !want.contains i)
    if new.isEmpty && gone.isEmpty then s
    else
      let s := modGrp (fun g => { g with holders := want, degraded := g.degraded.filter (fun i => want.contains i) }) s
      let all := (workers s).map (fun i => (peerFin i, memberOf s i))
      let s := gone.foldl (fun s i => sendSeq i (.members all) s) (tellHolders all s)
      new.foldl (fun s i =>
        let live := liveEntries s
        let s := live.foldl (fun s k => journalTo i k s) s
        if live.isEmpty then s else modGrp (fun g => { g with degraded := setIns i g.degraded }) s) s

/-! ### Losing a worker (R373, R378, R383) -/

/-- Every share that a worker holds without a complete RESULT is re-placed. -/
def replaceAll (i : Nat) (s : State) : State :=
  let held := (s.reams.map (fun r => (r.shares.filter (fun x => x.2.1 == i && !x.2.2)).map (fun x => (r.seq, x.1)))).flatten
  held.foldl (fun s h => replaceShare h.1 h.2 i s) s

/-- A worker leaves the member table; its ID is released. -/
def dropWorker (i : Nat) (s : State) : State :=
  let s := modGrp (fun g => { g with
    peers := mapDel i g.peers, freed := mapSet i (now s) g.freed, setHolders := g.setHolders.filter (· != i),
    holders := g.holders.filter (· != i), degraded := setDel i g.degraded,
    journalling := g.journalling.filter (fun j => j.1.1 != i) }) s
  let s := tellHolders [(peerFin i, none)] s
  refreshHolders (replaceAll i s)

/-- A worker is lost. -/
def loseWorker (i : Nat) (s : State) : State :=
  let s := report 0x57 (ucPeer (peerFin i)) 0 (ucPeer (peerFin i)) 0 0 0 (grpCount 4 s)
  dropWorker i s

/-! ### Epochs and deposition (R385) -/

/-- Discard a worker's shares. -/
def dropShares (s : State) : State :=
  let s := (s.reams.filter (fun r => r.share.isSome)).foldl (fun s r => dropReam r.seq s) s
  modGrp (fun g => { g with inputs := [] }) s

/-- Free every tracker entry without an answer. -/
def freeTracker (s : State) : State :=
  let s := s.rqt.foldl (fun s p =>
    match p.2.frame with
    | some i => dropFrame i s
    | none => s) s
  let s := (s.reams.filter (fun r => r.share.isNone)).foldl (fun s r => dropReam r.seq s) s
  { s with
    rqt := [], slots := famMap (fun _ x => { x with bound := 0 }) s.slots
    adm := { s.adm with offers := [], carried := [] } }

/-- Forget the group: peers, holders, and the journal. -/
def forgetGroup (s : State) : State :=
  modGrp (fun g => { g with
    id := 0, peers := [], holders := [], setHolders := [], degraded := [], journalling := [], journalled := [], rx := [],
    held := [], members := [], holder := false, lost := none, lastAnnounce := none, lastProbe := none, heardMgr := false, leaving := none,
    toLeave := false, toWorker := false, toManager := false, copied := [], inputs := [] }) s

/-- A manager is deposed. -/
def depose (s : State) : State :=
  modGrp (fun g => { g with role := 3, timeAhead := false }) (forgetGroup (setSticky 0x700000 0 14 (freeTracker s)))

/-- The sequences with the manager start anew. -/
def freshPeer (port : LaneId) (s : State) : Peer :=
  { st := 2, port := port, mac := 0, ident := 0, eligible := false, aligned := false, load := 0, hashA := 0, hashB := 0, tgen := 0, hbNs := 0,
    hbTx := 0, heard := now s, nextSeq := 0, expect := 0, unacked := [], waiting := [], copies := [] }

/-- Adopt a higher EPOCH: a manager is deposed, a worker discards its shares and follows the new manager. -/
def adoptEpoch (e : W32) (port : LaneId) (s : State) : State :=
  let s := modGrp (fun g => { g with epoch := e }) s
  if s.grp.role == 1 then depose s
  else
    let h := ((getPeer s 0).map (·.hashA)).getD 0
    let s := dropShares s
    let s := setPeer 0 { freshPeer port s with hashA := h } s
    modGrp (fun g => { g with lost := none }) s

/-! ### Receiving (R364, R369 to R372, R385) -/

/-- Deliver a frame into the receive queue, in the order of its sequence. -/
def deliver (x : GrpRx) (s : State) : State :=
  let put (s : State) : State := modGrp (fun g => { g with rx := g.rx ++ [x] }) s
  match rxPeer s x with
  | none =>
    -- what a device without a sequence to the sender may hear
    let t := x.hdr.typ.toNat
    if t == 1 || t == 2 || t == 3 || t == 0x19 || t == 0x1A then put s else s
  | some i =>
    let s := ackFrom i x.hdr.ack s
    let s := if s.grp.role == 2 && i == 0 then modGrp (fun g => { g with heardMgr := true }) s else s
    if !sequenced x.hdr.typ.toNat then put s
    else
      let p := (getPeer s i).getD (freshPeer x.port s)
      if x.hdr.seq != p.expect then toPeer i 0 .ack s
      else toPeer i 0 .ack (put (setPeer i { p with expect := p.expect + 1 } s))

/-- RETRANSMIT: the oldest unacknowledged frame has waited 20 µs (R371). -/
def execRetransmit (peer : PeerId) (s : State) : Res :=
  let i := peer.val
  match getPeer s i with
  | none => .next s
  | some p =>
    match p.unacked with
    | [] => .next s
    | u :: _ =>
      if now s < u.sent + usT 20 then .next s
      else
        let s := setPeer i { p with unacked := p.unacked.map (fun v => { v with sent := now s }) } s
        .next (p.unacked.foldl (fun s v => toPeer i v.seq v.body s) (grpCount 1 s))

/-! ### Joining (R373 to R376) -/

/-- The device's identity hash (R370, R441). -/
def identHash (s : State) : W64 := BitVec.ofNat 64 (leNat ((Config.sha384 s.boot.fuses.identity).take 8))

/-- ANNOUNCE_SEND. -/
def execAnnounceSend (s : State) : Res :=
  let due := (s.grp.lastAnnounce.map (fun t => decide (t + msT 100 ≤ now s))).getD true
  if s.grp.role != 3 || s.grp.timeAhead || s.canopy.handedOver || !due then .next s
  else
    let b : GrpBody := .announce (identHash s) (slotPrefix s 0) (slotPrefix s 1) (cfgField s 0x14 0 == 1) (BitVec.ofNat 64 (nowNs s))
    let s := modGrp (fun g => { g with lastAnnounce := some (now s) }) s
    .next ((upGroupPorts s).foldl (fun s g => sendFrame g (some 0) 0 0 b s) s)

/-- The lowest worker ID that is neither held nor released within the last 10 s. -/
def freeId (s : State) : Option Nat :=
  (List.range' 1 1023).find? (fun i =>
    (getPeer s i).isNone && (mapGet i s.grp.freed).all (fun t => decide (t + nsT 10000000000 ≤ now s)))

/-- The EMBED tables that the manager's active slot reads. -/
def activeTables (s : State) : List Nat :=
  match activeSlot s with
  | none => []
  | some sl => (s.tbl.tables.filter (fun p => p.2.desc.kind == 0 && p.2.owners.contains sl)).map (·.1)

def activePrefix (s : State) : W64 := ((activeSlot s).map (slotPrefix s)).getD 0

/-- ANNOUNCE. -/
def execAnnounce (s : State) : Res :=
  onRx 1 (fun x s =>
    match x.body with
    | .announce ident hashA hashB eligible _ =>
      if !isManager s then s
      else
        let s := match s.grp.peers.find? (fun p => p.1 != 0 && p.2.ident == ident) with
          | some p => loseWorker p.1 s
          | none => s
        match freeId s with
        | none => sendTo x.port.val x.smac none 0 0 (.refuse (BitVec.ofNat 8 stBusy)) s
        | some i =>
          let p := { freshPeer x.port s with
            st := 1, mac := x.smac, ident := ident, eligible := eligible, hashA := hashA, hashB := hashB, copies := activeTables s }
          let s := setPeer i p s
          let s := tellHolders [(peerFin i, memberOf s i)] s
          sendTo x.port.val x.smac none 0 0 (.welcome (peerFin i) (BitVec.ofNat 64 (nowNs s)) (activePrefix s)) s
    | _ => s) s

/-- The one step that R33 permits a joining worker, which a pending launch refuses as it does any step. -/
def joinStep (gtNs : W64) (s : State) : State :=
  if stepAllowed s gtNs.toNat true then modTime (fun t => { t with stepTo := some gtNs, stepJoin := true }) s else setSticky 0x100004 0 4 s

/-- WELCOME: the source is GROUP, and the worker follows the manager's time by the one step that R33 permits. -/
def execWelcome (s : State) : Res :=
  onRx 2 (fun x s =>
    match x.body with
    | .welcome id gtNs hash =>
      if s.grp.role != 3 then s
      else if gtNs.toNat + 1000000 < nowNs s then
        sendFrame x.port.val (some 0) 0 0 (.refuse (BitVec.ofNat 8 stNotFound)) (modGrp (fun g => { g with timeAhead := true }) (setSource 1 s))
      else
        let s := modGrp (fun g => { g with role := 2, id := id.val, epoch := x.hdr.epoch, timeAhead := false }) (forgetGroup s)
        let s := modGrp (fun g => { g with id := id.val }) s
        let s := setPeer 0 { freshPeer x.port s with hashA := hash } s
        let s := setSource 1 s
        -- WELCOME ends stage 9 of a device that is joining at cold start (R426, R427)
        let s := if regF s 0x600000 0 2 0 == 4 then beginServing s else s
        if nowNs s < gtNs.toNat then joinStep gtNs s else s
    | _ => s) s

/-- REFUSE: the device stays JOINING (R370, R374). -/
def execRefuse (s : State) : Res := onRx 3 (fun _ s => s) s

/-! ### Table copies (R376) -/

/-- Areas of a table as a TABLE frame addresses them: buckets from 0, rows from 2^40 (DESIGN CHOICE, log 10). -/
def rowArea : Nat := 2 ^ 40

/-- The lines of an area of stack memory that hold a nonzero byte, as DPA lines. -/
def usedLines (s : State) (a n : Nat) : List Nat :=
  (linesOf a n).filter (fun l => (holderOf s l).isSome ||
    match place s (lineStripe l) (lineSlot l) (lineIx l) with
    | some key => (rawLine s key).any (· != 0)
    | none => true)

/-- Send the lines of an area. -/
def sendArea (i t base off n : Nat) (gen : W32) (s : State) : State :=
  (usedLines s base n).foldl (fun s l =>
    let ((bs, _), s) := readDpa (64 * l) 64 s
    sendSeq i (.tableCopy ⟨t % 256, by omega⟩ [] (off + (64 * l - base)) bs gen false) s) s

/-- Stream a table's buckets and rows to a worker, with a last frame that carries its generation. -/
def sendTable (i t : Nat) (s : State) : State :=
  match getTbl s t with
  | none => s
  | some x =>
    let gen := BitVec.ofNat 32 x.gen
    let s := sendArea i t x.desc.bucketBase 0 (bucketAreaBytes x.desc) gen s
    let s := sendArea i t x.desc.rowBase rowArea (rowAreaBytes x.desc) gen s
    sendSeq i (.tableCopy ⟨t % 256, by omega⟩ [] 0 [] gen true) s

def peerMatches (s : State) (p : Peer) : Bool :=
  activeSlot s != none && (p.hashA == activePrefix s || p.hashB == activePrefix s)

/-- Start the copies that a worker with the image still lacks. -/
def startCopies (i : Nat) (s : State) : State :=
  match getPeer s i with
  | none => s
  | some p =>
    if p.copies.isEmpty || !peerMatches s p then s
    else p.copies.foldl (fun s t => sendTable i t s) (setPeer i { p with copies := [] } s)

def isTableFrame : GrpBody → Bool
  | .tableCopy _ _ _ _ _ _ => true
  | _ => false

/-- WORKER_READY: aligned, holding the image, and its table copy complete (R375). -/
def execWorkerReady (peer : PeerId) (s : State) : Res :=
  let i := peer.val
  match getPeer s i with
  | none => .next s
  | some p =>
    let copied := p.copies.isEmpty && !p.unacked.any (fun u => isTableFrame u.body) && !p.waiting.any isTableFrame
    if !isManager s || i == 0 || p.st != 1 || !p.aligned || !peerMatches s p || !copied then .next s
    else .next (refreshHolders (setPeer i { p with st := 2 } s))

/-- Rebuild a table's slots from a copied bucket line. -/
def copyBucket (t b : Nat) (bs : Bytes) (s : State) : State :=
  ((decodeBucket bs).zip (List.range 4)).foldl (fun s e => putSlot t b e.2 e.1 s) s

/-- A line of a table copy. -/
def copyLine (t : TableId) (a : Nat) (data : Bytes) (gen : W32) (last : Bool) (s : State) : State :=
  match getTbl s t.val with
  | none => s
  | some y =>
    if last then
      modGrp (fun g => { g with copied := setIns t.val g.copied }) (setTbl t.val { y with gen := gen.toNat } s)
    else if a < rowArea then (if a % 64 == 0 && data.length == 64 then copyBucket t.val (a / 64) data s else s)
    else writeDpa (y.desc.rowBase + (a - rowArea)) data s

/-- A forwarded batch joins the table's queue with an entry of die 0's launch table. -/
def queueForwarded (t : TableId) (recs : List BatchRec) (expect : W32) (launch : Nat) (s : State) : State :=
  let (n, s) := acceptNow s
  let s := notePast launch s
  queueChange t.val { who := .group n, recs := recs, expect := expect.toNat, due := dueOf s launch } s

/-- TABLE: copy data, or a forwarded batch. One whose launch table is full waits in the receive queue, and one beyond 60 s is
dropped: the manual gives a forwarded batch no answer (R39, R40; DESIGN CHOICE, log 26). -/
def execTable (s : State) : Res :=
  match takeRx 0x17 s with
  | none => .next s
  | some (x, s') =>
    match x.body with
    | .tableCopy t _ a data gen last => .next (copyLine t a data gen last s')
    | .tableBatch t recs expect launch =>
      if tooFar s launch.toNat then .next s'
      else match if dueOf s launch.toNat ≤ now s + 1 then some ([], s') else allocLaunch [0] launch.toNat s' with
        | none => .next s
        | some (_, s') => .next (queueForwarded t recs expect launch.toNat s')
    | _ => .next s'

/-! ### Heartbeats (R34, R377) -/

/-- Cluster credits in use, in 1/256 of the total. -/
def creditLoad (s : State) : Nat :=
  let used := (List.range 32).foldl (fun a c => a + cluHeld s c) 0
  if totalCredits s == 0 then 0 else min 255 (used * 256 / totalCredits s)

/-- The worker can report READY: aligned, with the manager's image and its tables copied. -/
def selfReady (s : State) : Bool :=
  match (List.finRange 2).find? (fun sl => (getSlot s sl.val).image.isSome && some (slotPrefix s sl) == (getPeer s 0).map (·.hashA)) with
  | none => false
  | some sl => s.time.aligned && s.tbl.tables.all (fun p => p.2.desc.kind != 0 || !p.2.owners.contains sl || s.grp.copied.contains p.1)

def heartbeatBody (s : State) (p : Peer) : GrpBody :=
  .heartbeat (BitVec.ofNat 64 (nowNs s)) (BitVec.ofNat 64 p.hbNs) (BitVec.ofNat 64 p.hbTx) s.time.aligned (s.grp.role == 2 && selfReady s)
    s.grp.holder (s.grp.toLeave || s.grp.toManager || s.grp.leaving.isSome) (BitVec.ofNat 8 (creditLoad s)) (slotPrefix s 0) (slotPrefix s 1)
    (BitVec.ofNat 64 (slotTgen s 0 + 2 ^ 32 * slotTgen s 1))

/-- HEARTBEAT_SEND: at every multiple of 100 µs of GT. -/
def execHeartbeatSend (s : State) : Res :=
  if !hasId s || nowNs s / 100000 == s.grp.lastHb / 100000 then .next s
  else
    let s := modGrp (fun g => { g with lastHb := nowNs s }) s
    .next (s.grp.peers.foldl (fun s p => toPeer p.1 0 (heartbeatBody s p.2) s) s)

/-- The asymmetry of a lane (GT_LINK_ASYM), in picoseconds. -/
def linkAsym (s : State) (l : LaneId) : Int := (BitVec.ofNat 16 (regF s (0x100040 + 4 * l.val) 0 15 0)).toInt

/-- HEARTBEAT: a manager follows the worker's flags; the four time stamps of a round trip give a worker its offset. -/
def execHeartbeat (s : State) : Res :=
  onRx 4 (fun x s =>
    match rxPeer s x, x.body with
    | some i, .heartbeat tTx tRxPrev tTxPrev aligned _ _ draining load hashA hashB tgen =>
      match getPeer s i with
      | none => s
      | some p =>
        let act := if isManager s then hashA else p.hashA
        let q := { p with hbNs := x.gtNs, hbTx := tTx.toNat, heard := now s, aligned := aligned, load := load.toNat, hashA := act, hashB := hashB, tgen := tgen }
        let s := setPeer i q s
        if isManager s then
          let st := if draining then 3 else if q.st == 3 || !aligned || !peerMatches s q then 1 else q.st
          let s := setPeer i { q with st := st } s
          startCopies i s
        else
          let s := modGrp (fun g => { g with lost := none }) s
          if tTxPrev == 0 || s.time.source != 1 then s
          else
            let ns : Int := ((tRxPrev.toNat : Int) - tTxPrev.toNat) - ((x.gtNs : Int) - tTx.toNat)
            measured (ns * 500 + linkAsym s p.port / 2) true s
    | _, _ => s) s

/-! ### Shares (R379 to R381) -/

/-- Write data into the space that a WRITE names. -/
def groupWrite (space : BitVec 2) (a : Nat) (data : Bytes) (s : State) : State :=
  let unit := a / 2 ^ 32
  let off := a % 2 ^ 32
  let clear (m : List Nat) : List Nat := m.filter (fun l => !(linesOf off data.length).contains l)
  match space.toNat with
  | 0 =>
    match (List.finRange 4)[unit]? with
    | some d =>
      if dieSramBytes < off + data.length then s
      else modDie d (fun y => { y with sram := ramWrite y.sram off data, sramPoison := clear y.sramPoison }) s
    | none => s
  | 1 =>
    match (List.finRange 32)[unit]? with
    | some k =>
      if clusterSramBytes < off + data.length then s
      else modCluster k (fun y => { y with sram := ramWrite y.sram off data, sramPoison := clear y.sramPoison }) s
    | none => s
  | n =>
    let ok := (linesOf a data.length).all (fun l => decide (l < dpaLines) && kindOf s (lineStripe l) == (if n == 2 then 4 else 1))
    if ok then writeDpa a data s else s

/-- The key of a note of a WRITE into a space. -/
def noteKey (space a : Nat) : Nat := space * 2 ^ 40 + a

/-- WRITE; a worker notes what is written into die and cluster SRAM (DEDUCED, log 24). -/
def execWrite (s : State) : Res :=
  onRx 0x10 (fun x s =>
    match x.body with
    | .write space a data =>
      let s := groupWrite space a data s
      if space.toNat < 2 && s.grp.role == 2 then modGrp (fun g => { g with inputs := mapSet (noteKey space.toNat a) data.length g.inputs }) s else s
    | _ => s) s

/-- The rows of a share whose input has been written. -/
def inputRows (s : State) (p : RowPlace) (seq : W32) : Nat → Nat → Nat
  | 0, i => i
  | n + 1, i => if (mapGet (noteKey 1 (peerAddr p.cluster.val (placeAddr p seq i))) s.grp.inputs).isSome then inputRows s p seq n (i + 1) else i

/-- The bytes written from an address on, over WRITE frames that follow one another. -/
def inputLen (s : State) : Nat → Nat → Nat
  | 0, _ => 0
  | n + 1, a =>
    match mapGet a s.grp.inputs with
    | none => 0
    | some k => if k == 0 then 0 else k + inputLen s n (a + k)

/-- The slot that holds an image by its prefix. -/
def slotOfHash (s : State) (h : W64) : Option SlotId :=
  (List.finRange 2).find? (fun sl => 2 ≤ (getSlot s sl.val).st && slotPrefix s sl == h)

def refuseShare (ream : W32) (n status : Nat) (s : State) : State := sendSeq 0 (.refuseWork ream n (BitVec.ofNat 8 status)) s

/-- WORK: the worker enters the share's launch, or refuses it; a launch time that has passed is the next edge, and one beyond
60 s is refused with FORMAT (R39, R381). -/
def execWork (s : State) : Res :=
  onRx 0x11 (fun x s =>
    match x.body with
    | .work ream n hash tgen launch =>
      if s.grp.role != 2 then s
      else if s.grp.toManager || s.grp.toLeave || s.grp.leaving.isSome then refuseShare ream n stBusy s
      else match (slotOfHash s hash).bind (fun sl => (slotImage s sl).map (fun im => (sl, im))) with
        | none => refuseShare ream n stStale s
        | some (sl, im) =>
          if tooFar s launch.toNat then refuseShare ream n stFormat s
          else
          let s := notePast launch.toNat s
          let at_ := if nsT launch.toNat ≤ now s then nowNs s + 1 else launch.toNat
          let cores := progsOf im ream [n]
          let r := { emptyReam ream sl 0 0 at_ with tgen := tgen.toNat, share := some (0, n), cores := cores, sealed_ := true }
          match allocLaunch (launchDies s r im cores) at_ s with
          | none => refuseShare ream n stBusy s
          | some (es, s) =>
            let s := { s with reams := s.reams ++ [{ r with entries := es }] }
            let jobs := (im.gather.filter (fun g => g.share == n)).filterMap (fun e =>
              let d := (entryCmd e).destCluster.toNat / 8
              let k := inputLen s 4096 (peerAddr d (64 * (entryCmd e).keyLine.toNat)) / 8
              let b := inputLen s 4096 (peerAddr d (64 * (entryCmd e).bagLine.toNat)) / 4
              if k == 0 then none else some (yieldCmd s ⟨d % 4, by omega⟩ e ream es k b))
            let rows := max (((im.inputs.find? (fun p => p.share == n)).map (fun p => inputRows s p ream 1048576 0)).getD 0)
              ((jobs.map (fun j => if j.pool then j.cmd.bagCountM1.toNat + 1 else 0)).foldl max 0)
            let row : ReamRow := { req := 0, service := 0, body := [], input := [] }
            let s := modReam ream (fun m => { m with rows := List.replicate rows row, jobs := m.jobs ++ jobs }) s
            cores.foldl (fun s l => markCtx r l s) (modGrp (fun g => { g with inputs := [] }) s)
    | _ => s) s

def holdsShares (s : State) : Bool := s.reams.any (fun r => r.share.isSome)

/-- A worker sends LEAVE and waits for its acknowledgement (R365). -/
def sendLeave (s : State) : State := modGrp (fun g => { g with leaving := some (now s), toLeave := false }) (sendSeq 0 .leave s)

/-! ### Promotion (R366, R386) -/

/-- A destination of every port's own group address. -/
def padFrame (bs : Bytes) : Bytes :=
  let f := bs ++ List.replicate (60 - bs.length) 0
  f ++ fcsOf f

/-- An ARP announcement (RFC 5227) for an IPv4 address. -/
def arpFrame (mac ip : Nat) : Bytes :=
  padFrame (toBE 6 (2 ^ 48 - 1) ++ toBE 6 mac ++ toBE 2 0x0806 ++ toBE 2 1 ++ toBE 2 0x0800 ++ [6, 4] ++ toBE 2 1 ++ toBE 6 mac ++ toBE 4 ip ++
    toBE 6 0 ++ toBE 4 ip)

/-- An unsolicited Neighbor Advertisement (RFC 4861) for an IPv6 address, to all nodes. -/
def naFrame (mac ip : Nat) : Bytes :=
  let dst := 0xFF02 * 2 ^ 112 + 1
  let body := toBE 4 0x20000000 ++ toBE 16 ip ++ [2, 1] ++ toBE 6 mac
  let pseudo := toBE 16 ip ++ toBE 16 dst ++ toBE 4 32 ++ toBE 4 58
  let sum := 65535 - inetSum ([136, 0, 0, 0] ++ body) (onesSum pseudo 0)
  padFrame (toBE 6 0x333300000001 ++ toBE 6 mac ++ toBE 2 0x86DD ++ toBE 4 0x60000000 ++ toBE 2 32 ++ [58, 255] ++ toBE 16 ip ++ toBE 16 dst ++
    [136, 0] ++ toBE 2 sum ++ body)

/-- The service addresses that a port's die holds: whether IPv6, and the address. -/
def serviceAddrs (s : State) (g : Nat) : List (Bool × Nat) :=
  (List.range 8).filterMap (fun n =>
    let w (k : Nat) : Nat := regW s (pp g (0x800100 + 0x20 * n + 4 * k)) 0
    if bit (w 4) 1 && bit (cfgField s 0x16 0) n then
      some (bit (w 4) 0, if bit (w 4) 0 then w 0 + w 1 * 2 ^ 32 + w 2 * 2 ^ 64 + w 3 * 2 ^ 96 else w 0)
    else none)

/-- Send a frame of the device's own from a port. -/
def sendOwn (g : Nat) (f : Bytes) (s : State) : State :=
  if !hasCells s (laneDie g) f.length false then s
  else
    let (i, s) := putFrame (laneDie g) f f.length none s
    let (_, s) := enqueue g (bits (cfgField s 0x15 0) 3 0) (plainItem i) false s
    freeUnheld i s

/-- Announce the service addresses on every enabled port. -/
def announceAddrs (s : State) : State :=
  let mac := cfgField s 0x11 0 % 2 ^ 48
  ((List.range 16).filter (portUp s)).foldl (fun s g =>
    (serviceAddrs s g).foldl (fun s a => sendOwn g (if a.1 then naFrame mac a.2 else arpFrame mac a.2) s) s) s

/-- Rebuild a tracker entry from the journal; it stays bound to its slot (R24). -/
def rebuildReq (e : JEntry) (s : State) : State :=
  let (f, s) := if e.frame.isEmpty then (none, s) else
    let (i, s) := putFrame e.die e.frame e.frame.length none s
    (some i, holdFrame i s)
  let p := parseFrame e.frame 0 (regF s (pp e.port.val 0x800008) 0 15 0)
  let m := mrpOf (match p.udp with
    | some (o, n) => (e.frame.drop o).take n
    | none => [])
  let r : Req :=
    { id := e.requestId, deadline := e.deadline.toNat, st := 3, slot := e.slot, port := e.port, worker := 0, hint := false, untracked := e.untracked,
      unscored := e.unscored, service := e.service, ream := 0, flowIndex := none, frame := f, infer := none, clientTag := m.tag,
      body := m.body, outs := e.outs, sampled := none, sample := none, ord := s.adm.offered, offeredAt := 0, carries := 0, clu := [], nlu := [], reply := none,
      bound := true, replaced := false }
  modSlot e.slot.val (fun x => { x with bound := x.bound + 1 }) (setReq e.handle r { s with adm := { s.adm with offered := s.adm.offered + 1 } })

/-- Test a rebuilt request by R302: it is placed into a ream, or answered LATE. -/
def replayReq (k : Nat) (s : State) : State :=
  match getReq s k with
  | none => s
  | some r =>
    match slotImage s r.slot, svcOf s r.slot r.service with
    | some im, some svc =>
      let n := windowOf s (nowNs s)
      if reamWindow s == 0 || !completesBy s r.slot im svc (joinSeq s n r.slot) (nowNs s) (launchAt s n) r.deadline then
        answerReq k stLate (grpCount 6 s)
      else decideReq k (nowNs s) false s
    | _, _ => answerReq k stLate (grpCount 6 s)

/-- The EPOCH of the next promotion, for a device by its worker ID (R385). -/
def nextEpoch (s : State) (id : Nat) : W32 := BitVec.ofNat 32 ((s.grp.epoch.toNat / 1024 + 1) * 1024 + (1023 - id % 1024))

/-- The device promotes itself with an EPOCH (R386); `mac`: a configuration change makes it manager, and PROMOTE
goes to GROUP_MAC too (R366). -/
def promoteSelf (mac : Bool) (e : W32) (s : State) : State :=
  let members := s.grp.members.filter (fun m => m.1 != s.grp.id && m.1 != 0)
  let entries := s.grp.held.map (·.2)
  let port := laneFin (((upGroupPorts s).head?).getD 0)
  let s := forgetGroup (dropShares s)
  let s := modGrp (fun g => { g with role := 1, epoch := e, freed := [] }) s
  let s := members.foldl (fun s m => setPeer m.1 { freshPeer port s with
    st := 1, mac := m.2.mac, ident := m.2.ident, eligible := m.2.eligible, copies := activeTables s } s) s
  let s := if mac then (upGroupPorts s).foldl (fun s g => sendFrame g (some 0) 0 0 (.promote e) s) s else s
  let s := members.foldl (fun s m => toPeer m.1 0 (.promote e) s) s
  let s := announceAddrs (setSource (cfgField s 0x17 0) s)
  let s := entries.foldl (fun s e => rebuildReq e s) s
  let s := entries.foldl (fun s e => replayReq e.handle s) s
  refreshHolders s

/-- A worker that turns manager does so once its shares have ended (R366). -/
def endOfShares (s : State) : State :=
  if holdsShares s then s
  else if s.grp.toManager then promoteSelf true (nextEpoch s s.grp.id) s
  else if s.grp.toLeave then sendLeave s
  else s

/-- A share's outputs: for each place and row the address and bytes of its WRITE, and whether they are poisoned. -/
def shareOutputs (s : State) (r : Ream) (im : Image) (n : Nat) : List (Nat × Bytes × Bool) :=
  ((im.outputs.filter (fun p => p.share == n)).map (fun p =>
    (List.range r.rows.length).map (fun i => (peerAddr p.cluster.val (placeAddr p r.seq i), outputAt s p r.seq i)))).flatten

/-- SHARE_END: the worker returns the outputs of a share that it launched at `launch` as WRITE frames, followed by RESULT
(R380). -/
def execShareEnd (ream : W32) (slot : SlotId) (launch share : Nat) (s : State) : Res :=
  match s.reams.find? (fun r => r.seq == ream && (r.share.map (fun x => x.2 == share)).getD false) with
  | none => .next s
  | some r =>
    if r.slot != slot || r.launchNs != launch || !reamComplete r then .next s
    else
      let outs := ((slotImage s r.slot).map (fun im => shareOutputs s r im share)).getD []
      let s := { s with reams := s.reams.filter (fun m => !(m.seq == ream && m.share.isSome)) }
      let s := outs.foldl (fun s o => sendWrites 0 1 (o.2.1.length + 1) o.1 o.2.1 s) s
      let st := if outs.any (fun o => o.2.2) then stPoison else stOk
      .next (endOfShares (sendSeq 0 (.result ream share (BitVec.ofNat 8 st)) s))

/-- A share that ended with POISON: the manager's copy of its outputs carries the poison (R407). -/
def poisonOutputs (r : Ream) (n : Nat) (s : State) : State :=
  match slotImage s r.slot with
  | none => s
  | some im => (im.outputs.filter (fun p => p.share == n)).foldl (fun s p =>
      match (List.finRange 32)[logicalClusterPhys s p.cluster.val]? with
      | some k =>
        let ls := ((List.range r.rows.length).map (fun i => linesOf (placeAddr p r.seq i) p.len)).flatten
        modCluster k (fun y => { y with sramPoison := ls.foldl (fun m l => setIns l m) y.sramPoison }) s
      | none => s) s

/-- RESULT: a share's outputs are complete (R380). -/
def execResult (s : State) : Res :=
  onRx 0x12 (fun x s =>
    match rxPeer s x, x.body with
    | some i, .result ream n st =>
      match reamOf s ream with
      | none => s
      | some r =>
        if !isManager s || (mapGet n r.shares).map (·.1) != some i then s
        else
          let s := if st.toNat == stPoison then poisonOutputs r n s else s
          modReam ream (fun r => { r with shares := mapSet n (i, true) r.shares }) s
    | _, _ => s) s

/-- REFUSE_WORK: the manager re-places the share (R381). -/
def execRefuseWork (s : State) : Res :=
  onRx 0x13 (fun x s =>
    match rxPeer s x, x.body with
    | some i, .refuseWork ream n _ =>
      if !isManager s then s
      else
        let s := grpCount 7 s
        if ((reamOf s ream).bind (fun r => mapGet n r.shares)) == some (i, false) then replaceShare ream n i s else s
    | _, _ => s) s

/-! ### The journal at a holder (R382) -/

/-- An entry's bytes at its handle in JOURNAL_REGION; each of the 2^20 handles has an equal part of the region (DESIGN CHOICE,
log 10). -/
def storeEntry (e : JEntry) (s : State) : State :=
  let v := cfgField s 0x13 0
  let n := bits v 52 26 * 53248 / 2 ^ 20
  writeDpa (bits v 25 0 * 53248 + e.handle * n) ((Config.journalBytes e).take n) s

/-- JOURNAL. -/
def execJournal (s : State) : Res :=
  onRx 0x14 (fun x s =>
    match x.body with
    | .journal e => storeEntry e (modGrp (fun g => { g with held := mapSet e.handle e g.held, holder := true }) s)
    | _ => s) s

/-- RELEASE. -/
def execRelease (s : State) : Res :=
  onRx 0x15 (fun x s =>
    match x.body with
    | .release hs => modGrp (fun g => { g with held := hs.foldl (fun m h => mapDel h m) g.held }) s
    | _ => s) s

/-- MEMBERS: the device is a holder as its own line says; one that is no holder any more holds neither table nor journal. -/
def execMembers (s : State) : Res :=
  onRx 0x16 (fun x s =>
    match x.body with
    | .members cs => modGrp (fun g =>
        let ms := cs.foldl (fun m c => match c.2 with
          | some h => mapSet c.1.val h m
          | none => mapDel c.1.val m) g.members
        let own := ((mapGet g.id ms).map (·.holder)).getD true
        { g with holder := own, members := if own then ms else [], held := if own then g.held else [] }) s
    | _ => s) s

/-! ### Leaving and losing (R365, R366, R378, R383 to R387) -/

/-- LEAVE: the manager lets the worker go; outstanding work is a loss (R383). -/
def execLeave (s : State) : Res :=
  onRx 0x18 (fun x s =>
    match rxPeer s x with
    | some i =>
      if !isManager s then s
      else if s.reams.any (fun r => r.shares.any (fun y => y.2.1 == i && !y.2.2)) then loseWorker i s
      else dropWorker i s
    | none => s) s

/-- PROMOTE: a member adopts the higher EPOCH; the one that it names, a holder, promotes itself (R385,
R387). -/
def execPromote (s : State) : Res :=
  onRx 0x19 (fun x s =>
    match x.body with
    | .promote e =>
      if e.toNat ≤ s.grp.epoch.toNat || !hasId s then s
      else if s.grp.role == 2 && s.grp.holder && s.grp.id == 1023 - e.toNat % 1024 then promoteSelf false e s
      else endOfShares (adoptEpoch e x.port s)
    | _ => s) s

/-- PROBE: a holder looks for its manager; the manual gives the receiver nothing to do (R370). -/
def execProbe (s : State) : Res := onRx 0x1A (fun _ s => s) s

/-- A worker loses its manager: the sequence and window are discarded. A holder keeps its ID and looks for the manager; a
worker that is leaving the group, or turning manager, goes on with that; every other one joins anew (R365, R366, R378, R384;
DEDUCED, log 27). -/
def loseManager (p : Peer) (s : State) : State :=
  let s := modGrp (fun g => { g with lost := some p.heard, heardMgr := false }) (report 0x57 (ucPeer 0) 0 (ucPeer 0) 0 0 0 s)
  if s.grp.toLeave || s.grp.toManager || s.grp.leaving.isSome then endOfShares (modGrp (fun g => { g with peers := mapDel 0 g.peers }) s)
  else if s.grp.holder then setPeer 0 { p with unacked := [], waiting := [], nextSeq := 0, expect := 0 } s
  else modGrp (fun g => { g with role := 3 }) (forgetGroup (dropShares s))

/-- PEER_LOST: 300 µs without a heartbeat (R378). -/
def execPeerLost (peer : PeerId) (s : State) : Res :=
  let i := peer.val
  match getPeer s i with
  | none => .next s
  | some p =>
    if now s < p.heard + usT 300 then .next s
    else if isManager s then .next (loseWorker i s)
    else if s.grp.lost.isNone then .next (loseManager p s)
    else .next s

/-- PROBE_SEND: a holder that lost its manager probes every 10 ms (R384). -/
def execProbeSend (s : State) : Res :=
  let due := (s.grp.lastProbe.map (fun t => decide (t + msT 10 ≤ now s))).getD true
  if !s.grp.holder || s.grp.lost.isNone || !due then .next s
  else
    let s := modGrp (fun g => { g with lastProbe := some (now s) }) s
    .next ((upGroupPorts s).foldl (fun s g => sendFrame g (some 0) 0 0 .probe s) s)

/-- SELF_PROMOTE: the holder with the lower ID after 0.5 s, the other after 1.0 s, unless it has heard
the manager since (R384, R386). -/
def execSelfPromote (s : State) : Res :=
  match s.grp.lost with
  | none => .next s
  | some t0 =>
    let lower := !s.grp.members.any (fun m => m.2.holder && decide (m.1 < s.grp.id))
    let wait := if lower then nsT 500000000 else nsT 1000000000
    if !s.grp.holder || s.grp.role != 2 || s.grp.heardMgr || now s < t0 + wait then .next s
    else .next (promoteSelf false (nextEpoch s s.grp.id) s)

/-- Become STANDALONE. -/
def standAlone (s : State) : State :=
  setSource (cfgField s 0x17 0) (modGrp (fun g => { g with role := 0 }) (forgetGroup s))

/-- LEAVE has been acknowledged. -/
def leaveAcked (s : State) : Bool :=
  s.grp.leaving.isSome && ((getPeer s 0).map (fun p => p.unacked.isEmpty && p.waiting.isEmpty)).getD false

/-- ACK: a bare acknowledgement has acted when it was delivered (R371); that of LEAVE ends a worker's
membership (R365). -/
def execAck (s : State) : Res := onRx 5 (fun _ s => if leaveAcked s then standAlone s else s) s

/-- LEAVE_TIMEOUT: LEAVE is acknowledged, or 10 ms have passed (R365). -/
def execLeaveTimeout (s : State) : Res :=
  match s.grp.leaving with
  | none => .next s
  | some t => if leaveAcked s || decide (t + msT 10 ≤ now s) then .next (standAlone s) else .next s

/-- TRACKER_EMPTY_JOIN: a manager that turns worker has answered every request (R366). -/
def execTrackerEmptyJoin (s : State) : Res :=
  if s.grp.toWorker && s.rqt.isEmpty then .next (modGrp (fun g => { g with role := 3 }) (forgetGroup s)) else .next s

/-! ### GROUP_CTL (R388) -/

def groupCtl (action role : Nat) (f : Desc → State → State) (s : State) : Res :=
  match takeDesc (fun d => dOp d == 10 && dNum d 16 1 == action) s with
  | none => .next s
  | some (d, s) => .next (if s.grp.role != role then complete d stFormat 16 s else f d s)

/-- The GRP_MEMBER word. -/
def memberWord (s : State) (i : Nat) : Nat :=
  match getPeer s i with
  | none => 0
  | some p =>
    if i == 0 || !isManager s then 0
    else p.st + 4 * b2n p.aligned + 8 * b2n (s.grp.holders.contains i) + 16 * p.port.val + 256 * p.load + 65536 * b2n (peerMatches s p)

/-- GROUP_LIST: as many members as the buffer holds. -/
def execGroupList (s : State) : Res :=
  groupCtl 0 1 (fun d s =>
    let ids := (workers s).take (dNum d 32 4 / 16)
    let bs := (ids.map (fun i => toLE 4 i ++ toLE 4 (memberWord s i) ++ toLE 8 (((getPeer s i).map (·.hbNs)).getD 0))).flatten
    complete d stOk ids.length (descWrite d (dNum d 24 8) bs s)) s

/-- GROUP_EVICT. -/
def execGroupEvict (s : State) : Res :=
  groupCtl 1 1 (fun d s =>
    let i := dNum d 18 2
    if i == 0 || (getPeer s i).isNone then completeBare d stNotFound s else completeBare d stOk (loseWorker i s)) s

/-- GROUP_SET_HOLDERS. -/
def execGroupSetHolders (s : State) : Res :=
  groupCtl 2 1 (fun d s =>
    let ids := [dNum d 18 2, dNum d 20 2]
    let ready (i : Nat) : Bool := i == 0xFFFF || ((getPeer s i).map (fun p => i != 0 && p.st == 2)).getD false
    if ids.all ready then completeBare d stOk (refreshHolders (modGrp (fun g => { g with setHolders := ids }) s))
    else completeBare d stNotFound s) s

/-- Promote a holder at once (R387). -/
def handoverTo (i : Nat) (s : State) : State :=
  let e := nextEpoch s i
  (workers s).foldl (fun s j => toPeer j 0 (.promote e) s) s

/-- GROUP_HANDOVER. -/
def execGroupHandover (s : State) : Res :=
  groupCtl 3 1 (fun d s =>
    let i := dNum d 18 2
    if s.grp.holders.contains i then completeBare d stOk (handoverTo i s) else completeBare d stNotFound s) s

/-- A worker leaves once it has finished the work it holds. -/
def beginLeave (s : State) : State := endOfShares (modGrp (fun g => { g with toLeave := true }) s)

/-- GROUP_LEAVE. -/
def execGroupLeave (s : State) : Res := groupCtl 4 2 (fun d s => completeBare d stOk (beginLeave s)) s

end Sys2Proof.Machine
end

