-- ==== Sys2Proof/Machine/Ptp.lean ====
section
/-! DEFINITION. The ordinary clock: Sync, Follow_Up, Delay_Req and Delay_Resp of IEEE 1588-2019 on the port of GT_PTP_PORT
(R30, R32, R36). The message layouts are that standard's (PRESUMED, log 102). -/

namespace Sys2Proof.Machine

/-- The messages that the clock acts on or sends. -/
inductive PtpType where
  | sync
  | delayReq
  | followUp
  | delayResp
  deriving DecidableEq, Repr

/-- A message: its type, the two-step flag, the correction in 2^-16 ns, the sender's port identity and sequence number, the
time stamp in ns, and the port identity that a Delay_Resp answers. -/
structure PtpMsg where
  typ : PtpType
  twoStep : Bool
  corr : Int
  port : Nat
  seq : Nat
  ns : Nat
  asker : Nat
  deriving DecidableEq, Repr

/-- The message's bytes in a frame: the UDP payload, or what follows the EtherType. -/
def ptpBytes (bs : Bytes) (p : Parsed) : Bytes :=
  match p.udp with
  | some (o, n) => (bs.drop o).take n
  | none => bs.drop (14 + 4 * p.tags)

def ptpType (n : Nat) : Option PtpType :=
  match n with
  | 0 => some .sync
  | 1 => some .delayReq
  | 8 => some .followUp
  | 9 => some .delayResp
  | _ => none

/-- Read a message of version 2; others are not the clock's. -/
def ptpMsg (m : Bytes) : Option PtpMsg :=
  if m.length < 44 || byteAt m 1 % 16 != 2 then none
  else (ptpType (byteAt m 0 % 16)).map (fun t =>
    { typ := t, twoStep := bit (byteAt m 6) 1, corr := signedOf 64 (beField m 8 8), port := beField m 20 10, seq := be16 m 30,
      ns := beField m 34 6 * 1000000000 + beField m 40 4, asker := beField m 44 10 })

/-- A Delay_Req with the clock's port identity and a sequence number. -/
def delayReqBytes (seq : Nat) : Bytes :=
  [1, 2] ++ toBE 2 44 ++ List.replicate 16 0 ++ toBE 10 Config.ptpIdentity ++ toBE 2 seq ++ [1, 0x7F] ++ List.replicate 10 0

/-- The frame that carries a Delay_Req to the transmitter of a Sync, over the Sync's transport. -/
def delayReqFrame (s : State) (g : Nat) (sync : Bytes) (p : Parsed) (seq : Nat) : Bytes :=
  if p.udp.isSome then answerFrame sync (portMac s g) (regF s (pp g 0x800008) 0 15 0) (delayReqBytes seq)
  else
    let f := toBE 6 0x011B19000000 ++ toBE 6 (portMac s g) ++ (sync.drop 12).take (4 * p.tags + 2) ++ delayReqBytes seq
    let f := f ++ List.replicate (60 - f.length) 0
    f ++ fcsOf f

def modPtp (f : PtpClock → PtpClock) (s : State) : State := modTime (fun t => { t with ptp := f t.ptp }) s

/-- Send a Delay_Req from a port. -/
def sendDelayReq (g : Nat) (sync : Bytes) (p : Parsed) (s : State) : State :=
  let seq := s.time.ptp.nextSeq
  let f := delayReqFrame s g sync p seq
  if !hasCells s (laneDie g) f.length false then s
  else
    let (i, s) := putFrame (laneDie g) f f.length none s
    let (ok, s) := enqueue g 0 (plainItem i) false s
    freeUnheld i (if ok then modPtp (fun c => { c with nextSeq := (seq + 1) % 65536, req := some (seq, none) }) s else s)

/-- A whole Sync: t2 - t1 is known, and with the path delay the offset of GT; a Delay_Req follows. -/
def syncDone (t1 : Int) (rx : Nat) (s : State) : State :=
  let d := 65536 * (rx : Int) - t1
  let s := modPtp (fun c => { c with sync := none, diff := some d }) s
  match s.time.ptp.delay with
  | some del => measured ((d - del) * 1000 / 65536) false s
  | none => s

/-- A message that arrives at a GT_NS on the clock's port (R36). -/
def ptpActs (g rx : Nat) (bs : Bytes) (p : Parsed) (m : PtpMsg) (s : State) : State :=
  let c := s.time.ptp
  match m.typ with
  | .sync =>
    let s := modTime (fun t => { t with lastExchange := some (now s) }) s
    let s :=
      if m.twoStep then modPtp (fun c => { c with sync := some { port := m.port, seq := m.seq, rx := rx, corr := m.corr } }) s
      else syncDone (65536 * (m.ns : Int) + m.corr) rx s
    sendDelayReq g bs p s
  | .followUp =>
    match c.sync with
    | some y => if y.port == m.port && y.seq == m.seq then syncDone (65536 * (m.ns : Int) + m.corr + y.corr) y.rx s else s
    | none => s
  | .delayResp =>
    match c.req, c.diff with
    | some (q, some t3), some d =>
      if m.asker == Config.ptpIdentity && m.seq == q then
        modPtp (fun c => { c with req := none, delay := some ((d + (65536 * (m.ns : Int) - m.corr - 65536 * (t3 : Int))) / 2) }) s
      else s
    | _, _ => s
  | .delayReq => s

/-- The firmware runs the protocol under source PTP on the port that GT_PTP_PORT names; while firmware restarts no message is
processed (R30, R36). -/
def ptpReceive (g rx : Nat) (bs : Bytes) (p : Parsed) (s : State) : State :=
  if s.time.source != 2 || !s.boot.fwUp || (portOfLane s (regF s 0x100038 0 3 0)).1 != g then s
  else match ptpMsg (ptpBytes bs p) with
    | some m => ptpActs g rx bs p m s
    | none => s

/-- A frame that leaves through a port: the transmit stamp of a Delay_Req under way (R36). -/
def ptpSent (bs : Bytes) (s : State) : State :=
  let p := parseFrame bs 0 0
  if !isPtp p then s
  else match ptpMsg (ptpBytes bs p), s.time.ptp.req with
    | some m, some (q, none) =>
      if m.typ == .delayReq && m.port == Config.ptpIdentity && m.seq == q then modPtp (fun c => { c with req := some (q, some (nowNs s)) }) s else s
    | _, _ => s

end Sys2Proof.Machine
end

