-- ==== Sys2Proof/Machine/Egress.lean ====
section
/-! DEFINITION. Egress: shapers and the calendar wheel, time gates, the scheduler, and the reading of
the clock-crossing FIFOs (R306 to R323). -/

namespace Sys2Proof.Machine

/-! ### Shapers (R316 to R319) -/

def getShaper (s : State) (k : Nat) : Shaper := mapGetD Shaper.reset k s.net.shapers
def setShaper (k : Nat) (h : Shaper) (s : State) : State :=
  { s with net := { s.net with shapers := mapSetD Shaper.reset k h s.net.shapers } }

/-- A signed 7-bit OVERHEAD: −32 to +63 bytes. -/
def overheadOf (v : Nat) : Int := if 64 ≤ v then (v : Int) - 128 else v

def applyShaperCfg (h : Shaper) : Shaper :=
  match h.cfg with
  | none => h
  | some v => { h with rate := bits v 23 0, overhead := overheadOf (bits v 30 24), burst := bits v 55 32, en := bit v 31, cfg := none }

/-- The refill and evaluation of R318, and the time at which an ineligible shaper is next eligible. -/
def processShaper (h : Shaper) (ns : Nat) : Shaper × Option Nat :=
  let num := h.rate * (ns - h.last) * 65536 + h.frac
  let h := { h with tokens := min ((h.burst : Int) * 65536) (h.tokens + (num / 8000 : Nat)), frac := num % 8000, last := ns }
  let h := applyShaperCfg h
  let h := if h.en then h else { h with tokens := (h.burst : Int) * 65536 }
  if 0 ≤ h.tokens then ({ h with eligible := true }, none)
  else
    let need := (-h.tokens).toNat * 8000
    ({ h with eligible := false }, some (ns + (need + h.rate * 65536 - 1) / max 1 (h.rate * 65536)))

/-- Process a shaper now; an ineligible one enters the wheel, at most 4,095 slots ahead (R317). -/
def runShaper (k : Nat) (s : State) : State :=
  let ns := nowNs s
  let (h, due) := processShaper (getShaper s k) ns
  let s := setShaper k h s
  match due with
  | none => s
  | some t =>
    let slot := min (t / 64) (ns / 64 + 4095)
    { s with net := { s.net with wheel := insertBy (fun a b => decide (a.1 < b.1)) (slot, k) (s.net.wheel.filter (fun w => w.2 != k)) } }

/-- Charge a frame to a shaper (R316). -/
def chargeShaper (k len : Nat) (s : State) : State :=
  let h := getShaper s k
  runShaper k (setShaper k { h with tokens := h.tokens - ((len : Int) + h.overhead) * 65536 } s)

/-- SHAPER_WHEEL_SLOT: a die's wheel processes at most 64 entries whose slot has come, once each 64 ns,
in order of slot and entry (R317, R319). -/
def execShaperWheelSlot (d : NDie) (s : State) : Res :=
  let slot := nowNs s / 64
  if mapGet (dieIx d) s.net.wheelAt == some slot then .next s
  else
    let due := ((s.net.wheel.filter (fun w => w.1 ≤ slot && w.2 / 4096 == dieIx d)).take 64).map (·.2)
    let s := { s with net := { s.net with
      wheel := s.net.wheel.filter (fun w => !due.contains w.2), wheelAt := mapSet (dieIx d) slot s.net.wheelAt } }
    .next (due.foldl (fun s k => runShaper k s) s)

/-- A write of EGS_SHAPER_CFG of shaper n sets cfg_pending (R318); a field given an unlisted value keeps
its value (R7). -/
def writeShaper (d : NDie) (n v : Nat) (s : State) : State :=
  let k := 4096 * dieIx d + n
  let h := getShaper s k
  let old := regQ s (dieOff d 0x851008) n
  let oh := bits v 30 24
  let v := if 64 ≤ oh && oh < 96 then setBits v 30 24 (bits old 30 24) else v
  let v := if bits v 55 32 < 64 then setBits v 55 32 (bits old 55 32) else v
  let r := bits v 23 0
  let v := if bit v 31 && (r == 0 || 16000000 < r) then setBits v 23 0 (bits old 23 0) else v
  let v := v % 2 ^ 56
  setShaper k { h with cfg := some v } (setRegQ (dieOff d 0x851008) n v s)

/-- SHAPER_CONFIG: a write of EGS_SHAPER_CFG of the port's selected shaper. -/
def execShaperConfig (p : HPort) (d : NDie) (value : W64) (s : State) : Res :=
  if !barUp s then .next s else
  if !holdsSem s p then .next (discardRws p (dieOff d 0x851008) s)
  else .next (writeShaper d (regF s (dieOff d 0x851000) (portIx p) 11 0) value.toNat s)

/-! ### Time gates (R320 to R322) -/

def gateOff (g o : Nat) : Nat := pp g (0x852000 + 0x20 * (g % 8) + o)

def cycleNs (l : GateList) : Nat := (l.entries.map (·.2)).foldl (· + ·) 0

/-- The entry that holds at a time inside the cycle, and the time until its end. -/
def entryAt : List (Nat × Nat) → Nat → Option (Nat × Nat)
  | [], _ => none
  | (gates, len) :: rest, t => if t < len then some (gates, len - t) else entryAt rest (t - len)

/-- The gates at a GT, in units of 2^-32 ns, and how long they hold; a list without a cycle opens
every gate (DEDUCED, log 22). -/
def gatesAt (l : GateList) (t : Nat) : Option (Nat × Nat) :=
  let c := nsT (cycleNs l)
  if c == 0 then none
  else
    let off := (((t : Int) - (nsT l.base : Int)) % (c : Int)).toNat
    entryAt (l.entries.map (fun e => (e.1, nsT e.2))) off

/-- The list in force at a time, and how long it stays in force. -/
def listAt (x : EPort) (t : Nat) : Option GateList × Option Nat :=
  match x.change with
  | some (at_, l) => if nsT at_ ≤ t then (some l, none) else (x.oper, some (nsT at_ - t))
  | none => (x.oper, none)

/-- How long, up to `want`, queue `q`'s gate stays open from `t` on, by the schedule as it will run. -/
def openFor (x : EPort) (q : Nat) : Nat → Nat → Nat → Nat
  | 0, _, _ => 0
  | fuel + 1, t, want =>
    if want == 0 then 0
    else
      let (l, left) := listAt x t
      let seg := match l.bind (fun l => gatesAt l t) with
        | none => some want
        | some (g, n) => if bit g q then some n else none
      match seg with
      | none => 0
      | some n =>
        let n := min (min n want) (left.getD want)
        if n == 0 then 0 else n + openFor x q fuel (t + n) (want - n)

def gateEn (s : State) (g : Nat) : Bool := regF s (gateOff g 0) 0 0 0 == 1

/-- Whether a queue's gate is open at a time. -/
def gateOpen (x : EPort) (q t : Nat) : Bool :=
  match (listAt x t).1.bind (fun l => gatesAt l t) with
  | some (g, _) => bit g q
  | none => true

/-- The longest continuous opening of a queue in a list, none when it never closes (R321). -/
def longestOpening (l : GateList) (q : Nat) : Option Nat :=
  if l.entries.all (fun e => bit e.1 q) then none
  else
    some ((l.entries ++ l.entries).foldl (fun (a : Nat × Nat) e =>
      let cur := if bit e.1 q then a.2 + e.2 else 0
      (max a.1 cur, cur)) (0, 0)).1

/-- The administrative list of a port, as its registers hold it. -/
def adminList (s : State) (g : Nat) : GateList :=
  { base := regQ s (gateOff g 8) 0
    entries := (List.range (regF s (gateOff g 0) 0 10 2)).map (fun i =>
      let w := regQ s (pp g (0x854000 + 0x800 * (g % 8) + 8 * i)) 0
      (bits w 15 0, bits w 47 16)) }

/-- The first start of a list's own cycle at or after a GT_NS. -/
def firstStart (l : GateList) (ns : Nat) : Nat :=
  let c := cycleNs l
  if ns ≤ l.base || c == 0 then l.base else l.base + (ns - l.base + c - 1) / c * c

/-- GATE_APPLY (R322); discarded while a change is pending. -/
def execGateApply (p : HPort) (port : LaneId) (s : State) : Res :=
  if !barUp s then .next s else
  let g := port.val
  if !holdsSem s p then .next (discardRws p (gateOff g 0) s)
  else
    let x := getEPort s g
    if x.change.isSome then .next s
    else
      let l := adminList s g
      let t := firstStart l (max (regQ s (gateOff g 0x10) 0) ((now s + 2 ^ 32 - 1) / 2 ^ 32))
      .next (setEPort g { x with change := some (t, l) } s)

/-- GATE_LIST_CHANGE: the pending list becomes operational at its edge (R322). -/
def execGateListChange (port : LaneId) (s : State) : Res :=
  let g := port.val
  let x := getEPort s g
  match x.change with
  | some (t, l) => if nsT t ≤ now s then .next (setEPort g { x with oper := some l, change := none } s) else .next s
  | none => .next s

/-! ### The scheduler (R314, R320, R321) -/

/-- The occupancy of a frame in ns (R314). -/
def occupancyNs (len rate : Nat) : Nat := ((len + 20) * 8 + rate - 1) / max 1 rate

def queueShaper (s : State) (g q : Nat) : Option Nat :=
  let w := queueCfg s g q
  if bit w 23 then some (4096 * dieIx (laneDie g) + bits w 22 11) else none
def portShaper (s : State) (g : Nat) : Option Nat :=
  let w := regW s (pp g (0x850800 + 4 * (g % 8))) 0
  if bit w 12 then some (4096 * dieIx (laneDie g) + bits w 11 0) else none

/-- The shaper of group frames (R372). -/
def groupShaper (s : State) (g : Nat) : Option Nat :=
  let v := cfgField s 0x15 0
  if bit v 16 then some (4096 * dieIx (laneDie g) + bits v 15 4) else none

def itemShapers (s : State) (g q : Nat) (it : QItem) : List Nat :=
  ((queueShaper s g q).toList ++ (portShaper s g).toList ++ (if it.group then (groupShaper s g).toList else [])).eraseDups

/-- Drop head frames longer than their queue's longest opening (R321). -/
def dropOversize (g q : Nat) : List QItem → State → State
  | [], s => s
  | it :: rest, s =>
    let occ := occupancyNs (frameLen s it.frame) (portRate s g)
    let big := gateEn s g && (((getEPort s g).oper.bind (fun l => longestOpening l q)).map (fun n => decide (n < occ))).getD false
    if big then
      let s := incCnt (cntQueue g q 5) (dropFrame it.frame (setQueue g q rest s))
      let s := match it.entry with
        | some k => freeEntry k s
        | none => s
      dropOversize g q rest s
    else s

/-- Whether a queue's head may start now; a wait inside an opening is counted once (R320). -/
def headReady (g q : Nat) (s : State) : Bool × State :=
  match getQueue s g q with
  | [] => (false, s)
  | it :: rest =>
    if !(itemShapers s g q it).all (fun k => (getShaper s k).eligible) then (false, s)
    else if !gateEn s g then (true, s)
    else
      let x := getEPort s g
      let t := now s
      let occ := nsT (occupancyNs (frameLen s it.frame) (portRate s g))
      let n := openFor x q 600 t occ
      if n == occ then (true, s)
      else if gateOpen x q t && it.deferred != some (t + n) then
        (false, incCnt (cntQueue g q 4) (setQueue g q ({ it with deferred := some (t + n) } :: rest) s))
      else (false, s)

/-- Deficit round robin among queues of one priority, in ascending number after the last visited
(R314): the queue chosen and the deficits. -/
def drr (len quantum : Nat → Nat) (ready : List Nat) : Nat → Nat → List (Nat × Nat) → Option (Nat × List (Nat × Nat))
  | 0, _, _ => none
  | fuel + 1, cur, df =>
    if ready.contains cur && len cur ≤ mapGetD 0 cur df then some (cur, mapSetD 0 cur (mapGetD 0 cur df - len cur) df)
    else
      match (ready.filter (fun q => decide (cur < q)) ++ ready).head? with
      | none => none
      | some q => drr len quantum ready fuel q (mapSetD 0 q (mapGetD 0 q df + quantum q) df)

/-- The queue to serve, with the port's deficits and turns. -/
def chooseQueue (s : State) (g : Nat) (ready : List Nat) : Option (Nat × EPort) :=
  let prio (q : Nat) : Nat := bits (queueCfg s g q) 2 0
  let top := (ready.map prio).foldl max 0
  let x := getEPort s g
  let len (q : Nat) : Nat := ((getQueue s g q).head?.map (fun it => frameLen s it.frame)).getD 0
  match drr len (fun q => 64 * bits (queueCfg s g q) 10 3) (ready.filter (fun q => prio q == top)) 4000 (mapGetD 16 top x.turn) x.deficit with
  | some (q, df) => some (q, { x with deficit := df, turn := mapSet top q x.turn })
  | none => none

/-- A heartbeat's T_TX is the GT_NS at which its transmission starts (R34, R377; DEDUCED, log 103). -/
def stampTx (i : Nat) (s : State) : State :=
  match getFrame s i with
  | none => s
  | some f =>
    match f.grp with
    | some (h, .heartbeat _ b c al re ho dr lo ha hb tg) =>
      let t : W64 := BitVec.ofNat 64 (nowNs s)
      let bs := (f.bytes.take 46 ++ toLE 8 (nowNs s) ++ f.bytes.drop 54).take (f.bytes.length - 4)
      let f := { f with bytes := bs ++ fcsOf bs, grp := some (h, .heartbeat t b c al re ho dr lo ha hb tg) }
      { s with net := { s.net with frames := mapSet i f s.net.frames } }
    | _ => s

/-- EGRESS_SELECT: a free port starts the frame that the scheduler picks (R314, R316, R320). -/
def execEgressSelect (port : LaneId) (s : State) : Res :=
  let g := port.val
  let x := getEPort s g
  if !portUp s g || x.pause || x.sending.isSome || now s < x.endAt then .next s
  else
    let s := (List.range 16).foldl (fun s q => dropOversize g q (getQueue s g q) s) s
    let (ready, s) := (List.range 16).foldl (fun (a : List Nat × State) q =>
      let (r, s) := headReady g q a.2
      (if r then a.1 ++ [q] else a.1, s)) ([], s)
    match chooseQueue s g ready with
    | none => .next s
    | some (q, x) =>
      match getQueue s g q with
      | [] => .next s
      | it :: rest =>
        let len := frameLen s it.frame
        let x := { x with
          queues := mapSetD [] q rest x.queues, sending := some (it, q),
          endAt := now s + nsT (occupancyNs len (portRate s g)),
          deficit := if rest.isEmpty then mapDel q x.deficit else x.deficit }
        let ks := itemShapers s g q it
        let s := ks.foldl (fun s k => chargeShaper k len s) (setEPort g x s)
        .next (ptpSent (frameBytes s it.frame) (stampTx it.frame s))

/-! ### Reading the FIFOs (R308 to R312) -/

/-- The FIFO that a port has selected: its capacity, and how it is read and written. -/
inductive FifoSel where
  | learn (d : NDie)
  | miss
  | punt (d : NDie) (q : Nat)
  deriving DecidableEq, Repr

def fifoSel (s : State) (p : HPort) (d : NDie) : Option FifoSel :=
  match regF s (dieOff d 0x860000) (portIx p) 3 0 with
  | 0 => some (.learn d)
  | 1 => if d == NDie.n0 then some .miss else none
  | n => if n < 10 then some (.punt d (n - 2)) else none

def selCap : FifoSel → Nat
  | .punt _ _ => puntCap
  | _ => 4096

def selGet (s : State) : FifoSel → Fifo
  | .learn d => (famGet NetTables.empty s.tbl.net (dieIx d)).learnFifo
  | .miss => s.tbl.missFifo
  | .punt d q => getPunt s d q

def selSet (f : Fifo) (s : State) : FifoSel → State
  | .learn d =>
    let x := famGet NetTables.empty s.tbl.net (dieIx d)
    { s with tbl := { s.tbl with net := famSet s.tbl.net (dieIx d) { x with learnFifo := f } } }
  | .miss => { s with tbl := { s.tbl with missFifo := f } }
  | .punt d q => setPunt d q f s

/-- FIFO_POP: a read of PP_FIFO_CTRL. An empty FIFO gives VALID = 0; a word that fails its parity is
delivered with POISON (R308, R309). The control field is kept as the word read. -/
def execFifoPop (p : HPort) (d : NDie) (parityBad : Bool) (s : State) : Res :=
  if !barUp s then .next s else
  let o := dieOff d 0x860000
  let i := portIx p
  match fifoSel s p d with
  | none => .next (setRegW (o + 4) i 0 s)
  | some sel =>
    match fifoPop (selCap sel) (selGet s sel) with
    | (none, _) => .next (setRegW (o + 4) i 0 s)
    | (some w, f) =>
      let s := selSet f s sel
      let s := setRegW (o + 4) i (if parityBad then w.ctl.toNat ||| 2 else w.ctl.toNat) s
      .next ((List.range 4).foldl (fun s n => setRegW (o + 8 + 4 * n) i (w.data.toNat / 2 ^ (32 * n)) s) s)

/-- The words after the punted frame that is being read: its words end with EOP. -/
def dropFrameRest : List FifoWord → List FifoWord
  | [] => []
  | w :: rest =>
    if bit w.ctl.toNat 2 || bit w.ctl.toNat 3 then w :: rest
    else if bit w.ctl.toNat 4 then rest else dropFrameRest rest

/-- DROP_REST (R312). -/
def execDropRest (p : HPort) (d : NDie) (s : State) : Res :=
  if !barUp s then .next s else
  match fifoSel s p d with
  | some (.punt e q) =>
    let f := getPunt s e q
    .next (setPunt e q (fifoSettle puntCap { f with words := dropFrameRest f.words }) s)
  | _ => .next s

end Sys2Proof.Machine
end

