-- ==== Sys2Proof/Machine/Faults.lean ====
section
/-! DEFINITION. The canopy: reports and their merging, the root's windows and windthrows, keepalives and
losses, fences by software, relaunches, and the handover (R390 to R413). -/

namespace Sys2Proof.Machine

def modCanopy (f : Canopy → Canopy) (s : State) : State := { s with canopy := f s.canopy }

/-- A record that the root writes for an action of its own (R413). -/
def rootRecord (code : Nat) (suspect : UnitCode) (value : Nat) (s : State) : State :=
  let (sub, s) := stampSub ucPackage s
  let r : Report :=
    { code := BitVec.ofNat 16 code, suspect := suspect, alt := 0, reporter := ucPackage, gtNs := BitVec.ofNat 64 (nowNs s), sub := sub,
      stretched := false, layer := 0, op := 0, value := BitVec.ofNat 32 value, count := 1, reporters := 1 }
  faultRecord r (FaultAct.plain (actOfCode code)) s

/-! ### Handover (R387, R410 to R412) -/

/-- Cores out of service: fenced ones, and those of fenced clusters. -/
def coreDown (s : State) (c : Nat) : Bool := !coreActive s c || !clusterActive s (c / 8)
def fencedCores (s : State) : Nat := ((List.range 256).filter (coreDown s)).length
def fencedClusters (s : State) : Nat := ((List.range 32).filter (fun k => !clusterActive s k)).length

/-- The conditions of R410. -/
def handoverCond (s : State) : Bool :=
  decide (regF s 0x300004 0 6 0 < fencedCores s) || s.dsm.st == 4 ||
    (List.range 6).any (fun d => !unitActive s (unitCode 4 d)) || (List.range 15).any (fun l => !unitActive s (ucFelt l))

/-- The READY holder with the lower ID. -/
def readyHolder (s : State) : Option Nat :=
  s.grp.holders.find? (fun i => ((getPeer s i).map (fun p => p.st == 2)).getD false)

/-- What a handover does by the device's role (R412). -/
def handoverByRole (s : State) : State :=
  let shed (s : State) : State := { s with adm := { s.adm with shedAll := true } }
  if !unitActive s (ucNet .n0) then s
  else match s.grp.role with
    | 0 => shed s
    | 1 => match readyHolder s with
      | some i => handoverTo i s
      | none => shed s
    | 2 => sendLeave (dropShares s)
    | _ => s

/-- Evaluate the handover conditions at an edge (R410, R411). -/
def evalHandover (s : State) : State :=
  if s.canopy.handedOver || !handoverCond s then s
  else handoverByRole (modCanopy (fun c => { c with handedOver := true }) (rootRecord 0x55 ucPackage 0 s))

/-- HANDOVER_CLEAR: refused while a condition of R410 still holds (R412). -/
def execHandoverClear (_ : HPort) (s : State) : Res :=
  if !barUp s then .next s else
  if handoverCond s then .next s
  else .next { modCanopy (fun c => { c with handedOver := false }) s with adm := { s.adm with shedAll := false } }

/-! ### Losses (R396, R399) -/

def unitLost (s : State) (u : UnitCode) : Bool := (unitRec s u).st == 2

/-- UNIT_LOST, reported by the package. -/
def reportLost (u : UnitCode) (s : State) : State := report 0x33 u 0 ucPackage 0 0 0 (setUnit u 2 0x33 s)

/-- A die spine is lost: its stacks are lost and its clusters fenced. -/
def loseSpine (d : CDie) (s : State) : State :=
  if unitLost s (ucSpine d) then s
  else
    let s := reportLost (ucSpine d) s
    let s := (List.finRange 16).foldl (fun s t => if t.val / 4 == d.val then declareLost t false 0x33 s else s) s
    (List.range' (8 * d.val) 8).foldl (fun s k => fenceCluster k 0x33 s) s

/-- Free tracker entries without answers. -/
def freeEntries (ks : List Nat) (s : State) : State := ks.foldl (fun s k => freeEntry k s) s

/-- A network die's uncore is lost: its lanes and host port are down and its tracker half is lost. With N0
the admission unit and the group engine are lost with what they hold. -/
def loseNet (d : NDie) (s : State) : State :=
  if unitLost s (ucNet d) then s
  else
    let s := reportLost (ucNet d) s
    let lanes := List.range' (8 * dieIx d) 8
    let s := lanes.foldl (fun s l => modLane l (fun x => { x with st := 0, lost := true }) (portDown l 0 s)) s
    let s := resetPort (match d with | .n0 => .h0 | .n1 => .h1) .linkLoss s
    let s := freeEntries ((s.rqt.filter (fun p => rqtDie p.1 == d)).map (·.1)) s
    if d == .n1 then s
    else
      let open_ := ((s.reams.filter (fun r => !r.sealed_)).map (·.reqs)).flatten
      let s := freeEntries (s.adm.offers ++ s.adm.carried ++ open_) s
      { s with reams := s.reams.filter (fun r => r.sealed_) }

/-- A Felt link is lost: it is reported and counts for the handover. What becomes of units that still need it is open, and the model
lets them pass (DESIGN CHOICE, log 105). -/
def loseFelt (l : Nat) (s : State) : State := if unitLost s (ucFelt l) then s else reportLost (ucFelt l) s

/-- FELT_LINK_LOST: three failed retrainings in succession (R396). -/
def execFeltLinkLost (link : Fin 15) (s : State) : Res := .next (evalHandover (loseFelt link.val s))

/-- STACK_LOST (R197). -/
def execStackLost (st : StackId) (s : State) : Res := .next (evalHandover (declareLost st false 0x21 s))

/-- STACK_RETIRE: DSM_RETIRE.GO (R197). -/
def execStackRetire (p : HPort) (s : State) : Res :=
  if !barUp s then .next s else
  if !holdsSem s p then .next (discardRws p 0xE00010 s)
  else .next (evalHandover (declareLost (stackFin (regF s 0xE00010 0 3 0)) true 0x21 s))

/-! ### Reports at the nodes (R393 to R395) -/

/-- Merge windows that a node holds. -/
def nodeCap (u : UnitCode) : Nat :=
  match ucClass u with
  | 2 => 16
  | 3 => 32
  | 4 => if ucIndex u < 4 then 128 else 64
  | _ => 256

def sameFault (a b : Report) : Bool := a.code == b.code && a.suspect == b.suspect && a.alt == b.alt

/-- The fault ID of a node's overflow window; the root stands on N0. -/
def overflowOf (node : UnitCode) (r : Report) : Report := { r with code := 0x56, suspect := node, alt := 0 }

def winReporters (w : CanWindow) : Nat := w.reporters.length + w.moreReporters

/-- Merge a report into a window: a reporter counts once. -/
def mergeReport (w : CanWindow) (r : Report) : CanWindow :=
  { w with
    count := w.count + r.count
    reporters := if w.reporters.contains r.reporter then w.reporters else w.reporters ++ [r.reporter]
    moreReporters := w.moreReporters + (r.reporters - 1) }

/-! ### The root (R397 to R399) -/

/-- The units that a report names. -/
def namedUnits (r : Report) : List UnitCode := if r.alt == 0 || r.alt == r.suspect then [r.suspect] else [r.suspect, r.alt]

/-- The units named together with a window's unit. -/
def windowGroup (w : RootWin) : List UnitCode := w.unit :: (w.reports.map (fun p => namedUnits p.1)).flatten

/-- A windthrow in force holds reports that name its unit or one named together with it. -/
def heldByWindthrow (s : State) (r : Report) : Bool :=
  s.canopy.roots.any (fun w => w.windthrow && (namedUnits r).any (fun u => (windowGroup w).contains u))

/-- A windthrow covers the reports of its window in the windows of the other units that they name (R398, R399). -/
def coverWindow (w : RootWin) (v : RootWin) : RootWin :=
  if v.unit == w.unit then v
  else { v with reports := v.reports.map (fun p => if w.reports.any (fun q => q.1 == p.1) then (p.1, true) else p) }

/-- Note a report in the window of a unit that it names; the 64th within the window declares a windthrow. -/
def noteNamed (r : Report) (u : UnitCode) (s : State) : State :=
  let w := (s.canopy.roots.find? (fun w => w.unit == u)).getD
    { unit := u, endsAt := now s + usT 4, count := 0, windthrow := false, reports := [] }
  let hit := !w.windthrow && decide (64 ≤ w.count + r.count)
  let w := { w with count := w.count + r.count, windthrow := w.windthrow || hit, reports := w.reports ++ [(r, false)] }
  let s := modCanopy (fun c => { c with roots := c.roots.filter (fun v => v.unit != u) ++ [w] }) s
  if hit then setSticky 0x300000 0 20 (incCnt (cntFlt 2) (modCanopy (fun c => { c with roots := c.roots.map (coverWindow w) }) s)) else s

/-- A held report is covered in the windows of its units, and joins the windthrow that holds it. -/
def coverReport (r : Report) (s : State) : State :=
  modCanopy (fun c => { c with roots := c.roots.map (fun w =>
    if (namedUnits r).contains w.unit then { w with reports := w.reports.map (fun p => if p.1 == r then (p.1, true) else p) }
    else if w.windthrow && (namedUnits r).any (fun u => (windowGroup w).contains u) then { w with reports := w.reports ++ [(r, true)] }
    else w) }) s

/-- A report passes a node: on to the parent, or from the root's table into the log. -/
def passOn (node : UnitCode) (r : Report) (s : State) : State :=
  if node == ucPackage then
    (if heldByWindthrow s r then s else faultRecord r (FaultAct.plain (actOfCode r.code.toNat)) s)
  else modCanopy (fun c => { c with transit := c.transit ++ [(parentNode node, r)] }) s

/-- A window ends: with more than its first report, the node forwards one count record. -/
def endWindow (w : CanWindow) (s : State) : State :=
  let s := modCanopy (fun c => { c with windows := c.windows.filter (fun v => v != w) }) s
  if w.first.count < w.count then passOn w.node { w.first with count := w.count, reporters := winReporters w } s else s

/-- Forward or merge a report at a node (R394, R395). A report that arrives exactly at a window's end opens
a new one. -/
def mergeAt (node : UnitCode) (r : Report) (s : State) : State :=
  let due := s.canopy.windows.filter (fun w =>
    w.node == node && (sameFault w.first r || sameFault w.first (overflowOf node r)) && decide (w.endsAt ≤ now s))
  let s := due.foldl (fun s w => endWindow w s) s
  let mine := s.canopy.windows.filter (fun w => w.node == node)
  let put (r : Report) (s : State) : State :=
    match s.canopy.windows.find? (fun w => w.node == node && sameFault w.first r) with
    | some w => modCanopy (fun c => { c with windows := c.windows.map (fun v => if v == w then mergeReport w r else v) }) s
    | none =>
      let w : CanWindow :=
        { node := node, first := r, endsAt := now s + usT 4, count := r.count, reporters := [r.reporter], moreReporters := r.reporters - 1 }
      passOn node r (modCanopy (fun c => { c with windows := c.windows ++ [w] }) s)
  let known := mine.any (fun w => sameFault w.first r)
  let tables := (mine.filter (fun w => !(w.first.code == 0x56 && w.first.suspect == node))).length
  if !known && nodeCap node ≤ tables then put (overflowOf node r) (setSticky 0x300000 0 21 s) else put r s

/-- Cluster SRAM reads that failed their retry, seen at the node that hears of them first (R401). -/
def noteSram (node : UnitCode) (r : Report) (s : State) : State :=
  if r.code == 0x10 && ucClass r.suspect == 3 && node == reportNode r.reporter then
    let k := ucIndex r.suspect
    let w := nowNs s / 1000000000
    let (w0, n0) := mapGetD (w, 0) k s.canopy.sram
    modCanopy (fun c => { c with sram := mapSet k (w, if w0 == w then n0 + r.count else r.count) c.sram }) s
  else s

/-- The cluster's failed reads exceed 16 within the window of 1 s. -/
def sramOver (s : State) (k : Nat) : Bool :=
  match mapGet k s.canopy.sram with
  | some (w, n) => w == nowNs s / 1000000000 && decide (16 < n)
  | none => false

/-! ### The root's action (R398, R399) -/

/-- The firebreaks of R389 by unit class, smallest first; classes that it does not list come before them. -/
def firebreakRank (u : UnitCode) : Nat :=
  match ucClass u with
  | 1 => 1
  | 2 => 2
  | 3 => 3
  | 4 => 4
  | 5 => 5
  | 8 => 6
  | 9 => 7
  | 0 => 8
  | _ => 0

/-- Distinct reporters that name a unit: those seen, and the further ones that count records carry. -/
def reportersOf (rs : List Report) (u : UnitCode) : Nat :=
  let mine := rs.filter (fun r => (namedUnits r).contains u)
  ((mine.map (·.reporter)).eraseDups).length + (mine.map (fun r => r.reporters - 1)).foldl (· + ·) 0

/-- The order in which a windthrow ranks units: more reporters, the larger firebreak, the lower code. -/
def ranksBefore (rs : List Report) (a b : UnitCode) : Bool :=
  let (x, y) := (reportersOf rs a, reportersOf rs b)
  let (f, g) := (firebreakRank a, firebreakRank b)
  decide (y < x) || (x == y && (decide (g < f) || (f == g && decide (a.toNat < b.toNat))))

/-- Partners in descending reporter count, then by unit code. -/
def partnersOf (rs : List Report) (us : List UnitCode) (best : UnitCode) : List (UnitCode × Nat) :=
  ((sortBy (fun a b => decide (b.2 < a.2) || (a.2 == b.2 && decide (a.1.toNat < b.1.toNat)))
    ((us.filter (· != best)).map (fun u => (u, reportersOf rs u))))).take 8

/-- The root acts on a suspect by its class. -/
def rootAct (u : UnitCode) (rs : List Report) (windthrow : Bool) (s : State) : State :=
  let i := ucIndex u
  let has (code : W16) : Bool := rs.any (fun r => r.code == code)
  match ucClass u with
  | 3 =>
    if 32 ≤ i then s
    else if windthrow || has 0x32 || sramOver s i then fenceCluster i ((rs.head?.map (fun (r : Report) => r.code.toNat)).getD 0) s else s
  | 5 => if i < 16 && has 0x22 then declareLost (stackFin i) false 0x22 s else s
  | 4 =>
    if !windthrow then s
    else if h : i < 4 then loseSpine ⟨i, h⟩ s
    else if i == 4 then loseNet .n0 s
    else if i == 5 then loseNet .n1 s
    else s
  | 7 => if windthrow && i < 15 then loseFelt i s else s
  | _ => s

/-- The root window of a unit ends (R397 to R399). -/
def endRoot (w : RootWin) (s : State) : State :=
  let s := modCanopy (fun c => { c with roots := c.roots.filter (fun v => v.unit != w.unit) }) s
  if w.windthrow then
    let rs := w.reports.map (·.1)
    let us := ((rs.map namedUnits).flatten).eraseDups
    let best := (sortBy (ranksBefore rs) us).headD w.unit
    match rs.head? with
    | none => s
    | some f =>
      let held := rs.filter (fun r => (namedUnits r).contains best)
      let act := match ucClass best with
        | 3 => 4
        | 5 => if held.any (fun r => r.code == 0x22) then 6 else 0
        | _ => 0
      let rec_ := { f with suspect := best, alt := 0, count := w.count, reporters := reportersOf rs best }
      let s := faultRecord rec_ { act := act, windthrow := true, partners := partnersOf rs us best } s
      evalHandover (rootAct best held true s)
  else
    let rs := ((w.reports.filter (fun p => !p.2 && p.1.suspect == w.unit)).map (·.1))
    if rs.isEmpty then s else evalHandover (rootAct w.unit rs false s)

/-- ROOT_ACTION: the root window of a unit has ended. -/
def execRootAction (unit : UnitCode) (s : State) : Res :=
  match s.canopy.roots.find? (fun w => w.unit == unit && decide (w.endsAt ≤ now s)) with
  | some w => .next (endRoot w s)
  | none => .next s

/-- A report arrives at the root: it is counted for the units it names; unless a windthrow holds it, it is
merged or recorded. -/
def rootReceive (r : Report) (s : State) : State :=
  let s := (s.canopy.roots.filter (fun w => decide (w.endsAt ≤ now s))).foldl (fun s w => endRoot w s) s
  let s := incCnt (cntFlt 0) s
  let s := (namedUnits r).foldl (fun s u => noteNamed r u s) s
  if heldByWindthrow s r then coverReport r s else mergeAt ucPackage r s

/-- The die from which a report reaches the root over Felt; the root's own die is 4. -/
def reportDie (r : Report) : Nat :=
  let u := reportNode r.reporter
  match ucClass u with
  | 2 => ucIndex u / 64
  | 3 => ucIndex u / 8
  | 4 => ucIndex u
  | _ => 4

/-- An earlier report from the same die is on its way to the root: Felt keeps the order within a class (R14). -/
def behind (node : UnitCode) (r : Report) (s : State) : Bool :=
  let before := s.canopy.transit.takeWhile (fun t => !(t.1 == node && t.2 == r))
  node == ucPackage && reportDie r != 4 && decide (before.length < s.canopy.transit.length) &&
    before.any (fun t => t.1 == node && reportDie t.2 == reportDie r)

/-- CANOPY_REPORT: a report arrives at a node, behind those sent before it over the same link (R14). -/
def execCanopyReport (node : UnitCode) (r : Report) (s : State) : Res :=
  if behind node r s then .next s else
  let s := match takeFirst (fun t => t.1 == node && t.2 == r) s.canopy.transit with
    | some (_, rest) => modCanopy (fun c => { c with transit := rest }) s
    | none => s
  let s := noteSram node r s
  .next (if node == ucPackage then rootReceive r s else mergeAt node r s)

/-- MERGE_WINDOW_END. -/
def execMergeWindowEnd (node : UnitCode) (code : W16) (suspect alt : UnitCode) (s : State) : Res :=
  let mine (w : CanWindow) : Bool :=
    w.node == node && w.first.code == code && w.first.suspect == suspect && w.first.alt == alt && decide (w.endsAt ≤ now s)
  match s.canopy.windows.find? mine with
  | some w => .next (endWindow w s)
  | none => .next s

/-- MEM_TIMEOUT: a device-memory read has waited 20 µs; the alternative is the spine that owns the stack. -/
def execMemTimeout (reporter : UnitCode) (st : StackId) (layer op : W16) (s : State) : Res :=
  .next (report 0x22 (ucStack st) (ucSpine (dieOfStack st)) reporter layer op 0 s)

/-! ### Keepalives (R396) -/

/-- The nodes below the root: cores, clusters, spines and network-die nodes. -/
def canopyNodes : List Nat :=
  (List.range 256).map (fun c => 0x2000 + c) ++ (List.range 32).map (fun k => 0x3000 + k) ++ (List.range 6).map (fun d => 0x4000 + d)

/-- KEEPALIVE_SEND: every node that is not silent sends its parent a keepalive. -/
def execKeepaliveSend (silent : List UnitCode) (s : State) : Res :=
  let quiet (u : Nat) : Bool := silent.any (fun v => v.toNat == u)
  let sent (u : Nat) : Option (Nat × Nat) := if quiet u then (mapGet u s.canopy.keepalive).map (fun t => (u, t)) else some (u, now s)
  .next (modCanopy (fun c => { c with keepalive := canopyNodes.filterMap sent }) s)

/-- No keepalive of a node for 30 µs. -/
def nodeSilent (s : State) (u : UnitCode) : Bool := decide (mapGetD 0 u.toNat s.canopy.keepalive + usT 30 ≤ now s)

/-- NODE_LOST. -/
def execNodeLost (unit : UnitCode) (s : State) : Res :=
  let i := ucIndex unit
  if !canopyNodes.contains unit.toNat || !nodeSilent s unit then .next s
  else
    let s := match ucClass unit with
      | 2 => if h : i < 256 then fenceCore ⟨i, h⟩ 0x33 s else s
      | 3 => fenceCluster i 0x33 s
      | _ => if h : i < 4 then loseSpine ⟨i, h⟩ s else if i == 4 then loseNet .n0 s else loseNet .n1 s
    .next (evalHandover s)

/-! ### Fences by software (R406) -/

def fenceUnit (s : State) : UnitCode := BitVec.ofNat 16 (regF s 0x300008 0 15 0)
def fenceStatus (st : Nat) (s : State) : State := setRegF 0x300008 0 31 24 st s

/-- FLT_FENCE_CMD names an engine, a core or a cluster. -/
def fenceable (u : UnitCode) : Bool :=
  let i := ucIndex u
  match ucClass u with
  | 1 => i < 1024
  | 2 => i < 256
  | 3 => i < 32
  | _ => false

/-- FENCE_CMD. -/
def execFenceCmd (p : HPort) (s : State) : Res :=
  if !barUp s then .next s else
  let u := fenceUnit s
  let i := ucIndex u
  if !holdsSem s p then .next (discardRws p 0x300008 s)
  else if !fenceable u then .next (fenceStatus stFormat s)
  else
    let s := match ucClass u with
      | 1 => if h : i < 1024 then fenceEngine ⟨i / 4, by omega⟩ ⟨i % 4, by omega⟩ 0x50 s else s
      | 2 => if h : i < 256 then fenceCore ⟨i, h⟩ 0x50 s else s
      | _ => fenceCluster i 0x50 s
    .next (evalHandover (fenceStatus stOk s))

/-- A unit fenced for loss of its canopy node, whose keepalives have not resumed; a lost spine's never do. -/
def unfenceRefused (s : State) (u : UnitCode) : Bool :=
  let i := ucIndex u
  let die := match ucClass u with
    | 1 => i / 256
    | 2 => i / 64
    | _ => i / 8
  (unitRec s u).cause == 0x33 && (nodeSilent s u || unitLost s (unitCode 4 die))

/-- UNFENCE_CMD. -/
def execUnfenceCmd (p : HPort) (s : State) : Res :=
  if !barUp s then .next s else
  let u := fenceUnit s
  if !holdsSem s p then .next (discardRws p 0x300008 s)
  else if !fenceable u || unfenceRefused s u then .next (fenceStatus stFormat s)
  else
    let n := if reamWindow s == 0 then 0 else windowOf s (nowNs s) + 1
    .next (fenceStatus stOk (modCanopy (fun c => { c with unfence := c.unfence ++ [(u, n)] }) s))

/-- A core or cluster that was fenced was OFF: it is asleep when it returns, without what a sleep loses (R416, R417). -/
def coldUnit (u : UnitCode) (s : State) : State :=
  let cold (n : Nat) (s : State) : State := loseMemory n (putDom n { getDom s n with st := 2, want := false, gtNs := nowNs s, since := now s } s)
  match ucClass u with
  | 2 => cold (domCore (ucIndex u)) s
  | 3 => (List.range' (8 * ucIndex u) 8).foldl (fun s c => cold (domCore c) s) (cold (domCluster (ucIndex u)) s)
  | _ => s

/-- UNFENCE_APPLY: the ream window named has begun. -/
def execUnfenceApply (s : State) : Res :=
  let due (x : UnitCode × Nat) : Bool := decide (x.2 ≤ windowOf s (nowNs s))
  let us := s.canopy.unfence.filter due
  let s := modCanopy (fun c => { c with unfence := c.unfence.filter (fun x => !due x) }) s
  .next (us.foldl (fun s x => if (unitRec s x.1).st == 1 then coldUnit x.1 (unfenceUnit x.1 s) else s) s)

/-! ### Relaunch (R404, R408) -/

/-- A ream that waits to relaunch is off the list, with a KV_REBUILD record for each layer whose entries it
rebuilds first; they stay invalid until the rebuild has ended (R408). -/
def takeRelaunch (seq : W32) (s : State) : State :=
  let kv := s.canopy.kvInvalid.filter (fun p => p.1 == seq)
  let s := modCanopy (fun c => { c with relaunch := c.relaunch.filter (· != seq) }) s
  kv.foldl (fun s _ => rootRecord 0x53 ucPackage seq.toNat (incCnt (cntFlt 6) s)) s

/-- The logical cores that rebuild a ream's invalid KV entries (R408). -/
def rebuildCores (s : State) (seq : W32) (im : Image) : List CoreId :=
  ((im.layers.filter (fun l => s.canopy.kvInvalid.contains (seq, l.layer))).map (·.rebuild)).flatten.eraseDups

/-- Launch an abandoned ream anew with the same number; without a launch entry its requests are carried (R40). -/
def restartReam (r : Ream) (s : State) : State :=
  let seq := r.seq
  let launch := nowNs s + launchLead s
  let s := retestReqs seq launch [cntFlt 7] s
  let live := r.reqs.filter (fun k => ((getReq s k).map (fun q => q.st != 6)).getD false)
  match slotImage s r.slot with
  | none => { s with reams := s.reams.filter (fun m => m.seq != seq) }
  | some im =>
    if live.isEmpty then { s with reams := s.reams.filter (fun m => m.seq != seq) }
    else
      let mine := (r.shares.filter (fun x => x.2.1 == 0)).map (·.1)
      let cores := progsOf im seq mine
      let rebuild := rebuildCores s seq im
      let s := dropLaunch (nsT r.launchNs) r.entries s
      match allocLaunch (launchDies s r im (rebuild ++ cores)) launch s with
      | none => carryReam seq s
      | some (es, s) =>
      let r' := { r with
        reqs := live, launched := false, launchNs := launch, entries := es, jobs := [], cores := cores, rebuild := rebuild,
        started := [], occupied := [] }
      let s := { s with reams := s.reams.map (fun m => if m.seq == seq then r' else m) }
      let s := issueJobs r' im mine s
      let s := cores.foldl (fun s l => markCtx r' l s) s
      rootRecord 0x51 ucPackage seq.toNat (incCnt (cntFlt 4) s)

/-- REAM_RELAUNCH: every unit is idle for the ream. A worker abandons its share and says so. -/
def execReamRelaunch (ream : W32) (s : State) : Res :=
  if !s.canopy.relaunch.contains ream then .next s
  else
    let s := takeRelaunch ream (abandonReam ream s)
    match reamOf s ream with
    | none => .next s
    | some r =>
      match r.share with
      | some (_, n) =>
        let s := dropLaunch (nsT r.launchNs) r.entries { s with reams := s.reams.filter (fun m => m.seq != ream) }
        let s := modCanopy (fun c => { c with kvInvalid := c.kvInvalid.filter (fun p => p.1 != ream) }) s
        .next (endOfShares (refuseShare ream n stBusy s))
      | none => if r.launched then .next (restartReam r s) else .next (r.cores.foldl (fun s l => markCtx r l s) s)

end Sys2Proof.Machine
end

