-- ==== Sys2Proof/Machine/Registers.lean ====
section
/-! DEFINITION. BAR0: which values a field lists, writes by access code, and reads (R5 to R7, R54, R124,
R294, R331, R334 to R337, R413, R424). -/

namespace Sys2Proof.Machine

/-! ### Listed values (R7) -/

/-- Fields that list a range of values: register line, low bit, least and greatest value. -/
def fieldRanges : List (Nat × Nat × Nat × Nat) := [
  (0x010008, 0, 4, 16), (0x010808, 0, 4, 16), (0x100000, 0, 0, 4), (0x100034, 0, 1, 999), (0x200004, 0, 1, 255),
  (0x200004, 8, 1, 255), (0x200008, 0, 1, 65535), (0x200010, 0, 400, 1400), (0x200014, 0, 10, 100),
  (0x200018, 0, 70, 110), (0x200040, 0, 0, 336), (0x300004, 0, 1, 64), (0x400018, 0, 12, 24),
  (0x400050, 0, 0, 19711), (0x400080, 0, 0, 19711), (0x500000, 0, 1, 65535), (0x600030, 0, 0, 2), (0x600030, 16, 100, 65535),
  (0x608004, 0, 0, 2), (0x608060, 0, 0, 4), (0x800000, 0, 0, 4), (0x800000, 3, 0, 4), (0x800040, 24, 1518, 9216),
  (0x810100, 32, 0, 6)] ++ [
  (0x82000C, 0, 1, 65535), (0x820000, 11, 0, 1048576), (0x830000, 8, 1, 65535), (0x840000, 8, 1, 65535),
  (0x840100, 0, 1, 65535), (0x840200, 0, 1, 65535), (0x850000, 32, 0, 32768), (0x850400, 3, 1, 255),
  (0x850400, 32, 1, 98304), (0x851008, 32, 64, 16777215), (0x852000, 2, 1, 256), (0x853008, 48, 0, 2), (0x853008, 50, 0, 2),
  (0x854000, 16, 64, 1000000000), (0x860000, 0, 0, 9), (0x880000, 0, 0, 4), (0x880040, 0, 1, 65535),
  (0x880044, 0, 1, 65535), (0x880080, 0, 0, 2), (0xC00000, 0, 0, 4), (0xE00004, 0, 16, 4096),
  (0xE0000C, 0, 1, 65535), (0xE00014, 0, 1, 168)]

/-- A feature source that R291 lists. -/
def featListed (v : Nat) : Bool := v < 7 || (8 ≤ v && v ≤ 0x14) || (0x20 ≤ v && v ≤ 0x3F)

/-- An indirection entry that R287 lists. -/
def indirListed (v : Nat) : Bool :=
  match v / 16384 with
  | 0 => true
  | 3 => v % 16384 ≤ 1023
  | _ => v % 16384 ≤ 15

def offDie (off : Nat) : NDie := if 0xA00000 ≤ off && off < 0xC00000 then .n1 else .n0

/-- A unit code that R391 lists. -/
def unitListed (v : Nat) : Bool :=
  decide (v % 4096 < ([1, 1024, 256, 32, 6, 16, 64, 15, 16, 16, 2, 8, 1024] : List Nat).getD (v / 4096) 0)

/-- Whether a field lists a value (R7). -/
def listed (d : NDie) (base lo v : Nat) : Bool :=
  (match fieldRanges.find? (fun x => x.1 == base && x.2.1 == lo) with
   | some x => decide (x.2.2.1 ≤ v) && decide (v ≤ x.2.2.2)
   | none => true) &&
    (if base == 0x820010 then featListed v
     else if base == 0x300008 && lo == 0 then fenceable (BitVec.ofNat 16 v)
     else if base == 0x300010 then unitListed v
     else if base == 0x810400 || base == 0x810408 then v % 8 < 4
     else if base == 0x818000 then indirListed v
     else if base == 0x851008 && lo == 24 then !(64 ≤ v && v < 96)
     else if base == 0x860000 then v != 1 || d == .n0
     else true)

/-! ### Setting fields (R5, R6) -/

/-- Replace the bits of an n-bit field that a mask selects. -/
def mergeBits (old v m n : Nat) : Nat := (old &&& (m ^^^ (2 ^ n - 1))) ||| (v &&& m)

/-- The register's value after a write of the masked bits reaches one field. -/
def putField (d : NDie) (sem : Bool) (base mask v w : Nat) (f : RegField) : Nat :=
  let n := f.hi + 1 - f.lo
  let m := bits mask f.hi f.lo
  let old := bits w f.hi f.lo
  let x := mergeBits old (bits v f.hi f.lo) m n
  if m == 0 then w
  else match f.acc with
    | .rw => if listed d base f.lo x then setBits w f.hi f.lo x else w
    | .rws => if sem && listed d base f.lo x then setBits w f.hi f.lo x else w
    | .w1c => setBits w f.hi f.lo (old &&& (bits v f.hi f.lo &&& m ^^^ (2 ^ n - 1)))
    | _ => w

/-- The index under which a register is held: the port's or engine's own, the selected one, or 0. -/
def regIx (s : State) (who off : Nat) (r : RegRow) : Nat :=
  if r.priv then who
  else match r.sel with
    | some x => regW s (if r.net then dieOff (offDie off) x else x) who
    | none => 0

def regVal (s : State) (r : RegRow) (o ix : Nat) : Nat := if r.width == 64 then regQ s o ix else regW s o ix
def setRegVal (r : RegRow) (o ix v : Nat) (s : State) : State := if r.width == 64 then setRegQ o ix v s else setRegW o ix v s

/-- The pipelines that a port feeds (R261). -/
def portPipes (s : State) (g : Nat) : List Nat := (List.range 8).filter (fun i => (pipePorts s i).contains g)

/-- PP_PORT_CFG.EN changes: enabling wakes the port's lanes and pipelines and lets lost lanes rejoin; a
pipeline sleeps when every port that feeds it is disabled (R420, R476). -/
def portEnChanged (g : Nat) (en : Bool) (s : State) : State :=
  if !isPort s g then s
  else if en then
    let s := enableLanes g s
    let s := (portLanes s g).foldl (fun s l => beginWake (domLane l) 1 s) s
    (portPipes s g).foldl (fun s i => beginWake (domPipe i) 1 s) s
  else
    (portPipes s g).foldl (fun s i =>
      if (pipePorts s i).all (fun j => !portEn s j) && domState s (domPipe i) == 4 then setDom (domPipe i) 1 s else s) s

/-- What a register's new value does beyond being held. -/
def regHook (r : RegRow) (o old new : Nat) (s : State) : State :=
  if r.base == 0x800040 then
    let d := offDie o
    let g := 8 * dieIx d + (o - dieOff d 0x800040) / 16
    if bit old 38 == bit new 38 then s else portEnChanged g (bit new 38) s
  -- EN = 0 holds PPS_OUT low (R37)
  else if r.base == 0x100034 then
    if bit new 10 then s else modTime (fun t => { t with ppsOut := false }) s
  else if r.base == 0x400000 then
    if !bit old 0 && bit new 0 then { s with tport := { s.tport with drainOff := false }, trace := s.trace.map (fun t => (t.1, { t.2 with needSync := true })) } else s
  else s

/-- While trace runs, DEST and the drain registers other than RI take no write (R455). -/
def drainHeld (s : State) (base : Nat) : Bool := bit (regW s 0x400000 0) 0 && [0x400010, 0x400018, 0x400020].contains base
/-- While a port's list change is pending, its administrative list takes no write: entries, BASE_GT and ADMIN_LEN (R322). -/
def gateHeld (s : State) (r : RegRow) (o : Nat) : Bool :=
  [0x852000, 0x852008, 0x854000].contains r.base &&
    (getEPort s (8 * dieIx (offDie o) + (lineOff o - r.base) / r.s1)).change.isSome
def openMask (s : State) (base mask : Nat) : Nat :=
  if base == 0x400000 && bit (regW s 0x400000 0) 0 then setBits mask 1 1 0 else mask

/-- Write the masked bits of the register at `o` under an index; `sem` says that RWS fields are open to the
writer. -/
def applyAt (sem : Bool) (ix o : Nat) (r : RegRow) (mask v : Nat) (s : State) : State :=
  if r.base == 0x100018 then if sem && s.time.source == 0 then modTime (fun t => { t with adj := clampAdj v }) s else s
  else if drainHeld s r.base || (gateHeld s r o && r.base != 0x852000) then s
  else if r.base == 0x84000C then
    match activeSlot s with
    | some sl => if sem then { s with adm := { s.adm with est := mapSet (65536 * sl.val + ix) (v % 2 ^ 24) s.adm.est } } else s
    | none => s
  else
    let old := regVal s r o ix
    let new := r.fields.foldl (putField (offDie o) sem r.base (openMask s r.base (if gateHeld s r o then setBits mask 10 2 0 else mask)) v) old
    regHook r o old new (setRegVal r o ix new s)

/-- The same as port or engine `who`. -/
def applyReg (sem : Bool) (who o : Nat) (r : RegRow) (mask v : Nat) (s : State) : State :=
  applyAt sem (regIx s who o r) o r mask v s

/-! ### Staged halves (R272, R294) -/

/-- Where a half that waits for its register's last word is held. -/
def stageIx (ix : Nat) : Nat := 1048576 + ix
def staged (s : State) (off ix : Nat) : Option Nat := mapGet (regKey off (stageIx ix)) s.regs
def setStaged (off ix v : Nat) (s : State) : State := { s with regs := mapSet (regKey off (stageIx ix)) v s.regs }
def dropStaged (off ix : Nat) (s : State) : State := { s with regs := mapDel (regKey off (stageIx ix)) s.regs }

/-- A local address takes effect with its last word (R272). -/
def commitLocalIp (o : Nat) (s : State) : State :=
  (List.range 4).foldl (fun s n =>
    let a := o - 16 + 4 * n
    match staged s a 0 with
    | some v => dropStaged a 0 (setRegW a 0 v s)
    | none => s) s

/-! ### REGISTER_WRITE (R5, R331, R336) -/

def rwsWritten (r : RegRow) (mask : Nat) : Bool := r.fields.any (fun f => f.acc == .rws && bits mask f.hi f.lo != 0)

/-- The write has a row of its own in the command table. -/
def ownRow (base z : Nat) : Bool :=
  [0x000100, 0x000830, 0x100000, 0x400028, 0x608068, 0x800000, 0x8100D0, 0x851008, 0x890018].contains base ||
    (base == 0x853010 && z == 4)

/-- Writes to a port's set are discarded while its command is busy, those to the drain registers while trace runs
(R245, R294, R363, R455). -/
def setBusy (s : State) (p : HPort) (base : Nat) : Bool :=
  (0xC00000 ≤ base && base < 0xC00020 && tblBusy s p) ||
    drainHeld s base ||
    (0x800 ≤ base && base < 0x830 && s.host.protPending.any (fun c => c.port == p))

/-- A ring register's mask after R337: nothing from the other port, and BASE, SIZE_LOG2, CQ and WINDOW only
while EN = 0. A write that enables a ring, or disables a submission ring, is a command of its own. -/
def ringMask (s : State) (p : HPort) (r : RegRow) (o mask v : Nat) : Nat :=
  let cfg := if o % 32 < 8 then o + 8 else o
  let en := bit (regW s cfg 0) 5
  if (o - 0x10000) / 0x10000 != portIx p then 0
  else if r.base == 0x010000 || r.base == 0x010800 then if en then 0 else mask
  else if bit v 5 != en then (if en && r.base == 0x010808 then mask &&& 0xFFFFFFE0 else 0)
  else if en then (if r.base == 0x010008 then mask &&& 0x1C0000 else mask &&& 0xFFFFFFC0)
  else mask

/-- A write of the masked bits of the register at `o`, as `off` names them. -/
def writeReg (p : HPort) (off o z : Nat) (r : RegRow) (mask v : Nat) (s : State) : State :=
  let sem := holdsSem s p
  let who := portIx p
  let s := if !sem && rwsWritten r mask && !ownRow r.base z then discardRws p off s else s
  if [0x8100D0, 0x890018].contains r.base && v / (if r.base == 0x8100D0 then 2 ^ 15 else 2 ^ 17) % 4 == 0 then applyReg sem who o r mask v s
  else if ownRow r.base z then
    -- the low half of EGS_SHAPER_CFG takes effect with SHAPER_CONFIG
    if r.base == 0x851008 && !sem then discardRws p off s else s
  else if setBusy s p r.base || (gateHeld s r o && r.base != 0x852000) then s
  else if 0x10000 ≤ o && o < 0x30000 then applyReg sem who o r (ringMask s p r o mask v) v s
  else if r.base == 0x800100 then if sem then setStaged o 0 (v % 2 ^ 32) s else s
  else if r.base == 0x800110 then if sem then applyReg sem who o r mask v (commitLocalIp o s) else s
  else if r.width == 64 && rwsWritten r (2 ^ 64 - 1) && r.base != 0x853010 && mask != 2 ^ 64 - 1 then
    let ix := regIx s who o r
    if !sem then s
    else if z == 0 then setStaged o ix (v % 2 ^ 32) s
    else
      let lo := (staged s o ix).getD (regW s o ix)
      applyReg sem who o r (2 ^ 64 - 1) (v / 2 ^ 32 * 2 ^ 32 + lo) (dropStaged o ix s)
  else applyReg sem who o r mask v s

/-- A 4-byte write; one to an offset that no register occupies is discarded. -/
def write4 (p : HPort) (off v : Nat) (s : State) : State :=
  let n := normOff off
  if !barOpen s off then s
  else match regFind (lineOff n) with
  | none => s
  | some (r, z) =>
    if z == 4 then writeReg p off (n - z) z r (2 ^ 64 - 2 ^ 32) (v * 2 ^ 32) s
    else writeReg p off (n - z) z r (2 ^ 32 - 1) v s

/-- An 8-byte write: one write of a 64-bit register, else of two words. -/
def write8 (p : HPort) (off v : Nat) (s : State) : State :=
  let n := normOff off
  match regFind (lineOff n) with
  | some (r, 0) =>
    if r.width == 64 && !ownRow r.base 4 && barOpen s off then writeReg p off n 0 r (2 ^ 64 - 1) v s
    else write4 p (off + 4) (v / 2 ^ 32) (write4 p off (v % 2 ^ 32) s)
  | _ => write4 p (off + 4) (v / 2 ^ 32) (write4 p off (v % 2 ^ 32) s)

/-- REGISTER_WRITE: an aligned 4-byte or 8-byte write of BAR0 (R331). -/
def execRegisterWrite (p : HPort) (off : BitVec 24) (size8 : Bool) (value : W64) (s : State) : Res :=
  let o := off.toNat
  if size8 then .next (if o % 8 == 0 then write8 p o value.toNat s else s)
  else .next (if o % 4 == 0 then write4 p o (value.toNat % 2 ^ 32) s else s)

/-! ### What registers read -/

def unsign (n : Nat) (i : Int) : Nat := unsignedOf n i
def flagMask (l : List Bool) : Nat := (l.zip (List.range l.length)).foldl (fun a p => a + b2n p.1 * 2 ^ p.2) 0

/-- The staging words of a protection window (R362, R363). -/
def protWord (w : ProtWin) (n : Nat) : Nat :=
  match n with
  | 0 => w.pl + 16 * w.ops + 2 ^ 16 * w.tableLo + 2 ^ 24 * w.tableHi
  | 1 => w.base0
  | 2 => w.limit0
  | 3 => w.base1
  | _ => w.limit1

def readHif (s : State) (p : HPort) (r : RegRow) (o k held : Nat) : Nat :=
  let b := r.base
  let m := s.host.sem
  if b == 0x100 then
    match m.owner with
    | some q => if now s < m.leaseEnd then 1 + portIx q + (if q == p then m.token * 65536 else 0) else 0
    | none => 0
  else if b == 0x104 then
    (if m.owner.isSome then min 10000 ((m.leaseEnd - now s) / usT 1) else 0) + m.expiries * 2 ^ 14
  else if b == 0x208 then cntGet s (cntDiscard (portIx p))
  else if b == 0x400 then
    s.host.cfg.gen % 2 ^ 32 + s.host.cfg.applied * 2 ^ 32 + flagMask ((List.range 16).map (fun n => (mapGet n s.host.cfg.stored).isSome)) * 2 ^ 48
  else if b == 0x500 then (getSlot s k).st + min (getSlot s k).bound 1048575 * 8
  else if b == 0x504 then slotTgen s (if k == 0 then 0 else 1)
  else if b == 0x508 then leNat ((getSlot s k).hash.take 8)
  else if b == 0x600 then s.host.protGen % 2 ^ 32
  else if b == 0x708 then protWord (mapGetD ProtWin.closed (regW s 0x700 (portIx p)) s.host.prot) k
  else if b == 0x830 then held + 128 * b2n (s.host.protPending.any (fun c => c.port == p))
  else if 0x10000 ≤ b then
    let q : HPort := if (o - 0x10000) / 0x10000 == 0 then .h0 else .h1
    let i := (o % 0x10000) % 0x800 / 0x20
    if b == 0x01000C then (getSq s q i).st + 256 * (getSq s q i).err + 65536 * (getSq s q i).head
    else if b == 0x010010 then (getSq s q i).pi
    else if b == 0x01080C then (getCq s q i).tail + 65536 * (getCq s q i).reserved
    else held
  else held

def readGt (s : State) (p : HPort) (b held : Nat) : Nat :=
  let t := s.time
  if b == 0x100000 then t.source + 16
  else if b == 0x100004 then held + b2n t.locked + 2 * b2n t.aligned + 4 * b2n t.holdover + 32 * t.source
  else if b == 0x100008 then nowNs s % 2 ^ 32
  else if b == 0x10000C then mapGetD 0 0x10000C (getPort s p).shadow
  else if b == 0x100010 then mapGetD 0 0x100010 (getPort s p).shadow
  else if b == 0x100018 then unsign 32 t.adj
  else if b == 0x100030 then unsign 32 t.offset
  else if b == 0x100080 then cntGet s cntLate
  else if b == 0x100088 then cntGet s cntPast
  else held

/-- The domain is held awake by R22 or PWR_HOLD_AWAKE. -/
def domHeld (s : State) (n : Nat) : Bool :=
  if n < 256 then heldAwake s (n / 8) else if n < 288 then heldAwake s (n - 256) else false

def readPwr (s : State) (p : HPort) (b k held : Nat) : Nat :=
  let n := regW s 0x200040 (portIx p)
  if b == 0x200000 then held + b2n s.pwr.qclk + 2 * b2n s.stretch.cap + 4 * b2n (!s.stretch.thermal.isEmpty)
  else if b == 0x200020 then min s.pwr.watts 2047 + 65536 * min s.pwr.peak 2047
  else if b == 0x200028 then leNat (s.pwr.temps.toList.map (BitVec.ofNat 8))
  else if b == 0x200044 then domState s n + 8 * b2n (domHeld s n) + 256 * (getDom s n).wakes
  else if b == 0x200048 then (getDom s n).gtNs
  else if b == 0x200100 then cntGet s (cntPwr k)
  else held

/-- MAPPED_TO of a unit: where its logical work is (R402). -/
def mappedTo (s : State) (u : UnitCode) : Nat :=
  match ucClass u with
  | 2 => logicalCorePhys s (8 * logicalClusterPhys s (ucIndex u / 8) + ucIndex u % 8)
  | 3 => logicalClusterPhys s (ucIndex u)
  | _ => ucIndex u

def logRecord (s : State) (n : Nat) : Bytes := mapGetD (List.replicate 64 0) n s.canopy.log

def readFlt (s : State) (p : HPort) (b k held : Nat) : Nat :=
  let u : UnitCode := BitVec.ofNat 16 (regW s 0x300010 (portIx p))
  if b == 0x300000 then
    let st := ((activeSlot s).bind (fun sl => slotImage s sl)).elim 1 (fun im => min 8 (stacking s im))
    setBits held 18 0 0 + fencedCores s + 512 * fencedClusters s + 2 ^ 15 * st + 2 ^ 19 * b2n s.canopy.handedOver
  else if b == 0x300014 then
    let x := unitRec s u
    x.st + 16 * (if x.st == 0 then ucIndex u else mappedTo s u) + 65536 * x.cause.toNat
  else if b == 0x300018 then (unitRec s u).gtNs.toNat
  else if b == 0x300020 then s.canopy.logWritten % 2 ^ 32
  else if b == 0x300040 then
    let bs := if k == 0 then logRecord s (regW s 0x300024 (portIx p)) else (getPort s p).logShadow
    leNat ((bs.drop (4 * k)).take 4)
  else if b == 0x300100 then cntGet s (cntFlt k)
  else held

def readObs (s : State) (p : HPort) (b k held : Nat) : Nat :=
  let i := regW s 0x400080 (portIx p)
  let f := s.freeze
  if b == 0x400060 then b2n (!(snapLocks s).isEmpty) + 256 * f.sources
  else if b == 0x400068 then f.gt / 2 ^ 32
  else if b == 0x400070 then f.seq % 2 ^ 32
  else if b == 0x400088 then if k == 0 then cntGet s i else mapGetD 0 i s.snaps
  else if b == 0x4000A0 then flagMask ((List.range 16).map (fun n => (mapGet n s.host.dumps).isSome))
  else if b == 0x400100 then cntGet s (cntObs k)
  else if b == 0x500004 then held + b2n s.recorder.hold.isSome + 2 * b2n (decide (2047 < s.recorder.written)) + 256 * s.recorder.opened.length
  else if b == 0x500008 then s.recorder.written
  else if b == 0x50000C then evrOldest s
  else if b == 0x500010 then s.recorder.boot
  else held

def readBoot (s : State) (p : HPort) (b k held : Nat) : Nat :=
  let f := s.boot.fuses
  if b == 0x600040 then s.boot.straps.toNat
  else if b == 0x608000 then
    f.counter + 256 * flagMask (f.roots.toList.map (·.revoked)) + 4096 * flagMask (f.roots.toList.map (·.programmed))
  else if b == 0x608014 then
    leNat ((((famGet { hash := [], programmed := false, revoked := false } f.roots (regW s 0x608010 (portIx p))).hash.drop (4 * k)).take 4))
  else if b == 0x608050 then f.serial.toNat
  else if b == 0x608068 then b2n (famGet CustSlot.empty s.boot.cust (regW s 0x608064 (portIx p))).valid
  else if b == 0x608100 then cntGet s (cntSec k)
  else held

def readGrp (s : State) (p : HPort) (b k held : Nat) : Nat :=
  let g := s.grp
  let n := regW s 0x700010 (portIx p)
  let q := mapGet n g.peers
  if b == 0x700000 then
    held + g.role + 4 * (if g.role == 2 then g.id else 0) + 2 ^ 12 * b2n g.holder + 2 ^ 13 * b2n (!g.degraded.isEmpty) +
      2 ^ 15 * b2n g.timeAhead + 2 ^ 16 * (if isManager s then g.peers.length else 0)
  else if b == 0x700004 then g.epoch.toNat
  else if b == 0x700014 then
    match (if n == 0 then none else q) with
    | none => 0
    | some x =>
      let hit := (activeSlot s).any (fun sl => x.hashA == slotPrefix s sl || x.hashB == slotPrefix s sl)
      x.st + 4 * b2n x.aligned + 8 * b2n (g.holders.contains n) + 16 * x.port.val + 256 * x.load + 65536 * b2n hit
  else if b == 0x700018 then if n == 0 then 0 else ((q.map (·.hbNs)).getD 0)
  else if b == 0x700020 then if isManager s then g.journalled.length else g.held.length
  else if b == 0x700100 then cntGet s (cntGrp k)
  else held

/-- Registers of a network die's packet path. PORT of PP_LANE_STATUS, as FREE of FLW_FREE, reads its reset value 0 until the
firmware runs, which brings up ports and flow table (DEDUCED, log 117). -/
def readNet (s : State) (p : HPort) (d : NDie) (b k held : Nat) : Nat :=
  let w := portIx p
  let first := 8 * dieIx d
  let sel := regW s (dieOff d 0x853100) w
  if b == 0x800010 then
    let l := first + k
    let x := getLane s l
    let g := (portOfLane s l).1
    let n := ((portLanes s g).filter (fun j => (getLane s j).st == 2)).length
    held + x.st + 4 * b2n x.lost + (if s.boot.fwUp then 16 * (g % 8) + 256 * n else 0)
  else if b == 0x800308 then cntGet s (cntPort (first + regW s (dieOff d 0x800300) w) k)
  else if b == 0x800400 then
    let x := getLane s (first + k)
    held + min x.power 4095 + 4096 * b2n (decide (x.power < 100))
  else if b == 0x830004 then rqtInUse s d
  else if b == 0x830100 then cntGet s (cntRqt (dieIx d) k)
  else if b == 0x850000 then setBits held 16 0 (bufCells - cellsUsed s d)
  else if b == 0x852000 then
    let x := getEPort s (first + k)
    held + 2 * b2n x.change.isSome + 2048 * (x.oper.elim 0 (fun l => l.entries.length))
  else if b == 0x853018 then (getMeter s (4096 * dieIx d + regW s (dieOff d 0x853000) w)).counts.getD k 0
  else if b == 0x853108 then cntGet s (cntQueue (first + sel % 8) (sel / 8) k)
  else if b == 0x86001C then
    match fifoSel s p d with
    | some x => (selGet s x).words.length + 2 ^ 14 * b2n (decide (0 < (selGet s x).gap))
    | none => 0
  else if b == 0x8800C0 then mapGetD 0 (first + k) (getNet s d).learned
  else if b == 0x880100 then cntGet s (cntFwd (dieIx d) k)
  else held

/-- Registers of the flow table and admission. -/
def readAdm (s : State) (b k ix held : Nat) : Nat :=
  if b == 0x820000 then setBits held 10 3 ((flowTable s).elim 0 (·.1))
  else if b == 0x820030 then (if s.boot.fwUp then min (hwRecords s - s.flow.used.length) 2097151 else 0)
  else if b == 0x820100 then cntGet s (cntFlw k)
  else if b == 0x84000C then
    match activeSlot s with
    | none => 0
    | some sl => mapGetD (((svcOf s sl (BitVec.ofNat 16 ix)).map (·.estNs)).getD 0) (65536 * sl.val + ix) s.adm.est
  else if b == 0x840100 then setBits held 31 16 (min (cluHeld s k) 65535)
  else if b == 0x840200 then setBits held 31 16 (min (nluHeld s k) 65535)
  else if b == 0x840400 then cntGet s (cntAdm k)
  else held

def readTbl (s : State) (p : HPort) (b k ix held : Nat) : Nat :=
  let t := regW s 0xC00040 (portIx p)
  let x := getTbl s t
  let e := regW s 0xE00200 (portIx p)
  let st := regW s 0xE00020 (portIx p)
  if b == 0xC00044 then
    match x with
    | none => 0
    | some y => y.desc.kind + 16 + 32 * b2n y.pending + 64 * b2n y.retiring + 65536 * min y.queue.length 255
  else if b == 0xC00048 then x.elim 0 (·.gen)
  else if b == 0xC00050 then x.elim 0 (·.occupied)
  else if b == 0xC00058 then x.elim 0 (fun y => y.commitGt / 2 ^ 32)
  else if b == 0xC00100 then cntGet s (cntTable t k)
  else if b == 0xC80004 then
    let sk := ix / 4
    let busy := match mapGet ix s.nlus with
      | some y => !y.fwd.isEmpty || !y.held.isEmpty
      | none => false
    let sub := !stackLost s sk && s.dsm.lost.any (fun l => nextAlive s l == some sk && !(s.dsm.st == 2 && l == s.dsm.firstLost))
    held + (if stackLost s sk then 3 else if domState s (domStack sk) != 4 then 0 else if busy then 2 else 1) + 4 * b2n sub
  else if b == 0xC80100 then cntGet s (cntNlu (regW s 0xC80000 (portIx p)) k)
  else if b == 0xE00000 then
    s.dsm.st + 8 * b2n (s.dsm.st == 0) + 16 * s.dsm.firstLost + 256 * flagMask ((List.range 16).map (stackLost s))
  else if b == 0xE00008 then s.dsm.next % 2 ^ 26
  else if b == 0xE00024 then
    held + (if s.dsm.retired.contains ix then 4 else if stackLost s ix then 3
      else match domState s (domStack ix) with
        | 2 => 1
        | 3 => 2
        | _ => 0)
  else if b == 0xE00100 then cntGet s (cntStack st k)
  else if b == 0xE00208 then
    match mapGet e s.dsm.regions with
    | none => 0
    | some g => g.first + 2 ^ 26 * g.count + 2 ^ 53 * g.kind + 2 ^ 57 * g.slot.val + 2 ^ 58 * b2n g.owned
  else held

def coreFin (n : Nat) : CoreId := ⟨n % 256, by omega⟩

/-- The window of a core. `k` is the register's position in its array. -/
def readCore (s : State) (b k c held : Nat) : Nat :=
  let x := getCore s (coreFin c)
  let ds := domState s (domCore c)
  let fenced := !coreActive s c
  let unit (f : Bool) : Nat := if f then 3 else if ds != 4 then 0 else 1
  let cs (n : Nat) : Nat := match (famGet Ctx.idle x.ctxs n).st with
    | .idle => 0
    | .waitLaunch => 1
    | .running => 2
    | .waitToken => 3
  let e := famGet MEng.idle x.engines k
  let n := 4 * c + k
  if b == 0xF00010 then
    (if fenced then 3 else if ds == 3 then 1 else if ds == 4 then 2 else 0) + 4 * cs 0 + 16 * cs 1 +
      256 * flagMask ((List.range 4).map (fun m => !unitActive s (unitCode 1 (4 * c + m))))
  else if b == 0xF00018 then (famGet Ctx.idle x.ctxs k).lastOp.toNat + 65536 * (famGet Ctx.idle x.ctxs k).lastLayer.toNat
  else if b == 0xF00020 then cntGet s (cntCore c 0)
  else if b == 0xF00100 then
    let st := unit (fenced || !unitActive s (unitCode 1 n))
    held + (if st == 1 && e.reexec.isSome then 2 else st) + 4 * b2n e.deckleStrike + 8 * b2n e.checkStrike +
      256 * e.lastKind.toNat + 2 ^ 16 * e.lastSub.toNat + 2 ^ 22 * b2n e.lastStretched
  else if b == 0xF00108 then cntGet s (cntEngine n 0)
  else if b == 0xF00110 then cntGet s (cntEngine n 1)
  else if b == 0xF00118 then cntGet s (cntEngine n 2)
  else if b == 0xF00120 then cntGet s (cntEngine n 3)
  else if b == 0xF00128 then cntGet s (cntEngine n 4)
  else if b == 0xF00130 then e.lastOp.toNat + 65536 * e.lastLayer.toNat
  else if b == 0xF00138 then e.lastGt.toNat
  else if b == 0xF00400 then held + unit fenced + 4 * b2n x.ve.strike
  else if b == 0xF00408 then cntGet s (cntCore c 1)
  else if b == 0xF00410 then x.ve.flagOp.toNat + 65536 * x.ve.flagLayer.toNat
  else if b == 0xF00414 then x.ve.flagPos.toNat + 65536 * x.ve.flagBit
  else if b == 0xF00418 then cntGet s (cntCore c 2)
  else if b == 0xF00420 then cntGet s (cntCore c 3)
  else if b == 0xF00428 then cntGet s (cntCore c 4)
  else if b == 0xF00430 then cntGet s (cntCore c 5)
  else if b == 0xF00800 then held + unit fenced + 4 * b2n x.te.strike + 8 * b2n (x.te.segs.any (fun g => g.2.flow))
  else if b == 0xF00808 then cntGet s (cntCore c 6)
  else if b == 0xF00810 then cntGet s (cntCore c 7)
  else if b == 0xF00818 then cntGet s (cntCore c 8)
  else if b == 0xF00820 then cntGet s (cntCore c 9)
  else if b == 0xF00828 then cntGet s (cntCore c 10)
  else if b == 0xF00830 then cntGet s (cntCore c 11)
  else if b == 0xF00838 then cntGet s (cntCluster (c / 8) 0)
  else if b == 0xF00840 then segNodes x + 2 ^ 18 * x.te.segs.length
  else if b == 0xF00880 then
    match mapGet k x.te.segs with
    | none => 0
    | some g => g.stand + 256 * g.slot.val + 512 * g.seg + 4096 + 8192 * b2n g.flow + 16384 * g.base
  else held

/-- The stored bits that a read returns: those of readable fields. -/
def heldBits (r : RegRow) (v : Nat) : Nat :=
  r.fields.foldl (fun a f => if f.acc == .wo then a else a + bits v f.hi f.lo * 2 ^ f.lo) 0

/-- A port's HDM decoder (R332). -/
def readHdm (s : State) (p : HPort) (b : Nat) : Nat :=
  let x := getPort s p
  if b == 0xFF1020 then x.hdmBase % 2 ^ 32 / 2 ^ 28 * 2 ^ 28
  else if b == 0xFF1024 then x.hdmBase / 2 ^ 32
  else if b == 0xFF1028 then x.hdmSize % 2 ^ 32 / 2 ^ 28 * 2 ^ 28
  else if b == 0xFF102C then x.hdmSize / 2 ^ 32
  else 2 ^ 10 * b2n (!x.hdmError && x.hdmSize != 0) + 2 ^ 11 * b2n x.hdmError

/-- The value of the register of line `r` at offset `o`, as port `p` reads it. -/
def readReg (s : State) (p : HPort) (r : RegRow) (o : Nat) : Nat :=
  let b := r.base
  let d := offDie o
  let k := if r.s1 == 0 then 0 else (lineOff o - b) / r.s1
  let ix := regIx s (portIx p) o r
  let held := heldBits r (regVal s r o ix)
  if b < 0x100000 then readHif s p r o k held
  else if b < 0x200000 then readGt s p b held
  else if b < 0x300000 then readPwr s p b k held
  else if b < 0x400000 then readFlt s p b k held
  else if b < 0x600000 then readObs s p b k held
  else if b < 0x700000 then readBoot s p b k held
  else if b < 0x800000 then readGrp s p b k held
  else if (0x820000 ≤ b && b < 0x830000) || (0x840000 ≤ b && b < 0x850000) then readAdm s b k ix held
  else if b < 0xC00000 then readNet s p d b k held
  else if b < 0xF00000 then readTbl s p b k ix held
  else if 0xFF0000 ≤ b then readHdm s p b
  else readCore s b k ix held

/-- A 4-byte read of BAR0 without its effects; an offset that no register occupies reads 0 (R331). -/
def readWord (s : State) (p : HPort) (off : Nat) : Nat :=
  let n := normOff off
  if !barOpen s off then 0
  else match regFind (lineOff n) with
  | none => 0
  | some (r, z) => readReg s p r (n - z) / 2 ^ (8 * z) % 2 ^ 32

/-! ### Reads with an effect -/

/-- SHADOW_READ: a 4-byte read of a 64-bit register's low half captures its high half (R124). -/
def execShadowRead (p : HPort) (off : BitVec 24) (s : State) : Res :=
  let n := normOff off.toNat
  match regFind (lineOff n) with
  | some (r, 0) =>
    if r.width == 64 && barOpen s off.toNat then
      .next (modPort p (fun x => { x with shadow := mapSet (n + 4) (readReg s p r n / 2 ^ 32) x.shadow }) s)
    else .next s
  | _ => .next s

/-- What a 4-byte read of a high half returns: the capture of the last read of the low half (R124). Reads have no command that
would end the capture, and it stands for later reads of the high half too (DESIGN CHOICE, log 118). -/
def highHalf (s : State) (p : HPort) (off : Nat) : Nat :=
  match mapGet (normOff off) (getPort s p).shadow with
  | some v => v
  | none => readWord s p off

/-- LOG_WORD_CAPTURE: a read of FLT_LOG_WORD0 captures the selected record (R413). -/
def execLogWordCapture (p : HPort) (s : State) : Res :=
  if !barUp s then .next s else
  .next (modPort p (fun x => { x with logShadow := logRecord s (regW s 0x300024 (portIx p)) }) s)

/-- PEAK_READ: a read of PWR_PACKAGE restarts the peak (R424). -/
def execPeakRead (s : State) : Res :=
  if !barUp s then .next s else
  .next { s with pwr := { s.pwr with peak := 0 } }

end Sys2Proof.Machine
end

