-- ==== Sys2Proof/Machine/HostConfig.lean ====
section
/-! DEFINITION. Table descriptors and regions as loads and BCBs bring them, and the configuration: blocks,
entries, overlays and REPLACE_BCB (R191, R224, R349, R357 to R361, R364 to R367). -/

namespace Sys2Proof.Machine

/-! ### Table descriptors (R222 to R224) -/

/-- The offset of the first field of a descriptor that lists no such value, none when all do. A model image
defines EMBED tables, the BCB the FLOW table. -/
def descBad (flow : Bool) (bs : Bytes) : Option Nat :=
  let d := decodeDesc bs
  let f (o n : Nat) : Nat := leNat ((bs.drop o).take n)
  let w := f 0 4
  let head := if flow then d.kind != 1 || d.fmt != 0 || d.gsize != 0
    else d.kind != 0 || !([3, 5, 6, 7].contains d.fmt) || 2 < d.gsize
  let checks : List (Nat × Bool) := [
    (0, head || d.blog < 10 || 30 < d.blog || d.maxKick < 1 || 64 < d.maxKick || 2 ^ 30 ≤ w),
    (8, d.seed0 == d.seed1),
    (12, 2048 ≤ f 12 4 || (if flow then d.rowLen != 0 else d.rowLen == 0 || 1024 < d.rowLen)),
    (16, d.bucketBase % 4096 != 0), (24, d.rowBase % 4096 != 0),
    (32, d.rowLimit == 0 || 0xFFFFFFFE < d.rowLimit), (36, !flow && d.rowLimit ≤ d.default_),
    (40, !flow && d.agePeriod != 0), (44, (bs.drop 44).any (· != 0))]
  (checks.find? (·.2)).map (·.1)

/-- Bytes of an area at or above the usable capacity. -/
def areaShort (a n : Nat) : Nat := a + n - max a (64 * dpaLines)

/-- An area lies in one region of a kind. -/
def areaIn (regions : List RegionReq) (kind a n : Nat) : Bool :=
  let t0 := lineStripe (a / 64)
  let t1 := lineStripe ((a + n - 1) / 64)
  regions.any (fun r => r.kind == kind && decide (r.first ≤ t0) && decide (t1 < r.first + r.count))

/-- The region table as a list. -/
def heldRegions (s : State) : List RegionReq :=
  s.dsm.regions.map (fun p => { first := p.2.first, count := p.2.count, kind := p.2.kind })

/-- The outcome of R224 for a descriptor: OK, FORMAT with the offset of its field, or CAPACITY_SHORT with
the bytes beyond the capacity. `used` says that its number is in use. -/
def descCheck (flow used : Bool) (regions : List RegionReq) (bs : Bytes) : Nat × Nat :=
  match descBad flow bs with
  | some o => (stFormat, o)
  | none =>
    let d := decodeDesc bs
    if used then (stFormat, 0)
    else
      let short := areaShort d.bucketBase (bucketAreaBytes d) + areaShort d.rowBase (rowAreaBytes d)
      let kind := if flow then 2 else 1
      if !areaIn regions kind d.bucketBase (bucketAreaBytes d) && areaShort d.bucketBase (bucketAreaBytes d) == 0 then (stFormat, 16)
      else if !areaIn regions kind d.rowBase (rowAreaBytes d) && areaShort d.rowBase (rowAreaBytes d) == 0 then (stFormat, 24)
      else if short != 0 then (stCapacity, short)
      else (stOk, 0)

def newTbl (d : TblDesc) (owners : List SlotId) : Tbl :=
  { desc := d, owners := owners, gen := 0, pending := false, commitGt := 0, retiring := false, revisited := false, kick := 0, epoch := 0,
    refs := [], occupied := 0, changed := [], queue := [], staging := none, stagedAt := 0, holds := [], swept := 0, visited := [] }

/-- The DPA lines that the stacks hold bytes or marks of, with their keys. -/
def heldLines (s : State) : List (Nat × Nat) :=
  let keys := ((s.dsm.cells.map (fun (c : Host.Cell) => c.1 / 64)) ++ s.dsm.poison).eraseDups
  keys.filterMap (fun key =>
    let t := key % 2 ^ 32 / 64
    let k := key % 64
    ((List.range 13).find? (fun x => place s t x k == some key)).map (fun x => ((13 * t + x) * 64 + k, key)))

/-- Zero an area of stack memory. -/
def clearArea (a n : Nat) (s : State) : State :=
  ((heldLines s).filter (fun p => decide (a ≤ 64 * p.1) && decide (64 * p.1 < a + n))).foldl (fun s p =>
    setPoisonKey p.2 false (setRaw p.2 zeroLine s)) s

/-! ### Regions (R191) -/

/-- The bytes by which a request list does not fit beside regions already taken: overlaps, stripes beyond
the capacity, and regions that find no entry. -/
def regionShort (taken : List RegionReq) (reqs : List RegionReq) : Nat :=
  let stripe := 13 * 4096
  (reqs.foldl (fun (acc : Nat × List RegionReq) r =>
    if r.count == 0 then acc
    else
      let beyond := (r.first + r.count) - max r.first stripeCount
      let hit := acc.2.foldl (fun a q => a + (min (r.first + r.count) (q.first + q.count) - max r.first q.first)) 0
      let full := if 256 ≤ acc.2.length then r.count else 0
      (acc.1 + (beyond + hit + full) * stripe, acc.2 ++ [r])) (0, taken)).1

/-- P and Q of stripes that become guarded are made to match their data. -/
def guardStripes (first count : Nat) (s : State) : State :=
  ((usedStripes s).filter (fun t => decide (first ≤ t) && decide (t < first + count))).foldl parityStripe s

/-- Add regions at the lowest free entries. -/
def addRegions (reqs : List RegionReq) (slot : SlotId) (owned : Bool) (s : State) : State :=
  reqs.foldl (fun s r =>
    if r.count == 0 then s
    else
      let i := firstGap 0 (s.dsm.regions.map (·.1))
      let g : Region := { first := r.first, count := r.count, kind := r.kind, slot := slot, owned := owned }
      let s := { s with dsm := { s.dsm with regions := mapSet i g s.dsm.regions } }
      if r.kind == 1 then guardStripes r.first r.count s else s) s

def dropRegions (test : Region → Bool) (s : State) : State :=
  { s with dsm := { s.dsm with regions := s.dsm.regions.filter (fun p => !test p.2) } }

/-! ### Blocks (R357 to R360, R367) -/

structure CfgEntry where
  /-- 1 REG32, 2 REG64, 3 FIELD. -/
  kind : Nat
  field : Nat
  off : Nat
  value : Nat
  deriving DecidableEq, Repr

structure CfgBlock where
  number : Nat
  /-- The flow table descriptor, empty for none. -/
  flow : Bytes
  regions : List RegionReq
  entries : List CfgEntry
  deriving DecidableEq, Repr

def CfgBlock.empty : CfgBlock := { number := 0, flow := [], regions := [], entries := [] }

def bNum (bs : Bytes) (off n : Nat) : Nat := leNat ((bs.drop off).take n)

/-- The block's value of a field. -/
def blockField (b : CfgBlock) (id : Nat) : Option Nat :=
  ((b.entries.filter (fun e => e.kind == 3 && e.field == id)).getLast?).map (·.value)

/-- A FIELD's value is listed (R74, R360, R367). -/
def fieldListed (id v : Nat) : Bool :=
  match id with
  | 0x01 => v ≤ 2
  | 0x02 => 1000 ≤ v && v ≤ 1000000
  | 0x03 => v ≤ 512000000
  | 0x04 => v ≤ 3
  | 0x05 => v ≤ 1048576
  | 0x10 => 1 ≤ v && v < 2 ^ 32
  | 0x11 => v < 2 ^ 48 && !bit v 40
  | 0x12 => v < 2 ^ 16
  | 0x13 => v < 2 ^ 53
  | 0x14 => v ≤ 1
  | 0x15 => v < 2 ^ 17
  | 0x16 => v < 2 ^ 8
  | 0x17 => v ≤ 4 && v != 1
  | _ => false

def fieldKnown (id : Nat) : Bool := [1, 2, 3, 4, 5, 0x10, 0x11, 0x12, 0x13, 0x14, 0x15, 0x16, 0x17].contains id
def fieldInOverlay (id : Nat) : Bool := [1, 4, 0x12, 0x14, 0x15, 0x17].contains id

/-- Values whose listing depends on more than one field (R260, R316, R324). -/
def wholeListed (base v : Nat) : Bool :=
  if base == 0x800000 then (bits v 2 0 == 4) == (bits v 5 3 == 4)
  else if base == 0x851008 then !bit v 31 || (1 ≤ bits v 23 0 && bits v 23 0 ≤ 16000000)
  else if base == 0x853008 then bits v 23 0 ≤ bits v 47 24
  else true

/-- What is wrong with a REG entry: 4 for its OFFSET, 8 for its VALUE (R358, R359). -/
def regEntryBad (e : CfgEntry) : Option Nat :=
  let n := normOff e.off
  if e.off < 0x100000 || 0xFF0000 ≤ e.off then some 4
  else match regFind (lineOff n) with
    | some (r, 0) =>
      if r.width != 32 * e.kind || r.fields.any (fun f => f.acc == .wo || f.acc == .w1c) then some 4
      else
        let known := r.fields.foldl (fun m f => m + (2 ^ (f.hi + 1 - f.lo) - 1) * 2 ^ f.lo) 0
        let ok := r.fields.all (fun f => f.acc == .ro || listed (offDie n) r.base f.lo (bits e.value f.hi f.lo))
        if e.value &&& known != e.value || !ok || !wholeListed r.base e.value then some 8 else none
    | _ => some 4

/-- A journal region names a GUARDED device region of its block. -/
def journalBad (regions : List RegionReq) (e : CfgEntry) : Bool :=
  e.kind == 3 && e.field == 0x13 &&
    !(let f := bits e.value 25 0
      let c := bits e.value 52 26
      regions.any (fun r => r.kind == 1 && decide (r.first ≤ f) && decide (f + c ≤ r.first + r.count)))

/-- What is wrong with an entry: the offset in it of the field that fails. -/
def entryBad (overlay : Bool) (regions : List RegionReq) (e : CfgEntry) : Option Nat :=
  if e.kind == 0 || 3 < e.kind then some 0
  else if e.kind == 3 then
    if !fieldKnown e.field || (overlay && !fieldInOverlay e.field) then some 2
    else if e.off != 0 then some 4
    else if !fieldListed e.field e.value || journalBad regions e then some 8
    else none
  else if e.field != 0 then some 2
  else regEntryBad e

def entryAtOff (bs : Bytes) (o : Nat) : CfgEntry :=
  { kind := bNum bs o 2, field := bNum bs (o + 2) 2, off := bNum bs (o + 4) 4, value := bNum bs (o + 8) 8 }

/-- The first of a list of checks that fails. -/
def firstFail (l : List (Nat × Bool)) : Option Nat := (l.find? (·.2)).map (·.1)

/-- A mode name: ASCII, zero-padded. -/
def nameBad (bs : Bytes) : Bool := bs.any (fun b => decide (128 ≤ b.toNat)) || (bs.dropWhile (· != 0)).any (· != 0)

/-- Where a block's entries start, and how many there are. -/
structure BlockPos where
  base : Nat
  count : Nat
  deriving DecidableEq, Repr

/-- Where the value of the first entry for a field stands. -/
def fieldAt (p : BlockPos) (entries : List CfgEntry) (id dflt : Nat) : Nat :=
  (((entries.zip (List.range p.count)).find? (fun q => q.1.kind == 3 && q.1.field == id)).map (fun q => p.base + 16 * q.2 + 8)).getD dflt

def blockPos (overlay : Bool) (bs : Bytes) : BlockPos :=
  { base := if overlay then 64 else 128 + 16 * min (bNum bs 32 4) 64, count := bNum bs 12 4 }

def blockRegion (bs : Bytes) (i : Nat) : RegionReq :=
  let o := 128 + 16 * i
  { first := bNum bs o 4, count := bNum bs (o + 4) 4, kind := bNum bs (o + 8) 1 }

/-- What a block's bytes spell. -/
def spellBlock (overlay : Bool) (bs : Bytes) : CfgBlock :=
  let p := blockPos overlay bs
  let flow := if overlay then [] else (bs.drop 64).take 64
  { number := bNum bs 6 1
    flow := if flow.all (· == 0) then [] else flow
    regions := if overlay then [] else (List.range (min (bNum bs 32 4) 64)).map (blockRegion bs)
    entries := (List.range p.count).map (fun i => entryAtOff bs (p.base + 16 * i)) }

/-- Header fields that fail, with their offsets; `number` is the overlay that the descriptor names. -/
def headFails (overlay : Bool) (number : Option Nat) (len : Nat) (bs : Bytes) : List (Nat × Bool) :=
  let p := blockPos overlay bs
  let no := bNum bs 6 1
  let crc := crc32c (bs.take 60 ++ List.replicate 4 0 ++ bs.drop 64)
  [(0, bNum bs 0 4 != 0x46435A46), (4, bNum bs 4 1 != 1), (5, bNum bs 5 1 != (if overlay then 1 else 0)),
    (6, decide ((if overlay then 15 else 0) < no) || number.any (· != no)), (7, bNum bs 7 1 != 0),
    (8, bNum bs 8 4 != len || len % 16 != 0 || len < p.base), (12, p.base + 16 * p.count != len),
    (16, nameBad ((bs.drop 16).take 16)), (32, (if overlay then 0 else 64) < bNum bs 32 4),
    (36, ((bs.drop 36).take 24).any (· != 0)), (60, bNum bs 60 4 != crc)]

/-- The flow descriptor, regions and entries that fail, with their offsets. An overlay of a reserved mode without a NUMERICS_MODE entry
fails at ENTRY_COUNT. -/
def bodyFails (overlay : Bool) (bs : Bytes) (s : State) : List (Nat × Bool) :=
  let p := blockPos overlay bs
  let b := spellBlock overlay bs
  let flow := if b.flow.isEmpty then [] else ((descBad true b.flow).map (fun o => (64 + o, true))).toList
  let regions := ((b.regions.zip (List.range b.regions.length)).map (fun q =>
    let o := 128 + 16 * q.2
    [(o, decide (2 ^ 26 ≤ q.1.first)), (o + 4, decide (stripeCount < q.1.count)), (o + 8, q.1.kind == 0 || decide (4 < q.1.kind)),
      (o + 9, ((bs.drop (o + 9)).take 7).any (· != 0))])).flatten
  let entries := (b.entries.zip (List.range p.count)).filterMap (fun q =>
    (entryBad overlay b.regions q.1).map (fun o => (p.base + 16 * q.2 + o, true)))
  let win := (blockField b 2).getD (cfgField s 2 0)
  let lead := (blockField b 3).getD (cfgField s 3 0)
  flow ++ regions ++ entries ++
    [(fieldAt p b.entries 3 (fieldAt p b.entries 2 12), !overlay && decide (512 * win < lead)),
     (fieldAt p b.entries 4 12, overlay && decide (b.number < 4) && blockField b 4 != some b.number)]

/-- The least offset of the checks that fail. -/
def leastFail (l : List (Nat × Bool)) : Option Nat :=
  l.foldl (fun m x => if x.2 then some (m.elim x.1 (min x.1)) else m) none

/-- Read a block, or the offset of its first failure (R349, R357). -/
def parseBlock (overlay : Bool) (number : Option Nat) (len : Nat) (bs : Bytes) (s : State) : Except Nat CfgBlock :=
  if len < 64 || (if overlay then 4096 else 65536) < len || bs.length < len then .error 8
  else
    let bs := bs.take len
    let p := blockPos overlay bs
    let body := if p.base + 16 * p.count == len then bodyFails overlay bs s else []
    match leastFail (headFails overlay number len bs ++ body) with
    | some o => .error o
    | none => .ok (spellBlock overlay bs)

/-! ### Writing entries (R359, R361) -/

/-- The configuration engine's index among the holders of private registers. -/
def engineIx : Nat := 2

/-- Install or clear a customer key slot from a writer's staging words (R448). -/
def setCustKey (who slot : Nat) (valid : Bool) (s : State) : State :=
  let hash := ((List.range 12).map (fun n => toLE 4 (regW s (0x608070 + 4 * n) who))).flatten
  let x : CustSlot := if valid then { valid := true, hash := hash } else CustSlot.empty
  { s with boot := { s.boot with cust := famSet s.boot.cust slot x } }

/-- Write a register's effective value under its index. -/
def cfgWrite (n ix : Nat) (r : RegRow) (v : Nat) (s : State) : State :=
  let d := offDie n
  if r.base == 0x100000 then writeSource (bits v 2 0) s
  else if r.base == 0x800000 then writeQuads d v s
  else if r.base == 0x851008 then writeShaper d ix v s
  else if r.base == 0x853010 then writeMeter d ix (v / 2 ^ 32) (setRegW n ix (bits v 23 0) s)
  else if r.base == 0x608068 then setCustKey engineIx ix (bit v 0) s
  else if r.base == 0x800100 then setStaged n 0 v s
  else if r.base == 0x800110 then applyAt true ix n r (2 ^ r.width - 1) v (commitLocalIp n s)
  else applyAt true ix n r (2 ^ r.width - 1) v s

/-- A register's effective value: its offset, index, line and value. -/
structure EffReg where
  off : Nat
  ix : Nat
  row : RegRow
  value : Nat
  deriving DecidableEq, Repr

/-- Collect one entry in block order; the state is the engine's, in which the selectors that entries write are set. Of two values of
one register the later stands, where it stands; the engine's own registers take each in turn. -/
def collectReg (acc : List EffReg × State) (e : CfgEntry) : List EffReg × State :=
  let n := normOff e.off
  match regFind (lineOff n) with
  | some (r, 0) =>
    let x : EffReg := { off := n, ix := regIx acc.2 engineIx n r, row := r, value := e.value }
    if r.priv then (acc.1 ++ [x], applyReg true engineIx n r (2 ^ r.width - 1) e.value acc.2)
    else (acc.1.filter (fun y => !(y.off == n && y.ix == x.ix)) ++ [x], acc.2)
  | _ => acc

def blockOf (overlay : Bool) (bs : Bytes) (s : State) : CfgBlock :=
  match parseBlock overlay none bs.length bs s with
  | .ok b => b
  | .error _ => CfgBlock.empty

/-- The blocks of a configuration: the BCB and its applied overlays in ascending number. -/
def cfgBlocks (c : Cfg) (s : State) : List CfgBlock :=
  ((c.bcb.map (fun b => blockOf false b s)).getD CfgBlock.empty) ::
    ((List.range 16).filter (bit c.applied)).map (fun n => blockOf true (mapGetD [] n c.stored) s)

/-- The fields that a configuration names, with their effective values. -/
def effFields (c : Cfg) (s : State) : List (Nat × Nat) :=
  (((cfgBlocks c s).map (·.entries)).flatten).foldl (fun m e => if e.kind == 3 then mapSet e.field e.value m else m) []

/-! ### Roles (R364 to R366, R385) -/

/-- The change of the configured role acts on the present one. -/
def changeRole (new : Nat) (s : State) : State :=
  match s.grp.role, new with
  | 0, 1 =>
    -- the first manager of a group uses count 1
    let e := if s.grp.epoch.toNat < 2047 then 2047 else s.grp.epoch
    modGrp (fun g => { g with role := 1, epoch := e }) (forgetGroup s)
  | 0, 2 => modGrp (fun g => { g with role := 3, timeAhead := false }) (forgetGroup s)
  | 1, 0 => modGrp (fun g => { g with role := 0 }) (forgetGroup s)
  | 1, 1 => modGrp (fun g => { g with toWorker := false }) s
  | 1, 2 => modGrp (fun g => { g with toWorker := true }) s
  | 2, 0 => beginLeave s
  | 2, 1 => endOfShares (modGrp (fun g => { g with toManager := true }) s)
  | 2, 2 => modGrp (fun g => { g with toLeave := false, toManager := false }) s
  | 3, 0 => standAlone s
  | 3, 1 => promoteSelf true (nextEpoch s 0) s
  | _, _ => s

/-- The change sets ROLE away from manager while a worker is joined (R364). -/
def roleRefused (c : Cfg) (s : State) : Bool :=
  match mapGet 1 (effFields c s) with
  | some v => v != cfgField s 1 0 && v != 1 && s.grp.role == 1 && !(workers s).isEmpty
  | none => false

/-! ### Changes (R361) -/

/-- A ream window that changes at this edge: past windows are sealed under the old one, and window numbers
count in the new one. -/
def changeWindow (new : Nat) (s : State) : State :=
  let old := reamWindow s
  if new == old then s
  else
    let s := windowEnd s
    let s := { s with adm := { s.adm with window := nowNs s / new } }
    modCanopy (fun c => { c with unfence := c.unfence.map (fun u => (u.1, u.2 * old / new)) }) s

/-- Every register and field that the configuration names takes its effective value; the role is left. -/
def takeFields (c : Cfg) (s : State) : State :=
  let fields := effFields c s
  let regs := ((((cfgBlocks c s).map (·.entries)).flatten.filter (fun e => e.kind != 3)).foldl collectReg ([], s)).1
  let s := regs.foldl (fun s x => cfgWrite x.off x.ix x.row x.value s) s
  let s := match mapGet 2 fields with
    | some w => changeWindow w s
    | none => s
  let s := match mapGet 5 fields with
    | some v => setRegF 0x820000 0 31 11 v s
    | none => s
  let s := if mapGet 4 fields == some 0 then { s with liveScales := [], scaleRaises := [] } else s
  let all := fields.foldl (fun m f => mapSet f.1 f.2 m) s.host.cfg.fields
  { s with host := { s.host with cfg := { c with fields := all, gen := s.host.cfg.gen } } }

/-- The same with the configured role, whose change acts on the present one. -/
def takeEffect (c : Cfg) (s : State) : State :=
  let old := cfgField s 1 0
  let t := takeFields c s
  match mapGet 1 (effFields c s) with
  | some v => if v == old then t else changeRole v t
  | none => t

/-- A configuration change has taken effect. -/
def cfgApplied (d : Desc) (s : State) : State :=
  let g := (s.host.cfg.gen + 1) % 2 ^ 32
  let s := { s with host := { s.host with cfg := { s.host.cfg with gen := g } }, boot := { s.boot with cfgDirty := true } }
  let s := hifEvent .h1 3 (hifEvent .h0 3 s)
  complete d stOk g (devEvent 0x1009 ucPackage g s)

/-! ### REPLACE_BCB (R361) -/

/-- A table of a slot lies in a region. -/
def regionHolds (s : State) (r : Region) : Bool :=
  let lo := r.first * 13 * 4096
  let hi := (r.first + r.count) * 13 * 4096
  let meets (a n : Nat) : Bool := decide (a < hi) && decide (lo < a + n)
  s.tbl.tables.any (fun p => p.2.desc.kind == 0 &&
    (meets p.2.desc.bucketBase (bucketAreaBytes p.2.desc) || meets p.2.desc.rowBase (rowAreaBytes p.2.desc)))

/-- The flow table of the present BCB. -/
def bcbFlow (s : State) : Bytes := ((s.host.cfg.bcb.map (fun b => blockOf false b s)).getD CfgBlock.empty).flow

/-- The checks of a new BCB at its edge: OK, or the status and RESULT. -/
def bcbCheck (launch : Nat) (b : CfgBlock) (s : State) : Nat × Nat :=
  let new := (blockField b 2).getD (reamWindow s)
  let old := reamWindow s
  let same (r : Region) : Bool := b.regions.any (fun q => q.first == r.first && q.count == r.count && q.kind == r.kind)
  let removed := (s.dsm.regions.map (·.2)).filter (fun r => !r.owned && !same r)
  let slots := ((s.dsm.regions.map (·.2)).filter (·.owned)).map (fun r => ({ first := r.first, count := r.count, kind := r.kind } : RegionReq))
  let short := regionShort slots b.regions
  let used := s.tbl.tables.any (fun p => p.2.desc.kind == 0 && p.1 == (decodeDesc b.flow).table)
  if new != old && (launch == 0 || launch % new != 0 || launch % max 1 old != 0) then (stFormat, 8)
  else if removed.any (regionHolds s) then (stFormat, 128)
  else if short != 0 then (stCapacity, short)
  else if b.flow.isEmpty then (stOk, 0)
  else
    let c := descCheck true used b.regions b.flow
    if c.1 == stFormat then (stFormat, 64 + c.2) else c

/-- Put a new BCB's regions and flow table in place. -/
def placeBcb (b : CfgBlock) (s : State) : State :=
  let kept (r : Region) : Bool := b.regions.any (fun q => q.first == r.first && q.count == r.count && q.kind == r.kind)
  let changed := bcbFlow s != b.flow
  let s := dropRegions (fun r => !r.owned && !kept r) s
  let have_ := (s.dsm.regions.map (·.2)).filter (fun r => !r.owned)
  let s := addRegions (b.regions.filter (fun q => !have_.any (fun r => q.first == r.first && q.count == r.count && q.kind == r.kind))) 0 false s
  if !changed then s
  else
    let s := match flowTable s with
      | some p => freeTable p.1 s
      | none => s
    let s := { s with flow := { s.flow with used := [] } }
    if b.flow.isEmpty then s
    else
      let d := decodeDesc b.flow
      setTbl d.table (newTbl d []) (clearArea d.bucketBase (bucketAreaBytes d) s)

/-! ### OVERLAY_APPLY (R349, R361) -/

/-- RESULT of a role change that R364 refuses. -/
def roleAt (overlay : Bool) (block : Bytes) (s : State) : Nat :=
  let b := blockOf overlay block s
  let base := if overlay then 64 else 128 + 16 * b.regions.length
  (((b.entries.zip (List.range b.entries.length)).find? (fun p => p.1.kind == 3 && p.1.field == 1)).map
    (fun p => base + 16 * p.2 + 8)).getD 0

/-- One change at its edge. -/
def cfgChange (d : Desc) (k : SchedKind) (s : State) : State :=
  let c := s.host.cfg
  let exp := dNum d 20 4
  if exp != 0xFFFFFFFF && exp != c.gen then completeBare d stStale s
  else match k with
    | .store n block =>
      let c' := { c with stored := mapSet n block c.stored }
      if !bit c.applied n then complete d stOk c.gen { s with host := { s.host with cfg := c' } }
      else if roleRefused c' s then complete d stFormat (roleAt true block s) s
      else cfgApplied d (takeEffect c' s)
    | .applySet mask =>
      let c' := { c with applied := mask }
      if (List.range 16).any (fun n => bit mask n && (mapGet n c.stored).isNone) then complete d stFormat 18 s
      else if roleRefused c' s then complete d stFormat 18 s
      else cfgApplied d (takeEffect c' s)
    | .bcb block =>
      let c' := { c with bcb := some block }
      match parseBlock false none block.length block s with
      | .error o => complete d stFormat o s
      | .ok b =>
        let (st, res) := bcbCheck (dLaunch d) b s
        if st != stOk then complete d st res s
        else if roleRefused c' s then complete d stFormat (roleAt false block s) s
        else cfgApplied d (takeEffect c' (placeBcb b s))
    | _ => s

/-- Hold an item for its launch edge, where LAUNCH_EDGE acts on it in the order of R41, or do it at once when it names none. -/
def schedule (d : Desc) (k : SchedKind) (f : Desc → SchedKind → State → State) (s : State) : State :=
  if d.due == 0 then f d k s
  else { s with host := { s.host with sched := s.host.sched ++ [{ desc := d, kind := k }] } }

def isOverlay (action : Nat) (d : Desc) : Bool := dOp d == 3 && dNum d 16 1 == action

/-- OVERLAY_STORE: `block` is what stands at SRC. -/
def execOverlayStore (block : Bytes) (s : State) : Res :=
  match takeDescAny (isOverlay 0) s with
  | none => .next s
  | some (d, s) =>
    let n := dNum d 17 1
    if 15 < n then .next (complete d stFormat 17 s)
    else match parseBlock true (some n) (dNum d 32 4) block s with
      | .error o => .next (complete d stFormat o s)
      | .ok _ => .next (schedule d (.store n (block.take (dNum d 32 4))) cfgChange s)

/-- OVERLAY_APPLY_SET. -/
def execOverlayApplySet (s : State) : Res :=
  match takeDescAny (isOverlay 1) s with
  | none => .next s
  | some (d, s) => .next (schedule d (.applySet (dNum d 18 2)) cfgChange s)

/-- REPLACE_BCB: `block` is what stands at SRC. -/
def execReplaceBcb (block : Bytes) (s : State) : Res :=
  match takeDescAny (isOverlay 2) s with
  | none => .next s
  | some (d, s) =>
    match parseBlock false none (dNum d 32 4) block s with
    | .error o => .next (complete d stFormat o s)
    | .ok _ => .next (schedule d (.bcb (block.take (dNum d 32 4))) cfgChange s)

end Sys2Proof.Machine
end

