-- ==== Sys2Proof/Machine/ImageCheck.lean ====
section
/-! DEFINITION. The content checks of a model image: layers, partitions, core programs, vector programs,
tokens, stands, stored weights and gather lists (R59, R67, R68, R82, R85, R102, R104, R109 to R113, R129,
R161 to R164, R169, R175, R207, R403, R408, R447). -/

namespace Sys2Proof.Machine

/-! ### Core commands as an image holds them (R109 to R113) -/

def cmdHdr (w : Nat) : CmdHdr :=
  { launchRef := BitVec.ofNat 10 (bits w 15 6), layer := BitVec.ofNat 16 (bits w 31 16), op := BitVec.ofNat 16 (bits w 47 32) }

def mmaFields (w : Nat) : MmaOp :=
  { hdr := cmdHdr w, bank := BitVec.ofNat 2 (bits w 49 48), keep := bit w 50, fin := bit w 51,
    engine := ⟨bits w 53 52 % 4, by omega⟩, wfmt := BitVec.ofNat 4 (bits w 57 54), afmt := BitVec.ofNat 4 (bits w 61 58),
    gsize := BitVec.ofNat 2 (bits w 63 62), wAddr := BitVec.ofNat 15 (bits w 78 64), aAddr := BitVec.ofNat 15 (bits w 93 79),
    kBlocksM1 := BitVec.ofNat 9 (bits w 102 94), mM1 := BitVec.ofNat 7 (bits w 109 103), nM1 := BitVec.ofNat 6 (bits w 115 110),
    seqBase := BitVec.ofNat 4 (bits w 119 116), sideRef := BitVec.ofNat 6 (bits w 125 120), fence := bit w 126 }

def ldtFields (w : Nat) : LdtOp :=
  { hdr := cmdHdr w, space := BitVec.ofNat 2 (bits w 49 48), wtile := bit w 50, tmAddr := BitVec.ofNat 15 (bits w 65 51),
    memAddr := BitVec.ofNat 38 (bits w 103 66), len := BitVec.ofNat 15 (bits w 118 104), nM1 := BitVec.ofNat 6 (bits w 109 104),
    kBlocksM1 := BitVec.ofNat 9 (bits w 118 110), wfmt := BitVec.ofNat 4 (bits w 122 119), gsize := BitVec.ofNat 2 (bits w 124 123) }

def sttFields (w : Nat) : SttOp :=
  { hdr := cmdHdr w, space := BitVec.ofNat 2 (bits w 49 48), fromBank := bit w 50, tmAddr := BitVec.ofNat 15 (bits w 65 51),
    memAddr := BitVec.ofNat 38 (bits w 103 66), len := BitVec.ofNat 15 (bits w 118 104) }

def treeFields (w : Nat) : TreeOp :=
  { hdr := cmdHdr w, standId := BitVec.ofNat 8 (bits w 55 48), seg := BitVec.ofNat 3 (bits w 58 56),
    outMode := BitVec.ofNat 2 (bits w 61 60), fAddr := BitVec.ofNat 15 (bits w 76 62), oAddr := BitVec.ofNat 15 (bits w 91 77),
    fStrideM1 := BitVec.ofNat 7 (bits w 98 92), oStrideM1 := BitVec.ofNat 4 (bits w 102 99),
    samplesM1 := BitVec.ofNat 11 (bits w 113 103), fence := bit w 126 }

/-! ### Partitions (R102) -/

def partOf (im : Image) (ctx : CtxId) : CtxPart := im.parts.getD ctx.val { firstLine := 0, lineCount := 0, banks := [] }

/-- Bytes [a, a + n) lie in the context's partition. -/
def inPart (p : CtxPart) (a n : Nat) : Bool := n == 0 || (64 * p.firstLine ≤ a && a + n ≤ 64 * (p.firstLine + p.lineCount))
def bankIn (p : CtxPart) (b : Nat) : Bool := p.banks.any (fun x => x.val == b)

/-- The partitions or the banks of the two contexts overlap, or leave tile memory. -/
def partsBad (im : Image) : Bool :=
  let a := partOf im 0
  let b := partOf im 1
  (a.lineCount != 0 && b.lineCount != 0 && a.firstLine < b.firstLine + b.lineCount && b.firstLine < a.firstLine + a.lineCount) ||
    a.banks.any b.banks.contains || 32768 < a.firstLine + a.lineCount || 32768 < b.firstLine + b.lineCount

/-! ### Vector programs (R128, R129, R132) -/

/-- What the check of a VEC command has seen: the scratch core, and the V and M registers written. -/
structure VecScan where
  s : State
  vs : List Nat
  ms : List Nat
  ok : Bool

def scanWord (p : CtxPart) (a : VecScan) (w : W64) : VecScan :=
  let op := vecOpcode w
  let v := vecFields w
  let x := getCore a.s 0
  let refused := match vecInstr 0 0 w a.s with
    | .refused _ => true
    | _ => false
  let regs := vecReads op v ++ vecWrites op v
  let late := (vecReads op v).any (fun r => isVReg r && !a.vs.contains r.toNat) || (maskReads op v).any (fun m => m != 0 && !a.ms.contains m)
  let out := (vecRanges x op v).any (fun r => !inPart p r.1 r.2) || regs.any (fun r => !isVReg r && !bankIn p (winOf r.toNat))
  { s := vecFollow 0 w a.s
    vs := a.vs ++ ((vecWrites op v).filter isVReg).map (·.toNat)
    ms := if op == 0x18 || op == 0x19 then a.ms ++ [v.vd.toNat] else a.ms
    ok := a.ok && !refused && !late && !out }

/-- Check one VEC command's words; the convert slots pass on to the next. -/
def scanVec (p : CtxPart) (ws : List W64) (s : State) : Bool × State :=
  let s := modCore 0 (fun x => { x with ve := { x.ve with vl := 128 } }) s
  let a := ws.foldl (scanWord p) { s := s, vs := [], ms := [], ok := true }
  (a.ok, a.s)

/-! ### Core programs (R104, R110 to R113, R169) -/

def standBy (im : Image) (id : Nat) : Option StandObj := im.stands.find? (fun o => (standHdr o.bytes).id == id)

/-- A command other than VEC is one that the manual lists, inside its partition; a FINAL command's constants are as many as
its activation blocks may need (DEDUCED, log 109). An LDT with WTILE = 0 may hold any WFMT and GSIZE, which the table gives
no meaning there and does not call reserved (DESIGN CHOICE, log 106). -/
def cmdOk (im : Image) (c : CoreId) (ctx : CtxId) (p : CtxPart) (w : Nat) : Bool :=
  match bits w 5 0 with
  | 0x00 | 0x08 => bits w 127 48 == 0
  | 0x01 =>
    let op := mmaFields w
    mmaListed op && !bit w 127 && bankIn p op.bank.toNat &&
      (match elemFmt op.wfmt.toNat, elemFmt op.afmt.toNat with
        | some f, some a =>
          let e := if op.fin && op.sideRef != 0 then (im.sides.getD ctx.val [])[op.sideRef.toNat]? else none
          let cuts := ((im.layers.find? (fun l => l.layer == op.hdr.layer)).map (·.cut)).getD []
          (mmaRanges op f a ++ sideRanges op e cuts (mmaM op * mmaNb op)).all (fun r => inPart p r.1 r.2)
        | _, _ => false)
  | 0x02 =>
    let op := ldtFields w
    bits w 127 125 == 0 && (memSpace op.space).isSome &&
      (match ldtShape op with
        | none => false
        | some (n, wt) =>
          let extra := match wt with
            | some (_, g, nb, _) => nb * g / 16
            | none => 0
          inPart p (64 * op.tmAddr.toNat) (64 * (n + extra)))
  | 0x03 =>
    let op := sttFields w
    bits w 127 119 == 0 && (memSpace op.space).isSome &&
      (if op.fromBank then bits w 118 106 == 0 && bankIn p (bits w 105 104)
       else op.len != 0 && inPart p (64 * op.tmAddr.toNat) (64 * op.len.toNat))
  | 0x05 =>
    let op := treeFields w
    !bit w 59 && bits w 125 114 == 0 && !bit w 127 &&
      (match standBy im op.standId.toNat with
        | none => false
        | some o =>
          let h := standHdr o.bytes
          let n := op.samplesM1.toNat + 1
          treeListed op h && some c.val == (o.cores[op.seg.toNat]?).map (fun k => 8 * o.cluster.val + k.val) &&
            inPart p (treeFeatAddr op 0) (treeFeatAddr op (n - 1) + 2 * h.numFeat - treeFeatAddr op 0) &&
            inPart p (treeOutAddr op 0) (treeOutAddr op (n - 1) + 4 * h.numOut - treeOutAddr op 0))
  | 0x06 | 0x07 => bits w 62 55 != 0 && bits w 127 63 == 0
  | _ => false

/-- A weight-layout slot that a sequence layer's VEC command sets up is its KV cache's: the layer's format and G = 64
(R84; DEDUCED, log 76). -/
def kvSlotBad (im : Image) (layer : W16) (w : W64) : Bool :=
  let v := vecFields w
  vecOpcode w == 0x50 && bit v.vb.toNat 2 &&
    im.layers.any (fun l => l.layer == layer && l.isKv && (v.va.toNat != l.kvFmt.toNat || bits v.vb.toNat 1 0 != 1))

/-- Check a program's commands in order: the offset of the first that fails. -/
def programBad (im : Image) (g : CoreProgram) : Option Nat :=
  let p := partOf im g.ctx
  let r := g.cmds.foldl (fun (a : Option Nat × State × Bool) (x : ProgCmd) =>
    if a.1.isSome then a
    else
      let w := x.word.toNat
      let (ok, s) :=
        if bits w 5 0 == 0x04 then
          let n := bits w 87 72
          let ws := (g.vec.drop (bits w 71 48)).take n
          let (ok, s) := scanVec p ws a.2.1
          (ok && n != 0 && ws.length == n && bits w 127 88 == 0 && !ws.any (kvSlotBad im (BitVec.ofNat 16 (bits w 31 16))), s)
        else (cmdOk im g.core g.ctx p w, a.2.1)
      (if ok && (a.2.2 || bits w 15 6 == 0) then none else some x.offset, s, false)) (none, State.reset, true)
  r.1

/-- A WAIT that a later program, or a later command of its own, can feed (R403). -/
def tokenBad (im : Image) : Option Nat :=
  let token (x : ProgCmd) : Nat := bits x.word.toNat 54 48
  let isOp (n : Nat) (x : ProgCmd) : Bool := bits x.word.toNat 5 0 == n
  im.programs.findSome? (fun g =>
    (g.cmds.zip (List.range g.cmds.length)).findSome? (fun p =>
      if !isOp 6 p.1 then none
      else
        let near (q : CoreProgram) : Bool :=
          q.ctx == g.ctx && (if token p.1 < 64 then q.core.val / 8 == g.core.val / 8 else q.core.val / 64 == g.core.val / 64)
        let feeds (cs : List ProgCmd) : Bool := cs.any (fun y => isOp 7 y && token y == token p.1)
        let later := im.programs.any (fun q => near q && g.core.val < q.core.val && feeds q.cmds)
        if later || feeds (g.cmds.drop p.2) then some p.1.offset else none))

/-! ### Stands (R161 to R164, R175) -/

def nonFinite (w : Nat) : Bool := bits w 30 23 == 255
def bf16Nan (w : Nat) : Bool := bits w 14 7 == 255 && bits w 6 0 != 0

/-- The first failing header field of a stand. -/
def standHdrBad (bs : Bytes) : Option Nat :=
  let h := standHdr bs
  let w (o n : Nat) : Nat := bNum bs o n
  let seg (k : Nat) : Bool :=
    let t := h.segs.getD k (0, 0)
    if h.segCount ≤ k then w (64 + 8 * k) 8 != 0
    else t.1 == 0 || t.2 < t.1 || 131072 < t.2 || w (64 + 8 * k) 8 / 2 ^ 35 != 0
  let sum (f : Nat × Nat → Nat) : Nat := ((h.segs.take h.segCount).map f).foldl (· + ·) 0
  firstFail ([
    (0, 63 < h.id || h.segCount == 0 || 24 < h.maxDepth || h.numFeat == 0 || 4096 < h.numFeat || (h.flow && 32 < h.numFeat)),
    (4, h.numOut == 0 || 256 < h.numOut || w 4 4 / 2 ^ 9 != 0 || (h.flow && 4 < h.numOut)),
    (8, h.numTrees == 0 || 65536 < h.numTrees || w 8 4 / 2 ^ 17 != 0 || sum (·.1) != h.numTrees),
    (12, h.nodes == 0 || w 12 4 / 2 ^ 21 != 0 || sum (·.2) != h.nodes)] ++
    (List.range' 16 48).map (fun i => (i, bs.getD i 0 != 0)) ++ (List.range 8).map (fun k => (64 + 8 * k, seg k)))

/-- The first failing node of a segment. `deep` holds the internal nodes above each node reached so far. -/
def segBad (h : StandHdr) (bs : Bytes) (k : Nat) : Option Nat :=
  let t := h.segs.getD k (0, 0)
  let roots := (List.range t.1).map (fun i => (i, 0))
  let r := (List.range t.2).foldl (fun (a : Option Nat × List (Nat × Nat)) i =>
    if a.1.isSome then a
    else
      let w := (standNode h bs k i).toNat
      let off := standSegOff h k + 8 * i
      if bit w 63 then
        (if nonFinite w || h.numOut ≤ bits w 39 32 || bits w 62 40 != 0 then some off else none, a.2)
      else
        let left := bits w 51 28
        let d := mapGet i a.2
        let bad := bits w 62 52 != 0 || h.numFeat ≤ bits w 11 0 || (h.bf16 && bf16Nan (bits w 27 12)) ||
          left < t.1 || left ≤ i || t.2 ≤ left + 1 || (match d with
            | some n => h.maxDepth < n + 1
            | none => false)
        if bad then (some off, a.2)
        else match d with
          | none => (none, a.2)
          | some n =>
            let put (c : Nat) (m : List (Nat × Nat)) : List (Nat × Nat) := mapSet c (max (mapGetD 0 c m) (n + 1)) m
            (none, put (left + 1) (put left a.2))) (none, roots)
  r.1

/-- A stand too large for any load: the overshoot of R175. -/
def standOver (bs : Bytes) : Option Nat :=
  let h := standHdr bs
  if 1048576 < h.nodes then some (h.nodes - 1048576) else if 8 < h.segCount then some 0 else none

/-- The first failing byte of a stand. -/
def standBad (o : StandObj) : Option Nat :=
  let bs := o.bytes
  let h := standHdr bs
  match standHdrBad bs with
  | some b => some (o.offset + b)
  | none =>
    let short := standSegOff h (h.segCount - 1) + 8 * (h.segs.getD (h.segCount - 1) (0, 0)).2
    if bs.length < short then some (o.offset + bs.length)
    else match (List.range h.numOut).find? (fun i => nonFinite (bNum bs (128 + 4 * i) 4)) with
      | some i => some (o.offset + 128 + 4 * i)
      | none =>
        match (List.range h.segCount).findSome? (segBad h bs) with
        | some b => some (o.offset + b)
        | none => if o.cores.length != h.segCount then some o.offset else none

/-- A second stand with a STAND_ID, or with FLOW. -/
def standTwice (im : Image) : Option Nat :=
  (List.range im.stands.length).findSome? (fun i =>
    match im.stands[i]? with
    | none => none
    | some o =>
      let h := standHdr o.bytes
      let before := (im.stands.take i).map (fun q => standHdr q.bytes)
      if before.any (fun q => q.id == h.id || (q.flow && h.flow)) || 64 ≤ i then some o.offset else none)

/-! ### Stored weights (R66, R67) -/

/-- The first failing deckle or padding byte of a stored row. -/
def weightRowBad (f : ElemFmt) (g k : Nat) (bs : Bytes) : Option Nat :=
  let nb := (k + g - 1) / g
  let bb := blockBytes f g
  let bad (j : Nat) : Bool :=
    let b := readBlock true f g ((bs.drop (j * bb)).take bb)
    (blockFault f g j true b).isSome || b.dk.wsum != wsumOf f b.codes ||
      (b.codes.zip (List.range g)).any (fun p => decide (k ≤ j * g + p.2) && p.1 != 0)
  match (List.range nb).find? bad with
  | some j => some (j * bb)
  | none => ((List.range bs.length).find? (fun i => decide (nb * bb ≤ i) && bs.getD i 0 != 0))

def weightBad (o : WeightObj) : Option Nat :=
  match elemFmt o.fmt.toNat with
  | none => some o.offset
  | some f =>
    let stride := rowStride f o.g ((o.k + o.g - 1) / o.g)
    (o.rows.zip (List.range o.rows.length)).findSome? (fun p => (weightRowBad f o.g o.k p.1).map (fun b => o.offset + stride * p.2 + b))

/-! ### Layers and gather lists (R82, R85, R207, R408) -/

def risesBelow : Nat → List Nat → Bool
  | _, [] => true
  | k, [a] => decide (a < k)
  | k, a :: b :: rest => decide (a < b) && risesBelow k (b :: rest)

/-- The formats of a KV cache: FP8 E4M3, INT8 or FP4 (R84). -/
def kvListed (f : BitVec 4) : Bool :=
  match elemFmt f.toNat with
  | some .e4m3 | some .int8 | some .fp4 => true
  | _ => false

def layerBad (l : LayerDesc) : Option Nat :=
  if 32 < l.cut.length || !risesBelow l.k l.cut || (l.isKv && (l.headDim % 64 != 0 || l.rebuild.isEmpty || !kvListed l.kvFmt)) then some l.offset else none

/-- An entry that yields an unlisted command; a table must be one that the image defines or adopts. -/
def gatherBad (tables : List Nat) (g : GatherEntry) : Option Nat :=
  if tables.contains (entryCmd g).table.val && nluWordOk g.word then none else some g.offset

/-! ### The FORMAT checks together (R345, R447) -/

/-- What fails with FORMAT apart from tables: the offsets, none for an object whose offset the command does
not carry (DESIGN CHOICE, log 28). -/
def imageFails (im : Image) (tables : List Nat) : List (Option Nat) :=
  let some_ (o : Option Nat) : List (Option Nat) := match o with
    | some x => [some x]
    | none => []
  (if partsBad im then [none] else []) ++ (if im.regions.any (fun r => r.kind == 0 || 4 < r.kind) then [none] else []) ++
    (im.layers.map (fun l => some_ (layerBad l))).flatten ++ (im.gather.map (fun g => some_ (gatherBad tables g))).flatten ++
    ((im.stands.filter (fun o => (standOver o.bytes).isNone)).map (fun o => some_ (standBad o))).flatten ++ some_ (standTwice im) ++
    (im.weights.map (fun o => some_ (weightBad o))).flatten ++ (im.programs.map (fun g => some_ (programBad im g))).flatten ++
    some_ (tokenBad im)

end Sys2Proof.Machine
end

