-- ==== Sys2Proof/Machine/Loader.lean ====
section
/-! DEFINITION. Model slots: loading, emptying and activating them, and the reload of a slot's stands (R174
to R176, R191, R217 to R219, R224, R347, R348, R353 to R356, R446 to R448, R487, R488). -/

namespace Sys2Proof.Machine

def slotFin (n : Nat) : SlotId := ⟨n % 2, by omega⟩
def otherSlot (sl : SlotId) : SlotId := slotFin (sl.val + 1)
/-- The slot that a LOAD_IMAGE or ACTIVATE_SLOT names. -/
def dSlot (d : Desc) : SlotId := slotFin (dNum d 16 1)

/-! ### Freeing a slot (R347, R356, R487) -/

/-- A slot's tables that the other slot does not hold are freed. -/
def freeSlotTables (sl : SlotId) (s : State) : State :=
  s.tbl.tables.foldl (fun s p =>
    if !p.2.owners.contains sl then s
    else if p.2.owners.any (· != sl) then modTbl p.1 (fun x => { x with owners := x.owners.filter (· != sl) }) s
    else freeTable p.1 s) s

/-- Everything that a slot holds is freed; a region with a table that the other slot adopts passes to it. -/
def clearSlot (sl : SlotId) (s : State) : State :=
  let s := releaseStands sl (freeSlotTables sl s)
  let mine (r : Region) : Bool := r.owned && r.slot == sl
  let kept := s.dsm.regions.map (fun p => if mine p.2 && regionHolds s p.2 then (p.1, { p.2 with slot := otherSlot sl }) else p)
  let s := { s with dsm := { s.dsm with regions := kept.filter (fun p => !mine p.2) } }
  let other {α : Type} (m : List (Nat × α)) : List (Nat × α) := m.filter (fun p => p.1 / 2 ^ 30 != sl.val)
  { s with
    overhang := { units := other s.overhang.units, delivered := other s.overhang.delivered }
    adm := { s.adm with est := s.adm.est.filter (fun p => p.1 / 65536 != sl.val) }
    liveScales := s.liveScales.filter (fun l => l.slot != sl)
    scaleRaises := s.scaleRaises.filter (fun r => r.slot != sl) }

/-! ### Stands in tree memory (R174, R175) -/

/-- Place every segment of an image's stands; answers the nodes of the segments that find no room. -/
def placeStands (sl : SlotId) (im : Image) (s : State) : Nat × State :=
  im.stands.foldl (fun a o =>
    let h := standHdr o.bytes
    (List.range h.segCount).foldl (fun (a : Nat × State) k =>
      let n := (h.segs.getD k (0, 0)).2
      let e : SegEntry := { stand := h.id, slot := sl, seg := k, flow := h.flow, base := 0, count := n }
      match (List.finRange 256)[segCore a.2 o k]? with
      | none => (a.1 + n, a.2)
      | some c =>
        let (ws, t) := segWords sl o k a.2
        match holdSeg e ws (getCore t c).te with
        | none => (a.1 + n, t)
        | some te => (a.1, modCore c (fun x => { x with te := te }) t)) a) (0, s)

/-- Every segment of a slot's stands is held by some core. -/
def standsHeld (s : State) (sl : SlotId) (im : Image) : Bool :=
  im.stands.all (fun o =>
    let h := standHdr o.bytes
    (List.range h.segCount).all (fun k => (List.finRange 256).any (fun c => (segEntry (getCore s c) sl h.id k).isSome)))

/-! ### Overhang (R217 to R219) -/

/-- A cold section that may lie in overhang: it holds no stand and no bucket area, which are guarded data (R217); its units
are 4 KiB of the DPA space (DEDUCED, log 29). -/
def mayOverhang (im : Image) (x : Section) : Bool :=
  x.cold && x.dpa % 4096 == 0 && im.stands.all (fun o => decide (o.offset + o.bytes.length ≤ x.offset) || decide (x.offset + x.len ≤ o.offset)) &&
    (im.tables ++ im.adopted).all (fun t =>
      let d := decodeDesc t.2
      decide (d.bucketBase + bucketAreaBytes d ≤ x.dpa) || decide (x.dpa + x.len ≤ d.bucketBase))

def coldBytes (im : Image) : Nat := ((im.sections.filter (mayOverhang im)).map (·.len)).foldl (· + ·) 0

/-- Bytes by which an image of a size does not fit the free usable capacity. -/
def sizeShort (s : State) (size : Nat) : Nat :=
  size + 13 * 4096 * ((heldRegions s).map (·.count)).foldl (· + ·) 0 - 64 * dpaLines

/-- The largest legal overhang of an image, within the ranges that the descriptor names. -/
def overhangMax (d : Desc) (im : Image) (size : Nat) : Nat :=
  if im.overhangOk && dNum d 40 8 != 0 then min (min (coldBytes im) (dNum d 56 8)) (min (size / 8) (416 * 2 ^ 30)) else 0

def imageBytes (content : Bytes) (x : Section) (skip : Nat) : Bytes := (content.drop (x.offset + skip - 1024)).take (x.len - skip)

/-- The 4 KiB units that go to overhang, each with its DPA and its bytes: the first units of the sections that may (DEDUCED,
log 29). -/
def overhangUnits (content : Bytes) (im : Image) (n : Nat) : List (Nat × Bytes) :=
  let units (x : Section) : List (Nat × Bytes) :=
    let bs := imageBytes content x 0
    (List.range ((x.len + 4095) / 4096)).map (fun i => (x.dpa + 4096 * i, ((bs.drop (4096 * i)).take 4096 ++ List.replicate 4096 0).take 4096))
  (((im.sections.filter (mayOverhang im)).map units).flatten).take n

/-- Write a slot's overhang to every copy, and keep the units' CRCs. -/
def writeOverhang (sl : SlotId) (d : Desc) (units : List (Nat × Bytes)) (s : State) : State :=
  let w := dNum d 16 1
  let p : HPort := if bit w 1 then .h1 else .h0
  (units.zip (List.range units.length)).foldl (fun s u =>
    let o : OvhUnit :=
      { dpa := u.1.1, port := p, addr := dNum d 40 8 + 4096 * u.2
        mirror := if bit w 2 then some (dNum d 48 8 + 4096 * u.2) else none, crc := BitVec.ofNat 32 (crc32c u.1.2) }
    copiesWrite (some (d.port, d.era)) o 0 u.1.2
      { s with overhang := { s.overhang with units := mapSet (2 ^ 30 * sl.val + u.2) o s.overhang.units } }) s

/-- Write the sections to stack memory, but for the units that are in overhang. -/
def writeSections (content : Bytes) (im : Image) (s : State) : State :=
  im.sections.foldl (fun s x =>
    let out := ((s.overhang.units.filter (fun p => decide (x.dpa ≤ p.2.dpa) && decide (p.2.dpa < x.dpa + x.len))).length)
    let skip := if mayOverhang im x then min (4096 * out) x.len else 0
    writeDpa (x.dpa + skip) (imageBytes content x skip) s) s

/-! ### Tables of an image (R224, R237, R356) -/

/-- The table's occupancy and the rows that its slots name, as the image left its buckets (R242). -/
def scanTable (t : Nat) (s : State) : State :=
  match getTbl s t with
  | none => s
  | some x =>
    let lo := x.desc.bucketBase / 64
    let ls := (heldLines s).filter (fun p => decide (lo ≤ p.1) && decide (p.1 < lo + 2 ^ x.desc.blog) && !s.dsm.poison.contains p.2)
    let es := ((ls.map (fun p => decodeBucket (rawLine s p.2))).flatten).filter (fun e => !eEmpty e)
    setTbl t { x with
      occupied := es.length
      refs := es.foldl (fun m e => mapSetD 0 e.row (mapGetD 0 e.row m + 1) m) [] } s

def adoptable (s : State) (sl : SlotId) (bs : Bytes) : Bool :=
  match getTbl s (decodeDesc bs).table with
  | some x => (descBad false bs).isNone && x.owners.contains (otherSlot sl) && x.desc == decodeDesc bs
  | none => false

/-- The outcomes of R224 for the tables that an image defines, in order. -/
def tableChecks (s : State) (im : Image) : List (Nat × Nat × Nat) :=
  (List.range im.tables.length).map (fun i =>
    let x := im.tables.getD i (0, [])
    let num (bs : Bytes) : Nat := (decodeDesc bs).table
    let before := ((im.tables.take i) ++ im.adopted).any (fun y => num y.2 == num x.2)
    let c := descCheck false (before || (getTbl s (num x.2)).isSome) (im.regions ++ heldRegions s) x.2
    (x.1, c.1, c.2))

/-! ### The checks of a load (R447) -/

/-- The envelope's first failing byte. -/
def envBad (env : Bytes) (size : Nat) : Option Nat :=
  let n := bNum env 6 1
  let zero (o k : Nat) : List (Nat × Bool) := (List.range k).map (fun i => (o + i, env.getD (o + i) 0 != 0))
  let entry (i : Nat) : List (Nat × Bool) :=
    let o := 64 + 200 * i
    if i < n then (o, decide (3 < bNum env o 1)) :: zero (o + 1) 3 ++ zero (o + 197) 3 else zero o 200
  let all := [(0, bNum env 0 4 != 0x4D425A46), (4, bNum env 4 2 != 1), (6, 4 < n), (7, env.getD 7 0 != 0), (8, bNum env 8 8 != size)] ++
    ((List.range 4).map entry).flatten ++ zero 864 160
  match firstFail all with
  | some o => some o
  | none => if env.length < 1024 then some env.length else none

/-- The customer slots that count, with the numbers of entries that count and that do not. -/
def signCount (env hash : Bytes) (keys : List CustSlot) : List Nat × Nat × Nat :=
  (List.range (min (bNum env 6 1) 4)).foldl (fun a i =>
    let o := 64 + 200 * i
    let k := bNum env o 1
    let key := (env.drop (o + 4)).take 97
    let c := keys.getD k CustSlot.empty
    if c.valid && c.hash == Config.sha384 key && Config.ecdsaVerify key hash ((env.drop (o + 101)).take 96) && !a.1.contains k then
      (k :: a.1, a.2.1 + 1, a.2.2)
    else (a.1, a.2.1, a.2.2 + 1)) ([], 0, 0)

/-- The content checks, over the state with the slot's own content freed: FORMAT at the lowest image offset,
then the shortages (DESIGN CHOICE, log 28). Stands are held to the room beside those that either slot has loaded, `nodes` being
what finds none (R175). -/
def contentCheck (sl : SlotId) (d : Desc) (im : Image) (nodes : Nat) (s : State) : Nat × Option Nat :=
  let size := dNum d 32 8
  let tables := ((im.tables ++ im.adopted).filter (fun x => (decodeDesc x.2).kind == 0)).map (fun x => (decodeDesc x.2).table)
  let checks := tableChecks s im
  let fails := (checks.filter (fun c => c.2.1 == stFormat)).map (fun c => some (c.1 + c.2.2)) ++
    (im.adopted.filter (fun x => !adoptable s sl x.2)).map (fun x => some x.1) ++ imageFails im tables
  let short := ((checks.filter (fun c => c.2.1 == stCapacity)).map (fun c => c.2.2)).foldl (· + ·) 0
  if fails.contains none then (stFormat, none)
  else if !fails.isEmpty then (stFormat, some ((sortBy (fun a b => decide (a < b)) (fails.filterMap id)).headD 0))
  else match im.stands.findSome? (fun o => standOver o.bytes) with
    | some n => (stCapacity, some n)
    | none =>
      let regs := regionShort (heldRegions s) im.regions
      let beyond := sizeShort s size - overhangMax d im size
      if regs != 0 then (stCapacity, some regs)
      else if short != 0 then (stCapacity, some short)
      else if beyond != 0 then (stCapacity, some beyond)
      else if nodes != 0 then (stCapacity, some nodes)
      else (stOk, none)

/-! ### LOAD_IMAGE and LOAD_IMAGE_END -/

/-- Put an accepted image into its slot, over the state with the slot's content freed. -/
def installImage (sl : SlotId) (d : Desc) (hash content : Bytes) (ks : List Nat) (im : Image) (s : State) : State :=
  let units := (sizeShort s (dNum d 32 8) + 4095) / 4096
  let s := addRegions im.regions sl true s
  let s := writeSections content im (writeOverhang sl d (overhangUnits content im units) s)
  let s := im.tables.foldl (fun s x => setTbl (decodeDesc x.2).table (newTbl (decodeDesc x.2) [sl]) s) s
  let s := im.tables.foldl (fun s x => scanTable (decodeDesc x.2).table s) s
  let s := im.adopted.foldl (fun s x => modTbl (decodeDesc x.2).table (fun y => { y with owners := y.owners ++ [sl] }) s) s
  let s := setSlot sl.val { st := 2, image := some im, hash := hash, bound := 0, reload := false, signers := (ks.map (fun k => 2 ^ k)).foldl (· + ·) 0 } s
  (placeStands sl im s).2

def loadBusy (s : State) (sl : SlotId) : Bool := (mapGet sl.val s.host.loads).isSome

/-- LOAD_IMAGE: the slot begins to load, or a READY slot is emptied (R347). -/
def execLoadImage (s : State) : Res :=
  match takeDesc (fun d => dOp d == 1) s with
  | none => .next s
  | some (d, s) =>
    let sl := dSlot d
    let x := getSlot s sl.val
    if x.st != 0 && x.st != 2 then .next (completeBare d stStale s)
    else if dNum d 32 8 == 0 then .next (completeBare d stOk (setSlot sl.val Slot.empty (clearSlot sl s)))
    else
      let l : Load := { desc := d, prev := x.st }
      .next (setSlot sl.val { x with st := 1 } { s with host := { s.host with loads := mapSet sl.val l s.host.loads } })

/-- LOAD_IMAGE_END: the envelope, the content and the objects that it holds have been received, and the
load ends by the checks of R447 in order. -/
def execLoadImageEnd (slot : SlotId) (env content : Bytes) (img : Image) (s : State) : Res :=
  match mapGet slot.val s.host.loads with
  | none => .next s
  | some l =>
    let d := l.desc
    let size := dNum d 32 8
    if env.length != min 1024 size || content.length != size - 1024 then .next s
    else
      let s := modSlot slot.val (fun x => { x with st := l.prev }) { s with host := { s.host with loads := mapDel slot.val s.host.loads } }
      match envBad env size with
      | some o => .next (complete d stFormat o s)
      | none =>
        let hash := Config.sha384 content
        if hash != (env.drop 16).take 48 then .next (completeBare d stSignature (incCnt (cntSec 0) s))
        else
          let (ks, good, bad) := signCount env hash d.keys
          let s := addCnt (cntSec 2) bad (addCnt (cntSec 1) good s)
          if ks.length < d.minSigs then .next (completeBare d stSignature (incCnt (cntSec 3) s))
          else
            let e := clearSlot slot s
            match contentCheck slot d img (placeStands slot img s).1 e with
            | (0, _) => .next (complete d stOk (leNat (hash.take 8)) (installImage slot d hash content ks img e))
            | (st, some r) => .next (complete d st r s)
            | (st, none) => .next (completeBare d st s)

/-! ### ACTIVATE_SLOT and STAND_RELOAD_END (R348, R354, R355, R488) -/

def canActivate (s : State) (d : Desc) : Bool :=
  let x := getSlot s (dSlot d).val
  let h := (d.bytes.drop 24).take 8
  (x.st == 2 || x.st == 3 || x.st == 4) && (h.all (· == 0) || h == x.hash.take 8)

/-- A READY slot without its stands begins to reload them; answers the nodes without room. -/
def beginReload (sl : SlotId) (s : State) : Nat × State :=
  let x := getSlot s sl.val
  match x.image with
  | none => (0, s)
  | some im =>
    if x.st != 2 || x.reload || standsHeld s sl im then (0, s)
    else
      let (n, t) := placeStands sl im s
      if n != 0 then (n, s) else (0, modSlot sl.val (fun x => { x with reload := true }) t)

/-- A manager's workers must be READY for the newly active slot (R375, R376). -/
def recopy (s : State) : State :=
  if s.grp.role != 1 then s
  else
    let ts := activeTables s
    { s with grp := { s.grp with peers := s.grp.peers.map (fun p => if p.1 == 0 then p else (p.1, { p.2 with st := min p.2.st 1, copies := ts })) } }

/-- The switch to a slot at this edge: open reams are sealed, then the slots change, and then the carried requests of a window
that has ended are decided, so that they bind to the new slot (R41). The slot's live scales and its written estimates end (R78, R302, R354,
R355). -/
def switchSlot (d : Desc) (s : State) : State :=
  let sl := dSlot d
  let x := getSlot s sl.val
  if x.st == 3 then complete d stOk (nowNs s) s
  else
    let passed := windowPassed s
    let s := if passed then sealPast s else s
    let s := sealWhere (fun _ => true) s
    let s := { s with slots := famMap (fun _ y => if y.st == 3 then { y with st := 4 } else y) s.slots }
    let s := modSlot sl.val (fun y => { y with st := 3 }) s
    let s := { s with
      liveScales := s.liveScales.filter (fun l => l.slot != sl), scaleRaises := s.scaleRaises.filter (fun r => r.slot != sl)
      adm := { s.adm with est := s.adm.est.filter (fun p => p.1 / 65536 != sl.val) } }
    let doms := ((flowCluster s sl).map (fun k => domCluster k :: (List.range 8).map (fun p => domCore (8 * k + p)))).getD []
    let s := if dLaunch d == 0 then s else lateUnits doms (dLaunch d) s
    let s := if passed then decideCarried s else s
    complete d stOk (nowNs s) (devEvent 0x100A ucPackage sl.val (recopy s))

/-- Carry out an activation at its edge, or hold it while the slot reloads its stands. -/
def activate (d : Desc) (s : State) : State :=
  if !canActivate s d then completeBare d stStale s
  else
    let (short, s) := beginReload (dSlot d) s
    if short != 0 then complete d stCapacity short s
    else if (getSlot s (dSlot d).val).reload then
      { s with host := { s.host with sched := s.host.sched ++ [{ desc := d, kind := .activate (dSlot d) }] } }
    else switchSlot d s

/-- ACTIVATE_SLOT: at once without a LAUNCH_GT, else at its launch edge (R41, R348). -/
def execActivateSlot (s : State) : Res :=
  match takeDescAny (fun d => dOp d == 2) s with
  | none => .next s
  | some (d, s) =>
    if !canActivate s d then .next (completeBare d stStale s)
    else
      let (short, s) := beginReload (dSlot d) s
      if short != 0 then .next (complete d stCapacity short s)
      else if d.due == 0 then .next (activate d s)
      else .next { s with host := { s.host with sched := s.host.sched ++ [{ desc := d, kind := .activate (dSlot d) }] } }

/-- Activations that are due at this edge; of those that share an edge, the later accepted one stands (R355). -/
def dueSwitches (s : State) : List Sched :=
  s.host.sched.filter (fun x =>
    match x.kind with
    | .activate sl => decide (x.desc.due ≤ now s) && !(getSlot s sl.val).reload
    | _ => false)

def runSwitches (s : State) : State :=
  let items := sortBy (fun a b => decide (a.desc.seq < b.desc.seq)) (dueSwitches s)
  let s := { s with host := { s.host with sched := s.host.sched.filter (fun x => !items.contains x) } }
  match items.reverse with
  | [] => s
  | last :: earlier => activate last.desc (earlier.reverse.foldl (fun s x => completeBare x.desc stStale s) s)

/-- STAND_RELOAD_END: at the edge after the reload, an activation whose launch edge has passed takes
effect. -/
def execStandReloadEnd (slot : SlotId) (s : State) : Res :=
  if !(getSlot s slot.val).reload then .next s
  else .next (runSwitches (modSlot slot.val (fun x => { x with reload := false }) s))

end Sys2Proof.Machine
end

