-- ==== Sys2Proof/Machine/Launch.lean ====
section
/-! DEFINITION. Launch edges: freezes, configuration, slot switches, protection, table batches and reams
in the fixed order (R38 to R41, R361, R363, R459). -/

namespace Sys2Proof.Machine

/-- A FREEZE descriptor at its edge; under the snapshot lock its freeze is lost (R459, R460). -/
def freezeDesc (d : Desc) (s : State) : State :=
  match takeFreeze 1 (bit (dNum d 16 1) 0) s with
  | (true, s) => complete d stOk (nowNs s) s
  | (false, s) => completeBare d stBusy s

/-- Scheduled items of a kind that are due, in order of acceptance; they leave the schedule. -/
def takeDue (kind : SchedKind → Bool) (s : State) : List Sched × State :=
  let mine (x : Sched) : Bool := kind x.kind && decide (x.desc.due ≤ now s)
  (sortBy (fun a b => decide (a.desc.seq < b.desc.seq)) (s.host.sched.filter mine),
    { s with host := { s.host with sched := s.host.sched.filter (fun x => !mine x) } })

def isFreeze : SchedKind → Bool
  | .freeze => true
  | _ => false

def isConfig : SchedKind → Bool
  | .store _ _ | .applySet _ | .bcb _ => true
  | _ => false

/-- Step 1: freezes sample their counters. -/
def runFreezes (s : State) : State :=
  let (xs, s) := takeDue isFreeze s
  xs.foldl (fun s x => freezeDesc x.desc s) s

/-- Step 2: configuration changes, combined in order of acceptance. -/
def runConfigs (s : State) : State :=
  let (xs, s) := takeDue isConfig s
  xs.foldl (fun s x => cfgChange x.desc x.kind s) s

/-- Step 4: committed windows of the protection table (R363). -/
def runProts (s : State) : State :=
  let due := s.host.protPending.filter (fun c => decide (c.due ≤ now s))
  let s := { s with host := { s.host with protPending := s.host.protPending.filter (fun c => !decide (c.due ≤ now s)) } }
  due.foldl (fun s c =>
    { s with host := { s.host with
        prot := mapSetD ProtWin.closed c.window c.content s.host.prot, protGen := (s.host.protGen + 1) % 2 ^ 32 } }) s

/-- LAUNCH_EDGE (R41). A worker whose last share is refused at the edge has none left to wait for (R365, R366). -/
def execLaunchEdge (s : State) : Res :=
  .next (endOfShares (launchReams (commitBatches (runProts (runSwitches (runConfigs (runFreezes s)))))))

end Sys2Proof.Machine
end

