-- ==== Sys2Proof/Machine/Rings.lean ====
section
/-! DEFINITION. Submission and completion rings, the acceptance of descriptors, TABLE_BATCH, INFER and the
protection table (R328, R329, R337 to R346, R350, R351, R362, R363, R376). -/

namespace Sys2Proof.Machine

/-! ### Ring registers (R337 to R340, R345) -/

def modSq (p : HPort) (i : Nat) (f : Sq → Sq) (s : State) : State := setSq p i (f (getSq s p i)) s

/-- A ring enters ERROR (R339). -/
def ringError (p : HPort) (i code : Nat) (s : State) : State :=
  hifEvent p 2 (modSq p i (fun q => { q with st := 3, err := code }) s)

/-- SQ_DOORBELL: the index becomes PI, and one that the ring does not hold puts the ring in ERROR (R339). -/
def execSqDoorbell (p : HPort) (i : RingId) (value : W32) (s : State) : Res :=
  let v := bits value.toNat 15 0
  let s := modSq p i.val (fun q => { q with pi := v }) s
  .next (if sqSize s p i.val ≤ v then ringError p i.val 1 s else s)

/-- CQ_DOORBELL: every completion before the index is consumed (R339). A completion ring has no STATE, so a
bad index shows in HIF_EVENT alone (DEDUCED, log 31). -/
def execCqDoorbell (p : HPort) (i : RingId) (value : W32) (s : State) : Res :=
  let v := bits value.toNat 15 0
  let n := cqSize s p i.val
  if n ≤ v then .next (hifEvent p 2 s)
  else
    let c := getCq s p i.val
    .next (setCq p i.val { c with head := v, unconsumed := c.unconsumed - (v + n - c.head) % n } s)

/-- SQ_LINE_SNOOP: the watched line has changed, and the device reads its FLAGS byte again (R340). -/
def execSqLineSnoop (p : HPort) (i : RingId) (flags : Byte) (s : State) : Res :=
  let q := getSq s p i.val
  if q.st == 1 && bit (regW s (sqOff p i.val 8) 0) 20 then .next (setSq p i.val { q with watch := some flags } s) else .next s

/-- Write the fields of a ring's CFG word that a mask opens. -/
def writeRingCfg (p : HPort) (o mask v : Nat) (s : State) : State :=
  match regFind (lineOff o) with
  | some (r, 0) => applyReg true (portIx p) o r mask v s
  | _ => s

/-- SQ_ENABLE: the ring runs from index 0. One that is enabled takes PRIO and DB_MODE alone; before stage
CONFIG rings cannot be enabled (R337, R427). -/
def execSqEnable (p : HPort) (i : RingId) (cfg : W32) (s : State) : Res :=
  let o := sqOff p i.val 8
  if bootStage s < 3 then .next s
  else if bit (regW s o 0) 5 then .next (writeRingCfg p o 0x1C0000 cfg.toNat s)
  else
    let s := setRegF o 0 5 5 1 (writeRingCfg p o (2 ^ 32 - 1) cfg.toNat s)
    .next (modSq p i.val (fun q => { q with st := 1, err := 0, head := 0, pi := 0, phase := true, fetched := [], watch := none }) s)

/-- SQ_DISABLE: fetching stops at once, and the ring is DISABLED once its accepted descriptors have completed
(R337). -/
def execSqDisable (p : HPort) (i : RingId) (cfg : W32) (s : State) : Res :=
  let o := sqOff p i.val 8
  let s := writeRingCfg p o (if bit (regW s o 0) 5 then 0x1C0000 else 2 ^ 32 - 1) cfg.toNat s
  let s := dropFetched p i.val (setRegF o 0 5 5 0 s)
  .next (modSq p i.val (fun q => { q with st := if q.inflight == 0 then 0 else 2, err := 0, watch := none }) s)

/-- SQ_STOPPED. -/
def execSqStopped (p : HPort) (i : RingId) (s : State) : Res :=
  let q := getSq s p i.val
  if q.st == 2 && q.inflight == 0 then .next (setSq p i.val { q with st := 0 } s) else .next s

/-- CQ_ENABLE: TAIL and head are 0 and the phase is 1; an enabled ring takes its interrupt fields alone. -/
def execCqEnable (p : HPort) (i : RingId) (cfg : W32) (s : State) : Res :=
  let o := cqOff p i.val 8
  if bit (regW s o 0) 5 then .next (writeRingCfg p o 0xFFFFFFC0 cfg.toNat s)
  else
    let s := setRegF o 0 5 5 1 (writeRingCfg p o (2 ^ 32 - 1) cfg.toNat s)
    let c := getCq s p i.val
    .next (setCq p i.val { Cq.reset with reserved := c.reserved } s)

/-- CQ_COALESCE_TIMER (R345). -/
def execCqCoalesceTimer (p : HPort) (i : RingId) (s : State) : Res :=
  let cfg := regW s (cqOff p i.val 8) 0
  let c := getCq s p i.val
  match c.since with
  | none => .next s
  | some t =>
    if bits cfg 31 20 == 0 || bits cfg 13 6 == 0 || now s < t + usT (bits cfg 31 20) then .next s
    else .next (sendIrq p (bits cfg 13 6) (setCq p i.val { c with unsignalled := 0, since := none } s))

/-! ### Fetching (R338, R340 to R342) -/

/-- A ring that is RUNNING, has a descriptor pending and room for it ahead, and finds a completion slot. A
watched line that has not been read since HEAD moved may be. -/
def canFetch (s : State) (p : HPort) (i : Nat) (unread : Bool) : Bool :=
  let q := getSq s p i
  let pending :=
    if bit (regW s (sqOff p i 8) 0) 20 then
      match q.watch with
      | some f => bit f.toNat 7 == q.phase
      | none => unread
    else q.head != q.pi
  let ci := cqOf s p i
  let c := getCq s p ci
  q.st == 1 && decide (q.fetched.length < 8) && pending && bit (regW s (cqOff p ci 8) 0) 5 &&
    decide (c.unconsumed + c.reserved < cqSize s p ci)

def sqPrio (s : State) (p : HPort) (i : Nat) : Nat := regF s (sqOff p i 8) 0 19 18

/-- The ring is the one to serve: no pending ring has a higher PRIO, and among equals it is the next after
the ring served last. -/
def fetchTurn (s : State) (p : HPort) (i : Nat) : Bool :=
  let pr := sqPrio s p i
  let ready := (List.range 64).filter (fun j => j == i || canFetch s p j false)
  let equals := ready.filter (fun j => sqPrio s p j == pr)
  let last := mapGetD 63 pr (getPort s p).lastRing
  ready.all (fun j => sqPrio s p j ≤ pr) && (argMin (fun j => (j + 63 - last) % 64) equals == some i)

/-- DESCRIPTOR_FETCH: `line` is the descriptor's line, none when its read fails. -/
def execDescriptorFetch (p : HPort) (i : RingId) (line : Option Bytes) (s : State) : Res :=
  let q := getSq s p i.val
  if !(getPort s p).linkUp || !canFetch s p i.val true || !fetchTurn s p i.val then .next s
  else match line with
    | none => .next (ringError p i.val 2 s)
    | some bs =>
      let flags := bs.getD 1 0
      if bs.length != 64 then .next s
      else if bit (regW s (sqOff p i.val 8) 0) 20 && bit flags.toNat 7 != q.phase then
        .next (setSq p i.val { q with watch := some flags } s)
      else
        let wrap := q.head + 1 == sqSize s p i.val
        let s := setSq p i.val { q with
          head := if wrap then 0 else q.head + 1, phase := if wrap then !q.phase else q.phase
          fetched := q.fetched ++ [bs], watch := none } s
        let ci := cqOf s p i.val
        let c := getCq s p ci
        let s := setCq p ci { c with reserved := c.reserved + 1 } s
        .next (modPort p (fun x => { x with lastRing := mapSet (sqPrio s p i.val) i.val x.lastRing }) s)

/-! ### Checks of acceptance (R328, R343 to R352, R362) -/

/-- The bytes that each opcode's table names, as (offset, length, mask). -/
def operandSpans (op action : Nat) : List (Nat × Nat × Nat) :=
  match op with
  | 1 => [(16, 1, 7), (24, 40, 255)]
  | 2 => [(16, 1, 1), (24, 8, 255)]
  | 3 => [(16, 20, 255)]
  | 4 => [(16, 1, 255), (17, 1, 1), (20, 16, 255)]
  | 5 => [(16, 2, 255), (20, 16, 255), (40, 12, 255)]
  | 6 => [(16, 1, 255), (17, 1, 1), (20, 2, 255), (22, 1, 15), (24, 2, 255), (28, 24, 255)]
  | 7 => [(16, 12, 255)]
  | 8 => [(16, 1, 1)]
  | 9 => [(16, 2, 255), (20, 12, 255)]
  | 10 => (16, 1, 255) :: (match action with
    | 0 => [(24, 12, 255)]
    | 1 | 3 => [(18, 2, 255)]
    | 2 => [(18, 4, 255)]
    | 4 => []
    | _ => [(17, 47, 255)])
  | 11 => [(16, 1, 1), (20, 8, 255), (32, 8, 255)]
  | 12 => [(16, 44, 255)]
  | _ => []

/-- The first reserved byte of a descriptor that is not 0. -/
def reservedBad (bs : Bytes) : Option Nat :=
  let spans := [(0, 1, 255), (1, 1, 0x83), (2, 2, 255), (8, 8, 255)] ++ operandSpans (bNum bs 0 1) (bNum bs 16 1)
  (List.range 64).find? (fun o =>
    let m := ((spans.find? (fun x => decide (x.1 ≤ o) && decide (o < x.1 + x.2.1))).map (·.2.2)).getD 0
    bNum bs o 1 &&& (255 - m) != 0)

/-- A DPA list of batch records lies in a REGEN_SCRATCH region. -/
def inScratch (s : State) (a n : Nat) : Bool := areaIn (heldRegions s) 4 a n

/-- The first operand with an unlisted value. -/
def operandBad (s : State) (d : Desc) : Option Nat :=
  let far (o : Nat) : Nat × Bool := (o, decide (2 ^ 52 ≤ dNum d o 8))
  let act := dNum d 16 1
  let id (o : Nat) : Nat × Bool := (o, decide (1023 < dNum d o 2) && dNum d o 2 != 0xFFFF)
  firstFail ((8, dLaunch d != 0 && tooFar s (dLaunch d)) :: (match dOp d with
    | 1 => [far 24, far 40, far 48]
    | 3 => [(16, 2 < act), (17, act == 0 && 15 < dNum d 17 1), (24, act != 1 && 2 ^ 52 ≤ dNum d 24 8)]
    | 4 => [(20, dNum d 20 4 == 0 || 1048576 < dNum d 20 4),
        (24, if bit (dNum d 17 1) 0 then !inScratch s (dNum d 24 8) (32 * dNum d 20 4) else 2 ^ 52 ≤ dNum d 24 8)]
    | 5 => [(20, dNum d 20 4 == 0), far 24, far 40]
    | 6 => [(16, 15 < act), far 40]
    | 7 => [far 16]
    | 9 => [(16, 3 < act), (17, act == 0 && 4 < dNum d 17 1)]
    | 10 => if act == 2 then [id 18, id 20] else if act == 0 then [far 24] else [(16, 4 < act)]
    | 11 => [(20, dNum d 20 4 == 0 || 4096 < dNum d 20 4), far 32]
    | 12 => [far 48]
    | _ => []))

/-- The lowest privilege of an opcode (R344). -/
def opLevel (d : Desc) : Nat :=
  match dOp d with
  | 3 => if dNum d 16 1 == 2 then 0 else 1
  | 4 | 7 => 2
  | 5 | 12 => 3
  | 9 | 10 => 0
  | 11 => if bit (dNum d 16 1) 0 then 0 else 1
  | _ => 1

/-- The host ranges that a descriptor names. -/
def hostRanges (d : Desc) : List (Nat × Nat) :=
  let w := dNum d 16 1
  (match dOp d with
    | 1 => [(dNum d 24 8, dNum d 32 8)] ++ (if dNum d 40 8 == 0 then [] else [(dNum d 40 8, dNum d 56 8)]) ++
        (if bit w 2 then [(dNum d 48 8, dNum d 56 8)] else [])
    | 3 => if w == 1 then [] else [(dNum d 24 8, dNum d 32 4)]
    | 4 => if bit (dNum d 17 1) 0 then [] else [(dNum d 24 8, 32 * dNum d 20 4)]
    | 5 => [(dNum d 24 8, dNum d 32 4), (dNum d 40 8, dNum d 48 4)]
    | 6 => if bit (dNum d 17 1) 0 then [] else [(dNum d 40 8, dNum d 48 4)]
    | 7 => [(dNum d 16 8, dNum d 24 4)]
    | 10 => if w == 0 then [(dNum d 24 8, dNum d 32 4)] else []
    | 11 => [(dNum d 32 8, 256 * dNum d 20 4)]
    | 12 => [(dNum d 48 8, dNum d 56 4)]
    | _ => []).filter (fun r => r.2 != 0)

/-- The descriptor passes a protection window (R362). -/
def windowPasses (w : ProtWin) (d : Desc) : Bool :=
  let inside (r : Nat × Nat) : Bool :=
    (w.base0 ≤ r.1 && r.1 + r.2 ≤ w.limit0) || (w.base1 ≤ r.1 && r.1 + r.2 ≤ w.limit1)
  w.pl ≤ opLevel d && bit w.ops (dOp d - 1) && (hostRanges d).all inside &&
    (dOp d != 4 || (w.tableLo ≤ dNum d 16 1 && dNum d 16 1 ≤ w.tableHi))

/-- The dies of a slot's placement. -/
def slotDies (s : State) (sl : SlotId) : List Nat :=
  match slotImage s sl with
  | none => []
  | some im =>
    let own := (im.programs.map (fun g => physCore s g.core / 64) ++ im.stands.map (fun o => logicalClusterPhys s o.cluster.val / 8)).eraseDups
    if im.gather.isEmpty then own else [0, 1, 2, 3]

/-- The dies whose launch tables take a descriptor's launch time (DEDUCED, log 33). -/
def descDies (s : State) (d : Desc) : List Nat :=
  match dOp d with
  | 2 => slotDies s (dSlot d) ++ [4, 5]
  | 3 | 8 => [0, 1, 2, 3, 4, 5]
  | 4 => [0]
  | _ => [4 + portIx d.port]

/-- DESCRIPTOR_ACCEPT: the next fetched descriptor is checked, stamped and handed to its unit (R342 to
R346). -/
def execDescriptorAccept (p : HPort) (i : RingId) (s : State) : Res :=
  let q := getSq s p i.val
  match q.fetched with
  | [] => .next s
  | bs :: rest =>
    if bit (bNum bs 1 1) 0 && q.inflight != 0 then .next s
    else
      let s := setSq p i.val { q with fetched := rest, inflight := q.inflight + 1 } s
      let (sub, s) := stampSub (ucHost p) s
      let load := bNum bs 0 1 == 1
      let d : Desc :=
        { port := p, ring := i, bytes := bs, due := dueOf s (bNum bs 8 8), protGen := s.host.protGen % 256, stampNs := nowNs s,
          sub := sub.toNat, seq := acceptKey (nowNs s) sub.toNat (portIx p) i.val s.host.accepted, era := (getPort s p).era, entries := []
          minSigs := if load then regF s 0x608060 0 2 0 else 0, keys := if load then s.boot.cust.toList else [] }
      let s := { s with host := { s.host with accepted := s.host.accepted + 1 } }
      let win := mapGetD ProtWin.closed (regF s (sqOff p i.val 8) 0 17 12) s.host.prot
      if dOp d == 0 || 12 < dOp d then .next (complete d stFormat 0 s)
      else match reservedBad bs with
        | some o => .next (complete d stFormat o s)
        | none =>
          if !windowPasses win d then .next (completeBare d stProtection s)
          else match operandBad s d with
            | some o => .next (complete d stFormat o s)
            | none =>
              match if dLaunch d == 0 then some ([], s) else allocLaunch (descDies s d) (dLaunch d) s with
              | none => .next (completeBare d stBusy s)
              | some (es, s) =>
                let s := notePast (dLaunch d) s
                .next { s with host := { s.host with inbox := inboxPut { d with entries := es } s.host.inbox } }

/-! ### TABLE_BATCH (R243, R244, R350, R376) -/

/-- Forward an accepted batch to the workers whose copy of the table has been sent. -/
def forwardBatch (t : TableId) (recs : List BatchRec) (d : Desc) (s : State) : State :=
  if s.grp.role != 1 || !(activeTables s).contains t.val then s
  else
    let ids := (s.grp.peers.filter (fun x => x.1 != 0 && x.2.st != 3 && !x.2.copies.contains t.val)).map (·.1)
    ids.foldl (fun s i => sendSeq i (.tableBatch t recs (BitVec.ofNat 32 (dNum d 32 4)) (BitVec.ofNat 64 (dLaunch d))) s) s

/-- The records of a list, 32 bytes each, little-endian, with the next of `rows` for each ROW_WRITE (R243). A nonzero reserved bit
and an SRC with a bit of [63:52] make a record malformed (R328). -/
def parseRecs : Nat → Bytes → List Bytes → List BatchRec
  | 0, _, _ => []
  | n + 1, bs, rows =>
    let w := bNum bs 0 4
    let write := w % 16 == 4
    let r : BatchRec :=
      { op := BitVec.ofNat 4 w, static := bit w 4, row := BitVec.ofNat 32 (bNum bs 4 4), key := BitVec.ofNat 64 (bNum bs 8 8)
        reserved := w / 32 != 0 || bNum bs 24 8 != 0 || (write && bNum bs 16 8 / 2 ^ 52 != 0)
        rowBytes := if write then rows.headD [] else [] }
    r :: parseRecs n (bs.drop 32) (if write then rows.drop 1 else rows)

/-- Bytes of the DPA space that lie in REGEN_SCRATCH regions. -/
def scratchRange (s : State) (a n : Nat) : Bool :=
  decide (a + n ≤ 64 * dpaLines) && (linesOf a n).all (fun l => kindOf s (lineStripe l) == 4)

/-- The list of an accepted batch: the bytes that the host holds at RECORDS, or those of a REGEN_SCRATCH region, poisoned where a
line of it is (R243, R350). -/
def batchList (d : Desc) (list : Bytes) (s : State) : (Bytes × Bool) × State :=
  if bit (dNum d 17 1) 0 then readDpa (dNum d 24 8) (32 * dNum d 20 4) s else ((list, false), s)

/-- TABLE_BATCH: the host holds `src`, or the row bytes of it alone. A list that is not in host memory is read from the stacks; one that is poisoned there, or that lies outside REGEN_SCRATCH, completes POISON
or FORMAT (DEDUCED, log 115). -/
def execTableBatch (src : BatchSrc) (s : State) : Res :=
  match takeDescAny (fun d => dOp d == 4 && (bit (dNum d 17 1) 0 || 32 * dNum d 20 4 == src.list.length)) s with
  | none => .next s
  | some (d, s) =>
    let t : TableId := ⟨dNum d 16 1 % 256, by omega⟩
    match getTbl s t.val with
    | none => .next (completeBare d stNotFound s)
    | some x =>
      if x.desc.kind == 1 then .next (complete d stFormat 16 s)
      else if s.grp.role == 2 && s.grp.copied.contains t.val then .next (completeBare d stStale s)
      else if bit (dNum d 17 1) 0 && !scratchRange s (dNum d 24 8) (32 * dNum d 20 4) then .next (complete d stFormat 24 s)
      else match batchList d src.list s with
        | ((_, true), s) => .next (completeBare d stPoison s)
        | ((bs, false), s) =>
          let recs := parseRecs (dNum d 20 4) bs src.rows
          let ch : Change := { who := .desc d, recs := recs, expect := dNum d 32 4, due := d.due }
          .next (forwardBatch t recs d (queueChange t.val ch s))

/-! ### INFER (R297, R351) -/

/-- The request of an INFER descriptor: untracked by R21, with REQUEST_ID and CLIENT_TAG 0, its budget running from
LAUNCH_GT or from acceptance (DEDUCED, log 99). -/
def inferReq (d : Desc) (body : Bytes) : Req :=
  { id := 0, deadline := max d.stampNs (dLaunch d) + dNum d 20 4, st := 1, slot := 0, port := ⟨0, by omega⟩, worker := 0, hint := false, untracked := true,
    unscored := false, service := BitVec.ofNat 16 (dNum d 16 2), ream := 0, flowIndex := none, frame := none, infer := some d,
    clientTag := List.replicate 16 0, body := body, outs := [], sampled := none, sample := none, ord := 0, offeredAt := 0, carries := 0, clu := [], nlu := [],
    reply := none, bound := false, replaced := false }

/-- INFER: `body` is what stands at INPUT. It is answered FORMAT in the roles that do not serve, whatever its LAUNCH_GT. -/
def execInfer (body : Bytes) (s : State) : Res :=
  let away := s.grp.role == 2 || s.grp.role == 3
  match takeFirst (fun d => dOp d == 5 && (away || descDue s d) && dNum d 32 4 == body.length) s.host.inbox with
  | none => .next s
  | some (d, rest) =>
    let s := { s with host := { s.host with inbox := rest } }
    let die := portDie d.port
    let r := inferReq d body
    if away then .next (completeBare d stFormat s)
    else if !unitActive s (ucNet .n0) then .next (inferAnswer r d stShed 0 [] [] s).2
    else match freeReq s die with
      | none =>
        let s := emitTrace 6 (ucNet die) 0 0 (3 + dieIx die * 2 ^ 23) (incCnt (cntRqt (dieIx die) 1) s)
        .next (inferAnswer r d stBusy 0 [] [] s).2
      | some k => .next (offer k (incCnt (cntRqt (dieIx die) 0) (setReq k r s)))

/-! ### The protection table (R363) -/

/-- The port's staged window. -/
def stagedWindow (s : State) (p : HPort) : ProtWin :=
  let i := portIx p
  let w := regW s 0x800 i
  { pl := bits w 1 0, ops := bits w 15 4, tableLo := bits w 23 16, tableHi := bits w 31 24,
    base0 := regQ s 0x808 i, limit0 := regQ s 0x810 i, base1 := regQ s 0x818 i, limit1 := regQ s 0x820 i }

/-- PROT_COMMIT: a write of HIF_PROT_CMD. -/
def execProtCommit (p : HPort) (value : W32) (s : State) : Res :=
  if !barUp s then .next s else
  let v := value.toNat
  let at_ := regQ s 0x828 (portIx p)
  if !holdsSem s p then .next (discardRws p 0x830 s)
  else if s.host.protPending.any (fun c => c.port == p) then .next s
  else
    let s := setRegF 0x830 (portIx p) 5 0 v s
    if !bit v 6 || tooFar s at_ then .next s
    else
      let c : ProtChange := { port := p, window := bits v 5 0, content := stagedWindow s p, due := if at_ == 0 then now s + 1 else dueOf s at_ }
      .next (notePast at_ { s with host := { s.host with protPending := s.host.protPending ++ [c] } })

end Sys2Proof.Machine
end

