-- ==== Sys2Proof/Machine/Observe.lean ====
section
/-! DEFINITION. Trace port and drain, freezes, counter snapshots, tensor dumps and the reading of the event
recorder (R449 to R472). -/

namespace Sys2Proof.Machine

/-! ### Trace delivery (R450 to R455) -/

/-- The stream's buffer is enabled by OBS_TRACE_CTL and OBS_TRACE_CLUSTERS. -/
def streamOn (s : State) (n : Nat) : Bool :=
  if n < 32 then bit (regW s 0x400004 0) n else bit (regW s 0x400000 0) (if n < 36 then 11 else 10)

/-- A word as the port or the drain delivers it: a record, or GAP or POISONED in its place. What stands in the
unit and stamp of these two is not stated: free (DESIGN CHOICE, log 3). -/
def traceOut (w : FifoWord) (s : State) : Nat × State :=
  if !bit w.ctl.toNat 2 && !bit w.ctl.toNat 1 then (w.data.toNat, s)
  else
    let (v, s) := drawFree s
    let stamp := v % 2 ^ 39 * 2 ^ 8
    if bit w.ctl.toNat 2 then (0xFE + stamp + w.data.toNat % 2 ^ 32 * 2 ^ 80, s) else (0xFF + stamp, s)

/-- Take the oldest record of a stream. -/
def popTrace (n : Nat) (s : State) : Option Nat × State :=
  match mapGet n s.trace with
  | none => (none, s)
  | some st =>
    match fifoPop (traceCap n) st.fifo with
    | (none, _) => (none, s)
    | (some w, f) =>
      let (r, s) := traceOut w { s with trace := mapSet n { st with fifo := f } s.trace }
      (some r, s)

/-- Up to `max` records of one stream. -/
def popStream (n : Nat) : Nat → List Nat → State → List Nat × State
  | 0, acc, s => (acc, s)
  | k + 1, acc, s =>
    match popTrace n s with
    | (none, s) => (acc, s)
    | (some r, s) => popStream n k (acc ++ [r]) s

/-- Up to `max` records of the enabled streams. Records of different streams carry no order (R452): the
stream that comes first is free (DESIGN CHOICE, log 34). -/
def popRecords (max : Nat) (s : State) : List Nat × State :=
  let (v, s) := drawFree s
  let k := v % 38
  ((List.range' k (38 - k)) ++ List.range k).foldl (fun a n =>
    if streamOn a.2 n then popStream n (max - a.1.length) a.1 a.2 else a) ([], s)

/-- TRACE_FRAME: the trace port stands on N1 (R12, R454). -/
def execTraceFrame (s : State) : Res :=
  let c := regW s 0x400000 0
  if !bit c 0 || bit c 1 || !unitActive s (ucNet .n1) then .next s
  else
    let (rs, s) := popRecords 62 s
    let head := toLE 4 0x46545A46 ++ toLE 4 (s.tport.frameSeq % 2 ^ 32) ++ toLE 2 rs.length ++ List.replicate 6 0 ++
      ((rs.map (toLE 16)).flatten ++ List.replicate 992 0).take 992
    let frame := head ++ toLE 4 (crc32c head) ++ List.replicate 12 0
    .next { s with tport := { s.tport with frameSeq := (s.tport.frameSeq + 1) % 2 ^ 32, frame := frame } }

def drainPort (s : State) : HPort := if bit (regW s 0x400018 0) 5 then .h1 else .h0
def drainSize (s : State) : Nat := 2 ^ regF s 0x400018 0 4 0
/-- Records that the ring has room for: index RI − 1 is never written. -/
def drainRoom (s : State) : Nat :=
  let n := drainSize s
  (regW s 0x400028 0 + 2 * n - 1 - regW s 0x40002C 0 % n) % n

/-- Write records at WI and advance it. -/
def drainRecs (rs : List Nat) (s : State) : State :=
  rs.foldl (fun s r =>
    let wi := regW s 0x40002C 0
    setRegW 0x40002C 0 ((wi + 1) % drainSize s) (hostWrite (drainPort s) (regQ s 0x400010 0 + 16 * wi) (toLE 16 r) s)) s

/-- DRAIN_WRITE: a batch of at most `n` records and then WI; after a reset of the named port the records are
dropped and counted (R455). The drain stands on N1, as its registers do. -/
def execDrainWrite (n : Nat) (s : State) : Res :=
  let c := regW s 0x400000 0
  if !bit c 0 || !bit c 1 || !unitActive s (ucNet .n1) then .next s
  else if s.tport.drainOff then
    let (rs, s) := popRecords n s
    .next (addCnt (cntObs 1) rs.length s)
  else
    let (rs, s) := popRecords (min n (drainRoom s)) s
    if rs.isEmpty then .next s
    else
      let s := drainRecs rs s
      .next (hostWrite (drainPort s) (regQ s 0x400020 0) (toLE 8 (regW s 0x40002C 0)) s)

/-- DRAIN_RI_WRITE: only the port that PORT names moves RI. -/
def execDrainRiWrite (p : HPort) (value : W32) (s : State) : Res :=
  if !barUp s || drainPort s != p then .next s else .next (setRegF 0x400028 0 23 0 value.toNat s)

/-! ### Freezes (R459, R460) -/

/-- FREEZE: at its launch edge, or on the edge of its acceptance. -/
def execFreeze (s : State) : Res :=
  match takeDescAny (fun d => dOp d == 8) s with
  | none => .next s
  | some (d, s) => .next (schedule d .freeze (fun d _ s => freezeDesc d s) s)

/-- FREEZE_AT_MATCH: AT_EN clears whether or not the freeze is lost. -/
def execFreezeAtMatch (s : State) : Res :=
  if bit (regW s 0x400040 0) 2 && decide (nsT (regQ s 0x400048 0) ≤ now s) then
    .next (setRegF 0x400040 0 2 2 0 (takeFreeze 2 false s).2)
  else .next s

/-- FREEZE_IN_EDGE: this edge samples the pin high after it was low; the second edge after it freezes. -/
def execFreezeInEdge (s : State) : Res :=
  if bit (regW s 0x400040 0) 0 then .next { s with freeze := { s.freeze with inEdge := some 2 } } else .next s

/-- The counter of OBS_THRESH_IDX has reached OBS_THRESH_VALUE; of a command counter bits [47:0] count. -/
def threshHolds (s : State) : Bool :=
  let i := regF s 0x400050 0 14 0
  let cmd := (i < 8192 && (i % 8 == 5 || i % 8 == 6)) || (8192 ≤ i && i < 14336 && ((i - 8192) % 24 == 12 || (i - 8192) % 24 == 13))
  let v := cntGet s i
  decide (regQ s 0x400058 0 ≤ if cmd then v % 2 ^ 48 else v)

/-- THRESHOLD_MATCH: the next edge freezes. -/
def execThresholdMatch (s : State) : Res :=
  if bit (regW s 0x400040 0) 3 && threshHolds s then .next { s with freeze := { s.freeze with thresh := some 1 } } else .next s

/-- FREEZE_OUT_END. -/
def execFreezeOutEnd (s : State) : Res :=
  match s.freeze.out with
  | some t => if t ≤ now s then .next { s with freeze := { s.freeze with out := none } } else .next s
  | none => .next s

/-- Freezes by FREEZE_IN and the threshold that count down to this edge; THRESH_EN clears as its freeze fires. -/
def edgeFreezes (s : State) : State :=
  let f := s.freeze
  let down (o : Option Nat) : Option Nat := o.bind (fun n => if n ≤ 1 then none else some (n - 1))
  let hit (o : Option Nat) : Bool := (o.map (fun n => decide (n ≤ 1))).getD false
  let s := { s with freeze := { f with inEdge := down f.inEdge, thresh := down f.thresh } }
  let src := 4 * b2n (hit f.inEdge) + 16 * b2n (hit f.thresh)
  let s := if hit f.thresh then setRegF 0x400040 0 3 3 0 s else s
  if src == 0 then s else (takeFreeze src false s).2

/-! ### COUNTER_SNAPSHOT (R460, R461) -/

def snapLen : Nat := 157760

/-- COUNTER_SNAPSHOT: the copying begins; the lock holds since acceptance. -/
def execCounterSnapshot (s : State) : Res :=
  match takeDesc (fun d => dOp d == 7) s with
  | none => .next s
  | some (d, s) =>
    if dNum d 24 4 < snapLen then .next (complete d stFormat snapLen s)
    else .next { s with host := { s.host with snapReads := s.host.snapReads ++ [d] } }

def clusterMask (l : List Nat) : Nat := (l.map (fun k => 2 ^ k)).foldl (· + ·) 0

/-- The header and the 19,712 snapshot values. -/
def snapBytes (s : State) : Bytes :=
  let f := s.freeze
  toLE 4 0x4E535A46 ++ toLE 2 1 ++ toLE 1 f.sources ++ toLE 1 (b2n (!f.closed.isEmpty)) ++ toLE 4 f.seq ++ toLE 4 19712 ++
    toLE 8 (f.gt / 2 ^ 32) ++ toLE 8 (f.prev / 2 ^ 32) ++ toLE 4 (clusterMask ((f.closed.filter (fun n => decide (256 ≤ n) && decide (n < 288))).map (· - 256))) ++ List.replicate 28 0 ++
    ((List.range 19712).map (fun i => toLE 8 (mapGetD 0 i s.snaps))).flatten

/-- SNAPSHOT_COMPLETE. -/
def execSnapshotComplete (s : State) : Res :=
  match s.host.snapReads with
  | [] => .next s
  | d :: rest =>
    .next (completeBare d stOk (descWrite d (dNum d 16 8) (snapBytes s) { s with host := { s.host with snapReads := rest } }))

/-! ### Tensor dumps (R462 to R465) -/

/-- A part with its header and its padding to 16 bytes. -/
def partSpan (x : PartLoc) : Nat := 16 + (partBytes x + 15) / 16 * 16

def dumpLen (parts : List PartLoc) : Nat := 64 + (parts.map partSpan).foldl (· + ·) 0

def dPoint (d : Desc) : Nat := dNum d 16 1
def dDisarm (d : Desc) : Bool := bit (dNum d 17 1) 0
def dLayer (d : Desc) : W16 := BitVec.ofNat 16 (dNum d 24 2)

def setDumps (m : List (Nat × DumpPoint)) (s : State) : State := { s with host := { s.host with dumps := m } }

/-- DUMP_ARM: the point binds to the slot that is ACTIVE. -/
def execDumpArm (s : State) : Res :=
  match takeDesc (fun d => dOp d == 6 && !dDisarm d) s with
  | none => .next s
  | some (d, s) =>
    if (mapGet (dPoint d) s.host.dumps).isSome then .next (completeBare d stBusy s)
    else
      let id := BitVec.ofNat 20 (dNum d 20 4)
      match (activeSlot s).bind (fun sl => (tensorOf s sl id).map (fun t => (sl, t))) with
      | none => .next (completeBare d stNotFound s)
      | some (sl, t) =>
        if !t.layers.contains (dLayer d) then .next (completeBare d stNotFound s)
        else if dNum d 48 4 < dumpLen t.parts then .next (complete d stFormat (dumpLen t.parts) s)
        else
          let p : DumpPoint :=
            { desc := d, slot := sl, tensor := id, since := now s, seen := 0, marks := [], ends := [], ream := none, copied := [], op := 0,
              stampNs := 0, sub := 0, poison := false, stretched := false, gen := 0, reqIx := 0xFFFF, disarmed := false }
          .next (setDumps (mapSet (dPoint d) p s.host.dumps) s)

/-- DUMP_DISARM: a copy that has begun finishes first (R464). -/
def execDumpDisarm (s : State) : Res :=
  match takeDesc (fun d => dOp d == 6 && dDisarm d) s with
  | none => .next s
  | some (d, s) =>
    match mapGet (dPoint d) s.host.dumps with
    | none => .next (completeBare d stNotFound s)
    | some p =>
      if p.ream.isSome then .next (completeBare d stOk (setDumps (mapSet (dPoint d) { p with disarmed := true } s.host.dumps) s))
      else .next (completeBare d stOk (completeBare p.desc stNotFound (setDumps (mapDel (dPoint d) s.host.dumps) s)))

/-- A ream whose occurrences count for a point: of its slot, launched at or after acceptance, and with the named
request on the device that admitted it. -/
def dumpReam (s : State) (p : DumpPoint) (seq : W32) : Option Ream :=
  (reamOf s seq).bind (fun r =>
    let id := dNum p.desc 32 8
    let has := id == 0 || (r.share.isNone && r.reqs.any (fun k => ((getReq s k).map (fun q => q.id.toNat == id)).getD false))
    if r.slot == p.slot && r.launched && !r.abandoned && decide (p.since < nsT r.launchNs + gtStepUnits s) && has then some r else none)

/-- The core whose context has completed a command of a layer for a ream: the part's own core, or any for a
part that no core holds. -/
def dumpCore (s : State) (x : PartLoc) (seq : W32) (layer : W16) : Option CoreId :=
  let ran (c : CoreId) : Bool :=
    let k := getCtx (getCore s c) (ctxOf seq)
    k.ream == seq && k.lastLayer == layer && 0 < k.done
  let own (l : CoreId) : Option CoreId :=
    let c := coreFin (physCore s l)
    if ran c then some c else none
  match x with
  | .tile l _ _ => own l
  | .bank l _ => own l
  | _ => (List.finRange 256).find? ran

/-- A part's bytes as stored, its poison and the unit that holds it. -/
def readPart (x : PartLoc) (s : State) : (Bytes × Bool × UnitCode) × State :=
  match x with
  | .tile l a n =>
    let c := coreFin (physCore s l)
    ((ramRead (getCore s c).tile (64 * a) (64 * n), tilePoisoned (getCore s c) (64 * a) (64 * n), ucCore c), s)
  | .bank l b =>
    let c := coreFin (physCore s l)
    let k := getBank (getCore s c) b.val
    ((ramRead k.mem 0 24576, k.poison, ucCore c), s)
  | .clusterSram k a n =>
    let j := logicalClusterPhys s k.val
    let y := mapGetD ClusterState.reset j s.clusters
    let ls := sramLines y.sram y.sramPoison a n
    (((ls.map (·.1)).flatten, ls.any (·.2), unitCode 3 j), s)
  | .dieSram d a n =>
    let ls := sramLines (getDie s d).sram (getDie s d).sramPoison a n
    (((ls.map (·.1)).flatten, ls.any (·.2), ucSpine d), s)
  | .dpa a n =>
    let ((bs, bad), s) := readDpa a n s
    ((bs, bad, unitCode 5 (((place s (lineStripe (a / 64)) (lineSlot (a / 64)) (lineIx (a / 64))).map keyStack).getD 0)), s)

/-- The live copy of a static scale table, with the raises of its ended reams (R77), in the layout that the image
gives such a table and the manual does not (DESIGN CHOICE, log 35). -/
def scaleTable (s : State) (p : DumpPoint) (of : BitVec 20) : Bytes :=
  match tensorOf s p.slot of with
  | some t => Config.scaleBytes ((scalesAt s p.slot t (now s + 1)).map (·.2))
  | none => []

/-- A part's offset in the dump. -/
def partOff (parts : List PartLoc) (k : Nat) : Nat := dumpLen (parts.take k)

/-- Copy a part of the dumping ream into BUF. -/
def copyPart (n : Nat) (p : DumpPoint) (t : TensorDesc) (x : PartLoc) (k : Nat) (r : Ream) (c : Option CoreId) (s : State) : State :=
  let ((bs, bad, u), s) := readPart x s
  let bs := match t.tableOf with
    | some of => scaleTable s p of
    | none => bs
  let body := (bs ++ List.replicate (partBytes x) 0).take (partBytes x)
  let pad := List.replicate (partSpan x - 16 - partBytes x) (0 : Byte)
  let head := toLE 2 k ++ toLE 2 u.toNat ++ toLE 4 (partBytes x) ++ toLE 1 (b2n bad) ++ List.replicate 7 0
  let s := descWrite p.desc (dNum p.desc 40 8 + partOff t.parts k) (head ++ body ++ pad) s
  let (sub, s) := stampSub ((c.map ucCore).getD ucPackage) s
  let id := dNum p.desc 32 8
  let ix := (r.reqs.findIdx? (fun q => ((getReq s q).map (fun y => y.id.toNat == id)).getD false)).getD 0xFFFF
  let str := (r.cores ++ r.started).any (fun l =>
    [physCore s l, 256 + physCore s l / 8].any (fun n => slowSince s n (nsT r.launchNs)))
  let p : DumpPoint := { p with
    ream := some r.seq, copied := p.copied ++ [k], poison := p.poison || bad, stretched := p.stretched || str
    op := (c.map (fun c => (getCtx (getCore s c) (ctxOf r.seq)).lastOp)).getD 0
    stampNs := ((c.map (fun c => (getCore s c).lastRun)).getD (now s)) / 2 ^ 32
    sub := sub.toNat, gen := r.tgen, reqIx := if id == 0 then 0xFFFF else ix }
  setDumps (mapSet n p s.host.dumps) s

/-- A part of an occurrence that is not the dumping one has been produced; with its last part the occurrence
counts. -/
def notePart (n : Nat) (p : DumpPoint) (parts k : Nat) (seq : W32) (s : State) : State :=
  let had := ((p.marks.find? (fun m => m.1 == seq)).map (·.2)).getD []
  let now_ := setIns k had
  let rest := p.marks.filter (fun m => m.1 != seq)
  let p : DumpPoint := if now_.length == parts then { p with seen := p.seen + 1, marks := rest } else { p with marks := rest ++ [(seq, now_)] }
  setDumps (mapSet n p s.host.dumps) s

/-- DUMP_COPY: the command that produces a part has completed in a ream. At occurrence STEP the part is copied
(R462, R463; DEDUCED, log 36). -/
def execDumpCopy (point : Fin 16) (part : Nat) (ream : W32) (s : State) : Res :=
  match mapGet point.val s.host.dumps with
  | none => .next s
  | some p =>
    match tensorOf s p.slot p.tensor, dumpReam s p ream with
    | some t, some r =>
      match t.parts[part]? with
      | none => .next s
      | some x =>
        let c := dumpCore s x ream (dLayer p.desc)
        let came := if t.tableOf.isSome then p.ends.contains ream else c.isSome
        if !came || p.copied.contains part then .next s
        else if p.ream == some ream || (p.ream.isNone && p.seen == dNum p.desc 28 4 && !p.marks.any (fun m => m.1 == ream)) then
          .next (copyPart point.val p t x part r c s)
        else if p.ream.isSome then .next s
        else .next (notePart point.val p t.parts.length part ream s)
    | _, _ => .next s

/-- DUMP_COPY_END: with every part copied the header is written, the descriptor completes and the point
disarms (R463, R465). -/
def execDumpCopyEnd (point : Fin 16) (s : State) : Res :=
  match mapGet point.val s.host.dumps with
  | none => .next s
  | some p =>
    match tensorOf s p.slot p.tensor, p.ream with
    | some t, some seq =>
      let total := dumpLen t.parts
      if p.copied.length != t.parts.length then .next s
      else
        let d := p.desc
        let hash := ((getSlot s p.slot.val).hash ++ List.replicate 8 0).take 8
        let bs := toLE 4 0x55445A46 ++ toLE 2 1 ++ toLE 1 (dPoint d) ++
          toLE 1 (b2n p.poison + 2 * b2n p.stretched + 4 * b2n t.tableOf.isSome) ++ toLE 4 p.tensor.toNat ++ toLE 2 (dNum d 24 2) ++
          toLE 2 p.op.toNat ++ toLE 4 (dNum d 28 4) ++ toLE 4 seq.toNat ++ toLE 8 (dNum d 32 8) ++ hash ++ toLE 4 p.gen ++
          toLE 2 p.reqIx ++ toLE 2 t.parts.length ++ toLE 8 p.stampNs ++ toLE 1 p.sub ++ List.replicate 3 0 ++ toLE 4 total
        let s := addCnt (cntObs 5) total (incCnt (cntObs 4) (setDumps (mapDel point.val s.host.dumps) s))
        .next (complete d stOk total (descWrite d (dNum d 40 8) bs s))
    | _, _ => .next s

/-! ### The event recorder (R466 to R472) -/

/-- EVR_FLUSH: an open record is written as it stands. -/
def execEvrFlush (code : W16) (s : State) : Res :=
  match mapGet code.toNat s.recorder.opened with
  | some r => .next { s with recorder := mramWrite r s.recorder }
  | none => .next s

/-- EVR_RECORD_CLOSE: the record's window has ended. -/
def execEvrRecordClose (code : W16) (s : State) : Res :=
  match mapGet code.toNat s.recorder.opened with
  | some r => if r.endGt ≤ nowNs s then .next { s with recorder := closeRec code.toNat s.recorder } else .next s
  | none => .next s

/-- Sequence numbers held from a cursor on: those of the first area, then those of the second. -/
def heldSeqs (s : State) (cursor : Nat) : List Nat :=
  let w := s.recorder.written
  let lo := evrOldest s
  List.range' cursor (min w 2048 - cursor) ++ List.range' (max cursor lo) (w - max cursor lo)

/-- The records of a read, and its RESULT without HELD (R471). -/
def evrRead (s : State) (cursor window : Nat) : Bytes × Nat :=
  let rs := ((heldSeqs s cursor).filterMap (fun q => (evrGet s.recorder q).map (fun r => (q, r)))).take window
  let next := ((rs.getLast?).map (fun x => x.1 + 1)).getD cursor
  -- overwritten numbers lie from 2,048 to the oldest of the second area
  let skipped := rs.any (fun x => decide (evrOldest s ≤ x.1)) && decide (max cursor 2048 < evrOldest s)
  (((rs.map (fun x => evBytes x.2)).flatten), next % 2 ^ 32 + 2 ^ 32 * rs.length + 2 ^ 48 * b2n skipped)

/-- EVR_READ without a hold: the copying begins. -/
def execEvrRead (s : State) : Res :=
  match takeDesc (fun d => dOp d == 11 && !bit (dNum d 16 1) 0) s with
  | none => .next s
  | some (d, s) =>
    .next { s with host := { s.host with evrReads := s.host.evrReads ++ [{ desc := d, hold := false, got := [], result := 0 }] } }

/-- EVR_READ_HOLD: MRAM writes are suspended, and the records are those of this edge. -/
def execEvrReadHold (s : State) : Res :=
  match takeDesc (fun d => dOp d == 11 && bit (dNum d 16 1) 0) s with
  | none => .next s
  | some (d, s) =>
    if s.recorder.hold.isSome then .next (completeBare d stBusy s)
    else
      let (bs, res) := evrRead s (dNum d 24 4) (dNum d 20 4)
      let e : EvrRead := { desc := d, hold := true, got := bs, result := res + 2 ^ 49 }
      .next { s with host := { s.host with evrReads := s.host.evrReads ++ [e] }, recorder := { s.recorder with hold := some (now s) } }

/-- EVR_READ_COMPLETE: the oldest read has copied its records. -/
def execEvrReadComplete (s : State) : Res :=
  match s.host.evrReads with
  | [] => .next s
  | e :: rest =>
    let d := e.desc
    let (bs, res) := if e.hold then (e.got, e.result) else evrRead s (dNum d 24 4) (dNum d 20 4)
    let s := { s with host := { s.host with evrReads := rest } }
    let s := if e.hold then endHold s else s
    .next (complete d stOk res (descWrite d (dNum d 32 8) bs s))

/-- EVR_HOLD_TIMEOUT: a hold ends after 100 ms, and its read completes with BUSY. -/
def execEvrHoldTimeout (s : State) : Res :=
  match s.recorder.hold, takeFirst (fun e => e.hold) s.host.evrReads with
  | some t, some (e, rest) =>
    if now s < t + msT 100 then .next s
    else .next (completeBare e.desc stBusy (endHold { s with host := { s.host with evrReads := rest } }))
  | _, _ => .next s

end Sys2Proof.Machine
end

