-- ==== Sys2Proof/Machine/Boot.lean ====
section
/-! DEFINITION. Reset, cold start, firmware, fuses, customer keys, attestation, DOE and I3C (R425 to R448,
R482, R484, R485). -/

namespace Sys2Proof.Machine

def modBoot (f : BootState → BootState) (s : State) : State := { s with boot := f s.boot }
def setStage (n : Nat) (s : State) : State := setRegF 0x600000 0 2 0 n s
def setBootBit (b : Nat) (v : Bool) (s : State) : State := setRegF 0x600000 0 b b (b2n v) s

/-! ### Reset (R425, R482) -/

/-- The whole package is reset and held: fuses, flash and MRAM survive. -/
def powerReset (s : State) : State :=
  { State.reset with
    boot := { BootState.reset with fuses := s.boot.fuses, flash := s.boot.flash }
    recorder := { Recorder.empty with mram := s.recorder.mram, written := s.recorder.written, boot := s.recorder.boot }
    fresh := s.fresh, pending := s.pending }

/-- PORST_ASSERT. -/
def execPorstAssert (s : State) : Res := .next (powerReset s)

/-- AON_BROWNOUT: the device resets as under PORST_N. -/
def execAonBrownout (s : State) : Res := .next (powerReset s)

/-- Domains take a STATE as a stage of cold start reaches them; 0 leaves one as it is (DESIGN CHOICE, log 30). -/
def powerUp (st : Nat → Nat) (s : State) : State :=
  let dom (n : Nat) : Dom := if st n == 0 then getDom s n else { getDom s n with st := st n, gtNs := nowNs s, since := now s }
  { s with pwr := { s.pwr with doms := ((List.range 337).map (fun n => (n, dom n))).filter (fun p => p.2 != Dom.off) } }

/-- Stage 1: the always-on domain and the network-die uncores are up. -/
def stage1Doms (n : Nat) : Nat := if 334 ≤ n then 4 else 0

/-- Stage 3: cores, clusters, spines and lanes are up, and the pipelines of the ports, which are disabled, sleep. -/
def stage3Doms (n : Nat) : Nat := if n < 292 || (316 ≤ n && n < 332) then 4 else if 308 ≤ n && n < 316 then 2 else 0

/-- Stage 4: the stacks are up. -/
def stage4Doms (n : Nat) : Nat := if 292 ≤ n && n < 308 then 4 else 0

/-- PORST_RELEASE: stage 1. GT starts at 0, the straps are sampled, the quiet PLL locks and the recorder cuts
the records left open (R28, R426, R470, R484). -/
def execPorstRelease (straps : BitVec 4) (s : State) : Res :=
  if !s.boot.held then .next s
  else
    let s := modBoot (fun b => { b with held := false, straps := straps, i3cAddr := 0x50 + bits straps.toNat 2 1 }) s
    .next (cutRecords (powerUp stage1Doms { s with gt := 0, pwr := { s.pwr with qclk := true } }))

/-! ### Verification of a firmware copy (R431, R432) -/

def hdrBytes (h : Bytes) (off n : Nat) : Bytes := (h.drop off).take n
def fwSvn (c : FwCopy) : Nat := bNum c.hdr 8 4
def fwLen (h : Bytes) : Nat := bNum h 12 4

/-- MAGIC, FORMAT, KEY_SLOT, BODY_LEN and the reserved bytes are as R431 lays down (DEDUCED, log 38). -/
def fwFormat (h : Bytes) : Bool :=
  h.length == 512 && bNum h 0 4 == 0x46575A46 && bNum h 4 2 == 1 && decide (bNum h 6 1 < 4) && bNum h 7 1 == 0 &&
    decide (1048576 ≤ fwLen h) && decide (fwLen h ≤ 8388608) && (hdrBytes h 169 87).all (· == 0) && (hdrBytes h 352 160).all (· == 0)

/-- The key is that of a programmed slot in force, and the signature verifies under it. -/
def fwSigned (f : Fuses) (h : Bytes) : Bool :=
  let r := famGet { hash := [], programmed := false, revoked := false } f.roots (bNum h 6 1)
  let key := hdrBytes h 72 97
  r.programmed && !r.revoked && Config.sha384 key == r.hash && Config.ecdsaVerify key (hdrBytes h 0 256) (hdrBytes h 256 96)

def fwBodyOk (c : FwCopy) : Bool := c.body.length == fwLen c.hdr && Config.sha384 c.body == hdrBytes c.hdr 24 48

/-- A firmware copy verifies under a state of the fuses. -/
def fwVerifies (f : Fuses) (c : FwCopy) : Bool :=
  fwFormat c.hdr && fwSigned f c.hdr && decide (f.counter ≤ fwSvn c) && fwBodyOk c

def fwCopy (s : State) (b : Bool) : FwCopy := famGet FwCopy.empty s.boot.flash.fw (b2n b)

/-- The copy whose firmware runs (BOOT_FW_INFO.COPY). -/
def runningB (s : State) : Bool := bit (regW s 0x600014 0) 0

/-- BOOT_FW_INFO.INACTIVE_OK. -/
def setInactive (v : Bool) (s : State) : State := setRegF 0x600014 0 1 1 (b2n v) s
def setStandby (x : Option (Nat × FwCopy)) (s : State) : State :=
  setRegF 0x600014 0 2 2 (b2n x.isSome) (modBoot (fun b => { b with standby := x }) s)

/-- Firmware of a copy runs; the other copy is tested. -/
def runFw (copyB : Bool) (c : FwCopy) (s : State) : State :=
  let s := modBoot (fun b => { b with running := c }) s
  let s := setRegF 0x600014 0 0 0 (b2n copyB) (setRegW 0x600010 0 (fwSvn c) s)
  setInactive (fwVerifies s.boot.fuses (fwCopy s (!copyB))) s

/-- The directory copy with the higher sequence number of those whose CRC is good. -/
def goodDir (s : State) : Option DirCopy :=
  (s.boot.flash.dir.toList.filter (·.crcOk)).foldl (fun a d =>
    match a with
    | none => some d
    | some e => if e.seq < d.seq then some d else a) none

/-- FIRMWARE_VERIFY: stage 2. Without a good directory the copy tried first is free (DEDUCED, log 38). -/
def execFirmwareVerify (s : State) : Res :=
  if s.boot.held || s.boot.straps.getLsbD 3 || bootStage s != 0 then .next s
  else
    let (v, s) := drawFree s
    let pref := ((goodDir s).map (·.preferB)).getD (v % 2 == 1)
    let s := modBoot (fun b => { b with prefB := pref }) s
    let ok (b : Bool) : Bool := fwVerifies s.boot.fuses (fwCopy s b)
    let start (b : Bool) (s : State) : State :=
      powerUp stage3Doms (setStage 2 (runFw b (fwCopy s b) (modBoot (fun x => { x with fwUp := true, certs := x.flash.certs }) s)))
    if s.boot.straps.getLsbD 0 then .next (setStage 1 s)
    else if ok pref then .next (start pref s)
    else if ok (!pref) then .next (setBootBit 3 true (start (!pref) s))
    else .next (setStage 1 s)

/-! ### Stages 4 to 9 (R426 to R428) -/

/-- STACK_FILL_END: every line of every stack is zero with RELOC = 0 (R186). -/
def execStackFillEnd (s : State) : Res :=
  if !s.boot.fwUp || s.boot.filled then .next s
  else
    let s := { s with dsm := { s.dsm with cells := [], reloc := [], poison := [] } }
    .next (powerUp stage4Doms (modBoot (fun b => { b with filled := true }) s))

/-- The blocks of a configuration copy pass R357 to R359. -/
def cfgCopyOk (s : State) (c : CfgCopy) : Bool :=
  let pass {α β : Type} (x : Except α β) (f : β → Bool) : Bool :=
    match x with
    | .ok b => f b
    | .error _ => false
  c.crcOk &&
    (match c.bcb with
      | some b => pass (parseBlock false none b.length b s) (fun _ => true)
      | none => true) &&
    c.stored.all (fun x => pass (parseBlock true (some x.1) x.2.length x.2 s) (fun _ => true)) &&
    (List.range 16).all (fun n => !bit c.applied n || (mapGet n c.stored).isSome)

/-- CONFIG_LOAD: stage 6. With both copies bad the device starts with an empty BCB (R436). The role waits for
stage 9. -/
def execConfigLoad (s : State) : Res :=
  if !s.boot.filled || bootStage s != 2 then .next s
  else
    let s := setStage 3 (modBoot (fun b => { b with configAt := some (now s) }) s)
    match sortBy (fun a b => decide (b.seq < a.seq)) (s.boot.flash.cfg.toList.filter (cfgCopyOk s)) with
    | [] => .next (setBootBit 4 true s)
    | c :: _ =>
      let k : Cfg := { Cfg.empty with gen := s.host.cfg.gen, applied := c.applied, stored := c.stored, bcb := c.bcb }
      let s := match c.bcb with
        | some b => placeBcb (blockOf false b s) s
        | none => s
      .next (takeFields k s)

/-- A configured source of R428: PTP, PPS_REF or PPS. -/
def sourceAwaited (s : State) : Bool := decide (2 ≤ s.time.source) && !s.boot.timeDone

/-- TIME_LOCK_TIMEOUT: a source that has not locked 30 s after stage 6 is left in holdover (R428). -/
def execTimeLockTimeout (s : State) : Res :=
  match s.boot.configAt with
  | none => .next s
  | some t =>
    if !sourceAwaited s || s.time.locked || now s < t + nsT 30000000000 then .next s
    else
      let s := modBoot (fun b => { b with timeDone := true }) s
      .next (if s.time.holdover then s else enterHoldover s)

/-- Stage 8 ends on a locked source: one forward step to it at the next edge (R33, R426). `src` is the source's time. -/
def lockStep (src : W64) (s : State) : State :=
  if !sourceAwaited s then s
  else
    let s := modBoot (fun b => { b with timeDone := true }) s
    if stepAllowed s src.toNat false then modTime (fun t => { t with stepTo := some src, stepJoin := false }) s else s

/-- SERVING_ENTER: stage 8 ends first, and a step that it takes comes with the next edge; then the role is taken. A manager
or a standalone device serves; a worker joins, and WELCOME ends its stage 9 (R426, R427). -/
def execServingEnter (sourceNs : W64) (s : State) : Res :=
  if bootStage s != 3 || (sourceAwaited s && !s.time.locked) then .next s
  else if (lockStep sourceNs s).time.stepTo.isSome then .next (lockStep sourceNs s)
  else
    let s := lockStep sourceNs s
    let role := cfgField s 1 0
    let s := changeRole role s
    .next (if role == 2 then setStage 4 s else beginServing s)

/-! ### Management firmware (R436 to R440) -/

/-- WATCHDOG_EXPIRE: the ROM reloads the running copy and verifies it; one that fails leaves the firmware's state
as it was (DEDUCED, log 39). -/
def execWatchdogExpire (s : State) : Res :=
  if !s.boot.fwUp then .next s
  else
    let c := fwCopy s (runningB s)
    let s := if fwVerifies s.boot.fuses c then modBoot (fun b => { b with running := c }) s else s
    .next (devEvent 0x1006 ucPackage (fwSvn s.boot.running) (incCnt (cntSec 7) (setBootBit 6 true s)))

def fwBusy (s : State) : Bool := bit (regW s 0x600030 0) 3
def fwAction (s : State) : Nat := regF s 0x600030 0 1 0
def setFwStatus (st : Nat) (s : State) : State := setRegF 0x600030 0 15 8 st s
def setFwBusy (v : Bool) (s : State) : State := setRegF 0x600030 0 3 3 (b2n v) s
def onProbation (s : State) : Bool := bit (regW s 0x600000 0) 5

/-- FW_WRITE: GO with ACTION = WRITE. `hdr` and `body` are what stands at BOOT_FW_SRC. A header that fails is
refused before the erase; which of the two codes a low SVN or an unusable slot takes is open (DEDUCED, log 40). -/
def execFwWrite (p : HPort) (hdr body : Bytes) (s : State) : Res :=
  if !holdsSem s p then .next (discardRws p 0x600030 s)
  else if fwAction s != 1 || (hdr ++ body).length != regF s 0x600020 0 23 0 then .next s
  else if fwBusy s || s.boot.write.isSome || s.boot.switchAt.isSome || onProbation s then .next (setFwStatus stBusy s)
  else if !fwFormat hdr || body.length != fwLen hdr then .next (setFwStatus stFormat s)
  else if !fwSigned s.boot.fuses hdr then .next (setFwStatus stSignature s)
  else if bNum hdr 8 4 < s.boot.fuses.counter then
    let (v, s) := drawFree s
    .next (setFwStatus (if v % 2 == 0 then stSignature else stFormat) s)
  else
    let hold := bootStage s == 1
    let b := if hold then s.boot.prefB else !runningB s
    let w : FwWrite := { copy := b2n b, hold := hold, image := { hdr := hdr, body := body } }
    let s := modBoot (fun x => { x with write := some w, flash := { x.flash with fw := famSet x.flash.fw (b2n b) FwCopy.empty } }) s
    .next (setFwBusy true (setInactive false s))

/-- FW_WRITE_COMPLETE: read back, BODY_HASH checked and the body loaded into the standby bank; in HOLD, boot
restarts from stage 2 (R433, R438). -/
def execFwWriteComplete (readBackOk : Bool) (s : State) : Res :=
  match s.boot.write with
  | none => .next s
  | some w =>
    let ok := readBackOk && fwBodyOk w.image
    let e := s.fresh
    let got : FwCopy := if readBackOk then w.image else { hdr := w.image.hdr, body := Config.freeBytes e }
    let s := { s with fresh := s.fresh + 1 }
    let s := modBoot (fun x => { x with write := none, flash := { x.flash with fw := famSet x.flash.fw w.copy got } }) s
    let s := setFwBusy false (setFwStatus (if ok then stOk else stSignature) s)
    if !ok then .next s
    else
      let s := setStandby (some (w.copy, w.image)) (setInactive (fwVerifies s.boot.fuses w.image) s)
      .next (if w.hold then setStage 0 s else s)

/-- FW_SWITCH: GO with ACTION = SWITCH (R439). The status of one without a standby image is open (DEDUCED, log 40). -/
def execFwSwitch (p : HPort) (s : State) : Res :=
  let at_ := regQ s 0x600028 0
  if !holdsSem s p then .next (discardRws p 0x600030 s)
  else if fwAction s != 2 then .next s
  else if fwBusy s || s.boot.switchAt.isSome then .next (setFwStatus stBusy s)
  else if s.boot.standby.isNone then
    let (v, s) := drawFree s
    .next (setFwStatus (1 + v % 12) s)
  else if tooFar s at_ then .next (setFwStatus stFormat s)
  else .next (setFwBusy true (modBoot (fun b => { b with switchAt := some (dueOf s at_) }) (notePast at_ s)))

/-- FW_HANDOFF: at the launch edge the new firmware starts; the old one stays resident, and probation begins. -/
def execFwHandoff (s : State) : Res :=
  match s.boot.switchAt, s.boot.standby with
  | some t, some (c, img) =>
    if now s < t then .next s
    else
      let old := (b2n (runningB s), s.boot.running)
      let limit := now s + msT (regF s 0x600030 0 31 16)
      let s := modBoot (fun b => { b with switchAt := none, resident := some old, probation := some limit }) s
      let s := setStandby none (runFw (c == 1) img s)
      .next (incCnt (cntSec 6) (setFwBusy false (setFwStatus stOk (setBootBit 5 true s))))
  | _, _ => .next s

/-- The lower of two sequence numbers is written with the next one. -/
def staleIx (seqs : List Nat) : Nat := if seqs.getD 0 0 ≤ seqs.getD 1 0 then 0 else 1

/-- FW_HEALTH_REPORT: the directory prefers the new copy and probation ends (R440). -/
def execFwHealthReport (s : State) : Res :=
  if !onProbation s then .next s
  else
    let b := runningB s
    let dir := s.boot.flash.dir
    let seqs := dir.toList.map (·.seq)
    let new : DirCopy := { seq := max (seqs.getD 0 0) (seqs.getD 1 0) + 1, preferB := b, crcOk := true }
    .next (setBootBit 5 false (modBoot (fun x => { x with
      probation := none, prefB := b, flash := { x.flash with dir := famSet dir (staleIx seqs) new } }) s))

/-- PROBATION_EXPIRE: the device switches back, and the directory stays (R440). -/
def execProbationExpire (s : State) : Res :=
  match s.boot.probation, s.boot.resident with
  | some t, some (c, old) =>
    if now s < t then .next s
    else
      let bad := fwSvn s.boot.running
      let s := modBoot (fun b => { b with probation := none, resident := none }) s
      .next (devEvent 0x1007 ucPackage bad (setBootBit 7 true (setBootBit 5 false (runFw (c == 1) old s))))
  | _, _ => .next s

/-- CONFIG_COPY_WRITE: the copy with the lower sequence number takes the configuration (R436). -/
def execConfigCopyWrite (s : State) : Res :=
  if !s.boot.fwUp || !s.boot.cfgDirty then .next s
  else
    let c := s.host.cfg
    let seqs := s.boot.flash.cfg.toList.map (·.seq)
    let new : CfgCopy :=
      { seq := max (seqs.getD 0 0) (seqs.getD 1 0) + 1, bcb := c.bcb, stored := c.stored, applied := c.applied, crcOk := true }
    .next (modBoot (fun b => { b with cfgDirty := false, flash := { b.flash with cfg := famSet b.flash.cfg (staleIx seqs) new } }) s)

/-! ### Fuses and customer keys (R434, R435, R448) -/

def fuseBusy (s : State) : Bool := bit (regW s 0x608004 0) 10
def fuseTarget (s : State) : Nat := regF s 0x608004 0 8 2
def setFuseStatus (st : Nat) (s : State) : State := setRegF 0x608004 0 23 16 st s

/-- Begin to blow fuses, or refuse. A GO while BUSY has no effect (DEDUCED, log 41). -/
def fuseCmd (p : HPort) (action : Nat) (refused : Bool) (s : State) : State :=
  if !holdsSem s p then discardRws p 0x608004 s
  else if regF s 0x608004 0 1 0 != action || fuseBusy s then s
  else if refused || onProbation s then setFuseStatus stFormat s
  else setRegF 0x608004 0 10 10 1 (modBoot (fun b => { b with fuseJob := some (action, fuseTarget s) }) s)

/-- RAISE_COUNTER. -/
def execRaiseCounter (p : HPort) (s : State) : Res :=
  let t := fuseTarget s
  .next (fuseCmd p 1 (decide (t ≤ s.boot.fuses.counter) || decide (64 < t) || decide (fwSvn s.boot.running < t)) s)

def revoke (f : Fuses) (n : Nat) : Fuses :=
  { f with roots := famMap (fun i r => if i == n then { r with revoked := true } else r) f.roots }

/-- REVOKE_SLOT: refused when no flash copy would verify after it. -/
def execRevokeSlot (p : HPort) (s : State) : Res :=
  let t := fuseTarget s
  .next (fuseCmd p 2 (decide (3 < t) || !s.boot.flash.fw.toList.any (fwVerifies (revoke s.boot.fuses t))) s)

/-- FUSE_BLOW_END: fuses are only ever blown; the inactive copy may no longer verify. -/
def execFuseBlowEnd (s : State) : Res :=
  match s.boot.fuseJob with
  | none => .next s
  | some (a, t) =>
    let f := s.boot.fuses
    let f : Fuses := if a == 1 then { f with counter := max f.counter t } else revoke f t
    let s := modBoot (fun b => { b with fuses := f, fuseJob := none }) s
    let s := setRegF 0x608004 0 10 10 0 (setFuseStatus stOk s)
    .next (setInactive (bit (regW s 0x600014 0) 1 && fwVerifies f (fwCopy s (!runningB s))) s)

/-- A write of SEC_CUST_KEY.VALID. -/
def custKey (p : HPort) (valid : Bool) (s : State) : State :=
  if !holdsSem s p then discardRws p 0x608068 s else setCustKey (portIx p) (regF s 0x608064 (portIx p) 1 0) valid s

/-- CUST_KEY_INSTALL. -/
def execCustKeyInstall (p : HPort) (s : State) : Res := .next (custKey p true s)

/-- CUST_KEY_CLEAR. -/
def execCustKeyClear (p : HPort) (s : State) : Res := .next (custKey p false s)

/-! ### Attestation (R443, R444) -/

def padTo (n : Nat) (bs : Bytes) : Bytes := (bs ++ List.replicate n 0).take n

/-- The report of this edge. -/
def attestBytes (s : State) (nonce : Bytes) : Bytes :=
  let b := s.boot
  let f := b.fuses
  let c := s.host.cfg
  let slotHash (x : Slot) : Bytes := if x.st == 0 || x.st == 1 then List.replicate 48 0 else padTo 48 x.hash
  let sa := getSlot s 0
  let sb := getSlot s 1
  let body :=
    toLE 4 0x54415A46 ++ toLE 2 1 ++ toLE 2 512 ++ toLE 8 f.serial.toNat ++ toLE 8 (nowNs s) ++ padTo 32 nonce ++
    toLE 4 (fwSvn b.running) ++ toLE 1 (b2n (runningB s)) ++ toLE 1 f.counter ++
    toLE 1 (flagMask (f.roots.toList.map (·.revoked)) + 16 * flagMask (f.roots.toList.map (·.programmed))) ++ toLE 1 0xA1 ++
    padTo 48 Config.romHash ++ padTo 48 (Config.sha384 (hdrBytes b.running.hdr 0 256)) ++
    padTo 48 (Config.sha384 (c.bcb.getD [])) ++ padTo 48 (Config.sha384 ((c.stored.map (·.2)).flatten)) ++
    toLE 4 c.gen ++ toLE 2 c.applied ++ toLE 2 (flagMask ((List.range 16).map (fun n => (mapGet n c.stored).isSome))) ++
    slotHash sa ++ slotHash sb ++ toLE 1 sa.st ++ toLE 1 sb.st ++ toLE 1 1 ++ toLE 1 (sa.signers % 16 + 16 * (sb.signers % 16)) ++
    List.replicate 52 0
  body ++ padTo 96 (Config.ecdsaSign body)

/-- ATTEST: the request is queued at the security engine. -/
def execAttest (s : State) : Res :=
  match takeDesc (fun d => dOp d == 12) s with
  | none => .next s
  | some (d, s) =>
    if dNum d 56 4 < 512 then .next (complete d stFormat 56 s)
    else .next (modBoot (fun b => { b with attest := b.attest ++ [{ whom := .desc d, nonce := (d.bytes.drop 16).take 32 }] }) s)

def setDoe (p : HPort) (bs : Bytes) (s : State) : State := modBoot (fun b => { b with doe := mapSet (portIx p) bs b.doe }) s

/-- A data object: its two-DWORD header and payload padded to DWORDs. -/
def doeObject (vendor type : Nat) (payload : Bytes) : Bytes :=
  let n := (payload.length + 3) / 4
  toLE 4 (vendor + type * 2 ^ 16) ++ toLE 4 (2 + n) ++ padTo (4 * n) payload

/-- ATTEST_REPORT: the oldest request's report (R444). -/
def execAttestReport (s : State) : Res :=
  match s.boot.attest with
  | [] => .next s
  | a :: rest =>
    let bs := attestBytes s a.nonce
    let s := incCnt (cntSec 4) (modBoot (fun b => { b with attest := rest }) s)
    match a.whom with
    | .desc d => .next (completeBare d stOk (descWrite d (dNum d 48 8) bs s))
    | .doe p => .next (setDoe p (doeObject 0x2DA5 2 (toLE 4 stOk ++ bs)) s)

/-! ### DOE (R445) -/

/-- A malformed request or one that names nothing: a response of its own type whose DW2 is the status. -/
def doeError (p : HPort) (vendor type status : Nat) (s : State) : State :=
  setDoe p (doeObject vendor type (toLE 4 status)) (incCnt (cntSec 5) s)

/-- DOE_DISCOVERY: vendor, type and next index of an entry, as the standard defines; an index beyond the list
answers vendor 0xFFFF (PRESUMED, log 42). -/
def execDoeDiscovery (p : HPort) (index : Byte) (s : State) : Res :=
  let w (v t n : Nat) : Bytes := toLE 4 (v + t * 2 ^ 16 + n * 2 ^ 24)
  let r := match index.toNat with
    | 0 => w 0x0001 0x00 1
    | 1 => w 0x2DA5 0x01 2
    | 2 => w 0x2DA5 0x02 0
    | _ => w 0xFFFF 0x00 0
  .next (setDoe p (doeObject 0x0001 0x00 r) s)

/-- CERT_READ: up to 1,024 bytes of a certificate from an offset. -/
def execCertRead (p : HPort) (dw2 dw3 : W32) (s : State) : Res :=
  match s.boot.certs[dw2.toNat]? with
  | none => .next (doeError p 0x2DA5 1 stNotFound s)
  | some c =>
    let o := dw3.toNat
    if c.length < o then .next (doeError p 0x2DA5 1 stFormat s)
    else .next (setDoe p (doeObject 0x2DA5 1 (toLE 4 stOk ++ toLE 4 c.length ++ toLE 4 o ++ (c.drop o).take 1024)) s)

/-- DOE_ATTEST. -/
def execDoeAttest (p : HPort) (nonce : Bytes) (s : State) : Res :=
  if nonce.length != 32 then .next (doeError p 0x2DA5 2 stFormat s)
  else .next (modBoot (fun b => { b with attest := b.attest ++ [{ whom := .doe p, nonce := nonce }] }) s)

/-! ### I3C (R484, R485) -/

/-- I3C_WRITE: a private write of four bytes sets the offset; the device acts on no other. -/
def execI3cWrite (bytes : Bytes) (s : State) : Res :=
  if s.boot.fwUp && bytes.length == 4 then .next (modBoot (fun b => { b with i3cOff := leNat bytes }) s) else .next s

/-- The blocks that I3C reads: GT, PWR, FLT, BOOT and the HIF identification. -/
def i3cAllowed (o : Nat) : Bool :=
  (0x100000 ≤ o && o < 0x400000) || (0x600000 ≤ o && o < 0x608000) || [0x00, 0x10, 0x14].contains o

/-- The register depends on the reading port: its own copy, a selector or a capture of the port's. -/
def portOwn (o : Nat) : Bool :=
  match regFind (lineOff (normOff o)) with
  | some (r, _) => r.priv || r.sel.isSome || [0x10000C, 0x100010, 0x200044, 0x200048, 0x300014, 0x300018, 0x300040].contains r.base
  | none => false

/-- I3C_READ: four bytes of an allowed register, else 0. What a register that differs by port shows here is free
(DESIGN CHOICE, log 43). -/
def execI3cRead (s : State) : Res :=
  if !s.boot.fwUp then .next s
  else
    let o := s.boot.i3cOff
    if !i3cAllowed o || o % 4 != 0 then .next (modBoot (fun b => { b with i3cOut := toLE 4 0 }) s)
    else if portOwn o then
      let (v, s) := drawFree s
      .next (modBoot (fun b => { b with i3cOut := toLE 4 (v % 2 ^ 32) }) s)
    else .next (modBoot (fun b => { b with i3cOut := toLE 4 (readWord s .h0 o) }) s)

/-- DYNAMIC_ADDRESS_ASSIGNMENT. -/
def execDynamicAddressAssignment (addr : BitVec 7) (s : State) : Res :=
  if s.boot.fwUp then .next (modBoot (fun b => { b with i3cAddr := addr.toNat }) s) else .next s

end Sys2Proof.Machine
end

