-- ==== Sys2Proof/Machine/Issue.lean ====
section
/-! DEFINITION. The sequencer's choice between its two contexts: MMA, VEC and TREE issue by the order of R105. -/

namespace Sys2Proof.Machine

/-- The units of a core for which its contexts compete (R105). -/
inductive CoreUnit where
  | engine (m : MeId)
  | vector
  | tree
  deriving DecidableEq, Repr

/-- The context and the unit of a command that issues on core `c`: none for a command of another core; WAIT, SIGNAL, NOP
and END take no unit, nor do loads and stores. -/
def coreUnit (s : State) (c : CoreId) (i : Instr) : Option (CtxId × Option CoreUnit) :=
  let at_ (k : CoreId) (ctx : CtxId) (u : Option CoreUnit) : Option (CtxId × Option CoreUnit) := if k == c then some (ctx, u) else none
  match i with
  | .mma k ctx op _ => at_ k ctx ((engineFor s c op.engine []).map .engine)
  | .vec k ctx _ _ => at_ k ctx (some .vector)
  | .tree k ctx _ _ => at_ k ctx (some .tree)
  | .ldt k ctx _ _ => at_ k ctx none
  | .stt k ctx _ => at_ k ctx none
  | .nop k ctx _ => at_ k ctx none
  | .wait k ctx _ => at_ k ctx none
  | .signal k ctx _ => at_ k ctx none
  | .endProg k ctx _ => at_ k ctx none
  | _ => none

/-- What a command for one of these units does when it is its turn. -/
def issueNow (i : Instr) (s : State) : Res :=
  match i with
  | .mma k ctx op f => issueMma k ctx op f s
  | .vec k ctx op prog => issueVec k ctx op prog.words prog.resid s
  | .tree k ctx op f => issueTree k ctx op f s
  | _ => .next s

/-- A command is ready: it would issue in this state. -/
def readyNow (i : Instr) (s : State) : Bool :=
  match issueNow i s with
  | .next t => t != s
  | _ => false

/-- The next command that waits for the core's other context is ready for the same unit, and its ream has the lower
sequence number (R105). -/
def outranked (s : State) (c : CoreId) (ctx : CtxId) (u : Option CoreUnit) : Bool :=
  match s.pending.find? (fun i => (coreUnit s c i).any (fun p => p.1 != ctx)) with
  | none => false
  | some i =>
    match coreUnit s c i with
    | some (other, v) =>
      u.isSome && u == v && decide ((getCtx (getCore s c) other).ream < (getCtx (getCore s c) ctx).ream) && readyNow i s
    | none => false

/-- A command that would issue stands back for one of the other context that goes first; a stop stays what it is. -/
def standBack (held : Bool) (s : State) (r : Res) : Res :=
  match r with
  | .next t => .next (if held then s else t)
  | .fault e => .fault e
  | .refused e => .refused e

/-- MMA (R99, R105 to R107, R111). -/
def execMma (c : CoreId) (ctx : CtxId) (op : MmaOp) (f : EngineFault) (s : State) : Res :=
  standBack (outranked s c ctx ((engineFor s c op.engine []).map .engine)) s (issueMma c ctx op f s)

/-- VEC (R105, R113, R130). -/
def execVec (c : CoreId) (ctx : CtxId) (op : VecOp) (prog : VecProg) (s : State) : Res :=
  standBack (outranked s c ctx (some .vector)) s (issueVec c ctx op prog.words prog.resid s)

/-- TREE (R105, R170). -/
def execTree (c : CoreId) (ctx : CtxId) (op : TreeOp) (faults : List NodeFault) (s : State) : Res :=
  standBack (outranked s c ctx (some .tree)) s (issueTree c ctx op faults s)

end Sys2Proof.Machine
end

