-- ==== Sys2Proof/Machine/Receive.lean ====
section
/-! DEFINITION. The arrival of a frame on a port: its size, buffer room and FCS, and its hand-over to the group engine, to the
PTP clock, or to the pipeline (R18, R264, R265, R268, R369 to R372). -/

namespace Sys2Proof.Machine

/-- TYPE is one of R370's. -/
def knownType (t : Nat) : Bool := (1 ≤ t && t ≤ 5) || (0x10 ≤ t && t ≤ 0x1A)

/-- The group engine takes a frame that the packet path hands to it: its header and body are read, and it is dropped when the
receive queue of 4,096 frames is full (R369, R370, R372, R385). The manual names no counter for what a standalone device
drops, for reserved types, or for a frame of another version or a length that it does not hold; they count as FOREIGN_GROUP
(DESIGN CHOICE, log 26). -/
def groupTake (port : LaneId) (smac : Nat) (payload : Bytes) (s : State) : State :=
  let hdr := grpHdrOf payload
  let t := hdr.typ.toNat
  let body := bodyOf t ((payload.drop 32).take hdr.len.toNat)
  if 4096 ≤ s.grp.rx.length then s
  else if s.grp.role == 0 || hdr.groupId != groupId s || hdr.version != 1 || !knownType t || payload.length < 32 + hdr.len.toNat then grpCount 3 s
  else
    let member := hasId s && !hdr.srcUnassigned
    let other := hasId s && !hdr.dstUnassigned && hdr.dstId.val != s.grp.id
    let x : GrpRx := { port := port, gtNs := nowNs s, smac := smac, hdr := hdr, body := body }
    if member && hdr.epoch.toNat < s.grp.epoch.toNat then grpCount 2 s
    else if other then s
    else if member && s.grp.epoch.toNat < hdr.epoch.toNat && t != 0x19 then endOfShares (deliver x (adoptEpoch hdr.epoch port s))
    else deliver x s

/-- The counters of a frame that a port drops as it arrives, none for one that it takes: its size counts alone, and a frame
that finds no room is also counted when its FCS is bad (R18, R264, R265). -/
def arrivalDrop (g : Nat) (bytes : Bytes) (fcsGood : Bool) (s : State) : Option (List Nat) :=
  if bytes.length < 64 || portMaxFrame s g < bytes.length then some [2]
  else
    let full := !hasCells s (laneDie g) bytes.length false
    let ns := (if full then [4] else []) ++ (if fcsGood then [] else [1])
    if ns.isEmpty then none else some ns

def portParse (s : State) (g : Nat) (bytes : Bytes) : Parsed := parseFrame bytes (portPvid s g) (regF s (pp g 0x800008) 0 15 0)

/-- A frame of the group's EtherType to the port's own address leaves the packet path (R268). -/
def isGroup (s : State) (g : Nat) (p : Parsed) : Bool := p.etype == regF s (pp g 0x80000C) 0 15 0 && p.dmac == portMac s g

/-- A frame of the same GT and die with a later stamp, or with the same one and a higher port, has been taken: this one's command
comes too late. The frames of one edge are commanded in the order of their stamps, in which the learn arbiter and the meters take
them (R250, R325; DESIGN CHOICE, log 116). -/
def rxOutranked (s : State) (g : Nat) (sub : BitVec 6) : Bool :=
  let x := (getNet s (laneDie g)).lastRx
  x.1 == now s && decide (sub.toNat < x.2.1 || (sub.toNat = x.2.1 && g < x.2.2))

/-- FEC on a frame's lanes: codewords that were corrected, and with a bad FCS some that could not be, on one of the lanes. How many
is open (R18; DESIGN CHOICE, log 3). -/
def fecSeen (g : Nat) (fcsGood : Bool) (s : State) : State :=
  let (n, s) := drawFree s
  let s := addCnt (cntPort g 14) n s
  if fcsGood then s
  else
    let (m, s) := drawFree s
    let (l, s) := drawFree s
    let ls := portLanes s g
    let lane := ls.getD (l % ls.length) g
    let s := addCnt (cntPort g 15) m s
    if m == 0 then s else setSticky (pp lane (0x800010 + 4 * (lane % 8))) 0 3 s

/-- The checks of a port, and what follows them for a frame that passes. -/
def arrive (port : LaneId) (bytes : Bytes) (fcsGood : Bool) (sub : BitVec 6) (f : Parsed → State → State) (s : State) : Res :=
  let g := port.val
  if !portUp s g || (getEPort s g).pause || rxOutranked s g sub then .next s
  else
    let s := fecSeen g fcsGood s
    match arrivalDrop g bytes fcsGood s with
    | some ns => .next (ns.foldl (fun s n => incCnt (cntPort g n) s) s)
    | none =>
      let p := portParse s g bytes
      if p.etype == 0x8808 then .next (incCnt (cntPort g 3) s) else .next (f p (incCnt (cntPort g 0) (modNet (laneDie g) (fun x => { x with lastRx := (now s, sub.toNat, g) }) s)))

/-- A group frame: its sender is learned, and the group engine takes it. -/
def groupArrival (port : LaneId) (bytes : Bytes) (p : Parsed) (s : State) : State :=
  let g := port.val
  let s := (learnFrame (laneDie g) g p.smac p.outerVid (nowNs s) s).2
  groupTake port p.smac ((bytes.take (bytes.length - 4)).drop (14 + 4 * p.tags)) s

/-- A PTP frame: its sender is learned, and the clock takes it (R36). -/
def ptpArrival (port : LaneId) (bytes : Bytes) (sub : BitVec 6) (p : Parsed) (s : State) : State :=
  let g := port.val
  let s := (learnFrame (laneDie g) g p.smac p.outerVid (nowNs s) s).2
  ptpReceive g (nowNs s) bytes p { s with net := { s.net with
    ptp := s.net.ptp ++ [{ port := port, gtNs := nowNs s, sub := sub, bytes := bytes }] } }

/-- FRAME_RECEIVE: the last bit of a frame arrives on a port (R264, R265, R18, R268). -/
def execFrameReceive (port : LaneId) (bytes : Bytes) (fcsGood : Bool) (sub : BitVec 6) (s : State) : Res :=
  let g := port.val
  arrive port bytes fcsGood sub (fun p s =>
    if isGroup s g p then groupArrival port bytes p s
    else if isPtp p then ptpArrival port bytes sub p s
    else
      let s := if p.frag then incCnt (cntPort g 6) s else s
      if isClassM s g p then classMFrame g (nowNs s) sub bytes p s
      else classify g (nowNs s) sub bytes p false none [] (!p.ok) s) s

/-- GROUP_FRAME_RECEIVE: the arrival of a frame that is the group's; another frame's is FRAME_RECEIVE. -/
def execGroupFrameReceive (port : LaneId) (bytes : Bytes) (fin : FrameEnd) (s : State) : Res :=
  if isGroup s port.val (portParse s port.val bytes) then
    arrive port bytes fin.fcsGood fin.sub (fun p s => groupArrival port bytes p s) s
  else .next s

end Sys2Proof.Machine
end

