-- ==== Sys2Proof/Machine/Dispatch.lean ====
section
/-! DEFINITION. One arm for each command: its meaning. -/

namespace Sys2Proof.Machine

/-- The effect of a command on everything but the queue. -/
def exec (i : Instr) (s : State) : Host.Outcome State Fault Refusal :=
  match i with
  | .porstAssert => Sys2Proof.Machine.execPorstAssert s
  | .porstRelease straps => Sys2Proof.Machine.execPorstRelease straps s
  | .firmwareVerify => Sys2Proof.Machine.execFirmwareVerify s
  | .stackFillEnd => Sys2Proof.Machine.execStackFillEnd s
  | .configLoad => Sys2Proof.Machine.execConfigLoad s
  | .timeLockTimeout => Sys2Proof.Machine.execTimeLockTimeout s
  | .servingEnter sourceNs => Sys2Proof.Machine.execServingEnter sourceNs s
  | .hostLinkUp p => Sys2Proof.Machine.execHostLinkUp p s
  | .hostPortReset p kind => Sys2Proof.Machine.execHostPortReset p kind s
  | .frameReceive port bytes fcsGood sub => Sys2Proof.Machine.execFrameReceive port bytes fcsGood sub s
  | .groupFrameReceive port bytes fin => Sys2Proof.Machine.execGroupFrameReceive port bytes fin s
  | .flowUpdate => Sys2Proof.Machine.execFlowUpdate s
  | .flowInsert => Sys2Proof.Machine.execFlowInsert s
  | .flowSample => Sys2Proof.Machine.execFlowSample s
  | .sampleDispatch k => Sys2Proof.Machine.execSampleDispatch k s
  | .segmentSumDone c faults => Sys2Proof.Machine.execSegmentSumDone c faults s
  | .standOutputsReturn k => Sys2Proof.Machine.execStandOutputsReturn k s
  | .scoreWaitExpire d ix => Sys2Proof.Machine.execScoreWaitExpire d ix s
  | .admissionOffer => Sys2Proof.Machine.execAdmissionOffer s
  | .reamSeal => Sys2Proof.Machine.execReamSeal s
  | .prewake dom => Sys2Proof.Machine.execPrewake dom s
  | .launchEdge => Sys2Proof.Machine.execLaunchEdge s
  | .lateLaunch dom => Sys2Proof.Machine.execLateLaunch dom s
  | .programStart c ctx ream => Sys2Proof.Machine.execProgramStart c ctx ream s
  | .nop c ctx hdr => Sys2Proof.Machine.execNop c ctx hdr s
  | .mma c ctx op fault => Sys2Proof.Machine.execMma c ctx op fault s
  | .tileReexecute c m fault => Sys2Proof.Machine.execTileReexecute c m fault s
  | .mmaReissue c m fault => Sys2Proof.Machine.execMmaReissue c m fault s
  | .deckleStrikeClear c m => Sys2Proof.Machine.execDeckleStrikeClear c m s
  | .checkStrikeClear c m => Sys2Proof.Machine.execCheckStrikeClear c m s
  | .ldt c ctx op errs => Sys2Proof.Machine.execLdt c ctx op errs s
  | .stt c ctx op => Sys2Proof.Machine.execStt c ctx op s
  | .vec c ctx op prog => Sys2Proof.Machine.execVec c ctx op prog s
  | .tree c ctx op faults => Sys2Proof.Machine.execTree c ctx op faults s
  | .parityStrikeClear c => Sys2Proof.Machine.execParityStrikeClear c s
  | .wait c ctx op => Sys2Proof.Machine.execWait c ctx op s
  | .signal c ctx op => Sys2Proof.Machine.execSignal c ctx op s
  | .endProg c ctx hdr => Sys2Proof.Machine.execEndProg c ctx hdr s
  | .vnop c v => Sys2Proof.Machine.execVnop c v s
  | .add c v => Sys2Proof.Machine.execAdd c v s
  | .sub c v => Sys2Proof.Machine.execSub c v s
  | .mul c v => Sys2Proof.Machine.execMul c v s
  | .fma c v => Sys2Proof.Machine.execFma c v s
  | .residueStrikeClear c => Sys2Proof.Machine.execResidueStrikeClear c s
  | .div c v => Sys2Proof.Machine.execDiv c v s
  | .sqrt c v => Sys2Proof.Machine.execSqrt c v s
  | .max c v => Sys2Proof.Machine.execMax c v s
  | .min c v => Sys2Proof.Machine.execMin c v s
  | .abs c v => Sys2Proof.Machine.execAbs c v s
  | .neg c v => Sys2Proof.Machine.execNeg c v s
  | .mov c v => Sys2Proof.Machine.execMov c v s
  | .sel c v => Sys2Proof.Machine.execSel c v s
  | .and c v => Sys2Proof.Machine.execAnd c v s
  | .or c v => Sys2Proof.Machine.execOr c v s
  | .xor c v => Sys2Proof.Machine.execXor c v s
  | .shl c v => Sys2Proof.Machine.execShl c v s
  | .shra c v => Sys2Proof.Machine.execShra c v s
  | .shrl c v => Sys2Proof.Machine.execShrl c v s
  | .cmp c v => Sys2Proof.Machine.execCmp c v s
  | .mlog c v => Sys2Proof.Machine.execMlog c v s
  | .mcnt c v => Sys2Proof.Machine.execMcnt c v s
  | .setvl c v => Sys2Proof.Machine.execSetvl c v s
  | .cvt c v => Sys2Proof.Machine.execCvt c v s
  | .movi c v => Sys2Proof.Machine.execMovi c v s
  | .bcast c v => Sys2Proof.Machine.execBcast c v s
  | .iota c v => Sys2Proof.Machine.execIota c v s
  | .vld c v => Sys2Proof.Machine.execVld c v s
  | .vst c v => Sys2Proof.Machine.execVst c v s
  | .vlds c v => Sys2Proof.Machine.execVlds c v s
  | .vsts c v => Sys2Proof.Machine.execVsts c v s
  | .perm c v => Sys2Proof.Machine.execPerm c v s
  | .compress c v => Sys2Proof.Machine.execCompress c v s
  | .expand c v => Sys2Proof.Machine.execExpand c v s
  | .rsum c v => Sys2Proof.Machine.execRsum c v s
  | .rmean c v => Sys2Proof.Machine.execRmean c v s
  | .rmax c v => Sys2Proof.Machine.execRmax c v s
  | .rmin c v => Sys2Proof.Machine.execRmin c v s
  | .rargmax c v => Sys2Proof.Machine.execRargmax c v s
  | .rargmin c v => Sys2Proof.Machine.execRargmin c v s
  | .topk c v => Sys2Proof.Machine.execTopk c v s
  | .tmerge c v => Sys2Proof.Machine.execTmerge c v s
  | .exp c v => Sys2Proof.Machine.execExp c v s
  | .log c v => Sys2Proof.Machine.execLog c v s
  | .rsqrt c v => Sys2Proof.Machine.execRsqrt c v s
  | .tanh c v => Sys2Proof.Machine.execTanh c v s
  | .sigm c v => Sys2Proof.Machine.execSigm c v s
  | .gelu c v => Sys2Proof.Machine.execGelu c v s
  | .cvset c v => Sys2Proof.Machine.execCvset c v s
  | .setcc c v => Sys2Proof.Machine.execSetcc c v s
  | .size c v => Sys2Proof.Machine.execSize c v s
  | .cvtn c v => Sys2Proof.Machine.execCvtn c v s
  | .side c v => Sys2Proof.Machine.execSide c v s
  | .dcvn c v => Sys2Proof.Machine.execDcvn c v s
  | .cfl c v => Sys2Proof.Machine.execCfl c v s
  | .spineClipMerge d ream tensor => Sys2Proof.Machine.execSpineClipMerge d ream tensor s
  | .gather d cmd errs => Sys2Proof.Machine.execGather d cmd errs s
  | .pool d cmd errs => Sys2Proof.Machine.execPool d cmd errs s
  | .nluLookup u ream t key => Sys2Proof.Machine.execNluLookup u ream t key s
  | .lookupForward u => Sys2Proof.Machine.execLookupForward u s
  | .poolCombine d ream tensor => Sys2Proof.Machine.execPoolCombine d ream tensor s
  | .overhangRead u unit attempts => Sys2Proof.Machine.execOverhangRead u unit attempts s
  | .guardedWrite line data => Sys2Proof.Machine.execGuardedWrite line data s
  | .degradedRead line => Sys2Proof.Machine.execDegradedRead line s
  | .scrubPass st corrected ue => Sys2Proof.Machine.execScrubPass st corrected ue s
  | .stripeParityCheck => Sys2Proof.Machine.execStripeParityCheck s
  | .stackLost st => Sys2Proof.Machine.execStackLost st s
  | .stackRetire p => Sys2Proof.Machine.execStackRetire p s
  | .rebuildStep => Sys2Proof.Machine.execRebuildStep s
  | .tableInsert => Sys2Proof.Machine.execTableInsert s
  | .entryMove chain => Sys2Proof.Machine.execEntryMove chain s
  | .batchStage t => Sys2Proof.Machine.execBatchStage t s
  | .lateCommit t => Sys2Proof.Machine.execLateCommit t s
  | .retirementStart t => Sys2Proof.Machine.execRetirementStart t s
  | .retirementEnd t => Sys2Proof.Machine.execRetirementEnd t s
  | .tblRead p t => Sys2Proof.Machine.execTblRead p t s
  | .tblInsert p t => Sys2Proof.Machine.execTblInsert p t s
  | .tblUpdate p t => Sys2Proof.Machine.execTblUpdate p t s
  | .tblDelete p t => Sys2Proof.Machine.execTblDelete p t s
  | .tblMove p t => Sys2Proof.Machine.execTblMove p t s
  | .fwdRead p d => Sys2Proof.Machine.execFwdRead p d s
  | .fwdInsert p d => Sys2Proof.Machine.execFwdInsert p d s
  | .fwdUpdate p d => Sys2Proof.Machine.execFwdUpdate p d s
  | .fwdDelete p d => Sys2Proof.Machine.execFwdDelete p d s
  | .fwdMove p d => Sys2Proof.Machine.execFwdMove p d s
  | .learnHoldExpire d key => Sys2Proof.Machine.execLearnHoldExpire d key s
  | .agingVisit sweep bucket => Sys2Proof.Machine.execAgingVisit sweep bucket s
  | .pfxWrite p d cmd => Sys2Proof.Machine.execPfxWrite p d cmd s
  | .pfxRead p d cmd => Sys2Proof.Machine.execPfxRead p d cmd s
  | .ruleWrite p d cmd => Sys2Proof.Machine.execRuleWrite p d cmd s
  | .ruleRead p d cmd => Sys2Proof.Machine.execRuleRead p d cmd s
  | .quadModeWrite p d value => Sys2Proof.Machine.execQuadModeWrite p d value s
  | .portUp port => Sys2Proof.Machine.execPortUp port s
  | .laneLost lane => Sys2Proof.Machine.execLaneLost lane s
  | .portRewidth port => Sys2Proof.Machine.execPortRewidth port s
  | .laneRejoin lane => Sys2Proof.Machine.execLaneRejoin lane s
  | .laserLowLight lane power => Sys2Proof.Machine.execLaserLowLight lane power s
  | .shaperWheelSlot d => Sys2Proof.Machine.execShaperWheelSlot d s
  | .egressSelect port => Sys2Proof.Machine.execEgressSelect port s
  | .transmitEnd port => Sys2Proof.Machine.execTransmitEnd port s
  | .gateListChange port => Sys2Proof.Machine.execGateListChange port s
  | .gateApply p port => Sys2Proof.Machine.execGateApply p port s
  | .shaperConfig p d value => Sys2Proof.Machine.execShaperConfig p d value s
  | .meterConfig p d hi => Sys2Proof.Machine.execMeterConfig p d hi s
  | .responseBuild d ix ream => Sys2Proof.Machine.execResponseBuild d ix ream s
  | .responseCellWait d ix => Sys2Proof.Machine.execResponseCellWait d ix s
  | .requestReap d ix => Sys2Proof.Machine.execRequestReap d ix s
  | .fifoPop p d parityBad => Sys2Proof.Machine.execFifoPop p d parityBad s
  | .dropRest p d => Sys2Proof.Machine.execDropRest p d s
  | .slotDrained slot => Sys2Proof.Machine.execSlotDrained slot s
  | .segmentMove c => Sys2Proof.Machine.execSegmentMove c s
  | .standReloadEnd slot => Sys2Proof.Machine.execStandReloadEnd slot s
  | .gtReplicaSync drift => Sys2Proof.Machine.execGtReplicaSync drift s
  | .holdoverEnter => Sys2Proof.Machine.execHoldoverEnter s
  | .holdoverExit offsetPs => Sys2Proof.Machine.execHoldoverExit offsetPs s
  | .ppsInEdge => Sys2Proof.Machine.execPpsInEdge s
  | .gtSourceWrite p value => Sys2Proof.Machine.execGtSourceWrite p value s
  | .gtStep p => Sys2Proof.Machine.execGtStep p s
  | .gtReadCapture p => Sys2Proof.Machine.execGtReadCapture p s
  | .shadowRead p off => Sys2Proof.Machine.execShadowRead p off s
  | .logWordCapture p => Sys2Proof.Machine.execLogWordCapture p s
  | .peakRead => Sys2Proof.Machine.execPeakRead s
  | .registerWrite p off size8 value => Sys2Proof.Machine.execRegisterWrite p off size8 value s
  | .semReq p token => Sys2Proof.Machine.execSemReq p token s
  | .semRel p token => Sys2Proof.Machine.execSemRel p token s
  | .semLeaseExpire => Sys2Proof.Machine.execSemLeaseExpire s
  | .hdmRead p addr err => Sys2Proof.Machine.execHdmRead p addr err s
  | .hdmWrite p addr data => Sys2Proof.Machine.execHdmWrite p addr data s
  | .backInvalidate p line dirty => Sys2Proof.Machine.execBackInvalidate p line dirty s
  | .hdmCommit p base size => Sys2Proof.Machine.execHdmCommit p base size s
  | .sqDoorbell p ring value => Sys2Proof.Machine.execSqDoorbell p ring value s
  | .cqDoorbell p ring value => Sys2Proof.Machine.execCqDoorbell p ring value s
  | .sqLineSnoop p ring flags => Sys2Proof.Machine.execSqLineSnoop p ring flags s
  | .sqEnable p ring cfg => Sys2Proof.Machine.execSqEnable p ring cfg s
  | .sqDisable p ring cfg => Sys2Proof.Machine.execSqDisable p ring cfg s
  | .sqStopped p ring => Sys2Proof.Machine.execSqStopped p ring s
  | .cqEnable p ring cfg => Sys2Proof.Machine.execCqEnable p ring cfg s
  | .cqCoalesceTimer p ring => Sys2Proof.Machine.execCqCoalesceTimer p ring s
  | .descriptorFetch p ring line => Sys2Proof.Machine.execDescriptorFetch p ring line s
  | .descriptorAccept p ring => Sys2Proof.Machine.execDescriptorAccept p ring s
  | .loadImage => Sys2Proof.Machine.execLoadImage s
  | .loadImageEnd slot env content img => Sys2Proof.Machine.execLoadImageEnd slot env content img s
  | .activateSlot => Sys2Proof.Machine.execActivateSlot s
  | .overlayStore block => Sys2Proof.Machine.execOverlayStore block s
  | .overlayApplySet => Sys2Proof.Machine.execOverlayApplySet s
  | .replaceBcb block => Sys2Proof.Machine.execReplaceBcb block s
  | .tableBatch src => Sys2Proof.Machine.execTableBatch src s
  | .infer body => Sys2Proof.Machine.execInfer body s
  | .dumpArm => Sys2Proof.Machine.execDumpArm s
  | .dumpDisarm => Sys2Proof.Machine.execDumpDisarm s
  | .dumpCopy point part ream => Sys2Proof.Machine.execDumpCopy point part ream s
  | .dumpCopyEnd point => Sys2Proof.Machine.execDumpCopyEnd point s
  | .counterSnapshot => Sys2Proof.Machine.execCounterSnapshot s
  | .freeze => Sys2Proof.Machine.execFreeze s
  | .timeSetSource => Sys2Proof.Machine.execTimeSetSource s
  | .timeSetRate => Sys2Proof.Machine.execTimeSetRate s
  | .timeStep => Sys2Proof.Machine.execTimeStep s
  | .timeRead => Sys2Proof.Machine.execTimeRead s
  | .groupList => Sys2Proof.Machine.execGroupList s
  | .groupEvict => Sys2Proof.Machine.execGroupEvict s
  | .groupSetHolders => Sys2Proof.Machine.execGroupSetHolders s
  | .groupHandover => Sys2Proof.Machine.execGroupHandover s
  | .groupLeave => Sys2Proof.Machine.execGroupLeave s
  | .evrRead => Sys2Proof.Machine.execEvrRead s
  | .evrReadHold => Sys2Proof.Machine.execEvrReadHold s
  | .evrHoldTimeout => Sys2Proof.Machine.execEvrHoldTimeout s
  | .attest => Sys2Proof.Machine.execAttest s
  | .attestReport => Sys2Proof.Machine.execAttestReport s
  | .protCommit p value => Sys2Proof.Machine.execProtCommit p value s
  | .announceSend => Sys2Proof.Machine.execAnnounceSend s
  | .announce => Sys2Proof.Machine.execAnnounce s
  | .welcome => Sys2Proof.Machine.execWelcome s
  | .refuse => Sys2Proof.Machine.execRefuse s
  | .heartbeatSend => Sys2Proof.Machine.execHeartbeatSend s
  | .heartbeat => Sys2Proof.Machine.execHeartbeat s
  | .ack => Sys2Proof.Machine.execAck s
  | .retransmit peer => Sys2Proof.Machine.execRetransmit peer s
  | .write => Sys2Proof.Machine.execWrite s
  | .work => Sys2Proof.Machine.execWork s
  | .shareEnd ream slot launch share => Sys2Proof.Machine.execShareEnd ream slot launch share s
  | .result => Sys2Proof.Machine.execResult s
  | .refuseWork => Sys2Proof.Machine.execRefuseWork s
  | .journal => Sys2Proof.Machine.execJournal s
  | .release => Sys2Proof.Machine.execRelease s
  | .members => Sys2Proof.Machine.execMembers s
  | .table => Sys2Proof.Machine.execTable s
  | .leave => Sys2Proof.Machine.execLeave s
  | .promote => Sys2Proof.Machine.execPromote s
  | .probe => Sys2Proof.Machine.execProbe s
  | .workerReady peer => Sys2Proof.Machine.execWorkerReady peer s
  | .peerLost peer => Sys2Proof.Machine.execPeerLost peer s
  | .probeSend => Sys2Proof.Machine.execProbeSend s
  | .selfPromote => Sys2Proof.Machine.execSelfPromote s
  | .leaveTimeout => Sys2Proof.Machine.execLeaveTimeout s
  | .trackerEmptyJoin => Sys2Proof.Machine.execTrackerEmptyJoin s
  | .canopyReport node r => Sys2Proof.Machine.execCanopyReport node r s
  | .mergeWindowEnd node code suspect alt => Sys2Proof.Machine.execMergeWindowEnd node code suspect alt s
  | .rootAction unit => Sys2Proof.Machine.execRootAction unit s
  | .keepaliveSend silent => Sys2Proof.Machine.execKeepaliveSend silent s
  | .nodeLost unit => Sys2Proof.Machine.execNodeLost unit s
  | .reamRelaunch ream => Sys2Proof.Machine.execReamRelaunch ream s
  | .memTimeout reporter st layer op => Sys2Proof.Machine.execMemTimeout reporter st layer op s
  | .fenceCmd p => Sys2Proof.Machine.execFenceCmd p s
  | .unfenceCmd p => Sys2Proof.Machine.execUnfenceCmd p s
  | .unfenceApply => Sys2Proof.Machine.execUnfenceApply s
  | .handoverClear p => Sys2Proof.Machine.execHandoverClear p s
  | .coreSleep c => Sys2Proof.Machine.execCoreSleep c s
  | .clusterSleep k => Sys2Proof.Machine.execClusterSleep k s
  | .stackSelfRefresh st => Sys2Proof.Machine.execStackSelfRefresh st s
  | .laneStandby lane => Sys2Proof.Machine.execLaneStandby lane s
  | .sleepEntryEnd dom => Sys2Proof.Machine.execSleepEntryEnd dom s
  | .demandWake dom => Sys2Proof.Machine.execDemandWake dom s
  | .wakeEnd dom => Sys2Proof.Machine.execWakeEnd dom s
  | .wakeFail dom => Sys2Proof.Machine.execWakeFail dom s
  | .droop k => Sys2Proof.Machine.execDroop k s
  | .droopRecover k => Sys2Proof.Machine.execDroopRecover k s
  | .powerCapWindow watts => Sys2Proof.Machine.execPowerCapWindow watts s
  | .thermalThrottle d temp => Sys2Proof.Machine.execThermalThrottle d temp s
  | .thermalRelease d temp => Sys2Proof.Machine.execThermalRelease d temp s
  | .thermtrip d => Sys2Proof.Machine.execThermtrip d s
  | .qclkUnlock => Sys2Proof.Machine.execQclkUnlock s
  | .qclkRelock => Sys2Proof.Machine.execQclkRelock s
  | .avsRetry d acked => Sys2Proof.Machine.execAvsRetry d acked s
  | .aonBrownout => Sys2Proof.Machine.execAonBrownout s
  | .watchdogExpire => Sys2Proof.Machine.execWatchdogExpire s
  | .fwWrite p hdr body => Sys2Proof.Machine.execFwWrite p hdr body s
  | .fwSwitch p => Sys2Proof.Machine.execFwSwitch p s
  | .fwHandoff => Sys2Proof.Machine.execFwHandoff s
  | .fwHealthReport => Sys2Proof.Machine.execFwHealthReport s
  | .probationExpire => Sys2Proof.Machine.execProbationExpire s
  | .configCopyWrite => Sys2Proof.Machine.execConfigCopyWrite s
  | .raiseCounter p => Sys2Proof.Machine.execRaiseCounter p s
  | .revokeSlot p => Sys2Proof.Machine.execRevokeSlot p s
  | .custKeyInstall p => Sys2Proof.Machine.execCustKeyInstall p s
  | .custKeyClear p => Sys2Proof.Machine.execCustKeyClear p s
  | .doeDiscovery p index => Sys2Proof.Machine.execDoeDiscovery p index s
  | .certRead p dw2 dw3 => Sys2Proof.Machine.execCertRead p dw2 dw3 s
  | .doeAttest p nonce => Sys2Proof.Machine.execDoeAttest p nonce s
  | .i3cWrite bytes => Sys2Proof.Machine.execI3cWrite bytes s
  | .i3cRead => Sys2Proof.Machine.execI3cRead s
  | .traceFrame => Sys2Proof.Machine.execTraceFrame s
  | .drainWrite n => Sys2Proof.Machine.execDrainWrite n s
  | .drainRiWrite p value => Sys2Proof.Machine.execDrainRiWrite p value s
  | .freezeAtMatch => Sys2Proof.Machine.execFreezeAtMatch s
  | .freezeInEdge => Sys2Proof.Machine.execFreezeInEdge s
  | .thresholdMatch => Sys2Proof.Machine.execThresholdMatch s
  | .freezeOutEnd => Sys2Proof.Machine.execFreezeOutEnd s
  | .evrFlush code => Sys2Proof.Machine.execEvrFlush code s
  | .evrRecordClose code => Sys2Proof.Machine.execEvrRecordClose code s
  | .ppsOutRise => Sys2Proof.Machine.execPpsOutRise s
  | .ppsOutFall => Sys2Proof.Machine.execPpsOutFall s
  | .feltLinkLost link => Sys2Proof.Machine.execFeltLinkLost link s
  | .fwWriteComplete readBackOk => Sys2Proof.Machine.execFwWriteComplete readBackOk s
  | .fuseBlowEnd => Sys2Proof.Machine.execFuseBlowEnd s
  | .snapshotComplete => Sys2Proof.Machine.execSnapshotComplete s
  | .evrReadComplete => Sys2Proof.Machine.execEvrReadComplete s
  | .dynamicAddressAssignment addr => Sys2Proof.Machine.execDynamicAddressAssignment addr s

end Sys2Proof.Machine
end

