-- ==== Sys2Proof/Machine/Tick.lean ====
section
/-! DEFINITION. The quiet-clock edge that a step on an empty queue makes (R28, R29; DESIGN CHOICE, log 1). -/

namespace Sys2Proof.Machine

/-- A step that waits for the next edge and is still allowed there (R33). -/
def stepTarget (s : State) : Option Nat :=
  match s.time.stepTo with
  | some t => if stepAllowed s t.toNat s.time.stepJoin then some t.toNat else none
  | none => none

/-- GT of the next edge: 10 ns and the rate adjustment on, or the target of a step (R28, R30, R33). -/
def nextGt (s : State) : BitVec 96 :=
  match stepTarget s with
  | some t => BitVec.ofNat 96 (nsT t)
  | none => BitVec.ofNat 96 (now s + gtStepUnits s)

/-- GT at the edge: a step that has become impossible is refused; launch entries whose edge this is are freed, and the counters
as they stand are what a freeze on this edge samples (R33, R40, R44). -/
def advance (s : State) : State :=
  let t := if s.time.stepTo.isSome && (stepTarget s).isNone then setSticky 0x100004 0 4 s else s
  let t := modTime (fun x => { x with stepTo := none, stepJoin := false, prevGt := s.gt, edgeFresh := s.fresh })
    { t with gt := nextGt s, freeze := { s.freeze with edge := s.counters } }
  edgeLaunches t

/-- One quiet-clock edge: the sweeps' visits of the edge before end (R256), GT advances, freezes that fall on the edge are taken before any change of it (R41, R459),
changes of one table entry commit (R246) and the handover conditions are evaluated (R410). While PORST_N is held
low nothing happens. -/
def tick (s : State) : State :=
  if s.boot.held then s
  else
    evalHandover (commitCmds (edgeFreezes (advance (endVisits s))))

end Sys2Proof.Machine
end

