-- ==== Sys2Proof/Safety.lean ====
section
/-! DEFINITION. What counts as a safe run, and the terms in which the claims speak of what a command does and
leaves. -/

namespace Sys2Proof.Machine

/-- A safe run of `n` steps: no step ends in a fault or a refusal. -/
def SafeRun : Nat → State → Prop
  | 0, _ => True
  | n + 1, s => ∃ t, step s = .next t ∧ SafeRun n t

/-! ### Vector instructions (R133, R140, R159) -/

/-- VE_STATUS of a core gains the flags listed and keeps the others (R159). -/
def flagsAdded (c : CoreId) (fs : List Nat) (s t : State) : Prop :=
  ∀ b < 32, bit (regW t 0xF00400 c.val) b = (bit (regW s 0xF00400 c.val) b || fs.contains b)

/-- What a vector instruction leaves: everything but its core, its core's VE_STATUS, the counters `cs`, VE_INSTR, which
counts it, and the model's counter for free values. -/
def vecFrame (c : CoreId) (cs : List Nat) (s t : State) : Prop :=
  t = { s with cores := t.cores, regs := t.regs, counters := t.counters, fresh := t.fresh } ∧
  (∀ d, d ≠ c → getCore t d = getCore s d) ∧
  (∀ k, k ≠ regKey 0xF00400 c.val → mapGet k t.regs = mapGet k s.regs) ∧
  (∀ k, k ≠ cntCore c.val 1 → k ∉ cs → cntGet t k = cntGet s k) ∧
  cntGet t (cntCore c.val 1) = min (cntGet s (cntCore c.val 1) + 1) (2 ^ 64 - 1)

/-- What an instruction with destinations `vds` leaves of its core: the other V registers, every byte of the banks
outside those columns, and all but the destinations' poison, the record of the last flag and the position. -/
def destFrame (vds : List (BitVec 8)) (x y : CoreState) : Prop :=
  y = { x with
    banks := y.banks
    ve := { x.ve with
      regs := y.ve.regs, regPoison := y.ve.regPoison, cleanCols := y.ve.cleanCols, flagOp := y.ve.flagOp,
      flagLayer := y.ve.flagLayer, flagPos := y.ve.flagPos, flagBit := y.ve.flagBit, pos := x.ve.pos + 1 } } ∧
  (∀ n, isVReg n = true → n ∉ vds → readVec y n = readVec x n ∧ vecPoison y n = vecPoison x n) ∧
  (∀ w a, (∀ vd ∈ vds, isVReg vd = true ∨ w ≠ winOf vd.toNat ∨ a < 512 * colOf vd.toNat ∨ 512 * colOf vd.toNat + 512 ≤ a) →
    ramGet (getBank y w).mem a = ramGet (getBank x w).mem a)

/-- The poison of a destination: that of what the instruction read, and a V register that keeps a lane stays poisoned
(R140). -/
def destPoison (vd : BitVec 8) (poison keeps : Bool) (x y : CoreState) : Prop :=
  if isVReg vd then vecPoison y vd = (poison || (keeps && vecPoison x vd)) else poison = true → vecPoison y vd = true

/-- Lane i of a destination by R133: the result in an active lane, else 0 or the old value by MZ. -/
def masked (v : VOps) (x : CoreState) (f : Nat → W32) (i : Nat) : W32 :=
  if laneActive x v.msk i then f i else if v.mz then 0 else laneOf (readVec x v.vd) i

/-- Some lane of the destination keeps its old value by R133. -/
def keepsLane (v : VOps) (x : CoreState) : Bool := !v.mz && (List.range 128).any (fun i => !laneActive x v.msk i)

/-- The flags of a lane-wise instruction: those that some active lane raises, and POISON_SEEN (R136, R140). -/
def laneFlags (v : VOps) (srcs : List (BitVec 8)) (f : Nat → LaneOut) (x : CoreState) : List Nat :=
  let any (p : LaneOut → Bool) : Bool := (List.range 128).any (fun i => laneActive x v.msk i && p (f i))
  flagList [(any (·.invalid), vfInvalid), (any (·.overflow), vfOverflow), (any (·.sat), vfSat), (srcPoison x v srcs, vfPoison)]

/-- The lanes of the destination `vd` are `f`, its poison is as given, the flags `fs` are added, and all else is left. -/
def destWrites (c : CoreId) (vd : BitVec 8) (f : Nat → W32) (poison keeps : Bool) (fs cs : List Nat) (s t : State) : Prop :=
  (∀ i < 128, laneOf (readVec (getCore t c) vd) i = f i) ∧ destPoison vd poison keeps (getCore s c) (getCore t c) ∧
  flagsAdded c fs s t ∧ destFrame [vd] (getCore s c) (getCore t c) ∧ vecFrame c cs s t

/-- A lane-wise instruction's whole effect, from its outcome in each lane. -/
def laneWise (c : CoreId) (v : VOps) (srcs : List (BitVec 8)) (f : CoreState → Nat → LaneOut) (s t : State) : Prop :=
  let x := getCore s c
  destWrites c v.vd (masked v x (fun i => (f x i).w)) (srcPoison x v srcs) (keepsLane v x) (laneFlags v srcs (f x) x) [] s t

/-- What an instruction with a mask destination leaves of its core. -/
def maskFrame (vd : BitVec 8) (x y : CoreState) : Prop :=
  y = { x with ve := { x.ve with
    masks := y.ve.masks, maskPoison := y.ve.maskPoison, flagOp := y.ve.flagOp, flagLayer := y.ve.flagLayer,
    flagPos := y.ve.flagPos, flagBit := y.ve.flagBit, pos := x.ve.pos + 1 } } ∧
  ∀ n, n ≠ vd.toNat → readMask y n = readMask x n ∧ maskPoisoned y n = maskPoisoned x n

/-- What a store to tile memory leaves of its core. -/
def tileFrame (x y : CoreState) : Prop :=
  y = { x with
    tile := y.tile, tilePoison := y.tilePoison
    ve := { x.ve with flagOp := y.ve.flagOp, flagLayer := y.ve.flagLayer, flagPos := y.ve.flagPos, flagBit := y.ve.flagBit,
                      pos := x.ve.pos + 1 } }

/-- What a change of the convert slot that an instruction names leaves of its core: the other slots, and all else. -/
def slotFrame (v : VOps) (x y : CoreState) : Prop :=
  y = { x with ctxs := y.ctxs, ve := { x.ve with pos := x.ve.pos + 1 } } ∧
  ∀ w : VOps, w.ty ≠ v.ty → getSlot8 y w = getSlot8 x w

/-- A mask destination with the predicate `f` in its active lanes (R133). -/
def maskWrites (v : VOps) (x : CoreState) (f : Nat → Bool) (y : CoreState) : Prop :=
  ∀ i < 128, (readMask y v.vd.toNat).getLsbD i =
    if laneActive x v.msk i then f i else if v.mz then false else (readMask x v.vd.toNat).getLsbD i

/-- A result of R150's table that is neither exact nor special: within `ulps` units of every point of an enclosure of the exact
result, or the correctly rounded middle of it. -/
def nearExact (ulps : Nat) (e : Encl) (r : FV) : Prop := withinBound ulps e r = true ∨ r = enclMid e

/-- What R150's table says of the FP32 result and INVALID of a function at a value. -/
def transTable (fn : TransFn) (x : FV) (r : FV × Bool) : Prop :=
  match fn, x with
  | _, .nan => r = (.nan, false)
  | .exp, .inf n => r = (if n then FV.zero else .inf false, false)
  | .exp, .fin n m e =>
    (m = 0 → r = (.fin false 1 0, false)) ∧ (cmpMicro x false 88722840 = .gt → m ≠ 0 → r = (.inf false, false)) ∧
    (cmpMicro x true 103972084 = .lt → m ≠ 0 → cmpMicro x false 88722840 ≠ .gt → r = (FV.zero, false)) ∧
    (m ≠ 0 → cmpMicro x false 88722840 ≠ .gt → cmpMicro x true 103972084 ≠ .lt → nearExact 2 (expEncl n m e) r.1 ∧ r.2 = false)
  | .log, .inf n => r = (if n then .nan else .inf false, n)
  | .log, .fin n m e =>
    (m = 0 → r = (.inf true, false)) ∧ (m ≠ 0 → n = true → r = (.nan, true)) ∧
    (m ≠ 0 → n = false → cmpNum x (.fin false 1 0) = .eq → r = (FV.zero, false)) ∧
    (m ≠ 0 → n = false → cmpNum x (.fin false 1 0) ≠ .eq → nearExact 2 (logEncl m e) r.1 ∧ r.2 = false)
  | .rsqrt, .inf n => r = (if n then .nan else FV.zero, n)
  | .rsqrt, .fin n m e =>
    (m = 0 → r = (.inf n, false)) ∧ (m ≠ 0 → n = true → r = (.nan, true)) ∧
    (m ≠ 0 → n = false → nearExact 1 (rsqrtEncl m e) r.1 ∧ r.2 = false)
  | .tanh, .inf n => r = (.fin n 1 0, false)
  | .tanh, .fin n m e =>
    (m = 0 → r = (x, false)) ∧ (m ≠ 0 → cmpMicro x.abs false 9100000 ≠ .lt → r = (.fin n 1 0, false)) ∧
    (m ≠ 0 → cmpMicro x.abs false 9100000 = .lt → nearExact 2 (tanhEncl n m e) r.1 ∧ r.2 = false)
  | .sigm, .inf n => r = (if n then FV.zero else .fin false 1 0, false)
  | .sigm, .fin n m e =>
    (m = 0 → r = (.fin false 1 (-1), false)) ∧ (m ≠ 0 → cmpMicro x false 17500000 ≠ .lt → r = (.fin false 1 0, false)) ∧
    (m ≠ 0 → cmpMicro x false 17500000 = .lt → cmpMicro x true 103972084 = .lt → r = (FV.zero, false)) ∧
    (m ≠ 0 → cmpMicro x false 17500000 = .lt → cmpMicro x true 103972084 ≠ .lt → nearExact 2 (sigmEncl n m e) r.1 ∧ r.2 = false)
  | .gelu, .inf n => r = (if n then .fin true 0 0 else .inf false, false)
  | .gelu, .fin n m e =>
    (m = 0 → r = (x, false)) ∧ (m ≠ 0 → cmpMicro x false 5500000 ≠ .lt → r = (x, false)) ∧
    (m ≠ 0 → cmpMicro x false 5500000 = .lt → cmpMicro x true 15000000 ≠ .gt → r = (.fin true 0 0, false)) ∧
    (m ≠ 0 → cmpMicro x false 5500000 = .lt → cmpMicro x true 15000000 = .gt → nearExact 4 (geluEncl n m e) r.1 ∧ r.2 = false)

/-- The words of a VEC command hold listed values, and every byte that they reach with the vector lengths and convert slots
that they find lies in tile memory: what LOAD_IMAGE checks of a program (R129). -/
def wordsFit (c : CoreId) : List W64 → State → Bool
  | [], _ => true
  | w :: rest, u =>
    (match vecInstr c 0 w u with
      | .refused _ => false
      | _ => true) &&
    (vecRanges (getCore u c) (vecOpcode w) (vecFields w)).all (fun r => decide (r.1 + r.2 ≤ tileBytes)) &&
    wordsFit c rest (vecFollow c w u)

/-! ### Frames by parts of the device -/

/-- Every other core is as before. -/
def coreFrame (c : CoreId) (s t : State) : Prop := ∀ d, d ≠ c → getCore t d = getCore s d

/-- Token `k` of a core's cluster (0 to 63) or die (64 to 127) in a context apart, every token is as before, and so is
all else of the clusters and dies (R108). -/
def tokenFrame (c : CoreId) (ctx : CtxId) (k : Nat) (s t : State) : Prop :=
  (∀ (d : CoreId) (ctx' : CtxId), ∀ j < 128,
    (j ≠ k ∨ ctx' ≠ ctx ∨ (if k < 64 then clusterOf d ≠ clusterOf c else dieOfCore d ≠ dieOfCore c)) →
    tokenGet t d ctx' j = tokenGet s d ctx' j) ∧
  (∀ i, getCluster t i = { getCluster s i with tokens := (getCluster t i).tokens }) ∧
  (∀ i, getDie t i = { getDie s i with tokens := (getDie t i).tokens })

/-- Every stored register word but those at the keys listed is as before. -/
def regsKeep (ks : List Nat) (s t : State) : Prop := ∀ k, k ∉ ks → mapGet k t.regs = mapGet k s.regs

/-- Every live counter position but those listed is as before. -/
def cntsKeep (ks : List Nat) (s t : State) : Prop := ∀ k, k ∉ ks → cntGet t k = cntGet s k

/-- A counter position counts `n` and holds at its top (R456). -/
def counted (k n : Nat) (s t : State) : Prop := cntGet t k = min (cntGet s k + n) (2 ^ 64 - 1)

/-- A counter position counts each of `n` items. -/
def countedEach (k n : Nat) (s t : State) : Prop := if n = 0 then cntGet t k = cntGet s k else counted k n s t

/-! ### Memory as readers see it (R193, R198, R229 to R231) -/

/-- What a read of a line of the stacks answers where no line of its stripe holds an uncorrectable error; none where the line is
lost and no units hold it, so that its bytes carry no meaning. -/
def stackSeen (s : State) (l : Nat) : Option (Bytes × Bool) :=
  let t := lineStripe l
  let x := lineSlot l
  let k := lineIx l
  if kindOf s t = 0 then some (zeroLine, false)
  else match place s t x k with
    | some key => some (rawLine s key, s.dsm.poison.contains key)
    | none =>
      if kindOf s t = 1 then
        (reconstruct s t k x).map (fun b => (b, s.dsm.poison.contains (lineKey (slotStack t x) t k)))
      else none

/-- What a read of a line in an overhang unit answers (R219): none of a unit that cannot be read. -/
def ovhSeen (s : State) (l unit : Nat) (o : OvhUnit) : Option (Bytes × Bool) :=
  let cut (bs : Bytes) : Bytes × Bool := ((bs.drop (64 * l - o.dpa)).take 64, false)
  match mapGet unit s.overhang.delivered with
  | some (bs, poisoned) => if poisoned then none else some (cut bs)
  | none => match (ovhAttempts s o).find? (ovhGood o) with
    | some (some bs) => some (cut bs)
    | _ => none

/-- What a device unit's read of line `l` answers; none where a host may hold the line (R333), where a line of its stripe holds
an uncorrectable error, or where its bytes carry no meaning. -/
def lineSeen (s : State) (l : Nat) : Option (Bytes × Bool) :=
  let whole := (List.range 16).all (fun y => (place s (lineStripe l) y (lineIx l)).all (fun key => !torn s key))
  if (holderOf s l).isSome || !whole then none
  else match ovhOf s l with
    | some (unit, o) => ovhSeen s l unit o
    | none => stackSeen s l

/-- `n` bytes from address `a` of the DPA space, with POISON. -/
def bytesSeen (s : State) (a n : Nat) : Option (Bytes × Bool) :=
  if n = 0 then some ([], false)
  else
    let ls := (List.range' (a / 64) ((a + n - 1) / 64 - a / 64 + 1)).map (lineSeen s)
    if ls.all (·.isSome) then
      let ls := ls.filterMap id
      some ((((ls.map (·.1)).flatten.drop (a % 64)).take n), ls.any (·.2))
    else none

/-- What bucket n of a key answers in a view: outer none where its line cannot be read, inner none for no match. -/
def bucketSeen (s : State) (x : Tbl) (n key view : Nat) : Option (Option RowRes) :=
  (lineSeen s (x.desc.bucketBase / 64 + bucketN x.desc n key)).map (fun b =>
    if b.2 then (if x.desc.kind = 1 then none else some .poisoned)
    else (findIn (visibleIn x view) key n 0 (decodeBucket b.1)).map (fun f => .row f.entry.row))

/-- What a whole lookup of a key resolves to. -/
def lookupSeen (s : State) (x : Tbl) (key view : Nat) : Option RowRes :=
  match bucketSeen s x 0 key view with
  | none => none
  | some (some r) => some r
  | some none =>
    if bucketN x.desc 0 key = bucketN x.desc 1 key then some .default_
    else (bucketSeen s x 1 key view).map (fun r => r.getD .default_)

/-- The row that a key of a table selects, with whether it counts as poisoned (R211, R231). -/
def keySeen (s : State) (x : Tbl) (key view : Nat) : Option (Bytes × Bool) :=
  match lookupSeen s x key view with
  | none => none
  | some .poisoned => some ([], true)
  | some (.row n) => (bytesSeen s (rowAddr x.desc n) (rowT x.desc)).map (fun b => (b.1, b.2 || (rowElems x.desc b.1).isNone))
  | some .default_ =>
    (bytesSeen s (rowAddr x.desc x.desc.default_) (rowT x.desc)).map (fun b => (b.1, b.2 || (rowElems x.desc b.1).isNone))

/-- The lookups of a key leave every bucket as it is: what they find has its HIT bit set (R227). -/
def hitsMarked (s : State) (x : Tbl) (key view : Nat) : Prop :=
  ∀ n < 2, ∀ b f, lineSeen s (x.desc.bucketBase / 64 + bucketN x.desc n key) = some (b, false) →
    findIn (visibleIn x view) key n 0 (decodeBucket b) = some f → eHit f.entry = true

/-- What the lookups of keys change in buckets, the HIT bits, touches no row of their table: the bits are set, or every stack
holds its lines and no row lies in a bucket area. -/
def rowsApart (s : State) (x : Tbl) (keys : List Nat) (view : Nat) : Prop :=
  (∀ key ∈ keys, hitsMarked s x key view) ∨
  (s.dsm.lost = [] ∧ ∀ r, ∀ l ∈ linesOf (rowAddr x.desc r) (rowT x.desc), inBuckets s l = false)

/-- Both buckets of a key can be read. -/
def bucketsSeen (s : State) (x : Tbl) (key view : Nat) : Prop := ∀ n < 2, (bucketSeen s x n key view).isSome = true

/-- No line `k` of the units of stripe `t` holds an uncorrectable error. -/
def intact (s : State) (t k : Nat) : Prop := ∀ y < 16, ∀ key, place s t y k = some key → torn s key = false

/-- Bytes of a cluster's SRAM hold `bs` from byte address `a`, and none of their lines is marked. -/
def sramHolds (s : State) (k : ClusterId) (a : Nat) (bs : Bytes) : Prop :=
  ramRead (getCluster s k).sram a bs.length = bs ∧
  ∀ l ∈ linesOf a bs.length, (getCluster s k).sramPoison.contains l = false

/-- Every line of a byte range of a cluster's SRAM is marked. -/
def sramMarked (s : State) (k : ClusterId) (a n : Nat) : Prop :=
  ∀ l ∈ linesOf a n, (getCluster s k).sramPoison.contains l = true

/-- All of the clusters but byte ranges of one cluster's SRAM, given by address and length, is as before. -/
def sramFrame (k : ClusterId) (rs : List (Nat × Nat)) (s t : State) : Prop :=
  (∀ j, j ≠ k → getCluster t j = getCluster s j) ∧
  getCluster t k = { getCluster s k with sram := (getCluster t k).sram, sramPoison := (getCluster t k).sramPoison } ∧
  ∀ a, (∀ r ∈ rs, a < r.1 ∨ r.1 + r.2 ≤ a) → ramGet (getCluster t k).sram a = ramGet (getCluster s k).sram a

/-! ### Stack tables as their writer sees them (R226 to R229, R234) -/

/-- The slots of a bucket; a poisoned bucket counts as empty. -/
def slotsSeen (s : State) (d : TblDesc) (b : Nat) : Option (List Entry) :=
  (lineSeen s (d.bucketBase / 64 + b)).map (fun x => if x.2 then emptyBucket else decodeBucket x.1)

/-- Where a key of which `ok` holds stands: outer none where a bucket cannot be read. -/
def foundSeen (s : State) (d : TblDesc) (ok : Entry → Bool) (key : Nat) : Option (Option Found) :=
  match slotsSeen s d (bucketN d 0 key) with
  | none => none
  | some e0 =>
    match findIn ok key 0 (bucketN d 0 key) e0 with
    | some f => some (some f)
    | none =>
      if bucketN d 0 key = bucketN d 1 key then some none
      else (slotsSeen s d (bucketN d 1 key)).map (findIn ok key 1 (bucketN d 1 key))

/-- A bucket's line lies in a region and a stack holds it, so that a write of it is read back. -/
def bucketHeld (s : State) (d : TblDesc) (b : Nat) : Prop :=
  let l := d.bucketBase / 64 + b
  l < dpaLines ∧ holderOf s l = none ∧ ovhOf s l = none ∧ kindOf s (lineStripe l) ≠ 0 ∧ (place s (lineStripe l) (lineSlot l) (lineIx l)).isSome = true

/-- A line lies in a region, a stack holds it, no host may hold it, and no line of its stripe holds an uncorrectable error, so that
a write of it is read back. -/
def lineHeld (s : State) (l : Nat) : Prop :=
  l < dpaLines ∧ holderOf s l = none ∧ ovhOf s l = none ∧ kindOf s (lineStripe l) ≠ 0 ∧
  (place s (lineStripe l) (lineSlot l) (lineIx l)).isSome = true ∧ intact s (lineStripe l) (lineIx l)

/-- Both lines of a flow record are held. -/
def recordHeld (s : State) (a : Nat) : Prop := lineHeld s (a / 64) ∧ lineHeld s (a / 64 + 1)

/-- The offers once entry `k` has joined them: behind those of earlier edges, and of this edge behind those of N0 and, for an entry
of N1, of N1 (R300). -/
def offersWith (s : State) (k : Nat) : List Nat :=
  let ahead (j : Nat) : Bool := rqtDie k == .n1 || rqtDie j == .n0 || ((getReq s j).map (fun r => r.offeredAt != now s)).getD true
  s.adm.offers.filter ahead ++ [k] ++ s.adm.offers.filter (fun j => !ahead j)

/-- An entry that goes on to admission: `q` as it then stands, behind the offers it joins (R300). -/
def offeredAs (k : Nat) (q : Req) (s t : State) : Prop :=
  getReq t k = some { q with st := 3, ord := s.adm.offered, offeredAt := now s } ∧ t.adm.offers = offersWith s k

/-- The dispatched samples that lack sums which a core holds the segments of, oldest first, as far as its stream input has room
(R490). -/
def owedSamples (s : State) (x : CoreState) : List Nat :=
  let flying := ((List.finRange 32).map (fun k => (getCluster s k).inFlight)).flatten
  ((flying.filter (fun g => !(segsOwed x g).isEmpty)).map (fun g => g.sample.id)).take 64

/-- An entry that fits its slot's fields (R226). -/
def entryFits (e : Entry) : Prop := e.key < 2 ^ 64 ∧ e.row < 2 ^ 32 ∧ e.flags < 256

/-- Slot `sl` of bucket `b` becomes `e`, and the bucket's other slots are as before. -/
def slotBecomes (d : TblDesc) (b sl : Nat) (e : Entry) (s t : State) : Prop :=
  ∀ es, slotsSeen s d b = some es → slotsSeen t d b = some (listSet es sl e)

/-! ### Reports, descriptors and registers (R336, R345, R7, R389) -/

/-- A unit sends one report towards the root. -/
def reportSent (code : Nat) (suspect alt reporter : UnitCode) (layer op : W16) (s t : State) : Prop :=
  ∃ r : Report, r.code = BitVec.ofNat 16 code ∧ r.suspect = suspect ∧ r.alt = alt ∧ r.reporter = reporter ∧ r.layer = layer ∧
    r.op = op ∧ r.gtNs = BitVec.ofNat 64 (nowNs s) ∧ r.count = 1 ∧
    t.canopy = { s.canopy with transit := s.canopy.transit ++ [(reportNode reporter, r)] }

/-- A unit sends a report towards the root, and whatever it sends after it. -/
def reportFirst (code : Nat) (suspect reporter : UnitCode) (s t : State) : Prop :=
  ∃ (r : Report) (rest : List (UnitCode × Report)), r.code = BitVec.ofNat 16 code ∧ r.suspect = suspect ∧ r.reporter = reporter ∧
    t.canopy.transit = s.canopy.transit ++ (reportNode reporter, r) :: rest

/-- Bytes stand in a port's host memory as the device has written them. -/
def hostHolds (s : State) (p : HPort) (a : Nat) (bs : Bytes) : Prop :=
  ∀ i b, bs[i]? = some b → mapGet (a + i) (getPort s p).written = some b

/-- An accepted descriptor ends with a status and a RESULT: its launch-table entries, which its edge frees, are free, and its completion stands
in its completion ring, but for a QUIET one that ends OK; after a reset of its port HIF_EVENT counts it alone (R330, R343,
R345). -/
def completed (d : Desc) (status result : Nat) (s t : State) : Prop :=
  let p := d.port
  let i := d.ring.val
  let ci := cqOf s p i
  let q := getSq s p i
  let c := getCq s p ci
  let y := getCq t p ci
  (now s < d.due → ∀ e ∈ d.entries, mapGet e t.host.launch = none) ∧
  if d.era ≠ (getPort s p).era then bit (regW t 0x210 (portIx p)) 4 = true ∧ getSq t p i = q ∧ y = c
  else
    getSq t p i = { q with inflight := q.inflight - 1 } ∧
    if (dQuiet d && status == stOk) = true ∨ bit (regW s (cqOff p ci 8) 0) 5 = false then y = { c with reserved := c.reserved - 1 }
    else
      let wrap := c.tail + 1 == cqSize s p ci
      hostHolds t p (regQ s (cqOff p ci 0) 0 + 16 * c.tail) (compBytes (dTag d) status c.phase q.head i d.protGen result) ∧
      y = { c with
        reserved := c.reserved - 1, tail := if wrap then 0 else c.tail + 1, phase := if wrap then !c.phase else c.phase
        unconsumed := c.unconsumed + 1, unsignalled := y.unsignalled, since := y.since }

/-- A descriptor that ends with a status whose RESULT the manual does not give. -/
def completedBare (d : Desc) (status : Nat) (s t : State) : Prop := ∃ result, completed d status result s t

/-- A register write that HIF_SEM discards (R336): it is counted and shown, and does nothing else. -/
def rwsDiscarded (p : HPort) (off : Nat) (s t : State) : Prop :=
  let i := portIx p
  t = { s with host := t.host, regs := t.regs, counters := t.counters } ∧
  t.host = { s.host with ports := t.host.ports } ∧ getPort t (otherPort p) = getPort s (otherPort p) ∧
  getPort t p = { getPort s p with irqs := (getPort t p).irqs } ∧
  regsKeep [regKey 0x200 i, regKey 0x204 i, regKey 0x210 i] s t ∧ cntsKeep [cntDiscard i] s t ∧
  cntGet t (cntDiscard i) = min (cntGet s (cntDiscard i) + 1) (2 ^ 32 - 1) ∧ bit (regW t 0x210 i) 0 = true ∧
  regF t 0x200 i 0 0 = 1 ∧
  (if regF s 0x200 i 0 0 = 1 then regW t 0x200 i = regW s 0x200 i ∧ regW t 0x204 i = regW s 0x204 i
   else regF t 0x200 i 15 8 = stSemHeld ∧ regF t 0x204 i 23 0 = off % 2 ^ 24)

/-- A register field after a write of the masked bits `v` (R5 to R7). -/
def fieldAfter (sem : Bool) (d : NDie) (r : RegRow) (f : RegField) (mask v old : Nat) : Nat :=
  let n := f.hi + 1 - f.lo
  let m := bits mask f.hi f.lo
  let x := mergeBits old (bits v f.hi f.lo) m n
  if m = 0 then old
  else match f.acc with
    | .rw => if listed d r.base f.lo x then x else old
    | .rws => if sem && listed d r.base f.lo x then x else old
    | .w1c => old &&& ((bits v f.hi f.lo &&& m) ^^^ (2 ^ n - 1))
    | _ => old

/-- What a ring command leaves: all but the rings `sqs` and `cqs` of a port and the register words listed. -/
def ringFrame (p : HPort) (sqs cqs ks : List Nat) (s t : State) : Prop :=
  t = { s with host := t.host, regs := t.regs } ∧ t.host = { s.host with ports := t.host.ports } ∧
  getPort t (otherPort p) = getPort s (otherPort p) ∧
  getPort t p = { getPort s p with
    sqs := (getPort t p).sqs, cqs := (getPort t p).cqs, irqs := (getPort t p).irqs, lastRing := (getPort t p).lastRing } ∧
  (∀ j, j ∉ sqs → getSq t p j = getSq s p j) ∧ (∀ j, j ∉ cqs → getCq t p j = getCq s p j) ∧ regsKeep ks s t

/-- Where the next completion of a descriptor's ring stands in host memory. -/
def compAt (s : State) (d : Desc) : Nat :=
  let ci := cqOf s d.port d.ring.val
  regQ s (cqOff d.port ci 0) 0 + 16 * (getCq s d.port ci).tail

/-- Bytes that a descriptor's command writes to its port's host memory; a reset of the port since its acceptance drops
them (R330), and a range that meets the completion's own place is not spoken of. -/
def wroteHost (d : Desc) (a : Nat) (bs : Bytes) (s t : State) : Prop :=
  d.era = (getPort s d.port).era → compAt s d + 16 ≤ a ∨ a + bs.length ≤ compAt s d → hostHolds t d.port a bs

/-! ### The group (R369 to R373, R378, R383 to R386) -/

/-- The header of a frame that the device sends (R369). -/
def sentHdr (s : State) (dst : Option Nat) (seq ack : W32) (b : GrpBody) : GrpHdr :=
  { version := 1, typ := BitVec.ofNat 8 (grpType b), len := BitVec.ofNat 16 ((bodyBytes b).length), groupId := groupId s, epoch := s.grp.epoch,
    srcId := if hasId s then peerFin s.grp.id else 0, srcUnassigned := !hasId s, dstId := peerFin (dst.getD 0),
    dstUnassigned := dst.isNone, seq := seq, ack := ack }

/-- Room for `k` group frames of a body at a port: the transport runs, the port is up, and its die's buffer and its queue
GRP_EGRESS take them (R313, R315, R372). -/
def canSend (g k : Nat) (b : GrpBody) (s : State) : Prop :=
  let q := bits (cfgField s 0x15 0) 3 0
  let n := cellsOfLen (max 64 (50 + (bodyBytes b).length))
  s.grp.stopped = false ∧ unitActive s (ucNet .n0) = true ∧ portUp s g = true ∧
  cellsUsed s (laneDie g) + k * n + respReserve s (laneDie g) ≤ bufCells ∧
  queueCells s g q + k * n ≤ bits (queueCfg s g q) 48 32 ∧ ∀ it ∈ getQueue s g q, it.frame < s.net.nextFrame

/-- A group frame has joined a port's queue GRP_EGRESS, behind what stood there. -/
def groupSent (g : Nat) (h : GrpHdr) (b : GrpBody) (s t : State) : Prop :=
  let q := bits (cfgField s 0x15 0) 3 0
  ∃ new, getQueue t g q = getQueue s g q ++ new ∧
    ∃ it ∈ new, it.group = true ∧ it.entry = none ∧ ∃ f, getFrame t it.frame = some f ∧ f.grp = some (h, b) ∧
      (f.bytes.drop 14).take 32 = grpHdrBytes h ∧ (f.bytes.drop 46).take (bodyBytes b).length = bodyBytes b

/-- The sequenced messages to a peer that are not yet acknowledged or sent, in order. -/
def messages (s : State) (i : Nat) : List GrpBody := ((getPeer s i).map (fun p => p.unacked.map (·.body) ++ p.waiting)).getD []

/-- Messages for a peer join its sequence, in order. -/
def handed (i : Nat) (bs : List GrpBody) (s t : State) : Prop :=
  (getPeer s i).isSome = true → messages t i = messages s i ++ bs

/-- No share `n` of ream `q` stays with a worker that has not completed it (R383). -/
def shareMoved (i : Nat) (q : W32) (n : Nat) (s t : State) : Prop :=
  (s.reams.map (·.seq)).Nodup → ∀ r, reamOf s q = some r → mapGet n r.shares = some (i, false) → (slotImage s r.slot).isSome = true →
    ∀ r', reamOf t q = some r' → mapGet n r'.shares ≠ some (i, false)

/-- A worker is out of the group: its ID is released, it holds nothing of the journal, no uncompleted share stays with it,
and the other members stay (R373, R382, R383). -/
def workerGone (i : Nat) (s t : State) : Prop :=
  getPeer t i = none ∧ mapGet i t.grp.freed = some (now s) ∧ i ∉ t.grp.holders ∧ i ∉ t.grp.degraded ∧
  (∀ j, j ≠ i → (getPeer t j).isSome = (getPeer s j).isSome) ∧ ∀ q n, shareMoved i q n s t

/-- The device has left its group: it is STANDALONE, with its own time source (R365). -/
def stoodAlone (s t : State) : Prop :=
  t = { s with grp := t.grp, time := t.time } ∧ t.grp.role = 0 ∧ t.grp.id = 0 ∧ t.grp.peers = [] ∧ t.grp.held = [] ∧ t.grp.rx = [] ∧
  t.time.source = cfgField s 0x17 0 ∧ t.time.adj = s.time.adj

/-- A manager is deposed by a higher EPOCH: its entries are freed without answers, and it joins anew (R385). -/
def deposed (e : W32) (s t : State) : Prop :=
  t.grp.epoch = e ∧ t.grp.role = 3 ∧ t.grp.peers = [] ∧ t.rqt = [] ∧ (∀ r ∈ t.reams, r.share.isSome = true) ∧ t.adm.offers = [] ∧
  t.adm.carried = [] ∧ bit (regW t 0x700000 0) 14 = true ∧ t.net.ports = s.net.ports

/-- A worker's shares are discarded, and its other reams are as before. -/
def noShares (s t : State) : Prop :=
  (∀ r ∈ t.reams, r.share = none) ∧
  ((∀ r ∈ s.reams, ∀ m ∈ s.reams, r.seq = m.seq → r.share.isSome = m.share.isSome) → t.reams = s.reams.filter (fun r => r.share.isNone))

/-- A worker follows a higher EPOCH: it discards its shares, and its sequence with the manager starts anew (R385). -/
def followed (e : W32) (s t : State) : Prop :=
  t.grp.epoch = e ∧ t.grp.role = s.grp.role ∧ t.grp.id = s.grp.id ∧ noShares s t ∧
  t.grp.inputs = [] ∧ t.grp.lost = none ∧ t.grp.held = s.grp.held ∧
  ∃ p, getPeer t 0 = some p ∧ p.nextSeq = 0 ∧ p.unacked = [] ∧ p.waiting = []

/-- The device has promoted itself with an EPOCH: it is MANAGER with its time source, holds no share, has its members as
JOINED and no holder yet, and rebuilds from the journal it held (R386). -/
def promoted (e : W32) (s t : State) : Prop :=
  let others (j : Nat) : Prop := j ≠ s.grp.id ∧ j ≠ 0
  t.grp.role = 1 ∧ t.grp.id = 0 ∧ t.grp.epoch = e ∧ t.grp.holders = [] ∧ t.grp.held = [] ∧ t.time.source = cfgField s 0x17 0 ∧
  t.gt = s.gt ∧ (∀ r ∈ t.reams, r.share = none) ∧
  (∀ j, (getPeer t j).isSome = true ↔ others j ∧ ∃ m ∈ s.grp.members, m.1 = j) ∧ (∀ j p, getPeer t j = some p → p.st = 1) ∧
  (s.grp.held = [] → t.rqt = s.rqt) ∧
  ∀ k x, s.grp.held = [(k, x)] → slotImage s x.slot = none → counted (cntGrp 6) 1 s t

/-- PROMOTE has gone to the member of a device that promotes itself. -/
def promoteSent (e : W32) (s t : State) : Prop :=
  ∀ j h g rest, s.grp.members.filter (fun m => m.1 != s.grp.id && m.1 != 0) = [(j, h)] → upGroupPorts s = g :: rest →
    canSend g 1 (.promote e) s → groupSent g
      { sentHdr s (some j) 0 0 (.promote e) with epoch := e, srcId := 0, srcUnassigned := false } (.promote e) s t

/-! ### Where a command stops (R110, R129, R132, R207, R401) -/

/-- The vector engine that an instruction runs on. -/
def vecEngineOf : Instr → Option CoreId
  -- arithmetic and choice
  | .add c _ | .sub c _ | .mul c _ | .fma c _ | .div c _ | .sqrt c _ => some c
  | .max c _ | .min c _ | .abs c _ | .neg c _ | .mov c _ | .sel c _ => some c
  -- bits and masks
  | .and c _ | .or c _ | .xor c _ | .shl c _ | .shra c _ | .shrl c _ => some c
  | .vnop c _ | .cmp c _ | .mlog c _ | .mcnt c _ | .setvl c _ => some c
  -- constants, memory and permutations
  | .cvt c _ | .movi c _ | .bcast c _ | .iota c _ => some c
  | .vld c _ | .vst c _ | .vlds c _ | .vsts c _ => some c
  | .perm c _ | .compress c _ | .expand c _ => some c
  -- reductions and transcendentals
  | .rsum c _ | .rmean c _ | .rmax c _ | .rmin c _ | .rargmax c _ | .rargmin c _ | .topk c _ | .tmerge c _ => some c
  | .exp c _ | .log c _ | .rsqrt c _ | .tanh c _ | .sigm c _ | .gelu c _ => some c
  -- the convert group
  | .cvset c _ | .setcc c _ | .size c _ | .cvtn c _ | .side c _ | .dcvn c _ | .cfl c _ => some c
  | _ => none

/-- A command holds a value that R110, R132 or R207 does not list. LOAD_IMAGE rejects an image that holds such a command. -/
def holdsUnlisted (s : State) : Instr → Bool
  | .add _ v | .sub _ v | .mul _ v | .fma _ v | .max _ v | .min _ v | .sel _ v | .perm _ v => !listed2 v (vty v.ty.toNat)
  | .and _ v | .or _ v | .xor _ v => !listed2 v (vty v.ty.toNat) || (vtyD v).isFloat
  | .div _ v => !listed2 v (vty v.ty.toNat) || !(vtyD v).isFloat
  | .sqrt _ v | .exp _ v | .log _ v | .rsqrt _ v | .tanh _ v | .sigm _ v | .gelu _ v =>
    !listed1 v (vty v.ty.toNat) || !(vtyD v).isFloat
  | .shl _ v => !listed1 v (vty v.ty.toNat) || (vtyD v).isFloat
  | .abs _ v | .neg _ v | .mov _ v | .shra _ v | .shrl _ v | .bcast _ v | .compress _ v | .expand _ v | .rsum _ v | .rmean _ v
  | .rmax _ v | .rmin _ v | .rargmax _ v | .rargmin _ v => !listed1 v (vty v.ty.toNat)
  | .cvt _ v => !listed1 v (vty v.ty.toNat) || (vty (bits v.imm.toNat 2 0)).isNone
  | .vnop _ v => (vty v.ty.toNat).isNone || v.vd != 0 || v.va != 0 || v.vb != 0
  | .setcc _ v | .cfl _ v => v.vd != 0 || v.va != 0 || v.vb != 0
  | .cmp _ v => (vty v.ty.toNat).isNone || !mskDest v.vd || !vecListed v.va || !vecListed v.vb || bits v.imm.toNat 2 0 == 7
  | .mlog _ v => (vty v.ty.toNat).isNone || !mskDest v.vd || !mskListed v.va || !mskListed v.vb || decide (4 < bits v.imm.toNat 2 0) ||
      (bits v.imm.toNat 2 0 == 4 && v.vb != 0)
  | .mcnt _ v | .iota _ v => (vty v.ty.toNat).isNone || !vecListed v.vd || v.va != 0 || v.vb != 0
  | .dcvn _ v => !vecListed v.vd || v.va != 0 || v.vb != 0
  | .setvl _ v => (vty v.ty.toNat).isNone || v.vd != 0 || v.vb != 0 ||
      (if bit v.imm.toNat 8 then !vecListed v.va else v.va != 0 || decide (128 < bits v.imm.toNat 7 0))
  | .movi _ v => (vty v.ty.toNat).isNone || !vecListed v.vd || v.va != 0 || v.vb != 0
  | .vld _ v => (vty v.ty.toNat).isNone || !vecListed v.vd || v.va != 0 || v.vb != 0
  | .vst _ v => (vty v.ty.toNat).isNone || !vecListed v.va || v.vd != 0 || v.vb != 0
  | .vlds _ v => !strideListed v || !vecListed v.vd || v.va != 0
  | .vsts _ v => !strideListed v || !vecListed v.va || v.vd != 0
  | .topk _ v => !topkListed v || !vecListed v.va || !vecListed v.vb
  | .tmerge _ v => !topkListed v || !vecListed v.va || !vecListed v.vb || !vecListed (v.va + 1) || !vecListed (v.vb + 1) ||
      v.va == 0xFF || v.vb == 0xFF
  | .cvset _ v => v.vd != 0 || decide (v.va.toNat < 3) || decide (7 < v.va.toNat) || decide (15 < v.vb.toNat) || v.vb.toNat % 4 == 3 ||
      (bit v.vb.toNat 3 && (bit v.vb.toNat 2 || !((elemFmt v.va.toNat).any (fun e => e.isInt))))
  | .size _ v => !vecListed v.vd || !vecListed v.va || v.vb != 0
  | .cvtn _ v => v.vd != 0 || !vecListed v.va || !vecListed v.vb
  | .side _ v => v.vd != 0 || !vecListed v.va || v.vb != 0
  | .mma _ _ op _ => !mmaListed op
  | .ldt _ _ op _ => (memSpace op.space).isNone || (ldtShape op).isNone
  | .stt _ _ op => (memSpace op.space).isNone || (if op.fromBank then decide (4 ≤ op.len.toNat) else op.len == 0)
  | .wait _ _ op | .signal _ _ op => op.count == 0
  | .tree c ctx op _ => (standOf s (getCtx (getCore s c) ctx).slot op.standId.toNat).any (fun o =>
      (segEntry (getCore s c) (getCtx (getCore s c) ctx).slot op.standId.toNat op.seg.toNat).isSome && !treeListed op (standHdr o.bytes))
  | .gather d cmd _ => !nluListed s d false cmd
  | .pool d cmd _ => !nluListed s d true cmd
  | _ => false

/-- A command with listed values reaches past the end of tile memory, of the space that it names, or of the DPA space. -/
def reachesOutside (s : State) : Instr → Bool
  | .vld c v | .vst c v => !lanesInside (getCore s c) v (unitAddr v)
  | .vlds c v | .vsts c v => !lanesInside (getCore s c) v (strideAddr v)
  | .cvtn c v =>
    let k := getSlot8 (getCore s c) v
    decide (tileBytes < ceilTo (64 * bits v.imm.toNat 14 0 + (bits v.imm.toNat 23 15 + (cvGroups (getCore s c) v (slotG k)).length) *
      blockBytes (slotFmt k) (slotG k)) 64)
  | .dcvn c v =>
    let k := getSlot8 (getCore s c) v
    decide (tileBytes < 64 * bits v.imm.toNat 14 0 + (bits v.imm.toNat 23 15 + dcvnGroups (getCore s c) v) *
      blockBytes (slotFmt k) (slotG k))
  | .mma _ _ op _ => !mmaInside op
  | .ldt _ _ op _ => match memSpace op.space, ldtShape op with
    | some sp, some (n, wt) =>
      let extra := match wt with
        | some (_, g, nb, _) => nb * g / 16
        | none => 0
      decide (spaceLines sp < op.memAddr.toNat + n) || decide (32768 < op.tmAddr.toNat + n + extra)
    | _, _ => false
  | .stt _ _ op => (memSpace op.space).any (fun sp =>
      decide (spaceLines sp < op.memAddr.toNat + if op.fromBank then 384 else op.len.toNat) ||
      (!op.fromBank && decide (32768 < op.tmAddr.toNat + op.len.toNat)))
  | .tree c ctx op _ => (standOf s (getCtx (getCore s c) ctx).slot op.standId.toNat).any (fun o =>
      (segEntry (getCore s c) (getCtx (getCore s c) ctx).slot op.standId.toNat op.seg.toNat).isSome &&
      (decide (tileBytes < treeFeatAddr op op.samplesM1.toNat + 2 * (standHdr o.bytes).numFeat) ||
        decide (tileBytes < treeOutAddr op op.samplesM1.toNat + 4 * (standHdr o.bytes).numOut)))
  | .gather _ cmd _ => decide (262144 < nluExtent false cmd)
  | .pool _ cmd _ => decide (262144 < nluExtent true cmd)
  | .guardedWrite l _ | .degradedRead l => decide (dpaLines ≤ l)
  | _ => false

/-! ### The whole machine (R334, R434) -/

/-- What every step keeps: the anti-rollback counter has no more bits than its 64 fuses, nor has what is being blown, and
HIF_SEM shows a token exactly while a port holds it. -/
def Inv (s : State) : Prop :=
  s.boot.fuses.counter ≤ 64 ∧ (∀ target, s.boot.fuseJob = some (1, target) → target ≤ 64) ∧
  (s.host.sem.owner = none ↔ s.host.sem.token = 0)

end Sys2Proof.Machine
end

