-- ==== Sys2Proof/Certificates/Slice0/Obligations.lean ====
section
/-! DEFINITION. The statements about the machine, for the provers. Where a statement says that a command answers a
next state, its hypotheses speak of the state and the operands alone. -/

open Sys2Proof Sys2Proof.Machine

/-! ### Vector instructions -/

/-- ADD, SUB, MUL, FMA, DIV and SQRT whose lanes' residues match: the result of each active lane, its flags and poison,
and all else left (R133, R135, R136, R140). The model's choices in log 12 bear on it. -/
def Obligations.VectorArithmetic : Prop :=
  ∀ (c : CoreId) (v : VOps) (s : State), coreActive s c.val = true → v.resid = 0 →
    (listed2 v (vty v.ty.toNat) = true →
      (∃ t, exec (.add c v) s = .next t ∧ laneWise c v [v.va, v.vb]
        (fun x i => binLane (vtyD v) addExact (· + ·) (laneOf (readVec x v.va) i) (laneOf (readVec x v.vb) i)) s t) ∧
      (∃ t, exec (.sub c v) s = .next t ∧ laneWise c v [v.va, v.vb]
        (fun x i => binLane (vtyD v) subExact (· - ·) (laneOf (readVec x v.va) i) (laneOf (readVec x v.vb) i)) s t) ∧
      (∃ t, exec (.mul c v) s = .next t ∧ laneWise c v [v.va, v.vb]
        (fun x i => binLane (vtyD v) mulExact (· * ·) (laneOf (readVec x v.va) i) (laneOf (readVec x v.vb) i)) s t) ∧
      (∃ t, exec (.fma c v) s = .next t ∧ laneWise c v [v.va, v.vb, v.vd]
        (fun x i =>
          let a := laneOf (readVec x v.va) i
          let b := laneOf (readVec x v.vb) i
          let d := laneOf (readVec x v.vd) i
          if (vtyD v).isFloat then
            floatOut (vtyD v) [a, b, d] (addExact (mulExact (laneFV (vtyD v) a) (laneFV (vtyD v) b)) (laneFV (vtyD v) d))
          else intOut (vtyD v) (laneInt (vtyD v) d + laneInt (vtyD v) a * laneInt (vtyD v) b)) s t) ∧
      ((vtyD v).isFloat = true → ∃ t, exec (.div c v) s = .next t ∧ laneWise c v [v.va, v.vb]
        (fun x i =>
          let a := laneOf (readVec x v.va) i
          let b := laneOf (readVec x v.vb) i
          floatOut (vtyD v) [a, b] (divFV (vtyD v).wide (laneFV (vtyD v) a) (laneFV (vtyD v) b))) s t)) ∧
    (listed1 v (vty v.ty.toNat) = true → (vtyD v).isFloat = true →
      ∃ t, exec (.sqrt c v) s = .next t ∧ laneWise c v [v.va]
        (fun x i =>
          let a := laneOf (readVec x v.va) i
          floatOut (vtyD v) [a] (sqrtFV (vtyD v).wide (laneFV (vtyD v) a))) s t)

/-- MAX, MIN, ABS, NEG, MOV and SEL (R132, R133, R135). ABS and NEG of the most negative integer have no stated result
(DESIGN CHOICE, log 14): the statement holds of whatever values stand there, the same for a type on every engine. The
model's choices in log 12 bear on it. -/
def Obligations.VectorSelection : Prop :=
  ∃ openAbs openNeg : VTy → W32, ∀ (c : CoreId) (v : VOps) (s : State), coreActive s c.val = true →
    (listed2 v (vty v.ty.toNat) = true →
      (∃ t, exec (.max c v) s = .next t ∧ laneWise c v [v.va, v.vb]
        (fun x i => pickLane (vtyD v) maxFV max (laneOf (readVec x v.va) i) (laneOf (readVec x v.vb) i)) s t) ∧
      (∃ t, exec (.min c v) s = .next t ∧ laneWise c v [v.va, v.vb]
        (fun x i => pickLane (vtyD v) minFV min (laneOf (readVec x v.va) i) (laneOf (readVec x v.vb) i)) s t) ∧
      (∃ t, exec (.sel c v) s = .next t ∧
        let x := getCore s c
        destWrites c v.vd
          (fun i => if i < x.ve.vl then
              moveLane (vtyD v) (laneOf (readVec x (if (readMask x v.msk.toNat).getLsbD i then v.va else v.vb)) i)
            else if v.mz then 0 else laneOf (readVec x v.vd) i)
          (srcPoison x v [v.va, v.vb]) (!v.mz && decide (x.ve.vl < 128))
          (flagList [(srcPoison x v [v.va, v.vb], vfPoison)]) [] s t)) ∧
    (listed1 v (vty v.ty.toNat) = true →
      (∃ t, exec (.mov c v) s = .next t ∧ laneWise c v [v.va]
        (fun x i => laneBits (moveLane (vtyD v) (laneOf (readVec x v.va) i))) s t) ∧
      (∃ t, exec (.abs c v) s = .next t ∧ laneWise c v [v.va]
        (fun x i =>
          let a := laneOf (readVec x v.va) i
          if (vtyD v).isFloat then laneBits (fvLane (vtyD v) (laneFV (vtyD v) a).abs)
          else if laneInt (vtyD v) a = intMin (vtyD v) then laneBits (openAbs (vtyD v))
          else laneBits (intLane (vtyD v) (laneInt (vtyD v) a).natAbs)) s t) ∧
      (∃ t, exec (.neg c v) s = .next t ∧ laneWise c v [v.va]
        (fun x i =>
          let a := laneOf (readVec x v.va) i
          if (vtyD v).isFloat then laneBits (fvLane (vtyD v) (laneFV (vtyD v) a).negate)
          else if laneInt (vtyD v) a = intMin (vtyD v) then laneBits (openNeg (vtyD v))
          else laneBits (intLane (vtyD v) (-laneInt (vtyD v) a))) s t))

/-- AND, OR, XOR and SHL on integer types, SHRA and SHRL on every type (R132, R136). The model's choices in log 79 bear
on it. -/
def Obligations.VectorBits : Prop :=
  ∀ (c : CoreId) (v : VOps) (s : State), coreActive s c.val = true →
    (listed2 v (vty v.ty.toNat) = true → (vtyD v).isFloat = false →
      (∃ t, exec (.and c v) s = .next t ∧ laneWise c v [v.va, v.vb]
        (fun x i => laneBits (intLane (vtyD v) (laneOf (readVec x v.va) i &&& laneOf (readVec x v.vb) i).toNat)) s t) ∧
      (∃ t, exec (.or c v) s = .next t ∧ laneWise c v [v.va, v.vb]
        (fun x i => laneBits (intLane (vtyD v) (laneOf (readVec x v.va) i ||| laneOf (readVec x v.vb) i).toNat)) s t) ∧
      (∃ t, exec (.xor c v) s = .next t ∧ laneWise c v [v.va, v.vb]
        (fun x i => laneBits (intLane (vtyD v) (laneOf (readVec x v.va) i ^^^ laneOf (readVec x v.vb) i).toNat)) s t)) ∧
    (listed1 v (vty v.ty.toNat) = true →
      ((vtyD v).isFloat = false → ∃ t, exec (.shl c v) s = .next t ∧ laneWise c v [v.va]
        (fun x i => laneBits (intLane (vtyD v) ((laneOf (readVec x v.va) i).toNat % 2 ^ (vtyD v).bits * 2 ^ shAmt v : Nat))) s t) ∧
      (∃ t, exec (.shra c v) s = .next t ∧ laneWise c v [v.va]
        (fun x i => laneBits (rawLane (vtyD v) (unsignedOf (vtyD v).bits
          (signedOf (vtyD v).bits (laneOf (readVec x v.va) i).toNat / 2 ^ shAmt v)))) s t) ∧
      (∃ t, exec (.shrl c v) s = .next t ∧ laneWise c v [v.va]
        (fun x i => laneBits (rawLane (vtyD v) ((laneOf (readVec x v.va) i).toNat % 2 ^ (vtyD v).bits / 2 ^ shAmt v))) s t))

/-- CVT, MOVI, BCAST and IOTA (R132, R136). The model's choices in log 78 bear on it. -/
def Obligations.VectorConstants : Prop :=
  ∀ (c : CoreId) (v : VOps) (s : State), coreActive s c.val = true →
    (∀ b, listed1 v (vty v.ty.toNat) = true → vty (bits v.imm.toNat 2 0) = some b →
      ∃ t, exec (.cvt c v) s = .next t ∧ laneWise c v [v.va]
        (fun x i => cvtLane (vtyD v) b (laneOf (readVec x v.va) i)) s t) ∧
    ((vty v.ty.toNat).isSome = true → vecListed v.vd = true → v.va = 0 → v.vb = 0 →
      ∃ t, exec (.movi c v) s = .next t ∧ laneWise c v []
        (fun _ _ => laneBits (match vtyD v with
          | .f32 => BitVec.ofNat 32 (bits v.imm.toNat 15 0 * 65536)
          | .bf16 => BitVec.ofNat 32 (bits v.imm.toNat 15 0)
          | t => intLane t (signedOf 16 (bits v.imm.toNat 15 0)))) s t) ∧
    (listed1 v (vty v.ty.toNat) = true →
      ∃ t, exec (.bcast c v) s = .next t ∧ laneWise c v [v.va]
        (fun x _ => laneBits (moveLane (vtyD v) (laneOf (readVec x v.va) (bits v.imm.toNat 6 0)))) s t) ∧
    ((vty v.ty.toNat).isSome = true → vecListed v.vd = true → v.va = 0 → v.vb = 0 →
      ∃ t, exec (.iota c v) s = .next t ∧ laneWise c v [] (fun _ i => laneBits (BitVec.ofNat 32 (i + v.imm.toNat))) s t)

/-- VNOP, CMP, MLOG, MCNT and SETVL: the mask, count or VL written, with its poison and the flags raised, and all else
left (R132 to R136, R140). -/
def Obligations.VectorMasks : Prop :=
  ∀ (c : CoreId) (v : VOps) (s : State), coreActive s c.val = true → (vty v.ty.toNat).isSome = true →
    let x := getCore s c
    let p := bits v.imm.toNat 2 0
    (v.vd = 0 → v.va = 0 → v.vb = 0 →
      ∃ t, exec (.vnop c v) s = .next t ∧ vecFrame c [] s t ∧ flagsAdded c [] s t ∧
        getCore t c = { x with ve := { x.ve with pos := x.ve.pos + 1 } }) ∧
    (mskDest v.vd = true → vecListed v.va = true → vecListed v.vb = true → p < 7 →
      let a (i : Nat) : W32 := laneOf (readVec x v.va) i
      let b (i : Nat) : W32 := laneOf (readVec x v.vb) i
      ∃ t, exec (.cmp c v) s = .next t ∧ vecFrame c [] s t ∧ maskFrame v.vd x (getCore t c) ∧
        maskWrites v x (fun i => cmpPred (vtyD v) p (a i) (b i)) (getCore t c) ∧
        maskPoisoned (getCore t c) v.vd.toNat =
          (srcPoison x v [v.va, v.vb] || keepsLane v x && maskPoisoned x v.vd.toNat) ∧
        flagsAdded c (flagList
          [((List.range 128).any (fun i => laneActive x v.msk i && (isSnan (vtyD v) (a i) || isSnan (vtyD v) (b i))), vfInvalid),
            (srcPoison x v [v.va, v.vb], vfPoison)]) s t) ∧
    (mskDest v.vd = true → mskListed v.va = true → mskListed v.vb = true → p < 5 → (p = 4 → v.vb = 0) →
      let a := readMask x v.va.toNat
      let b := readMask x v.vb.toNat
      let bad := x.ve.vlPoison || maskPoisoned x v.va.toNat || (p != 4 && maskPoisoned x v.vb.toNat)
      ∃ t, exec (.mlog c v) s = .next t ∧ vecFrame c [] s t ∧ maskFrame v.vd x (getCore t c) ∧
        readMask (getCore t c) v.vd.toNat =
          (match p with
          | 0 => a &&& b
          | 1 => a ||| b
          | 2 => a ^^^ b
          | 3 => a &&& ~~~b
          | _ => ~~~a) ∧
        maskPoisoned (getCore t c) v.vd.toNat = bad ∧ flagsAdded c (flagList [(bad, vfPoison)]) s t) ∧
    (vecListed v.vd = true → v.va = 0 → v.vb = 0 →
      ∃ t, exec (.mcnt c v) s = .next t ∧
        destWrites c v.vd (fun _ => BitVec.ofNat 32 (activeCount x v.msk)) (srcPoison x v []) false
          (flagList [(srcPoison x v [], vfPoison)]) [] s t) ∧
    (v.vd = 0 → v.va = 0 → v.vb = 0 → bit v.imm.toNat 8 = false → bits v.imm.toNat 7 0 ≤ 128 →
      ∃ t, exec (.setvl c v) s = .next t ∧ vecFrame c [] s t ∧ flagsAdded c [] s t ∧
        getCore t c = { x with ve := { x.ve with vl := bits v.imm.toNat 7 0, pos := x.ve.pos + 1 } }) ∧
    (v.vd = 0 → v.vb = 0 → vecListed v.va = true → bit v.imm.toNat 8 = true →
      let i := signedOf 32 (laneOf (readVec x v.va) 0).toNat
      ∃ t, exec (.setvl c v) s = .next t ∧ vecFrame c [] s t ∧
        flagsAdded c (if vecPoison x v.va then [vfPoison] else if i < 0 ∨ 128 < i then [vfVl] else []) s t ∧
        let y := (getCore t c).ve
        getCore t c = { x with ve := { x.ve with
          vl := if vecPoison x v.va then 0 else if i < 0 then 0 else if 128 < i then 128 else i.toNat
          vlPoison := x.ve.vlPoison || vecPoison x v.va
          flagOp := y.flagOp, flagLayer := y.flagLayer, flagPos := y.flagPos, flagBit := y.flagBit, pos := x.ve.pos + 1 } })

/-- VLD, VST, VLDS and VSTS inside tile memory: the lanes loaded, or the bytes stored and every other byte of tile
memory as it was, the highest active lane's value remaining where several address one byte, and the marks of the lines:
a poisoned source marks those it writes, a clean store clears those that it covers whole (the latter DEDUCED, log 12)
(R138 to R140). -/
def Obligations.VectorMemory : Prop :=
  ∀ (c : CoreId) (v : VOps) (s : State), coreActive s c.val = true → (vty v.ty.toNat).isSome = true →
    let x := getCore s c
    let n := tyBytes (vtyD v)
    let act := (List.range 128).filter (laneActive x v.msk)
    let loads (addr : Nat → Nat) (t : State) : Prop :=
      let p := srcPoison x v [] || act.any (fun i => tilePoisoned x (addr i) n)
      destWrites c v.vd (masked v x (fun i => loadLane (vtyD v) (ramRead x.tile (addr i) n))) p (keepsLane v x)
        (flagList [(p, vfPoison)]) [] s t
    let stores (addr : Nat → Nat) (t : State) : Prop :=
      vecFrame c [] s t ∧ flagsAdded c (flagList [(srcPoison x v [v.va], vfPoison)]) s t ∧
      tileFrame x (getCore t c) ∧
      (∀ l, (getCore t c).tilePoison.contains l =
        if srcPoison x v [v.va] then x.tilePoison.contains l || act.any (fun i => (linesOf (addr i) n).contains l)
        else x.tilePoison.contains l && !(List.range 64).all (fun b =>
          act.any (fun i => decide (addr i ≤ 64 * l + b) && decide (64 * l + b < addr i + n)))) ∧
      ∀ a, ramGet (getCore t c).tile a =
        match act.reverse.find? (fun i => decide (addr i ≤ a) && decide (a < addr i + n)) with
        | some i => (toLE n (laneOf (readVec x v.va) i).toNat).getD (a - addr i) 0
        | none => ramGet x.tile a
    (vecListed v.vd = true → v.va = 0 → v.vb = 0 → lanesInside x v (unitAddr v) = true →
      ∃ t, exec (.vld c v) s = .next t ∧ loads (unitAddr v) t) ∧
    (vecListed v.va = true → v.vd = 0 → v.vb = 0 → lanesInside x v (unitAddr v) = true →
      ∃ t, exec (.vst c v) s = .next t ∧ stores (unitAddr v) t) ∧
    (strideListed v = true → vecListed v.vd = true → v.va = 0 → lanesInside x v (strideAddr v) = true →
      ∃ t, exec (.vlds c v) s = .next t ∧ loads (strideAddr v) t) ∧
    (strideListed v = true → vecListed v.va = true → v.vd = 0 → lanesInside x v (strideAddr v) = true →
      ∃ t, exec (.vsts c v) s = .next t ∧ stores (strideAddr v) t)

/-- PERM, COMPRESS and EXPAND, whole: with j the place of a lane among the active ones in ascending order (R145, R146).
That the upper bits of a narrow type move too is read from R146 (DEDUCED, log 107). -/
def Obligations.LanePermutations : Prop :=
  ∀ (c : CoreId) (v : VOps) (s : State), coreActive s c.val = true →
    let x := getCore s c
    let ix (i : Nat) : Nat := (laneOf (readVec x v.vb) i).toNat
    let act := (List.range 128).filter (laneActive x v.msk)
    let rest (i : Nat) : W32 := if v.mz then 0 else laneOf (readVec x v.vd) i
    let p := srcPoison x v [v.va]
    (listed2 v (vty v.ty.toNat) = true → ∃ t, exec (.perm c v) s = .next t ∧
      destWrites c v.vd (masked v x (fun i => if ix i < x.ve.vl then laneOf (readVec x v.va) (ix i) else 0))
        (srcPoison x v [v.va, v.vb]) (keepsLane v x)
        (flagList [((List.range 128).any (fun i => laneActive x v.msk i && decide (x.ve.vl ≤ ix i)), vfPerm),
          (srcPoison x v [v.va, v.vb], vfPoison)]) [] s t) ∧
    (listed1 v (vty v.ty.toNat) = true →
      (∃ t, exec (.compress c v) s = .next t ∧
        destWrites c v.vd (fun i => if h : i < act.length then laneOf (readVec x v.va) act[i] else rest i)
          p (!v.mz && decide (act.length < 128)) (flagList [(p, vfPoison)]) [] s t) ∧
      (∃ t, exec (.expand c v) s = .next t ∧
        destWrites c v.vd
          (fun i => if laneActive x v.msk i then laneOf (readVec x v.va) ((act.filter (fun k => decide (k < i))).length) else rest i)
          p (keepsLane v x) (flagList [(p, vfPoison)]) [] s t))

/-- RSUM, RMEAN, RMAX, RMIN, RARGMAX and RARGMIN write the reduction of the active lanes, or its identity with EMPTY,
to lane 0 (the last two its index to lane 1) and leave every other lane (R141 to R144). The model's choices in log 79
bear on it. -/
def Obligations.VectorReductions : Prop :=
  ∀ (c : CoreId) (v : VOps) (s : State), coreActive s c.val = true → listed1 v (vty v.ty.toNat) = true →
    let x := getCore s c
    let l := (readVec x v.va).zip ((List.range 128).map (laneActive x v.msk))
    let empty := (List.range 128).all (fun i => !laneActive x v.msk i)
    let reduces (r : RedOut) (idn : W32) (ix : Bool) (t : State) : Prop :=
      let p := srcPoison x v [v.va]
      destWrites c v.vd
        (fun i => match i with
          | 0 => if empty then idn else r.lane0
          | 1 => if ix then (if empty then 0xFFFF else r.lane1.getD 0) else laneOf (readVec x v.vd) 1
          | i => laneOf (readVec x v.vd) i)
        p true
        (if empty then flagList [(true, vfEmpty), (p, vfPoison)]
         else flagList [(r.invalid, vfInvalid), (r.overflow, vfOverflow), (r.sat, vfSat), (p, vfPoison)])
        [cntCore c.val 2] s t ∧
      cntGet t (cntCore c.val 2) = if empty then min (cntGet s (cntCore c.val 2) + 1) (2 ^ 64 - 1) else cntGet s (cntCore c.val 2)
    (v.resid = 0 → ∃ t, exec (.rsum c v) s = .next t ∧ reduces (redSum (vtyD v) l) 0 false t) ∧
    (v.resid = 0 → ∃ t, exec (.rmean c v) s = .next t ∧ reduces (redMean (vtyD v) l) 0 false t) ∧
    (∃ t, exec (.rmax c v) s = .next t ∧ reduces (redExt (vtyD v) maxFV max (negInf (vtyD v)) l) (negInf (vtyD v)) false t) ∧
    (∃ t, exec (.rmin c v) s = .next t ∧ reduces (redExt (vtyD v) minFV min (posInf (vtyD v)) l) (posInf (vtyD v)) false t) ∧
    (∃ t, exec (.rargmax c v) s = .next t ∧ reduces (redArg (vtyD v) true l) (negInf (vtyD v)) true t) ∧
    (∃ t, exec (.rargmin c v) s = .next t ∧ reduces (redArg (vtyD v) false l) (posInf (vtyD v)) true t)

/-- TOPK and TMERGE write the best k entries by R147 and their indices to Vd and Vd + 1, the padding after them, and
leave every other register (R147 to R149). -/
def Obligations.VectorTopK : Prop :=
  ∀ (c : CoreId) (v : VOps) (s : State), coreActive s c.val = true → topkListed v = true →
    vecListed v.va = true → vecListed v.vb = true →
    let x := getCore s c
    let act := (List.range 128).filter (laneActive x v.msk)
    let lists (es : List (W32 × Int)) (poison empty : Bool) (t : State) : Prop :=
      let best := (sortBy (rankBefore (vtyD v)) es).take (bits v.imm.toNat 6 0)
      (∀ i < 128,
        laneOf (readVec (getCore t c) v.vd) i = (match best[i]? with
          | some e => if (vtyD v).isFloat then fvLane (vtyD v) (laneFV (vtyD v) e.1) else e.1
          | none => negInf (vtyD v)) ∧
        laneOf (readVec (getCore t c) (v.vd + 1)) i = (match best[i]? with
          | some e => BitVec.ofNat 32 (unsignedOf 32 e.2)
          | none => 0xFFFF)) ∧
      vecPoison (getCore t c) v.vd = poison ∧ vecPoison (getCore t c) (v.vd + 1) = poison ∧
      flagsAdded c (flagList [(empty, vfEmpty), ((vtyD v).isFloat && es.any (fun e => (laneFV (vtyD v) e.1).isNan), vfTopk),
        (poison, vfPoison)]) s t ∧
      destFrame [v.vd, v.vd + 1] x (getCore t c) ∧ vecFrame c [cntCore c.val 2] s t
    (∃ t, exec (.topk c v) s = .next t ∧
      lists (act.map (fun i => (laneOf (readVec x v.va) i, (((laneOf (readVec x v.vb) i).toNat % 65536 : Nat) : Int))))
        (srcPoison x v [v.va, v.vb]) act.isEmpty t) ∧
    (vecListed (v.va + 1) = true → vecListed (v.vb + 1) = true → v.va ≠ 0xFF → v.vb ≠ 0xFF →
      let pairs (n : BitVec 8) : List (W32 × Int) := (List.range 64).map (fun i =>
        (laneOf (readVec x n) i, signedOf 32 (laneOf (readVec x (n + 1)) i).toNat))
      ∃ t, exec (.tmerge c v) s = .next t ∧
        lists (pairs v.va ++ pairs v.vb)
          (x.ve.vlPoison || [v.va, v.va + 1, v.vb, v.vb + 1].any (vecPoison x)) false t)

/-- EXP, LOG, RSQRT, TANH, SIGM and GELU on float types: every vector engine gives one result to an FP32 input, exact
or special as R150's table says and otherwise within its bound; BF16 rounds that result once, and a finite input with
an infinite result sets OVERFLOW (R136, R150, R151). The last bits of a result are open within the bound (DEDUCED, log
7). -/
def Obligations.VectorTranscendentals : Prop :=
  ∃ result : TransFn → W32 → FV × Bool, (∀ fn w, transTable fn (f32 w) (result fn w)) ∧
    ∀ (c : CoreId) (v : VOps) (s : State), coreActive s c.val = true → v.resid = 0 →
      listed1 v (vty v.ty.toNat) = true → (vtyD v).isFloat = true →
      let out (fn : TransFn) (x : CoreState) (i : Nat) : LaneOut :=
        let a := laneFV (vtyD v) (laneOf (readVec x v.va) i)
        let r := result fn (toF32 a)
        let y := roundFV (vtyD v).wide r.1
        { w := fvLane (vtyD v) y, invalid := r.2, overflow := a.isFin && !y.isFin && !y.isNan, sat := false }
      (∃ t, exec (.exp c v) s = .next t ∧ laneWise c v [v.va] (out .exp) s t) ∧
      (∃ t, exec (.log c v) s = .next t ∧ laneWise c v [v.va] (out .log) s t) ∧
      (∃ t, exec (.rsqrt c v) s = .next t ∧ laneWise c v [v.va] (out .rsqrt) s t) ∧
      (∃ t, exec (.tanh c v) s = .next t ∧ laneWise c v [v.va] (out .tanh) s t) ∧
      (∃ t, exec (.sigm c v) s = .next t ∧ laneWise c v [v.va] (out .sigm) s t) ∧
      (∃ t, exec (.gelu c v) s = .next t ∧ laneWise c v [v.va] (out .gelu) s t)

/-- CVSET, SETCC, SIZE, CVTN, SIDE, DCVN and CFL: what each writes to the convert slot, the destination, tile memory
and the spine, inside tile memory and without a failing block (R152 to R157). The model's choices in logs 79 and 80
bear on it. -/
def Obligations.ConvertGroup : Prop :=
  ∀ (c : CoreId) (v : VOps) (s : State), coreActive s c.val = true →
    let x := getCore s c
    let k := getSlot8 x v
    let row := 64 * bits v.imm.toNat 14 0
    let j0 := bits v.imm.toNat 23 15
    let bb := blockBytes (slotFmt k) (slotG k)
    (v.vd = 0 → 3 ≤ v.va.toNat → v.va.toNat ≤ 7 → v.vb.toNat < 16 → v.vb.toNat % 4 < 3 →
      (bit v.vb.toNat 3 = true → (∃ e, elemFmt v.va.toNat = some e ∧ e.isInt = true) ∧ bit v.vb.toNat 2 = false) →
      ∃ t, exec (.cvset c v) s = .next t ∧ vecFrame c [] s t ∧ flagsAdded c [] s t ∧ slotFrame v x (getCore t c) ∧
        getSlot8 (getCore t c) v = { CSlot.cleared with
          tensor := BitVec.ofNat 20 v.imm.toNat, fmt := BitVec.ofNat 4 v.va.toNat, gsize := BitVec.ofNat 2 v.vb.toNat,
          weight := bit v.vb.toNat 2, zpen := bit v.vb.toNat 3, constLine := k.constLine, cursor := k.cursor }) ∧
    (v.vd = 0 → v.va = 0 → v.vb = 0 →
      ∃ t, exec (.setcc c v) s = .next t ∧ vecFrame c [] s t ∧ flagsAdded c [] s t ∧ slotFrame v x (getCore t c) ∧
        getSlot8 (getCore t c) v = { k with constLine := BitVec.ofNat 15 v.imm.toNat, cursor := 0 }) ∧
    (vecListed v.vd = true → vecListed v.va = true → v.vb = 0 →
      ∃ t, exec (.size c v) s = .next t ∧
        destWrites c v.vd (fun i => BitVec.ofNat 32 (((cvGroups x v (slotG k)).map (sizeWord k)).getD i 0))
          (srcPoison x v [v.va]) false (flagList [(srcPoison x v [v.va], vfPoison)]) [] s t) ∧
    (let n := (cvGroups x v (slotG k)).length
     let bs := cvBlocks x v (srcPoison x v [v.va, v.vb])
     let tail := ceilTo (row + (j0 + n) * bb) 64
     let pad := if n = 0 then [] else List.replicate (tail - (row + (j0 + n) * bb)) 0
     let ended := (bs.zip (List.range n)).foldl (cvtnNote j0)
       (tileWrite (row + j0 * bb) ((bs.map (·.bytes)).flatten ++ pad) false x, k)
     v.vd = 0 → vecListed v.va = true → vecListed v.vb = true → tail ≤ tileBytes →
      ∃ t, exec (.cvtn c v) s = .next t ∧ vecFrame c [cntCore c.val 4, cntCore c.val 5] s t ∧
        (getCore t c).tile = ended.1.tile ∧ getSlot8 (getCore t c) v = ended.2 ∧
        cntGet t (cntCore c.val 4) = min (cntGet s (cntCore c.val 4) + (bs.map (·.clipped)).foldl (· + ·) 0) (2 ^ 64 - 1) ∧
        cntGet t (cntCore c.val 5) = min (cntGet s (cntCore c.val 5) + (bs.map (·.converted)).foldl (· + ·) 0) (2 ^ 64 - 1) ∧
        flagsAdded c (flagList [(bs.any (·.poisoned), vfPoison)]) s t) ∧
    (let cuts := (cvLanes x v).filter (·.cut)
     let slot0 := bits v.imm.toNat 19 15
     let kept := ((cuts.take (32 - slot0)).map (fun l => toLE 2 (toBf16 l.val).toNat)).flatten
     v.vd = 0 → vecListed v.va = true → v.vb = 0 →
      ∃ t, exec (.side c v) s = .next t ∧ vecFrame c [] s t ∧ tileFrame x (getCore t c) ∧
        (getCore t c).tile = ramWrite (if slot0 = 0 then ramWrite x.tile row (List.replicate 64 0) else x.tile) (row + 2 * slot0) kept ∧
        (srcPoison x v [v.va] = true → (slot0 = 0 ∨ kept ≠ []) → tilePoisoned (getCore t c) row 64 = true) ∧
        flagsAdded c (flagList [(srcPoison x v [v.va], vfPoison), (decide (32 - slot0 < cuts.length), vfCut)]) s t) ∧
    (let r := decodeBlocks x v
     let n := dcvnGroups x v
     let p := tilePoisoned x (row + j0 * bb) (n * bb) || srcPoison x v []
     vecListed v.vd = true → v.va = 0 → v.vb = 0 → row + (j0 + n) * bb ≤ tileBytes →
      ∃ t, exec (.dcvn c v) s = .next t ∧
        (∀ i < 128, laneOf (readVec (getCore t c) v.vd) i =
          if laneActive x v.msk i ∧ i < n * slotG k then laneOf r.1 i else laneOf (readVec x v.vd) i) ∧
        (getSlot8 (getCore t c) v).cursor = r.2.1 ∧
        flagsAdded c (flagList [(!r.2.2.isEmpty, vfDeckle), (p, vfPoison)]) s t ∧
        (if r.2.2 = [] then vecFrame c [] s t
         else vecPoison (getCore t c) v.vd = true ∧ t.canopy.transit.length = s.canopy.transit.length + r.2.2.length)) ∧
    (v.vd = 0 → v.va = 0 → v.vb = 0 →
      ∃ t, exec (.cfl c v) s = .next t ∧ t = { s with cores := t.cores, dies := t.dies, counters := t.counters } ∧
        getSlot8 (getCore t c) v = { k with clipped := 0, converted := 0, blocks := [] } ∧
        ∀ d, tensorOf s (getCtx x x.ve.ctx).slot k.tensor = some d →
          (getDie t d.spine).merges = mergePost
            { tensor := k.tensor, ream := (getCtx x x.ve.ctx).ream, slot := (getCtx x x.ve.ctx).slot, posts := 1,
              clipped := k.clipped, converted := k.converted,
              blocks := (k.blocks.filter (fun b => b.2.2.2)).map (fun b => (b.1, (b.2.1, b.2.2.1))) } (getDie s d.spine).merges)

/-- A residue mismatch of an arithmetic instruction whose core has no residue strike: the instruction runs again, and
the lanes and poison are those that it gives without the mismatch; the strike and RESIDUE are set, VE_RESIDUE_FAILS
counts it and the core reports it. A mismatch with the strike set, be it the second run's, fences the core, and the
destination is not written (R137, R401). -/
def Obligations.ResidueCheck : Prop :=
  ∀ (c : CoreId) (v : VOps) (s : State) (f : VOps → Instr),
    f ∈ [Instr.add c, Instr.sub c, Instr.mul c, Instr.fma c, Instr.div c, Instr.sqrt c, Instr.rsum c, Instr.rmean c,
      Instr.exp c, Instr.log c, Instr.rsqrt c, Instr.tanh c, Instr.sigm c, Instr.gelu c] →
    1 ≤ v.resid → coreActive s c.val = true → (∃ t0, exec (f { v with resid := 0 }) s = .next t0) →
    let x := getCore s c
    (v.resid = 1 → x.ve.strike = false →
      ∃ t0 t, exec (f { v with resid := 0 }) s = .next t0 ∧ exec (f v) s = .next t ∧
        readVec (getCore t c) v.vd = readVec (getCore t0 c) v.vd ∧
        vecPoison (getCore t c) v.vd = vecPoison (getCore t0 c) v.vd ∧
        (getCore t c).ve.strike = true ∧ (getCore t c).ve.clean = 0 ∧ bit (regW t 0xF00400 c.val) vfResidue = true ∧
        counted (cntCore c.val 3) 1 s t ∧
        ∃ r, t.canopy.transit = s.canopy.transit ++ [(ucCore c, r)] ∧ r.code = 0x0A ∧ r.suspect = ucCore c) ∧
    (x.ve.strike = true ∨ 2 ≤ v.resid →
      ∃ t, exec (f v) s = .next t ∧ (unitRec t (ucCore c)).st = 1 ∧ coreActive t c.val = false ∧
        readVec (getCore t c) v.vd = readVec x v.vd ∧ vecPoison (getCore t c) v.vd = vecPoison x v.vd ∧
        bit (regW t 0xF00400 c.val) vfResidue = true ∧
        (x.ve.strike = true → counted (cntCore c.val 3) 1 s t) ∧
        (x.ve.strike = false → cntGet t (cntCore c.val 3) = min (min (cntGet s (cntCore c.val 3) + 1) (2 ^ 64 - 1) + 1) (2 ^ 64 - 1)))

/-! ### Core commands -/

/-- NOP, WAIT, SIGNAL and END: the token counted, the context's state, the ream's programs that END leaves, and all
else left (R104, R108, R110, R303, R408). The model's choices in log 82 bear on it. -/
def Obligations.SequencerCommands : Prop :=
  ∀ (c : CoreId) (ctx : CtxId) (s : State),
    let x := getCore s c
    let cx := getCtx x ctx
    let completes (h : CmdHdr) (st : CtxState) : CoreState :=
      { setCtx ctx { cx with st := st, lastOp := h.op, lastLayer := h.layer, done := cx.done + 1 } x with lastRun := now s }
    (∀ h, canIssue s c ctx h = true →
      ∃ t, exec (.nop c ctx h) s = .next t ∧ coreFrame c s t ∧ t = { s with cores := t.cores } ∧ getCore t c = completes h cx.st) ∧
    (∀ op : TokenOp, op.count ≠ 0 → coreActive s c.val = true → firstHeld s c ctx op.hdr = false → op.count.toNat ≤ tokenGet s c ctx op.token.toNat →
      ∃ t, exec (.wait c ctx op) s = .next t ∧ coreFrame c s t ∧ tokenFrame c ctx op.token.toNat s t ∧
        t = { s with cores := t.cores, clusters := t.clusters, dies := t.dies } ∧
        tokenGet t c ctx op.token.toNat = tokenGet s c ctx op.token.toNat - op.count.toNat ∧
        getCore t c = completes op.hdr (if cx.st = .waitToken then .running else cx.st)) ∧
    (∀ op : TokenOp, op.count ≠ 0 → coreActive s c.val = true → firstHeld s c ctx op.hdr = false → tokenGet s c ctx op.token.toNat < op.count.toNat →
      ∃ t, exec (.wait c ctx op) s = .next t ∧ coreFrame c s t ∧ t = { s with cores := t.cores } ∧
        getCore t c = setCtx ctx { cx with st := .waitToken } x) ∧
    (∀ op : TokenOp, op.count ≠ 0 → canIssue s c ctx op.hdr = true → ctxBusy x ctx = false →
      ∃ t, exec (.signal c ctx op) s = .next t ∧ coreFrame c s t ∧ tokenFrame c ctx op.token.toNat s t ∧
        t = { s with cores := t.cores, clusters := t.clusters, dies := t.dies, canopy := t.canopy, fresh := t.fresh } ∧
        tokenGet t c ctx op.token.toNat = min (tokenGet s c ctx op.token.toNat + op.count.toNat) 65535 ∧
        getCore t c = completes op.hdr cx.st ∧
        (tokenGet s c ctx op.token.toNat + op.count.toNat ≤ 65535 → t.canopy = s.canopy ∧ t.fresh = s.fresh) ∧
        (65535 < tokenGet s c ctx op.token.toNat + op.count.toNat → ∃ r, r.code = 9 ∧ r.suspect = ucCore c ∧
          r.layer = op.hdr.layer ∧ r.op = op.hdr.op ∧
          t.canopy = { s.canopy with transit := s.canopy.transit ++ [(ucCore c, r)] })) ∧
    (∀ h, canIssue s c ctx h = true → ctxBusy x ctx = false →
      ∃ t, exec (.endProg c ctx h) s = .next t ∧ coreFrame c s t ∧
        t = { s with cores := t.cores, reams := t.reams, canopy := { s.canopy with kvInvalid := t.canopy.kvInvalid } } ∧
        (match waitingReam t c ctx with
          | some r => getCore t c = (setCtx ctx { getCtx (completes h .waitLaunch) ctx with ream := r.seq, slot := r.slot }
              (completes h .waitLaunch))
          | none => getCore t c = completes h .idle) ∧
        (reamOf s cx.ream = none → t.reams = s.reams ∧ t.canopy = s.canopy) ∧
        (∀ r, reamOf s cx.ream = some r →
          match r.started.find? (fun l => physCore s l == c.val && (progsLeft r).contains l) with
          | none => t.reams = s.reams ∧ t.canopy = s.canopy
          | some l =>
            if r.rebuild = [] then
              let left := r.cores.filter (· != l)
              reamOf t cx.ream = some { r with
                cores := left, cluCredit := if left = [] then [] else r.cluCredit.filter (fun p => (progsClusters left).contains p.1) } ∧
              t.canopy = s.canopy
            else
              let left := r.rebuild.filter (· != l)
              reamOf t cx.ream = some { r with rebuild := left, started := if left = [] then [] else r.started } ∧
              t.canopy.kvInvalid = if left = [] then s.canopy.kvInvalid.filter (fun p => p.1 != r.seq) else s.canopy.kvInvalid))

/-- PROGRAM_START at or after the launch edge, in the context of the ream's parity: the next logical core of the ream
on the core starts, its convert slots are clear, and the context's tokens are 0 where it is the first to start (R43,
R103, R108, R130). The model's choices in logs 82 and 93 bear on it. -/
def Obligations.ProgramStart : Prop :=
  ∀ (c : CoreId) (ctx : CtxId) (ream : W32) (s : State) (r : Ream) (l : CoreId),
    reamOf s ream = some r → ctx = ctxOf ream → r.launched = true → nextProg s r c = some l → coreActive s c.val = true →
    domState s (domCore c.val) = 4 → domState s (domCluster (c.val / 8)) = 4 → peersFree s r c = true →
    ((getCtx (getCore s c) ctx).st = .idle ∨ (getCtx (getCore s c) ctx).st = .waitLaunch) →
    ∃ t, exec (.programStart c ctx ream) s = .next t ∧ coreFrame c s t ∧
      t = { s with cores := t.cores, clusters := t.clusters, dies := t.dies, reams := t.reams, counters := t.counters } ∧
      getCore t c = { setCtx ctx { getCtx (getCore s c) ctx with
          st := .running, ream := ream, slot := r.slot, done := 0, cslots := Vector.replicate 8 CSlot.cleared } (getCore s c) with
        lastRun := now s } ∧
      reamOf t ream = some { r with started := r.started ++ [l] } ∧ countedEach (cntCore c.val 0) (b2n (r.occupied.contains l)) s t ∧
      (∀ k < 64, tokenGet t c ctx k =
        if r.started.any (fun l => physCore s l / 8 == c.val / 8) then tokenGet s c ctx k else 0) ∧
      (∀ k, 64 ≤ k → k < 128 → tokenGet t c ctx k =
        if r.started.any (fun l => physCore s l / 64 == c.val / 64) then tokenGet s c ctx k else 0)

/-- MMA, TILE_REEXECUTE and MMA_REISSUE: by what the attempt at the tile finds, the bank gets the tile's values (R99),
or the engine holds the tile for its re-execution, or the command moves; poisoned and parity-struck tiles, and a second
failure on another engine, end poisoned, and the first engine is in service again (R88 to R91, R114 to R119). An MMA
for whose engine the other context's lower ream stands first waits (R105). A command whose event is not due, or whose
condition is absent, leaves the state (DESIGN CHOICE, log 2). The model's choices in logs 13 and 77 bear on it. -/
def Obligations.TileAttempts : Prop :=
  ∀ (c : CoreId) (s : State),
    let ends (m : MeId) (r : MmaRun) (f : EngineFault) (again : Bool) (t : State) : Prop :=
      let x := getCore s c
      let y := getCore t c
      let g := 4 * c.val + m.val
      let b := r.op.bank.toNat
      let e := getEngine x m
      let done : Prop := (getEngine y m).reexec = none ∧ counted (cntEngine g 0) 1 s t ∧ countedEach (cntEngine g 3) (b2n r.moved) s t ∧
        (getCtx y r.ctx).done = (getCtx x r.ctx).done + 1
      let reports (code : Nat) : Prop := reportFirst code (ucEngine c m) (ucEngine c m) s t
      -- the engine of the first failure, where this fault had fenced it
      let lifted (m0 : MeId) (causes : List Nat) : Prop :=
        m0 ≠ m → r.fenced = true → causes.contains (unitRec s (ucEngine c m0)).cause.toNat = true →
          (unitRec t (ucEngine c m0)).st = 0
      let checks (code : Nat) : Prop :=
        counted (cntEngine g 1) 1 s t ∧ reports code ∧
        (match r.checkFail with
          | some m0 => done ∧ (getBank y b).poison = true ∧ (engineActive s c m = true → engineActive t c m = true) ∧
            (getEngine y m).checkStrike = e.checkStrike ∧ (getEngine y m).lastKind = 7 ∧ lifted m0 [3, 4, 5]
          | none =>
            getBank y b = getBank x b ∧ (getEngine y m).reexec = none ∧ (getEngine y m).checkStrike = true ∧
            (getEngine y m).checkClean = 0 ∧
            (otherEngine s c m = true →
              y.reissue.getLast? = some { r with checkFail := some m, fenced := e.checkStrike, moved := true }) ∧
            (e.checkStrike = true → engineActive t c m = false))
      coreFrame c s t ∧ (∀ n, n ≠ b → getBank y n = getBank x n) ∧
      t = { s with cores := t.cores, canopy := t.canopy, trace := t.trace, regs := t.regs, counters := t.counters, fresh := t.fresh } ∧
      ∃ n, match attemptTile { s with fresh := n } c r.ctx r.op f with
        | .values cols skips =>
          getBank y b = writeCols (getBank x b) (cols.map (fun col => col.map toF32)) (r.op.keep && (getBank x b).poison) ∧
          done ∧ t.canopy = s.canopy ∧ t.regs = s.regs ∧ counted (cntEngine g 4) skips s t ∧
          getEngine y m = { e with
            deckleClean := if e.deckleStrike then e.deckleClean + 1 else 0
            checkClean := if e.checkStrike then e.checkClean + 1 else 0
            reexec := none }
        | .parity =>
          bit (regW t (engStatusOff m) c.val) 4 = true ∧ reports 6 ∧ (getEngine y m).lastKind = 6 ∧
          (if again then done ∧ (getBank y b).poison = true else (getEngine y m).reexec = some r ∧ getBank y b = getBank x b)
        | .poison =>
          bit (regW t (engStatusOff m) c.val) 4 = true ∧ t.canopy = s.canopy ∧
          (if again then done ∧ (getBank y b).poison = true else (getEngine y m).reexec = some r ∧ getBank y b = getBank x b)
        | .skew _ _ _ =>
          counted (cntEngine g 2) 1 s t ∧ getBank y b = getBank x b ∧ reports 1 ∧ (getEngine y m).lastKind = 1 ∧
          (e.deckleStrike = false →
            (getEngine y m).deckleStrike = true ∧ (getEngine y m).deckleClean = 0 ∧ (getEngine y m).reexec = some r) ∧
          (e.deckleStrike = true → engineActive t c m = false ∧ (getEngine y m).reexec = none)
        | .format _ _ =>
          counted (cntEngine g 2) 1 s t ∧ reports 2 ∧ (getEngine y m).lastKind = 2 ∧
          (match r.deckleFail.filter (· != m) with
            | some m0 => done ∧ (getBank y b).poison = true ∧ (engineActive s c m = true → engineActive t c m = true) ∧
              (getEngine y m).deckleStrike = true ∧ lifted m0 [2]
            | none =>
              getBank y b = getBank x b ∧
              (e.deckleStrike = false → (getEngine y m).deckleStrike = true ∧ (getEngine y m).deckleClean = 0 ∧
                (getEngine y m).reexec = some { r with deckleFail := some m, fenced := false }) ∧
              (e.deckleStrike = true → engineActive t c m = false ∧ (getEngine y m).reexec = none ∧
                (otherEngine s c m = true →
                  y.reissue.getLast? = some { r with deckleFail := some m, fenced := true, moved := true })))
        | .exact _ => checks 3
        | .bound _ => checks 4
        | .residue _ => checks 5
    (∀ (ctx : CtxId) (op : MmaOp) (f : EngineFault) (m : MeId),
      mmaListed op = true → mmaInside op = true → canIssue s c ctx op.hdr = true → bankHazard (getCore s c) ctx op.bank.toNat = false →
      (op.fence = true → ctxBusy (getCore s c) ctx = false) → engineFor s c op.engine [] = some m →
      (outranked s c ctx (some (.engine m)) = false → ∃ t, exec (.mma c ctx op f) s = .next t ∧
        ends m { ctx := ctx, op := op, checkFail := none, deckleFail := none, fenced := false, moved := false } f false t) ∧
      (outranked s c ctx (some (.engine m)) = true → exec (.mma c ctx op f) s = .next s)) ∧
    (∀ (m : MeId) (f : EngineFault) (r : MmaRun), (getEngine (getCore s c) m).reexec = some r → engineActive s c m = true →
      ∃ t, exec (.tileReexecute c m f) s = .next t ∧ ends m r f true t) ∧
    (∀ (m : MeId) (f : EngineFault) (r : MmaRun) (rest : List MmaRun), (getCore s c).reissue = r :: rest →
      engineActive s c m = true → (getEngine (getCore s c) m).reexec = none → r.checkFail ≠ some m → r.deckleFail ≠ some m →
      ∃ t, exec (.mmaReissue c m f) s = .next t ∧ ends m { r with moved := true } f false t)

/-! ### Load, store, programs and trees -/

/-- LDT and STT inside their spaces: the lines that the space holds, a static scale table as its live copy stands,
reach tile memory, a weight tile with its checksum column behind it; the lines of tile memory or a bank stand in the
space, but for those of bucket areas, which accept writes from the table writer alone; the rest of both is as before
(R77, R96, R112, R123, R216, R242). Lines that a host may hold, or whose stripe has an uncorrectable error, are not
spoken of. The model's choices in log 12 bear on it. -/
def Obligations.LoadStore : Prop :=
  ∀ (c : CoreId) (ctx : CtxId) (s : State),
    let x := getCore s c
    let cx := getCtx x ctx
    let ran (h : CmdHdr) (y : CoreState) : CoreState :=
      { setCtx ctx { cx with lastOp := h.op, lastLayer := h.layer, done := cx.done + 1 } y with lastRun := now s }
    (∀ (op : LdtOp) (errs : List (Nat × LineErr)) (sp : MemSpace) (n : Nat) (wt : Option (ElemFmt × Nat × Nat × Nat)),
      let l := op.memAddr.toNat
      let a := op.tmAddr.toNat
      let extra := match wt with
        | some (_, g, nb, _) => nb * g / 16
        | none => 0
      let held (i : Nat) : Option (Bytes × Bool) := match sp with
        | .device => lineSeen s (l + i)
        | .die => some (ramRead (getDie s (dieOfCore c)).sram (64 * (l + i)) 64, (getDie s (dieOfCore c)).sramPoison.contains (l + i))
        | .cluster =>
          some (ramRead (getCluster s (clusterOf c)).sram (64 * (l + i)) 64, (getCluster s (clusterOf c)).sramPoison.contains (l + i))
      canIssue s c ctx op.hdr = true →
      memSpace op.space = some sp → ldtShape op = some (n, wt) → l + n ≤ spaceLines sp → a + n + extra ≤ 32768 →
      lineHazard s c ctx [(64 * a, 64 * (n + extra))] = false → (∀ e ∈ errs, e.2 ≠ .uncorrectable) →
      (∀ i < n, (held i).isSome = true) →
      ∃ t, exec (.ldt c ctx op errs) s = .next t ∧ coreFrame c s t ∧
        t = { s with pwr := t.pwr, regs := t.regs, canopy := t.canopy, trace := t.trace, overhang := t.overhang,
                     dsm := { s.dsm with used := t.dsm.used, flaws := t.dsm.flaws }, cores := t.cores, counters := t.counters,
                     fresh := t.fresh } ∧
        (sp ≠ .device → t.dsm.used = s.dsm.used ∧ t.overhang = s.overhang ∧ t.pwr = s.pwr) ∧
        getCore t c = ran op.hdr { x with tile := (getCore t c).tile, tilePoison := (getCore t c).tilePoison } ∧
        ((sp = .device → ∀ i < n, (held i).map (·.2) = some false) → t.regs = s.regs ∧ t.canopy = s.canopy) ∧
        (sp = .device → (∃ i < n, (held i).map (·.2) = some true) →
          ∀ u sub, ownerOf s l = some (u, sub) → bit (regW t 0xC80004 u) 11 = true) ∧
        (let ls := withLive c ctx sp l ((List.range n).map (fun i => (held i).getD (zeroLine, true))) s
         let all := match wt with
          | some (f, g, nb, stride) => ls ++ checksumLines f g nb stride ls
          | none => ls
         (∀ (i : Nat) (hi : i < all.length), ramRead (getCore t c).tile (64 * (a + i)) 64 = all[i].1 ∧
            (getCore t c).tilePoison.contains (a + i) = all[i].2) ∧
         (∀ b, b < 64 * a ∨ 64 * (a + all.length) ≤ b → ramGet (getCore t c).tile b = ramGet x.tile b) ∧
         (∀ m, m < a ∨ a + all.length ≤ m → (getCore t c).tilePoison.contains m = x.tilePoison.contains m))) ∧
    (∀ (op : SttOp) (sp : MemSpace),
      let n := if op.fromBank then 384 else op.len.toNat
      let l := op.memAddr.toNat
      let src (i : Nat) : Bytes × Bool :=
        if op.fromBank then (ramRead (getBank x op.len.toNat).mem (64 * i) 64, (getBank x op.len.toNat).poison)
        else (ramRead x.tile (64 * (op.tmAddr.toNat + i)) 64, x.tilePoison.contains (op.tmAddr.toNat + i))
      canIssue s c ctx op.hdr = true →
      memSpace op.space = some sp → n ≠ 0 → (op.fromBank = true → op.len.toNat < 4) → l + n ≤ spaceLines sp →
      (op.fromBank = false → op.tmAddr.toNat + n ≤ 32768) →
      (op.fromBank = true → bankHazard x ctx (op.len.toNat % 4) = false) →
      ∃ t, exec (.stt c ctx op) s = .next t ∧ coreFrame c s t ∧ t = { s with
          cores := t.cores, clusters := t.clusters, dies := t.dies, canopy := t.canopy, trace := t.trace
          dsm := t.dsm, nlus := t.nlus, pwr := t.pwr, regs := t.regs, counters := t.counters, fresh := t.fresh } ∧ getCore t c = ran op.hdr x ∧
        (match sp with
          | .cluster =>
            t.dies = s.dies ∧ t.dsm = s.dsm ∧ sramFrame (clusterOf c) [(64 * l, 64 * n)] s t ∧
            (∀ i < n, ramRead (getCluster t (clusterOf c)).sram (64 * (l + i)) 64 = (src i).1 ∧
              (getCluster t (clusterOf c)).sramPoison.contains (l + i) = (src i).2) ∧
            (∀ m, m < l ∨ l + n ≤ m →
              (getCluster t (clusterOf c)).sramPoison.contains m = (getCluster s (clusterOf c)).sramPoison.contains m)
          | .die =>
            let d := dieOfCore c
            t.clusters = s.clusters ∧ t.dsm = s.dsm ∧ (∀ e, e ≠ d → getDie t e = getDie s e) ∧
            getDie t d = { getDie s d with sram := (getDie t d).sram, sramPoison := (getDie t d).sramPoison } ∧
            (∀ i < n, ramRead (getDie t d).sram (64 * (l + i)) 64 = (src i).1 ∧ (getDie t d).sramPoison.contains (l + i) = (src i).2) ∧
            (∀ m, m < l ∨ l + n ≤ m → ramRead (getDie t d).sram (64 * m) 64 = ramRead (getDie s d).sram (64 * m) 64 ∧
              (getDie t d).sramPoison.contains m = (getDie s d).sramPoison.contains m)
          | .device =>
            t.clusters = s.clusters ∧ t.dies = s.dies ∧
            ((∀ i < n, inBuckets s (l + i) = false →
                (lineSeen s (l + i)).isSome = true ∧ ovhOf s (l + i) = none ∧
                (place s (lineStripe (l + i)) (lineSlot (l + i)) (lineIx (l + i))).isSome = true) →
              t.dsm = { s.dsm with cells := t.dsm.cells, poison := t.dsm.poison, used := t.dsm.used, flaws := t.dsm.flaws } ∧
              t.canopy = s.canopy ∧
              (∀ i < n, inBuckets s (l + i) = false →
                lineSeen t (l + i) = some (if kindOf s (lineStripe (l + i)) = 0 then (zeroLine, false) else src i)) ∧
              (∀ m, m < dpaLines → (m < l ∨ l + n ≤ m ∨ inBuckets s m = true) →
                (place s (lineStripe m) (lineSlot m) (lineIx m)).isSome = true → lineSeen t m = lineSeen s m))))

/-- VEC: its words run in order from a vector engine whose VL is 128 and whose V and M registers carry nothing over,
and the command is counted in its context (R113, R129, R130, R137), where its words are such as LOAD_IMAGE accepts;
`resid` tells which of them fail their residue check, and a second failure of one fences the core. One for whose vector
engine the other context's lower ream stands first waits (R105). A command whose event is not due, or whose condition
is absent, leaves the state (DESIGN CHOICE, log 2). The model's choices in log 80 bear on it. -/
def Obligations.VectorProgram : Prop :=
  ∀ (c : CoreId) (ctx : CtxId) (op : VecOp) (prog : List W64) (resid : List (Nat × Nat)) (s : State),
    let x := getCore s c
    let begins (u : State) : Prop := coreFrame c s u ∧
      u = { s with cores := u.cores, trace := u.trace, counters := u.counters, fresh := u.fresh } ∧
      ∃ e : Nat, getCore u c = { setCtx ctx { getCtx x ctx with lastOp := op.hdr.op, lastLayer := op.hdr.layer } x with
        lastRun := now s
        ve := { x.ve with
          epoch := some e, regs := [], regPoison := [], masks := [], maskPoison := [], vl := 128, vlPoison := false,
          ctx := ctx, op := op.hdr.op, layer := op.hdr.layer, pos := 0, cleanCols := [], mismatch := false } }
    op.instrCount ≠ 0 → prog.length = op.instrCount.toNat → canIssue s c ctx op.hdr = true →
    (ctxBusy x ctx = false ∨ vecHazard c ctx s prog (vecStart c ctx op.hdr s) = false) →
    wordsFit c prog (vecStart c ctx op.hdr s) = true →
    (outranked s c ctx (some .vector) = true → exec (.vec c ctx op ⟨prog, resid⟩) s = .next s) ∧
    (outranked s c ctx (some .vector) = false →
      ∃ u v t, begins u ∧ vecRun c resid prog u = .next v ∧ exec (.vec c ctx op ⟨prog, resid⟩) s = .next t ∧
        (coreActive v c.val = false → t = v) ∧
        (coreActive v c.val = true → coreFrame c v t ∧
          t = { v with cores := t.cores, trace := t.trace, counters := t.counters, fresh := t.fresh } ∧
          let y := getCore v c
          getCore t c = { setCtx ctx { getCtx y ctx with done := (getCtx y ctx).done + 1 } y with
            lastRun := now v
            ve := { y.ve with clean := if y.ve.strike && !y.ve.mismatch then y.ve.clean + 1 else y.ve.clean } }))

/-- TREE on a held segment: each sample's outputs, by OUT_MODE, from the leaves that its walks reach in ascending tree
order; poison, from the features that the walks read, from damaged words and under ADD from the old outputs; visits,
NaN comparisons and the command counted; the rest of tile memory as before (R163 to R172, R182). A node that a walk
reads and that fails parity after its retry is counted and reported and sets the strike; with the strike set the core
is fenced and writes nothing (R181, R182). A TREE for whose engine the other context's lower ream stands first waits
(R105). A command whose event is not due, or whose condition is absent, leaves the state (DESIGN CHOICE, log 2). The
model's choices in log 81 bear on it. -/
def Obligations.TreeCommand : Prop :=
  ∀ (c : CoreId) (ctx : CtxId) (op : TreeOp) (s : State) (so : StandObj) (se : SegEntry),
    let x := getCore s c
    let cx := getCtx x ctx
    let h := standHdr so.bytes
    let n := op.samplesM1.toNat + 1
    let trees := (h.segs.getD op.seg.toNat (0, 0)).1
    let walks (i : Nat) : List Walk := segWalks (fun j => mapGetD 0 (se.base + j) x.te.words) h trees (treeFeat x op i)
    let out (i o : Nat) : W32 := toF32 (match op.outMode.toNat with
      | 0 => segSum (walks i) o
      | 1 => add32 (standBase so.bytes o) (segSum (walks i) o)
      | _ => add32 (f32 (BitVec.ofNat 32 (leNat (ramRead x.tile (treeOutAddr op i + 4 * o) 4)))) (segSum (walks i) o))
    let seen (i : Nat) : Bool := (walks i).any (fun w => w.feats.any (fun f => tilePoisoned x (treeFeatAddr op i + 2 * f) 2))
    let dead (i : Nat) : Bool := (walks i).any (fun w => w.nodes.any (fun j => x.te.bad.contains (se.base + j)))
    let held (i l : Nat) : Bool := op.outMode == 2 && tilePoisoned x (treeOutAddr op i + 64 * l) 64
    let marked (i l : Nat) : Bool := seen i || dead i || held i l
    let all : List Walk := ((List.range n).map walks).flatten
    standOf s cx.slot op.standId.toNat = some so → segEntry x cx.slot op.standId.toNat op.seg.toNat = some se →
    treeListed op h = true → treeFeatAddr op (n - 1) + 2 * h.numFeat ≤ tileBytes →
    treeOutAddr op (n - 1) + 4 * h.numOut ≤ tileBytes → canIssue s c ctx op.hdr = true →
    (op.fence = true → ctxBusy x ctx = false) →
    lineHazard s c ctx ((List.range n).map (fun i => (treeOutAddr op i, 4 * h.numOut))) = false →
    (outranked s c ctx (some .tree) = true → ∀ faults, exec (.tree c ctx op faults) s = .next s) ∧
    (outranked s c ctx (some .tree) = false →
      (∃ t, exec (.tree c ctx op []) s = .next t ∧ coreFrame c s t ∧
        t = { s with cores := t.cores, trace := t.trace, regs := t.regs, counters := t.counters, fresh := t.fresh } ∧
        regsKeep [regKey 0xF00800 c.val] s t ∧
        (bit (regW t 0xF00800 c.val) 10 = (bit (regW s 0xF00800 c.val) 10 || (List.range n).any (fun i =>
          seen i || (List.range ((h.numOut + 15) / 16)).any (held i)))) ∧
        (bit (regW t 0xF00800 c.val) 8 = (bit (regW s 0xF00800 c.val) 8 || decide (0 < (all.map (·.nans)).foldl (· + ·) 0))) ∧
        getCore t c = { setCtx ctx { cx with lastOp := op.hdr.op, lastLayer := op.hdr.layer, done := cx.done + 1 } x with
          lastRun := now s
          tile := (getCore t c).tile
          tilePoison := (getCore t c).tilePoison
          te := { x.te with clean := if x.te.strike then x.te.clean + 1 else x.te.clean } } ∧
        (∀ i < n, ∀ o < h.numOut, leNat (ramRead (getCore t c).tile (treeOutAddr op i + 4 * o) 4) = (out i o).toNat ∧
          (marked i (o / 16) = true → tilePoisoned (getCore t c) (treeOutAddr op i + 4 * o) 4 = true) ∧
          (marked i (o / 16) = false → 16 * (o / 16 + 1) ≤ h.numOut →
            tilePoisoned (getCore t c) (treeOutAddr op i + 4 * o) 4 = false)) ∧
        (∀ a, (∀ i < n, a < treeOutAddr op i ∨ treeOutAddr op i + 4 * h.numOut ≤ a) →
          ramGet (getCore t c).tile a = ramGet x.tile a) ∧
        counted (cntCore c.val 7) 1 s t ∧
        counted (cntCore c.val 6) ((all.map (fun w => w.nodes.length)).foldl (· + ·) 0) s t ∧
        counted (cntCore c.val 8) ((all.map (·.nans)).foldl (· + ·) 0) s t) ∧
      (∀ f : NodeFault, f.seg = op.seg.toNat → (∃ w ∈ all, f.node ∈ w.nodes) →
        ∃ t, exec (.tree c ctx op [f]) s = .next t ∧ coreFrame c s t ∧ (getCore t c).te.strike = true ∧
          bit (regW t 0xF00800 c.val) 9 = true ∧ counted (cntCore c.val 10) 1 s t ∧ reportFirst 0x0B (ucCore c) (ucCore c) s t ∧
          (x.te.strike = true → coreActive t c.val = false ∧ (getCore t c).tile = x.tile) ∧
          (x.te.strike = false → (getCore t c).te.clean = 0 ∧ counted (cntCore c.val 7) 1 s t)))

/-! ### Near-memory lookup -/

/-- GATHER, POOL and POOL_COMBINE: each key's row by the ream's view, encoded at its place in the cluster's SRAM; each
bag's exact partials, then its outputs rounded once; rows that are poisoned and keys and bags that a poisoned list line
hides mark their outputs; the rest of the cluster's SRAM as before; the command leaves its ream, and an NLU that none
of the ream's commands reaches any more has given up its credits and its pairs (R207 to R213, R229, R231, R303). One
whose launch edge lies ahead, or that finds a stack not awake, waits (R38, R43). The model's choices in logs 18 and 85
bear on it. -/
def Obligations.NluCommands : Prop :=
  ∀ (d : CDie) (cmd : NluCmd) (errs : List (Nat × LineErr)) (s : State),
    let k : ClusterId := ⟨cmd.destCluster.toNat, cmd.destCluster.isLt⟩
    let at_ (i : Nat) : Nat := 64 * (cmd.destLine.toNat + i * (cmd.destStrideM1.toNat + 1))
    let view := reamView s cmd.reamSeq
    let fmt := cmd.outFmt.toNat
    let keys := keyList s d cmd.keyLine.toNat (cmd.keyCountM1.toNat + 1)
    let seen (x : Tbl) (key : Option W64) : Bytes × Bool := (key.bind (fun key => keySeen s x key.toNat view)).getD ([], true)
    let waits (i : Instr) : Prop := ∃ t, exec i s = .next t ∧ t = { s with pwr := t.pwr, counters := t.counters } ∧
      (nluAhead s d cmd = true → t = s)
    let erased (pool : Bool) (t : State) : Prop :=
      (∀ r, reamOf s cmd.reamSeq = some r → ∃ r', reamOf t cmd.reamSeq = some r' ∧
        r'.jobs = r.jobs.erase { die := d, pool := pool, cmd := cmd } ∧
        r'.nluCredit = r.nluCredit.filter (fun p => (nlusLeft t cmd.reamSeq).contains p.1)) ∧
      ∀ u, u ∉ nlusLeft t cmd.reamSeq → ∀ c ∈ (getNlu t u).coal, c.ream ≠ cmd.reamSeq
    (∀ e ∈ errs, e.2 ≠ .uncorrectable) → (∀ p ∈ s.nlus, ∀ c ∈ p.2.coal, c.ream ≠ cmd.reamSeq) →
    (nluListed s d false cmd = true → nluExtent false cmd ≤ 262144 → nluWaits s d cmd = true → waits (.gather d cmd errs)) ∧
    (nluListed s d true cmd = true → nluExtent true cmd ≤ 262144 → nluWaits s d cmd = true → waits (.pool d cmd errs)) ∧
    (∀ (x : Tbl), nluListed s d false cmd = true → nluExtent false cmd ≤ 262144 → nluWaits s d cmd = false →
      getTbl s cmd.table.val = some x → outBytes x.desc fmt ≤ 64 * (cmd.destStrideM1.toNat + 1) →
      (∀ key ∈ keys.filterMap id, (keySeen s x key.toNat view).isSome = true ∧ bucketsSeen s x key.toNat view) →
      rowsApart s x ((keys.filterMap id).map (·.toNat)) view →
      ∃ t, exec (.gather d cmd errs) s = .next t ∧ t = { s with
          clusters := t.clusters, canopy := t.canopy, trace := t.trace, dsm := t.dsm, nlus := t.nlus
          overhang := t.overhang, tbl := t.tbl, reams := t.reams, pwr := t.pwr, regs := t.regs
          counters := t.counters, fresh := t.fresh } ∧ erased false t ∧
        sramFrame k ((List.range keys.length).map (fun i => (at_ i, outBytes x.desc fmt))) s t ∧
        ∀ (i : Nat) (hi : i < keys.length),
          let b := seen x keys[i]
          if b.2 then sramMarked t k (at_ i) (outBytes x.desc fmt)
          else sramHolds t k (at_ i) (if fmt = 2 then b.1.take (rowSize x.desc)
            else (((rowElems x.desc b.1).getD []).map (encodeOut fmt)).flatten)) ∧
    (∀ (x : Tbl), nluListed s d true cmd = true → nluExtent true cmd ≤ 262144 → nluWaits s d cmd = false →
      getTbl s cmd.table.val = some x →
      (∀ key ∈ keys.filterMap id, (keySeen s x key.toNat view).isSome = true ∧ bucketsSeen s x key.toNat view) →
      rowsApart s x ((keys.filterMap id).map (·.toNat)) view →
      let nb := cmd.bagCountM1.toNat + 1
      let lost (i : Nat) : Bool := (getDie s d).sramPoison.contains ((64 * cmd.bagLine.toNat + 4 * i) / 64)
      let word (i : Nat) : Nat := leNat (ramRead (getDie s d).sram (64 * cmd.bagLine.toNat + 4 * i) 4)
      let fits (i : Nat) : Bool := decide (bits (word i) 19 0 + bits (word i) 28 20 ≤ keys.length) && decide (bits (word i) 28 20 ≤ 256)
      ∃ t bags, exec (.pool d cmd errs) s = .next t ∧ t = { s with
          canopy := t.canopy, trace := t.trace, dsm := t.dsm, nlus := t.nlus, pools := t.pools
          overhang := t.overhang, tbl := t.tbl, reams := t.reams, pwr := t.pwr, regs := t.regs
          counters := t.counters, fresh := t.fresh } ∧ erased true t ∧
        t.pools = s.pools ++ [{ die := d, cmd := cmd, bags := bags }] ∧ bags.length = nb ∧
        (∀ i < nb,
          let len := bits (word i) 28 20
          let rows := ((keys.drop (bits (word i) 19 0)).take len).map (seen x)
          bags[i]? = some (if lost i then ([], 0, true) else if fits i then
            ((bagPartial x.desc (cmd.poolOp == 2) rows).1, len, (bagPartial x.desc (cmd.poolOp == 2) rows).2) else ([], len, true))) ∧
        (∀ j, (List.range' (4 * (cmd.destCluster.toNat / 8)) 4).find? (fun j => !stackLost s j) = some j →
          counted (cntNlu (4 * j) 7)
            ((List.range nb).filter (fun i => !lost i && fits i && bits (word i) 28 20 == 0)).length s t)) ∧
    (∀ (j : PoolJob) (rest : List PoolJob) (x : Tbl),
      takeFirst (fun j => j.die == d && j.cmd.reamSeq == cmd.reamSeq && j.cmd.tensorId == cmd.tensorId) s.pools = some (j, rest) →
      j.cmd = cmd → getTbl s cmd.table.val = some x →
      let w := if fmt = 1 then 2 else 4
      let size (b : List (Option Int) × Nat × Bool) : Nat :=
        if b.2.2 then outBytes x.desc fmt else if b.2.1 = 0 then w * x.desc.rowLen else w * b.1.length
      (∀ b ∈ j.bags, size b ≤ 64 * (cmd.destStrideM1.toNat + 1)) →
      ∃ t, exec (.poolCombine d cmd.reamSeq cmd.tensorId) s = .next t ∧
        t = { s with pools := rest, clusters := t.clusters, fresh := t.fresh } ∧
        sramFrame k ((List.range j.bags.length).map (fun i => (at_ i, ((j.bags[i]?).map size).getD 0))) s t ∧
        ∀ (i : Nat) (hi : i < j.bags.length),
          let b := j.bags[i]
          if b.2.2 then sramMarked t k (at_ i) (outBytes x.desc fmt)
          else ∃ bs, bs.length = size b ∧ sramHolds t k (at_ i) bs ∧
            (b.2.1 = 0 → bs = (List.replicate x.desc.rowLen (encodeOut fmt (if cmd.poolOp = 2 then .inf true else FV.zero))).flatten) ∧
            (b.2.1 ≠ 0 → ∀ n v, b.1[n]? = some (some v) → (bs.drop (w * n)).take w = poolElem cmd.poolOp.toNat fmt b.2.1 v))

/-- NLU_LOOKUP, LOOKUP_FORWARD and OVERHANG_READ: a repeated key joins its pair; a new pair reads bucket 0 and
resolves, misses or is forwarded to the owner of bucket 1 with the move epoch noted before it, which resolves it,
misses, or starts it again under a new epoch, the fourth time with moves held; an overhang unit is delivered by the
first attempt that passes its CRC, else poisoned (R210, R213, R214, R218, R219, R229 to R231). The model's choices in
log 86 bear on it. -/
def Obligations.NluLookups : Prop :=
  ∀ (u : NluId) (s : State),
    (∀ (ream : W32) (tb : TableId) (key : W64) (x : Tbl), getTbl s tb.val = some x → x.desc.kind = 0 →
      nluOf s x.desc (bucketN x.desc 0 key.toNat) = u.val →
      let n := getNlu s u.val
      (∀ c rest, takeFirst (fun c => sameCoal ream tb key c && !c.uncoal) n.coal = some (c, rest) →
        ∃ t, exec (.nluLookup u ream tb key) s = .next t ∧ t = { s with nlus := t.nlus, counters := t.counters } ∧
          (∀ v, v ≠ u.val → getNlu t v = getNlu s v) ∧ getNlu t u.val = { n with coal := rest ++ [{ c with served := c.served + 1 }] } ∧
          counted (cntNlu u.val 2) 1 s t ∧ cntsKeep [cntNlu u.val 2] s t) ∧
      ((∀ c ∈ n.coal, sameCoal ream tb key c = true → c.uncoal = true ∧ c.res ≠ none) →
        bucketsSeen s x key.toNat (reamView s ream) → ∀ b, bucketSeen s x 0 key.toNat (reamView s ream) = some b →
        let v := nluOf s x.desc (bucketN x.desc 1 key.toNat)
        let started (res : Option RowRes) : List Coal :=
          n.coal ++ [{ ream := ream, table := tb, key := key, res := res, data := none, served := 1, uncoal := coalFull n ream }]
        let f : FwdLookup := { ream := ream, table := tb, key := key, owner := u, epoch := x.epoch, tries := 0 }
        ∃ t, exec (.nluLookup u ream tb key) s = .next t ∧
          t = { s with nlus := t.nlus, tbl := { s.tbl with tables := t.tbl.tables, missFifo := t.tbl.missFifo }
                       dsm := { s.dsm with cells := t.dsm.cells, poison := t.dsm.poison, used := t.dsm.used, flaws := t.dsm.flaws }
                       overhang := t.overhang, pwr := t.pwr, regs := t.regs, counters := t.counters } ∧
          counted (cntNlu u.val 0) 1 s t ∧ countedEach (cntNlu u.val 3) (b2n (coalFull n ream)) s t ∧
          let freed : Prop := (getTbl t tb.val).map (·.holds) = some (x.holds.filter (fun h => !(h.ream == ream && h.key == key.toNat)))
          (match b with
            | some r => (getNlu t u.val).coal = started (some r) ∧ t.tbl.missFifo = s.tbl.missFifo ∧ freed
            | none =>
              if bucketN x.desc 0 key.toNat = bucketN x.desc 1 key.toNat then
                (getNlu t u.val).coal = started (some .default_) ∧ freed ∧ counted (cntNlu u.val 1) 1 s t ∧ counted (cntTable tb.val 7) 1 s t
              else (getNlu t u.val).coal = started none ∧ t.tbl = s.tbl ∧
                (if (getNlu s v).fwd.length < 4096 then (getNlu t v).fwd = (getNlu s v).fwd ++ [f]
                  else (getNlu t u.val).held = n.held ++ [f] ∧ bit (regW t 0xC80004 v) 9 = true)))) ∧
    (∀ (f : FwdLookup) (rest : List FwdLookup) (x : Tbl) (b : Option RowRes) (c : Coal) (others : List Coal),
      (getNlu s u.val).fwd = f :: rest → getTbl s f.table.val = some x → bucketsSeen s x f.key.toNat (reamView s f.ream) →
      bucketSeen s x 1 f.key.toNat (reamView s f.ream) = some b →
      takeFirst (fun c => sameCoal f.ream f.table f.key c && c.res.isNone) (getNlu s f.owner.val).coal = some (c, others) →
      let resolved (t : State) (r : RowRes) : Prop := (getNlu t f.owner.val).coal = others ++ [{ c with res := some r }]
      ∃ t, exec (.lookupForward u) s = .next t ∧ t = { s with
          canopy := t.canopy, dsm := t.dsm, nlus := t.nlus, overhang := t.overhang, tbl := t.tbl, pwr := t.pwr
          regs := t.regs, counters := t.counters, fresh := t.fresh } ∧
        (match b with
          | some r => resolved t r
          | none =>
            if x.epoch = f.epoch then
              resolved t .default_ ∧ counted (cntNlu f.owner.val 1) 1 s t ∧ counted (cntTable f.table.val 7) 1 s t
            else counted (cntTable f.table.val 4) 1 s t ∧
              (∀ r, bucketSeen s x 0 f.key.toNat (reamView s f.ream) = some (some r) → resolved t r) ∧
              (bucketSeen s x 0 f.key.toNat (reamView s f.ream) = some none →
                bucketN x.desc 0 f.key.toNat ≠ bucketN x.desc 1 f.key.toNat →
                let v := nluOf s x.desc (bucketN x.desc 1 f.key.toNat)
                ((getNlu s v).fwd.length < 4096 →
                  (getNlu t v).fwd.getLast? = some { f with epoch := x.epoch, tries := f.tries + 1 }) ∧
                (f.tries = 3 → (getTbl t f.table.val).map (·.holds) =
                  some (x.holds ++ [{ ream := f.ream, key := f.key.toNat, since := now s }]))))) ∧
    (∀ (unit : Nat) (attempts : List (Option Bytes)) (o : OvhUnit), mapGet unit s.overhang.units = some o →
      let tried := attempts.take (if o.mirror.isSome then 3 else 2)
      let ok (a : Option Bytes) : Bool := match a with
        | some bs => bs.length == 4096 && crc32c bs == o.crc.toNat
        | none => false
      ∃ t, exec (.overhangRead u unit attempts) s = .next t ∧
        t = { s with overhang := { s.overhang with delivered := t.overhang.delivered }, regs := t.regs, counters := t.counters } ∧
        (∀ v, v ≠ unit → mapGet v t.overhang.delivered = mapGet v s.overhang.delivered) ∧
        counted (cntNlu u.val 6) (tried.takeWhile (fun a => !ok a)).length s t ∧ counted (cntNlu u.val 5) 1 s t ∧
        (∀ bs, tried.find? ok = some (some bs) → mapGet unit t.overhang.delivered = some (bs, false) ∧ t.regs = s.regs) ∧
        (tried.find? ok = none → mapGet unit t.overhang.delivered = some ([], true) ∧ bit (regW t 0xC80004 u.val) 11 = true))

/-! ### Memory stacks -/

/-- GUARDED_WRITE, DEGRADED_READ, HDM_READ, HDM_WRITE and BACK_INVALIDATE: a guarded line and its P and Q change
together; a line of an absent unit is read through its stripe; a host line is held by its reader until it is given up,
the oldest one where its port's filter is full; an access waits while the other host may hold the line; a write that a
table rejects is discarded and counted, and a bucket area's lines accept none but the table writer's (R194, R198, R203,
R242, R332, R333). A command whose event is not due, or whose condition is absent, leaves the state (DESIGN CHOICE, log
2). The model's choices in logs 16, 66 and 83 bear on it. -/
def Obligations.GuardedMemory : Prop :=
  ∀ (s : State),
    let onlyLines (ks : List Nat) (t : State) : Prop := ∀ j, j ∉ ks → rawLine t j = rawLine s j ∧ t.dsm.poison.contains j = s.dsm.poison.contains j
    let held (l : Nat) : Bool := (place s (lineStripe l) (lineSlot l) (lineIx l)).isSome
    let written (l : Nat) (data : BitVec 512) (t : State) : Prop :=
      held l = true → kindOf s (lineStripe l) ≠ 0 → intact s (lineStripe l) (lineIx l) →
        stackSeen t l = some (toLE 64 data.toNat, false)
    (∀ (l : Nat) (data : BitVec 512) (old : Bytes), l < dpaLines →
      let t0 := lineStripe l
      let x := lineSlot l
      let k := lineIx l
      kindOf s t0 = 1 → inBuckets s l = false → holderOf s l = none → intact s t0 k →
      ((place s t0 x k).map (rawLine s)).or (reconstruct s t0 k x) = some old →
      let new := toLE 64 data.toNat
      let p := place s t0 14 k
      let q := place s t0 15 k
      ∃ t, exec (.guardedWrite l data) s = .next t ∧
        t = { s with dsm := { s.dsm with cells := t.dsm.cells, poison := t.dsm.poison, used := t.dsm.used, flaws := t.dsm.flaws },
                     pwr := t.pwr, counters := t.counters } ∧
        onlyLines ((place s t0 x k).toList ++ p.toList ++ q.toList ++ [lineKey (slotStack t0 x) t0 k]) t ∧
        (∀ key, place s t0 x k = some key → stackSeen t l = some (new, false)) ∧
        (place s t0 x k = none → counted (cntStack (homeOf s t0 k) 3) 1 s t ∧
          t.dsm.poison.contains (lineKey (slotStack t0 x) t0 k) = false) ∧
        (∀ key, p = some key → rawLine t key = xorLine (rawLine s key) (xorLine old new)) ∧
        (∀ key, q = some key → rawLine t key = xorLine (rawLine s key) (mulLine (coefOf s t0 x k) (xorLine old new)))) ∧
    (∀ (l : Nat) (data : BitVec 512), l < dpaLines → (kindOf s (lineStripe l) ≠ 1 ∨ inBuckets s l = true) →
      exec (.guardedWrite l data) s = .next s) ∧
    (∀ l, l < dpaLines → kindOf s (lineStripe l) = 1 → held l = false →
      ∃ t, exec (.degradedRead l) s = .next t ∧ t = { s with
          canopy := t.canopy, dsm := t.dsm, nlus := t.nlus, overhang := t.overhang, pwr := t.pwr, regs := t.regs
          counters := t.counters, fresh := t.fresh } ∧
        ((lineSeen s l).isSome = true → ovhOf s l = none →
          t = { s with dsm := { s.dsm with used := t.dsm.used, flaws := t.dsm.flaws }, pwr := t.pwr, counters := t.counters } ∧
          counted (cntStack (homeOf s (lineStripe l) (lineIx l)) 3) 1 s t)) ∧
    (∀ (p : HPort) (addr : W64) (l : Nat), barUp s = true → hdmLine s p addr.toNat = some l → (getPort s p).linkUp = true →
      (heldElsewhere s p l = true → ∀ err data, exec (.hdmRead p addr err) s = .next s ∧ exec (.hdmWrite p addr data) s = .next s) ∧
      (heldElsewhere s p l = false →
        let mine := s.dsm.snoop.filter (fun h => h.1 == p)
        (∀ err, ∃ t, exec (.hdmRead p addr err) s = .next t ∧ t = { s with
            canopy := t.canopy, dsm := t.dsm, nlus := t.nlus, overhang := t.overhang, pwr := t.pwr, regs := t.regs
            counters := t.counters, fresh := t.fresh } ∧
          (holderOf s l = some p → t.dsm.snoop = s.dsm.snoop) ∧
          (holderOf s l = none → mine.length < snoopCap → t.dsm.snoop = s.dsm.snoop ++ [(p, l)]) ∧
          (holderOf s l = none → snoopCap ≤ mine.length → ∀ h, mine.head? = some h →
            t.dsm.snoop = s.dsm.snoop.filter (fun g => g.2 != h.2) ++ [(p, l)])) ∧
        (∀ data : BitVec 512,
          (rejectsHostWrite s l = none → ∃ t, exec (.hdmWrite p addr data) s = .next t ∧ t = { s with
              canopy := t.canopy, dsm := t.dsm, nlus := t.nlus, pwr := t.pwr, regs := t.regs, counters := t.counters
              fresh := t.fresh } ∧
            t.dsm.snoop = s.dsm.snoop ∧ written l data t) ∧
          (∀ tb, rejectsHostWrite s l = some tb → ∃ t, exec (.hdmWrite p addr data) s = .next t ∧
            t = { s with counters := t.counters } ∧ cntsKeep [cntTable tb 6] s t ∧ counted (cntTable tb 6) 1 s t)))) ∧
    (∀ (p : HPort) (l : Nat) (dirty : Option (BitVec 512)),
      (holderOf s l ≠ some p → exec (.backInvalidate p l dirty) s = .next s) ∧
      (holderOf s l = some p →
        ∃ t, exec (.backInvalidate p l dirty) s = .next t ∧ t = { s with
            canopy := t.canopy, dsm := t.dsm, nlus := t.nlus, pwr := t.pwr, regs := t.regs, counters := t.counters
            fresh := t.fresh } ∧
          t.dsm.snoop = s.dsm.snoop.filter (fun h => h.2 != l) ∧
          (dirty = none → t = { s with dsm := { s.dsm with snoop := t.dsm.snoop } }) ∧
          (∀ data, dirty = some data → rejectsHostWrite s l = none → written l data t) ∧
          (∀ data tb, dirty = some data → rejectsHostWrite s l = some tb → counted (cntTable tb 6) 1 s t ∧
            t = { s with dsm := { s.dsm with snoop := t.dsm.snoop }, counters := t.counters })))

/-- SCRUB_PASS, STRIPE_PARITY_CHECK, STACK_LOST, STACK_RETIRE, REBUILD_STEP and MEM_TIMEOUT (R184, R185, R197 to R205,
R393). The model's choices in log 83 bear on it. -/
def Obligations.StackFaults : Prop :=
  ∀ (s : State),
    (∀ (st : StackId) (corrected : Nat), stackLost s st.val = false →
      ((∀ f ∈ s.dsm.flaws, keyStack f.1 ≠ st.val) →
        ∃ t, exec (.scrubPass st corrected []) s = .next t ∧ t = { s with counters := t.counters } ∧
        cntsKeep [cntStack st.val 0] s t ∧ counted (cntStack st.val 0) corrected s t) ∧
      (∀ n < 2 ^ 32,
        let x := slotOnStack (n / 64) st.val
        let key := lineKey st.val (n / 64) (n % 64)
        x ≠ 13 → kindOf s (n / 64) = 1 → s.dsm.flaws = [] → mapGet st.val s.dsm.ue = none → 1 ≤ regF s 0xE0000C 0 15 0 →
        ∃ t, exec (.scrubPass st corrected [n]) s = .next t ∧ t = { s with
            canopy := t.canopy, dsm := t.dsm, nlus := t.nlus, pwr := t.pwr, regs := t.regs, counters := t.counters
            fresh := t.fresh } ∧
          counted (cntStack st.val 0) corrected s t ∧ counted (cntStack st.val 1) 1 s t ∧ bit (regW t 0xE00024 st.val) 3 = true ∧
          reportFirst 0x20 (ucStack st) (ucStack st) s t ∧
          (∀ j, j ≠ key → rawLine t j = rawLine s j) ∧ t.dsm.poison = s.dsm.poison ∧
          (∀ v, reconstruct s (n / 64) (n % 64) x = some v →
            rawLine t key = v ∧ torn t key = false ∧ counted (cntStack st.val 2) 1 s t) ∧
          (reconstruct s (n / 64) (n % 64) x = none → torn t key = true ∧ rawLine t key = rawLine s key))) ∧
    (s.dsm.flaws = [] → ∃ t, exec .stripeParityCheck s = .next t ∧ t = { s with
        canopy := t.canopy, recorder := t.recorder, dsm := t.dsm, nlus := t.nlus, pwr := t.pwr, regs := t.regs
        counters := t.counters, fresh := t.fresh } ∧
      t.dsm = { s.dsm with cells := t.dsm.cells, used := t.dsm.used } ∧
      (∀ l key, l < dpaLines → place s (lineStripe l) (lineSlot l) (lineIx l) = some key → rawLine t key = rawLine s key) ∧
      (∀ t0 ∈ usedStripes s, kindOf s t0 = 1 →
        let data (d k : Nat) : Option Bytes := ((place s t0 d k).map (rawLine s)).or (reconstruct s t0 k d)
        let sum (x k : Nat) : Bytes := (List.range 13).foldl (fun a d =>
          xorLine a (mulLine (if x = 14 then 1 else coefOf s t0 d k) ((data d k).getD zeroLine))) zeroLine
        (∀ k < 64, (∀ d < 13, (data d k).isSome = true) → ∀ x ∈ [14, 15], ∀ key, place s t0 x k = some key →
          rawLine t key = sum x k) ∧
        ((usedStripes s).filter (fun n => kindOf s n == 1) = [t0] → (∀ k < 64, ∀ d < 13, (data d k).isSome = true) →
          countedEach (cntStack (homeOf s t0 0) 4) (b2n ((List.range 64).any (fun k => [14, 15].any (fun x =>
            (place s t0 x k).any (fun key => rawLine s key != sum x k))))) s t))) ∧
    (∀ (st : StackId),
      let lost (u : State) (retired : List Nat) : Prop :=
        let n := (setIns st.val s.dsm.lost).length
        let first := s.dsm.st == 0
        u.dsm = { s.dsm with
          lost := setIns st.val s.dsm.lost
          retired := retired
          st := if 3 ≤ n then 4 else if first then 1 else if s.dsm.st = 2 then 3 else s.dsm.st
          firstLost := if first then st.val else s.dsm.firstLost
          next := if first then 0 else s.dsm.next
          started := if first then now s else s.dsm.started } ∧
        (unitRec u (ucStack st)).st = 2 ∧ (∀ i < 4, getNlu u (4 * st.val + i) = Nlu.empty) ∧
        (∀ i, i / 4 ≠ st.val → getNlu u i = getNlu s i) ∧ reportFirst 0x21 (ucStack st) (ucSpine (dieOfStack st)) s u ∧
        u = { s with dsm := u.dsm, canopy := u.canopy, nlus := u.nlus, fresh := u.fresh }
      stackLost s st.val = false →
      (∃ u t, exec (.stackLost st) s = .next t ∧ t = evalHandover u ∧ lost u s.dsm.retired) ∧
      (∀ p, barUp s = true → holdsSem s p = true → regF s 0xE00010 0 3 0 = st.val →
        ∃ u t, exec (.stackRetire p) s = .next t ∧ t = evalHandover u ∧ lost u (setIns st.val s.dsm.retired))) ∧
    (rebuilding s = true → bit (regW s 0xE00004 0) 16 = false →
      let t0 := s.dsm.next
      let x := slotOnStack t0 s.dsm.firstLost
      ∃ t, exec .rebuildStep s = .next t ∧ t = { s with
          canopy := t.canopy, recorder := t.recorder, dsm := t.dsm, nlus := t.nlus, pwr := t.pwr, regs := t.regs
          counters := t.counters, fresh := t.fresh } ∧ t.dsm.next = t0 + 1 ∧ counted (cntStack (homeOf s t0 0) 6) 1 s t ∧
        (s.dsm.flaws = [] →
          t.dsm.lost = s.dsm.lost ∧ t.dsm.st = (if t0 + 1 < stripeCount then 1 else if s.dsm.lost.length = 1 then 2 else 3) ∧
          (t0 < stripeCount → x ≠ 13 → kindOf s t0 = 1 → s.dsm.firstLost < 16 → stackLost s s.dsm.firstLost = true →
            stackLost s (slotStack t0 13) = false →
            (∀ k < 64, s.dsm.reloc.contains (lineKey (slotStack t0 13) t0 k) = false) →
            ∀ k < 64, ∀ v, reconstruct s t0 k x = some v →
              place t t0 x k = some (lineKey (slotStack t0 13) t0 k) ∧ rawLine t (lineKey (slotStack t0 13) t0 k) = v))) ∧
    (∀ (reporter : UnitCode) (st : StackId) (layer op : W16),
      ∃ t r, exec (.memTimeout reporter st layer op) s = .next t ∧
        t = { s with fresh := t.fresh, canopy := { s.canopy with transit := s.canopy.transit ++ [(reportNode reporter, r)] } } ∧
        r.code = 0x22 ∧ r.suspect = ucStack st ∧ r.alt = ucSpine (dieOfStack st) ∧ r.reporter = reporter ∧ r.layer = layer ∧
        r.op = op ∧ r.count = 1)

/-! ### Tables -/

/-- TABLE_INSERT, ENTRY_MOVE, BATCH_STAGE, LATE_COMMIT, RETIREMENT_START, RETIREMENT_END and TABLE_BATCH: the oldest
waiting change that no chain and no earlier change holds back is made, an entry is moved in the order of R234, staging
keeps a failing change out, a commit raises GEN, and a batch's records join their table's queue in the order of
acceptance (R230, R232 to R236, R239 to R246, R328, R376). A command whose event is not due, or whose condition is
absent, leaves the state (DESIGN CHOICE, log 2). The model's choices in log 21 bear on it. -/
def Obligations.TableWriter : Prop :=
  ∀ (s : State) (tb : TableId) (x : Tbl), getTbl s tb.val = some x →
    (∀ (r : InsReq) (rest : List InsReq), takeFirst (fun r => mayRun r s) s.tbl.inserts = some (r, rest) → r.table = tb →
      let key := r.entry.key
      let b := bucketN x.desc 0 key
      let i := portIx r.port
      let ended (status : Nat) (t : State) : Prop := regF t tblCmdOff i 23 16 = status ∧ bit (regW t tblCmdOff i) 13 = false
      let seen := foundSeen s x.desc (visibleIn x (now s)) key
      (∀ (es : List Entry) (n : Nat), r.op = 1 → (x.staging.isSome = true ∨ seen = some none) → entryFits r.entry →
        bucketHeld s x.desc b → slotsSeen s x.desc b = some es → emptySlot es = some n →
        ∃ t, exec .tableInsert s = .next t ∧ t = { s with
            canopy := t.canopy, dsm := t.dsm, nlus := t.nlus, overhang := t.overhang
            host := { t.host with sem := s.host.sem }, tbl := t.tbl, pwr := t.pwr, regs := t.regs
            counters := t.counters, fresh := t.fresh } ∧ slotBecomes x.desc b n r.entry s t ∧
          t.tbl.inserts = rest ∧ t.tbl.chains = s.tbl.chains ∧ counted (cntTable tb.val 0) 1 s t ∧
          (x.staging = none → ended stOk t) ∧
          (x.staging ≠ none → (getTbl t tb.val).map (·.pending) = some true ∧ key ∈ ((getTbl t tb.val).map (·.changed)).getD [])) ∧
      (r.op ≠ 1 → seen = some none → ∃ t, exec .tableInsert s = .next t ∧ t = { s with
          canopy := t.canopy, dsm := t.dsm, nlus := t.nlus, overhang := t.overhang
          host := { t.host with sem := s.host.sem }, tbl := t.tbl, pwr := t.pwr, regs := t.regs
          counters := t.counters, fresh := t.fresh } ∧ t.tbl.inserts = rest ∧ ended stNotFound t) ∧
      (∀ f, r.op = 3 → seen = some (some f) → bucketHeld s x.desc f.bucket →
        ∃ t, exec .tableInsert s = .next t ∧ t = { s with
            canopy := t.canopy, dsm := t.dsm, nlus := t.nlus, overhang := t.overhang
            host := { t.host with sem := s.host.sem }, tbl := t.tbl, pwr := t.pwr, regs := t.regs
            counters := t.counters, fresh := t.fresh } ∧ t.tbl.inserts = rest ∧ ended stOk t ∧
          slotBecomes x.desc f.bucket f.slot Entry.empty s t)) ∧
    (takeFirst (fun r => mayRun r s) s.tbl.inserts = none → exec .tableInsert s = .next s) ∧
    (∀ (i : Nat) (c : Chain) (m : Move) (from_ to_ : List Entry),
      s.tbl.chains[i]? = some c → c.req.table = tb → c.moves = [m] →
      (movesHeld s x = true → exec (.entryMove i) s = .next s) ∧
      (movesHeld s x = false → m.fromB ≠ m.toB →
        bucketHeld s x.desc m.fromB → bucketHeld s x.desc m.toB → slotsSeen s x.desc m.fromB = some from_ →
        slotsSeen s x.desc m.toB = some to_ → entryFits c.req.entry →
        ∃ t, exec (.entryMove i) s = .next t ∧ t = { s with
            canopy := t.canopy, dsm := t.dsm, nlus := t.nlus, overhang := t.overhang
            host := { t.host with sem := s.host.sem }, tbl := t.tbl, pwr := t.pwr, regs := t.regs
            counters := t.counters, fresh := t.fresh } ∧
          slotBecomes x.desc m.toB m.toS (from_.getD m.fromS Entry.empty) s t ∧ slotBecomes x.desc m.fromB m.fromS c.req.entry s t ∧
          (getTbl t tb.val).map (·.epoch) = some (x.epoch + 1) ∧ t.tbl.chains = s.tbl.chains.eraseIdx i ∧
          (∀ u < 64, nluServing s u = true → mapGetD 0 tb.val (getNlu t u).epochs = x.epoch + 1) ∧
          counted (cntTable tb.val 2) 1 s t ∧ counted (cntTable tb.val 0) 1 s t)) ∧
    (∀ (ch : Change) (rest : List Change), x.pending = false → x.retiring = false → x.staging = none → x.queue = ch :: rest →
      let y : Tbl := { x with queue := rest, staging := some ch, changed := [] }
      ((movesHeld s x = true ∨ batchAhead s tb.val ch = true) → exec (.batchStage tb) s = .next s) ∧
      (movesHeld s x = false → batchAhead s tb.val ch = false →
        (∀ d, ch.who = .desc d → ch.expect ≠ 0xFFFFFFFF → ch.expect ≠ x.gen →
          ∃ u t, exec (.batchStage tb) s = .next t ∧ t = completeBare d stStale u ∧ u = { s with tbl := u.tbl } ∧
            getTbl t tb.val = some { y with staging := none } ∧ t.dsm = s.dsm) ∧
        (∀ d, ch.who = .desc d → (ch.expect = 0xFFFFFFFF ∨ ch.expect = x.gen) → ch.recs = [] →
          ∃ t, exec (.batchStage tb) s = .next t ∧ t = { s with tbl := t.tbl } ∧
            getTbl t tb.val = some { y with pending := true, stagedAt := now s }) ∧
        (∀ d rec, ch.who = .desc d → (ch.expect = 0xFFFFFFFF ∨ ch.expect = x.gen) → ch.recs = [rec] →
          (rec.reserved = true ∨ rec.op = 0 ∨ 4 < rec.op.toNat) →
          ∃ u t, exec (.batchStage tb) s = .next t ∧ t = complete d stFormat 0 u ∧ u = { s with tbl := u.tbl } ∧
            getTbl t tb.val = some { y with staging := none } ∧ t.dsm = s.dsm) ∧
        (∀ p n r f, ch.who = .cmd p 3 n → ch.recs = [r] → foundSeen s x.desc (fun e => eVis e == 2) r.key.toNat = some none →
          foundSeen s x.desc (fun e => eVis e == 1) r.key.toNat = some (some f) → bucketHeld s x.desc f.bucket →
          ∃ t, exec (.batchStage tb) s = .next t ∧ t = { s with
              canopy := t.canopy, dsm := t.dsm, nlus := t.nlus, overhang := t.overhang
              host := { t.host with sem := s.host.sem }, tbl := t.tbl, pwr := t.pwr, regs := t.regs
              counters := t.counters, fresh := t.fresh } ∧
            slotBecomes x.desc f.bucket f.slot (withVis f.entry 3) s t ∧
            ∃ z, getTbl t tb.val = some z ∧
              z = { y with pending := true, stagedAt := now s, changed := [r.key.toNat], refs := z.refs, occupied := z.occupied }))) ∧
    (∀ ch : Change, x.staging = some ch → (∀ p o n, ch.who ≠ .cmd p o n) → x.pending = true → ch.due ≤ now s → x.stagedAt < now s →
      ∃ u t, exec (.lateCommit tb) s = .next t ∧ t = changeEnd tb.val ch.who stOk ((x.gen + 1) % 2 ^ 32) u ∧
        u = { s with tbl := u.tbl, counters := u.counters } ∧ t.tbl = u.tbl ∧
        getTbl t tb.val = some { x with gen := (x.gen + 1) % 2 ^ 32, pending := false, commitGt := now s, retiring := true,
                                        revisited := false, staging := none } ∧
        (∀ j, j ≠ tb.val → getTbl t j = getTbl s j) ∧ cntsKeep [cntTable tb.val 5] s u ∧
        countedEach (cntTable tb.val 5) (b2n (decide (ch.due ≠ 0 ∧ ch.due < x.stagedAt))) s u) ∧
    (∀ (key : Nat) (f : Found), x.retiring = true → x.revisited = false → reamsDone s tb.val x.commitGt = true → x.changed = [key] →
      bucketHeld s x.desc f.bucket →
      (foundSeen s x.desc (fun e => eVis e == 3) key = some (some f) → foundSeen s x.desc (fun e => eVis e == 2) key = some none →
        ∃ t, exec (.retirementStart tb) s = .next t ∧ t = { s with
            canopy := t.canopy, dsm := t.dsm, nlus := t.nlus, overhang := t.overhang, tbl := t.tbl, pwr := t.pwr
            regs := t.regs, counters := t.counters, fresh := t.fresh } ∧ slotBecomes x.desc f.bucket f.slot Entry.empty s t ∧
          counted (cntTable tb.val 1) 1 s t ∧ (getTbl t tb.val).map (·.revisited) = some true) ∧
      (foundSeen s x.desc (fun e => eVis e == 3) key = some none → foundSeen s x.desc (fun e => eVis e == 2) key = some (some f) →
        ∃ t, exec (.retirementStart tb) s = .next t ∧ t = { s with
            canopy := t.canopy, dsm := t.dsm, nlus := t.nlus, overhang := t.overhang, tbl := t.tbl, pwr := t.pwr
            regs := t.regs, counters := t.counters, fresh := t.fresh } ∧ slotBecomes x.desc f.bucket f.slot (withVis f.entry 1) s t ∧
          (getTbl t tb.val).map (·.revisited) = some true)) ∧
    (x.retiring = true → x.revisited = true →
      ∃ t, exec (.retirementEnd tb) s = .next t ∧ t = { s with tbl := { s.tbl with tables := t.tbl.tables } } ∧
        getTbl t tb.val = some { x with retiring := false, revisited := false, changed := [] } ∧
        ∀ j, j ≠ tb.val → getTbl t j = getTbl s j) ∧
    (∀ (list : Bytes) (rows : List Bytes) (d : Desc) (rest : List Desc),
      let n := dNum d 20 4
      let onDevice := bit (dNum d 17 1) 0
      takeFirst (fun d => dOp d == 4 && (bit (dNum d 17 1) 0 || 32 * dNum d 20 4 == list.length)) s.host.inbox = some (d, rest) →
      dNum d 16 1 = tb.val →
      let u : State := { s with host := { s.host with inbox := rest } }
      -- the records that the list's bytes spell
      let spelt (bs : Bytes) (recs : List BatchRec) : Prop := recs.length = n ∧ ∀ k r, recs[k]? = some r →
        let f (o w : Nat) : Nat := leNat ((bs.drop (32 * k + o)).take w)
        r.op = BitVec.ofNat 4 (f 0 4) ∧ r.static = bit (f 0 4) 4 ∧ r.row = BitVec.ofNat 32 (f 4 4) ∧ r.key = BitVec.ofNat 64 (f 8 8) ∧
          r.reserved = (decide (32 ≤ f 0 4) || f 24 8 != 0 || (r.op == 4 && decide (2 ^ 52 ≤ f 16 8)))
      let queued (bs : Bytes) (t : State) : Prop := t.host.inbox = rest ∧ (∀ j, j ≠ tb.val → getTbl t j = getTbl s j) ∧
        ∃ recs, spelt bs recs ∧ getTbl t tb.val = some { x with
          queue := x.queue.filter (fun c => decide (changeSeq c ≤ d.seq)) ++
            [{ who := .desc d, recs := recs, expect := dNum d 32 4, due := d.due }] ++ x.queue.filter (fun c => decide (d.seq < changeSeq c)) }
      (x.desc.kind = 1 → ∃ t, exec (.tableBatch ⟨list, rows⟩) s = .next t ∧ t = complete d stFormat 16 u) ∧
      (x.desc.kind ≠ 1 → s.grp.role = 2 → s.grp.copied.contains tb.val = true →
        ∃ t, exec (.tableBatch ⟨list, rows⟩) s = .next t ∧ t = completeBare d stStale u) ∧
      (x.desc.kind ≠ 1 → ¬(s.grp.role = 2 ∧ s.grp.copied.contains tb.val = true) →
        (onDevice = false → ∃ t, exec (.tableBatch ⟨list, rows⟩) s = .next t ∧ t = { s with
            canopy := t.canopy, dsm := t.dsm, nlus := t.nlus, overhang := t.overhang
            host := { t.host with sem := s.host.sem }, tbl := t.tbl, net := t.net, grp := t.grp, pwr := t.pwr
            regs := t.regs, counters := t.counters, fresh := t.fresh } ∧
          (s.grp.role ≠ 1 → t = { u with tbl := t.tbl }) ∧ queued list t) ∧
        (onDevice = true → scratchRange s (dNum d 24 8) (32 * n) = false →
          ∃ t, exec (.tableBatch ⟨list, rows⟩) s = .next t ∧ t = complete d stFormat 24 u) ∧
        (onDevice = true → scratchRange s (dNum d 24 8) (32 * n) = true → ∀ bs p, bytesSeen s (dNum d 24 8) (32 * n) = some (bs, p) →
          ∃ t, exec (.tableBatch ⟨list, rows⟩) s = .next t ∧ t = { s with
              canopy := t.canopy, dsm := t.dsm, nlus := t.nlus, overhang := t.overhang
              host := { t.host with sem := s.host.sem }, tbl := t.tbl, net := t.net, grp := t.grp, pwr := t.pwr
              regs := t.regs, counters := t.counters, fresh := t.fresh } ∧
            (p = true → ∃ v, t = completeBare d stPoison v ∧ v.tbl = s.tbl ∧ v.host = u.host) ∧ (p = false → queued bs t))))

/-- TBL_READ, TBL_INSERT, TBL_UPDATE, TBL_DELETE and TBL_MOVE by TBL_CMD: what ends at once with its STATUS, what waits
for the writer, and the entry read, replaced, deleted or moved; a read and an update are hits (R227, R230, R232, R245,
R246). The model's choices in log 86 bear on it. -/
def Obligations.TableCommands : Prop :=
  ∀ (p : HPort) (tb : TableId) (s : State), barUp s = true → tblBusy s p = false →
    let i := portIx p
    let key := tblKey s p
    let word (op : Nat) (busy : Bool) (t : State) : Prop :=
      let w := regW t tblCmdOff i
      bits w 3 0 = op ∧ bits w 11 4 = tb.val ∧ bit w 13 = busy ∧ regsKeep [regKey tblCmdOff i, regKey (tblCmdOff + 0x10) i,
        regKey (tblCmdOff + 0x14) i, regKey (tblCmdOff + 0x18) i] s t
    let ends (op status : Nat) (t : State) : Prop := word op false t ∧ bits (regW t tblCmdOff i) 23 16 = status
    let cmds : List (Nat × Instr) := [(0, .tblRead p tb), (1, .tblInsert p tb), (2, .tblUpdate p tb), (3, .tblDelete p tb), (4, .tblMove p tb)]
    let waits (c : Nat × Instr) : Prop := ∃ t, exec c.2 s = .next t ∧ word c.1 true t ∧ t = { s with
      regs := t.regs, tbl := { s.tbl with inserts := s.tbl.inserts ++ [tblReq p tb c.1 s], ords := s.tbl.ords + 1 } }
    let free (op : Nat) : Prop := mayRun (tblReq p tb op s) s = true
    (getTbl s tb.val = none → ∀ c ∈ cmds, ∃ t, exec c.2 s = .next t ∧ t = { s with regs := t.regs } ∧ ends c.1 stNotFound t) ∧
    (∀ (x : Tbl), getTbl s tb.val = some x →
      (x.desc.kind = 0 → ∀ c ∈ cmds, 1 ≤ c.1 → c.1 ≤ 3 →
        ∃ t, exec c.2 s = .next t ∧ word c.1 true t ∧ (∀ j, j ≠ tb.val → getTbl t j = getTbl s j) ∧
          t = { s with regs := t.regs, tbl := { s.tbl with tables := t.tbl.tables }, host := { s.host with accepted := s.host.accepted + 1 } } ∧
          ∃ r n, getTbl t tb.val = some { x with queue := x.queue.filter (fun ch => decide (changeSeq ch ≤ n)) ++
              [{ who := .cmd p c.1 n, recs := [r], expect := 0xFFFFFFFF, due := 0 }] ++ x.queue.filter (fun ch => decide (n < changeSeq ch)) } ∧
            r.op.toNat = c.1 ∧ r.key = BitVec.ofNat 64 key ∧ r.row = BitVec.ofNat 32 (tblRow s p) ∧ r.static = tblStatic s p) ∧
      (x.desc.kind ≠ 0 → (tblRow s p < hwRecords s ∨ x.desc.rowLimit ≤ tblRow s p) →
        ∃ t, exec (.tblInsert p tb) s = .next t ∧ t = { s with regs := t.regs } ∧ ends 1 stFormat t) ∧
      (x.desc.kind ≠ 0 → x.desc.rowLimit ≤ tblRow s p →
        ∃ t, exec (.tblUpdate p tb) s = .next t ∧ t = { s with regs := t.regs } ∧ ends 2 stFormat t) ∧
      -- a change that a chain, an earlier change or a hold keeps back waits for the writer
      (¬free 4 → waits (4, .tblMove p tb)) ∧
      (x.desc.kind ≠ 0 → ¬free 3 → waits (3, .tblDelete p tb)) ∧
      (x.desc.kind ≠ 0 → ¬free 2 → tblRow s p < x.desc.rowLimit → waits (2, .tblUpdate p tb)) ∧
      (x.desc.kind ≠ 0 → ¬free 1 → hwRecords s ≤ tblRow s p → tblRow s p < x.desc.rowLimit → waits (1, .tblInsert p tb)) ∧
      (foundSeen s x.desc (visibleIn x (now s)) key = some none →
        (∃ t, exec (.tblRead p tb) s = .next t ∧ t = { s with
            canopy := t.canopy, dsm := t.dsm, nlus := t.nlus, overhang := t.overhang, tbl := t.tbl, pwr := t.pwr
            regs := t.regs, counters := t.counters, fresh := t.fresh } ∧ t.tbl = s.tbl ∧ ends 0 stNotFound t) ∧
        (free 4 → ∃ t, exec (.tblMove p tb) s = .next t ∧ t = { s with
            canopy := t.canopy, dsm := t.dsm, nlus := t.nlus, overhang := t.overhang
            host := { t.host with sem := s.host.sem }, tbl := t.tbl, pwr := t.pwr, regs := t.regs
            counters := t.counters, fresh := t.fresh } ∧ t.tbl = s.tbl ∧ ends 4 stNotFound t) ∧
        (x.desc.kind ≠ 0 →
          (free 3 → ∃ t, exec (.tblDelete p tb) s = .next t ∧ t = { s with
              canopy := t.canopy, dsm := t.dsm, nlus := t.nlus, overhang := t.overhang
              host := { t.host with sem := s.host.sem }, tbl := t.tbl, pwr := t.pwr, regs := t.regs
              counters := t.counters, fresh := t.fresh } ∧ t.tbl = s.tbl ∧ ends 3 stNotFound t) ∧
          (free 2 → tblRow s p < x.desc.rowLimit →
            ∃ t, exec (.tblUpdate p tb) s = .next t ∧ t = { s with
                canopy := t.canopy, dsm := t.dsm, nlus := t.nlus, overhang := t.overhang
                host := { t.host with sem := s.host.sem }, tbl := t.tbl, pwr := t.pwr, regs := t.regs
                counters := t.counters, fresh := t.fresh } ∧ t.tbl = s.tbl ∧ ends 2 stNotFound t) ∧
          (hwRecords s ≤ tblRow s p → tblRow s p < x.desc.rowLimit → waits (1, .tblInsert p tb)))) ∧
      (∀ f, foundSeen s x.desc (visibleIn x (now s)) key = some (some f) →
        (∀ n < 2, (slotsSeen s x.desc (bucketN x.desc n key)).isSome = true) →
        let settled : Prop := bucketHeld s x.desc f.bucket ∧ x.visited.contains f.bucket = false
        let slotIs (b sl : Nat) (e : Entry) (t : State) : Prop := (slotsSeen t x.desc b).map (·.getD sl Entry.empty) = some e
        (∃ t, exec (.tblRead p tb) s = .next t ∧ t = { s with
            canopy := t.canopy, dsm := t.dsm, nlus := t.nlus, overhang := t.overhang, tbl := t.tbl, pwr := t.pwr
            regs := t.regs, counters := t.counters, fresh := t.fresh } ∧ (∀ j, j ≠ tb.val → getTbl t j = getTbl s j) ∧ ends 0 stOk t ∧
          regW t (tblCmdOff + 0x10) i = f.entry.row ∧ bits (regW t (tblCmdOff + 0x14) i) 15 8 = f.entry.flags ∧
          bits (regW t (tblCmdOff + 0x14) i) 25 24 = f.slot ∧ bits (regW t (tblCmdOff + 0x14) i) 26 26 = f.n ∧
          (settled → slotIs f.bucket f.slot (withHit f.entry) t)) ∧
        (settled → x.desc.kind ≠ 0 → tblRow s p < 2 ^ 32 →
          let e : Entry := withHit { f.entry with row := tblRow s p, flags := setBits f.entry.flags 5 5 (b2n (tblStatic s p)) }
          (tblRow s p < x.desc.rowLimit →
            (free 2 → ∃ t, exec (.tblUpdate p tb) s = .next t ∧ t = { s with
                canopy := t.canopy, dsm := t.dsm, nlus := t.nlus, overhang := t.overhang
                host := { t.host with sem := s.host.sem }, tbl := t.tbl, pwr := t.pwr, regs := t.regs
                counters := t.counters, fresh := t.fresh } ∧ ends 2 stOk t ∧ slotIs f.bucket f.slot e t) ∧
            (free 1 → hwRecords s ≤ tblRow s p →
              ∃ t, exec (.tblInsert p tb) s = .next t ∧ t = { s with
                  canopy := t.canopy, dsm := t.dsm, nlus := t.nlus, overhang := t.overhang
                  host := { t.host with sem := s.host.sem }, tbl := t.tbl, pwr := t.pwr, regs := t.regs
                  counters := t.counters, fresh := t.fresh } ∧ ends 1 stOk t ∧ slotIs f.bucket f.slot e t ∧
                bit (regW t tblCmdOff i) 14 = true)) ∧
          (free 3 → ∃ t, exec (.tblDelete p tb) s = .next t ∧ t = { s with
              canopy := t.canopy, dsm := t.dsm, nlus := t.nlus, overhang := t.overhang
              host := { t.host with sem := s.host.sem }, tbl := t.tbl, pwr := t.pwr, regs := t.regs
              counters := t.counters, fresh := t.fresh } ∧ ends 3 stOk t ∧ counted (cntTable tb.val 1) 1 s t ∧
            slotBecomes x.desc f.bucket f.slot Entry.empty s t)) ∧
        (let w := regW s (tblCmdOff + 0x14) i
         let b := bucketN x.desc (bits w 18 18) key
         let sl := bits w 17 16
         free 4 → ∀ es, slotsSeen s x.desc b = some es →
          (eEmpty (es.getD sl Entry.empty) = false → ∃ t, exec (.tblMove p tb) s = .next t ∧ t = { s with
              canopy := t.canopy, dsm := t.dsm, nlus := t.nlus, overhang := t.overhang
              host := { t.host with sem := s.host.sem }, tbl := t.tbl, pwr := t.pwr, regs := t.regs
              counters := t.counters, fresh := t.fresh } ∧ ends 4 stNoRoom t ∧
            t.tbl = s.tbl) ∧
          (eEmpty (es.getD sl Entry.empty) = true → bucketHeld s x.desc b → bucketHeld s x.desc f.bucket →
            ∃ t, exec (.tblMove p tb) s = .next t ∧ t = { s with
                canopy := t.canopy, dsm := t.dsm, nlus := t.nlus, overhang := t.overhang
                host := { t.host with sem := s.host.sem }, tbl := t.tbl, pwr := t.pwr, regs := t.regs
                counters := t.counters, fresh := t.fresh } ∧ ends 4 stOk t ∧ slotIs b sl f.entry t ∧
              slotIs f.bucket f.slot Entry.empty t ∧ (getTbl t tb.val).map (·.epoch) = some (x.epoch + 1)))))

/-- FWD_READ, FWD_INSERT, FWD_UPDATE, FWD_DELETE, FWD_MOVE, LEARN_HOLD_EXPIRE and AGING_VISIT on a forwarding table
(R227, R246, R247, R248, R251, R253, R255, R256). A command whose event is not due, or whose condition is absent,
leaves the state (DESIGN CHOICE, log 2). The model's choices in log 86 bear on it. -/
def Obligations.ForwardingTables : Prop :=
  ∀ (p : HPort) (d : NDie) (s : State), barUp s = true →
    let i := portIx p
    let key := fwdRegKey s p d
    let flags := fwdRegFlags s p d
    let nets (t : State) : Prop := ∀ e, e ≠ d → getNet t e = getNet s e
    let ends (op status : Nat) (existed : Bool) (t : State) : Prop :=
      regW t (fwdCmdOff d) i = op + 2 ^ 14 * b2n existed + 2 ^ 16 * status ∧
      regsKeep [regKey (fwdCmdOff d) i, regKey (fwdCmdOff d + 0x10) i, regKey (fwdCmdOff d + 0x14) i] s t
    let slotIs (b sl : Nat) (e : Entry) (t : State) : Prop := fwdBucket d b t = listSet (fwdBucket d b s) sl e
    let cmds : List (Nat × Instr) := [(0, .fwdRead p d), (1, .fwdInsert p d), (2, .fwdUpdate p d), (3, .fwdDelete p d), (4, .fwdMove p d)]
    ((key / 2 ^ 60 ≠ 0 ∨ fwdRegRow s p d / 64 ≠ 0) →
      ∀ c ∈ cmds, ∃ t, exec c.2 s = .next t ∧ t = { s with regs := t.regs } ∧ ends c.1 stFormat false t) ∧
    (key / 2 ^ 60 = 0 → fwdRegRow s p d / 64 = 0 →
      (fwdFind s d key = none →
        (∀ c ∈ cmds, c.1 ≠ 1 → ∃ t, exec c.2 s = .next t ∧ t = { s with regs := t.regs } ∧ ends c.1 stNotFound false t) ∧
        (∀ n, emptySlot (fwdBucket d (fwdHash 0 key) s) = some n →
          ∃ t, exec (.fwdInsert p d) s = .next t ∧ t = { s with regs := t.regs, tbl := t.tbl } ∧ nets t ∧ ends 1 stOk false t ∧
            slotIs (fwdHash 0 key) n { key := key, row := fwdRegRow s p d, flags := mkFlags 0 false false (bit flags 0) 1 } t ∧
            (fwdFind t d key).map (fun f => f.2.2.2.row) = some (fwdRegRow s p d))) ∧
      (∀ n b sl e, fwdFind s d key = some (n, b, sl, e) →
        let hit (e : Entry) : Entry := hitEntry ((getNet s d).visited.contains b) e
        let new : Entry := hit { e with row := fwdRegRow s p d, flags := setBits (setBits e.flags 5 5 (b2n (bit flags 0))) 3 3 0 }
        (∃ t, exec (.fwdRead p d) s = .next t ∧ t = { s with regs := t.regs, tbl := t.tbl } ∧ nets t ∧ slotIs b sl (hit e) t ∧ ends 0 stOk false t ∧
          regW t (fwdCmdOff d + 0x10) i = e.row ∧ bits (regW t (fwdCmdOff d + 0x14) i) 15 8 = e.flags ∧
          bits (regW t (fwdCmdOff d + 0x14) i) 25 24 = sl ∧ bits (regW t (fwdCmdOff d + 0x14) i) 26 26 = n) ∧
        (∃ t, exec (.fwdInsert p d) s = .next t ∧ t = { s with regs := t.regs, tbl := t.tbl } ∧ nets t ∧ ends 1 stOk true t ∧ slotIs b sl new t) ∧
        (∃ t, exec (.fwdUpdate p d) s = .next t ∧ t = { s with regs := t.regs, tbl := t.tbl } ∧ nets t ∧ ends 2 stOk false t ∧ slotIs b sl new t) ∧
        (∃ t, exec (.fwdDelete p d) s = .next t ∧ t = { s with regs := t.regs, tbl := t.tbl } ∧ nets t ∧ ends 3 stOk false t ∧
          slotIs b sl Entry.empty t) ∧
        (let b' := fwdHash (bits flags 18 18) key
         let sl' := bits flags 17 16
         (eEmpty ((fwdBucket d b' s).getD sl' Entry.empty) = false →
            ∃ t, exec (.fwdMove p d) s = .next t ∧ t = { s with regs := t.regs } ∧ ends 4 stNoRoom false t) ∧
         (eEmpty ((fwdBucket d b' s).getD sl' Entry.empty) = true →
            ∃ t, exec (.fwdMove p d) s = .next t ∧ t = { s with regs := t.regs, tbl := t.tbl } ∧ nets t ∧ ends 4 stOk false t ∧
              (fwdBucket d b' t).getD sl' Entry.empty = e ∧ (fwdBucket d b t).getD sl Entry.empty = Entry.empty)))) ∧
    (∀ (k : W64) (h : Held), mapGet k.toNat (getNet s d).hold = some h → h.until_ ≤ now s →
      ∃ t, exec (.learnHoldExpire d k) s = .next t ∧ t = { s with tbl := t.tbl } ∧ nets t ∧
        getNet t d = { getNet s d with hold := mapDel k.toNat (getNet s d).hold }) ∧
    (∀ b < 65536,
      let w := regW s (dieOff d 0x880044) 0
      let visit := if bit w 16 then visitNow s (getNet s d).swept (10 * bits w 15 0) 65536 b else none
      (visit = none → exec (.agingVisit (.fwd d) b) s = .next s) ∧
      (∀ due, visit = some due →
        ∃ t, exec (.agingVisit (.fwd d) b) s = .next t ∧ t = { s with tbl := t.tbl } ∧ nets t ∧
          getNet t d = { getNet s d with fwd := (getNet t d).fwd, swept := due + 1, visited := (getNet s d).visited ++ [b] } ∧
          (∀ b', b' ≠ b → fwdBucket d b' t = fwdBucket d b' s) ∧ fwdBucket d b t = (fwdBucket d b s).map ageSlot))

/-- PFX_WRITE, PFX_READ, RULE_WRITE, RULE_READ and QUAD_MODE_WRITE (R258, R259, R262, R280, R281). -/
def Obligations.ClassifierRegisters : Prop :=
  ∀ (p : HPort) (d : NDie) (s : State), barUp s = true →
    let i := portIx p
    let nets (t : State) : Prop := (∀ e, e ≠ d → getNet t e = getNet s e) ∧ getNet t d = { getNet s d with pfx := (getNet t d).pfx }
    (∀ cmd : W32,
      let ix := bits cmd.toNat 15 0
      let e := pfxStaged s p d (bit cmd.toNat 16)
      let go := bit cmd.toNat 17 = true
      (¬go → bit cmd.toNat 18 = false → ∃ t, exec (.pfxWrite p d cmd) s = .next t ∧ t = { s with regs := t.regs } ∧
        regsKeep [regKey (pfxOff d 0x18) i] s t ∧ regF t (pfxOff d 0x18) i 16 0 = bits cmd.toNat 16 0 ∧
        regF t (pfxOff d 0x18) i 31 24 = regF s (pfxOff d 0x18) i 31 24) ∧
      (go → pfxOk e = false → ∃ t, exec (.pfxWrite p d cmd) s = .next t ∧ t = { s with regs := t.regs } ∧
        regsKeep [regKey (pfxOff d 0x18) i] s t ∧ regF t (pfxOff d 0x18) i 31 24 = stFormat) ∧
      (go → pfxOk e = true → ∃ t, exec (.pfxWrite p d cmd) s = .next t ∧ t = { s with regs := t.regs, tbl := t.tbl } ∧
        regsKeep [regKey (pfxOff d 0x18) i] s t ∧ regF t (pfxOff d 0x18) i 31 24 = stOk ∧ nets t ∧
        mapGetD Pfx.empty ix (getNet t d).pfx = e ∧
        ∀ j, j ≠ ix → mapGetD Pfx.empty j (getNet t d).pfx = mapGetD Pfx.empty j (getNet s d).pfx) ∧
      (bit cmd.toNat 18 = true → ∃ t, exec (.pfxRead p d cmd) s = .next t ∧ t = { s with regs := t.regs } ∧
        let e := mapGetD Pfx.empty ix (getNet s d).pfx
        (∀ n < 4, regW t (pfxOff d (4 * n)) i = bits e.addr.toNat (32 * n + 31) (32 * n)) ∧
        regW t (pfxOff d 0x10) i = (e.len + 256 * e.vrf + 2 ^ 20 * b2n e.v6 + 2 ^ 21 * b2n e.vrfAny) % 2 ^ 32 ∧
        regW t (pfxOff d 0x14) i = e.result.toNat ∧ regW t (pfxOff d 0x18) i = ix + 65536 * b2n e.valid)) ∧
    (∀ cmd : W32,
      let ix := bits cmd.toNat 13 0
      let key := stagedWide s p (clsOff d 0) 23
      let mask := stagedWide s p (clsOff d 0x60) 23
      let act := regQ s (clsOff d 0xC0) i
      let ended (op status : Nat) (t : State) : Prop := regW t (clsOff d 0xD0) i = op + status * 2 ^ 24
      (bit cmd.toNat 15 = false → bit cmd.toNat 16 = false →
        ∃ t, exec (.ruleWrite p d cmd) s = .next t ∧ t = { s with regs := t.regs } ∧ regsKeep [regKey (clsOff d 0xD0) i] s t ∧
          regF t (clsOff d 0xD0) i 14 0 = bits cmd.toNat 14 0) ∧
      (bit cmd.toNat 15 = true → ((key &&& mask) ≠ key ∨ actListed act = false) →
        ∃ t, exec (.ruleWrite p d cmd) s = .next t ∧ t = { s with regs := t.regs } ∧ regsKeep [regKey (clsOff d 0xD0) i] s t ∧
          ended (bits cmd.toNat 14 0) stFormat t) ∧
      (bit cmd.toNat 15 = true → (key &&& mask) = key → actListed act = true →
        ∃ t, exec (.ruleWrite p d cmd) s = .next t ∧ t = { s with regs := t.regs, net := { s.net with rules := t.net.rules } } ∧
          regsKeep [regKey (clsOff d 0xD0) i] s t ∧ ended (bits cmd.toNat 14 0) stOk t ∧
          getRule t d ix = { key := key, mask := mask, act := act, valid := bit cmd.toNat 14, hits := 0 } ∧
          ∀ (e : NDie), ∀ j < 16384, (e ≠ d ∨ j ≠ ix) → getRule t e j = getRule s e j) ∧
      (bit cmd.toNat 16 = true →
        let r := getRule s d ix
        ∃ t, exec (.ruleRead p d cmd) s = .next t ∧ t = { s with regs := t.regs } ∧
          (∀ w < 23, regW t (clsOff d (4 * w)) i = r.key / 2 ^ (32 * w) % 2 ^ 32 ∧
            regW t (clsOff d (0x60 + 4 * w)) i = r.mask / 2 ^ (32 * w) % 2 ^ 32) ∧
          regQ t (clsOff d 0xC0) i = r.act % 2 ^ 64 ∧ regQ t (clsOff d 0xC8) i = r.hits % 2 ^ 64 ∧
          ended (ix + b2n r.valid * 2 ^ 14) stOk t)) ∧
    (∀ value : W32, holdsSem s p = true →
      let mode (q : Nat) : Nat := if 4 < bits value.toNat (3 * q + 2) (3 * q) then quadMode s d q else bits value.toNat (3 * q + 2) (3 * q)
      (((mode 0 = 4) ≠ (mode 1 = 4)) → ∃ t, exec (.quadModeWrite p d value) s = .next t ∧ t = s) ∧
      (((mode 0 = 4) = (mode 1 = 4)) → ∃ t, exec (.quadModeWrite p d value) s = .next t ∧ t = { s with
          slots := t.slots, host := { t.host with sem := s.host.sem }, reams := t.reams, net := t.net, rqt := t.rqt
          adm := t.adm, grp := t.grp, regs := t.regs, counters := t.counters } ∧
        regsKeep [regKey (dieOff d 0x800000) 0] s t ∧
        ∀ q < 2, quadMode t d q = mode q ∧ ∀ l, 8 * dieIx d + 4 * q ≤ l → l < 8 * dieIx d + 4 * q + 4 →
          (mode q = quadMode s d q → getLane t l = getLane s l ∧ (getEPort t l).st = (getEPort s l).st) ∧
          (mode q ≠ quadMode s d q → (getLane t l).st = (if (getLane s l).st = 3 then 3 else 1) ∧
            (getLane t l).lost = (getLane s l).dark ∧ (getEPort t l).st = 1)))

/-! ### Ports, egress and requests -/

/-- PORT_UP, LANE_LOST, PORT_REWIDTH, LANE_REJOIN and LASER_LOW_LIGHT (R260, R263, R420, R476). The model's choices in
log 91 bear on it. -/
def Obligations.LaneCommands : Prop :=
  ∀ (l : LaneId) (s : State),
    let g := (portOfLane s l.val).1
    let x := getLane s l.val
    let lanes (ls : List Nat) (t : State) : Prop := ∀ j, j ∉ ls → getLane t j = getLane s j
    (let ls := (portLanes s l.val).filter (fun j => !(getLane s j).lost && (getLane s j).st != 3)
     s.boot.fwUp = true → isPort s l.val = true → (getEPort s l.val).st ≠ 2 → ls ≠ [] →
      (portNative s l.val = true ∨ ls.length = (portLanes s l.val).length) →
      ∃ t, exec (.portUp l) s = .next t ∧ t = { s with net := { s.net with lanes := t.net.lanes, ports := t.net.ports } } ∧ lanes ls t ∧
        (∀ j ∈ ls, getLane t j = { getLane s j with st := 2 }) ∧ getEPort t l.val = { getEPort s l.val with st := 2 } ∧
        ∀ j, j ≠ l.val → getEPort t j = getEPort s j) ∧
    (x.lost = false →
      let left := (portLanes s g).any (fun j => j != l.val && (getLane s j).st == 2)
      ∃ t, exec (.laneLost l) s = .next t ∧ t = { s with
          canopy := t.canopy, slots := t.slots, reams := t.reams, net := t.net, rqt := t.rqt, adm := t.adm
          grp := t.grp, counters := t.counters, fresh := t.fresh } ∧ lanes [l.val] t ∧
        getLane t l.val = { x with st := 1, lost := true, dark := false } ∧
        (∃ r ∈ t.canopy.transit, r.2.code = 0x40 ∧ r.2.suspect = unitCode 8 l.val) ∧
        ((getEPort s g).st ≠ 2 → t.net.ports = s.net.ports) ∧
        ((getEPort s g).st = 2 → portNative s g = true → left = true → getEPort t g = { getEPort s g with pause := true }) ∧
        ((getEPort s g).st = 2 → (portNative s g = false ∨ left = false) →
          (getEPort t g).st = 0 ∧ (getEPort t g).queues = [] ∧ (getEPort t g).sending = none ∧
          ∃ r ∈ t.canopy.transit, r.2.code = 0x41 ∧ r.2.suspect = unitCode 9 g)) ∧
    (∃ t, exec (.portRewidth l) s = .next t ∧ t = { s with net := { s.net with ports := t.net.ports } } ∧
      getEPort t l.val = { getEPort s l.val with pause := false } ∧ ∀ j, j ≠ l.val → getEPort t j = getEPort s j) ∧
    (x.lost = true → x.dark = false →
      ∃ t, exec (.laneRejoin l) s = .next t ∧ t = { s with net := { s.net with lanes := t.net.lanes, ports := t.net.ports } } ∧
        lanes [l.val] t ∧ getLane t l.val = { x with st := 2, lost := false, dark := false } ∧
        (∀ j, j ≠ g → getEPort t j = getEPort s j) ∧
        getEPort t g = (if (getEPort s g).st = 2 then { getEPort s g with pause := true }
          else if (portLanes s g).all (fun j => j == l.val || (getLane s j).st == 2) then { getEPort s g with st := 2 } else getEPort s g)) ∧
    (∀ power : BitVec 12,
      ((100 ≤ power.toNat ∨ x.st = 3) →
        ∃ t, exec (.laserLowLight l power) s = .next t ∧ t = { s with net := { s.net with lanes := t.net.lanes } } ∧ lanes [l.val] t ∧
          getLane t l.val = { x with power := power.toNat }) ∧
      (power.toNat < 100 → x.st ≠ 3 →
        ∃ t, exec (.laserLowLight l power) s = .next t ∧ t = { s with
            canopy := t.canopy, slots := t.slots, reams := t.reams, net := t.net, rqt := t.rqt, adm := t.adm
            grp := t.grp, regs := t.regs, counters := t.counters, fresh := t.fresh } ∧ lanes [l.val] t ∧
          bit (regW t (pp l.val (0x800400 + 4 * (l.val % 8))) 0) 13 = true ∧
          getLane t l.val = { x with power := power.toNat, dark := true, lost := true, st := if x.lost then x.st else 1 }))

/-- SHAPER_WHEEL_SLOT, EGRESS_SELECT, TRANSMIT_END, GATE_LIST_CHANGE, GATE_APPLY, SHAPER_CONFIG and METER_CONFIG (R298,
R299, R313, R314, R316 to R318, R322, R324); a heartbeat takes its T_TX as its transmission starts (R34; DEDUCED, log
103). The model's choices in logs 20 and 22 bear on it. -/
def Obligations.Egress : Prop :=
  ∀ (s : State),
    (∀ (d : NDie),
      let slot := nowNs s / 64
      let due := ((s.net.wheel.filter (fun w => w.1 ≤ slot && w.2 / 4096 == dieIx d)).take 64).map (·.2)
      mapGet (dieIx d) s.net.wheelAt ≠ some slot → due.Nodup →
      ∃ t, exec (.shaperWheelSlot d) s = .next t ∧
        t = { s with net := { s.net with shapers := t.net.shapers, wheel := t.net.wheel, wheelAt := t.net.wheelAt } } ∧
        mapGet (dieIx d) t.net.wheelAt = some slot ∧ (∀ k ∈ due, getShaper t k = (processShaper (getShaper s k) (nowNs s)).1) ∧
        (∀ k, k ∉ due → getShaper t k = getShaper s k) ∧
        (∀ k ∈ due, ∀ n, (processShaper (getShaper s k) (nowNs s)).2 = some n →
          (min (n / 64) (slot + 4095), k) ∈ t.net.wheel)) ∧
    (∀ (port : LaneId) (q : Nat) (it : QItem) (rest : List QItem),
      let g := port.val
      let prio (q : Nat) : Nat := bits (queueCfg s g q) 2 0
      let occ := nsT (occupancyNs (frameLen s it.frame) (portRate s g))
      portUp s g = true → (getEPort s g).pause = false → (getEPort s g).sending = none → (getEPort s g).endAt ≤ now s →
      gateEn s g = false → q < 16 → getQueue s g q = it :: rest →
      (itemShapers s g q it).all (fun k => (getShaper s k).eligible) = true →
      (∀ r < 16, r ≠ q → getQueue s g r = [] ∨ prio r < prio q) →
      1 ≤ bits (queueCfg s g q) 10 3 → frameLen s it.frame ≤ 16383 →
      ∃ t, exec (.egressSelect port) s = .next t ∧
        t = { s with
          time := t.time
          net := { s.net with ports := t.net.ports, shapers := t.net.shapers, wheel := t.net.wheel, frames := t.net.frames } } ∧
        (isPtp (parseFrame (frameBytes s it.frame) 0 0) = false → t.time = s.time) ∧ (∀ j, j ≠ it.frame → getFrame t j = getFrame s j) ∧
        ((getFrame s it.frame).bind (·.grp) = none → t.net.frames = s.net.frames) ∧
        (∀ f h t0 rp tp al re ho dr lo ha hb tg, getFrame s it.frame = some f →
          f.grp = some (h, .heartbeat t0 rp tp al re ho dr lo ha hb tg) → 58 ≤ f.bytes.length →
          ∃ f', getFrame t it.frame = some f' ∧ f'.grp = some (h, .heartbeat (BitVec.ofNat 64 (nowNs s)) rp tp al re ho dr lo ha hb tg) ∧
            leNat ((f'.bytes.drop 46).take 8) = nowNs s % 2 ^ 64) ∧
        (∀ j, j ≠ g → getEPort t j = getEPort s j) ∧ (getEPort t g).sending = some (it, q) ∧ (getEPort t g).endAt = now s + occ ∧
        getQueue t g q = rest ∧ (∀ r, r ≠ q → getQueue t g r = getQueue s g r) ∧
        (∀ k ∈ itemShapers s g q it, getShaper t k = (processShaper { getShaper s k with
          tokens := (getShaper s k).tokens - ((frameLen s it.frame : Int) + (getShaper s k).overhead) * 65536 } (nowNs s)).1)) ∧
    (∀ (port : LaneId) (q : Nat) (it : QItem),
      let g := port.val
      let len := frameLen s it.frame
      (getEPort s g).sending = some (it, q) → (getEPort s g).endAt ≤ now s → q < 16 →
      ∃ t, exec (.transmitEnd port) s = .next t ∧ t = { s with
          slots := t.slots, reams := t.reams, net := t.net, rqt := t.rqt, adm := t.adm, grp := t.grp
          counters := t.counters } ∧ (getEPort t g).sending = none ∧
        counted (cntQueue g q 2) 1 s t ∧ counted (cntQueue g q 3) len s t ∧ counted (cntPort g 12) 1 s t ∧ counted (cntPort g 13) len s t ∧
        (it.entry = none → t.rqt = s.rqt ∧ t.slots = s.slots ∧ t.grp = s.grp ∧ t.adm = s.adm ∧ t.reams = s.reams) ∧
        (∀ k r, it.entry = some k → getReq s k = some r → getReq t k = none ∧ (∀ j, j ≠ k → getReq t j = getReq s j) ∧
          (r.reply.isSome = true → counted (cntRqt (dieIx (rqtDie k)) 2) 1 s t) ∧
          (r.reply.isSome = true → r.deadline ≤ nowNs s → counted (cntRqt (dieIx (rqtDie k)) 4) 1 s t))) ∧
    (∀ (port : LaneId),
      let x := getEPort s port.val
      let others (t : State) : Prop := ∀ j, j ≠ port.val → getEPort t j = getEPort s j
      (∀ at_ l, x.change = some (at_, l) → nsT at_ ≤ now s →
        ∃ t, exec (.gateListChange port) s = .next t ∧ t = { s with net := { s.net with ports := t.net.ports } } ∧ others t ∧
          getEPort t port.val = { x with oper := some l, change := none }) ∧
      (∀ p, barUp s = true → holdsSem s p = true → x.change = none →
        let l := adminList s port.val
        ∃ t, exec (.gateApply p port) s = .next t ∧ t = { s with net := { s.net with ports := t.net.ports } } ∧ others t ∧
          getEPort t port.val = { x with
            change := some (firstStart l (max (regQ s (gateOff port.val 0x10) 0) ((now s + 2 ^ 32 - 1) / 2 ^ 32)), l) })) ∧
    (∀ (p : HPort) (d : NDie), barUp s = true → holdsSem s p = true →
      (∀ v : W64,
        let n := regF s (dieOff d 0x851000) (portIx p) 11 0
        let w := v.toNat
        (bits w 30 24 < 64 ∨ 96 ≤ bits w 30 24) → 64 ≤ bits w 55 32 → (bit w 31 = true → bits w 23 0 ≠ 0 ∧ bits w 23 0 ≤ 16000000) →
        ∃ t, exec (.shaperConfig p d v) s = .next t ∧ t = { s with regs := t.regs, net := { s.net with shapers := t.net.shapers } } ∧
          regsKeep [regKey (dieOff d 0x851008) n, regKey (dieOff d 0x85100C) n] s t ∧ regQ t (dieOff d 0x851008) n = w % 2 ^ 56 ∧
          getShaper t (4096 * dieIx d + n) = { getShaper s (4096 * dieIx d + n) with cfg := some (w % 2 ^ 56) } ∧
          ∀ k, k ≠ 4096 * dieIx d + n → getShaper t k = getShaper s k) ∧
      (∀ hi : W32,
        let n := regF s (dieOff d 0x853000) (portIx p) 11 0
        let k := 4096 * dieIx d + n
        let c0 := regQ s (dieOff d 0x853008) n
        let c1 := regW s (dieOff d 0x853010) n + 2 ^ 32 * bits hi.toNat 23 0
        bits c0 23 0 ≤ bits c0 47 24 →
        ∃ t, exec (.meterConfig p d hi) s = .next t ∧ t = { s with regs := t.regs, net := { s.net with meters := t.net.meters } } ∧
          regsKeep [regKey (dieOff d 0x853014) n] s t ∧ (∀ j, j ≠ k → getMeter t j = getMeter s j) ∧
          getMeter t k = { getMeter s k with
            cfg0 := c0, cfg1 := c1, tc := 8000 * bits c1 23 0, tp := 8000 * bits c1 55 32, last := nowNs s }))

/-- FIFO_POP: a read of an empty FIFO answers VALID = 0 at once and pops nothing, whichever FIFO the port has selected
(R308). -/
def Obligations.EmptyFifoRead : Prop :=
  ∀ (p : HPort) (d : NDie) (bad : Bool) (s : State), barUp s = true →
    (∀ sel, fifoSel s p d = some sel → (selGet s sel).words = []) →
    ∃ t, exec (.fifoPop p d bad) s = .next t ∧ t = { s with regs := t.regs } ∧ regsKeep [regKey (dieOff d 0x860004) (portIx p)] s t ∧
      bit (regW t (dieOff d 0x860004) (portIx p)) 0 = false

/-- FIFO_POP of a word, with POISON where its parity fails, and DROP_REST of a punted frame (R307, R309, R310, R312).
-/
def Obligations.FifoReads : Prop :=
  ∀ (p : HPort) (d : NDie) (s : State), barUp s = true →
    let o := dieOff d 0x860000
    let i := portIx p
    (∀ (sel : FifoSel) (w : FifoWord) (rest : List FifoWord) (bad : Bool), fifoSel s p d = some sel → (selGet s sel).words = w :: rest →
      let f := selGet s sel
      ∃ t, exec (.fifoPop p d bad) s = .next t ∧ t = { s with tbl := t.tbl, net := t.net, regs := t.regs } ∧
        (selGet t sel).words = (if 0 < f.gap ∧ rest.length < selCap sel then rest ++ [gapWord f.gap] else rest) ∧
        (selGet t sel).gap = (if 0 < f.gap ∧ rest.length < selCap sel then 0 else f.gap) ∧
        (∀ other, other ≠ sel → (∀ e q, other = .punt e q → q < 8) → selGet t other = selGet s other) ∧
        regW t (o + 4) i = (if bad then w.ctl.toNat ||| 2 else w.ctl.toNat) ∧
        (∀ n < 4, regW t (o + 8 + 4 * n) i = w.data.toNat / 2 ^ (32 * n) % 2 ^ 32) ∧
        regsKeep [regKey (o + 4) i, regKey (o + 8) i, regKey (o + 12) i, regKey (o + 16) i, regKey (o + 20) i] s t) ∧
    (∀ (e : NDie) (q : Nat), fifoSel s p d = some (.punt e q) →
      let f := getPunt s e q
      let left := dropFrameRest f.words
      ∃ t, exec (.dropRest p d) s = .next t ∧ t = { s with net := { s.net with punt := t.net.punt } } ∧
        (getPunt t e q).words = (if 0 < f.gap ∧ left.length < puntCap then left ++ [gapWord f.gap] else left) ∧
        ∀ e' q', q < 8 → q' < 8 → (e' ≠ e ∨ q' ≠ q) → getPunt t e' q' = getPunt s e' q')

/-- RESPONSE_BUILD, RESPONSE_CELL_WAIT and REQUEST_REAP for requests that came as frames: the response with its row's
output, or the answer, POISON of a poisoned result that no worker may compute anew, stands in the port's response
queue, its entry in RESPONDING (R276, R298, R299, R315, R407). The model's choices in log 70 bear on it. -/
def Obligations.Responses : Prop :=
  ∀ (d : NDie) (ix : Nat) (s : State) (q : Req), ix < 524288 → getReq s (rqtKey d ix) = some q → q.infer = none →
    let k := rqtKey d ix
    let g := q.port.val
    let rq := respQueue s (laneDie g)
    let queued (bs : Bytes) (t : State) : Prop := (getReq t k).map (·.st) = some 6 ∧
      ∃ it, getQueue t g rq = getQueue s g rq ++ [it] ∧ it.entry = some k ∧ frameBytes t it.frame = bs ∧ it.mirror = false
    portUp s g = true →
    (∀ (r : Ream) (im : Image), reamOf s q.ream = some r → slotImage s r.slot = some im → q.st = 5 → reamComplete r = true →
      -- the request's row of the ream, its output and the shares whose part of it is poisoned
      let row := (r.rows.takeWhile (fun x => x.req != k)).length
      let parts := im.outputs.map (fun p => (p.share, outputAt s p r.seq row))
      let body := (parts.map (fun x => x.2.1)).flatten
      let bad := ((parts.filter (fun x => x.2.2)).map (·.1)).eraseDups
      let res := body.take (((svcOf s r.slot q.service).map (·.resultLen)).getD body.length)
      let hash := (getSlot s r.slot.val).hash.take 8
      let ok := reqFrame s q stOk r.tgen hash res
      let poison := reqFrame s q stPoison 0 [] []
      (bad = [] → ok.length ≤ portMaxFrame s g → hasCells s (laneDie g) ok.length true = true →
        ∃ t, exec (.responseBuild d ix q.ream) s = .next t ∧ t = { s with
            cores := t.cores, clusters := t.clusters, dies := t.dies, canopy := t.canopy, trace := t.trace
            slots := t.slots, nlus := t.nlus, pools := t.pools, host := { t.host with sem := s.host.sem }
            tbl := t.tbl, reams := t.reams, net := t.net, rqt := t.rqt, adm := t.adm, grp := t.grp, regs := t.regs
            counters := t.counters, fresh := t.fresh } ∧ queued ok t ∧
          (getReq t k).map (·.reply) = some (some (r.tgen, hash, res)) ∧ ∀ j, j ≠ k → getReq t j = getReq s j) ∧
      (bad ≠ [] → (q.replaced = true ∨ poisonShares s r im bad = none) → hasCells s (laneDie g) poison.length true = true →
        ∃ t, exec (.responseBuild d ix q.ream) s = .next t ∧ t = { s with
            cores := t.cores, clusters := t.clusters, dies := t.dies, canopy := t.canopy, trace := t.trace
            slots := t.slots, nlus := t.nlus, pools := t.pools, host := { t.host with sem := s.host.sem }
            tbl := t.tbl, reams := t.reams, net := t.net, rqt := t.rqt, adm := t.adm, grp := t.grp, regs := t.regs
            counters := t.counters, fresh := t.fresh } ∧ queued poison t ∧ counted (cntFlt 5) 1 s t ∧
          reportFirst 0x52 ucPackage (ucNet d) s t ∧ ∀ j, j ≠ k → getReq t j = getReq s j)) ∧
    (∀ gen hash body, q.reply = some (gen, hash, body) → q.st = 6 →
      let bs := reqFrame s q stOk gen hash body
      s.net.ports.any (fun p => p.2.queues.any (fun q => q.2.any (fun it => it.entry == some k)) ||
        (p.2.sending.map (fun x => x.1.entry == some k)).getD false) = false →
      hasCells s (laneDie g) bs.length true = true →
      ∃ t, exec (.responseCellWait d ix) s = .next t ∧ t = { s with
          slots := t.slots, reams := t.reams, net := t.net, rqt := t.rqt, adm := t.adm, grp := t.grp
          counters := t.counters } ∧ queued bs t ∧ ∀ j, j ≠ k → getReq t j = getReq s j) ∧
    (q.st ≠ 6 → q.deadline + regF s (dieOff d 0x830000) 0 23 8 * 1000 ≤ nowNs s →
      let bs := reqFrame s q stLate 0 [] []
      hasCells s (laneDie g) bs.length true = true →
      ∃ t, exec (.requestReap d ix) s = .next t ∧ t = { s with
          trace := t.trace, slots := t.slots, host := { t.host with sem := s.host.sem }, reams := t.reams
          net := t.net, rqt := t.rqt, adm := t.adm, grp := t.grp, regs := t.regs, counters := t.counters
          fresh := t.fresh } ∧ queued bs t ∧ counted (cntRqt (dieIx d) 3) 1 s t ∧
        k ∉ t.adm.offers ∧ k ∉ t.adm.carried)

/-! ### Frames, flow records and samples -/

/-- FRAME_RECEIVE: a frame is dropped and counted by the checks that it fails, else counted received; the group's
frames and PTP frames are handed over; a class G frame whose rule forwards it to a port stands in that port's queue; a
valid request of class M whose rule says REQUEST has a tracker entry (R18, R264, R265, R268, R270, R272, R280, R282,
R284, R297, R313). A frame whose command comes after that of a later stamp is not taken (DESIGN CHOICE, log 116). A
command whose event is not due, or whose condition is absent, leaves the state (DESIGN CHOICE, log 2). The model's
choices in logs 19, 88, 89, 90 and 102 bear on it. -/
def Obligations.FrameReceive : Prop :=
  ∀ (port : LaneId) (bytes : Bytes) (sub : BitVec 6) (s : State),
    let g := port.val
    let d := laneDie g
    let p := parseFrame bytes (portPvid s g) (regF s (pp g 0x800008) 0 15 0)
    -- the corrected and uncorrectable codewords of the lanes, and LANE_STATUS.FEC_UNCORR, which come with a frame
    let lanes : List Nat := g :: portLanes s g
    let fec (good : Bool) (ns : List Nat) (t : State) : Prop :=
      cntsKeep (ns ++ cntPort g 14 :: if good then [] else [cntPort g 15]) s t ∧
      regsKeep (if good then [] else lanes.map (fun l => regKey (pp l (0x800010 + 4 * (l % 8))) 0)) s t
    let counts (good : Bool) (ns : List Nat) : Prop := ∃ t, exec (.frameReceive port bytes good sub) s = .next t ∧
      t = { s with counters := t.counters, regs := t.regs, fresh := t.fresh } ∧ (∀ n ∈ ns, counted (cntPort g n) 1 s t) ∧
      fec good (ns.map (cntPort g)) t
    -- the stamp of the last frame that the die's pipelines took
    let stamped (t : State) : Prop := t.tbl = { s.tbl with net := t.tbl.net } ∧ (getNet t d).lastRx = (now s, sub.toNat, g) ∧
      ∀ e, getNet t e = { getNet s e with lastRx := (getNet t e).lastRx }
    ((portUp s g = false ∨ (getEPort s g).pause = true ∨ rxOutranked s g sub = true) →
      ∀ good, exec (.frameReceive port bytes good sub) s = .next s) ∧
    (portUp s g = true → (getEPort s g).pause = false → rxOutranked s g sub = false →
    (∀ good, (bytes.length < 64 ∨ portMaxFrame s g < bytes.length) → counts good [2]) ∧
    (64 ≤ bytes.length → bytes.length ≤ portMaxFrame s g →
      (hasCells s d bytes.length false = false → counts true [4] ∧ counts false [4, 1]) ∧
      (hasCells s d bytes.length false = true → counts false [1] ∧
        (p.etype = 0x8808 → counts true [3]) ∧
        (p.etype = regF s (pp g 0x80000C) 0 15 0 → p.dmac = portMac s g →
          exec (.frameReceive port bytes true sub) s = exec (.groupFrameReceive port bytes ⟨true, sub⟩) s) ∧
        (p.etype ≠ 0x8808 → (p.etype ≠ regF s (pp g 0x80000C) 0 15 0 ∨ p.dmac ≠ portMac s g) →
          (isPtp p = true → (learnMode s g = 0 ∨ bit p.smac 40 = true) →
            ∃ t, exec (.frameReceive port bytes true sub) s = .next t ∧ t = { s with
                time := t.time, cores := t.cores, dies := t.dies, canopy := t.canopy, trace := t.trace
                slots := t.slots, nlus := t.nlus, pools := t.pools, host := { t.host with sem := s.host.sem }
                tbl := t.tbl, reams := t.reams, net := t.net, flow := t.flow, rqt := t.rqt, adm := t.adm
                grp := t.grp, regs := t.regs, counters := t.counters, fresh := t.fresh } ∧ counted (cntPort g 0) 1 s t ∧
              t.net.ptp = s.net.ptp ++ [{ port := port, gtNs := nowNs s, sub := sub, bytes := bytes }] ∧ stamped t ∧
              (∀ m, s.time.source = 2 → s.boot.fwUp = true → (portOfLane s (regF s 0x100038 0 3 0)).1 = g → ptpMsg (ptpBytes bytes p) = some m →
                m.typ = .sync → t.time.lastExchange = some (now s) ∧
                (m.twoStep = true → t.time.ptp.sync = some { port := m.port, seq := m.seq, rx := nowNs s, corr := m.corr }) ∧
                (m.twoStep = false → t.time.ptp.diff = some (65536 * (nowNs s : Int) - (65536 * (m.ns : Int) + m.corr)))) ∧
              (s.time.source ≠ 2 → t = { s with
                counters := t.counters, tbl := t.tbl, fresh := t.fresh, regs := s.regs, net := { s.net with ptp := t.net.ptp } })) ∧
          (∀ (k o : Nat) (r : Rule),
            let q := bits r.act 33 30
            let pfx := if p.ip then (pfxLookup s d p.v6 (portVrf s g) p.dst).map (·.result) else none
            isPtp p = false → isClassM s g p = false → p.ok = true → (learnMode s g = 0 ∨ bit p.smac 40 = true) →
            fwdFind s d (fwdKey p.dmac p.outerVid) = none →
            matchRule s d (ruleKey s g p { classM := false, fdbHit := false, pfx := pfx, aux := auxOf s d [], len := bytes.length }) =
              some (k, r) → (s.net.rules.map (·.1)).Nodup →
            bits r.act 2 0 = 0 → bits r.act 4 3 = 2 → bits r.act 8 5 = o → bit r.act 9 = false → bit r.act 14 = false →
            bit r.act 16 = false → bit r.act 29 = true → portUp s o = true → (∀ it ∈ getQueue s o q, it.frame < s.net.nextFrame) →
            queueCells s o q + cellsOfLen bytes.length ≤ bits (queueCfg s o q) 48 32 →
            ∃ t, exec (.frameReceive port bytes true sub) s = .next t ∧
              t = { s with
                counters := t.counters, tbl := t.tbl, fresh := t.fresh
                net := { s.net with
                  rules := t.net.rules, frames := t.net.frames, nextFrame := t.net.nextFrame, ports := t.net.ports } } ∧ stamped t ∧
              counted (cntPort g 0) 1 s t ∧ getQueue t o q = getQueue s o q ++ [plainItem s.net.nextFrame] ∧
              frameBytes t s.net.nextFrame = bytes ∧ mapGet k t.net.rules = some { r with hits := min (r.hits + 1) (2 ^ 64 - 1) } ∧
              ∀ j, j ≠ o → getEPort t j = getEPort s j) ∧
          (∀ (k e : Nat) (r : Rule) (o n : Nat),
            let pl := (bytes.drop o).take n
            let fs := mxFields s d pl
            let fdb := (fwdFind s d (fwdKey p.dmac p.outerVid)).isSome
            isPtp p = false → isClassM s g p = true → p.udp = some (o, n) → udpCsumOk bytes p = true → mrpValid pl = true →
            mxFits s d pl = true →
            matchRule s d (ruleKey s g p { classM := true, fdbHit := fdb, pfx := none, aux := auxOf s d fs, len := bytes.length }) =
              some (k, r) →
            bits r.act 2 0 = 3 → bit r.act 9 = false → bit r.act 16 = false → unitActive s (ucNet .n0) = true → freeReq s d = some e →
            ∃ t q, exec (.frameReceive port bytes true sub) s = .next t ∧ t = { s with
                time := t.time, cores := t.cores, dies := t.dies, canopy := t.canopy, trace := t.trace
                slots := t.slots, nlus := t.nlus, pools := t.pools, host := { t.host with sem := s.host.sem }
                tbl := t.tbl, reams := t.reams, net := t.net, flow := t.flow, rqt := t.rqt, adm := t.adm
                grp := t.grp, regs := t.regs, counters := t.counters, fresh := t.fresh } ∧
              counted (cntPort g 0) 1 s t ∧ counted (cntPort g 7) 1 s t ∧ counted (cntRqt (dieIx d) 0) 1 s t ∧
              getReq t e = some q ∧ q.id = (mrpOf pl).id ∧ q.service = (mrpOf pl).service ∧ q.clientTag = (mrpOf pl).tag ∧
              q.body = (mrpOf pl).body ∧ q.deadline = nowNs s + (mrpOf pl).budget ∧ q.port = port ∧ q.infer = none ∧
              (q.st = 1 ∨ q.st = 3) ∧ (q.frame.map (frameBytes t)) = some bytes ∧
              ∀ j, j ≠ e → getReq t j = getReq s j)))))

/-- FLOW_UPDATE and FLOW_INSERT: a present record takes the frame, a new flow takes the first free index and a record
of its own, and the writer, where no chain, earlier change or hold keeps it back, inserts its key, merges it, or
returns the index (R227, R230, R232, R255, R288 to R293). A command whose event is not due, or whose condition is
absent, leaves the state (DESIGN CHOICE, log 2). The model's choices in logs 19 and 90 bear on it. -/
def Obligations.FlowRecords : Prop :=
  ∀ (s : State) (tn : Nat) (x : Tbl), flowTable s = some (tn, x) → tn < 256 → getTbl s tn = some x → x.desc.kind = 1 →
    x.desc.rowBase % 64 = 0 →
    -- the buckets of a key can be read, the one found is written back, and no record lies in them
    let found (fd : Found) (key a : Nat) : Prop := bucketHeld s x.desc fd.bucket ∧ ∀ n < 2,
      let l := x.desc.bucketBase / 64 + bucketN x.desc n key
      (slotsSeen s x.desc (bucketN x.desc n key)).isSome = true ∧ (l < a / 64 ∨ a / 64 + 2 ≤ l)
    let hit (fd : Found) (t : State) : Prop := (slotsSeen t x.desc fd.bucket).map (·.getD fd.slot Entry.empty) =
      some (hitEntry (x.visited.contains fd.bucket) fd.entry)
    let updated (f : FlowFrame) (a : Nat) : FlowRec := match bytesSeen s a 128 with
      | some (bs, false) => updateRecord s f (decodeFlow bs)
      | _ => firstRecord s f
    (∀ (u : Nat) (f : FlowFrame) (rest : List (Nat × FlowFrame)), s.flow.queue = (u, f) :: rest →
      (∀ fd, foundSeen s x.desc (fun e => eVis e == 1) f.key = some (some fd) →
        let a := rowAddr x.desc fd.entry.row
        recordHeld s a → found fd f.key a →
        ∃ t, exec .flowUpdate s = .next t ∧ t = { s with
            canopy := t.canopy, dsm := t.dsm, nlus := t.nlus, overhang := t.overhang, tbl := t.tbl, flow := t.flow
            rqt := t.rqt, adm := t.adm, pwr := t.pwr, regs := t.regs, counters := t.counters, fresh := t.fresh } ∧ t.flow.queue = rest ∧ t.flow.inserts = s.flow.inserts ∧
          bytesSeen t a 128 = some (encodeFlow (updated f a), false) ∧ hit fd t ∧
          counted (cntFlw 0) 1 s t ∧
          (∀ sl st, sampleDue s f (updated f a) = true → activeSlot s = some sl → flowStandOf s sl = some st →
            ∃ m, t.flow.samples = s.flow.samples ++ [m] ∧ m.key = f.key ∧ m.index = fd.entry.row ∧ m.slot = sl ∧ m.waiter = f.entry ∧
              m.die = f.die ∧ counted (cntFlw 5) 1 s t ∧ (f.entry.bind (getReq s)).isSome = ((f.entry.bind (getReq t)).map (·.st) == some 2)) ∧
          (sampleDue s f (updated f a) = false → t.flow.samples = s.flow.samples)) ∧
      (foundSeen s x.desc (fun e => eVis e == 1) f.key = some none →
        let ix := firstGap 0 s.flow.used
        let a := rowAddr x.desc ix
        (ix < hwRecords s → s.flow.inserts.length < 4096 → recordHeld s a →
          ∃ t, exec .flowUpdate s = .next t ∧ t = { s with
              canopy := t.canopy, dsm := t.dsm, nlus := t.nlus, overhang := t.overhang, tbl := t.tbl, flow := t.flow
              rqt := t.rqt, adm := t.adm, pwr := t.pwr, regs := t.regs, counters := t.counters, fresh := t.fresh } ∧ t.flow.queue = rest ∧
            bytesSeen t a 128 = some (encodeFlow (firstRecord s f), false) ∧ ix ∈ t.flow.used ∧
            t.flow.inserts = s.flow.inserts ++ [{ frame := f, index := ix, ord := s.tbl.ords }] ∧ counted (cntFlw 0) 1 s t) ∧
        ((hwRecords s ≤ ix ∨ 4096 ≤ s.flow.inserts.length) → ∃ t, exec .flowUpdate s = .next t ∧ t = { s with
            canopy := t.canopy, dsm := t.dsm, nlus := t.nlus, overhang := t.overhang, tbl := t.tbl, flow := t.flow
            rqt := t.rqt, adm := t.adm, pwr := t.pwr, regs := t.regs, counters := t.counters, fresh := t.fresh } ∧ t.flow = { s.flow with queue := rest } ∧
          counted (cntFlw 2) 1 s t ∧
          ∀ k r, f.entry = some k → getReq s k = some r → offeredAs k { r with untracked := true } s t))) ∧
    (∀ (i : FlowIns) (rest : List FlowIns), s.flow.inserts = i :: rest →
      ((writerBusy tn 1 i.frame.key i.ord s = true ∨ movesHeld s x = true) → exec .flowInsert s = .next s) ∧
      (writerBusy tn 1 i.frame.key i.ord s = false → movesHeld s x = false →
      (∀ fd, foundSeen s x.desc (fun e => eVis e == 1) i.frame.key = some (some fd) →
        let a := rowAddr x.desc fd.entry.row
        recordHeld s a → found fd i.frame.key a →
        ∃ t, exec .flowInsert s = .next t ∧ t = { s with
            clusters := t.clusters, canopy := t.canopy, dsm := t.dsm, nlus := t.nlus, overhang := t.overhang
            tbl := t.tbl, flow := t.flow, rqt := t.rqt, pwr := t.pwr, regs := t.regs, counters := t.counters
            fresh := t.fresh } ∧ t.flow.inserts = rest ∧ t.flow.used = setDel i.index s.flow.used ∧
          bytesSeen t a 128 = some (encodeFlow (updated i.frame a), false) ∧ hit fd t ∧ counted (cntFlw 0) 1 s t ∧ counted (cntFlw 4) 1 s t ∧
          (∀ k r, i.frame.entry = some k → getReq s k = some r → getReq t k = some { r with flowIndex := some fd.entry.row }) ∧
          t.flow.samples = s.flow.samples.map (fun m =>
            if m.index = i.index ∧ m.key = i.frame.key then { m with index := fd.entry.row } else m)) ∧
      (∀ es n,
        let b := bucketN x.desc 0 i.frame.key
        let e : Entry := { key := i.frame.key, row := i.index, flags := mkFlags 0 true true false 1 }
        foundSeen s x.desc (fun e => eVis e == 1) i.frame.key = some none → slotsSeen s x.desc b = some es → emptySlot es = some n →
        bucketHeld s x.desc b → entryFits e →
        ∃ t, exec .flowInsert s = .next t ∧ t = { s with
            clusters := t.clusters, canopy := t.canopy, dsm := t.dsm, nlus := t.nlus, overhang := t.overhang
            tbl := t.tbl, flow := t.flow, rqt := t.rqt, pwr := t.pwr, regs := t.regs, counters := t.counters
            fresh := t.fresh } ∧ t.flow = { s.flow with inserts := rest } ∧
          slotBecomes x.desc b n e s t ∧ counted (cntFlw 1) 1 s t) ∧
      (foundSeen s x.desc (fun e => eVis e == 1) i.frame.key = some none → (planFor tn i.frame.key s).1.isNone = true →
        ∃ t, exec .flowInsert s = .next t ∧ t = { s with
            clusters := t.clusters, canopy := t.canopy, dsm := t.dsm, nlus := t.nlus, overhang := t.overhang
            tbl := t.tbl, flow := t.flow, rqt := t.rqt, pwr := t.pwr, regs := t.regs, counters := t.counters
            fresh := t.fresh } ∧
          t.flow = { s.flow with inserts := rest, used := setDel i.index s.flow.used } ∧ counted (cntFlw 3) 1 s t ∧
          counted (cntTable tn 3) 1 s t ∧
          ∀ k r, i.frame.entry = some k → getReq s k = some r → getReq t k = some { r with flowIndex := none })))

/-- FLOW_SAMPLE, SAMPLE_DISPATCH, SEGMENT_SUM_DONE, STAND_OUTPUTS_RETURN and SCORE_WAIT_EXPIRE: a sample reaches its
combiner and its cores, each segment sum is made as a TREE command makes it, and the outputs reach the record, if it is
still the sample's, and the request, if it still waits; one that is dropped or late goes on unscored (R165 to R167,
R172, R179, R181, R182, R293, R300, R301, R490). A command whose event is not due, or whose condition is absent, leaves
the state (DESIGN CHOICE, log 2). The model's choices in log 90 bear on it. -/
def Obligations.FlowScoring : Prop :=
  ∀ (s : State),
    (∀ (x : Sample) (rest : List Sample), s.flow.samples = x :: rest →
      let dropped (n : Nat) : Prop := ∃ t, exec .flowSample s = .next t ∧ t = { s with
          clusters := t.clusters, canopy := t.canopy, dsm := t.dsm, nlus := t.nlus, overhang := t.overhang
          flow := t.flow, rqt := t.rqt, adm := t.adm, pwr := t.pwr, regs := t.regs, counters := t.counters
          fresh := t.fresh } ∧ t.clusters = s.clusters ∧
        t.flow = { s.flow with samples := rest } ∧ counted n 1 s t ∧ (waitsFor s x = none → t.rqt = s.rqt ∧ t.adm = s.adm) ∧
        ∀ w q, waitsFor s x = some w → getReq s w = some q → ∃ outs, offeredAs w { q with unscored := true, outs := outs } s t ∧
          ∀ tn y bs, flowTable s = some (tn, y) → bytesSeen s (rowAddr y.desc x.index) 128 = some (bs, false) →
            outs = (decodeFlow bs).outs.map (BitVec.ofNat 32)
      (standOf s x.slot x.stand = none → dropped (cntFlw 7)) ∧
      (∀ o, standOf s x.slot x.stand = some o →
        let k : ClusterId := ⟨logicalClusterPhys s o.cluster.val % 32, by omega⟩
        ((getCluster s k).queue.length < 1024 → standPlaced s x.slot o = true →
          ∃ t, exec .flowSample s = .next t ∧ t = { s with flow := { s.flow with samples := rest }, clusters := t.clusters } ∧
            (∀ j, j ≠ k → getCluster t j = getCluster s j) ∧
            getCluster t k = { getCluster s k with queue := (getCluster s k).queue ++ [x] }) ∧
        ((1024 ≤ (getCluster s k).queue.length ∨ standPlaced s x.slot o = false) → dropped (cntCluster k.val 0)))) ∧
    (∀ (k : ClusterId) (x : Sample) (rest : List Sample) (o : StandObj), (getCluster s k).queue = x :: rest →
      standOf s x.slot x.stand = some o → standPlaced s x.slot o = true →
      let cores := (List.range (standHdr o.bytes).segCount).map (segCore s o)
      ((∃ c : CoreId, c.val ∈ cores ∧ 64 ≤ (getCore s c).te.stream.length) → exec (.sampleDispatch k) s = .next s) ∧
      ((∀ c : CoreId, c.val ∈ cores → (getCore s c).te.stream.length < 64) →
        ∃ t, exec (.sampleDispatch k) s = .next t ∧ t = { s with clusters := t.clusters, cores := t.cores } ∧
          (∀ j, j ≠ k → getCluster t j = getCluster s j) ∧
          getCluster t k = { getCluster s k with
            queue := rest, inFlight := (getCluster s k).inFlight ++ [{ sample := x, sums := [], poisoned := false }] } ∧
          ∀ c : CoreId, getCore t c = if c.val ∈ cores then
            { getCore s c with te := { (getCore s c).te with stream := (getCore s c).te.stream ++ [x.id] } } else getCore s c)) ∧
    (∀ (c : CoreId) (id : Nat) (rest : List Nat) (k : ClusterId) (f : InFlight) (o : StandObj) (faults : List NodeFault),
      let x := getCore s c
      let h := standHdr o.bytes
      let segs := (List.range 8).filter (fun n => (mapGet n f.sums).isNone && (segEntry x f.sample.slot f.sample.stand n).isSome)
      let walks (n : Nat) : List Walk := (segEntry x f.sample.slot f.sample.stand n).elim [] (fun e =>
        segWalks (fun j => mapGetD 0 (e.base + j) x.te.words) h (h.segs.getD n (0, 0)).1 (fun j => f.sample.feats.getD j 0))
      let all : List Walk := (segs.map walks).flatten
      let dead (n : Nat) : Bool := (segEntry x f.sample.slot f.sample.stand n).any (fun e =>
        (walks n).any (fun w => w.nodes.any (fun i => x.te.bad.contains (e.base + i))))
      x.te.stream = id :: rest → combinerOf s id = some k → (getCluster s k).inFlight.find? (fun f => f.sample.id == id) = some f →
      standOf s f.sample.slot f.sample.stand = some o → coreActive s c.val = true →
      ((∀ q ∈ faults, q.seg ∈ segs → ∀ w ∈ walks q.seg, q.node ∉ w.nodes) →
        ∃ t, exec (.segmentSumDone c faults) s = .next t ∧ coreFrame c s t ∧
          t = { s with cores := t.cores, clusters := t.clusters, regs := t.regs, counters := t.counters, fresh := t.fresh } ∧
          regsKeep [regKey 0xF00800 c.val] s t ∧
          (bit (regW t 0xF00800 c.val) 8 = (bit (regW s 0xF00800 c.val) 8 || decide (0 < (all.map (·.nans)).foldl (· + ·) 0))) ∧
          getCore t c = { x with te := { x.te with
            stream := (getCore t c).te.stream, clean := if x.te.strike then x.te.clean + 1 else x.te.clean } } ∧
          -- what it still owes, oldest dispatched first
          (getCore t c).te.stream = owedSamples t x ∧
          counted (cntCore c.val 11) 1 s t ∧ counted (cntCore c.val 6) ((all.map (fun w => w.nodes.length)).foldl (· + ·) 0) s t ∧
          counted (cntCore c.val 8) ((all.map (·.nans)).foldl (· + ·) 0) s t ∧
          (∀ j, j ≠ k → getCluster t j = getCluster s j) ∧
          ∃ f', getCluster t k = { getCluster s k with
              inFlight := (getCluster s k).inFlight.map (fun g => if g.sample.id == id then f' else g) } ∧
            f'.sample = f.sample ∧ f'.poisoned = (f.poisoned || segs.any dead) ∧ (∀ n ∉ segs, mapGet n f'.sums = mapGet n f.sums) ∧
            ∀ n ∈ segs, mapGet n f'.sums = some ((List.range h.numOut).map (fun i => toF32 (segSum (walks n) i)))) ∧
      (∀ q : NodeFault, q.seg ∈ segs → (∃ w ∈ walks q.seg, q.node ∈ w.nodes) →
        ∃ t, exec (.segmentSumDone c [q]) s = .next t ∧ coreFrame c s t ∧ (getCore t c).te.strike = true ∧
          bit (regW t 0xF00800 c.val) 9 = true ∧ counted (cntCore c.val 10) 1 s t ∧ reportFirst 0x0B (ucCore c) (ucCore c) s t ∧
          (x.te.strike = true → coreActive t c.val = false ∧ (getCluster t k).inFlight = (getCluster s k).inFlight) ∧
          (x.te.strike = false → (getCore t c).te.clean = 0 ∧ counted (cntCore c.val 11) 1 s t ∧
            ∀ g ∈ (getCluster t k).inFlight, g.sample.id = id → ∀ n ∈ segs, (mapGet n g.sums).isSome = true))) ∧
    (∀ (k : ClusterId) (f : InFlight) (rest : List InFlight) (o : StandObj), (getCluster s k).inFlight = f :: rest →
      standOf s f.sample.slot f.sample.stand = some o →
      (∀ n < (standHdr o.bytes).segCount, (mapGet n f.sums).isSome = true) →
      ∃ t, exec (.standOutputsReturn k) s = .next t ∧ t = { s with
          clusters := t.clusters, canopy := t.canopy, trace := t.trace, slots := t.slots, dsm := t.dsm
          nlus := t.nlus, overhang := t.overhang, host := { t.host with sem := s.host.sem }, reams := t.reams
          net := t.net, rqt := t.rqt, adm := t.adm, grp := t.grp, pwr := t.pwr, regs := t.regs
          counters := t.counters, fresh := t.fresh } ∧
        (∀ j, j ≠ k → getCluster t j = getCluster s j) ∧ getCluster t k = { getCluster s k with inFlight := rest } ∧
        (waitsFor s f.sample = none → t.rqt = s.rqt ∧ t.adm = s.adm) ∧
        (∀ w q, waitsFor s f.sample = some w → getReq s w = some q →
          (f.poisoned = false → offeredAs w { q with outs := sampleOuts o f } s t) ∧ (f.poisoned = true → w ∉ t.adm.offers)) ∧
        ∀ tn x bs, flowTable s = some (tn, x) → tn < 256 → x.desc.rowBase % 64 = 0 →
          let a := rowAddr x.desc f.sample.index
          ((∃ i ∈ s.flow.inserts, i.index = f.sample.index ∧ i.frame.key = f.sample.key) ∨
            ∃ fd, foundSeen s x.desc (fun e => eVis e == 1 && e.row == f.sample.index) f.sample.key = some (some fd)) →
          recordHeld s a → bytesSeen s a 128 = some (bs, false) → f.poisoned = false →
          bytesSeen t a 128 = some (encodeFlow { decodeFlow bs with
            outs := ((sampleOuts o f).map (fun w => BitVec.toNat w) ++ List.replicate 4 0).take 4
            flags := setBits (decodeFlow bs).flags 0 0 1 }, false)) ∧
    (∀ (d : NDie) (ix : Nat) (q : Req) (t0 : Nat), getReq s (rqtKey d ix) = some q → q.sampled = some t0 → q.st = 2 →
      t0 + nsT (10 * regF s 0x840000 0 23 8) ≤ now s →
      ∃ t outs, exec (.scoreWaitExpire d ix) s = .next t ∧ t = { s with
          canopy := t.canopy, dsm := t.dsm, nlus := t.nlus, overhang := t.overhang, rqt := t.rqt, adm := t.adm
          pwr := t.pwr, regs := t.regs, counters := t.counters, fresh := t.fresh } ∧ counted (cntAdm 4) 1 s t ∧
        offeredAs (rqtKey d ix) { q with unscored := true, outs := outs } s t ∧
        ((flowTable s = none ∨ q.flowIndex = none) → outs = List.replicate 4 0) ∧
        ∀ tn x ix bs, flowTable s = some (tn, x) → q.flowIndex = some ix → bytesSeen s (rowAddr x.desc ix) 128 = some (bs, false) →
          outs = (decodeFlow bs).outs.map (BitVec.ofNat 32))

/-! ### Admission and launches -/

/-- ADMISSION_OFFER decides the oldest offer, by the prediction and the credits; REAM_SEAL ends a window (R24, R41,
R300, R302 to R304, R405). The ream that a request joins is the model's open ream of its window and slot. A command
whose event is not due, or whose condition is absent, leaves the state (DESIGN CHOICE, log 2). The model's choices in
logs 70, 73 and 94 bear on it. -/
def Obligations.Admission : Prop :=
  ∀ (s : State),
    let same : Prop := reamWindow s = 0 ∨ windowOf s (nowNs s) = s.adm.window
    -- what R41 puts ahead of admission at an edge acts first
    (edgeOwed s = true → exec .admissionOffer s = .next s ∧ exec .reamSeal s = .next s) ∧
    (edgeOwed s = false →
    (∀ (k : Nat) (rest : List Nat) (r : Req), same → s.adm.offers = k :: rest → getReq s k = some r →
      let g := r.port.val
      let d := laneDie g
      let answered (status : Nat) (c : Option Nat) : Prop := r.infer = none → portUp s g = true →
        hasCells s d (reqFrame s r status 0 [] []).length true = true →
        ∃ t i, exec .admissionOffer s = .next t ∧ t = { s with
            cores := t.cores, clusters := t.clusters, dies := t.dies, canopy := t.canopy, trace := t.trace
            slots := t.slots, host := { t.host with sem := s.host.sem }, reams := t.reams, net := t.net
            rqt := t.rqt, adm := t.adm, grp := t.grp, regs := t.regs, counters := t.counters, fresh := t.fresh } ∧ k ∉ t.adm.offers ∧
          getReq t k = some { r with st := 6 } ∧ (∀ j, j ≠ k → getReq t j = getReq s j) ∧
          getQueue t g (respQueue s d) = getQueue s g (respQueue s d) ++ [{ plainItem i with entry := some k }] ∧
          frameBytes t i = reqFrame s r status 0 [] [] ∧ t.reams = s.reams ∧ t.slots = s.slots ∧
          ∀ n, (c = some n → counted (cntAdm n) 1 s t) ∧ (c ≠ some n → n < 8 → cntGet t (cntAdm n) = cntGet s (cntAdm n))
      let bound : Option SlotId := if r.bound then some r.slot else activeSlot s
      (bound = none ∨ shedding s = true → answered stShed none) ∧
      (∀ sl im, bound = some sl → shedding s = false → slotImage s sl = some im →
        (svcOf s sl r.service = none → answered stFormat (some 6)) ∧
        (∀ svc, svcOf s sl r.service = some svc →
          let n := windowOf s (nowNs s)
          let q := joinSeq s n sl
          let clu := cluNeed svc
          let nlu := nluNeed s im svc r.body
          (bodyFits svc r.body = false → answered stFormat (some 6)) ∧
          (bodyFits svc r.body = true → completesBy s sl im svc q (nowNs s) (launchAt s n) r.deadline = false →
            answered stShed (some 1)) ∧
          (bodyFits svc r.body = true → completesBy s sl im svc q (nowNs s) (launchAt s n) r.deadline = true →
            (hasCredits s clu nlu = true →
              ∃ t, exec .admissionOffer s = .next t ∧ t = { s with
                  cores := t.cores, clusters := t.clusters, dies := t.dies, canopy := t.canopy, trace := t.trace
                  slots := t.slots, host := { t.host with sem := s.host.sem }, reams := t.reams, net := t.net
                  rqt := t.rqt, adm := t.adm, grp := t.grp, regs := t.regs, counters := t.counters, fresh := t.fresh } ∧ counted (cntAdm 0) 1 s t ∧
                k ∉ t.adm.offers ∧ getReq t k = some { r with st := 4, slot := sl, ream := q, bound := true, clu := clu, nlu := nlu } ∧
                (∀ j, j ≠ k → getReq t j = getReq s j) ∧ (∃ m ∈ t.reams, m.seq = q ∧ m.window = n ∧ m.slot = sl ∧ k ∈ m.reqs) ∧
                (openReam s n sl = none → t.adm.nextSeq = s.adm.nextSeq + 1) ∧
                getSlot t sl.val = { getSlot s sl.val with bound := (getSlot s sl.val).bound + b2n (!r.bound) }) ∧
            (hasCredits s clu nlu = false → r.carries < regF s 0x840000 0 3 0 →
              ∃ t, exec .admissionOffer s = .next t ∧ t = { s with
                  cores := t.cores, clusters := t.clusters, dies := t.dies, canopy := t.canopy, trace := t.trace
                  slots := t.slots, host := { t.host with sem := s.host.sem }, reams := t.reams, net := t.net
                  rqt := t.rqt, adm := t.adm, grp := t.grp, regs := t.regs, counters := t.counters, fresh := t.fresh } ∧ counted (cntAdm 2) 1 s t ∧
                k ∉ t.adm.offers ∧ t.adm.carried = s.adm.carried.filter (· != k) ++ [k] ∧ t.reams = s.reams ∧ t.slots = s.slots ∧
                getReq t k = some { r with st := 3, carries := r.carries + 1, clu := [], nlu := [] } ∧
                (∀ j, j ≠ k → getReq t j = getReq s j)))))) ∧
    (∃ t, exec .reamSeal s = .next t ∧ t = { s with
        cores := t.cores, clusters := t.clusters, dies := t.dies, canopy := t.canopy, trace := t.trace
        slots := t.slots, host := { t.host with sem := s.host.sem }, reams := t.reams, net := t.net, rqt := t.rqt
        adm := t.adm, grp := t.grp, regs := t.regs, counters := t.counters, fresh := t.fresh } ∧
      (same → t = s) ∧
      (¬ same → t.adm.window = windowOf s (nowNs s) ∧ t.adm.offers.Sublist s.adm.offers ∧
        t.adm.coreMap = s.canopy.coreMap ∧ t.adm.clusterMap = s.canopy.clusterMap ∧
        ∀ m ∈ t.reams, m.share = none → m.sealed_ = true ∨ windowOf s (nowNs s) ≤ m.window)))

/-- LAUNCH_EDGE, LATE_LAUNCH, REAM_RELAUNCH and SPINE_CLIP_MERGE: no ream that is due stays behind an edge, a ream
reads the generation of its first edge, and clip counts raise scales from a later launch on (R38, R41, R43, R50, R77,
R157, R404). A command whose event is not due, or whose condition is absent, leaves the state (DESIGN CHOICE, log 2).
-/
def Obligations.Launches : Prop :=
  ∀ (s : State),
    (∃ t, exec .launchEdge s = .next t ∧ t = { s with
        time := t.time, cores := t.cores, clusters := t.clusters, dies := t.dies, canopy := t.canopy
        liveScales := t.liveScales, scaleRaises := t.scaleRaises, trace := t.trace, slots := t.slots
        recorder := t.recorder, freeze := t.freeze, tport := t.tport, dsm := t.dsm, nlus := t.nlus, pools := t.pools
        overhang := t.overhang, host := { t.host with sem := s.host.sem }, tbl := t.tbl, reams := t.reams
        net := t.net, flow := t.flow, rqt := t.rqt, adm := t.adm, grp := t.grp, pwr := t.pwr
        boot := { t.boot with fuses := s.boot.fuses, fuseJob := s.boot.fuseJob }, regs := t.regs
        counters := t.counters, snaps := t.snaps, fresh := t.fresh } ∧ dueReams t = [] ∧
      ∀ (q : W32) (r : Ream), s.host.sched = [] → (∀ c ∈ s.host.protPending, now s < c.due) → dueBatches s = [] →
        dueReams s = [q] → reamOf s q = some r → r.share = none → (∀ k ∈ r.reqs, unjournalled s k = false) →
        s.grp.toManager = false → s.grp.toLeave = false →
        t = { s with
            liveScales := t.liveScales, scaleRaises := t.scaleRaises, trace := t.trace, reams := t.reams
            rqt := t.rqt, pwr := t.pwr, counters := t.counters, fresh := t.fresh } ∧
        reamOf t q = some { r with
          launched := true, entries := [], view := if r.view = 0 then now s else r.view,
          tgen := if r.view = 0 then slotTgen s r.slot else r.tgen, occupied := occupiedCores s r } ∧
        (∀ p, p ≠ q → reamOf t p = reamOf s p) ∧
        (∀ k x, getReq s k = some x → getReq t k = some (if k ∈ r.reqs ∧ x.st = 4 then { x with st := 5 } else x)) ∧
        t.pwr = { s.pwr with late := s.pwr.late ++
          ((reamDoms s r ++ shareLanes s r).eraseDups.filter (fun n => domState s n != 4)).map (fun n => (n, r.launchNs)) } ∧
        -- raises that no ream launched earlier reads past
        t.scaleRaises = s.scaleRaises.filter (fun x => decide (now s ≤ x.at_) ||
          s.reams.any (fun m => m.view != 0 && m.slot == x.slot && decide (m.view ≤ x.at_)))) ∧
    (∀ (dom : DomainId),
      (domState s dom.val ≠ 4 → exec (.lateLaunch dom) s = .next s) ∧
      (domState s dom.val = 4 → ∃ t, exec (.lateLaunch dom) s = .next t ∧ t = { s with
          recorder := t.recorder, pwr := t.pwr, counters := t.counters } ∧
        t.pwr = { s.pwr with late := s.pwr.late.filter (fun p => p.1 != dom.val) } ∧
        countedEach cntLate (s.pwr.late.filter (fun p => p.1 == dom.val)).length s t)) ∧
    (∀ (ream : W32), ream ∈ s.canopy.relaunch →
      ∃ t, exec (.reamRelaunch ream) s = .next t ∧ t = { s with
          time := t.time, cores := t.cores, clusters := t.clusters, dies := t.dies, canopy := t.canopy
          trace := t.trace, slots := t.slots, recorder := t.recorder, freeze := t.freeze, nlus := t.nlus
          pools := t.pools, host := { t.host with sem := s.host.sem }, tbl := t.tbl, reams := t.reams, net := t.net
          rqt := t.rqt, adm := t.adm, grp := t.grp, regs := t.regs, counters := t.counters, snaps := t.snaps
          fresh := t.fresh } ∧ ream ∉ t.canopy.relaunch ∧
        (∀ c i, i ≠ ctxOf ream → getCtx (getCore t c) i = getCtx (getCore s c) i) ∧
        (∀ r, reamOf s ream = some r → r.share = none → r.launched = true →
          reamOf t ream = none ∨
          ∃ r', reamOf t ream = some r' ∧ (∀ im, slotImage s r.slot = some im → r'.rebuild = rebuildCores s ream im) ∧ r'.launched = false ∧ r'.launchNs = nowNs s + launchLead s ∧ r'.view = r.view ∧
            r'.tgen = r.tgen ∧ r'.slot = r.slot ∧ r'.started = [] ∧ (∀ k ∈ r'.reqs, k ∈ r.reqs) ∧ counted (cntFlt 4) 1 s t) ∧
        (∀ r, reamOf s ream = some r → r.share ≠ none → s.grp.toManager = false → reamOf t ream = none)) ∧
    (∀ (d : CDie) (ream : W32) (tensor : BitVec 20) (m : ClipMerge) (x : TensorDesc),
      (getDie s d).merges.find? (fun m => m.ream == ream && m.tensor == tensor) = some m → tensorOf s m.slot tensor = some x →
      x.posts ≤ m.posts →
      let ups := m.blocks.filterMap (fun b =>
        (raiseBlock x (liveScale s m.slot x b.1) (f32 b.2.1) (f32 b.2.2)).map (fun r => (b.1, r)))
      ∃ t, exec (.spineClipMerge d ream tensor) s = .next t ∧ t = { s with
          dies := t.dies, scaleRaises := t.scaleRaises, recorder := t.recorder
          host := { t.host with sem := s.host.sem }, counters := t.counters } ∧
        getDie t d = { getDie s d with
          merges := (getDie s d).merges.filter (fun q => !(q.ream == ream && q.tensor == tensor)), sat := (getDie t d).sat } ∧
        (∀ e, e ≠ d → getDie t e = getDie s e) ∧
        (x.satThresh * m.converted < m.clipped * 65536 → counted (cntObs 6) 1 s t ∧
          (getDie t d).sat = some {
            tensor := tensor, layer := x.layers.headD 0, launchNs := ((reamOf s ream).map (·.launchNs)).getD 0
            share := m.clipped * 65536 / m.converted }) ∧
        (m.clipped * 65536 ≤ x.satThresh * m.converted →
          (getDie t d).sat = (getDie s d).sat ∧ t.recorder = s.recorder ∧ t.counters = s.counters) ∧
        (numericsMode s = 0 ∨ ups = [] → t.scaleRaises = s.scaleRaises) ∧
        (numericsMode s ≠ 0 → ups ≠ [] →
          t.scaleRaises = s.scaleRaises ++ [{ slot := m.slot, tensor := tensor, at_ := now s, scales := ups }]))

/-! ### Group time, registers and HIF_SEM -/

/-- Group time: replicas that disagree, sources and holdover, the pulses, steps, rates and reads, by register and by
TIME_CTL, and the step taken or refused at the next edge (R29 to R34, R37, R54, R352). A command whose event is not
due, or whose condition is absent, leaves the state (DESIGN CHOICE, log 2). The model's choices in logs 68 and 75 bear
on it. -/
def Obligations.GroupTime : Prop :=
  ∀ (s : State),
    -- a measurement of the offset, made on the clock as `u` has it
    let measured (worker : Bool) (ps : Int) (u : TimeState) (t : State) : Prop :=
      let ok := decide (ps.natAbs ≤ 5000)
      let w := if ok then min (u.within + 1) 16 else 0
      let b := if ok then 0 else min (u.beyond + 1) 4
      if u.holdover then t = { s with time := { u with offset := sat32 ps, lastExchange := some (now s) } }
      else t = { s with time := t.time, fresh := t.fresh } ∧ -214748 ≤ t.time.adj ∧ t.time.adj ≤ 214748 ∧
        t.time = { u with
          adj := t.time.adj, offset := sat32 ps, locked := ok, within := w, beyond := b, lastExchange := some (now s)
          aligned := worker && (decide (w = 16) || (!decide (b = 4) && u.aligned)) }
    let holds (t : State) : Prop :=
      t.time = { s.time with holdover := true, locked := false, aligned := false, within := 0, beyond := 0 } ∧
      bit (regW t 0x100004 0) 3 = true ∧ counted (cntObs 6) 1 s t
    let switched (v : Nat) (t : State) : Prop :=
      t.time = { s.time with
        source := v, locked := false, aligned := false, holdover := false, within := 0, beyond := 0
        offset := if v = 0 then 0 else s.time.offset, lastPps := some (now s), lastExchange := some (now s) }
    let refused (v : Nat) : Prop := s.grp.role = 2 ∨ (v = 1 ∧ ¬(s.grp.role = 3 ∧ s.grp.timeAhead = true))
    let steps (target : Nat) : Prop :=
      now s < nsT target ∧ s.host.launch = [] ∧ s.host.protPending = [] ∧ s.boot.switchAt = none ∧
      (∀ p ∈ s.tbl.tables, ∀ c ∈ p.2.queue ++ p.2.staging.toList, c.due ≤ now s) ∧ s.grp.role ≠ 1 ∧ s.grp.role ≠ 2
    let silent : Prop := match s.time.source with
      | 1 => usT 300 ≤ now s - s.time.lastExchange.getD 0
      | 2 => nsT 3000000000 ≤ now s - s.time.lastExchange.getD 0
      | 3 => nsT 1100000000 ≤ now s - s.time.lastPps.getD 0
      | 4 => nsT 1100000000 ≤ now s - s.time.lastPps.getD 0
      | _ => False
    let second : Nat := nsT 1000000000
    let rises : Prop := bit (regW s 0x100034 0) 10 = true ∧ s.time.ppsOut = false ∧
      (s.time.prevGt.toNat / second < now s / second ∨ now s = 0)
    (∀ drift : List (UnitCode × Int),
      (s.time.syncUs = some (nowNs s / 1000) → exec (.gtReplicaSync drift) s = .next s) ∧
      (s.time.syncUs ≠ some (nowNs s / 1000) →
        ∃ (t : State) (rs : List Report), exec (.gtReplicaSync drift) s = .next t ∧ t = { s with
            time := t.time, canopy := t.canopy, fresh := t.fresh } ∧
          t.time = { s.time with replicas := t.time.replicas, syncUs := some (nowNs s / 1000) } ∧
          t.canopy = { s.canopy with transit := s.canopy.transit ++ rs.map (fun r => (reportNode r.reporter, r)) } ∧
          (∀ r ∈ rs, r.code = 0x31 ∧ r.suspect = r.reporter) ∧
          (s.time.replicas.Pairwise (fun a b => a.1 < b.1) → (∀ x ∈ s.time.replicas, x.1 < 65536) → ∀ u : UnitCode,
            let moved : Int := ((drift.filter (fun x => x.1 == u)).map (·.2)).foldl (· + ·) 0
            let d : Int := mapGetD 0 u.toNat s.time.replicas + if hasReplica u then moved else 0
            (d.natAbs ≤ nsT 1 → mapGetD 0 u.toNat t.time.replicas = d ∧ ∀ r ∈ rs, r.suspect ≠ u) ∧
            (nsT 1 < d.natAbs → mapGetD 0 u.toNat t.time.replicas = 0 ∧ ∃ r ∈ rs, r.suspect = u)))) ∧
    (s.time.holdover = false → silent ∨ s.time.source = 3 →
      ∃ t, exec .holdoverEnter s = .next t ∧ t = { s with time := t.time, regs := t.regs, recorder := t.recorder, counters := t.counters } ∧
        regsKeep [regKey 0x100004 0] s t ∧ cntsKeep [cntObs 6, cntObs 7] s t ∧ holds t) ∧
    (s.time.holdover = true ∨ ¬(silent ∨ s.time.source = 3) → exec .holdoverEnter s = .next s) ∧
    (∀ ps : W32,
      (s.time.holdover = true → ¬ silent → ∃ t, exec (.holdoverExit ps) s = .next t ∧
        measured (decide (s.time.source = 1)) ps.toInt { s.time with holdover := false } t) ∧
      (s.time.holdover = false ∨ silent → exec (.holdoverExit ps) s = .next s)) ∧
    ((s.time.source = 3 ∨ s.time.source = 4) → ∃ t, exec .ppsInEdge s = .next t ∧
      measured false (ppsOffset (now s)) { s.time with lastPps := some (now s) } t) ∧
    (s.time.source ≠ 3 → s.time.source ≠ 4 → exec .ppsInEdge s = .next s) ∧
    (rises → ∃ t, exec .ppsOutRise s = .next t ∧ t = { s with time := { s.time with ppsOut := true, ppsRise := now s } }) ∧
    (¬ rises → exec .ppsOutRise s = .next s) ∧
    (s.time.ppsOut = true → s.time.ppsRise + msT (regF s 0x100034 0 9 0) ≤ now s →
      ∃ t, exec .ppsOutFall s = .next t ∧ t = { s with time := { s.time with ppsOut := false } }) ∧
    (∀ (p : HPort) (v : W32), barUp s = true →
      let n := bits v.toNat 2 0
      (holdsSem s p = false → ∃ t, exec (.gtSourceWrite p v) s = .next t ∧ rwsDiscarded p 0x100000 s t) ∧
      (holdsSem s p = true → refused n → ∃ t, exec (.gtSourceWrite p v) s = .next t ∧
        t = { s with regs := t.regs } ∧ regsKeep [regKey 0x100004 0] s t ∧ bit (regW t 0x100004 0) 8 = true) ∧
      (holdsSem s p = true → ¬ refused n → 4 < n → exec (.gtSourceWrite p v) s = .next s) ∧
      (holdsSem s p = true → ¬ refused n → n ≤ 4 → ∃ t, exec (.gtSourceWrite p v) s = .next t ∧
        t = { s with time := t.time } ∧ switched n t)) ∧
    (∀ (p : HPort), barUp s = true →
      let target := regW s 0x100020 0 + 2 ^ 32 * regW s 0x100024 0
      (holdsSem s p = false → ∃ t, exec (.gtStep p) s = .next t ∧ rwsDiscarded p 0x100028 s t) ∧
      (holdsSem s p = true → steps target → ∃ t, exec (.gtStep p) s = .next t ∧
        t = { s with time := { s.time with stepTo := some (BitVec.ofNat 64 target), stepJoin := false } }) ∧
      (holdsSem s p = true → ¬ steps target → ∃ t, exec (.gtStep p) s = .next t ∧
        t = { s with regs := t.regs } ∧ regsKeep [regKey 0x100004 0] s t ∧ bit (regW t 0x100004 0) 4 = true) ∧
      (∃ t, exec (.gtReadCapture p) s = .next t ∧ t = { s with host := { s.host with ports := t.host.ports } } ∧
        getPort t (otherPort p) = getPort s (otherPort p) ∧
        getPort t p = { getPort s p with shadow := (getPort t p).shadow } ∧
        mapGet 0x10000C (getPort t p).shadow = some (nowNs s / 2 ^ 32 % 2 ^ 32) ∧
        mapGet 0x100010 (getPort t p).shadow = some (now s % 2 ^ 32))) ∧
    -- the next quiet-clock edge, which a step on an empty queue makes (DESIGN CHOICE, log 1)
    (s.pending = [] → s.boot.held = false → ∃ t, step s = .next t ∧ t.time.stepTo = none ∧ t.time.prevGt = s.gt ∧
      let on : BitVec 96 := BitVec.ofNat 96 (now s + (10 * 2 ^ 32 + 10 * s.time.adj).toNat)
      (s.time.stepTo = none → t.gt = on) ∧
      (∀ g, s.time.stepTo = some g → s.time.stepJoin = false →
        (steps g.toNat → t.gt = BitVec.ofNat 96 (nsT g.toNat)) ∧ (¬ steps g.toNat → t.gt = on ∧ bit (regW t 0x100004 0) 4 = true))) ∧
    (∀ c, s.boot.configAt = some c → sourceAwaited s = true → s.time.locked = false → c + nsT 30000000000 ≤ now s →
      ∃ t, exec .timeLockTimeout s = .next t ∧ t.boot = { s.boot with timeDone := true } ∧
        t = { s with boot := t.boot, time := t.time, regs := t.regs, recorder := t.recorder, counters := t.counters } ∧
        (s.time.holdover = true → t.time = s.time) ∧ (s.time.holdover = false → holds t)) ∧
    (∀ d s', takeDesc (isTimeCtl 0) s = some (d, s') →
      let v := dNum d 17 1
      (refused v → ∃ t, exec .timeSetSource s = .next t ∧ t = { s with
          time := t.time, host := { t.host with sem := s.host.sem }, regs := t.regs } ∧ t.host.inbox = s'.host.inbox ∧
        completed d stFormat 17 s t ∧ t.time = s.time ∧ bit (regW t 0x100004 0) 8 = true) ∧
      (¬ refused v → ∃ t, exec .timeSetSource s = .next t ∧ t = { s with
          time := t.time, host := { t.host with sem := s.host.sem }, regs := t.regs } ∧ t.host.inbox = s'.host.inbox ∧
        completed d stOk (nowNs s) s t ∧ switched v t)) ∧
    (∀ d s', takeDesc (isTimeCtl 1) s = some (d, s') →
      let i := (BitVec.ofNat 32 (dNum d 20 4)).toInt
      ∃ t, exec .timeSetRate s = .next t ∧ t = { s with
          time := t.time, host := { t.host with sem := s.host.sem }, regs := t.regs } ∧ t.host.inbox = s'.host.inbox ∧
        (s.time.source = 0 → completed d stOk (nowNs s) s t ∧ t.time = { s.time with adj := max (-214748) (min 214748 i) }) ∧
        (s.time.source ≠ 0 → completed d stFormat 20 s t ∧ t.time = s.time)) ∧
    (∀ d s', takeDesc (isTimeCtl 2) s = some (d, s') →
      ∃ t, exec .timeStep s = .next t ∧ t = { s with
          time := t.time, host := { t.host with sem := s.host.sem }, regs := t.regs } ∧ t.host.inbox = s'.host.inbox ∧
        (steps (dNum d 24 8) → completed d stOk (nowNs s) s t ∧
          t.time = { s.time with stepTo := some (BitVec.ofNat 64 (dNum d 24 8)), stepJoin := false }) ∧
        (¬ steps (dNum d 24 8) → completed d stFormat 24 s t ∧ t.time = s.time ∧ bit (regW t 0x100004 0) 4 = true)) ∧
    (∀ d s', takeDesc (isTimeCtl 3) s = some (d, s') →
      ∃ t, exec .timeRead s = .next t ∧ t = { s with
          host := { t.host with sem := s.host.sem }, regs := t.regs } ∧ t.host.inbox = s'.host.inbox ∧ completed d stOk (nowNs s) s t)

/-- REGISTER_WRITE: each field takes what its access code and its listed values allow, and half a 64-bit RWS register
waits for the other (R5 to R7, R294, R322, R331, R336); reads that capture and restart (R54, R124, R413, R424);
PROT_COMMIT (R39, R363); HOST_PORT_RESET (R330). Registers whose write has further effects are stated by their own
rows. A command whose event is not due, or whose condition is absent, leaves the state (DESIGN CHOICE, log 2). The
model's choices in logs 49, 51, 63 and 65 bear on it. -/
def Obligations.Registers : Prop :=
  ∀ (s : State) (p : HPort),
    (∀ (off : BitVec 24) (size8 : Bool) (v : W64) (r : RegRow) (z : Nat),
      let o := normOff off.toNat
      let sem := holdsSem s p
      let ix := regIx s (portIx p) (o - z) r
      let w := if size8 then v.toNat else v.toNat % 2 ^ 32 * 2 ^ (8 * z)
      let mask := if size8 then 2 ^ 64 - 1 else (2 ^ 32 - 1) * 2 ^ (8 * z)
      -- while a gate list's change is pending, its entries, BASE_GT and ADMIN_LEN take no write (R322)
      let gated := gateHeld s r (o - z)
      let open_ := if gated then setBits mask 10 2 0 else mask
      let halved : Prop := r.width = 64 ∧ rwsWritten r (2 ^ 64 - 1) = true ∧ r.base ≠ 0x853010 ∧ size8 = false
      let fields (w mask : Nat) (t : State) : Prop := ∀ f ∈ r.fields,
        bits (regVal t r (o - z) ix) f.hi f.lo = fieldAfter sem (offDie (o - z)) r f mask w (bits (regVal s r (o - z) ix) f.hi f.lo)
      regFind (lineOff o) = some (r, z) → barOpen s off.toNat = true → off.toNat % (if size8 then 8 else 4) = 0 → z < r.width / 8 →
      (size8 = true → r.width = 64 ∧ z = 0 ∧ ownRow r.base 4 = false) → ownRow r.base z = false → setBusy s p r.base = false →
      r.base < 0x10000 ∨ 0x30000 ≤ r.base → r.base ∉ [0x800040, 0x800100, 0x800110, 0x100018, 0x100034, 0x400000, 0x84000C] →
      (gated = true → r.base ≠ 0x852000 → sem = true → exec (.registerWrite p off size8 v) s = .next s) ∧
      ((gated = true → r.base = 0x852000) →
      (¬ halved → ∃ t, exec (.registerWrite p off size8 v) s = .next t ∧ fields w open_ t ∧
        (sem = true ∨ rwsWritten r mask = false → t = { s with regs := t.regs } ∧ regsKeep [regKey (o - z) ix, regKey (o - z + 4) ix] s t) ∧
        (sem = false → rwsWritten r mask = true → ∃ s', rwsDiscarded p off.toNat s s' ∧ t = { s' with regs := t.regs } ∧
          regsKeep [regKey (o - z) ix, regKey (o - z + 4) ix] s' t)) ∧
      (halved → sem = true → z = 0 → ∃ t, exec (.registerWrite p off size8 v) s = .next t ∧
        t = { s with regs := t.regs } ∧ regsKeep [regKey o (stageIx ix)] s t ∧ staged t o ix = some (v.toNat % 2 ^ 32)) ∧
      (halved → sem = true → z = 4 → ∃ t, exec (.registerWrite p off size8 v) s = .next t ∧
        t = { s with regs := t.regs } ∧ staged t (o - 4) ix = none ∧
        regsKeep [regKey (o - 4) (stageIx ix), regKey (o - 4) ix, regKey o ix] s t ∧
        fields (v.toNat % 2 ^ 32 * 2 ^ 32 + (staged s (o - 4) ix).getD (regW s (o - 4) ix)) (2 ^ 64 - 1) t) ∧
      (halved → sem = false → rwsWritten r mask = true →
        ∃ t, exec (.registerWrite p off size8 v) s = .next t ∧ rwsDiscarded p off.toNat s t))) ∧
    (∀ (off : BitVec 24) (size8 : Bool) (v : W64),
      off.toNat % (if size8 then 8 else 4) ≠ 0 ∨ (size8 = false ∧ (regFind (lineOff (normOff off.toNat)) = none ∨ barOpen s off.toNat = false)) →
      exec (.registerWrite p off size8 v) s = .next s) ∧
    (∀ (off : BitVec 24) (v : W64), off.toNat % 8 = 0 → (∀ r, regFind (lineOff (normOff off.toNat)) = some (r, 0) → r.width ≠ 64) →
      ∃ t1 t, exec (.registerWrite p off false v) s = .next t1 ∧ exec (.registerWrite p (off + 4) false (v >>> 32)) t1 = .next t ∧
        exec (.registerWrite p off true v) s = .next t) ∧
    (∀ (off : BitVec 24) (r : RegRow), regFind (lineOff (normOff off.toNat)) = some (r, 0) → r.width = 64 → barOpen s off.toNat = true →
      ∃ t, exec (.shadowRead p off) s = .next t ∧ t = { s with host := { s.host with ports := t.host.ports } } ∧
        getPort t (otherPort p) = getPort s (otherPort p) ∧ getPort t p = { getPort s p with
          shadow := mapSet (normOff off.toNat + 4) (readReg s p r (normOff off.toNat) / 2 ^ 32) (getPort s p).shadow }) ∧
    (barUp s = true →
      (∃ t, exec (.logWordCapture p) s = .next t ∧ t = { s with host := { s.host with ports := t.host.ports } } ∧
        getPort t (otherPort p) = getPort s (otherPort p) ∧
        getPort t p = { getPort s p with logShadow := logRecord s (regW s 0x300024 (portIx p)) }) ∧
      (∃ t, exec .peakRead s = .next t ∧ t = { s with pwr := { s.pwr with peak := 0 } }) ∧
      (∀ v : W32,
        (holdsSem s p = false → ∃ t, exec (.protCommit p v) s = .next t ∧ rwsDiscarded p 0x830 s t) ∧
        (holdsSem s p = true → (∃ c ∈ s.host.protPending, c.port = p) → exec (.protCommit p v) s = .next s) ∧
        (holdsSem s p = true → (∀ c ∈ s.host.protPending, c.port ≠ p) →
          ∃ t, exec (.protCommit p v) s = .next t ∧ t = { s with host := t.host, regs := t.regs, counters := t.counters } ∧
            regsKeep [regKey 0x830 (portIx p)] s t ∧ cntsKeep [cntPast] s t ∧
            t.host = { s.host with protPending := t.host.protPending } ∧
            t.host.protPending = s.host.protPending ++ (if bit v.toNat 6 ∧ tooFar s (regQ s 0x828 (portIx p)) = false then
              [{ port := p, window := bits v.toNat 5 0, content := stagedWindow s p,
                 due := if regQ s 0x828 (portIx p) = 0 then now s + 1 else dueOf s (regQ s 0x828 (portIx p)) }] else [])))) ∧
    (∀ (kind : PortReset), ∃ t, exec (.hostPortReset p kind) s = .next t ∧ t = { s with
        trace := t.trace, freeze := t.freeze, tport := t.tport, host := t.host, pwr := t.pwr, regs := t.regs
        counters := t.counters, fresh := t.fresh } ∧
      getPort t (otherPort p) = getPort s (otherPort p) ∧ (getPort t p).era = (getPort s p).era + 1 ∧
      (getPort t p).linkUp = (decide (kind ≠ .linkLoss) && (getPort s p).linkUp) ∧ (getPort t p).irqs = [] ∧
      t.dsm = s.dsm ∧ (getPort t p).written = (getPort s p).written ∧
      (∀ off, resetsWithPort off = true → off < 2 ^ 24 → staged t off (portIx p) = none) ∧
      (∀ n < 64, bit (regW t (sqOff p n 8) 0) 5 = false ∧ bit (regW t (cqOff p n 8) 0) 5 = false ∧ (getSq t p n).st = 0 ∧
        (getSq t p n).fetched = [] ∧ (getSq t p n).inflight = 0 ∧ (getCq t p n).reserved = 0) ∧
      (∀ off, resetsWithPort off = true → off % 4 = 0 → regW t off (portIx p) = regReset off) ∧
      t.host.protPending = s.host.protPending.filter (fun c => c.port != p) ∧ t.host.inbox = s.host.inbox ∧
      t.host.sem = (if kind ≠ .linkLoss ∧ s.host.sem.owner = some p then { s.host.sem with owner := none, token := 0 } else s.host.sem))

/-- HIF_SEM: REQ takes a free semaphore for 10 ms or renews the port's own lease, REL frees it, every other write is
discarded, and a lease that ends frees it from that edge (R334). Ties of two ports' writes are in RingRegisters. A
command whose event is not due, or whose condition is absent, leaves the state (DESIGN CHOICE, log 2). -/
def Obligations.Semaphore : Prop :=
  ∀ (s : State), s.boot.straps.getLsbD 3 = false →
    ∃ s', exec .semLeaseExpire s = .next s' ∧ s' = { s with host := s'.host, regs := s'.regs } ∧
      s'.host = { s.host with sem := s'.host.sem, ports := s'.host.ports } ∧
      (∀ q, s.host.sem.owner = some q → s.host.sem.leaseEnd ≤ now s →
        s'.host.sem = { s.host.sem with owner := none, token := 0, expiries := min (s.host.sem.expiries + 1) (2 ^ 18 - 1) } ∧
        bit (regW s' 0x210 (portIx q)) 1 = true ∧ regsKeep [regKey 0x210 (portIx q)] s s' ∧
        getPort s' (otherPort q) = getPort s (otherPort q)) ∧
      (s.host.sem.owner = none ∨ now s < s.host.sem.leaseEnd → s' = s) ∧
      ∀ (p : HPort),
        let writes (q : HPort) (i : Instr) : Bool := match i with
          | .semReq a _ => decide (a = q)
          | .semRel a _ => decide (a = q)
          | _ => false
        (s.host.sem.servedEarly = none → s.pending.find? (writes (otherPort p)) = none → ∀ (token : W16),
        let m := s'.host.sem
        let sem (i : Instr) (x : Sem) : Prop := ∃ t, exec i s = .next t ∧ t = { s' with host := { s'.host with sem := x } }
        (token = 0 → exec (.semReq p token) s = .next s ∧ exec (.semRel p token) s = .next s) ∧
        (token ≠ 0 → (m.owner = none ∨ (m.owner = some p ∧ m.token = token.toNat)) →
          sem (.semReq p token) { m with owner := some p, token := token.toNat, leaseEnd := now s + msT 10 }) ∧
        (token ≠ 0 → m.owner ≠ none → ¬ (m.owner = some p ∧ m.token = token.toNat) →
          ∃ t, exec (.semReq p token) s = .next t ∧ rwsDiscarded p 0x100 s' t) ∧
        (token ≠ 0 → m.owner = some p → m.token = token.toNat → sem (.semRel p token) { m with owner := none, token := 0 }) ∧
        (token ≠ 0 → ¬ (m.owner = some p ∧ m.token = token.toNat) →
          ∃ t, exec (.semRel p token) s = .next t ∧ rwsDiscarded p 0x100 s' t))

/-! ### Rings and descriptors -/

/-- The ring registers: doorbells, enabling and disabling, the watched line, the coalescing timer, the HDM decoder, and
ties of HIF_SEM (R332, R335, R337 to R340, R345). Which writes tie is the model's choice (DEDUCED, log 66), and so is
that HIF_EVENT alone shows a bad completion index (DEDUCED, log 31). A command whose event is not due, or whose
condition is absent, leaves the state (DESIGN CHOICE, log 2). The model's choices in log 61 bear on it. -/
def Obligations.RingRegisters : Prop :=
  ∀ (s : State) (p : HPort) (i : RingId),
    let q := getSq s p i.val
    let c := getCq s p i.val
    let ev := regKey 0x210 (portIx p)
    let so := sqOff p i.val 8
    let co := cqOff p i.val 8
    let cfgSet (o mask : Nat) (cfg : W32) (t : State) : Prop := ∀ r, regFind o = some (r, 0) → ∀ f ∈ r.fields, f.lo ≠ 5 →
      regF t o 0 f.hi f.lo = fieldAfter true .n0 r f mask cfg.toNat (regF s o 0 f.hi f.lo)
    let writes (q : HPort) (i : Instr) : Bool := match i with
      | .semReq a _ => decide (a = q)
      | .semRel a _ => decide (a = q)
      | _ => false
    let turned (q : HPort) : State :=
      { s with pending := [], host := { s.host with sem := { s.host.sem with tieFirst := q } } }
    -- ties of HIF_SEM; a write that was served at its tie has no effect at its turn
    (s.boot.straps.getLsbD 3 = false →
      (∀ x, writes p x = true → s.host.sem.servedEarly = some p →
        exec x s = .next { s with host := { s.host with sem := { s.host.sem with servedEarly := none } } }) ∧
      (∀ x y, writes p x = true → s.host.sem.servedEarly = none → s.pending.find? (writes (otherPort p)) = some y →
        (s.host.sem.tieFirst = p → ∃ u, exec x (turned (otherPort p)) = .next u ∧ exec x s = .next { u with pending := s.pending }) ∧
        (s.host.sem.tieFirst ≠ p → ∃ u v, exec y (turned p) = .next u ∧ exec x u = .next v ∧
          exec x s = .next { v with
            pending := s.pending
            host := { v.host with sem := { v.host.sem with servedEarly := some (otherPort p) } } }))) ∧
    (∀ (base size : W64), barUp s = true →
      ∃ t, exec (.hdmCommit p base size) s = .next t ∧ t = { s with host := { s.host with ports := t.host.ports } } ∧
        getPort t (otherPort p) = getPort s (otherPort p) ∧
        getPort t p = { getPort s p with
          hdmBase := base.toNat, hdmSize := size.toNat
          hdmError := decide (¬ (size.toNat % 2 ^ 28 = 0 ∧ size.toNat ≤ 64 * dpaLines)) }) ∧
    (∀ (v : W32),
      let n := bits v.toNat 15 0
      (∃ t, exec (.sqDoorbell p i v) s = .next t ∧ ringFrame p [i.val] [] [ev] s t ∧
        (n < sqSize s p i.val → getSq t p i.val = { q with pi := n } ∧ t.regs = s.regs) ∧
        (sqSize s p i.val ≤ n → getSq t p i.val = { q with pi := n, st := 3, err := 1 } ∧ bit (regW t 0x210 (portIx p)) 2 = true)) ∧
      (∃ t, exec (.cqDoorbell p i v) s = .next t ∧ ringFrame p [] [i.val] [ev] s t ∧
        (n < cqSize s p i.val → t.regs = s.regs ∧ getCq t p i.val = { c with
          head := n, unconsumed := c.unconsumed - (n + cqSize s p i.val - c.head) % cqSize s p i.val }) ∧
        (cqSize s p i.val ≤ n → getCq t p i.val = c ∧ bit (regW t 0x210 (portIx p)) 2 = true))) ∧
    (∀ (flags : Byte), q.st = 1 → bit (regW s so 0) 20 = true →
      ∃ t, exec (.sqLineSnoop p i flags) s = .next t ∧ ringFrame p [i.val] [] [] s t ∧
        getSq t p i.val = { q with watch := some flags }) ∧
    (∀ (cfg : W32),
      (bootStage s < 3 → exec (.sqEnable p i cfg) s = .next s) ∧
      (3 ≤ bootStage s → ∃ t, exec (.sqEnable p i cfg) s = .next t ∧ ringFrame p [i.val] [] [regKey so 0] s t ∧
        bit (regW t so 0) 5 = true ∧
        (bit (regW s so 0) 5 = true → cfgSet so 0x1C0000 cfg t ∧ getSq t p i.val = q) ∧
        (bit (regW s so 0) 5 = false → cfgSet so (2 ^ 32 - 1) cfg t ∧ getSq t p i.val = { q with
          st := 1, err := 0, head := 0, pi := 0, phase := true, fetched := [], watch := none })) ∧
      (∃ t, exec (.sqDisable p i cfg) s = .next t ∧ ringFrame p [i.val] [cqOf t p i.val] [regKey so 0] s t ∧
        bit (regW t so 0) 5 = false ∧ cfgSet so (if bit (regW s so 0) 5 then 0x1C0000 else 2 ^ 32 - 1) cfg t ∧
        getSq t p i.val = { q with
          st := if q.inflight = 0 then 0 else 2, err := 0, fetched := [], watch := none
          head := (q.head + sqSize t p i.val - q.fetched.length % sqSize t p i.val) % sqSize t p i.val
          phase := if q.head < q.fetched.length then !q.phase else q.phase } ∧
        getCq t p (cqOf t p i.val) = { getCq s p (cqOf t p i.val) with
          reserved := (getCq s p (cqOf t p i.val)).reserved - q.fetched.length }) ∧
      (∃ t, exec (.cqEnable p i cfg) s = .next t ∧ ringFrame p [] [i.val] [regKey co 0] s t ∧ bit (regW t co 0) 5 = true ∧
        (bit (regW s co 0) 5 = true → cfgSet co 0xFFFFFFC0 cfg t ∧ getCq t p i.val = c) ∧
        (bit (regW s co 0) 5 = false → cfgSet co (2 ^ 32 - 1) cfg t ∧ getCq t p i.val =
          { tail := 0, head := 0, phase := true, unconsumed := 0, reserved := c.reserved, unsignalled := 0, since := none })) ∧
      -- a completion ring is disabled by REGISTER_WRITE
      (bit (regW s co 0) 5 = true → bit cfg.toNat 5 = false → barOpen s co = true →
        ∃ t, exec (.registerWrite p (BitVec.ofNat 24 co) false (cfg.setWidth 64)) s = .next t ∧ ringFrame p [] [] [regKey co 0] s t ∧
          bit (regW t co 0) 5 = false)) ∧
    (q.st = 2 → q.inflight = 0 → ∃ t, exec (.sqStopped p i) s = .next t ∧ ringFrame p [i.val] [] [] s t ∧
      getSq t p i.val = { q with st := 0 }) ∧
    (∀ g, c.since = some g →
      let cfg := regW s co 0
      bits cfg 31 20 ≠ 0 → bits cfg 13 6 ≠ 0 → g + usT (bits cfg 31 20) ≤ now s →
      ∃ t, exec (.cqCoalesceTimer p i) s = .next t ∧ ringFrame p [] [i.val] [] s t ∧
        getCq t p i.val = { c with unsignalled := 0, since := none } ∧
        (getPort t p).irqs = mapSet (bits cfg 13 6) (mapGetD 0 (bits cfg 13 6) (getPort s p).irqs + 1) (getPort s p).irqs)

/-- DESCRIPTOR_FETCH, DESCRIPTOR_ACCEPT and INFER: the ring served takes its next line with a completion slot reserved;
an accepted descriptor is stamped, checked in order and handed to its unit with its launch-table entries, or ends with
the status of the first check it fails (R338, R340 to R346, R351, R362). The model's choices in logs 33, 61 and 64 bear
on it. -/
def Obligations.Descriptors : Prop :=
  ∀ (s : State) (p : HPort) (i : RingId),
    let q := getSq s p i.val
    let ci := cqOf s p i.val
    let wrap := q.head + 1 == sqSize s p i.val
    let watched := bit (regW s (sqOff p i.val 8) 0) 20
    (∀ (line : Option Bytes), (getPort s p).linkUp = true → canFetch s p i.val true = true → fetchTurn s p i.val = true →
      (line = none → ∃ t, exec (.descriptorFetch p i line) s = .next t ∧ ringFrame p [i.val] [] [regKey 0x210 (portIx p)] s t ∧
        getSq t p i.val = { q with st := 3, err := 2 } ∧ bit (regW t 0x210 (portIx p)) 2 = true) ∧
      (∀ bs, line = some bs → bs.length = 64 →
        let other := watched && bit (bs.getD 1 0).toNat 7 != q.phase
        (other = true → ∃ t, exec (.descriptorFetch p i line) s = .next t ∧ ringFrame p [i.val] [] [] s t ∧
          getSq t p i.val = { q with watch := some (bs.getD 1 0) }) ∧
        (other = false → ∃ t, exec (.descriptorFetch p i line) s = .next t ∧ ringFrame p [i.val] [ci] [] s t ∧
          getSq t p i.val = { q with
            head := if wrap then 0 else q.head + 1, phase := if wrap then !q.phase else q.phase
            fetched := q.fetched ++ [bs], watch := none } ∧
          getCq t p ci = { getCq s p ci with reserved := (getCq s p ci).reserved + 1 } ∧
          mapGet (sqPrio s p i.val) (getPort t p).lastRing = some i.val))) ∧
    (∀ (bs : Bytes) (rest : List Bytes), q.fetched = bs :: rest → (bit (bNum bs 1 1) 0 = true → q.inflight = 0) →
      let s1 := setSq p i.val { q with fetched := rest, inflight := q.inflight + 1 } s
      let win := mapGetD ProtWin.closed (regF s (sqOff p i.val 8) 0 17 12) s.host.prot
      let load := bNum bs 0 1 == 1
      ∃ t sub, exec (.descriptorAccept p i) s = .next t ∧ t = { s with
          host := { t.host with sem := s.host.sem }, regs := t.regs, counters := t.counters, fresh := t.fresh } ∧ t.host.accepted = s.host.accepted + 1 ∧
        let d : Desc :=
          { port := p, ring := i, bytes := bs, due := dueOf s (bNum bs 8 8), protGen := s.host.protGen % 256, stampNs := nowNs s,
            sub := sub, seq := acceptKey (nowNs s) sub (portIx p) i.val s.host.accepted, era := (getPort s p).era, entries := []
            minSigs := if load then regF s 0x608060 0 2 0 else 0, keys := if load then s.boot.cust.toList else [] }
        let ends (c : Prop) : Prop := c ∧ t.host.inbox = s.host.inbox ∧ cntGet t cntPast = cntGet s cntPast
        -- the inbox stands in the order of stamps, H0 before H1 and the lower ring first (R342)
        let entered (d : Desc) : Prop := t.host.inbox =
          s.host.inbox.filter (fun x => decide (x.seq ≤ d.seq)) ++ [d] ++ s.host.inbox.filter (fun x => decide (d.seq < x.seq))
        let known : Prop := dOp d ≠ 0 ∧ dOp d ≤ 12
        sub < 64 ∧ (¬ known → ends (completed d stFormat 0 s1 t)) ∧
        (∀ o, known → reservedBad bs = some o → ends (completed d stFormat o s1 t)) ∧
        (known → reservedBad bs = none →
          (windowPasses win d = false → ends (completedBare d stProtection s1 t)) ∧
          (windowPasses win d = true →
            (∀ o, operandBad s d = some o → ends (completed d stFormat o s1 t)) ∧
            (operandBad s d = none → dLaunch d = 0 → entered d ∧ getSq t p i.val = getSq s1 p i.val) ∧
            (operandBad s d = none → dLaunch d ≠ 0 →
              (allocLaunch (descDies s d) (dLaunch d) s = none → ends (completedBare d stBusy s1 t)) ∧
              (∀ es s2, allocLaunch (descDies s d) (dLaunch d) s = some (es, s2) →
                entered { d with entries := es } ∧ countedEach cntPast (b2n (decide (nsT (dLaunch d) ≤ now s))) s t ∧ getSq t p i.val = getSq s1 p i.val ∧
                ∀ e ∈ es, mapGet e t.host.launch = some (dLaunch d)))))) ∧
    (∀ (body : Bytes) (d : Desc) (rest : List Desc),
      let away : Bool := s.grp.role == 2 || s.grp.role == 3
      takeFirst (fun d => dOp d == 5 && (away || descDue s d) && dNum d 32 4 == body.length) s.host.inbox = some (d, rest) →
      let die := portDie d.port
      let r := inferReq d body
      let gone (status : Nat) (t : State) : Prop := t.adm = s.adm ∧ t.rqt = s.rqt ∧
        if 64 ≤ dNum d 48 4 then completed d status (r.deadline % 2 ^ 32 * 2 ^ 32) s t
        else completed d stFormat (r.deadline % 2 ^ 32 * 2 ^ 32) s t
      ∃ t, exec (.infer body) s = .next t ∧ t = { s with
          trace := t.trace, host := { t.host with sem := s.host.sem }, rqt := t.rqt, adm := t.adm, regs := t.regs
          counters := t.counters, fresh := t.fresh } ∧ t.host.inbox = rest ∧
        (away = true → completedBare d stFormat s t ∧ t.rqt = s.rqt) ∧
        (away = false →
          (unitActive s (ucNet .n0) = false → gone stShed t) ∧
          (unitActive s (ucNet .n0) = true →
            (freeReq s die = none → gone stBusy t ∧ counted (cntRqt (dieIx die) 1) 1 s t) ∧
            (∀ k, freeReq s die = some k → counted (cntRqt (dieIx die) 0) 1 s t ∧
              t.adm = { s.adm with offers := t.adm.offers, offered := s.adm.offered + 1 } ∧ offeredAs k r s t ∧ ∀ j, j ≠ k → getReq t j = getReq s j))))

/-! ### Model slots and configuration -/

/-- LOAD_IMAGE, LOAD_IMAGE_END, ACTIVATE_SLOT, STAND_RELOAD_END, SLOT_DRAINED and SEGMENT_MOVE: a load ends by the
first check it fails and leaves the slot as it was, or fills it; a switch seals the open reams and drains the slot it
leaves (R41, R174 to R176, R347, R348, R353 to R356, R447, R448, R487 to R489). A command whose event is not due, or
whose condition is absent, leaves the state (DESIGN CHOICE, log 2). The model's choices in logs 9, 28, 58, 60, 111 and
113 bear on it. -/
def Obligations.ModelSlots : Prop :=
  ∀ (s : State),
    let switched (sl : SlotId) (t : State) : Prop := (getSlot t sl.val).st = 3 ∧ (getSlot t sl.val).image = (getSlot s sl.val).image ∧
      ∀ j : SlotId, j ≠ sl → (getSlot t j.val).st = if (getSlot s j.val).st = 3 then 4 else (getSlot s j.val).st
    (∀ d s', takeDesc (fun d => dOp d == 1) s = some (d, s') →
      let sl := dSlot d
      let x := getSlot s sl.val
      let others (t : State) : Prop := ∀ j : SlotId, j ≠ sl → getSlot t j.val = getSlot s j.val
      ∃ t, exec .loadImage s = .next t ∧ t = { s with
          cores := t.cores, canopy := t.canopy, liveScales := t.liveScales, scaleRaises := t.scaleRaises
          slots := t.slots, dsm := t.dsm, nlus := t.nlus, overhang := t.overhang
          host := { t.host with sem := s.host.sem }, tbl := t.tbl, adm := t.adm, pwr := t.pwr, regs := t.regs
          counters := t.counters, fresh := t.fresh } ∧ t.host.inbox = s'.host.inbox ∧ others t ∧
        (x.st ≠ 0 → x.st ≠ 2 → completedBare d stStale s t ∧ t.slots = s.slots) ∧
        (x.st = 0 ∨ x.st = 2 → dNum d 32 8 = 0 → completedBare d stOk (clearSlot sl s') t ∧ getSlot t sl.val = Slot.empty ∧
          ∀ p ∈ t.dsm.regions, p.2.owned = true → p.2.slot ≠ sl) ∧
        (x.st = 0 ∨ x.st = 2 → dNum d 32 8 ≠ 0 → getSlot t sl.val = { x with st := 1 } ∧
          mapGet sl.val t.host.loads = some { desc := d, prev := x.st } ∧ t.host.ports = s.host.ports)) ∧
    (∀ (slot : SlotId) (env content : Bytes) (img : Image) (l : Load), mapGet slot.val s.host.loads = some l →
      let d := l.desc
      let size := dNum d 32 8
      let x := getSlot s slot.val
      let s1 := setSlot slot.val { x with st := l.prev } { s with host := { s.host with loads := mapDel slot.val s.host.loads } }
      let sums := signCount env (Config.sha384 content) d.keys
      let s2 := addCnt (cntSec 2) sums.2.2 (addCnt (cntSec 1) sums.2.1 s1)
      let kept (t : State) : Prop := getSlot t slot.val = { x with st := l.prev } ∧
        t = { s with slots := t.slots, host := { t.host with sem := s.host.sem }, regs := t.regs, counters := t.counters, fresh := t.fresh }
      env.length = min 1024 size → content.length = size - 1024 →
      ∃ t, exec (.loadImageEnd slot env content img) s = .next t ∧ t = { s with
          cores := t.cores, canopy := t.canopy, liveScales := t.liveScales, scaleRaises := t.scaleRaises
          slots := t.slots, recorder := t.recorder, dsm := t.dsm, nlus := t.nlus, overhang := t.overhang
          host := { t.host with sem := s.host.sem }, tbl := t.tbl, adm := t.adm, pwr := t.pwr, regs := t.regs
          counters := t.counters, fresh := t.fresh } ∧ mapGet slot.val t.host.loads = none ∧
        (∀ j : SlotId, j ≠ slot → getSlot t j.val = getSlot s j.val) ∧
        (∀ o, envBad env size = some o → completed d stFormat o s t ∧ kept t) ∧
        (envBad env size = none →
          (Config.sha384 content ≠ (env.drop 16).take 48 → completedBare d stSignature s t ∧ kept t ∧ counted (cntSec 0) 1 s t) ∧
          (Config.sha384 content = (env.drop 16).take 48 →
            (sums.1.length < d.minSigs → completedBare d stSignature s t ∧ kept t ∧ counted (cntSec 3) 1 s t) ∧
            (d.minSigs ≤ sums.1.length →
              counted (cntSec 1) sums.2.1 s t ∧ counted (cntSec 2) sums.2.2 s t ∧
              match contentCheck slot d img (placeStands slot img s2).1 (clearSlot slot s2) with
              | (0, _) => completed d stOk (leNat ((Config.sha384 content).take 8)) (clearSlot slot s2) t ∧
                  getSlot t slot.val =
                    { st := 2, image := some img, hash := Config.sha384 content, bound := 0, reload := false
                      signers := (sums.1.map (fun k => 2 ^ k)).foldl (· + ·) 0 }
              | (st, some r) => completed d st r s t ∧ kept t
              | (st, none) => completedBare d st s t ∧ kept t)))) ∧
    (∀ d s', takeDescAny (fun d => dOp d == 2) s = some (d, s') →
      let sl := dSlot d
      let x := getSlot s sl.val
      let ready : Prop := x.reload = false ∧ ∀ im, x.image = some im → x.st = 2 → standsHeld s sl im = true
      ∃ t, exec .activateSlot s = .next t ∧ t = { s with
          cores := t.cores, clusters := t.clusters, dies := t.dies, canopy := t.canopy, liveScales := t.liveScales
          scaleRaises := t.scaleRaises, trace := t.trace, slots := t.slots, recorder := t.recorder, dsm := t.dsm
          nlus := t.nlus, overhang := t.overhang, host := { t.host with sem := s.host.sem }, reams := t.reams
          net := t.net, rqt := t.rqt, adm := t.adm, grp := t.grp, pwr := t.pwr, regs := t.regs
          counters := t.counters, fresh := t.fresh } ∧
        (canActivate s d = false → completedBare d stStale s t ∧ t.slots = s.slots ∧ t.host.inbox = s'.host.inbox) ∧
        (canActivate s d = true →
          (∀ n t', beginReload sl s' = (n, t') → n ≠ 0 → completed d stCapacity n s t ∧ t.slots = s.slots) ∧
          (ready → d.due ≠ 0 →
            t = { s' with host := { s'.host with sched := s'.host.sched ++ [{ desc := d, kind := .activate sl }] } }) ∧
          (ready → d.due = 0 → x.st = 3 → completed d stOk (nowNs s) s t ∧ t.slots = s.slots) ∧
          (ready → d.due = 0 → x.st ≠ 3 → switched sl t ∧
            (∀ m ∈ t.reams, m.share = none → m.sealed_ = true ∨ (windowPassed s = true ∧ windowOf s (nowNs s) ≤ m.window)) ∧
            (∀ k, dLaunch d ≠ 0 → flowCluster s sl = some k → domState s (domCluster k) ≠ 4 → (domCluster k, dLaunch d) ∈ t.pwr.late) ∧
            ∀ k ∈ t.liveScales, k.slot ≠ sl))) ∧
    -- at the edge of a lone activation
    (∀ d : Desc, s.host.sched = [{ desc := d, kind := .activate (dSlot d) }] → d.due ≤ now s → (∀ p ∈ s.host.protPending, now s < p.due) →
      dueBatches s = [] → dueReams s = [] → s.grp.toManager = false → s.grp.toLeave = false → canActivate s d = true →
      (getSlot s (dSlot d).val).reload = false → (∀ im, (getSlot s (dSlot d).val).image = some im → (getSlot s (dSlot d).val).st = 2 →
        standsHeld s (dSlot d) im = true) →
      ∃ t, exec .launchEdge s = .next t ∧ t = { s with
          time := t.time, cores := t.cores, clusters := t.clusters, dies := t.dies, canopy := t.canopy
          liveScales := t.liveScales, scaleRaises := t.scaleRaises, trace := t.trace, slots := t.slots
          recorder := t.recorder, freeze := t.freeze, tport := t.tport, dsm := t.dsm, nlus := t.nlus
          pools := t.pools, overhang := t.overhang, host := { t.host with sem := s.host.sem }, tbl := t.tbl
          reams := t.reams, net := t.net, flow := t.flow, rqt := t.rqt, adm := t.adm, grp := t.grp, pwr := t.pwr
          boot := { t.boot with fuses := s.boot.fuses, fuseJob := s.boot.fuseJob }, regs := t.regs
          counters := t.counters, snaps := t.snaps, fresh := t.fresh } ∧
        ((getSlot s (dSlot d).val).st = 3 → completed d stOk (nowNs s) s t ∧ t.slots = s.slots) ∧
        ((getSlot s (dSlot d).val).st ≠ 3 → switched (dSlot d) t)) ∧
    (∀ (slot : SlotId),
      let s1 := setSlot slot.val { getSlot s slot.val with reload := false } s
      ((getSlot s slot.val).reload = false → exec (.standReloadEnd slot) s = .next s) ∧
      ((getSlot s slot.val).reload = true → ∃ t, exec (.standReloadEnd slot) s = .next t ∧ t = { s with
          cores := t.cores, clusters := t.clusters, dies := t.dies, canopy := t.canopy, liveScales := t.liveScales
          scaleRaises := t.scaleRaises, trace := t.trace, slots := t.slots, recorder := t.recorder, dsm := t.dsm
          nlus := t.nlus, overhang := t.overhang, host := { t.host with sem := s.host.sem }, reams := t.reams
          net := t.net, rqt := t.rqt, adm := t.adm, grp := t.grp, pwr := t.pwr, regs := t.regs
          counters := t.counters, fresh := t.fresh } ∧
        (dueSwitches s1 = [] → t = s1) ∧
        (∀ x, dueSwitches s1 = [x] → x.kind = .activate (dSlot x.desc) → canActivate s1 x.desc = true → (getSlot s (dSlot x.desc).val).st = 3 →
          completed x.desc stOk (nowNs s) s t)) ∧
      (slotSamples s slot = true → exec (.slotDrained slot) s = .next s) ∧
      ((getSlot s slot.val).st = 4 → (getSlot s slot.val).bound = 0 → (∀ r ∈ (endReams s).reams, r.slot ≠ slot) → slotSamples s slot = false →
        ∃ t, exec (.slotDrained slot) s = .next t ∧ t = { s with
            cores := t.cores, slots := t.slots, host := { t.host with sem := s.host.sem }, reams := t.reams
            regs := t.regs, fresh := t.fresh } ∧
          getSlot t slot.val = { getSlot s slot.val with st := 2 } ∧ (∀ j : SlotId, j ≠ slot → getSlot t j.val = getSlot s j.val) ∧
          t.reams = (endReams s).reams ∧ (∀ c, ∀ p ∈ (getCore t c).te.segs, p.2.slot ≠ slot) ∧
          (∀ c, getCore t c = { getCore s c with te := { (getCore s c).te with segs := (getCore t c).te.segs } }))) ∧
    (∀ (c : CoreId) (n : Nat) (e : SegEntry),
      (getCore s c).te.segs.find? (fun p => (standOf s p.2.slot p.2.stand).isNone || (moveTarget s c p.2).isSome) = some (n, e) →
      let left : List (Nat × SegEntry) := mapDel n (getCore s c).te.segs
      (standOf s e.slot e.stand = none → ∃ t, exec (.segmentMove c) s = .next t ∧ t = { s with cores := t.cores } ∧ coreFrame c s t ∧
        getCore t c = { getCore s c with te := { (getCore s c).te with segs := left } }) ∧
      (∀ (o : StandObj) (j : CoreId) (ws : List (W64 × Bool)) (s2 : State), standOf s e.slot e.stand = some o →
        segCore s o e.seg = j.val → j ≠ c → coreActive s j.val = true → segWords e.slot o e.seg s = (ws, s2) →
        (holdSeg { e with base := 0 } ws (getCore s j).te = none → exec (.segmentMove c) s = .next s2) ∧
        (∀ te, holdSeg { e with base := 0 } ws (getCore s j).te = some te →
          ∃ t, exec (.segmentMove c) s = .next t ∧ t = { s2 with cores := t.cores } ∧
            (∀ d, d ≠ c → d ≠ j → getCore t d = getCore s d) ∧
            getCore t c = { getCore s c with te := { (getCore s c).te with segs := left, stream := owedSamples t (getCore t c) } } ∧
            getCore t j = { getCore s j with te := { te with stream := owedSamples t (getCore t j) } })))

/-- OVERLAY_STORE, OVERLAY_APPLY_SET, REPLACE_BCB, CONFIG_LOAD and CONFIG_COPY_WRITE: a change that fails a check
changes nothing; one whose launch edge has come takes the whole configuration into effect at once and counts a
generation (R349, R357, R359 to R361, R364, R436). The model's choices in logs 44, 45 and 46 bear on it. -/
def Obligations.Configuration : Prop :=
  ∀ (s : State),
    let c := s.host.cfg
    let g := (c.gen + 1) % 2 ^ 32
    let same (t : State) : Prop := t = { s with
      host := { t.host with sem := s.host.sem, cfg := c }, regs := t.regs, fresh := t.fresh }
    let takes (d : Desc) (c' : Cfg) (u t : State) : Prop :=
      t.host.cfg.gen = g ∧ t.host.cfg.stored = c'.stored ∧ t.host.cfg.applied = c'.applied ∧ t.host.cfg.bcb = c'.bcb ∧
      (∀ f ∈ effFields c' u, mapGet f.1 t.host.cfg.fields = some f.2) ∧ t.boot.cfgDirty = true ∧
      bit (regW t 0x210 0) 3 = true ∧ bit (regW t 0x210 1) 3 = true ∧
      (mapGet 1 (effFields c' u) = none ∨ mapGet 1 (effFields c' u) = some (cfgField u 1 0) →
        completed d stOk g (takeFields c' u) t ∧ t.grp.role = (takeFields c' u).grp.role)
    let free (exp : Nat) : Prop := exp = 0xFFFFFFFF ∨ exp = c.gen
    -- what a change does at once, or at its launch edge, in a state that no longer holds its descriptor
    let storing (d : Desc) (n : Nat) (bytes : Bytes) (u t : State) : Prop :=
      let c' : Cfg := { c with stored := mapSet n bytes c.stored }
      (¬ free (dNum d 20 4) → completedBare d stStale s t ∧ same t) ∧
      (free (dNum d 20 4) →
        (bit c.applied n = false → completed d stOk c.gen s t ∧ t.host.cfg = c') ∧
        (bit c.applied n = true → roleRefused c' u = true → completed d stFormat (roleAt true bytes u) s t ∧ same t) ∧
        (bit c.applied n = true → roleRefused c' u = false → takes d c' u t))
    let applying (d : Desc) (mask : Nat) (u t : State) : Prop :=
      let c' : Cfg := { c with applied := mask }
      let whole : Prop := ∀ n < 16, bit mask n = true → mapGet n c.stored ≠ none
      (¬ free (dNum d 20 4) → completedBare d stStale s t ∧ same t) ∧
      (free (dNum d 20 4) →
        (¬ whole → completed d stFormat 18 s t ∧ same t) ∧
        (whole → roleRefused c' u = true → completed d stFormat 18 s t ∧ same t) ∧
        (whole → roleRefused c' u = false → takes d c' u t))
    let replacing (d : Desc) (bytes : Bytes) (u t : State) : Prop :=
      let c' : Cfg := { c with bcb := some bytes }
      (¬ free (dNum d 20 4) → completedBare d stStale s t ∧ same t) ∧
      (free (dNum d 20 4) →
        (∀ o, parseBlock false none bytes.length bytes u = .error o → completed d stFormat o s t ∧ same t) ∧
        (∀ b, parseBlock false none bytes.length bytes u = .ok b →
          (∀ st r, bcbCheck (dLaunch d) b u = (st, r) → st ≠ stOk → completed d st r s t ∧ same t) ∧
          ((bcbCheck (dLaunch d) b u).1 = stOk → roleRefused c' u = true → completed d stFormat (roleAt false bytes u) s t ∧ same t) ∧
          ((bcbCheck (dLaunch d) b u).1 = stOk → roleRefused c' u = false → takes d c' (placeBcb b u) t)))
    let held (u : State) (d : Desc) (k : SchedKind) : State :=
      { u with host := { u.host with sched := u.host.sched ++ [{ desc := d, kind := k }] } }
    -- at the edge of a lone change
    (∀ x : Sched, s.host.sched = [x] → x.desc.due ≤ now s → (∀ p ∈ s.host.protPending, now s < p.due) → dueBatches s = [] →
      dueReams s = [] → s.grp.toManager = false → s.grp.toLeave = false →
      let u : State := { s with host := { s.host with sched := [] } }
      ∃ t, exec .launchEdge s = .next t ∧ t = { s with
          time := t.time, cores := t.cores, clusters := t.clusters, dies := t.dies, canopy := t.canopy
          liveScales := t.liveScales, scaleRaises := t.scaleRaises, trace := t.trace, slots := t.slots
          recorder := t.recorder, freeze := t.freeze, tport := t.tport, dsm := t.dsm, nlus := t.nlus
          pools := t.pools, overhang := t.overhang, host := { t.host with sem := s.host.sem }, tbl := t.tbl
          reams := t.reams, net := t.net, flow := t.flow, rqt := t.rqt, adm := t.adm, grp := t.grp, pwr := t.pwr
          boot := { t.boot with fuses := s.boot.fuses, fuseJob := s.boot.fuseJob }, regs := t.regs
          counters := t.counters, snaps := t.snaps, fresh := t.fresh } ∧ (∀ n bytes, x.kind = .store n bytes → storing x.desc n bytes u t) ∧
        (∀ mask, x.kind = .applySet mask → applying x.desc mask u t) ∧ (∀ bytes, x.kind = .bcb bytes → replacing x.desc bytes u t)) ∧
    (∀ block d s', takeDescAny (isOverlay 0) s = some (d, s') →
      let n := dNum d 17 1
      let bytes := block.take (dNum d 32 4)
      ∃ t, exec (.overlayStore block) s = .next t ∧ t = { s with
          time := t.time, cores := t.cores, clusters := t.clusters, dies := t.dies, canopy := t.canopy
          liveScales := t.liveScales, scaleRaises := t.scaleRaises, trace := t.trace, slots := t.slots
          recorder := t.recorder, freeze := t.freeze, tport := t.tport, dsm := t.dsm, nlus := t.nlus
          pools := t.pools, overhang := t.overhang, host := { t.host with sem := s.host.sem }, tbl := t.tbl
          reams := t.reams, net := t.net, flow := t.flow, rqt := t.rqt, adm := t.adm, grp := t.grp, pwr := t.pwr
          boot := { t.boot with fuses := s.boot.fuses, fuseJob := s.boot.fuseJob }, regs := t.regs
          counters := t.counters, fresh := t.fresh } ∧
        (15 < n → completed d stFormat 17 s t ∧ same t) ∧
        (∀ o, n ≤ 15 → parseBlock true (some n) (dNum d 32 4) block s' = .error o → completed d stFormat o s t ∧ same t) ∧
        (∀ b, n ≤ 15 → parseBlock true (some n) (dNum d 32 4) block s' = .ok b →
          (d.due ≠ 0 → t = held s' d (.store n bytes)) ∧ (d.due = 0 → storing d n bytes s' t))) ∧
    (∀ d s', takeDescAny (isOverlay 1) s = some (d, s') →
      ∃ t, exec .overlayApplySet s = .next t ∧ t = { s with
          time := t.time, cores := t.cores, clusters := t.clusters, dies := t.dies, canopy := t.canopy
          liveScales := t.liveScales, scaleRaises := t.scaleRaises, trace := t.trace, slots := t.slots
          recorder := t.recorder, freeze := t.freeze, tport := t.tport, dsm := t.dsm, nlus := t.nlus
          pools := t.pools, overhang := t.overhang, host := { t.host with sem := s.host.sem }, tbl := t.tbl
          reams := t.reams, net := t.net, flow := t.flow, rqt := t.rqt, adm := t.adm, grp := t.grp, pwr := t.pwr
          boot := { t.boot with fuses := s.boot.fuses, fuseJob := s.boot.fuseJob }, regs := t.regs
          counters := t.counters, fresh := t.fresh } ∧
        (d.due ≠ 0 → t = held s' d (.applySet (dNum d 18 2))) ∧ (d.due = 0 → applying d (dNum d 18 2) s' t)) ∧
    (∀ block d s', takeDescAny (isOverlay 2) s = some (d, s') →
      let bytes := block.take (dNum d 32 4)
      ∃ t, exec (.replaceBcb block) s = .next t ∧ t = { s with
          time := t.time, cores := t.cores, clusters := t.clusters, dies := t.dies, canopy := t.canopy
          liveScales := t.liveScales, scaleRaises := t.scaleRaises, trace := t.trace, slots := t.slots
          recorder := t.recorder, freeze := t.freeze, tport := t.tport, dsm := t.dsm, nlus := t.nlus
          pools := t.pools, overhang := t.overhang, host := { t.host with sem := s.host.sem }, tbl := t.tbl
          reams := t.reams, net := t.net, flow := t.flow, rqt := t.rqt, adm := t.adm, grp := t.grp, pwr := t.pwr
          boot := { t.boot with fuses := s.boot.fuses, fuseJob := s.boot.fuseJob }, regs := t.regs
          counters := t.counters, fresh := t.fresh } ∧
        (∀ o, parseBlock false none (dNum d 32 4) block s' = .error o → completed d stFormat o s t ∧ same t) ∧
        (∀ b, parseBlock false none (dNum d 32 4) block s' = .ok b →
          (d.due ≠ 0 → t = held s' d (.bcb bytes)) ∧ (d.due = 0 → replacing d bytes s' t))) ∧
    (s.boot.filled = true → bootStage s = 2 →
      ∃ t, exec .configLoad s = .next t ∧ t = { s with
          time := t.time, cores := t.cores, clusters := t.clusters, dies := t.dies, canopy := t.canopy
          liveScales := t.liveScales, scaleRaises := t.scaleRaises, trace := t.trace, slots := t.slots
          recorder := t.recorder, freeze := t.freeze, tport := t.tport, dsm := t.dsm, nlus := t.nlus
          overhang := t.overhang, host := { t.host with sem := s.host.sem }, tbl := t.tbl, reams := t.reams
          net := t.net, flow := t.flow, rqt := t.rqt, adm := t.adm, grp := t.grp, pwr := t.pwr
          boot := { t.boot with fuses := s.boot.fuses, fuseJob := s.boot.fuseJob }, regs := t.regs
          counters := t.counters, fresh := t.fresh } ∧ t.boot.configAt = some (now s) ∧
        ((∀ x ∈ s.boot.flash.cfg.toList, cfgCopyOk s x = false) →
          t.host.cfg = c ∧ bootStage t = 3 ∧ bit (regW t 0x600000 0) 4 = true) ∧
        (∀ x ∈ s.boot.flash.cfg.toList, cfgCopyOk s x = true →
          ∃ y ∈ s.boot.flash.cfg.toList, cfgCopyOk s y = true ∧ x.seq ≤ y.seq ∧ t.host.cfg.bcb = y.bcb ∧
            t.host.cfg.stored = y.stored ∧ t.host.cfg.applied = y.applied ∧ t.host.cfg.gen = c.gen)) ∧
    (s.boot.fwUp = true → s.boot.cfgDirty = true →
      let a := (s.boot.flash.cfg.toList.map (·.seq)).getD 0 0
      let b := (s.boot.flash.cfg.toList.map (·.seq)).getD 1 0
      let new : CfgCopy := { seq := max a b + 1, bcb := c.bcb, stored := c.stored, applied := c.applied, crcOk := true }
      let flash := { s.boot.flash with cfg := famSet s.boot.flash.cfg (if a ≤ b then 0 else 1) new }
      ∃ t, exec .configCopyWrite s = .next t ∧ t = { s with boot := { s.boot with cfgDirty := false, flash := flash } })

/-! ### Observation -/

/-- DUMP_ARM, DUMP_COPY, DUMP_COPY_END and DUMP_DISARM (R350, R462 to R465). What counts as an occurrence of a part is
the model's reading (DEDUCED, log 36). A command whose event is not due, or whose condition is absent, leaves the state
(DESIGN CHOICE, log 2). -/
def Obligations.Dumps : Prop :=
  ∀ (s : State),
    (∀ d s', takeDesc (fun d => dOp d == 6 && !dDisarm d) s = some (d, s') →
      let found := (activeSlot s).bind (fun sl => (tensorOf s sl (BitVec.ofNat 20 (dNum d 20 4))).map (fun t => (sl, t)))
      ∃ t, exec .dumpArm s = .next t ∧ t = { s with
          host := { t.host with sem := s.host.sem }, regs := t.regs, fresh := t.fresh } ∧ t.host.inbox = s'.host.inbox ∧
        (∀ p, mapGet (dPoint d) s.host.dumps = some p → completedBare d stBusy s t ∧ t.host.dumps = s.host.dumps) ∧
        (mapGet (dPoint d) s.host.dumps = none →
          (found = none → completedBare d stNotFound s t ∧ t.host.dumps = s.host.dumps) ∧
          (∀ sl x, found = some (sl, x) →
            (dLayer d ∉ x.layers → completedBare d stNotFound s t ∧ t.host.dumps = s.host.dumps) ∧
            (dLayer d ∈ x.layers → dNum d 48 4 < dumpLen x.parts →
              completed d stFormat (dumpLen x.parts) s t ∧ t.host.dumps = s.host.dumps) ∧
            (dLayer d ∈ x.layers → dumpLen x.parts ≤ dNum d 48 4 → t.host.ports = s.host.ports ∧
              (∀ n, n ≠ dPoint d → mapGet n t.host.dumps = mapGet n s.host.dumps) ∧
              ∃ p, mapGet (dPoint d) t.host.dumps = some p ∧ p.desc = d ∧ p.slot = sl ∧
                p.tensor = BitVec.ofNat 20 (dNum d 20 4) ∧ p.since = now s ∧ p.seen = 0 ∧ p.ream = none ∧ p.copied = [] ∧
                p.disarmed = false)))) ∧
    (∀ (point : Fin 16) (part : Nat) (ream : W32) (p : DumpPoint) (x : TensorDesc) (r : Ream) (c : CoreId) (loc : PartLoc),
      mapGet point.val s.host.dumps = some p → tensorOf s p.slot p.tensor = some x → x.tableOf = none →
      dumpReam s p ream = some r → x.parts[part]? = some loc → dumpCore s loc ream (dLayer p.desc) = some c → part ∉ p.copied →
      let others (t : State) : Prop := ∀ n, n ≠ point.val → mapGet n t.host.dumps = mapGet n s.host.dumps
      let dumping : Prop := p.ream = some ream ∨
        (p.ream = none ∧ p.seen = dNum p.desc 28 4 ∧ ∀ m ∈ p.marks, m.1 ≠ ream)
      (dumping → ∃ t bs bad u q, exec (.dumpCopy point part ream) s = .next t ∧ t = { s with
          canopy := t.canopy, dsm := t.dsm, nlus := t.nlus, overhang := t.overhang
          host := { t.host with sem := s.host.sem }, pwr := t.pwr, regs := t.regs, counters := t.counters
          fresh := t.fresh } ∧ others t ∧
        mapGet point.val t.host.dumps = some q ∧ q.ream = some r.seq ∧ q.copied = p.copied ++ [part] ∧
        q.poison = (p.poison || bad) ∧ q.desc = p.desc ∧ q.gen = r.tgen ∧ bs.length = partBytes loc ∧
        (∀ l a n, loc = .tile l a n → bs = ramRead (getCore s (coreFin (physCore s l))).tile (64 * a) (64 * n) ∧
          bad = tilePoisoned (getCore s (coreFin (physCore s l))) (64 * a) (64 * n)) ∧
        (p.desc.era = (getPort s p.desc.port).era → hostHolds t p.desc.port (dNum p.desc 40 8 + partOff x.parts part)
          (toLE 2 part ++ toLE 2 u ++ toLE 4 (partBytes loc) ++ toLE 1 (b2n bad) ++ List.replicate 7 0 ++ bs))) ∧
      (¬ dumping → p.ream ≠ none → exec (.dumpCopy point part ream) s = .next s) ∧
      (¬ dumping → p.ream = none → ∃ t q, exec (.dumpCopy point part ream) s = .next t ∧
        t = { s with host := { s.host with dumps := t.host.dumps } } ∧ others t ∧ mapGet point.val t.host.dumps = some q ∧
        q.ream = none ∧ q.copied = p.copied ∧ (q.seen = p.seen ∨ q.seen = p.seen + 1))) ∧
    (∀ (point : Fin 16) (p : DumpPoint) (x : TensorDesc) (seq : W32), mapGet point.val s.host.dumps = some p →
      tensorOf s p.slot p.tensor = some x → p.ream = some seq → p.copied.length = x.parts.length →
      ∃ t, exec (.dumpCopyEnd point) s = .next t ∧ t = { s with host := t.host, regs := t.regs, counters := t.counters } ∧
        completed p.desc stOk (dumpLen x.parts) s t ∧ t.host.dumps = mapDel point.val s.host.dumps ∧
        counted (cntObs 4) 1 s t ∧ counted (cntObs 5) (dumpLen x.parts) s t ∧
        wroteHost p.desc (dNum p.desc 40 8) (toLE 4 0x55445A46 ++ toLE 2 1 ++ toLE 1 (dPoint p.desc)) s t) ∧
    (∀ d s', takeDesc (fun d => dOp d == 6 && dDisarm d) s = some (d, s') →
      ∃ t, exec .dumpDisarm s = .next t ∧ t = { s with
          host := { t.host with sem := s.host.sem }, regs := t.regs, fresh := t.fresh } ∧ t.host.inbox = s'.host.inbox ∧
        (mapGet (dPoint d) s.host.dumps = none → completedBare d stNotFound s t ∧ t.host.dumps = s.host.dumps) ∧
        (∀ p, mapGet (dPoint d) s.host.dumps = some p →
          (p.ream ≠ none → completedBare d stOk s t ∧ t.host.dumps = mapSet (dPoint d) { p with disarmed := true } s.host.dumps) ∧
          (p.ream = none → t.host.dumps = mapDel (dPoint d) s.host.dumps ∧
            ∃ u, completedBare p.desc stNotFound s u ∧ completedBare d stOk u t)))

/-- Freezes and COUNTER_SNAPSHOT: a freeze samples every counter as it stood at its edge, several sources of one edge
make one, and a copy in progress holds them off; FREEZE_IN and the threshold freeze at an edge that follows (R44, R458
to R461). A command whose event is not due, or whose condition is absent, leaves the state (DESIGN CHOICE, log 2). The
model's choices in log 69 bear on it. -/
def Obligations.Freezes : Prop :=
  ∀ (s : State),
    let atDue := bit (regW s 0x400040 0) 2 && decide (nsT (regQ s 0x400048 0) ≤ now s)
    let thrDue := bit (regW s 0x400040 0) 3 && threshHolds s
    let fires : Prop := s.freeze.seq ≠ 0 ∧ s.freeze.gt = now s
    let locked : Prop := ∃ d ∈ snapLocks s, d.stampNs ≠ nowNs s
    let took (sources : Nat) (t : State) : Prop := t.snaps = s.freeze.edge ∧ t.freeze.seq = (s.freeze.seq + 1) % 2 ^ 32 ∧
      t.freeze.gt = now s ∧ t.freeze.prev = s.freeze.gt ∧ t.freeze.sources = sources ∧ counted (cntObs 2) 1 s t
    let outcome (sources : Nat) (t : State) : Prop :=
      (fires → t.snaps = s.snaps ∧ t.freeze.sources = (s.freeze.sources ||| sources) ∧ t.freeze.seq = s.freeze.seq ∧
        t.freeze.gt = s.freeze.gt) ∧
      (¬ fires → locked → t.snaps = s.snaps ∧ t.freeze = s.freeze ∧ counted (cntObs 3) 1 s t) ∧
      (¬ fires → ¬ locked → took sources t)
    let freezes (d : Desc) (t : State) : Prop :=
      outcome 1 t ∧ (fires ∨ ¬ locked → completed d stOk (nowNs s) s t) ∧ (¬ fires → locked → completedBare d stBusy s t) ∧
      (¬ fires → ¬ locked → bit (dNum d 16 1) 0 = true → t.freeze.out = some (now s + nsT 100))
    (∀ d s', takeDescAny (fun d => dOp d == 8) s = some (d, s') →
      ∃ t, exec .freeze s = .next t ∧ t = { s with
          recorder := t.recorder, freeze := t.freeze, host := { t.host with sem := s.host.sem }, regs := t.regs
          counters := t.counters, snaps := t.snaps, fresh := t.fresh } ∧
        (d.due ≠ 0 → t = { s' with host := { s'.host with sched := s'.host.sched ++ [{ desc := d, kind := .freeze }] } }) ∧
        (d.due = 0 → freezes d t ∧ t.host.inbox = s'.host.inbox)) ∧
    -- at the launch edge of a lone item
    (∀ x : Sched, s.host.sched = [x] → x.kind = .freeze → x.desc.due ≤ now s → (∀ p ∈ s.host.protPending, now s < p.due) →
      dueBatches s = [] → dueReams s = [] → s.grp.toManager = false → s.grp.toLeave = false →
      ∃ t, exec .launchEdge s = .next t ∧ t = { s with
          time := t.time, cores := t.cores, clusters := t.clusters, dies := t.dies, canopy := t.canopy
          liveScales := t.liveScales, scaleRaises := t.scaleRaises, trace := t.trace, slots := t.slots
          recorder := t.recorder, freeze := t.freeze, tport := t.tport, dsm := t.dsm, nlus := t.nlus
          pools := t.pools, overhang := t.overhang, host := { t.host with sem := s.host.sem }, tbl := t.tbl
          reams := t.reams, net := t.net, flow := t.flow, rqt := t.rqt, adm := t.adm, grp := t.grp, pwr := t.pwr
          boot := { t.boot with fuses := s.boot.fuses, fuseJob := s.boot.fuseJob }, regs := t.regs
          counters := t.counters, snaps := t.snaps, fresh := t.fresh } ∧ freezes x.desc t ∧ t.host.sched = []) ∧
    ((atDue = false → exec .freezeAtMatch s = .next s) ∧
      (atDue = true → ∃ t, exec .freezeAtMatch s = .next t ∧
        t = { s with freeze := t.freeze, snaps := t.snaps, recorder := t.recorder, regs := t.regs, counters := t.counters } ∧
        outcome 2 t ∧ bit (regW t 0x400040 0) 2 = false ∧ regsKeep [regKey 0x400040 0] s t)) ∧
    (∃ t, exec .freezeInEdge s = .next t ∧
      t = { s with freeze := if bit (regW s 0x400040 0) 0 then { s.freeze with inEdge := some 2 } else s.freeze }) ∧
    ((thrDue = false → exec .thresholdMatch s = .next s) ∧
      (thrDue = true → exec .thresholdMatch s = .next { s with freeze := { s.freeze with thresh := some 1 } })) ∧
    -- at the edge that FREEZE_IN or the threshold has counted down to
    (s.pending = [] → s.boot.held = false → ∃ t, step s = .next t ∧
      (s.freeze.inEdge = some 2 → t.freeze.inEdge = some 1) ∧ (s.freeze.thresh = some 1 → bit (regW t 0x400040 0) 3 = false) ∧
      (s.freeze.inEdge = some 1 ∨ s.freeze.thresh = some 1 → ¬ (s.freeze.seq ≠ 0 ∧ s.freeze.gt = now t) →
        (∀ d ∈ snapLocks s, d.stampNs = nowNs t) →
        t.freeze.seq = (s.freeze.seq + 1) % 2 ^ 32 ∧ t.freeze.gt = now t ∧ t.freeze.prev = s.freeze.gt ∧ t.snaps = t.freeze.edge ∧
        (s.freeze.inEdge = some 1 → bit t.freeze.sources 2 = true) ∧ (s.freeze.thresh = some 1 → bit t.freeze.sources 4 = true))) ∧
    (∃ t, exec .freezeOutEnd s = .next t ∧ t = { s with freeze := { s.freeze with out := s.freeze.out.filter (fun g => decide (now s < g)) } }) ∧
    (∀ d s', takeDesc (fun d => dOp d == 7) s = some (d, s') →
      ∃ t, exec .counterSnapshot s = .next t ∧
        (dNum d 24 4 < 157760 → t = { s with
            host := { t.host with sem := s.host.sem }, regs := t.regs } ∧ t.host.snapReads = s.host.snapReads ∧ completed d stFormat 157760 s t) ∧
        (157760 ≤ dNum d 24 4 → t = { s' with host := { s'.host with snapReads := s.host.snapReads ++ [d] } })) ∧
    (∀ d rest, s.host.snapReads = d :: rest →
      ∃ t, exec .snapshotComplete s = .next t ∧ t = { s with host := t.host, regs := t.regs, fresh := t.fresh } ∧
        t.host.snapReads = rest ∧ completedBare d stOk s t ∧ wroteHost d (dNum d 16 8) (snapBytes s) s t)

/-- Trace delivery by port and drain, and the event recorder: its records, their closing and their reading under a hold
or without one (R450 to R455, R466 to R472). Which stream's records come first is open (DESIGN CHOICE, log 34). A
command whose event is not due, or whose condition is absent, leaves the state (DESIGN CHOICE, log 2). The model's
choices in log 69 bear on it. -/
def Obligations.TraceAndEvents : Prop :=
  ∀ (s : State),
    let off (t : State) : Prop := ∀ n, streamOn s n = false → mapGet n t.trace = mapGet n s.trace
    let wi := regW s 0x40002C 0
    let n1 := unitActive s (ucNet .n1)
    let ended (t : State) : Prop := t.recorder.hold = none ∧ t.recorder.waiting = [] ∧ t.recorder.opened = s.recorder.opened ∧
      t.recorder.written = s.recorder.written ∧ (s.recorder.waiting = [] → t.recorder.mram = s.recorder.mram)
    (bit (regW s 0x400000 0) 0 = false ∨ n1 = false → exec .traceFrame s = .next s ∧ ∀ n, exec (.drainWrite n) s = .next s) ∧
    (bit (regW s 0x400000 0) 0 = true → bit (regW s 0x400000 0) 1 = false → n1 = true →
      ∃ t, exec .traceFrame s = .next t ∧ t = { s with trace := t.trace, tport := t.tport, fresh := t.fresh } ∧ off t ∧
        t.tport.frameSeq = (s.tport.frameSeq + 1) % 2 ^ 32 ∧ t.tport.drainOff = s.tport.drainOff ∧ t.tport.frame.length = 1024 ∧
        t.tport.frame.take 8 = toLE 4 0x46545A46 ++ toLE 4 (s.tport.frameSeq % 2 ^ 32) ∧
        (t.tport.frame.drop 1008).take 4 = toLE 4 (crc32c (t.tport.frame.take 1008)) ∧
        leNat ((t.tport.frame.drop 8).take 2) ≤ 62) ∧
    (∀ n, bit (regW s 0x400000 0) 0 = true → bit (regW s 0x400000 0) 1 = true → n1 = true →
      ∃ t k, exec (.drainWrite n) s = .next t ∧ off t ∧
        (s.tport.drainOff = true → t = { s with trace := t.trace, counters := t.counters, fresh := t.fresh } ∧ k ≤ n ∧
          cntsKeep [cntObs 1] s t ∧ counted (cntObs 1) k s t) ∧
        (s.tport.drainOff = false →
          t = { s with trace := t.trace, host := { s.host with ports := t.host.ports }, regs := t.regs, fresh := t.fresh } ∧
          regsKeep [regKey 0x40002C 0] s t ∧ k ≤ min n (drainRoom s) ∧
          getPort t (otherPort (drainPort s)) = getPort s (otherPort (drainPort s)) ∧
          getPort t (drainPort s) = { getPort s (drainPort s) with written := (getPort t (drainPort s)).written } ∧
          (k = 0 → t.host = s.host ∧ t.regs = s.regs) ∧
          (0 < k → regW t 0x40002C 0 = (wi + k) % drainSize s ∧
            hostHolds t (drainPort s) (regQ s 0x400020 0) (toLE 8 (regW t 0x40002C 0))))) ∧
    (∀ (p : HPort) (v : W32), barUp s = true →
      (drainPort s ≠ p → exec (.drainRiWrite p v) s = .next s) ∧
      (drainPort s = p → ∃ t, exec (.drainRiWrite p v) s = .next t ∧ t = { s with regs := t.regs } ∧
        regsKeep [regKey 0x400028 0] s t ∧ regF t 0x400028 0 23 0 = bits v.toNat 23 0)) ∧
    (∀ (code : W16) (r : EvRec), mapGet code.toNat s.recorder.opened = some r →
      (∃ t, exec (.evrFlush code) s = .next t ∧ t = { s with recorder := t.recorder } ∧
        t.recorder = { s.recorder with mram := t.recorder.mram, waiting := t.recorder.waiting } ∧
        (s.recorder.hold = none → mapGet (mramSlot r.seq) t.recorder.mram = some r) ∧
        (s.recorder.hold ≠ none → r ∈ t.recorder.waiting)) ∧
      (nowNs s < r.endGt → exec (.evrRecordClose code) s = .next s) ∧
      (r.endGt ≤ nowNs s → ∃ t, exec (.evrRecordClose code) s = .next t ∧ t = { s with recorder := t.recorder } ∧
        t.recorder.opened = mapDel code.toNat s.recorder.opened ∧ t.recorder.written = s.recorder.written ∧
        (s.recorder.hold = none → mapGet (mramSlot r.seq) t.recorder.mram = some { r with open_ := false }) ∧
        (s.recorder.hold ≠ none → { r with open_ := false } ∈ t.recorder.waiting))) ∧
    (∀ d s', takeDesc (fun d => dOp d == 11 && !bit (dNum d 16 1) 0) s = some (d, s') →
      ∃ t, exec .evrRead s = .next t ∧ t = { s' with
        host := { s'.host with evrReads := s.host.evrReads ++ [{ desc := d, hold := false, got := [], result := 0 }] } }) ∧
    (∀ d s', takeDesc (fun d => dOp d == 11 && bit (dNum d 16 1) 0) s = some (d, s') →
      let x := evrRead s (dNum d 24 4) (dNum d 20 4)
      ∃ t, exec .evrReadHold s = .next t ∧
        (s.recorder.hold ≠ none → t = { s with
            recorder := t.recorder, host := { t.host with sem := s.host.sem }, regs := t.regs, fresh := t.fresh } ∧ completedBare d stBusy s t ∧ t.recorder = s.recorder) ∧
        (s.recorder.hold = none → t = { s' with
          recorder := { s.recorder with hold := some (now s) }
          host := { s'.host with evrReads := s.host.evrReads ++ [{ desc := d, hold := true, got := x.1, result := x.2 + 2 ^ 49 }] } })) ∧
    (∀ e rest, s.host.evrReads = e :: rest →
      let x := if e.hold then (e.got, e.result) else evrRead s (dNum e.desc 24 4) (dNum e.desc 20 4)
      ∃ t, exec .evrReadComplete s = .next t ∧
        t = { s with host := { t.host with sem := s.host.sem }, recorder := t.recorder, regs := t.regs } ∧
        t.host.evrReads = rest ∧ completed e.desc stOk x.2 s t ∧ wroteHost e.desc (dNum e.desc 32 8) x.1 s t ∧
        (e.hold = true → ended t) ∧ (e.hold = false → t.recorder = s.recorder)) ∧
    (∀ g e rest, s.recorder.hold = some g → takeFirst (fun e => e.hold) s.host.evrReads = some (e, rest) → g + msT 100 ≤ now s →
      ∃ t, exec .evrHoldTimeout s = .next t ∧
        t = { s with host := { t.host with sem := s.host.sem }, recorder := t.recorder, regs := t.regs, fresh := t.fresh } ∧
        t.host.evrReads = rest ∧ completedBare e.desc stBusy s t ∧ ended t)

/-- ATTEST, ATTEST_REPORT, DOE_DISCOVERY, CERT_READ and DOE_ATTEST (R443 to R445). The discovery's answers are presumed
from the PCIe standard (PRESUMED, log 42). The model's choices in logs 6 and 67 bear on it. -/
def Obligations.Attestation : Prop :=
  ∀ (s : State),
    let answers (p : HPort) (i : Instr) (vendor type : Nat) (payload : Bytes) : Prop :=
      ∃ t, exec i s = .next t ∧ t = { s with boot := { s.boot with doe := t.boot.doe } } ∧
        mapGet (portIx p) t.boot.doe = some (doeObject vendor type payload) ∧
        mapGet (portIx (otherPort p)) t.boot.doe = mapGet (portIx (otherPort p)) s.boot.doe
    let errors (p : HPort) (i : Instr) (type status : Nat) : Prop :=
      ∃ t, exec i s = .next t ∧ t = { s with boot := { s.boot with doe := t.boot.doe }, counters := t.counters } ∧
        counted (cntSec 5) 1 s t ∧ cntsKeep [cntSec 5] s t ∧
        mapGet (portIx p) t.boot.doe = some (doeObject 0x2DA5 type (toLE 4 status)) ∧
        mapGet (portIx (otherPort p)) t.boot.doe = mapGet (portIx (otherPort p)) s.boot.doe
    (∀ d s', takeDesc (fun d => dOp d == 12) s = some (d, s') →
      ∃ t, exec .attest s = .next t ∧
        (dNum d 56 4 < 512 → completed d stFormat 56 s t ∧ t = { s with
            host := { t.host with sem := s.host.sem }
            boot := { t.boot with fuses := s.boot.fuses, fuseJob := s.boot.fuseJob }, regs := t.regs } ∧ t.boot = s.boot) ∧
        (512 ≤ dNum d 56 4 → t = { s' with boot := { s.boot with
          attest := s.boot.attest ++ [{ whom := .desc d, nonce := (d.bytes.drop 16).take 32 }] } })) ∧
    (∀ a rest, s.boot.attest = a :: rest →
      ∃ t, exec .attestReport s = .next t ∧ t = { s with
          host := { t.host with sem := s.host.sem }
          boot := { t.boot with fuses := s.boot.fuses, fuseJob := s.boot.fuseJob }, regs := t.regs
          counters := t.counters, fresh := t.fresh } ∧ t.boot.attest = rest ∧ counted (cntSec 4) 1 s t ∧
        (attestBytes s a.nonce).length = 512 ∧
        (∀ d, a.whom = .desc d → completedBare d stOk s t ∧ wroteHost d (dNum d 48 8) (attestBytes s a.nonce) s t ∧
          t.boot.doe = s.boot.doe) ∧
        (∀ p, a.whom = .doe p → t.host = s.host ∧
          mapGet (portIx p) t.boot.doe = some (doeObject 0x2DA5 2 (toLE 4 stOk ++ attestBytes s a.nonce)))) ∧
    ∀ (p : HPort),
      (∀ i : Byte, answers p (.doeDiscovery p i) 1 0 (toLE 4 (match i.toNat with
        | 0 => 0x01000001
        | 1 => 0x02012DA5
        | 2 => 0x00022DA5
        | _ => 0x0000FFFF))) ∧
      (∀ dw2 dw3 : W32,
        (s.boot.certs[dw2.toNat]? = none → errors p (.certRead p dw2 dw3) 1 stNotFound) ∧
        (∀ c, s.boot.certs[dw2.toNat]? = some c → c.length < dw3.toNat → errors p (.certRead p dw2 dw3) 1 stFormat) ∧
        (∀ c, s.boot.certs[dw2.toNat]? = some c → dw3.toNat ≤ c.length → answers p (.certRead p dw2 dw3) 0x2DA5 1
          (toLE 4 stOk ++ toLE 4 c.length ++ toLE 4 dw3.toNat ++ (c.drop dw3.toNat).take 1024))) ∧
      (∀ nonce : Bytes,
        (nonce.length ≠ 32 → errors p (.doeAttest p nonce) 2 stFormat) ∧
        (nonce.length = 32 → ∃ t, exec (.doeAttest p nonce) s = .next t ∧
          t = { s with boot := { s.boot with attest := s.boot.attest ++ [{ whom := .doe p, nonce := nonce }] } }))

/-! ### The group -/

/-- GROUP_FRAME_RECEIVE, RETRANSMIT, ACK, REFUSE, PROBE and the frames that are sent by time: what the transport counts
and drops, what it delivers and acknowledges, and what it sends again (R268, R364, R369 to R373, R377, R384, R385).
What a device drops uncounted by the manual counts as FOREIGN_GROUP (DESIGN CHOICE, log 26). A command whose event is
not due, or whose condition is absent, leaves the state (DESIGN CHOICE, log 2). The model's choices in logs 10 and 75
bear on it. -/
def Obligations.GroupTransport : Prop :=
  ∀ (s : State),
    let b : GrpBody := .announce (identHash s) (slotPrefix s 0) (slotPrefix s 1) (cfgField s 0x14 0 == 1) (BitVec.ofNat 64 (nowNs s))
    (∀ (port : LaneId) (bytes : Bytes) (sub : BitVec 6),
      let g := port.val
      let p := portParse s g bytes
      let payload := (bytes.take (bytes.length - 4)).drop (14 + 4 * p.tags)
      let hdr := grpHdrOf payload
      let kind := hdr.typ.toNat
      let body := bodyOf kind ((payload.drop 32).take hdr.len.toNat)
      let x : GrpRx := { port := port, gtNs := nowNs s, smac := p.smac, hdr := hdr, body := body }
      let mine : Prop := s.grp.role ≠ 0 ∧ hdr.groupId = groupId s ∧ hdr.version = 1 ∧ (1 ≤ kind ∧ kind ≤ 5 ∨ 0x10 ≤ kind ∧ kind ≤ 0x1A) ∧
        32 + hdr.len.toNat ≤ payload.length
      let member : Prop := hasId s = true ∧ hdr.srcUnassigned = false
      let forUs : Prop := hasId s = false ∨ hdr.dstUnassigned = true ∨ hdr.dstId.val = s.grp.id
      -- what a good frame leaves behind besides: the corrected codewords, and its stamp
      let seen (ks : List Nat) (t : State) : Prop := cntsKeep (cntPort g 14 :: ks) s t ∧ (∀ k ∈ ks, counted k 1 s t) ∧
        t.tbl = { s.tbl with net := t.tbl.net } ∧ (getNet t (laneDie g)).lastRx = (now s, sub.toNat, g) ∧
        ∀ e, getNet t e = { getNet s e with lastRx := (getNet t e).lastRx }
      let only (ks : List Nat) (t : State) : Prop := t = { s with counters := t.counters, tbl := t.tbl, fresh := t.fresh } ∧ seen ks t
      let acked (u : Unacked) : Bool := u.seq != hdr.ack && decide ((hdr.ack - u.seq).toNat ≤ 2 ^ 31)
      (isGroup s g p = false → ∀ good, exec (.groupFrameReceive port bytes ⟨good, sub⟩) s = .next s) ∧
      (isGroup s g p = true → ∀ good, exec (.groupFrameReceive port bytes ⟨good, sub⟩) s = exec (.frameReceive port bytes good sub) s) ∧
      (isGroup s g p = true → p.etype ≠ 0x8808 → (learnMode s g = 0 ∨ bit p.smac 40 = true) →
        portUp s g = true → (getEPort s g).pause = false → rxOutranked s g sub = false →
        64 ≤ bytes.length → bytes.length ≤ portMaxFrame s g → hasCells s (laneDie g) bytes.length false = true →
        let gets (f : State → Prop) : Prop := ∃ t, exec (.groupFrameReceive port bytes ⟨true, sub⟩) s = .next t ∧ f t
        (4096 ≤ s.grp.rx.length → gets (only [cntPort g 0])) ∧
        (s.grp.rx.length < 4096 →
          (¬ mine → gets (only [cntPort g 0, cntGrp 3])) ∧
          (mine → member → hdr.epoch.toNat < s.grp.epoch.toNat → gets (only [cntPort g 0, cntGrp 2])) ∧
          (mine → ¬ (member ∧ hdr.epoch.toNat < s.grp.epoch.toNat) → ¬ forUs → gets (only [cntPort g 0])) ∧
          (mine → member → s.grp.epoch.toNat < hdr.epoch.toNat → kind ≠ 0x19 → forUs → s.grp.toManager = false → s.grp.toLeave = false →
            gets (fun t => t = { s with
                time := t.time, cores := t.cores, dies := t.dies, canopy := t.canopy, trace := t.trace
                slots := t.slots, nlus := t.nlus, pools := t.pools, host := { t.host with sem := s.host.sem }
                tbl := t.tbl, reams := t.reams, net := t.net, rqt := t.rqt, adm := t.adm, grp := t.grp
                regs := t.regs, counters := t.counters, fresh := t.fresh } ∧
              (s.grp.role = 1 → deposed hdr.epoch s t) ∧ (s.grp.role = 2 → followed hdr.epoch s t))) ∧
          (mine → (¬ member ∨ hdr.epoch = s.grp.epoch) → forUs →
            (rxPeer s x = none → gets (fun t =>
              t = { s with counters := t.counters, tbl := t.tbl, fresh := t.fresh, grp := { s.grp with rx := t.grp.rx } } ∧
              seen [cntPort g 0] t ∧ t.grp.rx = s.grp.rx ++ (if kind ∈ [1, 2, 3, 0x19, 0x1A] then [x] else []))) ∧
            (∀ i p, rxPeer s x = some i → getPeer s i = some p → p.waiting = [] →
              let inOrder : Prop := hdr.seq = p.expect
              gets (fun t => ∃ q,
                t = { s with counters := t.counters, tbl := t.tbl, fresh := t.fresh, net := t.net, grp := t.grp } ∧ getPeer t i = some q ∧
                counted (cntPort g 0) 1 s t ∧
                (∀ j, j ≠ i → getPeer t j = getPeer s j) ∧ t.grp.role = s.grp.role ∧ t.grp.epoch = s.grp.epoch ∧
                (sequenced kind = false → t.grp.rx = s.grp.rx ++ [x] ∧ t.net = s.net ∧
                  q = { p with unacked := p.unacked.filter (fun u => !acked u) }) ∧
                (sequenced kind = true →
                  q = { p with
                    port := q.port, unacked := p.unacked.filter (fun u => !acked u), expect := if inOrder then p.expect + 1 else p.expect } ∧
                  t.grp.rx = (if inOrder then s.grp.rx ++ [x] else s.grp.rx) ∧
                  (canSend (peerPort s p) 1 .ack s →
                    groupSent (peerPort s p) (sentHdr s (some i) 0 q.expect .ack) .ack s t)))))))) ∧
    (∀ (peer : PeerId) (p : Peer) (u : Unacked) (rest : List Unacked), getPeer s peer.val = some p → p.unacked = u :: rest →
      (now s < u.sent + usT 20 → exec (.retransmit peer) s = .next s) ∧
      (u.sent + usT 20 ≤ now s → ∃ t q, exec (.retransmit peer) s = .next t ∧ t = { s with
          net := t.net, grp := t.grp, counters := t.counters } ∧ counted (cntGrp 1) 1 s t ∧
        getPeer t peer.val = some q ∧ q = { p with port := q.port, unacked := p.unacked.map (fun v => { v with sent := now s }) } ∧
        (∀ j, j ≠ peer.val → getPeer t j = getPeer s j) ∧
        (rest = [] → canSend (peerPort s p) 1 u.body s →
          groupSent (peerPort s p) (sentHdr s (some peer.val) u.seq p.expect u.body) u.body s t))) ∧
    (∀ x s', takeRx 5 s = some (x, s') →
      let acked : Prop := s.grp.leaving ≠ none ∧ ∃ p, getPeer s 0 = some p ∧ p.unacked = [] ∧ p.waiting = []
      (acked → ∃ t, exec .ack s = .next t ∧ stoodAlone s t) ∧ (¬ acked → exec .ack s = .next s')) ∧
    (∀ x s', takeRx 3 s = some (x, s') → exec .refuse s = .next s') ∧
    (∀ x s', takeRx 0x1A s = some (x, s') → exec .probe s = .next s') ∧
    ((s.grp.role ≠ 3 ∨ s.grp.timeAhead = true ∨ s.canopy.handedOver = true → exec .announceSend s = .next s) ∧
      (s.grp.role = 3 → s.grp.timeAhead = false → s.canopy.handedOver = false → (∀ a, s.grp.lastAnnounce = some a → a + msT 100 ≤ now s) →
        ∃ t, exec .announceSend s = .next t ∧ t = { s with
            net := t.net, grp := t.grp, counters := t.counters } ∧ t.grp = { s.grp with lastAnnounce := some (now s) } ∧
          ∀ g ∈ upGroupPorts s, canSend g (upGroupPorts s).length b s → groupSent g (sentHdr s (some 0) 0 0 b) b s t)) ∧
    ((hasId s = false ∨ nowNs s / 100000 = s.grp.lastHb / 100000 → exec .heartbeatSend s = .next s) ∧
      (hasId s = true → nowNs s / 100000 ≠ s.grp.lastHb / 100000 →
        ∃ t, exec .heartbeatSend s = .next t ∧ t = { s with net := t.net, grp := t.grp, counters := t.counters } ∧
          t.grp = { s.grp with lastHb := nowNs s, peers := t.grp.peers } ∧
          ∀ i p, getPeer s i = some p → getPeer t i = some { p with port := laneFin (peerPort s p) } ∧
            (canSend (peerPort s p) s.grp.peers.length (heartbeatBody s p) s →
              groupSent (peerPort s p) (sentHdr s (some i) 0 p.expect (heartbeatBody s p)) (heartbeatBody s p) s t))) ∧
    ((s.grp.holder = false ∨ s.grp.lost = none → exec .probeSend s = .next s) ∧
      (s.grp.holder = true → s.grp.lost ≠ none → (∀ a, s.grp.lastProbe = some a → a + msT 10 ≤ now s) →
        ∃ t, exec .probeSend s = .next t ∧ t = { s with
            net := t.net, grp := t.grp, counters := t.counters } ∧ t.grp = { s.grp with lastProbe := some (now s) } ∧
          ∀ g ∈ upGroupPorts s, canSend g (upGroupPorts s).length .probe s →
            groupSent g (sentHdr s (some 0) 0 0 .probe) .probe s t))

/-- GROUP_CTL's actions, joining, readiness, loss, promotion and leaving (R32, R33, R364 to R366, R373 to R378, R382 to
R388). A worker that is leaving or turning manager when it loses its manager goes on with that (DEDUCED, log 27). A
command whose event is not due, or whose condition is absent, leaves the state (DESIGN CHOICE, log 2). The model's
choices in logs 47, 72 and 75 bear on it. -/
def Obligations.GroupMembership : Prop :=
  ∀ (s : State),
    let others (i : Nat) (t : State) : Prop := ∀ j, j ≠ i → getPeer t j = getPeer s j
    let outstanding (i : Nat) : Bool := s.reams.any (fun r => r.shares.any (fun y => y.2.1 == i && !y.2.2))
    let ctl (a : Nat) (d : Desc) (s' : State) : Prop := takeDesc (fun d => dOp d == 10 && dNum d 16 1 == a) s = some (d, s')
    let refused (i : Instr) (d : Desc) (status : Nat) : Prop := ∃ t, exec i s = .next t ∧
      t = { s with host := { t.host with sem := s.host.sem }, regs := t.regs, fresh := t.fresh } ∧
      (status = stFormat → completed d stFormat 16 s t) ∧ completedBare d status s t
    (∀ d s', ctl 0 d s' → (s.grp.role ≠ 1 → refused .groupList d stFormat) ∧
      (s.grp.role = 1 →
        let ids := (workers s).take (dNum d 32 4 / 16)
        ∃ t, exec .groupList s = .next t ∧ t = { s with
            host := { t.host with sem := s.host.sem }, regs := t.regs } ∧ completed d stOk ids.length s t ∧
          wroteHost d (dNum d 24 8)
            (ids.map (fun i => toLE 4 i ++ toLE 4 (memberWord s i) ++ toLE 8 (((getPeer s i).map (·.hbNs)).getD 0))).flatten s t)) ∧
    (∀ d s', ctl 1 d s' → (s.grp.role ≠ 1 → refused .groupEvict d stFormat) ∧
      (s.grp.role = 1 →
        let i := dNum d 18 2
        (i = 0 ∨ getPeer s i = none → refused .groupEvict d stNotFound) ∧
        (i ≠ 0 → getPeer s i ≠ none → ∃ t u, exec .groupEvict s = .next t ∧ t = { s with
            cores := t.cores, clusters := t.clusters, dies := t.dies, canopy := t.canopy, trace := t.trace
            slots := t.slots, nlus := t.nlus, pools := t.pools, host := { t.host with sem := s.host.sem }
            tbl := t.tbl, reams := t.reams, net := t.net, rqt := t.rqt, adm := t.adm, grp := t.grp, regs := t.regs
            counters := t.counters, fresh := t.fresh } ∧ workerGone i s t ∧
          counted (cntGrp 4) 1 s t ∧ reportFirst 0x57 (ucPeer (peerFin i)) (ucPeer (peerFin i)) s t ∧ completedBare d stOk u t))) ∧
    (∀ d s', ctl 2 d s' → (s.grp.role ≠ 1 → refused .groupSetHolders d stFormat) ∧
      (s.grp.role = 1 →
        let ids := [dNum d 18 2, dNum d 20 2]
        let ready (i : Nat) : Prop := i = 0xFFFF ∨ (i ≠ 0 ∧ ∃ p, getPeer s i = some p ∧ p.st = 2)
        ((∀ i ∈ ids, ready i) → ∃ t, exec .groupSetHolders s = .next t ∧ t = { s with
            host := { t.host with sem := s.host.sem }, net := t.net, grp := t.grp, regs := t.regs
            counters := t.counters, fresh := t.fresh } ∧ completedBare d stOk s t ∧
          t.grp.setHolders = ids ∧ ∀ i ∈ ids, i ≠ 0xFFFF → i ∈ t.grp.holders) ∧
        ((∃ i ∈ ids, ¬ ready i) → refused .groupSetHolders d stNotFound))) ∧
    (∀ d s', ctl 3 d s' → (s.grp.role ≠ 1 → refused .groupHandover d stFormat) ∧
      (s.grp.role = 1 →
        let i := dNum d 18 2
        let e := nextEpoch s i
        (i ∉ s.grp.holders → refused .groupHandover d stNotFound) ∧
        (i ∈ s.grp.holders → ∃ t, exec .groupHandover s = .next t ∧ t = { s with
            host := { t.host with sem := s.host.sem }, net := t.net, grp := t.grp, regs := t.regs
            counters := t.counters, fresh := t.fresh } ∧ completedBare d stOk s t ∧
          t.grp = { s.grp with peers := t.grp.peers } ∧
          ∀ j p, workers s = [j] → getPeer s j = some p → canSend (peerPort s p) 1 (.promote e) s →
            groupSent (peerPort s p) (sentHdr s (some j) 0 p.expect (.promote e)) (.promote e) s t))) ∧
    (∀ d s', ctl 4 d s' → (s.grp.role ≠ 2 → refused .groupLeave d stFormat) ∧
      (s.grp.role = 2 → ∃ t, exec .groupLeave s = .next t ∧ t = { s with
          time := t.time, cores := t.cores, dies := t.dies, canopy := t.canopy, trace := t.trace, slots := t.slots
          nlus := t.nlus, pools := t.pools, host := { t.host with sem := s.host.sem }, tbl := t.tbl
          reams := t.reams, net := t.net, rqt := t.rqt, adm := t.adm, grp := t.grp, regs := t.regs
          counters := t.counters, fresh := t.fresh } ∧
        (holdsShares s = true → completedBare d stOk s t ∧ t.grp = { s.grp with toLeave := true }) ∧
        (holdsShares s = false → s.grp.toManager = false → completedBare d stOk s t ∧ t.grp.leaving = some (now s) ∧
          t.grp.role = 2 ∧ handed 0 [.leave] s t))) ∧
    (∀ (x : GrpRx) (s' : State) (ident hashA hashB gt : W64) (elig : Bool), takeRx 1 s = some (x, s') →
      x.body = .announce ident hashA hashB elig gt →
      let open_ (i : Nat) : Prop := 1 ≤ i ∧ i < 1024 ∧ getPeer s i = none ∧ ∀ a, mapGet i s.grp.freed = some a → a + nsT 10000000000 ≤ now s
      let known : Prop := ∃ q ∈ s.grp.peers, q.1 ≠ 0 ∧ q.2.ident = ident
      let refusal : GrpBody := .refuse (BitVec.ofNat 8 stBusy)
      (isManager s = false → exec .announce s = .next s') ∧
      (isManager s = true → ¬ known → (∀ i, ¬ open_ i) →
        ∃ t, exec .announce s = .next t ∧ t = { s' with counters := t.counters, net := t.net } ∧
          (canSend x.port.val 1 refusal s → groupSent x.port.val (sentHdr s none 0 0 refusal) refusal s t)) ∧
      (∀ i, isManager s = true → ¬ known → open_ i → (∀ j, j < i → ¬ open_ j) → i ∉ s.grp.holders →
        let hello : GrpBody := .welcome (peerFin i) (BitVec.ofNat 64 (nowNs s)) (activePrefix s)
        ∃ t p, exec .announce s = .next t ∧ t = { s' with counters := t.counters, net := t.net, grp := t.grp } ∧
          t.grp = { s'.grp with peers := t.grp.peers } ∧ getPeer t i = some p ∧ p.st = 1 ∧ p.ident = ident ∧ p.eligible = elig ∧
          p.hashA = hashA ∧ p.hashB = hashB ∧ p.aligned = false ∧ p.nextSeq = 0 ∧ p.expect = 0 ∧ p.copies = activeTables s ∧
          p.port = x.port ∧ p.mac = x.smac ∧ (∀ j, j ≠ i → j ∉ s.grp.holders → getPeer t j = getPeer s j) ∧
          (s.grp.holders.Nodup → ∀ j ∈ s.grp.holders, handed j [.members [(peerFin i, some { holder := false, eligible := elig, ident := ident, mac := x.smac })]] s t) ∧
          (s.grp.holders = [] → canSend x.port.val 1 hello s → groupSent x.port.val (sentHdr s none 0 0 hello) hello s t)) ∧
      (∀ j q, isManager s = true → s.grp.peers.find? (fun p => p.1 != 0 && p.2.ident == ident) = some (j, q) →
        ∃ t, exec .announce s = .next t ∧ t = { s with
            cores := t.cores, clusters := t.clusters, dies := t.dies, canopy := t.canopy, trace := t.trace
            slots := t.slots, nlus := t.nlus, pools := t.pools, host := { t.host with sem := s.host.sem }
            tbl := t.tbl, reams := t.reams, net := t.net, rqt := t.rqt, adm := t.adm, grp := t.grp, regs := t.regs
            counters := t.counters, fresh := t.fresh } ∧ counted (cntGrp 4) 1 s t ∧ getPeer t j = none ∧
          mapGet j t.grp.freed = some (now s) ∧ ∀ q n, shareMoved j q n s t)) ∧
    (∀ (x : GrpRx) (s' : State) (id : PeerId) (gt hash : W64), takeRx 2 s = some (x, s') → x.body = .welcome id gt hash →
      let refusal : GrpBody := .refuse (BitVec.ofNat 8 stNotFound)
      (s.grp.role ≠ 3 → exec .welcome s = .next s') ∧
      (s.grp.role = 3 → gt.toNat + 1000000 < nowNs s →
        ∃ t, exec .welcome s = .next t ∧
          t = { s' with counters := t.counters, net := t.net, time := t.time, grp := { s'.grp with timeAhead := true } } ∧ t.time.source = 1 ∧
          (canSend x.port.val 1 refusal s → groupSent x.port.val (sentHdr s (some 0) 0 0 refusal) refusal s t)) ∧
      (s.grp.role = 3 → nowNs s ≤ gt.toNat + 1000000 →
        ∃ t p, exec .welcome s = .next t ∧ t = { s with
            time := t.time, recorder := t.recorder, net := t.net, grp := t.grp, regs := t.regs
            counters := t.counters } ∧ t.grp.role = 2 ∧ t.grp.id = id.val ∧ t.grp.epoch = x.hdr.epoch ∧
          t.grp.timeAhead = false ∧ t.net = s.net ∧ t.time.source = 1 ∧ getPeer t 0 = some p ∧ (∀ j, j ≠ 0 → getPeer t j = none) ∧
          p.nextSeq = 0 ∧ p.expect = 0 ∧ p.hashA = hash ∧ p.port = x.port ∧ p.heard = now s ∧
          (gt.toNat ≤ nowNs s → t.time.stepTo = s.time.stepTo) ∧
          (nowNs s < gt.toNat → holdsLaunch s = false → t.time.stepTo = some gt ∧ t.time.stepJoin = true) ∧
          (nowNs s < gt.toNat → holdsLaunch s = true → t.time.stepTo = s.time.stepTo ∧ bit (regW t 0x100004 0) 4 = true) ∧
          (regF s 0x600000 0 2 0 = 4 → regF t 0x600000 0 2 0 = 5) ∧
          (regF s 0x600000 0 2 0 ≠ 4 → regsKeep [regKey 0x100004 0] s t))) ∧
    (∀ (x : GrpRx) (s' : State) (i : Nat) (p : Peer) (tTx tRx tPrev hashA hashB tgen : W64) (al rd hold dr : Bool) (load : Byte),
      takeRx 4 s = some (x, s') → x.body = .heartbeat tTx tRx tPrev al rd hold dr load hashA hashB tgen → rxPeer s x = some i →
      getPeer s i = some p →
      let h : Peer := { p with
        hbNs := x.gtNs, hbTx := tTx.toNat, heard := now s, aligned := al, load := load.toNat, hashB := hashB, tgen := tgen }
      (isManager s = true →
        let m := peerMatches s { h with hashA := hashA }
        let q : Peer := { h with
          hashA := hashA, st := if dr = true then 3 else if p.st = 3 ∨ al = false ∨ m = false then 1 else p.st }
        ∃ t, exec .heartbeat s = .next t ∧ t = { s with
            time := t.time, canopy := t.canopy, dsm := t.dsm, nlus := t.nlus, overhang := t.overhang, net := t.net
            grp := t.grp, pwr := t.pwr, regs := t.regs, counters := t.counters, fresh := t.fresh } ∧ others i t ∧ t.time = s.time ∧
          (p.copies = [] ∨ m = false → t = { s' with grp := t.grp } ∧ getPeer t i = some q) ∧
          (m = true → (getPeer t i).map (·.copies) = some [] ∧ (getPeer t i).map (·.st) = some q.st)) ∧
      (isManager s = false →
        let ns : Int := ((tRx.toNat : Int) - tPrev.toNat) - ((x.gtNs : Int) - tTx.toNat)
        ∃ t, exec .heartbeat s = .next t ∧ t = { s' with grp := t.grp, time := t.time, fresh := t.fresh } ∧ others i t ∧
          getPeer t i = some h ∧ t.grp = { s'.grp with peers := t.grp.peers, lost := none } ∧
          (tPrev = 0 ∨ s.time.source ≠ 1 → t.time = s.time) ∧
          (tPrev ≠ 0 → s.time.source = 1 →
            t.time.offset = sat32 (ns * 500 + linkAsym s p.port / 2) ∧ t.time.lastExchange = some (now s) ∧
            (s.time.holdover = true → t.time = { s.time with offset := t.time.offset, lastExchange := t.time.lastExchange }) ∧
            (s.time.holdover = false → (t.time.locked = true ↔ (ns * 500 + linkAsym s p.port / 2).natAbs ≤ 5000))))) ∧
    (∀ (peer : PeerId) (p : Peer), getPeer s peer.val = some p →
      let i := peer.val
      let ready : Prop := isManager s = true ∧ i ≠ 0 ∧ p.st = 1 ∧ p.aligned = true ∧ peerMatches s p = true ∧ p.copies = [] ∧
        ∀ b ∈ messages s i, isTableFrame b = false
      (¬ ready → exec (.workerReady peer) s = .next s) ∧
      (ready → ∃ t, exec (.workerReady peer) s = .next t ∧ t = { s with
          net := t.net, grp := t.grp, counters := t.counters } ∧ (getPeer t i).map (·.st) = some 2 ∧
        (s.grp.setHolders = [] → s.grp.holders = [] → (∀ q ∈ s.grp.peers, q.2.st = 2 → q.2.eligible = false) →
          t.grp.holders = if p.eligible then [i] else []))) ∧
    (∀ (peer : PeerId) (p : Peer), getPeer s peer.val = some p →
      (now s < p.heard + usT 300 → exec (.peerLost peer) s = .next s) ∧
      (p.heard + usT 300 ≤ now s →
        (isManager s = true → ∃ t, exec (.peerLost peer) s = .next t ∧ t = { s with
            time := t.time, cores := t.cores, clusters := t.clusters, dies := t.dies, canopy := t.canopy
            trace := t.trace, slots := t.slots, nlus := t.nlus, pools := t.pools
            host := { t.host with sem := s.host.sem }, tbl := t.tbl, reams := t.reams, net := t.net, rqt := t.rqt
            adm := t.adm, grp := t.grp, regs := t.regs, counters := t.counters, fresh := t.fresh } ∧ workerGone peer.val s t ∧
          counted (cntGrp 4) 1 s t ∧ reportFirst 0x57 (ucPeer peer) (ucPeer peer) s t) ∧
        (isManager s = false → s.grp.lost ≠ none → exec (.peerLost peer) s = .next s) ∧
        (isManager s = false → s.grp.lost = none → ∃ t, exec (.peerLost peer) s = .next t ∧ t = { s with
            time := t.time, cores := t.cores, clusters := t.clusters, dies := t.dies, canopy := t.canopy
            trace := t.trace, slots := t.slots, nlus := t.nlus, pools := t.pools
            host := { t.host with sem := s.host.sem }, tbl := t.tbl, reams := t.reams, net := t.net, rqt := t.rqt
            adm := t.adm, grp := t.grp, regs := t.regs, counters := t.counters, fresh := t.fresh } ∧
          reportFirst 0x57 (ucPeer 0) (ucPeer 0) s t ∧
          let ending : Prop := s.grp.toLeave = true ∨ s.grp.toManager = true ∨ s.grp.leaving ≠ none
          let free : Prop := holdsShares s = false
          (¬ ending → s.grp.holder = true → t = { s with canopy := t.canopy, fresh := t.fresh, grp := t.grp } ∧
            t.grp = { s.grp with peers := t.grp.peers, lost := some p.heard, heardMgr := false } ∧ others 0 t ∧
            getPeer t 0 = some { p with unacked := [], waiting := [], nextSeq := 0, expect := 0 }) ∧
          (¬ ending → s.grp.holder = false → t.grp.role = 3 ∧ t.grp.id = 0 ∧ t.grp.peers = [] ∧ noShares s t ∧ t.rqt = s.rqt) ∧
          (ending → (¬ free ∨ (s.grp.toManager = false ∧ s.grp.toLeave = false)) → t.grp.role = s.grp.role ∧ getPeer t 0 = none ∧
            t.reams = s.reams ∧ t.grp.toLeave = s.grp.toLeave ∧ t.grp.toManager = s.grp.toManager) ∧
          (free → s.grp.toManager = false → s.grp.toLeave = true → t.grp.leaving = some (now s) ∧ getPeer t 0 = none) ∧
          (free → s.grp.toManager = true → promoted (nextEpoch s s.grp.id) s t)))) ∧
    (∀ x s', takeRx 0x18 s = some (x, s') →
      (isManager s = false → exec .leave s = .next s') ∧
      (∀ i, isManager s = true → rxPeer s x = some i → ∃ t, exec .leave s = .next t ∧ t = { s with
          cores := t.cores, clusters := t.clusters, dies := t.dies, canopy := t.canopy, trace := t.trace
          slots := t.slots, nlus := t.nlus, pools := t.pools, host := { t.host with sem := s.host.sem }
          tbl := t.tbl, reams := t.reams, net := t.net, rqt := t.rqt, adm := t.adm, grp := t.grp, regs := t.regs
          counters := t.counters, fresh := t.fresh } ∧ workerGone i s t ∧
        (outstanding i = true → counted (cntGrp 4) 1 s t) ∧
        (outstanding i = false → cntGet t (cntGrp 4) = cntGet s (cntGrp 4) ∧ t.reams = s.reams))) ∧
    (∀ (x : GrpRx) (s' : State) (e : W32), takeRx 0x19 s = some (x, s') → x.body = .promote e →
      let named : Prop := s.grp.role = 2 ∧ s.grp.holder = true ∧ s.grp.id = 1023 - e.toNat % 1024
      (e.toNat ≤ s.grp.epoch.toNat ∨ hasId s = false → exec .promote s = .next s') ∧
      (s.grp.epoch.toNat < e.toNat → hasId s = true → ∃ t, exec .promote s = .next t ∧ t = { s with
          time := t.time, cores := t.cores, dies := t.dies, canopy := t.canopy, trace := t.trace, slots := t.slots
          nlus := t.nlus, pools := t.pools, host := { t.host with sem := s.host.sem }, tbl := t.tbl
          reams := t.reams, net := t.net, rqt := t.rqt, adm := t.adm, grp := t.grp, regs := t.regs
          counters := t.counters, fresh := t.fresh } ∧
        (named → promoted e s t ∧ promoteSent e s t) ∧
        (¬ named → s.grp.role = 2 → s.grp.toManager = false → s.grp.toLeave = false → followed e s t) ∧
        (s.grp.role = 1 → deposed e s t))) ∧
    (∀ t0, s.grp.lost = some t0 →
      let lower : Prop := ∀ m ∈ s.grp.members, m.2.holder = true → s.grp.id ≤ m.1
      let due (wait : Nat) : Prop := t0 + wait ≤ now s
      let able : Prop := s.grp.holder = true ∧ s.grp.role = 2 ∧ s.grp.heardMgr = false ∧
        ((lower ∧ due (nsT 500000000)) ∨ (¬ lower ∧ due (nsT 1000000000)))
      let e := BitVec.ofNat 32 ((s.grp.epoch.toNat / 1024 + 1) * 1024 + (1023 - s.grp.id % 1024))
      (¬ able → exec .selfPromote s = .next s) ∧
      (able → ∃ t, exec .selfPromote s = .next t ∧ t = { s with
          time := t.time, cores := t.cores, dies := t.dies, canopy := t.canopy, trace := t.trace, slots := t.slots
          nlus := t.nlus, pools := t.pools, host := { t.host with sem := s.host.sem }, tbl := t.tbl
          reams := t.reams, net := t.net, rqt := t.rqt, adm := t.adm, grp := t.grp, regs := t.regs
          counters := t.counters, fresh := t.fresh } ∧ promoted e s t ∧ promoteSent e s t)) ∧
    (∀ a, s.grp.leaving = some a →
      let beyond : Prop := a + msT 10 ≤ now s ∨ ∃ p, getPeer s 0 = some p ∧ p.unacked = [] ∧ p.waiting = []
      (beyond → ∃ t, exec .leaveTimeout s = .next t ∧ stoodAlone s t) ∧ (¬ beyond → exec .leaveTimeout s = .next s)) ∧
    ((s.grp.toWorker = true → s.rqt = [] → ∃ t, exec .trackerEmptyJoin s = .next t ∧ t = { s with grp := t.grp } ∧ t.grp.role = 3 ∧
        t.grp.peers = [] ∧ t.grp.toWorker = false ∧ t.grp.epoch = s.grp.epoch) ∧
      (s.grp.toWorker = false ∨ s.rqt ≠ [] → exec .trackerEmptyJoin s = .next s))

/-- WRITE, WORK, SHARE_END, RESULT, REFUSE_WORK, JOURNAL, RELEASE, MEMBERS and TABLE: placed work, the journal at a
holder and table copies (R39, R40, R366, R376, R380 to R383, R407). How WRITE and TABLE frames address their spaces is
the model's (DESIGN CHOICE, log 10). A command whose event is not due, or whose condition is absent, leaves the state
(DESIGN CHOICE, log 2). The model's choices in logs 24, 25 and 74 bear on it. -/
def Obligations.GroupWork : Prop :=
  ∀ (s : State) (x : GrpRx) (s' : State),
    let noted (space a : Nat) (data : Bytes) (t : State) : Prop :=
      t.grp.inputs = if s.grp.role = 2 then mapSet (noteKey space a) data.length s.grp.inputs else s.grp.inputs
    (∀ (space : BitVec 2) (a : Nat) (data : Bytes), takeRx 0x10 s = some (x, s') → x.body = .write space a data →
      let off := a % 2 ^ 32
      let unit := a / 2 ^ 32
      (∀ d : CDie, space = 0 → d.val = unit → off + data.length ≤ dieSramBytes →
        ∃ t, exec .write s = .next t ∧ t = { s' with dies := t.dies, grp := { s'.grp with inputs := t.grp.inputs } } ∧ noted 0 a data t ∧
          (∀ e, e ≠ d → getDie t e = getDie s e) ∧
          getDie t d = { getDie s d with sram := (getDie t d).sram, sramPoison := (getDie t d).sramPoison } ∧
          ramRead (getDie t d).sram off data.length = data ∧
          (∀ b, b < off ∨ off + data.length ≤ b → ramGet (getDie t d).sram b = ramGet (getDie s d).sram b) ∧
          (∀ l ∈ linesOf off data.length, (getDie t d).sramPoison.contains l = false)) ∧
      (∀ k : ClusterId, space = 1 → k.val = unit → off + data.length ≤ clusterSramBytes →
        ∃ t, exec .write s = .next t ∧ t = { s' with clusters := t.clusters, grp := { s'.grp with inputs := t.grp.inputs } } ∧
          noted 1 a data t ∧ sramHolds t k off data ∧ sramFrame k [(off, data.length)] s t) ∧
      (∀ l, 2 ≤ space.toNat → a = 64 * l → data.length = 64 → lineHeld s l →
        kindOf s (lineStripe l) = (if space = 2 then 4 else 1) →
        ∃ t, exec .write s = .next t ∧ t = { s with
            clusters := t.clusters, dies := t.dies, canopy := t.canopy, dsm := t.dsm, nlus := t.nlus
            overhang := t.overhang, grp := t.grp, pwr := t.pwr, regs := t.regs, counters := t.counters
            fresh := t.fresh } ∧ lineSeen t l = some (data, false))) ∧
    (∀ (ream tg : W32) (n : Nat) (hash launch : W64), takeRx 0x11 s = some (x, s') → x.body = .work ream n hash tg launch →
      s.grp.role = 2 →
      let ends : Prop := s.grp.toManager = true ∨ s.grp.toLeave = true ∨ s.grp.leaving ≠ none
      let found := (slotOfHash s hash).bind (fun sl => (slotImage s sl).map (fun im => (sl, im)))
      (ends → ∃ t, exec .work s = .next t ∧ t = { s' with counters := t.counters, net := t.net, grp := t.grp } ∧
        handed 0 [.refuseWork ream n (BitVec.ofNat 8 stBusy)] s t) ∧
      (¬ ends → found = none → ∃ t, exec .work s = .next t ∧ t = { s' with counters := t.counters, net := t.net, grp := t.grp } ∧
        handed 0 [.refuseWork ream n (BitVec.ofNat 8 stStale)] s t) ∧
      (¬ ends → found ≠ none → now s + nsT 60000000000 < nsT launch.toNat → ∃ t, exec .work s = .next t ∧
        t = { s' with counters := t.counters, net := t.net, grp := t.grp } ∧
        handed 0 [.refuseWork ream n (BitVec.ofNat 8 stFormat)] s t) ∧
      (∀ sl im, ¬ ends → found = some (sl, im) → nsT launch.toNat ≤ now s + nsT 60000000000 →
        let past : Prop := launch.toNat ≠ 0 ∧ nsT launch.toNat ≤ now s
        let at_ := if nsT launch.toNat ≤ now s then nowNs s + 1 else launch.toNat
        let cores := progsOf im ream [n]
        let dies := launchDies s { emptyReam ream sl 0 0 at_ with share := some (0, n) } im cores
        (allocLaunch dies at_ s = none → ∃ t, exec .work s = .next t ∧ (past → counted cntPast 1 s t) ∧
          t = { s' with counters := t.counters, net := t.net, grp := t.grp } ∧
          handed 0 [.refuseWork ream n (BitVec.ofNat 8 stBusy)] s t) ∧
        (∀ es u, allocLaunch dies at_ s = some (es, u) → reamOf s ream = none →
          ∃ t m, exec .work s = .next t ∧ t = { s with
              cores := t.cores, host := { t.host with sem := s.host.sem }, reams := t.reams, net := t.net
              grp := t.grp, counters := t.counters } ∧ (past → counted cntPast 1 s t) ∧ t.grp = { s'.grp with inputs := [] } ∧
            t.net = s.net ∧ t.reams = s.reams ++ [m] ∧ m.seq = ream ∧ m.slot = sl ∧ m.launchNs = at_ ∧ m.tgen = tg.toNat ∧
            m.share = some (0, n) ∧ m.cores = cores ∧ m.entries = es ∧ m.sealed_ = true ∧ t.host = u.host ∧
            ∀ l ∈ cores, ∀ c : CoreId, c.val = physCore s l →
              let i : CtxId := if ream.toNat % 2 = 0 then 0 else 1
              (getCtx (getCore s c) i).st = .idle →
                (getCtx (getCore t c) i).st = .waitLaunch ∧ (getCtx (getCore t c) i).ream = ream ∧ (getCtx (getCore t c) i).slot = sl))) ∧
    (∀ (ream : W32) (n : Nat) (r : Ream),
      s.reams.find? (fun r => r.seq == ream && (r.share.map (fun x => x.2 == n)).getD false) = some r →
      let outs := ((slotImage s r.slot).map (fun im => shareOutputs s r im n)).getD []
      (∀ sl at_, sl ≠ r.slot ∨ at_ ≠ r.launchNs ∨ reamComplete r = false → exec (.shareEnd ream sl at_ n) s = .next s) ∧
      (reamComplete r = true → (∀ o ∈ outs, o.2.1 ≠ [] ∧ o.2.1.length ≤ 4096) →
        let last := s.reams.filter (fun m => !(m.seq == ream && m.share.isSome))
        let poisoned : Prop := ∃ o ∈ outs, o.2.2 = true
        let said (t : State) (more : List GrpBody) : Prop := ∃ st : Byte, (poisoned → st = BitVec.ofNat 8 stPoison) ∧
          (¬ poisoned → st = BitVec.ofNat 8 stOk) ∧ handed 0 (outs.map (fun o => GrpBody.write 1 o.1 o.2.1) ++ .result ream n st :: more) s t
        let more : Bool := last.any (fun m => m.share.isSome)
        ∃ t, exec (.shareEnd ream r.slot r.launchNs n) s = .next t ∧ t = { s with
            time := t.time, cores := t.cores, dies := t.dies, canopy := t.canopy, trace := t.trace, slots := t.slots
            nlus := t.nlus, pools := t.pools, host := { t.host with sem := s.host.sem }, tbl := t.tbl
            reams := t.reams, net := t.net, rqt := t.rqt, adm := t.adm, grp := t.grp, regs := t.regs
            counters := t.counters, fresh := t.fresh } ∧
          (more = true ∨ (s.grp.toManager = false ∧ s.grp.toLeave = false) → t.reams = last ∧ said t [] ∧
            t = { s with reams := t.reams, counters := t.counters, net := t.net, grp := t.grp }) ∧
          (more = false → s.grp.toManager = false → s.grp.toLeave = true → t.reams = last ∧ said t [.leave] ∧
            t.grp.leaving = some (now s) ∧ t.grp.toLeave = false) ∧
          (more = false → s.grp.toManager = true → promoted (nextEpoch s s.grp.id) s t))) ∧
    (∀ (ream : W32) (n : Nat) (st : Byte) (i : Nat), isManager s = true → rxPeer s x = some i →
      (takeRx 0x12 s = some (x, s') → x.body = .result ream n st →
        let mine : Prop := (reamOf s ream).bind (fun r => (mapGet n r.shares).map (·.1)) = some i
        (¬ mine → exec .result s = .next s') ∧
        (mine → ∃ t, exec .result s = .next t ∧ t = { s' with reams := t.reams, clusters := t.clusters } ∧
          t.reams = s.reams.map (fun r => if r.seq = ream then { r with shares := mapSet n (i, true) r.shares } else r) ∧
          (st.toNat ≠ stPoison → t.clusters = s.clusters) ∧
          (∀ k, getCluster t k = { getCluster s k with sramPoison := (getCluster t k).sramPoison }) ∧
          ∀ r im p (k : ClusterId) row, st.toNat = stPoison → reamOf s ream = some r → slotImage s r.slot = some im → p ∈ im.outputs →
            p.share = n → k.val = logicalClusterPhys s p.cluster.val → row < r.rows.length →
            sramMarked t k (placeAddr p ream row) p.len)) ∧
      (takeRx 0x13 s = some (x, s') → x.body = .refuseWork ream n st →
        let held : Prop := (reamOf s ream).bind (fun r => mapGet n r.shares) = some (i, false)
        ∃ t, exec .refuseWork s = .next t ∧ t = { s with
            cores := t.cores, clusters := t.clusters, dies := t.dies, canopy := t.canopy, trace := t.trace
            slots := t.slots, nlus := t.nlus, pools := t.pools, host := { t.host with sem := s.host.sem }
            tbl := t.tbl, reams := t.reams, net := t.net, rqt := t.rqt, adm := t.adm, grp := t.grp, regs := t.regs
            counters := t.counters, fresh := t.fresh } ∧ counted (cntGrp 7) 1 s t ∧
          (¬ held → t = { s' with counters := t.counters }) ∧
          (held → counted (cntGrp 5) 1 s t ∧ shareMoved i ream n s t ∧
            ∀ r im, reamOf s ream = some r → slotImage s r.slot = some im → r.reqs = [] →
              (∀ w rest, shareTargets s r im n i = w :: rest → (reamOf t ream).bind (fun r => mapGet n r.shares) = some (w, false) ∧
                (im.gather = [] → im.inputs = [] → 0 < r.view → handed w [.work r.seq n (slotPrefix s r.slot) (BitVec.ofNat 32 r.tgen)
                  (BitVec.ofNat 64 (nowNs s + launchLead s))] s t)) ∧
              (shareTargets s r im n i = [] →
                let own := allocLaunch (launchDies s r im (progsOf im ream [n])) (nowNs s + launchLead s) s
                (own = none → reamOf t ream = none) ∧
                (own ≠ none → ∃ r', reamOf t ream = some r' ∧ mapGet n r'.shares = some (0, true) ∧
                  r'.launchNs = nowNs s + launchLead s ∧ r'.launched = false))))) ∧
    (∀ e : JEntry, takeRx 0x14 s = some (x, s') → x.body = .journal e →
      let v := cfgField s 0x13 0
      let n := bits v 52 26 * 53248 / 2 ^ 20
      let at_ := bits v 25 0 * 53248 + e.handle * n
      let bs := (Config.journalBytes e).take n
      ∃ t, exec .journal s = .next t ∧ t = { s with
          canopy := t.canopy, dsm := t.dsm, nlus := t.nlus, overhang := t.overhang, grp := t.grp, pwr := t.pwr
          regs := t.regs, counters := t.counters, fresh := t.fresh } ∧ t.grp = { s'.grp with held := mapSet e.handle e s.grp.held, holder := true } ∧
        ((∀ l ∈ linesOf at_ bs.length, lineHeld s l) → (bytesSeen t at_ bs.length).map (·.1) = some bs)) ∧
    (∀ hs : List Nat, takeRx 0x15 s = some (x, s') → x.body = .release hs →
      ∃ t, exec .release s = .next t ∧ t = { s' with grp := { s'.grp with held := t.grp.held } } ∧
        ∀ k, mapGet k t.grp.held = if k ∈ hs then none else mapGet k s.grp.held) ∧
    (∀ cs : List (PeerId × Option Member), takeRx 0x16 s = some (x, s') → x.body = .members cs →
      ∃ t ms, exec .members s = .next t ∧
        t = { s' with grp := { s'.grp with members := t.grp.members, holder := t.grp.holder, held := t.grp.held } } ∧
        (∀ j, (∀ c ∈ cs, c.1.val ≠ j) → mapGet j ms = mapGet j s.grp.members) ∧
        (∀ a b j v, cs = a ++ (j, v) :: b → (∀ c ∈ b, c.1 ≠ j) → mapGet j.val ms = v) ∧
        t.grp.holder = ((mapGet s.grp.id ms).map (·.holder)).getD true ∧
        (t.grp.holder = true → t.grp.members = ms ∧ t.grp.held = s.grp.held) ∧
        (t.grp.holder = false → t.grp.members = [] ∧ t.grp.held = [])) ∧
    (∀ (tb : TableId) (desc : Bytes) (a : Nat) (data : Bytes) (gen : W32) (last : Bool) (y : Tbl), takeRx 0x17 s = some (x, s') →
      x.body = .tableCopy tb desc a data gen last → getTbl s tb.val = some y →
      (last = true → ∃ t, exec .table s = .next t ∧
        t = (setTbl tb.val { y with gen := gen.toNat } { s' with grp := { s'.grp with copied := setIns tb.val s.grp.copied } })) ∧
      (last = false → a < rowArea → a % 64 = 0 → data.length = 64 → bucketHeld s y.desc (a / 64) →
        (∃ es, slotsSeen s y.desc (a / 64) = some es) → ∃ t, exec .table s = .next t ∧ t = { s with
            canopy := t.canopy, dsm := t.dsm, nlus := t.nlus, overhang := t.overhang
            host := { t.host with sem := s.host.sem }, tbl := t.tbl, grp := t.grp, pwr := t.pwr, regs := t.regs
            counters := t.counters, fresh := t.fresh } ∧ t.grp = s'.grp ∧ t.host = s.host ∧
          slotsSeen t y.desc (a / 64) = some (decodeBucket data)) ∧
      (∀ l, last = false → y.desc.rowBase + a = rowArea + 64 * l → rowArea ≤ a → data.length = 64 → lineHeld s l →
        ∃ t, exec .table s = .next t ∧ t = { s with
            canopy := t.canopy, dsm := t.dsm, nlus := t.nlus, overhang := t.overhang
            host := { t.host with sem := s.host.sem }, tbl := t.tbl, grp := t.grp, pwr := t.pwr, regs := t.regs
            counters := t.counters, fresh := t.fresh } ∧ t.grp = s'.grp ∧ t.host = s.host ∧ t.tbl = s.tbl ∧
          lineSeen t l = some (data, false))) ∧
    ∀ (tb : TableId) (recs : List BatchRec) (expect : W32) (launch : W64) (y : Tbl), takeRx 0x17 s = some (x, s') →
      x.body = .tableBatch tb recs expect launch → getTbl s tb.val = some y →
      let due := dueOf s launch.toNat
      let at_ := if due ≤ now s + 1 then some ([], s) else allocLaunch [0] launch.toNat s
      let ch : Change :=
        { who := .group (acceptKey (nowNs s) 63 1 63 s.host.accepted), recs := recs, expect := expect.toNat, due := due }
      (now s + nsT 60000000000 < nsT launch.toNat → exec .table s = .next s') ∧
      (nsT launch.toNat ≤ now s + nsT 60000000000 → at_ = none → exec .table s = .next s) ∧
      ∀ es u, nsT launch.toNat ≤ now s + nsT 60000000000 → at_ = some (es, u) →
        ∃ t, exec .table s = .next t ∧
          t = { s' with
            tbl := t.tbl, counters := t.counters, host := { s.host with accepted := s.host.accepted + 1, launch := u.host.launch } } ∧
          cntsKeep [cntPast] s t ∧ (launch.toNat ≠ 0 → nsT launch.toNat ≤ now s → counted cntPast 1 s t) ∧
          (∀ j, j ≠ tb.val → getTbl t j = getTbl s j) ∧
          getTbl t tb.val = some { y with
            queue := y.queue.filter (fun c => decide (changeSeq c ≤ changeSeq ch)) ++ ch :: y.queue.filter (fun c => decide (changeSeq ch < changeSeq c)) }

/-! ### Faults, the canopy and fences -/

/-- CANOPY_REPORT, MERGE_WINDOW_END, ROOT_ACTION, KEEPALIVE_SEND and NODE_LOST: a link's order, merging by fault ID,
full tables, counting at the root, windthrows and their suspect, and lost nodes (R14, R394 to R399, R413). The ranks of
firebreaks follow R389. A command whose event is not due, or whose condition is absent, leaves the state (DESIGN
CHOICE, log 2). The model's choices in logs 53, 54, 55 and 57 bear on it. -/
def Obligations.Canopy : Prop :=
  ∀ (s : State),
    let log (t : State) : Prop := t.canopy.log = s.canopy.log ∧ t.canopy.logWritten = s.canopy.logWritten
    let logged (r : Report) (a : FaultAct) (t : State) : Prop := mapGet (s.canopy.logWritten % 1024) t.canopy.log = some (faultBytes r a)
    (∀ (node : UnitCode) (r : Report),
      let left := ((takeFirst (fun x => x.1 == node && x.2 == r) s.canopy.transit).map (·.2)).getD s.canopy.transit
      let same (f : Report) (w : CanWindow) : Bool := w.node == node && sameFault w.first f
      let open_ := (s.canopy.windows.filter (fun w => w.node == node && !(w.first.code == 0x56 && w.first.suspect == node))).length
      let full : Bool := !s.canopy.windows.any (same r) && decide (nodeCap node ≤ open_)
      let f := if full then { r with code := 0x56, suspect := node, alt := 0 } else r
      let found := s.canopy.windows.find? (same f)
      let merged (w v : CanWindow) : CanWindow := if v = w then { w with
          count := w.count + f.count
          reporters := if f.reporter ∈ w.reporters then w.reporters else w.reporters ++ [f.reporter]
          moreReporters := w.moreReporters + (f.reporters - 1) } else v
      let opened : CanWindow :=
        { node := node, first := f, endsAt := now s + usT 4, count := f.count, reporters := [f.reporter], moreReporters := f.reporters - 1 }
      (behind node r s = true → exec (.canopyReport node r) s = .next s) ∧
      (behind node r s = false → (∀ w ∈ s.canopy.windows, w.node = node → now s < w.endsAt) →
      (node ≠ ucPackage → ∃ t, exec (.canopyReport node r) s = .next t ∧
        t = { s with regs := t.regs, canopy := { s.canopy with
          transit := t.canopy.transit, windows := t.canopy.windows, sram := t.canopy.sram } } ∧
        (∀ w, found = some w → t.canopy.windows = s.canopy.windows.map (merged w) ∧ t.canopy.transit = left) ∧
        (found = none → t.canopy.windows = s.canopy.windows ++ [opened] ∧ t.canopy.transit = left ++ [(parentNode node, f)]) ∧
        (full = true → bit (regW t 0x300000 0) 21 = true) ∧ (full = false → t.regs = s.regs)) ∧
      (node = ucPackage → (∀ w ∈ s.canopy.roots, now s < w.endsAt) →
        let before (u : UnitCode) : RootWin := (s.canopy.roots.find? (fun w => w.unit == u)).getD
          { unit := u, endsAt := now s + usT 4, count := 0, windthrow := false, reports := [] }
        let hits (u : UnitCode) : Bool := !(before u).windthrow && decide (64 ≤ (before u).count + r.count)
        ∃ t, exec (.canopyReport node r) s = .next t ∧
          t = { s with
            canopy := t.canopy, regs := t.regs, counters := t.counters, trace := t.trace, recorder := t.recorder, freeze := t.freeze,
            snaps := t.snaps, fresh := t.fresh } ∧
          t.canopy.transit = left ∧ counted (cntFlt 0) 1 s t ∧ countedEach (cntFlt 2) ((namedUnits r).filter hits).length s t ∧
          ((namedUnits r).any hits = true → bit (regW t 0x300000 0) 20 = true) ∧
          (∀ u ∈ namedUnits r, ∃ w, t.canopy.roots.find? (fun w => w.unit == u) = some w ∧ w.count = (before u).count + r.count ∧
            w.endsAt = (before u).endsAt ∧ w.windthrow = ((before u).windthrow || hits u) ∧ r ∈ w.reports.map (·.1)) ∧
          ((namedUnits r).any (fun u => hits u || (before u).windthrow) = true → log t ∧ t.canopy.windows = s.canopy.windows) ∧
          ((∀ w ∈ s.canopy.roots, w.windthrow = false) → (∀ u ∈ namedUnits r, hits u = false) →
            (∀ w, found = some w → t.canopy.windows = s.canopy.windows.map (merged w) ∧ log t) ∧
            (found = none → t.canopy.windows = s.canopy.windows ++ [opened] ∧
              logged f (FaultAct.plain (actOfCode f.code.toNat)) t ∧ counted (cntFlt 1) 1 s t))))) ∧
    (∀ (node : UnitCode) (code : W16) (suspect alt : UnitCode),
      let found := s.canopy.windows.find? (fun w =>
        w.node == node && w.first.code == code && w.first.suspect == suspect && w.first.alt == alt && decide (w.endsAt ≤ now s))
      (found = none → exec (.mergeWindowEnd node code suspect alt) s = .next s) ∧
      (∀ w, found = some w →
        let r : Report := { w.first with count := w.count, reporters := w.reporters.length + w.moreReporters }
        ∃ t, exec (.mergeWindowEnd node code suspect alt) s = .next t ∧ t = { s with
            canopy := t.canopy, trace := t.trace, recorder := t.recorder, freeze := t.freeze, counters := t.counters
            snaps := t.snaps, fresh := t.fresh } ∧
          t.canopy.windows = s.canopy.windows.filter (· != w) ∧
          (w.count ≤ w.first.count → t = { s with canopy := t.canopy } ∧ t.canopy.transit = s.canopy.transit ∧ log t) ∧
          (w.first.count < w.count → node ≠ ucPackage → t.canopy.transit = s.canopy.transit ++ [(parentNode node, r)] ∧ log t) ∧
          (w.first.count < w.count → node = ucPackage → (∀ v ∈ s.canopy.roots, v.windthrow = false) →
            t.canopy.transit = s.canopy.transit ∧ logged r (FaultAct.plain (actOfCode r.code.toNat)) t))) ∧
    (∀ (unit : UnitCode),
      let found := s.canopy.roots.find? (fun w => w.unit == unit && decide (w.endsAt ≤ now s))
      (found = none → exec (.rootAction unit) s = .next s) ∧
      (∀ w, found = some w →
        let u : State := { s with canopy := { s.canopy with roots := s.canopy.roots.filter (fun v => v.unit != unit) } }
        let mine := (w.reports.filter (fun p => !p.2 && p.1.suspect == unit)).map (·.1)
        let has (c : W16) : Bool := mine.any (fun r => r.code == c)
        let i := ucIndex unit
        let rs := w.reports.map (·.1)
        let us := (rs.map namedUnits).flatten
        ∃ t, exec (.rootAction unit) s = .next t ∧ t = { s with
            cores := t.cores, dies := t.dies, canopy := t.canopy, trace := t.trace, slots := t.slots
            recorder := t.recorder, freeze := t.freeze, tport := t.tport, dsm := t.dsm, nlus := t.nlus
            pools := t.pools, host := t.host, tbl := t.tbl, reams := t.reams, net := t.net, rqt := t.rqt
            adm := t.adm, grp := t.grp, pwr := t.pwr, regs := t.regs, counters := t.counters, snaps := t.snaps
            fresh := t.fresh } ∧
          (w.windthrow = false → (mine = [] → t = u) ∧
            (mine ≠ [] → ucClass unit = 3 → i < 32 → has 0x32 = true → clusterActive s i = true → (unitRec t unit).st = 1) ∧
            (mine ≠ [] → ucClass unit = 5 → i < 16 → has 0x22 = true → stackLost t i = true) ∧
            (mine ≠ [] → ucClass unit ∉ [3, 5] → t = evalHandover u)) ∧
          (w.windthrow = true → ∀ first rest, rs = first :: rest →
            ∃ best ∈ us, (∀ v ∈ us, ranksBefore rs v best = false) ∧
              logged { first with suspect := best, alt := 0, count := w.count, reporters := reportersOf rs best }
                { act := match ucClass best with
                    | 3 => 4
                    | 5 => if rs.any (fun r => (namedUnits r).contains best && r.code == 0x22) then 6 else 0
                    | _ => 0
                  windthrow := true, partners := partnersOf rs us.eraseDups best } t ∧
              (ucClass best = 3 → ucIndex best < 32 → clusterActive s (ucIndex best) = true → (unitRec t best).st = 1) ∧
              (ucClass best = 7 → ucIndex best < 15 → (unitRec t best).st = 2) ∧
              (ucClass best = 4 → ucIndex best < 6 → (unitRec t best).st = 2) ∧
              (ucClass best ≠ 4 → ∀ v, v ≠ best → unitRec t v = unitRec s v)))) ∧
    (∀ (silent : List UnitCode),
      ∃ t, exec (.keepaliveSend silent) s = .next t ∧ t = { s with canopy := { s.canopy with keepalive := t.canopy.keepalive } } ∧
        ∀ n ∈ canopyNodes, mapGet n t.canopy.keepalive =
          if silent.any (fun v => v.toNat == n) then mapGet n s.canopy.keepalive else some (now s)) ∧
    (∀ (unit : UnitCode),
      let i := ucIndex unit
      let down (d : NDie) (v : State) : Prop := unitLost v (ucNet d) = true ∧ (∀ k, rqtDie k = d → getReq v k = none) ∧
        ∀ l, laneDie l = d → l < 16 → (getLane v l).st = 0 ∧ (getLane v l).lost = true ∧ (getEPort v l).st = 0
      ((unit.toNat ∉ canopyNodes ∨ nodeSilent s unit = false) → exec (.nodeLost unit) s = .next s) ∧
      (unit.toNat ∈ canopyNodes → nodeSilent s unit = true → ∃ t v, exec (.nodeLost unit) s = .next t ∧ t = { s with
          cores := t.cores, dies := t.dies, canopy := t.canopy, trace := t.trace, slots := t.slots
          recorder := t.recorder, freeze := t.freeze, tport := t.tport, dsm := t.dsm, nlus := t.nlus
          pools := t.pools, host := t.host, tbl := t.tbl, reams := t.reams, net := t.net, rqt := t.rqt, adm := t.adm
          grp := t.grp, pwr := t.pwr, regs := t.regs, counters := t.counters, snaps := t.snaps, fresh := t.fresh } ∧
        t = evalHandover v ∧ v.canopy.handedOver = s.canopy.handedOver ∧
        (ucClass unit = 2 → coreActive s i = true → (unitRec v unit).st = 1 ∧ (unitRec v unit).cause = 0x33) ∧
        (ucClass unit = 3 → clusterActive s i = true → (unitRec v unit).st = 1 ∧ (unitRec v unit).cause = 0x33) ∧
        (∀ d : CDie, unit = ucSpine d → unitLost s unit = false → unitLost v unit = true ∧
          (∀ x : StackId, x.val / 4 = d.val → stackLost v x.val = true) ∧ ∀ k, 8 * d.val ≤ k → k < 8 * d.val + 8 → clusterActive v k = false) ∧
        (∀ d : NDie, unit = ucNet d → unitLost s unit = false → down d v ∧ (getPort v (match d with | .n0 => .h0 | .n1 => .h1)).linkUp = false ∧
          (d = .n0 → (∀ k ∈ s.adm.offers ++ s.adm.carried, getReq v k = none) ∧ ∀ r ∈ v.reams, r.sealed_ = true))))

/-- FENCE_CMD, UNFENCE_CMD, UNFENCE_APPLY, FELT_LINK_LOST, HANDOVER_CLEAR and the clearing of strikes after 65,536
clean executions (R90, R118, R137, R182, R396, R401, R402, R404, R406, R410 to R412). A command whose event is not due,
or whose condition is absent, leaves the state (DESIGN CHOICE, log 2). The model's choices in logs 55 and 56 bear on
it. -/
def Obligations.Fences : Prop :=
  ∀ (s : State),
    let u := fenceUnit s
    let only (status : Nat) (t : State) : Prop := t = { s with regs := t.regs } ∧ regsKeep [regKey 0x300008 0] s t ∧
      regF t 0x300008 0 31 24 = status
    (∀ p : HPort, barUp s = true → holdsSem s p = false →
      (∃ t, exec (.fenceCmd p) s = .next t ∧ rwsDiscarded p 0x300008 s t) ∧
      (∃ t, exec (.unfenceCmd p) s = .next t ∧ rwsDiscarded p 0x300008 s t)) ∧
    (∀ p : HPort, barUp s = true → holdsSem s p = true →
      (fenceable u = false → ∃ t, exec (.fenceCmd p) s = .next t ∧ only stFormat t) ∧
      (fenceable u = true → ∃ t, exec (.fenceCmd p) s = .next t ∧ t = { s with
          cores := t.cores, dies := t.dies, canopy := t.canopy, trace := t.trace, recorder := t.recorder
          freeze := t.freeze, nlus := t.nlus, pools := t.pools, host := { t.host with sem := s.host.sem }
          tbl := t.tbl, reams := t.reams, net := t.net, adm := t.adm, grp := t.grp, regs := t.regs
          counters := t.counters, snaps := t.snaps, fresh := t.fresh } ∧ t.host = s.host ∧
        regF t 0x300008 0 31 24 = stOk ∧ unitActive t u = false ∧
        (unitActive s u = true → (unitRec t u).st = 1 ∧ (unitRec t u).cause = 0x50) ∧
        (unitActive s u = false → t.cores = s.cores ∧ t.canopy.coreMap = s.canopy.coreMap ∧ t.canopy.clusterMap = s.canopy.clusterMap) ∧
        (∀ (c : CoreId) (m : MeId) (r : MmaRun), u = ucEngine c m → unitActive s u = true → (getEngine (getCore s c) m).reexec = some r →
          getCore t c = { setEngine m { getEngine (getCore s c) m with reexec := none } (getCore s c) with
            reissue := (getCore s c).reissue ++ [{ r with moved := true }] } ∧ coreFrame c s t) ∧
        (∀ c : CoreId, u = ucCore c → unitActive s u = true → t.cores = s.cores ∧
          (∀ ctx, (getCtx (getCore s c) ctx).st ≠ .idle → (getCtx (getCore s c) ctx).ream ∈ t.canopy.relaunch) ∧
          ∀ j : CoreId,
            let can (j : CoreId) : Prop := j.val / 8 = c.val / 8 ∧ j ≠ c ∧ coreActive s j.val = true ∧ segsFit (getCore s c) (getCore s j) = true
            let load (j : CoreId) : Nat := (logicalsOfCore s j.val).length
            can j → (∀ j', can j' → load j < load j' ∨ (load j = load j' ∧ j.val ≤ j'.val)) →
            ∀ l < 256, logicalCorePhys t l = if logicalCorePhys s l = c.val then j.val else logicalCorePhys s l) ∧
        (∀ k : ClusterId, u = unitCode 3 k.val → unitActive s u = true → t.cores = s.cores ∧
          ∀ j : ClusterId,
            let can (j : ClusterId) : Prop := j ≠ k ∧ clusterActive s j.val = true ∧ (j.val / 8 = k.val / 8 ∨
              ∀ m : ClusterId, m ≠ k → clusterActive s m.val = true → m.val / 8 ≠ k.val / 8 ∧ j.val / 8 ≤ m.val / 8)
            let load (j : ClusterId) : Nat := (logicalsOfCluster s j.val).length
            can j → (∀ j', can j' → load j < load j' ∨ (load j = load j' ∧ j.val ≤ j'.val)) →
            ∀ l < 32, logicalClusterPhys t l = if logicalClusterPhys s l = k.val then j.val else logicalClusterPhys s l)) ∧
      ((fenceable u = false ∨ unfenceRefused s u = true) → ∃ t, exec (.unfenceCmd p) s = .next t ∧ only stFormat t) ∧
      (fenceable u = true → unfenceRefused s u = false → ∃ t, exec (.unfenceCmd p) s = .next t ∧
        t = { s with regs := t.regs, canopy := { s.canopy with
          unfence := s.canopy.unfence ++ [(u, if reamWindow s = 0 then 0 else windowOf s (nowNs s) + 1)] } } ∧
        regsKeep [regKey 0x300008 0] s t ∧ regF t 0x300008 0 31 24 = stOk)) ∧
    (let due (x : UnitCode × Nat) : Prop := x.2 ≤ windowOf s (nowNs s)
     let home (v : UnitCode) : Prop := (∃ n, (v, n) ∈ s.canopy.unfence ∧ due (v, n)) ∧ (unitRec s v).st = 1
     ∃ t, exec .unfenceApply s = .next t ∧ t = { s with
         cores := t.cores, clusters := t.clusters, canopy := t.canopy, pwr := t.pwr, fresh := t.fresh } ∧ (∀ x, x ∈ t.canopy.unfence ↔ x ∈ s.canopy.unfence ∧ ¬ due x) ∧
      (∀ v, home v → unitActive t v = true) ∧ (∀ v, ¬ home v → unitRec t v = unitRec s v) ∧
      (∀ c : CoreId, home (ucCore c) → (getDom t c.val).st = 2 ∧ logicalCorePhys t c.val = c.val ∧ (getCore t c).ve.strike = false ∧ (getCore t c).te.strike = false) ∧
      (∀ (c : CoreId) (m : MeId), home (ucEngine c m) →
        (getEngine (getCore t c) m).deckleStrike = false ∧ (getEngine (getCore t c) m).checkStrike = false) ∧
      (∀ k : ClusterId, home (unitCode 3 k.val) → logicalClusterPhys t k.val = k.val ∧ (getDom t (256 + k.val)).st = 2 ∧
        ∀ c < 256, c / 8 = k.val → (getDom t c).st = 2)) ∧
    (∀ link : Fin 15,
      (unitLost s (ucFelt link.val) = true → exec (.feltLinkLost link) s = .next (evalHandover s)) ∧
      (unitLost s (ucFelt link.val) = false → ∃ t, exec (.feltLinkLost link) s = .next t ∧ t = { s with
          cores := t.cores, dies := t.dies, canopy := t.canopy, trace := t.trace, recorder := t.recorder
          freeze := t.freeze, nlus := t.nlus, pools := t.pools, host := { t.host with sem := s.host.sem }
          tbl := t.tbl, reams := t.reams, net := t.net, adm := t.adm, grp := t.grp, counters := t.counters
          snaps := t.snaps, fresh := t.fresh } ∧
        (unitRec t (ucFelt link.val)).st = 2 ∧ (unitRec t (ucFelt link.val)).cause = 0x33 ∧ t.canopy.handedOver = true ∧
        (∃ r, t.canopy.transit = s.canopy.transit ++ [(reportNode ucPackage, r)] ∧ r.code = 0x33 ∧ r.suspect = ucFelt link.val) ∧
        (s.canopy.handedOver = true → t.adm = s.adm ∧ t.grp = s.grp ∧ t.reams = s.reams) ∧
        (s.canopy.handedOver = false → unitActive s (ucNet .n0) = true →
          (s.grp.role = 0 ∨ (s.grp.role = 1 ∧ readyHolder s = none) → t.adm = { s.adm with shedAll := true } ∧ t.grp = s.grp) ∧
          (s.grp.role = 2 → t.grp.leaving = some (now s) ∧ (∀ r ∈ t.reams, r.share = none) ∧ handed 0 [.leave] s t) ∧
          (s.grp.role = 3 → t.adm = s.adm ∧ t.grp = s.grp) ∧
          (∀ h, s.grp.role = 1 → readyHolder s = some h → t.adm = s.adm ∧ t.grp = { s.grp with peers := t.grp.peers } ∧
            ∀ j p, workers s = [j] → getPeer s j = some p → canSend (peerPort s p) 1 (.promote (nextEpoch s h)) s →
              groupSent (peerPort s p) (sentHdr s (some j) 0 p.expect (.promote (nextEpoch s h))) (.promote (nextEpoch s h)) s t)))) ∧
    (∀ p : HPort, barUp s = true →
      let holds : Prop := regF s 0x300004 0 6 0 < fencedCores s ∨ s.dsm.st = 4 ∨ (∃ d < 6, unitActive s (unitCode 4 d) = false) ∨
        ∃ l < 15, unitActive s (ucFelt l) = false
      (holds → exec (.handoverClear p) s = .next s) ∧
      (¬ holds → ∃ t, exec (.handoverClear p) s = .next t ∧
        t = { s with canopy := { s.canopy with handedOver := false }, adm := { s.adm with shedAll := false } })) ∧
    ∀ (c : CoreId) (m : MeId),
      let x := getCore s c
      let e := getEngine x m
      let clears (i : Instr) (strike : Bool) (clean : Nat) (y : CoreState) : Prop :=
        ∃ t, exec i s = .next t ∧ t = { s with cores := t.cores } ∧ coreFrame c s t ∧
          getCore t c = if strike = true ∧ 65536 ≤ clean then y else x
      clears (.deckleStrikeClear c m) e.deckleStrike e.deckleClean (setEngine m { e with deckleStrike := false, deckleClean := 0 } x) ∧
      clears (.checkStrikeClear c m) e.checkStrike e.checkClean (setEngine m { e with checkStrike := false, checkClean := 0 } x) ∧
      clears (.residueStrikeClear c) x.ve.strike x.ve.clean { x with ve := { x.ve with strike := false, clean := 0 } } ∧
      clears (.parityStrikeClear c) x.te.strike x.te.clean { x with te := { x.te with strike := false, clean := 0 } }

/-! ### Power, boot and security -/

/-- Sleep and wakes of the power domains, WAKE_FAIL, stretching for droop, the power cap, temperature and AVS,
THERMTRIP and the quiet clock (R42, R43, R415, R416, R418 to R424, R453, R480, R483). What sleep leaves in memory and
how long a stretch lasted in cycles are free (DESIGN CHOICE, logs 8 and 11). A command whose event is not due, or whose
condition is absent, leaves the state (DESIGN CHOICE, log 2). -/
def Obligations.Power : Prop :=
  ∀ (s : State),
    let others (n : Nat) (t : State) : Prop := ∀ m, m ≠ n → getDom t m = getDom s m
    let doms (t : State) : Prop := t.pwr = { s.pwr with doms := t.pwr.doms }
    let enters (n : Nat) (t : State) : Prop := doms t ∧ others n t ∧
      getDom t n = { getDom s n with st := 1, gtNs := nowNs s, since := now s }
    let wakes (n cnt : Nat) (t : State) : Prop := t = { s with pwr := t.pwr, counters := t.counters } ∧ doms t ∧ others n t ∧
      cntsKeep [cntPwr cnt] s t ∧
      (domState s n = 2 → counted (cntPwr cnt) 1 s t ∧ getDom t n = { getDom s n with
        st := 3, wakes := min ((getDom s n).wakes + 1) (2 ^ 24 - 1), gtNs := nowNs s, since := now s, retried := false }) ∧
      (domState s n = 1 → (getDom s n).want = false →
        counted (cntPwr cnt) 1 s t ∧ getDom t n = { getDom s n with want := true }) ∧
      ((domState s n ≠ 2 ∧ domState s n ≠ 1) ∨ (domState s n = 1 ∧ (getDom s n).want = true) → t = s)
    let far (n wake : Nat) : Prop := ∀ l ∈ pendingLaunches s, n ∈ l.2 → now s + nsT wake + usT (policy s 23 16) ≤ nsT l.1
    let stretch (t : State) : Prop := t = { s with
      stretch := t.stretch, freeze := t.freeze, counters := t.counters, fresh := t.fresh, pwr := t.pwr }
    (∀ c : CoreId,
      let x := getCore s c
      let able : Prop := domState s c.val = 4 ∧ (∀ y ∈ x.ctxs.toList, y.st = .idle ∨ y.st = .waitLaunch) ∧ x.te.stream = [] ∧
        x.lastRun + usT (policy s 7 0) ≤ now s ∧ far c.val 2000 ∧ heldAwake s (c.val / 8) = false
      (able → ∃ t, exec (.coreSleep c) s = .next t ∧ t = { s with
          trace := t.trace, freeze := t.freeze, pwr := t.pwr, counters := t.counters, fresh := t.fresh } ∧ enters c.val t) ∧
      (¬ able → exec (.coreSleep c) s = .next s)) ∧
    (∀ k : ClusterId,
      let able : Prop := domState s (256 + k.val) = 4 ∧ far (256 + k.val) 5000 ∧ heldAwake s k.val = false ∧
        ∀ c : CoreId, c.val / 8 = k.val →
          (coreActive s c.val = false ∨ domState s c.val = 2) ∧ (getCore s c).lastRun + usT (policy s 15 8) ≤ now s
      (able → ∃ t, exec (.clusterSleep k) s = .next t ∧ t = { s with
          trace := t.trace, freeze := t.freeze, pwr := t.pwr, counters := t.counters, fresh := t.fresh } ∧ enters (256 + k.val) t) ∧
      (¬ able → exec (.clusterSleep k) s = .next s)) ∧
    (∀ st : StackId,
      let able : Prop := policy s 24 24 = 1 ∧ domState s (292 + st.val) = 4 ∧
        mapGetD 0 st.val s.dsm.used + msT (regF s 0x200008 0 15 0) ≤ now s ∧ far (292 + st.val) 22000
      (able → ∃ t, exec (.stackSelfRefresh st) s = .next t ∧ t = { s with
          trace := t.trace, freeze := t.freeze, pwr := t.pwr, counters := t.counters, fresh := t.fresh } ∧ enters (292 + st.val) t) ∧
      (¬ able → exec (.stackSelfRefresh st) s = .next s)) ∧
    (∀ l : LaneId,
      let able : Prop := policy s 25 25 = 1 ∧ portEn s (portOfLane s l.val).1 = false ∧ domState s (316 + l.val) = 4
      (able → ∃ t, exec (.laneStandby l) s = .next t ∧ t = { s with
          trace := t.trace, freeze := t.freeze, net := t.net, pwr := t.pwr, counters := t.counters, fresh := t.fresh } ∧ enters (316 + l.val) t ∧
        t.net = { s.net with lanes := t.net.lanes } ∧ getLane t l.val = { getLane s l.val with st := 3 } ∧
        ∀ j, j ≠ l.val → getLane t j = getLane s j) ∧
      (¬ able → exec (.laneStandby l) s = .next s)) ∧
    (∀ dom : DomainId,
      let n := dom.val
      let d := getDom s n
      let beyond : Prop := domState s n = 1 ∧ d.since + nsT (entryNs n) ≤ now s
      (¬ beyond → exec (.sleepEntryEnd dom) s = .next s) ∧
      (beyond → ∃ t, exec (.sleepEntryEnd dom) s = .next t ∧ t = { s with
          cores := t.cores, clusters := t.clusters, trace := t.trace, freeze := t.freeze, pwr := t.pwr
          counters := t.counters, fresh := t.fresh } ∧ doms t ∧ others n t ∧
        (d.want = false → getDom t n = { d with st := 2, gtNs := nowNs s, since := now s }) ∧
        (d.want = true → getDom t n = { d with
          st := 3, want := false, wakes := min (d.wakes + 1) (2 ^ 24 - 1), gtNs := nowNs s, since := now s, retried := false }) ∧
        (∀ c : CoreId, getCore t c = if c.val = n then { getCore s c with
          tile := (getCore t c).tile, tilePoison := [], banks := (getCore t c).banks } else getCore s c) ∧
        (∀ k : ClusterId, getCluster t k = if 256 + k.val = n then { getCluster s k with
          sram := (getCluster t k).sram, sramPoison := [] } else getCluster s k) ∧
        (∀ k : ClusterId, 256 + k.val = n → ∀ x, mapGet k.val s.trace = some x →
          ((mapGet k.val t.trace).map (·.fifo.words)) = some [] ∧ counted (cntObs 1) x.fifo.words.length s t) ∧
        (n < 256 ∨ 288 ≤ n → t.trace = s.trace ∧ t.counters = s.counters)) ∧
      let named : Prop := (∃ l ∈ pendingLaunches s, n ∈ l.2 ∧ nsT l.1 ≤ now s + wakeLeft s n (now s)) ∨ ∃ l ∈ s.pwr.late, l.1 = n
      (named → ∃ t, exec (.prewake dom) s = .next t ∧ wakes n 0 t) ∧
      (¬ named → exec (.prewake dom) s = .next s) ∧
      (∃ t, exec (.demandWake dom) s = .next t ∧ wakes n 1 t) ∧
      let awake : Prop := domState s n = 3 ∧ d.since + nsT (wakeNs n) ≤ now s
      let failed : Prop := domState s n = 3 ∧ wakeNs n ≠ 0 ∧ d.since + nsT (4 * wakeNs n) ≤ now s
      let reported (suspect : UnitCode) (t : State) : Prop :=
        ∃ r ∈ t.canopy.transit, r.2.code = 0x32 ∧ r.2.suspect = suspect ∧ r.2.reporter = domUnit n
      (¬ awake → exec (.wakeEnd dom) s = .next s) ∧
      (awake → ∃ t, exec (.wakeEnd dom) s = .next t ∧ t = { s with
          trace := t.trace, freeze := t.freeze, net := t.net, pwr := t.pwr, counters := t.counters, fresh := t.fresh } ∧ doms t ∧ (getDom t n).st = 4 ∧ (getDom t n).since = now s ∧
        (n < 256 ∨ 288 ≤ n → others n t) ∧
        (∀ k : ClusterId, n = 256 + k.val → ∀ m, m ≠ n →
          getDom t m = if m / 8 = k.val ∧ m < 256 ∧ ((∃ l ∈ pendingLaunches s, m ∈ l.2) ∨ ∃ l ∈ s.pwr.late, l.1 = m) ∧
              (domState s m = 2 ∨ domState s m = 3) then
            { getDom s m with st := 4, gtNs := nowNs s, since := now s } else getDom s m) ∧
        (∀ l : LaneId, n = 316 + l.val → (getLane s l.val).st = 3 → (getLane t l.val).st = 1)) ∧
      (¬ failed → exec (.wakeFail dom) s = .next s) ∧
      (failed → ∃ t, exec (.wakeFail dom) s = .next t ∧ t = { s with
          canopy := t.canopy, slots := t.slots, dsm := t.dsm, nlus := t.nlus, reams := t.reams, net := t.net
          rqt := t.rqt, adm := t.adm, grp := t.grp, pwr := t.pwr, counters := t.counters, fresh := t.fresh } ∧ counted (cntPwr 2) 1 s t ∧
        (n < 256 → d.retried = false → reported (domUnit n) t ∧ getDom t n = { d with since := now s, retried := true } ∧
          t = { s with pwr := { s.pwr with doms := t.pwr.doms }, canopy := t.canopy, counters := t.counters, fresh := t.fresh }) ∧
        (n < 256 → d.retried = true → reported (unitCode 3 (n / 8)) t ∧ clusterActive t (n / 8) = false) ∧
        (256 ≤ n → n < 288 → reported (domUnit n) t ∧ clusterActive t (n - 256) = false) ∧
        (292 ≤ n → n < 308 → reported (domUnit n) t ∧ stackLost t (n - 292) = true) ∧
        (308 ≤ n → n < 316 → reported (domUnit n) t ∧ (getDom t n).st = 2 ∧ ∀ g ∈ pipePorts s (n - 308), (getEPort t g).st = 0) ∧
        (316 ≤ n → n < 332 → reported (domUnit n) t ∧ (getDom t n).st = 2 ∧ (getLane t (n - 316)).lost = true))) ∧
    (∀ k : ClusterId,
      ((∃ p ∈ s.stretch.droop, p.1 = k.val) → exec (.droop k) s = .next s) ∧
      ((∀ p ∈ s.stretch.droop, p.1 ≠ k.val) → ∃ t, exec (.droop k) s = .next t ∧
        t = { s with stretch := { s.stretch with droop := mapSet k.val (now s) s.stretch.droop }, freeze := t.freeze, counters := t.counters } ∧
        counted (cntPwr 3) 1 s t ∧ cntsKeep [cntPwr 3] s t) ∧
      (∀ a, mapGet k.val s.stretch.droop = some a →
        (now s < a + nsT 100 → exec (.droopRecover k) s = .next s) ∧
        (a + nsT 100 ≤ now s → ∃ t v, exec (.droopRecover k) s = .next t ∧ stretch t ∧ t.pwr = s.pwr ∧
          t.stretch = { s.stretch with droop := mapDel k.val s.stretch.droop } ∧ cntsKeep [cntPwr 4, cntCluster k.val 1] s t ∧
          counted (cntPwr 4) v s t ∧ counted (cntCluster k.val 1) v s t))) ∧
    (∀ w : BitVec 11,
      let ms := nowNs s / 1000000
      let limit := regF s 0x200010 0 10 0
      let cap : Bool := if s.stretch.cap then decide (95 * limit ≤ 100 * w.toNat) else decide (limit < w.toNat)
      (s.pwr.window = some ms → exec (.powerCapWindow w) s = .next s) ∧
      (s.pwr.window ≠ some ms → ∃ t, exec (.powerCapWindow w) s = .next t ∧ stretch t ∧ t.stretch = { s.stretch with cap := cap } ∧
        t.pwr = { s.pwr with watts := w.toNat, peak := max s.pwr.peak w.toNat, window := some ms } ∧
        countedEach (cntPwr 5) (b2n s.stretch.cap) s t ∧ countedEach (cntPwr 6) (b2n (!s.stretch.thermal.isEmpty)) s t ∧
        (s.stretch.cap = false ∨ cap = true → cntsKeep [cntPwr 5, cntPwr 6] s t ∧ t.fresh = s.fresh))) ∧
    (∀ (d : Fin 6) (temp : Byte),
      let limit := regF s 0x200018 0 7 0
      let hot : State := { s with pwr := { s.pwr with temps := famSet s.pwr.temps d.val temp.toNat } }
      (temp.toNat < limit → exec (.thermalThrottle d temp) s = .next hot) ∧
      (limit ≤ temp.toNat → ∃ t, exec (.thermalThrottle d temp) s = .next t ∧
        t = { hot with stretch := { s.stretch with thermal := setIns d.val s.stretch.thermal }, freeze := t.freeze }) ∧
      (limit < temp.toNat + 5 ∨ d.val ∉ s.stretch.thermal → exec (.thermalRelease d temp) s = .next hot) ∧
      (temp.toNat + 5 ≤ limit → d.val ∈ s.stretch.thermal → ∃ t, exec (.thermalRelease d temp) s = .next t ∧ stretch t ∧
        t.pwr = hot.pwr ∧ t.stretch = { s.stretch with thermal := setDel d.val s.stretch.thermal }) ∧
      ∃ t, exec (.thermtrip d) s = .next t ∧
        t = { s with pwr := { s.pwr with temps := famSet s.pwr.temps d.val 120, trip := true } }) ∧
    (∀ d : CDie,
      let n := mapGetD 0 d.val s.pwr.avsFails
      (∃ t, exec (.avsRetry d false) s = .next t ∧ stretch t ∧ t.counters = s.counters ∧
        mapGetD 0 d.val t.pwr.avsFails = min (n + 1) 3 ∧
        t.stretch = if 2 ≤ n then { s.stretch with avs := setIns d.val s.stretch.avs } else s.stretch) ∧
      (∃ t, exec (.avsRetry d true) s = .next t ∧ stretch t ∧ mapGetD 0 d.val t.pwr.avsFails = 0 ∧
        t.stretch = { s.stretch with avs := setDel d.val s.stretch.avs } ∧ (d.val ∉ s.stretch.avs → t.counters = s.counters))) ∧
    (∃ t, exec .qclkUnlock s = .next t ∧
      t = { s with pwr := { s.pwr with qclk := false }, regs := t.regs, grp := { s.grp with stopped := true } } ∧
      bit (regW t 0x200000 0) 3 = true ∧ regsKeep [regKey 0x200000 0] s t) ∧
    ∃ t, exec .qclkRelock s = .next t ∧ t = { s with pwr := { s.pwr with qclk := true }, grp := { s.grp with stopped := false } }

/-- Reset and cold start: PORST_ASSERT, AON_BROWNOUT, PORST_RELEASE, FIRMWARE_VERIFY, STACK_FILL_END,
TIME_LOCK_TIMEOUT, SERVING_ENTER, HOST_LINK_UP and WATCHDOG_EXPIRE (R22, R28, R32, R33, R186, R417, R425 to R428, R432,
R433, R437, R470, R482, R484). The domains' STATE after cold start is the model's (DESIGN CHOICE, log 30). A command
whose event is not due, or whose condition is absent, leaves the state (DESIGN CHOICE, log 2). The model's choices in
logs 38, 39 and 68 bear on it. -/
def Obligations.Boot : Prop :=
  ∀ (s : State),
    let b := s.boot
    let cleared (t : State) : Prop := t = { State.reset with
      boot := { State.reset.boot with fuses := b.fuses, flash := b.flash }
      recorder := { State.reset.recorder with mram := s.recorder.mram, written := s.recorder.written, boot := s.recorder.boot }
      fresh := s.fresh, pending := s.pending }
    (∃ t, exec .porstAssert s = .next t ∧ cleared t) ∧ (∃ t, exec .aonBrownout s = .next t ∧ cleared t) ∧
    (∀ straps : BitVec 4,
      (b.held = false → exec (.porstRelease straps) s = .next s) ∧
      (b.held = true → ∃ t, exec (.porstRelease straps) s = .next t ∧ t = { s with
          gt := t.gt, recorder := t.recorder, pwr := t.pwr
          boot := { t.boot with fuses := s.boot.fuses, fuseJob := s.boot.fuseJob }, regs := t.regs } ∧ t.gt = 0 ∧
        t.boot = { b with held := false, straps := straps, i3cAddr := 0x50 + straps.toNat / 2 % 4 } ∧ t.pwr.qclk = true ∧
        t.recorder.opened = [] ∧ t.recorder.hold = none ∧ t.recorder.boot = (s.recorder.boot + 1) % 2 ^ 32 ∧
        (∀ k r, mapGet k s.recorder.mram = some r → mapGet k t.recorder.mram = some { r with open_ := false, cut := r.open_ || r.cut }) ∧
        ((∃ p ∈ s.recorder.mram, p.2.open_ = true) → bit (regW t 0x500004 0) 2 = true) ∧ regsKeep [regKey 0x500004 0] s t)) ∧
    (∀ d ∈ b.flash.dir.toList, d.crcOk = true →
      (∀ e ∈ b.flash.dir.toList, e.crcOk = true → e.seq < d.seq ∨ e = d) → b.held = false → b.straps.getLsbD 3 = false →
      regF s 0x600000 0 2 0 = 0 →
      let image (second : Bool) : FwCopy := fwCopy s (d.preferB ^^ second)
      let ok (second : Bool) : Bool := fwVerifies b.fuses (image second)
      let held (t : State) : Prop := t = { s with
          pwr := t.pwr, boot := { t.boot with fuses := s.boot.fuses, fuseJob := s.boot.fuseJob }, regs := t.regs
          fresh := t.fresh } ∧ t.boot = { b with prefB := d.preferB } ∧ regF t 0x600000 0 2 0 = 1
      let started (second : Bool) (t : State) : Prop := t = { s with
          pwr := t.pwr, boot := { t.boot with fuses := s.boot.fuses, fuseJob := s.boot.fuseJob }, regs := t.regs
          fresh := t.fresh } ∧
        t.boot = { b with prefB := d.preferB, fwUp := true, certs := b.flash.certs, running := image second } ∧
        regF t 0x600000 0 2 0 = 2 ∧ regW t 0x600010 0 = fwSvn (image second) % 2 ^ 32 ∧
        bit (regW t 0x600014 0) 0 = (d.preferB ^^ second) ∧ bit (regW t 0x600014 0) 1 = ok (!second) ∧
        bit (regW t 0x600000 0) 3 = (second || bit (regW s 0x600000 0) 3) ∧ ∀ n < 292, (getDom t n).st = 4
      ∃ t, exec .firmwareVerify s = .next t ∧
        (b.straps.getLsbD 0 = true ∨ (ok false = false ∧ ok true = false) → held t) ∧
        (b.straps.getLsbD 0 = false → ok false = true → started false t) ∧
        (b.straps.getLsbD 0 = false → ok false = false → ok true = true → started true t)) ∧
    (b.fwUp = true → b.filled = false → ∃ t, exec .stackFillEnd s = .next t ∧
      t = { s with dsm := { s.dsm with cells := [], reloc := [], poison := [] }, pwr := t.pwr, boot := { b with filled := true } } ∧
      ∀ k, rawLine t k = zeroLine) ∧
    (∀ src : W64,
      let waits : Bool := decide (2 ≤ s.time.source) && !b.timeDone
      let steps : Prop := waits = true ∧ now s < nsT src.toNat ∧ holdsLaunch s = false ∧ s.grp.role ≠ 1 ∧ s.grp.role ≠ 2
      let role := cfgField s 1 0
      let ready : Prop := regF s 0x600000 0 2 0 = 3 ∧ (waits = true → s.time.locked = true)
      (¬ ready → exec (.servingEnter src) s = .next s) ∧
      -- stage 8 ends with a step at the next edge
      (ready → steps → exec (.servingEnter src) s = .next { s with
        boot := { b with timeDone := true }, time := { s.time with stepTo := some src, stepJoin := false } }) ∧
      (ready → ¬ steps → s.time.stepTo ≠ none →
        exec (.servingEnter src) s = .next { s with boot := { b with timeDone := b.timeDone || waits } }) ∧
      (ready → ¬ steps → s.time.stepTo = none → s.grp.role = 0 →
        ∃ t, exec (.servingEnter src) s = .next t ∧
          t = { s with
            boot := { b with timeDone := b.timeDone || waits }, grp := t.grp, regs := t.regs, recorder := t.recorder,
            counters := t.counters } ∧
          (role = 0 → t.grp = s.grp) ∧ (role = 1 → t.grp.role = 1 ∧ t.grp.id = 0 ∧ 2047 ≤ t.grp.epoch.toNat) ∧
          (role = 2 → t.grp.role = 3 ∧ regF t 0x600000 0 2 0 = 4 ∧ t.recorder = s.recorder) ∧
          (role ≠ 2 → regF t 0x600000 0 2 0 = 5 ∧ regQ t 0x600008 0 = nowNs t))) ∧
    -- a source that has not locked 30 s after stage 6 is left in holdover
    (∀ c, b.configAt = some c →
      let late : Prop := 2 ≤ s.time.source ∧ b.timeDone = false ∧ s.time.locked = false ∧ c + nsT 30000000000 ≤ now s
      (¬ late → exec .timeLockTimeout s = .next s) ∧
      (late → s.time.holdover = true → exec .timeLockTimeout s = .next { s with boot := { b with timeDone := true } }) ∧
      (late → s.time.holdover = false → ∃ t, exec .timeLockTimeout s = .next t ∧ t = { s with
          time := t.time, recorder := t.recorder
          boot := { t.boot with fuses := s.boot.fuses, fuseJob := s.boot.fuseJob }, regs := t.regs
          counters := t.counters } ∧
        t.boot = { b with timeDone := true } ∧ t.gt = s.gt ∧
        t.time = { s.time with holdover := true, locked := false, aligned := false, within := 0, beyond := 0 } ∧
        bit (regW t 0x100004 0) 3 = true ∧ regsKeep [regKey 0x100004 0] s t)) ∧
    (b.configAt = none → exec .timeLockTimeout s = .next s) ∧
    (∀ p : HPort,
      (unitActive s (ucNet (portDie p)) = false ∨ b.straps.getLsbD 3 = true → exec (.hostLinkUp p) s = .next s) ∧
      (unitActive s (ucNet (portDie p)) = true → b.straps.getLsbD 3 = false →
        ∃ t, exec (.hostLinkUp p) s = .next t ∧ t = { s with
            trace := t.trace, freeze := t.freeze, host := { t.host with sem := s.host.sem }, pwr := t.pwr
            counters := t.counters, fresh := t.fresh } ∧ t.host = (modPort p (fun y => { y with linkUp := true }) s).host ∧
          (getDom t (domHost p)).st = 4 ∧ ∀ n, n ≠ domHost p → getDom t n = getDom s n)) ∧
    (b.fwUp = false → exec .watchdogExpire s = .next s) ∧
    (b.fwUp = true → ∃ t, exec .watchdogExpire s = .next t ∧ t = { s with
        recorder := t.recorder, boot := { t.boot with fuses := s.boot.fuses, fuseJob := s.boot.fuseJob }
        regs := t.regs, counters := t.counters } ∧ counted (cntSec 7) 1 s t ∧
      bit (regW t 0x600000 0) 6 = true ∧
      let c := fwCopy s (runningB s)
      t.boot = if fwVerifies b.fuses c then { b with running := c } else b)

/-- Live firmware, fuses, customer keys and I3C: FW_WRITE, FW_WRITE_COMPLETE, FW_SWITCH, FW_HANDOFF, FW_HEALTH_REPORT,
PROBATION_EXPIRE, RAISE_COUNTER, REVOKE_SLOT, FUSE_BLOW_END, CUST_KEY_INSTALL, CUST_KEY_CLEAR, I3C_WRITE, I3C_READ and
DYNAMIC_ADDRESS_ASSIGNMENT (R336, R432, R434, R435, R438 to R440, R448, R484, R485). A command whose event is not due,
or whose condition is absent, leaves the state (DESIGN CHOICE, log 2). The model's choices in logs 38, 40, 41 and 43
bear on it. -/
def Obligations.FirmwareAndFuses : Prop :=
  ∀ (s : State),
    let b := s.boot
    let cmd := regW s 0x600030 0
    let fused := regW s 0x608004 0
    let only (key : Nat) (t : State) : Prop := t = { s with regs := t.regs } ∧ regsKeep [key] s t
    let ends (i : Instr) (status : Nat) : Prop := ∃ t, exec i s = .next t ∧ only (regKey 0x600030 0) t ∧ regF t 0x600030 0 15 8 = status
    let trial : Prop := bit (regW s 0x600000 0) 5 = true
    (∀ p : HPort, holdsSem s p = false → ∀ hdr body,
      (∃ t, exec (.fwWrite p hdr body) s = .next t ∧ rwsDiscarded p 0x600030 s t) ∧
      (∃ t, exec (.fwSwitch p) s = .next t ∧ rwsDiscarded p 0x600030 s t) ∧
      (∃ t, exec (.raiseCounter p) s = .next t ∧ rwsDiscarded p 0x608004 s t) ∧
      (∃ t, exec (.revokeSlot p) s = .next t ∧ rwsDiscarded p 0x608004 s t) ∧
      (∃ t, exec (.custKeyInstall p) s = .next t ∧ rwsDiscarded p 0x608068 s t) ∧
      (∃ t, exec (.custKeyClear p) s = .next t ∧ rwsDiscarded p 0x608068 s t)) ∧
    (∀ (p : HPort) (hdr body : Bytes), holdsSem s p = true → bits cmd 1 0 = 1 → (hdr ++ body).length = regF s 0x600020 0 23 0 →
      let busy : Prop := bit cmd 3 = true ∨ b.write ≠ none ∨ b.switchAt ≠ none ∨ trial
      let formed : Prop := fwFormat hdr = true ∧ body.length = fwLen hdr
      let hold := regF s 0x600000 0 2 0 == 1
      let target := if hold then b.prefB else !runningB s
      (busy → ends (.fwWrite p hdr body) stBusy) ∧ (¬ busy → ¬ formed → ends (.fwWrite p hdr body) stFormat) ∧
      (¬ busy → formed → fwSigned b.fuses hdr = false → ends (.fwWrite p hdr body) stSignature) ∧
      (¬ busy → formed → fwSigned b.fuses hdr = true → bNum hdr 8 4 < b.fuses.counter →
        ∃ t, exec (.fwWrite p hdr body) s = .next t ∧ t = { s with regs := t.regs, fresh := t.fresh } ∧
          (regF t 0x600030 0 15 8 = stFormat ∨ regF t 0x600030 0 15 8 = stSignature)) ∧
      (¬ busy → formed → fwSigned b.fuses hdr = true → b.fuses.counter ≤ bNum hdr 8 4 →
        ∃ t, exec (.fwWrite p hdr body) s = .next t ∧ t = { s with regs := t.regs, boot := t.boot } ∧
          t.boot = { b with
            write := some { copy := b2n target, hold := hold, image := { hdr := hdr, body := body } }
            flash := { b.flash with fw := famSet b.flash.fw (b2n target) FwCopy.empty } } ∧
          bit (regW t 0x600030 0) 3 = true ∧ bit (regW t 0x600014 0) 1 = false)) ∧
    (∀ (w : FwWrite), b.write = some w → w.copy < 2 →
      let good : Prop := w.image.body.length = fwLen w.image.hdr ∧ Config.sha384 w.image.body = hdrBytes w.image.hdr 24 48
      (good → ∃ t, exec (.fwWriteComplete true) s = .next t ∧ t = { s with
          boot := { t.boot with fuses := s.boot.fuses, fuseJob := s.boot.fuseJob }, regs := t.regs, fresh := t.fresh } ∧ fwCopy t (w.copy == 1) = w.image ∧
        t.boot.write = none ∧ t.boot.standby = some (w.copy, w.image) ∧ regF t 0x600030 0 15 8 = stOk ∧ bit (regW t 0x600030 0) 3 = false ∧
        bit (regW t 0x600014 0) 1 = fwVerifies b.fuses w.image ∧ bit (regW t 0x600014 0) 2 = true ∧
        (w.hold = true → regF t 0x600000 0 2 0 = 0) ∧ (w.hold = false → regW t 0x600000 0 = regW s 0x600000 0)) ∧
      ∀ ok, (ok = true → ¬ good) → ∃ t, exec (.fwWriteComplete ok) s = .next t ∧ t = { s with
          boot := { t.boot with fuses := s.boot.fuses, fuseJob := s.boot.fuseJob }, regs := t.regs, fresh := t.fresh } ∧ t.boot.write = none ∧
        t.boot.standby = b.standby ∧ regF t 0x600030 0 15 8 = stSignature ∧ bit (regW t 0x600030 0) 3 = false ∧
        bit (regW t 0x600014 0) 1 = bit (regW s 0x600014 0) 1) ∧
    (∀ p : HPort, holdsSem s p = true → bits cmd 1 0 = 2 →
      let at_ := regQ s 0x600028 0
      (bit cmd 3 = true ∨ b.switchAt ≠ none → ends (.fwSwitch p) stBusy) ∧
      (bit cmd 3 = false → b.switchAt = none → b.standby = none → ∃ t, exec (.fwSwitch p) s = .next t ∧
        t = { s with regs := t.regs, fresh := t.fresh } ∧ regF t 0x600030 0 15 8 ≠ stOk) ∧
      (bit cmd 3 = false → b.switchAt = none → b.standby ≠ none → tooFar s at_ = true → ends (.fwSwitch p) stFormat) ∧
      (bit cmd 3 = false → b.switchAt = none → b.standby ≠ none → tooFar s at_ = false →
        ∃ t, exec (.fwSwitch p) s = .next t ∧ t = { s with regs := t.regs, counters := t.counters, boot := t.boot } ∧
          t.boot = { b with switchAt := some (dueOf s at_) } ∧ bit (regW t 0x600030 0) 3 = true)) ∧
    (∀ (edge c : Nat) (img : FwCopy), b.switchAt = some edge → b.standby = some (c, img) → c < 2 →
      (now s < edge → exec .fwHandoff s = .next s) ∧
      (edge ≤ now s → ∃ t, exec .fwHandoff s = .next t ∧ t = { s with
          boot := { t.boot with fuses := s.boot.fuses, fuseJob := s.boot.fuseJob }, regs := t.regs
          counters := t.counters } ∧ counted (cntSec 6) 1 s t ∧
        t.boot = { b with
          switchAt := none, standby := none, running := img, resident := some (b2n (runningB s), b.running)
          probation := some (now s + msT (bits cmd 31 16)) } ∧
        bit (regW t 0x600000 0) 5 = true ∧ regW t 0x600010 0 = fwSvn img % 2 ^ 32 ∧ runningB t = (c == 1) ∧
        bit (regW t 0x600030 0) 3 = false ∧ regF t 0x600030 0 15 8 = stOk)) ∧
    (¬ trial → exec .fwHealthReport s = .next s) ∧
    (trial → ∃ t, exec .fwHealthReport s = .next t ∧ t = { s with regs := t.regs, boot := t.boot } ∧
      bit (regW t 0x600000 0) 5 = false ∧ regsKeep [regKey 0x600000 0] s t ∧
      t.boot = { b with probation := none, prefB := runningB s, flash := { b.flash with dir := t.boot.flash.dir } } ∧
      ∃ d ∈ t.boot.flash.dir.toList, d.crcOk = true ∧ d.preferB = runningB s ∧ ∀ e ∈ b.flash.dir.toList, e.seq < d.seq) ∧
    (∀ (limit c : Nat) (old : FwCopy), b.probation = some limit → b.resident = some (c, old) →
      (now s < limit → exec .probationExpire s = .next s) ∧
      (limit ≤ now s → ∃ t, exec .probationExpire s = .next t ∧ t = { s with
          recorder := t.recorder, boot := { t.boot with fuses := s.boot.fuses, fuseJob := s.boot.fuseJob }
          regs := t.regs, counters := t.counters } ∧
        t.boot = { b with probation := none, resident := none, running := old } ∧ bit (regW t 0x600000 0) 5 = false ∧
        bit (regW t 0x600000 0) 7 = true ∧ regW t 0x600010 0 = fwSvn old % 2 ^ 32 ∧ runningB t = (c == 1))) ∧
    (∀ (p : HPort) (action : Nat) (i : Instr), holdsSem s p = true → bits fused 1 0 = action →
      let target := bits fused 8 2
      let kept (x : RootSlot) (n : Nat) : RootSlot := if n = target then { x with revoked := true } else x
      let after : Fuses := { b.fuses with roots := famMap (fun n x => kept x n) b.fuses.roots }
      let refused : Prop := trial ∨
        (action = 1 ∧ (target ≤ b.fuses.counter ∨ 64 < target ∨ fwSvn b.running < target)) ∨
        (action = 2 ∧ (3 < target ∨ ∀ c ∈ b.flash.fw.toList, fwVerifies after c = false))
      (action = 1 ∧ i = .raiseCounter p) ∨ (action = 2 ∧ i = .revokeSlot p) →
      (bit fused 10 = true → exec i s = .next s) ∧
      (bit fused 10 = false → refused → ∃ t, exec i s = .next t ∧ only (regKey 0x608004 0) t ∧ regF t 0x608004 0 23 16 = stFormat) ∧
      (bit fused 10 = false → ¬ refused → ∃ t, exec i s = .next t ∧
        t = { s with regs := t.regs, boot := { b with fuseJob := some (action, target) } } ∧ bit (regW t 0x608004 0) 10 = true)) ∧
    (∀ action target : Nat, b.fuseJob = some (action, target) →
      ∃ t, exec .fuseBlowEnd s = .next t ∧ t = { s with regs := t.regs, boot := t.boot } ∧
        t.boot = { b with fuseJob := none, fuses := t.boot.fuses } ∧ bit (regW t 0x608004 0) 10 = false ∧
        regF t 0x608004 0 23 16 = stOk ∧
        (action = 1 → t.boot.fuses = { b.fuses with counter := max b.fuses.counter target }) ∧
        (action ≠ 1 → t.boot.fuses.counter = b.fuses.counter ∧ ∀ n < 4, ∀ x, b.fuses.roots.toList[n]? = some x →
          t.boot.fuses.roots.toList[n]? = some (if n = target then { x with revoked := true } else x)) ∧
        bit (regW t 0x600014 0) 1 = (bit (regW s 0x600014 0) 1 && fwVerifies t.boot.fuses (fwCopy s (!runningB s)))) ∧
    (∀ p : HPort, holdsSem s p = true →
      let n := regF s 0x608064 (portIx p) 1 0
      let hash := ((List.range 12).map (fun k => toLE 4 (regW s (0x608070 + 4 * k) (portIx p)))).flatten
      (∃ t, exec (.custKeyInstall p) s = .next t ∧
        t = { s with boot := { b with cust := famSet b.cust n { valid := true, hash := hash } } }) ∧
      (∃ t, exec (.custKeyClear p) s = .next t ∧ t = { s with boot := { b with cust := famSet b.cust n CustSlot.empty } })) ∧
    (b.fwUp = true →
      (∀ bytes : Bytes,
        (bytes.length = 4 → ∃ t, exec (.i3cWrite bytes) s = .next t ∧ t = { s with boot := { b with i3cOff := leNat bytes } }) ∧
        (bytes.length ≠ 4 → exec (.i3cWrite bytes) s = .next s)) ∧
      (∃ t, exec .i3cRead s = .next t ∧ t = { s with boot := { b with i3cOut := t.boot.i3cOut }, fresh := t.fresh } ∧
        t.boot.i3cOut.length = 4 ∧
        (i3cAllowed b.i3cOff = false → t.boot.i3cOut = [0, 0, 0, 0]) ∧
        (i3cAllowed b.i3cOff = true → b.i3cOff % 4 = 0 → portOwn b.i3cOff = false → t.boot.i3cOut = toLE 4 (readWord s .h0 b.i3cOff))) ∧
      ∀ addr : BitVec 7, ∃ t, exec (.dynamicAddressAssignment addr) s = .next t ∧ t = { s with boot := { b with i3cAddr := addr.toNat } })

/-! ### The whole machine -/

/-- A step takes the command at the front of the queue and runs it with the queue's rest. On an empty queue one edge of
the quiet clock passes, unless PORST_N is held (R28, R30, R33; the edge in place of idling is the model's, DESIGN
CHOICE, log 1). -/
def Obligations.StepTakesFront : Prop :=
  ∀ (s : State),
    (∀ c rest, s.pending = c :: rest → step s = exec c { s with pending := rest }) ∧
    (s.pending = [] → (s.boot.held = true → step s = .next s) ∧
      (s.boot.held = false → ∃ t, step s = .next t ∧ t.pending = [] ∧
        t.time = { s.time with stepTo := none, stepJoin := false, prevGt := s.gt, edgeFresh := t.time.edgeFresh } ∧
        let on : BitVec 96 := BitVec.ofNat 96 (now s + gtStepUnits s)
        (s.time.stepTo = none → t.gt = on) ∧
        (∀ g, s.time.stepTo = some g →
          (stepAllowed s g.toNat s.time.stepJoin = true → t.gt = BitVec.ofNat 96 (nsT g.toNat)) ∧
          (stepAllowed s g.toNat s.time.stepJoin = false → t.gt = on ∧ bit (regW t 0x100004 0) 4 = true))))

/-- The machine right after reset: PORST_N held, GT at 0, every register at the value of its table, every counter at 0,
HIF_SEM free, no group, every unit ACTIVE, and nothing in any queue (R28, R334, R364, R401, R425, R427, R457). That
memory reads 0 before it is written is the model's (DESIGN CHOICE, log 4). The model's choices in log 5 bear on it. -/
def Obligations.ResetState : Prop :=
  let s := State.reset
  s.boot.held = true ∧ s.gt = 0 ∧ s.pending = [] ∧ Inv s ∧ s.grp.role = 0 ∧ s.host.sem.owner = none ∧ s.reams = [] ∧ s.rqt = [] ∧
  (∀ off idx, regW s off idx = regReset (off / 4 * 4)) ∧ (∀ k, cntGet s k = 0) ∧ (∀ k, rawLine s k = zeroLine) ∧
  (∀ u, unitRec s u = { st := 0, cause := 0, gtNs := 0 }) ∧ (∀ n, (getDom s n).st = 0) ∧ (∀ g, (getEPort s g).st = 0) ∧
  ∀ sl : SlotId, (getSlot s sl.val).st = 0

/-- Every step keeps the invariant. -/
def Obligations.InvariantKept : Prop := ∀ s t : State, Inv s → step s = .next t → Inv t

/-- Rules that hold for every command: none touches the queue; the fuses change by FUSE_BLOW_END alone, the counter
never falls and REVOKED never clears; and HIF_SEM comes to a port only by its own SEM_REQ: the command's, or one that
waits behind a write of the other port and ties with it (R331, R334, R335, R434). -/
def Obligations.WholeMachine : Prop :=
  ∀ (i : Instr) (s t : State), exec i s = .next t →
    t.pending = s.pending ∧ (i ≠ .fuseBlowEnd → t.boot.fuses = s.boot.fuses) ∧
    s.boot.fuses.counter ≤ t.boot.fuses.counter ∧ t.boot.fuses.serial = s.boot.fuses.serial ∧
    (∀ n < 4, ∀ x, s.boot.fuses.roots.toList[n]? = some x → ∃ y, t.boot.fuses.roots.toList[n]? = some y ∧
      y.hash = x.hash ∧ (x.revoked = true → y.revoked = true)) ∧
    ∀ p, t.host.sem.owner = some p → t.host.sem = s.host.sem ∨
      ∃ token, i = .semReq p token ∨ (.semReq p token ∈ s.pending ∧ ∃ other, i = .semReq (otherPort p) other ∨ i = .semRel (otherPort p) other)

/-- Where commands stop: one is refused exactly where it holds a value that LOAD_IMAGE rejects, and faults exactly
where its values are listed and it reaches an address that does not exist; VEC stops so at a word of its own too. No
other command stops. A vector instruction on a fenced core does nothing (R110, R129, R132, R207, R401). The model's
choices in log 23 bear on it. -/
def Obligations.CommandsStopWhere : Prop :=
  ∀ (i : Instr) (s : State),
    (∀ r, exec i s = .refused r → r = .unlistedOperand) ∧ (∀ r, exec i s = .fault r → ∃ a, r = .addressOutside a) ∧
    (∀ c ctx op prog, i = .vec c ctx op prog → op.instrCount = 0 ∨ prog.words.length ≠ op.instrCount.toNat →
      exec i s = .refused .unlistedOperand) ∧
    ((∀ c ctx op prog, i ≠ .vec c ctx op prog) →
      (exec i s = .refused .unlistedOperand ↔ holdsUnlisted s i = true) ∧
      ((∃ a, exec i s = .fault (.addressOutside a)) ↔ holdsUnlisted s i = false ∧ reachesOutside s i = true)) ∧
    ∀ c, vecEngineOf i = some c → coreActive s c.val = false → holdsUnlisted s i = false → reachesOutside s i = false →
      exec i s = .next s
end

