-- ==== Sys2Proof/Laws/Frame.lean ====
section
/-! SUPPORT. What an operation leaves, said once for each operation: the parts of the state outside a mask. A mask's bit i
stands for field i of State, in State's order; bits 33 to 35 stand for HIF_SEM, the fuses and the fuses being blown. -/

namespace Sys2Proof.Machine

/-- The state with the parts of a mask blanked out. -/
def proj (m : Nat) (s : State) : State :=
  { gt := if m.testBit 0 then State.reset.gt else s.gt
    time := if m.testBit 1 then State.reset.time else s.time
    cores := if m.testBit 2 then State.reset.cores else s.cores
    clusters := if m.testBit 3 then State.reset.clusters else s.clusters
    dies := if m.testBit 4 then State.reset.dies else s.dies
    canopy := if m.testBit 5 then State.reset.canopy else s.canopy
    liveScales := if m.testBit 6 then State.reset.liveScales else s.liveScales
    scaleRaises := if m.testBit 7 then State.reset.scaleRaises else s.scaleRaises
    trace := if m.testBit 8 then State.reset.trace else s.trace
    stretch := if m.testBit 9 then State.reset.stretch else s.stretch
    slots := if m.testBit 10 then State.reset.slots else s.slots
    recorder := if m.testBit 11 then State.reset.recorder else s.recorder
    freeze := if m.testBit 12 then State.reset.freeze else s.freeze
    tport := if m.testBit 13 then State.reset.tport else s.tport
    dsm := if m.testBit 14 then State.reset.dsm else s.dsm
    nlus := if m.testBit 15 then State.reset.nlus else s.nlus
    pools := if m.testBit 16 then State.reset.pools else s.pools
    overhang := if m.testBit 17 then State.reset.overhang else s.overhang
    host := { (if m.testBit 18 then HostState.reset else s.host) with sem := if m.testBit 33 then HostState.reset.sem else s.host.sem }
    tbl := if m.testBit 19 then State.reset.tbl else s.tbl
    reams := if m.testBit 20 then State.reset.reams else s.reams
    net := if m.testBit 21 then State.reset.net else s.net
    flow := if m.testBit 22 then State.reset.flow else s.flow
    rqt := if m.testBit 23 then State.reset.rqt else s.rqt
    adm := if m.testBit 24 then State.reset.adm else s.adm
    grp := if m.testBit 25 then State.reset.grp else s.grp
    pwr := if m.testBit 26 then State.reset.pwr else s.pwr
    boot := { (if m.testBit 27 then BootState.reset else s.boot) with fuses := if m.testBit 34 then Fuses.blank else s.boot.fuses, fuseJob := if m.testBit 35 then none else s.boot.fuseJob }
    regs := if m.testBit 28 then State.reset.regs else s.regs
    counters := if m.testBit 29 then State.reset.counters else s.counters
    snaps := if m.testBit 30 then State.reset.snaps else s.snaps
    fresh := if m.testBit 31 then State.reset.fresh else s.fresh
    pending := if m.testBit 32 then State.reset.pending else s.pending }

variable {K m : Nat} {s t u : State}

/-- Bits of a part of a mask are bits of the mask. -/
theorem bit_of_part (h : m &&& K = K) (i : Nat) (hi : K.testBit i = true) : m.testBit i = true := by
  rw [← h, Nat.testBit_and, Bool.and_eq_true] at hi
  exact hi.1

/-- What is blanked by a part of a mask and then by the mask is blanked by the mask. -/
theorem blank_twice {α : Type} (h : m &&& K = K) (i : Nat) (r x : α) :
    (if m.testBit i then r else if K.testBit i then r else x) = if m.testBit i then r else x := by
  by_cases hm : m.testBit i = true
  · rw [if_pos hm, if_pos hm]
  · rw [if_neg hm, if_neg hm, if_neg (fun q => hm (bit_of_part h i q))]

theorem proj_proj (h : m &&& K = K) (s : State) : proj m (proj K s) = proj m s := by
  have a := bit_of_part h 18
  have b := bit_of_part h 27
  cases hm : m.testBit 18 <;> cases hk : K.testBit 18 <;> cases hn : m.testBit 27 <;> cases hl : K.testBit 27 <;>
    simp only [hm, hk, hn, hl, Bool.false_eq_true, imp_false, not_true_eq_false] at a b <;>
    simp only [proj, blank_twice h, hm, hk, hn, hl, if_true, Bool.false_eq_true, if_false]

/-- Blanking more keeps an agreement. -/
theorem proj_mono (h : m &&& K = K) (e : proj K s = proj K t) : proj m s = proj m t := by
  rw [← proj_proj h s, e, proj_proj h t]

/-- A part that is not blanked agrees. -/
theorem part_eq {α : Type} {i : Nat} {r x y : α} (h : K.testBit i = false)
    (e : (if K.testBit i then r else x) = if K.testBit i then r else y) : x = y := by
  rwa [h, if_neg Bool.false_ne_true, if_neg Bool.false_ne_true] at e

theorem proj_mk_trans {x0 x1 x2 x3 x4 x5 x6 x7 x8 x9 x10 x11 x12 x13 x14 x15 x16 x17 x18 x19 x20 x21 x22 x23 x24 x25 x26 x27 x28 x29 x30 x31} (e : proj K (State.mk x0 x1 x2 x3 x4 x5 x6 x7 x8 x9 x10 x11 x12 x13 x14 x15 x16 x17 x18 x19 x20 x21 x22 x23 x24 x25 x26 x27 x28 x29 x30 x31 t.pending) = proj K t) (h : proj K t = proj K s) :
    proj K (State.mk x0 x1 x2 x3 x4 x5 x6 x7 x8 x9 x10 x11 x12 x13 x14 x15 x16 x17 x18 x19 x20 x21 x22 x23 x24 x25 x26 x27 x28 x29 x30 x31 t.pending) = proj K s := e.trans h

theorem foldl_proj {α : Type} (l : List α) (f : State → α → State) (h : ∀ s a, proj K (f s a) = proj K s) (s : State) :
    proj K (l.foldl f s) = proj K s :=
  l.foldlRecOn f (motive := fun t => proj K t = proj K s) rfl (fun t ht a _ => (h t a).trans ht)

theorem ite_proj {c : Prop} {_ : Decidable c} {a b : State} (h1 : proj K a = proj K s) (h2 : proj K b = proj K s) :
    proj K (if c then a else b) = proj K s := by split <;> assumption

theorem snd_proj {α : Type} {a : α} (h : proj K t = proj K s) : proj K (a, t).2 = proj K s := h
theorem ite_projP {α : Type} {c : Prop} {_ : Decidable c} {a b : α × State} (h1 : proj K a.2 = proj K s)
    (h2 : proj K b.2 = proj K s) : proj K (if c then a else b).2 = proj K s := by split <;> assumption

theorem foldl_projP {α β : Type} (l : List α) (f : β × State → α → β × State)
    (h : ∀ p a, proj K (f p a).2 = proj K p.2) (p : β × State) : proj K (l.foldl f p).2 = proj K p.2 :=
  l.foldlRecOn f (motive := fun q => proj K q.2 = proj K p.2) rfl (fun q hq a _ => (h q a).trans hq)

theorem proj_ite {c : Prop} {_ : Decidable c} {a b : State} : proj K (if c then a else b) = if c then proj K a else proj K b := by
  split <;> rfl
theorem proj_iteP {α : Type} {c : Prop} {_ : Decidable c} {a b : α × State} :
    proj K (if c then a else b).2 = if c then proj K a.2 else proj K b.2 := by split <;> rfl

theorem snd_eq {α : Type} {x : α × State} {a : α} (e : x = (a, u)) (h : proj K x.2 = proj K s) : proj K u = proj K s := by
  subst e; exact h
theorem trip_eq {α β : Type} {x : α × β × State} {a : α} {b : β} (e : x = (a, b, u)) (h : proj K x.2.2 = proj K s) :
    proj K u = proj K s := by subst e; exact h
theorem elim_proj {α : Type} {o : Option α} {d : State} {f : α → State} (h1 : proj K d = proj K s)
    (h2 : ∀ a, proj K (f a) = proj K s) : proj K (o.elim d f) = proj K s := by cases o <;> simp [h1, h2]

/-- An optional state agrees with the state outside a mask. -/
def optProj {α : Type} (m : Nat) (s : State) (x : Option (α × State)) : Prop := ∀ r, x = some r → proj m r.2 = proj m s

theorem optProj_none {α : Type} : optProj (α := α) K s none := fun _ e => by cases e
theorem optProj_some {α : Type} {a : α} (h : proj K t = proj K s) : optProj K s (some (a, t)) := fun _ e => by cases e; exact h
theorem optProj_mono {α : Type} {x : Option (α × State)} (h : m &&& K = K) (e : optProj K s x) : optProj m s x :=
  fun r q => proj_mono h (e r q)
theorem ite_projO {α : Type} {c : Prop} {_ : Decidable c} {a b : Option (α × State)} (h1 : optProj K s a) (h2 : optProj K s b) :
    optProj K s (if c then a else b) := by split <;> assumption
theorem some_eq {α : Type} {x : Option (α × State)} {a : α} (e : x = some (a, u)) (h : optProj K s x) : proj K u = proj K s :=
  h _ e
theorem foldl_optProj {α β : Type} (l : List α) (f : Option (β × State) → α → Option (β × State))
    (h : ∀ acc a, optProj K s acc → optProj K s (f acc a)) (acc : Option (β × State)) (h0 : optProj K s acc) :
    optProj K s (l.foldl f acc) :=
  l.foldlRecOn f (motive := optProj K s) h0 (fun acc hacc a _ => h acc a hacc)
theorem getD_proj {α : Type} {x : Option (α × State)} {a : α} (h : optProj K s x) : proj K (x.getD (a, s)).2 = proj K s := by
  cases x with
  | none => rfl
  | some r => exact h r rfl
theorem trip_mono {α β : Type} {x : α × β × State} (h : m &&& K = K) (e : proj K x.2.2 = proj K s) : proj m x.2.2 = proj m s :=
  proj_mono h e

/-- A meaning's next states agree with the state outside a mask. -/
def outProj (m : Nat) (s : State) (r : Res) : Prop := ∀ t, r = .next t → proj m t = proj m s

theorem outProj_next (h : proj K t = proj K s) : outProj K s (.next t) := fun _ e => by cases e; exact h
theorem outProj_fault {e : Fault} : outProj K s (.fault e) := fun _ e => by cases e
theorem outProj_refused {e : Refusal} : outProj K s (.refused e) := fun _ e => by cases e
theorem next_eq {r : Res} (e : r = .next u) (h : outProj K s r) : proj K u = proj K s := h u e
theorem outProj_trans {r : Res} (h : proj K u = proj K s) (e : outProj K u r) : outProj K s r := fun t q => (e t q).trans h
theorem outProj_mono {r : Res} (h : m &&& K = K) (e : outProj K s r) : outProj m s r := fun t q => proj_mono h (e t q)
theorem ite_projR {c : Prop} {_ : Decidable c} {a b : Res} (h1 : outProj K s a) (h2 : outProj K s b) :
    outProj K s (if c then a else b) := by split <;> assumption

/-! ### Each part outside the mask -/

theorem gt_of_proj (e : proj K t = proj K s) (h : K.testBit 0 = false := by decide) : t.gt = s.gt :=
  part_eq h (congrArg State.gt e)

theorem time_of_proj (e : proj K t = proj K s) (h : K.testBit 1 = false := by decide) : t.time = s.time :=
  part_eq h (congrArg State.time e)

theorem cores_of_proj (e : proj K t = proj K s) (h : K.testBit 2 = false := by decide) : t.cores = s.cores :=
  part_eq h (congrArg State.cores e)

theorem clusters_of_proj (e : proj K t = proj K s) (h : K.testBit 3 = false := by decide) : t.clusters = s.clusters :=
  part_eq h (congrArg State.clusters e)

theorem dies_of_proj (e : proj K t = proj K s) (h : K.testBit 4 = false := by decide) : t.dies = s.dies :=
  part_eq h (congrArg State.dies e)

theorem canopy_of_proj (e : proj K t = proj K s) (h : K.testBit 5 = false := by decide) : t.canopy = s.canopy :=
  part_eq h (congrArg State.canopy e)

theorem liveScales_of_proj (e : proj K t = proj K s) (h : K.testBit 6 = false := by decide) : t.liveScales = s.liveScales :=
  part_eq h (congrArg State.liveScales e)

theorem scaleRaises_of_proj (e : proj K t = proj K s) (h : K.testBit 7 = false := by decide) : t.scaleRaises = s.scaleRaises :=
  part_eq h (congrArg State.scaleRaises e)

theorem trace_of_proj (e : proj K t = proj K s) (h : K.testBit 8 = false := by decide) : t.trace = s.trace :=
  part_eq h (congrArg State.trace e)

theorem stretch_of_proj (e : proj K t = proj K s) (h : K.testBit 9 = false := by decide) : t.stretch = s.stretch :=
  part_eq h (congrArg State.stretch e)

theorem slots_of_proj (e : proj K t = proj K s) (h : K.testBit 10 = false := by decide) : t.slots = s.slots :=
  part_eq h (congrArg State.slots e)

theorem recorder_of_proj (e : proj K t = proj K s) (h : K.testBit 11 = false := by decide) : t.recorder = s.recorder :=
  part_eq h (congrArg State.recorder e)

theorem freeze_of_proj (e : proj K t = proj K s) (h : K.testBit 12 = false := by decide) : t.freeze = s.freeze :=
  part_eq h (congrArg State.freeze e)

theorem tport_of_proj (e : proj K t = proj K s) (h : K.testBit 13 = false := by decide) : t.tport = s.tport :=
  part_eq h (congrArg State.tport e)

theorem dsm_of_proj (e : proj K t = proj K s) (h : K.testBit 14 = false := by decide) : t.dsm = s.dsm :=
  part_eq h (congrArg State.dsm e)

theorem nlus_of_proj (e : proj K t = proj K s) (h : K.testBit 15 = false := by decide) : t.nlus = s.nlus :=
  part_eq h (congrArg State.nlus e)

theorem pools_of_proj (e : proj K t = proj K s) (h : K.testBit 16 = false := by decide) : t.pools = s.pools :=
  part_eq h (congrArg State.pools e)

theorem overhang_of_proj (e : proj K t = proj K s) (h : K.testBit 17 = false := by decide) : t.overhang = s.overhang :=
  part_eq h (congrArg State.overhang e)

theorem sem_of_proj (e : proj K t = proj K s) (h : K.testBit 33 = false := by decide) : t.host.sem = s.host.sem := by
  have := congrArg (fun s => s.host.sem) e
  simpa only [proj, h, Bool.false_eq_true, if_false] using this

theorem host_of_proj (e : proj K t = proj K s) (h : K.testBit 18 = false := by decide) (h' : K.testBit 33 = false := by decide) :
    t.host = s.host := by
  have := congrArg State.host e
  simpa only [proj, h, h', Bool.false_eq_true, if_false] using this

theorem tbl_of_proj (e : proj K t = proj K s) (h : K.testBit 19 = false := by decide) : t.tbl = s.tbl :=
  part_eq h (congrArg State.tbl e)

theorem reams_of_proj (e : proj K t = proj K s) (h : K.testBit 20 = false := by decide) : t.reams = s.reams :=
  part_eq h (congrArg State.reams e)

theorem net_of_proj (e : proj K t = proj K s) (h : K.testBit 21 = false := by decide) : t.net = s.net :=
  part_eq h (congrArg State.net e)

theorem flow_of_proj (e : proj K t = proj K s) (h : K.testBit 22 = false := by decide) : t.flow = s.flow :=
  part_eq h (congrArg State.flow e)

theorem rqt_of_proj (e : proj K t = proj K s) (h : K.testBit 23 = false := by decide) : t.rqt = s.rqt :=
  part_eq h (congrArg State.rqt e)

theorem adm_of_proj (e : proj K t = proj K s) (h : K.testBit 24 = false := by decide) : t.adm = s.adm :=
  part_eq h (congrArg State.adm e)

theorem grp_of_proj (e : proj K t = proj K s) (h : K.testBit 25 = false := by decide) : t.grp = s.grp :=
  part_eq h (congrArg State.grp e)

theorem pwr_of_proj (e : proj K t = proj K s) (h : K.testBit 26 = false := by decide) : t.pwr = s.pwr :=
  part_eq h (congrArg State.pwr e)

theorem fuses_of_proj (e : proj K t = proj K s) (h : K.testBit 34 = false := by decide) : t.boot.fuses = s.boot.fuses := by
  have := congrArg (fun s => s.boot.fuses) e
  simpa only [proj, h, Bool.false_eq_true, if_false] using this

theorem fuseJob_of_proj (e : proj K t = proj K s) (h : K.testBit 35 = false := by decide) : t.boot.fuseJob = s.boot.fuseJob := by
  have := congrArg (fun s => s.boot.fuseJob) e
  simpa only [proj, h, Bool.false_eq_true, if_false] using this

theorem boot_of_proj (e : proj K t = proj K s) (h : K.testBit 27 = false := by decide) (h' : K.testBit 34 = false := by decide)
    (h'' : K.testBit 35 = false := by decide) : t.boot = s.boot := by
  have := congrArg State.boot e
  simpa only [proj, h, h', h'', Bool.false_eq_true, if_false] using this

theorem regs_of_proj (e : proj K t = proj K s) (h : K.testBit 28 = false := by decide) : t.regs = s.regs :=
  part_eq h (congrArg State.regs e)

theorem counters_of_proj (e : proj K t = proj K s) (h : K.testBit 29 = false := by decide) : t.counters = s.counters :=
  part_eq h (congrArg State.counters e)

theorem snaps_of_proj (e : proj K t = proj K s) (h : K.testBit 30 = false := by decide) : t.snaps = s.snaps :=
  part_eq h (congrArg State.snaps e)

theorem fresh_of_proj (e : proj K t = proj K s) (h : K.testBit 31 = false := by decide) : t.fresh = s.fresh :=
  part_eq h (congrArg State.fresh e)

theorem pending_of_proj (e : proj K t = proj K s) (h : K.testBit 32 = false := by decide) : t.pending = s.pending :=
  part_eq h (congrArg State.pending e)

end Sys2Proof.Machine
end

