-- ==== Sys2Proof/Laws/FrameUnits.lean ====
section
/-! SUPPORT. What each operation of Ops.lean, Fifo.lean, Recorder.lean, HostOps.lean, Fence.lean, Domains.lean, Stacks.lean, Buckets.lean, FwdTable.lean, Ports.lean leaves: one lemma each, by Frame.lean. -/

set_option maxRecDepth 8000
set_option linter.all false

namespace Sys2Proof.Machine

theorem drawFree_frame {m0 : Nat} (hm0 : m0 &&& 2147483648 = 2147483648) (s : State) :
    proj m0 (drawFree s).2 = proj m0 s := by
  refine proj_mono hm0 ?_
  unfold drawFree
  try dsimp -proj only
  repeat' first
    | simp +decide only [↓proj_ite, ↓proj_iteP, ite_self]
    | ((with_reducible refine proj_mk_trans ?_ ?_); · ((fail_if_success with_reducible rfl); rfl))
    | split

theorem drawSub_frame {m0 : Nat} (hm0 : m0 &&& 2147483648 = 2147483648) (u : UnitCode) (s : State) :
    proj m0 (drawSub u s).2 = proj m0 s := by
  refine proj_mono hm0 ?_
  unfold drawSub
  try dsimp -proj only
  repeat' first
    | simp +decide only [↓proj_ite, ↓proj_iteP, ite_self]
    | (with_reducible refine (foldl_proj _ _ ?_ _).trans ?_; intro _ _)
    | (with_reducible refine (foldl_projP _ _ ?_ _).trans ?_; intro _ _)
    | ((with_reducible refine proj_mk_trans ?_ ?_); · ((fail_if_success with_reducible rfl); rfl))
    | split

theorem setRegW_frame {m0 : Nat} (hm0 : m0 &&& 268435456 = 268435456) (off : Nat) (idx : Nat) (v : Nat) (s : State) :
    proj m0 (setRegW off idx v s) = proj m0 s := by
  refine proj_mono hm0 ?_
  unfold setRegW
  try dsimp -proj only
  repeat' first
    | simp +decide only [↓proj_ite, ↓proj_iteP, ite_self]
    | ((with_reducible refine proj_mk_trans ?_ ?_); · ((fail_if_success with_reducible rfl); rfl))
    | split

theorem setRegQ_frame {m0 : Nat} (hm0 : m0 &&& 268435456 = 268435456) (off : Nat) (idx : Nat) (v : Nat) (s : State) :
    proj m0 (setRegQ off idx v s) = proj m0 s := by
  refine proj_mono hm0 ?_
  unfold setRegQ
  try dsimp -proj only
  repeat' first
    | simp +decide only [↓setRegW_frame, ↓proj_ite, ↓proj_iteP, ite_self]
    | ((with_reducible refine proj_mk_trans ?_ ?_); · ((fail_if_success with_reducible rfl); rfl))
    | split

theorem setRegF_frame {m0 : Nat} (hm0 : m0 &&& 268435456 = 268435456) (off : Nat) (idx : Nat) (hi : Nat) (lo : Nat) (v : Nat) (s : State) :
    proj m0 (setRegF off idx hi lo v s) = proj m0 s := by
  refine proj_mono hm0 ?_
  unfold setRegF
  try dsimp -proj only
  repeat' first
    | simp +decide only [↓setRegW_frame, ↓proj_ite, ↓proj_iteP, ite_self]
    | ((with_reducible refine proj_mk_trans ?_ ?_); · ((fail_if_success with_reducible rfl); rfl))
    | split

theorem setSticky_frame {m0 : Nat} (hm0 : m0 &&& 268435456 = 268435456) (off : Nat) (idx : Nat) (b : Nat) (s : State) :
    proj m0 (setSticky off idx b s) = proj m0 s := by
  refine proj_mono hm0 ?_
  unfold setSticky
  try dsimp -proj only
  repeat' first
    | simp +decide only [↓setRegF_frame, ↓proj_ite, ↓proj_iteP, ite_self]
    | ((with_reducible refine proj_mk_trans ?_ ?_); · ((fail_if_success with_reducible rfl); rfl))
    | split

theorem addCnt_frame {m0 : Nat} (hm0 : m0 &&& 536870912 = 536870912) (i : Nat) (n : Nat) (s : State) :
    proj m0 (addCnt i n s) = proj m0 s := by
  refine proj_mono hm0 ?_
  unfold addCnt
  try dsimp -proj only
  repeat' first
    | simp +decide only [↓proj_ite, ↓proj_iteP, ite_self]
    | ((with_reducible refine proj_mk_trans ?_ ?_); · ((fail_if_success with_reducible rfl); rfl))
    | split

theorem incCnt_frame {m0 : Nat} (hm0 : m0 &&& 536870912 = 536870912) (i : Nat) (s : State) :
    proj m0 (incCnt i s) = proj m0 s := by
  refine proj_mono hm0 ?_
  unfold incCnt
  try dsimp -proj only
  repeat' first
    | simp +decide only [↓addCnt_frame, ↓proj_ite, ↓proj_iteP, ite_self]
    | ((with_reducible refine proj_mk_trans ?_ ?_); · ((fail_if_success with_reducible rfl); rfl))
    | split

theorem setCnt_frame {m0 : Nat} (hm0 : m0 &&& 536870912 = 536870912) (i : Nat) (n : Nat) (s : State) :
    proj m0 (setCnt i n s) = proj m0 s := by
  refine proj_mono hm0 ?_
  unfold setCnt
  try dsimp -proj only
  repeat' first
    | simp +decide only [↓proj_ite, ↓proj_iteP, ite_self]
    | ((with_reducible refine proj_mk_trans ?_ ?_); · ((fail_if_success with_reducible rfl); rfl))
    | split

theorem startCmdCnt_frame {m0 : Nat} (hm0 : m0 &&& 2684354560 = 2684354560) (i : Nat) (op : W16) (s : State) :
    proj m0 (startCmdCnt i op s) = proj m0 s := by
  refine proj_mono hm0 ?_
  unfold startCmdCnt
  try dsimp -proj only
  repeat' first
    | simp +decide only [↓drawFree_frame, ↓setCnt_frame, ↓proj_ite, ↓proj_iteP, ite_self]
    | ((with_reducible refine proj_mk_trans ?_ ?_); · ((fail_if_success with_reducible rfl); rfl))
    | split

theorem setUnit_frame {m0 : Nat} (hm0 : m0 &&& 32 = 32) (u : UnitCode) (st : Nat) (cause : W16) (s : State) :
    proj m0 (setUnit u st cause s) = proj m0 s := by
  refine proj_mono hm0 ?_
  unfold setUnit
  try dsimp -proj only
  repeat' first
    | simp +decide only [↓proj_ite, ↓proj_iteP, ite_self]
    | ((with_reducible refine proj_mk_trans ?_ ?_); · ((fail_if_success with_reducible rfl); rfl))
    | split

theorem setCore_frame {m0 : Nat} (hm0 : m0 &&& 4 = 4) (c : CoreId) (x : CoreState) (s : State) :
    proj m0 (setCore c x s) = proj m0 s := by
  refine proj_mono hm0 ?_
  unfold setCore
  try dsimp -proj only
  repeat' first
    | simp +decide only [↓proj_ite, ↓proj_iteP, ite_self]
    | ((with_reducible refine proj_mk_trans ?_ ?_); · ((fail_if_success with_reducible rfl); rfl))
    | split

theorem modCore_frame {m0 : Nat} (hm0 : m0 &&& 4 = 4) (c : CoreId) (f : CoreState → CoreState) (s : State) :
    proj m0 (modCore c f s) = proj m0 s := by
  refine proj_mono hm0 ?_
  unfold modCore
  try dsimp -proj only
  repeat' first
    | simp +decide only [↓setCore_frame, ↓proj_ite, ↓proj_iteP, ite_self]
    | ((with_reducible refine proj_mk_trans ?_ ?_); · ((fail_if_success with_reducible rfl); rfl))
    | split

theorem setCluster_frame {m0 : Nat} (hm0 : m0 &&& 8 = 8) (k : ClusterId) (x : ClusterState) (s : State) :
    proj m0 (setCluster k x s) = proj m0 s := by
  refine proj_mono hm0 ?_
  unfold setCluster
  try dsimp -proj only
  repeat' first
    | simp +decide only [↓proj_ite, ↓proj_iteP, ite_self]
    | ((with_reducible refine proj_mk_trans ?_ ?_); · ((fail_if_success with_reducible rfl); rfl))
    | split

theorem modCluster_frame {m0 : Nat} (hm0 : m0 &&& 8 = 8) (k : ClusterId) (f : ClusterState → ClusterState) (s : State) :
    proj m0 (modCluster k f s) = proj m0 s := by
  refine proj_mono hm0 ?_
  unfold modCluster
  try dsimp -proj only
  repeat' first
    | simp +decide only [↓setCluster_frame, ↓proj_ite, ↓proj_iteP, ite_self]
    | ((with_reducible refine proj_mk_trans ?_ ?_); · ((fail_if_success with_reducible rfl); rfl))
    | split

theorem setDie_frame {m0 : Nat} (hm0 : m0 &&& 16 = 16) (d : CDie) (x : DieState) (s : State) :
    proj m0 (setDie d x s) = proj m0 s := by
  refine proj_mono hm0 ?_
  unfold setDie
  try dsimp -proj only
  repeat' first
    | simp +decide only [↓proj_ite, ↓proj_iteP, ite_self]
    | ((with_reducible refine proj_mk_trans ?_ ?_); · ((fail_if_success with_reducible rfl); rfl))
    | split

theorem modDie_frame {m0 : Nat} (hm0 : m0 &&& 16 = 16) (d : CDie) (f : DieState → DieState) (s : State) :
    proj m0 (modDie d f s) = proj m0 s := by
  refine proj_mono hm0 ?_
  unfold modDie
  try dsimp -proj only
  repeat' first
    | simp +decide only [↓setDie_frame, ↓proj_ite, ↓proj_iteP, ite_self]
    | ((with_reducible refine proj_mk_trans ?_ ?_); · ((fail_if_success with_reducible rfl); rfl))
    | split

theorem stampSub_frame {m0 : Nat} (hm0 : m0 &&& 2147483648 = 2147483648) (u : UnitCode) (s : State) :
    proj m0 (stampSub u s).2 = proj m0 s := by
  refine proj_mono hm0 ?_
  unfold stampSub
  try dsimp -proj only
  repeat' first
    | simp +decide only [↓drawSub_frame, ↓proj_ite, ↓proj_iteP, ite_self]
    | ((with_reducible refine proj_mk_trans ?_ ?_); · ((fail_if_success with_reducible rfl); rfl))
    | split

theorem report_frame {m0 : Nat} (hm0 : m0 &&& 2147483680 = 2147483680) (code : Nat) (suspect : UnitCode) (alt : UnitCode) (reporter : UnitCode) (layer : W16) (op : W16) (value : Nat) (s : State) :
    proj m0 (report code suspect alt reporter layer op value s) = proj m0 s := by
  refine proj_mono hm0 ?_
  unfold report
  try dsimp -proj only
  repeat' first
    | simp +decide only [↓stampSub_frame, ↓proj_ite, ↓proj_iteP, ite_self]
    | ((with_reducible refine proj_mk_trans ?_ ?_); · ((fail_if_success with_reducible rfl); rfl))
    | split

theorem reportWith_frame {m0 : Nat} (hm0 : m0 &&& 2147483680 = 2147483680) (code : Nat) (suspect : UnitCode) (alt : UnitCode) (reporter : UnitCode) (layer : W16) (op : W16) (content : List Nat) (s : State) :
    proj m0 (reportWith code suspect alt reporter layer op content s) = proj m0 s := by
  refine proj_mono hm0 ?_
  unfold reportWith
  try dsimp -proj only
  repeat' first
    | simp +decide only [↓report_frame, ↓proj_ite, ↓proj_iteP, ite_self]
    | ((with_reducible refine proj_mk_trans ?_ ?_); · ((fail_if_success with_reducible rfl); rfl))
    | split

theorem emitTrace_frame {m0 : Nat} (hm0 : m0 &&& 2684354816 = 2684354816) (kind : Nat) (u : UnitCode) (layer : W16) (op : W16) (payload : Nat) (s : State) :
    proj m0 (emitTrace kind u layer op payload s) = proj m0 s := by
  refine proj_mono hm0 ?_
  unfold emitTrace
  try dsimp -proj only
  repeat' first
    | simp +decide only [↓stampSub_frame, ↓incCnt_frame, ↓addCnt_frame, ↓proj_ite, ↓proj_iteP, ite_self]
    | ((with_reducible refine proj_mk_trans ?_ ?_); · ((fail_if_success with_reducible rfl); rfl))
    | split

theorem event_frame {m0 : Nat} (hm0 : m0 &&& 536872960 = 536872960) (code : Nat) (u : UnitCode) (v : Int) (layer : W16) (op : W16) (detail : Bytes) (s : State) :
    proj m0 (event code u v layer op detail s) = proj m0 s := by
  refine proj_mono hm0 ?_
  unfold event
  try dsimp -proj only
  repeat' first
    | simp +decide only [↓incCnt_frame, ↓proj_ite, ↓proj_iteP, ite_self]
    | ((with_reducible refine proj_mk_trans ?_ ?_); · ((fail_if_success with_reducible rfl); rfl))
    | split

theorem devEvent_frame {m0 : Nat} (hm0 : m0 &&& 536872960 = 536872960) (code : Nat) (u : UnitCode) (v : Int) (s : State) :
    proj m0 (devEvent code u v s) = proj m0 s := by
  refine proj_mono hm0 ?_
  unfold devEvent
  try dsimp -proj only
  repeat' first
    | simp +decide only [↓event_frame, ↓proj_ite, ↓proj_iteP, ite_self]
    | ((with_reducible refine proj_mk_trans ?_ ?_); · ((fail_if_success with_reducible rfl); rfl))
    | split

theorem endHold_frame {m0 : Nat} (hm0 : m0 &&& 2048 = 2048) (s : State) : proj m0 (endHold s) = proj m0 s := by
  refine proj_mono hm0 ?_
  unfold endHold
  try dsimp -proj only
  repeat' first
    | simp +decide only [↓proj_ite, ↓proj_iteP, ite_self]
    | (with_reducible refine (foldl_proj _ _ ?_ _).trans ?_; intro _ _)
    | (with_reducible refine (foldl_projP _ _ ?_ _).trans ?_; intro _ _)
    | ((with_reducible refine proj_mk_trans ?_ ?_); · ((fail_if_success with_reducible rfl); rfl))
    | split

theorem cutRecords_frame {m0 : Nat} (hm0 : m0 &&& 268437504 = 268437504) (s : State) :
    proj m0 (cutRecords s) = proj m0 s := by
  refine proj_mono hm0 ?_
  unfold cutRecords
  try dsimp -proj only
  repeat' first
    | simp +decide only [↓setSticky_frame, ↓proj_ite, ↓proj_iteP, ite_self]
    | ((with_reducible refine proj_mk_trans ?_ ?_); · ((fail_if_success with_reducible rfl); rfl))
    | split

theorem beginServing_frame {m0 : Nat} (hm0 : m0 &&& 805308416 = 805308416) (s : State) :
    proj m0 (beginServing s) = proj m0 s := by
  refine proj_mono hm0 ?_
  unfold beginServing
  try dsimp -proj only
  repeat' first
    | simp +decide only [↓devEvent_frame, ↓setRegQ_frame, ↓setRegF_frame, ↓proj_ite, ↓proj_iteP, ite_self]
    | ((with_reducible refine proj_mk_trans ?_ ?_); · ((fail_if_success with_reducible rfl); rfl))
    | split

theorem markStretch_frame {m0 : Nat} (hm0 : m0 &&& 4096 = 4096) (s : State) : proj m0 (markStretch s) = proj m0 s := by
  refine proj_mono hm0 ?_
  unfold markStretch
  try dsimp -proj only
  repeat' first
    | simp +decide only [↓proj_ite, ↓proj_iteP, ite_self]
    | (with_reducible refine (foldl_proj _ _ ?_ _).trans ?_; intro _ _)
    | (with_reducible refine (foldl_projP _ _ ?_ _).trans ?_; intro _ _)
    | ((with_reducible refine proj_mk_trans ?_ ?_); · ((fail_if_success with_reducible rfl); rfl))
    | split

theorem noteStretch_frame {m0 : Nat} (hm0 : m0 &&& 4096 = 4096) (s : State) : proj m0 (noteStretch s) = proj m0 s := by
  refine proj_mono hm0 ?_
  unfold noteStretch
  try dsimp -proj only
  repeat' first
    | simp +decide only [↓proj_ite, ↓proj_iteP, ite_self]
    | (with_reducible refine (foldl_proj _ _ ?_ _).trans ?_; intro _ _)
    | (with_reducible refine (foldl_projP _ _ ?_ _).trans ?_; intro _ _)
    | ((with_reducible refine proj_mk_trans ?_ ?_); · ((fail_if_success with_reducible rfl); rfl))
    | split

theorem takeFreeze_frame {m0 : Nat} (hm0 : m0 &&& 1610618880 = 1610618880) (sources : Nat) (out : Bool) (s : State) :
    proj m0 (takeFreeze sources out s).2 = proj m0 s := by
  refine proj_mono hm0 ?_
  unfold takeFreeze
  try dsimp -proj only
  repeat' first
    | simp +decide only [↓incCnt_frame, ↓noteStretch_frame, ↓devEvent_frame, ↓proj_ite, ↓proj_iteP, ite_self]
    | ((with_reducible refine proj_mk_trans ?_ ?_); · ((fail_if_success with_reducible rfl); rfl))
    | split

theorem faultRecord_frame {m0 : Nat} (hm0 : m0 &&& 3758102816 = 3758102816) (r : Report) (a : FaultAct) (s : State) :
    proj m0 (faultRecord r a s) = proj m0 s := by
  refine proj_mono hm0 ?_
  unfold faultRecord
  try dsimp -proj only
  repeat' first
    | simp +decide only [↓incCnt_frame, ↓emitTrace_frame, ↓event_frame, ↓takeFreeze_frame, ↓proj_ite, ↓proj_iteP, ite_self]
    | ((with_reducible refine proj_mk_trans ?_ ?_); · ((fail_if_success with_reducible rfl); rfl))
    | split

theorem setPort_frame {m0 : Nat} (hm0 : m0 &&& 262144 = 262144) (p : HPort) (x : PortState) (s : State) :
    proj m0 (setPort p x s) = proj m0 s := by
  refine proj_mono hm0 ?_
  unfold setPort
  try dsimp -proj only
  repeat' first
    | simp +decide only [↓proj_ite, ↓proj_iteP, ite_self]
    | ((with_reducible refine proj_mk_trans ?_ ?_); · ((fail_if_success with_reducible rfl); rfl))
    | split

theorem modPort_frame {m0 : Nat} (hm0 : m0 &&& 262144 = 262144) (p : HPort) (f : PortState → PortState) (s : State) :
    proj m0 (modPort p f s) = proj m0 s := by
  refine proj_mono hm0 ?_
  unfold modPort
  try dsimp -proj only
  repeat' first
    | simp +decide only [↓setPort_frame, ↓proj_ite, ↓proj_iteP, ite_self]
    | ((with_reducible refine proj_mk_trans ?_ ?_); · ((fail_if_success with_reducible rfl); rfl))
    | split

theorem hostWrite_frame {m0 : Nat} (hm0 : m0 &&& 262144 = 262144) (p : HPort) (a : Nat) (bs : Bytes) (s : State) :
    proj m0 (hostWrite p a bs s) = proj m0 s := by
  refine proj_mono hm0 ?_
  unfold hostWrite
  try dsimp -proj only
  repeat' first
    | simp +decide only [↓modPort_frame, ↓proj_ite, ↓proj_iteP, ite_self]
    | ((with_reducible refine proj_mk_trans ?_ ?_); · ((fail_if_success with_reducible rfl); rfl))
    | split

theorem sendIrq_frame {m0 : Nat} (hm0 : m0 &&& 262144 = 262144) (p : HPort) (v : Nat) (s : State) :
    proj m0 (sendIrq p v s) = proj m0 s := by
  refine proj_mono hm0 ?_
  unfold sendIrq
  try dsimp -proj only
  repeat' first
    | simp +decide only [↓modPort_frame, ↓proj_ite, ↓proj_iteP, ite_self]
    | ((with_reducible refine proj_mk_trans ?_ ?_); · ((fail_if_success with_reducible rfl); rfl))
    | split

theorem hifEvent_frame {m0 : Nat} (hm0 : m0 &&& 268697600 = 268697600) (p : HPort) (b : Nat) (s : State) :
    proj m0 (hifEvent p b s) = proj m0 s := by
  refine proj_mono hm0 ?_
  unfold hifEvent
  try dsimp -proj only
  repeat' first
    | simp +decide only [↓sendIrq_frame, ↓setSticky_frame, ↓proj_ite, ↓proj_iteP, ite_self]
    | ((with_reducible refine proj_mk_trans ?_ ?_); · ((fail_if_success with_reducible rfl); rfl))
    | split

theorem discardRws_frame {m0 : Nat} (hm0 : m0 &&& 805568512 = 805568512) (p : HPort) (off : Nat) (s : State) :
    proj m0 (discardRws p off s) = proj m0 s := by
  refine proj_mono hm0 ?_
  unfold discardRws
  try dsimp -proj only
  repeat' first
    | simp +decide only [↓setRegF_frame, ↓setSticky_frame, ↓hifEvent_frame, ↓incCnt_frame, ↓proj_ite, ↓proj_iteP, ite_self]
    | ((with_reducible refine proj_mk_trans ?_ ?_); · ((fail_if_success with_reducible rfl); rfl))
    | split

theorem allocLaunch_frame {m0 : Nat} (hm0 : m0 &&& 262144 = 262144) (dies : List Nat) (gtNs : Nat) (s : State) :
    optProj m0 s (allocLaunch dies gtNs s) := by
  refine optProj_mono hm0 ?_
  unfold allocLaunch
  refine foldl_optProj _ _ ?_ _ (optProj_some rfl)
  intro acc d h
  split
  · exact optProj_none
  · split
    · exact optProj_none
    · exact optProj_some (proj_mk_trans rfl (h _ rfl))

theorem freeLaunch_frame {m0 : Nat} (hm0 : m0 &&& 262144 = 262144) (es : List Nat) (s : State) :
    proj m0 (freeLaunch es s) = proj m0 s := by
  refine proj_mono hm0 ?_
  unfold freeLaunch
  try dsimp -proj only
  repeat' first
    | simp +decide only [↓proj_ite, ↓proj_iteP, ite_self]
    | ((with_reducible refine proj_mk_trans ?_ ?_); · ((fail_if_success with_reducible rfl); rfl))
    | split

theorem dropLaunch_frame {m0 : Nat} (hm0 : m0 &&& 262144 = 262144) (due : Nat) (es : List Nat) (s : State) :
    proj m0 (dropLaunch due es s) = proj m0 s := by
  refine proj_mono hm0 ?_
  unfold dropLaunch
  try dsimp -proj only
  repeat' first
    | simp +decide only [↓freeLaunch_frame, ↓proj_ite, ↓proj_iteP, ite_self]
    | ((with_reducible refine proj_mk_trans ?_ ?_); · ((fail_if_success with_reducible rfl); rfl))
    | split

theorem edgeLaunches_frame {m0 : Nat} (hm0 : m0 &&& 262144 = 262144) (s : State) :
    proj m0 (edgeLaunches s) = proj m0 s := by
  refine proj_mono hm0 ?_
  unfold edgeLaunches
  try dsimp -proj only
  repeat' first
    | simp +decide only [↓proj_ite, ↓proj_iteP, ite_self]
    | ((with_reducible refine proj_mk_trans ?_ ?_); · ((fail_if_success with_reducible rfl); rfl))
    | split

theorem notePast_frame {m0 : Nat} (hm0 : m0 &&& 536870912 = 536870912) (gtNs : Nat) (s : State) :
    proj m0 (notePast gtNs s) = proj m0 s := by
  refine proj_mono hm0 ?_
  unfold notePast
  try dsimp -proj only
  repeat' first
    | simp +decide only [↓incCnt_frame, ↓proj_ite, ↓proj_iteP, ite_self]
    | ((with_reducible refine proj_mk_trans ?_ ?_); · ((fail_if_success with_reducible rfl); rfl))
    | split

theorem setSq_frame {m0 : Nat} (hm0 : m0 &&& 262144 = 262144) (p : HPort) (i : Nat) (q : Sq) (s : State) :
    proj m0 (setSq p i q s) = proj m0 s := by
  refine proj_mono hm0 ?_
  unfold setSq
  try dsimp -proj only
  repeat' first
    | simp +decide only [↓modPort_frame, ↓proj_ite, ↓proj_iteP, ite_self]
    | ((with_reducible refine proj_mk_trans ?_ ?_); · ((fail_if_success with_reducible rfl); rfl))
    | split

theorem setCq_frame {m0 : Nat} (hm0 : m0 &&& 262144 = 262144) (p : HPort) (i : Nat) (q : Cq) (s : State) :
    proj m0 (setCq p i q s) = proj m0 s := by
  refine proj_mono hm0 ?_
  unfold setCq
  try dsimp -proj only
  repeat' first
    | simp +decide only [↓modPort_frame, ↓proj_ite, ↓proj_iteP, ite_self]
    | ((with_reducible refine proj_mk_trans ?_ ?_); · ((fail_if_success with_reducible rfl); rfl))
    | split

theorem cqSignal_frame {m0 : Nat} (hm0 : m0 &&& 262144 = 262144) (p : HPort) (i : Nat) (s : State) :
    proj m0 (cqSignal p i s) = proj m0 s := by
  refine proj_mono hm0 ?_
  unfold cqSignal
  try dsimp -proj only
  repeat' first
    | simp +decide only [↓sendIrq_frame, ↓setCq_frame, ↓proj_ite, ↓proj_iteP, ite_self]
    | ((with_reducible refine proj_mk_trans ?_ ?_); · ((fail_if_success with_reducible rfl); rfl))
    | split

theorem completeRaw_frame {m0 : Nat} (hm0 : m0 &&& 262144 = 262144) (p : HPort) (ring : Nat) (tag : Nat) (quiet : Bool) (prot : Nat) (status : Nat) (result : Nat) (s : State) :
    proj m0 (completeRaw p ring tag quiet prot status result s) = proj m0 s := by
  refine proj_mono hm0 ?_
  unfold completeRaw
  try dsimp -proj only
  repeat' first
    | simp +decide only [↓setSq_frame, ↓setCq_frame, ↓hostWrite_frame, ↓cqSignal_frame, ↓proj_ite, ↓proj_iteP, ite_self]
    | ((with_reducible refine proj_mk_trans ?_ ?_); · ((fail_if_success with_reducible rfl); rfl))
    | split

theorem complete_frame {m0 : Nat} (hm0 : m0 &&& 268697600 = 268697600) (d : Desc) (status : Nat) (result : Nat) (s : State) :
    proj m0 (complete d status result s) = proj m0 s := by
  refine proj_mono hm0 ?_
  unfold complete
  try dsimp -proj only
  repeat' first
    | simp +decide only [↓dropLaunch_frame, ↓hifEvent_frame, ↓completeRaw_frame, ↓proj_ite, ↓proj_iteP, ite_self]
    | ((with_reducible refine proj_mk_trans ?_ ?_); · ((fail_if_success with_reducible rfl); rfl))
    | split

theorem completeBare_frame {m0 : Nat} (hm0 : m0 &&& 2416181248 = 2416181248) (d : Desc) (status : Nat) (s : State) :
    proj m0 (completeBare d status s) = proj m0 s := by
  refine proj_mono hm0 ?_
  unfold completeBare
  try dsimp -proj only
  repeat' first
    | simp +decide only [↓drawFree_frame, ↓complete_frame, ↓proj_ite, ↓proj_iteP, ite_self]
    | ((with_reducible refine proj_mk_trans ?_ ?_); · ((fail_if_success with_reducible rfl); rfl))
    | split

theorem descWrite_frame {m0 : Nat} (hm0 : m0 &&& 262144 = 262144) (d : Desc) (a : Nat) (bs : Bytes) (s : State) :
    proj m0 (descWrite d a bs s) = proj m0 s := by
  refine proj_mono hm0 ?_
  unfold descWrite
  try dsimp -proj only
  repeat' first
    | simp +decide only [↓hostWrite_frame, ↓proj_ite, ↓proj_iteP, ite_self]
    | ((with_reducible refine proj_mk_trans ?_ ?_); · ((fail_if_success with_reducible rfl); rfl))
    | split

theorem acceptNow_frame {m0 : Nat} (hm0 : m0 &&& 262144 = 262144) (s : State) : proj m0 (acceptNow s).2 = proj m0 s := by
  refine proj_mono hm0 ?_
  unfold acceptNow
  try dsimp -proj only
  repeat' first
    | simp +decide only [↓proj_ite, ↓proj_iteP, ite_self]
    | ((with_reducible refine proj_mk_trans ?_ ?_); · ((fail_if_success with_reducible rfl); rfl))
    | split

theorem takeDesc_frame {m0 : Nat} (hm0 : m0 &&& 262144 = 262144) (test : Desc → Bool) (s : State) :
    optProj m0 s (takeDesc test s) := by
  refine optProj_mono hm0 ?_
  unfold takeDesc
  try dsimp -proj only
  repeat' first
    | (with_reducible exact optProj_none)
    | (with_reducible refine optProj_some ?_)
    | (with_reducible refine ite_projO ?_ ?_)
    | simp +decide only [↓proj_ite, ↓proj_iteP, ite_self]
    | ((with_reducible refine proj_mk_trans ?_ ?_); · ((fail_if_success with_reducible rfl); rfl))
    | split

theorem takeDescAny_frame {m0 : Nat} (hm0 : m0 &&& 262144 = 262144) (test : Desc → Bool) (s : State) :
    optProj m0 s (takeDescAny test s) := by
  refine optProj_mono hm0 ?_
  unfold takeDescAny
  try dsimp -proj only
  repeat' first
    | (with_reducible exact optProj_none)
    | (with_reducible refine optProj_some ?_)
    | (with_reducible refine ite_projO ?_ ?_)
    | simp +decide only [↓proj_ite, ↓proj_iteP, ite_self]
    | ((with_reducible refine proj_mk_trans ?_ ?_); · ((fail_if_success with_reducible rfl); rfl))
    | (with_reducible intro _)
    | split

theorem setCoreMap_frame {m0 : Nat} (hm0 : m0 &&& 32 = 32) (l : Nat) (p : Nat) (s : State) :
    proj m0 (setCoreMap l p s) = proj m0 s := by
  refine proj_mono hm0 ?_
  unfold setCoreMap
  try dsimp -proj only
  repeat' first
    | simp +decide only [↓proj_ite, ↓proj_iteP, ite_self]
    | ((with_reducible refine proj_mk_trans ?_ ?_); · ((fail_if_success with_reducible rfl); rfl))
    | split

theorem setClusterMap_frame {m0 : Nat} (hm0 : m0 &&& 32 = 32) (l : Nat) (p : Nat) (s : State) :
    proj m0 (setClusterMap l p s) = proj m0 s := by
  refine proj_mono hm0 ?_
  unfold setClusterMap
  try dsimp -proj only
  repeat' first
    | simp +decide only [↓proj_ite, ↓proj_iteP, ite_self]
    | ((with_reducible refine proj_mk_trans ?_ ?_); · ((fail_if_success with_reducible rfl); rfl))
    | split

theorem fenceMark_frame {m0 : Nat} (hm0 : m0 &&& 2684354592 = 2684354592) (u : UnitCode) (cause : Nat) (s : State) :
    proj m0 (fenceMark u cause s) = proj m0 s := by
  refine proj_mono hm0 ?_
  unfold fenceMark
  try dsimp -proj only
  repeat' first
    | simp +decide only [↓reportWith_frame, ↓incCnt_frame, ↓setUnit_frame, ↓proj_ite, ↓proj_iteP, ite_self]
    | ((with_reducible refine proj_mk_trans ?_ ?_); · ((fail_if_success with_reducible rfl); rfl))
    | split

theorem markRelaunch_frame {m0 : Nat} (hm0 : m0 &&& 32 = 32) (ream : W32) (s : State) :
    proj m0 (markRelaunch ream s) = proj m0 s := by
  refine proj_mono hm0 ?_
  unfold markRelaunch
  try dsimp -proj only
  repeat' first
    | simp +decide only [↓proj_ite, ↓proj_iteP, ite_self]
    | ((with_reducible refine proj_mk_trans ?_ ?_); · ((fail_if_success with_reducible rfl); rfl))
    | split

theorem markCoreReams_frame {m0 : Nat} (hm0 : m0 &&& 32 = 32) (c : CoreId) (s : State) :
    proj m0 (markCoreReams c s) = proj m0 s := by
  refine proj_mono hm0 ?_
  unfold markCoreReams
  try dsimp -proj only
  repeat' first
    | simp +decide only [↓markRelaunch_frame, ↓proj_ite, ↓proj_iteP, ite_self]
    | (with_reducible refine (foldl_proj _ _ ?_ _).trans ?_; intro _ _)
    | (with_reducible refine (foldl_projP _ _ ?_ _).trans ?_; intro _ _)
    | ((with_reducible refine proj_mk_trans ?_ ?_); · ((fail_if_success with_reducible rfl); rfl))
    | split

theorem moveCluster_frame {m0 : Nat} (hm0 : m0 &&& 32 = 32) (k : Nat) (s : State) :
    proj m0 (moveCluster k s) = proj m0 s := by
  refine proj_mono hm0 ?_
  unfold moveCluster
  try dsimp -proj only
  repeat' first
    | simp +decide only [↓setClusterMap_frame, ↓proj_ite, ↓proj_iteP, ite_self]
    | (with_reducible refine (foldl_proj _ _ ?_ _).trans ?_; intro _ _)
    | (with_reducible refine (foldl_projP _ _ ?_ _).trans ?_; intro _ _)
    | ((with_reducible refine proj_mk_trans ?_ ?_); · ((fail_if_success with_reducible rfl); rfl))
    | split

theorem fenceCluster_frame {m0 : Nat} (hm0 : m0 &&& 2684354592 = 2684354592) (k : Nat) (cause : Nat) (s : State) :
    proj m0 (fenceCluster k cause s) = proj m0 s := by
  refine proj_mono hm0 ?_
  unfold fenceCluster
  try dsimp -proj only
  repeat' first
    | simp +decide only [↓fenceMark_frame, ↓markCoreReams_frame, ↓moveCluster_frame, ↓proj_ite, ↓proj_iteP, ite_self]
    | (with_reducible refine (foldl_proj _ _ ?_ _).trans ?_; intro _ _)
    | (with_reducible refine (foldl_projP _ _ ?_ _).trans ?_; intro _ _)
    | ((with_reducible refine proj_mk_trans ?_ ?_); · ((fail_if_success with_reducible rfl); rfl))
    | split

theorem moveCore_frame {m0 : Nat} (hm0 : m0 &&& 32 = 32) (c : CoreId) (s : State) : proj m0 (moveCore c s) = proj m0 s := by
  refine proj_mono hm0 ?_
  unfold moveCore
  try dsimp -proj only
  repeat' first
    | simp +decide only [↓setCoreMap_frame, ↓moveCluster_frame, ↓proj_ite, ↓proj_iteP, ite_self]
    | (with_reducible refine (foldl_proj _ _ ?_ _).trans ?_; intro _ _)
    | (with_reducible refine (foldl_projP _ _ ?_ _).trans ?_; intro _ _)
    | ((with_reducible refine proj_mk_trans ?_ ?_); · ((fail_if_success with_reducible rfl); rfl))
    | split

theorem fenceCore_frame {m0 : Nat} (hm0 : m0 &&& 2684354592 = 2684354592) (c : CoreId) (cause : Nat) (s : State) :
    proj m0 (fenceCore c cause s) = proj m0 s := by
  refine proj_mono hm0 ?_
  unfold fenceCore
  try dsimp -proj only
  repeat' first
    | simp +decide only [↓markCoreReams_frame, ↓fenceMark_frame, ↓fenceCluster_frame, ↓moveCore_frame, ↓proj_ite, ↓proj_iteP, ite_self]
    | ((with_reducible refine proj_mk_trans ?_ ?_); · ((fail_if_success with_reducible rfl); rfl))
    | split

theorem fenceEngine_frame {m0 : Nat} (hm0 : m0 &&& 2684354596 = 2684354596) (c : CoreId) (m : MeId) (cause : Nat) (s : State) :
    proj m0 (fenceEngine c m cause s) = proj m0 s := by
  refine proj_mono hm0 ?_
  unfold fenceEngine
  try dsimp -proj only
  repeat' first
    | simp +decide only [↓fenceMark_frame, ↓setCore_frame, ↓fenceCore_frame, ↓proj_ite, ↓proj_iteP, ite_self]
    | ((with_reducible refine proj_mk_trans ?_ ?_); · ((fail_if_success with_reducible rfl); rfl))
    | split

theorem unfenceUnit_frame {m0 : Nat} (hm0 : m0 &&& 36 = 36) (u : UnitCode) (s : State) :
    proj m0 (unfenceUnit u s) = proj m0 s := by
  refine proj_mono hm0 ?_
  unfold unfenceUnit
  try dsimp -proj only
  repeat' first
    | simp +decide only [↓setUnit_frame, ↓modCore_frame, ↓setCoreMap_frame, ↓setClusterMap_frame, ↓proj_ite, ↓proj_iteP, ite_self]
    | ((with_reducible refine proj_mk_trans ?_ ?_); · ((fail_if_success with_reducible rfl); rfl))
    | split

theorem putDom_frame {m0 : Nat} (hm0 : m0 &&& 67108864 = 67108864) (n : Nat) (d : Dom) (s : State) :
    proj m0 (putDom n d s) = proj m0 s := by
  refine proj_mono hm0 ?_
  unfold putDom
  try dsimp -proj only
  repeat' first
    | simp +decide only [↓proj_ite, ↓proj_iteP, ite_self]
    | ((with_reducible refine proj_mk_trans ?_ ?_); · ((fail_if_success with_reducible rfl); rfl))
    | split

theorem beginWake_frame {m0 : Nat} (hm0 : m0 &&& 603979776 = 603979776) (n : Nat) (cnt : Nat) (s : State) :
    proj m0 (beginWake n cnt s) = proj m0 s := by
  refine proj_mono hm0 ?_
  unfold beginWake
  try dsimp -proj only
  repeat' first
    | simp +decide only [↓incCnt_frame, ↓putDom_frame, ↓proj_ite, ↓proj_iteP, ite_self]
    | ((with_reducible refine proj_mk_trans ?_ ?_); · ((fail_if_success with_reducible rfl); rfl))
    | split

theorem drawLine_frame {m0 : Nat} (hm0 : m0 &&& 2147483648 = 2147483648) (s : State) :
    proj m0 (drawLine s).2 = proj m0 s := by
  refine proj_mono hm0 ?_
  unfold drawLine
  try dsimp -proj only
  repeat' first
    | simp +decide only [↓drawFree_frame, ↓proj_ite, ↓proj_iteP, ite_self]
    | ((with_reducible refine proj_mk_trans ?_ ?_); · ((fail_if_success with_reducible rfl); rfl))
    | split

theorem setRaw_frame {m0 : Nat} (hm0 : m0 &&& 16384 = 16384) (key : Nat) (bs : Bytes) (s : State) :
    proj m0 (setRaw key bs s) = proj m0 s := by
  refine proj_mono hm0 ?_
  unfold setRaw
  try dsimp -proj only
  repeat' first
    | simp +decide only [↓proj_ite, ↓proj_iteP, ite_self]
    | ((with_reducible refine proj_mk_trans ?_ ?_); · ((fail_if_success with_reducible rfl); rfl))
    | split

theorem setPoisonKey_frame {m0 : Nat} (hm0 : m0 &&& 16384 = 16384) (key : Nat) (p : Bool) (s : State) :
    proj m0 (setPoisonKey key p s) = proj m0 s := by
  refine proj_mono hm0 ?_
  unfold setPoisonKey
  try dsimp -proj only
  repeat' first
    | simp +decide only [↓proj_ite, ↓proj_iteP, ite_self]
    | ((with_reducible refine proj_mk_trans ?_ ?_); · ((fail_if_success with_reducible rfl); rfl))
    | split

theorem setNlu_frame {m0 : Nat} (hm0 : m0 &&& 32768 = 32768) (u : Nat) (x : Nlu) (s : State) :
    proj m0 (setNlu u x s) = proj m0 s := by
  refine proj_mono hm0 ?_
  unfold setNlu
  try dsimp -proj only
  repeat' first
    | simp +decide only [↓proj_ite, ↓proj_iteP, ite_self]
    | ((with_reducible refine proj_mk_trans ?_ ?_); · ((fail_if_success with_reducible rfl); rfl))
    | split

theorem stopNlus_frame {m0 : Nat} (hm0 : m0 &&& 32800 = 32800) (st : Nat) (s : State) :
    proj m0 (stopNlus st s) = proj m0 s := by
  refine proj_mono hm0 ?_
  unfold stopNlus
  try dsimp -proj only
  repeat' first
    | simp +decide only [↓setNlu_frame, ↓markRelaunch_frame, ↓proj_ite, ↓proj_iteP, ite_self]
    | (with_reducible refine (foldl_proj _ _ ?_ _).trans ?_; intro _ _)
    | (with_reducible refine (foldl_projP _ _ ?_ _).trans ?_; intro _ _)
    | ((with_reducible refine proj_mk_trans ?_ ?_); · ((fail_if_success with_reducible rfl); rfl))
    | split

theorem declareLost_frame {m0 : Nat} (hm0 : m0 &&& 2147532832 = 2147532832) (st : StackId) (retired : Bool) (cause : Nat) (s : State) :
    proj m0 (declareLost st retired cause s) = proj m0 s := by
  refine proj_mono hm0 ?_
  unfold declareLost
  try dsimp -proj only
  repeat' first
    | simp +decide only [↓setUnit_frame, ↓stopNlus_frame, ↓reportWith_frame, ↓proj_ite, ↓proj_iteP, ite_self]
    | ((with_reducible refine proj_mk_trans ?_ ?_); · ((fail_if_success with_reducible rfl); rfl))
    | split

theorem noteUe_frame {m0 : Nat} (hm0 : m0 &&& 2952839200 = 2952839200) (st : StackId) (s : State) :
    proj m0 (noteUe st s) = proj m0 s := by
  refine proj_mono hm0 ?_
  unfold noteUe
  try dsimp -proj only
  repeat' first
    | simp +decide only [↓setSticky_frame, ↓incCnt_frame, ↓reportWith_frame, ↓declareLost_frame, ↓proj_ite, ↓proj_iteP, ite_self]
    | ((with_reducible refine proj_mk_trans ?_ ?_); · ((fail_if_success with_reducible rfl); rfl))
    | split

theorem touchStack_frame {m0 : Nat} (hm0 : m0 &&& 603996160 = 603996160) (st : Nat) (s : State) :
    proj m0 (touchStack st s) = proj m0 s := by
  refine proj_mono hm0 ?_
  unfold touchStack
  try dsimp -proj only
  repeat' first
    | simp +decide only [↓beginWake_frame, ↓proj_ite, ↓proj_iteP, ite_self]
    | ((with_reducible refine proj_mk_trans ?_ ?_); · ((fail_if_success with_reducible rfl); rfl))
    | split

theorem deliverUnit_frame {m0 : Nat} (hm0 : m0 &&& 805437440 = 805437440) (u : Nat) (unit : Nat) (o : OvhUnit) (attempts : List (Option Bytes)) (s : State) :
    proj m0 (deliverUnit u unit o attempts s) = proj m0 s := by
  refine proj_mono hm0 ?_
  unfold deliverUnit
  try dsimp -proj only
  repeat' first
    | simp +decide only [↓incCnt_frame, ↓addCnt_frame, ↓setSticky_frame, ↓proj_ite, ↓proj_iteP, ite_self]
    | ((with_reducible refine proj_mk_trans ?_ ?_); · ((fail_if_success with_reducible rfl); rfl))
    | (with_reducible intro _)
    | split

theorem ovhLine_frame {m0 : Nat} (hm0 : m0 &&& 2952921088 = 2952921088) (l : Nat) (unit : Nat) (o : OvhUnit) (s : State) :
    proj m0 (ovhLine l unit o s).2 = proj m0 s := by
  refine proj_mono hm0 ?_
  unfold ovhLine
  try dsimp -proj only
  repeat' first
    | simp +decide only [↓deliverUnit_frame, ↓drawLine_frame, ↓proj_ite, ↓proj_iteP, ite_self]
    | ((with_reducible refine proj_mk_trans ?_ ?_); · ((fail_if_success with_reducible rfl); rfl))
    | (with_reducible refine (snd_eq (by assumption) (drawLine_frame (by decide) _)).trans ?_)
    | split

theorem copyWrite_frame {m0 : Nat} (hm0 : m0 &&& 268697600 = 268697600) (by_ : Option (HPort × Nat)) (p : HPort) (a : Nat) (bs : Bytes) (s : State) :
    proj m0 (copyWrite by_ p a bs s) = proj m0 s := by
  refine proj_mono hm0 ?_
  unfold copyWrite
  try dsimp -proj only
  repeat' first
    | simp +decide only [↓hifEvent_frame, ↓hostWrite_frame, ↓proj_ite, ↓proj_iteP, ite_self]
    | ((with_reducible refine proj_mk_trans ?_ ?_); · ((fail_if_success with_reducible rfl); rfl))
    | split

theorem copiesWrite_frame {m0 : Nat} (hm0 : m0 &&& 268697600 = 268697600) (by_ : Option (HPort × Nat)) (o : OvhUnit) (off : Nat) (bs : Bytes) (s : State) :
    proj m0 (copiesWrite by_ o off bs s) = proj m0 s := by
  refine proj_mono hm0 ?_
  unfold copiesWrite
  try dsimp -proj only
  repeat' first
    | simp +decide only [↓copyWrite_frame, ↓proj_ite, ↓proj_iteP, ite_self]
    | ((with_reducible refine proj_mk_trans ?_ ?_); · ((fail_if_success with_reducible rfl); rfl))
    | split

theorem ovhWrite_frame {m0 : Nat} (hm0 : m0 &&& 268828672 = 268828672) (by_ : Option (HPort × Nat)) (unit : Nat) (o : OvhUnit) (off : Nat) (bs : Bytes) (s : State) :
    proj m0 (ovhWrite by_ unit o off bs s) = proj m0 s := by
  refine proj_mono hm0 ?_
  unfold ovhWrite
  try dsimp -proj only
  repeat' first
    | simp +decide only [↓copiesWrite_frame, ↓proj_ite, ↓proj_iteP, ite_self]
    | ((with_reducible refine proj_mk_trans ?_ ?_); · ((fail_if_success with_reducible rfl); rfl))
    | split

theorem putErrs_frame {m0 : Nat} (hm0 : m0 &&& 16384 = 16384) (errs : List (Nat × LineErr)) (s : State) :
    proj m0 (putErrs errs s) = proj m0 s := by
  refine proj_mono hm0 ?_
  unfold putErrs
  try dsimp -proj only
  repeat' first
    | simp +decide only [↓proj_ite, ↓proj_iteP, ite_self]
    | (with_reducible refine (foldl_proj _ _ ?_ _).trans ?_; intro _ _)
    | (with_reducible refine (foldl_projP _ _ ?_ _).trans ?_; intro _ _)
    | ((with_reducible refine proj_mk_trans ?_ ?_); · ((fail_if_success with_reducible rfl); rfl))
    | split

theorem findErr_frame {m0 : Nat} (hm0 : m0 &&& 2952839200 = 2952839200) (key : Nat) (s : State) :
    proj m0 (findErr key s) = proj m0 s := by
  refine proj_mono hm0 ?_
  unfold findErr
  try dsimp -proj only
  repeat' first
    | simp +decide only [↓incCnt_frame, ↓noteUe_frame, ↓proj_ite, ↓proj_iteP, ite_self]
    | ((with_reducible refine proj_mk_trans ?_ ?_); · ((fail_if_success with_reducible rfl); rfl))
    | split

theorem readOthers_frame {m0 : Nat} (hm0 : m0 &&& 3019948064 = 3019948064) (t : Nat) (k : Nat) (x : Nat) (s : State) :
    proj m0 (readOthers t k x s).2 = proj m0 s := by
  refine proj_mono hm0 ?_
  unfold readOthers
  try dsimp -proj only
  repeat' first
    | simp +decide only [↓findErr_frame, ↓touchStack_frame, ↓proj_ite, ↓proj_iteP, ite_self]
    | (with_reducible refine (foldl_proj _ _ ?_ _).trans ?_; intro _ _)
    | (with_reducible refine (foldl_projP _ _ ?_ _).trans ?_; intro _ _)
    | ((with_reducible refine proj_mk_trans ?_ ?_); · ((fail_if_success with_reducible rfl); rfl))
    | (with_reducible refine elim_proj ?_ ?_)
    | (with_reducible intro _)
    | split

theorem readUnit_frame {m0 : Nat} (hm0 : m0 &&& 3019948064 = 3019948064) (t : Nat) (k : Nat) (x : Nat) (s : State) :
    proj m0 (readUnit t k x s).2 = proj m0 s := by
  refine proj_mono hm0 ?_
  unfold readUnit
  try dsimp -proj only
  repeat' first
    | simp +decide only [↓incCnt_frame, ↓readOthers_frame, ↓findErr_frame, ↓setRaw_frame, ↓proj_ite, ↓proj_iteP, ite_self]
    | ((with_reducible refine proj_mk_trans ?_ ?_); · ((fail_if_success with_reducible rfl); rfl))
    | (with_reducible refine (snd_eq (by assumption) (readOthers_frame (by decide) _ _ _ _)).trans ?_)
    | split

theorem stackLine_frame {m0 : Nat} (hm0 : m0 &&& 3019948064 = 3019948064) (l : Nat) (s : State) :
    proj m0 (stackLine l s).2 = proj m0 s := by
  refine proj_mono hm0 ?_
  unfold stackLine
  try dsimp -proj only
  repeat' first
    | simp +decide only [↓touchStack_frame, ↓readUnit_frame, ↓findErr_frame, ↓drawLine_frame, ↓proj_ite, ↓proj_iteP, ite_self]
    | ((with_reducible refine proj_mk_trans ?_ ?_); · ((fail_if_success with_reducible rfl); rfl))
    | (with_reducible refine (snd_eq (by assumption) (readUnit_frame (by decide) _ _ _ _)).trans ?_)
    | (with_reducible refine (snd_eq (by assumption) (drawLine_frame (by decide) _)).trans ?_)
    | split

theorem rebuildLine_frame {m0 : Nat} (hm0 : m0 &&& 3019948064 = 3019948064) (t : Nat) (x : Nat) (s : State) (k : Nat) :
    proj m0 (rebuildLine t x s k) = proj m0 s := by
  refine proj_mono hm0 ?_
  unfold rebuildLine
  try dsimp -proj only
  repeat' first
    | simp +decide only [↓readOthers_frame, ↓readUnit_frame, ↓setPoisonKey_frame, ↓setRaw_frame, ↓proj_ite, ↓proj_iteP, ite_self]
    | ((with_reducible refine proj_mk_trans ?_ ?_); · ((fail_if_success with_reducible rfl); rfl))
    | (with_reducible refine (snd_eq (by assumption) (readOthers_frame (by decide) _ _ _ _)).trans ?_)
    | (with_reducible refine (snd_eq (by assumption) (readUnit_frame (by decide) _ _ _ _)).trans ?_)
    | split

theorem rebuildStripe_frame {m0 : Nat} (hm0 : m0 &&& 3019948064 = 3019948064) (t : Nat) (s : State) :
    proj m0 (rebuildStripe t s) = proj m0 s := by
  refine proj_mono hm0 ?_
  unfold rebuildStripe
  try dsimp -proj only
  repeat' first
    | simp +decide only [↓incCnt_frame, ↓addCnt_frame, ↓rebuildLine_frame, ↓proj_ite, ↓proj_iteP, ite_self]
    | (with_reducible refine (foldl_proj _ _ ?_ _).trans ?_; intro _ _)
    | (with_reducible refine (foldl_projP _ _ ?_ _).trans ?_; intro _ _)
    | ((with_reducible refine proj_mk_trans ?_ ?_); · ((fail_if_success with_reducible rfl); rfl))
    | split

theorem execRebuildStep_frame {m0 : Nat} (hm0 : m0 &&& 3019950112 = 3019950112) (s : State) :
    outProj m0 s (execRebuildStep s) := by
  refine outProj_mono hm0 ?_
  unfold execRebuildStep
  try dsimp -proj only
  repeat' first
    | (with_reducible refine outProj_next ?_)
    | (with_reducible refine ite_projR ?_ ?_)
    | simp +decide only [↓rebuildStripe_frame, ↓devEvent_frame, ↓proj_ite, ↓proj_iteP, ite_self]
    | ((with_reducible refine proj_mk_trans ?_ ?_); · ((fail_if_success with_reducible rfl); rfl))
    | split

theorem readParity_frame {m0 : Nat} (hm0 : m0 &&& 3019948064 = 3019948064) (t : Nat) (k : Nat) (x : Nat) (s : State) :
    proj m0 (readParity t k x s).2 = proj m0 s := by
  refine proj_mono hm0 ?_
  unfold readParity
  try dsimp -proj only
  repeat' first
    | simp +decide only [↓readUnit_frame, ↓proj_ite, ↓proj_iteP, ite_self]
    | ((with_reducible refine proj_mk_trans ?_ ?_); · ((fail_if_success with_reducible rfl); rfl))
    | split

theorem writeGuarded_frame {m0 : Nat} (hm0 : m0 &&& 3019948064 = 3019948064) (t : Nat) (k : Nat) (d : Nat) (bs : Bytes) (poison : Bool) (s : State) :
    proj m0 (writeGuarded t k d bs poison s) = proj m0 s := by
  refine proj_mono hm0 ?_
  unfold writeGuarded
  try dsimp -proj only
  repeat' first
    | simp +decide only [↓readUnit_frame, ↓readParity_frame, ↓setPoisonKey_frame, ↓setRaw_frame, ↓proj_ite, ↓proj_iteP, ite_self]
    | ((with_reducible refine proj_mk_trans ?_ ?_); · ((fail_if_success with_reducible rfl); rfl))
    | (with_reducible refine (snd_eq (by assumption) (readUnit_frame (by decide) _ _ _ _)).trans ?_)
    | (with_reducible refine (snd_eq (by assumption) (readParity_frame (by decide) _ _ _ _)).trans ?_)
    | split

theorem putLine_frame {m0 : Nat} (hm0 : m0 &&& 3019948064 = 3019948064) (l : Nat) (bs : Bytes) (poison : Bool) (s : State) :
    proj m0 (putLine l bs poison s) = proj m0 s := by
  refine proj_mono hm0 ?_
  unfold putLine
  try dsimp -proj only
  repeat' first
    | simp +decide only [↓touchStack_frame, ↓incCnt_frame, ↓writeGuarded_frame, ↓setPoisonKey_frame, ↓setRaw_frame, ↓rebuildStripe_frame, ↓proj_ite, ↓proj_iteP, ite_self]
    | ((with_reducible refine proj_mk_trans ?_ ?_); · ((fail_if_success with_reducible rfl); rfl))
    | split

theorem hostLine_frame {m0 : Nat} (hm0 : m0 &&& 3019948064 = 3019948064) (l : Nat) (bs : Bytes) (s : State) :
    proj m0 (hostLine l bs s) = proj m0 s := by
  refine proj_mono hm0 ?_
  unfold hostLine
  try dsimp -proj only
  repeat' first
    | simp +decide only [↓incCnt_frame, ↓putLine_frame, ↓proj_ite, ↓proj_iteP, ite_self]
    | ((with_reducible refine proj_mk_trans ?_ ?_); · ((fail_if_success with_reducible rfl); rfl))
    | split

theorem forgetLine_frame {m0 : Nat} (hm0 : m0 &&& 16384 = 16384) (l : Nat) (s : State) :
    proj m0 (forgetLine l s) = proj m0 s := by
  refine proj_mono hm0 ?_
  unfold forgetLine
  try dsimp -proj only
  repeat' first
    | simp +decide only [↓proj_ite, ↓proj_iteP, ite_self]
    | ((with_reducible refine proj_mk_trans ?_ ?_); · ((fail_if_success with_reducible rfl); rfl))
    | split

theorem recallLine_frame {m0 : Nat} (hm0 : m0 &&& 3019948064 = 3019948064) (l : Nat) (s : State) :
    proj m0 (recallLine l s) = proj m0 s := by
  refine proj_mono hm0 ?_
  unfold recallLine
  try dsimp -proj only
  repeat' first
    | simp +decide only [↓drawFree_frame, ↓forgetLine_frame, ↓hostLine_frame, ↓proj_ite, ↓proj_iteP, ite_self]
    | ((with_reducible refine proj_mk_trans ?_ ?_); · ((fail_if_success with_reducible rfl); rfl))
    | (with_reducible refine (snd_eq (by assumption) (drawFree_frame (by decide) _)).trans ?_)
    | split

theorem writeLine_frame {m0 : Nat} (hm0 : m0 &&& 3019948064 = 3019948064) (l : Nat) (bs : Bytes) (poison : Bool) (s : State) :
    proj m0 (writeLine l bs poison s) = proj m0 s := by
  refine proj_mono hm0 ?_
  unfold writeLine
  try dsimp -proj only
  repeat' first
    | simp +decide only [↓putLine_frame, ↓recallLine_frame, ↓proj_ite, ↓proj_iteP, ite_self]
    | ((with_reducible refine proj_mk_trans ?_ ?_); · ((fail_if_success with_reducible rfl); rfl))
    | split

theorem fetchLine_frame {m0 : Nat} (hm0 : m0 &&& 3020079136 = 3020079136) (l : Nat) (s : State) :
    proj m0 (fetchLine l s).2 = proj m0 s := by
  refine proj_mono hm0 ?_
  unfold fetchLine
  try dsimp -proj only
  repeat' first
    | simp +decide only [↓ovhLine_frame, ↓stackLine_frame, ↓proj_ite, ↓proj_iteP, ite_self]
    | ((with_reducible refine proj_mk_trans ?_ ?_); · ((fail_if_success with_reducible rfl); rfl))
    | (with_reducible refine (snd_eq (by assumption) (ovhLine_frame (by decide) _ _ _ _)).trans ?_)
    | (with_reducible refine (snd_eq (by assumption) (stackLine_frame (by decide) _ _)).trans ?_)
    | split

theorem readLine_frame {m0 : Nat} (hm0 : m0 &&& 3020079136 = 3020079136) (l : Nat) (s : State) :
    proj m0 (readLine l s).2 = proj m0 s := by
  refine proj_mono hm0 ?_
  unfold readLine
  try dsimp -proj only
  repeat' first
    | simp +decide only [↓fetchLine_frame, ↓recallLine_frame, ↓proj_ite, ↓proj_iteP, ite_self]
    | ((with_reducible refine proj_mk_trans ?_ ?_); · ((fail_if_success with_reducible rfl); rfl))
    | split

theorem readLines_frame {m0 : Nat} (hm0 : m0 &&& 3020079136 = 3020079136) (a0 : Nat) (a1 : Nat) (a2 : State) :
    proj m0 (readLines a0 a1 a2).2 = proj m0 a2 := by
  refine proj_mono hm0 ?_
  fun_induction readLines a0 a1 a2
  try dsimp -proj only
  repeat' first
    | simp +decide only [↓readLine_frame, ↓proj_ite, ↓proj_iteP, ite_self]
    | (with_reducible refine (foldl_proj _ _ ?_ _).trans ?_; intro _ _)
    | (with_reducible refine (foldl_projP _ _ ?_ _).trans ?_; intro _ _)
    | ((with_reducible refine proj_mk_trans ?_ ?_); · ((fail_if_success with_reducible rfl); rfl))
    | (with_reducible refine (snd_eq (by assumption) (readLine_frame (by decide) _ _)).trans ?_)
    | (with_reducible refine Eq.trans (by assumption) ?_)
    | (with_reducible refine (snd_eq (by assumption) (by assumption)).trans ?_)
    | (with_reducible refine (trip_eq (by assumption) (by assumption)).trans ?_)
    | (with_reducible refine elim_proj ?_ ?_)
    | (with_reducible intro _)
    | (dsimp -proj +zetaDelta only)
    | split

theorem readDpa_frame {m0 : Nat} (hm0 : m0 &&& 3020079136 = 3020079136) (a : Nat) (n : Nat) (s : State) :
    proj m0 (readDpa a n s).2 = proj m0 s := by
  refine proj_mono hm0 ?_
  unfold readDpa
  try dsimp -proj only
  repeat' first
    | simp +decide only [↓readLines_frame, ↓proj_ite, ↓proj_iteP, ite_self]
    | ((with_reducible refine proj_mk_trans ?_ ?_); · ((fail_if_success with_reducible rfl); rfl))
    | split

theorem writeDpa_frame {m0 : Nat} (hm0 : m0 &&& 3020079136 = 3020079136) (a : Nat) (bs : Bytes) (s : State) :
    proj m0 (writeDpa a bs s) = proj m0 s := by
  refine proj_mono hm0 ?_
  unfold writeDpa
  try dsimp -proj only
  repeat' first
    | simp +decide only [↓writeLine_frame, ↓readLine_frame, ↓proj_ite, ↓proj_iteP, ite_self]
    | (with_reducible refine (foldl_proj _ _ ?_ _).trans ?_; intro _ _)
    | (with_reducible refine (foldl_projP _ _ ?_ _).trans ?_; intro _ _)
    | ((with_reducible refine proj_mk_trans ?_ ?_); · ((fail_if_success with_reducible rfl); rfl))
    | split

theorem writeRow_frame {m0 : Nat} (hm0 : m0 &&& 3020341280 = 3020341280) (by_ : Option (HPort × Nat)) (a : Nat) (bs : Bytes) (s : State) :
    proj m0 (writeRow by_ a bs s) = proj m0 s := by
  refine proj_mono hm0 ?_
  unfold writeRow
  try dsimp -proj only
  repeat' first
    | simp +decide only [↓ovhWrite_frame, ↓writeDpa_frame, ↓proj_ite, ↓proj_iteP, ite_self]
    | ((with_reducible refine proj_mk_trans ?_ ?_); · ((fail_if_success with_reducible rfl); rfl))
    | split

theorem unitLines_frame {m0 : Nat} (hm0 : m0 &&& 3019948064 = 3019948064) (a0 : Nat) (a1 : List (Bytes × Bool)) (a2 : State) :
    proj m0 (unitLines a0 a1 a2) = proj m0 a2 := by
  refine proj_mono hm0 ?_
  fun_induction unitLines a0 a1 a2
  try dsimp -proj only
  repeat' first
    | simp +decide only [↓writeLine_frame, ↓proj_ite, ↓proj_iteP, ite_self]
    | (with_reducible refine (foldl_proj _ _ ?_ _).trans ?_; intro _ _)
    | (with_reducible refine (foldl_projP _ _ ?_ _).trans ?_; intro _ _)
    | ((with_reducible refine proj_mk_trans ?_ ?_); · ((fail_if_success with_reducible rfl); rfl))
    | (with_reducible refine Eq.trans (by assumption) ?_)
    | (with_reducible refine (snd_eq (by assumption) (by assumption)).trans ?_)
    | (with_reducible refine (trip_eq (by assumption) (by assumption)).trans ?_)
    | (with_reducible refine elim_proj ?_ ?_)
    | (with_reducible intro _)
    | (dsimp -proj +zetaDelta only)
    | split

theorem execGuardedWrite_frame {m0 : Nat} (hm0 : m0 &&& 3019948064 = 3019948064) (line : Nat) (data : BitVec 512) (s : State) :
    outProj m0 s (execGuardedWrite line data s) := by
  refine outProj_mono hm0 ?_
  unfold execGuardedWrite
  try dsimp -proj only
  repeat' first
    | (with_reducible exact outProj_fault)
    | (with_reducible refine outProj_next ?_)
    | (with_reducible refine ite_projR ?_ ?_)
    | simp +decide only [↓writeLine_frame, ↓proj_ite, ↓proj_iteP, ite_self]
    | ((with_reducible refine proj_mk_trans ?_ ?_); · ((fail_if_success with_reducible rfl); rfl))
    | split

theorem execDegradedRead_frame {m0 : Nat} (hm0 : m0 &&& 3020079136 = 3020079136) (line : Nat) (s : State) :
    outProj m0 s (execDegradedRead line s) := by
  refine outProj_mono hm0 ?_
  unfold execDegradedRead
  try dsimp -proj only
  repeat' first
    | (with_reducible exact outProj_fault)
    | (with_reducible refine outProj_next ?_)
    | (with_reducible refine ite_projR ?_ ?_)
    | simp +decide only [↓readLine_frame, ↓proj_ite, ↓proj_iteP, ite_self]
    | ((with_reducible refine proj_mk_trans ?_ ?_); · ((fail_if_success with_reducible rfl); rfl))
    | split

theorem scrubLine_frame {m0 : Nat} (hm0 : m0 &&& 3019948064 = 3019948064) (st : StackId) (s : State) (n : Nat) :
    proj m0 (scrubLine st s n) = proj m0 s := by
  refine proj_mono hm0 ?_
  unfold scrubLine
  try dsimp -proj only
  repeat' first
    | simp +decide only [↓readUnit_frame, ↓findErr_frame, ↓incCnt_frame, ↓setRaw_frame, ↓proj_ite, ↓proj_iteP, ite_self]
    | ((with_reducible refine proj_mk_trans ?_ ?_); · ((fail_if_success with_reducible rfl); rfl))
    | split

theorem execScrubPass_frame {m0 : Nat} (hm0 : m0 &&& 3019948064 = 3019948064) (st : StackId) (corrected : Nat) (ue : List Nat) (s : State) :
    outProj m0 s (execScrubPass st corrected ue s) := by
  refine outProj_mono hm0 ?_
  unfold execScrubPass
  try dsimp -proj only
  repeat' first
    | (with_reducible refine outProj_next ?_)
    | (with_reducible refine ite_projR ?_ ?_)
    | simp +decide only [↓addCnt_frame, ↓scrubLine_frame, ↓proj_ite, ↓proj_iteP, ite_self]
    | (with_reducible refine (foldl_proj _ _ ?_ _).trans ?_; intro _ _)
    | (with_reducible refine (foldl_projP _ _ ?_ _).trans ?_; intro _ _)
    | ((with_reducible refine proj_mk_trans ?_ ?_); · ((fail_if_success with_reducible rfl); rfl))
    | split

theorem stripeData_frame {m0 : Nat} (hm0 : m0 &&& 3019948064 = 3019948064) (t : Nat) (k : Nat) (s : State) :
    proj m0 (stripeData t k s).2 = proj m0 s := by
  refine proj_mono hm0 ?_
  unfold stripeData
  try dsimp -proj only
  repeat' first
    | simp +decide only [↓readUnit_frame, ↓proj_ite, ↓proj_iteP, ite_self]
    | (with_reducible refine (foldl_proj _ _ ?_ _).trans ?_; intro _ _)
    | (with_reducible refine (foldl_projP _ _ ?_ _).trans ?_; intro _ _)
    | ((with_reducible refine proj_mk_trans ?_ ?_); · ((fail_if_success with_reducible rfl); rfl))
    | (with_reducible refine (snd_eq (by assumption) (readUnit_frame (by decide) _ _ _ _)).trans ?_)
    | split

theorem parityLine_frame {m0 : Nat} (hm0 : m0 &&& 3019948064 = 3019948064) (t : Nat) (a : Bool × State) (k : Nat) :
    proj m0 (parityLine t a k).2 = proj m0 a.2 := by
  refine proj_mono hm0 ?_
  unfold parityLine
  try dsimp -proj only
  repeat' first
    | simp +decide only [↓stripeData_frame, ↓readParity_frame, ↓setRaw_frame, ↓proj_ite, ↓proj_iteP, ite_self]
    | (with_reducible refine (foldl_proj _ _ ?_ _).trans ?_; intro _ _)
    | (with_reducible refine (foldl_projP _ _ ?_ _).trans ?_; intro _ _)
    | ((with_reducible refine proj_mk_trans ?_ ?_); · ((fail_if_success with_reducible rfl); rfl))
    | (with_reducible refine (snd_eq (by assumption) (stripeData_frame (by decide) _ _ _)).trans ?_)
    | (with_reducible refine (snd_eq (by assumption) (readParity_frame (by decide) _ _ _ _)).trans ?_)
    | split

theorem parityStripe_frame {m0 : Nat} (hm0 : m0 &&& 3019950112 = 3019950112) (s : State) (t : Nat) :
    proj m0 (parityStripe s t) = proj m0 s := by
  refine proj_mono hm0 ?_
  unfold parityStripe
  try dsimp -proj only
  repeat' first
    | simp +decide only [↓parityLine_frame, ↓devEvent_frame, ↓incCnt_frame, ↓proj_ite, ↓proj_iteP, ite_self]
    | (with_reducible refine (foldl_proj _ _ ?_ _).trans ?_; intro _ _)
    | (with_reducible refine (foldl_projP _ _ ?_ _).trans ?_; intro _ _)
    | ((with_reducible refine proj_mk_trans ?_ ?_); · ((fail_if_success with_reducible rfl); rfl))
    | split

theorem execStripeParityCheck_frame {m0 : Nat} (hm0 : m0 &&& 3019950112 = 3019950112) (s : State) :
    outProj m0 s (execStripeParityCheck s) := by
  refine outProj_mono hm0 ?_
  unfold execStripeParityCheck
  try dsimp -proj only
  repeat' first
    | (with_reducible refine outProj_next ?_)
    | simp +decide only [↓parityStripe_frame, ↓proj_ite, ↓proj_iteP, ite_self]
    | (with_reducible refine (foldl_proj _ _ ?_ _).trans ?_; intro _ _)
    | (with_reducible refine (foldl_projP _ _ ?_ _).trans ?_; intro _ _)
    | ((with_reducible refine proj_mk_trans ?_ ?_); · ((fail_if_success with_reducible rfl); rfl))
    | split

theorem chase_frame {m0 : Nat} (hm0 : m0 &&& 0 = 0) (rd : Nat → State → List Entry × State) (other : Nat → Nat → Nat) (a2 : Nat) (a3 : Nat) (a4 : List Move) (a5 : Nat) (a6 : State) (hrd : ∀ b s, proj m0 (rd b s).2 = proj m0 s) :
    proj m0 (chase rd other a2 a3 a4 a5 a6).2.2 = proj m0 a6 := by
  fun_induction chase rd other a2 a3 a4 a5 a6
  try dsimp -proj only
  repeat' first
    | (with_reducible refine ite_proj ?_ ?_)
    | with_reducible rfl
    | (with_reducible refine Eq.trans (by assumption) ?_)
    | (with_reducible refine (snd_eq (by assumption) (by assumption)).trans ?_)
    | (with_reducible refine (trip_eq (by assumption) (by assumption)).trans ?_)
    | (with_reducible refine (hrd _ _).trans ?_)
    | (with_reducible refine (snd_eq (by assumption) (hrd _ _)).trans ?_)
    | ((with_reducible refine proj_mk_trans ?_ ?_); · ((fail_if_success with_reducible rfl); exact proj_mono hm0 rfl))
    | split

theorem planInsert_frame {m0 : Nat} (hm0 : m0 &&& 0 = 0) (rd : Nat → State → List Entry × State) (other : Nat → Nat → Nat) (maxKick : Nat) (b0 : Nat) (b1 : Nat) (kick : Nat) (s : State) (hrd : ∀ b s, proj m0 (rd b s).2 = proj m0 s) :
    proj m0 (planInsert rd other maxKick b0 b1 kick s).2.2 = proj m0 s := by
  unfold planInsert
  try dsimp -proj only
  repeat' first
    | (with_reducible refine ite_proj ?_ ?_)
    | with_reducible rfl
    | (with_reducible refine (chase_frame hm0 _ _ _ _ _ _ _ ?_).trans ?_)
    | (with_reducible refine (trip_eq (by assumption) (chase_frame hm0 _ _ _ _ _ _ _ hrd)).trans ?_)
    | (with_reducible refine (hrd _ _).trans ?_)
    | (with_reducible refine (snd_eq (by assumption) (hrd _ _)).trans ?_)
    | ((with_reducible refine proj_mk_trans ?_ ?_); · ((fail_if_success with_reducible rfl); exact proj_mono hm0 rfl))
    | split

theorem setNet_frame {m0 : Nat} (hm0 : m0 &&& 524288 = 524288) (d : NDie) (x : NetTables) (s : State) :
    proj m0 (setNet d x s) = proj m0 s := by
  refine proj_mono hm0 ?_
  unfold setNet
  try dsimp -proj only
  repeat' first
    | simp +decide only [↓proj_ite, ↓proj_iteP, ite_self]
    | ((with_reducible refine proj_mk_trans ?_ ?_); · ((fail_if_success with_reducible rfl); rfl))
    | split

theorem modNet_frame {m0 : Nat} (hm0 : m0 &&& 524288 = 524288) (d : NDie) (f : NetTables → NetTables) (s : State) :
    proj m0 (modNet d f s) = proj m0 s := by
  refine proj_mono hm0 ?_
  unfold modNet
  try dsimp -proj only
  repeat' first
    | simp +decide only [↓setNet_frame, ↓proj_ite, ↓proj_iteP, ite_self]
    | ((with_reducible refine proj_mk_trans ?_ ?_); · ((fail_if_success with_reducible rfl); rfl))
    | split

theorem fwdPut_frame {m0 : Nat} (hm0 : m0 &&& 524288 = 524288) (d : NDie) (b : Nat) (sl : Nat) (e : Entry) (s : State) :
    proj m0 (fwdPut d b sl e s) = proj m0 s := by
  refine proj_mono hm0 ?_
  unfold fwdPut
  try dsimp -proj only
  repeat' first
    | simp +decide only [↓modNet_frame, ↓proj_ite, ↓proj_iteP, ite_self]
    | ((with_reducible refine proj_mk_trans ?_ ?_); · ((fail_if_success with_reducible rfl); rfl))
    | split

theorem learnCount_frame {m0 : Nat} (hm0 : m0 &&& 524288 = 524288) (d : NDie) (port : Nat) (up : Bool) (s : State) :
    proj m0 (learnCount d port up s) = proj m0 s := by
  refine proj_mono hm0 ?_
  unfold learnCount
  try dsimp -proj only
  repeat' first
    | simp +decide only [↓modNet_frame, ↓proj_ite, ↓proj_iteP, ite_self]
    | ((with_reducible refine proj_mk_trans ?_ ?_); · ((fail_if_success with_reducible rfl); rfl))
    | split

theorem fwdWrite_frame {m0 : Nat} (hm0 : m0 &&& 524288 = 524288) (d : NDie) (b : Nat) (sl : Nat) (old : Entry) (e : Entry) (s : State) :
    proj m0 (fwdWrite d b sl old e s) = proj m0 s := by
  refine proj_mono hm0 ?_
  unfold fwdWrite
  try dsimp -proj only
  repeat' first
    | simp +decide only [↓learnCount_frame, ↓fwdPut_frame, ↓proj_ite, ↓proj_iteP, ite_self]
    | ((with_reducible refine proj_mk_trans ?_ ?_); · ((fail_if_success with_reducible rfl); rfl))
    | split

theorem fwdInsert_frame {m0 : Nat} (hm0 : m0 &&& 524288 = 524288) (d : NDie) (e : Entry) (s : State) :
    proj m0 (fwdInsert d e s).2 = proj m0 s := by
  refine proj_mono hm0 ?_
  unfold fwdInsert
  try dsimp -proj only
  repeat' first
    | simp +decide only [↓planInsert_frame, ↓modNet_frame, ↓fwdPut_frame, ↓fwdWrite_frame, ↓proj_ite, ↓proj_iteP, ite_self]
    | (with_reducible refine (foldl_proj _ _ ?_ _).trans ?_; intro _ _)
    | (with_reducible refine (foldl_projP _ _ ?_ _).trans ?_; intro _ _)
    | ((with_reducible refine proj_mk_trans ?_ ?_); · ((fail_if_success with_reducible rfl); rfl))
    | (with_reducible refine (trip_eq (by assumption) (planInsert_frame (by decide) _ _ _ _ _ _ _ ?_)).trans ?_)
    | (with_reducible intro _)
    | split

theorem touchHit_frame {m0 : Nat} (hm0 : m0 &&& 524288 = 524288) (d : NDie) (f : Nat × Nat × Nat × Entry) (s : State) :
    proj m0 (touchHit d f s) = proj m0 s := by
  refine proj_mono hm0 ?_
  unfold touchHit
  try dsimp -proj only
  repeat' first
    | simp +decide only [↓fwdPut_frame, ↓proj_ite, ↓proj_iteP, ite_self]
    | ((with_reducible refine proj_mk_trans ?_ ?_); · ((fail_if_success with_reducible rfl); rfl))
    | split

theorem fwdLookup_frame {m0 : Nat} (hm0 : m0 &&& 524288 = 524288) (d : NDie) (key : Nat) (s : State) :
    proj m0 (fwdLookup d key s).2 = proj m0 s := by
  refine proj_mono hm0 ?_
  unfold fwdLookup
  try dsimp -proj only
  repeat' first
    | simp +decide only [↓touchHit_frame, ↓proj_ite, ↓proj_iteP, ite_self]
    | ((with_reducible refine proj_mk_trans ?_ ?_); · ((fail_if_success with_reducible rfl); rfl))
    | split

theorem postLearn_frame {m0 : Nat} (hm0 : m0 &&& 537395200 = 537395200) (d : NDie) (w : FifoWord) (moveSeen : Bool) (s : State) :
    proj m0 (postLearn d w moveSeen s) = proj m0 s := by
  refine proj_mono hm0 ?_
  unfold postLearn
  try dsimp -proj only
  repeat' first
    | simp +decide only [↓incCnt_frame, ↓modNet_frame, ↓proj_ite, ↓proj_iteP, ite_self]
    | ((with_reducible refine proj_mk_trans ?_ ?_); · ((fail_if_success with_reducible rfl); rfl))
    | split

theorem holdPost_frame {m0 : Nat} (hm0 : m0 &&& 537395200 = 537395200) (d : NDie) (key : Nat) (port : Nat) (w : FifoWord) (s : State) :
    proj m0 (holdPost d key port w s) = proj m0 s := by
  refine proj_mono hm0 ?_
  unfold holdPost
  try dsimp -proj only
  repeat' first
    | simp +decide only [↓incCnt_frame, ↓modNet_frame, ↓postLearn_frame, ↓proj_ite, ↓proj_iteP, ite_self]
    | ((with_reducible refine proj_mk_trans ?_ ?_); · ((fail_if_success with_reducible rfl); rfl))
    | split

theorem learnNative_frame {m0 : Nat} (hm0 : m0 &&& 537395200 = 537395200) (d : NDie) (port : Nat) (key : Nat) (gt : Nat) (s : State) :
    proj m0 (learnNative d port key gt s) = proj m0 s := by
  refine proj_mono hm0 ?_
  unfold learnNative
  try dsimp -proj only
  repeat' first
    | simp +decide only [↓touchHit_frame, ↓incCnt_frame, ↓modNet_frame, ↓postLearn_frame, ↓holdPost_frame, ↓proj_ite, ↓proj_iteP, ite_self]
    | ((with_reducible refine proj_mk_trans ?_ ?_); · ((fail_if_success with_reducible rfl); rfl))
    | (with_reducible refine elim_proj ?_ ?_)
    | (with_reducible intro _)
    | split

theorem learnLegacy_frame {m0 : Nat} (hm0 : m0 &&& 537395200 = 537395200) (d : NDie) (port : Nat) (key : Nat) (s : State) :
    proj m0 (learnLegacy d port key s).2 = proj m0 s := by
  refine proj_mono hm0 ?_
  unfold learnLegacy
  try dsimp -proj only
  repeat' first
    | simp +decide only [↓incCnt_frame, ↓touchHit_frame, ↓fwdWrite_frame, ↓fwdInsert_frame, ↓proj_ite, ↓proj_iteP, ite_self]
    | ((with_reducible refine proj_mk_trans ?_ ?_); · ((fail_if_success with_reducible rfl); rfl))
    | (with_reducible refine (snd_eq (by assumption) (fwdInsert_frame (by decide) _ _ _)).trans ?_)
    | split

theorem learnFrame_frame {m0 : Nat} (hm0 : m0 &&& 537395200 = 537395200) (d : NDie) (port : Nat) (mac : Nat) (vid : Nat) (gt : Nat) (s : State) :
    proj m0 (learnFrame d port mac vid gt s).2 = proj m0 s := by
  refine proj_mono hm0 ?_
  unfold learnFrame
  try dsimp -proj only
  repeat' first
    | simp +decide only [↓learnNative_frame, ↓learnLegacy_frame, ↓proj_ite, ↓proj_iteP, ite_self]
    | ((with_reducible refine proj_mk_trans ?_ ?_); · ((fail_if_success with_reducible rfl); rfl))
    | (with_reducible refine (snd_eq (by assumption) (learnLegacy_frame (by decide) _ _ _ _)).trans ?_)
    | split

theorem execLearnHoldExpire_frame {m0 : Nat} (hm0 : m0 &&& 524288 = 524288) (d : NDie) (key : W64) (s : State) :
    outProj m0 s (execLearnHoldExpire d key s) := by
  refine outProj_mono hm0 ?_
  unfold execLearnHoldExpire
  try dsimp -proj only
  repeat' first
    | (with_reducible refine outProj_next ?_)
    | (with_reducible refine ite_projR ?_ ?_)
    | simp +decide only [↓modNet_frame, ↓proj_ite, ↓proj_iteP, ite_self]
    | ((with_reducible refine proj_mk_trans ?_ ?_); · ((fail_if_success with_reducible rfl); rfl))
    | split

theorem ageFwd_frame {m0 : Nat} (hm0 : m0 &&& 524288 = 524288) (d : NDie) (b : Nat) (s : State) :
    proj m0 (ageFwd d b s) = proj m0 s := by
  refine proj_mono hm0 ?_
  unfold ageFwd
  try dsimp -proj only
  repeat' first
    | simp +decide only [↓modNet_frame, ↓fwdPut_frame, ↓proj_ite, ↓proj_iteP, ite_self]
    | (with_reducible refine (foldl_proj _ _ ?_ _).trans ?_; intro _ _)
    | (with_reducible refine (foldl_projP _ _ ?_ _).trans ?_; intro _ _)
    | ((with_reducible refine proj_mk_trans ?_ ?_); · ((fail_if_success with_reducible rfl); rfl))
    | split

theorem endFwdVisit_frame {m0 : Nat} (hm0 : m0 &&& 537395200 = 537395200) (d : NDie) (s : State) (b : Nat) :
    proj m0 (endFwdVisit d s b) = proj m0 s := by
  refine proj_mono hm0 ?_
  unfold endFwdVisit
  try dsimp -proj only
  repeat' first
    | simp +decide only [↓incCnt_frame, ↓fwdWrite_frame, ↓postLearn_frame, ↓proj_ite, ↓proj_iteP, ite_self]
    | (with_reducible refine (foldl_proj _ _ ?_ _).trans ?_; intro _ _)
    | (with_reducible refine (foldl_projP _ _ ?_ _).trans ?_; intro _ _)
    | ((with_reducible refine proj_mk_trans ?_ ?_); · ((fail_if_success with_reducible rfl); rfl))
    | split

theorem endFwdVisits_frame {m0 : Nat} (hm0 : m0 &&& 537395200 = 537395200) (s : State) :
    proj m0 (endFwdVisits s) = proj m0 s := by
  refine proj_mono hm0 ?_
  unfold endFwdVisits
  try dsimp -proj only
  repeat' first
    | simp +decide only [↓modNet_frame, ↓endFwdVisit_frame, ↓proj_ite, ↓proj_iteP, ite_self]
    | (with_reducible refine (foldl_proj _ _ ?_ _).trans ?_; intro _ _)
    | (with_reducible refine (foldl_projP _ _ ?_ _).trans ?_; intro _ _)
    | ((with_reducible refine proj_mk_trans ?_ ?_); · ((fail_if_success with_reducible rfl); rfl))
    | split

theorem fwdEnd_frame {m0 : Nat} (hm0 : m0 &&& 268435456 = 268435456) (p : HPort) (d : NDie) (op : Nat) (status : Nat) (existed : Bool) (s : State) :
    proj m0 (fwdEnd p d op status existed s) = proj m0 s := by
  refine proj_mono hm0 ?_
  unfold fwdEnd
  try dsimp -proj only
  repeat' first
    | simp +decide only [↓setRegW_frame, ↓proj_ite, ↓proj_iteP, ite_self]
    | ((with_reducible refine proj_mk_trans ?_ ?_); · ((fail_if_success with_reducible rfl); rfl))
    | (with_reducible intro _)
    | split

theorem fwdCmd_frame {m0 : Nat} (hm0 : m0 &&& 268435456 = 268435456) (p : HPort) (d : NDie) (op : Nat) (f : State → Nat × Bool × State) (s : State) (hf : ∀ s, proj m0 (f s).2.2 = proj m0 s) :
    outProj m0 s (fwdCmd p d op f s) := by
  unfold fwdCmd
  try dsimp -proj only
  repeat' first
    | (with_reducible exact outProj_fault)
    | (with_reducible exact outProj_refused)
    | (with_reducible refine outProj_next ?_)
    | (with_reducible refine ite_projR ?_ ?_)
    | (with_reducible refine ite_proj ?_ ?_)
    | with_reducible rfl
    | (with_reducible refine (proj_mono hm0 (fwdEnd_frame (m0 := 268435456) (by decide) _ _ _ _ _ _)).trans ?_)
    | (with_reducible refine (hf _).trans ?_)
    | (with_reducible refine (trip_eq (by assumption) (hf _)).trans ?_)
    | ((with_reducible refine proj_mk_trans ?_ ?_); · ((fail_if_success with_reducible rfl); exact proj_mono hm0 rfl))
    | split

theorem execFwdRead_frame {m0 : Nat} (hm0 : m0 &&& 268959744 = 268959744) (p : HPort) (d : NDie) (s : State) :
    outProj m0 s (execFwdRead p d s) := by
  refine outProj_mono hm0 ?_
  unfold execFwdRead
  try dsimp -proj only
  repeat' first
    | (with_reducible refine outProj_next ?_)
    | (with_reducible refine ite_projR ?_ ?_)
    | (with_reducible refine fwdCmd_frame (by decide) _ _ _ _ _ ?_)
    | simp +decide only [↓touchHit_frame, ↓setRegW_frame, ↓proj_ite, ↓proj_iteP, ite_self]
    | ((with_reducible refine proj_mk_trans ?_ ?_); · ((fail_if_success with_reducible rfl); rfl))
    | (with_reducible intro _)
    | split

theorem fwdReplace_frame {m0 : Nat} (hm0 : m0 &&& 524288 = 524288) (p : HPort) (d : NDie) (f : Nat × Nat × Nat × Entry) (s : State) :
    proj m0 (fwdReplace p d f s) = proj m0 s := by
  refine proj_mono hm0 ?_
  unfold fwdReplace
  try dsimp -proj only
  repeat' first
    | simp +decide only [↓fwdWrite_frame, ↓proj_ite, ↓proj_iteP, ite_self]
    | ((with_reducible refine proj_mk_trans ?_ ?_); · ((fail_if_success with_reducible rfl); rfl))
    | split

theorem execFwdInsert_frame {m0 : Nat} (hm0 : m0 &&& 805830656 = 805830656) (p : HPort) (d : NDie) (s : State) :
    outProj m0 s (execFwdInsert p d s) := by
  refine outProj_mono hm0 ?_
  unfold execFwdInsert
  try dsimp -proj only
  repeat' first
    | (with_reducible refine outProj_next ?_)
    | (with_reducible refine ite_projR ?_ ?_)
    | (with_reducible refine fwdCmd_frame (by decide) _ _ _ _ _ ?_)
    | simp +decide only [↓fwdReplace_frame, ↓fwdInsert_frame, ↓incCnt_frame, ↓proj_ite, ↓proj_iteP, ite_self]
    | ((with_reducible refine proj_mk_trans ?_ ?_); · ((fail_if_success with_reducible rfl); rfl))
    | (with_reducible refine (snd_eq (by assumption) (fwdInsert_frame (by decide) _ _ _)).trans ?_)
    | (with_reducible intro _)
    | split

theorem execFwdUpdate_frame {m0 : Nat} (hm0 : m0 &&& 268959744 = 268959744) (p : HPort) (d : NDie) (s : State) :
    outProj m0 s (execFwdUpdate p d s) := by
  refine outProj_mono hm0 ?_
  unfold execFwdUpdate
  try dsimp -proj only
  repeat' first
    | (with_reducible refine outProj_next ?_)
    | (with_reducible refine ite_projR ?_ ?_)
    | (with_reducible refine fwdCmd_frame (by decide) _ _ _ _ _ ?_)
    | simp +decide only [↓fwdReplace_frame, ↓proj_ite, ↓proj_iteP, ite_self]
    | ((with_reducible refine proj_mk_trans ?_ ?_); · ((fail_if_success with_reducible rfl); rfl))
    | (with_reducible intro _)
    | split

theorem execFwdDelete_frame {m0 : Nat} (hm0 : m0 &&& 268959744 = 268959744) (p : HPort) (d : NDie) (s : State) :
    outProj m0 s (execFwdDelete p d s) := by
  refine outProj_mono hm0 ?_
  unfold execFwdDelete
  try dsimp -proj only
  repeat' first
    | (with_reducible refine outProj_next ?_)
    | (with_reducible refine ite_projR ?_ ?_)
    | (with_reducible refine fwdCmd_frame (by decide) _ _ _ _ _ ?_)
    | simp +decide only [↓fwdWrite_frame, ↓proj_ite, ↓proj_iteP, ite_self]
    | ((with_reducible refine proj_mk_trans ?_ ?_); · ((fail_if_success with_reducible rfl); rfl))
    | (with_reducible intro _)
    | split

theorem execFwdMove_frame {m0 : Nat} (hm0 : m0 &&& 268959744 = 268959744) (p : HPort) (d : NDie) (s : State) :
    outProj m0 s (execFwdMove p d s) := by
  refine outProj_mono hm0 ?_
  unfold execFwdMove
  try dsimp -proj only
  repeat' first
    | (with_reducible refine outProj_next ?_)
    | (with_reducible refine ite_projR ?_ ?_)
    | (with_reducible refine fwdCmd_frame (by decide) _ _ _ _ _ ?_)
    | simp +decide only [↓fwdPut_frame, ↓proj_ite, ↓proj_iteP, ite_self]
    | ((with_reducible refine proj_mk_trans ?_ ?_); · ((fail_if_success with_reducible rfl); rfl))
    | (with_reducible intro _)
    | split

theorem execPfxWrite_frame {m0 : Nat} (hm0 : m0 &&& 268959744 = 268959744) (p : HPort) (d : NDie) (cmd : W32) (s : State) :
    outProj m0 s (execPfxWrite p d cmd s) := by
  refine outProj_mono hm0 ?_
  unfold execPfxWrite
  try dsimp -proj only
  repeat' first
    | (with_reducible refine outProj_next ?_)
    | (with_reducible refine ite_projR ?_ ?_)
    | simp +decide only [↓setRegW_frame, ↓modNet_frame, ↓proj_ite, ↓proj_iteP, ite_self]
    | ((with_reducible refine proj_mk_trans ?_ ?_); · ((fail_if_success with_reducible rfl); rfl))
    | split

theorem execPfxRead_frame {m0 : Nat} (hm0 : m0 &&& 268435456 = 268435456) (p : HPort) (d : NDie) (cmd : W32) (s : State) :
    outProj m0 s (execPfxRead p d cmd s) := by
  refine outProj_mono hm0 ?_
  unfold execPfxRead
  try dsimp -proj only
  repeat' first
    | (with_reducible refine outProj_next ?_)
    | (with_reducible refine ite_projR ?_ ?_)
    | simp +decide only [↓setRegW_frame, ↓proj_ite, ↓proj_iteP, ite_self]
    | (with_reducible refine (foldl_proj _ _ ?_ _).trans ?_; intro _ _)
    | (with_reducible refine (foldl_projP _ _ ?_ _).trans ?_; intro _ _)
    | ((with_reducible refine proj_mk_trans ?_ ?_); · ((fail_if_success with_reducible rfl); rfl))
    | split

theorem setLane_frame {m0 : Nat} (hm0 : m0 &&& 2097152 = 2097152) (l : Nat) (x : Lane) (s : State) :
    proj m0 (setLane l x s) = proj m0 s := by
  refine proj_mono hm0 ?_
  unfold setLane
  try dsimp -proj only
  repeat' first
    | simp +decide only [↓proj_ite, ↓proj_iteP, ite_self]
    | ((with_reducible refine proj_mk_trans ?_ ?_); · ((fail_if_success with_reducible rfl); rfl))
    | split

theorem modLane_frame {m0 : Nat} (hm0 : m0 &&& 2097152 = 2097152) (l : Nat) (f : Lane → Lane) (s : State) :
    proj m0 (modLane l f s) = proj m0 s := by
  refine proj_mono hm0 ?_
  unfold modLane
  try dsimp -proj only
  repeat' first
    | simp +decide only [↓setLane_frame, ↓proj_ite, ↓proj_iteP, ite_self]
    | ((with_reducible refine proj_mk_trans ?_ ?_); · ((fail_if_success with_reducible rfl); rfl))
    | split

theorem setEPort_frame {m0 : Nat} (hm0 : m0 &&& 2097152 = 2097152) (g : Nat) (x : EPort) (s : State) :
    proj m0 (setEPort g x s) = proj m0 s := by
  refine proj_mono hm0 ?_
  unfold setEPort
  try dsimp -proj only
  repeat' first
    | simp +decide only [↓proj_ite, ↓proj_iteP, ite_self]
    | ((with_reducible refine proj_mk_trans ?_ ?_); · ((fail_if_success with_reducible rfl); rfl))
    | split

theorem modEPort_frame {m0 : Nat} (hm0 : m0 &&& 2097152 = 2097152) (g : Nat) (f : EPort → EPort) (s : State) :
    proj m0 (modEPort g f s) = proj m0 s := by
  refine proj_mono hm0 ?_
  unfold modEPort
  try dsimp -proj only
  repeat' first
    | simp +decide only [↓setEPort_frame, ↓proj_ite, ↓proj_iteP, ite_self]
    | ((with_reducible refine proj_mk_trans ?_ ?_); · ((fail_if_success with_reducible rfl); rfl))
    | split

theorem putFrame_frame {m0 : Nat} (hm0 : m0 &&& 2097152 = 2097152) (d : NDie) (bs : Bytes) (len : Nat) (grp : Option (GrpHdr × GrpBody)) (s : State) :
    proj m0 (putFrame d bs len grp s).2 = proj m0 s := by
  refine proj_mono hm0 ?_
  unfold putFrame
  try dsimp -proj only
  repeat' first
    | simp +decide only [↓proj_ite, ↓proj_iteP, ite_self]
    | ((with_reducible refine proj_mk_trans ?_ ?_); · ((fail_if_success with_reducible rfl); rfl))
    | split

theorem holdFrame_frame {m0 : Nat} (hm0 : m0 &&& 2097152 = 2097152) (i : Nat) (s : State) :
    proj m0 (holdFrame i s) = proj m0 s := by
  refine proj_mono hm0 ?_
  unfold holdFrame
  try dsimp -proj only
  repeat' first
    | simp +decide only [↓proj_ite, ↓proj_iteP, ite_self]
    | ((with_reducible refine proj_mk_trans ?_ ?_); · ((fail_if_success with_reducible rfl); rfl))
    | split

theorem dropFrame_frame {m0 : Nat} (hm0 : m0 &&& 2097152 = 2097152) (i : Nat) (s : State) :
    proj m0 (dropFrame i s) = proj m0 s := by
  refine proj_mono hm0 ?_
  unfold dropFrame
  try dsimp -proj only
  repeat' first
    | simp +decide only [↓proj_ite, ↓proj_iteP, ite_self]
    | ((with_reducible refine proj_mk_trans ?_ ?_); · ((fail_if_success with_reducible rfl); rfl))
    | split

theorem freeUnheld_frame {m0 : Nat} (hm0 : m0 &&& 2097152 = 2097152) (i : Nat) (s : State) :
    proj m0 (freeUnheld i s) = proj m0 s := by
  refine proj_mono hm0 ?_
  unfold freeUnheld
  try dsimp -proj only
  repeat' first
    | simp +decide only [↓proj_ite, ↓proj_iteP, ite_self]
    | ((with_reducible refine proj_mk_trans ?_ ?_); · ((fail_if_success with_reducible rfl); rfl))
    | split

theorem setQueue_frame {m0 : Nat} (hm0 : m0 &&& 2097152 = 2097152) (g : Nat) (q : Nat) (l : List QItem) (s : State) :
    proj m0 (setQueue g q l s) = proj m0 s := by
  refine proj_mono hm0 ?_
  unfold setQueue
  try dsimp -proj only
  repeat' first
    | simp +decide only [↓modEPort_frame, ↓proj_ite, ↓proj_iteP, ite_self]
    | (with_reducible refine (foldl_proj _ _ ?_ _).trans ?_; intro _ _)
    | (with_reducible refine (foldl_projP _ _ ?_ _).trans ?_; intro _ _)
    | ((with_reducible refine proj_mk_trans ?_ ?_); · ((fail_if_success with_reducible rfl); rfl))
    | split

theorem enqueue_frame {m0 : Nat} (hm0 : m0 &&& 538968064 = 538968064) (g : Nat) (q : Nat) (it : QItem) (answer : Bool) (s : State) :
    proj m0 (enqueue g q it answer s).2 = proj m0 s := by
  refine proj_mono hm0 ?_
  unfold enqueue
  try dsimp -proj only
  repeat' first
    | simp +decide only [↓incCnt_frame, ↓setQueue_frame, ↓holdFrame_frame, ↓proj_ite, ↓proj_iteP, ite_self]
    | ((with_reducible refine proj_mk_trans ?_ ?_); · ((fail_if_success with_reducible rfl); rfl))
    | split

theorem setPunt_frame {m0 : Nat} (hm0 : m0 &&& 2097152 = 2097152) (d : NDie) (q : Nat) (f : Fifo) (s : State) :
    proj m0 (setPunt d q f s) = proj m0 s := by
  refine proj_mono hm0 ?_
  unfold setPunt
  try dsimp -proj only
  repeat' first
    | simp +decide only [↓proj_ite, ↓proj_iteP, ite_self]
    | ((with_reducible refine proj_mk_trans ?_ ?_); · ((fail_if_success with_reducible rfl); rfl))
    | split

theorem puntFrame_frame {m0 : Nat} (hm0 : m0 &&& 2097152 = 2097152) (d : NDie) (q : Nat) (g : Nat) (gt : Nat) (sub : BitVec 6) (str : Bool) (rule : Option Nat) (bs : Bytes) (s : State) :
    proj m0 (puntFrame d q g gt sub str rule bs s) = proj m0 s := by
  refine proj_mono hm0 ?_
  unfold puntFrame
  try dsimp -proj only
  repeat' first
    | simp +decide only [↓setPunt_frame, ↓proj_ite, ↓proj_iteP, ite_self]
    | ((with_reducible refine proj_mk_trans ?_ ?_); · ((fail_if_success with_reducible rfl); rfl))
    | split

theorem setReq_frame {m0 : Nat} (hm0 : m0 &&& 8388608 = 8388608) (k : Nat) (r : Req) (s : State) :
    proj m0 (setReq k r s) = proj m0 s := by
  refine proj_mono hm0 ?_
  unfold setReq
  try dsimp -proj only
  repeat' first
    | simp +decide only [↓proj_ite, ↓proj_iteP, ite_self]
    | ((with_reducible refine proj_mk_trans ?_ ?_); · ((fail_if_success with_reducible rfl); rfl))
    | split

theorem modReq_frame {m0 : Nat} (hm0 : m0 &&& 8388608 = 8388608) (k : Nat) (f : Req → Req) (s : State) :
    proj m0 (modReq k f s) = proj m0 s := by
  refine proj_mono hm0 ?_
  unfold modReq
  try dsimp -proj only
  repeat' first
    | simp +decide only [↓setReq_frame, ↓proj_ite, ↓proj_iteP, ite_self]
    | ((with_reducible refine proj_mk_trans ?_ ?_); · ((fail_if_success with_reducible rfl); rfl))
    | split

theorem answer_frame {m0 : Nat} (hm0 : m0 &&& 538968064 = 538968064) (g : Nat) (req : Bytes) (status : Nat) (s : State) :
    proj m0 (answer g req status s) = proj m0 s := by
  refine proj_mono hm0 ?_
  unfold answer
  try dsimp -proj only
  repeat' first
    | simp +decide only [↓putFrame_frame, ↓enqueue_frame, ↓incCnt_frame, ↓proj_ite, ↓proj_iteP, ite_self]
    | ((with_reducible refine proj_mk_trans ?_ ?_); · ((fail_if_success with_reducible rfl); rfl))
    | (with_reducible refine (snd_eq (by assumption) (putFrame_frame (by decide) _ _ _ _ _)).trans ?_)
    | (with_reducible refine (snd_eq (by assumption) (enqueue_frame (by decide) _ _ _ _ _)).trans ?_)
    | split

end Sys2Proof.Machine
end

