-- ==== Sys2Proof/Laws/FrameTables.lean ====
section
/-! SUPPORT. What each operation of Classify.lean, Mma.lean, Flags.lean, Operands.lean, Vector.lean, Convert.lean, Scales.lean, LoadStore.lean, Tables.lean, Ingress.lean, GroupOps.lean, Requests.lean leaves: one lemma each, by Frame.lean. -/

set_option maxRecDepth 8000
set_option linter.all false

namespace Sys2Proof.Machine

theorem countRule_frame {m0 : Nat} (hm0 : m0 &&& 2097152 = 2097152) (k : Nat) (s : State) :
    proj m0 (countRule k s) = proj m0 s := by
  refine proj_mono hm0 ?_
  unfold countRule
  try dsimp -proj only
  repeat' first
    | simp +decide only [↓proj_ite, ↓proj_iteP, ite_self]
    | ((with_reducible refine proj_mk_trans ?_ ?_); · ((fail_if_success with_reducible rfl); rfl))
    | split

theorem setCmdStatus_frame {m0 : Nat} (hm0 : m0 &&& 268435456 = 268435456) (off : Nat) (p : HPort) (cmd : Nat) (status : Nat) (s : State) :
    proj m0 (setCmdStatus off p cmd status s) = proj m0 s := by
  refine proj_mono hm0 ?_
  unfold setCmdStatus
  try dsimp -proj only
  repeat' first
    | simp +decide only [↓setRegW_frame, ↓proj_ite, ↓proj_iteP, ite_self]
    | ((with_reducible refine proj_mk_trans ?_ ?_); · ((fail_if_success with_reducible rfl); rfl))
    | split

theorem setRule_frame {m0 : Nat} (hm0 : m0 &&& 2097152 = 2097152) (d : NDie) (ix : Nat) (r : Rule) (s : State) :
    proj m0 (setRule d ix r s) = proj m0 s := by
  refine proj_mono hm0 ?_
  unfold setRule
  try dsimp -proj only
  repeat' first
    | simp +decide only [↓proj_ite, ↓proj_iteP, ite_self]
    | ((with_reducible refine proj_mk_trans ?_ ?_); · ((fail_if_success with_reducible rfl); rfl))
    | split

theorem storeCmd_frame {m0 : Nat} (hm0 : m0 &&& 268435456 = 268435456) (off : Nat) (p : HPort) (n : Nat) (cmd : Nat) (s : State) :
    proj m0 (storeCmd off p n cmd s) = proj m0 s := by
  refine proj_mono hm0 ?_
  unfold storeCmd
  try dsimp -proj only
  repeat' first
    | simp +decide only [↓setRegW_frame, ↓proj_ite, ↓proj_iteP, ite_self]
    | ((with_reducible refine proj_mk_trans ?_ ?_); · ((fail_if_success with_reducible rfl); rfl))
    | split

theorem execRuleWrite_frame {m0 : Nat} (hm0 : m0 &&& 270532608 = 270532608) (p : HPort) (d : NDie) (cmd : W32) (s : State) :
    outProj m0 s (execRuleWrite p d cmd s) := by
  refine outProj_mono hm0 ?_
  unfold execRuleWrite
  try dsimp -proj only
  repeat' first
    | (with_reducible refine outProj_next ?_)
    | (with_reducible refine ite_projR ?_ ?_)
    | simp +decide only [↓storeCmd_frame, ↓setCmdStatus_frame, ↓setRule_frame, ↓proj_ite, ↓proj_iteP, ite_self]
    | ((with_reducible refine proj_mk_trans ?_ ?_); · ((fail_if_success with_reducible rfl); rfl))
    | split

theorem execRuleRead_frame {m0 : Nat} (hm0 : m0 &&& 268435456 = 268435456) (p : HPort) (d : NDie) (cmd : W32) (s : State) :
    outProj m0 s (execRuleRead p d cmd s) := by
  refine outProj_mono hm0 ?_
  unfold execRuleRead
  try dsimp -proj only
  repeat' first
    | (with_reducible refine outProj_next ?_)
    | (with_reducible refine ite_projR ?_ ?_)
    | simp +decide only [↓setRegW_frame, ↓setRegQ_frame, ↓setCmdStatus_frame, ↓proj_ite, ↓proj_iteP, ite_self]
    | (with_reducible refine (foldl_proj _ _ ?_ _).trans ?_; intro _ _)
    | (with_reducible refine (foldl_projP _ _ ?_ _).trans ?_; intro _ _)
    | ((with_reducible refine proj_mk_trans ?_ ?_); · ((fail_if_success with_reducible rfl); rfl))
    | split

theorem setMeter_frame {m0 : Nat} (hm0 : m0 &&& 2097152 = 2097152) (k : Nat) (m : Meter) (s : State) :
    proj m0 (setMeter k m s) = proj m0 s := by
  refine proj_mono hm0 ?_
  unfold setMeter
  try dsimp -proj only
  repeat' first
    | simp +decide only [↓proj_ite, ↓proj_iteP, ite_self]
    | ((with_reducible refine proj_mk_trans ?_ ?_); · ((fail_if_success with_reducible rfl); rfl))
    | split

theorem meterFrame_frame {m0 : Nat} (hm0 : m0 &&& 2097152 = 2097152) (k : Nat) (len : Nat) (ns : Nat) (s : State) :
    proj m0 (meterFrame k len ns s).2 = proj m0 s := by
  refine proj_mono hm0 ?_
  unfold meterFrame
  try dsimp -proj only
  repeat' first
    | simp +decide only [↓setMeter_frame, ↓proj_ite, ↓proj_iteP, ite_self]
    | ((with_reducible refine proj_mk_trans ?_ ?_); · ((fail_if_success with_reducible rfl); rfl))
    | split

theorem writeMeter_frame {m0 : Nat} (hm0 : m0 &&& 270532608 = 270532608) (d : NDie) (n : Nat) (hi : Nat) (s : State) :
    proj m0 (writeMeter d n hi s) = proj m0 s := by
  refine proj_mono hm0 ?_
  unfold writeMeter
  try dsimp -proj only
  repeat' first
    | simp +decide only [↓setRegW_frame, ↓setMeter_frame, ↓proj_ite, ↓proj_iteP, ite_self]
    | ((with_reducible refine proj_mk_trans ?_ ?_); · ((fail_if_success with_reducible rfl); rfl))
    | split

theorem execMeterConfig_frame {m0 : Nat} (hm0 : m0 &&& 807665664 = 807665664) (p : HPort) (d : NDie) (hi : W32) (s : State) :
    outProj m0 s (execMeterConfig p d hi s) := by
  refine outProj_mono hm0 ?_
  unfold execMeterConfig
  try dsimp -proj only
  repeat' first
    | (with_reducible refine outProj_next ?_)
    | (with_reducible refine ite_projR ?_ ?_)
    | simp +decide only [↓discardRws_frame, ↓writeMeter_frame, ↓proj_ite, ↓proj_iteP, ite_self]
    | ((with_reducible refine proj_mk_trans ?_ ?_); · ((fail_if_success with_reducible rfl); rfl))
    | split

theorem ctxDone_frame {m0 : Nat} (hm0 : m0 &&& 4 = 4) (c : CoreId) (ctx : CtxId) (s : State) :
    proj m0 (ctxDone c ctx s) = proj m0 s := by
  refine proj_mono hm0 ?_
  unfold ctxDone
  try dsimp -proj only
  repeat' first
    | simp +decide only [↓modCore_frame, ↓proj_ite, ↓proj_iteP, ite_self]
    | ((with_reducible refine proj_mk_trans ?_ ?_); · ((fail_if_success with_reducible rfl); rfl))
    | split

theorem ctxIssued_frame {m0 : Nat} (hm0 : m0 &&& 4 = 4) (c : CoreId) (ctx : CtxId) (h : CmdHdr) (s : State) :
    proj m0 (ctxIssued c ctx h s) = proj m0 s := by
  refine proj_mono hm0 ?_
  unfold ctxIssued
  try dsimp -proj only
  repeat' first
    | simp +decide only [↓modCore_frame, ↓proj_ite, ↓proj_iteP, ite_self]
    | ((with_reducible refine proj_mk_trans ?_ ?_); · ((fail_if_success with_reducible rfl); rfl))
    | split

theorem traceStart_frame {m0 : Nat} (hm0 : m0 &&& 2684354816 = 2684354816) (c : CoreId) (u : UnitCode) (ctx : CtxId) (h : CmdHdr) (opcode : Nat) (eng : Nat) (s : State) :
    proj m0 (traceStart c u ctx h opcode eng s) = proj m0 s := by
  refine proj_mono hm0 ?_
  unfold traceStart
  try dsimp -proj only
  repeat' first
    | simp +decide only [↓emitTrace_frame, ↓proj_ite, ↓proj_iteP, ite_self]
    | ((with_reducible refine proj_mk_trans ?_ ?_); · ((fail_if_success with_reducible rfl); rfl))
    | split

theorem traceEnd_frame {m0 : Nat} (hm0 : m0 &&& 2684354816 = 2684354816) (u : UnitCode) (h : CmdHdr) (s : State) :
    proj m0 (traceEnd u h s) = proj m0 s := by
  refine proj_mono hm0 ?_
  unfold traceEnd
  try dsimp -proj only
  repeat' first
    | simp +decide only [↓drawFree_frame, ↓emitTrace_frame, ↓proj_ite, ↓proj_iteP, ite_self]
    | ((with_reducible refine proj_mk_trans ?_ ?_); · ((fail_if_success with_reducible rfl); rfl))
    | split

theorem mmaFinish_frame {m0 : Nat} (hm0 : m0 &&& 2684354820 = 2684354820) (c : CoreId) (m : MeId) (r : MmaRun) (cols : List (List W32)) (poison : Bool) (checkGood : Bool) (skips : Nat) (s : State) :
    proj m0 (mmaFinish c m r cols poison checkGood skips s) = proj m0 s := by
  refine proj_mono hm0 ?_
  unfold mmaFinish
  try dsimp -proj only
  repeat' first
    | simp +decide only [↓setCore_frame, ↓incCnt_frame, ↓addCnt_frame, ↓traceEnd_frame, ↓ctxDone_frame, ↓proj_ite, ↓proj_iteP, ite_self]
    | ((with_reducible refine proj_mk_trans ?_ ?_); · ((fail_if_success with_reducible rfl); rfl))
    | split

theorem mmaPoison_frame {m0 : Nat} (hm0 : m0 &&& 2684354820 = 2684354820) (c : CoreId) (m : MeId) (r : MmaRun) (checkGood : Bool) (s : State) :
    proj m0 (mmaPoison c m r checkGood s) = proj m0 s := by
  refine proj_mono hm0 ?_
  unfold mmaPoison
  try dsimp -proj only
  repeat' first
    | simp +decide only [↓mmaFinish_frame, ↓proj_ite, ↓proj_iteP, ite_self]
    | ((with_reducible refine proj_mk_trans ?_ ?_); · ((fail_if_success with_reducible rfl); rfl))
    | split

theorem noteFault_frame {m0 : Nat} (hm0 : m0 &&& 2147483652 = 2147483652) (c : CoreId) (m : MeId) (kind : Nat) (h : CmdHdr) (s : State) :
    proj m0 (noteFault c m kind h s) = proj m0 s := by
  refine proj_mono hm0 ?_
  unfold noteFault
  try dsimp -proj only
  repeat' first
    | simp +decide only [↓stampSub_frame, ↓modCore_frame, ↓proj_ite, ↓proj_iteP, ite_self]
    | ((with_reducible refine proj_mk_trans ?_ ?_); · ((fail_if_success with_reducible rfl); rfl))
    | split

theorem reissueOn_frame {m0 : Nat} (hm0 : m0 &&& 36 = 36) (c : CoreId) (m : MeId) (r : MmaRun) (s : State) :
    proj m0 (reissueOn c m r s) = proj m0 s := by
  refine proj_mono hm0 ?_
  unfold reissueOn
  try dsimp -proj only
  repeat' first
    | simp +decide only [↓modCore_frame, ↓markRelaunch_frame, ↓proj_ite, ↓proj_iteP, ite_self]
    | ((with_reducible refine proj_mk_trans ?_ ?_); · ((fail_if_success with_reducible rfl); rfl))
    | split

theorem liftFence_frame {m0 : Nat} (hm0 : m0 &&& 32 = 32) (u : UnitCode) (causes : List Nat) (s : State) :
    proj m0 (liftFence u causes s) = proj m0 s := by
  refine proj_mono hm0 ?_
  unfold liftFence
  try dsimp -proj only
  repeat' first
    | simp +decide only [↓setUnit_frame, ↓proj_ite, ↓proj_iteP, ite_self]
    | ((with_reducible refine proj_mk_trans ?_ ?_); · ((fail_if_success with_reducible rfl); rfl))
    | split

theorem deckleFault_frame {m0 : Nat} (hm0 : m0 &&& 2684354852 = 2684354852) (c : CoreId) (m : MeId) (r : MmaRun) (code : Nat) (value : List Nat) (act : Bool) (s : State) :
    proj m0 (deckleFault c m r code value act s) = proj m0 s := by
  refine proj_mono hm0 ?_
  unfold deckleFault
  try dsimp -proj only
  repeat' first
    | simp +decide only [↓noteFault_frame, ↓incCnt_frame, ↓reportWith_frame, ↓modCore_frame, ↓mmaPoison_frame, ↓liftFence_frame, ↓fenceEngine_frame, ↓reissueOn_frame, ↓proj_ite, ↓proj_iteP, ite_self]
    | ((with_reducible refine proj_mk_trans ?_ ?_); · ((fail_if_success with_reducible rfl); rfl))
    | split

theorem checkFault_frame {m0 : Nat} (hm0 : m0 &&& 2684354852 = 2684354852) (c : CoreId) (m : MeId) (r : MmaRun) (code : Nat) (row : Nat) (s : State) :
    proj m0 (checkFault c m r code row s) = proj m0 s := by
  refine proj_mono hm0 ?_
  unfold checkFault
  try dsimp -proj only
  repeat' first
    | simp +decide only [↓incCnt_frame, ↓reportWith_frame, ↓noteFault_frame, ↓mmaPoison_frame, ↓liftFence_frame, ↓modCore_frame, ↓reissueOn_frame, ↓fenceEngine_frame, ↓proj_ite, ↓proj_iteP, ite_self]
    | ((with_reducible refine proj_mk_trans ?_ ?_); · ((fail_if_success with_reducible rfl); rfl))
    | split

theorem mmaAttempt_frame {m0 : Nat} (hm0 : m0 &&& 2952790308 = 2952790308) (c : CoreId) (m : MeId) (r : MmaRun) (f : EngineFault) (again : Bool) (s : State) :
    proj m0 (mmaAttempt c m r f again s) = proj m0 s := by
  refine proj_mono hm0 ?_
  unfold mmaAttempt
  try dsimp -proj only
  repeat' first
    | simp +decide only [↓startCmdCnt_frame, ↓modCore_frame, ↓mmaFinish_frame, ↓deckleFault_frame, ↓checkFault_frame, ↓noteFault_frame, ↓reportWith_frame, ↓setSticky_frame, ↓mmaPoison_frame, ↓proj_ite, ↓proj_iteP, ite_self]
    | ((with_reducible refine proj_mk_trans ?_ ?_); · ((fail_if_success with_reducible rfl); rfl))
    | split

theorem issueMma_frame {m0 : Nat} (hm0 : m0 &&& 2952790308 = 2952790308) (c : CoreId) (ctx : CtxId) (op : MmaOp) (f : EngineFault) (s : State) :
    outProj m0 s (issueMma c ctx op f s) := by
  refine outProj_mono hm0 ?_
  unfold issueMma
  try dsimp -proj only
  repeat' first
    | (with_reducible exact outProj_fault)
    | (with_reducible exact outProj_refused)
    | (with_reducible refine outProj_next ?_)
    | (with_reducible refine ite_projR ?_ ?_)
    | simp +decide only [↓ctxIssued_frame, ↓traceStart_frame, ↓mmaAttempt_frame, ↓proj_ite, ↓proj_iteP, ite_self]
    | ((with_reducible refine proj_mk_trans ?_ ?_); · ((fail_if_success with_reducible rfl); rfl))
    | split

theorem execTileReexecute_frame {m0 : Nat} (hm0 : m0 &&& 2952790308 = 2952790308) (c : CoreId) (m : MeId) (f : EngineFault) (s : State) :
    outProj m0 s (execTileReexecute c m f s) := by
  refine outProj_mono hm0 ?_
  unfold execTileReexecute
  try dsimp -proj only
  repeat' first
    | (with_reducible refine outProj_next ?_)
    | (with_reducible refine ite_projR ?_ ?_)
    | simp +decide only [↓mmaAttempt_frame, ↓proj_ite, ↓proj_iteP, ite_self]
    | ((with_reducible refine proj_mk_trans ?_ ?_); · ((fail_if_success with_reducible rfl); rfl))
    | split

theorem execMmaReissue_frame {m0 : Nat} (hm0 : m0 &&& 2952790308 = 2952790308) (c : CoreId) (m : MeId) (f : EngineFault) (s : State) :
    outProj m0 s (execMmaReissue c m f s) := by
  refine outProj_mono hm0 ?_
  unfold execMmaReissue
  try dsimp -proj only
  repeat' first
    | (with_reducible refine outProj_next ?_)
    | (with_reducible refine ite_projR ?_ ?_)
    | simp +decide only [↓setCore_frame, ↓traceStart_frame, ↓mmaAttempt_frame, ↓proj_ite, ↓proj_iteP, ite_self]
    | ((with_reducible refine proj_mk_trans ?_ ?_); · ((fail_if_success with_reducible rfl); rfl))
    | split

theorem execDeckleStrikeClear_frame {m0 : Nat} (hm0 : m0 &&& 4 = 4) (c : CoreId) (m : MeId) (s : State) :
    outProj m0 s (execDeckleStrikeClear c m s) := by
  refine outProj_mono hm0 ?_
  unfold execDeckleStrikeClear
  try dsimp -proj only
  repeat' first
    | (with_reducible refine outProj_next ?_)
    | (with_reducible refine ite_projR ?_ ?_)
    | simp +decide only [↓modCore_frame, ↓proj_ite, ↓proj_iteP, ite_self]
    | ((with_reducible refine proj_mk_trans ?_ ?_); · ((fail_if_success with_reducible rfl); rfl))
    | split

theorem execCheckStrikeClear_frame {m0 : Nat} (hm0 : m0 &&& 4 = 4) (c : CoreId) (m : MeId) (s : State) :
    outProj m0 s (execCheckStrikeClear c m s) := by
  refine outProj_mono hm0 ?_
  unfold execCheckStrikeClear
  try dsimp -proj only
  repeat' first
    | (with_reducible refine outProj_next ?_)
    | (with_reducible refine ite_projR ?_ ?_)
    | simp +decide only [↓modCore_frame, ↓proj_ite, ↓proj_iteP, ite_self]
    | ((with_reducible refine proj_mk_trans ?_ ?_); · ((fail_if_success with_reducible rfl); rfl))
    | split

theorem setVFlags_frame {m0 : Nat} (hm0 : m0 &&& 2415919108 = 2415919108) (c : CoreId) (flags : List Nat) (s : State) :
    proj m0 (setVFlags c flags s) = proj m0 s := by
  refine proj_mono hm0 ?_
  unfold setVFlags
  try dsimp -proj only
  repeat' first
    | simp +decide only [↓drawFree_frame, ↓setSticky_frame, ↓modCore_frame, ↓proj_ite, ↓proj_iteP, ite_self]
    | (with_reducible refine (foldl_proj _ _ ?_ _).trans ?_; intro _ _)
    | (with_reducible refine (foldl_projP _ _ ?_ _).trans ?_; intro _ _)
    | ((with_reducible refine proj_mk_trans ?_ ?_); · ((fail_if_success with_reducible rfl); rfl))
    | (with_reducible refine (snd_eq (by assumption) (drawFree_frame (by decide) _)).trans ?_)
    | split

theorem vDone_frame {m0 : Nat} (hm0 : m0 &&& 536870916 = 536870916) (c : CoreId) (s : State) :
    proj m0 (vDone c s) = proj m0 s := by
  refine proj_mono hm0 ?_
  unfold vDone
  try dsimp -proj only
  repeat' first
    | simp +decide only [↓incCnt_frame, ↓modCore_frame, ↓proj_ite, ↓proj_iteP, ite_self]
    | ((with_reducible refine proj_mk_trans ?_ ?_); · ((fail_if_success with_reducible rfl); rfl))
    | split

theorem vRun_frame {m0 : Nat} (hm0 : m0 &&& 536870916 = 536870916) (c : CoreId) (listed : Bool) (f : State → State) (s : State) (hf : ∀ s, proj m0 (f s) = proj m0 s) :
    outProj m0 s (vRun c listed f s) := by
  intro t e
  unfold vRun at e
  split at e
  · cases e
  split at e
  · cases e; rfl
  · cases e; exact (proj_mono hm0 (vDone_frame (by decide) _ _)).trans (hf _)

theorem residueFails_frame {m0 : Nat} (hm0 : m0 &&& 2952790052 = 2952790052) (c : CoreId) (s : State) :
    proj m0 (residueFails c s) = proj m0 s := by
  refine proj_mono hm0 ?_
  unfold residueFails
  try dsimp -proj only
  repeat' first
    | simp +decide only [↓setVFlags_frame, ↓incCnt_frame, ↓reportWith_frame, ↓fenceCore_frame, ↓modCore_frame, ↓proj_ite, ↓proj_iteP, ite_self]
    | ((with_reducible refine proj_mk_trans ?_ ?_); · ((fail_if_success with_reducible rfl); rfl))
    | split

theorem withResidue_frame {m0 : Nat} (hm0 : m0 &&& 2952790052 = 2952790052) (c : CoreId) (v : VOps) (listed : Bool) (f : State → State) (s : State) (hf : ∀ s, proj m0 (f s) = proj m0 s) :
    outProj m0 s (withResidue c v listed f s) := by
  unfold withResidue
  try dsimp -proj only
  repeat' first
    | (with_reducible exact outProj_fault)
    | (with_reducible exact outProj_refused)
    | (with_reducible refine outProj_next ?_)
    | (with_reducible refine ite_projR ?_ ?_)
    | (with_reducible refine ite_proj ?_ ?_)
    | with_reducible rfl
    | (with_reducible refine (proj_mono hm0 (residueFails_frame (m0 := 2952790052) (by decide) _ _)).trans ?_)
    | (with_reducible refine (proj_mono hm0 (vDone_frame (m0 := 2952790052) (by decide) _ _)).trans ?_)
    | (with_reducible refine (hf _).trans ?_)
    | ((with_reducible refine proj_mk_trans ?_ ?_); · ((fail_if_success with_reducible rfl); exact proj_mono hm0 rfl))
    | split

theorem writeLanes_frame {m0 : Nat} (hm0 : m0 &&& 2415919108 = 2415919108) (c : CoreId) (v : VOps) (srcs : List (BitVec 8)) (f : CoreState → List LaneOut) (s : State) :
    proj m0 (writeLanes c v srcs f s) = proj m0 s := by
  refine proj_mono hm0 ?_
  unfold writeLanes
  try dsimp -proj only
  repeat' first
    | simp +decide only [↓setCore_frame, ↓setVFlags_frame, ↓proj_ite, ↓proj_iteP, ite_self]
    | ((with_reducible refine proj_mk_trans ?_ ?_); · ((fail_if_success with_reducible rfl); rfl))
    | split

theorem arith2_frame {m0 : Nat} (hm0 : m0 &&& 2952790052 = 2952790052) (c : CoreId) (v : VOps) (fv : FV → FV → FV) (iv : Int → Int → Int) (s : State) :
    outProj m0 s (arith2 c v fv iv s) := by
  refine outProj_mono hm0 ?_
  unfold arith2
  try dsimp -proj only
  repeat' first
    | (with_reducible refine outProj_next ?_)
    | (with_reducible refine withResidue_frame (by decide) _ _ _ _ _ ?_)
    | simp +decide only [↓writeLanes_frame, ↓proj_ite, ↓proj_iteP, ite_self]
    | ((with_reducible refine proj_mk_trans ?_ ?_); · ((fail_if_success with_reducible rfl); rfl))
    | (with_reducible intro _)
    | split

theorem execVnop_frame {m0 : Nat} (hm0 : m0 &&& 536870916 = 536870916) (c : CoreId) (v : VOps) (s : State) :
    outProj m0 s (execVnop c v s) := by
  refine outProj_mono hm0 ?_
  unfold execVnop
  try dsimp -proj only
  repeat' first
    | (with_reducible refine outProj_next ?_)
    | (with_reducible refine vRun_frame (by decide) _ _ _ _ ?_)
    | simp +decide only [↓proj_ite, ↓proj_iteP, ite_self]
    | ((with_reducible refine proj_mk_trans ?_ ?_); · ((fail_if_success with_reducible rfl); rfl))
    | (with_reducible intro _)
    | split

theorem execAdd_frame {m0 : Nat} (hm0 : m0 &&& 2952790052 = 2952790052) (c : CoreId) (v : VOps) (s : State) :
    outProj m0 s (execAdd c v s) := by
  refine outProj_mono hm0 ?_
  unfold execAdd
  try dsimp -proj only
  repeat' first
    | (with_reducible refine outProj_next ?_)
    | (with_reducible exact arith2_frame (by decide) _ _ _ _ _)
    | simp +decide only [↓proj_ite, ↓proj_iteP, ite_self]
    | ((with_reducible refine proj_mk_trans ?_ ?_); · ((fail_if_success with_reducible rfl); rfl))
    | split

theorem execSub_frame {m0 : Nat} (hm0 : m0 &&& 2952790052 = 2952790052) (c : CoreId) (v : VOps) (s : State) :
    outProj m0 s (execSub c v s) := by
  refine outProj_mono hm0 ?_
  unfold execSub
  try dsimp -proj only
  repeat' first
    | (with_reducible refine outProj_next ?_)
    | (with_reducible exact arith2_frame (by decide) _ _ _ _ _)
    | simp +decide only [↓proj_ite, ↓proj_iteP, ite_self]
    | ((with_reducible refine proj_mk_trans ?_ ?_); · ((fail_if_success with_reducible rfl); rfl))
    | split

theorem execMul_frame {m0 : Nat} (hm0 : m0 &&& 2952790052 = 2952790052) (c : CoreId) (v : VOps) (s : State) :
    outProj m0 s (execMul c v s) := by
  refine outProj_mono hm0 ?_
  unfold execMul
  try dsimp -proj only
  repeat' first
    | (with_reducible refine outProj_next ?_)
    | (with_reducible exact arith2_frame (by decide) _ _ _ _ _)
    | simp +decide only [↓proj_ite, ↓proj_iteP, ite_self]
    | ((with_reducible refine proj_mk_trans ?_ ?_); · ((fail_if_success with_reducible rfl); rfl))
    | split

theorem execFma_frame {m0 : Nat} (hm0 : m0 &&& 2952790052 = 2952790052) (c : CoreId) (v : VOps) (s : State) :
    outProj m0 s (execFma c v s) := by
  refine outProj_mono hm0 ?_
  unfold execFma
  try dsimp -proj only
  repeat' first
    | (with_reducible refine outProj_next ?_)
    | (with_reducible refine ite_projR ?_ ?_)
    | (with_reducible refine withResidue_frame (by decide) _ _ _ _ _ ?_)
    | simp +decide only [↓writeLanes_frame, ↓proj_ite, ↓proj_iteP, ite_self]
    | ((with_reducible refine proj_mk_trans ?_ ?_); · ((fail_if_success with_reducible rfl); rfl))
    | (with_reducible intro _)
    | split

theorem execDiv_frame {m0 : Nat} (hm0 : m0 &&& 2952790052 = 2952790052) (c : CoreId) (v : VOps) (s : State) :
    outProj m0 s (execDiv c v s) := by
  refine outProj_mono hm0 ?_
  unfold execDiv
  try dsimp -proj only
  repeat' first
    | (with_reducible refine outProj_next ?_)
    | (with_reducible refine withResidue_frame (by decide) _ _ _ _ _ ?_)
    | simp +decide only [↓writeLanes_frame, ↓proj_ite, ↓proj_iteP, ite_self]
    | ((with_reducible refine proj_mk_trans ?_ ?_); · ((fail_if_success with_reducible rfl); rfl))
    | (with_reducible intro _)
    | split

theorem execSqrt_frame {m0 : Nat} (hm0 : m0 &&& 2952790052 = 2952790052) (c : CoreId) (v : VOps) (s : State) :
    outProj m0 s (execSqrt c v s) := by
  refine outProj_mono hm0 ?_
  unfold execSqrt
  try dsimp -proj only
  repeat' first
    | (with_reducible refine outProj_next ?_)
    | (with_reducible refine withResidue_frame (by decide) _ _ _ _ _ ?_)
    | simp +decide only [↓writeLanes_frame, ↓proj_ite, ↓proj_iteP, ite_self]
    | ((with_reducible refine proj_mk_trans ?_ ?_); · ((fail_if_success with_reducible rfl); rfl))
    | (with_reducible intro _)
    | split

theorem lane2_frame {m0 : Nat} (hm0 : m0 &&& 2952790020 = 2952790020) (c : CoreId) (v : VOps) (ok : Bool) (f : VTy → W32 → W32 → LaneOut) (s : State) :
    outProj m0 s (lane2 c v ok f s) := by
  refine outProj_mono hm0 ?_
  unfold lane2
  try dsimp -proj only
  repeat' first
    | (with_reducible refine outProj_next ?_)
    | (with_reducible refine vRun_frame (by decide) _ _ _ _ ?_)
    | simp +decide only [↓writeLanes_frame, ↓proj_ite, ↓proj_iteP, ite_self]
    | ((with_reducible refine proj_mk_trans ?_ ?_); · ((fail_if_success with_reducible rfl); rfl))
    | (with_reducible intro _)
    | split

theorem lane1_frame {m0 : Nat} (hm0 : m0 &&& 2952790020 = 2952790020) (c : CoreId) (v : VOps) (ok : Bool) (f : VTy → W32 → LaneOut) (s : State) :
    outProj m0 s (lane1 c v ok f s) := by
  refine outProj_mono hm0 ?_
  unfold lane1
  try dsimp -proj only
  repeat' first
    | (with_reducible refine outProj_next ?_)
    | (with_reducible refine vRun_frame (by decide) _ _ _ _ ?_)
    | simp +decide only [↓writeLanes_frame, ↓proj_ite, ↓proj_iteP, ite_self]
    | ((with_reducible refine proj_mk_trans ?_ ?_); · ((fail_if_success with_reducible rfl); rfl))
    | (with_reducible intro _)
    | split

theorem execMax_frame {m0 : Nat} (hm0 : m0 &&& 2952790020 = 2952790020) (c : CoreId) (v : VOps) (s : State) :
    outProj m0 s (execMax c v s) := by
  refine outProj_mono hm0 ?_
  unfold execMax
  try dsimp -proj only
  repeat' first
    | (with_reducible refine outProj_next ?_)
    | (with_reducible exact lane2_frame (by decide) _ _ _ _ _)
    | simp +decide only [↓proj_ite, ↓proj_iteP, ite_self]
    | ((with_reducible refine proj_mk_trans ?_ ?_); · ((fail_if_success with_reducible rfl); rfl))
    | split

theorem execMin_frame {m0 : Nat} (hm0 : m0 &&& 2952790020 = 2952790020) (c : CoreId) (v : VOps) (s : State) :
    outProj m0 s (execMin c v s) := by
  refine outProj_mono hm0 ?_
  unfold execMin
  try dsimp -proj only
  repeat' first
    | (with_reducible refine outProj_next ?_)
    | (with_reducible exact lane2_frame (by decide) _ _ _ _ _)
    | simp +decide only [↓proj_ite, ↓proj_iteP, ite_self]
    | ((with_reducible refine proj_mk_trans ?_ ?_); · ((fail_if_success with_reducible rfl); rfl))
    | split

theorem signInstr_frame {m0 : Nat} (hm0 : m0 &&& 2952790020 = 2952790020) (c : CoreId) (v : VOps) (fv : FV → FV) (iv : Int → Int) (neg : Bool) (s : State) :
    outProj m0 s (signInstr c v fv iv neg s) := by
  refine outProj_mono hm0 ?_
  unfold signInstr
  try dsimp -proj only
  repeat' first
    | (with_reducible refine outProj_next ?_)
    | (with_reducible refine ite_projR ?_ ?_)
    | (with_reducible exact lane1_frame (by decide) _ _ _ _ _)
    | simp +decide only [↓proj_ite, ↓proj_iteP, ite_self]
    | ((with_reducible refine proj_mk_trans ?_ ?_); · ((fail_if_success with_reducible rfl); rfl))
    | split

theorem execAbs_frame {m0 : Nat} (hm0 : m0 &&& 2952790020 = 2952790020) (c : CoreId) (v : VOps) (s : State) :
    outProj m0 s (execAbs c v s) := by
  refine outProj_mono hm0 ?_
  unfold execAbs
  try dsimp -proj only
  repeat' first
    | (with_reducible refine outProj_next ?_)
    | (with_reducible refine ite_projR ?_ ?_)
    | (with_reducible exact signInstr_frame (by decide) _ _ _ _ _ _)
    | simp +decide only [↓proj_ite, ↓proj_iteP, ite_self]
    | ((with_reducible refine proj_mk_trans ?_ ?_); · ((fail_if_success with_reducible rfl); rfl))
    | split

theorem execNeg_frame {m0 : Nat} (hm0 : m0 &&& 2952790020 = 2952790020) (c : CoreId) (v : VOps) (s : State) :
    outProj m0 s (execNeg c v s) := by
  refine outProj_mono hm0 ?_
  unfold execNeg
  try dsimp -proj only
  repeat' first
    | (with_reducible refine outProj_next ?_)
    | (with_reducible exact signInstr_frame (by decide) _ _ _ _ _ _)
    | simp +decide only [↓proj_ite, ↓proj_iteP, ite_self]
    | ((with_reducible refine proj_mk_trans ?_ ?_); · ((fail_if_success with_reducible rfl); rfl))
    | split

theorem execMov_frame {m0 : Nat} (hm0 : m0 &&& 2952790020 = 2952790020) (c : CoreId) (v : VOps) (s : State) :
    outProj m0 s (execMov c v s) := by
  refine outProj_mono hm0 ?_
  unfold execMov
  try dsimp -proj only
  repeat' first
    | (with_reducible refine outProj_next ?_)
    | (with_reducible exact lane1_frame (by decide) _ _ _ _ _)
    | simp +decide only [↓proj_ite, ↓proj_iteP, ite_self]
    | ((with_reducible refine proj_mk_trans ?_ ?_); · ((fail_if_success with_reducible rfl); rfl))
    | split

theorem execSel_frame {m0 : Nat} (hm0 : m0 &&& 2952790020 = 2952790020) (c : CoreId) (v : VOps) (s : State) :
    outProj m0 s (execSel c v s) := by
  refine outProj_mono hm0 ?_
  unfold execSel
  try dsimp -proj only
  repeat' first
    | (with_reducible refine outProj_next ?_)
    | (with_reducible refine ite_projR ?_ ?_)
    | (with_reducible refine vRun_frame (by decide) _ _ _ _ ?_)
    | simp +decide only [↓setVFlags_frame, ↓setCore_frame, ↓proj_ite, ↓proj_iteP, ite_self]
    | ((with_reducible refine proj_mk_trans ?_ ?_); · ((fail_if_success with_reducible rfl); rfl))
    | (with_reducible intro _)
    | split

theorem execAnd_frame {m0 : Nat} (hm0 : m0 &&& 2952790020 = 2952790020) (c : CoreId) (v : VOps) (s : State) :
    outProj m0 s (execAnd c v s) := by
  refine outProj_mono hm0 ?_
  unfold execAnd
  try dsimp -proj only
  repeat' first
    | (with_reducible refine outProj_next ?_)
    | (with_reducible exact lane2_frame (by decide) _ _ _ _ _)
    | simp +decide only [↓proj_ite, ↓proj_iteP, ite_self]
    | ((with_reducible refine proj_mk_trans ?_ ?_); · ((fail_if_success with_reducible rfl); rfl))
    | split

theorem execOr_frame {m0 : Nat} (hm0 : m0 &&& 2952790020 = 2952790020) (c : CoreId) (v : VOps) (s : State) :
    outProj m0 s (execOr c v s) := by
  refine outProj_mono hm0 ?_
  unfold execOr
  try dsimp -proj only
  repeat' first
    | (with_reducible refine outProj_next ?_)
    | (with_reducible exact lane2_frame (by decide) _ _ _ _ _)
    | simp +decide only [↓proj_ite, ↓proj_iteP, ite_self]
    | ((with_reducible refine proj_mk_trans ?_ ?_); · ((fail_if_success with_reducible rfl); rfl))
    | split

theorem execXor_frame {m0 : Nat} (hm0 : m0 &&& 2952790020 = 2952790020) (c : CoreId) (v : VOps) (s : State) :
    outProj m0 s (execXor c v s) := by
  refine outProj_mono hm0 ?_
  unfold execXor
  try dsimp -proj only
  repeat' first
    | (with_reducible refine outProj_next ?_)
    | (with_reducible exact lane2_frame (by decide) _ _ _ _ _)
    | simp +decide only [↓proj_ite, ↓proj_iteP, ite_self]
    | ((with_reducible refine proj_mk_trans ?_ ?_); · ((fail_if_success with_reducible rfl); rfl))
    | split

theorem execShl_frame {m0 : Nat} (hm0 : m0 &&& 2952790020 = 2952790020) (c : CoreId) (v : VOps) (s : State) :
    outProj m0 s (execShl c v s) := by
  refine outProj_mono hm0 ?_
  unfold execShl
  try dsimp -proj only
  repeat' first
    | (with_reducible refine outProj_next ?_)
    | (with_reducible exact lane1_frame (by decide) _ _ _ _ _)
    | simp +decide only [↓proj_ite, ↓proj_iteP, ite_self]
    | ((with_reducible refine proj_mk_trans ?_ ?_); · ((fail_if_success with_reducible rfl); rfl))
    | split

theorem execShra_frame {m0 : Nat} (hm0 : m0 &&& 2952790020 = 2952790020) (c : CoreId) (v : VOps) (s : State) :
    outProj m0 s (execShra c v s) := by
  refine outProj_mono hm0 ?_
  unfold execShra
  try dsimp -proj only
  repeat' first
    | (with_reducible refine outProj_next ?_)
    | (with_reducible exact lane1_frame (by decide) _ _ _ _ _)
    | simp +decide only [↓proj_ite, ↓proj_iteP, ite_self]
    | ((with_reducible refine proj_mk_trans ?_ ?_); · ((fail_if_success with_reducible rfl); rfl))
    | split

theorem execShrl_frame {m0 : Nat} (hm0 : m0 &&& 2952790020 = 2952790020) (c : CoreId) (v : VOps) (s : State) :
    outProj m0 s (execShrl c v s) := by
  refine outProj_mono hm0 ?_
  unfold execShrl
  try dsimp -proj only
  repeat' first
    | (with_reducible refine outProj_next ?_)
    | (with_reducible exact lane1_frame (by decide) _ _ _ _ _)
    | simp +decide only [↓proj_ite, ↓proj_iteP, ite_self]
    | ((with_reducible refine proj_mk_trans ?_ ?_); · ((fail_if_success with_reducible rfl); rfl))
    | split

theorem execCmp_frame {m0 : Nat} (hm0 : m0 &&& 2952790020 = 2952790020) (c : CoreId) (v : VOps) (s : State) :
    outProj m0 s (execCmp c v s) := by
  refine outProj_mono hm0 ?_
  unfold execCmp
  try dsimp -proj only
  repeat' first
    | (with_reducible refine outProj_next ?_)
    | (with_reducible refine ite_projR ?_ ?_)
    | (with_reducible refine vRun_frame (by decide) _ _ _ _ ?_)
    | simp +decide only [↓setVFlags_frame, ↓setCore_frame, ↓proj_ite, ↓proj_iteP, ite_self]
    | ((with_reducible refine proj_mk_trans ?_ ?_); · ((fail_if_success with_reducible rfl); rfl))
    | (with_reducible intro _)
    | split

theorem execMlog_frame {m0 : Nat} (hm0 : m0 &&& 2952790020 = 2952790020) (c : CoreId) (v : VOps) (s : State) :
    outProj m0 s (execMlog c v s) := by
  refine outProj_mono hm0 ?_
  unfold execMlog
  try dsimp -proj only
  repeat' first
    | (with_reducible refine outProj_next ?_)
    | (with_reducible refine vRun_frame (by decide) _ _ _ _ ?_)
    | simp +decide only [↓setVFlags_frame, ↓setCore_frame, ↓proj_ite, ↓proj_iteP, ite_self]
    | ((with_reducible refine proj_mk_trans ?_ ?_); · ((fail_if_success with_reducible rfl); rfl))
    | (with_reducible intro _)
    | split

theorem execMcnt_frame {m0 : Nat} (hm0 : m0 &&& 2952790020 = 2952790020) (c : CoreId) (v : VOps) (s : State) :
    outProj m0 s (execMcnt c v s) := by
  refine outProj_mono hm0 ?_
  unfold execMcnt
  try dsimp -proj only
  repeat' first
    | (with_reducible refine outProj_next ?_)
    | (with_reducible refine vRun_frame (by decide) _ _ _ _ ?_)
    | simp +decide only [↓setVFlags_frame, ↓setCore_frame, ↓proj_ite, ↓proj_iteP, ite_self]
    | ((with_reducible refine proj_mk_trans ?_ ?_); · ((fail_if_success with_reducible rfl); rfl))
    | (with_reducible intro _)
    | split

theorem execSetvl_frame {m0 : Nat} (hm0 : m0 &&& 2952790020 = 2952790020) (c : CoreId) (v : VOps) (s : State) :
    outProj m0 s (execSetvl c v s) := by
  refine outProj_mono hm0 ?_
  unfold execSetvl
  try dsimp -proj only
  repeat' first
    | (with_reducible refine outProj_next ?_)
    | (with_reducible refine ite_projR ?_ ?_)
    | (with_reducible refine vRun_frame (by decide) _ _ _ _ ?_)
    | simp +decide only [↓setCore_frame, ↓setVFlags_frame, ↓proj_ite, ↓proj_iteP, ite_self]
    | ((with_reducible refine proj_mk_trans ?_ ?_); · ((fail_if_success with_reducible rfl); rfl))
    | (with_reducible intro _)
    | split

theorem execCvt_frame {m0 : Nat} (hm0 : m0 &&& 2952790020 = 2952790020) (c : CoreId) (v : VOps) (s : State) :
    outProj m0 s (execCvt c v s) := by
  refine outProj_mono hm0 ?_
  unfold execCvt
  try dsimp -proj only
  repeat' first
    | (with_reducible refine outProj_next ?_)
    | (with_reducible exact lane1_frame (by decide) _ _ _ _ _)
    | simp +decide only [↓proj_ite, ↓proj_iteP, ite_self]
    | ((with_reducible refine proj_mk_trans ?_ ?_); · ((fail_if_success with_reducible rfl); rfl))
    | split

theorem execMovi_frame {m0 : Nat} (hm0 : m0 &&& 2952790020 = 2952790020) (c : CoreId) (v : VOps) (s : State) :
    outProj m0 s (execMovi c v s) := by
  refine outProj_mono hm0 ?_
  unfold execMovi
  try dsimp -proj only
  repeat' first
    | (with_reducible refine outProj_next ?_)
    | (with_reducible refine vRun_frame (by decide) _ _ _ _ ?_)
    | simp +decide only [↓writeLanes_frame, ↓proj_ite, ↓proj_iteP, ite_self]
    | ((with_reducible refine proj_mk_trans ?_ ?_); · ((fail_if_success with_reducible rfl); rfl))
    | (with_reducible intro _)
    | split

theorem execBcast_frame {m0 : Nat} (hm0 : m0 &&& 2952790020 = 2952790020) (c : CoreId) (v : VOps) (s : State) :
    outProj m0 s (execBcast c v s) := by
  refine outProj_mono hm0 ?_
  unfold execBcast
  try dsimp -proj only
  repeat' first
    | (with_reducible refine outProj_next ?_)
    | (with_reducible refine vRun_frame (by decide) _ _ _ _ ?_)
    | simp +decide only [↓writeLanes_frame, ↓proj_ite, ↓proj_iteP, ite_self]
    | ((with_reducible refine proj_mk_trans ?_ ?_); · ((fail_if_success with_reducible rfl); rfl))
    | (with_reducible intro _)
    | split

theorem execIota_frame {m0 : Nat} (hm0 : m0 &&& 2952790020 = 2952790020) (c : CoreId) (v : VOps) (s : State) :
    outProj m0 s (execIota c v s) := by
  refine outProj_mono hm0 ?_
  unfold execIota
  try dsimp -proj only
  repeat' first
    | (with_reducible refine outProj_next ?_)
    | (with_reducible refine vRun_frame (by decide) _ _ _ _ ?_)
    | simp +decide only [↓writeLanes_frame, ↓proj_ite, ↓proj_iteP, ite_self]
    | ((with_reducible refine proj_mk_trans ?_ ?_); · ((fail_if_success with_reducible rfl); rfl))
    | (with_reducible intro _)
    | split

theorem loadInstr_frame {m0 : Nat} (hm0 : m0 &&& 2952790020 = 2952790020) (c : CoreId) (v : VOps) (ok : Bool) (addr : Nat → Nat) (s : State) :
    outProj m0 s (loadInstr c v ok addr s) := by
  refine outProj_mono hm0 ?_
  unfold loadInstr
  try dsimp -proj only
  repeat' first
    | (with_reducible exact outProj_fault)
    | (with_reducible exact outProj_refused)
    | (with_reducible refine outProj_next ?_)
    | (with_reducible refine ite_projR ?_ ?_)
    | (with_reducible refine vRun_frame (by decide) _ _ _ _ ?_)
    | simp +decide only [↓setVFlags_frame, ↓setCore_frame, ↓proj_ite, ↓proj_iteP, ite_self]
    | ((with_reducible refine proj_mk_trans ?_ ?_); · ((fail_if_success with_reducible rfl); rfl))
    | (with_reducible intro _)
    | split

theorem storeInstr_frame {m0 : Nat} (hm0 : m0 &&& 2952790020 = 2952790020) (c : CoreId) (v : VOps) (ok : Bool) (addr : Nat → Nat) (s : State) :
    outProj m0 s (storeInstr c v ok addr s) := by
  refine outProj_mono hm0 ?_
  unfold storeInstr
  try dsimp -proj only
  repeat' first
    | (with_reducible exact outProj_fault)
    | (with_reducible exact outProj_refused)
    | (with_reducible refine outProj_next ?_)
    | (with_reducible refine ite_projR ?_ ?_)
    | (with_reducible refine vRun_frame (by decide) _ _ _ _ ?_)
    | simp +decide only [↓setVFlags_frame, ↓setCore_frame, ↓proj_ite, ↓proj_iteP, ite_self]
    | ((with_reducible refine proj_mk_trans ?_ ?_); · ((fail_if_success with_reducible rfl); rfl))
    | (with_reducible intro _)
    | split

theorem execVld_frame {m0 : Nat} (hm0 : m0 &&& 2952790020 = 2952790020) (c : CoreId) (v : VOps) (s : State) :
    outProj m0 s (execVld c v s) := by
  refine outProj_mono hm0 ?_
  unfold execVld
  try dsimp -proj only
  repeat' first
    | (with_reducible refine outProj_next ?_)
    | (with_reducible exact loadInstr_frame (by decide) _ _ _ _ _)
    | simp +decide only [↓proj_ite, ↓proj_iteP, ite_self]
    | ((with_reducible refine proj_mk_trans ?_ ?_); · ((fail_if_success with_reducible rfl); rfl))
    | split

theorem execVst_frame {m0 : Nat} (hm0 : m0 &&& 2952790020 = 2952790020) (c : CoreId) (v : VOps) (s : State) :
    outProj m0 s (execVst c v s) := by
  refine outProj_mono hm0 ?_
  unfold execVst
  try dsimp -proj only
  repeat' first
    | (with_reducible refine outProj_next ?_)
    | (with_reducible exact storeInstr_frame (by decide) _ _ _ _ _)
    | simp +decide only [↓proj_ite, ↓proj_iteP, ite_self]
    | ((with_reducible refine proj_mk_trans ?_ ?_); · ((fail_if_success with_reducible rfl); rfl))
    | split

theorem execVlds_frame {m0 : Nat} (hm0 : m0 &&& 2952790020 = 2952790020) (c : CoreId) (v : VOps) (s : State) :
    outProj m0 s (execVlds c v s) := by
  refine outProj_mono hm0 ?_
  unfold execVlds
  try dsimp -proj only
  repeat' first
    | (with_reducible refine outProj_next ?_)
    | (with_reducible exact loadInstr_frame (by decide) _ _ _ _ _)
    | simp +decide only [↓proj_ite, ↓proj_iteP, ite_self]
    | ((with_reducible refine proj_mk_trans ?_ ?_); · ((fail_if_success with_reducible rfl); rfl))
    | split

theorem execVsts_frame {m0 : Nat} (hm0 : m0 &&& 2952790020 = 2952790020) (c : CoreId) (v : VOps) (s : State) :
    outProj m0 s (execVsts c v s) := by
  refine outProj_mono hm0 ?_
  unfold execVsts
  try dsimp -proj only
  repeat' first
    | (with_reducible refine outProj_next ?_)
    | (with_reducible exact storeInstr_frame (by decide) _ _ _ _ _)
    | simp +decide only [↓proj_ite, ↓proj_iteP, ite_self]
    | ((with_reducible refine proj_mk_trans ?_ ?_); · ((fail_if_success with_reducible rfl); rfl))
    | split

theorem execPerm_frame {m0 : Nat} (hm0 : m0 &&& 2952790020 = 2952790020) (c : CoreId) (v : VOps) (s : State) :
    outProj m0 s (execPerm c v s) := by
  refine outProj_mono hm0 ?_
  unfold execPerm
  try dsimp -proj only
  repeat' first
    | (with_reducible refine outProj_next ?_)
    | (with_reducible refine ite_projR ?_ ?_)
    | (with_reducible refine vRun_frame (by decide) _ _ _ _ ?_)
    | simp +decide only [↓setVFlags_frame, ↓setCore_frame, ↓proj_ite, ↓proj_iteP, ite_self]
    | ((with_reducible refine proj_mk_trans ?_ ?_); · ((fail_if_success with_reducible rfl); rfl))
    | (with_reducible intro _)
    | split

theorem execCompress_frame {m0 : Nat} (hm0 : m0 &&& 2952790020 = 2952790020) (c : CoreId) (v : VOps) (s : State) :
    outProj m0 s (execCompress c v s) := by
  refine outProj_mono hm0 ?_
  unfold execCompress
  try dsimp -proj only
  repeat' first
    | (with_reducible refine outProj_next ?_)
    | (with_reducible refine ite_projR ?_ ?_)
    | (with_reducible refine vRun_frame (by decide) _ _ _ _ ?_)
    | simp +decide only [↓setVFlags_frame, ↓setCore_frame, ↓proj_ite, ↓proj_iteP, ite_self]
    | ((with_reducible refine proj_mk_trans ?_ ?_); · ((fail_if_success with_reducible rfl); rfl))
    | (with_reducible intro _)
    | split

theorem execExpand_frame {m0 : Nat} (hm0 : m0 &&& 2952790020 = 2952790020) (c : CoreId) (v : VOps) (s : State) :
    outProj m0 s (execExpand c v s) := by
  refine outProj_mono hm0 ?_
  unfold execExpand
  try dsimp -proj only
  repeat' first
    | (with_reducible refine outProj_next ?_)
    | (with_reducible refine ite_projR ?_ ?_)
    | (with_reducible refine vRun_frame (by decide) _ _ _ _ ?_)
    | simp +decide only [↓setVFlags_frame, ↓setCore_frame, ↓proj_ite, ↓proj_iteP, ite_self]
    | ((with_reducible refine proj_mk_trans ?_ ?_); · ((fail_if_success with_reducible rfl); rfl))
    | (with_reducible intro _)
    | split

theorem redLanes_frame {m0 : Nat} (hm0 : m0 &&& 2952790020 = 2952790020) (c : CoreId) (v : VOps) (f : VTy → List (W32 × Bool) → RedOut) (idn : VTy → W32) (arg : Bool) (s : State) :
    proj m0 (redLanes c v f idn arg s) = proj m0 s := by
  refine proj_mono hm0 ?_
  unfold redLanes
  try dsimp -proj only
  repeat' first
    | simp +decide only [↓setCore_frame, ↓incCnt_frame, ↓setVFlags_frame, ↓proj_ite, ↓proj_iteP, ite_self]
    | ((with_reducible refine proj_mk_trans ?_ ?_); · ((fail_if_success with_reducible rfl); rfl))
    | split

theorem redInstr_frame {m0 : Nat} (hm0 : m0 &&& 2952790020 = 2952790020) (c : CoreId) (v : VOps) (f : VTy → List (W32 × Bool) → RedOut) (idn : VTy → W32) (arg : Bool) (s : State) :
    outProj m0 s (redInstr c v f idn arg s) := by
  refine outProj_mono hm0 ?_
  unfold redInstr
  try dsimp -proj only
  repeat' first
    | (with_reducible refine outProj_next ?_)
    | (with_reducible refine vRun_frame (by decide) _ _ _ _ ?_)
    | simp +decide only [↓redLanes_frame, ↓proj_ite, ↓proj_iteP, ite_self]
    | ((with_reducible refine proj_mk_trans ?_ ?_); · ((fail_if_success with_reducible rfl); rfl))
    | (with_reducible intro _)
    | split

theorem sumInstr_frame {m0 : Nat} (hm0 : m0 &&& 2952790052 = 2952790052) (c : CoreId) (v : VOps) (f : VTy → List (W32 × Bool) → RedOut) (s : State) :
    outProj m0 s (sumInstr c v f s) := by
  refine outProj_mono hm0 ?_
  unfold sumInstr
  try dsimp -proj only
  repeat' first
    | (with_reducible refine outProj_next ?_)
    | (with_reducible refine withResidue_frame (by decide) _ _ _ _ _ ?_)
    | simp +decide only [↓redLanes_frame, ↓proj_ite, ↓proj_iteP, ite_self]
    | ((with_reducible refine proj_mk_trans ?_ ?_); · ((fail_if_success with_reducible rfl); rfl))
    | (with_reducible intro _)
    | split

theorem execRsum_frame {m0 : Nat} (hm0 : m0 &&& 2952790052 = 2952790052) (c : CoreId) (v : VOps) (s : State) :
    outProj m0 s (execRsum c v s) := by
  refine outProj_mono hm0 ?_
  unfold execRsum
  try dsimp -proj only
  repeat' first
    | (with_reducible refine outProj_next ?_)
    | (with_reducible exact sumInstr_frame (by decide) _ _ _ _)
    | simp +decide only [↓proj_ite, ↓proj_iteP, ite_self]
    | ((with_reducible refine proj_mk_trans ?_ ?_); · ((fail_if_success with_reducible rfl); rfl))
    | split

theorem execRmean_frame {m0 : Nat} (hm0 : m0 &&& 2952790052 = 2952790052) (c : CoreId) (v : VOps) (s : State) :
    outProj m0 s (execRmean c v s) := by
  refine outProj_mono hm0 ?_
  unfold execRmean
  try dsimp -proj only
  repeat' first
    | (with_reducible refine outProj_next ?_)
    | (with_reducible exact sumInstr_frame (by decide) _ _ _ _)
    | simp +decide only [↓proj_ite, ↓proj_iteP, ite_self]
    | ((with_reducible refine proj_mk_trans ?_ ?_); · ((fail_if_success with_reducible rfl); rfl))
    | split

theorem execRmax_frame {m0 : Nat} (hm0 : m0 &&& 2952790020 = 2952790020) (c : CoreId) (v : VOps) (s : State) :
    outProj m0 s (execRmax c v s) := by
  refine outProj_mono hm0 ?_
  unfold execRmax
  try dsimp -proj only
  repeat' first
    | (with_reducible refine outProj_next ?_)
    | (with_reducible exact redInstr_frame (by decide) _ _ _ _ _ _)
    | simp +decide only [↓proj_ite, ↓proj_iteP, ite_self]
    | ((with_reducible refine proj_mk_trans ?_ ?_); · ((fail_if_success with_reducible rfl); rfl))
    | split

theorem execRmin_frame {m0 : Nat} (hm0 : m0 &&& 2952790020 = 2952790020) (c : CoreId) (v : VOps) (s : State) :
    outProj m0 s (execRmin c v s) := by
  refine outProj_mono hm0 ?_
  unfold execRmin
  try dsimp -proj only
  repeat' first
    | (with_reducible refine outProj_next ?_)
    | (with_reducible exact redInstr_frame (by decide) _ _ _ _ _ _)
    | simp +decide only [↓proj_ite, ↓proj_iteP, ite_self]
    | ((with_reducible refine proj_mk_trans ?_ ?_); · ((fail_if_success with_reducible rfl); rfl))
    | split

theorem execRargmax_frame {m0 : Nat} (hm0 : m0 &&& 2952790020 = 2952790020) (c : CoreId) (v : VOps) (s : State) :
    outProj m0 s (execRargmax c v s) := by
  refine outProj_mono hm0 ?_
  unfold execRargmax
  try dsimp -proj only
  repeat' first
    | (with_reducible refine outProj_next ?_)
    | (with_reducible exact redInstr_frame (by decide) _ _ _ _ _ _)
    | simp +decide only [↓proj_ite, ↓proj_iteP, ite_self]
    | ((with_reducible refine proj_mk_trans ?_ ?_); · ((fail_if_success with_reducible rfl); rfl))
    | split

theorem execRargmin_frame {m0 : Nat} (hm0 : m0 &&& 2952790020 = 2952790020) (c : CoreId) (v : VOps) (s : State) :
    outProj m0 s (execRargmin c v s) := by
  refine outProj_mono hm0 ?_
  unfold execRargmin
  try dsimp -proj only
  repeat' first
    | (with_reducible refine outProj_next ?_)
    | (with_reducible exact redInstr_frame (by decide) _ _ _ _ _ _)
    | simp +decide only [↓proj_ite, ↓proj_iteP, ite_self]
    | ((with_reducible refine proj_mk_trans ?_ ?_); · ((fail_if_success with_reducible rfl); rfl))
    | split

theorem writeTopk_frame {m0 : Nat} (hm0 : m0 &&& 2952790020 = 2952790020) (c : CoreId) (v : VOps) (es : List (W32 × Int)) (poison : Bool) (empty : Bool) (s : State) :
    proj m0 (writeTopk c v es poison empty s) = proj m0 s := by
  refine proj_mono hm0 ?_
  unfold writeTopk
  try dsimp -proj only
  repeat' first
    | simp +decide only [↓setCore_frame, ↓incCnt_frame, ↓setVFlags_frame, ↓proj_ite, ↓proj_iteP, ite_self]
    | ((with_reducible refine proj_mk_trans ?_ ?_); · ((fail_if_success with_reducible rfl); rfl))
    | split

theorem execTopk_frame {m0 : Nat} (hm0 : m0 &&& 2952790020 = 2952790020) (c : CoreId) (v : VOps) (s : State) :
    outProj m0 s (execTopk c v s) := by
  refine outProj_mono hm0 ?_
  unfold execTopk
  try dsimp -proj only
  repeat' first
    | (with_reducible refine outProj_next ?_)
    | (with_reducible refine vRun_frame (by decide) _ _ _ _ ?_)
    | simp +decide only [↓writeTopk_frame, ↓proj_ite, ↓proj_iteP, ite_self]
    | ((with_reducible refine proj_mk_trans ?_ ?_); · ((fail_if_success with_reducible rfl); rfl))
    | (with_reducible intro _)
    | split

theorem execTmerge_frame {m0 : Nat} (hm0 : m0 &&& 2952790020 = 2952790020) (c : CoreId) (v : VOps) (s : State) :
    outProj m0 s (execTmerge c v s) := by
  refine outProj_mono hm0 ?_
  unfold execTmerge
  try dsimp -proj only
  repeat' first
    | (with_reducible refine outProj_next ?_)
    | (with_reducible refine vRun_frame (by decide) _ _ _ _ ?_)
    | simp +decide only [↓writeTopk_frame, ↓proj_ite, ↓proj_iteP, ite_self]
    | ((with_reducible refine proj_mk_trans ?_ ?_); · ((fail_if_success with_reducible rfl); rfl))
    | (with_reducible intro _)
    | split

theorem transInstr_frame {m0 : Nat} (hm0 : m0 &&& 2952790052 = 2952790052) (c : CoreId) (v : VOps) (fn : TransFn) (s : State) :
    outProj m0 s (transInstr c v fn s) := by
  refine outProj_mono hm0 ?_
  unfold transInstr
  try dsimp -proj only
  repeat' first
    | (with_reducible refine outProj_next ?_)
    | (with_reducible refine withResidue_frame (by decide) _ _ _ _ _ ?_)
    | simp +decide only [↓writeLanes_frame, ↓proj_ite, ↓proj_iteP, ite_self]
    | ((with_reducible refine proj_mk_trans ?_ ?_); · ((fail_if_success with_reducible rfl); rfl))
    | (with_reducible intro _)
    | split

theorem execExp_frame {m0 : Nat} (hm0 : m0 &&& 2952790052 = 2952790052) (c : CoreId) (v : VOps) (s : State) :
    outProj m0 s (execExp c v s) := by
  refine outProj_mono hm0 ?_
  unfold execExp
  try dsimp -proj only
  repeat' first
    | (with_reducible refine outProj_next ?_)
    | (with_reducible exact transInstr_frame (by decide) _ _ _ _)
    | simp +decide only [↓proj_ite, ↓proj_iteP, ite_self]
    | ((with_reducible refine proj_mk_trans ?_ ?_); · ((fail_if_success with_reducible rfl); rfl))
    | split

theorem execLog_frame {m0 : Nat} (hm0 : m0 &&& 2952790052 = 2952790052) (c : CoreId) (v : VOps) (s : State) :
    outProj m0 s (execLog c v s) := by
  refine outProj_mono hm0 ?_
  unfold execLog
  try dsimp -proj only
  repeat' first
    | (with_reducible refine outProj_next ?_)
    | (with_reducible exact transInstr_frame (by decide) _ _ _ _)
    | simp +decide only [↓proj_ite, ↓proj_iteP, ite_self]
    | ((with_reducible refine proj_mk_trans ?_ ?_); · ((fail_if_success with_reducible rfl); rfl))
    | split

theorem execRsqrt_frame {m0 : Nat} (hm0 : m0 &&& 2952790052 = 2952790052) (c : CoreId) (v : VOps) (s : State) :
    outProj m0 s (execRsqrt c v s) := by
  refine outProj_mono hm0 ?_
  unfold execRsqrt
  try dsimp -proj only
  repeat' first
    | (with_reducible refine outProj_next ?_)
    | (with_reducible exact transInstr_frame (by decide) _ _ _ _)
    | simp +decide only [↓proj_ite, ↓proj_iteP, ite_self]
    | ((with_reducible refine proj_mk_trans ?_ ?_); · ((fail_if_success with_reducible rfl); rfl))
    | split

theorem execTanh_frame {m0 : Nat} (hm0 : m0 &&& 2952790052 = 2952790052) (c : CoreId) (v : VOps) (s : State) :
    outProj m0 s (execTanh c v s) := by
  refine outProj_mono hm0 ?_
  unfold execTanh
  try dsimp -proj only
  repeat' first
    | (with_reducible refine outProj_next ?_)
    | (with_reducible exact transInstr_frame (by decide) _ _ _ _)
    | simp +decide only [↓proj_ite, ↓proj_iteP, ite_self]
    | ((with_reducible refine proj_mk_trans ?_ ?_); · ((fail_if_success with_reducible rfl); rfl))
    | split

theorem execSigm_frame {m0 : Nat} (hm0 : m0 &&& 2952790052 = 2952790052) (c : CoreId) (v : VOps) (s : State) :
    outProj m0 s (execSigm c v s) := by
  refine outProj_mono hm0 ?_
  unfold execSigm
  try dsimp -proj only
  repeat' first
    | (with_reducible refine outProj_next ?_)
    | (with_reducible exact transInstr_frame (by decide) _ _ _ _)
    | simp +decide only [↓proj_ite, ↓proj_iteP, ite_self]
    | ((with_reducible refine proj_mk_trans ?_ ?_); · ((fail_if_success with_reducible rfl); rfl))
    | split

theorem execGelu_frame {m0 : Nat} (hm0 : m0 &&& 2952790052 = 2952790052) (c : CoreId) (v : VOps) (s : State) :
    outProj m0 s (execGelu c v s) := by
  refine outProj_mono hm0 ?_
  unfold execGelu
  try dsimp -proj only
  repeat' first
    | (with_reducible refine outProj_next ?_)
    | (with_reducible exact transInstr_frame (by decide) _ _ _ _)
    | simp +decide only [↓proj_ite, ↓proj_iteP, ite_self]
    | ((with_reducible refine proj_mk_trans ?_ ?_); · ((fail_if_success with_reducible rfl); rfl))
    | split

theorem execResidueStrikeClear_frame {m0 : Nat} (hm0 : m0 &&& 4 = 4) (c : CoreId) (s : State) :
    outProj m0 s (execResidueStrikeClear c s) := by
  refine outProj_mono hm0 ?_
  unfold execResidueStrikeClear
  try dsimp -proj only
  repeat' first
    | (with_reducible refine outProj_next ?_)
    | (with_reducible refine ite_projR ?_ ?_)
    | simp +decide only [↓setCore_frame, ↓proj_ite, ↓proj_iteP, ite_self]
    | ((with_reducible refine proj_mk_trans ?_ ?_); · ((fail_if_success with_reducible rfl); rfl))
    | split

theorem execCvset_frame {m0 : Nat} (hm0 : m0 &&& 536870916 = 536870916) (c : CoreId) (v : VOps) (s : State) :
    outProj m0 s (execCvset c v s) := by
  refine outProj_mono hm0 ?_
  unfold execCvset
  try dsimp -proj only
  repeat' first
    | (with_reducible refine outProj_next ?_)
    | (with_reducible refine vRun_frame (by decide) _ _ _ _ ?_)
    | simp +decide only [↓modCore_frame, ↓proj_ite, ↓proj_iteP, ite_self]
    | ((with_reducible refine proj_mk_trans ?_ ?_); · ((fail_if_success with_reducible rfl); rfl))
    | (with_reducible intro _)
    | split

theorem execSetcc_frame {m0 : Nat} (hm0 : m0 &&& 536870916 = 536870916) (c : CoreId) (v : VOps) (s : State) :
    outProj m0 s (execSetcc c v s) := by
  refine outProj_mono hm0 ?_
  unfold execSetcc
  try dsimp -proj only
  repeat' first
    | (with_reducible refine outProj_next ?_)
    | (with_reducible refine vRun_frame (by decide) _ _ _ _ ?_)
    | simp +decide only [↓modCore_frame, ↓proj_ite, ↓proj_iteP, ite_self]
    | ((with_reducible refine proj_mk_trans ?_ ?_); · ((fail_if_success with_reducible rfl); rfl))
    | (with_reducible intro _)
    | split

theorem execSize_frame {m0 : Nat} (hm0 : m0 &&& 2952790020 = 2952790020) (c : CoreId) (v : VOps) (s : State) :
    outProj m0 s (execSize c v s) := by
  refine outProj_mono hm0 ?_
  unfold execSize
  try dsimp -proj only
  repeat' first
    | (with_reducible refine outProj_next ?_)
    | (with_reducible refine vRun_frame (by decide) _ _ _ _ ?_)
    | simp +decide only [↓setVFlags_frame, ↓setCore_frame, ↓proj_ite, ↓proj_iteP, ite_self]
    | ((with_reducible refine proj_mk_trans ?_ ?_); · ((fail_if_success with_reducible rfl); rfl))
    | (with_reducible intro _)
    | split

theorem execCvtn_frame {m0 : Nat} (hm0 : m0 &&& 2952790020 = 2952790020) (c : CoreId) (v : VOps) (s : State) :
    outProj m0 s (execCvtn c v s) := by
  refine outProj_mono hm0 ?_
  unfold execCvtn
  try dsimp -proj only
  repeat' first
    | (with_reducible exact outProj_fault)
    | (with_reducible exact outProj_refused)
    | (with_reducible refine outProj_next ?_)
    | (with_reducible refine ite_projR ?_ ?_)
    | (with_reducible refine vRun_frame (by decide) _ _ _ _ ?_)
    | simp +decide only [↓setCore_frame, ↓addCnt_frame, ↓setVFlags_frame, ↓proj_ite, ↓proj_iteP, ite_self]
    | (with_reducible refine (foldl_proj _ _ ?_ _).trans ?_; intro _ _)
    | (with_reducible refine (foldl_projP _ _ ?_ _).trans ?_; intro _ _)
    | ((with_reducible refine proj_mk_trans ?_ ?_); · ((fail_if_success with_reducible rfl); rfl))
    | (with_reducible intro _)
    | split

theorem execSide_frame {m0 : Nat} (hm0 : m0 &&& 2952790020 = 2952790020) (c : CoreId) (v : VOps) (s : State) :
    outProj m0 s (execSide c v s) := by
  refine outProj_mono hm0 ?_
  unfold execSide
  try dsimp -proj only
  repeat' first
    | (with_reducible refine outProj_next ?_)
    | (with_reducible refine ite_projR ?_ ?_)
    | (with_reducible refine vRun_frame (by decide) _ _ _ _ ?_)
    | simp +decide only [↓setVFlags_frame, ↓setCore_frame, ↓proj_ite, ↓proj_iteP, ite_self]
    | ((with_reducible refine proj_mk_trans ?_ ?_); · ((fail_if_success with_reducible rfl); rfl))
    | (with_reducible intro _)
    | split

theorem execDcvn_frame {m0 : Nat} (hm0 : m0 &&& 2952790052 = 2952790052) (c : CoreId) (v : VOps) (s : State) :
    outProj m0 s (execDcvn c v s) := by
  refine outProj_mono hm0 ?_
  unfold execDcvn
  try dsimp -proj only
  repeat' first
    | (with_reducible exact outProj_fault)
    | (with_reducible exact outProj_refused)
    | (with_reducible refine outProj_next ?_)
    | (with_reducible refine ite_projR ?_ ?_)
    | (with_reducible refine vRun_frame (by decide) _ _ _ _ ?_)
    | simp +decide only [↓setCore_frame, ↓reportWith_frame, ↓setVFlags_frame, ↓proj_ite, ↓proj_iteP, ite_self]
    | (with_reducible refine (foldl_proj _ _ ?_ _).trans ?_; intro _ _)
    | (with_reducible refine (foldl_projP _ _ ?_ _).trans ?_; intro _ _)
    | ((with_reducible refine proj_mk_trans ?_ ?_); · ((fail_if_success with_reducible rfl); rfl))
    | (with_reducible intro _)
    | split

theorem execCfl_frame {m0 : Nat} (hm0 : m0 &&& 536870932 = 536870932) (c : CoreId) (v : VOps) (s : State) :
    outProj m0 s (execCfl c v s) := by
  refine outProj_mono hm0 ?_
  unfold execCfl
  try dsimp -proj only
  repeat' first
    | (with_reducible refine outProj_next ?_)
    | (with_reducible refine vRun_frame (by decide) _ _ _ _ ?_)
    | simp +decide only [↓setCore_frame, ↓modDie_frame, ↓proj_ite, ↓proj_iteP, ite_self]
    | ((with_reducible refine proj_mk_trans ?_ ?_); · ((fail_if_success with_reducible rfl); rfl))
    | (with_reducible intro _)
    | split

theorem applyRaises_frame {m0 : Nat} (hm0 : m0 &&& 192 = 192) (s : State) : proj m0 (applyRaises s) = proj m0 s := by
  refine proj_mono hm0 ?_
  unfold applyRaises
  try dsimp -proj only
  repeat' first
    | simp +decide only [↓proj_ite, ↓proj_iteP, ite_self]
    | (with_reducible refine (foldl_proj _ _ ?_ _).trans ?_; intro _ _)
    | (with_reducible refine (foldl_projP _ _ ?_ _).trans ?_; intro _ _)
    | ((with_reducible refine proj_mk_trans ?_ ?_); · ((fail_if_success with_reducible rfl); rfl))
    | split

theorem loadLines_frame {m0 : Nat} (hm0 : m0 &&& 3020079136 = 3020079136) (c : CoreId) (sp : MemSpace) (l : Nat) (n : Nat) (s : State) :
    proj m0 (loadLines c sp l n s).2 = proj m0 s := by
  refine proj_mono hm0 ?_
  unfold loadLines
  try dsimp -proj only
  repeat' first
    | simp +decide only [↓readLines_frame, ↓proj_ite, ↓proj_iteP, ite_self]
    | ((with_reducible refine proj_mk_trans ?_ ?_); · ((fail_if_success with_reducible rfl); rfl))
    | (with_reducible refine (snd_eq (by assumption) (readLines_frame (by decide) _ _ _)).trans ?_)
    | split

theorem storeLines_frame {m0 : Nat} (hm0 : m0 &&& 3019948088 = 3019948088) (c : CoreId) (sp : MemSpace) (l : Nat) (ls : List (Bytes × Bool)) (s : State) :
    proj m0 (storeLines c sp l ls s) = proj m0 s := by
  refine proj_mono hm0 ?_
  unfold storeLines
  try dsimp -proj only
  repeat' first
    | simp +decide only [↓unitLines_frame, ↓modDie_frame, ↓modCluster_frame, ↓proj_ite, ↓proj_iteP, ite_self]
    | ((with_reducible refine proj_mk_trans ?_ ?_); · ((fail_if_success with_reducible rfl); rfl))
    | split

theorem regenPoison_frame {m0 : Nat} (hm0 : m0 &&& 2147483680 = 2147483680) (c : CoreId) (ctx : CtxId) (h : CmdHdr) (lines : List Nat) (s : State) :
    proj m0 (regenPoison c ctx h lines s) = proj m0 s := by
  refine proj_mono hm0 ?_
  unfold regenPoison
  try dsimp -proj only
  repeat' first
    | simp +decide only [↓markRelaunch_frame, ↓reportWith_frame, ↓proj_ite, ↓proj_iteP, ite_self]
    | ((with_reducible refine proj_mk_trans ?_ ?_); · ((fail_if_success with_reducible rfl); rfl))
    | split

theorem execLdt_frame {m0 : Nat} (hm0 : m0 &&& 3020079396 = 3020079396) (c : CoreId) (ctx : CtxId) (op : LdtOp) (errs : List (Nat × LineErr)) (s : State) :
    outProj m0 s (execLdt c ctx op errs s) := by
  refine outProj_mono hm0 ?_
  unfold execLdt
  try dsimp -proj only
  repeat' first
    | (with_reducible exact outProj_fault)
    | (with_reducible exact outProj_refused)
    | (with_reducible refine outProj_next ?_)
    | (with_reducible refine ite_projR ?_ ?_)
    | simp +decide only [↓traceStart_frame, ↓ctxIssued_frame, ↓loadLines_frame, ↓putErrs_frame, ↓setSticky_frame, ↓regenPoison_frame, ↓modCore_frame, ↓traceEnd_frame, ↓ctxDone_frame, ↓proj_ite, ↓proj_iteP, ite_self]
    | ((with_reducible refine proj_mk_trans ?_ ?_); · ((fail_if_success with_reducible rfl); rfl))
    | (with_reducible refine (snd_eq (by assumption) (loadLines_frame (by decide) _ _ _ _ _)).trans ?_)
    | split

theorem execStt_frame {m0 : Nat} (hm0 : m0 &&& 3019948348 = 3019948348) (c : CoreId) (ctx : CtxId) (op : SttOp) (s : State) :
    outProj m0 s (execStt c ctx op s) := by
  refine outProj_mono hm0 ?_
  unfold execStt
  try dsimp -proj only
  repeat' first
    | (with_reducible exact outProj_fault)
    | (with_reducible exact outProj_refused)
    | (with_reducible refine outProj_next ?_)
    | (with_reducible refine ite_projR ?_ ?_)
    | simp +decide only [↓traceStart_frame, ↓ctxIssued_frame, ↓storeLines_frame, ↓traceEnd_frame, ↓ctxDone_frame, ↓proj_ite, ↓proj_iteP, ite_self]
    | ((with_reducible refine proj_mk_trans ?_ ?_); · ((fail_if_success with_reducible rfl); rfl))
    | split

theorem setTbl_frame {m0 : Nat} (hm0 : m0 &&& 524288 = 524288) (t : Nat) (x : Tbl) (s : State) :
    proj m0 (setTbl t x s) = proj m0 s := by
  refine proj_mono hm0 ?_
  unfold setTbl
  try dsimp -proj only
  repeat' first
    | simp +decide only [↓proj_ite, ↓proj_iteP, ite_self]
    | ((with_reducible refine proj_mk_trans ?_ ?_); · ((fail_if_success with_reducible rfl); rfl))
    | split

theorem modTbl_frame {m0 : Nat} (hm0 : m0 &&& 524288 = 524288) (t : Nat) (f : Tbl → Tbl) (s : State) :
    proj m0 (modTbl t f s) = proj m0 s := by
  refine proj_mono hm0 ?_
  unfold modTbl
  try dsimp -proj only
  repeat' first
    | simp +decide only [↓setTbl_frame, ↓proj_ite, ↓proj_iteP, ite_self]
    | ((with_reducible refine proj_mk_trans ?_ ?_); · ((fail_if_success with_reducible rfl); rfl))
    | split

theorem readBucket_frame {m0 : Nat} (hm0 : m0 &&& 3020079136 = 3020079136) (d : TblDesc) (b : Nat) (s : State) :
    proj m0 (readBucket d b s).2 = proj m0 s := by
  refine proj_mono hm0 ?_
  unfold readBucket
  try dsimp -proj only
  repeat' first
    | simp +decide only [↓readLine_frame, ↓proj_ite, ↓proj_iteP, ite_self]
    | ((with_reducible refine proj_mk_trans ?_ ?_); · ((fail_if_success with_reducible rfl); rfl))
    | split

theorem bucketRd_frame {m0 : Nat} (hm0 : m0 &&& 3020079136 = 3020079136) (d : TblDesc) (b : Nat) (s : State) :
    proj m0 (bucketRd d b s).2 = proj m0 s := by
  refine proj_mono hm0 ?_
  unfold bucketRd
  try dsimp -proj only
  repeat' first
    | simp +decide only [↓readBucket_frame, ↓proj_ite, ↓proj_iteP, ite_self]
    | ((with_reducible refine proj_mk_trans ?_ ?_); · ((fail_if_success with_reducible rfl); rfl))
    | split

theorem putSlot_frame {m0 : Nat} (hm0 : m0 &&& 3020603424 = 3020603424) (t : Nat) (b : Nat) (sl : Nat) (e : Entry) (s : State) :
    proj m0 (putSlot t b sl e s) = proj m0 s := by
  refine proj_mono hm0 ?_
  unfold putSlot
  try dsimp -proj only
  repeat' first
    | simp +decide only [↓bucketRd_frame, ↓writeLine_frame, ↓modTbl_frame, ↓proj_ite, ↓proj_iteP, ite_self]
    | ((with_reducible refine proj_mk_trans ?_ ?_); · ((fail_if_success with_reducible rfl); rfl))
    | (with_reducible refine (snd_eq (by assumption) (bucketRd_frame (by decide) _ _ _)).trans ?_)
    | split

theorem touchKey_frame {m0 : Nat} (hm0 : m0 &&& 3020603424 = 3020603424) (t : Nat) (ok : Entry → Bool) (key : Nat) (s : State) :
    proj m0 (touchKey t ok key s) = proj m0 s := by
  refine proj_mono hm0 ?_
  unfold touchKey
  try dsimp -proj only
  repeat' first
    | simp +decide only [↓bucketRd_frame, ↓putSlot_frame, ↓proj_ite, ↓proj_iteP, ite_self]
    | (with_reducible refine (foldl_proj _ _ ?_ _).trans ?_; intro _ _)
    | (with_reducible refine (foldl_projP _ _ ?_ _).trans ?_; intro _ _)
    | ((with_reducible refine proj_mk_trans ?_ ?_); · ((fail_if_success with_reducible rfl); rfl))
    | (with_reducible refine (snd_eq (by assumption) (bucketRd_frame (by decide) _ _ _)).trans ?_)
    | split

theorem findKey_frame {m0 : Nat} (hm0 : m0 &&& 3020079136 = 3020079136) (d : TblDesc) (ok : Entry → Bool) (key : Nat) (s : State) :
    proj m0 (findKey d ok key s).2 = proj m0 s := by
  refine proj_mono hm0 ?_
  unfold findKey
  try dsimp -proj only
  repeat' first
    | simp +decide only [↓bucketRd_frame, ↓proj_ite, ↓proj_iteP, ite_self]
    | ((with_reducible refine proj_mk_trans ?_ ?_); · ((fail_if_success with_reducible rfl); rfl))
    | (with_reducible refine (snd_eq (by assumption) (bucketRd_frame (by decide) _ _ _)).trans ?_)
    | split

theorem raiseEpoch_frame {m0 : Nat} (hm0 : m0 &&& 557056 = 557056) (t : Nat) (s : State) :
    proj m0 (raiseEpoch t s) = proj m0 s := by
  refine proj_mono hm0 ?_
  unfold raiseEpoch
  try dsimp -proj only
  repeat' first
    | simp +decide only [↓setNlu_frame, ↓setTbl_frame, ↓proj_ite, ↓proj_iteP, ite_self]
    | (with_reducible refine (foldl_proj _ _ ?_ _).trans ?_; intro _ _)
    | (with_reducible refine (foldl_projP _ _ ?_ _).trans ?_; intro _ _)
    | ((with_reducible refine proj_mk_trans ?_ ?_); · ((fail_if_success with_reducible rfl); rfl))
    | split

theorem takeEpoch_frame {m0 : Nat} (hm0 : m0 &&& 32768 = 32768) (u : Nat) (t : Nat) (s : State) :
    proj m0 (takeEpoch u t s) = proj m0 s := by
  refine proj_mono hm0 ?_
  unfold takeEpoch
  try dsimp -proj only
  repeat' first
    | simp +decide only [↓setNlu_frame, ↓proj_ite, ↓proj_iteP, ite_self]
    | ((with_reducible refine proj_mk_trans ?_ ?_); · ((fail_if_success with_reducible rfl); rfl))
    | split

theorem makeMove_frame {m0 : Nat} (hm0 : m0 &&& 3020603424 = 3020603424) (t : Nat) (m : Move) (next : Option Move) (e : Entry) (s : State) :
    proj m0 (makeMove t m next e s) = proj m0 s := by
  refine proj_mono hm0 ?_
  unfold makeMove
  try dsimp -proj only
  repeat' first
    | simp +decide only [↓bucketRd_frame, ↓putSlot_frame, ↓incCnt_frame, ↓raiseEpoch_frame, ↓proj_ite, ↓proj_iteP, ite_self]
    | ((with_reducible refine proj_mk_trans ?_ ?_); · ((fail_if_success with_reducible rfl); rfl))
    | (with_reducible refine (snd_eq (by assumption) (bucketRd_frame (by decide) _ _ _)).trans ?_)
    | split

theorem makeMoves_frame {m0 : Nat} (hm0 : m0 &&& 3020603424 = 3020603424) (t : Nat) (e : Entry) (a2 : List Move) (a3 : State) :
    proj m0 (makeMoves t e a2 a3) = proj m0 a3 := by
  refine proj_mono hm0 ?_
  fun_induction makeMoves t e a2 a3
  try dsimp -proj only
  repeat' first
    | simp +decide only [↓makeMove_frame, ↓proj_ite, ↓proj_iteP, ite_self]
    | ((with_reducible refine proj_mk_trans ?_ ?_); · ((fail_if_success with_reducible rfl); rfl))
    | (with_reducible refine Eq.trans (by assumption) ?_)
    | (with_reducible intro _)
    | (dsimp -proj +zetaDelta only)
    | split

theorem planFor_frame {m0 : Nat} (hm0 : m0 &&& 3020603424 = 3020603424) (t : Nat) (key : Nat) (s : State) :
    proj m0 (planFor t key s).2 = proj m0 s := by
  refine proj_mono hm0 ?_
  unfold planFor
  split
  · rfl
  · exact (modTbl_frame (by decide) _ _ _).trans
      (planInsert_frame (by decide) _ _ _ _ _ _ _ (fun _ _ => bucketRd_frame (by decide) _ _ _))

theorem insertNow_frame {m0 : Nat} (hm0 : m0 &&& 3020603424 = 3020603424) (t : Nat) (e : Entry) (s : State) :
    proj m0 (insertNow t e s).2 = proj m0 s := by
  refine proj_mono hm0 ?_
  unfold insertNow
  try dsimp -proj only
  repeat' first
    | simp +decide only [↓planFor_frame, ↓incCnt_frame, ↓putSlot_frame, ↓makeMoves_frame, ↓proj_ite, ↓proj_iteP, ite_self]
    | ((with_reducible refine proj_mk_trans ?_ ?_); · ((fail_if_success with_reducible rfl); rfl))
    | (with_reducible refine (snd_eq (by assumption) (planFor_frame (by decide) _ _ _)).trans ?_)
    | split

theorem noteChanged_frame {m0 : Nat} (hm0 : m0 &&& 524288 = 524288) (t : Nat) (key : Nat) (s : State) :
    proj m0 (noteChanged t key s) = proj m0 s := by
  refine proj_mono hm0 ?_
  unfold noteChanged
  try dsimp -proj only
  repeat' first
    | simp +decide only [↓modTbl_frame, ↓proj_ite, ↓proj_iteP, ite_self]
    | ((with_reducible refine proj_mk_trans ?_ ?_); · ((fail_if_success with_reducible rfl); rfl))
    | split

theorem stagedPresent_frame {m0 : Nat} (hm0 : m0 &&& 3020079136 = 3020079136) (d : TblDesc) (key : Nat) (s : State) :
    proj m0 (stagedPresent d key s).2 = proj m0 s := by
  refine proj_mono hm0 ?_
  unfold stagedPresent
  try dsimp -proj only
  repeat' first
    | simp +decide only [↓findKey_frame, ↓proj_ite, ↓proj_iteP, ite_self]
    | ((with_reducible refine proj_mk_trans ?_ ?_); · ((fail_if_success with_reducible rfl); rfl))
    | (with_reducible refine (snd_eq (by assumption) (findKey_frame (by decide) _ _ _ _)).trans ?_)
    | split

theorem stageRemove_frame {m0 : Nat} (hm0 : m0 &&& 3020603424 = 3020603424) (t : Nat) (f : Found) (s : State) :
    proj m0 (stageRemove t f s) = proj m0 s := by
  refine proj_mono hm0 ?_
  unfold stageRemove
  try dsimp -proj only
  repeat' first
    | simp +decide only [↓noteChanged_frame, ↓putSlot_frame, ↓proj_ite, ↓proj_iteP, ite_self]
    | ((with_reducible refine proj_mk_trans ?_ ?_); · ((fail_if_success with_reducible rfl); rfl))
    | split

theorem revertStaging_frame {m0 : Nat} (hm0 : m0 &&& 3020603424 = 3020603424) (t : Nat) (s : State) :
    proj m0 (revertStaging t s) = proj m0 s := by
  refine proj_mono hm0 ?_
  unfold revertStaging
  try dsimp -proj only
  repeat' first
    | simp +decide only [↓findKey_frame, ↓putSlot_frame, ↓modTbl_frame, ↓proj_ite, ↓proj_iteP, ite_self]
    | (with_reducible refine (foldl_proj _ _ ?_ _).trans ?_; intro _ _)
    | (with_reducible refine (foldl_projP _ _ ?_ _).trans ?_; intro _ _)
    | ((with_reducible refine proj_mk_trans ?_ ?_); · ((fail_if_success with_reducible rfl); rfl))
    | (with_reducible refine (snd_eq (by assumption) (findKey_frame (by decide) _ _ _ _)).trans ?_)
    | split

theorem rowNameable_frame {m0 : Nat} (hm0 : m0 &&& 3020079136 = 3020079136) (x : Tbl) (row : Nat) (written : List Nat) (s : State) :
    proj m0 (rowNameable x row written s).2 = proj m0 s := by
  refine proj_mono hm0 ?_
  unfold rowNameable
  try dsimp -proj only
  repeat' first
    | simp +decide only [↓readDpa_frame, ↓proj_ite, ↓proj_iteP, ite_self]
    | ((with_reducible refine proj_mk_trans ?_ ?_); · ((fail_if_success with_reducible rfl); rfl))
    | split

theorem rowWriteRec_frame {m0 : Nat} (hm0 : m0 &&& 3020341280 = 3020341280) (by_ : Option (HPort × Nat)) (t : Nat) (r : BatchRec) (s : State) :
    optProj m0 s (rowWriteRec by_ t r s) := by
  refine optProj_mono hm0 ?_
  unfold rowWriteRec
  try dsimp -proj only
  repeat' first
    | (with_reducible exact optProj_none)
    | (with_reducible refine optProj_some ?_)
    | (with_reducible refine ite_projO ?_ ?_)
    | simp +decide only [↓writeRow_frame, ↓proj_ite, ↓proj_iteP, ite_self]
    | ((with_reducible refine proj_mk_trans ?_ ?_); · ((fail_if_success with_reducible rfl); rfl))
    | split

theorem rowWrites_frame {m0 : Nat} (hm0 : m0 &&& 3020341280 = 3020341280) (by_ : Option (HPort × Nat)) (t : Nat) (a2 : List BatchRec) (a3 : Nat) (a4 : List Nat) (a5 : State) :
    proj m0 (rowWrites by_ t a2 a3 a4 a5).2 = proj m0 a5 := by
  refine proj_mono hm0 ?_
  fun_induction rowWrites by_ t a2 a3 a4 a5
  try dsimp -proj only
  repeat' first
    | (with_reducible exact rowWriteRec_frame (by decide) _ _ _ _)
    | simp +decide only [↓proj_ite, ↓proj_iteP, ite_self]
    | ((with_reducible refine proj_mk_trans ?_ ?_); · ((fail_if_success with_reducible rfl); rfl))
    | (with_reducible refine (some_eq (by assumption) (rowWriteRec_frame (by decide) _ _ _ _)).trans ?_)
    | (with_reducible refine Eq.trans (by assumption) ?_)
    | (with_reducible refine (snd_eq (by assumption) (by assumption)).trans ?_)
    | (with_reducible refine (trip_eq (by assumption) (by assumption)).trans ?_)
    | (with_reducible intro _)
    | (dsimp -proj +zetaDelta only)
    | split

theorem stageRec_frame {m0 : Nat} (hm0 : m0 &&& 3020603424 = 3020603424) (t : Nat) (written : List Nat) (r : BatchRec) (s : State) :
    proj m0 (stageRec t written r s).2 = proj m0 s := by
  refine proj_mono hm0 ?_
  unfold stageRec
  try dsimp -proj only
  repeat' first
    | simp +decide only [↓stagedPresent_frame, ↓stageRemove_frame, ↓rowNameable_frame, ↓insertNow_frame, ↓noteChanged_frame, ↓proj_ite, ↓proj_iteP, ite_self]
    | ((with_reducible refine proj_mk_trans ?_ ?_); · ((fail_if_success with_reducible rfl); rfl))
    | (with_reducible refine (snd_eq (by assumption) (stagedPresent_frame (by decide) _ _ _)).trans ?_)
    | (with_reducible refine (snd_eq (by assumption) (rowNameable_frame (by decide) _ _ _ _)).trans ?_)
    | (with_reducible refine (snd_eq (by assumption) (insertNow_frame (by decide) _ _ _)).trans ?_)
    | split

theorem stageRecs_frame {m0 : Nat} (hm0 : m0 &&& 3020603424 = 3020603424) (t : Nat) (written : List Nat) (a2 : List BatchRec) (a3 : Nat) (a4 : State) :
    proj m0 (stageRecs t written a2 a3 a4).2 = proj m0 a4 := by
  refine proj_mono hm0 ?_
  fun_induction stageRecs t written a2 a3 a4
  try dsimp -proj only
  repeat' first
    | simp +decide only [↓stageRec_frame, ↓proj_ite, ↓proj_iteP, ite_self]
    | (with_reducible refine (foldl_proj _ _ ?_ _).trans ?_; intro _ _)
    | (with_reducible refine (foldl_projP _ _ ?_ _).trans ?_; intro _ _)
    | ((with_reducible refine proj_mk_trans ?_ ?_); · ((fail_if_success with_reducible rfl); rfl))
    | (with_reducible refine (snd_eq (by assumption) (stageRec_frame (by decide) _ _ _ _)).trans ?_)
    | (with_reducible refine Eq.trans (by assumption) ?_)
    | (with_reducible refine (snd_eq (by assumption) (by assumption)).trans ?_)
    | (with_reducible refine (trip_eq (by assumption) (by assumption)).trans ?_)
    | (with_reducible refine elim_proj ?_ ?_)
    | (with_reducible intro _)
    | (dsimp -proj +zetaDelta only)
    | split

theorem tblEnd_frame {m0 : Nat} (hm0 : m0 &&& 268435456 = 268435456) (p : HPort) (t : Nat) (status : Nat) (s : State) :
    proj m0 (tblEnd p t status s) = proj m0 s := by
  refine proj_mono hm0 ?_
  unfold tblEnd
  try dsimp -proj only
  repeat' first
    | simp +decide only [↓setRegF_frame, ↓setRegW_frame, ↓proj_ite, ↓proj_iteP, ite_self]
    | ((with_reducible refine proj_mk_trans ?_ ?_); · ((fail_if_success with_reducible rfl); rfl))
    | (with_reducible intro _)
    | split

theorem tblStart_frame {m0 : Nat} (hm0 : m0 &&& 268435456 = 268435456) (p : HPort) (t : Nat) (op : Nat) (s : State) :
    proj m0 (tblStart p t op s) = proj m0 s := by
  refine proj_mono hm0 ?_
  unfold tblStart
  try dsimp -proj only
  repeat' first
    | simp +decide only [↓setRegW_frame, ↓proj_ite, ↓proj_iteP, ite_self]
    | ((with_reducible refine proj_mk_trans ?_ ?_); · ((fail_if_success with_reducible rfl); rfl))
    | (with_reducible intro _)
    | split

theorem setExisted_frame {m0 : Nat} (hm0 : m0 &&& 268435456 = 268435456) (p : HPort) (s : State) :
    proj m0 (setExisted p s) = proj m0 s := by
  refine proj_mono hm0 ?_
  unfold setExisted
  try dsimp -proj only
  repeat' first
    | simp +decide only [↓setRegF_frame, ↓proj_ite, ↓proj_iteP, ite_self]
    | ((with_reducible refine proj_mk_trans ?_ ?_); · ((fail_if_success with_reducible rfl); rfl))
    | (with_reducible intro _)
    | split

theorem changeEnd_frame {m0 : Nat} (hm0 : m0 &&& 2416181248 = 2416181248) (t : Nat) (w : ChangeBy) (status : Nat) (result : Nat) (s : State) :
    proj m0 (changeEnd t w status result s) = proj m0 s := by
  refine proj_mono hm0 ?_
  unfold changeEnd
  try dsimp -proj only
  repeat' first
    | simp +decide only [↓completeBare_frame, ↓complete_frame, ↓tblEnd_frame, ↓proj_ite, ↓proj_iteP, ite_self]
    | ((with_reducible refine proj_mk_trans ?_ ?_); · ((fail_if_success with_reducible rfl); rfl))
    | split

theorem commitTable_frame {m0 : Nat} (hm0 : m0 &&& 2953576448 = 2953576448) (t : Nat) (s : State) :
    proj m0 (commitTable t s) = proj m0 s := by
  refine proj_mono hm0 ?_
  unfold commitTable
  try dsimp -proj only
  repeat' first
    | simp +decide only [↓setTbl_frame, ↓incCnt_frame, ↓changeEnd_frame, ↓proj_ite, ↓proj_iteP, ite_self]
    | ((with_reducible refine proj_mk_trans ?_ ?_); · ((fail_if_success with_reducible rfl); rfl))
    | split

theorem commitCmds_frame {m0 : Nat} (hm0 : m0 &&& 2953576448 = 2953576448) (s : State) :
    proj m0 (commitCmds s) = proj m0 s := by
  refine proj_mono hm0 ?_
  unfold commitCmds
  try dsimp -proj only
  repeat' first
    | simp +decide only [↓commitTable_frame, ↓proj_ite, ↓proj_iteP, ite_self]
    | (with_reducible refine (foldl_proj _ _ ?_ _).trans ?_; intro _ _)
    | (with_reducible refine (foldl_projP _ _ ?_ _).trans ?_; intro _ _)
    | ((with_reducible refine proj_mk_trans ?_ ?_); · ((fail_if_success with_reducible rfl); rfl))
    | split

theorem commitBatches_frame {m0 : Nat} (hm0 : m0 &&& 2953576448 = 2953576448) (s : State) :
    proj m0 (commitBatches s) = proj m0 s := by
  refine proj_mono hm0 ?_
  unfold commitBatches
  try dsimp -proj only
  repeat' first
    | simp +decide only [↓commitTable_frame, ↓proj_ite, ↓proj_iteP, ite_self]
    | (with_reducible refine (foldl_proj _ _ ?_ _).trans ?_; intro _ _)
    | (with_reducible refine (foldl_projP _ _ ?_ _).trans ?_; intro _ _)
    | ((with_reducible refine proj_mk_trans ?_ ?_); · ((fail_if_success with_reducible rfl); rfl))
    | split

theorem retireKey_frame {m0 : Nat} (hm0 : m0 &&& 3020603424 = 3020603424) (t : Nat) (d : TblDesc) (key : Nat) (s : State) :
    proj m0 (retireKey t d key s) = proj m0 s := by
  refine proj_mono hm0 ?_
  unfold retireKey
  try dsimp -proj only
  repeat' first
    | simp +decide only [↓findKey_frame, ↓incCnt_frame, ↓putSlot_frame, ↓proj_ite, ↓proj_iteP, ite_self]
    | ((with_reducible refine proj_mk_trans ?_ ?_); · ((fail_if_success with_reducible rfl); rfl))
    | (with_reducible refine (snd_eq (by assumption) (findKey_frame (by decide) _ _ _ _)).trans ?_)
    | split

theorem execRetirementStart_frame {m0 : Nat} (hm0 : m0 &&& 3020603424 = 3020603424) (t : TableId) (s : State) :
    outProj m0 s (execRetirementStart t s) := by
  refine outProj_mono hm0 ?_
  unfold execRetirementStart
  try dsimp -proj only
  repeat' first
    | (with_reducible refine outProj_next ?_)
    | (with_reducible refine ite_projR ?_ ?_)
    | simp +decide only [↓modTbl_frame, ↓retireKey_frame, ↓proj_ite, ↓proj_iteP, ite_self]
    | (with_reducible refine (foldl_proj _ _ ?_ _).trans ?_; intro _ _)
    | (with_reducible refine (foldl_projP _ _ ?_ _).trans ?_; intro _ _)
    | ((with_reducible refine proj_mk_trans ?_ ?_); · ((fail_if_success with_reducible rfl); rfl))
    | split

theorem execRetirementEnd_frame {m0 : Nat} (hm0 : m0 &&& 524288 = 524288) (t : TableId) (s : State) :
    outProj m0 s (execRetirementEnd t s) := by
  refine outProj_mono hm0 ?_
  unfold execRetirementEnd
  try dsimp -proj only
  repeat' first
    | (with_reducible refine outProj_next ?_)
    | (with_reducible refine ite_projR ?_ ?_)
    | simp +decide only [↓setTbl_frame, ↓proj_ite, ↓proj_iteP, ite_self]
    | ((with_reducible refine proj_mk_trans ?_ ?_); · ((fail_if_success with_reducible rfl); rfl))
    | split

theorem execLateCommit_frame {m0 : Nat} (hm0 : m0 &&& 2953576448 = 2953576448) (t : TableId) (s : State) :
    outProj m0 s (execLateCommit t s) := by
  refine outProj_mono hm0 ?_
  unfold execLateCommit
  try dsimp -proj only
  repeat' first
    | (with_reducible refine outProj_next ?_)
    | (with_reducible refine ite_projR ?_ ?_)
    | simp +decide only [↓commitTable_frame, ↓proj_ite, ↓proj_iteP, ite_self]
    | ((with_reducible refine proj_mk_trans ?_ ?_); · ((fail_if_success with_reducible rfl); rfl))
    | split

theorem failStaging_frame {m0 : Nat} (hm0 : m0 &&& 3020865568 = 3020865568) (t : Nat) (ch : Change) (status : Nat) (result : Nat) (s : State) :
    proj m0 (failStaging t ch status result s) = proj m0 s := by
  refine proj_mono hm0 ?_
  unfold failStaging
  try dsimp -proj only
  repeat' first
    | simp +decide only [↓changeEnd_frame, ↓revertStaging_frame, ↓proj_ite, ↓proj_iteP, ite_self]
    | ((with_reducible refine proj_mk_trans ?_ ?_); · ((fail_if_success with_reducible rfl); rfl))
    | split

theorem stagingEnds_frame {m0 : Nat} (hm0 : m0 &&& 524288 = 524288) (t : Nat) (s : State) :
    proj m0 (stagingEnds t s) = proj m0 s := by
  refine proj_mono hm0 ?_
  unfold stagingEnds
  try dsimp -proj only
  repeat' first
    | simp +decide only [↓modTbl_frame, ↓proj_ite, ↓proj_iteP, ite_self]
    | ((with_reducible refine proj_mk_trans ?_ ?_); · ((fail_if_success with_reducible rfl); rfl))
    | split

theorem stageBatch_frame {m0 : Nat} (hm0 : m0 &&& 3020865568 = 3020865568) (t : Nat) (ch : Change) (s : State) :
    proj m0 (stageBatch t ch s) = proj m0 s := by
  refine proj_mono hm0 ?_
  unfold stageBatch
  try dsimp -proj only
  repeat' first
    | simp +decide only [↓failStaging_frame, ↓rowWrites_frame, ↓stageRecs_frame, ↓stagingEnds_frame, ↓proj_ite, ↓proj_iteP, ite_self]
    | ((with_reducible refine proj_mk_trans ?_ ?_); · ((fail_if_success with_reducible rfl); rfl))
    | (with_reducible refine (snd_eq (by assumption) (rowWrites_frame (by decide) _ _ _ _ _ _)).trans ?_)
    | (with_reducible refine (snd_eq (by assumption) (stageRecs_frame (by decide) _ _ _ _ _)).trans ?_)
    | split

theorem askWriter_frame {m0 : Nat} (hm0 : m0 &&& 524288 = 524288) (r : InsReq) (s : State) :
    proj m0 (askWriter r s) = proj m0 s := by
  refine proj_mono hm0 ?_
  unfold askWriter
  try dsimp -proj only
  repeat' first
    | simp +decide only [↓proj_ite, ↓proj_iteP, ite_self]
    | ((with_reducible refine proj_mk_trans ?_ ?_); · ((fail_if_success with_reducible rfl); rfl))
    | split

theorem stageCmd_frame {m0 : Nat} (hm0 : m0 &&& 3020865568 = 3020865568) (t : Nat) (p : HPort) (op : Nat) (ch : Change) (r : BatchRec) (s : State) :
    proj m0 (stageCmd t p op ch r s) = proj m0 s := by
  refine proj_mono hm0 ?_
  unfold stageCmd
  try dsimp -proj only
  repeat' first
    | simp +decide only [↓stagedPresent_frame, ↓failStaging_frame, ↓stagingEnds_frame, ↓stageRemove_frame, ↓setExisted_frame, ↓askWriter_frame, ↓proj_ite, ↓proj_iteP, ite_self]
    | ((with_reducible refine proj_mk_trans ?_ ?_); · ((fail_if_success with_reducible rfl); rfl))
    | (with_reducible refine (snd_eq (by assumption) (stagedPresent_frame (by decide) _ _ _)).trans ?_)
    | split

theorem queueChange_frame {m0 : Nat} (hm0 : m0 &&& 524288 = 524288) (t : Nat) (ch : Change) (s : State) :
    proj m0 (queueChange t ch s) = proj m0 s := by
  refine proj_mono hm0 ?_
  unfold queueChange
  try dsimp -proj only
  repeat' first
    | simp +decide only [↓modTbl_frame, ↓proj_ite, ↓proj_iteP, ite_self]
    | ((with_reducible refine proj_mk_trans ?_ ?_); · ((fail_if_success with_reducible rfl); rfl))
    | split

theorem execBatchStage_frame {m0 : Nat} (hm0 : m0 &&& 3020865568 = 3020865568) (t : TableId) (s : State) :
    outProj m0 s (execBatchStage t s) := by
  refine outProj_mono hm0 ?_
  unfold execBatchStage
  try dsimp -proj only
  repeat' first
    | (with_reducible refine outProj_next ?_)
    | (with_reducible refine ite_projR ?_ ?_)
    | simp +decide only [↓setTbl_frame, ↓stageCmd_frame, ↓stageBatch_frame, ↓proj_ite, ↓proj_iteP, ite_self]
    | ((with_reducible refine proj_mk_trans ?_ ?_); · ((fail_if_success with_reducible rfl); rfl))
    | split

theorem insertEnd_frame {m0 : Nat} (hm0 : m0 &&& 3020865568 = 3020865568) (r : InsReq) (ok : Bool) (s : State) :
    proj m0 (insertEnd r ok s) = proj m0 s := by
  refine proj_mono hm0 ?_
  unfold insertEnd
  try dsimp -proj only
  repeat' first
    | simp +decide only [↓stagingEnds_frame, ↓noteChanged_frame, ↓failStaging_frame, ↓tblEnd_frame, ↓proj_ite, ↓proj_iteP, ite_self]
    | ((with_reducible refine proj_mk_trans ?_ ?_); · ((fail_if_success with_reducible rfl); rfl))
    | split

theorem visibleNow_frame {m0 : Nat} (hm0 : m0 &&& 3020079136 = 3020079136) (x : Tbl) (key : Nat) (s : State) :
    proj m0 (visibleNow x key s).2 = proj m0 s := by
  refine proj_mono hm0 ?_
  unfold visibleNow
  try dsimp -proj only
  repeat' first
    | simp +decide only [↓findKey_frame, ↓proj_ite, ↓proj_iteP, ite_self]
    | ((with_reducible refine proj_mk_trans ?_ ?_); · ((fail_if_success with_reducible rfl); rfl))
    | split

theorem replaceEntry_frame {m0 : Nat} (hm0 : m0 &&& 3020603424 = 3020603424) (t : Nat) (f : Found) (row : Nat) (static : Bool) (s : State) :
    proj m0 (replaceEntry t f row static s) = proj m0 s := by
  refine proj_mono hm0 ?_
  unfold replaceEntry
  try dsimp -proj only
  repeat' first
    | simp +decide only [↓touchKey_frame, ↓putSlot_frame, ↓proj_ite, ↓proj_iteP, ite_self]
    | ((with_reducible refine proj_mk_trans ?_ ?_); · ((fail_if_success with_reducible rfl); rfl))
    | split

theorem startInsert_frame {m0 : Nat} (hm0 : m0 &&& 3020865568 = 3020865568) (r : InsReq) (s : State) :
    proj m0 (startInsert r s) = proj m0 s := by
  refine proj_mono hm0 ?_
  unfold startInsert
  try dsimp -proj only
  repeat' first
    | simp +decide only [↓planFor_frame, ↓insertEnd_frame, ↓incCnt_frame, ↓putSlot_frame, ↓proj_ite, ↓proj_iteP, ite_self]
    | ((with_reducible refine proj_mk_trans ?_ ?_); · ((fail_if_success with_reducible rfl); rfl))
    | (with_reducible refine (snd_eq (by assumption) (planFor_frame (by decide) _ _ _)).trans ?_)
    | split

theorem runReq_frame {m0 : Nat} (hm0 : m0 &&& 3020865568 = 3020865568) (r : InsReq) (s : State) :
    proj m0 (runReq r s) = proj m0 s := by
  refine proj_mono hm0 ?_
  unfold runReq
  try dsimp -proj only
  repeat' first
    | simp +decide only [↓startInsert_frame, ↓visibleNow_frame, ↓tblEnd_frame, ↓setRegF_frame, ↓replaceEntry_frame, ↓incCnt_frame, ↓putSlot_frame, ↓bucketRd_frame, ↓makeMove_frame, ↓proj_ite, ↓proj_iteP, ite_self]
    | ((with_reducible refine proj_mk_trans ?_ ?_); · ((fail_if_success with_reducible rfl); rfl))
    | (with_reducible refine (snd_eq (by assumption) (visibleNow_frame (by decide) _ _ _)).trans ?_)
    | (with_reducible refine (snd_eq (by assumption) (bucketRd_frame (by decide) _ _ _)).trans ?_)
    | (with_reducible intro _)
    | split

theorem execTableInsert_frame {m0 : Nat} (hm0 : m0 &&& 3020865568 = 3020865568) (s : State) :
    outProj m0 s (execTableInsert s) := by
  refine outProj_mono hm0 ?_
  unfold execTableInsert
  try dsimp -proj only
  repeat' first
    | (with_reducible refine outProj_next ?_)
    | simp +decide only [↓runReq_frame, ↓proj_ite, ↓proj_iteP, ite_self]
    | ((with_reducible refine proj_mk_trans ?_ ?_); · ((fail_if_success with_reducible rfl); rfl))
    | split

theorem execEntryMove_frame {m0 : Nat} (hm0 : m0 &&& 3020865568 = 3020865568) (chain : Nat) (s : State) :
    outProj m0 s (execEntryMove chain s) := by
  refine outProj_mono hm0 ?_
  unfold execEntryMove
  try dsimp -proj only
  repeat' first
    | (with_reducible refine outProj_next ?_)
    | (with_reducible refine ite_projR ?_ ?_)
    | simp +decide only [↓makeMove_frame, ↓insertEnd_frame, ↓incCnt_frame, ↓proj_ite, ↓proj_iteP, ite_self]
    | ((with_reducible refine proj_mk_trans ?_ ?_); · ((fail_if_success with_reducible rfl); rfl))
    | split

theorem queueCmd_frame {m0 : Nat} (hm0 : m0 &&& 786432 = 786432) (p : HPort) (t : Nat) (op : Nat) (s : State) :
    proj m0 (queueCmd p t op s) = proj m0 s := by
  refine proj_mono hm0 ?_
  unfold queueCmd
  try dsimp -proj only
  repeat' first
    | simp +decide only [↓acceptNow_frame, ↓queueChange_frame, ↓proj_ite, ↓proj_iteP, ite_self]
    | ((with_reducible refine proj_mk_trans ?_ ?_); · ((fail_if_success with_reducible rfl); rfl))
    | split

theorem requestNow_frame {m0 : Nat} (hm0 : m0 &&& 3020865568 = 3020865568) (r : InsReq) (s : State) :
    proj m0 (requestNow r s) = proj m0 s := by
  refine proj_mono hm0 ?_
  unfold requestNow
  try dsimp -proj only
  repeat' first
    | simp +decide only [↓visibleNow_frame, ↓askWriter_frame, ↓runReq_frame, ↓proj_ite, ↓proj_iteP, ite_self]
    | ((with_reducible refine proj_mk_trans ?_ ?_); · ((fail_if_success with_reducible rfl); rfl))
    | (with_reducible refine (snd_eq (by assumption) (visibleNow_frame (by decide) _ _ _)).trans ?_)
    | split

theorem tblCmd_frame {m0 : Nat} (hm0 : m0 &&& 268435456 = 268435456) (p : HPort) (t : TableId) (op : Nat) (f : Tbl → State → State) (s : State) (hf : ∀ x s, proj m0 (f x s) = proj m0 s) :
    outProj m0 s (tblCmd p t op f s) := by
  unfold tblCmd
  try dsimp -proj only
  repeat' first
    | (with_reducible exact outProj_fault)
    | (with_reducible exact outProj_refused)
    | (with_reducible refine outProj_next ?_)
    | (with_reducible refine ite_projR ?_ ?_)
    | (with_reducible refine ite_proj ?_ ?_)
    | with_reducible rfl
    | (with_reducible refine (proj_mono hm0 (tblStart_frame (m0 := 268435456) (by decide) _ _ _ _)).trans ?_)
    | (with_reducible refine (proj_mono hm0 (tblEnd_frame (m0 := 268435456) (by decide) _ _ _ _)).trans ?_)
    | (with_reducible refine (hf _ _).trans ?_)
    | ((with_reducible refine proj_mk_trans ?_ ?_); · ((fail_if_success with_reducible rfl); exact proj_mono hm0 rfl))
    | split

theorem execTblRead_frame {m0 : Nat} (hm0 : m0 &&& 3020603424 = 3020603424) (p : HPort) (t : TableId) (s : State) :
    outProj m0 s (execTblRead p t s) := by
  refine outProj_mono hm0 ?_
  unfold execTblRead
  try dsimp -proj only
  repeat' first
    | (with_reducible refine outProj_next ?_)
    | (with_reducible refine ite_projR ?_ ?_)
    | (with_reducible refine tblCmd_frame (by decide) _ _ _ _ _ ?_)
    | simp +decide only [↓visibleNow_frame, ↓tblEnd_frame, ↓setRegW_frame, ↓touchKey_frame, ↓proj_ite, ↓proj_iteP, ite_self]
    | ((with_reducible refine proj_mk_trans ?_ ?_); · ((fail_if_success with_reducible rfl); rfl))
    | (with_reducible refine (snd_eq (by assumption) (visibleNow_frame (by decide) _ _ _)).trans ?_)
    | (with_reducible intro _)
    | split

theorem execTblInsert_frame {m0 : Nat} (hm0 : m0 &&& 3020865568 = 3020865568) (p : HPort) (t : TableId) (s : State) :
    outProj m0 s (execTblInsert p t s) := by
  refine outProj_mono hm0 ?_
  unfold execTblInsert
  try dsimp -proj only
  repeat' first
    | (with_reducible refine outProj_next ?_)
    | (with_reducible refine ite_projR ?_ ?_)
    | (with_reducible refine tblCmd_frame (by decide) _ _ _ _ _ ?_)
    | simp +decide only [↓queueCmd_frame, ↓tblEnd_frame, ↓requestNow_frame, ↓proj_ite, ↓proj_iteP, ite_self]
    | ((with_reducible refine proj_mk_trans ?_ ?_); · ((fail_if_success with_reducible rfl); rfl))
    | (with_reducible intro _)
    | split

theorem execTblUpdate_frame {m0 : Nat} (hm0 : m0 &&& 3020865568 = 3020865568) (p : HPort) (t : TableId) (s : State) :
    outProj m0 s (execTblUpdate p t s) := by
  refine outProj_mono hm0 ?_
  unfold execTblUpdate
  try dsimp -proj only
  repeat' first
    | (with_reducible refine outProj_next ?_)
    | (with_reducible refine ite_projR ?_ ?_)
    | (with_reducible refine tblCmd_frame (by decide) _ _ _ _ _ ?_)
    | simp +decide only [↓queueCmd_frame, ↓tblEnd_frame, ↓requestNow_frame, ↓proj_ite, ↓proj_iteP, ite_self]
    | ((with_reducible refine proj_mk_trans ?_ ?_); · ((fail_if_success with_reducible rfl); rfl))
    | (with_reducible intro _)
    | split

theorem execTblDelete_frame {m0 : Nat} (hm0 : m0 &&& 3020865568 = 3020865568) (p : HPort) (t : TableId) (s : State) :
    outProj m0 s (execTblDelete p t s) := by
  refine outProj_mono hm0 ?_
  unfold execTblDelete
  try dsimp -proj only
  repeat' first
    | (with_reducible refine outProj_next ?_)
    | (with_reducible refine ite_projR ?_ ?_)
    | (with_reducible refine tblCmd_frame (by decide) _ _ _ _ _ ?_)
    | simp +decide only [↓queueCmd_frame, ↓requestNow_frame, ↓proj_ite, ↓proj_iteP, ite_self]
    | ((with_reducible refine proj_mk_trans ?_ ?_); · ((fail_if_success with_reducible rfl); rfl))
    | (with_reducible intro _)
    | split

theorem execTblMove_frame {m0 : Nat} (hm0 : m0 &&& 3020865568 = 3020865568) (p : HPort) (t : TableId) (s : State) :
    outProj m0 s (execTblMove p t s) := by
  refine outProj_mono hm0 ?_
  unfold execTblMove
  try dsimp -proj only
  repeat' first
    | (with_reducible refine outProj_next ?_)
    | (with_reducible refine ite_projR ?_ ?_)
    | (with_reducible refine tblCmd_frame (by decide) _ _ _ _ _ ?_)
    | simp +decide only [↓requestNow_frame, ↓proj_ite, ↓proj_iteP, ite_self]
    | ((with_reducible refine proj_mk_trans ?_ ?_); · ((fail_if_success with_reducible rfl); rfl))
    | (with_reducible intro _)
    | split

theorem freeTable_frame {m0 : Nat} (hm0 : m0 &&& 3020865568 = 3020865568) (t : Nat) (s : State) :
    proj m0 (freeTable t s) = proj m0 s := by
  refine proj_mono hm0 ?_
  unfold freeTable
  try dsimp -proj only
  repeat' first
    | simp +decide only [↓failStaging_frame, ↓changeEnd_frame, ↓completeBare_frame, ↓tblEnd_frame, ↓proj_ite, ↓proj_iteP, ite_self]
    | (with_reducible refine (foldl_proj _ _ ?_ _).trans ?_; intro _ _)
    | (with_reducible refine (foldl_projP _ _ ?_ _).trans ?_; intro _ _)
    | ((with_reducible refine proj_mk_trans ?_ ?_); · ((fail_if_success with_reducible rfl); rfl))
    | split

theorem sendFlow_frame {m0 : Nat} (hm0 : m0 &&& 809500672 = 809500672) (f : FlowFrame) (s : State) :
    proj m0 (sendFlow f s).2 = proj m0 s := by
  refine proj_mono hm0 ?_
  unfold sendFlow
  try dsimp -proj only
  repeat' first
    | simp +decide only [↓incCnt_frame, ↓setSticky_frame, ↓proj_ite, ↓proj_iteP, ite_self]
    | ((with_reducible refine proj_mk_trans ?_ ?_); · ((fail_if_success with_reducible rfl); rfl))
    | split

theorem offer_frame {m0 : Nat} (hm0 : m0 &&& 25165824 = 25165824) (k : Nat) (s : State) :
    proj m0 (offer k s) = proj m0 s := by
  refine proj_mono hm0 ?_
  unfold offer
  try dsimp -proj only
  repeat' first
    | simp +decide only [↓modReq_frame, ↓proj_ite, ↓proj_iteP, ite_self]
    | ((with_reducible refine proj_mk_trans ?_ ?_); · ((fail_if_success with_reducible rfl); rfl))
    | split

theorem enterRequest_frame {m0 : Nat} (hm0 : m0 &&& 2984247552 = 2984247552) (a : Arrival) (s : State) :
    proj m0 (enterRequest a s) = proj m0 s := by
  refine proj_mono hm0 ?_
  unfold enterRequest
  try dsimp -proj only
  repeat' first
    | simp +decide only [↓answer_frame, ↓emitTrace_frame, ↓incCnt_frame, ↓setReq_frame, ↓holdFrame_frame, ↓offer_frame, ↓sendFlow_frame, ↓modReq_frame, ↓proj_ite, ↓proj_iteP, ite_self]
    | ((with_reducible refine proj_mk_trans ?_ ?_); · ((fail_if_success with_reducible rfl); rfl))
    | (with_reducible refine (snd_eq (by assumption) (sendFlow_frame (by decide) _ _)).trans ?_)
    | split

theorem resolveAct_frame {m0 : Nat} (hm0 : m0 &&& 536870912 = 536870912) (c : Classed) (s : State) :
    proj m0 (resolveAct c s).2 = proj m0 s := by
  refine proj_mono hm0 ?_
  unfold resolveAct
  try dsimp -proj only
  repeat' first
    | simp +decide only [↓incCnt_frame, ↓proj_ite, ↓proj_iteP, ite_self]
    | ((with_reducible refine proj_mk_trans ?_ ?_); · ((fail_if_success with_reducible rfl); rfl))
    | split

theorem sendCopies_frame {m0 : Nat} (hm0 : m0 &&& 538968064 = 538968064) (i : Nat) (q : Nat) (ps : List Nat) (s : State) :
    proj m0 (sendCopies i q ps s) = proj m0 s := by
  refine proj_mono hm0 ?_
  unfold sendCopies
  try dsimp -proj only
  repeat' first
    | simp +decide only [↓enqueue_frame, ↓proj_ite, ↓proj_iteP, ite_self]
    | (with_reducible refine (foldl_proj _ _ ?_ _).trans ?_; intro _ _)
    | (with_reducible refine (foldl_projP _ _ ?_ _).trans ?_; intro _ _)
    | ((with_reducible refine proj_mk_trans ?_ ?_); · ((fail_if_success with_reducible rfl); rfl))
    | split

theorem mirrorCopy_frame {m0 : Nat} (hm0 : m0 &&& 538968064 = 538968064) (c : Classed) (i : Nat) (q : Nat) (s : State) :
    proj m0 (mirrorCopy c i q s) = proj m0 s := by
  refine proj_mono hm0 ?_
  unfold mirrorCopy
  try dsimp -proj only
  repeat' first
    | simp +decide only [↓enqueue_frame, ↓incCnt_frame, ↓proj_ite, ↓proj_iteP, ite_self]
    | ((with_reducible refine proj_mk_trans ?_ ?_); · ((fail_if_success with_reducible rfl); rfl))
    | split

theorem forward_frame {m0 : Nat} (hm0 : m0 &&& 538968064 = 538968064) (c : Classed) (i : Nat) (q : Nat) (s : State) :
    proj m0 (forward c i q s) = proj m0 s := by
  refine proj_mono hm0 ?_
  unfold forward
  try dsimp -proj only
  repeat' first
    | simp +decide only [↓sendCopies_frame, ↓puntFrame_frame, ↓incCnt_frame, ↓proj_ite, ↓proj_iteP, ite_self]
    | ((with_reducible refine proj_mk_trans ?_ ?_); · ((fail_if_success with_reducible rfl); rfl))
    | split

theorem trackG_frame {m0 : Nat} (hm0 : m0 &&& 809500672 = 809500672) (c : Classed) (s : State) :
    proj m0 (trackG c s) = proj m0 s := by
  refine proj_mono hm0 ?_
  unfold trackG
  try dsimp -proj only
  repeat' first
    | simp +decide only [↓sendFlow_frame, ↓proj_ite, ↓proj_iteP, ite_self]
    | ((with_reducible refine proj_mk_trans ?_ ?_); · ((fail_if_success with_reducible rfl); rfl))
    | split

theorem dispose_frame {m0 : Nat} (hm0 : m0 &&& 2984247552 = 2984247552) (c : Classed) (q : Nat) (s : State) :
    proj m0 (dispose c q s) = proj m0 s := by
  refine proj_mono hm0 ?_
  unfold dispose
  try dsimp -proj only
  repeat' first
    | simp +decide only [↓putFrame_frame, ↓mirrorCopy_frame, ↓forward_frame, ↓puntFrame_frame, ↓enterRequest_frame, ↓incCnt_frame, ↓freeUnheld_frame, ↓proj_ite, ↓proj_iteP, ite_self]
    | ((with_reducible refine proj_mk_trans ?_ ?_); · ((fail_if_success with_reducible rfl); rfl))
    | (with_reducible refine (snd_eq (by assumption) (putFrame_frame (by decide) _ _ _ _ _)).trans ?_)
    | split

theorem actOn_frame {m0 : Nat} (hm0 : m0 &&& 2984247552 = 2984247552) (c : Classed) (s : State) :
    proj m0 (actOn c s) = proj m0 s := by
  refine proj_mono hm0 ?_
  unfold actOn
  try dsimp -proj only
  repeat' first
    | simp +decide only [↓resolveAct_frame, ↓trackG_frame, ↓dispose_frame, ↓meterFrame_frame, ↓answer_frame, ↓incCnt_frame, ↓proj_ite, ↓proj_iteP, ite_self]
    | ((with_reducible refine proj_mk_trans ?_ ?_); · ((fail_if_success with_reducible rfl); rfl))
    | (with_reducible refine (snd_eq (by assumption) (resolveAct_frame (by decide) _ _)).trans ?_)
    | (with_reducible refine (snd_eq (by assumption) (meterFrame_frame (by decide) _ _ _ _)).trans ?_)
    | split

theorem classify_frame {m0 : Nat} (hm0 : m0 &&& 2984771840 = 2984771840) (g : Nat) (gtNs : Nat) (sub : BitVec 6) (bs : Bytes) (p : Parsed) (m : Bool) (mrp : Option Mrp) (fields : List (Nat × Bytes)) (failed : Bool) (s : State) :
    proj m0 (classify g gtNs sub bs p m mrp fields failed s) = proj m0 s := by
  refine proj_mono hm0 ?_
  unfold classify
  try dsimp -proj only
  repeat' first
    | simp +decide only [↓fwdLookup_frame, ↓learnFrame_frame, ↓actOn_frame, ↓incCnt_frame, ↓countRule_frame, ↓proj_ite, ↓proj_iteP, ite_self]
    | ((with_reducible refine proj_mk_trans ?_ ?_); · ((fail_if_success with_reducible rfl); rfl))
    | (with_reducible refine (snd_eq (by assumption) (fwdLookup_frame (by decide) _ _ _)).trans ?_)
    | (with_reducible refine (snd_eq (by assumption) (learnFrame_frame (by decide) _ _ _ _ _ _)).trans ?_)
    | split

theorem classMFrame_frame {m0 : Nat} (hm0 : m0 &&& 2984771840 = 2984771840) (g : Nat) (gtNs : Nat) (sub : BitVec 6) (bs : Bytes) (p : Parsed) (s : State) :
    proj m0 (classMFrame g gtNs sub bs p s) = proj m0 s := by
  refine proj_mono hm0 ?_
  unfold classMFrame
  try dsimp -proj only
  repeat' first
    | simp +decide only [↓incCnt_frame, ↓classify_frame, ↓answer_frame, ↓proj_ite, ↓proj_iteP, ite_self]
    | ((with_reducible refine proj_mk_trans ?_ ?_); · ((fail_if_success with_reducible rfl); rfl))
    | split

theorem setPeer_frame {m0 : Nat} (hm0 : m0 &&& 33554432 = 33554432) (i : Nat) (p : Peer) (s : State) :
    proj m0 (setPeer i p s) = proj m0 s := by
  refine proj_mono hm0 ?_
  unfold setPeer
  try dsimp -proj only
  repeat' first
    | simp +decide only [↓proj_ite, ↓proj_iteP, ite_self]
    | ((with_reducible refine proj_mk_trans ?_ ?_); · ((fail_if_success with_reducible rfl); rfl))
    | split

theorem modPeer_frame {m0 : Nat} (hm0 : m0 &&& 33554432 = 33554432) (i : Nat) (f : Peer → Peer) (s : State) :
    proj m0 (modPeer i f s) = proj m0 s := by
  refine proj_mono hm0 ?_
  unfold modPeer
  try dsimp -proj only
  repeat' first
    | simp +decide only [↓setPeer_frame, ↓proj_ite, ↓proj_iteP, ite_self]
    | ((with_reducible refine proj_mk_trans ?_ ?_); · ((fail_if_success with_reducible rfl); rfl))
    | split

theorem modGrp_frame {m0 : Nat} (hm0 : m0 &&& 33554432 = 33554432) (f : GroupState → GroupState) (s : State) :
    proj m0 (modGrp f s) = proj m0 s := by
  refine proj_mono hm0 ?_
  unfold modGrp
  try dsimp -proj only
  repeat' first
    | simp +decide only [↓proj_ite, ↓proj_iteP, ite_self]
    | ((with_reducible refine proj_mk_trans ?_ ?_); · ((fail_if_success with_reducible rfl); rfl))
    | split

theorem sendTo_frame {m0 : Nat} (hm0 : m0 &&& 538968064 = 538968064) (g : Nat) (dmac : Nat) (dst : Option Nat) (seq : W32) (ack : W32) (b : GrpBody) (s : State) :
    proj m0 (sendTo g dmac dst seq ack b s) = proj m0 s := by
  refine proj_mono hm0 ?_
  unfold sendTo
  try dsimp -proj only
  repeat' first
    | simp +decide only [↓putFrame_frame, ↓enqueue_frame, ↓freeUnheld_frame, ↓incCnt_frame, ↓proj_ite, ↓proj_iteP, ite_self]
    | ((with_reducible refine proj_mk_trans ?_ ?_); · ((fail_if_success with_reducible rfl); rfl))
    | split

theorem sendFrame_frame {m0 : Nat} (hm0 : m0 &&& 538968064 = 538968064) (g : Nat) (dst : Option Nat) (seq : W32) (ack : W32) (b : GrpBody) (s : State) :
    proj m0 (sendFrame g dst seq ack b s) = proj m0 s := by
  refine proj_mono hm0 ?_
  unfold sendFrame
  try dsimp -proj only
  repeat' first
    | simp +decide only [↓sendTo_frame, ↓proj_ite, ↓proj_iteP, ite_self]
    | ((with_reducible refine proj_mk_trans ?_ ?_); · ((fail_if_success with_reducible rfl); rfl))
    | split

theorem toPeer_frame {m0 : Nat} (hm0 : m0 &&& 572522496 = 572522496) (i : Nat) (seq : W32) (b : GrpBody) (s : State) :
    proj m0 (toPeer i seq b s) = proj m0 s := by
  refine proj_mono hm0 ?_
  unfold toPeer
  try dsimp -proj only
  repeat' first
    | simp +decide only [↓setPeer_frame, ↓sendFrame_frame, ↓proj_ite, ↓proj_iteP, ite_self]
    | ((with_reducible refine proj_mk_trans ?_ ?_); · ((fail_if_success with_reducible rfl); rfl))
    | split

theorem sendSeq_frame {m0 : Nat} (hm0 : m0 &&& 572522496 = 572522496) (i : Nat) (b : GrpBody) (s : State) :
    proj m0 (sendSeq i b s) = proj m0 s := by
  refine proj_mono hm0 ?_
  unfold sendSeq
  try dsimp -proj only
  repeat' first
    | simp +decide only [↓setPeer_frame, ↓toPeer_frame, ↓proj_ite, ↓proj_iteP, ite_self]
    | ((with_reducible refine proj_mk_trans ?_ ?_); · ((fail_if_success with_reducible rfl); rfl))
    | split

theorem sendWaiting_frame {m0 : Nat} (hm0 : m0 &&& 572522496 = 572522496) (i : Nat) (a1 : Nat) (a2 : State) :
    proj m0 (sendWaiting i a1 a2) = proj m0 a2 := by
  refine proj_mono hm0 ?_
  fun_induction sendWaiting i a1 a2
  try dsimp -proj only
  repeat' first
    | simp +decide only [↓toPeer_frame, ↓setPeer_frame, ↓proj_ite, ↓proj_iteP, ite_self]
    | ((with_reducible refine proj_mk_trans ?_ ?_); · ((fail_if_success with_reducible rfl); rfl))
    | (with_reducible refine Eq.trans (by assumption) ?_)
    | (with_reducible refine (snd_eq (by assumption) (by assumption)).trans ?_)
    | (with_reducible refine (trip_eq (by assumption) (by assumption)).trans ?_)
    | (with_reducible intro _)
    | (dsimp -proj +zetaDelta only)
    | split

theorem ackFrom_frame {m0 : Nat} (hm0 : m0 &&& 572522496 = 572522496) (i : Nat) (ack : W32) (s : State) :
    proj m0 (ackFrom i ack s) = proj m0 s := by
  refine proj_mono hm0 ?_
  unfold ackFrom
  try dsimp -proj only
  repeat' first
    | simp +decide only [↓setPeer_frame, ↓modGrp_frame, ↓sendWaiting_frame, ↓proj_ite, ↓proj_iteP, ite_self]
    | (with_reducible refine (foldl_proj _ _ ?_ _).trans ?_; intro _ _)
    | (with_reducible refine (foldl_projP _ _ ?_ _).trans ?_; intro _ _)
    | ((with_reducible refine proj_mk_trans ?_ ?_); · ((fail_if_success with_reducible rfl); rfl))
    | split

theorem journalTo_frame {m0 : Nat} (hm0 : m0 &&& 572522496 = 572522496) (i : Nat) (k : Nat) (s : State) :
    proj m0 (journalTo i k s) = proj m0 s := by
  refine proj_mono hm0 ?_
  unfold journalTo
  try dsimp -proj only
  repeat' first
    | simp +decide only [↓sendSeq_frame, ↓modGrp_frame, ↓proj_ite, ↓proj_iteP, ite_self]
    | ((with_reducible refine proj_mk_trans ?_ ?_); · ((fail_if_success with_reducible rfl); rfl))
    | split

theorem journalReq_frame {m0 : Nat} (hm0 : m0 &&& 572522496 = 572522496) (k : Nat) (s : State) :
    proj m0 (journalReq k s) = proj m0 s := by
  refine proj_mono hm0 ?_
  unfold journalReq
  try dsimp -proj only
  repeat' first
    | simp +decide only [↓journalTo_frame, ↓proj_ite, ↓proj_iteP, ite_self]
    | (with_reducible refine (foldl_proj _ _ ?_ _).trans ?_; intro _ _)
    | (with_reducible refine (foldl_projP _ _ ?_ _).trans ?_; intro _ _)
    | ((with_reducible refine proj_mk_trans ?_ ?_); · ((fail_if_success with_reducible rfl); rfl))
    | split

theorem releaseHandle_frame {m0 : Nat} (hm0 : m0 &&& 572522496 = 572522496) (k : Nat) (s : State) :
    proj m0 (releaseHandle k s) = proj m0 s := by
  refine proj_mono hm0 ?_
  unfold releaseHandle
  try dsimp -proj only
  repeat' first
    | simp +decide only [↓modGrp_frame, ↓sendSeq_frame, ↓proj_ite, ↓proj_iteP, ite_self]
    | (with_reducible refine (foldl_proj _ _ ?_ _).trans ?_; intro _ _)
    | (with_reducible refine (foldl_projP _ _ ?_ _).trans ?_; intro _ _)
    | ((with_reducible refine proj_mk_trans ?_ ?_); · ((fail_if_success with_reducible rfl); rfl))
    | split

theorem setSlot_frame {m0 : Nat} (hm0 : m0 &&& 1024 = 1024) (i : Nat) (x : Slot) (s : State) :
    proj m0 (setSlot i x s) = proj m0 s := by
  refine proj_mono hm0 ?_
  unfold setSlot
  try dsimp -proj only
  repeat' first
    | simp +decide only [↓proj_ite, ↓proj_iteP, ite_self]
    | ((with_reducible refine proj_mk_trans ?_ ?_); · ((fail_if_success with_reducible rfl); rfl))
    | split

theorem modSlot_frame {m0 : Nat} (hm0 : m0 &&& 1024 = 1024) (i : Nat) (f : Slot → Slot) (s : State) :
    proj m0 (modSlot i f s) = proj m0 s := by
  refine proj_mono hm0 ?_
  unfold modSlot
  try dsimp -proj only
  repeat' first
    | simp +decide only [↓setSlot_frame, ↓proj_ite, ↓proj_iteP, ite_self]
    | ((with_reducible refine proj_mk_trans ?_ ?_); · ((fail_if_success with_reducible rfl); rfl))
    | split

theorem freeEntry_frame {m0 : Nat} (hm0 : m0 &&& 598737920 = 598737920) (k : Nat) (s : State) :
    proj m0 (freeEntry k s) = proj m0 s := by
  refine proj_mono hm0 ?_
  unfold freeEntry
  try dsimp -proj only
  repeat' first
    | simp +decide only [↓dropFrame_frame, ↓modSlot_frame, ↓releaseHandle_frame, ↓proj_ite, ↓proj_iteP, ite_self]
    | ((with_reducible refine proj_mk_trans ?_ ?_); · ((fail_if_success with_reducible rfl); rfl))
    | split

theorem leaveAdmission_frame {m0 : Nat} (hm0 : m0 &&& 16777216 = 16777216) (k : Nat) (s : State) :
    proj m0 (leaveAdmission k s) = proj m0 s := by
  refine proj_mono hm0 ?_
  unfold leaveAdmission
  try dsimp -proj only
  repeat' first
    | simp +decide only [↓proj_ite, ↓proj_iteP, ite_self]
    | ((with_reducible refine proj_mk_trans ?_ ?_); · ((fail_if_success with_reducible rfl); rfl))
    | split

theorem traceResponse_frame {m0 : Nat} (hm0 : m0 &&& 2684354816 = 2684354816) (k : Nat) (status : Nat) (s : State) :
    proj m0 (traceResponse k status s) = proj m0 s := by
  refine proj_mono hm0 ?_
  unfold traceResponse
  try dsimp -proj only
  repeat' first
    | simp +decide only [↓emitTrace_frame, ↓proj_ite, ↓proj_iteP, ite_self]
    | ((with_reducible refine proj_mk_trans ?_ ?_); · ((fail_if_success with_reducible rfl); rfl))
    | split

theorem inferAnswer_frame {m0 : Nat} (hm0 : m0 &&& 268697600 = 268697600) (r : Req) (d : Desc) (status : Nat) (gen : Nat) (hash : Bytes) (body : Bytes) (s : State) :
    proj m0 (inferAnswer r d status gen hash body s).2 = proj m0 s := by
  refine proj_mono hm0 ?_
  unfold inferAnswer
  try dsimp -proj only
  repeat' first
    | simp +decide only [↓descWrite_frame, ↓complete_frame, ↓proj_ite, ↓proj_iteP, ite_self]
    | ((with_reducible refine proj_mk_trans ?_ ?_); · ((fail_if_success with_reducible rfl); rfl))
    | split

theorem inferEnd_frame {m0 : Nat} (hm0 : m0 &&& 3014919424 = 3014919424) (k : Nat) (r : Req) (d : Desc) (status : Nat) (gen : Nat) (hash : Bytes) (body : Bytes) (s : State) :
    proj m0 (inferEnd k r d status gen hash body s) = proj m0 s := by
  refine proj_mono hm0 ?_
  unfold inferEnd
  try dsimp -proj only
  repeat' first
    | simp +decide only [↓inferAnswer_frame, ↓freeEntry_frame, ↓traceResponse_frame, ↓incCnt_frame, ↓proj_ite, ↓proj_iteP, ite_self]
    | ((with_reducible refine proj_mk_trans ?_ ?_); · ((fail_if_success with_reducible rfl); rfl))
    | split

theorem queueResponse_frame {m0 : Nat} (hm0 : m0 &&& 598737920 = 598737920) (k : Nat) (r : Req) (f : Bytes) (s : State) :
    proj m0 (queueResponse k r f s).2 = proj m0 s := by
  refine proj_mono hm0 ?_
  unfold queueResponse
  try dsimp -proj only
  repeat' first
    | simp +decide only [↓freeEntry_frame, ↓incCnt_frame, ↓putFrame_frame, ↓enqueue_frame, ↓modReq_frame, ↓proj_ite, ↓proj_iteP, ite_self]
    | ((with_reducible refine proj_mk_trans ?_ ?_); · ((fail_if_success with_reducible rfl); rfl))
    | split

theorem answerReq_frame {m0 : Nat} (hm0 : m0 &&& 3014919424 = 3014919424) (k : Nat) (status : Nat) (s : State) :
    proj m0 (answerReq k status s) = proj m0 s := by
  refine proj_mono hm0 ?_
  unfold answerReq
  try dsimp -proj only
  repeat' first
    | simp +decide only [↓leaveAdmission_frame, ↓inferEnd_frame, ↓queueResponse_frame, ↓traceResponse_frame, ↓freeEntry_frame, ↓incCnt_frame, ↓proj_ite, ↓proj_iteP, ite_self]
    | ((with_reducible refine proj_mk_trans ?_ ?_); · ((fail_if_success with_reducible rfl); rfl))
    | (with_reducible refine (snd_eq (by assumption) (queueResponse_frame (by decide) _ _ _ _)).trans ?_)
    | split

theorem respond_frame {m0 : Nat} (hm0 : m0 &&& 3014919424 = 3014919424) (k : Nat) (gen : Nat) (hash : Bytes) (body : Bytes) (s : State) :
    proj m0 (respond k gen hash body s) = proj m0 s := by
  refine proj_mono hm0 ?_
  unfold respond
  try dsimp -proj only
  repeat' first
    | simp +decide only [↓inferEnd_frame, ↓answerReq_frame, ↓incCnt_frame, ↓modReq_frame, ↓queueResponse_frame, ↓traceResponse_frame, ↓proj_ite, ↓proj_iteP, ite_self]
    | ((with_reducible refine proj_mk_trans ?_ ?_); · ((fail_if_success with_reducible rfl); rfl))
    | (with_reducible refine (snd_eq (by assumption) (queueResponse_frame (by decide) _ _ _ _)).trans ?_)
    | split

theorem answerPoison_frame {m0 : Nat} (hm0 : m0 &&& 3014919456 = 3014919456) (k : Nat) (s : State) :
    proj m0 (answerPoison k s) = proj m0 s := by
  refine proj_mono hm0 ?_
  unfold answerPoison
  try dsimp -proj only
  repeat' first
    | simp +decide only [↓report_frame, ↓incCnt_frame, ↓answerReq_frame, ↓proj_ite, ↓proj_iteP, ite_self]
    | ((with_reducible refine proj_mk_trans ?_ ?_); · ((fail_if_success with_reducible rfl); rfl))
    | split

theorem execResponseCellWait_frame {m0 : Nat} (hm0 : m0 &&& 598737920 = 598737920) (d : NDie) (ix : Nat) (s : State) :
    outProj m0 s (execResponseCellWait d ix s) := by
  refine outProj_mono hm0 ?_
  unfold execResponseCellWait
  try dsimp -proj only
  repeat' first
    | (with_reducible refine outProj_next ?_)
    | (with_reducible refine ite_projR ?_ ?_)
    | simp +decide only [↓queueResponse_frame, ↓proj_ite, ↓proj_iteP, ite_self]
    | ((with_reducible refine proj_mk_trans ?_ ?_); · ((fail_if_success with_reducible rfl); rfl))
    | (with_reducible refine (snd_eq (by assumption) (queueResponse_frame (by decide) _ _ _ _)).trans ?_)
    | split

theorem execRequestReap_frame {m0 : Nat} (hm0 : m0 &&& 3014919424 = 3014919424) (d : NDie) (ix : Nat) (s : State) :
    outProj m0 s (execRequestReap d ix s) := by
  refine outProj_mono hm0 ?_
  unfold execRequestReap
  try dsimp -proj only
  repeat' first
    | (with_reducible refine outProj_next ?_)
    | (with_reducible refine ite_projR ?_ ?_)
    | simp +decide only [↓answerReq_frame, ↓incCnt_frame, ↓proj_ite, ↓proj_iteP, ite_self]
    | ((with_reducible refine proj_mk_trans ?_ ?_); · ((fail_if_success with_reducible rfl); rfl))
    | split

theorem execTransmitEnd_frame {m0 : Nat} (hm0 : m0 &&& 598737920 = 598737920) (port : LaneId) (s : State) :
    outProj m0 s (execTransmitEnd port s) := by
  refine outProj_mono hm0 ?_
  unfold execTransmitEnd
  try dsimp -proj only
  repeat' first
    | (with_reducible refine outProj_next ?_)
    | (with_reducible refine ite_projR ?_ ?_)
    | simp +decide only [↓setEPort_frame, ↓addCnt_frame, ↓incCnt_frame, ↓dropFrame_frame, ↓freeEntry_frame, ↓proj_ite, ↓proj_iteP, ite_self]
    | ((with_reducible refine proj_mk_trans ?_ ?_); · ((fail_if_success with_reducible rfl); rfl))
    | split

end Sys2Proof.Machine
end

