-- ==== Sys2Proof/Laws/FrameCores.lean ====
section
/-! SUPPORT. What each operation of Sequencer.lean, Tree.lean, Flow.lean, Lanes.lean, Power.lean leaves: one lemma each, by Frame.lean. -/

set_option maxRecDepth 8000
set_option linter.all false

namespace Sys2Proof.Machine

theorem vecInstr_frame {m0 : Nat} (hm0 : m0 &&& 2952790068 = 2952790068) (c : CoreId) (resid : Nat) (w : W64) (s : State) :
    outProj m0 s (vecInstr c resid w s) := by
  refine outProj_mono hm0 ?_
  unfold vecInstr
  try dsimp -proj only
  repeat' first
    | (with_reducible exact outProj_refused)
    | (with_reducible refine outProj_next ?_)
    | (with_reducible refine ite_projR ?_ ?_)
    | (with_reducible exact execVnop_frame (by decide) _ _ _)
    | (with_reducible exact execAdd_frame (by decide) _ _ _)
    | (with_reducible exact execSub_frame (by decide) _ _ _)
    | (with_reducible exact execMul_frame (by decide) _ _ _)
    | (with_reducible exact execFma_frame (by decide) _ _ _)
    | (with_reducible exact execDiv_frame (by decide) _ _ _)
    | (with_reducible exact execSqrt_frame (by decide) _ _ _)
    | (with_reducible exact execMax_frame (by decide) _ _ _)
    | (with_reducible exact execMin_frame (by decide) _ _ _)
    | (with_reducible exact execAbs_frame (by decide) _ _ _)
    | (with_reducible exact execNeg_frame (by decide) _ _ _)
    | (with_reducible exact execMov_frame (by decide) _ _ _)
    | (with_reducible exact execSel_frame (by decide) _ _ _)
    | (with_reducible exact execAnd_frame (by decide) _ _ _)
    | (with_reducible exact execOr_frame (by decide) _ _ _)
    | (with_reducible exact execXor_frame (by decide) _ _ _)
    | (with_reducible exact execShl_frame (by decide) _ _ _)
    | (with_reducible exact execShra_frame (by decide) _ _ _)
    | (with_reducible exact execShrl_frame (by decide) _ _ _)
    | (with_reducible exact execCmp_frame (by decide) _ _ _)
    | (with_reducible exact execMlog_frame (by decide) _ _ _)
    | (with_reducible exact execMcnt_frame (by decide) _ _ _)
    | (with_reducible exact execSetvl_frame (by decide) _ _ _)
    | (with_reducible exact execCvt_frame (by decide) _ _ _)
    | (with_reducible exact execMovi_frame (by decide) _ _ _)
    | (with_reducible exact execBcast_frame (by decide) _ _ _)
    | (with_reducible exact execIota_frame (by decide) _ _ _)
    | (with_reducible exact execVld_frame (by decide) _ _ _)
    | (with_reducible exact execVst_frame (by decide) _ _ _)
    | (with_reducible exact execVlds_frame (by decide) _ _ _)
    | (with_reducible exact execVsts_frame (by decide) _ _ _)
    | (with_reducible exact execPerm_frame (by decide) _ _ _)
    | (with_reducible exact execCompress_frame (by decide) _ _ _)
    | (with_reducible exact execExpand_frame (by decide) _ _ _)
    | (with_reducible exact execRsum_frame (by decide) _ _ _)
    | (with_reducible exact execRmean_frame (by decide) _ _ _)
    | (with_reducible exact execRmax_frame (by decide) _ _ _)
    | (with_reducible exact execRmin_frame (by decide) _ _ _)
    | (with_reducible exact execRargmax_frame (by decide) _ _ _)
    | (with_reducible exact execRargmin_frame (by decide) _ _ _)
    | (with_reducible exact execTopk_frame (by decide) _ _ _)
    | (with_reducible exact execTmerge_frame (by decide) _ _ _)
    | (with_reducible exact execExp_frame (by decide) _ _ _)
    | (with_reducible exact execLog_frame (by decide) _ _ _)
    | (with_reducible exact execRsqrt_frame (by decide) _ _ _)
    | (with_reducible exact execTanh_frame (by decide) _ _ _)
    | (with_reducible exact execSigm_frame (by decide) _ _ _)
    | (with_reducible exact execGelu_frame (by decide) _ _ _)
    | (with_reducible exact execCvset_frame (by decide) _ _ _)
    | (with_reducible exact execSetcc_frame (by decide) _ _ _)
    | (with_reducible exact execSize_frame (by decide) _ _ _)
    | (with_reducible exact execCvtn_frame (by decide) _ _ _)
    | (with_reducible exact execSide_frame (by decide) _ _ _)
    | (with_reducible exact execDcvn_frame (by decide) _ _ _)
    | (with_reducible exact execCfl_frame (by decide) _ _ _)
    | simp +decide only [↓proj_ite, ↓proj_iteP, ite_self]
    | ((with_reducible refine proj_mk_trans ?_ ?_); · ((fail_if_success with_reducible rfl); rfl))
    | (with_reducible refine (next_eq (by assumption) (execVnop_frame (by decide) _ _ _)).trans ?_)
    | (with_reducible refine (next_eq (by assumption) (execAdd_frame (by decide) _ _ _)).trans ?_)
    | (with_reducible refine (next_eq (by assumption) (execSub_frame (by decide) _ _ _)).trans ?_)
    | (with_reducible refine (next_eq (by assumption) (execMul_frame (by decide) _ _ _)).trans ?_)
    | (with_reducible refine (next_eq (by assumption) (execFma_frame (by decide) _ _ _)).trans ?_)
    | (with_reducible refine (next_eq (by assumption) (execDiv_frame (by decide) _ _ _)).trans ?_)
    | (with_reducible refine (next_eq (by assumption) (execSqrt_frame (by decide) _ _ _)).trans ?_)
    | (with_reducible refine (next_eq (by assumption) (execMax_frame (by decide) _ _ _)).trans ?_)
    | (with_reducible refine (next_eq (by assumption) (execMin_frame (by decide) _ _ _)).trans ?_)
    | (with_reducible refine (next_eq (by assumption) (execAbs_frame (by decide) _ _ _)).trans ?_)
    | (with_reducible refine (next_eq (by assumption) (execNeg_frame (by decide) _ _ _)).trans ?_)
    | (with_reducible refine (next_eq (by assumption) (execMov_frame (by decide) _ _ _)).trans ?_)
    | (with_reducible refine (next_eq (by assumption) (execSel_frame (by decide) _ _ _)).trans ?_)
    | (with_reducible refine (next_eq (by assumption) (execAnd_frame (by decide) _ _ _)).trans ?_)
    | (with_reducible refine (next_eq (by assumption) (execOr_frame (by decide) _ _ _)).trans ?_)
    | (with_reducible refine (next_eq (by assumption) (execXor_frame (by decide) _ _ _)).trans ?_)
    | (with_reducible refine (next_eq (by assumption) (execShl_frame (by decide) _ _ _)).trans ?_)
    | (with_reducible refine (next_eq (by assumption) (execShra_frame (by decide) _ _ _)).trans ?_)
    | (with_reducible refine (next_eq (by assumption) (execShrl_frame (by decide) _ _ _)).trans ?_)
    | (with_reducible refine (next_eq (by assumption) (execCmp_frame (by decide) _ _ _)).trans ?_)
    | (with_reducible refine (next_eq (by assumption) (execMlog_frame (by decide) _ _ _)).trans ?_)
    | (with_reducible refine (next_eq (by assumption) (execMcnt_frame (by decide) _ _ _)).trans ?_)
    | (with_reducible refine (next_eq (by assumption) (execSetvl_frame (by decide) _ _ _)).trans ?_)
    | (with_reducible refine (next_eq (by assumption) (execCvt_frame (by decide) _ _ _)).trans ?_)
    | (with_reducible refine (next_eq (by assumption) (execMovi_frame (by decide) _ _ _)).trans ?_)
    | (with_reducible refine (next_eq (by assumption) (execBcast_frame (by decide) _ _ _)).trans ?_)
    | (with_reducible refine (next_eq (by assumption) (execIota_frame (by decide) _ _ _)).trans ?_)
    | (with_reducible refine (next_eq (by assumption) (execVld_frame (by decide) _ _ _)).trans ?_)
    | (with_reducible refine (next_eq (by assumption) (execVst_frame (by decide) _ _ _)).trans ?_)
    | (with_reducible refine (next_eq (by assumption) (execVlds_frame (by decide) _ _ _)).trans ?_)
    | (with_reducible refine (next_eq (by assumption) (execVsts_frame (by decide) _ _ _)).trans ?_)
    | (with_reducible refine (next_eq (by assumption) (execPerm_frame (by decide) _ _ _)).trans ?_)
    | (with_reducible refine (next_eq (by assumption) (execCompress_frame (by decide) _ _ _)).trans ?_)
    | (with_reducible refine (next_eq (by assumption) (execExpand_frame (by decide) _ _ _)).trans ?_)
    | (with_reducible refine (next_eq (by assumption) (execRsum_frame (by decide) _ _ _)).trans ?_)
    | (with_reducible refine (next_eq (by assumption) (execRmean_frame (by decide) _ _ _)).trans ?_)
    | (with_reducible refine (next_eq (by assumption) (execRmax_frame (by decide) _ _ _)).trans ?_)
    | (with_reducible refine (next_eq (by assumption) (execRmin_frame (by decide) _ _ _)).trans ?_)
    | (with_reducible refine (next_eq (by assumption) (execRargmax_frame (by decide) _ _ _)).trans ?_)
    | (with_reducible refine (next_eq (by assumption) (execRargmin_frame (by decide) _ _ _)).trans ?_)
    | (with_reducible refine (next_eq (by assumption) (execTopk_frame (by decide) _ _ _)).trans ?_)
    | (with_reducible refine (next_eq (by assumption) (execTmerge_frame (by decide) _ _ _)).trans ?_)
    | (with_reducible refine (next_eq (by assumption) (execExp_frame (by decide) _ _ _)).trans ?_)
    | (with_reducible refine (next_eq (by assumption) (execLog_frame (by decide) _ _ _)).trans ?_)
    | (with_reducible refine (next_eq (by assumption) (execRsqrt_frame (by decide) _ _ _)).trans ?_)
    | (with_reducible refine (next_eq (by assumption) (execTanh_frame (by decide) _ _ _)).trans ?_)
    | (with_reducible refine (next_eq (by assumption) (execSigm_frame (by decide) _ _ _)).trans ?_)
    | (with_reducible refine (next_eq (by assumption) (execGelu_frame (by decide) _ _ _)).trans ?_)
    | (with_reducible refine (next_eq (by assumption) (execCvset_frame (by decide) _ _ _)).trans ?_)
    | (with_reducible refine (next_eq (by assumption) (execSetcc_frame (by decide) _ _ _)).trans ?_)
    | (with_reducible refine (next_eq (by assumption) (execSize_frame (by decide) _ _ _)).trans ?_)
    | (with_reducible refine (next_eq (by assumption) (execCvtn_frame (by decide) _ _ _)).trans ?_)
    | (with_reducible refine (next_eq (by assumption) (execSide_frame (by decide) _ _ _)).trans ?_)
    | (with_reducible refine (next_eq (by assumption) (execDcvn_frame (by decide) _ _ _)).trans ?_)
    | (with_reducible refine (next_eq (by assumption) (execCfl_frame (by decide) _ _ _)).trans ?_)
    | split

theorem vecRun_frame {m0 : Nat} (hm0 : m0 &&& 2952790068 = 2952790068) (c : CoreId) (resid : List (Nat × Nat)) (a2 : List W64) (a3 : State) :
    outProj m0 a3 (vecRun c resid a2 a3) := by
  refine outProj_mono hm0 ?_
  fun_induction vecRun c resid a2 a3
  try dsimp -proj only
  repeat' first
    | (with_reducible exact outProj_fault)
    | (with_reducible exact outProj_refused)
    | (with_reducible refine outProj_next ?_)
    | (with_reducible exact vecInstr_frame (by decide) _ _ _ _)
    | simp +decide only [↓proj_ite, ↓proj_iteP, ite_self]
    | ((with_reducible refine proj_mk_trans ?_ ?_); · ((fail_if_success with_reducible rfl); rfl))
    | (with_reducible refine (next_eq (by assumption) (vecInstr_frame (by decide) _ _ _ _)).trans ?_)
    | assumption
    | (with_reducible exact outProj_trans (next_eq (by assumption) (vecInstr_frame (by decide) _ _ _ _)) (by assumption))
    | (with_reducible intro _)
    | (dsimp -proj +zetaDelta only)
    | split

theorem vecFollow_frame {m0 : Nat} (hm0 : m0 &&& 2952790068 = 2952790068) (c : CoreId) (w : W64) (t : State) :
    proj m0 (vecFollow c w t) = proj m0 t := by
  refine proj_mono hm0 ?_
  unfold vecFollow
  try dsimp -proj only
  repeat' first
    | (with_reducible exact vecInstr_frame (by decide) _ _ _ _)
    | simp +decide only [↓modCore_frame, ↓setCore_frame, ↓proj_ite, ↓proj_iteP, ite_self]
    | ((with_reducible refine proj_mk_trans ?_ ?_); · ((fail_if_success with_reducible rfl); rfl))
    | (with_reducible refine (next_eq (by assumption) (vecInstr_frame (by decide) _ _ _ _)).trans ?_)
    | split

theorem vecStart_frame {m0 : Nat} (hm0 : m0 &&& 2147483652 = 2147483652) (c : CoreId) (ctx : CtxId) (h : CmdHdr) (s : State) :
    proj m0 (vecStart c ctx h s) = proj m0 s := by
  refine proj_mono hm0 ?_
  unfold vecStart
  try dsimp -proj only
  repeat' first
    | simp +decide only [↓modCore_frame, ↓proj_ite, ↓proj_iteP, ite_self]
    | ((with_reducible refine proj_mk_trans ?_ ?_); · ((fail_if_success with_reducible rfl); rfl))
    | split

theorem vecEnd_frame {m0 : Nat} (hm0 : m0 &&& 2684354820 = 2684354820) (c : CoreId) (ctx : CtxId) (h : CmdHdr) (s : State) :
    proj m0 (vecEnd c ctx h s) = proj m0 s := by
  refine proj_mono hm0 ?_
  unfold vecEnd
  try dsimp -proj only
  repeat' first
    | simp +decide only [↓modCore_frame, ↓traceEnd_frame, ↓ctxDone_frame, ↓proj_ite, ↓proj_iteP, ite_self]
    | ((with_reducible refine proj_mk_trans ?_ ?_); · ((fail_if_success with_reducible rfl); rfl))
    | split

theorem issueVec_frame {m0 : Nat} (hm0 : m0 &&& 2952790324 = 2952790324) (c : CoreId) (ctx : CtxId) (op : VecOp) (prog : List W64) (resid : List (Nat × Nat)) (s : State) :
    outProj m0 s (issueVec c ctx op prog resid s) := by
  refine outProj_mono hm0 ?_
  unfold issueVec
  try dsimp -proj only
  repeat' first
    | (with_reducible exact outProj_fault)
    | (with_reducible exact outProj_refused)
    | (with_reducible refine outProj_next ?_)
    | (with_reducible refine ite_projR ?_ ?_)
    | (with_reducible exact vecRun_frame (by decide) _ _ _ _)
    | simp +decide only [↓vecStart_frame, ↓startCmdCnt_frame, ↓ctxIssued_frame, ↓traceStart_frame, ↓vecEnd_frame, ↓proj_ite, ↓proj_iteP, ite_self]
    | ((with_reducible refine proj_mk_trans ?_ ?_); · ((fail_if_success with_reducible rfl); rfl))
    | (with_reducible refine (next_eq (by assumption) (vecRun_frame (by decide) _ _ _ _)).trans ?_)
    | split

theorem execNop_frame {m0 : Nat} (hm0 : m0 &&& 4 = 4) (c : CoreId) (ctx : CtxId) (h : CmdHdr) (s : State) :
    outProj m0 s (execNop c ctx h s) := by
  refine outProj_mono hm0 ?_
  unfold execNop
  try dsimp -proj only
  repeat' first
    | (with_reducible refine outProj_next ?_)
    | (with_reducible refine ite_projR ?_ ?_)
    | simp +decide only [↓ctxDone_frame, ↓ctxIssued_frame, ↓proj_ite, ↓proj_iteP, ite_self]
    | ((with_reducible refine proj_mk_trans ?_ ?_); · ((fail_if_success with_reducible rfl); rfl))
    | split

theorem tokenSet_frame {m0 : Nat} (hm0 : m0 &&& 24 = 24) (c : CoreId) (ctx : CtxId) (t : Nat) (v : Nat) (s : State) :
    proj m0 (tokenSet c ctx t v s) = proj m0 s := by
  refine proj_mono hm0 ?_
  unfold tokenSet
  try dsimp -proj only
  repeat' first
    | simp +decide only [↓modCluster_frame, ↓modDie_frame, ↓proj_ite, ↓proj_iteP, ite_self]
    | ((with_reducible refine proj_mk_trans ?_ ?_); · ((fail_if_success with_reducible rfl); rfl))
    | split

theorem setCtxState_frame {m0 : Nat} (hm0 : m0 &&& 4 = 4) (c : CoreId) (ctx : CtxId) (st : CtxState) (s : State) :
    proj m0 (setCtxState c ctx st s) = proj m0 s := by
  refine proj_mono hm0 ?_
  unfold setCtxState
  try dsimp -proj only
  repeat' first
    | simp +decide only [↓modCore_frame, ↓proj_ite, ↓proj_iteP, ite_self]
    | ((with_reducible refine proj_mk_trans ?_ ?_); · ((fail_if_success with_reducible rfl); rfl))
    | split

theorem execWait_frame {m0 : Nat} (hm0 : m0 &&& 28 = 28) (c : CoreId) (ctx : CtxId) (op : TokenOp) (s : State) :
    outProj m0 s (execWait c ctx op s) := by
  refine outProj_mono hm0 ?_
  unfold execWait
  try dsimp -proj only
  repeat' first
    | (with_reducible exact outProj_refused)
    | (with_reducible refine outProj_next ?_)
    | (with_reducible refine ite_projR ?_ ?_)
    | simp +decide only [↓setCtxState_frame, ↓tokenSet_frame, ↓ctxDone_frame, ↓ctxIssued_frame, ↓proj_ite, ↓proj_iteP, ite_self]
    | ((with_reducible refine proj_mk_trans ?_ ?_); · ((fail_if_success with_reducible rfl); rfl))
    | split

theorem execSignal_frame {m0 : Nat} (hm0 : m0 &&& 2147483708 = 2147483708) (c : CoreId) (ctx : CtxId) (op : TokenOp) (s : State) :
    outProj m0 s (execSignal c ctx op s) := by
  refine outProj_mono hm0 ?_
  unfold execSignal
  try dsimp -proj only
  repeat' first
    | (with_reducible exact outProj_refused)
    | (with_reducible refine outProj_next ?_)
    | (with_reducible refine ite_projR ?_ ?_)
    | simp +decide only [↓tokenSet_frame, ↓reportWith_frame, ↓ctxDone_frame, ↓ctxIssued_frame, ↓proj_ite, ↓proj_iteP, ite_self]
    | ((with_reducible refine proj_mk_trans ?_ ?_); · ((fail_if_success with_reducible rfl); rfl))
    | split

theorem guardedLine_frame {m0 : Nat} (hm0 : m0 &&& 3020079136 = 3020079136) (s : State) (slot : SlotId) (o : StandObj) (k : Nat) (j : Nat) :
    proj m0 (guardedLine s slot o k j).2 = proj m0 s := by
  refine proj_mono hm0 ?_
  unfold guardedLine
  try dsimp -proj only
  repeat' first
    | simp +decide only [↓readDpa_frame, ↓proj_ite, ↓proj_iteP, ite_self]
    | ((with_reducible refine proj_mk_trans ?_ ?_); · ((fail_if_success with_reducible rfl); rfl))
    | (with_reducible refine (snd_eq (by assumption) (readDpa_frame (by decide) _ _ _)).trans ?_)
    | split

theorem guardedLines_frame {m0 : Nat} (hm0 : m0 &&& 3020079136 = 3020079136) (slot : SlotId) (o : StandObj) (k : Nat) (a3 : List Nat) (a4 : State) :
    proj m0 (guardedLines slot o k a3 a4).2 = proj m0 a4 := by
  refine proj_mono hm0 ?_
  fun_induction guardedLines slot o k a3 a4
  try dsimp -proj only
  repeat' first
    | simp +decide only [↓guardedLine_frame, ↓proj_ite, ↓proj_iteP, ite_self]
    | (with_reducible refine (foldl_proj _ _ ?_ _).trans ?_; intro _ _)
    | (with_reducible refine (foldl_projP _ _ ?_ _).trans ?_; intro _ _)
    | ((with_reducible refine proj_mk_trans ?_ ?_); · ((fail_if_success with_reducible rfl); rfl))
    | (with_reducible refine (snd_eq (by assumption) (guardedLine_frame (by decide) _ _ _ _ _)).trans ?_)
    | (with_reducible refine Eq.trans (by assumption) ?_)
    | (with_reducible refine (snd_eq (by assumption) (by assumption)).trans ?_)
    | (with_reducible refine (trip_eq (by assumption) (by assumption)).trans ?_)
    | (with_reducible refine elim_proj ?_ ?_)
    | (with_reducible intro _)
    | (dsimp -proj +zetaDelta only)
    | split

theorem segWords_frame {m0 : Nat} (hm0 : m0 &&& 3020079136 = 3020079136) (slot : SlotId) (o : StandObj) (k : Nat) (s : State) :
    proj m0 (segWords slot o k s).2 = proj m0 s := by
  refine proj_mono hm0 ?_
  unfold segWords
  try dsimp -proj only
  repeat' first
    | simp +decide only [↓guardedLines_frame, ↓proj_ite, ↓proj_iteP, ite_self]
    | ((with_reducible refine proj_mk_trans ?_ ?_); · ((fail_if_success with_reducible rfl); rfl))
    | split

theorem countWalks_frame {m0 : Nat} (hm0 : m0 &&& 805306368 = 805306368) (c : CoreId) (visits : Nat) (nans : Nat) (s : State) :
    proj m0 (countWalks c visits nans s) = proj m0 s := by
  refine proj_mono hm0 ?_
  unfold countWalks
  try dsimp -proj only
  repeat' first
    | simp +decide only [↓addCnt_frame, ↓setSticky_frame, ↓proj_ite, ↓proj_iteP, ite_self]
    | ((with_reducible refine proj_mk_trans ?_ ?_); · ((fail_if_success with_reducible rfl); rfl))
    | split

theorem countCut_frame {m0 : Nat} (hm0 : m0 &&& 2952790016 = 2952790016) (c : CoreId) (ws : List Walk) (s : State) :
    proj m0 (countCut c ws s) = proj m0 s := by
  refine proj_mono hm0 ?_
  unfold countCut
  try dsimp -proj only
  repeat' first
    | simp +decide only [↓drawFree_frame, ↓countWalks_frame, ↓proj_ite, ↓proj_iteP, ite_self]
    | ((with_reducible refine proj_mk_trans ?_ ?_); · ((fail_if_success with_reducible rfl); rfl))
    | split

theorem reloadWord_frame {m0 : Nat} (hm0 : m0 &&& 3020079140 = 3020079140) (c : CoreId) (e : SegEntry) (o : StandObj) (f : NodeFault) (s : State) :
    proj m0 (reloadWord c e o f s) = proj m0 s := by
  refine proj_mono hm0 ?_
  unfold reloadWord
  try dsimp -proj only
  repeat' first
    | simp +decide only [↓guardedLine_frame, ↓modCore_frame, ↓proj_ite, ↓proj_iteP, ite_self]
    | ((with_reducible refine proj_mk_trans ?_ ?_); · ((fail_if_success with_reducible rfl); rfl))
    | split

theorem nodeFault_frame {m0 : Nat} (hm0 : m0 &&& 3020079140 = 3020079140) (c : CoreId) (slot : SlotId) (layer : W16) (op : W16) (o : StandObj) (ws : Nat → List Walk) (s : State) (f : NodeFault) :
    proj m0 (nodeFault c slot layer op o ws s f) = proj m0 s := by
  refine proj_mono hm0 ?_
  unfold nodeFault
  try dsimp -proj only
  repeat' first
    | simp +decide only [↓setSticky_frame, ↓incCnt_frame, ↓reportWith_frame, ↓countCut_frame, ↓reloadWord_frame, ↓modCore_frame, ↓fenceCore_frame, ↓proj_ite, ↓proj_iteP, ite_self]
    | ((with_reducible refine proj_mk_trans ?_ ?_); · ((fail_if_success with_reducible rfl); rfl))
    | split

theorem treeClean_frame {m0 : Nat} (hm0 : m0 &&& 4 = 4) (c : CoreId) (s : State) : proj m0 (treeClean c s) = proj m0 s := by
  refine proj_mono hm0 ?_
  unfold treeClean
  try dsimp -proj only
  repeat' first
    | simp +decide only [↓modCore_frame, ↓proj_ite, ↓proj_iteP, ite_self]
    | ((with_reducible refine proj_mk_trans ?_ ?_); · ((fail_if_success with_reducible rfl); rfl))
    | split

theorem countStalls_frame {m0 : Nat} (hm0 : m0 &&& 2684354560 = 2684354560) (c : CoreId) (items : Nat) (s : State) :
    proj m0 (countStalls c items s) = proj m0 s := by
  refine proj_mono hm0 ?_
  unfold countStalls
  try dsimp -proj only
  repeat' first
    | simp +decide only [↓drawFree_frame, ↓addCnt_frame, ↓proj_ite, ↓proj_iteP, ite_self]
    | ((with_reducible refine proj_mk_trans ?_ ?_); · ((fail_if_success with_reducible rfl); rfl))
    | split

theorem issueTree_frame {m0 : Nat} (hm0 : m0 &&& 3020079396 = 3020079396) (c : CoreId) (ctx : CtxId) (op : TreeOp) (faults : List NodeFault) (s : State) :
    outProj m0 s (issueTree c ctx op faults s) := by
  refine outProj_mono hm0 ?_
  unfold issueTree
  try dsimp -proj only
  repeat' first
    | (with_reducible exact outProj_fault)
    | (with_reducible exact outProj_refused)
    | (with_reducible refine outProj_next ?_)
    | (with_reducible refine ite_projR ?_ ?_)
    | simp +decide only [↓startCmdCnt_frame, ↓ctxIssued_frame, ↓traceStart_frame, ↓nodeFault_frame, ↓countCut_frame, ↓countWalks_frame, ↓setCore_frame, ↓setSticky_frame, ↓incCnt_frame, ↓countStalls_frame, ↓treeClean_frame, ↓traceEnd_frame, ↓ctxDone_frame, ↓proj_ite, ↓proj_iteP, ite_self]
    | (with_reducible refine (foldl_proj _ _ ?_ _).trans ?_; intro _ _)
    | (with_reducible refine (foldl_projP _ _ ?_ _).trans ?_; intro _ _)
    | ((with_reducible refine proj_mk_trans ?_ ?_); · ((fail_if_success with_reducible rfl); rfl))
    | split

theorem execParityStrikeClear_frame {m0 : Nat} (hm0 : m0 &&& 4 = 4) (c : CoreId) (s : State) :
    outProj m0 s (execParityStrikeClear c s) := by
  refine outProj_mono hm0 ?_
  unfold execParityStrikeClear
  try dsimp -proj only
  repeat' first
    | (with_reducible refine outProj_next ?_)
    | (with_reducible refine ite_projR ?_ ?_)
    | simp +decide only [↓setCore_frame, ↓proj_ite, ↓proj_iteP, ite_self]
    | ((with_reducible refine proj_mk_trans ?_ ?_); · ((fail_if_success with_reducible rfl); rfl))
    | split

theorem readFlow_frame {m0 : Nat} (hm0 : m0 &&& 3020079136 = 3020079136) (t : Tbl) (row : Nat) (s : State) :
    proj m0 (readFlow t row s).2 = proj m0 s := by
  refine proj_mono hm0 ?_
  unfold readFlow
  try dsimp -proj only
  repeat' first
    | simp +decide only [↓readDpa_frame, ↓incCnt_frame, ↓proj_ite, ↓proj_iteP, ite_self]
    | ((with_reducible refine proj_mk_trans ?_ ?_); · ((fail_if_success with_reducible rfl); rfl))
    | split

theorem writeFlow_frame {m0 : Nat} (hm0 : m0 &&& 3020079136 = 3020079136) (t : Tbl) (row : Nat) (r : FlowRec) (s : State) :
    proj m0 (writeFlow t row r s) = proj m0 s := by
  refine proj_mono hm0 ?_
  unfold writeFlow
  try dsimp -proj only
  repeat' first
    | simp +decide only [↓writeDpa_frame, ↓proj_ite, ↓proj_iteP, ite_self]
    | ((with_reducible refine proj_mk_trans ?_ ?_); · ((fail_if_success with_reducible rfl); rfl))
    | split

theorem applyFrame_frame {m0 : Nat} (hm0 : m0 &&& 3020079136 = 3020079136) (t : Tbl) (row : Nat) (f : FlowFrame) (s : State) :
    proj m0 (applyFrame t row f s).2 = proj m0 s := by
  refine proj_mono hm0 ?_
  unfold applyFrame
  try dsimp -proj only
  repeat' first
    | simp +decide only [↓readFlow_frame, ↓writeFlow_frame, ↓proj_ite, ↓proj_iteP, ite_self]
    | ((with_reducible refine proj_mk_trans ?_ ?_); · ((fail_if_success with_reducible rfl); rfl))
    | (with_reducible refine (snd_eq (by assumption) (readFlow_frame (by decide) _ _ _)).trans ?_)
    | split

theorem offerUnscored_frame {m0 : Nat} (hm0 : m0 &&& 25165824 = 25165824) (k : Nat) (outs : List W32) (s : State) :
    proj m0 (offerUnscored k outs s) = proj m0 s := by
  refine proj_mono hm0 ?_
  unfold offerUnscored
  try dsimp -proj only
  repeat' first
    | simp +decide only [↓offer_frame, ↓modReq_frame, ↓proj_ite, ↓proj_iteP, ite_self]
    | ((with_reducible refine proj_mk_trans ?_ ?_); · ((fail_if_success with_reducible rfl); rfl))
    | split

theorem sendSample_frame {m0 : Nat} (hm0 : m0 &&& 566231040 = 566231040) (f : FlowFrame) (row : Nat) (r : FlowRec) (s : State) :
    proj m0 (sendSample f row r s) = proj m0 s := by
  refine proj_mono hm0 ?_
  unfold sendSample
  try dsimp -proj only
  repeat' first
    | simp +decide only [↓incCnt_frame, ↓offerUnscored_frame, ↓modReq_frame, ↓proj_ite, ↓proj_iteP, ite_self]
    | ((with_reducible refine proj_mk_trans ?_ ?_); · ((fail_if_success with_reducible rfl); rfl))
    | split

theorem flowUntracked_frame {m0 : Nat} (hm0 : m0 &&& 562036736 = 562036736) (f : FlowFrame) (s : State) :
    proj m0 (flowUntracked f s) = proj m0 s := by
  refine proj_mono hm0 ?_
  unfold flowUntracked
  try dsimp -proj only
  repeat' first
    | simp +decide only [↓incCnt_frame, ↓offer_frame, ↓modReq_frame, ↓proj_ite, ↓proj_iteP, ite_self]
    | ((with_reducible refine proj_mk_trans ?_ ?_); · ((fail_if_success with_reducible rfl); rfl))
    | split

theorem noteIndex_frame {m0 : Nat} (hm0 : m0 &&& 8388608 = 8388608) (f : FlowFrame) (row : Nat) (s : State) :
    proj m0 (noteIndex f row s) = proj m0 s := by
  refine proj_mono hm0 ?_
  unfold noteIndex
  try dsimp -proj only
  repeat' first
    | simp +decide only [↓modReq_frame, ↓proj_ite, ↓proj_iteP, ite_self]
    | ((with_reducible refine proj_mk_trans ?_ ?_); · ((fail_if_success with_reducible rfl); rfl))
    | split

theorem dropIndex_frame {m0 : Nat} (hm0 : m0 &&& 8388608 = 8388608) (f : FlowFrame) (s : State) :
    proj m0 (dropIndex f s) = proj m0 s := by
  refine proj_mono hm0 ?_
  unfold dropIndex
  try dsimp -proj only
  repeat' first
    | simp +decide only [↓modReq_frame, ↓proj_ite, ↓proj_iteP, ite_self]
    | ((with_reducible refine proj_mk_trans ?_ ?_); · ((fail_if_success with_reducible rfl); rfl))
    | split

theorem touchFlow_frame {m0 : Nat} (hm0 : m0 &&& 3020603424 = 3020603424) (t : Nat) (f : Found) (s : State) :
    proj m0 (touchFlow t f s) = proj m0 s := by
  refine proj_mono hm0 ?_
  unfold touchFlow
  try dsimp -proj only
  repeat' first
    | simp +decide only [↓touchKey_frame, ↓proj_ite, ↓proj_iteP, ite_self]
    | ((with_reducible refine proj_mk_trans ?_ ?_); · ((fail_if_success with_reducible rfl); rfl))
    | split

theorem execFlowUpdate_frame {m0 : Nat} (hm0 : m0 &&& 3049963552 = 3049963552) (s : State) :
    outProj m0 s (execFlowUpdate s) := by
  have fq : ∀ (s : State) (q : List (Nat × FlowFrame)),
      proj 3049963552 { s with flow := { s.flow with queue := q } } = proj 3049963552 s := fun _ _ => rfl
  have fi : ∀ (s : State) (n : Nat) (a : List Nat) (b : List FlowIns),
      proj 3049963552 { s with tbl := { s.tbl with ords := n }, flow := { s.flow with used := a, inserts := b } } =
        proj 3049963552 s := fun _ _ _ _ => rfl
  refine outProj_mono hm0 ?_
  unfold execFlowUpdate
  split
  · exact outProj_next rfl
  · rename_i f rest _
    have h0 := fq s rest
    revert h0
    generalize ({ s with flow := { s.flow with queue := rest } } : State) = u
    intro h0
    dsimp -proj only
    split
    · exact outProj_next ((flowUntracked_frame (by decide) _ _).trans h0)
    · split
      · rename_i e
        have h1 := (snd_eq e (findKey_frame (by decide) _ _ _ _)).trans h0
        refine outProj_next ?_
        refine ite_proj ((sendSample_frame (by decide) _ _ _ _).trans ?_) ?_
        all_goals exact (incCnt_frame (by decide) _ _).trans ((touchFlow_frame (by decide) _ _ _).trans
          ((noteIndex_frame (by decide) _ _ _).trans ((applyFrame_frame (by decide) _ _ _ _).trans h1)))
      · rename_i e
        have h1 := (snd_eq e (findKey_frame (by decide) _ _ _ _)).trans h0
        refine ite_projR (outProj_next ((flowUntracked_frame (by decide) _ _).trans h1)) (outProj_next ?_)
        refine ite_proj ((sendSample_frame (by decide) _ _ _ _).trans ?_) ?_
        all_goals exact (incCnt_frame (by decide) _ _).trans ((noteIndex_frame (by decide) _ _ _).trans ((fi _ _ _ _).trans
          ((writeFlow_frame (by decide) _ _ _ _).trans h1)))

theorem redirect_frame {m0 : Nat} (hm0 : m0 &&& 4194312 = 4194312) (key : Nat) (ix : Nat) (to_ : Nat) (s : State) :
    proj m0 (redirect key ix to_ s) = proj m0 s := by
  refine proj_mono hm0 ?_
  unfold redirect
  try dsimp -proj only
  repeat' first
    | simp +decide only [↓modCluster_frame, ↓proj_ite, ↓proj_iteP, ite_self]
    | (with_reducible refine (foldl_proj _ _ ?_ _).trans ?_; intro _ _)
    | (with_reducible refine (foldl_projP _ _ ?_ _).trans ?_; intro _ _)
    | ((with_reducible refine proj_mk_trans ?_ ?_); · ((fail_if_success with_reducible rfl); rfl))
    | split

theorem freeIndex_frame {m0 : Nat} (hm0 : m0 &&& 4194304 = 4194304) (ix : Nat) (s : State) :
    proj m0 (freeIndex ix s) = proj m0 s := by
  refine proj_mono hm0 ?_
  unfold freeIndex
  try dsimp -proj only
  repeat' first
    | simp +decide only [↓proj_ite, ↓proj_iteP, ite_self]
    | ((with_reducible refine proj_mk_trans ?_ ?_); · ((fail_if_success with_reducible rfl); rfl))
    | split

theorem execFlowInsert_frame {m0 : Nat} (hm0 : m0 &&& 3033186344 = 3033186344) (s : State) :
    outProj m0 s (execFlowInsert s) := by
  refine outProj_mono hm0 ?_
  unfold execFlowInsert
  try dsimp -proj only
  repeat' first
    | (with_reducible refine outProj_next ?_)
    | (with_reducible refine ite_projR ?_ ?_)
    | simp +decide only [↓freeIndex_frame, ↓findKey_frame, ↓applyFrame_frame, ↓redirect_frame, ↓noteIndex_frame, ↓incCnt_frame, ↓touchFlow_frame, ↓insertNow_frame, ↓dropIndex_frame, ↓proj_ite, ↓proj_iteP, ite_self]
    | ((with_reducible refine proj_mk_trans ?_ ?_); · ((fail_if_success with_reducible rfl); rfl))
    | (with_reducible refine (snd_eq (by assumption) (findKey_frame (by decide) _ _ _ _)).trans ?_)
    | (with_reducible refine (snd_eq (by assumption) (applyFrame_frame (by decide) _ _ _ _)).trans ?_)
    | (with_reducible refine (snd_eq (by assumption) (insertNow_frame (by decide) _ _ _)).trans ?_)
    | split

theorem ageFlow_frame {m0 : Nat} (hm0 : m0 &&& 3020603424 = 3020603424) (t : Nat) (x : Tbl) (b : Nat) (s : State) :
    proj m0 (ageFlow t x b s) = proj m0 s := by
  refine proj_mono hm0 ?_
  unfold ageFlow
  try dsimp -proj only
  repeat' first
    | simp +decide only [↓modTbl_frame, ↓bucketRd_frame, ↓putSlot_frame, ↓proj_ite, ↓proj_iteP, ite_self]
    | (with_reducible refine (foldl_proj _ _ ?_ _).trans ?_; intro _ _)
    | (with_reducible refine (foldl_projP _ _ ?_ _).trans ?_; intro _ _)
    | ((with_reducible refine proj_mk_trans ?_ ?_); · ((fail_if_success with_reducible rfl); rfl))
    | (with_reducible refine (snd_eq (by assumption) (bucketRd_frame (by decide) _ _ _)).trans ?_)
    | split

theorem endFlowVisit_frame {m0 : Nat} (hm0 : m0 &&& 3024797728 = 3024797728) (t : Nat) (x : Tbl) (s : State) (b : Nat) :
    proj m0 (endFlowVisit t x s b) = proj m0 s := by
  refine proj_mono hm0 ?_
  unfold endFlowVisit
  try dsimp -proj only
  repeat' first
    | simp +decide only [↓bucketRd_frame, ↓incCnt_frame, ↓putSlot_frame, ↓freeIndex_frame, ↓proj_ite, ↓proj_iteP, ite_self]
    | (with_reducible refine (foldl_proj _ _ ?_ _).trans ?_; intro _ _)
    | (with_reducible refine (foldl_projP _ _ ?_ _).trans ?_; intro _ _)
    | ((with_reducible refine proj_mk_trans ?_ ?_); · ((fail_if_success with_reducible rfl); rfl))
    | split

theorem endVisits_frame {m0 : Nat} (hm0 : m0 &&& 3024797728 = 3024797728) (s : State) :
    proj m0 (endVisits s) = proj m0 s := by
  refine proj_mono hm0 ?_
  unfold endVisits
  try dsimp -proj only
  repeat' first
    | simp +decide only [↓modTbl_frame, ↓endFlowVisit_frame, ↓endFwdVisits_frame, ↓proj_ite, ↓proj_iteP, ite_self]
    | (with_reducible refine (foldl_proj _ _ ?_ _).trans ?_; intro _ _)
    | (with_reducible refine (foldl_projP _ _ ?_ _).trans ?_; intro _ _)
    | ((with_reducible refine proj_mk_trans ?_ ?_); · ((fail_if_success with_reducible rfl); rfl))
    | split

theorem execAgingVisit_frame {m0 : Nat} (hm0 : m0 &&& 3020603424 = 3020603424) (sweep : SweepOf) (bucket : Nat) (s : State) :
    outProj m0 s (execAgingVisit sweep bucket s) := by
  refine outProj_mono hm0 ?_
  unfold execAgingVisit
  try dsimp -proj only
  repeat' first
    | (with_reducible refine outProj_next ?_)
    | (with_reducible refine ite_projR ?_ ?_)
    | simp +decide only [↓ageFwd_frame, ↓ageFlow_frame, ↓proj_ite, ↓proj_iteP, ite_self]
    | ((with_reducible refine proj_mk_trans ?_ ?_); · ((fail_if_success with_reducible rfl); rfl))
    | split

theorem lastOuts_frame {m0 : Nat} (hm0 : m0 &&& 3020079136 = 3020079136) (index : Option Nat) (s : State) :
    proj m0 (lastOuts index s).2 = proj m0 s := by
  refine proj_mono hm0 ?_
  unfold lastOuts
  try dsimp -proj only
  repeat' first
    | simp +decide only [↓readFlow_frame, ↓proj_ite, ↓proj_iteP, ite_self]
    | ((with_reducible refine proj_mk_trans ?_ ?_); · ((fail_if_success with_reducible rfl); rfl))
    | (with_reducible refine (snd_eq (by assumption) (readFlow_frame (by decide) _ _ _)).trans ?_)
    | split

theorem unscored_frame {m0 : Nat} (hm0 : m0 &&& 3045244960 = 3045244960) (x : Sample) (s : State) :
    proj m0 (unscored x s) = proj m0 s := by
  refine proj_mono hm0 ?_
  unfold unscored
  try dsimp -proj only
  repeat' first
    | simp +decide only [↓lastOuts_frame, ↓offerUnscored_frame, ↓proj_ite, ↓proj_iteP, ite_self]
    | ((with_reducible refine proj_mk_trans ?_ ?_); · ((fail_if_success with_reducible rfl); rfl))
    | (with_reducible refine (snd_eq (by assumption) (lastOuts_frame (by decide) _ _)).trans ?_)
    | split

theorem execFlowSample_frame {m0 : Nat} (hm0 : m0 &&& 3049439272 = 3049439272) (s : State) :
    outProj m0 s (execFlowSample s) := by
  refine outProj_mono hm0 ?_
  unfold execFlowSample
  try dsimp -proj only
  repeat' first
    | (with_reducible refine outProj_next ?_)
    | (with_reducible refine ite_projR ?_ ?_)
    | simp +decide only [↓unscored_frame, ↓incCnt_frame, ↓modCluster_frame, ↓proj_ite, ↓proj_iteP, ite_self]
    | ((with_reducible refine proj_mk_trans ?_ ?_); · ((fail_if_success with_reducible rfl); rfl))
    | split

theorem execSampleDispatch_frame {m0 : Nat} (hm0 : m0 &&& 3045244972 = 3045244972) (k : ClusterId) (s : State) :
    outProj m0 s (execSampleDispatch k s) := by
  refine outProj_mono hm0 ?_
  unfold execSampleDispatch
  try dsimp -proj only
  repeat' first
    | (with_reducible refine outProj_next ?_)
    | (with_reducible refine ite_projR ?_ ?_)
    | simp +decide only [↓unscored_frame, ↓modCluster_frame, ↓modCore_frame, ↓proj_ite, ↓proj_iteP, ite_self]
    | (with_reducible refine (foldl_proj _ _ ?_ _).trans ?_; intro _ _)
    | (with_reducible refine (foldl_projP _ _ ?_ _).trans ?_; intro _ _)
    | ((with_reducible refine proj_mk_trans ?_ ?_); · ((fail_if_success with_reducible rfl); rfl))
    | split

theorem fillStream_frame {m0 : Nat} (hm0 : m0 &&& 4 = 4) (c : CoreId) (s : State) :
    proj m0 (fillStream c s) = proj m0 s := by
  refine proj_mono hm0 ?_
  unfold fillStream
  try dsimp -proj only
  repeat' first
    | simp +decide only [↓modCore_frame, ↓proj_ite, ↓proj_iteP, ite_self]
    | ((with_reducible refine proj_mk_trans ?_ ?_); · ((fail_if_success with_reducible rfl); rfl))
    | split

theorem execSegmentSumDone_frame {m0 : Nat} (hm0 : m0 &&& 3020079148 = 3020079148) (c : CoreId) (faults : List NodeFault) (s : State) :
    outProj m0 s (execSegmentSumDone c faults s) := by
  refine outProj_mono hm0 ?_
  unfold execSegmentSumDone
  try dsimp -proj only
  repeat' first
    | (with_reducible refine outProj_next ?_)
    | (with_reducible refine ite_projR ?_ ?_)
    | simp +decide only [↓fillStream_frame, ↓nodeFault_frame, ↓countCut_frame, ↓incCnt_frame, ↓countWalks_frame, ↓countStalls_frame, ↓treeClean_frame, ↓modCluster_frame, ↓proj_ite, ↓proj_iteP, ite_self]
    | (with_reducible refine (foldl_proj _ _ ?_ _).trans ?_; intro _ _)
    | (with_reducible refine (foldl_projP _ _ ?_ _).trans ?_; intro _ _)
    | ((with_reducible refine proj_mk_trans ?_ ?_); · ((fail_if_success with_reducible rfl); rfl))
    | split

theorem sampleRecord_frame {m0 : Nat} (hm0 : m0 &&& 3020079136 = 3020079136) (t : Nat) (x : Tbl) (sm : Sample) (s : State) :
    proj m0 (sampleRecord t x sm s).2 = proj m0 s := by
  refine proj_mono hm0 ?_
  unfold sampleRecord
  try dsimp -proj only
  repeat' first
    | simp +decide only [↓findKey_frame, ↓proj_ite, ↓proj_iteP, ite_self]
    | ((with_reducible refine proj_mk_trans ?_ ?_); · ((fail_if_success with_reducible rfl); rfl))
    | split

theorem execStandOutputsReturn_frame {m0 : Nat} (hm0 : m0 &&& 3082208552 = 3082208552) (k : ClusterId) (s : State) :
    outProj m0 s (execStandOutputsReturn k s) := by
  refine outProj_mono hm0 ?_
  unfold execStandOutputsReturn
  try dsimp -proj only
  repeat' first
    | (with_reducible refine outProj_next ?_)
    | (with_reducible refine ite_projR ?_ ?_)
    | simp +decide only [↓unscored_frame, ↓modCluster_frame, ↓sampleRecord_frame, ↓readFlow_frame, ↓writeFlow_frame, ↓answerPoison_frame, ↓offer_frame, ↓modReq_frame, ↓proj_ite, ↓proj_iteP, ite_self]
    | ((with_reducible refine proj_mk_trans ?_ ?_); · ((fail_if_success with_reducible rfl); rfl))
    | (with_reducible refine (snd_eq (by assumption) (sampleRecord_frame (by decide) _ _ _ _)).trans ?_)
    | (with_reducible refine (snd_eq (by assumption) (readFlow_frame (by decide) _ _ _)).trans ?_)
    | (with_reducible intro _)
    | split

theorem execScoreWaitExpire_frame {m0 : Nat} (hm0 : m0 &&& 3045244960 = 3045244960) (d : NDie) (ix : Nat) (s : State) :
    outProj m0 s (execScoreWaitExpire d ix s) := by
  refine outProj_mono hm0 ?_
  unfold execScoreWaitExpire
  try dsimp -proj only
  repeat' first
    | (with_reducible refine outProj_next ?_)
    | (with_reducible refine ite_projR ?_ ?_)
    | simp +decide only [↓incCnt_frame, ↓lastOuts_frame, ↓offerUnscored_frame, ↓proj_ite, ↓proj_iteP, ite_self]
    | ((with_reducible refine proj_mk_trans ?_ ?_); · ((fail_if_success with_reducible rfl); rfl))
    | (with_reducible refine (snd_eq (by assumption) (lastOuts_frame (by decide) _ _)).trans ?_)
    | split

theorem execSegmentMove_frame {m0 : Nat} (hm0 : m0 &&& 3020079140 = 3020079140) (c : CoreId) (s : State) :
    outProj m0 s (execSegmentMove c s) := by
  refine outProj_mono hm0 ?_
  unfold execSegmentMove
  try dsimp -proj only
  repeat' first
    | (with_reducible refine outProj_next ?_)
    | simp +decide only [↓modCore_frame, ↓segWords_frame, ↓fillStream_frame, ↓proj_ite, ↓proj_iteP, ite_self]
    | ((with_reducible refine proj_mk_trans ?_ ?_); · ((fail_if_success with_reducible rfl); rfl))
    | (with_reducible refine (snd_eq (by assumption) (segWords_frame (by decide) _ _ _ _)).trans ?_)
    | split

theorem dropItem_frame {m0 : Nat} (hm0 : m0 &&& 598737920 = 598737920) (g : Nat) (it : QItem) (s : State) :
    proj m0 (dropItem g it s) = proj m0 s := by
  refine proj_mono hm0 ?_
  unfold dropItem
  try dsimp -proj only
  repeat' first
    | simp +decide only [↓incCnt_frame, ↓dropFrame_frame, ↓freeEntry_frame, ↓proj_ite, ↓proj_iteP, ite_self]
    | ((with_reducible refine proj_mk_trans ?_ ?_); · ((fail_if_success with_reducible rfl); rfl))
    | split

theorem portDown_frame {m0 : Nat} (hm0 : m0 &&& 598737920 = 598737920) (g : Nat) (st : Nat) (s : State) :
    proj m0 (portDown g st s) = proj m0 s := by
  refine proj_mono hm0 ?_
  unfold portDown
  try dsimp -proj only
  repeat' first
    | simp +decide only [↓setEPort_frame, ↓dropItem_frame, ↓proj_ite, ↓proj_iteP, ite_self]
    | (with_reducible refine (foldl_proj _ _ ?_ _).trans ?_; intro _ _)
    | (with_reducible refine (foldl_projP _ _ ?_ _).trans ?_; intro _ _)
    | ((with_reducible refine proj_mk_trans ?_ ?_); · ((fail_if_success with_reducible rfl); rfl))
    | split

theorem loseLane_frame {m0 : Nat} (hm0 : m0 &&& 2746221600 = 2746221600) (l : Nat) (dark : Bool) (s : State) :
    proj m0 (loseLane l dark s) = proj m0 s := by
  refine proj_mono hm0 ?_
  unfold loseLane
  try dsimp -proj only
  repeat' first
    | simp +decide only [↓setLane_frame, ↓reportWith_frame, ↓modEPort_frame, ↓portDown_frame, ↓proj_ite, ↓proj_iteP, ite_self]
    | ((with_reducible refine proj_mk_trans ?_ ?_); · ((fail_if_success with_reducible rfl); rfl))
    | split

theorem execLaneLost_frame {m0 : Nat} (hm0 : m0 &&& 2746221600 = 2746221600) (lane : LaneId) (s : State) :
    outProj m0 s (execLaneLost lane s) := by
  refine outProj_mono hm0 ?_
  unfold execLaneLost
  try dsimp -proj only
  repeat' first
    | (with_reducible refine outProj_next ?_)
    | simp +decide only [↓loseLane_frame, ↓proj_ite, ↓proj_iteP, ite_self]
    | ((with_reducible refine proj_mk_trans ?_ ?_); · ((fail_if_success with_reducible rfl); rfl))
    | split

theorem execLaserLowLight_frame {m0 : Nat} (hm0 : m0 &&& 3014657056 = 3014657056) (lane : LaneId) (power : BitVec 12) (s : State) :
    outProj m0 s (execLaserLowLight lane power s) := by
  refine outProj_mono hm0 ?_
  unfold execLaserLowLight
  try dsimp -proj only
  repeat' first
    | (with_reducible refine outProj_next ?_)
    | (with_reducible refine ite_projR ?_ ?_)
    | simp +decide only [↓modLane_frame, ↓setSticky_frame, ↓loseLane_frame, ↓proj_ite, ↓proj_iteP, ite_self]
    | ((with_reducible refine proj_mk_trans ?_ ?_); · ((fail_if_success with_reducible rfl); rfl))
    | split

theorem execPortRewidth_frame {m0 : Nat} (hm0 : m0 &&& 2097152 = 2097152) (port : LaneId) (s : State) :
    outProj m0 s (execPortRewidth port s) := by
  refine outProj_mono hm0 ?_
  unfold execPortRewidth
  try dsimp -proj only
  repeat' first
    | (with_reducible refine outProj_next ?_)
    | simp +decide only [↓modEPort_frame, ↓proj_ite, ↓proj_iteP, ite_self]
    | ((with_reducible refine proj_mk_trans ?_ ?_); · ((fail_if_success with_reducible rfl); rfl))
    | split

theorem rejoin_frame {m0 : Nat} (hm0 : m0 &&& 2097152 = 2097152) (l : Nat) (s : State) :
    proj m0 (rejoin l s) = proj m0 s := by
  refine proj_mono hm0 ?_
  unfold rejoin
  try dsimp -proj only
  repeat' first
    | simp +decide only [↓modLane_frame, ↓modEPort_frame, ↓proj_ite, ↓proj_iteP, ite_self]
    | ((with_reducible refine proj_mk_trans ?_ ?_); · ((fail_if_success with_reducible rfl); rfl))
    | split

theorem execLaneRejoin_frame {m0 : Nat} (hm0 : m0 &&& 2097152 = 2097152) (lane : LaneId) (s : State) :
    outProj m0 s (execLaneRejoin lane s) := by
  refine outProj_mono hm0 ?_
  unfold execLaneRejoin
  try dsimp -proj only
  repeat' first
    | (with_reducible refine outProj_next ?_)
    | simp +decide only [↓rejoin_frame, ↓proj_ite, ↓proj_iteP, ite_self]
    | ((with_reducible refine proj_mk_trans ?_ ?_); · ((fail_if_success with_reducible rfl); rfl))
    | split

theorem execPortUp_frame {m0 : Nat} (hm0 : m0 &&& 2097152 = 2097152) (port : LaneId) (s : State) :
    outProj m0 s (execPortUp port s) := by
  refine outProj_mono hm0 ?_
  unfold execPortUp
  try dsimp -proj only
  repeat' first
    | (with_reducible refine outProj_next ?_)
    | (with_reducible refine ite_projR ?_ ?_)
    | simp +decide only [↓modEPort_frame, ↓modLane_frame, ↓proj_ite, ↓proj_iteP, ite_self]
    | (with_reducible refine (foldl_proj _ _ ?_ _).trans ?_; intro _ _)
    | (with_reducible refine (foldl_projP _ _ ?_ _).trans ?_; intro _ _)
    | ((with_reducible refine proj_mk_trans ?_ ?_); · ((fail_if_success with_reducible rfl); rfl))
    | split

theorem retrainQuad_frame {m0 : Nat} (hm0 : m0 &&& 598737920 = 598737920) (d : NDie) (q : Nat) (s : State) :
    proj m0 (retrainQuad d q s) = proj m0 s := by
  refine proj_mono hm0 ?_
  unfold retrainQuad
  try dsimp -proj only
  repeat' first
    | simp +decide only [↓portDown_frame, ↓modLane_frame, ↓proj_ite, ↓proj_iteP, ite_self]
    | (with_reducible refine (foldl_proj _ _ ?_ _).trans ?_; intro _ _)
    | (with_reducible refine (foldl_projP _ _ ?_ _).trans ?_; intro _ _)
    | ((with_reducible refine proj_mk_trans ?_ ?_); · ((fail_if_success with_reducible rfl); rfl))
    | split

theorem writeQuads_frame {m0 : Nat} (hm0 : m0 &&& 867173376 = 867173376) (d : NDie) (value : Nat) (s : State) :
    proj m0 (writeQuads d value s) = proj m0 s := by
  refine proj_mono hm0 ?_
  unfold writeQuads
  try dsimp -proj only
  repeat' first
    | simp +decide only [↓retrainQuad_frame, ↓setRegW_frame, ↓proj_ite, ↓proj_iteP, ite_self]
    | ((with_reducible refine proj_mk_trans ?_ ?_); · ((fail_if_success with_reducible rfl); rfl))
    | split

theorem execQuadModeWrite_frame {m0 : Nat} (hm0 : m0 &&& 867435520 = 867435520) (p : HPort) (d : NDie) (value : W32) (s : State) :
    outProj m0 s (execQuadModeWrite p d value s) := by
  refine outProj_mono hm0 ?_
  unfold execQuadModeWrite
  try dsimp -proj only
  repeat' first
    | (with_reducible refine outProj_next ?_)
    | (with_reducible refine ite_projR ?_ ?_)
    | simp +decide only [↓discardRws_frame, ↓writeQuads_frame, ↓proj_ite, ↓proj_iteP, ite_self]
    | ((with_reducible refine proj_mk_trans ?_ ?_); · ((fail_if_success with_reducible rfl); rfl))
    | split

theorem enableLanes_frame {m0 : Nat} (hm0 : m0 &&& 2097152 = 2097152) (g : Nat) (s : State) :
    proj m0 (enableLanes g s) = proj m0 s := by
  refine proj_mono hm0 ?_
  unfold enableLanes
  try dsimp -proj only
  repeat' first
    | simp +decide only [↓rejoin_frame, ↓proj_ite, ↓proj_iteP, ite_self]
    | (with_reducible refine (foldl_proj _ _ ?_ _).trans ?_; intro _ _)
    | (with_reducible refine (foldl_projP _ _ ?_ _).trans ?_; intro _ _)
    | ((with_reducible refine proj_mk_trans ?_ ?_); · ((fail_if_success with_reducible rfl); rfl))
    | split

theorem setDom_frame {m0 : Nat} (hm0 : m0 &&& 2751467776 = 2751467776) (n : Nat) (st : Nat) (s : State) :
    proj m0 (setDom n st s) = proj m0 s := by
  refine proj_mono hm0 ?_
  unfold setDom
  try dsimp -proj only
  repeat' first
    | simp +decide only [↓emitTrace_frame, ↓noteStretch_frame, ↓putDom_frame, ↓markStretch_frame, ↓proj_ite, ↓proj_iteP, ite_self]
    | ((with_reducible refine proj_mk_trans ?_ ?_); · ((fail_if_success with_reducible rfl); rfl))
    | split

theorem execCoreSleep_frame {m0 : Nat} (hm0 : m0 &&& 2751467776 = 2751467776) (c : CoreId) (s : State) :
    outProj m0 s (execCoreSleep c s) := by
  refine outProj_mono hm0 ?_
  unfold execCoreSleep
  try dsimp -proj only
  repeat' first
    | (with_reducible refine outProj_next ?_)
    | (with_reducible refine ite_projR ?_ ?_)
    | simp +decide only [↓setDom_frame, ↓proj_ite, ↓proj_iteP, ite_self]
    | ((with_reducible refine proj_mk_trans ?_ ?_); · ((fail_if_success with_reducible rfl); rfl))
    | split

theorem execClusterSleep_frame {m0 : Nat} (hm0 : m0 &&& 2751467776 = 2751467776) (k : ClusterId) (s : State) :
    outProj m0 s (execClusterSleep k s) := by
  refine outProj_mono hm0 ?_
  unfold execClusterSleep
  try dsimp -proj only
  repeat' first
    | (with_reducible refine outProj_next ?_)
    | (with_reducible refine ite_projR ?_ ?_)
    | simp +decide only [↓setDom_frame, ↓proj_ite, ↓proj_iteP, ite_self]
    | ((with_reducible refine proj_mk_trans ?_ ?_); · ((fail_if_success with_reducible rfl); rfl))
    | split

theorem execStackSelfRefresh_frame {m0 : Nat} (hm0 : m0 &&& 2751467776 = 2751467776) (st : StackId) (s : State) :
    outProj m0 s (execStackSelfRefresh st s) := by
  refine outProj_mono hm0 ?_
  unfold execStackSelfRefresh
  try dsimp -proj only
  repeat' first
    | (with_reducible refine outProj_next ?_)
    | (with_reducible refine ite_projR ?_ ?_)
    | simp +decide only [↓setDom_frame, ↓proj_ite, ↓proj_iteP, ite_self]
    | ((with_reducible refine proj_mk_trans ?_ ?_); · ((fail_if_success with_reducible rfl); rfl))
    | split

theorem execLaneStandby_frame {m0 : Nat} (hm0 : m0 &&& 2753564928 = 2753564928) (lane : LaneId) (s : State) :
    outProj m0 s (execLaneStandby lane s) := by
  refine outProj_mono hm0 ?_
  unfold execLaneStandby
  try dsimp -proj only
  repeat' first
    | (with_reducible refine outProj_next ?_)
    | (with_reducible refine ite_projR ?_ ?_)
    | simp +decide only [↓modLane_frame, ↓setDom_frame, ↓proj_ite, ↓proj_iteP, ite_self]
    | ((with_reducible refine proj_mk_trans ?_ ?_); · ((fail_if_success with_reducible rfl); rfl))
    | split

theorem loseMemory_frame {m0 : Nat} (hm0 : m0 &&& 2147483660 = 2147483660) (n : Nat) (s : State) :
    proj m0 (loseMemory n s) = proj m0 s := by
  refine proj_mono hm0 ?_
  unfold loseMemory
  try dsimp -proj only
  repeat' first
    | simp +decide only [↓modCore_frame, ↓modCluster_frame, ↓proj_ite, ↓proj_iteP, ite_self]
    | (with_reducible refine (foldl_proj _ _ ?_ _).trans ?_; intro _ _)
    | (with_reducible refine (foldl_projP _ _ ?_ _).trans ?_; intro _ _)
    | ((with_reducible refine proj_mk_trans ?_ ?_); · ((fail_if_success with_reducible rfl); rfl))
    | split

theorem dropTrace_frame {m0 : Nat} (hm0 : m0 &&& 536871168 = 536871168) (n : Nat) (s : State) :
    proj m0 (dropTrace n s) = proj m0 s := by
  refine proj_mono hm0 ?_
  unfold dropTrace
  try dsimp -proj only
  repeat' first
    | simp +decide only [↓addCnt_frame, ↓proj_ite, ↓proj_iteP, ite_self]
    | ((with_reducible refine proj_mk_trans ?_ ?_); · ((fail_if_success with_reducible rfl); rfl))
    | split

theorem execSleepEntryEnd_frame {m0 : Nat} (hm0 : m0 &&& 2751467788 = 2751467788) (dom : DomainId) (s : State) :
    outProj m0 s (execSleepEntryEnd dom s) := by
  refine outProj_mono hm0 ?_
  unfold execSleepEntryEnd
  try dsimp -proj only
  repeat' first
    | (with_reducible refine outProj_next ?_)
    | (with_reducible refine ite_projR ?_ ?_)
    | simp +decide only [↓loseMemory_frame, ↓setDom_frame, ↓dropTrace_frame, ↓putDom_frame, ↓proj_ite, ↓proj_iteP, ite_self]
    | ((with_reducible refine proj_mk_trans ?_ ?_); · ((fail_if_success with_reducible rfl); rfl))
    | split

theorem execPrewake_frame {m0 : Nat} (hm0 : m0 &&& 603979776 = 603979776) (dom : DomainId) (s : State) :
    outProj m0 s (execPrewake dom s) := by
  refine outProj_mono hm0 ?_
  unfold execPrewake
  try dsimp -proj only
  repeat' first
    | (with_reducible refine outProj_next ?_)
    | (with_reducible refine ite_projR ?_ ?_)
    | simp +decide only [↓beginWake_frame, ↓proj_ite, ↓proj_iteP, ite_self]
    | ((with_reducible refine proj_mk_trans ?_ ?_); · ((fail_if_success with_reducible rfl); rfl))
    | split

theorem execDemandWake_frame {m0 : Nat} (hm0 : m0 &&& 603979776 = 603979776) (dom : DomainId) (s : State) :
    outProj m0 s (execDemandWake dom s) := by
  refine outProj_mono hm0 ?_
  unfold execDemandWake
  try dsimp -proj only
  repeat' first
    | (with_reducible refine outProj_next ?_)
    | simp +decide only [↓beginWake_frame, ↓proj_ite, ↓proj_iteP, ite_self]
    | ((with_reducible refine proj_mk_trans ?_ ?_); · ((fail_if_success with_reducible rfl); rfl))
    | split

theorem domAwake_frame {m0 : Nat} (hm0 : m0 &&& 2753564928 = 2753564928) (n : Nat) (s : State) :
    proj m0 (domAwake n s) = proj m0 s := by
  refine proj_mono hm0 ?_
  unfold domAwake
  try dsimp -proj only
  repeat' first
    | simp +decide only [↓setDom_frame, ↓modLane_frame, ↓proj_ite, ↓proj_iteP, ite_self]
    | ((with_reducible refine proj_mk_trans ?_ ?_); · ((fail_if_success with_reducible rfl); rfl))
    | split

theorem execWakeEnd_frame {m0 : Nat} (hm0 : m0 &&& 2753564928 = 2753564928) (dom : DomainId) (s : State) :
    outProj m0 s (execWakeEnd dom s) := by
  refine outProj_mono hm0 ?_
  unfold execWakeEnd
  try dsimp -proj only
  repeat' first
    | (with_reducible refine outProj_next ?_)
    | (with_reducible refine ite_projR ?_ ?_)
    | simp +decide only [↓domAwake_frame, ↓setDom_frame, ↓proj_ite, ↓proj_iteP, ite_self]
    | (with_reducible refine (foldl_proj _ _ ?_ _).trans ?_; intro _ _)
    | (with_reducible refine (foldl_projP _ _ ?_ _).trans ?_; intro _ _)
    | ((with_reducible refine proj_mk_trans ?_ ?_); · ((fail_if_success with_reducible rfl); rfl))
    | split

theorem execWakeFail_frame {m0 : Nat} (hm0 : m0 &&& 2813379616 = 2813379616) (dom : DomainId) (s : State) :
    outProj m0 s (execWakeFail dom s) := by
  refine outProj_mono hm0 ?_
  unfold execWakeFail
  try dsimp -proj only
  repeat' first
    | (with_reducible refine outProj_next ?_)
    | (with_reducible refine ite_projR ?_ ?_)
    | simp +decide only [↓incCnt_frame, ↓reportWith_frame, ↓putDom_frame, ↓fenceCluster_frame, ↓declareLost_frame, ↓portDown_frame, ↓loseLane_frame, ↓proj_ite, ↓proj_iteP, ite_self]
    | (with_reducible refine (foldl_proj _ _ ?_ _).trans ?_; intro _ _)
    | (with_reducible refine (foldl_projP _ _ ?_ _).trans ?_; intro _ _)
    | ((with_reducible refine proj_mk_trans ?_ ?_); · ((fail_if_success with_reducible rfl); rfl))
    | split

theorem setStretch_frame {m0 : Nat} (hm0 : m0 &&& 4608 = 4608) (f : Stretch → Stretch) (s : State) :
    proj m0 (setStretch f s) = proj m0 s := by
  refine proj_mono hm0 ?_
  unfold setStretch
  try dsimp -proj only
  repeat' first
    | simp +decide only [↓noteStretch_frame, ↓markStretch_frame, ↓proj_ite, ↓proj_iteP, ite_self]
    | ((with_reducible refine proj_mk_trans ?_ ?_); · ((fail_if_success with_reducible rfl); rfl))
    | split

theorem countStretch_frame {m0 : Nat} (hm0 : m0 &&& 2684354560 = 2684354560) (k : Nat) (s : State) :
    proj m0 (countStretch k s) = proj m0 s := by
  refine proj_mono hm0 ?_
  unfold countStretch
  try dsimp -proj only
  repeat' first
    | simp +decide only [↓drawFree_frame, ↓addCnt_frame, ↓proj_ite, ↓proj_iteP, ite_self]
    | ((with_reducible refine proj_mk_trans ?_ ?_); · ((fail_if_success with_reducible rfl); rfl))
    | split

theorem execDroop_frame {m0 : Nat} (hm0 : m0 &&& 536875520 = 536875520) (k : ClusterId) (s : State) :
    outProj m0 s (execDroop k s) := by
  refine outProj_mono hm0 ?_
  unfold execDroop
  try dsimp -proj only
  repeat' first
    | (with_reducible refine outProj_next ?_)
    | (with_reducible refine ite_projR ?_ ?_)
    | simp +decide only [↓incCnt_frame, ↓setStretch_frame, ↓proj_ite, ↓proj_iteP, ite_self]
    | ((with_reducible refine proj_mk_trans ?_ ?_); · ((fail_if_success with_reducible rfl); rfl))
    | split

theorem execDroopRecover_frame {m0 : Nat} (hm0 : m0 &&& 2684359168 = 2684359168) (k : ClusterId) (s : State) :
    outProj m0 s (execDroopRecover k s) := by
  refine outProj_mono hm0 ?_
  unfold execDroopRecover
  try dsimp -proj only
  repeat' first
    | (with_reducible refine outProj_next ?_)
    | (with_reducible refine ite_projR ?_ ?_)
    | simp +decide only [↓countStretch_frame, ↓setStretch_frame, ↓proj_ite, ↓proj_iteP, ite_self]
    | ((with_reducible refine proj_mk_trans ?_ ?_); · ((fail_if_success with_reducible rfl); rfl))
    | split

theorem execPowerCapWindow_frame {m0 : Nat} (hm0 : m0 &&& 2751468032 = 2751468032) (watts : BitVec 11) (s : State) :
    outProj m0 s (execPowerCapWindow watts s) := by
  refine outProj_mono hm0 ?_
  unfold execPowerCapWindow
  try dsimp -proj only
  repeat' first
    | (with_reducible refine outProj_next ?_)
    | (with_reducible refine ite_projR ?_ ?_)
    | simp +decide only [↓incCnt_frame, ↓countStretch_frame, ↓setStretch_frame, ↓proj_ite, ↓proj_iteP, ite_self]
    | (with_reducible refine (foldl_proj _ _ ?_ _).trans ?_; intro _ _)
    | (with_reducible refine (foldl_projP _ _ ?_ _).trans ?_; intro _ _)
    | ((with_reducible refine proj_mk_trans ?_ ?_); · ((fail_if_success with_reducible rfl); rfl))
    | split

theorem setTemp_frame {m0 : Nat} (hm0 : m0 &&& 67108864 = 67108864) (d : Fin 6) (t : Byte) (s : State) :
    proj m0 (setTemp d t s) = proj m0 s := by
  refine proj_mono hm0 ?_
  unfold setTemp
  try dsimp -proj only
  repeat' first
    | simp +decide only [↓proj_ite, ↓proj_iteP, ite_self]
    | ((with_reducible refine proj_mk_trans ?_ ?_); · ((fail_if_success with_reducible rfl); rfl))
    | split

theorem execThermalThrottle_frame {m0 : Nat} (hm0 : m0 &&& 67113472 = 67113472) (d : Fin 6) (temp : Byte) (s : State) :
    outProj m0 s (execThermalThrottle d temp s) := by
  refine outProj_mono hm0 ?_
  unfold execThermalThrottle
  try dsimp -proj only
  repeat' first
    | (with_reducible refine outProj_next ?_)
    | (with_reducible refine ite_projR ?_ ?_)
    | simp +decide only [↓setTemp_frame, ↓setStretch_frame, ↓proj_ite, ↓proj_iteP, ite_self]
    | ((with_reducible refine proj_mk_trans ?_ ?_); · ((fail_if_success with_reducible rfl); rfl))
    | split

theorem execThermalRelease_frame {m0 : Nat} (hm0 : m0 &&& 2751468032 = 2751468032) (d : Fin 6) (temp : Byte) (s : State) :
    outProj m0 s (execThermalRelease d temp s) := by
  refine outProj_mono hm0 ?_
  unfold execThermalRelease
  try dsimp -proj only
  repeat' first
    | (with_reducible refine outProj_next ?_)
    | (with_reducible refine ite_projR ?_ ?_)
    | simp +decide only [↓setTemp_frame, ↓countStretch_frame, ↓setStretch_frame, ↓proj_ite, ↓proj_iteP, ite_self]
    | (with_reducible refine (foldl_proj _ _ ?_ _).trans ?_; intro _ _)
    | (with_reducible refine (foldl_projP _ _ ?_ _).trans ?_; intro _ _)
    | ((with_reducible refine proj_mk_trans ?_ ?_); · ((fail_if_success with_reducible rfl); rfl))
    | split

theorem execThermtrip_frame {m0 : Nat} (hm0 : m0 &&& 67108864 = 67108864) (d : Fin 6) (s : State) :
    outProj m0 s (execThermtrip d s) := by
  refine outProj_mono hm0 ?_
  unfold execThermtrip
  try dsimp -proj only
  repeat' first
    | (with_reducible refine outProj_next ?_)
    | simp +decide only [↓setTemp_frame, ↓proj_ite, ↓proj_iteP, ite_self]
    | ((with_reducible refine proj_mk_trans ?_ ?_); · ((fail_if_success with_reducible rfl); rfl))
    | split

theorem execAvsRetry_frame {m0 : Nat} (hm0 : m0 &&& 2751468032 = 2751468032) (d : CDie) (acked : Bool) (s : State) :
    outProj m0 s (execAvsRetry d acked s) := by
  refine outProj_mono hm0 ?_
  unfold execAvsRetry
  try dsimp -proj only
  repeat' first
    | (with_reducible refine outProj_next ?_)
    | (with_reducible refine ite_projR ?_ ?_)
    | simp +decide only [↓countStretch_frame, ↓setStretch_frame, ↓proj_ite, ↓proj_iteP, ite_self]
    | (with_reducible refine (foldl_proj _ _ ?_ _).trans ?_; intro _ _)
    | (with_reducible refine (foldl_projP _ _ ?_ _).trans ?_; intro _ _)
    | ((with_reducible refine proj_mk_trans ?_ ?_); · ((fail_if_success with_reducible rfl); rfl))
    | split

theorem execQclkUnlock_frame {m0 : Nat} (hm0 : m0 &&& 369098752 = 369098752) (s : State) :
    outProj m0 s (execQclkUnlock s) := by
  refine outProj_mono hm0 ?_
  unfold execQclkUnlock
  try dsimp -proj only
  repeat' first
    | (with_reducible refine outProj_next ?_)
    | simp +decide only [↓setSticky_frame, ↓modGrp_frame, ↓proj_ite, ↓proj_iteP, ite_self]
    | ((with_reducible refine proj_mk_trans ?_ ?_); · ((fail_if_success with_reducible rfl); rfl))
    | split

theorem execQclkRelock_frame {m0 : Nat} (hm0 : m0 &&& 100663296 = 100663296) (s : State) :
    outProj m0 s (execQclkRelock s) := by
  refine outProj_mono hm0 ?_
  unfold execQclkRelock
  try dsimp -proj only
  repeat' first
    | (with_reducible refine outProj_next ?_)
    | simp +decide only [↓modGrp_frame, ↓proj_ite, ↓proj_iteP, ite_self]
    | ((with_reducible refine proj_mk_trans ?_ ?_); · ((fail_if_success with_reducible rfl); rfl))
    | split

end Sys2Proof.Machine
end

