-- ==== Sys2Proof/Laws/FrameNet.lean ====
section
/-! SUPPORT. What each operation of Nlu.lean, Admission.lean, Programs.lean, TimeOps.lean, Group.lean, Ptp.lean, Egress.lean leaves: one lemma each, by Frame.lean. -/

set_option maxRecDepth 8000
set_option linter.all false

namespace Sys2Proof.Machine

theorem nluWake_frame {m0 : Nat} (hm0 : m0 &&& 603979776 = 603979776) (d : CDie) (cmd : NluCmd) (s : State) :
    proj m0 (nluWake d cmd s) = proj m0 s := by
  refine proj_mono hm0 ?_
  unfold nluWake
  try dsimp -proj only
  repeat' first
    | simp +decide only [↓beginWake_frame, ↓proj_ite, ↓proj_iteP, ite_self]
    | (with_reducible refine (foldl_proj _ _ ?_ _).trans ?_; intro _ _)
    | (with_reducible refine (foldl_projP _ _ ?_ _).trans ?_; intro _ _)
    | ((with_reducible refine proj_mk_trans ?_ ?_); · ((fail_if_success with_reducible rfl); rfl))
    | split

theorem modReam_frame {m0 : Nat} (hm0 : m0 &&& 1048576 = 1048576) (seq : W32) (f : Ream → Ream) (s : State) :
    proj m0 (modReam seq f s) = proj m0 s := by
  refine proj_mono hm0 ?_
  unfold modReam
  try dsimp -proj only
  repeat' first
    | simp +decide only [↓proj_ite, ↓proj_iteP, ite_self]
    | ((with_reducible refine proj_mk_trans ?_ ?_); · ((fail_if_success with_reducible rfl); rfl))
    | split

theorem bucketAnswer_frame {m0 : Nat} (hm0 : m0 &&& 3020603424 = 3020603424) (x : Tbl) (n : Nat) (key : Nat) (view : Nat) (s : State) :
    proj m0 (bucketAnswer x n key view s).2 = proj m0 s := by
  refine proj_mono hm0 ?_
  unfold bucketAnswer
  try dsimp -proj only
  repeat' first
    | simp +decide only [↓readBucket_frame, ↓touchKey_frame, ↓proj_ite, ↓proj_iteP, ite_self]
    | ((with_reducible refine proj_mk_trans ?_ ?_); · ((fail_if_success with_reducible rfl); rfl))
    | (with_reducible refine (snd_eq (by assumption) (readBucket_frame (by decide) _ _ _)).trans ?_)
    | split

theorem postMiss_frame {m0 : Nat} (hm0 : m0 &&& 537395200 = 537395200) (u : Nat) (ream : W32) (t : Nat) (key : Nat) (s : State) :
    proj m0 (postMiss u ream t key s) = proj m0 s := by
  refine proj_mono hm0 ?_
  unfold postMiss
  try dsimp -proj only
  repeat' first
    | simp +decide only [↓incCnt_frame, ↓proj_ite, ↓proj_iteP, ite_self]
    | ((with_reducible refine proj_mk_trans ?_ ?_); · ((fail_if_success with_reducible rfl); rfl))
    | split

theorem finalMiss_frame {m0 : Nat} (hm0 : m0 &&& 537395200 = 537395200) (u : Nat) (ream : W32) (t : Nat) (key : Nat) (s : State) :
    proj m0 (finalMiss u ream t key s).2 = proj m0 s := by
  refine proj_mono hm0 ?_
  unfold finalMiss
  try dsimp -proj only
  repeat' first
    | simp +decide only [↓postMiss_frame, ↓incCnt_frame, ↓proj_ite, ↓proj_iteP, ite_self]
    | ((with_reducible refine proj_mk_trans ?_ ?_); · ((fail_if_success with_reducible rfl); rfl))
    | split

theorem lookupNow_frame {m0 : Nat} (hm0 : m0 &&& 3020603424 = 3020603424) (u : Nat) (x : Tbl) (ream : W32) (key : Nat) (view : Nat) (s : State) :
    proj m0 (lookupNow u x ream key view s).2 = proj m0 s := by
  refine proj_mono hm0 ?_
  unfold lookupNow
  try dsimp -proj only
  repeat' first
    | simp +decide only [↓bucketAnswer_frame, ↓finalMiss_frame, ↓proj_ite, ↓proj_iteP, ite_self]
    | ((with_reducible refine proj_mk_trans ?_ ?_); · ((fail_if_success with_reducible rfl); rfl))
    | (with_reducible refine (snd_eq (by assumption) (bucketAnswer_frame (by decide) _ _ _ _ _)).trans ?_)
    | (with_reducible refine (snd_eq (by assumption) (finalMiss_frame (by decide) _ _ _ _ _)).trans ?_)
    | split

theorem startCoal_frame {m0 : Nat} (hm0 : m0 &&& 805339136 = 805339136) (u : Nat) (ream : W32) (t : TableId) (key : W64) (served : Nat) (s : State) :
    proj m0 (startCoal u ream t key served s) = proj m0 s := by
  refine proj_mono hm0 ?_
  unfold startCoal
  try dsimp -proj only
  repeat' first
    | simp +decide only [↓incCnt_frame, ↓setSticky_frame, ↓setNlu_frame, ↓proj_ite, ↓proj_iteP, ite_self]
    | ((with_reducible refine proj_mk_trans ?_ ?_); · ((fail_if_success with_reducible rfl); rfl))
    | split

theorem dropHold_frame {m0 : Nat} (hm0 : m0 &&& 524288 = 524288) (t : Nat) (ream : W32) (key : Nat) (s : State) :
    proj m0 (dropHold t ream key s) = proj m0 s := by
  refine proj_mono hm0 ?_
  unfold dropHold
  try dsimp -proj only
  repeat' first
    | simp +decide only [↓setTbl_frame, ↓proj_ite, ↓proj_iteP, ite_self]
    | ((with_reducible refine proj_mk_trans ?_ ?_); · ((fail_if_success with_reducible rfl); rfl))
    | split

theorem resolveCoal_frame {m0 : Nat} (hm0 : m0 &&& 557056 = 557056) (u : Nat) (ream : W32) (t : TableId) (key : W64) (r : RowRes) (s : State) :
    proj m0 (resolveCoal u ream t key r s) = proj m0 s := by
  refine proj_mono hm0 ?_
  unfold resolveCoal
  try dsimp -proj only
  repeat' first
    | simp +decide only [↓dropHold_frame, ↓setNlu_frame, ↓proj_ite, ↓proj_iteP, ite_self]
    | ((with_reducible refine proj_mk_trans ?_ ?_); · ((fail_if_success with_reducible rfl); rfl))
    | split

theorem forwardTo_frame {m0 : Nat} (hm0 : m0 &&& 268468224 = 268468224) (x : Tbl) (f : FwdLookup) (s : State) :
    proj m0 (forwardTo x f s) = proj m0 s := by
  refine proj_mono hm0 ?_
  unfold forwardTo
  try dsimp -proj only
  repeat' first
    | simp +decide only [↓setNlu_frame, ↓setSticky_frame, ↓proj_ite, ↓proj_iteP, ite_self]
    | ((with_reducible refine proj_mk_trans ?_ ?_); · ((fail_if_success with_reducible rfl); rfl))
    | split

theorem startBucket0_frame {m0 : Nat} (hm0 : m0 &&& 3020603424 = 3020603424) (x : Tbl) (f : FwdLookup) (s : State) :
    proj m0 (startBucket0 x f s) = proj m0 s := by
  refine proj_mono hm0 ?_
  unfold startBucket0
  try dsimp -proj only
  repeat' first
    | simp +decide only [↓takeEpoch_frame, ↓bucketAnswer_frame, ↓resolveCoal_frame, ↓finalMiss_frame, ↓forwardTo_frame, ↓proj_ite, ↓proj_iteP, ite_self]
    | ((with_reducible refine proj_mk_trans ?_ ?_); · ((fail_if_success with_reducible rfl); rfl))
    | (with_reducible refine (snd_eq (by assumption) (bucketAnswer_frame (by decide) _ _ _ _ _)).trans ?_)
    | (with_reducible refine (snd_eq (by assumption) (finalMiss_frame (by decide) _ _ _ _ _)).trans ?_)
    | split

theorem execNluLookup_frame {m0 : Nat} (hm0 : m0 &&& 3020603424 = 3020603424) (u : NluId) (ream : W32) (t : TableId) (key : W64) (s : State) :
    outProj m0 s (execNluLookup u ream t key s) := by
  refine outProj_mono hm0 ?_
  unfold execNluLookup
  try dsimp -proj only
  repeat' first
    | (with_reducible refine outProj_next ?_)
    | (with_reducible refine ite_projR ?_ ?_)
    | simp +decide only [↓setNlu_frame, ↓incCnt_frame, ↓startCoal_frame, ↓startBucket0_frame, ↓proj_ite, ↓proj_iteP, ite_self]
    | ((with_reducible refine proj_mk_trans ?_ ?_); · ((fail_if_success with_reducible rfl); rfl))
    | split

theorem refillFwd_frame {m0 : Nat} (hm0 : m0 &&& 32768 = 32768) (v : Nat) (s : State) :
    proj m0 (refillFwd v s) = proj m0 s := by
  refine proj_mono hm0 ?_
  unfold refillFwd
  try dsimp -proj only
  repeat' first
    | simp +decide only [↓setNlu_frame, ↓proj_ite, ↓proj_iteP, ite_self]
    | ((with_reducible refine proj_mk_trans ?_ ?_); · ((fail_if_success with_reducible rfl); rfl))
    | split

theorem execLookupForward_frame {m0 : Nat} (hm0 : m0 &&& 3020603424 = 3020603424) (u : NluId) (s : State) :
    outProj m0 s (execLookupForward u s) := by
  refine outProj_mono hm0 ?_
  unfold execLookupForward
  try dsimp -proj only
  repeat' first
    | (with_reducible refine outProj_next ?_)
    | (with_reducible refine ite_projR ?_ ?_)
    | simp +decide only [↓setNlu_frame, ↓refillFwd_frame, ↓takeEpoch_frame, ↓bucketAnswer_frame, ↓resolveCoal_frame, ↓finalMiss_frame, ↓incCnt_frame, ↓modTbl_frame, ↓startBucket0_frame, ↓proj_ite, ↓proj_iteP, ite_self]
    | ((with_reducible refine proj_mk_trans ?_ ?_); · ((fail_if_success with_reducible rfl); rfl))
    | (with_reducible refine (snd_eq (by assumption) (bucketAnswer_frame (by decide) _ _ _ _ _)).trans ?_)
    | (with_reducible refine (snd_eq (by assumption) (finalMiss_frame (by decide) _ _ _ _ _)).trans ?_)
    | split

theorem dropFwd_frame {m0 : Nat} (hm0 : m0 &&& 557056 = 557056) (ream : W32) (t : TableId) (key : W64) (s : State) :
    proj m0 (dropFwd ream t key s) = proj m0 s := by
  refine proj_mono hm0 ?_
  unfold dropFwd
  try dsimp -proj only
  repeat' first
    | simp +decide only [↓dropHold_frame, ↓proj_ite, ↓proj_iteP, ite_self]
    | ((with_reducible refine proj_mk_trans ?_ ?_); · ((fail_if_success with_reducible rfl); rfl))
    | split

theorem fetchRow_frame {m0 : Nat} (hm0 : m0 &&& 3020079136 = 3020079136) (x : Tbl) (r : RowRes) (s : State) :
    proj m0 (fetchRow x r s).2 = proj m0 s := by
  refine proj_mono hm0 ?_
  unfold fetchRow
  try dsimp -proj only
  repeat' first
    | simp +decide only [↓readDpa_frame, ↓proj_ite, ↓proj_iteP, ite_self]
    | ((with_reducible refine proj_mk_trans ?_ ?_); · ((fail_if_success with_reducible rfl); rfl))
    | (with_reducible refine (snd_eq (by assumption) (readDpa_frame (by decide) _ _ _)).trans ?_)
    | split

theorem keyRow_frame {m0 : Nat} (hm0 : m0 &&& 3020603424 = 3020603424) (x : Tbl) (ream : W32) (t : TableId) (key : W64) (s : State) :
    proj m0 (keyRow x ream t key s).2 = proj m0 s := by
  refine proj_mono hm0 ?_
  unfold keyRow
  try dsimp -proj only
  repeat' first
    | simp +decide only [↓setSticky_frame, ↓startCoal_frame, ↓incCnt_frame, ↓lookupNow_frame, ↓dropFwd_frame, ↓fetchRow_frame, ↓setNlu_frame, ↓proj_ite, ↓proj_iteP, ite_self]
    | ((with_reducible refine proj_mk_trans ?_ ?_); · ((fail_if_success with_reducible rfl); rfl))
    | (with_reducible refine (snd_eq (by assumption) (lookupNow_frame (by decide) _ _ _ _ _ _)).trans ?_)
    | (with_reducible refine (snd_eq (by assumption) (fetchRow_frame (by decide) _ _ _)).trans ?_)
    | split

theorem keyRows_frame {m0 : Nat} (hm0 : m0 &&& 3020603424 = 3020603424) (x : Tbl) (ream : W32) (t : TableId) (a3 : List (Option W64)) (a4 : State) :
    proj m0 (keyRows x ream t a3 a4).2 = proj m0 a4 := by
  refine proj_mono hm0 ?_
  fun_induction keyRows x ream t a3 a4
  try dsimp -proj only
  repeat' first
    | simp +decide only [↓keyRow_frame, ↓proj_ite, ↓proj_iteP, ite_self]
    | (with_reducible refine (foldl_proj _ _ ?_ _).trans ?_; intro _ _)
    | (with_reducible refine (foldl_projP _ _ ?_ _).trans ?_; intro _ _)
    | ((with_reducible refine proj_mk_trans ?_ ?_); · ((fail_if_success with_reducible rfl); rfl))
    | (with_reducible refine (snd_eq (by assumption) (keyRow_frame (by decide) _ _ _ _ _)).trans ?_)
    | (with_reducible refine Eq.trans (by assumption) ?_)
    | (with_reducible refine (snd_eq (by assumption) (by assumption)).trans ?_)
    | (with_reducible refine (trip_eq (by assumption) (by assumption)).trans ?_)
    | ((with_reducible refine snd_eq (by assumption) ?_); split)
    | (with_reducible refine elim_proj ?_ ?_)
    | (with_reducible intro _)
    | (dsimp -proj +zetaDelta only)
    | split

theorem writeOut_frame {m0 : Nat} (hm0 : m0 &&& 8 = 8) (cmd : NluCmd) (i : Nat) (bs : Bytes) (poison : Bool) (s : State) :
    proj m0 (writeOut cmd i bs poison s) = proj m0 s := by
  refine proj_mono hm0 ?_
  unfold writeOut
  try dsimp -proj only
  repeat' first
    | simp +decide only [↓modCluster_frame, ↓proj_ite, ↓proj_iteP, ite_self]
    | (with_reducible refine (foldl_proj _ _ ?_ _).trans ?_; intro _ _)
    | (with_reducible refine (foldl_projP _ _ ?_ _).trans ?_; intro _ _)
    | ((with_reducible refine proj_mk_trans ?_ ?_); · ((fail_if_success with_reducible rfl); rfl))
    | split

theorem freeBytes_frame {m0 : Nat} (hm0 : m0 &&& 2147483648 = 2147483648) (n : Nat) (s : State) :
    proj m0 (freeBytes n s).2 = proj m0 s := by
  refine proj_mono hm0 ?_
  unfold freeBytes
  try dsimp -proj only
  repeat' first
    | simp +decide only [↓drawFree_frame, ↓proj_ite, ↓proj_iteP, ite_self]
    | ((with_reducible refine proj_mk_trans ?_ ?_); · ((fail_if_success with_reducible rfl); rfl))
    | split

theorem nluDone_frame {m0 : Nat} (hm0 : m0 &&& 2685436160 = 2685436160) (pool : Bool) (d : CDie) (cmd : NluCmd) (served : List Nat) (s : State) :
    proj m0 (nluDone pool d cmd served s) = proj m0 s := by
  refine proj_mono hm0 ?_
  unfold nluDone
  try dsimp -proj only
  repeat' first
    | simp +decide only [↓modReam_frame, ↓emitTrace_frame, ↓proj_ite, ↓proj_iteP, ite_self]
    | (with_reducible refine (foldl_proj _ _ ?_ _).trans ?_; intro _ _)
    | (with_reducible refine (foldl_projP _ _ ?_ _).trans ?_; intro _ _)
    | ((with_reducible refine proj_mk_trans ?_ ?_); · ((fail_if_success with_reducible rfl); rfl))
    | split

theorem gatherOuts_frame {m0 : Nat} (hm0 : m0 &&& 2147483656 = 2147483656) (d : TblDesc) (cmd : NluCmd) (a2 : List (Bytes × Bool)) (a3 : Nat) (a4 : State) :
    proj m0 (gatherOuts d cmd a2 a3 a4) = proj m0 a4 := by
  refine proj_mono hm0 ?_
  fun_induction gatherOuts d cmd a2 a3 a4
  try dsimp -proj only
  repeat' first
    | simp +decide only [↓writeOut_frame, ↓freeBytes_frame, ↓proj_ite, ↓proj_iteP, ite_self]
    | ((with_reducible refine proj_mk_trans ?_ ?_); · ((fail_if_success with_reducible rfl); rfl))
    | (with_reducible refine (snd_eq (by assumption) (freeBytes_frame (by decide) _ _)).trans ?_)
    | (with_reducible refine Eq.trans (by assumption) ?_)
    | (with_reducible refine (snd_eq (by assumption) (by assumption)).trans ?_)
    | (with_reducible refine (trip_eq (by assumption) (by assumption)).trans ?_)
    | (with_reducible intro _)
    | (dsimp -proj +zetaDelta only)
    | split

theorem execGather_frame {m0 : Nat} (hm0 : m0 &&& 3021652264 = 3021652264) (d : CDie) (cmd : NluCmd) (errs : List (Nat × LineErr)) (s : State) :
    outProj m0 s (execGather d cmd errs s) := by
  refine outProj_mono hm0 ?_
  unfold execGather
  try dsimp -proj only
  repeat' first
    | (with_reducible exact outProj_fault)
    | (with_reducible exact outProj_refused)
    | (with_reducible refine outProj_next ?_)
    | (with_reducible refine ite_projR ?_ ?_)
    | simp +decide only [↓nluWake_frame, ↓keyRows_frame, ↓putErrs_frame, ↓nluDone_frame, ↓gatherOuts_frame, ↓proj_ite, ↓proj_iteP, ite_self]
    | ((with_reducible refine proj_mk_trans ?_ ?_); · ((fail_if_success with_reducible rfl); rfl))
    | (with_reducible refine (snd_eq (by assumption) (keyRows_frame (by decide) _ _ _ _ _)).trans ?_)
    | split

theorem countEmpty_frame {m0 : Nat} (hm0 : m0 &&& 536870912 = 536870912) (cmd : NluCmd) (n : Nat) (bags : List (Option (Nat × Nat))) (s : State) :
    proj m0 (countEmpty cmd n bags s) = proj m0 s := by
  refine proj_mono hm0 ?_
  unfold countEmpty
  try dsimp -proj only
  repeat' first
    | simp +decide only [↓addCnt_frame, ↓proj_ite, ↓proj_iteP, ite_self]
    | ((with_reducible refine proj_mk_trans ?_ ?_); · ((fail_if_success with_reducible rfl); rfl))
    | split

theorem execPool_frame {m0 : Nat} (hm0 : m0 &&& 3021717792 = 3021717792) (d : CDie) (cmd : NluCmd) (errs : List (Nat × LineErr)) (s : State) :
    outProj m0 s (execPool d cmd errs s) := by
  refine outProj_mono hm0 ?_
  unfold execPool
  try dsimp -proj only
  repeat' first
    | (with_reducible exact outProj_fault)
    | (with_reducible exact outProj_refused)
    | (with_reducible refine outProj_next ?_)
    | (with_reducible refine ite_projR ?_ ?_)
    | simp +decide only [↓nluWake_frame, ↓keyRows_frame, ↓putErrs_frame, ↓countEmpty_frame, ↓nluDone_frame, ↓proj_ite, ↓proj_iteP, ite_self]
    | ((with_reducible refine proj_mk_trans ?_ ?_); · ((fail_if_success with_reducible rfl); rfl))
    | (with_reducible refine (snd_eq (by assumption) (keyRows_frame (by decide) _ _ _ _ _)).trans ?_)
    | split

theorem poolElems_frame {m0 : Nat} (hm0 : m0 &&& 2147483648 = 2147483648) (op : Nat) (outFmt : Nat) (len : Nat) (a3 : List (Option Int)) (a4 : State) :
    proj m0 (poolElems op outFmt len a3 a4).2 = proj m0 a4 := by
  refine proj_mono hm0 ?_
  fun_induction poolElems op outFmt len a3 a4
  try dsimp -proj only
  repeat' first
    | simp +decide only [↓freeBytes_frame, ↓proj_ite, ↓proj_iteP, ite_self]
    | (with_reducible refine (foldl_proj _ _ ?_ _).trans ?_; intro _ _)
    | (with_reducible refine (foldl_projP _ _ ?_ _).trans ?_; intro _ _)
    | ((with_reducible refine proj_mk_trans ?_ ?_); · ((fail_if_success with_reducible rfl); rfl))
    | (with_reducible refine (snd_eq (by assumption) (freeBytes_frame (by decide) _ _)).trans ?_)
    | (with_reducible refine Eq.trans (by assumption) ?_)
    | (with_reducible refine (snd_eq (by assumption) (by assumption)).trans ?_)
    | (with_reducible refine (trip_eq (by assumption) (by assumption)).trans ?_)
    | ((with_reducible refine snd_eq (by assumption) ?_); split)
    | (with_reducible refine elim_proj ?_ ?_)
    | (with_reducible intro _)
    | (dsimp -proj +zetaDelta only)
    | split

theorem poolOut_frame {m0 : Nat} (hm0 : m0 &&& 2147483648 = 2147483648) (op : Nat) (outFmt : Nat) (n : Nat) (len : Nat) (es : List (Option Int)) (s : State) :
    proj m0 (poolOut op outFmt n len es s).2 = proj m0 s := by
  refine proj_mono hm0 ?_
  unfold poolOut
  try dsimp -proj only
  repeat' first
    | simp +decide only [↓poolElems_frame, ↓proj_ite, ↓proj_iteP, ite_self]
    | ((with_reducible refine proj_mk_trans ?_ ?_); · ((fail_if_success with_reducible rfl); rfl))
    | split

theorem poolOuts_frame {m0 : Nat} (hm0 : m0 &&& 2147483656 = 2147483656) (d : TblDesc) (cmd : NluCmd) (a2 : List (List (Option Int) × Nat × Bool)) (a3 : Nat) (a4 : State) :
    proj m0 (poolOuts d cmd a2 a3 a4) = proj m0 a4 := by
  refine proj_mono hm0 ?_
  fun_induction poolOuts d cmd a2 a3 a4
  · rfl
  · rename_i e ih
    exact ih.trans ((writeOut_frame (by decide) _ _ _ _ _).trans (snd_eq e
      (ite_projP (freeBytes_frame (by decide) _ _) (poolOut_frame (by decide) _ _ _ _ _ _))))

theorem execPoolCombine_frame {m0 : Nat} (hm0 : m0 &&& 2147549192 = 2147549192) (d : CDie) (ream : W32) (tensor : BitVec 20) (s : State) :
    outProj m0 s (execPoolCombine d ream tensor s) := by
  refine outProj_mono hm0 ?_
  unfold execPoolCombine
  try dsimp -proj only
  repeat' first
    | (with_reducible refine outProj_next ?_)
    | simp +decide only [↓poolOuts_frame, ↓proj_ite, ↓proj_iteP, ite_self]
    | ((with_reducible refine proj_mk_trans ?_ ?_); · ((fail_if_success with_reducible rfl); rfl))
    | split

theorem execOverhangRead_frame {m0 : Nat} (hm0 : m0 &&& 805437440 = 805437440) (u : NluId) (unit : Nat) (attempts : List (Option Bytes)) (s : State) :
    outProj m0 s (execOverhangRead u unit attempts s) := by
  refine outProj_mono hm0 ?_
  unfold execOverhangRead
  try dsimp -proj only
  repeat' first
    | (with_reducible refine outProj_next ?_)
    | simp +decide only [↓deliverUnit_frame, ↓proj_ite, ↓proj_iteP, ite_self]
    | ((with_reducible refine proj_mk_trans ?_ ?_); · ((fail_if_success with_reducible rfl); rfl))
    | split

theorem traceAdmit_frame {m0 : Nat} (hm0 : m0 &&& 2684354816 = 2684354816) (outcome : Nat) (k : Nat) (sl : SlotId) (s : State) :
    proj m0 (traceAdmit outcome k sl s) = proj m0 s := by
  refine proj_mono hm0 ?_
  unfold traceAdmit
  try dsimp -proj only
  repeat' first
    | simp +decide only [↓emitTrace_frame, ↓proj_ite, ↓proj_iteP, ite_self]
    | ((with_reducible refine proj_mk_trans ?_ ?_); · ((fail_if_success with_reducible rfl); rfl))
    | split

theorem bindReq_frame {m0 : Nat} (hm0 : m0 &&& 8389632 = 8389632) (k : Nat) (sl : SlotId) (s : State) :
    proj m0 (bindReq k sl s) = proj m0 s := by
  refine proj_mono hm0 ?_
  unfold bindReq
  try dsimp -proj only
  repeat' first
    | simp +decide only [↓setReq_frame, ↓modSlot_frame, ↓proj_ite, ↓proj_iteP, ite_self]
    | ((with_reducible refine proj_mk_trans ?_ ?_); · ((fail_if_success with_reducible rfl); rfl))
    | split

theorem admitReq_frame {m0 : Nat} (hm0 : m0 &&& 2746221824 = 2746221824) (k : Nat) (sl : SlotId) (n : Nat) (clu : List (Nat × Nat)) (nlu : List (Nat × Nat)) (s : State) :
    proj m0 (admitReq k sl n clu nlu s) = proj m0 s := by
  refine proj_mono hm0 ?_
  unfold admitReq
  try dsimp -proj only
  repeat' first
    | simp +decide only [↓modReam_frame, ↓bindReq_frame, ↓modReq_frame, ↓journalReq_frame, ↓traceAdmit_frame, ↓incCnt_frame, ↓proj_ite, ↓proj_iteP, ite_self]
    | ((with_reducible refine proj_mk_trans ?_ ?_); · ((fail_if_success with_reducible rfl); rfl))
    | split

theorem carryReq_frame {m0 : Nat} (hm0 : m0 &&& 3014919424 = 3014919424) (k : Nat) (s : State) :
    proj m0 (carryReq k s) = proj m0 s := by
  refine proj_mono hm0 ?_
  unfold carryReq
  try dsimp -proj only
  repeat' first
    | simp +decide only [↓answerReq_frame, ↓traceAdmit_frame, ↓incCnt_frame, ↓modReq_frame, ↓proj_ite, ↓proj_iteP, ite_self]
    | ((with_reducible refine proj_mk_trans ?_ ?_); · ((fail_if_success with_reducible rfl); rfl))
    | split

theorem leaveReam_frame {m0 : Nat} (hm0 : m0 &&& 3014919424 = 3014919424) (k : Nat) (s : State) :
    proj m0 (leaveReam k s) = proj m0 s := by
  refine proj_mono hm0 ?_
  unfold leaveReam
  try dsimp -proj only
  repeat' first
    | simp +decide only [↓carryReq_frame, ↓modReam_frame, ↓proj_ite, ↓proj_iteP, ite_self]
    | ((with_reducible refine proj_mk_trans ?_ ?_); · ((fail_if_success with_reducible rfl); rfl))
    | split

theorem decideReq_frame {m0 : Nat} (hm0 : m0 &&& 3014919456 = 3014919456) (k : Nat) (a : Nat) (again : Bool) (s : State) :
    proj m0 (decideReq k a again s) = proj m0 s := by
  refine proj_mono hm0 ?_
  unfold decideReq
  try dsimp -proj only
  repeat' first
    | simp +decide only [↓leaveAdmission_frame, ↓answerReq_frame, ↓traceAdmit_frame, ↓incCnt_frame, ↓admitReq_frame, ↓carryReq_frame, ↓proj_ite, ↓proj_iteP, ite_self]
    | ((with_reducible refine proj_mk_trans ?_ ?_); · ((fail_if_success with_reducible rfl); rfl))
    | split

theorem sendWrites_frame {m0 : Nat} (hm0 : m0 &&& 572522496 = 572522496) (i : Nat) (space : BitVec 2) (a2 : Nat) (a3 : Nat) (a4 : Bytes) (a5 : State) :
    proj m0 (sendWrites i space a2 a3 a4 a5) = proj m0 a5 := by
  refine proj_mono hm0 ?_
  fun_induction sendWrites i space a2 a3 a4 a5
  try dsimp -proj only
  repeat' first
    | simp +decide only [↓sendSeq_frame, ↓proj_ite, ↓proj_iteP, ite_self]
    | ((with_reducible refine proj_mk_trans ?_ ?_); · ((fail_if_success with_reducible rfl); rfl))
    | (with_reducible refine Eq.trans (by assumption) ?_)
    | (with_reducible intro _)
    | (dsimp -proj +zetaDelta only)
    | split

theorem sramPut_frame {m0 : Nat} (hm0 : m0 &&& 8 = 8) (k : Nat) (a : Nat) (bs : Bytes) (s : State) :
    proj m0 (sramPut k a bs s) = proj m0 s := by
  refine proj_mono hm0 ?_
  unfold sramPut
  try dsimp -proj only
  repeat' first
    | simp +decide only [↓modCluster_frame, ↓proj_ite, ↓proj_iteP, ite_self]
    | ((with_reducible refine proj_mk_trans ?_ ?_); · ((fail_if_success with_reducible rfl); rfl))
    | split

theorem putInputs_frame {m0 : Nat} (hm0 : m0 &&& 8 = 8) (r : Ream) (im : Image) (shares : List Nat) (s : State) :
    proj m0 (putInputs r im shares s) = proj m0 s := by
  refine proj_mono hm0 ?_
  unfold putInputs
  try dsimp -proj only
  repeat' first
    | simp +decide only [↓sramPut_frame, ↓proj_ite, ↓proj_iteP, ite_self]
    | (with_reducible refine (foldl_proj _ _ ?_ _).trans ?_; intro _ _)
    | (with_reducible refine (foldl_projP _ _ ?_ _).trans ?_; intro _ _)
    | ((with_reducible refine proj_mk_trans ?_ ?_); · ((fail_if_success with_reducible rfl); rfl))
    | split

theorem issueGather_frame {m0 : Nat} (hm0 : m0 &&& 1048592 = 1048592) (r : Ream) (e : GatherEntry) (g : Nat) (s : State) :
    proj m0 (issueGather r e g s) = proj m0 s := by
  refine proj_mono hm0 ?_
  unfold issueGather
  try dsimp -proj only
  repeat' first
    | simp +decide only [↓modDie_frame, ↓modReam_frame, ↓proj_ite, ↓proj_iteP, ite_self]
    | ((with_reducible refine proj_mk_trans ?_ ?_); · ((fail_if_success with_reducible rfl); rfl))
    | split

theorem issueJobs_frame {m0 : Nat} (hm0 : m0 &&& 1048600 = 1048600) (r : Ream) (im : Image) (shares : List Nat) (s : State) :
    proj m0 (issueJobs r im shares s) = proj m0 s := by
  refine proj_mono hm0 ?_
  unfold issueJobs
  try dsimp -proj only
  repeat' first
    | simp +decide only [↓putInputs_frame, ↓issueGather_frame, ↓proj_ite, ↓proj_iteP, ite_self]
    | (with_reducible refine (foldl_proj _ _ ?_ _).trans ?_; intro _ _)
    | (with_reducible refine (foldl_projP _ _ ?_ _).trans ?_; intro _ _)
    | ((with_reducible refine proj_mk_trans ?_ ?_); · ((fail_if_success with_reducible rfl); rfl))
    | split

theorem markCtx_frame {m0 : Nat} (hm0 : m0 &&& 4 = 4) (r : Ream) (l : CoreId) (s : State) :
    proj m0 (markCtx r l s) = proj m0 s := by
  refine proj_mono hm0 ?_
  unfold markCtx
  try dsimp -proj only
  repeat' first
    | simp +decide only [↓modCore_frame, ↓proj_ite, ↓proj_iteP, ite_self]
    | (with_reducible refine (foldl_proj _ _ ?_ _).trans ?_; intro _ _)
    | (with_reducible refine (foldl_projP _ _ ?_ _).trans ?_; intro _ _)
    | ((with_reducible refine proj_mk_trans ?_ ?_); · ((fail_if_success with_reducible rfl); rfl))
    | split

theorem sendShare_frame {m0 : Nat} (hm0 : m0 &&& 580911104 = 580911104) (i : Nat) (r : Ream) (im : Image) (n : Nat) (tgen : Nat) (launch : Nat) (s : State) :
    proj m0 (sendShare i r im n tgen launch s) = proj m0 s := by
  refine proj_mono hm0 ?_
  unfold sendShare
  try dsimp -proj only
  repeat' first
    | simp +decide only [↓sendWrites_frame, ↓modReq_frame, ↓sendSeq_frame, ↓proj_ite, ↓proj_iteP, ite_self]
    | (with_reducible refine (foldl_proj _ _ ?_ _).trans ?_; intro _ _)
    | (with_reducible refine (foldl_projP _ _ ?_ _).trans ?_; intro _ _)
    | ((with_reducible refine proj_mk_trans ?_ ?_); · ((fail_if_success with_reducible rfl); rfl))
    | split

theorem sealReam_frame {m0 : Nat} (hm0 : m0 &&& 3014919452 = 3014919452) (seq : W32) (s : State) :
    proj m0 (sealReam seq s) = proj m0 s := by
  refine proj_mono hm0 ?_
  unfold sealReam
  try dsimp -proj only
  repeat' first
    | (with_reducible exact allocLaunch_frame (by decide) _ _ _)
    | simp +decide only [↓leaveReam_frame, ↓modReam_frame, ↓issueJobs_frame, ↓markCtx_frame, ↓sendShare_frame, ↓proj_ite, ↓proj_iteP, ite_self]
    | (with_reducible refine (foldl_proj _ _ ?_ _).trans ?_; intro _ _)
    | (with_reducible refine (foldl_projP _ _ ?_ _).trans ?_; intro _ _)
    | ((with_reducible refine proj_mk_trans ?_ ?_); · ((fail_if_success with_reducible rfl); rfl))
    | (with_reducible refine (some_eq (by assumption) (allocLaunch_frame (by decide) _ _ _)).trans ?_)
    | split

theorem sealWhere_frame {m0 : Nat} (hm0 : m0 &&& 3014919452 = 3014919452) (test : Ream → Bool) (s : State) :
    proj m0 (sealWhere test s) = proj m0 s := by
  refine proj_mono hm0 ?_
  unfold sealWhere
  try dsimp -proj only
  repeat' first
    | simp +decide only [↓sealReam_frame, ↓proj_ite, ↓proj_iteP, ite_self]
    | (with_reducible refine (foldl_proj _ _ ?_ _).trans ?_; intro _ _)
    | (with_reducible refine (foldl_projP _ _ ?_ _).trans ?_; intro _ _)
    | ((with_reducible refine proj_mk_trans ?_ ?_); · ((fail_if_success with_reducible rfl); rfl))
    | split

theorem sealPast_frame {m0 : Nat} (hm0 : m0 &&& 3014919452 = 3014919452) (s : State) :
    proj m0 (sealPast s) = proj m0 s := by
  refine proj_mono hm0 ?_
  unfold sealPast
  try dsimp -proj only
  repeat' first
    | simp +decide only [↓sealWhere_frame, ↓proj_ite, ↓proj_iteP, ite_self]
    | ((with_reducible refine proj_mk_trans ?_ ?_); · ((fail_if_success with_reducible rfl); rfl))
    | split

theorem decideCarried_frame {m0 : Nat} (hm0 : m0 &&& 3014919456 = 3014919456) (s : State) :
    proj m0 (decideCarried s) = proj m0 s := by
  refine proj_mono hm0 ?_
  unfold decideCarried
  try dsimp -proj only
  repeat' first
    | simp +decide only [↓decideReq_frame, ↓proj_ite, ↓proj_iteP, ite_self]
    | (with_reducible refine (foldl_proj _ _ ?_ _).trans ?_; intro _ _)
    | (with_reducible refine (foldl_projP _ _ ?_ _).trans ?_; intro _ _)
    | ((with_reducible refine proj_mk_trans ?_ ?_); · ((fail_if_success with_reducible rfl); rfl))
    | split

theorem windowEnd_frame {m0 : Nat} (hm0 : m0 &&& 3014919484 = 3014919484) (s : State) :
    proj m0 (windowEnd s) = proj m0 s := by
  refine proj_mono hm0 ?_
  unfold windowEnd
  try dsimp -proj only
  repeat' first
    | simp +decide only [↓decideCarried_frame, ↓sealPast_frame, ↓proj_ite, ↓proj_iteP, ite_self]
    | ((with_reducible refine proj_mk_trans ?_ ?_); · ((fail_if_success with_reducible rfl); rfl))
    | split

theorem execReamSeal_frame {m0 : Nat} (hm0 : m0 &&& 3014919484 = 3014919484) (s : State) :
    outProj m0 s (execReamSeal s) := by
  refine outProj_mono hm0 ?_
  unfold execReamSeal
  try dsimp -proj only
  repeat' first
    | (with_reducible refine outProj_next ?_)
    | (with_reducible refine ite_projR ?_ ?_)
    | simp +decide only [↓windowEnd_frame, ↓proj_ite, ↓proj_iteP, ite_self]
    | ((with_reducible refine proj_mk_trans ?_ ?_); · ((fail_if_success with_reducible rfl); rfl))
    | split

theorem execAdmissionOffer_frame {m0 : Nat} (hm0 : m0 &&& 3014919484 = 3014919484) (s : State) :
    outProj m0 s (execAdmissionOffer s) := by
  refine outProj_mono hm0 ?_
  unfold execAdmissionOffer
  try dsimp -proj only
  repeat' first
    | (with_reducible refine outProj_next ?_)
    | (with_reducible refine ite_projR ?_ ?_)
    | simp +decide only [↓windowEnd_frame, ↓decideReq_frame, ↓proj_ite, ↓proj_iteP, ite_self]
    | ((with_reducible refine proj_mk_trans ?_ ?_); · ((fail_if_success with_reducible rfl); rfl))
    | split

theorem lateUnits_frame {m0 : Nat} (hm0 : m0 &&& 67108864 = 67108864) (doms : List Nat) (launchNs : Nat) (s : State) :
    proj m0 (lateUnits doms launchNs s) = proj m0 s := by
  refine proj_mono hm0 ?_
  unfold lateUnits
  try dsimp -proj only
  repeat' first
    | simp +decide only [↓proj_ite, ↓proj_iteP, ite_self]
    | ((with_reducible refine proj_mk_trans ?_ ?_); · ((fail_if_success with_reducible rfl); rfl))
    | split

theorem launchReam_frame {m0 : Nat} (hm0 : m0 &&& 3082028480 = 3082028480) (seq : W32) (s : State) :
    proj m0 (launchReam seq s) = proj m0 s := by
  refine proj_mono hm0 ?_
  unfold launchReam
  try dsimp -proj only
  repeat' first
    | simp +decide only [↓leaveReam_frame, ↓lateUnits_frame, ↓applyRaises_frame, ↓dropLaunch_frame, ↓emitTrace_frame, ↓sendSeq_frame, ↓modReam_frame, ↓modReq_frame, ↓proj_ite, ↓proj_iteP, ite_self]
    | (with_reducible refine (foldl_proj _ _ ?_ _).trans ?_; intro _ _)
    | (with_reducible refine (foldl_projP _ _ ?_ _).trans ?_; intro _ _)
    | ((with_reducible refine proj_mk_trans ?_ ?_); · ((fail_if_success with_reducible rfl); rfl))
    | split

theorem launchReams_frame {m0 : Nat} (hm0 : m0 &&& 3082028480 = 3082028480) (s : State) :
    proj m0 (launchReams s) = proj m0 s := by
  refine proj_mono hm0 ?_
  unfold launchReams
  try dsimp -proj only
  repeat' first
    | simp +decide only [↓launchReam_frame, ↓proj_ite, ↓proj_iteP, ite_self]
    | (with_reducible refine (foldl_proj _ _ ?_ _).trans ?_; intro _ _)
    | (with_reducible refine (foldl_projP _ _ ?_ _).trans ?_; intro _ _)
    | ((with_reducible refine proj_mk_trans ?_ ?_); · ((fail_if_success with_reducible rfl); rfl))
    | split

theorem execLateLaunch_frame {m0 : Nat} (hm0 : m0 &&& 603981824 = 603981824) (dom : DomainId) (s : State) :
    outProj m0 s (execLateLaunch dom s) := by
  refine outProj_mono hm0 ?_
  unfold execLateLaunch
  try dsimp -proj only
  repeat' first
    | (with_reducible refine outProj_next ?_)
    | (with_reducible refine ite_projR ?_ ?_)
    | simp +decide only [↓devEvent_frame, ↓incCnt_frame, ↓proj_ite, ↓proj_iteP, ite_self]
    | (with_reducible refine (foldl_proj _ _ ?_ _).trans ?_; intro _ _)
    | (with_reducible refine (foldl_projP _ _ ?_ _).trans ?_; intro _ _)
    | ((with_reducible refine proj_mk_trans ?_ ?_); · ((fail_if_success with_reducible rfl); rfl))
    | split

theorem clearTokens_frame {m0 : Nat} (hm0 : m0 &&& 24 = 24) (r : Ream) (c : CoreId) (s : State) :
    proj m0 (clearTokens r c s) = proj m0 s := by
  refine proj_mono hm0 ?_
  unfold clearTokens
  try dsimp -proj only
  repeat' first
    | simp +decide only [↓modCluster_frame, ↓modDie_frame, ↓proj_ite, ↓proj_iteP, ite_self]
    | ((with_reducible refine proj_mk_trans ?_ ?_); · ((fail_if_success with_reducible rfl); rfl))
    | split

theorem execProgramStart_frame {m0 : Nat} (hm0 : m0 &&& 537919516 = 537919516) (c : CoreId) (ctx : CtxId) (ream : W32) (s : State) :
    outProj m0 s (execProgramStart c ctx ream s) := by
  refine outProj_mono hm0 ?_
  unfold execProgramStart
  try dsimp -proj only
  repeat' first
    | (with_reducible refine outProj_next ?_)
    | (with_reducible refine ite_projR ?_ ?_)
    | simp +decide only [↓clearTokens_frame, ↓modCore_frame, ↓modReam_frame, ↓incCnt_frame, ↓proj_ite, ↓proj_iteP, ite_self]
    | ((with_reducible refine proj_mk_trans ?_ ?_); · ((fail_if_success with_reducible rfl); rfl))
    | split

theorem freeCtx_frame {m0 : Nat} (hm0 : m0 &&& 4 = 4) (c : CoreId) (ctx : CtxId) (s : State) :
    proj m0 (freeCtx c ctx s) = proj m0 s := by
  refine proj_mono hm0 ?_
  unfold freeCtx
  try dsimp -proj only
  repeat' first
    | simp +decide only [↓modCore_frame, ↓proj_ite, ↓proj_iteP, ite_self]
    | ((with_reducible refine proj_mk_trans ?_ ?_); · ((fail_if_success with_reducible rfl); rfl))
    | split

theorem returnCredits_frame {m0 : Nat} (hm0 : m0 &&& 1048576 = 1048576) (seq : W32) (s : State) :
    proj m0 (returnCredits seq s) = proj m0 s := by
  refine proj_mono hm0 ?_
  unfold returnCredits
  try dsimp -proj only
  repeat' first
    | simp +decide only [↓modReam_frame, ↓proj_ite, ↓proj_iteP, ite_self]
    | ((with_reducible refine proj_mk_trans ?_ ?_); · ((fail_if_success with_reducible rfl); rfl))
    | split

theorem endCore_frame {m0 : Nat} (hm0 : m0 &&& 1048608 = 1048608) (r : Ream) (l : CoreId) (s : State) :
    proj m0 (endCore r l s) = proj m0 s := by
  refine proj_mono hm0 ?_
  unfold endCore
  try dsimp -proj only
  repeat' first
    | simp +decide only [↓returnCredits_frame, ↓modReam_frame, ↓proj_ite, ↓proj_iteP, ite_self]
    | ((with_reducible refine proj_mk_trans ?_ ?_); · ((fail_if_success with_reducible rfl); rfl))
    | split

theorem execEndProg_frame {m0 : Nat} (hm0 : m0 &&& 1048612 = 1048612) (c : CoreId) (ctx : CtxId) (h : CmdHdr) (s : State) :
    outProj m0 s (execEndProg c ctx h s) := by
  refine outProj_mono hm0 ?_
  unfold execEndProg
  try dsimp -proj only
  repeat' first
    | (with_reducible refine outProj_next ?_)
    | (with_reducible refine ite_projR ?_ ?_)
    | simp +decide only [↓ctxDone_frame, ↓ctxIssued_frame, ↓freeCtx_frame, ↓endCore_frame, ↓proj_ite, ↓proj_iteP, ite_self]
    | ((with_reducible refine proj_mk_trans ?_ ?_); · ((fail_if_success with_reducible rfl); rfl))
    | split

theorem execSpineClipMerge_frame {m0 : Nat} (hm0 : m0 &&& 537135248 = 537135248) (d : CDie) (ream : W32) (tensor : BitVec 20) (s : State) :
    outProj m0 s (execSpineClipMerge d ream tensor s) := by
  refine outProj_mono hm0 ?_
  unfold execSpineClipMerge
  try dsimp -proj only
  repeat' first
    | (with_reducible refine outProj_next ?_)
    | (with_reducible refine ite_projR ?_ ?_)
    | simp +decide only [↓modDie_frame, ↓event_frame, ↓proj_ite, ↓proj_iteP, ite_self]
    | ((with_reducible refine proj_mk_trans ?_ ?_); · ((fail_if_success with_reducible rfl); rfl))
    | (with_reducible intro _)
    | split

theorem abandonReam_frame {m0 : Nat} (hm0 : m0 &&& 884756 = 884756) (seq : W32) (s : State) :
    proj m0 (abandonReam seq s) = proj m0 s := by
  refine proj_mono hm0 ?_
  unfold abandonReam
  dsimp -proj only
  with_reducible refine (foldl_proj _ _ ?_ _).trans ?_
  · intro _ _
    exact ite_proj (modDie_frame (by decide) _ _ _) rfl
  · with_reducible refine proj_mk_trans ?_ ?_
    · simp +decide only [proj, ↓reduceIte]
    · with_reducible refine foldl_proj _ _ ?_ _
      intro _ _
      exact ite_proj rfl (setCore_frame (by decide) _ _ _)

theorem dropReam_frame {m0 : Nat} (hm0 : m0 &&& 1933364 = 1933364) (seq : W32) (s : State) :
    proj m0 (dropReam seq s) = proj m0 s := by
  refine proj_mono hm0 ?_
  have hc : ∀ (s : State) (y : Canopy), proj 1933364 { s with canopy := y } = proj 1933364 s := fun _ _ => rfl
  have hr : ∀ (s : State) (l : List Ream), proj 1933364 { s with reams := l } = proj 1933364 s := fun _ _ => rfl
  unfold dropReam
  split
  · rfl
  · exact (dropLaunch_frame (by decide) _ _ _).trans ((hr _ _).trans ((hc _ _).trans (abandonReam_frame (by decide) _ _)))

theorem carryReam_frame {m0 : Nat} (hm0 : m0 &&& 3015542068 = 3015542068) (seq : W32) (s : State) :
    proj m0 (carryReam seq s) = proj m0 s := by
  refine proj_mono hm0 ?_
  unfold carryReam
  try dsimp -proj only
  repeat' first
    | simp +decide only [↓carryReq_frame, ↓dropReam_frame, ↓proj_ite, ↓proj_iteP, ite_self]
    | (with_reducible refine (foldl_proj _ _ ?_ _).trans ?_; intro _ _)
    | (with_reducible refine (foldl_projP _ _ ?_ _).trans ?_; intro _ _)
    | ((with_reducible refine proj_mk_trans ?_ ?_); · ((fail_if_success with_reducible rfl); rfl))
    | split

theorem retestReqs_frame {m0 : Nat} (hm0 : m0 &&& 3014919456 = 3014919456) (seq : W32) (launch : Nat) (cnt : List Nat) (s : State) :
    proj m0 (retestReqs seq launch cnt s) = proj m0 s := by
  refine proj_mono hm0 ?_
  unfold retestReqs
  try dsimp -proj only
  repeat' first
    | simp +decide only [↓answerReq_frame, ↓incCnt_frame, ↓proj_ite, ↓proj_iteP, ite_self]
    | (with_reducible refine (foldl_proj _ _ ?_ _).trans ?_; intro _ _)
    | (with_reducible refine (foldl_projP _ _ ?_ _).trans ?_; intro _ _)
    | ((with_reducible refine proj_mk_trans ?_ ?_); · ((fail_if_success with_reducible rfl); rfl))
    | split

theorem moveShare_frame {m0 : Nat} (hm0 : m0 &&& 3015542076 = 3015542076) (seq : W32) (n : Nat) (w : Nat) (launch : Nat) (s : State) :
    proj m0 (moveShare seq n w launch s) = proj m0 s := by
  refine proj_mono hm0 ?_
  unfold moveShare
  try dsimp -proj only
  repeat' first
    | (with_reducible exact allocLaunch_frame (by decide) _ _ _)
    | simp +decide only [↓sendShare_frame, ↓modReam_frame, ↓carryReam_frame, ↓issueJobs_frame, ↓markCtx_frame, ↓proj_ite, ↓proj_iteP, ite_self]
    | (with_reducible refine (foldl_proj _ _ ?_ _).trans ?_; intro _ _)
    | (with_reducible refine (foldl_projP _ _ ?_ _).trans ?_; intro _ _)
    | ((with_reducible refine proj_mk_trans ?_ ?_); · ((fail_if_success with_reducible rfl); rfl))
    | (with_reducible refine (some_eq (by assumption) (allocLaunch_frame (by decide) _ _ _)).trans ?_)
    | split

theorem replaceShare_frame {m0 : Nat} (hm0 : m0 &&& 3015542076 = 3015542076) (seq : W32) (n : Nat) (not : Nat) (s : State) :
    proj m0 (replaceShare seq n not s) = proj m0 s := by
  refine proj_mono hm0 ?_
  unfold replaceShare
  try dsimp -proj only
  repeat' first
    | simp +decide only [↓incCnt_frame, ↓retestReqs_frame, ↓moveShare_frame, ↓proj_ite, ↓proj_iteP, ite_self]
    | ((with_reducible refine proj_mk_trans ?_ ?_); · ((fail_if_success with_reducible rfl); rfl))
    | split

theorem endReams_frame {m0 : Nat} (hm0 : m0 &&& 1048576 = 1048576) (s : State) : proj m0 (endReams s) = proj m0 s := by
  refine proj_mono hm0 ?_
  unfold endReams
  try dsimp -proj only
  repeat' first
    | simp +decide only [↓proj_ite, ↓proj_iteP, ite_self]
    | ((with_reducible refine proj_mk_trans ?_ ?_); · ((fail_if_success with_reducible rfl); rfl))
    | split

theorem execResponseBuild_frame {m0 : Nat} (hm0 : m0 &&& 3015542076 = 3015542076) (d : NDie) (ix : Nat) (ream : W32) (s : State) :
    outProj m0 s (execResponseBuild d ix ream s) := by
  refine outProj_mono hm0 ?_
  unfold execResponseBuild
  try dsimp -proj only
  repeat' first
    | (with_reducible refine outProj_next ?_)
    | (with_reducible refine ite_projR ?_ ?_)
    | simp +decide only [↓retestReqs_frame, ↓modReq_frame, ↓moveShare_frame, ↓incCnt_frame, ↓endReams_frame, ↓answerPoison_frame, ↓respond_frame, ↓proj_ite, ↓proj_iteP, ite_self]
    | (with_reducible refine (foldl_proj _ _ ?_ _).trans ?_; intro _ _)
    | (with_reducible refine (foldl_projP _ _ ?_ _).trans ?_; intro _ _)
    | ((with_reducible refine proj_mk_trans ?_ ?_); · ((fail_if_success with_reducible rfl); rfl))
    | split

theorem releaseStands_frame {m0 : Nat} (hm0 : m0 &&& 4 = 4) (sl : SlotId) (s : State) :
    proj m0 (releaseStands sl s) = proj m0 s := by
  refine proj_mono hm0 ?_
  unfold releaseStands
  try dsimp -proj only
  repeat' first
    | simp +decide only [↓modCore_frame, ↓proj_ite, ↓proj_iteP, ite_self]
    | (with_reducible refine (foldl_proj _ _ ?_ _).trans ?_; intro _ _)
    | (with_reducible refine (foldl_projP _ _ ?_ _).trans ?_; intro _ _)
    | ((with_reducible refine proj_mk_trans ?_ ?_); · ((fail_if_success with_reducible rfl); rfl))
    | split

theorem staleDumps_frame {m0 : Nat} (hm0 : m0 &&& 2416181248 = 2416181248) (sl : SlotId) (s : State) :
    proj m0 (staleDumps sl s) = proj m0 s := by
  refine proj_mono hm0 ?_
  unfold staleDumps
  try dsimp -proj only
  repeat' first
    | simp +decide only [↓completeBare_frame, ↓proj_ite, ↓proj_iteP, ite_self]
    | (with_reducible refine (foldl_proj _ _ ?_ _).trans ?_; intro _ _)
    | (with_reducible refine (foldl_projP _ _ ?_ _).trans ?_; intro _ _)
    | ((with_reducible refine proj_mk_trans ?_ ?_); · ((fail_if_success with_reducible rfl); rfl))
    | split

theorem execSlotDrained_frame {m0 : Nat} (hm0 : m0 &&& 2417230852 = 2417230852) (slot : SlotId) (s : State) :
    outProj m0 s (execSlotDrained slot s) := by
  refine outProj_mono hm0 ?_
  unfold execSlotDrained
  try dsimp -proj only
  repeat' first
    | (with_reducible refine outProj_next ?_)
    | (with_reducible refine ite_projR ?_ ?_)
    | simp +decide only [↓endReams_frame, ↓staleDumps_frame, ↓releaseStands_frame, ↓setSlot_frame, ↓proj_ite, ↓proj_iteP, ite_self]
    | ((with_reducible refine proj_mk_trans ?_ ?_); · ((fail_if_success with_reducible rfl); rfl))
    | split

theorem modTime_frame {m0 : Nat} (hm0 : m0 &&& 2 = 2) (f : TimeState → TimeState) (s : State) :
    proj m0 (modTime f s) = proj m0 s := by
  refine proj_mono hm0 ?_
  unfold modTime
  try dsimp -proj only
  repeat' first
    | simp +decide only [↓proj_ite, ↓proj_iteP, ite_self]
    | ((with_reducible refine proj_mk_trans ?_ ?_); · ((fail_if_success with_reducible rfl); rfl))
    | split

theorem setSource_frame {m0 : Nat} (hm0 : m0 &&& 2 = 2) (v : Nat) (s : State) : proj m0 (setSource v s) = proj m0 s := by
  refine proj_mono hm0 ?_
  unfold setSource
  try dsimp -proj only
  repeat' first
    | simp +decide only [↓modTime_frame, ↓proj_ite, ↓proj_iteP, ite_self]
    | ((with_reducible refine proj_mk_trans ?_ ?_); · ((fail_if_success with_reducible rfl); rfl))
    | split

theorem servoRate_frame {m0 : Nat} (hm0 : m0 &&& 2147483650 = 2147483650) (s : State) :
    proj m0 (servoRate s) = proj m0 s := by
  refine proj_mono hm0 ?_
  unfold servoRate
  try dsimp -proj only
  repeat' first
    | simp +decide only [↓drawFree_frame, ↓modTime_frame, ↓proj_ite, ↓proj_iteP, ite_self]
    | ((with_reducible refine proj_mk_trans ?_ ?_); · ((fail_if_success with_reducible rfl); rfl))
    | split

theorem measured_frame {m0 : Nat} (hm0 : m0 &&& 2147483650 = 2147483650) (ps : Int) (worker : Bool) (s : State) :
    proj m0 (measured ps worker s) = proj m0 s := by
  refine proj_mono hm0 ?_
  unfold measured
  try dsimp -proj only
  repeat' first
    | simp +decide only [↓modTime_frame, ↓servoRate_frame, ↓proj_ite, ↓proj_iteP, ite_self]
    | ((with_reducible refine proj_mk_trans ?_ ?_); · ((fail_if_success with_reducible rfl); rfl))
    | split

theorem enterHoldover_frame {m0 : Nat} (hm0 : m0 &&& 805308418 = 805308418) (s : State) :
    proj m0 (enterHoldover s) = proj m0 s := by
  refine proj_mono hm0 ?_
  unfold enterHoldover
  try dsimp -proj only
  repeat' first
    | simp +decide only [↓modTime_frame, ↓devEvent_frame, ↓setSticky_frame, ↓proj_ite, ↓proj_iteP, ite_self]
    | ((with_reducible refine proj_mk_trans ?_ ?_); · ((fail_if_success with_reducible rfl); rfl))
    | split

theorem execHoldoverEnter_frame {m0 : Nat} (hm0 : m0 &&& 805308418 = 805308418) (s : State) :
    outProj m0 s (execHoldoverEnter s) := by
  refine outProj_mono hm0 ?_
  unfold execHoldoverEnter
  try dsimp -proj only
  repeat' first
    | (with_reducible refine outProj_next ?_)
    | (with_reducible refine ite_projR ?_ ?_)
    | simp +decide only [↓enterHoldover_frame, ↓proj_ite, ↓proj_iteP, ite_self]
    | ((with_reducible refine proj_mk_trans ?_ ?_); · ((fail_if_success with_reducible rfl); rfl))
    | split

theorem execHoldoverExit_frame {m0 : Nat} (hm0 : m0 &&& 2147483650 = 2147483650) (offsetPs : W32) (s : State) :
    outProj m0 s (execHoldoverExit offsetPs s) := by
  refine outProj_mono hm0 ?_
  unfold execHoldoverExit
  try dsimp -proj only
  repeat' first
    | (with_reducible refine outProj_next ?_)
    | (with_reducible refine ite_projR ?_ ?_)
    | simp +decide only [↓measured_frame, ↓modTime_frame, ↓proj_ite, ↓proj_iteP, ite_self]
    | ((with_reducible refine proj_mk_trans ?_ ?_); · ((fail_if_success with_reducible rfl); rfl))
    | split

theorem syncReplica_frame {m0 : Nat} (hm0 : m0 &&& 2147483682 = 2147483682) (u : UnitCode) (s : State) :
    proj m0 (syncReplica u s) = proj m0 s := by
  refine proj_mono hm0 ?_
  unfold syncReplica
  try dsimp -proj only
  repeat' first
    | simp +decide only [↓report_frame, ↓modTime_frame, ↓proj_ite, ↓proj_iteP, ite_self]
    | ((with_reducible refine proj_mk_trans ?_ ?_); · ((fail_if_success with_reducible rfl); rfl))
    | split

theorem execGtReplicaSync_frame {m0 : Nat} (hm0 : m0 &&& 2147483682 = 2147483682) (drift : List (UnitCode × Int)) (s : State) :
    outProj m0 s (execGtReplicaSync drift s) := by
  refine outProj_mono hm0 ?_
  unfold execGtReplicaSync
  try dsimp -proj only
  repeat' first
    | (with_reducible refine outProj_next ?_)
    | (with_reducible refine ite_projR ?_ ?_)
    | simp +decide only [↓modTime_frame, ↓syncReplica_frame, ↓proj_ite, ↓proj_iteP, ite_self]
    | (with_reducible refine (foldl_proj _ _ ?_ _).trans ?_; intro _ _)
    | (with_reducible refine (foldl_projP _ _ ?_ _).trans ?_; intro _ _)
    | ((with_reducible refine proj_mk_trans ?_ ?_); · ((fail_if_success with_reducible rfl); rfl))
    | split

theorem execPpsInEdge_frame {m0 : Nat} (hm0 : m0 &&& 2147483650 = 2147483650) (s : State) :
    outProj m0 s (execPpsInEdge s) := by
  refine outProj_mono hm0 ?_
  unfold execPpsInEdge
  try dsimp -proj only
  repeat' first
    | (with_reducible refine outProj_next ?_)
    | (with_reducible refine ite_projR ?_ ?_)
    | simp +decide only [↓measured_frame, ↓modTime_frame, ↓proj_ite, ↓proj_iteP, ite_self]
    | ((with_reducible refine proj_mk_trans ?_ ?_); · ((fail_if_success with_reducible rfl); rfl))
    | split

theorem writeSource_frame {m0 : Nat} (hm0 : m0 &&& 268435458 = 268435458) (v : Nat) (s : State) :
    proj m0 (writeSource v s) = proj m0 s := by
  refine proj_mono hm0 ?_
  unfold writeSource
  try dsimp -proj only
  repeat' first
    | simp +decide only [↓setSticky_frame, ↓setSource_frame, ↓proj_ite, ↓proj_iteP, ite_self]
    | ((with_reducible refine proj_mk_trans ?_ ?_); · ((fail_if_success with_reducible rfl); rfl))
    | split

theorem execGtSourceWrite_frame {m0 : Nat} (hm0 : m0 &&& 805568514 = 805568514) (p : HPort) (value : W32) (s : State) :
    outProj m0 s (execGtSourceWrite p value s) := by
  refine outProj_mono hm0 ?_
  unfold execGtSourceWrite
  try dsimp -proj only
  repeat' first
    | (with_reducible refine outProj_next ?_)
    | (with_reducible refine ite_projR ?_ ?_)
    | simp +decide only [↓discardRws_frame, ↓writeSource_frame, ↓proj_ite, ↓proj_iteP, ite_self]
    | ((with_reducible refine proj_mk_trans ?_ ?_); · ((fail_if_success with_reducible rfl); rfl))
    | split

theorem tryStep_frame {m0 : Nat} (hm0 : m0 &&& 268435458 = 268435458) (target : Nat) (s : State) :
    proj m0 (tryStep target s).2 = proj m0 s := by
  refine proj_mono hm0 ?_
  unfold tryStep
  try dsimp -proj only
  repeat' first
    | simp +decide only [↓setSticky_frame, ↓modTime_frame, ↓proj_ite, ↓proj_iteP, ite_self]
    | ((with_reducible refine proj_mk_trans ?_ ?_); · ((fail_if_success with_reducible rfl); rfl))
    | split

theorem execGtStep_frame {m0 : Nat} (hm0 : m0 &&& 805568514 = 805568514) (p : HPort) (s : State) :
    outProj m0 s (execGtStep p s) := by
  refine outProj_mono hm0 ?_
  unfold execGtStep
  try dsimp -proj only
  repeat' first
    | (with_reducible refine outProj_next ?_)
    | (with_reducible refine ite_projR ?_ ?_)
    | simp +decide only [↓discardRws_frame, ↓tryStep_frame, ↓proj_ite, ↓proj_iteP, ite_self]
    | ((with_reducible refine proj_mk_trans ?_ ?_); · ((fail_if_success with_reducible rfl); rfl))
    | split

theorem execGtReadCapture_frame {m0 : Nat} (hm0 : m0 &&& 262144 = 262144) (p : HPort) (s : State) :
    outProj m0 s (execGtReadCapture p s) := by
  refine outProj_mono hm0 ?_
  unfold execGtReadCapture
  try dsimp -proj only
  repeat' first
    | (with_reducible refine outProj_next ?_)
    | (with_reducible refine ite_projR ?_ ?_)
    | simp +decide only [↓modPort_frame, ↓proj_ite, ↓proj_iteP, ite_self]
    | ((with_reducible refine proj_mk_trans ?_ ?_); · ((fail_if_success with_reducible rfl); rfl))
    | split

theorem execPpsOutRise_frame {m0 : Nat} (hm0 : m0 &&& 2 = 2) (s : State) : outProj m0 s (execPpsOutRise s) := by
  refine outProj_mono hm0 ?_
  unfold execPpsOutRise
  try dsimp -proj only
  repeat' first
    | (with_reducible refine outProj_next ?_)
    | (with_reducible refine ite_projR ?_ ?_)
    | simp +decide only [↓modTime_frame, ↓proj_ite, ↓proj_iteP, ite_self]
    | ((with_reducible refine proj_mk_trans ?_ ?_); · ((fail_if_success with_reducible rfl); rfl))
    | split

theorem execPpsOutFall_frame {m0 : Nat} (hm0 : m0 &&& 2 = 2) (s : State) : outProj m0 s (execPpsOutFall s) := by
  refine outProj_mono hm0 ?_
  unfold execPpsOutFall
  try dsimp -proj only
  repeat' first
    | (with_reducible refine outProj_next ?_)
    | (with_reducible refine ite_projR ?_ ?_)
    | simp +decide only [↓modTime_frame, ↓proj_ite, ↓proj_iteP, ite_self]
    | ((with_reducible refine proj_mk_trans ?_ ?_); · ((fail_if_success with_reducible rfl); rfl))
    | split

theorem execTimeSetSource_frame {m0 : Nat} (hm0 : m0 &&& 268697602 = 268697602) (s : State) :
    outProj m0 s (execTimeSetSource s) := by
  refine outProj_mono hm0 ?_
  unfold execTimeSetSource
  try dsimp -proj only
  repeat' first
    | (with_reducible refine outProj_next ?_)
    | (with_reducible refine ite_projR ?_ ?_)
    | (with_reducible exact takeDesc_frame (by decide) _ _)
    | simp +decide only [↓complete_frame, ↓setSticky_frame, ↓setSource_frame, ↓proj_ite, ↓proj_iteP, ite_self]
    | ((with_reducible refine proj_mk_trans ?_ ?_); · ((fail_if_success with_reducible rfl); rfl))
    | (with_reducible refine (some_eq (by assumption) (takeDesc_frame (by decide) _ _)).trans ?_)
    | split

theorem execTimeSetRate_frame {m0 : Nat} (hm0 : m0 &&& 268697602 = 268697602) (s : State) :
    outProj m0 s (execTimeSetRate s) := by
  refine outProj_mono hm0 ?_
  unfold execTimeSetRate
  try dsimp -proj only
  repeat' first
    | (with_reducible refine outProj_next ?_)
    | (with_reducible refine ite_projR ?_ ?_)
    | (with_reducible exact takeDesc_frame (by decide) _ _)
    | simp +decide only [↓complete_frame, ↓modTime_frame, ↓proj_ite, ↓proj_iteP, ite_self]
    | ((with_reducible refine proj_mk_trans ?_ ?_); · ((fail_if_success with_reducible rfl); rfl))
    | (with_reducible refine (some_eq (by assumption) (takeDesc_frame (by decide) _ _)).trans ?_)
    | split

theorem execTimeStep_frame {m0 : Nat} (hm0 : m0 &&& 268697602 = 268697602) (s : State) : outProj m0 s (execTimeStep s) := by
  refine outProj_mono hm0 ?_
  unfold execTimeStep
  try dsimp -proj only
  repeat' first
    | (with_reducible refine outProj_next ?_)
    | (with_reducible exact takeDesc_frame (by decide) _ _)
    | simp +decide only [↓tryStep_frame, ↓complete_frame, ↓proj_ite, ↓proj_iteP, ite_self]
    | ((with_reducible refine proj_mk_trans ?_ ?_); · ((fail_if_success with_reducible rfl); rfl))
    | (with_reducible refine (some_eq (by assumption) (takeDesc_frame (by decide) _ _)).trans ?_)
    | (with_reducible refine (snd_eq (by assumption) (tryStep_frame (by decide) _ _)).trans ?_)
    | split

theorem execTimeRead_frame {m0 : Nat} (hm0 : m0 &&& 268697600 = 268697600) (s : State) : outProj m0 s (execTimeRead s) := by
  refine outProj_mono hm0 ?_
  unfold execTimeRead
  try dsimp -proj only
  repeat' first
    | (with_reducible refine outProj_next ?_)
    | (with_reducible exact takeDesc_frame (by decide) _ _)
    | simp +decide only [↓complete_frame, ↓proj_ite, ↓proj_iteP, ite_self]
    | ((with_reducible refine proj_mk_trans ?_ ?_); · ((fail_if_success with_reducible rfl); rfl))
    | (with_reducible refine (some_eq (by assumption) (takeDesc_frame (by decide) _ _)).trans ?_)
    | split

theorem takeRx_frame {m0 : Nat} (hm0 : m0 &&& 33554432 = 33554432) (t : Nat) (s : State) : optProj m0 s (takeRx t s) := by
  refine optProj_mono hm0 ?_
  unfold takeRx
  try dsimp -proj only
  repeat' first
    | (with_reducible exact optProj_none)
    | (with_reducible refine optProj_some ?_)
    | (with_reducible refine ite_projO ?_ ?_)
    | simp +decide only [↓modGrp_frame, ↓proj_ite, ↓proj_iteP, ite_self]
    | ((with_reducible refine proj_mk_trans ?_ ?_); · ((fail_if_success with_reducible rfl); rfl))
    | split

theorem onRx_frame {m0 : Nat} (hm0 : m0 &&& 33554432 = 33554432) (t : Nat) (f : GrpRx → State → State) (s : State) (hf : ∀ x s, proj m0 (f x s) = proj m0 s) :
    outProj m0 s (onRx t f s) := by
  intro u e
  unfold onRx at e
  split at e
  · cases e; rfl
  · cases e; exact (hf _ _).trans (proj_mono hm0 (some_eq (by assumption) (takeRx_frame (by decide) _ _)))

theorem grpCount_frame {m0 : Nat} (hm0 : m0 &&& 536870912 = 536870912) (n : Nat) (s : State) :
    proj m0 (grpCount n s) = proj m0 s := by
  refine proj_mono hm0 ?_
  unfold grpCount
  try dsimp -proj only
  repeat' first
    | simp +decide only [↓incCnt_frame, ↓proj_ite, ↓proj_iteP, ite_self]
    | ((with_reducible refine proj_mk_trans ?_ ?_); · ((fail_if_success with_reducible rfl); rfl))
    | split

theorem tellHolders_frame {m0 : Nat} (hm0 : m0 &&& 572522496 = 572522496) (changes : List (PeerId × Option Member)) (s : State) :
    proj m0 (tellHolders changes s) = proj m0 s := by
  refine proj_mono hm0 ?_
  unfold tellHolders
  try dsimp -proj only
  repeat' first
    | simp +decide only [↓sendSeq_frame, ↓proj_ite, ↓proj_iteP, ite_self]
    | (with_reducible refine (foldl_proj _ _ ?_ _).trans ?_; intro _ _)
    | (with_reducible refine (foldl_projP _ _ ?_ _).trans ?_; intro _ _)
    | ((with_reducible refine proj_mk_trans ?_ ?_); · ((fail_if_success with_reducible rfl); rfl))
    | split

theorem refreshHolders_frame {m0 : Nat} (hm0 : m0 &&& 572522496 = 572522496) (s : State) :
    proj m0 (refreshHolders s) = proj m0 s := by
  refine proj_mono hm0 ?_
  unfold refreshHolders
  try dsimp -proj only
  repeat' first
    | simp +decide only [↓modGrp_frame, ↓sendSeq_frame, ↓tellHolders_frame, ↓journalTo_frame, ↓proj_ite, ↓proj_iteP, ite_self]
    | (with_reducible refine (foldl_proj _ _ ?_ _).trans ?_; intro _ _)
    | (with_reducible refine (foldl_projP _ _ ?_ _).trans ?_; intro _ _)
    | ((with_reducible refine proj_mk_trans ?_ ?_); · ((fail_if_success with_reducible rfl); rfl))
    | split

theorem replaceAll_frame {m0 : Nat} (hm0 : m0 &&& 3015542076 = 3015542076) (i : Nat) (s : State) :
    proj m0 (replaceAll i s) = proj m0 s := by
  refine proj_mono hm0 ?_
  unfold replaceAll
  try dsimp -proj only
  repeat' first
    | simp +decide only [↓replaceShare_frame, ↓proj_ite, ↓proj_iteP, ite_self]
    | (with_reducible refine (foldl_proj _ _ ?_ _).trans ?_; intro _ _)
    | (with_reducible refine (foldl_projP _ _ ?_ _).trans ?_; intro _ _)
    | ((with_reducible refine proj_mk_trans ?_ ?_); · ((fail_if_success with_reducible rfl); rfl))
    | split

theorem dropWorker_frame {m0 : Nat} (hm0 : m0 &&& 3015542076 = 3015542076) (i : Nat) (s : State) :
    proj m0 (dropWorker i s) = proj m0 s := by
  refine proj_mono hm0 ?_
  unfold dropWorker
  try dsimp -proj only
  repeat' first
    | simp +decide only [↓modGrp_frame, ↓tellHolders_frame, ↓refreshHolders_frame, ↓replaceAll_frame, ↓proj_ite, ↓proj_iteP, ite_self]
    | ((with_reducible refine proj_mk_trans ?_ ?_); · ((fail_if_success with_reducible rfl); rfl))
    | split

theorem loseWorker_frame {m0 : Nat} (hm0 : m0 &&& 3015542076 = 3015542076) (i : Nat) (s : State) :
    proj m0 (loseWorker i s) = proj m0 s := by
  refine proj_mono hm0 ?_
  unfold loseWorker
  try dsimp -proj only
  repeat' first
    | simp +decide only [↓report_frame, ↓grpCount_frame, ↓dropWorker_frame, ↓proj_ite, ↓proj_iteP, ite_self]
    | ((with_reducible refine proj_mk_trans ?_ ?_); · ((fail_if_success with_reducible rfl); rfl))
    | split

theorem dropShares_frame {m0 : Nat} (hm0 : m0 &&& 35487796 = 35487796) (s : State) :
    proj m0 (dropShares s) = proj m0 s := by
  refine proj_mono hm0 ?_
  unfold dropShares
  try dsimp -proj only
  repeat' first
    | simp +decide only [↓dropReam_frame, ↓modGrp_frame, ↓proj_ite, ↓proj_iteP, ite_self]
    | (with_reducible refine (foldl_proj _ _ ?_ _).trans ?_; intro _ _)
    | (with_reducible refine (foldl_projP _ _ ?_ _).trans ?_; intro _ _)
    | ((with_reducible refine proj_mk_trans ?_ ?_); · ((fail_if_success with_reducible rfl); rfl))
    | split

theorem freeTracker_frame {m0 : Nat} (hm0 : m0 &&& 29197364 = 29197364) (s : State) :
    proj m0 (freeTracker s) = proj m0 s := by
  refine proj_mono hm0 ?_
  unfold freeTracker
  try dsimp -proj only
  repeat' first
    | simp +decide only [↓dropFrame_frame, ↓dropReam_frame, ↓proj_ite, ↓proj_iteP, ite_self]
    | (with_reducible refine (foldl_proj _ _ ?_ _).trans ?_; intro _ _)
    | (with_reducible refine (foldl_projP _ _ ?_ _).trans ?_; intro _ _)
    | ((with_reducible refine proj_mk_trans ?_ ?_); · ((fail_if_success with_reducible rfl); rfl))
    | split

theorem forgetGroup_frame {m0 : Nat} (hm0 : m0 &&& 33554432 = 33554432) (s : State) :
    proj m0 (forgetGroup s) = proj m0 s := by
  refine proj_mono hm0 ?_
  unfold forgetGroup
  try dsimp -proj only
  repeat' first
    | simp +decide only [↓modGrp_frame, ↓proj_ite, ↓proj_iteP, ite_self]
    | ((with_reducible refine proj_mk_trans ?_ ?_); · ((fail_if_success with_reducible rfl); rfl))
    | split

theorem depose_frame {m0 : Nat} (hm0 : m0 &&& 331187252 = 331187252) (s : State) : proj m0 (depose s) = proj m0 s := by
  refine proj_mono hm0 ?_
  unfold depose
  try dsimp -proj only
  repeat' first
    | simp +decide only [↓modGrp_frame, ↓forgetGroup_frame, ↓setSticky_frame, ↓freeTracker_frame, ↓proj_ite, ↓proj_iteP, ite_self]
    | ((with_reducible refine proj_mk_trans ?_ ?_); · ((fail_if_success with_reducible rfl); rfl))
    | split

theorem adoptEpoch_frame {m0 : Nat} (hm0 : m0 &&& 331187252 = 331187252) (e : W32) (port : LaneId) (s : State) :
    proj m0 (adoptEpoch e port s) = proj m0 s := by
  refine proj_mono hm0 ?_
  unfold adoptEpoch
  try dsimp -proj only
  repeat' first
    | simp +decide only [↓modGrp_frame, ↓depose_frame, ↓dropShares_frame, ↓setPeer_frame, ↓proj_ite, ↓proj_iteP, ite_self]
    | ((with_reducible refine proj_mk_trans ?_ ?_); · ((fail_if_success with_reducible rfl); rfl))
    | split

theorem deliver_frame {m0 : Nat} (hm0 : m0 &&& 572522496 = 572522496) (x : GrpRx) (s : State) :
    proj m0 (deliver x s) = proj m0 s := by
  refine proj_mono hm0 ?_
  unfold deliver
  try dsimp -proj only
  repeat' first
    | simp +decide only [↓modGrp_frame, ↓ackFrom_frame, ↓toPeer_frame, ↓setPeer_frame, ↓proj_ite, ↓proj_iteP, ite_self]
    | ((with_reducible refine proj_mk_trans ?_ ?_); · ((fail_if_success with_reducible rfl); rfl))
    | split

theorem execRetransmit_frame {m0 : Nat} (hm0 : m0 &&& 572522496 = 572522496) (peer : PeerId) (s : State) :
    outProj m0 s (execRetransmit peer s) := by
  refine outProj_mono hm0 ?_
  unfold execRetransmit
  try dsimp -proj only
  repeat' first
    | (with_reducible refine outProj_next ?_)
    | (with_reducible refine ite_projR ?_ ?_)
    | simp +decide only [↓setPeer_frame, ↓toPeer_frame, ↓grpCount_frame, ↓proj_ite, ↓proj_iteP, ite_self]
    | (with_reducible refine (foldl_proj _ _ ?_ _).trans ?_; intro _ _)
    | (with_reducible refine (foldl_projP _ _ ?_ _).trans ?_; intro _ _)
    | ((with_reducible refine proj_mk_trans ?_ ?_); · ((fail_if_success with_reducible rfl); rfl))
    | split

theorem execAnnounceSend_frame {m0 : Nat} (hm0 : m0 &&& 572522496 = 572522496) (s : State) :
    outProj m0 s (execAnnounceSend s) := by
  refine outProj_mono hm0 ?_
  unfold execAnnounceSend
  try dsimp -proj only
  repeat' first
    | (with_reducible refine outProj_next ?_)
    | (with_reducible refine ite_projR ?_ ?_)
    | simp +decide only [↓modGrp_frame, ↓sendFrame_frame, ↓proj_ite, ↓proj_iteP, ite_self]
    | (with_reducible refine (foldl_proj _ _ ?_ _).trans ?_; intro _ _)
    | (with_reducible refine (foldl_projP _ _ ?_ _).trans ?_; intro _ _)
    | ((with_reducible refine proj_mk_trans ?_ ?_); · ((fail_if_success with_reducible rfl); rfl))
    | split

theorem execAnnounce_frame {m0 : Nat} (hm0 : m0 &&& 3015542076 = 3015542076) (s : State) :
    outProj m0 s (execAnnounce s) := by
  refine outProj_mono hm0 ?_
  unfold execAnnounce
  try dsimp -proj only
  repeat' first
    | (with_reducible refine outProj_next ?_)
    | (with_reducible refine ite_projR ?_ ?_)
    | (with_reducible refine onRx_frame (by decide) _ _ _ ?_)
    | simp +decide only [↓loseWorker_frame, ↓sendTo_frame, ↓setPeer_frame, ↓tellHolders_frame, ↓proj_ite, ↓proj_iteP, ite_self]
    | ((with_reducible refine proj_mk_trans ?_ ?_); · ((fail_if_success with_reducible rfl); rfl))
    | (with_reducible intro _)
    | split

theorem joinStep_frame {m0 : Nat} (hm0 : m0 &&& 268435458 = 268435458) (gtNs : W64) (s : State) :
    proj m0 (joinStep gtNs s) = proj m0 s := by
  refine proj_mono hm0 ?_
  unfold joinStep
  try dsimp -proj only
  repeat' first
    | simp +decide only [↓modTime_frame, ↓setSticky_frame, ↓proj_ite, ↓proj_iteP, ite_self]
    | ((with_reducible refine proj_mk_trans ?_ ?_); · ((fail_if_success with_reducible rfl); rfl))
    | split

theorem execWelcome_frame {m0 : Nat} (hm0 : m0 &&& 840960002 = 840960002) (s : State) : outProj m0 s (execWelcome s) := by
  refine outProj_mono hm0 ?_
  unfold execWelcome
  try dsimp -proj only
  repeat' first
    | (with_reducible refine outProj_next ?_)
    | (with_reducible refine ite_projR ?_ ?_)
    | (with_reducible refine onRx_frame (by decide) _ _ _ ?_)
    | simp +decide only [↓sendFrame_frame, ↓modGrp_frame, ↓setSource_frame, ↓forgetGroup_frame, ↓setPeer_frame, ↓beginServing_frame, ↓joinStep_frame, ↓proj_ite, ↓proj_iteP, ite_self]
    | ((with_reducible refine proj_mk_trans ?_ ?_); · ((fail_if_success with_reducible rfl); rfl))
    | (with_reducible intro _)
    | split

theorem execRefuse_frame {m0 : Nat} (hm0 : m0 &&& 33554432 = 33554432) (s : State) : outProj m0 s (execRefuse s) := by
  refine outProj_mono hm0 ?_
  unfold execRefuse
  try dsimp -proj only
  repeat' first
    | (with_reducible refine outProj_next ?_)
    | (with_reducible refine onRx_frame (by decide) _ _ _ ?_)
    | simp +decide only [↓proj_ite, ↓proj_iteP, ite_self]
    | ((with_reducible refine proj_mk_trans ?_ ?_); · ((fail_if_success with_reducible rfl); rfl))
    | (with_reducible intro _)
    | split

theorem sendArea_frame {m0 : Nat} (hm0 : m0 &&& 3055730720 = 3055730720) (i : Nat) (t : Nat) (base : Nat) (off : Nat) (n : Nat) (gen : W32) (s : State) :
    proj m0 (sendArea i t base off n gen s) = proj m0 s := by
  refine proj_mono hm0 ?_
  unfold sendArea
  try dsimp -proj only
  repeat' first
    | simp +decide only [↓readDpa_frame, ↓sendSeq_frame, ↓proj_ite, ↓proj_iteP, ite_self]
    | (with_reducible refine (foldl_proj _ _ ?_ _).trans ?_; intro _ _)
    | (with_reducible refine (foldl_projP _ _ ?_ _).trans ?_; intro _ _)
    | ((with_reducible refine proj_mk_trans ?_ ?_); · ((fail_if_success with_reducible rfl); rfl))
    | split

theorem sendTable_frame {m0 : Nat} (hm0 : m0 &&& 3055730720 = 3055730720) (i : Nat) (t : Nat) (s : State) :
    proj m0 (sendTable i t s) = proj m0 s := by
  refine proj_mono hm0 ?_
  unfold sendTable
  try dsimp -proj only
  repeat' first
    | simp +decide only [↓sendArea_frame, ↓sendSeq_frame, ↓proj_ite, ↓proj_iteP, ite_self]
    | ((with_reducible refine proj_mk_trans ?_ ?_); · ((fail_if_success with_reducible rfl); rfl))
    | split

theorem startCopies_frame {m0 : Nat} (hm0 : m0 &&& 3055730720 = 3055730720) (i : Nat) (s : State) :
    proj m0 (startCopies i s) = proj m0 s := by
  refine proj_mono hm0 ?_
  unfold startCopies
  try dsimp -proj only
  repeat' first
    | simp +decide only [↓sendTable_frame, ↓setPeer_frame, ↓proj_ite, ↓proj_iteP, ite_self]
    | (with_reducible refine (foldl_proj _ _ ?_ _).trans ?_; intro _ _)
    | (with_reducible refine (foldl_projP _ _ ?_ _).trans ?_; intro _ _)
    | ((with_reducible refine proj_mk_trans ?_ ?_); · ((fail_if_success with_reducible rfl); rfl))
    | split

theorem execWorkerReady_frame {m0 : Nat} (hm0 : m0 &&& 572522496 = 572522496) (peer : PeerId) (s : State) :
    outProj m0 s (execWorkerReady peer s) := by
  refine outProj_mono hm0 ?_
  unfold execWorkerReady
  try dsimp -proj only
  repeat' first
    | (with_reducible refine outProj_next ?_)
    | (with_reducible refine ite_projR ?_ ?_)
    | simp +decide only [↓refreshHolders_frame, ↓setPeer_frame, ↓proj_ite, ↓proj_iteP, ite_self]
    | ((with_reducible refine proj_mk_trans ?_ ?_); · ((fail_if_success with_reducible rfl); rfl))
    | split

theorem copyBucket_frame {m0 : Nat} (hm0 : m0 &&& 3020603424 = 3020603424) (t : Nat) (b : Nat) (bs : Bytes) (s : State) :
    proj m0 (copyBucket t b bs s) = proj m0 s := by
  refine proj_mono hm0 ?_
  unfold copyBucket
  try dsimp -proj only
  repeat' first
    | simp +decide only [↓putSlot_frame, ↓proj_ite, ↓proj_iteP, ite_self]
    | (with_reducible refine (foldl_proj _ _ ?_ _).trans ?_; intro _ _)
    | (with_reducible refine (foldl_projP _ _ ?_ _).trans ?_; intro _ _)
    | ((with_reducible refine proj_mk_trans ?_ ?_); · ((fail_if_success with_reducible rfl); rfl))
    | split

theorem copyLine_frame {m0 : Nat} (hm0 : m0 &&& 3054157856 = 3054157856) (t : TableId) (a : Nat) (data : Bytes) (gen : W32) (last : Bool) (s : State) :
    proj m0 (copyLine t a data gen last s) = proj m0 s := by
  refine proj_mono hm0 ?_
  unfold copyLine
  try dsimp -proj only
  repeat' first
    | simp +decide only [↓modGrp_frame, ↓setTbl_frame, ↓copyBucket_frame, ↓writeDpa_frame, ↓proj_ite, ↓proj_iteP, ite_self]
    | ((with_reducible refine proj_mk_trans ?_ ?_); · ((fail_if_success with_reducible rfl); rfl))
    | split

theorem queueForwarded_frame {m0 : Nat} (hm0 : m0 &&& 537657344 = 537657344) (t : TableId) (recs : List BatchRec) (expect : W32) (launch : Nat) (s : State) :
    proj m0 (queueForwarded t recs expect launch s) = proj m0 s := by
  refine proj_mono hm0 ?_
  unfold queueForwarded
  try dsimp -proj only
  repeat' first
    | simp +decide only [↓acceptNow_frame, ↓notePast_frame, ↓queueChange_frame, ↓proj_ite, ↓proj_iteP, ite_self]
    | ((with_reducible refine proj_mk_trans ?_ ?_); · ((fail_if_success with_reducible rfl); rfl))
    | split

theorem execTable_frame {m0 : Nat} (hm0 : m0 &&& 3054420000 = 3054420000) (s : State) : outProj m0 s (execTable s) := by
  refine outProj_mono hm0 ?_
  unfold execTable
  try dsimp -proj only
  repeat' first
    | (with_reducible refine outProj_next ?_)
    | (with_reducible refine ite_projR ?_ ?_)
    | (with_reducible exact takeRx_frame (by decide) _ _)
    | (with_reducible exact allocLaunch_frame (by decide) _ _ _)
    | simp +decide only [↓copyLine_frame, ↓queueForwarded_frame, ↓proj_ite, ↓proj_iteP, ite_self]
    | ((with_reducible refine proj_mk_trans ?_ ?_); · ((fail_if_success with_reducible rfl); rfl))
    | (with_reducible refine (some_eq (by assumption) (takeRx_frame (by decide) _ _)).trans ?_)
    | (with_reducible refine (some_eq (by assumption) (allocLaunch_frame (by decide) _ _ _)).trans ?_)
    | (with_reducible refine (some_eq (by assumption) (ite_projO (optProj_some rfl) (allocLaunch_frame (by decide) _ _ _))).trans ?_)
    | (with_reducible intro _)
    | split

theorem execHeartbeatSend_frame {m0 : Nat} (hm0 : m0 &&& 572522496 = 572522496) (s : State) :
    outProj m0 s (execHeartbeatSend s) := by
  refine outProj_mono hm0 ?_
  unfold execHeartbeatSend
  try dsimp -proj only
  repeat' first
    | (with_reducible refine outProj_next ?_)
    | (with_reducible refine ite_projR ?_ ?_)
    | simp +decide only [↓modGrp_frame, ↓toPeer_frame, ↓proj_ite, ↓proj_iteP, ite_self]
    | (with_reducible refine (foldl_proj _ _ ?_ _).trans ?_; intro _ _)
    | (with_reducible refine (foldl_projP _ _ ?_ _).trans ?_; intro _ _)
    | ((with_reducible refine proj_mk_trans ?_ ?_); · ((fail_if_success with_reducible rfl); rfl))
    | split

theorem execHeartbeat_frame {m0 : Nat} (hm0 : m0 &&& 3055730722 = 3055730722) (s : State) :
    outProj m0 s (execHeartbeat s) := by
  refine outProj_mono hm0 ?_
  unfold execHeartbeat
  try dsimp -proj only
  repeat' first
    | (with_reducible refine outProj_next ?_)
    | (with_reducible refine ite_projR ?_ ?_)
    | (with_reducible refine onRx_frame (by decide) _ _ _ ?_)
    | simp +decide only [↓setPeer_frame, ↓startCopies_frame, ↓modGrp_frame, ↓measured_frame, ↓proj_ite, ↓proj_iteP, ite_self]
    | ((with_reducible refine proj_mk_trans ?_ ?_); · ((fail_if_success with_reducible rfl); rfl))
    | (with_reducible intro _)
    | split

theorem groupWrite_frame {m0 : Nat} (hm0 : m0 &&& 3020079160 = 3020079160) (space : BitVec 2) (a : Nat) (data : Bytes) (s : State) :
    proj m0 (groupWrite space a data s) = proj m0 s := by
  refine proj_mono hm0 ?_
  unfold groupWrite
  try dsimp -proj only
  repeat' first
    | simp +decide only [↓modDie_frame, ↓modCluster_frame, ↓writeDpa_frame, ↓proj_ite, ↓proj_iteP, ite_self]
    | ((with_reducible refine proj_mk_trans ?_ ?_); · ((fail_if_success with_reducible rfl); rfl))
    | split

theorem execWrite_frame {m0 : Nat} (hm0 : m0 &&& 3053633592 = 3053633592) (s : State) : outProj m0 s (execWrite s) := by
  refine outProj_mono hm0 ?_
  unfold execWrite
  try dsimp -proj only
  repeat' first
    | (with_reducible refine outProj_next ?_)
    | (with_reducible refine ite_projR ?_ ?_)
    | (with_reducible refine onRx_frame (by decide) _ _ _ ?_)
    | simp +decide only [↓groupWrite_frame, ↓modGrp_frame, ↓proj_ite, ↓proj_iteP, ite_self]
    | ((with_reducible refine proj_mk_trans ?_ ?_); · ((fail_if_success with_reducible rfl); rfl))
    | (with_reducible intro _)
    | split

theorem refuseShare_frame {m0 : Nat} (hm0 : m0 &&& 572522496 = 572522496) (ream : W32) (n : Nat) (status : Nat) (s : State) :
    proj m0 (refuseShare ream n status s) = proj m0 s := by
  refine proj_mono hm0 ?_
  unfold refuseShare
  try dsimp -proj only
  repeat' first
    | simp +decide only [↓sendSeq_frame, ↓proj_ite, ↓proj_iteP, ite_self]
    | ((with_reducible refine proj_mk_trans ?_ ?_); · ((fail_if_success with_reducible rfl); rfl))
    | split

theorem execWork_frame {m0 : Nat} (hm0 : m0 &&& 573833220 = 573833220) (s : State) : outProj m0 s (execWork s) := by
  refine outProj_mono hm0 ?_
  unfold execWork
  try dsimp -proj only
  repeat' first
    | (with_reducible refine outProj_next ?_)
    | (with_reducible refine ite_projR ?_ ?_)
    | (with_reducible refine onRx_frame (by decide) _ _ _ ?_)
    | (with_reducible exact allocLaunch_frame (by decide) _ _ _)
    | simp +decide only [↓refuseShare_frame, ↓notePast_frame, ↓modReam_frame, ↓markCtx_frame, ↓modGrp_frame, ↓proj_ite, ↓proj_iteP, ite_self]
    | (with_reducible refine (foldl_proj _ _ ?_ _).trans ?_; intro _ _)
    | (with_reducible refine (foldl_projP _ _ ?_ _).trans ?_; intro _ _)
    | ((with_reducible refine proj_mk_trans ?_ ?_); · ((fail_if_success with_reducible rfl); rfl))
    | (with_reducible refine (some_eq (by assumption) (allocLaunch_frame (by decide) _ _ _)).trans ?_)
    | (with_reducible refine (getD_proj (allocLaunch_frame (by decide) _ _ _)).trans ?_)
    | (with_reducible intro _)
    | split

theorem sendLeave_frame {m0 : Nat} (hm0 : m0 &&& 572522496 = 572522496) (s : State) :
    proj m0 (sendLeave s) = proj m0 s := by
  refine proj_mono hm0 ?_
  unfold sendLeave
  try dsimp -proj only
  repeat' first
    | simp +decide only [↓modGrp_frame, ↓sendSeq_frame, ↓proj_ite, ↓proj_iteP, ite_self]
    | ((with_reducible refine proj_mk_trans ?_ ?_); · ((fail_if_success with_reducible rfl); rfl))
    | split

theorem sendOwn_frame {m0 : Nat} (hm0 : m0 &&& 538968064 = 538968064) (g : Nat) (f : Bytes) (s : State) :
    proj m0 (sendOwn g f s) = proj m0 s := by
  refine proj_mono hm0 ?_
  unfold sendOwn
  try dsimp -proj only
  repeat' first
    | simp +decide only [↓putFrame_frame, ↓enqueue_frame, ↓freeUnheld_frame, ↓proj_ite, ↓proj_iteP, ite_self]
    | ((with_reducible refine proj_mk_trans ?_ ?_); · ((fail_if_success with_reducible rfl); rfl))
    | split

theorem announceAddrs_frame {m0 : Nat} (hm0 : m0 &&& 538968064 = 538968064) (s : State) :
    proj m0 (announceAddrs s) = proj m0 s := by
  refine proj_mono hm0 ?_
  unfold announceAddrs
  try dsimp -proj only
  repeat' first
    | simp +decide only [↓sendOwn_frame, ↓proj_ite, ↓proj_iteP, ite_self]
    | (with_reducible refine (foldl_proj _ _ ?_ _).trans ?_; intro _ _)
    | (with_reducible refine (foldl_projP _ _ ?_ _).trans ?_; intro _ _)
    | ((with_reducible refine proj_mk_trans ?_ ?_); · ((fail_if_success with_reducible rfl); rfl))
    | split

theorem rebuildReq_frame {m0 : Nat} (hm0 : m0 &&& 27264000 = 27264000) (e : JEntry) (s : State) :
    proj m0 (rebuildReq e s) = proj m0 s := by
  refine proj_mono hm0 ?_
  unfold rebuildReq
  try dsimp -proj only
  repeat' first
    | simp +decide only [↓putFrame_frame, ↓holdFrame_frame, ↓modSlot_frame, ↓setReq_frame, ↓proj_ite, ↓proj_iteP, ite_self]
    | ((with_reducible refine proj_mk_trans ?_ ?_); · ((fail_if_success with_reducible rfl); rfl))
    | (with_reducible refine (snd_eq (by assumption) (putFrame_frame (by decide) _ _ _ _ _)).trans ?_)
    | split

theorem replayReq_frame {m0 : Nat} (hm0 : m0 &&& 3014919456 = 3014919456) (k : Nat) (s : State) :
    proj m0 (replayReq k s) = proj m0 s := by
  refine proj_mono hm0 ?_
  unfold replayReq
  try dsimp -proj only
  repeat' first
    | simp +decide only [↓answerReq_frame, ↓grpCount_frame, ↓decideReq_frame, ↓proj_ite, ↓proj_iteP, ite_self]
    | ((with_reducible refine proj_mk_trans ?_ ?_); · ((fail_if_success with_reducible rfl); rfl))
    | split

theorem promoteSelf_frame {m0 : Nat} (hm0 : m0 &&& 3015542070 = 3015542070) (mac : Bool) (e : W32) (s : State) :
    proj m0 (promoteSelf mac e s) = proj m0 s := by
  refine proj_mono hm0 ?_
  unfold promoteSelf
  try dsimp -proj only
  repeat' first
    | simp +decide only [↓forgetGroup_frame, ↓dropShares_frame, ↓modGrp_frame, ↓setPeer_frame, ↓sendFrame_frame, ↓toPeer_frame, ↓announceAddrs_frame, ↓setSource_frame, ↓rebuildReq_frame, ↓replayReq_frame, ↓refreshHolders_frame, ↓proj_ite, ↓proj_iteP, ite_self]
    | (with_reducible refine (foldl_proj _ _ ?_ _).trans ?_; intro _ _)
    | (with_reducible refine (foldl_projP _ _ ?_ _).trans ?_; intro _ _)
    | ((with_reducible refine proj_mk_trans ?_ ?_); · ((fail_if_success with_reducible rfl); rfl))
    | split

theorem endOfShares_frame {m0 : Nat} (hm0 : m0 &&& 3015542070 = 3015542070) (s : State) :
    proj m0 (endOfShares s) = proj m0 s := by
  refine proj_mono hm0 ?_
  unfold endOfShares
  try dsimp -proj only
  repeat' first
    | simp +decide only [↓promoteSelf_frame, ↓sendLeave_frame, ↓proj_ite, ↓proj_iteP, ite_self]
    | ((with_reducible refine proj_mk_trans ?_ ?_); · ((fail_if_success with_reducible rfl); rfl))
    | split

theorem execShareEnd_frame {m0 : Nat} (hm0 : m0 &&& 3015542070 = 3015542070) (ream : W32) (slot : SlotId) (launch share : Nat) (s : State) :
    outProj m0 s (execShareEnd ream slot launch share s) := by
  refine outProj_mono hm0 ?_
  unfold execShareEnd
  try dsimp -proj only
  repeat' first
    | (with_reducible refine outProj_next ?_)
    | (with_reducible refine ite_projR ?_ ?_)
    | simp +decide only [↓sendWrites_frame, ↓endOfShares_frame, ↓sendSeq_frame, ↓proj_ite, ↓proj_iteP, ite_self]
    | (with_reducible refine (foldl_proj _ _ ?_ _).trans ?_; intro _ _)
    | (with_reducible refine (foldl_projP _ _ ?_ _).trans ?_; intro _ _)
    | ((with_reducible refine proj_mk_trans ?_ ?_); · ((fail_if_success with_reducible rfl); rfl))
    | split

theorem poisonOutputs_frame {m0 : Nat} (hm0 : m0 &&& 8 = 8) (r : Ream) (n : Nat) (s : State) :
    proj m0 (poisonOutputs r n s) = proj m0 s := by
  refine proj_mono hm0 ?_
  unfold poisonOutputs
  try dsimp -proj only
  repeat' first
    | simp +decide only [↓modCluster_frame, ↓proj_ite, ↓proj_iteP, ite_self]
    | (with_reducible refine (foldl_proj _ _ ?_ _).trans ?_; intro _ _)
    | (with_reducible refine (foldl_projP _ _ ?_ _).trans ?_; intro _ _)
    | ((with_reducible refine proj_mk_trans ?_ ?_); · ((fail_if_success with_reducible rfl); rfl))
    | split

theorem execResult_frame {m0 : Nat} (hm0 : m0 &&& 34603016 = 34603016) (s : State) : outProj m0 s (execResult s) := by
  refine outProj_mono hm0 ?_
  unfold execResult
  try dsimp -proj only
  repeat' first
    | (with_reducible refine outProj_next ?_)
    | (with_reducible refine ite_projR ?_ ?_)
    | (with_reducible refine onRx_frame (by decide) _ _ _ ?_)
    | simp +decide only [↓poisonOutputs_frame, ↓modReam_frame, ↓proj_ite, ↓proj_iteP, ite_self]
    | ((with_reducible refine proj_mk_trans ?_ ?_); · ((fail_if_success with_reducible rfl); rfl))
    | (with_reducible intro _)
    | split

theorem execRefuseWork_frame {m0 : Nat} (hm0 : m0 &&& 3015542076 = 3015542076) (s : State) :
    outProj m0 s (execRefuseWork s) := by
  refine outProj_mono hm0 ?_
  unfold execRefuseWork
  try dsimp -proj only
  repeat' first
    | (with_reducible refine outProj_next ?_)
    | (with_reducible refine ite_projR ?_ ?_)
    | (with_reducible refine onRx_frame (by decide) _ _ _ ?_)
    | simp +decide only [↓grpCount_frame, ↓replaceShare_frame, ↓proj_ite, ↓proj_iteP, ite_self]
    | ((with_reducible refine proj_mk_trans ?_ ?_); · ((fail_if_success with_reducible rfl); rfl))
    | (with_reducible intro _)
    | split

theorem storeEntry_frame {m0 : Nat} (hm0 : m0 &&& 3020079136 = 3020079136) (e : JEntry) (s : State) :
    proj m0 (storeEntry e s) = proj m0 s := by
  refine proj_mono hm0 ?_
  unfold storeEntry
  try dsimp -proj only
  repeat' first
    | simp +decide only [↓writeDpa_frame, ↓proj_ite, ↓proj_iteP, ite_self]
    | ((with_reducible refine proj_mk_trans ?_ ?_); · ((fail_if_success with_reducible rfl); rfl))
    | split

theorem execJournal_frame {m0 : Nat} (hm0 : m0 &&& 3053633568 = 3053633568) (s : State) : outProj m0 s (execJournal s) := by
  refine outProj_mono hm0 ?_
  unfold execJournal
  try dsimp -proj only
  repeat' first
    | (with_reducible refine outProj_next ?_)
    | (with_reducible refine onRx_frame (by decide) _ _ _ ?_)
    | simp +decide only [↓storeEntry_frame, ↓modGrp_frame, ↓proj_ite, ↓proj_iteP, ite_self]
    | ((with_reducible refine proj_mk_trans ?_ ?_); · ((fail_if_success with_reducible rfl); rfl))
    | (with_reducible intro _)
    | split

theorem execRelease_frame {m0 : Nat} (hm0 : m0 &&& 33554432 = 33554432) (s : State) : outProj m0 s (execRelease s) := by
  refine outProj_mono hm0 ?_
  unfold execRelease
  try dsimp -proj only
  repeat' first
    | (with_reducible refine outProj_next ?_)
    | (with_reducible refine onRx_frame (by decide) _ _ _ ?_)
    | simp +decide only [↓modGrp_frame, ↓proj_ite, ↓proj_iteP, ite_self]
    | (with_reducible refine (foldl_proj _ _ ?_ _).trans ?_; intro _ _)
    | (with_reducible refine (foldl_projP _ _ ?_ _).trans ?_; intro _ _)
    | ((with_reducible refine proj_mk_trans ?_ ?_); · ((fail_if_success with_reducible rfl); rfl))
    | (with_reducible intro _)
    | split

theorem execMembers_frame {m0 : Nat} (hm0 : m0 &&& 33554432 = 33554432) (s : State) : outProj m0 s (execMembers s) := by
  refine outProj_mono hm0 ?_
  unfold execMembers
  try dsimp -proj only
  repeat' first
    | (with_reducible refine outProj_next ?_)
    | (with_reducible refine ite_projR ?_ ?_)
    | (with_reducible refine onRx_frame (by decide) _ _ _ ?_)
    | simp +decide only [↓modGrp_frame, ↓proj_ite, ↓proj_iteP, ite_self]
    | (with_reducible refine (foldl_proj _ _ ?_ _).trans ?_; intro _ _)
    | (with_reducible refine (foldl_projP _ _ ?_ _).trans ?_; intro _ _)
    | ((with_reducible refine proj_mk_trans ?_ ?_); · ((fail_if_success with_reducible rfl); rfl))
    | (with_reducible intro _)
    | split

theorem execLeave_frame {m0 : Nat} (hm0 : m0 &&& 3015542076 = 3015542076) (s : State) : outProj m0 s (execLeave s) := by
  refine outProj_mono hm0 ?_
  unfold execLeave
  try dsimp -proj only
  repeat' first
    | (with_reducible refine outProj_next ?_)
    | (with_reducible refine ite_projR ?_ ?_)
    | (with_reducible refine onRx_frame (by decide) _ _ _ ?_)
    | simp +decide only [↓loseWorker_frame, ↓dropWorker_frame, ↓proj_ite, ↓proj_iteP, ite_self]
    | ((with_reducible refine proj_mk_trans ?_ ?_); · ((fail_if_success with_reducible rfl); rfl))
    | (with_reducible intro _)
    | split

theorem execPromote_frame {m0 : Nat} (hm0 : m0 &&& 3015542070 = 3015542070) (s : State) : outProj m0 s (execPromote s) := by
  refine outProj_mono hm0 ?_
  unfold execPromote
  try dsimp -proj only
  repeat' first
    | (with_reducible refine outProj_next ?_)
    | (with_reducible refine ite_projR ?_ ?_)
    | (with_reducible refine onRx_frame (by decide) _ _ _ ?_)
    | simp +decide only [↓promoteSelf_frame, ↓endOfShares_frame, ↓adoptEpoch_frame, ↓proj_ite, ↓proj_iteP, ite_self]
    | ((with_reducible refine proj_mk_trans ?_ ?_); · ((fail_if_success with_reducible rfl); rfl))
    | (with_reducible intro _)
    | split

theorem execProbe_frame {m0 : Nat} (hm0 : m0 &&& 33554432 = 33554432) (s : State) : outProj m0 s (execProbe s) := by
  refine outProj_mono hm0 ?_
  unfold execProbe
  try dsimp -proj only
  repeat' first
    | (with_reducible refine outProj_next ?_)
    | (with_reducible refine onRx_frame (by decide) _ _ _ ?_)
    | simp +decide only [↓proj_ite, ↓proj_iteP, ite_self]
    | ((with_reducible refine proj_mk_trans ?_ ?_); · ((fail_if_success with_reducible rfl); rfl))
    | (with_reducible intro _)
    | split

theorem loseManager_frame {m0 : Nat} (hm0 : m0 &&& 3015542070 = 3015542070) (p : Peer) (s : State) :
    proj m0 (loseManager p s) = proj m0 s := by
  refine proj_mono hm0 ?_
  unfold loseManager
  try dsimp -proj only
  repeat' first
    | simp +decide only [↓modGrp_frame, ↓report_frame, ↓endOfShares_frame, ↓setPeer_frame, ↓forgetGroup_frame, ↓dropShares_frame, ↓proj_ite, ↓proj_iteP, ite_self]
    | ((with_reducible refine proj_mk_trans ?_ ?_); · ((fail_if_success with_reducible rfl); rfl))
    | split

theorem execPeerLost_frame {m0 : Nat} (hm0 : m0 &&& 3015542078 = 3015542078) (peer : PeerId) (s : State) :
    outProj m0 s (execPeerLost peer s) := by
  refine outProj_mono hm0 ?_
  unfold execPeerLost
  try dsimp -proj only
  repeat' first
    | (with_reducible refine outProj_next ?_)
    | (with_reducible refine ite_projR ?_ ?_)
    | simp +decide only [↓loseWorker_frame, ↓loseManager_frame, ↓proj_ite, ↓proj_iteP, ite_self]
    | ((with_reducible refine proj_mk_trans ?_ ?_); · ((fail_if_success with_reducible rfl); rfl))
    | split

theorem execProbeSend_frame {m0 : Nat} (hm0 : m0 &&& 572522496 = 572522496) (s : State) :
    outProj m0 s (execProbeSend s) := by
  refine outProj_mono hm0 ?_
  unfold execProbeSend
  try dsimp -proj only
  repeat' first
    | (with_reducible refine outProj_next ?_)
    | (with_reducible refine ite_projR ?_ ?_)
    | simp +decide only [↓modGrp_frame, ↓sendFrame_frame, ↓proj_ite, ↓proj_iteP, ite_self]
    | (with_reducible refine (foldl_proj _ _ ?_ _).trans ?_; intro _ _)
    | (with_reducible refine (foldl_projP _ _ ?_ _).trans ?_; intro _ _)
    | ((with_reducible refine proj_mk_trans ?_ ?_); · ((fail_if_success with_reducible rfl); rfl))
    | split

theorem execSelfPromote_frame {m0 : Nat} (hm0 : m0 &&& 3015542070 = 3015542070) (s : State) :
    outProj m0 s (execSelfPromote s) := by
  refine outProj_mono hm0 ?_
  unfold execSelfPromote
  try dsimp -proj only
  repeat' first
    | (with_reducible refine outProj_next ?_)
    | (with_reducible refine ite_projR ?_ ?_)
    | simp +decide only [↓promoteSelf_frame, ↓proj_ite, ↓proj_iteP, ite_self]
    | ((with_reducible refine proj_mk_trans ?_ ?_); · ((fail_if_success with_reducible rfl); rfl))
    | split

theorem standAlone_frame {m0 : Nat} (hm0 : m0 &&& 33554434 = 33554434) (s : State) :
    proj m0 (standAlone s) = proj m0 s := by
  refine proj_mono hm0 ?_
  unfold standAlone
  try dsimp -proj only
  repeat' first
    | simp +decide only [↓setSource_frame, ↓modGrp_frame, ↓forgetGroup_frame, ↓proj_ite, ↓proj_iteP, ite_self]
    | ((with_reducible refine proj_mk_trans ?_ ?_); · ((fail_if_success with_reducible rfl); rfl))
    | split

theorem execAck_frame {m0 : Nat} (hm0 : m0 &&& 33554434 = 33554434) (s : State) : outProj m0 s (execAck s) := by
  refine outProj_mono hm0 ?_
  unfold execAck
  try dsimp -proj only
  repeat' first
    | (with_reducible refine outProj_next ?_)
    | (with_reducible refine ite_projR ?_ ?_)
    | (with_reducible refine onRx_frame (by decide) _ _ _ ?_)
    | simp +decide only [↓standAlone_frame, ↓proj_ite, ↓proj_iteP, ite_self]
    | ((with_reducible refine proj_mk_trans ?_ ?_); · ((fail_if_success with_reducible rfl); rfl))
    | (with_reducible intro _)
    | split

theorem execLeaveTimeout_frame {m0 : Nat} (hm0 : m0 &&& 33554434 = 33554434) (s : State) :
    outProj m0 s (execLeaveTimeout s) := by
  refine outProj_mono hm0 ?_
  unfold execLeaveTimeout
  try dsimp -proj only
  repeat' first
    | (with_reducible refine outProj_next ?_)
    | (with_reducible refine ite_projR ?_ ?_)
    | simp +decide only [↓standAlone_frame, ↓proj_ite, ↓proj_iteP, ite_self]
    | ((with_reducible refine proj_mk_trans ?_ ?_); · ((fail_if_success with_reducible rfl); rfl))
    | split

theorem execTrackerEmptyJoin_frame {m0 : Nat} (hm0 : m0 &&& 33554432 = 33554432) (s : State) :
    outProj m0 s (execTrackerEmptyJoin s) := by
  refine outProj_mono hm0 ?_
  unfold execTrackerEmptyJoin
  try dsimp -proj only
  repeat' first
    | (with_reducible refine outProj_next ?_)
    | (with_reducible refine ite_projR ?_ ?_)
    | simp +decide only [↓modGrp_frame, ↓forgetGroup_frame, ↓proj_ite, ↓proj_iteP, ite_self]
    | ((with_reducible refine proj_mk_trans ?_ ?_); · ((fail_if_success with_reducible rfl); rfl))
    | split

theorem groupCtl_frame {m0 : Nat} (hm0 : m0 &&& 268697600 = 268697600) (action : Nat) (role : Nat) (f : Desc → State → State) (s : State) (hf : ∀ x s, proj m0 (f x s) = proj m0 s) :
    outProj m0 s (groupCtl action role f s) := by
  intro u e
  unfold groupCtl at e
  split at e
  · cases e; rfl
  · rename_i d w hd
    have hw : proj m0 w = proj m0 s := proj_mono hm0 (some_eq hd (takeDesc_frame (by decide) _ _))
    cases e
    split
    · exact (proj_mono hm0 (complete_frame (by decide) _ _ _ _)).trans hw
    · exact (hf _ _).trans hw

theorem execGroupList_frame {m0 : Nat} (hm0 : m0 &&& 268697600 = 268697600) (s : State) :
    outProj m0 s (execGroupList s) := by
  refine outProj_mono hm0 ?_
  unfold execGroupList
  try dsimp -proj only
  repeat' first
    | (with_reducible refine outProj_next ?_)
    | (with_reducible refine groupCtl_frame (by decide) _ _ _ _ ?_)
    | simp +decide only [↓complete_frame, ↓descWrite_frame, ↓proj_ite, ↓proj_iteP, ite_self]
    | ((with_reducible refine proj_mk_trans ?_ ?_); · ((fail_if_success with_reducible rfl); rfl))
    | (with_reducible intro _)
    | split

theorem execGroupEvict_frame {m0 : Nat} (hm0 : m0 &&& 3015542076 = 3015542076) (s : State) :
    outProj m0 s (execGroupEvict s) := by
  refine outProj_mono hm0 ?_
  unfold execGroupEvict
  try dsimp -proj only
  repeat' first
    | (with_reducible refine outProj_next ?_)
    | (with_reducible refine ite_projR ?_ ?_)
    | (with_reducible refine groupCtl_frame (by decide) _ _ _ _ ?_)
    | simp +decide only [↓completeBare_frame, ↓loseWorker_frame, ↓proj_ite, ↓proj_iteP, ite_self]
    | ((with_reducible refine proj_mk_trans ?_ ?_); · ((fail_if_success with_reducible rfl); rfl))
    | (with_reducible intro _)
    | split

theorem execGroupSetHolders_frame {m0 : Nat} (hm0 : m0 &&& 2988703744 = 2988703744) (s : State) :
    outProj m0 s (execGroupSetHolders s) := by
  refine outProj_mono hm0 ?_
  unfold execGroupSetHolders
  try dsimp -proj only
  repeat' first
    | (with_reducible refine outProj_next ?_)
    | (with_reducible refine ite_projR ?_ ?_)
    | (with_reducible refine groupCtl_frame (by decide) _ _ _ _ ?_)
    | simp +decide only [↓completeBare_frame, ↓refreshHolders_frame, ↓modGrp_frame, ↓proj_ite, ↓proj_iteP, ite_self]
    | ((with_reducible refine proj_mk_trans ?_ ?_); · ((fail_if_success with_reducible rfl); rfl))
    | (with_reducible intro _)
    | split

theorem handoverTo_frame {m0 : Nat} (hm0 : m0 &&& 572522496 = 572522496) (i : Nat) (s : State) :
    proj m0 (handoverTo i s) = proj m0 s := by
  refine proj_mono hm0 ?_
  unfold handoverTo
  try dsimp -proj only
  repeat' first
    | simp +decide only [↓toPeer_frame, ↓proj_ite, ↓proj_iteP, ite_self]
    | (with_reducible refine (foldl_proj _ _ ?_ _).trans ?_; intro _ _)
    | (with_reducible refine (foldl_projP _ _ ?_ _).trans ?_; intro _ _)
    | ((with_reducible refine proj_mk_trans ?_ ?_); · ((fail_if_success with_reducible rfl); rfl))
    | split

theorem execGroupHandover_frame {m0 : Nat} (hm0 : m0 &&& 2988703744 = 2988703744) (s : State) :
    outProj m0 s (execGroupHandover s) := by
  refine outProj_mono hm0 ?_
  unfold execGroupHandover
  try dsimp -proj only
  repeat' first
    | (with_reducible refine outProj_next ?_)
    | (with_reducible refine ite_projR ?_ ?_)
    | (with_reducible refine groupCtl_frame (by decide) _ _ _ _ ?_)
    | simp +decide only [↓completeBare_frame, ↓handoverTo_frame, ↓proj_ite, ↓proj_iteP, ite_self]
    | ((with_reducible refine proj_mk_trans ?_ ?_); · ((fail_if_success with_reducible rfl); rfl))
    | (with_reducible intro _)
    | split

theorem beginLeave_frame {m0 : Nat} (hm0 : m0 &&& 3015542070 = 3015542070) (s : State) :
    proj m0 (beginLeave s) = proj m0 s := by
  refine proj_mono hm0 ?_
  unfold beginLeave
  try dsimp -proj only
  repeat' first
    | simp +decide only [↓endOfShares_frame, ↓modGrp_frame, ↓proj_ite, ↓proj_iteP, ite_self]
    | ((with_reducible refine proj_mk_trans ?_ ?_); · ((fail_if_success with_reducible rfl); rfl))
    | split

theorem execGroupLeave_frame {m0 : Nat} (hm0 : m0 &&& 3015542070 = 3015542070) (s : State) :
    outProj m0 s (execGroupLeave s) := by
  refine outProj_mono hm0 ?_
  unfold execGroupLeave
  try dsimp -proj only
  repeat' first
    | (with_reducible refine outProj_next ?_)
    | (with_reducible refine groupCtl_frame (by decide) _ _ _ _ ?_)
    | simp +decide only [↓completeBare_frame, ↓beginLeave_frame, ↓proj_ite, ↓proj_iteP, ite_self]
    | ((with_reducible refine proj_mk_trans ?_ ?_); · ((fail_if_success with_reducible rfl); rfl))
    | (with_reducible intro _)
    | split

theorem modPtp_frame {m0 : Nat} (hm0 : m0 &&& 2 = 2) (f : PtpClock → PtpClock) (s : State) :
    proj m0 (modPtp f s) = proj m0 s := by
  refine proj_mono hm0 ?_
  unfold modPtp
  try dsimp -proj only
  repeat' first
    | simp +decide only [↓modTime_frame, ↓proj_ite, ↓proj_iteP, ite_self]
    | ((with_reducible refine proj_mk_trans ?_ ?_); · ((fail_if_success with_reducible rfl); rfl))
    | split

theorem sendDelayReq_frame {m0 : Nat} (hm0 : m0 &&& 538968066 = 538968066) (g : Nat) (sync : Bytes) (p : Parsed) (s : State) :
    proj m0 (sendDelayReq g sync p s) = proj m0 s := by
  refine proj_mono hm0 ?_
  unfold sendDelayReq
  try dsimp -proj only
  repeat' first
    | simp +decide only [↓putFrame_frame, ↓enqueue_frame, ↓freeUnheld_frame, ↓modPtp_frame, ↓proj_ite, ↓proj_iteP, ite_self]
    | ((with_reducible refine proj_mk_trans ?_ ?_); · ((fail_if_success with_reducible rfl); rfl))
    | split

theorem syncDone_frame {m0 : Nat} (hm0 : m0 &&& 2147483650 = 2147483650) (t1 : Int) (rx : Nat) (s : State) :
    proj m0 (syncDone t1 rx s) = proj m0 s := by
  refine proj_mono hm0 ?_
  unfold syncDone
  try dsimp -proj only
  repeat' first
    | simp +decide only [↓modPtp_frame, ↓measured_frame, ↓proj_ite, ↓proj_iteP, ite_self]
    | ((with_reducible refine proj_mk_trans ?_ ?_); · ((fail_if_success with_reducible rfl); rfl))
    | split

theorem ptpActs_frame {m0 : Nat} (hm0 : m0 &&& 2686451714 = 2686451714) (g : Nat) (rx : Nat) (bs : Bytes) (p : Parsed) (m : PtpMsg) (s : State) :
    proj m0 (ptpActs g rx bs p m s) = proj m0 s := by
  refine proj_mono hm0 ?_
  unfold ptpActs
  try dsimp -proj only
  repeat' first
    | simp +decide only [↓modTime_frame, ↓modPtp_frame, ↓syncDone_frame, ↓sendDelayReq_frame, ↓proj_ite, ↓proj_iteP, ite_self]
    | ((with_reducible refine proj_mk_trans ?_ ?_); · ((fail_if_success with_reducible rfl); rfl))
    | (with_reducible intro _)
    | split

theorem ptpReceive_frame {m0 : Nat} (hm0 : m0 &&& 2686451714 = 2686451714) (g : Nat) (rx : Nat) (bs : Bytes) (p : Parsed) (s : State) :
    proj m0 (ptpReceive g rx bs p s) = proj m0 s := by
  refine proj_mono hm0 ?_
  unfold ptpReceive
  try dsimp -proj only
  repeat' first
    | simp +decide only [↓ptpActs_frame, ↓proj_ite, ↓proj_iteP, ite_self]
    | ((with_reducible refine proj_mk_trans ?_ ?_); · ((fail_if_success with_reducible rfl); rfl))
    | split

theorem ptpSent_frame {m0 : Nat} (hm0 : m0 &&& 2 = 2) (bs : Bytes) (s : State) : proj m0 (ptpSent bs s) = proj m0 s := by
  refine proj_mono hm0 ?_
  unfold ptpSent
  try dsimp -proj only
  repeat' first
    | simp +decide only [↓modPtp_frame, ↓proj_ite, ↓proj_iteP, ite_self]
    | ((with_reducible refine proj_mk_trans ?_ ?_); · ((fail_if_success with_reducible rfl); rfl))
    | split

theorem setShaper_frame {m0 : Nat} (hm0 : m0 &&& 2097152 = 2097152) (k : Nat) (h : Shaper) (s : State) :
    proj m0 (setShaper k h s) = proj m0 s := by
  refine proj_mono hm0 ?_
  unfold setShaper
  try dsimp -proj only
  repeat' first
    | simp +decide only [↓proj_ite, ↓proj_iteP, ite_self]
    | ((with_reducible refine proj_mk_trans ?_ ?_); · ((fail_if_success with_reducible rfl); rfl))
    | split

theorem runShaper_frame {m0 : Nat} (hm0 : m0 &&& 2097152 = 2097152) (k : Nat) (s : State) :
    proj m0 (runShaper k s) = proj m0 s := by
  refine proj_mono hm0 ?_
  unfold runShaper
  try dsimp -proj only
  repeat' first
    | simp +decide only [↓setShaper_frame, ↓proj_ite, ↓proj_iteP, ite_self]
    | ((with_reducible refine proj_mk_trans ?_ ?_); · ((fail_if_success with_reducible rfl); rfl))
    | split

theorem chargeShaper_frame {m0 : Nat} (hm0 : m0 &&& 2097152 = 2097152) (k : Nat) (len : Nat) (s : State) :
    proj m0 (chargeShaper k len s) = proj m0 s := by
  refine proj_mono hm0 ?_
  unfold chargeShaper
  try dsimp -proj only
  repeat' first
    | simp +decide only [↓runShaper_frame, ↓setShaper_frame, ↓proj_ite, ↓proj_iteP, ite_self]
    | ((with_reducible refine proj_mk_trans ?_ ?_); · ((fail_if_success with_reducible rfl); rfl))
    | split

theorem execShaperWheelSlot_frame {m0 : Nat} (hm0 : m0 &&& 2097152 = 2097152) (d : NDie) (s : State) :
    outProj m0 s (execShaperWheelSlot d s) := by
  refine outProj_mono hm0 ?_
  unfold execShaperWheelSlot
  try dsimp -proj only
  repeat' first
    | (with_reducible refine outProj_next ?_)
    | (with_reducible refine ite_projR ?_ ?_)
    | simp +decide only [↓runShaper_frame, ↓proj_ite, ↓proj_iteP, ite_self]
    | (with_reducible refine (foldl_proj _ _ ?_ _).trans ?_; intro _ _)
    | (with_reducible refine (foldl_projP _ _ ?_ _).trans ?_; intro _ _)
    | ((with_reducible refine proj_mk_trans ?_ ?_); · ((fail_if_success with_reducible rfl); rfl))
    | split

theorem writeShaper_frame {m0 : Nat} (hm0 : m0 &&& 270532608 = 270532608) (d : NDie) (n : Nat) (v : Nat) (s : State) :
    proj m0 (writeShaper d n v s) = proj m0 s := by
  refine proj_mono hm0 ?_
  unfold writeShaper
  try dsimp -proj only
  repeat' first
    | simp +decide only [↓setShaper_frame, ↓setRegQ_frame, ↓proj_ite, ↓proj_iteP, ite_self]
    | ((with_reducible refine proj_mk_trans ?_ ?_); · ((fail_if_success with_reducible rfl); rfl))
    | split

theorem execShaperConfig_frame {m0 : Nat} (hm0 : m0 &&& 807665664 = 807665664) (p : HPort) (d : NDie) (value : W64) (s : State) :
    outProj m0 s (execShaperConfig p d value s) := by
  refine outProj_mono hm0 ?_
  unfold execShaperConfig
  try dsimp -proj only
  repeat' first
    | (with_reducible refine outProj_next ?_)
    | (with_reducible refine ite_projR ?_ ?_)
    | simp +decide only [↓discardRws_frame, ↓writeShaper_frame, ↓proj_ite, ↓proj_iteP, ite_self]
    | ((with_reducible refine proj_mk_trans ?_ ?_); · ((fail_if_success with_reducible rfl); rfl))
    | split

theorem execGateApply_frame {m0 : Nat} (hm0 : m0 &&& 807665664 = 807665664) (p : HPort) (port : LaneId) (s : State) :
    outProj m0 s (execGateApply p port s) := by
  refine outProj_mono hm0 ?_
  unfold execGateApply
  try dsimp -proj only
  repeat' first
    | (with_reducible refine outProj_next ?_)
    | (with_reducible refine ite_projR ?_ ?_)
    | simp +decide only [↓discardRws_frame, ↓setEPort_frame, ↓proj_ite, ↓proj_iteP, ite_self]
    | ((with_reducible refine proj_mk_trans ?_ ?_); · ((fail_if_success with_reducible rfl); rfl))
    | split

theorem execGateListChange_frame {m0 : Nat} (hm0 : m0 &&& 2097152 = 2097152) (port : LaneId) (s : State) :
    outProj m0 s (execGateListChange port s) := by
  refine outProj_mono hm0 ?_
  unfold execGateListChange
  try dsimp -proj only
  repeat' first
    | (with_reducible refine outProj_next ?_)
    | (with_reducible refine ite_projR ?_ ?_)
    | simp +decide only [↓setEPort_frame, ↓proj_ite, ↓proj_iteP, ite_self]
    | ((with_reducible refine proj_mk_trans ?_ ?_); · ((fail_if_success with_reducible rfl); rfl))
    | split

theorem dropOversize_frame {m0 : Nat} (hm0 : m0 &&& 598737920 = 598737920) (g : Nat) (q : Nat) (a2 : List QItem) (a3 : State) :
    proj m0 (dropOversize g q a2 a3) = proj m0 a3 := by
  refine proj_mono hm0 ?_
  fun_induction dropOversize g q a2 a3
  try dsimp -proj only
  repeat' first
    | simp +decide only [↓incCnt_frame, ↓dropFrame_frame, ↓setQueue_frame, ↓freeEntry_frame, ↓proj_ite, ↓proj_iteP, ite_self]
    | ((with_reducible refine proj_mk_trans ?_ ?_); · ((fail_if_success with_reducible rfl); rfl))
    | (with_reducible refine Eq.trans (by assumption) ?_)
    | (with_reducible refine (snd_eq (by assumption) (by assumption)).trans ?_)
    | (with_reducible refine (trip_eq (by assumption) (by assumption)).trans ?_)
    | (with_reducible intro _)
    | (dsimp -proj +zetaDelta only)
    | split

theorem headReady_frame {m0 : Nat} (hm0 : m0 &&& 538968064 = 538968064) (g : Nat) (q : Nat) (s : State) :
    proj m0 (headReady g q s).2 = proj m0 s := by
  refine proj_mono hm0 ?_
  unfold headReady
  try dsimp -proj only
  repeat' first
    | simp +decide only [↓incCnt_frame, ↓setQueue_frame, ↓proj_ite, ↓proj_iteP, ite_self]
    | ((with_reducible refine proj_mk_trans ?_ ?_); · ((fail_if_success with_reducible rfl); rfl))
    | split

theorem stampTx_frame {m0 : Nat} (hm0 : m0 &&& 2097152 = 2097152) (i : Nat) (s : State) :
    proj m0 (stampTx i s) = proj m0 s := by
  refine proj_mono hm0 ?_
  unfold stampTx
  try dsimp -proj only
  repeat' first
    | simp +decide only [↓proj_ite, ↓proj_iteP, ite_self]
    | ((with_reducible refine proj_mk_trans ?_ ?_); · ((fail_if_success with_reducible rfl); rfl))
    | split

theorem execEgressSelect_frame {m0 : Nat} (hm0 : m0 &&& 598737922 = 598737922) (port : LaneId) (s : State) :
    outProj m0 s (execEgressSelect port s) := by
  refine outProj_mono hm0 ?_
  unfold execEgressSelect
  try dsimp -proj only
  repeat' first
    | (with_reducible refine outProj_next ?_)
    | (with_reducible refine ite_projR ?_ ?_)
    | simp +decide only [↓dropOversize_frame, ↓headReady_frame, ↓chargeShaper_frame, ↓setEPort_frame, ↓ptpSent_frame, ↓stampTx_frame, ↓proj_ite, ↓proj_iteP, ite_self]
    | (with_reducible refine (foldl_proj _ _ ?_ _).trans ?_; intro _ _)
    | (with_reducible refine (foldl_projP _ _ ?_ _).trans ?_; intro _ _)
    | ((with_reducible refine proj_mk_trans ?_ ?_); · ((fail_if_success with_reducible rfl); rfl))
    | (with_reducible refine (snd_eq (by assumption) (headReady_frame (by decide) _ _ _)).trans ?_)
    | (with_reducible intro _)
    | split

theorem selSet_frame {m0 : Nat} (hm0 : m0 &&& 2621440 = 2621440) (f : Fifo) (s : State) (a2 : FifoSel) :
    proj m0 (selSet f s a2) = proj m0 s := by
  refine proj_mono hm0 ?_
  unfold selSet
  try dsimp -proj only
  repeat' first
    | simp +decide only [↓setPunt_frame, ↓proj_ite, ↓proj_iteP, ite_self]
    | ((with_reducible refine proj_mk_trans ?_ ?_); · ((fail_if_success with_reducible rfl); rfl))
    | split

theorem execFifoPop_frame {m0 : Nat} (hm0 : m0 &&& 271056896 = 271056896) (p : HPort) (d : NDie) (parityBad : Bool) (s : State) :
    outProj m0 s (execFifoPop p d parityBad s) := by
  refine outProj_mono hm0 ?_
  unfold execFifoPop
  try dsimp -proj only
  repeat' first
    | (with_reducible refine outProj_next ?_)
    | (with_reducible refine ite_projR ?_ ?_)
    | simp +decide only [↓setRegW_frame, ↓selSet_frame, ↓proj_ite, ↓proj_iteP, ite_self]
    | (with_reducible refine (foldl_proj _ _ ?_ _).trans ?_; intro _ _)
    | (with_reducible refine (foldl_projP _ _ ?_ _).trans ?_; intro _ _)
    | ((with_reducible refine proj_mk_trans ?_ ?_); · ((fail_if_success with_reducible rfl); rfl))
    | split

theorem execDropRest_frame {m0 : Nat} (hm0 : m0 &&& 2097152 = 2097152) (p : HPort) (d : NDie) (s : State) :
    outProj m0 s (execDropRest p d s) := by
  refine outProj_mono hm0 ?_
  unfold execDropRest
  try dsimp -proj only
  repeat' first
    | (with_reducible refine outProj_next ?_)
    | (with_reducible refine ite_projR ?_ ?_)
    | simp +decide only [↓setPunt_frame, ↓proj_ite, ↓proj_iteP, ite_self]
    | ((with_reducible refine proj_mk_trans ?_ ?_); · ((fail_if_success with_reducible rfl); rfl))
    | split

end Sys2Proof.Machine
end

