-- ==== Sys2Proof/Laws/FrameGroup.lean ====
section
/-! SUPPORT. What each operation of HostPort.lean, Faults.lean, Registers.lean leaves: one lemma each, by Frame.lean. -/

set_option maxRecDepth 8000
set_option linter.all false

namespace Sys2Proof.Machine

theorem execHostLinkUp_frame {m0 : Nat} (hm0 : m0 &&& 2751729920 = 2751729920) (p : HPort) (s : State) :
    outProj m0 s (execHostLinkUp p s) := by
  refine outProj_mono hm0 ?_
  unfold execHostLinkUp
  try dsimp -proj only
  repeat' first
    | (with_reducible refine outProj_next ?_)
    | (with_reducible refine ite_projR ?_ ?_)
    | simp +decide only [↓setDom_frame, ↓modPort_frame, ↓proj_ite, ↓proj_iteP, ite_self]
    | ((with_reducible refine proj_mk_trans ?_ ?_); · ((fail_if_success with_reducible rfl); rfl))
    | split

theorem dropFetched_frame {m0 : Nat} (hm0 : m0 &&& 262144 = 262144) (p : HPort) (i : Nat) (s : State) :
    proj m0 (dropFetched p i s) = proj m0 s := by
  refine proj_mono hm0 ?_
  unfold dropFetched
  try dsimp -proj only
  repeat' first
    | simp +decide only [↓setSq_frame, ↓setCq_frame, ↓proj_ite, ↓proj_iteP, ite_self]
    | ((with_reducible refine proj_mk_trans ?_ ?_); · ((fail_if_success with_reducible rfl); rfl))
    | split

theorem resetPort_frame {m0 : Nat} (hm0 : m0 &&& 11610108160 = 11610108160) (p : HPort) (kind : PortReset) (s : State) :
    proj m0 (resetPort p kind s) = proj m0 s := by
  refine proj_mono hm0 ?_
  unfold resetPort
  try dsimp -proj only
  repeat' first
    | simp +decide only [↓setRegF_frame, ↓dropFetched_frame, ↓setPort_frame, ↓setDom_frame, ↓proj_ite, ↓proj_iteP, ite_self]
    | (with_reducible refine (foldl_proj _ _ ?_ _).trans ?_; intro _ _)
    | (with_reducible refine (foldl_projP _ _ ?_ _).trans ?_; intro _ _)
    | ((with_reducible refine proj_mk_trans ?_ ?_); · simp +decide only [proj, ↓reduceIte])
    | split

theorem execHostPortReset_frame {m0 : Nat} (hm0 : m0 &&& 11610108160 = 11610108160) (p : HPort) (kind : PortReset) (s : State) :
    outProj m0 s (execHostPortReset p kind s) := by
  refine outProj_mono hm0 ?_
  unfold execHostPortReset
  try dsimp -proj only
  repeat' first
    | (with_reducible refine outProj_next ?_)
    | simp +decide only [↓resetPort_frame, ↓proj_ite, ↓proj_iteP, ite_self]
    | ((with_reducible refine proj_mk_trans ?_ ?_); · ((fail_if_success with_reducible rfl); rfl))
    | split

theorem endLease_frame {m0 : Nat} (hm0 : m0 &&& 8858632192 = 8858632192) (s : State) :
    proj m0 (endLease s) = proj m0 s := by
  refine proj_mono hm0 ?_
  unfold endLease
  try dsimp -proj only
  repeat' first
    | simp +decide only [↓hifEvent_frame, ↓proj_ite, ↓proj_iteP, ite_self]
    | ((with_reducible refine proj_mk_trans ?_ ?_); · ((fail_if_success with_reducible rfl); rfl))
    | split

theorem execSemLeaseExpire_frame {m0 : Nat} (hm0 : m0 &&& 8858632192 = 8858632192) (s : State) :
    outProj m0 s (execSemLeaseExpire s) := by
  refine outProj_mono hm0 ?_
  unfold execSemLeaseExpire
  try dsimp -proj only
  repeat' first
    | (with_reducible refine outProj_next ?_)
    | simp +decide only [↓endLease_frame, ↓proj_ite, ↓proj_iteP, ite_self]
    | ((with_reducible refine proj_mk_trans ?_ ?_); · ((fail_if_success with_reducible rfl); rfl))
    | split

theorem semApply_frame {m0 : Nat} (hm0 : m0 &&& 9395503104 = 9395503104) (p : HPort) (rel : Bool) (token : W16) (s : State) :
    proj m0 (semApply p rel token s) = proj m0 s := by
  refine proj_mono hm0 ?_
  unfold semApply
  try dsimp -proj only
  repeat' first
    | simp +decide only [↓endLease_frame, ↓discardRws_frame, ↓proj_ite, ↓proj_iteP, ite_self]
    | ((with_reducible refine proj_mk_trans ?_ ?_); · ((fail_if_success with_reducible rfl); rfl))
    | split

theorem semWrite_frame {m0 : Nat} (hm0 : m0 &&& 9395503104 = 9395503104) (p : HPort) (rel : Bool) (token : W16) (s : State) :
    outProj m0 s (semWrite p rel token s) := by
  refine outProj_mono hm0 ?_
  unfold semWrite
  try dsimp -proj only
  repeat' first
    | (with_reducible refine outProj_next ?_)
    | (with_reducible refine ite_projR ?_ ?_)
    | simp +decide only [↓semApply_frame, ↓proj_ite, ↓proj_iteP, ite_self]
    | ((with_reducible refine proj_mk_trans ?_ ?_); · ((fail_if_success with_reducible rfl); rfl))
    | split

theorem execSemReq_frame {m0 : Nat} (hm0 : m0 &&& 9395503104 = 9395503104) (p : HPort) (token : W16) (s : State) :
    outProj m0 s (execSemReq p token s) := by
  refine outProj_mono hm0 ?_
  unfold execSemReq
  try dsimp -proj only
  repeat' first
    | (with_reducible refine outProj_next ?_)
    | (with_reducible exact semWrite_frame (by decide) _ _ _ _)
    | simp +decide only [↓proj_ite, ↓proj_iteP, ite_self]
    | ((with_reducible refine proj_mk_trans ?_ ?_); · ((fail_if_success with_reducible rfl); rfl))
    | split

theorem execSemRel_frame {m0 : Nat} (hm0 : m0 &&& 9395503104 = 9395503104) (p : HPort) (token : W16) (s : State) :
    outProj m0 s (execSemRel p token s) := by
  refine outProj_mono hm0 ?_
  unfold execSemRel
  try dsimp -proj only
  repeat' first
    | (with_reducible refine outProj_next ?_)
    | (with_reducible exact semWrite_frame (by decide) _ _ _ _)
    | simp +decide only [↓proj_ite, ↓proj_iteP, ite_self]
    | ((with_reducible refine proj_mk_trans ?_ ?_); · ((fail_if_success with_reducible rfl); rfl))
    | split

theorem makeRoom_frame {m0 : Nat} (hm0 : m0 &&& 3019948064 = 3019948064) (p : HPort) (s : State) :
    proj m0 (makeRoom p s) = proj m0 s := by
  refine proj_mono hm0 ?_
  unfold makeRoom
  try dsimp -proj only
  repeat' first
    | simp +decide only [↓recallLine_frame, ↓proj_ite, ↓proj_iteP, ite_self]
    | ((with_reducible refine proj_mk_trans ?_ ?_); · ((fail_if_success with_reducible rfl); rfl))
    | split

theorem noteLine_frame {m0 : Nat} (hm0 : m0 &&& 3019948064 = 3019948064) (p : HPort) (l : Nat) (s : State) :
    proj m0 (noteLine p l s) = proj m0 s := by
  refine proj_mono hm0 ?_
  unfold noteLine
  try dsimp -proj only
  repeat' first
    | simp +decide only [↓makeRoom_frame, ↓proj_ite, ↓proj_iteP, ite_self]
    | ((with_reducible refine proj_mk_trans ?_ ?_); · ((fail_if_success with_reducible rfl); rfl))
    | split

theorem execHdmRead_frame {m0 : Nat} (hm0 : m0 &&& 3020079136 = 3020079136) (p : HPort) (addr : W64) (err : Option LineErr) (s : State) :
    outProj m0 s (execHdmRead p addr err s) := by
  refine outProj_mono hm0 ?_
  unfold execHdmRead
  try dsimp -proj only
  repeat' first
    | (with_reducible refine outProj_next ?_)
    | (with_reducible refine ite_projR ?_ ?_)
    | simp +decide only [↓noteLine_frame, ↓fetchLine_frame, ↓putErrs_frame, ↓proj_ite, ↓proj_iteP, ite_self]
    | ((with_reducible refine proj_mk_trans ?_ ?_); · ((fail_if_success with_reducible rfl); rfl))
    | (with_reducible refine (snd_eq (by assumption) (fetchLine_frame (by decide) _ _)).trans ?_)
    | split

theorem execHdmWrite_frame {m0 : Nat} (hm0 : m0 &&& 3019948064 = 3019948064) (p : HPort) (addr : W64) (data : BitVec 512) (s : State) :
    outProj m0 s (execHdmWrite p addr data s) := by
  refine outProj_mono hm0 ?_
  unfold execHdmWrite
  try dsimp -proj only
  repeat' first
    | (with_reducible refine outProj_next ?_)
    | (with_reducible refine ite_projR ?_ ?_)
    | simp +decide only [↓hostLine_frame, ↓proj_ite, ↓proj_iteP, ite_self]
    | ((with_reducible refine proj_mk_trans ?_ ?_); · ((fail_if_success with_reducible rfl); rfl))
    | split

theorem execBackInvalidate_frame {m0 : Nat} (hm0 : m0 &&& 3019948064 = 3019948064) (p : HPort) (line : Nat) (dirty : Option (BitVec 512)) (s : State) :
    outProj m0 s (execBackInvalidate p line dirty s) := by
  refine outProj_mono hm0 ?_
  unfold execBackInvalidate
  try dsimp -proj only
  repeat' first
    | (with_reducible refine outProj_next ?_)
    | (with_reducible refine ite_projR ?_ ?_)
    | simp +decide only [↓forgetLine_frame, ↓hostLine_frame, ↓proj_ite, ↓proj_iteP, ite_self]
    | ((with_reducible refine proj_mk_trans ?_ ?_); · ((fail_if_success with_reducible rfl); rfl))
    | split

theorem execHdmCommit_frame {m0 : Nat} (hm0 : m0 &&& 262144 = 262144) (p : HPort) (base : W64) (size : W64) (s : State) :
    outProj m0 s (execHdmCommit p base size s) := by
  refine outProj_mono hm0 ?_
  unfold execHdmCommit
  try dsimp -proj only
  repeat' first
    | (with_reducible refine outProj_next ?_)
    | (with_reducible refine ite_projR ?_ ?_)
    | simp +decide only [↓modPort_frame, ↓proj_ite, ↓proj_iteP, ite_self]
    | ((with_reducible refine proj_mk_trans ?_ ?_); · ((fail_if_success with_reducible rfl); rfl))
    | split

theorem modCanopy_frame {m0 : Nat} (hm0 : m0 &&& 32 = 32) (f : Canopy → Canopy) (s : State) :
    proj m0 (modCanopy f s) = proj m0 s := by
  refine proj_mono hm0 ?_
  unfold modCanopy
  try dsimp -proj only
  repeat' first
    | simp +decide only [↓proj_ite, ↓proj_iteP, ite_self]
    | ((with_reducible refine proj_mk_trans ?_ ?_); · ((fail_if_success with_reducible rfl); rfl))
    | split

theorem rootRecord_frame {m0 : Nat} (hm0 : m0 &&& 3758102816 = 3758102816) (code : Nat) (suspect : UnitCode) (value : Nat) (s : State) :
    proj m0 (rootRecord code suspect value s) = proj m0 s := by
  refine proj_mono hm0 ?_
  unfold rootRecord
  try dsimp -proj only
  repeat' first
    | simp +decide only [↓stampSub_frame, ↓faultRecord_frame, ↓proj_ite, ↓proj_iteP, ite_self]
    | ((with_reducible refine proj_mk_trans ?_ ?_); · ((fail_if_success with_reducible rfl); rfl))
    | split

theorem handoverByRole_frame {m0 : Nat} (hm0 : m0 &&& 591233076 = 591233076) (s : State) :
    proj m0 (handoverByRole s) = proj m0 s := by
  refine proj_mono hm0 ?_
  unfold handoverByRole
  try dsimp -proj only
  repeat' first
    | simp +decide only [↓handoverTo_frame, ↓sendLeave_frame, ↓dropShares_frame, ↓proj_ite, ↓proj_iteP, ite_self]
    | ((with_reducible refine proj_mk_trans ?_ ?_); · ((fail_if_success with_reducible rfl); rfl))
    | split

theorem evalHandover_frame {m0 : Nat} (hm0 : m0 &&& 3812464948 = 3812464948) (s : State) :
    proj m0 (evalHandover s) = proj m0 s := by
  refine proj_mono hm0 ?_
  unfold evalHandover
  try dsimp -proj only
  repeat' first
    | simp +decide only [↓handoverByRole_frame, ↓modCanopy_frame, ↓rootRecord_frame, ↓proj_ite, ↓proj_iteP, ite_self]
    | ((with_reducible refine proj_mk_trans ?_ ?_); · ((fail_if_success with_reducible rfl); rfl))
    | split

theorem execHandoverClear_frame {m0 : Nat} (hm0 : m0 &&& 16777248 = 16777248) (a0 : HPort) (s : State) :
    outProj m0 s (execHandoverClear a0 s) := by
  refine outProj_mono hm0 ?_
  unfold execHandoverClear
  try dsimp -proj only
  repeat' first
    | (with_reducible refine outProj_next ?_)
    | (with_reducible refine ite_projR ?_ ?_)
    | simp +decide only [↓modCanopy_frame, ↓proj_ite, ↓proj_iteP, ite_self]
    | ((with_reducible refine proj_mk_trans ?_ ?_); · ((fail_if_success with_reducible rfl); rfl))
    | split

theorem reportLost_frame {m0 : Nat} (hm0 : m0 &&& 2147483680 = 2147483680) (u : UnitCode) (s : State) :
    proj m0 (reportLost u s) = proj m0 s := by
  refine proj_mono hm0 ?_
  unfold reportLost
  try dsimp -proj only
  repeat' first
    | simp +decide only [↓report_frame, ↓setUnit_frame, ↓proj_ite, ↓proj_iteP, ite_self]
    | ((with_reducible refine proj_mk_trans ?_ ?_); · ((fail_if_success with_reducible rfl); rfl))
    | split

theorem loseSpine_frame {m0 : Nat} (hm0 : m0 &&& 2684403744 = 2684403744) (d : CDie) (s : State) :
    proj m0 (loseSpine d s) = proj m0 s := by
  refine proj_mono hm0 ?_
  unfold loseSpine
  try dsimp -proj only
  repeat' first
    | simp +decide only [↓reportLost_frame, ↓declareLost_frame, ↓fenceCluster_frame, ↓proj_ite, ↓proj_iteP, ite_self]
    | (with_reducible refine (foldl_proj _ _ ?_ _).trans ?_; intro _ _)
    | (with_reducible refine (foldl_projP _ _ ?_ _).trans ?_; intro _ _)
    | ((with_reducible refine proj_mk_trans ?_ ?_); · ((fail_if_success with_reducible rfl); rfl))
    | split

theorem freeEntries_frame {m0 : Nat} (hm0 : m0 &&& 598737920 = 598737920) (ks : List Nat) (s : State) :
    proj m0 (freeEntries ks s) = proj m0 s := by
  refine proj_mono hm0 ?_
  unfold freeEntries
  try dsimp -proj only
  repeat' first
    | simp +decide only [↓freeEntry_frame, ↓proj_ite, ↓proj_iteP, ite_self]
    | (with_reducible refine (foldl_proj _ _ ?_ _).trans ?_; intro _ _)
    | (with_reducible refine (foldl_projP _ _ ?_ _).trans ?_; intro _ _)
    | ((with_reducible refine proj_mk_trans ?_ ?_); · ((fail_if_success with_reducible rfl); rfl))
    | split

theorem loseNet_frame {m0 : Nat} (hm0 : m0 &&& 11671975200 = 11671975200) (d : NDie) (s : State) :
    proj m0 (loseNet d s) = proj m0 s := by
  refine proj_mono hm0 ?_
  unfold loseNet
  try dsimp -proj only
  repeat' first
    | simp +decide only [↓reportLost_frame, ↓modLane_frame, ↓portDown_frame, ↓resetPort_frame, ↓freeEntries_frame, ↓proj_ite, ↓proj_iteP, ite_self]
    | (with_reducible refine (foldl_proj _ _ ?_ _).trans ?_; intro _ _)
    | (with_reducible refine (foldl_projP _ _ ?_ _).trans ?_; intro _ _)
    | ((with_reducible refine proj_mk_trans ?_ ?_); · ((fail_if_success with_reducible rfl); rfl))
    | split

theorem loseFelt_frame {m0 : Nat} (hm0 : m0 &&& 2147483680 = 2147483680) (l : Nat) (s : State) :
    proj m0 (loseFelt l s) = proj m0 s := by
  refine proj_mono hm0 ?_
  unfold loseFelt
  try dsimp -proj only
  repeat' first
    | simp +decide only [↓reportLost_frame, ↓proj_ite, ↓proj_iteP, ite_self]
    | ((with_reducible refine proj_mk_trans ?_ ?_); · ((fail_if_success with_reducible rfl); rfl))
    | split

theorem execFeltLinkLost_frame {m0 : Nat} (hm0 : m0 &&& 3812464948 = 3812464948) (link : Fin 15) (s : State) :
    outProj m0 s (execFeltLinkLost link s) := by
  refine outProj_mono hm0 ?_
  unfold execFeltLinkLost
  try dsimp -proj only
  repeat' first
    | (with_reducible refine outProj_next ?_)
    | simp +decide only [↓evalHandover_frame, ↓loseFelt_frame, ↓proj_ite, ↓proj_iteP, ite_self]
    | ((with_reducible refine proj_mk_trans ?_ ?_); · ((fail_if_success with_reducible rfl); rfl))
    | split

theorem execStackLost_frame {m0 : Nat} (hm0 : m0 &&& 3812481332 = 3812481332) (st : StackId) (s : State) :
    outProj m0 s (execStackLost st s) := by
  refine outProj_mono hm0 ?_
  unfold execStackLost
  try dsimp -proj only
  repeat' first
    | (with_reducible refine outProj_next ?_)
    | simp +decide only [↓evalHandover_frame, ↓declareLost_frame, ↓proj_ite, ↓proj_iteP, ite_self]
    | ((with_reducible refine proj_mk_trans ?_ ?_); · ((fail_if_success with_reducible rfl); rfl))
    | split

theorem execStackRetire_frame {m0 : Nat} (hm0 : m0 &&& 4080916788 = 4080916788) (p : HPort) (s : State) :
    outProj m0 s (execStackRetire p s) := by
  refine outProj_mono hm0 ?_
  unfold execStackRetire
  try dsimp -proj only
  repeat' first
    | (with_reducible refine outProj_next ?_)
    | (with_reducible refine ite_projR ?_ ?_)
    | simp +decide only [↓discardRws_frame, ↓evalHandover_frame, ↓declareLost_frame, ↓proj_ite, ↓proj_iteP, ite_self]
    | ((with_reducible refine proj_mk_trans ?_ ?_); · ((fail_if_success with_reducible rfl); rfl))
    | split

theorem noteNamed_frame {m0 : Nat} (hm0 : m0 &&& 805306400 = 805306400) (r : Report) (u : UnitCode) (s : State) :
    proj m0 (noteNamed r u s) = proj m0 s := by
  refine proj_mono hm0 ?_
  unfold noteNamed
  try dsimp -proj only
  repeat' first
    | simp +decide only [↓modCanopy_frame, ↓setSticky_frame, ↓incCnt_frame, ↓proj_ite, ↓proj_iteP, ite_self]
    | ((with_reducible refine proj_mk_trans ?_ ?_); · ((fail_if_success with_reducible rfl); rfl))
    | split

theorem coverReport_frame {m0 : Nat} (hm0 : m0 &&& 32 = 32) (r : Report) (s : State) :
    proj m0 (coverReport r s) = proj m0 s := by
  refine proj_mono hm0 ?_
  unfold coverReport
  try dsimp -proj only
  repeat' first
    | simp +decide only [↓modCanopy_frame, ↓proj_ite, ↓proj_iteP, ite_self]
    | ((with_reducible refine proj_mk_trans ?_ ?_); · ((fail_if_success with_reducible rfl); rfl))
    | split

theorem passOn_frame {m0 : Nat} (hm0 : m0 &&& 3758102816 = 3758102816) (node : UnitCode) (r : Report) (s : State) :
    proj m0 (passOn node r s) = proj m0 s := by
  refine proj_mono hm0 ?_
  unfold passOn
  try dsimp -proj only
  repeat' first
    | simp +decide only [↓faultRecord_frame, ↓modCanopy_frame, ↓proj_ite, ↓proj_iteP, ite_self]
    | ((with_reducible refine proj_mk_trans ?_ ?_); · ((fail_if_success with_reducible rfl); rfl))
    | split

theorem endWindow_frame {m0 : Nat} (hm0 : m0 &&& 3758102816 = 3758102816) (w : CanWindow) (s : State) :
    proj m0 (endWindow w s) = proj m0 s := by
  refine proj_mono hm0 ?_
  unfold endWindow
  try dsimp -proj only
  repeat' first
    | simp +decide only [↓modCanopy_frame, ↓passOn_frame, ↓proj_ite, ↓proj_iteP, ite_self]
    | ((with_reducible refine proj_mk_trans ?_ ?_); · ((fail_if_success with_reducible rfl); rfl))
    | split

theorem mergeAt_frame {m0 : Nat} (hm0 : m0 &&& 4026538272 = 4026538272) (node : UnitCode) (r : Report) (s : State) :
    proj m0 (mergeAt node r s) = proj m0 s := by
  refine proj_mono hm0 ?_
  unfold mergeAt
  try dsimp -proj only
  repeat' first
    | simp +decide only [↓endWindow_frame, ↓modCanopy_frame, ↓passOn_frame, ↓setSticky_frame, ↓proj_ite, ↓proj_iteP, ite_self]
    | (with_reducible refine (foldl_proj _ _ ?_ _).trans ?_; intro _ _)
    | (with_reducible refine (foldl_projP _ _ ?_ _).trans ?_; intro _ _)
    | ((with_reducible refine proj_mk_trans ?_ ?_); · ((fail_if_success with_reducible rfl); rfl))
    | (with_reducible intro _)
    | split

theorem noteSram_frame {m0 : Nat} (hm0 : m0 &&& 32 = 32) (node : UnitCode) (r : Report) (s : State) :
    proj m0 (noteSram node r s) = proj m0 s := by
  refine proj_mono hm0 ?_
  unfold noteSram
  try dsimp -proj only
  repeat' first
    | simp +decide only [↓modCanopy_frame, ↓proj_ite, ↓proj_iteP, ite_self]
    | ((with_reducible refine proj_mk_trans ?_ ?_); · ((fail_if_success with_reducible rfl); rfl))
    | split

theorem rootAct_frame {m0 : Nat} (hm0 : m0 &&& 11672024352 = 11672024352) (u : UnitCode) (rs : List Report) (windthrow : Bool) (s : State) :
    proj m0 (rootAct u rs windthrow s) = proj m0 s := by
  refine proj_mono hm0 ?_
  unfold rootAct
  try dsimp -proj only
  repeat' first
    | simp +decide only [↓fenceCluster_frame, ↓declareLost_frame, ↓loseSpine_frame, ↓loseNet_frame, ↓loseFelt_frame, ↓proj_ite, ↓proj_iteP, ite_self]
    | ((with_reducible refine proj_mk_trans ?_ ?_); · ((fail_if_success with_reducible rfl); rfl))
    | split

theorem endRoot_frame {m0 : Nat} (hm0 : m0 &&& 12746358068 = 12746358068) (w : RootWin) (s : State) :
    proj m0 (endRoot w s) = proj m0 s := by
  refine proj_mono hm0 ?_
  unfold endRoot
  try dsimp -proj only
  repeat' first
    | simp +decide only [↓modCanopy_frame, ↓faultRecord_frame, ↓evalHandover_frame, ↓rootAct_frame, ↓proj_ite, ↓proj_iteP, ite_self]
    | ((with_reducible refine proj_mk_trans ?_ ?_); · ((fail_if_success with_reducible rfl); rfl))
    | split

theorem execRootAction_frame {m0 : Nat} (hm0 : m0 &&& 12746358068 = 12746358068) (unit : UnitCode) (s : State) :
    outProj m0 s (execRootAction unit s) := by
  refine outProj_mono hm0 ?_
  unfold execRootAction
  try dsimp -proj only
  repeat' first
    | (with_reducible refine outProj_next ?_)
    | simp +decide only [↓endRoot_frame, ↓proj_ite, ↓proj_iteP, ite_self]
    | ((with_reducible refine proj_mk_trans ?_ ?_); · ((fail_if_success with_reducible rfl); rfl))
    | split

theorem rootReceive_frame {m0 : Nat} (hm0 : m0 &&& 12746358068 = 12746358068) (r : Report) (s : State) :
    proj m0 (rootReceive r s) = proj m0 s := by
  refine proj_mono hm0 ?_
  unfold rootReceive
  try dsimp -proj only
  repeat' first
    | simp +decide only [↓endRoot_frame, ↓incCnt_frame, ↓noteNamed_frame, ↓coverReport_frame, ↓mergeAt_frame, ↓proj_ite, ↓proj_iteP, ite_self]
    | (with_reducible refine (foldl_proj _ _ ?_ _).trans ?_; intro _ _)
    | (with_reducible refine (foldl_projP _ _ ?_ _).trans ?_; intro _ _)
    | ((with_reducible refine proj_mk_trans ?_ ?_); · ((fail_if_success with_reducible rfl); rfl))
    | (with_reducible intro _)
    | split

theorem execCanopyReport_frame {m0 : Nat} (hm0 : m0 &&& 12746358068 = 12746358068) (node : UnitCode) (r : Report) (s : State) :
    outProj m0 s (execCanopyReport node r s) := by
  refine outProj_mono hm0 ?_
  unfold execCanopyReport
  try dsimp -proj only
  repeat' first
    | (with_reducible refine outProj_next ?_)
    | (with_reducible refine ite_projR ?_ ?_)
    | simp +decide only [↓modCanopy_frame, ↓noteSram_frame, ↓rootReceive_frame, ↓mergeAt_frame, ↓proj_ite, ↓proj_iteP, ite_self]
    | ((with_reducible refine proj_mk_trans ?_ ?_); · ((fail_if_success with_reducible rfl); rfl))
    | (with_reducible intro _)
    | split

theorem execMergeWindowEnd_frame {m0 : Nat} (hm0 : m0 &&& 3758102816 = 3758102816) (node : UnitCode) (code : W16) (suspect : UnitCode) (alt : UnitCode) (s : State) :
    outProj m0 s (execMergeWindowEnd node code suspect alt s) := by
  refine outProj_mono hm0 ?_
  unfold execMergeWindowEnd
  try dsimp -proj only
  repeat' first
    | (with_reducible refine outProj_next ?_)
    | simp +decide only [↓endWindow_frame, ↓proj_ite, ↓proj_iteP, ite_self]
    | ((with_reducible refine proj_mk_trans ?_ ?_); · ((fail_if_success with_reducible rfl); rfl))
    | split

theorem execMemTimeout_frame {m0 : Nat} (hm0 : m0 &&& 2147483680 = 2147483680) (reporter : UnitCode) (st : StackId) (layer : W16) (op : W16) (s : State) :
    outProj m0 s (execMemTimeout reporter st layer op s) := by
  refine outProj_mono hm0 ?_
  unfold execMemTimeout
  try dsimp -proj only
  repeat' first
    | (with_reducible refine outProj_next ?_)
    | simp +decide only [↓report_frame, ↓proj_ite, ↓proj_iteP, ite_self]
    | ((with_reducible refine proj_mk_trans ?_ ?_); · ((fail_if_success with_reducible rfl); rfl))
    | split

theorem execKeepaliveSend_frame {m0 : Nat} (hm0 : m0 &&& 32 = 32) (silent : List UnitCode) (s : State) :
    outProj m0 s (execKeepaliveSend silent s) := by
  refine outProj_mono hm0 ?_
  unfold execKeepaliveSend
  try dsimp -proj only
  repeat' first
    | (with_reducible refine outProj_next ?_)
    | (with_reducible refine ite_projR ?_ ?_)
    | simp +decide only [↓modCanopy_frame, ↓proj_ite, ↓proj_iteP, ite_self]
    | ((with_reducible refine proj_mk_trans ?_ ?_); · ((fail_if_success with_reducible rfl); rfl))
    | split

theorem execNodeLost_frame {m0 : Nat} (hm0 : m0 &&& 12746358068 = 12746358068) (unit : UnitCode) (s : State) :
    outProj m0 s (execNodeLost unit s) := by
  refine outProj_mono hm0 ?_
  unfold execNodeLost
  try dsimp -proj only
  repeat' first
    | (with_reducible refine outProj_next ?_)
    | (with_reducible refine ite_projR ?_ ?_)
    | simp +decide only [↓fenceCore_frame, ↓fenceCluster_frame, ↓loseSpine_frame, ↓loseNet_frame, ↓evalHandover_frame, ↓proj_ite, ↓proj_iteP, ite_self]
    | ((with_reducible refine proj_mk_trans ?_ ?_); · ((fail_if_success with_reducible rfl); rfl))
    | split

theorem fenceStatus_frame {m0 : Nat} (hm0 : m0 &&& 268435456 = 268435456) (st : Nat) (s : State) :
    proj m0 (fenceStatus st s) = proj m0 s := by
  refine proj_mono hm0 ?_
  unfold fenceStatus
  try dsimp -proj only
  repeat' first
    | simp +decide only [↓setRegF_frame, ↓proj_ite, ↓proj_iteP, ite_self]
    | ((with_reducible refine proj_mk_trans ?_ ?_); · ((fail_if_success with_reducible rfl); rfl))
    | split

theorem execFenceCmd_frame {m0 : Nat} (hm0 : m0 &&& 4080900404 = 4080900404) (p : HPort) (s : State) :
    outProj m0 s (execFenceCmd p s) := by
  refine outProj_mono hm0 ?_
  unfold execFenceCmd
  try dsimp -proj only
  repeat' first
    | (with_reducible refine outProj_next ?_)
    | (with_reducible refine ite_projR ?_ ?_)
    | simp +decide only [↓discardRws_frame, ↓fenceStatus_frame, ↓fenceEngine_frame, ↓fenceCore_frame, ↓fenceCluster_frame, ↓evalHandover_frame, ↓proj_ite, ↓proj_iteP, ite_self]
    | ((with_reducible refine proj_mk_trans ?_ ?_); · ((fail_if_success with_reducible rfl); rfl))
    | split

theorem execUnfenceCmd_frame {m0 : Nat} (hm0 : m0 &&& 805568544 = 805568544) (p : HPort) (s : State) :
    outProj m0 s (execUnfenceCmd p s) := by
  refine outProj_mono hm0 ?_
  unfold execUnfenceCmd
  try dsimp -proj only
  repeat' first
    | (with_reducible refine outProj_next ?_)
    | (with_reducible refine ite_projR ?_ ?_)
    | simp +decide only [↓discardRws_frame, ↓fenceStatus_frame, ↓modCanopy_frame, ↓proj_ite, ↓proj_iteP, ite_self]
    | ((with_reducible refine proj_mk_trans ?_ ?_); · ((fail_if_success with_reducible rfl); rfl))
    | split

theorem coldUnit_frame {m0 : Nat} (hm0 : m0 &&& 2214592524 = 2214592524) (u : UnitCode) (s : State) :
    proj m0 (coldUnit u s) = proj m0 s := by
  refine proj_mono hm0 ?_
  unfold coldUnit
  try dsimp -proj only
  repeat' first
    | simp +decide only [↓loseMemory_frame, ↓putDom_frame, ↓proj_ite, ↓proj_iteP, ite_self]
    | (with_reducible refine (foldl_proj _ _ ?_ _).trans ?_; intro _ _)
    | (with_reducible refine (foldl_projP _ _ ?_ _).trans ?_; intro _ _)
    | ((with_reducible refine proj_mk_trans ?_ ?_); · ((fail_if_success with_reducible rfl); rfl))
    | split

theorem execUnfenceApply_frame {m0 : Nat} (hm0 : m0 &&& 2214592556 = 2214592556) (s : State) :
    outProj m0 s (execUnfenceApply s) := by
  refine outProj_mono hm0 ?_
  unfold execUnfenceApply
  try dsimp -proj only
  repeat' first
    | (with_reducible refine outProj_next ?_)
    | (with_reducible refine ite_projR ?_ ?_)
    | simp +decide only [↓modCanopy_frame, ↓coldUnit_frame, ↓unfenceUnit_frame, ↓proj_ite, ↓proj_iteP, ite_self]
    | (with_reducible refine (foldl_proj _ _ ?_ _).trans ?_; intro _ _)
    | (with_reducible refine (foldl_projP _ _ ?_ _).trans ?_; intro _ _)
    | ((with_reducible refine proj_mk_trans ?_ ?_); · ((fail_if_success with_reducible rfl); rfl))
    | split

theorem takeRelaunch_frame {m0 : Nat} (hm0 : m0 &&& 3758102816 = 3758102816) (seq : W32) (s : State) :
    proj m0 (takeRelaunch seq s) = proj m0 s := by
  refine proj_mono hm0 ?_
  unfold takeRelaunch
  try dsimp -proj only
  repeat' first
    | simp +decide only [↓modCanopy_frame, ↓rootRecord_frame, ↓incCnt_frame, ↓proj_ite, ↓proj_iteP, ite_self]
    | (with_reducible refine (foldl_proj _ _ ?_ _).trans ?_; intro _ _)
    | (with_reducible refine (foldl_projP _ _ ?_ _).trans ?_; intro _ _)
    | ((with_reducible refine proj_mk_trans ?_ ?_); · ((fail_if_success with_reducible rfl); rfl))
    | split

theorem restartReam_frame {m0 : Nat} (hm0 : m0 &&& 4089290044 = 4089290044) (r : Ream) (s : State) :
    proj m0 (restartReam r s) = proj m0 s := by
  refine proj_mono hm0 ?_
  unfold restartReam
  try dsimp -proj only
  repeat' first
    | (with_reducible exact allocLaunch_frame (by decide) _ _ _)
    | simp +decide only [↓retestReqs_frame, ↓dropLaunch_frame, ↓carryReam_frame, ↓issueJobs_frame, ↓markCtx_frame, ↓rootRecord_frame, ↓incCnt_frame, ↓proj_ite, ↓proj_iteP, ite_self]
    | (with_reducible refine (foldl_proj _ _ ?_ _).trans ?_; intro _ _)
    | (with_reducible refine (foldl_projP _ _ ?_ _).trans ?_; intro _ _)
    | ((with_reducible refine proj_mk_trans ?_ ?_); · ((fail_if_success with_reducible rfl); rfl))
    | (with_reducible refine (some_eq (by assumption) (allocLaunch_frame (by decide) _ _ _)).trans ?_)
    | (with_reducible refine (getD_proj (allocLaunch_frame (by decide) _ _ _)).trans ?_)
    | split

theorem execReamRelaunch_frame {m0 : Nat} (hm0 : m0 &&& 4089290046 = 4089290046) (ream : W32) (s : State) :
    outProj m0 s (execReamRelaunch ream s) := by
  refine outProj_mono hm0 ?_
  unfold execReamRelaunch
  try dsimp -proj only
  repeat' first
    | (with_reducible refine outProj_next ?_)
    | (with_reducible refine ite_projR ?_ ?_)
    | simp +decide only [↓takeRelaunch_frame, ↓abandonReam_frame, ↓dropLaunch_frame, ↓modCanopy_frame, ↓endOfShares_frame, ↓refuseShare_frame, ↓restartReam_frame, ↓markCtx_frame, ↓proj_ite, ↓proj_iteP, ite_self]
    | (with_reducible refine (foldl_proj _ _ ?_ _).trans ?_; intro _ _)
    | (with_reducible refine (foldl_projP _ _ ?_ _).trans ?_; intro _ _)
    | ((with_reducible refine proj_mk_trans ?_ ?_); · simp +decide only [proj, ↓reduceIte])
    | split

theorem setRegVal_frame {m0 : Nat} (hm0 : m0 &&& 268435456 = 268435456) (r : RegRow) (o : Nat) (ix : Nat) (v : Nat) (s : State) :
    proj m0 (setRegVal r o ix v s) = proj m0 s := by
  refine proj_mono hm0 ?_
  unfold setRegVal
  try dsimp -proj only
  repeat' first
    | simp +decide only [↓setRegQ_frame, ↓setRegW_frame, ↓proj_ite, ↓proj_iteP, ite_self]
    | ((with_reducible refine proj_mk_trans ?_ ?_); · ((fail_if_success with_reducible rfl); rfl))
    | split

theorem portEnChanged_frame {m0 : Nat} (hm0 : m0 &&& 2753564928 = 2753564928) (g : Nat) (en : Bool) (s : State) :
    proj m0 (portEnChanged g en s) = proj m0 s := by
  refine proj_mono hm0 ?_
  unfold portEnChanged
  try dsimp -proj only
  repeat' first
    | simp +decide only [↓enableLanes_frame, ↓beginWake_frame, ↓setDom_frame, ↓proj_ite, ↓proj_iteP, ite_self]
    | (with_reducible refine (foldl_proj _ _ ?_ _).trans ?_; intro _ _)
    | (with_reducible refine (foldl_projP _ _ ?_ _).trans ?_; intro _ _)
    | ((with_reducible refine proj_mk_trans ?_ ?_); · ((fail_if_success with_reducible rfl); rfl))
    | split

theorem regHook_frame {m0 : Nat} (hm0 : m0 &&& 2753573122 = 2753573122) (r : RegRow) (o : Nat) (old : Nat) (new : Nat) (s : State) :
    proj m0 (regHook r o old new s) = proj m0 s := by
  refine proj_mono hm0 ?_
  unfold regHook
  try dsimp -proj only
  repeat' first
    | simp +decide only [↓portEnChanged_frame, ↓modTime_frame, ↓proj_ite, ↓proj_iteP, ite_self]
    | ((with_reducible refine proj_mk_trans ?_ ?_); · ((fail_if_success with_reducible rfl); rfl))
    | split

theorem applyAt_frame {m0 : Nat} (hm0 : m0 &&& 3038785794 = 3038785794) (sem : Bool) (ix : Nat) (o : Nat) (r : RegRow) (mask : Nat) (v : Nat) (s : State) :
    proj m0 (applyAt sem ix o r mask v s) = proj m0 s := by
  refine proj_mono hm0 ?_
  unfold applyAt
  try dsimp -proj only
  repeat' first
    | simp +decide only [↓modTime_frame, ↓regHook_frame, ↓setRegVal_frame, ↓proj_ite, ↓proj_iteP, ite_self]
    | (with_reducible refine (foldl_proj _ _ ?_ _).trans ?_; intro _ _)
    | (with_reducible refine (foldl_projP _ _ ?_ _).trans ?_; intro _ _)
    | ((with_reducible refine proj_mk_trans ?_ ?_); · ((fail_if_success with_reducible rfl); rfl))
    | split

theorem applyReg_frame {m0 : Nat} (hm0 : m0 &&& 3038785794 = 3038785794) (sem : Bool) (who : Nat) (o : Nat) (r : RegRow) (mask : Nat) (v : Nat) (s : State) :
    proj m0 (applyReg sem who o r mask v s) = proj m0 s := by
  refine proj_mono hm0 ?_
  unfold applyReg
  try dsimp -proj only
  repeat' first
    | simp +decide only [↓applyAt_frame, ↓proj_ite, ↓proj_iteP, ite_self]
    | ((with_reducible refine proj_mk_trans ?_ ?_); · ((fail_if_success with_reducible rfl); rfl))
    | split

theorem setStaged_frame {m0 : Nat} (hm0 : m0 &&& 268435456 = 268435456) (off : Nat) (ix : Nat) (v : Nat) (s : State) :
    proj m0 (setStaged off ix v s) = proj m0 s := by
  refine proj_mono hm0 ?_
  unfold setStaged
  try dsimp -proj only
  repeat' first
    | simp +decide only [↓proj_ite, ↓proj_iteP, ite_self]
    | ((with_reducible refine proj_mk_trans ?_ ?_); · ((fail_if_success with_reducible rfl); rfl))
    | split

theorem dropStaged_frame {m0 : Nat} (hm0 : m0 &&& 268435456 = 268435456) (off : Nat) (ix : Nat) (s : State) :
    proj m0 (dropStaged off ix s) = proj m0 s := by
  refine proj_mono hm0 ?_
  unfold dropStaged
  try dsimp -proj only
  repeat' first
    | simp +decide only [↓proj_ite, ↓proj_iteP, ite_self]
    | ((with_reducible refine proj_mk_trans ?_ ?_); · ((fail_if_success with_reducible rfl); rfl))
    | split

theorem commitLocalIp_frame {m0 : Nat} (hm0 : m0 &&& 268435456 = 268435456) (o : Nat) (s : State) :
    proj m0 (commitLocalIp o s) = proj m0 s := by
  refine proj_mono hm0 ?_
  unfold commitLocalIp
  try dsimp -proj only
  repeat' first
    | simp +decide only [↓dropStaged_frame, ↓setRegW_frame, ↓proj_ite, ↓proj_iteP, ite_self]
    | (with_reducible refine (foldl_proj _ _ ?_ _).trans ?_; intro _ _)
    | (with_reducible refine (foldl_projP _ _ ?_ _).trans ?_; intro _ _)
    | ((with_reducible refine proj_mk_trans ?_ ?_); · ((fail_if_success with_reducible rfl); rfl))
    | split

theorem writeReg_frame {m0 : Nat} (hm0 : m0 &&& 3039047938 = 3039047938) (p : HPort) (off : Nat) (o : Nat) (z : Nat) (r : RegRow) (mask : Nat) (v : Nat) (s : State) :
    proj m0 (writeReg p off o z r mask v s) = proj m0 s := by
  refine proj_mono hm0 ?_
  unfold writeReg
  try dsimp -proj only
  repeat' first
    | simp +decide only [↓discardRws_frame, ↓applyReg_frame, ↓setStaged_frame, ↓commitLocalIp_frame, ↓dropStaged_frame, ↓proj_ite, ↓proj_iteP, ite_self]
    | ((with_reducible refine proj_mk_trans ?_ ?_); · ((fail_if_success with_reducible rfl); rfl))
    | split

theorem write4_frame {m0 : Nat} (hm0 : m0 &&& 3039047938 = 3039047938) (p : HPort) (off : Nat) (v : Nat) (s : State) :
    proj m0 (write4 p off v s) = proj m0 s := by
  refine proj_mono hm0 ?_
  unfold write4
  try dsimp -proj only
  repeat' first
    | simp +decide only [↓writeReg_frame, ↓proj_ite, ↓proj_iteP, ite_self]
    | ((with_reducible refine proj_mk_trans ?_ ?_); · ((fail_if_success with_reducible rfl); rfl))
    | split

theorem write8_frame {m0 : Nat} (hm0 : m0 &&& 3039047938 = 3039047938) (p : HPort) (off : Nat) (v : Nat) (s : State) :
    proj m0 (write8 p off v s) = proj m0 s := by
  refine proj_mono hm0 ?_
  unfold write8
  try dsimp -proj only
  repeat' first
    | simp +decide only [↓writeReg_frame, ↓write4_frame, ↓proj_ite, ↓proj_iteP, ite_self]
    | ((with_reducible refine proj_mk_trans ?_ ?_); · ((fail_if_success with_reducible rfl); rfl))
    | split

theorem execRegisterWrite_frame {m0 : Nat} (hm0 : m0 &&& 3039047938 = 3039047938) (p : HPort) (off : BitVec 24) (size8 : Bool) (value : W64) (s : State) :
    outProj m0 s (execRegisterWrite p off size8 value s) := by
  refine outProj_mono hm0 ?_
  unfold execRegisterWrite
  try dsimp -proj only
  repeat' first
    | (with_reducible refine outProj_next ?_)
    | (with_reducible refine ite_projR ?_ ?_)
    | simp +decide only [↓write8_frame, ↓write4_frame, ↓proj_ite, ↓proj_iteP, ite_self]
    | ((with_reducible refine proj_mk_trans ?_ ?_); · ((fail_if_success with_reducible rfl); rfl))
    | split

theorem execShadowRead_frame {m0 : Nat} (hm0 : m0 &&& 262176 = 262176) (p : HPort) (off : BitVec 24) (s : State) :
    outProj m0 s (execShadowRead p off s) := by
  refine outProj_mono hm0 ?_
  unfold execShadowRead
  try dsimp -proj only
  repeat' first
    | (with_reducible refine outProj_next ?_)
    | (with_reducible refine ite_projR ?_ ?_)
    | simp +decide only [↓modPort_frame, ↓proj_ite, ↓proj_iteP, ite_self]
    | ((with_reducible refine proj_mk_trans ?_ ?_); · ((fail_if_success with_reducible rfl); rfl))
    | split

theorem execLogWordCapture_frame {m0 : Nat} (hm0 : m0 &&& 262144 = 262144) (p : HPort) (s : State) :
    outProj m0 s (execLogWordCapture p s) := by
  refine outProj_mono hm0 ?_
  unfold execLogWordCapture
  try dsimp -proj only
  repeat' first
    | (with_reducible refine outProj_next ?_)
    | (with_reducible refine ite_projR ?_ ?_)
    | simp +decide only [↓modPort_frame, ↓proj_ite, ↓proj_iteP, ite_self]
    | ((with_reducible refine proj_mk_trans ?_ ?_); · ((fail_if_success with_reducible rfl); rfl))
    | split

theorem execPeakRead_frame {m0 : Nat} (hm0 : m0 &&& 67108864 = 67108864) (s : State) : outProj m0 s (execPeakRead s) := by
  refine outProj_mono hm0 ?_
  unfold execPeakRead
  try dsimp -proj only
  repeat' first
    | (with_reducible refine outProj_next ?_)
    | (with_reducible refine ite_projR ?_ ?_)
    | simp +decide only [↓proj_ite, ↓proj_iteP, ite_self]
    | ((with_reducible refine proj_mk_trans ?_ ?_); · ((fail_if_success with_reducible rfl); rfl))
    | split

end Sys2Proof.Machine
end

