-- ==== Sys2Proof/Laws/FrameHost.lean ====
section
/-! SUPPORT. What each operation of HostConfig.lean, ImageCheck.lean, Loader.lean, Launch.lean, Rings.lean leaves: one lemma each, by Frame.lean. -/

set_option maxRecDepth 8000
set_option linter.all false

namespace Sys2Proof.Machine

theorem clearArea_frame {m0 : Nat} (hm0 : m0 &&& 16384 = 16384) (a : Nat) (n : Nat) (s : State) :
    proj m0 (clearArea a n s) = proj m0 s := by
  refine proj_mono hm0 ?_
  unfold clearArea
  try dsimp -proj only
  repeat' first
    | simp +decide only [↓setPoisonKey_frame, ↓setRaw_frame, ↓proj_ite, ↓proj_iteP, ite_self]
    | (with_reducible refine (foldl_proj _ _ ?_ _).trans ?_; intro _ _)
    | (with_reducible refine (foldl_projP _ _ ?_ _).trans ?_; intro _ _)
    | ((with_reducible refine proj_mk_trans ?_ ?_); · ((fail_if_success with_reducible rfl); rfl))
    | split

theorem guardStripes_frame {m0 : Nat} (hm0 : m0 &&& 3019950112 = 3019950112) (first : Nat) (count : Nat) (s : State) :
    proj m0 (guardStripes first count s) = proj m0 s := by
  refine proj_mono hm0 ?_
  unfold guardStripes
  try dsimp -proj only
  repeat' first
    | simp +decide only [↓parityStripe_frame, ↓proj_ite, ↓proj_iteP, ite_self]
    | (with_reducible refine (foldl_proj _ _ ?_ _).trans ?_; intro _ _)
    | (with_reducible refine (foldl_projP _ _ ?_ _).trans ?_; intro _ _)
    | ((with_reducible refine proj_mk_trans ?_ ?_); · ((fail_if_success with_reducible rfl); rfl))
    | split

theorem addRegions_frame {m0 : Nat} (hm0 : m0 &&& 3019950112 = 3019950112) (reqs : List RegionReq) (slot : SlotId) (owned : Bool) (s : State) :
    proj m0 (addRegions reqs slot owned s) = proj m0 s := by
  refine proj_mono hm0 ?_
  unfold addRegions
  try dsimp -proj only
  repeat' first
    | simp +decide only [↓guardStripes_frame, ↓proj_ite, ↓proj_iteP, ite_self]
    | (with_reducible refine (foldl_proj _ _ ?_ _).trans ?_; intro _ _)
    | (with_reducible refine (foldl_projP _ _ ?_ _).trans ?_; intro _ _)
    | ((with_reducible refine proj_mk_trans ?_ ?_); · ((fail_if_success with_reducible rfl); rfl))
    | split

theorem dropRegions_frame {m0 : Nat} (hm0 : m0 &&& 16384 = 16384) (test : Region → Bool) (s : State) :
    proj m0 (dropRegions test s) = proj m0 s := by
  refine proj_mono hm0 ?_
  unfold dropRegions
  try dsimp -proj only
  repeat' first
    | simp +decide only [↓proj_ite, ↓proj_iteP, ite_self]
    | ((with_reducible refine proj_mk_trans ?_ ?_); · ((fail_if_success with_reducible rfl); rfl))
    | split

theorem setCustKey_frame {m0 : Nat} (hm0 : m0 &&& 134217728 = 134217728) (who : Nat) (slot : Nat) (valid : Bool) (s : State) :
    proj m0 (setCustKey who slot valid s) = proj m0 s := by
  refine proj_mono hm0 ?_
  unfold setCustKey
  try dsimp -proj only
  repeat' first
    | simp +decide only [↓proj_ite, ↓proj_iteP, ite_self]
    | ((with_reducible refine proj_mk_trans ?_ ?_); · ((fail_if_success with_reducible rfl); rfl))
    | split

theorem cfgWrite_frame {m0 : Nat} (hm0 : m0 &&& 3215996162 = 3215996162) (n : Nat) (ix : Nat) (r : RegRow) (v : Nat) (s : State) :
    proj m0 (cfgWrite n ix r v s) = proj m0 s := by
  refine proj_mono hm0 ?_
  unfold cfgWrite
  try dsimp -proj only
  repeat' first
    | simp +decide only [↓writeSource_frame, ↓writeQuads_frame, ↓writeShaper_frame, ↓writeMeter_frame, ↓setRegW_frame, ↓setCustKey_frame, ↓setStaged_frame, ↓applyAt_frame, ↓commitLocalIp_frame, ↓proj_ite, ↓proj_iteP, ite_self]
    | ((with_reducible refine proj_mk_trans ?_ ?_); · ((fail_if_success with_reducible rfl); rfl))
    | split

theorem collectReg_frame {m0 : Nat} (hm0 : m0 &&& 3038785794 = 3038785794) (acc : List EffReg × State) (e : CfgEntry) :
    proj m0 (collectReg acc e).2 = proj m0 acc.2 := by
  refine proj_mono hm0 ?_
  unfold collectReg
  try dsimp -proj only
  repeat' first
    | simp +decide only [↓applyReg_frame, ↓proj_ite, ↓proj_iteP, ite_self]
    | ((with_reducible refine proj_mk_trans ?_ ?_); · ((fail_if_success with_reducible rfl); rfl))
    | split

theorem changeRole_frame {m0 : Nat} (hm0 : m0 &&& 3015542070 = 3015542070) (new : Nat) (s : State) :
    proj m0 (changeRole new s) = proj m0 s := by
  refine proj_mono hm0 ?_
  unfold changeRole
  try dsimp -proj only
  repeat' first
    | simp +decide only [↓modGrp_frame, ↓forgetGroup_frame, ↓beginLeave_frame, ↓endOfShares_frame, ↓standAlone_frame, ↓promoteSelf_frame, ↓proj_ite, ↓proj_iteP, ite_self]
    | ((with_reducible refine proj_mk_trans ?_ ?_); · ((fail_if_success with_reducible rfl); rfl))
    | split

theorem changeWindow_frame {m0 : Nat} (hm0 : m0 &&& 3014919484 = 3014919484) (new : Nat) (s : State) :
    proj m0 (changeWindow new s) = proj m0 s := by
  refine proj_mono hm0 ?_
  unfold changeWindow
  try dsimp -proj only
  repeat' first
    | simp +decide only [↓windowEnd_frame, ↓modCanopy_frame, ↓proj_ite, ↓proj_iteP, ite_self]
    | ((with_reducible refine proj_mk_trans ?_ ?_); · ((fail_if_success with_reducible rfl); rfl))
    | split

theorem takeFields_frame {m0 : Nat} (hm0 : m0 &&& 3216258558 = 3216258558) (c : Cfg) (s : State) :
    proj m0 (takeFields c s) = proj m0 s := by
  refine proj_mono hm0 ?_
  unfold takeFields
  try dsimp -proj only
  repeat' first
    | simp +decide only [↓collectReg_frame, ↓cfgWrite_frame, ↓changeWindow_frame, ↓setRegF_frame, ↓proj_ite, ↓proj_iteP, ite_self]
    | (with_reducible refine (foldl_proj _ _ ?_ _).trans ?_; intro _ _)
    | (with_reducible refine (foldl_projP _ _ ?_ _).trans ?_; intro _ _)
    | ((with_reducible refine proj_mk_trans ?_ ?_); · ((fail_if_success with_reducible rfl); rfl))
    | (with_reducible refine (snd_eq (by assumption) (collectReg_frame (by decide) _ _)).trans ?_)
    | split

theorem takeEffect_frame {m0 : Nat} (hm0 : m0 &&& 3216881150 = 3216881150) (c : Cfg) (s : State) :
    proj m0 (takeEffect c s) = proj m0 s := by
  refine proj_mono hm0 ?_
  unfold takeEffect
  try dsimp -proj only
  repeat' first
    | simp +decide only [↓takeFields_frame, ↓changeRole_frame, ↓proj_ite, ↓proj_iteP, ite_self]
    | ((with_reducible refine proj_mk_trans ?_ ?_); · ((fail_if_success with_reducible rfl); rfl))
    | split

theorem cfgApplied_frame {m0 : Nat} (hm0 : m0 &&& 939788288 = 939788288) (d : Desc) (s : State) :
    proj m0 (cfgApplied d s) = proj m0 s := by
  refine proj_mono hm0 ?_
  unfold cfgApplied
  try dsimp -proj only
  repeat' first
    | simp +decide only [↓hifEvent_frame, ↓complete_frame, ↓devEvent_frame, ↓proj_ite, ↓proj_iteP, ite_self]
    | ((with_reducible refine proj_mk_trans ?_ ?_); · ((fail_if_success with_reducible rfl); rfl))
    | split

theorem placeBcb_frame {m0 : Nat} (hm0 : m0 &&& 3025061920 = 3025061920) (b : CfgBlock) (s : State) :
    proj m0 (placeBcb b s) = proj m0 s := by
  refine proj_mono hm0 ?_
  unfold placeBcb
  try dsimp -proj only
  repeat' first
    | simp +decide only [↓dropRegions_frame, ↓addRegions_frame, ↓freeTable_frame, ↓setTbl_frame, ↓clearArea_frame, ↓proj_ite, ↓proj_iteP, ite_self]
    | ((with_reducible refine proj_mk_trans ?_ ?_); · ((fail_if_success with_reducible rfl); rfl))
    | split

theorem cfgChange_frame {m0 : Nat} (hm0 : m0 &&& 3221224958 = 3221224958) (d : Desc) (k : SchedKind) (s : State) :
    proj m0 (cfgChange d k s) = proj m0 s := by
  refine proj_mono hm0 ?_
  unfold cfgChange
  try dsimp -proj only
  repeat' first
    | simp +decide only [↓completeBare_frame, ↓complete_frame, ↓cfgApplied_frame, ↓takeEffect_frame, ↓placeBcb_frame, ↓proj_ite, ↓proj_iteP, ite_self]
    | ((with_reducible refine proj_mk_trans ?_ ?_); · ((fail_if_success with_reducible rfl); rfl))
    | split

theorem schedule_frame {m0 : Nat} (hm0 : m0 &&& 262144 = 262144) (d : Desc) (k : SchedKind) (f : Desc → SchedKind → State → State) (s : State) (hf : ∀ d k s, proj m0 (f d k s) = proj m0 s) :
    proj m0 (schedule d k f s) = proj m0 s := by
  unfold schedule
  try dsimp -proj only
  repeat' first
    | (with_reducible refine ite_proj ?_ ?_)
    | with_reducible rfl
    | (with_reducible refine (hf _ _ _).trans ?_)
    | ((with_reducible refine proj_mk_trans ?_ ?_); · ((fail_if_success with_reducible rfl); exact proj_mono hm0 rfl))
    | split

theorem execOverlayStore_frame {m0 : Nat} (hm0 : m0 &&& 3221224958 = 3221224958) (block : Bytes) (s : State) :
    outProj m0 s (execOverlayStore block s) := by
  refine outProj_mono hm0 ?_
  unfold execOverlayStore
  try dsimp -proj only
  repeat' first
    | (with_reducible refine outProj_next ?_)
    | (with_reducible refine ite_projR ?_ ?_)
    | (with_reducible exact takeDescAny_frame (by decide) _ _)
    | simp +decide only [↓complete_frame, ↓cfgChange_frame, ↓proj_ite, ↓proj_iteP, ite_self]
    | ((with_reducible refine proj_mk_trans ?_ ?_); · ((fail_if_success with_reducible rfl); rfl))
    | (with_reducible refine (some_eq (by assumption) (takeDescAny_frame (by decide) _ _)).trans ?_)
    | (with_reducible refine (schedule_frame (by decide) _ _ _ _ ?_).trans ?_)
    | (with_reducible intro _)
    | split

theorem execOverlayApplySet_frame {m0 : Nat} (hm0 : m0 &&& 3221224958 = 3221224958) (s : State) :
    outProj m0 s (execOverlayApplySet s) := by
  refine outProj_mono hm0 ?_
  unfold execOverlayApplySet
  try dsimp -proj only
  repeat' first
    | (with_reducible refine outProj_next ?_)
    | (with_reducible exact takeDescAny_frame (by decide) _ _)
    | simp +decide only [↓cfgChange_frame, ↓proj_ite, ↓proj_iteP, ite_self]
    | ((with_reducible refine proj_mk_trans ?_ ?_); · ((fail_if_success with_reducible rfl); rfl))
    | (with_reducible refine (some_eq (by assumption) (takeDescAny_frame (by decide) _ _)).trans ?_)
    | (with_reducible refine (schedule_frame (by decide) _ _ _ _ ?_).trans ?_)
    | (with_reducible intro _)
    | split

theorem execReplaceBcb_frame {m0 : Nat} (hm0 : m0 &&& 3221224958 = 3221224958) (block : Bytes) (s : State) :
    outProj m0 s (execReplaceBcb block s) := by
  refine outProj_mono hm0 ?_
  unfold execReplaceBcb
  try dsimp -proj only
  repeat' first
    | (with_reducible refine outProj_next ?_)
    | (with_reducible exact takeDescAny_frame (by decide) _ _)
    | simp +decide only [↓complete_frame, ↓cfgChange_frame, ↓proj_ite, ↓proj_iteP, ite_self]
    | ((with_reducible refine proj_mk_trans ?_ ?_); · ((fail_if_success with_reducible rfl); rfl))
    | (with_reducible refine (some_eq (by assumption) (takeDescAny_frame (by decide) _ _)).trans ?_)
    | (with_reducible refine (schedule_frame (by decide) _ _ _ _ ?_).trans ?_)
    | (with_reducible intro _)
    | split

theorem scanVec_frame {m0 : Nat} (hm0 : m0 &&& 2952790068 = 2952790068) (p : CtxPart) (ws : List W64) (s : State) :
    proj m0 (scanVec p ws s).2 = proj m0 s := by
  refine proj_mono hm0 ?_
  have key : ∀ (l : List W64) (a : VecScan), proj 2952790068 (l.foldl (scanWord p) a).s = proj 2952790068 a.s := by
    intro l
    induction l with
    | nil => intro a; rfl
    | cons w l ih =>
      intro a
      rw [List.foldl_cons, ih]
      exact vecFollow_frame (by decide) _ _ _
  exact (key _ _).trans (modCore_frame (by decide) _ _ _)

theorem freeSlotTables_frame {m0 : Nat} (hm0 : m0 &&& 3020865568 = 3020865568) (sl : SlotId) (s : State) :
    proj m0 (freeSlotTables sl s) = proj m0 s := by
  refine proj_mono hm0 ?_
  unfold freeSlotTables
  try dsimp -proj only
  repeat' first
    | simp +decide only [↓modTbl_frame, ↓freeTable_frame, ↓proj_ite, ↓proj_iteP, ite_self]
    | (with_reducible refine (foldl_proj _ _ ?_ _).trans ?_; intro _ _)
    | (with_reducible refine (foldl_projP _ _ ?_ _).trans ?_; intro _ _)
    | ((with_reducible refine proj_mk_trans ?_ ?_); · ((fail_if_success with_reducible rfl); rfl))
    | split

theorem clearSlot_frame {m0 : Nat} (hm0 : m0 &&& 3037642980 = 3037642980) (sl : SlotId) (s : State) :
    proj m0 (clearSlot sl s) = proj m0 s := by
  refine proj_mono hm0 ?_
  unfold clearSlot
  dsimp -proj only
  with_reducible refine proj_mk_trans ?_ ?_
  · simp +decide only [proj, ↓reduceIte]
  with_reducible refine proj_mk_trans ?_ ?_
  · simp +decide only [proj, ↓reduceIte]
  · exact (releaseStands_frame (by decide) _ _).trans (freeSlotTables_frame (by decide) _ _)

theorem placeStands_frame {m0 : Nat} (hm0 : m0 &&& 3020079140 = 3020079140) (sl : SlotId) (im : Image) (s : State) :
    proj m0 (placeStands sl im s).2 = proj m0 s := by
  refine proj_mono hm0 ?_
  unfold placeStands
  try dsimp -proj only
  repeat' first
    | simp +decide only [↓segWords_frame, ↓modCore_frame, ↓proj_ite, ↓proj_iteP, ite_self]
    | (with_reducible refine (foldl_proj _ _ ?_ _).trans ?_; intro _ _)
    | (with_reducible refine (foldl_projP _ _ ?_ _).trans ?_; intro _ _)
    | ((with_reducible refine proj_mk_trans ?_ ?_); · ((fail_if_success with_reducible rfl); rfl))
    | (with_reducible refine (snd_eq (by assumption) (segWords_frame (by decide) _ _ _ _)).trans ?_)
    | split

theorem writeOverhang_frame {m0 : Nat} (hm0 : m0 &&& 268828672 = 268828672) (sl : SlotId) (d : Desc) (units : List (Nat × Bytes)) (s : State) :
    proj m0 (writeOverhang sl d units s) = proj m0 s := by
  refine proj_mono hm0 ?_
  unfold writeOverhang
  try dsimp -proj only
  repeat' first
    | simp +decide only [↓copiesWrite_frame, ↓proj_ite, ↓proj_iteP, ite_self]
    | (with_reducible refine (foldl_proj _ _ ?_ _).trans ?_; intro _ _)
    | (with_reducible refine (foldl_projP _ _ ?_ _).trans ?_; intro _ _)
    | ((with_reducible refine proj_mk_trans ?_ ?_); · ((fail_if_success with_reducible rfl); rfl))
    | split

theorem writeSections_frame {m0 : Nat} (hm0 : m0 &&& 3020079136 = 3020079136) (content : Bytes) (im : Image) (s : State) :
    proj m0 (writeSections content im s) = proj m0 s := by
  refine proj_mono hm0 ?_
  unfold writeSections
  try dsimp -proj only
  repeat' first
    | simp +decide only [↓writeDpa_frame, ↓proj_ite, ↓proj_iteP, ite_self]
    | (with_reducible refine (foldl_proj _ _ ?_ _).trans ?_; intro _ _)
    | (with_reducible refine (foldl_projP _ _ ?_ _).trans ?_; intro _ _)
    | ((with_reducible refine proj_mk_trans ?_ ?_); · ((fail_if_success with_reducible rfl); rfl))
    | split

theorem scanTable_frame {m0 : Nat} (hm0 : m0 &&& 524288 = 524288) (t : Nat) (s : State) :
    proj m0 (scanTable t s) = proj m0 s := by
  refine proj_mono hm0 ?_
  unfold scanTable
  try dsimp -proj only
  repeat' first
    | simp +decide only [↓setTbl_frame, ↓proj_ite, ↓proj_iteP, ite_self]
    | (with_reducible refine (foldl_proj _ _ ?_ _).trans ?_; intro _ _)
    | (with_reducible refine (foldl_projP _ _ ?_ _).trans ?_; intro _ _)
    | ((with_reducible refine proj_mk_trans ?_ ?_); · ((fail_if_success with_reducible rfl); rfl))
    | split

theorem installImage_frame {m0 : Nat} (hm0 : m0 &&& 3020868644 = 3020868644) (sl : SlotId) (d : Desc) (hash : Bytes) (content : Bytes) (ks : List Nat) (im : Image) (s : State) :
    proj m0 (installImage sl d hash content ks im s) = proj m0 s := by
  refine proj_mono hm0 ?_
  unfold installImage
  try dsimp -proj only
  repeat' first
    | simp +decide only [↓addRegions_frame, ↓writeSections_frame, ↓writeOverhang_frame, ↓setTbl_frame, ↓scanTable_frame, ↓modTbl_frame, ↓setSlot_frame, ↓placeStands_frame, ↓proj_ite, ↓proj_iteP, ite_self]
    | (with_reducible refine (foldl_proj _ _ ?_ _).trans ?_; intro _ _)
    | (with_reducible refine (foldl_projP _ _ ?_ _).trans ?_; intro _ _)
    | ((with_reducible refine proj_mk_trans ?_ ?_); · ((fail_if_success with_reducible rfl); rfl))
    | split

theorem execLoadImage_frame {m0 : Nat} (hm0 : m0 &&& 3037644004 = 3037644004) (s : State) :
    outProj m0 s (execLoadImage s) := by
  refine outProj_mono hm0 ?_
  unfold execLoadImage
  try dsimp -proj only
  repeat' first
    | (with_reducible refine outProj_next ?_)
    | (with_reducible refine ite_projR ?_ ?_)
    | (with_reducible exact takeDesc_frame (by decide) _ _)
    | simp +decide only [↓completeBare_frame, ↓setSlot_frame, ↓clearSlot_frame, ↓proj_ite, ↓proj_iteP, ite_self]
    | ((with_reducible refine proj_mk_trans ?_ ?_); · ((fail_if_success with_reducible rfl); rfl))
    | (with_reducible refine (some_eq (by assumption) (takeDesc_frame (by decide) _ _)).trans ?_)
    | split

theorem execLoadImageEnd_frame {m0 : Nat} (hm0 : m0 &&& 3037646052 = 3037646052) (slot : SlotId) (env : Bytes) (content : Bytes) (img : Image) (s : State) :
    outProj m0 s (execLoadImageEnd slot env content img s) := by
  refine outProj_mono hm0 ?_
  unfold execLoadImageEnd
  try dsimp -proj only
  repeat' first
    | (with_reducible refine outProj_next ?_)
    | (with_reducible refine ite_projR ?_ ?_)
    | simp +decide only [↓modSlot_frame, ↓complete_frame, ↓completeBare_frame, ↓incCnt_frame, ↓addCnt_frame, ↓clearSlot_frame, ↓placeStands_frame, ↓installImage_frame, ↓proj_ite, ↓proj_iteP, ite_self]
    | ((with_reducible refine proj_mk_trans ?_ ?_); · ((fail_if_success with_reducible rfl); rfl))
    | (with_reducible refine (snd_eq (by assumption) (placeStands_frame (by decide) _ _ _)).trans ?_)
    | split

theorem beginReload_frame {m0 : Nat} (hm0 : m0 &&& 3020080164 = 3020080164) (sl : SlotId) (s : State) :
    proj m0 (beginReload sl s).2 = proj m0 s := by
  refine proj_mono hm0 ?_
  unfold beginReload
  try dsimp -proj only
  repeat' first
    | simp +decide only [↓placeStands_frame, ↓modSlot_frame, ↓proj_ite, ↓proj_iteP, ite_self]
    | ((with_reducible refine proj_mk_trans ?_ ?_); · ((fail_if_success with_reducible rfl); rfl))
    | (with_reducible refine (snd_eq (by assumption) (placeStands_frame (by decide) _ _ _)).trans ?_)
    | split

theorem recopy_frame {m0 : Nat} (hm0 : m0 &&& 33554432 = 33554432) (s : State) : proj m0 (recopy s) = proj m0 s := by
  refine proj_mono hm0 ?_
  unfold recopy
  try dsimp -proj only
  repeat' first
    | simp +decide only [↓proj_ite, ↓proj_iteP, ite_self]
    | ((with_reducible refine proj_mk_trans ?_ ?_); · ((fail_if_success with_reducible rfl); rfl))
    | split

theorem switchSlot_frame {m0 : Nat} (hm0 : m0 &&& 3082030588 = 3082030588) (d : Desc) (s : State) :
    proj m0 (switchSlot d s) = proj m0 s := by
  refine proj_mono hm0 ?_
  unfold switchSlot
  try dsimp -proj only
  repeat' first
    | simp +decide only [↓complete_frame, ↓sealPast_frame, ↓sealWhere_frame, ↓modSlot_frame, ↓lateUnits_frame, ↓decideCarried_frame, ↓devEvent_frame, ↓recopy_frame, ↓proj_ite, ↓proj_iteP, ite_self]
    | ((with_reducible refine proj_mk_trans ?_ ?_); · ((fail_if_success with_reducible rfl); rfl))
    | split

theorem activate_frame {m0 : Nat} (hm0 : m0 &&& 3082210812 = 3082210812) (d : Desc) (s : State) :
    proj m0 (activate d s) = proj m0 s := by
  refine proj_mono hm0 ?_
  unfold activate
  try dsimp -proj only
  repeat' first
    | simp +decide only [↓completeBare_frame, ↓beginReload_frame, ↓complete_frame, ↓switchSlot_frame, ↓proj_ite, ↓proj_iteP, ite_self]
    | ((with_reducible refine proj_mk_trans ?_ ?_); · ((fail_if_success with_reducible rfl); rfl))
    | split

theorem execActivateSlot_frame {m0 : Nat} (hm0 : m0 &&& 3082210812 = 3082210812) (s : State) :
    outProj m0 s (execActivateSlot s) := by
  refine outProj_mono hm0 ?_
  unfold execActivateSlot
  try dsimp -proj only
  repeat' first
    | (with_reducible refine outProj_next ?_)
    | (with_reducible refine ite_projR ?_ ?_)
    | (with_reducible exact takeDescAny_frame (by decide) _ _)
    | simp +decide only [↓completeBare_frame, ↓beginReload_frame, ↓complete_frame, ↓activate_frame, ↓proj_ite, ↓proj_iteP, ite_self]
    | ((with_reducible refine proj_mk_trans ?_ ?_); · ((fail_if_success with_reducible rfl); rfl))
    | (with_reducible refine (some_eq (by assumption) (takeDescAny_frame (by decide) _ _)).trans ?_)
    | (with_reducible refine (snd_eq (by assumption) (beginReload_frame (by decide) _ _)).trans ?_)
    | split

theorem runSwitches_frame {m0 : Nat} (hm0 : m0 &&& 3082210812 = 3082210812) (s : State) :
    proj m0 (runSwitches s) = proj m0 s := by
  refine proj_mono hm0 ?_
  unfold runSwitches
  try dsimp -proj only
  repeat' first
    | simp +decide only [↓activate_frame, ↓completeBare_frame, ↓proj_ite, ↓proj_iteP, ite_self]
    | (with_reducible refine (foldl_proj _ _ ?_ _).trans ?_; intro _ _)
    | (with_reducible refine (foldl_projP _ _ ?_ _).trans ?_; intro _ _)
    | ((with_reducible refine proj_mk_trans ?_ ?_); · ((fail_if_success with_reducible rfl); rfl))
    | split

theorem execStandReloadEnd_frame {m0 : Nat} (hm0 : m0 &&& 3082210812 = 3082210812) (slot : SlotId) (s : State) :
    outProj m0 s (execStandReloadEnd slot s) := by
  refine outProj_mono hm0 ?_
  unfold execStandReloadEnd
  try dsimp -proj only
  repeat' first
    | (with_reducible refine outProj_next ?_)
    | (with_reducible refine ite_projR ?_ ?_)
    | simp +decide only [↓runSwitches_frame, ↓modSlot_frame, ↓proj_ite, ↓proj_iteP, ite_self]
    | ((with_reducible refine proj_mk_trans ?_ ?_); · ((fail_if_success with_reducible rfl); rfl))
    | split

theorem freezeDesc_frame {m0 : Nat} (hm0 : m0 &&& 4026800128 = 4026800128) (d : Desc) (s : State) :
    proj m0 (freezeDesc d s) = proj m0 s := by
  refine proj_mono hm0 ?_
  unfold freezeDesc
  try dsimp -proj only
  repeat' first
    | simp +decide only [↓takeFreeze_frame, ↓complete_frame, ↓completeBare_frame, ↓proj_ite, ↓proj_iteP, ite_self]
    | ((with_reducible refine proj_mk_trans ?_ ?_); · ((fail_if_success with_reducible rfl); rfl))
    | (with_reducible refine (snd_eq (by assumption) (takeFreeze_frame (by decide) _ _ _)).trans ?_)
    | split

theorem takeDue_frame {m0 : Nat} (hm0 : m0 &&& 262144 = 262144) (kind : SchedKind → Bool) (s : State) :
    proj m0 (takeDue kind s).2 = proj m0 s := by
  refine proj_mono hm0 ?_
  unfold takeDue
  try dsimp -proj only
  repeat' first
    | simp +decide only [↓proj_ite, ↓proj_iteP, ite_self]
    | ((with_reducible refine proj_mk_trans ?_ ?_); · ((fail_if_success with_reducible rfl); rfl))
    | (with_reducible intro _)
    | split

theorem runFreezes_frame {m0 : Nat} (hm0 : m0 &&& 4026800128 = 4026800128) (s : State) :
    proj m0 (runFreezes s) = proj m0 s := by
  refine proj_mono hm0 ?_
  unfold runFreezes
  try dsimp -proj only
  repeat' first
    | simp +decide only [↓takeDue_frame, ↓freezeDesc_frame, ↓proj_ite, ↓proj_iteP, ite_self]
    | (with_reducible refine (foldl_proj _ _ ?_ _).trans ?_; intro _ _)
    | (with_reducible refine (foldl_projP _ _ ?_ _).trans ?_; intro _ _)
    | ((with_reducible refine proj_mk_trans ?_ ?_); · ((fail_if_success with_reducible rfl); rfl))
    | split

theorem runConfigs_frame {m0 : Nat} (hm0 : m0 &&& 3221224958 = 3221224958) (s : State) :
    proj m0 (runConfigs s) = proj m0 s := by
  refine proj_mono hm0 ?_
  unfold runConfigs
  try dsimp -proj only
  repeat' first
    | simp +decide only [↓takeDue_frame, ↓cfgChange_frame, ↓proj_ite, ↓proj_iteP, ite_self]
    | (with_reducible refine (foldl_proj _ _ ?_ _).trans ?_; intro _ _)
    | (with_reducible refine (foldl_projP _ _ ?_ _).trans ?_; intro _ _)
    | ((with_reducible refine proj_mk_trans ?_ ?_); · ((fail_if_success with_reducible rfl); rfl))
    | split

theorem runProts_frame {m0 : Nat} (hm0 : m0 &&& 262144 = 262144) (s : State) : proj m0 (runProts s) = proj m0 s := by
  refine proj_mono hm0 ?_
  unfold runProts
  try dsimp -proj only
  repeat' first
    | simp +decide only [↓proj_ite, ↓proj_iteP, ite_self]
    | (with_reducible refine (foldl_proj _ _ ?_ _).trans ?_; intro _ _)
    | (with_reducible refine (foldl_projP _ _ ?_ _).trans ?_; intro _ _)
    | ((with_reducible refine proj_mk_trans ?_ ?_); · ((fail_if_success with_reducible rfl); rfl))
    | split

theorem execLaunchEdge_frame {m0 : Nat} (hm0 : m0 &&& 4294966782 = 4294966782) (s : State) :
    outProj m0 s (execLaunchEdge s) := by
  refine outProj_mono hm0 ?_
  unfold execLaunchEdge
  try dsimp -proj only
  repeat' first
    | (with_reducible refine outProj_next ?_)
    | simp +decide only [↓endOfShares_frame, ↓launchReams_frame, ↓commitBatches_frame, ↓runProts_frame, ↓runSwitches_frame, ↓runConfigs_frame, ↓runFreezes_frame, ↓proj_ite, ↓proj_iteP, ite_self]
    | ((with_reducible refine proj_mk_trans ?_ ?_); · ((fail_if_success with_reducible rfl); rfl))
    | split

theorem modSq_frame {m0 : Nat} (hm0 : m0 &&& 262144 = 262144) (p : HPort) (i : Nat) (f : Sq → Sq) (s : State) :
    proj m0 (modSq p i f s) = proj m0 s := by
  refine proj_mono hm0 ?_
  unfold modSq
  try dsimp -proj only
  repeat' first
    | simp +decide only [↓setSq_frame, ↓proj_ite, ↓proj_iteP, ite_self]
    | ((with_reducible refine proj_mk_trans ?_ ?_); · ((fail_if_success with_reducible rfl); rfl))
    | split

theorem ringError_frame {m0 : Nat} (hm0 : m0 &&& 268697600 = 268697600) (p : HPort) (i : Nat) (code : Nat) (s : State) :
    proj m0 (ringError p i code s) = proj m0 s := by
  refine proj_mono hm0 ?_
  unfold ringError
  try dsimp -proj only
  repeat' first
    | simp +decide only [↓hifEvent_frame, ↓modSq_frame, ↓proj_ite, ↓proj_iteP, ite_self]
    | ((with_reducible refine proj_mk_trans ?_ ?_); · ((fail_if_success with_reducible rfl); rfl))
    | split

theorem execSqDoorbell_frame {m0 : Nat} (hm0 : m0 &&& 268697600 = 268697600) (p : HPort) (i : RingId) (value : W32) (s : State) :
    outProj m0 s (execSqDoorbell p i value s) := by
  refine outProj_mono hm0 ?_
  unfold execSqDoorbell
  try dsimp -proj only
  repeat' first
    | (with_reducible refine outProj_next ?_)
    | simp +decide only [↓modSq_frame, ↓ringError_frame, ↓proj_ite, ↓proj_iteP, ite_self]
    | ((with_reducible refine proj_mk_trans ?_ ?_); · ((fail_if_success with_reducible rfl); rfl))
    | split

theorem execCqDoorbell_frame {m0 : Nat} (hm0 : m0 &&& 268697600 = 268697600) (p : HPort) (i : RingId) (value : W32) (s : State) :
    outProj m0 s (execCqDoorbell p i value s) := by
  refine outProj_mono hm0 ?_
  unfold execCqDoorbell
  try dsimp -proj only
  repeat' first
    | (with_reducible refine outProj_next ?_)
    | (with_reducible refine ite_projR ?_ ?_)
    | simp +decide only [↓hifEvent_frame, ↓setCq_frame, ↓proj_ite, ↓proj_iteP, ite_self]
    | ((with_reducible refine proj_mk_trans ?_ ?_); · ((fail_if_success with_reducible rfl); rfl))
    | split

theorem execSqLineSnoop_frame {m0 : Nat} (hm0 : m0 &&& 262144 = 262144) (p : HPort) (i : RingId) (flags : Byte) (s : State) :
    outProj m0 s (execSqLineSnoop p i flags s) := by
  refine outProj_mono hm0 ?_
  unfold execSqLineSnoop
  try dsimp -proj only
  repeat' first
    | (with_reducible refine outProj_next ?_)
    | (with_reducible refine ite_projR ?_ ?_)
    | simp +decide only [↓setSq_frame, ↓proj_ite, ↓proj_iteP, ite_self]
    | ((with_reducible refine proj_mk_trans ?_ ?_); · ((fail_if_success with_reducible rfl); rfl))
    | split

theorem writeRingCfg_frame {m0 : Nat} (hm0 : m0 &&& 3038785794 = 3038785794) (p : HPort) (o : Nat) (mask : Nat) (v : Nat) (s : State) :
    proj m0 (writeRingCfg p o mask v s) = proj m0 s := by
  refine proj_mono hm0 ?_
  unfold writeRingCfg
  try dsimp -proj only
  repeat' first
    | simp +decide only [↓applyReg_frame, ↓proj_ite, ↓proj_iteP, ite_self]
    | ((with_reducible refine proj_mk_trans ?_ ?_); · ((fail_if_success with_reducible rfl); rfl))
    | split

theorem execSqEnable_frame {m0 : Nat} (hm0 : m0 &&& 3039047938 = 3039047938) (p : HPort) (i : RingId) (cfg : W32) (s : State) :
    outProj m0 s (execSqEnable p i cfg s) := by
  refine outProj_mono hm0 ?_
  unfold execSqEnable
  try dsimp -proj only
  repeat' first
    | (with_reducible refine outProj_next ?_)
    | (with_reducible refine ite_projR ?_ ?_)
    | simp +decide only [↓writeRingCfg_frame, ↓setRegF_frame, ↓modSq_frame, ↓proj_ite, ↓proj_iteP, ite_self]
    | ((with_reducible refine proj_mk_trans ?_ ?_); · ((fail_if_success with_reducible rfl); rfl))
    | split

theorem execSqDisable_frame {m0 : Nat} (hm0 : m0 &&& 3039047938 = 3039047938) (p : HPort) (i : RingId) (cfg : W32) (s : State) :
    outProj m0 s (execSqDisable p i cfg s) := by
  refine outProj_mono hm0 ?_
  unfold execSqDisable
  try dsimp -proj only
  repeat' first
    | (with_reducible refine outProj_next ?_)
    | (with_reducible refine ite_projR ?_ ?_)
    | simp +decide only [↓writeRingCfg_frame, ↓dropFetched_frame, ↓setRegF_frame, ↓modSq_frame, ↓proj_ite, ↓proj_iteP, ite_self]
    | ((with_reducible refine proj_mk_trans ?_ ?_); · ((fail_if_success with_reducible rfl); rfl))
    | split

theorem execSqStopped_frame {m0 : Nat} (hm0 : m0 &&& 262144 = 262144) (p : HPort) (i : RingId) (s : State) :
    outProj m0 s (execSqStopped p i s) := by
  refine outProj_mono hm0 ?_
  unfold execSqStopped
  try dsimp -proj only
  repeat' first
    | (with_reducible refine outProj_next ?_)
    | (with_reducible refine ite_projR ?_ ?_)
    | simp +decide only [↓setSq_frame, ↓proj_ite, ↓proj_iteP, ite_self]
    | ((with_reducible refine proj_mk_trans ?_ ?_); · ((fail_if_success with_reducible rfl); rfl))
    | split

theorem execCqEnable_frame {m0 : Nat} (hm0 : m0 &&& 3039047938 = 3039047938) (p : HPort) (i : RingId) (cfg : W32) (s : State) :
    outProj m0 s (execCqEnable p i cfg s) := by
  refine outProj_mono hm0 ?_
  unfold execCqEnable
  try dsimp -proj only
  repeat' first
    | (with_reducible refine outProj_next ?_)
    | (with_reducible refine ite_projR ?_ ?_)
    | simp +decide only [↓writeRingCfg_frame, ↓setRegF_frame, ↓setCq_frame, ↓proj_ite, ↓proj_iteP, ite_self]
    | ((with_reducible refine proj_mk_trans ?_ ?_); · ((fail_if_success with_reducible rfl); rfl))
    | split

theorem execCqCoalesceTimer_frame {m0 : Nat} (hm0 : m0 &&& 262144 = 262144) (p : HPort) (i : RingId) (s : State) :
    outProj m0 s (execCqCoalesceTimer p i s) := by
  refine outProj_mono hm0 ?_
  unfold execCqCoalesceTimer
  try dsimp -proj only
  repeat' first
    | (with_reducible refine outProj_next ?_)
    | (with_reducible refine ite_projR ?_ ?_)
    | simp +decide only [↓sendIrq_frame, ↓setCq_frame, ↓proj_ite, ↓proj_iteP, ite_self]
    | ((with_reducible refine proj_mk_trans ?_ ?_); · ((fail_if_success with_reducible rfl); rfl))
    | split

theorem execDescriptorFetch_frame {m0 : Nat} (hm0 : m0 &&& 268697600 = 268697600) (p : HPort) (i : RingId) (line : Option Bytes) (s : State) :
    outProj m0 s (execDescriptorFetch p i line s) := by
  refine outProj_mono hm0 ?_
  unfold execDescriptorFetch
  try dsimp -proj only
  repeat' first
    | (with_reducible refine outProj_next ?_)
    | (with_reducible refine ite_projR ?_ ?_)
    | simp +decide only [↓ringError_frame, ↓setSq_frame, ↓setCq_frame, ↓modPort_frame, ↓proj_ite, ↓proj_iteP, ite_self]
    | ((with_reducible refine proj_mk_trans ?_ ?_); · ((fail_if_success with_reducible rfl); rfl))
    | split

theorem execDescriptorAccept_frame {m0 : Nat} (hm0 : m0 &&& 2953052160 = 2953052160) (p : HPort) (i : RingId) (s : State) :
    outProj m0 s (execDescriptorAccept p i s) := by
  refine outProj_mono hm0 ?_
  unfold execDescriptorAccept
  try dsimp -proj only
  repeat' first
    | (with_reducible refine outProj_next ?_)
    | (with_reducible refine ite_projR ?_ ?_)
    | (with_reducible exact allocLaunch_frame (by decide) _ _ _)
    | simp +decide only [↓setSq_frame, ↓stampSub_frame, ↓complete_frame, ↓completeBare_frame, ↓notePast_frame, ↓proj_ite, ↓proj_iteP, ite_self]
    | ((with_reducible refine proj_mk_trans ?_ ?_); · ((fail_if_success with_reducible rfl); rfl))
    | (with_reducible refine (snd_eq (by assumption) (stampSub_frame (by decide) _ _)).trans ?_)
    | (with_reducible refine (some_eq (by assumption) (allocLaunch_frame (by decide) _ _ _)).trans ?_)
    | (with_reducible refine (some_eq (by assumption) (ite_projO (optProj_some rfl) (allocLaunch_frame (by decide) _ _ _))).trans ?_)
    | (with_reducible intro _)
    | split

theorem forwardBatch_frame {m0 : Nat} (hm0 : m0 &&& 572522496 = 572522496) (t : TableId) (recs : List BatchRec) (d : Desc) (s : State) :
    proj m0 (forwardBatch t recs d s) = proj m0 s := by
  refine proj_mono hm0 ?_
  unfold forwardBatch
  try dsimp -proj only
  repeat' first
    | simp +decide only [↓sendSeq_frame, ↓proj_ite, ↓proj_iteP, ite_self]
    | (with_reducible refine (foldl_proj _ _ ?_ _).trans ?_; intro _ _)
    | (with_reducible refine (foldl_projP _ _ ?_ _).trans ?_; intro _ _)
    | ((with_reducible refine proj_mk_trans ?_ ?_); · ((fail_if_success with_reducible rfl); rfl))
    | split

theorem batchList_frame {m0 : Nat} (hm0 : m0 &&& 3020079136 = 3020079136) (d : Desc) (list : Bytes) (s : State) :
    proj m0 (batchList d list s).2 = proj m0 s := by
  refine proj_mono hm0 ?_
  unfold batchList
  try dsimp -proj only
  repeat' first
    | simp +decide only [↓readDpa_frame, ↓proj_ite, ↓proj_iteP, ite_self]
    | ((with_reducible refine proj_mk_trans ?_ ?_); · ((fail_if_success with_reducible rfl); rfl))
    | split

theorem execTableBatch_frame {m0 : Nat} (hm0 : m0 &&& 3056517152 = 3056517152) (src : BatchSrc) (s : State) :
    outProj m0 s (execTableBatch src s) := by
  refine outProj_mono hm0 ?_
  unfold execTableBatch
  try dsimp -proj only
  repeat' first
    | (with_reducible refine outProj_next ?_)
    | (with_reducible refine ite_projR ?_ ?_)
    | (with_reducible exact takeDescAny_frame (by decide) _ _)
    | simp +decide only [↓completeBare_frame, ↓complete_frame, ↓batchList_frame, ↓forwardBatch_frame, ↓queueChange_frame, ↓proj_ite, ↓proj_iteP, ite_self]
    | ((with_reducible refine proj_mk_trans ?_ ?_); · ((fail_if_success with_reducible rfl); rfl))
    | (with_reducible refine (some_eq (by assumption) (takeDescAny_frame (by decide) _ _)).trans ?_)
    | (with_reducible refine (snd_eq (by assumption) (batchList_frame (by decide) _ _ _)).trans ?_)
    | split

theorem execInfer_frame {m0 : Nat} (hm0 : m0 &&& 2978218240 = 2978218240) (body : Bytes) (s : State) :
    outProj m0 s (execInfer body s) := by
  refine outProj_mono hm0 ?_
  unfold execInfer
  try dsimp -proj only
  repeat' first
    | (with_reducible refine outProj_next ?_)
    | (with_reducible refine ite_projR ?_ ?_)
    | simp +decide only [↓completeBare_frame, ↓inferAnswer_frame, ↓emitTrace_frame, ↓incCnt_frame, ↓offer_frame, ↓setReq_frame, ↓proj_ite, ↓proj_iteP, ite_self]
    | ((with_reducible refine proj_mk_trans ?_ ?_); · ((fail_if_success with_reducible rfl); rfl))
    | (with_reducible refine (snd_eq (by assumption) (inferAnswer_frame (by decide) _ _ _ _ _ _ _)).trans ?_)
    | split

theorem execProtCommit_frame {m0 : Nat} (hm0 : m0 &&& 805568512 = 805568512) (p : HPort) (value : W32) (s : State) :
    outProj m0 s (execProtCommit p value s) := by
  refine outProj_mono hm0 ?_
  unfold execProtCommit
  try dsimp -proj only
  repeat' first
    | (with_reducible refine outProj_next ?_)
    | (with_reducible refine ite_projR ?_ ?_)
    | simp +decide only [↓discardRws_frame, ↓setRegF_frame, ↓notePast_frame, ↓proj_ite, ↓proj_iteP, ite_self]
    | ((with_reducible refine proj_mk_trans ?_ ?_); · ((fail_if_success with_reducible rfl); rfl))
    | split

end Sys2Proof.Machine
end

