-- ==== Sys2Proof/Laws/FrameBoot.lean ====
section
/-! SUPPORT. What each operation of Observe.lean, Boot.lean, Receive.lean, Issue.lean, Tick.lean leaves: one lemma each, by Frame.lean. -/

set_option maxRecDepth 8000
set_option linter.all false

namespace Sys2Proof.Machine

theorem traceOut_frame {m0 : Nat} (hm0 : m0 &&& 2147483648 = 2147483648) (w : FifoWord) (s : State) :
    proj m0 (traceOut w s).2 = proj m0 s := by
  refine proj_mono hm0 ?_
  unfold traceOut
  try dsimp -proj only
  repeat' first
    | simp +decide only [↓drawFree_frame, ↓proj_ite, ↓proj_iteP, ite_self]
    | ((with_reducible refine proj_mk_trans ?_ ?_); · ((fail_if_success with_reducible rfl); rfl))
    | split

theorem popTrace_frame {m0 : Nat} (hm0 : m0 &&& 2147483904 = 2147483904) (n : Nat) (s : State) :
    proj m0 (popTrace n s).2 = proj m0 s := by
  refine proj_mono hm0 ?_
  unfold popTrace
  try dsimp -proj only
  repeat' first
    | simp +decide only [↓traceOut_frame, ↓proj_ite, ↓proj_iteP, ite_self]
    | ((with_reducible refine proj_mk_trans ?_ ?_); · ((fail_if_success with_reducible rfl); rfl))
    | (with_reducible refine (snd_eq (by assumption) (traceOut_frame (by decide) _ _)).trans ?_)
    | split

theorem popStream_frame {m0 : Nat} (hm0 : m0 &&& 2147483904 = 2147483904) (n : Nat) (a1 : Nat) (a2 : List Nat) (a3 : State) :
    proj m0 (popStream n a1 a2 a3).2 = proj m0 a3 := by
  refine proj_mono hm0 ?_
  fun_induction popStream n a1 a2 a3
  try dsimp -proj only
  repeat' first
    | simp +decide only [↓popTrace_frame, ↓proj_ite, ↓proj_iteP, ite_self]
    | ((with_reducible refine proj_mk_trans ?_ ?_); · ((fail_if_success with_reducible rfl); rfl))
    | (with_reducible refine (snd_eq (by assumption) (popTrace_frame (by decide) _ _)).trans ?_)
    | (with_reducible refine Eq.trans (by assumption) ?_)
    | (with_reducible refine (snd_eq (by assumption) (by assumption)).trans ?_)
    | (with_reducible refine (trip_eq (by assumption) (by assumption)).trans ?_)
    | (with_reducible intro _)
    | (dsimp -proj +zetaDelta only)
    | split

theorem popRecords_frame {m0 : Nat} (hm0 : m0 &&& 2147483904 = 2147483904) (max : Nat) (s : State) :
    proj m0 (popRecords max s).2 = proj m0 s := by
  refine proj_mono hm0 ?_
  unfold popRecords
  try dsimp -proj only
  repeat' first
    | simp +decide only [↓drawFree_frame, ↓popStream_frame, ↓proj_ite, ↓proj_iteP, ite_self]
    | (with_reducible refine (foldl_proj _ _ ?_ _).trans ?_; intro _ _)
    | (with_reducible refine (foldl_projP _ _ ?_ _).trans ?_; intro _ _)
    | ((with_reducible refine proj_mk_trans ?_ ?_); · ((fail_if_success with_reducible rfl); rfl))
    | split

theorem execTraceFrame_frame {m0 : Nat} (hm0 : m0 &&& 2147492096 = 2147492096) (s : State) :
    outProj m0 s (execTraceFrame s) := by
  refine outProj_mono hm0 ?_
  unfold execTraceFrame
  try dsimp -proj only
  repeat' first
    | (with_reducible refine outProj_next ?_)
    | (with_reducible refine ite_projR ?_ ?_)
    | simp +decide only [↓popRecords_frame, ↓proj_ite, ↓proj_iteP, ite_self]
    | ((with_reducible refine proj_mk_trans ?_ ?_); · ((fail_if_success with_reducible rfl); rfl))
    | split

theorem drainRecs_frame {m0 : Nat} (hm0 : m0 &&& 268697600 = 268697600) (rs : List Nat) (s : State) :
    proj m0 (drainRecs rs s) = proj m0 s := by
  refine proj_mono hm0 ?_
  unfold drainRecs
  try dsimp -proj only
  repeat' first
    | simp +decide only [↓setRegW_frame, ↓hostWrite_frame, ↓proj_ite, ↓proj_iteP, ite_self]
    | (with_reducible refine (foldl_proj _ _ ?_ _).trans ?_; intro _ _)
    | (with_reducible refine (foldl_projP _ _ ?_ _).trans ?_; intro _ _)
    | ((with_reducible refine proj_mk_trans ?_ ?_); · ((fail_if_success with_reducible rfl); rfl))
    | split

theorem execDrainWrite_frame {m0 : Nat} (hm0 : m0 &&& 2953052416 = 2953052416) (n : Nat) (s : State) :
    outProj m0 s (execDrainWrite n s) := by
  refine outProj_mono hm0 ?_
  unfold execDrainWrite
  try dsimp -proj only
  repeat' first
    | (with_reducible refine outProj_next ?_)
    | (with_reducible refine ite_projR ?_ ?_)
    | simp +decide only [↓popRecords_frame, ↓addCnt_frame, ↓drainRecs_frame, ↓hostWrite_frame, ↓proj_ite, ↓proj_iteP, ite_self]
    | ((with_reducible refine proj_mk_trans ?_ ?_); · ((fail_if_success with_reducible rfl); rfl))
    | split

theorem execDrainRiWrite_frame {m0 : Nat} (hm0 : m0 &&& 268435456 = 268435456) (p : HPort) (value : W32) (s : State) :
    outProj m0 s (execDrainRiWrite p value s) := by
  refine outProj_mono hm0 ?_
  unfold execDrainRiWrite
  try dsimp -proj only
  repeat' first
    | (with_reducible refine outProj_next ?_)
    | (with_reducible refine ite_projR ?_ ?_)
    | simp +decide only [↓setRegF_frame, ↓proj_ite, ↓proj_iteP, ite_self]
    | ((with_reducible refine proj_mk_trans ?_ ?_); · ((fail_if_success with_reducible rfl); rfl))
    | split

theorem execFreeze_frame {m0 : Nat} (hm0 : m0 &&& 4026800128 = 4026800128) (s : State) : outProj m0 s (execFreeze s) := by
  refine outProj_mono hm0 ?_
  unfold execFreeze
  try dsimp -proj only
  repeat' first
    | (with_reducible refine outProj_next ?_)
    | (with_reducible exact takeDescAny_frame (by decide) _ _)
    | simp +decide only [↓freezeDesc_frame, ↓proj_ite, ↓proj_iteP, ite_self]
    | ((with_reducible refine proj_mk_trans ?_ ?_); · ((fail_if_success with_reducible rfl); rfl))
    | (with_reducible refine (some_eq (by assumption) (takeDescAny_frame (by decide) _ _)).trans ?_)
    | (with_reducible refine (schedule_frame (by decide) _ _ _ _ ?_).trans ?_)
    | (with_reducible intro _)
    | split

theorem execFreezeAtMatch_frame {m0 : Nat} (hm0 : m0 &&& 1879054336 = 1879054336) (s : State) :
    outProj m0 s (execFreezeAtMatch s) := by
  refine outProj_mono hm0 ?_
  unfold execFreezeAtMatch
  try dsimp -proj only
  repeat' first
    | (with_reducible refine outProj_next ?_)
    | (with_reducible refine ite_projR ?_ ?_)
    | simp +decide only [↓setRegF_frame, ↓takeFreeze_frame, ↓proj_ite, ↓proj_iteP, ite_self]
    | ((with_reducible refine proj_mk_trans ?_ ?_); · ((fail_if_success with_reducible rfl); rfl))
    | split

theorem execFreezeInEdge_frame {m0 : Nat} (hm0 : m0 &&& 4096 = 4096) (s : State) : outProj m0 s (execFreezeInEdge s) := by
  refine outProj_mono hm0 ?_
  unfold execFreezeInEdge
  try dsimp -proj only
  repeat' first
    | (with_reducible refine outProj_next ?_)
    | (with_reducible refine ite_projR ?_ ?_)
    | simp +decide only [↓proj_ite, ↓proj_iteP, ite_self]
    | ((with_reducible refine proj_mk_trans ?_ ?_); · ((fail_if_success with_reducible rfl); rfl))
    | split

theorem execThresholdMatch_frame {m0 : Nat} (hm0 : m0 &&& 4096 = 4096) (s : State) :
    outProj m0 s (execThresholdMatch s) := by
  refine outProj_mono hm0 ?_
  unfold execThresholdMatch
  try dsimp -proj only
  repeat' first
    | (with_reducible refine outProj_next ?_)
    | (with_reducible refine ite_projR ?_ ?_)
    | simp +decide only [↓proj_ite, ↓proj_iteP, ite_self]
    | ((with_reducible refine proj_mk_trans ?_ ?_); · ((fail_if_success with_reducible rfl); rfl))
    | split

theorem execFreezeOutEnd_frame {m0 : Nat} (hm0 : m0 &&& 4096 = 4096) (s : State) : outProj m0 s (execFreezeOutEnd s) := by
  refine outProj_mono hm0 ?_
  unfold execFreezeOutEnd
  try dsimp -proj only
  repeat' first
    | (with_reducible refine outProj_next ?_)
    | (with_reducible refine ite_projR ?_ ?_)
    | simp +decide only [↓proj_ite, ↓proj_iteP, ite_self]
    | ((with_reducible refine proj_mk_trans ?_ ?_); · ((fail_if_success with_reducible rfl); rfl))
    | split

theorem edgeFreezes_frame {m0 : Nat} (hm0 : m0 &&& 1879054336 = 1879054336) (s : State) :
    proj m0 (edgeFreezes s) = proj m0 s := by
  refine proj_mono hm0 ?_
  unfold edgeFreezes
  try dsimp -proj only
  repeat' first
    | simp +decide only [↓setRegF_frame, ↓takeFreeze_frame, ↓proj_ite, ↓proj_iteP, ite_self]
    | ((with_reducible refine proj_mk_trans ?_ ?_); · ((fail_if_success with_reducible rfl); rfl))
    | split

theorem execCounterSnapshot_frame {m0 : Nat} (hm0 : m0 &&& 268697600 = 268697600) (s : State) :
    outProj m0 s (execCounterSnapshot s) := by
  refine outProj_mono hm0 ?_
  unfold execCounterSnapshot
  try dsimp -proj only
  repeat' first
    | (with_reducible refine outProj_next ?_)
    | (with_reducible refine ite_projR ?_ ?_)
    | (with_reducible exact takeDesc_frame (by decide) _ _)
    | simp +decide only [↓complete_frame, ↓proj_ite, ↓proj_iteP, ite_self]
    | ((with_reducible refine proj_mk_trans ?_ ?_); · ((fail_if_success with_reducible rfl); rfl))
    | (with_reducible refine (some_eq (by assumption) (takeDesc_frame (by decide) _ _)).trans ?_)
    | split

theorem execSnapshotComplete_frame {m0 : Nat} (hm0 : m0 &&& 2416181248 = 2416181248) (s : State) :
    outProj m0 s (execSnapshotComplete s) := by
  refine outProj_mono hm0 ?_
  unfold execSnapshotComplete
  try dsimp -proj only
  repeat' first
    | (with_reducible refine outProj_next ?_)
    | simp +decide only [↓completeBare_frame, ↓descWrite_frame, ↓proj_ite, ↓proj_iteP, ite_self]
    | ((with_reducible refine proj_mk_trans ?_ ?_); · ((fail_if_success with_reducible rfl); rfl))
    | split

theorem setDumps_frame {m0 : Nat} (hm0 : m0 &&& 262144 = 262144) (m : List (Nat × DumpPoint)) (s : State) :
    proj m0 (setDumps m s) = proj m0 s := by
  refine proj_mono hm0 ?_
  unfold setDumps
  try dsimp -proj only
  repeat' first
    | simp +decide only [↓proj_ite, ↓proj_iteP, ite_self]
    | ((with_reducible refine proj_mk_trans ?_ ?_); · ((fail_if_success with_reducible rfl); rfl))
    | split

theorem execDumpArm_frame {m0 : Nat} (hm0 : m0 &&& 2416181248 = 2416181248) (s : State) : outProj m0 s (execDumpArm s) := by
  refine outProj_mono hm0 ?_
  unfold execDumpArm
  try dsimp -proj only
  repeat' first
    | (with_reducible refine outProj_next ?_)
    | (with_reducible refine ite_projR ?_ ?_)
    | (with_reducible exact takeDesc_frame (by decide) _ _)
    | simp +decide only [↓completeBare_frame, ↓complete_frame, ↓setDumps_frame, ↓proj_ite, ↓proj_iteP, ite_self]
    | ((with_reducible refine proj_mk_trans ?_ ?_); · ((fail_if_success with_reducible rfl); rfl))
    | (with_reducible refine (some_eq (by assumption) (takeDesc_frame (by decide) _ _)).trans ?_)
    | split

theorem execDumpDisarm_frame {m0 : Nat} (hm0 : m0 &&& 2416181248 = 2416181248) (s : State) :
    outProj m0 s (execDumpDisarm s) := by
  refine outProj_mono hm0 ?_
  unfold execDumpDisarm
  try dsimp -proj only
  repeat' first
    | (with_reducible refine outProj_next ?_)
    | (with_reducible refine ite_projR ?_ ?_)
    | (with_reducible exact takeDesc_frame (by decide) _ _)
    | simp +decide only [↓completeBare_frame, ↓setDumps_frame, ↓proj_ite, ↓proj_iteP, ite_self]
    | ((with_reducible refine proj_mk_trans ?_ ?_); · ((fail_if_success with_reducible rfl); rfl))
    | (with_reducible refine (some_eq (by assumption) (takeDesc_frame (by decide) _ _)).trans ?_)
    | split

theorem readPart_frame {m0 : Nat} (hm0 : m0 &&& 3020079136 = 3020079136) (x : PartLoc) (s : State) :
    proj m0 (readPart x s).2 = proj m0 s := by
  refine proj_mono hm0 ?_
  unfold readPart
  try dsimp -proj only
  repeat' first
    | simp +decide only [↓readDpa_frame, ↓proj_ite, ↓proj_iteP, ite_self]
    | ((with_reducible refine proj_mk_trans ?_ ?_); · ((fail_if_success with_reducible rfl); rfl))
    | (with_reducible refine (snd_eq (by assumption) (readDpa_frame (by decide) _ _ _)).trans ?_)
    | split

theorem copyPart_frame {m0 : Nat} (hm0 : m0 &&& 3020341280 = 3020341280) (n : Nat) (p : DumpPoint) (t : TensorDesc) (x : PartLoc) (k : Nat) (r : Ream) (c : Option CoreId) (s : State) :
    proj m0 (copyPart n p t x k r c s) = proj m0 s := by
  refine proj_mono hm0 ?_
  unfold copyPart
  try dsimp -proj only
  repeat' first
    | simp +decide only [↓readPart_frame, ↓descWrite_frame, ↓stampSub_frame, ↓setDumps_frame, ↓proj_ite, ↓proj_iteP, ite_self]
    | ((with_reducible refine proj_mk_trans ?_ ?_); · ((fail_if_success with_reducible rfl); rfl))
    | (with_reducible refine (snd_eq (by assumption) (readPart_frame (by decide) _ _)).trans ?_)
    | (with_reducible refine (snd_eq (by assumption) (stampSub_frame (by decide) _ _)).trans ?_)
    | split

theorem notePart_frame {m0 : Nat} (hm0 : m0 &&& 262144 = 262144) (n : Nat) (p : DumpPoint) (parts : Nat) (k : Nat) (seq : W32) (s : State) :
    proj m0 (notePart n p parts k seq s) = proj m0 s := by
  refine proj_mono hm0 ?_
  unfold notePart
  try dsimp -proj only
  repeat' first
    | simp +decide only [↓setDumps_frame, ↓proj_ite, ↓proj_iteP, ite_self]
    | ((with_reducible refine proj_mk_trans ?_ ?_); · ((fail_if_success with_reducible rfl); rfl))
    | split

theorem execDumpCopy_frame {m0 : Nat} (hm0 : m0 &&& 3020341280 = 3020341280) (point : Fin 16) (part : Nat) (ream : W32) (s : State) :
    outProj m0 s (execDumpCopy point part ream s) := by
  refine outProj_mono hm0 ?_
  unfold execDumpCopy
  try dsimp -proj only
  repeat' first
    | (with_reducible refine outProj_next ?_)
    | (with_reducible refine ite_projR ?_ ?_)
    | simp +decide only [↓copyPart_frame, ↓notePart_frame, ↓proj_ite, ↓proj_iteP, ite_self]
    | ((with_reducible refine proj_mk_trans ?_ ?_); · ((fail_if_success with_reducible rfl); rfl))
    | split

theorem execDumpCopyEnd_frame {m0 : Nat} (hm0 : m0 &&& 805568512 = 805568512) (point : Fin 16) (s : State) :
    outProj m0 s (execDumpCopyEnd point s) := by
  refine outProj_mono hm0 ?_
  unfold execDumpCopyEnd
  try dsimp -proj only
  repeat' first
    | (with_reducible refine outProj_next ?_)
    | (with_reducible refine ite_projR ?_ ?_)
    | simp +decide only [↓addCnt_frame, ↓incCnt_frame, ↓setDumps_frame, ↓complete_frame, ↓descWrite_frame, ↓proj_ite, ↓proj_iteP, ite_self]
    | ((with_reducible refine proj_mk_trans ?_ ?_); · ((fail_if_success with_reducible rfl); rfl))
    | split

theorem execEvrFlush_frame {m0 : Nat} (hm0 : m0 &&& 2048 = 2048) (code : W16) (s : State) :
    outProj m0 s (execEvrFlush code s) := by
  refine outProj_mono hm0 ?_
  unfold execEvrFlush
  try dsimp -proj only
  repeat' first
    | (with_reducible refine outProj_next ?_)
    | simp +decide only [↓proj_ite, ↓proj_iteP, ite_self]
    | ((with_reducible refine proj_mk_trans ?_ ?_); · ((fail_if_success with_reducible rfl); rfl))
    | split

theorem execEvrRecordClose_frame {m0 : Nat} (hm0 : m0 &&& 2048 = 2048) (code : W16) (s : State) :
    outProj m0 s (execEvrRecordClose code s) := by
  refine outProj_mono hm0 ?_
  unfold execEvrRecordClose
  try dsimp -proj only
  repeat' first
    | (with_reducible refine outProj_next ?_)
    | (with_reducible refine ite_projR ?_ ?_)
    | simp +decide only [↓proj_ite, ↓proj_iteP, ite_self]
    | ((with_reducible refine proj_mk_trans ?_ ?_); · ((fail_if_success with_reducible rfl); rfl))
    | split

theorem execEvrRead_frame {m0 : Nat} (hm0 : m0 &&& 262144 = 262144) (s : State) : outProj m0 s (execEvrRead s) := by
  refine outProj_mono hm0 ?_
  unfold execEvrRead
  try dsimp -proj only
  repeat' first
    | (with_reducible refine outProj_next ?_)
    | (with_reducible exact takeDesc_frame (by decide) _ _)
    | simp +decide only [↓proj_ite, ↓proj_iteP, ite_self]
    | ((with_reducible refine proj_mk_trans ?_ ?_); · ((fail_if_success with_reducible rfl); rfl))
    | (with_reducible refine (some_eq (by assumption) (takeDesc_frame (by decide) _ _)).trans ?_)
    | split

theorem execEvrReadHold_frame {m0 : Nat} (hm0 : m0 &&& 2416183296 = 2416183296) (s : State) :
    outProj m0 s (execEvrReadHold s) := by
  refine outProj_mono hm0 ?_
  unfold execEvrReadHold
  try dsimp -proj only
  repeat' first
    | (with_reducible refine outProj_next ?_)
    | (with_reducible refine ite_projR ?_ ?_)
    | (with_reducible exact takeDesc_frame (by decide) _ _)
    | simp +decide only [↓completeBare_frame, ↓proj_ite, ↓proj_iteP, ite_self]
    | ((with_reducible refine proj_mk_trans ?_ ?_); · ((fail_if_success with_reducible rfl); rfl))
    | (with_reducible refine (some_eq (by assumption) (takeDesc_frame (by decide) _ _)).trans ?_)
    | split

theorem execEvrReadComplete_frame {m0 : Nat} (hm0 : m0 &&& 268699648 = 268699648) (s : State) :
    outProj m0 s (execEvrReadComplete s) := by
  refine outProj_mono hm0 ?_
  unfold execEvrReadComplete
  try dsimp -proj only
  repeat' first
    | (with_reducible refine outProj_next ?_)
    | (with_reducible refine ite_projR ?_ ?_)
    | simp +decide only [↓endHold_frame, ↓complete_frame, ↓descWrite_frame, ↓proj_ite, ↓proj_iteP, ite_self]
    | ((with_reducible refine proj_mk_trans ?_ ?_); · ((fail_if_success with_reducible rfl); rfl))
    | split

theorem execEvrHoldTimeout_frame {m0 : Nat} (hm0 : m0 &&& 2416183296 = 2416183296) (s : State) :
    outProj m0 s (execEvrHoldTimeout s) := by
  refine outProj_mono hm0 ?_
  unfold execEvrHoldTimeout
  try dsimp -proj only
  repeat' first
    | (with_reducible refine outProj_next ?_)
    | (with_reducible refine ite_projR ?_ ?_)
    | simp +decide only [↓completeBare_frame, ↓endHold_frame, ↓proj_ite, ↓proj_iteP, ite_self]
    | ((with_reducible refine proj_mk_trans ?_ ?_); · ((fail_if_success with_reducible rfl); rfl))
    | split

theorem modBoot_frame {m0 : Nat} (hm0 : m0 &&& 134217728 = 134217728) (f : BootState → BootState) (s : State) (hf : ∀ b, (f b).fuses = b.fuses ∧ (f b).fuseJob = b.fuseJob) :
    proj m0 (modBoot f s) = proj m0 s := by
  refine proj_mono hm0 ?_
  unfold modBoot proj
  simp only [hf, State.mk.injEq, true_and, and_true]
  rfl

theorem modBoot_job {m0 : Nat} (hm0 : m0 &&& 34493956096 = 34493956096) (f : BootState → BootState) (s : State)
    (hf : ∀ b, (f b).fuses = b.fuses) : proj m0 (modBoot f s) = proj m0 s := by
  refine proj_mono hm0 ?_
  unfold modBoot proj
  simp only [hf, State.mk.injEq, true_and, and_true]
  rfl
theorem modBoot_all {m0 : Nat} (hm0 : m0 &&& 51673825280 = 51673825280) (f : BootState → BootState) (s : State) :
    proj m0 (modBoot f s) = proj m0 s := by
  refine proj_mono hm0 ?_
  unfold modBoot proj
  rfl

theorem setStage_frame {m0 : Nat} (hm0 : m0 &&& 268435456 = 268435456) (n : Nat) (s : State) :
    proj m0 (setStage n s) = proj m0 s := by
  refine proj_mono hm0 ?_
  unfold setStage
  try dsimp -proj only
  repeat' first
    | simp +decide only [↓setRegF_frame, ↓proj_ite, ↓proj_iteP, ite_self]
    | ((with_reducible refine proj_mk_trans ?_ ?_); · ((fail_if_success with_reducible rfl); rfl))
    | split

theorem setBootBit_frame {m0 : Nat} (hm0 : m0 &&& 268435456 = 268435456) (b : Nat) (v : Bool) (s : State) :
    proj m0 (setBootBit b v s) = proj m0 s := by
  refine proj_mono hm0 ?_
  unfold setBootBit
  try dsimp -proj only
  repeat' first
    | simp +decide only [↓setRegF_frame, ↓proj_ite, ↓proj_iteP, ite_self]
    | ((with_reducible refine proj_mk_trans ?_ ?_); · ((fail_if_success with_reducible rfl); rfl))
    | split

theorem powerUp_frame {m0 : Nat} (hm0 : m0 &&& 67108864 = 67108864) (st : Nat → Nat) (s : State) :
    proj m0 (powerUp st s) = proj m0 s := by
  refine proj_mono hm0 ?_
  unfold powerUp
  try dsimp -proj only
  repeat' first
    | simp +decide only [↓proj_ite, ↓proj_iteP, ite_self]
    | ((with_reducible refine proj_mk_trans ?_ ?_); · ((fail_if_success with_reducible rfl); rfl))
    | split

theorem execPorstRelease_frame {m0 : Nat} (hm0 : m0 &&& 469764097 = 469764097) (straps : BitVec 4) (s : State) :
    outProj m0 s (execPorstRelease straps s) := by
  refine outProj_mono hm0 ?_
  unfold execPorstRelease
  try dsimp -proj only
  repeat' first
    | (with_reducible refine outProj_next ?_)
    | (with_reducible refine ite_projR ?_ ?_)
    | simp +decide only [↓cutRecords_frame, ↓powerUp_frame, ↓proj_ite, ↓proj_iteP, ite_self]
    | ((with_reducible refine proj_mk_trans ?_ ?_); · ((fail_if_success with_reducible rfl); rfl))
    | (with_reducible refine (modBoot_frame (by decide) _ _ (fun _ => ⟨by rfl, by rfl⟩)).trans ?_)
    | (with_reducible intro _)
    | split

theorem setInactive_frame {m0 : Nat} (hm0 : m0 &&& 268435456 = 268435456) (v : Bool) (s : State) :
    proj m0 (setInactive v s) = proj m0 s := by
  refine proj_mono hm0 ?_
  unfold setInactive
  try dsimp -proj only
  repeat' first
    | simp +decide only [↓setRegF_frame, ↓proj_ite, ↓proj_iteP, ite_self]
    | ((with_reducible refine proj_mk_trans ?_ ?_); · ((fail_if_success with_reducible rfl); rfl))
    | (with_reducible intro _)
    | split

theorem setStandby_frame {m0 : Nat} (hm0 : m0 &&& 402653184 = 402653184) (x : Option (Nat × FwCopy)) (s : State) :
    proj m0 (setStandby x s) = proj m0 s := by
  refine proj_mono hm0 ?_
  unfold setStandby
  try dsimp -proj only
  repeat' first
    | simp +decide only [↓setRegF_frame, ↓proj_ite, ↓proj_iteP, ite_self]
    | ((with_reducible refine proj_mk_trans ?_ ?_); · ((fail_if_success with_reducible rfl); rfl))
    | (with_reducible refine (modBoot_frame (by decide) _ _ (fun _ => ⟨by rfl, by rfl⟩)).trans ?_)
    | (with_reducible intro _)
    | split

theorem runFw_frame {m0 : Nat} (hm0 : m0 &&& 402653184 = 402653184) (copyB : Bool) (c : FwCopy) (s : State) :
    proj m0 (runFw copyB c s) = proj m0 s := by
  refine proj_mono hm0 ?_
  unfold runFw
  try dsimp -proj only
  repeat' first
    | simp +decide only [↓setRegF_frame, ↓setRegW_frame, ↓setInactive_frame, ↓proj_ite, ↓proj_iteP, ite_self]
    | ((with_reducible refine proj_mk_trans ?_ ?_); · ((fail_if_success with_reducible rfl); rfl))
    | (with_reducible refine (modBoot_frame (by decide) _ _ (fun _ => ⟨by rfl, by rfl⟩)).trans ?_)
    | (with_reducible intro _)
    | split

theorem execFirmwareVerify_frame {m0 : Nat} (hm0 : m0 &&& 2617245696 = 2617245696) (s : State) :
    outProj m0 s (execFirmwareVerify s) := by
  refine outProj_mono hm0 ?_
  unfold execFirmwareVerify
  try dsimp -proj only
  repeat' first
    | (with_reducible refine outProj_next ?_)
    | (with_reducible refine ite_projR ?_ ?_)
    | simp +decide only [↓drawFree_frame, ↓powerUp_frame, ↓setStage_frame, ↓runFw_frame, ↓setBootBit_frame, ↓proj_ite, ↓proj_iteP, ite_self]
    | ((with_reducible refine proj_mk_trans ?_ ?_); · ((fail_if_success with_reducible rfl); rfl))
    | (with_reducible refine (modBoot_frame (by decide) _ _ (fun _ => ⟨by rfl, by rfl⟩)).trans ?_)
    | (with_reducible intro _)
    | split

theorem execStackFillEnd_frame {m0 : Nat} (hm0 : m0 &&& 201342976 = 201342976) (s : State) :
    outProj m0 s (execStackFillEnd s) := by
  refine outProj_mono hm0 ?_
  unfold execStackFillEnd
  try dsimp -proj only
  repeat' first
    | (with_reducible refine outProj_next ?_)
    | (with_reducible refine ite_projR ?_ ?_)
    | simp +decide only [↓powerUp_frame, ↓proj_ite, ↓proj_iteP, ite_self]
    | ((with_reducible refine proj_mk_trans ?_ ?_); · ((fail_if_success with_reducible rfl); rfl))
    | (with_reducible refine (modBoot_frame (by decide) _ _ (fun _ => ⟨by rfl, by rfl⟩)).trans ?_)
    | (with_reducible intro _)
    | split

theorem execConfigLoad_frame {m0 : Nat} (hm0 : m0 &&& 3221159422 = 3221159422) (s : State) :
    outProj m0 s (execConfigLoad s) := by
  refine outProj_mono hm0 ?_
  unfold execConfigLoad
  try dsimp -proj only
  repeat' first
    | (with_reducible refine outProj_next ?_)
    | (with_reducible refine ite_projR ?_ ?_)
    | simp +decide only [↓setStage_frame, ↓setBootBit_frame, ↓placeBcb_frame, ↓takeFields_frame, ↓proj_ite, ↓proj_iteP, ite_self]
    | ((with_reducible refine proj_mk_trans ?_ ?_); · ((fail_if_success with_reducible rfl); rfl))
    | (with_reducible refine (modBoot_frame (by decide) _ _ (fun _ => ⟨by rfl, by rfl⟩)).trans ?_)
    | (with_reducible intro _)
    | split

theorem execTimeLockTimeout_frame {m0 : Nat} (hm0 : m0 &&& 939526146 = 939526146) (s : State) :
    outProj m0 s (execTimeLockTimeout s) := by
  refine outProj_mono hm0 ?_
  unfold execTimeLockTimeout
  try dsimp -proj only
  repeat' first
    | (with_reducible refine outProj_next ?_)
    | (with_reducible refine ite_projR ?_ ?_)
    | simp +decide only [↓enterHoldover_frame, ↓proj_ite, ↓proj_iteP, ite_self]
    | ((with_reducible refine proj_mk_trans ?_ ?_); · ((fail_if_success with_reducible rfl); rfl))
    | (with_reducible refine (modBoot_frame (by decide) _ _ (fun _ => ⟨by rfl, by rfl⟩)).trans ?_)
    | (with_reducible intro _)
    | split

theorem lockStep_frame {m0 : Nat} (hm0 : m0 &&& 134217730 = 134217730) (src : W64) (s : State) :
    proj m0 (lockStep src s) = proj m0 s := by
  refine proj_mono hm0 ?_
  unfold lockStep
  try dsimp -proj only
  repeat' first
    | simp +decide only [↓modTime_frame, ↓proj_ite, ↓proj_iteP, ite_self]
    | ((with_reducible refine proj_mk_trans ?_ ?_); · ((fail_if_success with_reducible rfl); rfl))
    | (with_reducible refine (modBoot_frame (by decide) _ _ (fun _ => ⟨by rfl, by rfl⟩)).trans ?_)
    | (with_reducible intro _)
    | split

theorem execServingEnter_frame {m0 : Nat} (hm0 : m0 &&& 3149761846 = 3149761846) (sourceNs : W64) (s : State) :
    outProj m0 s (execServingEnter sourceNs s) := by
  refine outProj_mono hm0 ?_
  unfold execServingEnter
  try dsimp -proj only
  repeat' first
    | (with_reducible refine outProj_next ?_)
    | (with_reducible refine ite_projR ?_ ?_)
    | simp +decide only [↓lockStep_frame, ↓changeRole_frame, ↓setStage_frame, ↓beginServing_frame, ↓proj_ite, ↓proj_iteP, ite_self]
    | ((with_reducible refine proj_mk_trans ?_ ?_); · ((fail_if_success with_reducible rfl); rfl))
    | split

theorem execWatchdogExpire_frame {m0 : Nat} (hm0 : m0 &&& 939526144 = 939526144) (s : State) :
    outProj m0 s (execWatchdogExpire s) := by
  refine outProj_mono hm0 ?_
  unfold execWatchdogExpire
  try dsimp -proj only
  repeat' first
    | (with_reducible refine outProj_next ?_)
    | (with_reducible refine ite_projR ?_ ?_)
    | simp +decide only [↓devEvent_frame, ↓incCnt_frame, ↓setBootBit_frame, ↓proj_ite, ↓proj_iteP, ite_self]
    | ((with_reducible refine proj_mk_trans ?_ ?_); · ((fail_if_success with_reducible rfl); rfl))
    | (with_reducible refine (modBoot_frame (by decide) _ _ (fun _ => ⟨by rfl, by rfl⟩)).trans ?_)
    | (with_reducible intro _)
    | split

theorem setFwStatus_frame {m0 : Nat} (hm0 : m0 &&& 268435456 = 268435456) (st : Nat) (s : State) :
    proj m0 (setFwStatus st s) = proj m0 s := by
  refine proj_mono hm0 ?_
  unfold setFwStatus
  try dsimp -proj only
  repeat' first
    | simp +decide only [↓setRegF_frame, ↓proj_ite, ↓proj_iteP, ite_self]
    | ((with_reducible refine proj_mk_trans ?_ ?_); · ((fail_if_success with_reducible rfl); rfl))
    | split

theorem setFwBusy_frame {m0 : Nat} (hm0 : m0 &&& 268435456 = 268435456) (v : Bool) (s : State) :
    proj m0 (setFwBusy v s) = proj m0 s := by
  refine proj_mono hm0 ?_
  unfold setFwBusy
  try dsimp -proj only
  repeat' first
    | simp +decide only [↓setRegF_frame, ↓proj_ite, ↓proj_iteP, ite_self]
    | ((with_reducible refine proj_mk_trans ?_ ?_); · ((fail_if_success with_reducible rfl); rfl))
    | split

theorem execFwWrite_frame {m0 : Nat} (hm0 : m0 &&& 3087269888 = 3087269888) (p : HPort) (hdr : Bytes) (body : Bytes) (s : State) :
    outProj m0 s (execFwWrite p hdr body s) := by
  refine outProj_mono hm0 ?_
  unfold execFwWrite
  try dsimp -proj only
  repeat' first
    | (with_reducible refine outProj_next ?_)
    | (with_reducible refine ite_projR ?_ ?_)
    | simp +decide only [↓discardRws_frame, ↓setFwStatus_frame, ↓drawFree_frame, ↓setFwBusy_frame, ↓setInactive_frame, ↓proj_ite, ↓proj_iteP, ite_self]
    | ((with_reducible refine proj_mk_trans ?_ ?_); · ((fail_if_success with_reducible rfl); rfl))
    | (with_reducible refine (modBoot_frame (by decide) _ _ (fun _ => ⟨by rfl, by rfl⟩)).trans ?_)
    | (with_reducible intro _)
    | split

theorem execFwWriteComplete_frame {m0 : Nat} (hm0 : m0 &&& 2550136832 = 2550136832) (readBackOk : Bool) (s : State) :
    outProj m0 s (execFwWriteComplete readBackOk s) := by
  refine outProj_mono hm0 ?_
  unfold execFwWriteComplete
  try dsimp -proj only
  repeat' first
    | (with_reducible refine outProj_next ?_)
    | (with_reducible refine ite_projR ?_ ?_)
    | simp +decide only [↓setFwBusy_frame, ↓setFwStatus_frame, ↓setStandby_frame, ↓setInactive_frame, ↓setStage_frame, ↓proj_ite, ↓proj_iteP, ite_self]
    | ((with_reducible refine proj_mk_trans ?_ ?_); · ((fail_if_success with_reducible rfl); rfl))
    | (with_reducible refine (modBoot_frame (by decide) _ _ (fun _ => ⟨by rfl, by rfl⟩)).trans ?_)
    | (with_reducible intro _)
    | split

theorem execFwSwitch_frame {m0 : Nat} (hm0 : m0 &&& 3087269888 = 3087269888) (p : HPort) (s : State) :
    outProj m0 s (execFwSwitch p s) := by
  refine outProj_mono hm0 ?_
  unfold execFwSwitch
  try dsimp -proj only
  repeat' first
    | (with_reducible refine outProj_next ?_)
    | (with_reducible refine ite_projR ?_ ?_)
    | simp +decide only [↓discardRws_frame, ↓setFwStatus_frame, ↓drawFree_frame, ↓setFwBusy_frame, ↓notePast_frame, ↓proj_ite, ↓proj_iteP, ite_self]
    | ((with_reducible refine proj_mk_trans ?_ ?_); · ((fail_if_success with_reducible rfl); rfl))
    | (with_reducible refine (modBoot_frame (by decide) _ _ (fun _ => ⟨by rfl, by rfl⟩)).trans ?_)
    | (with_reducible intro _)
    | split

theorem execFwHandoff_frame {m0 : Nat} (hm0 : m0 &&& 939524096 = 939524096) (s : State) :
    outProj m0 s (execFwHandoff s) := by
  refine outProj_mono hm0 ?_
  unfold execFwHandoff
  try dsimp -proj only
  repeat' first
    | (with_reducible refine outProj_next ?_)
    | (with_reducible refine ite_projR ?_ ?_)
    | simp +decide only [↓setStandby_frame, ↓runFw_frame, ↓incCnt_frame, ↓setFwBusy_frame, ↓setFwStatus_frame, ↓setBootBit_frame, ↓proj_ite, ↓proj_iteP, ite_self]
    | ((with_reducible refine proj_mk_trans ?_ ?_); · ((fail_if_success with_reducible rfl); rfl))
    | (with_reducible refine (modBoot_frame (by decide) _ _ (fun _ => ⟨by rfl, by rfl⟩)).trans ?_)
    | (with_reducible intro _)
    | split

theorem execFwHealthReport_frame {m0 : Nat} (hm0 : m0 &&& 402653184 = 402653184) (s : State) :
    outProj m0 s (execFwHealthReport s) := by
  refine outProj_mono hm0 ?_
  unfold execFwHealthReport
  try dsimp -proj only
  repeat' first
    | (with_reducible refine outProj_next ?_)
    | (with_reducible refine ite_projR ?_ ?_)
    | simp +decide only [↓setBootBit_frame, ↓proj_ite, ↓proj_iteP, ite_self]
    | ((with_reducible refine proj_mk_trans ?_ ?_); · ((fail_if_success with_reducible rfl); rfl))
    | (with_reducible refine (modBoot_frame (by decide) _ _ (fun _ => ⟨by rfl, by rfl⟩)).trans ?_)
    | (with_reducible intro _)
    | split

theorem execProbationExpire_frame {m0 : Nat} (hm0 : m0 &&& 939526144 = 939526144) (s : State) :
    outProj m0 s (execProbationExpire s) := by
  refine outProj_mono hm0 ?_
  unfold execProbationExpire
  try dsimp -proj only
  repeat' first
    | (with_reducible refine outProj_next ?_)
    | (with_reducible refine ite_projR ?_ ?_)
    | simp +decide only [↓devEvent_frame, ↓setBootBit_frame, ↓runFw_frame, ↓proj_ite, ↓proj_iteP, ite_self]
    | ((with_reducible refine proj_mk_trans ?_ ?_); · ((fail_if_success with_reducible rfl); rfl))
    | (with_reducible refine (modBoot_frame (by decide) _ _ (fun _ => ⟨by rfl, by rfl⟩)).trans ?_)
    | (with_reducible intro _)
    | split

theorem execConfigCopyWrite_frame {m0 : Nat} (hm0 : m0 &&& 134217728 = 134217728) (s : State) :
    outProj m0 s (execConfigCopyWrite s) := by
  refine outProj_mono hm0 ?_
  unfold execConfigCopyWrite
  try dsimp -proj only
  repeat' first
    | (with_reducible refine outProj_next ?_)
    | (with_reducible refine ite_projR ?_ ?_)
    | simp +decide only [↓proj_ite, ↓proj_iteP, ite_self]
    | ((with_reducible refine proj_mk_trans ?_ ?_); · ((fail_if_success with_reducible rfl); rfl))
    | (with_reducible refine (modBoot_frame (by decide) _ _ (fun _ => ⟨by rfl, by rfl⟩)).trans ?_)
    | (with_reducible intro _)
    | split

theorem setFuseStatus_frame {m0 : Nat} (hm0 : m0 &&& 268435456 = 268435456) (st : Nat) (s : State) :
    proj m0 (setFuseStatus st s) = proj m0 s := by
  refine proj_mono hm0 ?_
  unfold setFuseStatus
  try dsimp -proj only
  repeat' first
    | simp +decide only [↓setRegF_frame, ↓proj_ite, ↓proj_iteP, ite_self]
    | ((with_reducible refine proj_mk_trans ?_ ?_); · ((fail_if_success with_reducible rfl); rfl))
    | split

theorem fuseCmd_frame {m0 : Nat} (hm0 : m0 &&& 35299524608 = 35299524608) (p : HPort) (action : Nat) (refused : Bool) (s : State) :
    proj m0 (fuseCmd p action refused s) = proj m0 s := by
  refine proj_mono hm0 ?_
  unfold fuseCmd
  refine ite_proj (discardRws_frame (by decide) _ _ _) (ite_proj rfl (ite_proj (setFuseStatus_frame (by decide) _ _) ?_))
  exact (setRegF_frame (by decide) _ _ _ _ _ _).trans (modBoot_job (by decide) _ _ (fun _ => rfl))

theorem execRaiseCounter_frame {m0 : Nat} (hm0 : m0 &&& 35299524608 = 35299524608) (p : HPort) (s : State) :
    outProj m0 s (execRaiseCounter p s) := by
  refine outProj_mono hm0 ?_
  unfold execRaiseCounter
  try dsimp -proj only
  repeat' first
    | (with_reducible refine outProj_next ?_)
    | simp +decide only [↓fuseCmd_frame, ↓proj_ite, ↓proj_iteP, ite_self]
    | ((with_reducible refine proj_mk_trans ?_ ?_); · ((fail_if_success with_reducible rfl); rfl))
    | split

theorem execRevokeSlot_frame {m0 : Nat} (hm0 : m0 &&& 35299524608 = 35299524608) (p : HPort) (s : State) :
    outProj m0 s (execRevokeSlot p s) := by
  refine outProj_mono hm0 ?_
  unfold execRevokeSlot
  try dsimp -proj only
  repeat' first
    | (with_reducible refine outProj_next ?_)
    | simp +decide only [↓fuseCmd_frame, ↓proj_ite, ↓proj_iteP, ite_self]
    | ((with_reducible refine proj_mk_trans ?_ ?_); · ((fail_if_success with_reducible rfl); rfl))
    | split

theorem execFuseBlowEnd_frame {m0 : Nat} (hm0 : m0 &&& 51942260736 = 51942260736) (s : State) :
    outProj m0 s (execFuseBlowEnd s) := by
  refine outProj_mono hm0 ?_
  unfold execFuseBlowEnd
  split
  · exact outProj_next rfl
  · refine outProj_next ?_
    exact (setInactive_frame (by decide) _ _).trans ((setRegF_frame (by decide) _ _ _ _ _ _).trans
      ((setFuseStatus_frame (by decide) _ _).trans (modBoot_all (by decide) _ _)))

theorem custKey_frame {m0 : Nat} (hm0 : m0 &&& 939786240 = 939786240) (p : HPort) (valid : Bool) (s : State) :
    proj m0 (custKey p valid s) = proj m0 s := by
  refine proj_mono hm0 ?_
  unfold custKey
  try dsimp -proj only
  repeat' first
    | simp +decide only [↓discardRws_frame, ↓setCustKey_frame, ↓proj_ite, ↓proj_iteP, ite_self]
    | ((with_reducible refine proj_mk_trans ?_ ?_); · ((fail_if_success with_reducible rfl); rfl))
    | split

theorem execCustKeyInstall_frame {m0 : Nat} (hm0 : m0 &&& 939786240 = 939786240) (p : HPort) (s : State) :
    outProj m0 s (execCustKeyInstall p s) := by
  refine outProj_mono hm0 ?_
  unfold execCustKeyInstall
  try dsimp -proj only
  repeat' first
    | (with_reducible refine outProj_next ?_)
    | simp +decide only [↓custKey_frame, ↓proj_ite, ↓proj_iteP, ite_self]
    | ((with_reducible refine proj_mk_trans ?_ ?_); · ((fail_if_success with_reducible rfl); rfl))
    | split

theorem execCustKeyClear_frame {m0 : Nat} (hm0 : m0 &&& 939786240 = 939786240) (p : HPort) (s : State) :
    outProj m0 s (execCustKeyClear p s) := by
  refine outProj_mono hm0 ?_
  unfold execCustKeyClear
  try dsimp -proj only
  repeat' first
    | (with_reducible refine outProj_next ?_)
    | simp +decide only [↓custKey_frame, ↓proj_ite, ↓proj_iteP, ite_self]
    | ((with_reducible refine proj_mk_trans ?_ ?_); · ((fail_if_success with_reducible rfl); rfl))
    | split

theorem execAttest_frame {m0 : Nat} (hm0 : m0 &&& 402915328 = 402915328) (s : State) : outProj m0 s (execAttest s) := by
  refine outProj_mono hm0 ?_
  unfold execAttest
  try dsimp -proj only
  repeat' first
    | (with_reducible refine outProj_next ?_)
    | (with_reducible refine ite_projR ?_ ?_)
    | (with_reducible exact takeDesc_frame (by decide) _ _)
    | simp +decide only [↓complete_frame, ↓proj_ite, ↓proj_iteP, ite_self]
    | ((with_reducible refine proj_mk_trans ?_ ?_); · ((fail_if_success with_reducible rfl); rfl))
    | (with_reducible refine (some_eq (by assumption) (takeDesc_frame (by decide) _ _)).trans ?_)
    | (with_reducible refine (modBoot_frame (by decide) _ _ (fun _ => ⟨by rfl, by rfl⟩)).trans ?_)
    | (with_reducible intro _)
    | split

theorem setDoe_frame {m0 : Nat} (hm0 : m0 &&& 134217728 = 134217728) (p : HPort) (bs : Bytes) (s : State) :
    proj m0 (setDoe p bs s) = proj m0 s := by
  refine proj_mono hm0 ?_
  unfold setDoe
  try dsimp -proj only
  repeat' first
    | simp +decide only [↓proj_ite, ↓proj_iteP, ite_self]
    | ((with_reducible refine proj_mk_trans ?_ ?_); · ((fail_if_success with_reducible rfl); rfl))
    | (with_reducible refine (modBoot_frame (by decide) _ _ (fun _ => ⟨by rfl, by rfl⟩)).trans ?_)
    | (with_reducible intro _)
    | split

theorem execAttestReport_frame {m0 : Nat} (hm0 : m0 &&& 3087269888 = 3087269888) (s : State) :
    outProj m0 s (execAttestReport s) := by
  refine outProj_mono hm0 ?_
  unfold execAttestReport
  try dsimp -proj only
  repeat' first
    | (with_reducible refine outProj_next ?_)
    | simp +decide only [↓incCnt_frame, ↓completeBare_frame, ↓descWrite_frame, ↓setDoe_frame, ↓proj_ite, ↓proj_iteP, ite_self]
    | ((with_reducible refine proj_mk_trans ?_ ?_); · ((fail_if_success with_reducible rfl); rfl))
    | (with_reducible refine (modBoot_frame (by decide) _ _ (fun _ => ⟨by rfl, by rfl⟩)).trans ?_)
    | (with_reducible intro _)
    | split

theorem doeError_frame {m0 : Nat} (hm0 : m0 &&& 671088640 = 671088640) (p : HPort) (vendor : Nat) (type : Nat) (status : Nat) (s : State) :
    proj m0 (doeError p vendor type status s) = proj m0 s := by
  refine proj_mono hm0 ?_
  unfold doeError
  try dsimp -proj only
  repeat' first
    | simp +decide only [↓setDoe_frame, ↓incCnt_frame, ↓proj_ite, ↓proj_iteP, ite_self]
    | ((with_reducible refine proj_mk_trans ?_ ?_); · ((fail_if_success with_reducible rfl); rfl))
    | split

theorem execDoeDiscovery_frame {m0 : Nat} (hm0 : m0 &&& 134217728 = 134217728) (p : HPort) (index : Byte) (s : State) :
    outProj m0 s (execDoeDiscovery p index s) := by
  refine outProj_mono hm0 ?_
  unfold execDoeDiscovery
  try dsimp -proj only
  repeat' first
    | (with_reducible refine outProj_next ?_)
    | simp +decide only [↓setDoe_frame, ↓proj_ite, ↓proj_iteP, ite_self]
    | ((with_reducible refine proj_mk_trans ?_ ?_); · ((fail_if_success with_reducible rfl); rfl))
    | split

theorem execCertRead_frame {m0 : Nat} (hm0 : m0 &&& 671088640 = 671088640) (p : HPort) (dw2 : W32) (dw3 : W32) (s : State) :
    outProj m0 s (execCertRead p dw2 dw3 s) := by
  refine outProj_mono hm0 ?_
  unfold execCertRead
  try dsimp -proj only
  repeat' first
    | (with_reducible refine outProj_next ?_)
    | (with_reducible refine ite_projR ?_ ?_)
    | simp +decide only [↓doeError_frame, ↓setDoe_frame, ↓proj_ite, ↓proj_iteP, ite_self]
    | ((with_reducible refine proj_mk_trans ?_ ?_); · ((fail_if_success with_reducible rfl); rfl))
    | split

theorem execDoeAttest_frame {m0 : Nat} (hm0 : m0 &&& 671088640 = 671088640) (p : HPort) (nonce : Bytes) (s : State) :
    outProj m0 s (execDoeAttest p nonce s) := by
  refine outProj_mono hm0 ?_
  unfold execDoeAttest
  try dsimp -proj only
  repeat' first
    | (with_reducible refine outProj_next ?_)
    | (with_reducible refine ite_projR ?_ ?_)
    | simp +decide only [↓doeError_frame, ↓proj_ite, ↓proj_iteP, ite_self]
    | ((with_reducible refine proj_mk_trans ?_ ?_); · ((fail_if_success with_reducible rfl); rfl))
    | (with_reducible refine (modBoot_frame (by decide) _ _ (fun _ => ⟨by rfl, by rfl⟩)).trans ?_)
    | (with_reducible intro _)
    | split

theorem execI3cWrite_frame {m0 : Nat} (hm0 : m0 &&& 134217728 = 134217728) (bytes : Bytes) (s : State) :
    outProj m0 s (execI3cWrite bytes s) := by
  refine outProj_mono hm0 ?_
  unfold execI3cWrite
  try dsimp -proj only
  repeat' first
    | (with_reducible refine outProj_next ?_)
    | (with_reducible refine ite_projR ?_ ?_)
    | simp +decide only [↓proj_ite, ↓proj_iteP, ite_self]
    | ((with_reducible refine proj_mk_trans ?_ ?_); · ((fail_if_success with_reducible rfl); rfl))
    | (with_reducible refine (modBoot_frame (by decide) _ _ (fun _ => ⟨by rfl, by rfl⟩)).trans ?_)
    | (with_reducible intro _)
    | split

theorem execI3cRead_frame {m0 : Nat} (hm0 : m0 &&& 2281701408 = 2281701408) (s : State) : outProj m0 s (execI3cRead s) := by
  refine outProj_mono hm0 ?_
  unfold execI3cRead
  try dsimp -proj only
  repeat' first
    | (with_reducible refine outProj_next ?_)
    | (with_reducible refine ite_projR ?_ ?_)
    | simp +decide only [↓drawFree_frame, ↓proj_ite, ↓proj_iteP, ite_self]
    | ((with_reducible refine proj_mk_trans ?_ ?_); · ((fail_if_success with_reducible rfl); rfl))
    | (with_reducible refine (modBoot_frame (by decide) _ _ (fun _ => ⟨by rfl, by rfl⟩)).trans ?_)
    | (with_reducible intro _)
    | split

theorem execDynamicAddressAssignment_frame {m0 : Nat} (hm0 : m0 &&& 134217728 = 134217728) (addr : BitVec 7) (s : State) :
    outProj m0 s (execDynamicAddressAssignment addr s) := by
  refine outProj_mono hm0 ?_
  unfold execDynamicAddressAssignment
  try dsimp -proj only
  repeat' first
    | (with_reducible refine outProj_next ?_)
    | (with_reducible refine ite_projR ?_ ?_)
    | simp +decide only [↓proj_ite, ↓proj_iteP, ite_self]
    | ((with_reducible refine proj_mk_trans ?_ ?_); · ((fail_if_success with_reducible rfl); rfl))
    | (with_reducible refine (modBoot_frame (by decide) _ _ (fun _ => ⟨by rfl, by rfl⟩)).trans ?_)
    | (with_reducible intro _)
    | split

theorem groupTake_frame {m0 : Nat} (hm0 : m0 &&& 3015542070 = 3015542070) (port : LaneId) (smac : Nat) (payload : Bytes) (s : State) :
    proj m0 (groupTake port smac payload s) = proj m0 s := by
  refine proj_mono hm0 ?_
  unfold groupTake
  try dsimp -proj only
  repeat' first
    | simp +decide only [↓grpCount_frame, ↓endOfShares_frame, ↓deliver_frame, ↓adoptEpoch_frame, ↓proj_ite, ↓proj_iteP, ite_self]
    | ((with_reducible refine proj_mk_trans ?_ ?_); · ((fail_if_success with_reducible rfl); rfl))
    | split

theorem fecSeen_frame {m0 : Nat} (hm0 : m0 &&& 2952790016 = 2952790016) (g : Nat) (fcsGood : Bool) (s : State) :
    proj m0 (fecSeen g fcsGood s) = proj m0 s := by
  refine proj_mono hm0 ?_
  unfold fecSeen
  try dsimp -proj only
  repeat' first
    | simp +decide only [↓drawFree_frame, ↓addCnt_frame, ↓setSticky_frame, ↓proj_ite, ↓proj_iteP, ite_self]
    | ((with_reducible refine proj_mk_trans ?_ ?_); · ((fail_if_success with_reducible rfl); rfl))
    | split

theorem arrive_frame {m0 : Nat} (hm0 : m0 &&& 2953314304 = 2953314304) (port : LaneId) (bytes : Bytes) (fcsGood : Bool) (sub : BitVec 6) (f : Parsed → State → State) (s : State) (hf : ∀ p s, proj m0 (f p s) = proj m0 s) :
    outProj m0 s (arrive port bytes fcsGood sub f s) := by
  unfold arrive
  try dsimp -proj only
  repeat' first
    | (with_reducible exact outProj_fault)
    | (with_reducible exact outProj_refused)
    | (with_reducible refine outProj_next ?_)
    | (with_reducible refine ite_projR ?_ ?_)
    | (with_reducible refine ite_proj ?_ ?_)
    | with_reducible rfl
    | (with_reducible refine (proj_mono hm0 (fecSeen_frame (m0 := 2953314304) (by decide) _ _ _)).trans ?_)
    | (with_reducible refine (proj_mono hm0 (incCnt_frame (m0 := 2953314304) (by decide) _ _)).trans ?_)
    | (with_reducible refine (proj_mono hm0 (modNet_frame (m0 := 2953314304) (by decide) _ _ _)).trans ?_)
    | (with_reducible refine (hf _ _).trans ?_)
    | (with_reducible refine (foldl_proj _ _ ?_ _).trans ?_; intro _ _)
    | ((with_reducible refine proj_mk_trans ?_ ?_); · ((fail_if_success with_reducible rfl); exact proj_mono hm0 rfl))
    | split

theorem groupArrival_frame {m0 : Nat} (hm0 : m0 &&& 3015542070 = 3015542070) (port : LaneId) (bytes : Bytes) (p : Parsed) (s : State) :
    proj m0 (groupArrival port bytes p s) = proj m0 s := by
  refine proj_mono hm0 ?_
  unfold groupArrival
  try dsimp -proj only
  repeat' first
    | simp +decide only [↓learnFrame_frame, ↓groupTake_frame, ↓proj_ite, ↓proj_iteP, ite_self]
    | ((with_reducible refine proj_mk_trans ?_ ?_); · ((fail_if_success with_reducible rfl); rfl))
    | split

theorem ptpArrival_frame {m0 : Nat} (hm0 : m0 &&& 2686976002 = 2686976002) (port : LaneId) (bytes : Bytes) (sub : BitVec 6) (p : Parsed) (s : State) :
    proj m0 (ptpArrival port bytes sub p s) = proj m0 s := by
  refine proj_mono hm0 ?_
  unfold ptpArrival
  try dsimp -proj only
  repeat' first
    | simp +decide only [↓learnFrame_frame, ↓ptpReceive_frame, ↓proj_ite, ↓proj_iteP, ite_self]
    | ((with_reducible refine proj_mk_trans ?_ ?_); · ((fail_if_success with_reducible rfl); rfl))
    | split

theorem execFrameReceive_frame {m0 : Nat} (hm0 : m0 &&& 3019736374 = 3019736374) (port : LaneId) (bytes : Bytes) (fcsGood : Bool) (sub : BitVec 6) (s : State) :
    outProj m0 s (execFrameReceive port bytes fcsGood sub s) := by
  refine outProj_mono hm0 ?_
  unfold execFrameReceive
  try dsimp -proj only
  repeat' first
    | (with_reducible refine outProj_next ?_)
    | (with_reducible refine ite_projR ?_ ?_)
    | (with_reducible refine arrive_frame (by decide) _ _ _ _ _ _ ?_)
    | simp +decide only [↓groupArrival_frame, ↓ptpArrival_frame, ↓incCnt_frame, ↓classMFrame_frame, ↓classify_frame, ↓proj_ite, ↓proj_iteP, ite_self]
    | ((with_reducible refine proj_mk_trans ?_ ?_); · ((fail_if_success with_reducible rfl); rfl))
    | (with_reducible intro _)
    | split

theorem execGroupFrameReceive_frame {m0 : Nat} (hm0 : m0 &&& 3015542070 = 3015542070) (port : LaneId) (bytes : Bytes) (fin : FrameEnd) (s : State) :
    outProj m0 s (execGroupFrameReceive port bytes fin s) := by
  refine outProj_mono hm0 ?_
  unfold execGroupFrameReceive
  try dsimp -proj only
  repeat' first
    | (with_reducible refine outProj_next ?_)
    | (with_reducible refine ite_projR ?_ ?_)
    | (with_reducible refine arrive_frame (by decide) _ _ _ _ _ _ ?_)
    | simp +decide only [↓groupArrival_frame, ↓proj_ite, ↓proj_iteP, ite_self]
    | ((with_reducible refine proj_mk_trans ?_ ?_); · ((fail_if_success with_reducible rfl); rfl))
    | (with_reducible intro _)
    | split

theorem issueNow_frame {m0 : Nat} (hm0 : m0 &&& 3020079412 = 3020079412) (i : Instr) (s : State) :
    outProj m0 s (issueNow i s) := by
  refine outProj_mono hm0 ?_
  unfold issueNow
  try dsimp -proj only
  repeat' first
    | (with_reducible refine outProj_next ?_)
    | (with_reducible exact issueMma_frame (by decide) _ _ _ _ _)
    | (with_reducible exact issueVec_frame (by decide) _ _ _ _ _ _)
    | (with_reducible exact issueTree_frame (by decide) _ _ _ _ _)
    | simp +decide only [↓proj_ite, ↓proj_iteP, ite_self]
    | ((with_reducible refine proj_mk_trans ?_ ?_); · ((fail_if_success with_reducible rfl); rfl))
    | (with_reducible refine (next_eq (by assumption) (issueMma_frame (by decide) _ _ _ _ _)).trans ?_)
    | (with_reducible refine (next_eq (by assumption) (issueVec_frame (by decide) _ _ _ _ _ _)).trans ?_)
    | (with_reducible refine (next_eq (by assumption) (issueTree_frame (by decide) _ _ _ _ _)).trans ?_)
    | split

theorem standBack_frame {m0 : Nat} (hm0 : m0 &&& 0 = 0) (held : Bool) (s : State) (r : Res) (hr :
    outProj m0 s r) :
    outProj m0 s (standBack held s r) := by
  unfold standBack
  split
  · exact outProj_next (ite_proj rfl (hr _ rfl))
  · exact outProj_fault
  · exact outProj_refused

theorem execMma_frame {m0 : Nat} (hm0 : m0 &&& 2952790308 = 2952790308) (c : CoreId) (ctx : CtxId) (op : MmaOp) (f : EngineFault) (s : State) :
    outProj m0 s (execMma c ctx op f s) := by
  refine outProj_mono hm0 ?_
  unfold execMma
  try dsimp -proj only
  repeat' first
    | (with_reducible refine outProj_next ?_)
    | (with_reducible refine standBack_frame (by decide) _ _ _ ?_)
    | (with_reducible exact issueMma_frame (by decide) _ _ _ _ _)
    | simp +decide only [↓proj_ite, ↓proj_iteP, ite_self]
    | ((with_reducible refine proj_mk_trans ?_ ?_); · ((fail_if_success with_reducible rfl); rfl))
    | (with_reducible intro _)
    | split

theorem execVec_frame {m0 : Nat} (hm0 : m0 &&& 2952790324 = 2952790324) (c : CoreId) (ctx : CtxId) (op : VecOp) (prog : VecProg) (s : State) :
    outProj m0 s (execVec c ctx op prog s) := by
  refine outProj_mono hm0 ?_
  unfold execVec
  try dsimp -proj only
  repeat' first
    | (with_reducible refine outProj_next ?_)
    | (with_reducible refine standBack_frame (by decide) _ _ _ ?_)
    | (with_reducible exact issueVec_frame (by decide) _ _ _ _ _ _)
    | simp +decide only [↓proj_ite, ↓proj_iteP, ite_self]
    | ((with_reducible refine proj_mk_trans ?_ ?_); · ((fail_if_success with_reducible rfl); rfl))
    | (with_reducible intro _)
    | split

theorem execTree_frame {m0 : Nat} (hm0 : m0 &&& 3020079396 = 3020079396) (c : CoreId) (ctx : CtxId) (op : TreeOp) (faults : List NodeFault) (s : State) :
    outProj m0 s (execTree c ctx op faults s) := by
  refine outProj_mono hm0 ?_
  unfold execTree
  try dsimp -proj only
  repeat' first
    | (with_reducible refine outProj_next ?_)
    | (with_reducible refine standBack_frame (by decide) _ _ _ ?_)
    | (with_reducible exact issueTree_frame (by decide) _ _ _ _ _)
    | simp +decide only [↓proj_ite, ↓proj_iteP, ite_self]
    | ((with_reducible refine proj_mk_trans ?_ ?_); · ((fail_if_success with_reducible rfl); rfl))
    | (with_reducible intro _)
    | split

theorem advance_frame {m0 : Nat} (hm0 : m0 &&& 268701699 = 268701699) (s : State) : proj m0 (advance s) = proj m0 s := by
  refine proj_mono hm0 ?_
  unfold advance
  try dsimp -proj only
  repeat' first
    | simp +decide only [↓setSticky_frame, ↓modTime_frame, ↓edgeLaunches_frame, ↓proj_ite, ↓proj_iteP, ite_self]
    | ((with_reducible refine proj_mk_trans ?_ ?_); · ((fail_if_success with_reducible rfl); rfl))
    | split

theorem tick_frame {m0 : Nat} (hm0 : m0 &&& 4152351031 = 4152351031) (s : State) : proj m0 (tick s) = proj m0 s := by
  refine proj_mono hm0 ?_
  unfold tick
  try dsimp -proj only
  repeat' first
    | simp +decide only [↓evalHandover_frame, ↓commitCmds_frame, ↓edgeFreezes_frame, ↓advance_frame, ↓endVisits_frame, ↓proj_ite, ↓proj_iteP, ite_self]
    | ((with_reducible refine proj_mk_trans ?_ ?_); · ((fail_if_success with_reducible rfl); rfl))
    | split

end Sys2Proof.Machine
end

