-- ==== Sys2Proof/Laws/Maps.lean ====
section
/-! SUPPORT. Laws of sparse maps, of byte memories and of families of fixed size: what a read finds after a write,
that writes keep the canonical form, and that the memories of the machine after reset have it. -/

namespace Sys2Proof.Machine

variable {α : Type}

/-! ### Maps -/

theorem mapGet_append (k : Nat) (a b : List (Nat × α)) :
    mapGet k (a ++ b) = (mapGet k a).or (mapGet k b) := by
  induction a with
  | nil => simp [mapGet]
  | cons p a ih => by_cases h : p.1 = k <;> simp [mapGet, h, ih]

theorem mapGet_filter_keep (k : Nat) (q : Nat → Bool) (m : List (Nat × α)) (h : q k = true) :
    mapGet k (m.filter (fun p => q p.1)) = mapGet k m := by
  induction m with
  | nil => rfl
  | cons p m ih =>
    by_cases hp : p.1 = k
    · simp [mapGet, hp, h]
    · by_cases hq : q p.1 <;> simp [mapGet, hp, hq, ih]

theorem mapGet_filter_drop (k : Nat) (q : Nat → Bool) (m : List (Nat × α)) (h : q k = false) :
    mapGet k (m.filter (fun p => q p.1)) = none := by
  induction m with
  | nil => rfl
  | cons p m ih =>
    by_cases hp : p.1 = k
    · simp [hp, h, ih]
    · by_cases hq : q p.1 <;> simp [mapGet, hp, hq, ih]

@[simp] theorem mapGet_mapSet_same (k : Nat) (v : α) (m : List (Nat × α)) : mapGet k (mapSet k v m) = some v := by
  have h := mapGet_filter_drop k (fun j => decide (j < k)) m (by simp)
  simp [mapSet, mapGet_append, h, mapGet]

theorem mapGet_mapSet_other {j k : Nat} (v : α) (m : List (Nat × α)) (h : j ≠ k) :
    mapGet j (mapSet k v m) = mapGet j m := by
  have h' : ¬ k = j := fun e => h e.symm
  rcases Nat.lt_or_gt_of_ne h with hl | hl
  · have a := mapGet_filter_keep j (fun i => decide (i < k)) m (by simpa using hl)
    have b := mapGet_filter_drop j (fun i => decide (k < i)) m (by simp; omega)
    simp [mapSet, mapGet_append, a, b, mapGet, h']
  · have a := mapGet_filter_drop j (fun i => decide (i < k)) m (by simp; omega)
    have b := mapGet_filter_keep j (fun i => decide (k < i)) m (by simpa using hl)
    simp [mapSet, mapGet_append, a, b, mapGet, h']

@[simp] theorem mapGet_mapDel_same (k : Nat) (m : List (Nat × α)) : mapGet k (mapDel k m) = none :=
  mapGet_filter_drop k (fun j => j != k) m (by simp)

theorem mapGet_mapDel_other {j k : Nat} (m : List (Nat × α)) (h : j ≠ k) : mapGet j (mapDel k m) = mapGet j m :=
  mapGet_filter_keep j (fun i => i != k) m (by simpa using h)

@[simp] theorem mapGetD_mapSet_same (d : α) (k : Nat) (v : α) (m : List (Nat × α)) : mapGetD d k (mapSet k v m) = v := by
  simp [mapGetD]

theorem mapGetD_mapSet_other (d : α) {j k : Nat} (v : α) (m : List (Nat × α)) (h : j ≠ k) :
    mapGetD d j (mapSet k v m) = mapGetD d j m := by
  simp [mapGetD, mapGet_mapSet_other v m h]

@[simp] theorem mapGetD_mapSetD_same [BEq α] [LawfulBEq α] (d : α) (k : Nat) (v : α) (m : List (Nat × α)) :
    mapGetD d k (mapSetD d k v m) = v := by
  unfold mapSetD
  split
  · rename_i h; simp [mapGetD, eq_of_beq h]
  · simp

theorem mapGetD_mapSetD_other [BEq α] (d : α) {j k : Nat} (v : α) (m : List (Nat × α)) (h : j ≠ k) :
    mapGetD d j (mapSetD d k v m) = mapGetD d j m := by
  unfold mapSetD
  split
  · simp [mapGetD, mapGet_mapDel_other m h]
  · exact mapGetD_mapSet_other d v m h

theorem keysRise_iff (m : List (Nat × α)) : keysRise m = true ↔ m.Pairwise (fun a b => a.1 < b.1) := by
  induction m with
  | nil => simp [keysRise]
  | cons a m ih =>
    cases m with
    | nil => simp [keysRise]
    | cons b m =>
      rw [keysRise, Bool.and_eq_true, ih, decide_eq_true_iff, List.pairwise_cons (a := a)]
      constructor
      · rintro ⟨hab, hp⟩
        refine ⟨fun c hc => ?_, hp⟩
        rcases List.mem_cons.1 hc with rfl | hc
        · exact hab
        · exact Nat.lt_trans hab (List.rel_of_pairwise_cons hp hc)
      · rintro ⟨h, hp⟩
        exact ⟨h b (by simp), hp⟩

/-- Every write of a map keeps its keys rising. -/
theorem keysRise_mapSet (k : Nat) (v : α) (m : List (Nat × α)) (h : keysRise m = true) : keysRise (mapSet k v m) = true := by
  rw [keysRise_iff] at h ⊢
  unfold mapSet
  refine List.pairwise_append.2 ⟨h.filter _, List.pairwise_cons.2 ⟨?_, h.filter _⟩, ?_⟩
  · intro b hb; simpa using (List.mem_filter.1 hb).2
  · intro a ha b hb
    have ha := (List.mem_filter.1 ha).2
    rcases List.mem_cons.1 hb with rfl | hb
    · simpa using ha
    · have hb := (List.mem_filter.1 hb).2
      simp at ha hb; omega

theorem keysRise_mapDel (k : Nat) (m : List (Nat × α)) (h : keysRise m = true) : keysRise (mapDel k m) = true := by
  rw [keysRise_iff] at h ⊢
  exact h.filter _

theorem keysRise_mapSetD [BEq α] (d : α) (k : Nat) (v : α) (m : List (Nat × α)) (h : keysRise m = true) :
    keysRise (mapSetD d k v m) = true := by
  unfold mapSetD
  split
  · exact keysRise_mapDel k m h
  · exact keysRise_mapSet k v m h

/-! ### Byte memories -/

theorem mem_cellsOf {a : Nat} {bs : Bytes} {c : Host.Cell} (h : c ∈ cellsOf a bs) :
    a ≤ c.1 ∧ c.1 < a + bs.length ∧ c.2 ≠ 0 := by
  induction bs generalizing a with
  | nil => simp [cellsOf] at h
  | cons b bs ih =>
    unfold cellsOf at h
    split at h
    · obtain ⟨h1, h2, h3⟩ := ih h
      exact ⟨by omega, by simp only [List.length_cons]; omega, h3⟩
    · rename_i hb
      rcases List.mem_cons.1 h with rfl | h
      · simpa using hb
      · obtain ⟨h1, h2, h3⟩ := ih h
        exact ⟨by omega, by simp only [List.length_cons]; omega, h3⟩

theorem mapGet_none_of {k : Nat} {m : List (Nat × α)} (h : ∀ c ∈ m, c.1 ≠ k) : mapGet k m = none := by
  induction m with
  | nil => rfl
  | cons p m ih =>
    have hp : p.1 ≠ k := h p (by simp)
    simp [mapGet, hp, ih (fun c hc => h c (by simp [hc]))]

theorem mapGetD_cellsOf (a : Nat) (bs : Bytes) (i : Nat) (h : i < bs.length) :
    mapGetD 0 (a + i) (cellsOf a bs) = bs[i] := by
  induction bs generalizing a i with
  | nil => simp at h
  | cons b bs ih =>
    cases i with
    | zero =>
      unfold cellsOf
      split
      · rename_i hb
        have hn : mapGet a (cellsOf (a + 1) bs) = none := mapGet_none_of (fun c hc => by have := mem_cellsOf hc; omega)
        simp [mapGetD, hn, (eq_of_beq hb)]
      · simp [mapGetD, mapGet]
    | succ i =>
      have hi := ih (a + 1) i (by simpa using h)
      unfold cellsOf
      split
      · simpa [Nat.add_assoc, Nat.add_comm 1 i] using hi
      · have hne : ¬ a = a + (i + 1) := by omega
        simpa [mapGetD, mapGet, hne, Nat.add_assoc, Nat.add_comm 1 i] using hi

/-- A byte inside a write reads as written. -/
theorem ramGet_ramWrite_in (r : List Host.Cell) (a : Nat) (bs : Bytes) (i : Nat) (h : i < bs.length) :
    ramGet (ramWrite r a bs) (a + i) = bs[i] := by
  have h1 := mapGet_filter_drop (a + i) (fun j => decide (j < a)) r (by simp)
  have h3 := mapGet_filter_drop (a + i) (fun j => decide (a + bs.length ≤ j)) r (by simp; omega)
  have h2 := mapGetD_cellsOf a bs i h
  simpa [ramGet, ramWrite, mapGetD, mapGet_append, h1, h3] using h2

/-- A byte outside a write reads as before. -/
theorem ramGet_ramWrite_out (r : List Host.Cell) (a : Nat) (bs : Bytes) (j : Nat) (h : j < a ∨ a + bs.length ≤ j) :
    ramGet (ramWrite r a bs) j = ramGet r j := by
  have h2 : mapGet j (cellsOf a bs) = none := mapGet_none_of (fun c hc => by have := mem_cellsOf hc; grind)
  rcases h with h | h
  · have h1 := mapGet_filter_keep j (fun i => decide (i < a)) r (by simpa using h)
    have h3 := mapGet_filter_drop j (fun i => decide (a + bs.length ≤ i)) r (by simp; omega)
    simp [ramGet, ramWrite, mapGetD, mapGet_append, h1, h3, h2]
  · have h1 := mapGet_filter_drop j (fun i => decide (i < a)) r (by simp; omega)
    have h3 := mapGet_filter_keep j (fun i => decide (a + bs.length ≤ i)) r (by simpa using h)
    simp [ramGet, ramWrite, mapGetD, mapGet_append, h1, h3, h2]

theorem readCells_above (n a : Nat) (l : List Host.Cell) (h : ∀ c ∈ l, a < c.1) :
    readCells (n + 1) a l = 0 :: readCells n (a + 1) l := by
  cases l with
  | nil => rfl
  | cons c l =>
    have : ¬ c.1 = a := by have := h c (by simp); omega
    obtain ⟨k, b⟩ := c
    simp [readCells, show ¬ k = a from this]

theorem readCells_cellsOf (n a : Nat) (bs : Bytes) (rest : List Host.Cell) (hn : n ≤ bs.length)
    (h : ∀ c ∈ rest, a + bs.length ≤ c.1) : readCells n a (cellsOf a bs ++ rest) = bs.take n := by
  induction bs generalizing a n with
  | nil => obtain rfl : n = 0 := by simpa using hn
           rfl
  | cons b bs ih =>
    cases n with
    | zero => rfl
    | succ n =>
      have hr : ∀ c ∈ rest, a + 1 + bs.length ≤ c.1 := fun c hc => by
        have := h c hc; simp only [List.length_cons] at this; omega
      have hi := ih n (a + 1) (by simpa using hn) hr
      unfold cellsOf
      split
      · rename_i hb
        rw [readCells_above]
        · simp [hi, eq_of_beq hb]
        · intro c hc
          rcases List.mem_append.1 hc with hc | hc
          · exact (mem_cellsOf hc).1
          · have := hr c hc; omega
      · simp [readCells, hi]

theorem dropWhile_cellsOf (a i : Nat) (bs : Bytes) (rest : List Host.Cell) (hi : i ≤ bs.length)
    (h : ∀ c ∈ rest, a + bs.length ≤ c.1) :
    (cellsOf a bs ++ rest).dropWhile (fun c => decide (c.1 < a + i)) = cellsOf (a + i) (bs.drop i) ++ rest := by
  induction bs generalizing a i with
  | nil =>
    obtain rfl : i = 0 := by simpa using hi
    cases rest with
    | nil => rfl
    | cons c rest =>
      have := h c (by simp)
      have hn : ¬ c.1 < a := by simp at this; omega
      simp [cellsOf, hn]
  | cons b bs ih =>
    have hr : ∀ c ∈ rest, a + 1 + bs.length ≤ c.1 := fun c hc => by
      have := h c hc; simp only [List.length_cons] at this; omega
    cases i with
    | zero =>
      have : ∀ c ∈ cellsOf a (b :: bs) ++ rest, ¬ c.1 < a := by
        intro c hc
        rcases List.mem_append.1 hc with hc | hc
        · have := (mem_cellsOf hc).1; omega
        · have := h c hc; omega
      cases hl : cellsOf a (b :: bs) ++ rest with
      | nil => simp [hl]
      | cons c l =>
        have hc := this c (by simp [hl])
        simp [List.dropWhile, hc, ← hl]
    | succ i =>
      have hi' := ih (a + 1) i (by simpa using hi) hr
      rw [show a + (i + 1) = a + 1 + i by omega, List.drop_succ_cons, ← hi']
      have hc : a < a + 1 + i := by omega
      by_cases hb : b = 0
      · simp [cellsOf, hb]
      · have hb' : ¬ b = 0#8 := hb
        simp [cellsOf, hb', hc]

theorem dropWhile_filter_lt (a b : Nat) (hab : a ≤ b) (r l : List Host.Cell) :
    (r.filter (fun c => decide (c.1 < a)) ++ l).dropWhile (fun c => decide (c.1 < b)) = l.dropWhile (fun c => decide (c.1 < b)) := by
  induction r with
  | nil => rfl
  | cons c r ih =>
    by_cases h : c.1 < a
    · have : c.1 < b := by omega
      simp [h, this, ih]
    · simp [h, ih]

/-- Bytes inside a write read as written. -/
theorem ramRead_ramWrite (r : List Host.Cell) (a i n : Nat) (bs : Bytes) (h : i + n ≤ bs.length) :
    ramRead (ramWrite r a bs) (a + i) n = (bs.drop i).take n := by
  have hr : ∀ c ∈ r.filter (fun c => decide (a + bs.length ≤ c.1)), a + bs.length ≤ c.1 := fun c hc => by
    simpa using (List.mem_filter.1 hc).2
  unfold ramRead ramWrite
  rw [List.append_assoc, dropWhile_filter_lt a (a + i) (by omega), dropWhile_cellsOf a i bs _ (by omega) hr]
  refine readCells_cellsOf n (a + i) _ _ (by simp; omega) (fun c hc => ?_)
  have := hr c hc
  simp; omega

theorem pairwise_cellsOf (a : Nat) (bs : Bytes) : (cellsOf a bs).Pairwise (fun x y => x.1 < y.1) := by
  induction bs generalizing a with
  | nil => simp [cellsOf]
  | cons b bs ih =>
    unfold cellsOf
    split
    · exact ih _
    · exact List.pairwise_cons.2 ⟨fun c hc => by have := mem_cellsOf hc; show a < c.1; omega, ih _⟩

/-- Every write keeps the canonical form. -/
theorem ramWf_ramWrite (r : List Host.Cell) (a : Nat) (bs : Bytes) (h : ramWf r = true) : ramWf (ramWrite r a bs) = true := by
  simp only [ramWf, Bool.and_eq_true, keysRise_iff, List.all_eq_true] at h ⊢
  obtain ⟨hp, hz⟩ := h
  refine ⟨?_, ?_⟩
  · unfold ramWrite
    refine List.pairwise_append.2 ⟨List.pairwise_append.2 ⟨hp.filter _, pairwise_cellsOf a bs, ?_⟩, hp.filter _, ?_⟩
    · intro x hx y hy
      have h1 := (List.mem_filter.1 hx).2
      have h2 := mem_cellsOf hy
      simp at h1; omega
    · intro x hx y hy
      have h2 := (List.mem_filter.1 hy).2
      rcases List.mem_append.1 hx with hx | hx
      · have h1 := (List.mem_filter.1 hx).2
        simp at h1 h2; omega
      · have h1 := mem_cellsOf hx
        simp at h2; omega
  · intro c hc
    unfold ramWrite at hc
    rcases List.mem_append.1 hc with hc | hc
    · rcases List.mem_append.1 hc with hc | hc
      · exact hz c (List.mem_filter.1 hc).1
      · simpa using (mem_cellsOf hc).2.2
    · exact hz c (List.mem_filter.1 hc).1

theorem ramWf_nil : ramWf [] = true := rfl

/-! ### Families of fixed size -/

@[simp] theorem famGet_famSet_same {n : Nat} (d : α) (f : Vector α n) (i : Nat) (v : α) (h : i < n) :
    famGet d (famSet f i v) i = v := by
  simp [famGet, famSet, List.getD, Vector.toList, h]

theorem famGet_famSet_other {n : Nat} (d : α) (f : Vector α n) {i j : Nat} (v : α) (h : j ≠ i) :
    famGet d (famSet f i v) j = famGet d f j := by
  have h' : ¬ i = j := fun e => h e.symm
  simp [famGet, famSet, List.getD, Vector.toList, h']

theorem famGet_famMap {n : Nat} (d : α) (g : Nat → α → α) (f : Vector α n) (i : Nat) (h : i < n) :
    famGet d (famMap g f) i = g i (famGet d f i) := by
  simp [famGet, famMap, List.getD, Vector.toList, h]

end Sys2Proof.Machine
end

