-- ==== Sys2Proof/Laws/State.lean ====
section
/-! SUPPORT. One lemma per field for each update of the state that leaves it, and what its own field reads
afterwards. -/

namespace Sys2Proof.Machine

variable (s : State) (off idx hi lo v b i n st : Nat) (u : UnitCode) (cause : W16) (seq : W32)
variable (c : CoreId) (k : ClusterId) (d : CDie) (nd : NDie) (p : HPort)
variable (x : CoreState) (xk : ClusterState) (xd : DieState) (xs : Slot) (xp : PortState) (xq : Peer) (xt : Tbl) (xn : NetTables)
variable (xr : Req) (xo : Dom) (xu : Nlu) (xl : Lane) (xe : EPort)
variable (fc : CoreState → CoreState) (fk : ClusterState → ClusterState) (fd : DieState → DieState) (fs : Slot → Slot)
variable (fp : PortState → PortState) (fg : GroupState → GroupState) (fn : NetTables → NetTables) (ft : TimeState → TimeState)
variable (fy : Canopy → Canopy) (fb : BootState → BootState) (fr : Ream → Ream) (fl : Lane → Lane) (fe : EPort → EPort)


/-! ### Updates that leave `gt` -/
@[simp] theorem addCnt_gt : (addCnt i n s).gt = s.gt := rfl
@[simp] theorem setCnt_gt : (setCnt i n s).gt = s.gt := rfl
@[simp] theorem setCore_gt : (setCore c x s).gt = s.gt := rfl
@[simp] theorem incCnt_gt : (incCnt i s).gt = s.gt := rfl
@[simp] theorem modCore_gt : (modCore c fc s).gt = s.gt := rfl
@[simp] theorem setCluster_gt : (setCluster k xk s).gt = s.gt := rfl
@[simp] theorem modCluster_gt : (modCluster k fk s).gt = s.gt := rfl
@[simp] theorem setRegW_gt : (setRegW off idx v s).gt = s.gt := rfl
@[simp] theorem setDie_gt : (setDie d xd s).gt = s.gt := rfl
@[simp] theorem modDie_gt : (modDie d fd s).gt = s.gt := rfl
@[simp] theorem setSlot_gt : (setSlot i xs s).gt = s.gt := rfl
@[simp] theorem setRegF_gt : (setRegF off idx hi lo v s).gt = s.gt := rfl
@[simp] theorem modSlot_gt : (modSlot i fs s).gt = s.gt := rfl
@[simp] theorem setPort_gt : (setPort p xp s).gt = s.gt := rfl
@[simp] theorem modPort_gt : (modPort p fp s).gt = s.gt := rfl
@[simp] theorem modGrp_gt : (modGrp fg s).gt = s.gt := rfl
@[simp] theorem setPeer_gt : (setPeer i xq s).gt = s.gt := rfl
@[simp] theorem setTbl_gt : (setTbl i xt s).gt = s.gt := rfl
@[simp] theorem setNet_gt : (setNet nd xn s).gt = s.gt := rfl
@[simp] theorem setSticky_gt : (setSticky off idx b s).gt = s.gt := rfl
@[simp] theorem modNet_gt : (modNet nd fn s).gt = s.gt := rfl
@[simp] theorem setReq_gt : (setReq i xr s).gt = s.gt := rfl
@[simp] theorem putDom_gt : (putDom i xo s).gt = s.gt := rfl
@[simp] theorem modTime_gt : (modTime ft s).gt = s.gt := rfl
@[simp] theorem setNlu_gt : (setNlu i xu s).gt = s.gt := rfl
@[simp] theorem modReam_gt : (modReam seq fr s).gt = s.gt := rfl
@[simp] theorem setLane_gt : (setLane i xl s).gt = s.gt := rfl
@[simp] theorem setUnit_gt : (setUnit u st cause s).gt = s.gt := rfl
@[simp] theorem modLane_gt : (modLane i fl s).gt = s.gt := rfl
@[simp] theorem setEPort_gt : (setEPort i xe s).gt = s.gt := rfl
@[simp] theorem modEPort_gt : (modEPort i fe s).gt = s.gt := rfl
@[simp] theorem modCanopy_gt : (modCanopy fy s).gt = s.gt := rfl
@[simp] theorem modBoot_gt : (modBoot fb s).gt = s.gt := rfl

/-! ### Updates that leave `time` -/
@[simp] theorem addCnt_time : (addCnt i n s).time = s.time := rfl
@[simp] theorem setCnt_time : (setCnt i n s).time = s.time := rfl
@[simp] theorem setCore_time : (setCore c x s).time = s.time := rfl
@[simp] theorem incCnt_time : (incCnt i s).time = s.time := rfl
@[simp] theorem modCore_time : (modCore c fc s).time = s.time := rfl
@[simp] theorem setCluster_time : (setCluster k xk s).time = s.time := rfl
@[simp] theorem modCluster_time : (modCluster k fk s).time = s.time := rfl
@[simp] theorem setRegW_time : (setRegW off idx v s).time = s.time := rfl
@[simp] theorem setDie_time : (setDie d xd s).time = s.time := rfl
@[simp] theorem modDie_time : (modDie d fd s).time = s.time := rfl
@[simp] theorem setSlot_time : (setSlot i xs s).time = s.time := rfl
@[simp] theorem setRegF_time : (setRegF off idx hi lo v s).time = s.time := rfl
@[simp] theorem modSlot_time : (modSlot i fs s).time = s.time := rfl
@[simp] theorem setPort_time : (setPort p xp s).time = s.time := rfl
@[simp] theorem modPort_time : (modPort p fp s).time = s.time := rfl
@[simp] theorem modGrp_time : (modGrp fg s).time = s.time := rfl
@[simp] theorem setPeer_time : (setPeer i xq s).time = s.time := rfl
@[simp] theorem setTbl_time : (setTbl i xt s).time = s.time := rfl
@[simp] theorem setNet_time : (setNet nd xn s).time = s.time := rfl
@[simp] theorem setSticky_time : (setSticky off idx b s).time = s.time := rfl
@[simp] theorem modNet_time : (modNet nd fn s).time = s.time := rfl
@[simp] theorem setReq_time : (setReq i xr s).time = s.time := rfl
@[simp] theorem putDom_time : (putDom i xo s).time = s.time := rfl
@[simp] theorem setNlu_time : (setNlu i xu s).time = s.time := rfl
@[simp] theorem modReam_time : (modReam seq fr s).time = s.time := rfl
@[simp] theorem setLane_time : (setLane i xl s).time = s.time := rfl
@[simp] theorem setUnit_time : (setUnit u st cause s).time = s.time := rfl
@[simp] theorem modLane_time : (modLane i fl s).time = s.time := rfl
@[simp] theorem setEPort_time : (setEPort i xe s).time = s.time := rfl
@[simp] theorem modEPort_time : (modEPort i fe s).time = s.time := rfl
@[simp] theorem modCanopy_time : (modCanopy fy s).time = s.time := rfl
@[simp] theorem modBoot_time : (modBoot fb s).time = s.time := rfl

/-! ### Updates that leave `cores` -/
@[simp] theorem addCnt_cores : (addCnt i n s).cores = s.cores := rfl
@[simp] theorem setCnt_cores : (setCnt i n s).cores = s.cores := rfl
@[simp] theorem incCnt_cores : (incCnt i s).cores = s.cores := rfl
@[simp] theorem setCluster_cores : (setCluster k xk s).cores = s.cores := rfl
@[simp] theorem modCluster_cores : (modCluster k fk s).cores = s.cores := rfl
@[simp] theorem setRegW_cores : (setRegW off idx v s).cores = s.cores := rfl
@[simp] theorem setDie_cores : (setDie d xd s).cores = s.cores := rfl
@[simp] theorem modDie_cores : (modDie d fd s).cores = s.cores := rfl
@[simp] theorem setSlot_cores : (setSlot i xs s).cores = s.cores := rfl
@[simp] theorem setRegF_cores : (setRegF off idx hi lo v s).cores = s.cores := rfl
@[simp] theorem modSlot_cores : (modSlot i fs s).cores = s.cores := rfl
@[simp] theorem setPort_cores : (setPort p xp s).cores = s.cores := rfl
@[simp] theorem modPort_cores : (modPort p fp s).cores = s.cores := rfl
@[simp] theorem modGrp_cores : (modGrp fg s).cores = s.cores := rfl
@[simp] theorem setPeer_cores : (setPeer i xq s).cores = s.cores := rfl
@[simp] theorem setTbl_cores : (setTbl i xt s).cores = s.cores := rfl
@[simp] theorem setNet_cores : (setNet nd xn s).cores = s.cores := rfl
@[simp] theorem setSticky_cores : (setSticky off idx b s).cores = s.cores := rfl
@[simp] theorem modNet_cores : (modNet nd fn s).cores = s.cores := rfl
@[simp] theorem setReq_cores : (setReq i xr s).cores = s.cores := rfl
@[simp] theorem putDom_cores : (putDom i xo s).cores = s.cores := rfl
@[simp] theorem modTime_cores : (modTime ft s).cores = s.cores := rfl
@[simp] theorem setNlu_cores : (setNlu i xu s).cores = s.cores := rfl
@[simp] theorem modReam_cores : (modReam seq fr s).cores = s.cores := rfl
@[simp] theorem setLane_cores : (setLane i xl s).cores = s.cores := rfl
@[simp] theorem setUnit_cores : (setUnit u st cause s).cores = s.cores := rfl
@[simp] theorem modLane_cores : (modLane i fl s).cores = s.cores := rfl
@[simp] theorem setEPort_cores : (setEPort i xe s).cores = s.cores := rfl
@[simp] theorem modEPort_cores : (modEPort i fe s).cores = s.cores := rfl
@[simp] theorem modCanopy_cores : (modCanopy fy s).cores = s.cores := rfl
@[simp] theorem modBoot_cores : (modBoot fb s).cores = s.cores := rfl

/-! ### Updates that leave `clusters` -/
@[simp] theorem addCnt_clusters : (addCnt i n s).clusters = s.clusters := rfl
@[simp] theorem setCnt_clusters : (setCnt i n s).clusters = s.clusters := rfl
@[simp] theorem setCore_clusters : (setCore c x s).clusters = s.clusters := rfl
@[simp] theorem incCnt_clusters : (incCnt i s).clusters = s.clusters := rfl
@[simp] theorem modCore_clusters : (modCore c fc s).clusters = s.clusters := rfl
@[simp] theorem setRegW_clusters : (setRegW off idx v s).clusters = s.clusters := rfl
@[simp] theorem setDie_clusters : (setDie d xd s).clusters = s.clusters := rfl
@[simp] theorem modDie_clusters : (modDie d fd s).clusters = s.clusters := rfl
@[simp] theorem setSlot_clusters : (setSlot i xs s).clusters = s.clusters := rfl
@[simp] theorem setRegF_clusters : (setRegF off idx hi lo v s).clusters = s.clusters := rfl
@[simp] theorem modSlot_clusters : (modSlot i fs s).clusters = s.clusters := rfl
@[simp] theorem setPort_clusters : (setPort p xp s).clusters = s.clusters := rfl
@[simp] theorem modPort_clusters : (modPort p fp s).clusters = s.clusters := rfl
@[simp] theorem modGrp_clusters : (modGrp fg s).clusters = s.clusters := rfl
@[simp] theorem setPeer_clusters : (setPeer i xq s).clusters = s.clusters := rfl
@[simp] theorem setTbl_clusters : (setTbl i xt s).clusters = s.clusters := rfl
@[simp] theorem setNet_clusters : (setNet nd xn s).clusters = s.clusters := rfl
@[simp] theorem setSticky_clusters : (setSticky off idx b s).clusters = s.clusters := rfl
@[simp] theorem modNet_clusters : (modNet nd fn s).clusters = s.clusters := rfl
@[simp] theorem setReq_clusters : (setReq i xr s).clusters = s.clusters := rfl
@[simp] theorem putDom_clusters : (putDom i xo s).clusters = s.clusters := rfl
@[simp] theorem modTime_clusters : (modTime ft s).clusters = s.clusters := rfl
@[simp] theorem setNlu_clusters : (setNlu i xu s).clusters = s.clusters := rfl
@[simp] theorem modReam_clusters : (modReam seq fr s).clusters = s.clusters := rfl
@[simp] theorem setLane_clusters : (setLane i xl s).clusters = s.clusters := rfl
@[simp] theorem setUnit_clusters : (setUnit u st cause s).clusters = s.clusters := rfl
@[simp] theorem modLane_clusters : (modLane i fl s).clusters = s.clusters := rfl
@[simp] theorem setEPort_clusters : (setEPort i xe s).clusters = s.clusters := rfl
@[simp] theorem modEPort_clusters : (modEPort i fe s).clusters = s.clusters := rfl
@[simp] theorem modCanopy_clusters : (modCanopy fy s).clusters = s.clusters := rfl
@[simp] theorem modBoot_clusters : (modBoot fb s).clusters = s.clusters := rfl

/-! ### Updates that leave `dies` -/
@[simp] theorem addCnt_dies : (addCnt i n s).dies = s.dies := rfl
@[simp] theorem setCnt_dies : (setCnt i n s).dies = s.dies := rfl
@[simp] theorem setCore_dies : (setCore c x s).dies = s.dies := rfl
@[simp] theorem incCnt_dies : (incCnt i s).dies = s.dies := rfl
@[simp] theorem modCore_dies : (modCore c fc s).dies = s.dies := rfl
@[simp] theorem setCluster_dies : (setCluster k xk s).dies = s.dies := rfl
@[simp] theorem modCluster_dies : (modCluster k fk s).dies = s.dies := rfl
@[simp] theorem setRegW_dies : (setRegW off idx v s).dies = s.dies := rfl
@[simp] theorem setSlot_dies : (setSlot i xs s).dies = s.dies := rfl
@[simp] theorem setRegF_dies : (setRegF off idx hi lo v s).dies = s.dies := rfl
@[simp] theorem modSlot_dies : (modSlot i fs s).dies = s.dies := rfl
@[simp] theorem setPort_dies : (setPort p xp s).dies = s.dies := rfl
@[simp] theorem modPort_dies : (modPort p fp s).dies = s.dies := rfl
@[simp] theorem modGrp_dies : (modGrp fg s).dies = s.dies := rfl
@[simp] theorem setPeer_dies : (setPeer i xq s).dies = s.dies := rfl
@[simp] theorem setTbl_dies : (setTbl i xt s).dies = s.dies := rfl
@[simp] theorem setNet_dies : (setNet nd xn s).dies = s.dies := rfl
@[simp] theorem setSticky_dies : (setSticky off idx b s).dies = s.dies := rfl
@[simp] theorem modNet_dies : (modNet nd fn s).dies = s.dies := rfl
@[simp] theorem setReq_dies : (setReq i xr s).dies = s.dies := rfl
@[simp] theorem putDom_dies : (putDom i xo s).dies = s.dies := rfl
@[simp] theorem modTime_dies : (modTime ft s).dies = s.dies := rfl
@[simp] theorem setNlu_dies : (setNlu i xu s).dies = s.dies := rfl
@[simp] theorem modReam_dies : (modReam seq fr s).dies = s.dies := rfl
@[simp] theorem setLane_dies : (setLane i xl s).dies = s.dies := rfl
@[simp] theorem setUnit_dies : (setUnit u st cause s).dies = s.dies := rfl
@[simp] theorem modLane_dies : (modLane i fl s).dies = s.dies := rfl
@[simp] theorem setEPort_dies : (setEPort i xe s).dies = s.dies := rfl
@[simp] theorem modEPort_dies : (modEPort i fe s).dies = s.dies := rfl
@[simp] theorem modCanopy_dies : (modCanopy fy s).dies = s.dies := rfl
@[simp] theorem modBoot_dies : (modBoot fb s).dies = s.dies := rfl

/-! ### Updates that leave `canopy` -/
@[simp] theorem addCnt_canopy : (addCnt i n s).canopy = s.canopy := rfl
@[simp] theorem setCnt_canopy : (setCnt i n s).canopy = s.canopy := rfl
@[simp] theorem setCore_canopy : (setCore c x s).canopy = s.canopy := rfl
@[simp] theorem incCnt_canopy : (incCnt i s).canopy = s.canopy := rfl
@[simp] theorem modCore_canopy : (modCore c fc s).canopy = s.canopy := rfl
@[simp] theorem setCluster_canopy : (setCluster k xk s).canopy = s.canopy := rfl
@[simp] theorem modCluster_canopy : (modCluster k fk s).canopy = s.canopy := rfl
@[simp] theorem setRegW_canopy : (setRegW off idx v s).canopy = s.canopy := rfl
@[simp] theorem setDie_canopy : (setDie d xd s).canopy = s.canopy := rfl
@[simp] theorem modDie_canopy : (modDie d fd s).canopy = s.canopy := rfl
@[simp] theorem setSlot_canopy : (setSlot i xs s).canopy = s.canopy := rfl
@[simp] theorem setRegF_canopy : (setRegF off idx hi lo v s).canopy = s.canopy := rfl
@[simp] theorem modSlot_canopy : (modSlot i fs s).canopy = s.canopy := rfl
@[simp] theorem setPort_canopy : (setPort p xp s).canopy = s.canopy := rfl
@[simp] theorem modPort_canopy : (modPort p fp s).canopy = s.canopy := rfl
@[simp] theorem modGrp_canopy : (modGrp fg s).canopy = s.canopy := rfl
@[simp] theorem setPeer_canopy : (setPeer i xq s).canopy = s.canopy := rfl
@[simp] theorem setTbl_canopy : (setTbl i xt s).canopy = s.canopy := rfl
@[simp] theorem setNet_canopy : (setNet nd xn s).canopy = s.canopy := rfl
@[simp] theorem setSticky_canopy : (setSticky off idx b s).canopy = s.canopy := rfl
@[simp] theorem modNet_canopy : (modNet nd fn s).canopy = s.canopy := rfl
@[simp] theorem setReq_canopy : (setReq i xr s).canopy = s.canopy := rfl
@[simp] theorem putDom_canopy : (putDom i xo s).canopy = s.canopy := rfl
@[simp] theorem modTime_canopy : (modTime ft s).canopy = s.canopy := rfl
@[simp] theorem setNlu_canopy : (setNlu i xu s).canopy = s.canopy := rfl
@[simp] theorem modReam_canopy : (modReam seq fr s).canopy = s.canopy := rfl
@[simp] theorem setLane_canopy : (setLane i xl s).canopy = s.canopy := rfl
@[simp] theorem modLane_canopy : (modLane i fl s).canopy = s.canopy := rfl
@[simp] theorem setEPort_canopy : (setEPort i xe s).canopy = s.canopy := rfl
@[simp] theorem modEPort_canopy : (modEPort i fe s).canopy = s.canopy := rfl
@[simp] theorem modBoot_canopy : (modBoot fb s).canopy = s.canopy := rfl

/-! ### Updates that leave `liveScales` -/
@[simp] theorem addCnt_liveScales : (addCnt i n s).liveScales = s.liveScales := rfl
@[simp] theorem setCnt_liveScales : (setCnt i n s).liveScales = s.liveScales := rfl
@[simp] theorem setCore_liveScales : (setCore c x s).liveScales = s.liveScales := rfl
@[simp] theorem incCnt_liveScales : (incCnt i s).liveScales = s.liveScales := rfl
@[simp] theorem modCore_liveScales : (modCore c fc s).liveScales = s.liveScales := rfl
@[simp] theorem setCluster_liveScales : (setCluster k xk s).liveScales = s.liveScales := rfl
@[simp] theorem modCluster_liveScales : (modCluster k fk s).liveScales = s.liveScales := rfl
@[simp] theorem setRegW_liveScales : (setRegW off idx v s).liveScales = s.liveScales := rfl
@[simp] theorem setDie_liveScales : (setDie d xd s).liveScales = s.liveScales := rfl
@[simp] theorem modDie_liveScales : (modDie d fd s).liveScales = s.liveScales := rfl
@[simp] theorem setSlot_liveScales : (setSlot i xs s).liveScales = s.liveScales := rfl
@[simp] theorem setRegF_liveScales : (setRegF off idx hi lo v s).liveScales = s.liveScales := rfl
@[simp] theorem modSlot_liveScales : (modSlot i fs s).liveScales = s.liveScales := rfl
@[simp] theorem setPort_liveScales : (setPort p xp s).liveScales = s.liveScales := rfl
@[simp] theorem modPort_liveScales : (modPort p fp s).liveScales = s.liveScales := rfl
@[simp] theorem modGrp_liveScales : (modGrp fg s).liveScales = s.liveScales := rfl
@[simp] theorem setPeer_liveScales : (setPeer i xq s).liveScales = s.liveScales := rfl
@[simp] theorem setTbl_liveScales : (setTbl i xt s).liveScales = s.liveScales := rfl
@[simp] theorem setNet_liveScales : (setNet nd xn s).liveScales = s.liveScales := rfl
@[simp] theorem setSticky_liveScales : (setSticky off idx b s).liveScales = s.liveScales := rfl
@[simp] theorem modNet_liveScales : (modNet nd fn s).liveScales = s.liveScales := rfl
@[simp] theorem setReq_liveScales : (setReq i xr s).liveScales = s.liveScales := rfl
@[simp] theorem putDom_liveScales : (putDom i xo s).liveScales = s.liveScales := rfl
@[simp] theorem modTime_liveScales : (modTime ft s).liveScales = s.liveScales := rfl
@[simp] theorem setNlu_liveScales : (setNlu i xu s).liveScales = s.liveScales := rfl
@[simp] theorem modReam_liveScales : (modReam seq fr s).liveScales = s.liveScales := rfl
@[simp] theorem setLane_liveScales : (setLane i xl s).liveScales = s.liveScales := rfl
@[simp] theorem setUnit_liveScales : (setUnit u st cause s).liveScales = s.liveScales := rfl
@[simp] theorem modLane_liveScales : (modLane i fl s).liveScales = s.liveScales := rfl
@[simp] theorem setEPort_liveScales : (setEPort i xe s).liveScales = s.liveScales := rfl
@[simp] theorem modEPort_liveScales : (modEPort i fe s).liveScales = s.liveScales := rfl
@[simp] theorem modCanopy_liveScales : (modCanopy fy s).liveScales = s.liveScales := rfl
@[simp] theorem modBoot_liveScales : (modBoot fb s).liveScales = s.liveScales := rfl

/-! ### Updates that leave `scaleRaises` -/
@[simp] theorem addCnt_scaleRaises : (addCnt i n s).scaleRaises = s.scaleRaises := rfl
@[simp] theorem setCnt_scaleRaises : (setCnt i n s).scaleRaises = s.scaleRaises := rfl
@[simp] theorem setCore_scaleRaises : (setCore c x s).scaleRaises = s.scaleRaises := rfl
@[simp] theorem incCnt_scaleRaises : (incCnt i s).scaleRaises = s.scaleRaises := rfl
@[simp] theorem modCore_scaleRaises : (modCore c fc s).scaleRaises = s.scaleRaises := rfl
@[simp] theorem setCluster_scaleRaises : (setCluster k xk s).scaleRaises = s.scaleRaises := rfl
@[simp] theorem modCluster_scaleRaises : (modCluster k fk s).scaleRaises = s.scaleRaises := rfl
@[simp] theorem setRegW_scaleRaises : (setRegW off idx v s).scaleRaises = s.scaleRaises := rfl
@[simp] theorem setDie_scaleRaises : (setDie d xd s).scaleRaises = s.scaleRaises := rfl
@[simp] theorem modDie_scaleRaises : (modDie d fd s).scaleRaises = s.scaleRaises := rfl
@[simp] theorem setSlot_scaleRaises : (setSlot i xs s).scaleRaises = s.scaleRaises := rfl
@[simp] theorem setRegF_scaleRaises : (setRegF off idx hi lo v s).scaleRaises = s.scaleRaises := rfl
@[simp] theorem modSlot_scaleRaises : (modSlot i fs s).scaleRaises = s.scaleRaises := rfl
@[simp] theorem setPort_scaleRaises : (setPort p xp s).scaleRaises = s.scaleRaises := rfl
@[simp] theorem modPort_scaleRaises : (modPort p fp s).scaleRaises = s.scaleRaises := rfl
@[simp] theorem modGrp_scaleRaises : (modGrp fg s).scaleRaises = s.scaleRaises := rfl
@[simp] theorem setPeer_scaleRaises : (setPeer i xq s).scaleRaises = s.scaleRaises := rfl
@[simp] theorem setTbl_scaleRaises : (setTbl i xt s).scaleRaises = s.scaleRaises := rfl
@[simp] theorem setNet_scaleRaises : (setNet nd xn s).scaleRaises = s.scaleRaises := rfl
@[simp] theorem setSticky_scaleRaises : (setSticky off idx b s).scaleRaises = s.scaleRaises := rfl
@[simp] theorem modNet_scaleRaises : (modNet nd fn s).scaleRaises = s.scaleRaises := rfl
@[simp] theorem setReq_scaleRaises : (setReq i xr s).scaleRaises = s.scaleRaises := rfl
@[simp] theorem putDom_scaleRaises : (putDom i xo s).scaleRaises = s.scaleRaises := rfl
@[simp] theorem modTime_scaleRaises : (modTime ft s).scaleRaises = s.scaleRaises := rfl
@[simp] theorem setNlu_scaleRaises : (setNlu i xu s).scaleRaises = s.scaleRaises := rfl
@[simp] theorem modReam_scaleRaises : (modReam seq fr s).scaleRaises = s.scaleRaises := rfl
@[simp] theorem setLane_scaleRaises : (setLane i xl s).scaleRaises = s.scaleRaises := rfl
@[simp] theorem setUnit_scaleRaises : (setUnit u st cause s).scaleRaises = s.scaleRaises := rfl
@[simp] theorem modLane_scaleRaises : (modLane i fl s).scaleRaises = s.scaleRaises := rfl
@[simp] theorem setEPort_scaleRaises : (setEPort i xe s).scaleRaises = s.scaleRaises := rfl
@[simp] theorem modEPort_scaleRaises : (modEPort i fe s).scaleRaises = s.scaleRaises := rfl
@[simp] theorem modCanopy_scaleRaises : (modCanopy fy s).scaleRaises = s.scaleRaises := rfl
@[simp] theorem modBoot_scaleRaises : (modBoot fb s).scaleRaises = s.scaleRaises := rfl

/-! ### Updates that leave `trace` -/
@[simp] theorem addCnt_trace : (addCnt i n s).trace = s.trace := rfl
@[simp] theorem setCnt_trace : (setCnt i n s).trace = s.trace := rfl
@[simp] theorem setCore_trace : (setCore c x s).trace = s.trace := rfl
@[simp] theorem incCnt_trace : (incCnt i s).trace = s.trace := rfl
@[simp] theorem modCore_trace : (modCore c fc s).trace = s.trace := rfl
@[simp] theorem setCluster_trace : (setCluster k xk s).trace = s.trace := rfl
@[simp] theorem modCluster_trace : (modCluster k fk s).trace = s.trace := rfl
@[simp] theorem setRegW_trace : (setRegW off idx v s).trace = s.trace := rfl
@[simp] theorem setDie_trace : (setDie d xd s).trace = s.trace := rfl
@[simp] theorem modDie_trace : (modDie d fd s).trace = s.trace := rfl
@[simp] theorem setSlot_trace : (setSlot i xs s).trace = s.trace := rfl
@[simp] theorem setRegF_trace : (setRegF off idx hi lo v s).trace = s.trace := rfl
@[simp] theorem modSlot_trace : (modSlot i fs s).trace = s.trace := rfl
@[simp] theorem setPort_trace : (setPort p xp s).trace = s.trace := rfl
@[simp] theorem modPort_trace : (modPort p fp s).trace = s.trace := rfl
@[simp] theorem modGrp_trace : (modGrp fg s).trace = s.trace := rfl
@[simp] theorem setPeer_trace : (setPeer i xq s).trace = s.trace := rfl
@[simp] theorem setTbl_trace : (setTbl i xt s).trace = s.trace := rfl
@[simp] theorem setNet_trace : (setNet nd xn s).trace = s.trace := rfl
@[simp] theorem setSticky_trace : (setSticky off idx b s).trace = s.trace := rfl
@[simp] theorem modNet_trace : (modNet nd fn s).trace = s.trace := rfl
@[simp] theorem setReq_trace : (setReq i xr s).trace = s.trace := rfl
@[simp] theorem putDom_trace : (putDom i xo s).trace = s.trace := rfl
@[simp] theorem modTime_trace : (modTime ft s).trace = s.trace := rfl
@[simp] theorem setNlu_trace : (setNlu i xu s).trace = s.trace := rfl
@[simp] theorem modReam_trace : (modReam seq fr s).trace = s.trace := rfl
@[simp] theorem setLane_trace : (setLane i xl s).trace = s.trace := rfl
@[simp] theorem setUnit_trace : (setUnit u st cause s).trace = s.trace := rfl
@[simp] theorem modLane_trace : (modLane i fl s).trace = s.trace := rfl
@[simp] theorem setEPort_trace : (setEPort i xe s).trace = s.trace := rfl
@[simp] theorem modEPort_trace : (modEPort i fe s).trace = s.trace := rfl
@[simp] theorem modCanopy_trace : (modCanopy fy s).trace = s.trace := rfl
@[simp] theorem modBoot_trace : (modBoot fb s).trace = s.trace := rfl

/-! ### Updates that leave `stretch` -/
@[simp] theorem addCnt_stretch : (addCnt i n s).stretch = s.stretch := rfl
@[simp] theorem setCnt_stretch : (setCnt i n s).stretch = s.stretch := rfl
@[simp] theorem setCore_stretch : (setCore c x s).stretch = s.stretch := rfl
@[simp] theorem incCnt_stretch : (incCnt i s).stretch = s.stretch := rfl
@[simp] theorem modCore_stretch : (modCore c fc s).stretch = s.stretch := rfl
@[simp] theorem setCluster_stretch : (setCluster k xk s).stretch = s.stretch := rfl
@[simp] theorem modCluster_stretch : (modCluster k fk s).stretch = s.stretch := rfl
@[simp] theorem setRegW_stretch : (setRegW off idx v s).stretch = s.stretch := rfl
@[simp] theorem setDie_stretch : (setDie d xd s).stretch = s.stretch := rfl
@[simp] theorem modDie_stretch : (modDie d fd s).stretch = s.stretch := rfl
@[simp] theorem setSlot_stretch : (setSlot i xs s).stretch = s.stretch := rfl
@[simp] theorem setRegF_stretch : (setRegF off idx hi lo v s).stretch = s.stretch := rfl
@[simp] theorem modSlot_stretch : (modSlot i fs s).stretch = s.stretch := rfl
@[simp] theorem setPort_stretch : (setPort p xp s).stretch = s.stretch := rfl
@[simp] theorem modPort_stretch : (modPort p fp s).stretch = s.stretch := rfl
@[simp] theorem modGrp_stretch : (modGrp fg s).stretch = s.stretch := rfl
@[simp] theorem setPeer_stretch : (setPeer i xq s).stretch = s.stretch := rfl
@[simp] theorem setTbl_stretch : (setTbl i xt s).stretch = s.stretch := rfl
@[simp] theorem setNet_stretch : (setNet nd xn s).stretch = s.stretch := rfl
@[simp] theorem setSticky_stretch : (setSticky off idx b s).stretch = s.stretch := rfl
@[simp] theorem modNet_stretch : (modNet nd fn s).stretch = s.stretch := rfl
@[simp] theorem setReq_stretch : (setReq i xr s).stretch = s.stretch := rfl
@[simp] theorem putDom_stretch : (putDom i xo s).stretch = s.stretch := rfl
@[simp] theorem modTime_stretch : (modTime ft s).stretch = s.stretch := rfl
@[simp] theorem setNlu_stretch : (setNlu i xu s).stretch = s.stretch := rfl
@[simp] theorem modReam_stretch : (modReam seq fr s).stretch = s.stretch := rfl
@[simp] theorem setLane_stretch : (setLane i xl s).stretch = s.stretch := rfl
@[simp] theorem setUnit_stretch : (setUnit u st cause s).stretch = s.stretch := rfl
@[simp] theorem modLane_stretch : (modLane i fl s).stretch = s.stretch := rfl
@[simp] theorem setEPort_stretch : (setEPort i xe s).stretch = s.stretch := rfl
@[simp] theorem modEPort_stretch : (modEPort i fe s).stretch = s.stretch := rfl
@[simp] theorem modCanopy_stretch : (modCanopy fy s).stretch = s.stretch := rfl
@[simp] theorem modBoot_stretch : (modBoot fb s).stretch = s.stretch := rfl

/-! ### Updates that leave `slots` -/
@[simp] theorem addCnt_slots : (addCnt i n s).slots = s.slots := rfl
@[simp] theorem setCnt_slots : (setCnt i n s).slots = s.slots := rfl
@[simp] theorem setCore_slots : (setCore c x s).slots = s.slots := rfl
@[simp] theorem incCnt_slots : (incCnt i s).slots = s.slots := rfl
@[simp] theorem modCore_slots : (modCore c fc s).slots = s.slots := rfl
@[simp] theorem setCluster_slots : (setCluster k xk s).slots = s.slots := rfl
@[simp] theorem modCluster_slots : (modCluster k fk s).slots = s.slots := rfl
@[simp] theorem setRegW_slots : (setRegW off idx v s).slots = s.slots := rfl
@[simp] theorem setDie_slots : (setDie d xd s).slots = s.slots := rfl
@[simp] theorem modDie_slots : (modDie d fd s).slots = s.slots := rfl
@[simp] theorem setRegF_slots : (setRegF off idx hi lo v s).slots = s.slots := rfl
@[simp] theorem setPort_slots : (setPort p xp s).slots = s.slots := rfl
@[simp] theorem modPort_slots : (modPort p fp s).slots = s.slots := rfl
@[simp] theorem modGrp_slots : (modGrp fg s).slots = s.slots := rfl
@[simp] theorem setPeer_slots : (setPeer i xq s).slots = s.slots := rfl
@[simp] theorem setTbl_slots : (setTbl i xt s).slots = s.slots := rfl
@[simp] theorem setNet_slots : (setNet nd xn s).slots = s.slots := rfl
@[simp] theorem setSticky_slots : (setSticky off idx b s).slots = s.slots := rfl
@[simp] theorem modNet_slots : (modNet nd fn s).slots = s.slots := rfl
@[simp] theorem setReq_slots : (setReq i xr s).slots = s.slots := rfl
@[simp] theorem putDom_slots : (putDom i xo s).slots = s.slots := rfl
@[simp] theorem modTime_slots : (modTime ft s).slots = s.slots := rfl
@[simp] theorem setNlu_slots : (setNlu i xu s).slots = s.slots := rfl
@[simp] theorem modReam_slots : (modReam seq fr s).slots = s.slots := rfl
@[simp] theorem setLane_slots : (setLane i xl s).slots = s.slots := rfl
@[simp] theorem setUnit_slots : (setUnit u st cause s).slots = s.slots := rfl
@[simp] theorem modLane_slots : (modLane i fl s).slots = s.slots := rfl
@[simp] theorem setEPort_slots : (setEPort i xe s).slots = s.slots := rfl
@[simp] theorem modEPort_slots : (modEPort i fe s).slots = s.slots := rfl
@[simp] theorem modCanopy_slots : (modCanopy fy s).slots = s.slots := rfl
@[simp] theorem modBoot_slots : (modBoot fb s).slots = s.slots := rfl

/-! ### Updates that leave `recorder` -/
@[simp] theorem addCnt_recorder : (addCnt i n s).recorder = s.recorder := rfl
@[simp] theorem setCnt_recorder : (setCnt i n s).recorder = s.recorder := rfl
@[simp] theorem setCore_recorder : (setCore c x s).recorder = s.recorder := rfl
@[simp] theorem incCnt_recorder : (incCnt i s).recorder = s.recorder := rfl
@[simp] theorem modCore_recorder : (modCore c fc s).recorder = s.recorder := rfl
@[simp] theorem setCluster_recorder : (setCluster k xk s).recorder = s.recorder := rfl
@[simp] theorem modCluster_recorder : (modCluster k fk s).recorder = s.recorder := rfl
@[simp] theorem setRegW_recorder : (setRegW off idx v s).recorder = s.recorder := rfl
@[simp] theorem setDie_recorder : (setDie d xd s).recorder = s.recorder := rfl
@[simp] theorem modDie_recorder : (modDie d fd s).recorder = s.recorder := rfl
@[simp] theorem setSlot_recorder : (setSlot i xs s).recorder = s.recorder := rfl
@[simp] theorem setRegF_recorder : (setRegF off idx hi lo v s).recorder = s.recorder := rfl
@[simp] theorem modSlot_recorder : (modSlot i fs s).recorder = s.recorder := rfl
@[simp] theorem setPort_recorder : (setPort p xp s).recorder = s.recorder := rfl
@[simp] theorem modPort_recorder : (modPort p fp s).recorder = s.recorder := rfl
@[simp] theorem modGrp_recorder : (modGrp fg s).recorder = s.recorder := rfl
@[simp] theorem setPeer_recorder : (setPeer i xq s).recorder = s.recorder := rfl
@[simp] theorem setTbl_recorder : (setTbl i xt s).recorder = s.recorder := rfl
@[simp] theorem setNet_recorder : (setNet nd xn s).recorder = s.recorder := rfl
@[simp] theorem setSticky_recorder : (setSticky off idx b s).recorder = s.recorder := rfl
@[simp] theorem modNet_recorder : (modNet nd fn s).recorder = s.recorder := rfl
@[simp] theorem setReq_recorder : (setReq i xr s).recorder = s.recorder := rfl
@[simp] theorem putDom_recorder : (putDom i xo s).recorder = s.recorder := rfl
@[simp] theorem modTime_recorder : (modTime ft s).recorder = s.recorder := rfl
@[simp] theorem setNlu_recorder : (setNlu i xu s).recorder = s.recorder := rfl
@[simp] theorem modReam_recorder : (modReam seq fr s).recorder = s.recorder := rfl
@[simp] theorem setLane_recorder : (setLane i xl s).recorder = s.recorder := rfl
@[simp] theorem setUnit_recorder : (setUnit u st cause s).recorder = s.recorder := rfl
@[simp] theorem modLane_recorder : (modLane i fl s).recorder = s.recorder := rfl
@[simp] theorem setEPort_recorder : (setEPort i xe s).recorder = s.recorder := rfl
@[simp] theorem modEPort_recorder : (modEPort i fe s).recorder = s.recorder := rfl
@[simp] theorem modCanopy_recorder : (modCanopy fy s).recorder = s.recorder := rfl
@[simp] theorem modBoot_recorder : (modBoot fb s).recorder = s.recorder := rfl

/-! ### Updates that leave `freeze` -/
@[simp] theorem addCnt_freeze : (addCnt i n s).freeze = s.freeze := rfl
@[simp] theorem setCnt_freeze : (setCnt i n s).freeze = s.freeze := rfl
@[simp] theorem setCore_freeze : (setCore c x s).freeze = s.freeze := rfl
@[simp] theorem incCnt_freeze : (incCnt i s).freeze = s.freeze := rfl
@[simp] theorem modCore_freeze : (modCore c fc s).freeze = s.freeze := rfl
@[simp] theorem setCluster_freeze : (setCluster k xk s).freeze = s.freeze := rfl
@[simp] theorem modCluster_freeze : (modCluster k fk s).freeze = s.freeze := rfl
@[simp] theorem setRegW_freeze : (setRegW off idx v s).freeze = s.freeze := rfl
@[simp] theorem setDie_freeze : (setDie d xd s).freeze = s.freeze := rfl
@[simp] theorem modDie_freeze : (modDie d fd s).freeze = s.freeze := rfl
@[simp] theorem setSlot_freeze : (setSlot i xs s).freeze = s.freeze := rfl
@[simp] theorem setRegF_freeze : (setRegF off idx hi lo v s).freeze = s.freeze := rfl
@[simp] theorem modSlot_freeze : (modSlot i fs s).freeze = s.freeze := rfl
@[simp] theorem setPort_freeze : (setPort p xp s).freeze = s.freeze := rfl
@[simp] theorem modPort_freeze : (modPort p fp s).freeze = s.freeze := rfl
@[simp] theorem modGrp_freeze : (modGrp fg s).freeze = s.freeze := rfl
@[simp] theorem setPeer_freeze : (setPeer i xq s).freeze = s.freeze := rfl
@[simp] theorem setTbl_freeze : (setTbl i xt s).freeze = s.freeze := rfl
@[simp] theorem setNet_freeze : (setNet nd xn s).freeze = s.freeze := rfl
@[simp] theorem setSticky_freeze : (setSticky off idx b s).freeze = s.freeze := rfl
@[simp] theorem modNet_freeze : (modNet nd fn s).freeze = s.freeze := rfl
@[simp] theorem setReq_freeze : (setReq i xr s).freeze = s.freeze := rfl
@[simp] theorem putDom_freeze : (putDom i xo s).freeze = s.freeze := rfl
@[simp] theorem modTime_freeze : (modTime ft s).freeze = s.freeze := rfl
@[simp] theorem setNlu_freeze : (setNlu i xu s).freeze = s.freeze := rfl
@[simp] theorem modReam_freeze : (modReam seq fr s).freeze = s.freeze := rfl
@[simp] theorem setLane_freeze : (setLane i xl s).freeze = s.freeze := rfl
@[simp] theorem setUnit_freeze : (setUnit u st cause s).freeze = s.freeze := rfl
@[simp] theorem modLane_freeze : (modLane i fl s).freeze = s.freeze := rfl
@[simp] theorem setEPort_freeze : (setEPort i xe s).freeze = s.freeze := rfl
@[simp] theorem modEPort_freeze : (modEPort i fe s).freeze = s.freeze := rfl
@[simp] theorem modCanopy_freeze : (modCanopy fy s).freeze = s.freeze := rfl
@[simp] theorem modBoot_freeze : (modBoot fb s).freeze = s.freeze := rfl

/-! ### Updates that leave `tport` -/
@[simp] theorem addCnt_tport : (addCnt i n s).tport = s.tport := rfl
@[simp] theorem setCnt_tport : (setCnt i n s).tport = s.tport := rfl
@[simp] theorem setCore_tport : (setCore c x s).tport = s.tport := rfl
@[simp] theorem incCnt_tport : (incCnt i s).tport = s.tport := rfl
@[simp] theorem modCore_tport : (modCore c fc s).tport = s.tport := rfl
@[simp] theorem setCluster_tport : (setCluster k xk s).tport = s.tport := rfl
@[simp] theorem modCluster_tport : (modCluster k fk s).tport = s.tport := rfl
@[simp] theorem setRegW_tport : (setRegW off idx v s).tport = s.tport := rfl
@[simp] theorem setDie_tport : (setDie d xd s).tport = s.tport := rfl
@[simp] theorem modDie_tport : (modDie d fd s).tport = s.tport := rfl
@[simp] theorem setSlot_tport : (setSlot i xs s).tport = s.tport := rfl
@[simp] theorem setRegF_tport : (setRegF off idx hi lo v s).tport = s.tport := rfl
@[simp] theorem modSlot_tport : (modSlot i fs s).tport = s.tport := rfl
@[simp] theorem setPort_tport : (setPort p xp s).tport = s.tport := rfl
@[simp] theorem modPort_tport : (modPort p fp s).tport = s.tport := rfl
@[simp] theorem modGrp_tport : (modGrp fg s).tport = s.tport := rfl
@[simp] theorem setPeer_tport : (setPeer i xq s).tport = s.tport := rfl
@[simp] theorem setTbl_tport : (setTbl i xt s).tport = s.tport := rfl
@[simp] theorem setNet_tport : (setNet nd xn s).tport = s.tport := rfl
@[simp] theorem setSticky_tport : (setSticky off idx b s).tport = s.tport := rfl
@[simp] theorem modNet_tport : (modNet nd fn s).tport = s.tport := rfl
@[simp] theorem setReq_tport : (setReq i xr s).tport = s.tport := rfl
@[simp] theorem putDom_tport : (putDom i xo s).tport = s.tport := rfl
@[simp] theorem modTime_tport : (modTime ft s).tport = s.tport := rfl
@[simp] theorem setNlu_tport : (setNlu i xu s).tport = s.tport := rfl
@[simp] theorem modReam_tport : (modReam seq fr s).tport = s.tport := rfl
@[simp] theorem setLane_tport : (setLane i xl s).tport = s.tport := rfl
@[simp] theorem setUnit_tport : (setUnit u st cause s).tport = s.tport := rfl
@[simp] theorem modLane_tport : (modLane i fl s).tport = s.tport := rfl
@[simp] theorem setEPort_tport : (setEPort i xe s).tport = s.tport := rfl
@[simp] theorem modEPort_tport : (modEPort i fe s).tport = s.tport := rfl
@[simp] theorem modCanopy_tport : (modCanopy fy s).tport = s.tport := rfl
@[simp] theorem modBoot_tport : (modBoot fb s).tport = s.tport := rfl

/-! ### Updates that leave `dsm` -/
@[simp] theorem addCnt_dsm : (addCnt i n s).dsm = s.dsm := rfl
@[simp] theorem setCnt_dsm : (setCnt i n s).dsm = s.dsm := rfl
@[simp] theorem setCore_dsm : (setCore c x s).dsm = s.dsm := rfl
@[simp] theorem incCnt_dsm : (incCnt i s).dsm = s.dsm := rfl
@[simp] theorem modCore_dsm : (modCore c fc s).dsm = s.dsm := rfl
@[simp] theorem setCluster_dsm : (setCluster k xk s).dsm = s.dsm := rfl
@[simp] theorem modCluster_dsm : (modCluster k fk s).dsm = s.dsm := rfl
@[simp] theorem setRegW_dsm : (setRegW off idx v s).dsm = s.dsm := rfl
@[simp] theorem setDie_dsm : (setDie d xd s).dsm = s.dsm := rfl
@[simp] theorem modDie_dsm : (modDie d fd s).dsm = s.dsm := rfl
@[simp] theorem setSlot_dsm : (setSlot i xs s).dsm = s.dsm := rfl
@[simp] theorem setRegF_dsm : (setRegF off idx hi lo v s).dsm = s.dsm := rfl
@[simp] theorem modSlot_dsm : (modSlot i fs s).dsm = s.dsm := rfl
@[simp] theorem setPort_dsm : (setPort p xp s).dsm = s.dsm := rfl
@[simp] theorem modPort_dsm : (modPort p fp s).dsm = s.dsm := rfl
@[simp] theorem modGrp_dsm : (modGrp fg s).dsm = s.dsm := rfl
@[simp] theorem setPeer_dsm : (setPeer i xq s).dsm = s.dsm := rfl
@[simp] theorem setTbl_dsm : (setTbl i xt s).dsm = s.dsm := rfl
@[simp] theorem setNet_dsm : (setNet nd xn s).dsm = s.dsm := rfl
@[simp] theorem setSticky_dsm : (setSticky off idx b s).dsm = s.dsm := rfl
@[simp] theorem modNet_dsm : (modNet nd fn s).dsm = s.dsm := rfl
@[simp] theorem setReq_dsm : (setReq i xr s).dsm = s.dsm := rfl
@[simp] theorem putDom_dsm : (putDom i xo s).dsm = s.dsm := rfl
@[simp] theorem modTime_dsm : (modTime ft s).dsm = s.dsm := rfl
@[simp] theorem setNlu_dsm : (setNlu i xu s).dsm = s.dsm := rfl
@[simp] theorem modReam_dsm : (modReam seq fr s).dsm = s.dsm := rfl
@[simp] theorem setLane_dsm : (setLane i xl s).dsm = s.dsm := rfl
@[simp] theorem setUnit_dsm : (setUnit u st cause s).dsm = s.dsm := rfl
@[simp] theorem modLane_dsm : (modLane i fl s).dsm = s.dsm := rfl
@[simp] theorem setEPort_dsm : (setEPort i xe s).dsm = s.dsm := rfl
@[simp] theorem modEPort_dsm : (modEPort i fe s).dsm = s.dsm := rfl
@[simp] theorem modCanopy_dsm : (modCanopy fy s).dsm = s.dsm := rfl
@[simp] theorem modBoot_dsm : (modBoot fb s).dsm = s.dsm := rfl

/-! ### Updates that leave `nlus` -/
@[simp] theorem addCnt_nlus : (addCnt i n s).nlus = s.nlus := rfl
@[simp] theorem setCnt_nlus : (setCnt i n s).nlus = s.nlus := rfl
@[simp] theorem setCore_nlus : (setCore c x s).nlus = s.nlus := rfl
@[simp] theorem incCnt_nlus : (incCnt i s).nlus = s.nlus := rfl
@[simp] theorem modCore_nlus : (modCore c fc s).nlus = s.nlus := rfl
@[simp] theorem setCluster_nlus : (setCluster k xk s).nlus = s.nlus := rfl
@[simp] theorem modCluster_nlus : (modCluster k fk s).nlus = s.nlus := rfl
@[simp] theorem setRegW_nlus : (setRegW off idx v s).nlus = s.nlus := rfl
@[simp] theorem setDie_nlus : (setDie d xd s).nlus = s.nlus := rfl
@[simp] theorem modDie_nlus : (modDie d fd s).nlus = s.nlus := rfl
@[simp] theorem setSlot_nlus : (setSlot i xs s).nlus = s.nlus := rfl
@[simp] theorem setRegF_nlus : (setRegF off idx hi lo v s).nlus = s.nlus := rfl
@[simp] theorem modSlot_nlus : (modSlot i fs s).nlus = s.nlus := rfl
@[simp] theorem setPort_nlus : (setPort p xp s).nlus = s.nlus := rfl
@[simp] theorem modPort_nlus : (modPort p fp s).nlus = s.nlus := rfl
@[simp] theorem modGrp_nlus : (modGrp fg s).nlus = s.nlus := rfl
@[simp] theorem setPeer_nlus : (setPeer i xq s).nlus = s.nlus := rfl
@[simp] theorem setTbl_nlus : (setTbl i xt s).nlus = s.nlus := rfl
@[simp] theorem setNet_nlus : (setNet nd xn s).nlus = s.nlus := rfl
@[simp] theorem setSticky_nlus : (setSticky off idx b s).nlus = s.nlus := rfl
@[simp] theorem modNet_nlus : (modNet nd fn s).nlus = s.nlus := rfl
@[simp] theorem setReq_nlus : (setReq i xr s).nlus = s.nlus := rfl
@[simp] theorem putDom_nlus : (putDom i xo s).nlus = s.nlus := rfl
@[simp] theorem modTime_nlus : (modTime ft s).nlus = s.nlus := rfl
@[simp] theorem modReam_nlus : (modReam seq fr s).nlus = s.nlus := rfl
@[simp] theorem setLane_nlus : (setLane i xl s).nlus = s.nlus := rfl
@[simp] theorem setUnit_nlus : (setUnit u st cause s).nlus = s.nlus := rfl
@[simp] theorem modLane_nlus : (modLane i fl s).nlus = s.nlus := rfl
@[simp] theorem setEPort_nlus : (setEPort i xe s).nlus = s.nlus := rfl
@[simp] theorem modEPort_nlus : (modEPort i fe s).nlus = s.nlus := rfl
@[simp] theorem modCanopy_nlus : (modCanopy fy s).nlus = s.nlus := rfl
@[simp] theorem modBoot_nlus : (modBoot fb s).nlus = s.nlus := rfl

/-! ### Updates that leave `pools` -/
@[simp] theorem addCnt_pools : (addCnt i n s).pools = s.pools := rfl
@[simp] theorem setCnt_pools : (setCnt i n s).pools = s.pools := rfl
@[simp] theorem setCore_pools : (setCore c x s).pools = s.pools := rfl
@[simp] theorem incCnt_pools : (incCnt i s).pools = s.pools := rfl
@[simp] theorem modCore_pools : (modCore c fc s).pools = s.pools := rfl
@[simp] theorem setCluster_pools : (setCluster k xk s).pools = s.pools := rfl
@[simp] theorem modCluster_pools : (modCluster k fk s).pools = s.pools := rfl
@[simp] theorem setRegW_pools : (setRegW off idx v s).pools = s.pools := rfl
@[simp] theorem setDie_pools : (setDie d xd s).pools = s.pools := rfl
@[simp] theorem modDie_pools : (modDie d fd s).pools = s.pools := rfl
@[simp] theorem setSlot_pools : (setSlot i xs s).pools = s.pools := rfl
@[simp] theorem setRegF_pools : (setRegF off idx hi lo v s).pools = s.pools := rfl
@[simp] theorem modSlot_pools : (modSlot i fs s).pools = s.pools := rfl
@[simp] theorem setPort_pools : (setPort p xp s).pools = s.pools := rfl
@[simp] theorem modPort_pools : (modPort p fp s).pools = s.pools := rfl
@[simp] theorem modGrp_pools : (modGrp fg s).pools = s.pools := rfl
@[simp] theorem setPeer_pools : (setPeer i xq s).pools = s.pools := rfl
@[simp] theorem setTbl_pools : (setTbl i xt s).pools = s.pools := rfl
@[simp] theorem setNet_pools : (setNet nd xn s).pools = s.pools := rfl
@[simp] theorem setSticky_pools : (setSticky off idx b s).pools = s.pools := rfl
@[simp] theorem modNet_pools : (modNet nd fn s).pools = s.pools := rfl
@[simp] theorem setReq_pools : (setReq i xr s).pools = s.pools := rfl
@[simp] theorem putDom_pools : (putDom i xo s).pools = s.pools := rfl
@[simp] theorem modTime_pools : (modTime ft s).pools = s.pools := rfl
@[simp] theorem setNlu_pools : (setNlu i xu s).pools = s.pools := rfl
@[simp] theorem modReam_pools : (modReam seq fr s).pools = s.pools := rfl
@[simp] theorem setLane_pools : (setLane i xl s).pools = s.pools := rfl
@[simp] theorem setUnit_pools : (setUnit u st cause s).pools = s.pools := rfl
@[simp] theorem modLane_pools : (modLane i fl s).pools = s.pools := rfl
@[simp] theorem setEPort_pools : (setEPort i xe s).pools = s.pools := rfl
@[simp] theorem modEPort_pools : (modEPort i fe s).pools = s.pools := rfl
@[simp] theorem modCanopy_pools : (modCanopy fy s).pools = s.pools := rfl
@[simp] theorem modBoot_pools : (modBoot fb s).pools = s.pools := rfl

/-! ### Updates that leave `overhang` -/
@[simp] theorem addCnt_overhang : (addCnt i n s).overhang = s.overhang := rfl
@[simp] theorem setCnt_overhang : (setCnt i n s).overhang = s.overhang := rfl
@[simp] theorem setCore_overhang : (setCore c x s).overhang = s.overhang := rfl
@[simp] theorem incCnt_overhang : (incCnt i s).overhang = s.overhang := rfl
@[simp] theorem modCore_overhang : (modCore c fc s).overhang = s.overhang := rfl
@[simp] theorem setCluster_overhang : (setCluster k xk s).overhang = s.overhang := rfl
@[simp] theorem modCluster_overhang : (modCluster k fk s).overhang = s.overhang := rfl
@[simp] theorem setRegW_overhang : (setRegW off idx v s).overhang = s.overhang := rfl
@[simp] theorem setDie_overhang : (setDie d xd s).overhang = s.overhang := rfl
@[simp] theorem modDie_overhang : (modDie d fd s).overhang = s.overhang := rfl
@[simp] theorem setSlot_overhang : (setSlot i xs s).overhang = s.overhang := rfl
@[simp] theorem setRegF_overhang : (setRegF off idx hi lo v s).overhang = s.overhang := rfl
@[simp] theorem modSlot_overhang : (modSlot i fs s).overhang = s.overhang := rfl
@[simp] theorem setPort_overhang : (setPort p xp s).overhang = s.overhang := rfl
@[simp] theorem modPort_overhang : (modPort p fp s).overhang = s.overhang := rfl
@[simp] theorem modGrp_overhang : (modGrp fg s).overhang = s.overhang := rfl
@[simp] theorem setPeer_overhang : (setPeer i xq s).overhang = s.overhang := rfl
@[simp] theorem setTbl_overhang : (setTbl i xt s).overhang = s.overhang := rfl
@[simp] theorem setNet_overhang : (setNet nd xn s).overhang = s.overhang := rfl
@[simp] theorem setSticky_overhang : (setSticky off idx b s).overhang = s.overhang := rfl
@[simp] theorem modNet_overhang : (modNet nd fn s).overhang = s.overhang := rfl
@[simp] theorem setReq_overhang : (setReq i xr s).overhang = s.overhang := rfl
@[simp] theorem putDom_overhang : (putDom i xo s).overhang = s.overhang := rfl
@[simp] theorem modTime_overhang : (modTime ft s).overhang = s.overhang := rfl
@[simp] theorem setNlu_overhang : (setNlu i xu s).overhang = s.overhang := rfl
@[simp] theorem modReam_overhang : (modReam seq fr s).overhang = s.overhang := rfl
@[simp] theorem setLane_overhang : (setLane i xl s).overhang = s.overhang := rfl
@[simp] theorem setUnit_overhang : (setUnit u st cause s).overhang = s.overhang := rfl
@[simp] theorem modLane_overhang : (modLane i fl s).overhang = s.overhang := rfl
@[simp] theorem setEPort_overhang : (setEPort i xe s).overhang = s.overhang := rfl
@[simp] theorem modEPort_overhang : (modEPort i fe s).overhang = s.overhang := rfl
@[simp] theorem modCanopy_overhang : (modCanopy fy s).overhang = s.overhang := rfl
@[simp] theorem modBoot_overhang : (modBoot fb s).overhang = s.overhang := rfl

/-! ### Updates that leave `host` -/
@[simp] theorem addCnt_host : (addCnt i n s).host = s.host := rfl
@[simp] theorem setCnt_host : (setCnt i n s).host = s.host := rfl
@[simp] theorem setCore_host : (setCore c x s).host = s.host := rfl
@[simp] theorem incCnt_host : (incCnt i s).host = s.host := rfl
@[simp] theorem modCore_host : (modCore c fc s).host = s.host := rfl
@[simp] theorem setCluster_host : (setCluster k xk s).host = s.host := rfl
@[simp] theorem modCluster_host : (modCluster k fk s).host = s.host := rfl
@[simp] theorem setRegW_host : (setRegW off idx v s).host = s.host := rfl
@[simp] theorem setDie_host : (setDie d xd s).host = s.host := rfl
@[simp] theorem modDie_host : (modDie d fd s).host = s.host := rfl
@[simp] theorem setSlot_host : (setSlot i xs s).host = s.host := rfl
@[simp] theorem setRegF_host : (setRegF off idx hi lo v s).host = s.host := rfl
@[simp] theorem modSlot_host : (modSlot i fs s).host = s.host := rfl
@[simp] theorem modGrp_host : (modGrp fg s).host = s.host := rfl
@[simp] theorem setPeer_host : (setPeer i xq s).host = s.host := rfl
@[simp] theorem setTbl_host : (setTbl i xt s).host = s.host := rfl
@[simp] theorem setNet_host : (setNet nd xn s).host = s.host := rfl
@[simp] theorem setSticky_host : (setSticky off idx b s).host = s.host := rfl
@[simp] theorem modNet_host : (modNet nd fn s).host = s.host := rfl
@[simp] theorem setReq_host : (setReq i xr s).host = s.host := rfl
@[simp] theorem putDom_host : (putDom i xo s).host = s.host := rfl
@[simp] theorem modTime_host : (modTime ft s).host = s.host := rfl
@[simp] theorem setNlu_host : (setNlu i xu s).host = s.host := rfl
@[simp] theorem modReam_host : (modReam seq fr s).host = s.host := rfl
@[simp] theorem setLane_host : (setLane i xl s).host = s.host := rfl
@[simp] theorem setUnit_host : (setUnit u st cause s).host = s.host := rfl
@[simp] theorem modLane_host : (modLane i fl s).host = s.host := rfl
@[simp] theorem setEPort_host : (setEPort i xe s).host = s.host := rfl
@[simp] theorem modEPort_host : (modEPort i fe s).host = s.host := rfl
@[simp] theorem modCanopy_host : (modCanopy fy s).host = s.host := rfl
@[simp] theorem modBoot_host : (modBoot fb s).host = s.host := rfl

/-! ### Updates that leave `tbl` -/
@[simp] theorem addCnt_tbl : (addCnt i n s).tbl = s.tbl := rfl
@[simp] theorem setCnt_tbl : (setCnt i n s).tbl = s.tbl := rfl
@[simp] theorem setCore_tbl : (setCore c x s).tbl = s.tbl := rfl
@[simp] theorem incCnt_tbl : (incCnt i s).tbl = s.tbl := rfl
@[simp] theorem modCore_tbl : (modCore c fc s).tbl = s.tbl := rfl
@[simp] theorem setCluster_tbl : (setCluster k xk s).tbl = s.tbl := rfl
@[simp] theorem modCluster_tbl : (modCluster k fk s).tbl = s.tbl := rfl
@[simp] theorem setRegW_tbl : (setRegW off idx v s).tbl = s.tbl := rfl
@[simp] theorem setDie_tbl : (setDie d xd s).tbl = s.tbl := rfl
@[simp] theorem modDie_tbl : (modDie d fd s).tbl = s.tbl := rfl
@[simp] theorem setSlot_tbl : (setSlot i xs s).tbl = s.tbl := rfl
@[simp] theorem setRegF_tbl : (setRegF off idx hi lo v s).tbl = s.tbl := rfl
@[simp] theorem modSlot_tbl : (modSlot i fs s).tbl = s.tbl := rfl
@[simp] theorem setPort_tbl : (setPort p xp s).tbl = s.tbl := rfl
@[simp] theorem modPort_tbl : (modPort p fp s).tbl = s.tbl := rfl
@[simp] theorem modGrp_tbl : (modGrp fg s).tbl = s.tbl := rfl
@[simp] theorem setPeer_tbl : (setPeer i xq s).tbl = s.tbl := rfl
@[simp] theorem setSticky_tbl : (setSticky off idx b s).tbl = s.tbl := rfl
@[simp] theorem setReq_tbl : (setReq i xr s).tbl = s.tbl := rfl
@[simp] theorem putDom_tbl : (putDom i xo s).tbl = s.tbl := rfl
@[simp] theorem modTime_tbl : (modTime ft s).tbl = s.tbl := rfl
@[simp] theorem setNlu_tbl : (setNlu i xu s).tbl = s.tbl := rfl
@[simp] theorem modReam_tbl : (modReam seq fr s).tbl = s.tbl := rfl
@[simp] theorem setLane_tbl : (setLane i xl s).tbl = s.tbl := rfl
@[simp] theorem setUnit_tbl : (setUnit u st cause s).tbl = s.tbl := rfl
@[simp] theorem modLane_tbl : (modLane i fl s).tbl = s.tbl := rfl
@[simp] theorem setEPort_tbl : (setEPort i xe s).tbl = s.tbl := rfl
@[simp] theorem modEPort_tbl : (modEPort i fe s).tbl = s.tbl := rfl
@[simp] theorem modCanopy_tbl : (modCanopy fy s).tbl = s.tbl := rfl
@[simp] theorem modBoot_tbl : (modBoot fb s).tbl = s.tbl := rfl

/-! ### Updates that leave `reams` -/
@[simp] theorem addCnt_reams : (addCnt i n s).reams = s.reams := rfl
@[simp] theorem setCnt_reams : (setCnt i n s).reams = s.reams := rfl
@[simp] theorem setCore_reams : (setCore c x s).reams = s.reams := rfl
@[simp] theorem incCnt_reams : (incCnt i s).reams = s.reams := rfl
@[simp] theorem modCore_reams : (modCore c fc s).reams = s.reams := rfl
@[simp] theorem setCluster_reams : (setCluster k xk s).reams = s.reams := rfl
@[simp] theorem modCluster_reams : (modCluster k fk s).reams = s.reams := rfl
@[simp] theorem setRegW_reams : (setRegW off idx v s).reams = s.reams := rfl
@[simp] theorem setDie_reams : (setDie d xd s).reams = s.reams := rfl
@[simp] theorem modDie_reams : (modDie d fd s).reams = s.reams := rfl
@[simp] theorem setSlot_reams : (setSlot i xs s).reams = s.reams := rfl
@[simp] theorem setRegF_reams : (setRegF off idx hi lo v s).reams = s.reams := rfl
@[simp] theorem modSlot_reams : (modSlot i fs s).reams = s.reams := rfl
@[simp] theorem setPort_reams : (setPort p xp s).reams = s.reams := rfl
@[simp] theorem modPort_reams : (modPort p fp s).reams = s.reams := rfl
@[simp] theorem modGrp_reams : (modGrp fg s).reams = s.reams := rfl
@[simp] theorem setPeer_reams : (setPeer i xq s).reams = s.reams := rfl
@[simp] theorem setTbl_reams : (setTbl i xt s).reams = s.reams := rfl
@[simp] theorem setNet_reams : (setNet nd xn s).reams = s.reams := rfl
@[simp] theorem setSticky_reams : (setSticky off idx b s).reams = s.reams := rfl
@[simp] theorem modNet_reams : (modNet nd fn s).reams = s.reams := rfl
@[simp] theorem setReq_reams : (setReq i xr s).reams = s.reams := rfl
@[simp] theorem putDom_reams : (putDom i xo s).reams = s.reams := rfl
@[simp] theorem modTime_reams : (modTime ft s).reams = s.reams := rfl
@[simp] theorem setNlu_reams : (setNlu i xu s).reams = s.reams := rfl
@[simp] theorem setLane_reams : (setLane i xl s).reams = s.reams := rfl
@[simp] theorem setUnit_reams : (setUnit u st cause s).reams = s.reams := rfl
@[simp] theorem modLane_reams : (modLane i fl s).reams = s.reams := rfl
@[simp] theorem setEPort_reams : (setEPort i xe s).reams = s.reams := rfl
@[simp] theorem modEPort_reams : (modEPort i fe s).reams = s.reams := rfl
@[simp] theorem modCanopy_reams : (modCanopy fy s).reams = s.reams := rfl
@[simp] theorem modBoot_reams : (modBoot fb s).reams = s.reams := rfl

/-! ### Updates that leave `net` -/
@[simp] theorem addCnt_net : (addCnt i n s).net = s.net := rfl
@[simp] theorem setCnt_net : (setCnt i n s).net = s.net := rfl
@[simp] theorem setCore_net : (setCore c x s).net = s.net := rfl
@[simp] theorem incCnt_net : (incCnt i s).net = s.net := rfl
@[simp] theorem modCore_net : (modCore c fc s).net = s.net := rfl
@[simp] theorem setCluster_net : (setCluster k xk s).net = s.net := rfl
@[simp] theorem modCluster_net : (modCluster k fk s).net = s.net := rfl
@[simp] theorem setRegW_net : (setRegW off idx v s).net = s.net := rfl
@[simp] theorem setDie_net : (setDie d xd s).net = s.net := rfl
@[simp] theorem modDie_net : (modDie d fd s).net = s.net := rfl
@[simp] theorem setSlot_net : (setSlot i xs s).net = s.net := rfl
@[simp] theorem setRegF_net : (setRegF off idx hi lo v s).net = s.net := rfl
@[simp] theorem modSlot_net : (modSlot i fs s).net = s.net := rfl
@[simp] theorem setPort_net : (setPort p xp s).net = s.net := rfl
@[simp] theorem modPort_net : (modPort p fp s).net = s.net := rfl
@[simp] theorem modGrp_net : (modGrp fg s).net = s.net := rfl
@[simp] theorem setPeer_net : (setPeer i xq s).net = s.net := rfl
@[simp] theorem setTbl_net : (setTbl i xt s).net = s.net := rfl
@[simp] theorem setNet_net : (setNet nd xn s).net = s.net := rfl
@[simp] theorem setSticky_net : (setSticky off idx b s).net = s.net := rfl
@[simp] theorem modNet_net : (modNet nd fn s).net = s.net := rfl
@[simp] theorem setReq_net : (setReq i xr s).net = s.net := rfl
@[simp] theorem putDom_net : (putDom i xo s).net = s.net := rfl
@[simp] theorem modTime_net : (modTime ft s).net = s.net := rfl
@[simp] theorem setNlu_net : (setNlu i xu s).net = s.net := rfl
@[simp] theorem modReam_net : (modReam seq fr s).net = s.net := rfl
@[simp] theorem setUnit_net : (setUnit u st cause s).net = s.net := rfl
@[simp] theorem modCanopy_net : (modCanopy fy s).net = s.net := rfl
@[simp] theorem modBoot_net : (modBoot fb s).net = s.net := rfl

/-! ### Updates that leave `flow` -/
@[simp] theorem addCnt_flow : (addCnt i n s).flow = s.flow := rfl
@[simp] theorem setCnt_flow : (setCnt i n s).flow = s.flow := rfl
@[simp] theorem setCore_flow : (setCore c x s).flow = s.flow := rfl
@[simp] theorem incCnt_flow : (incCnt i s).flow = s.flow := rfl
@[simp] theorem modCore_flow : (modCore c fc s).flow = s.flow := rfl
@[simp] theorem setCluster_flow : (setCluster k xk s).flow = s.flow := rfl
@[simp] theorem modCluster_flow : (modCluster k fk s).flow = s.flow := rfl
@[simp] theorem setRegW_flow : (setRegW off idx v s).flow = s.flow := rfl
@[simp] theorem setDie_flow : (setDie d xd s).flow = s.flow := rfl
@[simp] theorem modDie_flow : (modDie d fd s).flow = s.flow := rfl
@[simp] theorem setSlot_flow : (setSlot i xs s).flow = s.flow := rfl
@[simp] theorem setRegF_flow : (setRegF off idx hi lo v s).flow = s.flow := rfl
@[simp] theorem modSlot_flow : (modSlot i fs s).flow = s.flow := rfl
@[simp] theorem setPort_flow : (setPort p xp s).flow = s.flow := rfl
@[simp] theorem modPort_flow : (modPort p fp s).flow = s.flow := rfl
@[simp] theorem modGrp_flow : (modGrp fg s).flow = s.flow := rfl
@[simp] theorem setPeer_flow : (setPeer i xq s).flow = s.flow := rfl
@[simp] theorem setTbl_flow : (setTbl i xt s).flow = s.flow := rfl
@[simp] theorem setNet_flow : (setNet nd xn s).flow = s.flow := rfl
@[simp] theorem setSticky_flow : (setSticky off idx b s).flow = s.flow := rfl
@[simp] theorem modNet_flow : (modNet nd fn s).flow = s.flow := rfl
@[simp] theorem setReq_flow : (setReq i xr s).flow = s.flow := rfl
@[simp] theorem putDom_flow : (putDom i xo s).flow = s.flow := rfl
@[simp] theorem modTime_flow : (modTime ft s).flow = s.flow := rfl
@[simp] theorem setNlu_flow : (setNlu i xu s).flow = s.flow := rfl
@[simp] theorem modReam_flow : (modReam seq fr s).flow = s.flow := rfl
@[simp] theorem setLane_flow : (setLane i xl s).flow = s.flow := rfl
@[simp] theorem setUnit_flow : (setUnit u st cause s).flow = s.flow := rfl
@[simp] theorem modLane_flow : (modLane i fl s).flow = s.flow := rfl
@[simp] theorem setEPort_flow : (setEPort i xe s).flow = s.flow := rfl
@[simp] theorem modEPort_flow : (modEPort i fe s).flow = s.flow := rfl
@[simp] theorem modCanopy_flow : (modCanopy fy s).flow = s.flow := rfl
@[simp] theorem modBoot_flow : (modBoot fb s).flow = s.flow := rfl

/-! ### Updates that leave `rqt` -/
@[simp] theorem addCnt_rqt : (addCnt i n s).rqt = s.rqt := rfl
@[simp] theorem setCnt_rqt : (setCnt i n s).rqt = s.rqt := rfl
@[simp] theorem setCore_rqt : (setCore c x s).rqt = s.rqt := rfl
@[simp] theorem incCnt_rqt : (incCnt i s).rqt = s.rqt := rfl
@[simp] theorem modCore_rqt : (modCore c fc s).rqt = s.rqt := rfl
@[simp] theorem setCluster_rqt : (setCluster k xk s).rqt = s.rqt := rfl
@[simp] theorem modCluster_rqt : (modCluster k fk s).rqt = s.rqt := rfl
@[simp] theorem setRegW_rqt : (setRegW off idx v s).rqt = s.rqt := rfl
@[simp] theorem setDie_rqt : (setDie d xd s).rqt = s.rqt := rfl
@[simp] theorem modDie_rqt : (modDie d fd s).rqt = s.rqt := rfl
@[simp] theorem setSlot_rqt : (setSlot i xs s).rqt = s.rqt := rfl
@[simp] theorem setRegF_rqt : (setRegF off idx hi lo v s).rqt = s.rqt := rfl
@[simp] theorem modSlot_rqt : (modSlot i fs s).rqt = s.rqt := rfl
@[simp] theorem setPort_rqt : (setPort p xp s).rqt = s.rqt := rfl
@[simp] theorem modPort_rqt : (modPort p fp s).rqt = s.rqt := rfl
@[simp] theorem modGrp_rqt : (modGrp fg s).rqt = s.rqt := rfl
@[simp] theorem setPeer_rqt : (setPeer i xq s).rqt = s.rqt := rfl
@[simp] theorem setTbl_rqt : (setTbl i xt s).rqt = s.rqt := rfl
@[simp] theorem setNet_rqt : (setNet nd xn s).rqt = s.rqt := rfl
@[simp] theorem setSticky_rqt : (setSticky off idx b s).rqt = s.rqt := rfl
@[simp] theorem modNet_rqt : (modNet nd fn s).rqt = s.rqt := rfl
@[simp] theorem putDom_rqt : (putDom i xo s).rqt = s.rqt := rfl
@[simp] theorem modTime_rqt : (modTime ft s).rqt = s.rqt := rfl
@[simp] theorem setNlu_rqt : (setNlu i xu s).rqt = s.rqt := rfl
@[simp] theorem modReam_rqt : (modReam seq fr s).rqt = s.rqt := rfl
@[simp] theorem setLane_rqt : (setLane i xl s).rqt = s.rqt := rfl
@[simp] theorem setUnit_rqt : (setUnit u st cause s).rqt = s.rqt := rfl
@[simp] theorem modLane_rqt : (modLane i fl s).rqt = s.rqt := rfl
@[simp] theorem setEPort_rqt : (setEPort i xe s).rqt = s.rqt := rfl
@[simp] theorem modEPort_rqt : (modEPort i fe s).rqt = s.rqt := rfl
@[simp] theorem modCanopy_rqt : (modCanopy fy s).rqt = s.rqt := rfl
@[simp] theorem modBoot_rqt : (modBoot fb s).rqt = s.rqt := rfl

/-! ### Updates that leave `adm` -/
@[simp] theorem addCnt_adm : (addCnt i n s).adm = s.adm := rfl
@[simp] theorem setCnt_adm : (setCnt i n s).adm = s.adm := rfl
@[simp] theorem setCore_adm : (setCore c x s).adm = s.adm := rfl
@[simp] theorem incCnt_adm : (incCnt i s).adm = s.adm := rfl
@[simp] theorem modCore_adm : (modCore c fc s).adm = s.adm := rfl
@[simp] theorem setCluster_adm : (setCluster k xk s).adm = s.adm := rfl
@[simp] theorem modCluster_adm : (modCluster k fk s).adm = s.adm := rfl
@[simp] theorem setRegW_adm : (setRegW off idx v s).adm = s.adm := rfl
@[simp] theorem setDie_adm : (setDie d xd s).adm = s.adm := rfl
@[simp] theorem modDie_adm : (modDie d fd s).adm = s.adm := rfl
@[simp] theorem setSlot_adm : (setSlot i xs s).adm = s.adm := rfl
@[simp] theorem setRegF_adm : (setRegF off idx hi lo v s).adm = s.adm := rfl
@[simp] theorem modSlot_adm : (modSlot i fs s).adm = s.adm := rfl
@[simp] theorem setPort_adm : (setPort p xp s).adm = s.adm := rfl
@[simp] theorem modPort_adm : (modPort p fp s).adm = s.adm := rfl
@[simp] theorem modGrp_adm : (modGrp fg s).adm = s.adm := rfl
@[simp] theorem setPeer_adm : (setPeer i xq s).adm = s.adm := rfl
@[simp] theorem setTbl_adm : (setTbl i xt s).adm = s.adm := rfl
@[simp] theorem setNet_adm : (setNet nd xn s).adm = s.adm := rfl
@[simp] theorem setSticky_adm : (setSticky off idx b s).adm = s.adm := rfl
@[simp] theorem modNet_adm : (modNet nd fn s).adm = s.adm := rfl
@[simp] theorem setReq_adm : (setReq i xr s).adm = s.adm := rfl
@[simp] theorem putDom_adm : (putDom i xo s).adm = s.adm := rfl
@[simp] theorem modTime_adm : (modTime ft s).adm = s.adm := rfl
@[simp] theorem setNlu_adm : (setNlu i xu s).adm = s.adm := rfl
@[simp] theorem modReam_adm : (modReam seq fr s).adm = s.adm := rfl
@[simp] theorem setLane_adm : (setLane i xl s).adm = s.adm := rfl
@[simp] theorem setUnit_adm : (setUnit u st cause s).adm = s.adm := rfl
@[simp] theorem modLane_adm : (modLane i fl s).adm = s.adm := rfl
@[simp] theorem setEPort_adm : (setEPort i xe s).adm = s.adm := rfl
@[simp] theorem modEPort_adm : (modEPort i fe s).adm = s.adm := rfl
@[simp] theorem modCanopy_adm : (modCanopy fy s).adm = s.adm := rfl
@[simp] theorem modBoot_adm : (modBoot fb s).adm = s.adm := rfl

/-! ### Updates that leave `grp` -/
@[simp] theorem addCnt_grp : (addCnt i n s).grp = s.grp := rfl
@[simp] theorem setCnt_grp : (setCnt i n s).grp = s.grp := rfl
@[simp] theorem setCore_grp : (setCore c x s).grp = s.grp := rfl
@[simp] theorem incCnt_grp : (incCnt i s).grp = s.grp := rfl
@[simp] theorem modCore_grp : (modCore c fc s).grp = s.grp := rfl
@[simp] theorem setCluster_grp : (setCluster k xk s).grp = s.grp := rfl
@[simp] theorem modCluster_grp : (modCluster k fk s).grp = s.grp := rfl
@[simp] theorem setRegW_grp : (setRegW off idx v s).grp = s.grp := rfl
@[simp] theorem setDie_grp : (setDie d xd s).grp = s.grp := rfl
@[simp] theorem modDie_grp : (modDie d fd s).grp = s.grp := rfl
@[simp] theorem setSlot_grp : (setSlot i xs s).grp = s.grp := rfl
@[simp] theorem setRegF_grp : (setRegF off idx hi lo v s).grp = s.grp := rfl
@[simp] theorem modSlot_grp : (modSlot i fs s).grp = s.grp := rfl
@[simp] theorem setPort_grp : (setPort p xp s).grp = s.grp := rfl
@[simp] theorem modPort_grp : (modPort p fp s).grp = s.grp := rfl
@[simp] theorem setTbl_grp : (setTbl i xt s).grp = s.grp := rfl
@[simp] theorem setNet_grp : (setNet nd xn s).grp = s.grp := rfl
@[simp] theorem setSticky_grp : (setSticky off idx b s).grp = s.grp := rfl
@[simp] theorem modNet_grp : (modNet nd fn s).grp = s.grp := rfl
@[simp] theorem setReq_grp : (setReq i xr s).grp = s.grp := rfl
@[simp] theorem putDom_grp : (putDom i xo s).grp = s.grp := rfl
@[simp] theorem modTime_grp : (modTime ft s).grp = s.grp := rfl
@[simp] theorem setNlu_grp : (setNlu i xu s).grp = s.grp := rfl
@[simp] theorem modReam_grp : (modReam seq fr s).grp = s.grp := rfl
@[simp] theorem setLane_grp : (setLane i xl s).grp = s.grp := rfl
@[simp] theorem setUnit_grp : (setUnit u st cause s).grp = s.grp := rfl
@[simp] theorem modLane_grp : (modLane i fl s).grp = s.grp := rfl
@[simp] theorem setEPort_grp : (setEPort i xe s).grp = s.grp := rfl
@[simp] theorem modEPort_grp : (modEPort i fe s).grp = s.grp := rfl
@[simp] theorem modCanopy_grp : (modCanopy fy s).grp = s.grp := rfl
@[simp] theorem modBoot_grp : (modBoot fb s).grp = s.grp := rfl

/-! ### Updates that leave `pwr` -/
@[simp] theorem addCnt_pwr : (addCnt i n s).pwr = s.pwr := rfl
@[simp] theorem setCnt_pwr : (setCnt i n s).pwr = s.pwr := rfl
@[simp] theorem setCore_pwr : (setCore c x s).pwr = s.pwr := rfl
@[simp] theorem incCnt_pwr : (incCnt i s).pwr = s.pwr := rfl
@[simp] theorem modCore_pwr : (modCore c fc s).pwr = s.pwr := rfl
@[simp] theorem setCluster_pwr : (setCluster k xk s).pwr = s.pwr := rfl
@[simp] theorem modCluster_pwr : (modCluster k fk s).pwr = s.pwr := rfl
@[simp] theorem setRegW_pwr : (setRegW off idx v s).pwr = s.pwr := rfl
@[simp] theorem setDie_pwr : (setDie d xd s).pwr = s.pwr := rfl
@[simp] theorem modDie_pwr : (modDie d fd s).pwr = s.pwr := rfl
@[simp] theorem setSlot_pwr : (setSlot i xs s).pwr = s.pwr := rfl
@[simp] theorem setRegF_pwr : (setRegF off idx hi lo v s).pwr = s.pwr := rfl
@[simp] theorem modSlot_pwr : (modSlot i fs s).pwr = s.pwr := rfl
@[simp] theorem setPort_pwr : (setPort p xp s).pwr = s.pwr := rfl
@[simp] theorem modPort_pwr : (modPort p fp s).pwr = s.pwr := rfl
@[simp] theorem modGrp_pwr : (modGrp fg s).pwr = s.pwr := rfl
@[simp] theorem setPeer_pwr : (setPeer i xq s).pwr = s.pwr := rfl
@[simp] theorem setTbl_pwr : (setTbl i xt s).pwr = s.pwr := rfl
@[simp] theorem setNet_pwr : (setNet nd xn s).pwr = s.pwr := rfl
@[simp] theorem setSticky_pwr : (setSticky off idx b s).pwr = s.pwr := rfl
@[simp] theorem modNet_pwr : (modNet nd fn s).pwr = s.pwr := rfl
@[simp] theorem setReq_pwr : (setReq i xr s).pwr = s.pwr := rfl
@[simp] theorem modTime_pwr : (modTime ft s).pwr = s.pwr := rfl
@[simp] theorem setNlu_pwr : (setNlu i xu s).pwr = s.pwr := rfl
@[simp] theorem modReam_pwr : (modReam seq fr s).pwr = s.pwr := rfl
@[simp] theorem setLane_pwr : (setLane i xl s).pwr = s.pwr := rfl
@[simp] theorem setUnit_pwr : (setUnit u st cause s).pwr = s.pwr := rfl
@[simp] theorem modLane_pwr : (modLane i fl s).pwr = s.pwr := rfl
@[simp] theorem setEPort_pwr : (setEPort i xe s).pwr = s.pwr := rfl
@[simp] theorem modEPort_pwr : (modEPort i fe s).pwr = s.pwr := rfl
@[simp] theorem modCanopy_pwr : (modCanopy fy s).pwr = s.pwr := rfl
@[simp] theorem modBoot_pwr : (modBoot fb s).pwr = s.pwr := rfl

/-! ### Updates that leave `boot` -/
@[simp] theorem addCnt_boot : (addCnt i n s).boot = s.boot := rfl
@[simp] theorem setCnt_boot : (setCnt i n s).boot = s.boot := rfl
@[simp] theorem setCore_boot : (setCore c x s).boot = s.boot := rfl
@[simp] theorem incCnt_boot : (incCnt i s).boot = s.boot := rfl
@[simp] theorem modCore_boot : (modCore c fc s).boot = s.boot := rfl
@[simp] theorem setCluster_boot : (setCluster k xk s).boot = s.boot := rfl
@[simp] theorem modCluster_boot : (modCluster k fk s).boot = s.boot := rfl
@[simp] theorem setRegW_boot : (setRegW off idx v s).boot = s.boot := rfl
@[simp] theorem setDie_boot : (setDie d xd s).boot = s.boot := rfl
@[simp] theorem modDie_boot : (modDie d fd s).boot = s.boot := rfl
@[simp] theorem setSlot_boot : (setSlot i xs s).boot = s.boot := rfl
@[simp] theorem setRegF_boot : (setRegF off idx hi lo v s).boot = s.boot := rfl
@[simp] theorem modSlot_boot : (modSlot i fs s).boot = s.boot := rfl
@[simp] theorem setPort_boot : (setPort p xp s).boot = s.boot := rfl
@[simp] theorem modPort_boot : (modPort p fp s).boot = s.boot := rfl
@[simp] theorem modGrp_boot : (modGrp fg s).boot = s.boot := rfl
@[simp] theorem setPeer_boot : (setPeer i xq s).boot = s.boot := rfl
@[simp] theorem setTbl_boot : (setTbl i xt s).boot = s.boot := rfl
@[simp] theorem setNet_boot : (setNet nd xn s).boot = s.boot := rfl
@[simp] theorem setSticky_boot : (setSticky off idx b s).boot = s.boot := rfl
@[simp] theorem modNet_boot : (modNet nd fn s).boot = s.boot := rfl
@[simp] theorem setReq_boot : (setReq i xr s).boot = s.boot := rfl
@[simp] theorem putDom_boot : (putDom i xo s).boot = s.boot := rfl
@[simp] theorem modTime_boot : (modTime ft s).boot = s.boot := rfl
@[simp] theorem setNlu_boot : (setNlu i xu s).boot = s.boot := rfl
@[simp] theorem modReam_boot : (modReam seq fr s).boot = s.boot := rfl
@[simp] theorem setLane_boot : (setLane i xl s).boot = s.boot := rfl
@[simp] theorem setUnit_boot : (setUnit u st cause s).boot = s.boot := rfl
@[simp] theorem modLane_boot : (modLane i fl s).boot = s.boot := rfl
@[simp] theorem setEPort_boot : (setEPort i xe s).boot = s.boot := rfl
@[simp] theorem modEPort_boot : (modEPort i fe s).boot = s.boot := rfl
@[simp] theorem modCanopy_boot : (modCanopy fy s).boot = s.boot := rfl

/-! ### Updates that leave `regs` -/
@[simp] theorem addCnt_regs : (addCnt i n s).regs = s.regs := rfl
@[simp] theorem setCnt_regs : (setCnt i n s).regs = s.regs := rfl
@[simp] theorem setCore_regs : (setCore c x s).regs = s.regs := rfl
@[simp] theorem incCnt_regs : (incCnt i s).regs = s.regs := rfl
@[simp] theorem modCore_regs : (modCore c fc s).regs = s.regs := rfl
@[simp] theorem setCluster_regs : (setCluster k xk s).regs = s.regs := rfl
@[simp] theorem modCluster_regs : (modCluster k fk s).regs = s.regs := rfl
@[simp] theorem setDie_regs : (setDie d xd s).regs = s.regs := rfl
@[simp] theorem modDie_regs : (modDie d fd s).regs = s.regs := rfl
@[simp] theorem setSlot_regs : (setSlot i xs s).regs = s.regs := rfl
@[simp] theorem modSlot_regs : (modSlot i fs s).regs = s.regs := rfl
@[simp] theorem setPort_regs : (setPort p xp s).regs = s.regs := rfl
@[simp] theorem modPort_regs : (modPort p fp s).regs = s.regs := rfl
@[simp] theorem modGrp_regs : (modGrp fg s).regs = s.regs := rfl
@[simp] theorem setPeer_regs : (setPeer i xq s).regs = s.regs := rfl
@[simp] theorem setTbl_regs : (setTbl i xt s).regs = s.regs := rfl
@[simp] theorem setNet_regs : (setNet nd xn s).regs = s.regs := rfl
@[simp] theorem modNet_regs : (modNet nd fn s).regs = s.regs := rfl
@[simp] theorem setReq_regs : (setReq i xr s).regs = s.regs := rfl
@[simp] theorem putDom_regs : (putDom i xo s).regs = s.regs := rfl
@[simp] theorem modTime_regs : (modTime ft s).regs = s.regs := rfl
@[simp] theorem setNlu_regs : (setNlu i xu s).regs = s.regs := rfl
@[simp] theorem modReam_regs : (modReam seq fr s).regs = s.regs := rfl
@[simp] theorem setLane_regs : (setLane i xl s).regs = s.regs := rfl
@[simp] theorem setUnit_regs : (setUnit u st cause s).regs = s.regs := rfl
@[simp] theorem modLane_regs : (modLane i fl s).regs = s.regs := rfl
@[simp] theorem setEPort_regs : (setEPort i xe s).regs = s.regs := rfl
@[simp] theorem modEPort_regs : (modEPort i fe s).regs = s.regs := rfl
@[simp] theorem modCanopy_regs : (modCanopy fy s).regs = s.regs := rfl
@[simp] theorem modBoot_regs : (modBoot fb s).regs = s.regs := rfl

/-! ### Updates that leave `counters` -/
@[simp] theorem setCore_counters : (setCore c x s).counters = s.counters := rfl
@[simp] theorem modCore_counters : (modCore c fc s).counters = s.counters := rfl
@[simp] theorem setCluster_counters : (setCluster k xk s).counters = s.counters := rfl
@[simp] theorem modCluster_counters : (modCluster k fk s).counters = s.counters := rfl
@[simp] theorem setRegW_counters : (setRegW off idx v s).counters = s.counters := rfl
@[simp] theorem setDie_counters : (setDie d xd s).counters = s.counters := rfl
@[simp] theorem modDie_counters : (modDie d fd s).counters = s.counters := rfl
@[simp] theorem setSlot_counters : (setSlot i xs s).counters = s.counters := rfl
@[simp] theorem setRegF_counters : (setRegF off idx hi lo v s).counters = s.counters := rfl
@[simp] theorem modSlot_counters : (modSlot i fs s).counters = s.counters := rfl
@[simp] theorem setPort_counters : (setPort p xp s).counters = s.counters := rfl
@[simp] theorem modPort_counters : (modPort p fp s).counters = s.counters := rfl
@[simp] theorem modGrp_counters : (modGrp fg s).counters = s.counters := rfl
@[simp] theorem setPeer_counters : (setPeer i xq s).counters = s.counters := rfl
@[simp] theorem setTbl_counters : (setTbl i xt s).counters = s.counters := rfl
@[simp] theorem setNet_counters : (setNet nd xn s).counters = s.counters := rfl
@[simp] theorem setSticky_counters : (setSticky off idx b s).counters = s.counters := rfl
@[simp] theorem modNet_counters : (modNet nd fn s).counters = s.counters := rfl
@[simp] theorem setReq_counters : (setReq i xr s).counters = s.counters := rfl
@[simp] theorem putDom_counters : (putDom i xo s).counters = s.counters := rfl
@[simp] theorem modTime_counters : (modTime ft s).counters = s.counters := rfl
@[simp] theorem setNlu_counters : (setNlu i xu s).counters = s.counters := rfl
@[simp] theorem modReam_counters : (modReam seq fr s).counters = s.counters := rfl
@[simp] theorem setLane_counters : (setLane i xl s).counters = s.counters := rfl
@[simp] theorem setUnit_counters : (setUnit u st cause s).counters = s.counters := rfl
@[simp] theorem modLane_counters : (modLane i fl s).counters = s.counters := rfl
@[simp] theorem setEPort_counters : (setEPort i xe s).counters = s.counters := rfl
@[simp] theorem modEPort_counters : (modEPort i fe s).counters = s.counters := rfl
@[simp] theorem modCanopy_counters : (modCanopy fy s).counters = s.counters := rfl
@[simp] theorem modBoot_counters : (modBoot fb s).counters = s.counters := rfl

/-! ### Updates that leave `snaps` -/
@[simp] theorem addCnt_snaps : (addCnt i n s).snaps = s.snaps := rfl
@[simp] theorem setCnt_snaps : (setCnt i n s).snaps = s.snaps := rfl
@[simp] theorem setCore_snaps : (setCore c x s).snaps = s.snaps := rfl
@[simp] theorem incCnt_snaps : (incCnt i s).snaps = s.snaps := rfl
@[simp] theorem modCore_snaps : (modCore c fc s).snaps = s.snaps := rfl
@[simp] theorem setCluster_snaps : (setCluster k xk s).snaps = s.snaps := rfl
@[simp] theorem modCluster_snaps : (modCluster k fk s).snaps = s.snaps := rfl
@[simp] theorem setRegW_snaps : (setRegW off idx v s).snaps = s.snaps := rfl
@[simp] theorem setDie_snaps : (setDie d xd s).snaps = s.snaps := rfl
@[simp] theorem modDie_snaps : (modDie d fd s).snaps = s.snaps := rfl
@[simp] theorem setSlot_snaps : (setSlot i xs s).snaps = s.snaps := rfl
@[simp] theorem setRegF_snaps : (setRegF off idx hi lo v s).snaps = s.snaps := rfl
@[simp] theorem modSlot_snaps : (modSlot i fs s).snaps = s.snaps := rfl
@[simp] theorem setPort_snaps : (setPort p xp s).snaps = s.snaps := rfl
@[simp] theorem modPort_snaps : (modPort p fp s).snaps = s.snaps := rfl
@[simp] theorem modGrp_snaps : (modGrp fg s).snaps = s.snaps := rfl
@[simp] theorem setPeer_snaps : (setPeer i xq s).snaps = s.snaps := rfl
@[simp] theorem setTbl_snaps : (setTbl i xt s).snaps = s.snaps := rfl
@[simp] theorem setNet_snaps : (setNet nd xn s).snaps = s.snaps := rfl
@[simp] theorem setSticky_snaps : (setSticky off idx b s).snaps = s.snaps := rfl
@[simp] theorem modNet_snaps : (modNet nd fn s).snaps = s.snaps := rfl
@[simp] theorem setReq_snaps : (setReq i xr s).snaps = s.snaps := rfl
@[simp] theorem putDom_snaps : (putDom i xo s).snaps = s.snaps := rfl
@[simp] theorem modTime_snaps : (modTime ft s).snaps = s.snaps := rfl
@[simp] theorem setNlu_snaps : (setNlu i xu s).snaps = s.snaps := rfl
@[simp] theorem modReam_snaps : (modReam seq fr s).snaps = s.snaps := rfl
@[simp] theorem setLane_snaps : (setLane i xl s).snaps = s.snaps := rfl
@[simp] theorem setUnit_snaps : (setUnit u st cause s).snaps = s.snaps := rfl
@[simp] theorem modLane_snaps : (modLane i fl s).snaps = s.snaps := rfl
@[simp] theorem setEPort_snaps : (setEPort i xe s).snaps = s.snaps := rfl
@[simp] theorem modEPort_snaps : (modEPort i fe s).snaps = s.snaps := rfl
@[simp] theorem modCanopy_snaps : (modCanopy fy s).snaps = s.snaps := rfl
@[simp] theorem modBoot_snaps : (modBoot fb s).snaps = s.snaps := rfl

/-! ### Updates that leave `fresh` -/
@[simp] theorem addCnt_fresh : (addCnt i n s).fresh = s.fresh := rfl
@[simp] theorem setCnt_fresh : (setCnt i n s).fresh = s.fresh := rfl
@[simp] theorem setCore_fresh : (setCore c x s).fresh = s.fresh := rfl
@[simp] theorem incCnt_fresh : (incCnt i s).fresh = s.fresh := rfl
@[simp] theorem modCore_fresh : (modCore c fc s).fresh = s.fresh := rfl
@[simp] theorem setCluster_fresh : (setCluster k xk s).fresh = s.fresh := rfl
@[simp] theorem modCluster_fresh : (modCluster k fk s).fresh = s.fresh := rfl
@[simp] theorem setRegW_fresh : (setRegW off idx v s).fresh = s.fresh := rfl
@[simp] theorem setDie_fresh : (setDie d xd s).fresh = s.fresh := rfl
@[simp] theorem modDie_fresh : (modDie d fd s).fresh = s.fresh := rfl
@[simp] theorem setSlot_fresh : (setSlot i xs s).fresh = s.fresh := rfl
@[simp] theorem setRegF_fresh : (setRegF off idx hi lo v s).fresh = s.fresh := rfl
@[simp] theorem modSlot_fresh : (modSlot i fs s).fresh = s.fresh := rfl
@[simp] theorem setPort_fresh : (setPort p xp s).fresh = s.fresh := rfl
@[simp] theorem modPort_fresh : (modPort p fp s).fresh = s.fresh := rfl
@[simp] theorem modGrp_fresh : (modGrp fg s).fresh = s.fresh := rfl
@[simp] theorem setPeer_fresh : (setPeer i xq s).fresh = s.fresh := rfl
@[simp] theorem setTbl_fresh : (setTbl i xt s).fresh = s.fresh := rfl
@[simp] theorem setNet_fresh : (setNet nd xn s).fresh = s.fresh := rfl
@[simp] theorem setSticky_fresh : (setSticky off idx b s).fresh = s.fresh := rfl
@[simp] theorem modNet_fresh : (modNet nd fn s).fresh = s.fresh := rfl
@[simp] theorem setReq_fresh : (setReq i xr s).fresh = s.fresh := rfl
@[simp] theorem putDom_fresh : (putDom i xo s).fresh = s.fresh := rfl
@[simp] theorem modTime_fresh : (modTime ft s).fresh = s.fresh := rfl
@[simp] theorem setNlu_fresh : (setNlu i xu s).fresh = s.fresh := rfl
@[simp] theorem modReam_fresh : (modReam seq fr s).fresh = s.fresh := rfl
@[simp] theorem setLane_fresh : (setLane i xl s).fresh = s.fresh := rfl
@[simp] theorem setUnit_fresh : (setUnit u st cause s).fresh = s.fresh := rfl
@[simp] theorem modLane_fresh : (modLane i fl s).fresh = s.fresh := rfl
@[simp] theorem setEPort_fresh : (setEPort i xe s).fresh = s.fresh := rfl
@[simp] theorem modEPort_fresh : (modEPort i fe s).fresh = s.fresh := rfl
@[simp] theorem modCanopy_fresh : (modCanopy fy s).fresh = s.fresh := rfl
@[simp] theorem modBoot_fresh : (modBoot fb s).fresh = s.fresh := rfl

/-! ### Updates that leave `pending` -/
@[simp] theorem addCnt_pending : (addCnt i n s).pending = s.pending := rfl
@[simp] theorem setCnt_pending : (setCnt i n s).pending = s.pending := rfl
@[simp] theorem setCore_pending : (setCore c x s).pending = s.pending := rfl
@[simp] theorem incCnt_pending : (incCnt i s).pending = s.pending := rfl
@[simp] theorem modCore_pending : (modCore c fc s).pending = s.pending := rfl
@[simp] theorem setCluster_pending : (setCluster k xk s).pending = s.pending := rfl
@[simp] theorem modCluster_pending : (modCluster k fk s).pending = s.pending := rfl
@[simp] theorem setRegW_pending : (setRegW off idx v s).pending = s.pending := rfl
@[simp] theorem setDie_pending : (setDie d xd s).pending = s.pending := rfl
@[simp] theorem modDie_pending : (modDie d fd s).pending = s.pending := rfl
@[simp] theorem setSlot_pending : (setSlot i xs s).pending = s.pending := rfl
@[simp] theorem setRegF_pending : (setRegF off idx hi lo v s).pending = s.pending := rfl
@[simp] theorem modSlot_pending : (modSlot i fs s).pending = s.pending := rfl
@[simp] theorem setPort_pending : (setPort p xp s).pending = s.pending := rfl
@[simp] theorem modPort_pending : (modPort p fp s).pending = s.pending := rfl
@[simp] theorem modGrp_pending : (modGrp fg s).pending = s.pending := rfl
@[simp] theorem setPeer_pending : (setPeer i xq s).pending = s.pending := rfl
@[simp] theorem setTbl_pending : (setTbl i xt s).pending = s.pending := rfl
@[simp] theorem setNet_pending : (setNet nd xn s).pending = s.pending := rfl
@[simp] theorem setSticky_pending : (setSticky off idx b s).pending = s.pending := rfl
@[simp] theorem modNet_pending : (modNet nd fn s).pending = s.pending := rfl
@[simp] theorem setReq_pending : (setReq i xr s).pending = s.pending := rfl
@[simp] theorem putDom_pending : (putDom i xo s).pending = s.pending := rfl
@[simp] theorem modTime_pending : (modTime ft s).pending = s.pending := rfl
@[simp] theorem setNlu_pending : (setNlu i xu s).pending = s.pending := rfl
@[simp] theorem modReam_pending : (modReam seq fr s).pending = s.pending := rfl
@[simp] theorem setLane_pending : (setLane i xl s).pending = s.pending := rfl
@[simp] theorem setUnit_pending : (setUnit u st cause s).pending = s.pending := rfl
@[simp] theorem modLane_pending : (modLane i fl s).pending = s.pending := rfl
@[simp] theorem setEPort_pending : (setEPort i xe s).pending = s.pending := rfl
@[simp] theorem modEPort_pending : (modEPort i fe s).pending = s.pending := rfl
@[simp] theorem modCanopy_pending : (modCanopy fy s).pending = s.pending := rfl
@[simp] theorem modBoot_pending : (modBoot fb s).pending = s.pending := rfl

/-! ### Own fields -/

@[simp] theorem modGrp_grp : (modGrp fg s).grp = fg s.grp := rfl
@[simp] theorem modTime_time : (modTime ft s).time = ft s.time := rfl
@[simp] theorem modCanopy_canopy : (modCanopy fy s).canopy = fy s.canopy := rfl
@[simp] theorem modBoot_boot : (modBoot fb s).boot = fb s.boot := rfl

/-! ### Reads after writes -/

@[simp] theorem getCore_setCore : getCore (setCore c x s) c = x := by simp [getCore, setCore]
@[simp] theorem getCore_modCore : getCore (modCore c fc s) c = fc (getCore s c) := by simp [modCore]
theorem getCore_setCore_ne {c' : CoreId} (h : c' ≠ c) : getCore (setCore c x s) c' = getCore s c' :=
  mapGetD_mapSetD_other _ _ _ (fun e => h (Fin.ext e))
theorem getCore_modCore_ne {c' : CoreId} (h : c' ≠ c) : getCore (modCore c fc s) c' = getCore s c' :=
  getCore_setCore_ne s c _ h
@[simp] theorem getCluster_setCluster : getCluster (setCluster k xk s) k = xk := by simp [getCluster, setCluster]
@[simp] theorem getCluster_modCluster : getCluster (modCluster k fk s) k = fk (getCluster s k) := by simp [modCluster]
theorem getCluster_setCluster_ne {k' : ClusterId} (h : k' ≠ k) : getCluster (setCluster k xk s) k' = getCluster s k' :=
  mapGetD_mapSetD_other _ _ _ (fun e => h (Fin.ext e))
@[simp] theorem getDie_setDie : getDie (setDie d xd s) d = xd := by simp [getDie, setDie]
@[simp] theorem getDie_modDie : getDie (modDie d fd s) d = fd (getDie s d) := by simp [modDie]
@[simp] theorem getPort_setPort : getPort (setPort p xp s) p = xp := by
  cases p <;> simp [getPort, setPort, portIx]
@[simp] theorem getPort_modPort : getPort (modPort p fp s) p = fp (getPort s p) := by simp [modPort]
theorem getPort_setPort_ne {q : HPort} (h : q ≠ p) : getPort (setPort p xp s) q = getPort s q := by
  cases p <;> cases q <;> first | exact absurd rfl h | exact famGet_famSet_other _ _ _ (by decide)
theorem getSlot_setSlot (j : SlotId) : getSlot (setSlot j.val xs s) j.val = xs :=
  famGet_famSet_same _ _ _ _ j.isLt
@[simp] theorem getNet_setNet : getNet (setNet nd xn s) nd = xn := by cases nd <;> simp [getNet, setNet, dieIx]
@[simp] theorem getNet_modNet : getNet (modNet nd fn s) nd = fn (getNet s nd) := by simp [modNet]
@[simp] theorem getTbl_setTbl : getTbl (setTbl i xt s) i = some xt := by simp [getTbl, setTbl]
theorem getTbl_setTbl_ne {j : Nat} (h : j ≠ i) : getTbl (setTbl i xt s) j = getTbl s j := mapGet_mapSet_other _ _ h
@[simp] theorem getPeer_setPeer : getPeer (setPeer i xq s) i = some xq := by simp [getPeer, setPeer]
theorem getPeer_setPeer_ne {j : Nat} (h : j ≠ i) : getPeer (setPeer i xq s) j = getPeer s j := mapGet_mapSet_other _ _ h
@[simp] theorem getReq_setReq : getReq (setReq i xr s) i = some xr := by simp [getReq, setReq]
theorem getReq_setReq_ne {j : Nat} (h : j ≠ i) : getReq (setReq i xr s) j = getReq s j := mapGet_mapSet_other _ _ h
@[simp] theorem getDom_putDom : getDom (putDom i xo s) i = xo := by simp [getDom, putDom]
theorem getDom_putDom_ne {j : Nat} (h : j ≠ i) : getDom (putDom i xo s) j = getDom s j := mapGetD_mapSetD_other _ _ _ h
@[simp] theorem getNlu_setNlu : getNlu (setNlu i xu s) i = xu := by simp [getNlu, setNlu]
@[simp] theorem getLane_setLane : getLane (setLane i xl s) i = xl := by simp [getLane, setLane]
@[simp] theorem getEPort_setEPort : getEPort (setEPort i xe s) i = xe := by simp [getEPort, setEPort]
@[simp] theorem getEPort_modEPort : getEPort (modEPort i fe s) i = fe (getEPort s i) := by simp [modEPort]

@[simp] theorem cntGet_setCnt : cntGet (setCnt i n s) i = n := by simp [cntGet, setCnt]
theorem cntGet_addCnt (h : i ≠ 19666 ∧ i ≠ 19667) : cntGet (addCnt i n s) i = min (cntGet s i + n) (2 ^ 64 - 1) := by
  simp [cntGet, addCnt, h.1, h.2]
theorem cntGet_addCnt_ne {j : Nat} (h : j ≠ i) : cntGet (addCnt i n s) j = cntGet s j := mapGetD_mapSetD_other _ _ _ h

/-- A stored register word reads as written, cut to 32 bits. -/
@[simp] theorem regW_setRegW : regW (setRegW off idx v s) off idx = v % 2 ^ 32 := by
  unfold regW setRegW
  split <;> rename_i h <;> dsimp only at h <;> split at h <;> simp_all

theorem regW_setRegW_ne {off' idx' : Nat} (h : regKey off' idx' ≠ regKey off idx) :
    regW (setRegW off idx v s) off' idx' = regW s off' idx' := by
  have e : mapGet (regKey off' idx') (setRegW off idx v s).regs = mapGet (regKey off' idx') s.regs := by
    unfold setRegW
    dsimp only
    split
    · exact mapGet_mapDel_other _ h
    · exact mapGet_mapSet_other _ _ h
  unfold regW
  rw [e]

/-! ### Parts of a core -/

variable (m : MeId) (e : MEng) (j : CtxId) (y : Ctx) (bk : Bank)

@[simp] theorem getEngine_setEngine : getEngine (setEngine m e x) m = e := by simp [getEngine, setEngine]
theorem getEngine_setEngine_ne {m' : MeId} (h : m' ≠ m) : getEngine (setEngine m e x) m' = getEngine x m' :=
  famGet_famSet_other _ _ _ (fun q => h (Fin.ext q))
@[simp] theorem getCtx_setCtx : getCtx (setCtx j y x) j = y :=
  famGet_famSet_same _ _ _ _ j.isLt
theorem getCtx_setCtx_ne {j' : CtxId} (h : j' ≠ j) : getCtx (setCtx j y x) j' = getCtx x j' :=
  famGet_famSet_other _ _ _ (fun q => h (Fin.ext q))
theorem getBank_setBank (h : n < 4) : getBank (setBank n bk x) n = bk := by simp [getBank, setBank, h]
theorem getBank_setBank_ne {n' : Nat} (h : n' ≠ n) : getBank (setBank n bk x) n' = getBank x n' :=
  famGet_famSet_other _ _ _ h

end Sys2Proof.Machine
end

