-- ==== Sys2Proof/Laws/Operands.lean ====
section
/-! SUPPORT. What the vector engine's operands read after they are written, and what an instruction leaves. -/

namespace Sys2Proof.Machine

/-! ### Byte strings -/

theorem length_toLE (n v : Nat) : (toLE n v).length = n := by
  induction n generalizing v with
  | zero => rfl
  | succ n ih => simp [toLE, ih]

theorem leNat_toLE (n v : Nat) : leNat (toLE n v) = v % 256 ^ n := by
  induction n generalizing v with
  | zero => simp [toLE, leNat, Nat.mod_one]
  | succ n ih =>
    have e : (256 : Nat) ^ (n + 1) = 256 * 256 ^ n := by rw [Nat.pow_succ, Nat.mul_comm]
    rw [toLE, leNat, ih, e, Nat.mod_mul, BitVec.toNat_ofNat]

/-! ### Lanes -/

theorem length_mergeLanes (old : List W32) (new : List (Option W32)) (ho : old.length = 128) (hn : new.length = 128) :
    (mergeLanes old new).length = 128 := by simp [mergeLanes, ho, hn]

theorem laneOf_mergeLanes (old : List W32) (new : List (Option W32)) (i : Nat) (ho : i < old.length) (hn : i < new.length) :
    laneOf (mergeLanes old new) i = (new[i]).getD (laneOf old i) := by
  simp [laneOf, mergeLanes, List.getD, ho, hn]

@[simp] theorem length_readVec (x : CoreState) (n : BitVec 8) : (readVec x n).length = 128 := by
  unfold readVec readV readCol zeroLanes
  split
  · split <;> simp
  · simp

theorem map_laneOf (l : List W32) (h : l.length = 128) : (List.range 128).map (laneOf l) = l := by
  apply List.ext_getElem (by simp [h])
  intro i h1 h2
  simp [laneOf, List.getD, h2]

theorem readVec_flags (x : CoreState) (n : BitVec 8) (o l p : W16) (b q : Nat) :
    readVec { x with ve := { x.ve with flagOp := o, flagLayer := l, flagPos := p, flagBit := b, pos := q } } n = readVec x n := rfl

/-- The four bytes of a lane. -/
theorem flatten_lanes (l : List W32) (i : Nat) (h : i < l.length) :
    (((l.map (fun v => toLE 4 v.toNat)).flatten).drop (4 * i)).take 4 = toLE 4 (l[i]).toNat := by
  induction l generalizing i with
  | nil => simp at h
  | cons v l ih =>
    cases i with
    | zero => simp [length_toLE]
    | succ i =>
      have := ih i (by simpa using h)
      rw [show 4 * (i + 1) = 4 + 4 * i by omega]
      have d : (toLE 4 v.toNat).drop (4 + 4 * i) = [] := List.drop_eq_nil_of_le (by simp [length_toLE])
      simpa [List.drop_append, length_toLE, d] using this

theorem length_flatten_lanes (l : List W32) : ((l.map (fun v => toLE 4 v.toNat)).flatten).length = 4 * l.length := by
  induction l with
  | nil => rfl
  | cons v l ih => simp [length_toLE] at ih ⊢; omega

theorem winOf_lt (n : BitVec 8) : winOf n.toNat < 4 := by
  have := n.isLt; unfold winOf; omega

/-- A destination reads back the lanes written, merged with those kept (R133). -/
theorem readVec_writeVec (n : BitVec 8) (lanes : List (Option W32)) (poison : Bool) (x : CoreState) (hl : lanes.length = 128) :
    readVec (writeVec n lanes poison x) n = mergeLanes (readVec x n) lanes := by
  have hm := length_mergeLanes (readVec x n) lanes (length_readVec x n) hl
  by_cases h : isVReg n = true
  · simp only [writeVec, h, readVec, ite_true, readV, mapGet_mapSet_same] at hm ⊢
    exact map_laneOf _ hm
  · have hb : (getBank (writeVec n lanes poison x) (winOf n.toNat)).mem =
        ramWrite (getBank x (winOf n.toNat)).mem (512 * colOf n.toNat)
          ((mergeLanes (readVec x n) lanes).map (fun v => toLE 4 v.toNat)).flatten := by
      simp only [writeVec, h]
      exact congrArg Bank.mem (getBank_setBank (winOf n.toNat) x _ (winOf_lt n))
    have hr : readVec (writeVec n lanes poison x) n = readCol (writeVec n lanes poison x) n.toNat := by simp [readVec, h]
    rw [hr]
    unfold readCol
    dsimp only
    rw [hb]
    apply List.ext_getElem (by simp [hm])
    intro i h1 h2
    have hi : i < 128 := by simpa using h1
    have hlen := length_flatten_lanes (mergeLanes (readVec x n) lanes)
    rw [hm] at hlen
    simp only [List.getElem_map, List.getElem_range]
    rw [ramRead_ramWrite _ _ _ _ _ (by omega), flatten_lanes _ i (by omega), leNat_toLE]
    apply BitVec.eq_of_toNat_eq
    simpa [BitVec.toNat_ofNat] using (mergeLanes (readVec x n) lanes)[i].isLt

/-! ### What an instruction leaves -/

/-- A core with its record of the last flag, and nothing else, possibly changed. -/
def sameButFlags (x y : CoreState) : Prop :=
  ∃ o l p b, y = { x with ve := { x.ve with flagOp := o, flagLayer := l, flagPos := p, flagBit := b } }

theorem foldl_setSticky_frame (off idx : Nat) (fs : List Nat) (s : State) :
    fs.foldl (fun s b => setSticky off idx b s) s = { s with regs := (fs.foldl (fun s b => setSticky off idx b s) s).regs } := by
  induction fs generalizing s with
  | nil => rfl
  | cons f fs ih => exact (ih (setSticky off idx f s)).trans rfl

theorem foldl_setSticky_cores (off idx : Nat) (fs : List Nat) (s : State) :
    (fs.foldl (fun s b => setSticky off idx b s) s).cores = s.cores := by
  rw [foldl_setSticky_frame]

theorem setVFlags_only (c : CoreId) (fs : List Nat) (s : State) :
    setVFlags c fs s = { s with cores := (setVFlags c fs s).cores, regs := (setVFlags c fs s).regs, fresh := (setVFlags c fs s).fresh } := by
  cases fs with
  | nil => rfl
  | cons f fs =>
    simp only [setVFlags]
    split <;> (rw [foldl_setSticky_frame]; rfl)

theorem getCore_setVFlags (c : CoreId) (fs : List Nat) (s : State) : sameButFlags (getCore s c) (getCore (setVFlags c fs s) c) := by
  cases fs with
  | nil => exact ⟨_, _, _, _, rfl⟩
  | cons f fs =>
    have h (s' : State) (e : s'.cores = s.cores) : getCore ((f :: fs).foldl (fun s b => setSticky 0xF00400 c.val b s) s') c = getCore s c := by
      unfold getCore; rw [foldl_setSticky_cores, e]
    simp only [setVFlags, getCore_modCore]
    split
    · rw [h s rfl]; exact ⟨_, _, _, _, rfl⟩
    · rw [h (drawFree s).2 rfl]; exact ⟨_, _, _, _, rfl⟩

theorem getCore_setVFlags_ne {c d : CoreId} (h : d ≠ c) (fs : List Nat) (s : State) : getCore (setVFlags c fs s) d = getCore s d := by
  cases fs with
  | nil => rfl
  | cons f fs =>
    have h' (s' : State) (e : s'.cores = s.cores) : getCore ((f :: fs).foldl (fun s b => setSticky 0xF00400 c.val b s) s') d = getCore s d := by
      unfold getCore; rw [foldl_setSticky_cores, e]
    simp only [setVFlags]
    split
    · rw [getCore_modCore_ne _ _ _ h, h' s rfl]
    · rw [getCore_modCore_ne _ _ _ h, h' (drawFree s).2 rfl]

theorem readVec_sameButFlags {x y : CoreState} (h : sameButFlags x y) (n : BitVec 8) : readVec y n = readVec x n := by
  obtain ⟨o, l, p, b, rfl⟩ := h; rfl

/-- What VE_INSTR and the position count, and nothing else. -/
theorem getCore_vDone (c : CoreId) (s : State) :
    getCore (vDone c s) c = { getCore s c with ve := { (getCore s c).ve with pos := (getCore s c).ve.pos + 1 } } := by
  rw [← getCore_modCore s c (fun x => { x with ve := { x.ve with pos := x.ve.pos + 1 } })]; rfl

theorem getCore_vDone_ne {c d : CoreId} (h : d ≠ c) (s : State) : getCore (vDone c s) d = getCore s d :=
  getCore_modCore_ne s c (fun x => { x with ve := { x.ve with pos := x.ve.pos + 1 } }) h

theorem vDone_only (c : CoreId) (s : State) :
    vDone c s = { s with cores := (vDone c s).cores, counters := (vDone c s).counters } := rfl

theorem getElem_maskedLanes (x : CoreState) (v : VOps) (f : Nat → W32) (i : Nat) (h : i < (maskedLanes x v f).length) :
    (maskedLanes x v f)[i] = if laneActive x v.msk i then some (f i) else if v.mz then some 0 else none := by
  simp [maskedLanes]

theorem length_maskedLanes (x : CoreState) (v : VOps) (f : Nat → W32) : (maskedLanes x v f).length = 128 := by simp [maskedLanes]

/-- The lanes of a destination after `writeLanes` (R133). -/
theorem laneOf_writeLanes (c : CoreId) (v : VOps) (srcs : List (BitVec 8)) (f : CoreState → List LaneOut) (s : State) (i : Nat) (hi : i < 128) :
    laneOf (readVec (getCore (writeLanes c v srcs f s) c) v.vd) i =
      if laneActive (getCore s c) v.msk i then ((f (getCore s c)).getD i (laneBits 0)).w
      else if v.mz then 0 else laneOf (readVec (getCore s c) v.vd) i := by
  simp only [writeLanes]
  rw [readVec_sameButFlags (getCore_setVFlags c _ _), getCore_setCore, readVec_writeVec _ _ _ _ (length_maskedLanes _ _ _),
    laneOf_mergeLanes _ _ i (by simp [hi]) (by rw [length_maskedLanes]; exact hi), getElem_maskedLanes]
  split
  · rfl
  · split <;> rfl

theorem writeLanes_only (c : CoreId) (v : VOps) (srcs : List (BitVec 8)) (f : CoreState → List LaneOut) (s : State) :
    writeLanes c v srcs f s = { s with cores := (writeLanes c v srcs f s).cores, regs := (writeLanes c v srcs f s).regs,
                                       fresh := (writeLanes c v srcs f s).fresh } := by
  simp only [writeLanes]
  rw [setVFlags_only]; rfl

theorem getCore_writeLanes_ne {c d : CoreId} (h : d ≠ c) (v : VOps) (srcs : List (BitVec 8)) (f : CoreState → List LaneOut) (s : State) :
    getCore (writeLanes c v srcs f s) d = getCore s d := by
  simp only [writeLanes]
  rw [getCore_setVFlags_ne h, getCore_setCore_ne _ _ _ h]

end Sys2Proof.Machine
end

