-- ==== Sys2Proof/Laws/Vector.lean ====
section
/-! SUPPORT. Sticky flags bit by bit, and the whole effect of the lane-wise vector instructions. -/

namespace Sys2Proof.Machine

/-! ### Sticky bits -/

theorem testBit_setBits_one (w b j : Nat) : (setBits w b b 1).testBit j = (w.testBit j || j == b) := by
  have hb : b + 1 - b = 1 := by omega
  have h1 : setBits w b b 1 = 2 ^ b * (w / 2 ^ b / 2 * 2 + 1) + w % 2 ^ b := by
    unfold setBits bits
    rw [hb]
    have e1 := Nat.div_add_mod w (2 ^ b)
    have e2 := Nat.div_add_mod (w / 2 ^ b) 2
    have e3 : 2 ^ b * (w / 2 ^ b) = 2 ^ b * (w / 2 ^ b / 2 * 2) + w / 2 ^ b % 2 * 2 ^ b := by
      conv_lhs => rw [← e2]
      ring
    have e4 : 2 ^ b * (w / 2 ^ b / 2 * 2 + 1) = 2 ^ b * (w / 2 ^ b / 2 * 2) + 2 ^ b := by ring
    simp only [pow_one, one_mul, show 1 % 2 = 1 from rfl]
    omega
  have h2 : w = 2 ^ b * (w / 2 ^ b) + w % 2 ^ b := (Nat.div_add_mod w (2 ^ b)).symm
  have hr : w % 2 ^ b < 2 ^ b := Nat.mod_lt _ (Nat.two_pow_pos b)
  have h3 : w.testBit j = if j < b then (w % 2 ^ b).testBit j else (w / 2 ^ b).testBit (j - b) := by
    conv_lhs => rw [h2]
    exact Nat.testBit_two_pow_mul_add _ hr _
  rw [h1, Nat.testBit_two_pow_mul_add _ hr, h3]
  rcases Nat.lt_trichotomy j b with h | h | h
  · have : ¬ j = b := by omega
    simp [h, this]
  · subst h; simp
  · have hn : ¬ j < b := by omega
    have hne : ¬ j = b := by omega
    obtain ⟨k, hk⟩ : ∃ k, j - b = k + 1 := ⟨j - b - 1, by omega⟩
    simp only [hn, hk, Nat.testBit_succ, ite_false]
    have : (w / 2 ^ b / 2 * 2 + 1) / 2 = w / 2 ^ b / 2 := by omega
    simp [this, hne]

theorem bit_setSticky (off idx b j : Nat) (s : State) (hj : j < 32) :
    bit (regW (setSticky off idx b s) off idx) j = (bit (regW s off idx) j || j == b) := by
  unfold setSticky setRegF bit
  rw [regW_setRegW, Nat.testBit_mod_two_pow, testBit_setBits_one]
  simp [hj]

theorem bit_foldl_setSticky (off idx j : Nat) (fs : List Nat) (s : State) (hj : j < 32) :
    bit (regW (fs.foldl (fun s b => setSticky off idx b s) s) off idx) j = (bit (regW s off idx) j || fs.contains j) := by
  induction fs generalizing s with
  | nil => simp
  | cons f fs ih => rw [List.foldl_cons, ih, bit_setSticky _ _ _ _ _ hj, List.contains_cons, Bool.or_assoc]

theorem setSticky_regs_ne {k off idx b : Nat} (s : State) (h : k ≠ regKey off idx) :
    mapGet k (setSticky off idx b s).regs = mapGet k s.regs := by
  unfold setSticky setRegF setRegW
  dsimp only
  split
  · exact mapGet_mapDel_other _ h
  · exact mapGet_mapSet_other _ _ h

theorem foldl_setSticky_regs_ne {k off idx : Nat} (fs : List Nat) (s : State) (h : k ≠ regKey off idx) :
    mapGet k (fs.foldl (fun s b => setSticky off idx b s) s).regs = mapGet k s.regs := by
  induction fs generalizing s with
  | nil => rfl
  | cons f fs ih => rw [List.foldl_cons, ih, setSticky_regs_ne _ h]

theorem flagsAdded_setVFlags (c : CoreId) (fs : List Nat) (s : State) : flagsAdded c fs s (setVFlags c fs s) := by
  intro b hb
  cases fs with
  | nil => simp [setVFlags]
  | cons f fs =>
    have h (s' : State) (e : s'.regs = s.regs) :
        bit (regW ((f :: fs).foldl (fun s b => setSticky 0xF00400 c.val b s) s') 0xF00400 c.val) b =
          (bit (regW s 0xF00400 c.val) b || (f :: fs).contains b) := by
      rw [bit_foldl_setSticky _ _ _ _ _ hb]
      unfold regW; rw [e]
    simp only [setVFlags]
    split
    · exact h s rfl
    · exact h (drawFree s).2 rfl

theorem setVFlags_regs_ne (c : CoreId) (fs : List Nat) (s : State) {k : Nat} (h : k ≠ regKey 0xF00400 c.val) :
    mapGet k (setVFlags c fs s).regs = mapGet k s.regs := by
  cases fs with
  | nil => rfl
  | cons f fs =>
    simp only [setVFlags]
    split
    · exact foldl_setSticky_regs_ne (f :: fs) s h
    · exact foldl_setSticky_regs_ne (f :: fs) (drawFree s).2 h

/-! ### Frames -/

/-- What `setVFlags` and the completion of an instruction leave of any state. -/
theorem vecFrame_vDone (c : CoreId) (cs fs : List Nat) (s u : State)
    (hu : u = { s with cores := u.cores, counters := u.counters, fresh := u.fresh })
    (hc : ∀ d, d ≠ c → getCore u d = getCore s d) (hk : ∀ k, k ∉ cs → cntGet u k = cntGet s k) (h1 : cntCore c.val 1 ∉ cs) :
    vecFrame c cs s (vDone c (setVFlags c fs u)) := by
  have hcnt : (setVFlags c fs u).counters = u.counters := by rw [setVFlags_only]
  refine ⟨?_, fun d hd => ?_, fun k hk => ?_, fun k hk1 hk2 => ?_, ?_⟩
  · rw [vDone_only, setVFlags_only, hu]
  · rw [getCore_vDone_ne hd, getCore_setVFlags_ne hd, hc d hd]
  · show mapGet k (setVFlags c fs u).regs = _
    rw [setVFlags_regs_ne c fs u hk, hu]
  · show cntGet (incCnt _ _) k = _
    unfold incCnt
    rw [cntGet_addCnt_ne _ _ _ hk1, ← hk k hk2]
    show mapGetD 0 k (setVFlags c fs u).counters = mapGetD 0 k u.counters
    rw [hcnt]
  · have hn : cntCore c.val 1 ≠ 19666 ∧ cntCore c.val 1 ≠ 19667 := by unfold cntCore; omega
    show cntGet (incCnt _ _) _ = _
    unfold incCnt
    rw [cntGet_addCnt _ _ _ hn, ← hk _ h1]
    show min (mapGetD 0 _ (setVFlags c fs u).counters + 1) _ = min (mapGetD 0 _ u.counters + 1) _
    rw [hcnt]

theorem flagsAdded_vDone (c : CoreId) (fs : List Nat) (s u : State) (hu : u.regs = s.regs) :
    flagsAdded c fs s (vDone c (setVFlags c fs u)) := by
  intro b hb
  have h := flagsAdded_setVFlags c fs u b hb
  have e : regW u 0xF00400 c.val = regW s 0xF00400 c.val := by unfold regW; rw [hu]
  rw [e] at h
  exact h

/-- The core after an instruction: its new content with the flags' record and the position. -/
theorem getCore_vDone_setVFlags (c : CoreId) (fs : List Nat) (u : State) :
    ∃ o l p b, getCore (vDone c (setVFlags c fs u)) c =
      { getCore u c with ve := { (getCore u c).ve with flagOp := o, flagLayer := l, flagPos := p, flagBit := b, pos := (getCore u c).ve.pos + 1 } } := by
  obtain ⟨o, l, p, b, h⟩ := getCore_setVFlags c fs u
  refine ⟨o, l, p, b, ?_⟩
  rw [getCore_vDone, h]

/-! ### Destinations -/

theorem contains_setPut (p : Bool) (n m : Nat) (l : List Nat) : (setPut p n l).contains m = if m = n then p else l.contains m := by
  by_cases h : m = n
  · subst h
    cases p <;> simp [setPut, setIns, setDel]
  · have h' : ¬ n = m := fun e => h e.symm
    cases p
    · simp [setPut, setDel, h, List.contains_eq_mem]
    · simp only [setPut, setIns, h, ite_true, ite_false, List.contains_eq_mem, List.mem_append, List.mem_cons, List.mem_filter,
        decide_eq_true_eq, false_or, decide_eq_decide]
      constructor
      · rintro (h1 | h1) <;> exact h1.1
      · intro hm
        rcases Nat.lt_or_gt_of_ne h with hl | hl
        · exact .inl ⟨hm, hl⟩
        · exact .inr ⟨hm, hl⟩

theorem readVec_writeVec_ne {n m : BitVec 8} (lanes : List (Option W32)) (poison : Bool) (x : CoreState) (hn : isVReg n = true)
    (h : n ≠ m) : readVec (writeVec m lanes poison x) n = readVec x n ∧ vecPoison (writeVec m lanes poison x) n = vecPoison x n := by
  have hne : n.toNat ≠ m.toNat := fun e => h (BitVec.eq_of_toNat_eq e)
  by_cases hm : isVReg m = true
  · simp only [readVec, hn, writeVec, hm, ite_true, readV, mapGet_mapSet_other _ _ hne, vecPoison, contains_setPut, hne, ite_false, and_self]
  · simp only [readVec, hn, writeVec, hm, ite_true, vecPoison]; exact ⟨rfl, rfl⟩

theorem vecPoison_writeVec (vd : BitVec 8) (lanes : List (Option W32)) (poison : Bool) (x y : CoreState)
    (hy : sameButFlags (writeVec vd lanes poison x) { y with ve := { y.ve with pos := (writeVec vd lanes poison x).ve.pos } }) :
    destPoison vd poison (lanes.any (·.isNone)) x y := by
  have e : vecPoison y vd = vecPoison (writeVec vd lanes poison x) vd := by
    obtain ⟨o, l, p, b, h⟩ := hy
    have : vecPoison y vd = vecPoison { y with ve := { y.ve with pos := (writeVec vd lanes poison x).ve.pos } } vd := rfl
    rw [this, h]; rfl
  unfold destPoison
  split
  · rename_i h
    rw [e]
    simp only [writeVec, h, vecPoison, ite_true, contains_setPut]
  · rename_i h
    intro hp
    rw [e]
    have hq : (getBank (writeVec vd lanes poison x) (winOf vd.toNat)).poison =
        (poison || ((getBank x (winOf vd.toNat)).poison && !(List.range 48).all (fun j =>
          ((if poison then setDel (48 * winOf vd.toNat + colOf vd.toNat) x.ve.cleanCols
            else if lanes.any (·.isNone) && (getBank x (winOf vd.toNat)).poison then x.ve.cleanCols
            else setIns (48 * winOf vd.toNat + colOf vd.toNat) x.ve.cleanCols).contains (48 * winOf vd.toNat + j))))) := by
      simp only [writeVec, h]
      exact congrArg Bank.poison (getBank_setBank (winOf vd.toNat) x _ (winOf_lt vd))
    have hv : vecPoison (writeVec vd lanes poison x) vd = (getBank (writeVec vd lanes poison x) (winOf vd.toNat)).poison := by
      simp only [vecPoison, h]; rfl
    rw [hv, hq, hp]; rfl

theorem writeVec_bank (m : BitVec 8) (lanes : List (Option W32)) (poison : Bool) (x : CoreState) (w a : Nat) (hl : lanes.length = 128)
    (h : isVReg m = true ∨ w ≠ winOf m.toNat ∨ a < 512 * colOf m.toNat ∨ 512 * colOf m.toNat + 512 ≤ a) :
    ramGet (getBank (writeVec m lanes poison x) w).mem a = ramGet (getBank x w).mem a := by
  by_cases hm : isVReg m = true
  · simp only [writeVec, hm]; rfl
  · by_cases hw : w = winOf m.toNat
    · subst hw
      have hlen := length_flatten_lanes (mergeLanes (readVec x m) lanes)
      rw [length_mergeLanes _ _ (length_readVec x m) hl] at hlen
      have hb : (getBank (writeVec m lanes poison x) (winOf m.toNat)).mem =
          ramWrite (getBank x (winOf m.toNat)).mem (512 * colOf m.toNat)
            ((mergeLanes (readVec x m) lanes).map (fun v => toLE 4 v.toNat)).flatten := by
        simp only [writeVec, hm]
        exact congrArg Bank.mem (getBank_setBank (winOf m.toNat) x _ (winOf_lt m))
      rw [hb, ramGet_ramWrite_out]
      rcases h with h | h | h | h
      · exact absurd h hm
      · exact absurd rfl h
      · exact .inl h
      · exact .inr (by omega)
    · have hb : getBank (writeVec m lanes poison x) w = getBank x w := by
        simp only [writeVec, hm]
        exact getBank_setBank_ne (winOf m.toNat) x _ hw
      rw [hb]

theorem destFrame_writeVec (v : BitVec 8) (lanes : List (Option W32)) (poison : Bool) (x y : CoreState) (hl : lanes.length = 128)
    (o l p : W16) (b : Nat)
    (hy : y = { writeVec v lanes poison x with ve := { (writeVec v lanes poison x).ve with
      flagOp := o, flagLayer := l, flagPos := p, flagBit := b, pos := (writeVec v lanes poison x).ve.pos + 1 } }) :
    destFrame [v] x y := by
  subst hy
  refine ⟨?_, fun n hn hne => readVec_writeVec_ne lanes poison x hn (by simpa using hne),
    fun w a h => writeVec_bank v lanes poison x w a hl (h v (by simp))⟩
  unfold writeVec
  dsimp only
  split <;> rfl

/-- The whole effect of writing a destination, setting flags and completing. -/
theorem destWrites_of (c : CoreId) (vd : BitVec 8) (lanes : List (Option W32)) (f : Nat → W32) (poison keeps : Bool) (fs cs : List Nat)
    (s u : State) (hl : lanes.length = 128)
    (hf : ∀ i (hi : i < 128), ((lanes[i]'(by omega)).getD (laneOf (readVec (getCore s c) vd) i)) = f i)
    (hkeep : lanes.any (·.isNone) = keeps)
    (hcore : getCore u c = writeVec vd lanes poison (getCore s c))
    (hu : u = { s with cores := u.cores, counters := u.counters, fresh := u.fresh })
    (hc : ∀ d, d ≠ c → getCore u d = getCore s d) (hk : ∀ k, k ∉ cs → cntGet u k = cntGet s k) (h1 : cntCore c.val 1 ∉ cs) :
    destWrites c vd f poison keeps fs cs s (vDone c (setVFlags c fs u)) := by
  obtain ⟨o, l, p, b, h⟩ := getCore_vDone_setVFlags c fs u
  rw [hcore] at h
  refine ⟨fun i hi => ?_, ?_, ?_, ?_, vecFrame_vDone c cs fs s u hu hc hk h1⟩
  · have : readVec (getCore (vDone c (setVFlags c fs u)) c) vd = readVec (writeVec vd lanes poison (getCore s c)) vd := by rw [h]; rfl
    rw [this, readVec_writeVec _ _ _ _ hl, laneOf_mergeLanes _ _ i (by simp [hi]) (by omega)]
    exact hf i hi
  · rw [← hkeep]
    refine vecPoison_writeVec vd lanes poison _ _ ?_
    rw [h]
    exact ⟨o, l, p, b, rfl⟩
  · exact flagsAdded_vDone c fs s u (by rw [hu])
  · exact destFrame_writeVec vd lanes poison _ _ hl o l p b h

/-! ### Lane-wise instructions -/

theorem any_maskedLanes (x : CoreState) (v : VOps) (f : Nat → W32) : (maskedLanes x v f).any (·.isNone) = keepsLane v x := by
  unfold maskedLanes keepsLane
  rw [List.any_map]
  by_cases h : v.mz = true
  · simp only [h, Bool.not_true, Bool.false_and]
    rw [List.any_eq_false]
    intro i _
    simp only [Function.comp]
    split <;> simp
  · simp only [h, Bool.not_false, Bool.true_and]
    congr 1
    funext i
    simp only [Function.comp]
    cases laneActive x v.msk i <;> simp

theorem any_zip_range (l : List LaneOut) (q : Nat → Bool) (p : LaneOut → Bool) (f : Nat → LaneOut) (h : l.length = 128)
    (hf : ∀ i < 128, l.getD i (laneBits 0) = f i) :
    ((l.zip (List.range 128)).filter (fun a => q a.2)).any (fun a => p a.1) = (List.range 128).any (fun i => q i && p (f i)) := by
  have e : l.zip (List.range 128) = (List.range 128).map (fun i => (f i, i)) := by
    apply List.ext_getElem (by simp [h])
    intro i h1 h2
    have hi : i < 128 := by simpa using h2
    have := hf i hi
    simp only [List.getD, List.getElem?_eq_getElem (h ▸ hi), Option.getD_some] at this
    simp [this]
  rw [e, List.any_filter, List.any_map]
  rfl

/-- The whole effect of an instruction that writes lane outcomes. -/
theorem laneWise_writeLanes (c : CoreId) (v : VOps) (srcs : List (BitVec 8)) (F : CoreState → List LaneOut)
    (f : CoreState → Nat → LaneOut) (s : State) (n : Nat) (hl : (F (getCore s c)).length = 128)
    (hf : ∀ i < 128, (F (getCore s c)).getD i (laneBits 0) = f (getCore s c) i) :
    laneWise c v srcs f s (vDone c (writeLanes c v srcs F { s with fresh := n })) := by
  have hg : getCore { s with fresh := n } c = getCore s c := rfl
  simp only [writeLanes, hg]
  rw [any_zip_range _ (laneActive (getCore s c) v.msk) (·.invalid) _ hl hf, any_zip_range _ (laneActive (getCore s c) v.msk) (·.overflow) _ hl hf,
      any_zip_range _ (laneActive (getCore s c) v.msk) (·.sat) _ hl hf]
  refine destWrites_of c v.vd _ _ _ _ _ [] s _ (length_maskedLanes _ _ _) (fun i hi => ?_) (any_maskedLanes _ _ _) (getCore_setCore _ _ _) rfl
    (fun d hd => getCore_setCore_ne _ _ _ hd) (fun k _ => rfl) (by simp)
  rw [getElem_maskedLanes]
  unfold masked
  split
  · exact congrArg LaneOut.w (hf i hi)
  · split <;> rfl

end Sys2Proof.Machine
end

