-- ==== Sys2Proof/WellFormed.lean ====
section
/-! DEFINITION. Well-formed commands: operands that the manual lists, apart from the state they meet. -/

namespace Sys2Proof

/-- A vector or mask operand of a vector instruction: V0 to V31 and the bank columns from 64 (R128). -/
def operandWf (n : BitVec 8) : Bool := decide (n.toNat < 32) || decide (64 ≤ n.toNat)

def vopsWf (v : VOps) : Bool := operandWf v.vd && operandWf v.va && operandWf v.vb

/-- FIN-only and GSIZE values of MMA, and NM1 below 48 (R111). -/
def mmaWf (op : MmaOp) : Bool := op.gsize != 3 && decide (op.nM1.toNat < 48) && (op.fin || op.sideRef == 0)

/-- SPACE and LEN of LDT and STT (R112). -/
def ldtWf (op : LdtOp) : Bool := op.space != 3 && (op.wtile || op.len != 0)
def sttWf (op : SttOp) : Bool := op.space != 3 && op.len != 0 && (!op.fromBank || decide (op.len.toNat < 4))

/-- VEC names at least one word, and brings the words that it names (R113). -/
def vecWf (op : VecOp) (prog : List W64) : Bool := op.instrCount != 0 && prog.length == op.instrCount.toNat

/-- OUT_MODE of TREE (R169). -/
def treeWf (op : TreeOp) : Bool := op.outMode != 3 && (op.outMode != 1 || op.seg == 0)

/-- COUNT of WAIT and SIGNAL (R113). -/
def tokenWf (op : TokenOp) : Bool := op.count != 0

/-- POOL_OP and OUT_FMT of the NLU commands (R207). -/
def gatherWf (c : NluCmd) : Bool := c.outFmt != 3 && c.poolOp == 0 && c.bagLine == 0 && c.bagCountM1 == 0
def poolWf (c : NluCmd) : Bool := c.poolOp != 3 && decide (c.outFmt.toNat < 2)

/-- A 64-byte line of the device address space of 3,328 GiB (R187). -/
def lineWf (l : Nat) : Bool := decide (l < 55834574848)

/-- A host address of a line (R332). -/
def addrWf (a : W64) : Bool := a.toNat % 64 == 0

/-- An aligned access of BAR0 (R331). -/
def accessWf (off : BitVec 24) (size8 : Bool) : Bool := off.toNat % (if size8 then 8 else 4) == 0

/-- An index of a tracker half (R295). -/
def trackerWf (ix : Nat) : Bool := decide (ix < 524288)

/-- A fetched descriptor line (R343). -/
def fetchWf (line : Option Bytes) : Bool :=
  match line with
  | some bs => bs.length == 64
  | none => true

/-- A batch's list is of 32-byte records, and a row's bytes come with each (R243). -/
def batchWf (list : Bytes) (rows : List Bytes) : Bool := list.length == 32 * rows.length

/-- A 4 KiB unit that arrives (R219). -/
def fetchUnitWf (a : Option Bytes) : Bool :=
  match a with
  | some bs => bs.length == 4096
  | none => true

/-- A firmware copy has a 512-byte header and a body of BODY_LEN bytes, at most 8 MiB (R431). -/
def fwWf (hdr body : Bytes) : Bool := hdr.length == 512 && decide (body.length ≤ 8388608)

/-- The command's operands are listed ones. -/
def Instr.wf : Instr → Bool
  | .porstAssert | .porstRelease _ | .firmwareVerify | .stackFillEnd | .configLoad => true
  | .timeLockTimeout | .servingEnter _ | .hostLinkUp _ | .hostPortReset _ _ | .frameReceive _ _ _ _ => true
  | .groupFrameReceive _ _ _ | .flowUpdate | .flowInsert | .flowSample | .sampleDispatch _ => true
  | .segmentSumDone _ _ | .standOutputsReturn _ => true
  | .scoreWaitExpire _ ix => trackerWf ix
  | .admissionOffer | .reamSeal | .prewake _ | .launchEdge | .lateLaunch _ | .programStart _ _ _ => true
  | .nop _ _ _ => true
  | .mma _ _ op _ => mmaWf op
  | .tileReexecute _ _ _ | .mmaReissue _ _ _ | .deckleStrikeClear _ _ | .checkStrikeClear _ _ => true
  | .ldt _ _ op _ => ldtWf op
  | .stt _ _ op => sttWf op
  | .vec _ _ op prog => vecWf op prog.words
  | .tree _ _ op _ => treeWf op
  | .parityStrikeClear _ => true
  | .wait _ _ op | .signal _ _ op => tokenWf op
  | .endProg _ _ _ => true
  | .vnop _ v | .add _ v | .sub _ v | .mul _ v | .fma _ v => vopsWf v
  | .residueStrikeClear _ => true
  | .div _ v | .sqrt _ v | .max _ v | .min _ v | .abs _ v | .neg _ v | .mov _ v | .sel _ v => vopsWf v
  | .and _ v | .or _ v | .xor _ v | .shl _ v | .shra _ v | .shrl _ v | .cmp _ v | .mlog _ v => vopsWf v
  | .mcnt _ v | .setvl _ v | .cvt _ v | .movi _ v | .bcast _ v | .iota _ v | .vld _ v | .vst _ v => vopsWf v
  | .vlds _ v | .vsts _ v | .perm _ v | .compress _ v | .expand _ v | .rsum _ v | .rmean _ v => vopsWf v
  | .rmax _ v | .rmin _ v | .rargmax _ v | .rargmin _ v | .topk _ v | .tmerge _ v | .exp _ v => vopsWf v
  | .log _ v | .rsqrt _ v | .tanh _ v | .sigm _ v | .gelu _ v | .cvset _ v | .setcc _ v | .size _ v => vopsWf v
  | .cvtn _ v | .side _ v | .dcvn _ v | .cfl _ v => vopsWf v
  | .spineClipMerge _ _ _ => true
  | .gather _ cmd _ => gatherWf cmd
  | .pool _ cmd _ => poolWf cmd
  | .nluLookup _ _ _ _ | .lookupForward _ | .poolCombine _ _ _ => true
  | .overhangRead _ _ attempts => attempts.all fetchUnitWf
  | .guardedWrite line _ | .degradedRead line => lineWf line
  | .scrubPass _ _ _ | .stripeParityCheck | .stackLost _ | .stackRetire _ | .rebuildStep => true
  | .tableInsert | .entryMove _ | .batchStage _ | .lateCommit _ | .retirementStart _ => true
  | .retirementEnd _ | .tblRead _ _ | .tblInsert _ _ | .tblUpdate _ _ | .tblDelete _ _ => true
  | .tblMove _ _ | .fwdRead _ _ | .fwdInsert _ _ | .fwdUpdate _ _ | .fwdDelete _ _ | .fwdMove _ _ => true
  | .learnHoldExpire _ _ | .agingVisit _ _ | .pfxWrite _ _ _ | .pfxRead _ _ _ | .ruleWrite _ _ _ => true
  | .ruleRead _ _ _ | .quadModeWrite _ _ _ | .portUp _ | .laneLost _ | .portRewidth _ => true
  | .laneRejoin _ | .laserLowLight _ _ | .shaperWheelSlot _ | .egressSelect _ | .transmitEnd _ => true
  | .gateListChange _ | .gateApply _ _ | .shaperConfig _ _ _ | .meterConfig _ _ _ => true
  | .responseBuild _ ix _ | .responseCellWait _ ix | .requestReap _ ix => trackerWf ix
  | .fifoPop _ _ _ | .dropRest _ _ | .slotDrained _ | .segmentMove _ | .standReloadEnd _ => true
  | .gtReplicaSync _ | .holdoverEnter | .holdoverExit _ | .ppsInEdge | .gtSourceWrite _ _ => true
  | .gtStep _ | .gtReadCapture _ => true
  | .shadowRead _ off => accessWf off false
  | .logWordCapture _ | .peakRead => true
  | .registerWrite _ off size8 _ => accessWf off size8
  | .semReq _ _ | .semRel _ _ | .semLeaseExpire => true
  | .hdmRead _ addr _ | .hdmWrite _ addr _ => addrWf addr
  | .backInvalidate _ line _ => lineWf line
  | .hdmCommit _ _ _ | .sqDoorbell _ _ _ | .cqDoorbell _ _ _ | .sqLineSnoop _ _ _ | .sqEnable _ _ _ => true
  | .sqDisable _ _ _ | .sqStopped _ _ | .cqEnable _ _ _ | .cqCoalesceTimer _ _ => true
  | .descriptorFetch _ _ line => fetchWf line
  | .descriptorAccept _ _ | .loadImage => true
  | .loadImageEnd _ env _ _ => decide (env.length ≤ 1024)
  | .activateSlot => true
  | .overlayStore block => decide (block.length ≤ 4096)
  | .overlayApplySet => true
  | .replaceBcb block => decide (block.length ≤ 65536)
  | .tableBatch src => batchWf src.list src.rows
  | .infer _ | .dumpArm | .dumpDisarm | .dumpCopy _ _ _ | .dumpCopyEnd _ | .counterSnapshot => true
  | .freeze | .timeSetSource | .timeSetRate | .timeStep | .timeRead | .groupList | .groupEvict => true
  | .groupSetHolders | .groupHandover | .groupLeave | .evrRead | .evrReadHold | .evrHoldTimeout => true
  | .attest | .attestReport | .protCommit _ _ | .announceSend | .announce | .welcome | .refuse => true
  | .heartbeatSend | .heartbeat | .ack | .retransmit _ | .write | .work | .shareEnd _ _ _ _ | .result => true
  | .refuseWork | .journal | .release | .members | .table | .leave | .promote | .probe => true
  | .workerReady _ | .peerLost _ | .probeSend | .selfPromote | .leaveTimeout | .trackerEmptyJoin => true
  | .canopyReport _ _ | .mergeWindowEnd _ _ _ _ | .rootAction _ | .keepaliveSend _ | .nodeLost _ => true
  | .reamRelaunch _ | .memTimeout _ _ _ _ | .fenceCmd _ | .unfenceCmd _ | .unfenceApply => true
  | .handoverClear _ | .coreSleep _ | .clusterSleep _ | .stackSelfRefresh _ | .laneStandby _ => true
  | .sleepEntryEnd _ | .demandWake _ | .wakeEnd _ | .wakeFail _ | .droop _ | .droopRecover _ => true
  | .powerCapWindow _ | .thermalThrottle _ _ | .thermalRelease _ _ | .thermtrip _ | .qclkUnlock => true
  | .qclkRelock | .avsRetry _ _ | .aonBrownout | .watchdogExpire => true
  | .fwWrite _ hdr body => fwWf hdr body
  | .fwSwitch _ | .fwHandoff | .fwHealthReport | .probationExpire | .configCopyWrite => true
  | .raiseCounter _ | .revokeSlot _ | .custKeyInstall _ | .custKeyClear _ | .doeDiscovery _ _ => true
  | .certRead _ dw2 _ => decide (dw2.toNat ≤ 2)
  | .doeAttest _ nonce => nonce.length == 32
  | .i3cWrite _ | .i3cRead | .traceFrame | .drainWrite _ | .drainRiWrite _ _ | .freezeAtMatch => true
  | .freezeInEdge | .thresholdMatch | .freezeOutEnd | .evrFlush _ | .evrRecordClose _ | .ppsOutRise => true
  | .ppsOutFall | .feltLinkLost _ | .fwWriteComplete _ | .fuseBlowEnd | .snapshotComplete => true
  | .evrReadComplete | .dynamicAddressAssignment _ => true

end Sys2Proof
end

