-- ==== Sys2Proof/Tests/Slice0.lean ====
section
/-! SUPPORT. Tests: terms that are not well formed, decoding, worked values of the manual, and for each statement with
hypotheses states and operands that meet all of them together. Each `wit_` theorem names the statement that it is for. -/

namespace Sys2Proof.Tests

set_option Elab.async false

open Sys2Proof Sys2Proof.Machine

/-! ### Small terms and states -/

/-- A vector instruction without mask. -/
def vo (vd va vb : BitVec 8) (ty : BitVec 3) (imm : BitVec 24) : VOps :=
  { vd := vd, va := va, vb := vb, msk := 0, mz := false, ty := ty, imm := imm, resid := 0 }

def hdr0 : CmdHdr := { launchRef := 0, layer := 5, op := 6 }

/-- BF16 by BF16: one block, one row, one channel, bank 3, engine 0. -/
def mma0 : MmaOp :=
  { hdr := hdr0, bank := 3, keep := false, fin := false, engine := 0, wfmt := 1, afmt := 1, gsize := 0, wAddr := 0, aAddr := 64,
    kBlocksM1 := 0, mM1 := 0, nM1 := 0, seqBase := 0, sideRef := 0, fence := false }

/-- LDT of the last line of the die's SRAM to the last of tile memory. -/
def ldt0 : LdtOp :=
  { hdr := hdr0, space := 1, wtile := false, tmAddr := 32767, memAddr := 1048575, len := 1, nM1 := 0, kBlocksM1 := 0, wfmt := 0,
    gsize := 0 }

def run0 : MmaRun := { ctx := 0, op := mma0, checkFail := none, deckleFail := none, fenced := false, moved := false }

/-- The machine after reset with a change to core 0, and to a port of it. -/
def onCore (f : CoreState → CoreState) : State := modCore 0 f State.reset

def image0 : Image :=
  { tables := [], adopted := [], regions := [], stands := [], gather := [], services := [], inputs := []
    outputs := [], parts := [], sides := [], programs := [], layers := [], tensors := []
    weights := [], sections := [], overhangOk := true }

def tensor0 : TensorDesc :=
  { id := 0, layers := [5], fmt := 7, zpen := false, satThresh := 0, spine := 0, posts := 1, scales := [], zps := [], parts := [],
    tableOf := none }

/-- Slot A READY with an image. -/
def withImage (i : Image) (s : State) : State := { s with slots := famSet s.slots 0 { Slot.empty with st := 2, image := some i } }

/-- A next state is answered. -/
def isNext (r : Host.Outcome State Fault Refusal) : Bool :=
  match r with
  | .next _ => true
  | _ => false

theorem next_of {r : Host.Outcome State Fault Refusal} (h : isNext r = true) : ∃ t, r = .next t := by
  cases r with
  | next t => exact ⟨t, rfl⟩
  | fault _ => cases h
  | refused _ => cases h

/-- A slot-A ream with the number 0, launched, that core 0 works on. -/
def ream0 : Ream :=
  { seq := 0, slot := 0, window := 0, part := 0, launchNs := 0, sealed_ := true, launched := true, view := 0, reqs := [], rows := []
    jobs := [], cores := [0], rebuild := [], started := [], occupied := [], cluCredit := [], nluCredit := [], entries := [], tgen := 0, share := none, shares := [],
    abandoned := false }

def withReam (r : Ream) (s : State) : State := { s with reams := s.reams ++ [r] }

/-- GT in 2^-32 ns. -/
def atGt (n : Nat) (s : State) : State := { s with gt := BitVec.ofNat 96 n }

/-- A domain ON. -/
def domOn (n : Nat) (s : State) : State := setDom n 4 s

/-- A stand of ID 1 with one tree of one node, one feature and one output: a leaf of value 1.0 for output 0. -/
def stand1 : Bytes :=
  toLE 4 (1 + 2 ^ 10 + 2 ^ 19) ++ toLE 4 1 ++ toLE 4 1 ++ toLE 4 1 ++ List.replicate 48 0 ++ toLE 8 (1 + 2 ^ 17) ++
    List.replicate 56 0 ++ List.replicate 64 0

def tree0 : TreeOp :=
  { hdr := hdr0, standId := 1, seg := 0, outMode := 1, fAddr := 32767, oAddr := 32766, fStrideM1 := 0, oStrideM1 := 0, samplesM1 := 0,
    fence := true }

def seg0 : SegEntry := { stand := 1, slot := 0, seg := 0, flow := false, base := 131071, count := 1 }

/-- One stripe from stripe 0 on, in a region of a kind. -/
def withRegion (kind : Nat) (s : State) : State :=
  { s with dsm := { s.dsm with regions := [(0, { first := 0, count := 1, kind := kind, slot := 0, owned := true })] } }

/-- A table of two buckets in lines 0 and 1 whose rows follow. -/
def desc0 (kind : Nat) : TblDesc :=
  { table := 7, kind := kind, blog := 1, maxKick := 1, fmt := 6, gsize := 0, seed0 := 0, seed1 := 1, rowLen := 4, bucketBase := 0,
    rowBase := 4096, rowLimit := 1024, default_ := 0, agePeriod := 1 }

def tbl0 (kind : Nat) : Tbl :=
  { desc := desc0 kind, owners := [0], gen := 0, pending := false, commitGt := 0, retiring := false, revisited := false, kick := 0,
    epoch := 0, refs := [], occupied := 0, changed := [], queue := [], staging := none
    stagedAt := 0, holds := [], swept := 0, visited := [] }

def withTbl (kind : Nat) (x : Tbl) (s : State) : State := setTbl 7 x (withRegion kind s)

def cmd0 : NluCmd :=
  { launchRef := 0, table := 7, poolOp := 0, outFmt := 0, keyLine := 0, keyCountM1 := 0, bagLine := 0, bagCountM1 := 0,
    destCluster := 0, destLine := 262143, destStrideM1 := 0, tensorId := 9, reamSeq := 0 }

/-- An entry of key 5 with row 3 in slot `sl` of bucket `b`. -/
def entry5 (b sl vis : Nat) (s : State) : State := putSlot 7 b sl { key := 5, row := 3, flags := 64 * vis } s

def withSem (s : State) : State := { s with host := { s.host with sem := { owner := some .h0, token := 7, leaseEnd := 2 ^ 95, expiries := 0, tieFirst := .h0, servedEarly := none } } }

/-- A host address decoder of one line from address 0. -/
def withHdm (s : State) : State := modPort .h0 (fun x => { x with hdmBase := 0, hdmSize := 64, linkUp := true }) s

/-- A descriptor of 64 bytes from port H0, ring 0, whose first bytes are given. -/
def descOf (bs : Bytes) : Desc :=
  { port := .h0, ring := 0, bytes := bs ++ List.replicate (64 - bs.length) 0, due := 0, protGen := 0, stampNs := 0, sub := 0, seq := 1,
    era := 0, entries := [], minSigs := 0, keys := [] }

def withInbox (d : Desc) (s : State) : State := { s with host := { s.host with inbox := [d] } }

def ins5 : InsReq :=
  { table := 7, op := 2, entry := { key := 5, row := 3, flags := 64 }, target := (0, 0), port := .h0, ord := 0 }
def del5 : BatchRec := { op := 3, static := false, reserved := false, row := 0, key := 5, rowBytes := [] }
def change0 (who : ChangeBy) (recs : List BatchRec) (expect : Nat) : Change := { who := who, recs := recs, expect := expect, due := 0 }

/-- Key 5's first and second bucket in the table of two buckets. -/
def b0 : Nat := bucketN (desc0 0) 0 5
def b1 : Nat := bucketN (desc0 0) 1 5

/-- TBL_KEY of port H0 is 5, TBL_ROW the last row. -/
def withKey5 (s : State) : State := setRegW (tblCmdOff + 0x10) 0 1023 (setRegQ (tblCmdOff + 8) 0 5 s)

/-- A lane UP alone as its port, and a frame of 64 bytes in one of its queues. -/
def laneUp (l : Nat) (s : State) : State := setLane l { Lane.down with st := 2 } (setEPort l { EPort.down with st := 2 } s)
def item0 : QItem := { frame := 0, entry := none, mirror := false, group := false, deferred := none }
def withFrame (s : State) : State :=
  { s with net := { s.net with
      frames := [(0, { die := .n0, len := 64, bytes := List.replicate 64 0, grp := none, copies := 1, cells := [0] })], nextFrame := 1 } }

/-- A lost stack; the first one lost starts the rebuild. -/
def lostStack (st : Nat) (s : State) : State :=
  { s with dsm := { s.dsm with lost := setIns st s.dsm.lost, st := 1, firstLost := st, next := 0 } }

def req0 : Req :=
  { id := 0, deadline := 0, st := 5, slot := 0, port := 0, worker := 0, hint := false, untracked := false, unscored := false, service := 0,
    ream := 0, flowIndex := none, frame := none, infer := none, clientTag := [], body := [], outs := [], sampled := none, sample := none, ord := 0, offeredAt := 0,
    carries := 0, clu := [], nlu := [], reply := none, bound := false, replaced := false }

/-- An IPv4 UDP frame from 10.0.0.1 to 10.0.0.2 whose source MAC is 02:00:00:00:00:01, for port 47008, and the MRP request of service
9 with a budget of 1,000 ns that it carries. -/
def mrp0 : Bytes :=
  toBE 1 1 ++ toBE 1 1 ++ toBE 2 48 ++ toBE 8 77 ++ toBE 8 5 ++ toBE 4 1000 ++ toBE 2 9 ++ toBE 2 0 ++ toBE 4 0 ++ List.replicate 16 8
def frame0 : Bytes :=
  let h0 := [0x45, 0, 0, 76, 0, 0, 0x40, 0, 64, 17]
  let addrs := [10, 0, 0, 1, 10, 0, 0, 2]
  toBE 6 0 ++ toBE 6 0x020000000001 ++ [8, 0] ++ h0 ++ toBE 2 (65535 - inetSum (h0 ++ [0, 0] ++ addrs) 0) ++ addrs ++
    toBE 2 5000 ++ toBE 2 47008 ++ toBE 2 56 ++ [0, 0] ++ mrp0 ++ [0, 0, 0, 0]

/-- Port 0 up with the local address 10.0.0.2, and a rule 0 of any key with an action. -/
def netUp (act : Nat) : State :=
  let s := setRegW 0x800110 0 2 (setRegW 0x800100 0 0x0A000002 (laneUp 0 State.reset))
  { s with net := { s.net with rules := [(0, { key := 0, mask := 0, act := act, valid := true, hits := 0 })] } }

/-- A FLOW table over a region, with hardware records. -/
def flowTbl (s : State) : State := withTbl 2 (tbl0 1) s

def flow0 : FlowFrame :=
  { key := 5, classM := true, die := .n0, port := 0, gtNs := 10, len := 64, ttl := some 64, dscp := some 0, l4dst := some 47008, tcp := none,
    fields := [], score := true, entry := some 9 }

def smp0 : Sample := { id := 1, die := .n0, index := 3, key := 5, feats := [0], slot := 0, stand := 1, waiter := some 9 }
def standObj : StandObj := { offset := 0, bytes := stand1, cluster := 0, cores := [0] }
def inFlight0 (sums : List (Nat × List W32)) : InFlight := { sample := smp0, sums := sums, poisoned := false }

/-- Stand 1 in slot A, with its segment in core 0. -/
def withStand (s : State) : State :=
  withImage { image0 with stands := [standObj] } (modCore 0 (fun x => { x with te := { x.te with segs := [(0, seg0)], stream := [1] } }) s)

/-- SERVING in windows of 1,000 ns with slot A ACTIVE and a service 9 of one unit in cluster 0. -/
def serving (units : Nat) : State :=
  let svc : Service := { id := 9, estNs := 0, units := units, clusters := [0], bodyLen := some 0, resultLen := 4, keys := [] }
  let s := withImage { image0 with services := [svc] } (setRegF 0x600000 0 2 0 5 (laneUp 0 State.reset))
  let s := { s with slots := famMap (fun _ x => { x with st := if x.image.isSome then 3 else 0 }) s.slots }
  { s with host := { s.host with cfg := { s.host.cfg with fields := [(2, 1000)] } }, adm := { s.adm with offers := [9] } }

def offered (q : Req) (units : Nat) : State := setReq 9 q (serving units)

def dTime (action : Byte) (bs : Bytes) : Desc := descOf ([9] ++ List.replicate 15 0 ++ [action] ++ bs)

/-! ### Hypotheses of the statements: vector instructions -/

theorem wit_VectorArithmetic : ∃ (c : CoreId) (v : VOps) (s : State), coreActive s c.val = true ∧ v.resid = 0 ∧
    listed2 v (vty v.ty.toNat) = true ∧ listed1 { v with vb := 0 } (vty v.ty.toNat) = true ∧ (vtyD v).isFloat = true :=
  ⟨255, vo 31 64 255 0 0, State.reset, by decide +kernel⟩

theorem wit_VectorArithmetic_sqrt : ∃ (c : CoreId) (v : VOps) (s : State), coreActive s c.val = true ∧ v.resid = 0 ∧
    listed1 v (vty v.ty.toNat) = true ∧ (vtyD v).isFloat = true :=
  ⟨0, vo 255 31 0 1 0, State.reset, by decide +kernel⟩

theorem wit_VectorSelection : ∃ (c : CoreId) (v : VOps) (s : State), coreActive s c.val = true ∧
    listed2 v (vty v.ty.toNat) = true :=
  ⟨0, { vo 0 31 64 4 0 with msk := 7, mz := true }, State.reset, by decide +kernel⟩

/-- The most negative integer stands in the lane. -/
theorem wit_VectorSelection_neg : ∃ (c : CoreId) (v : VOps) (s : State), coreActive s c.val = true ∧
    listed1 v (vty v.ty.toNat) = true ∧ laneInt (vtyD v) (laneOf (readVec (getCore s c) v.va) 0) = intMin (vtyD v) :=
  ⟨0, vo 0 1 0 4 0, onCore (fun x => { x with ve := { x.ve with regs := [(1, [0x80])] } }), by decide +kernel⟩

theorem wit_VectorBits : ∃ (c : CoreId) (v : VOps) (s : State), coreActive s c.val = true ∧
    listed2 v (vty v.ty.toNat) = true ∧ (vtyD v).isFloat = false := ⟨0, vo 0 1 2 2 0, State.reset, by decide +kernel⟩

theorem wit_VectorBits_shift : ∃ (c : CoreId) (v : VOps) (s : State), coreActive s c.val = true ∧
    listed1 v (vty v.ty.toNat) = true ∧ (vtyD v).isFloat = false ∧ shAmt v = 31 :=
  ⟨0, vo 0 1 0 4 31, State.reset, by decide +kernel⟩

theorem wit_VectorConstants : ∃ (c : CoreId) (v : VOps) (b : VTy) (s : State), coreActive s c.val = true ∧
    listed1 v (vty v.ty.toNat) = true ∧ vty (bits v.imm.toNat 2 0) = some b ∧ (vty v.ty.toNat).isSome = true ∧
    vecListed v.vd = true ∧ v.va = 0 ∧ v.vb = 0 :=
  ⟨0, vo 255 0 0 4 0x800000, .f32, State.reset, by decide +kernel⟩

theorem wit_VectorMasks : ∃ (c : CoreId) (s : State), coreActive s c.val = true ∧
    (∃ v : VOps, (vty v.ty.toNat).isSome = true ∧ v.vd = 0 ∧ v.va = 0 ∧ v.vb = 0 ∧ bit v.imm.toNat 8 = false ∧
      bits v.imm.toNat 7 0 ≤ 128) ∧
    (∃ v : VOps, (vty v.ty.toNat).isSome = true ∧ mskDest v.vd = true ∧ vecListed v.va = true ∧ vecListed v.vb = true ∧
      bits v.imm.toNat 2 0 < 7) ∧
    (∃ v : VOps, (vty v.ty.toNat).isSome = true ∧ mskDest v.vd = true ∧ mskListed v.va = true ∧ mskListed v.vb = true ∧
      bits v.imm.toNat 2 0 = 4 ∧ v.vb = 0) ∧
    (∃ v : VOps, (vty v.ty.toNat).isSome = true ∧ mskDest v.vd = true ∧ mskListed v.va = true ∧ mskListed v.vb = true ∧
      bits v.imm.toNat 2 0 = 3) ∧
    (∃ v : VOps, (vty v.ty.toNat).isSome = true ∧ vecListed v.vd = true ∧ v.va = 0 ∧ v.vb = 0) ∧
    (∃ v : VOps, (vty v.ty.toNat).isSome = true ∧ v.vd = 0 ∧ v.vb = 0 ∧ vecListed v.va = true ∧ bit v.imm.toNat 8 = true ∧
      128 < signedOf 32 (laneOf (readVec (getCore s c) v.va) 0).toNat) ∧
    (∃ v : VOps, (vty v.ty.toNat).isSome = true ∧ v.vd = 0 ∧ v.vb = 0 ∧ vecListed v.va = true ∧ bit v.imm.toNat 8 = true ∧
      signedOf 32 (laneOf (readVec (getCore s c) v.va) 0).toNat < 0) :=
  ⟨0, onCore (fun x => { x with ve := { x.ve with regs := [(1, [129]), (2, [0xFFFFFFFF])] } }), by decide +kernel,
    ⟨vo 0 0 0 0 128, by decide +kernel⟩, ⟨vo 7 255 31 4 6, by decide +kernel⟩, ⟨vo 7 7 0 0 4, by decide +kernel⟩,
    ⟨vo 1 7 7 0 3, by decide +kernel⟩, ⟨vo 255 0 0 0 0, by decide +kernel⟩, ⟨vo 0 1 0 0 0x100, by decide +kernel⟩,
    ⟨vo 0 2 0 0 0x100, by decide +kernel⟩⟩

/-- FP32 lanes to the last byte of tile memory. -/
theorem wit_VectorMemory : ∃ (c : CoreId) (v : VOps) (s : State), coreActive s c.val = true ∧ (vty v.ty.toNat).isSome = true ∧
    vecListed v.vd = true ∧ vecListed v.va = true ∧ v.va = 0 ∧ v.vd = 0 ∧ v.vb = 0 ∧
    lanesInside (getCore s c) v (unitAddr v) = true ∧ unitAddr v 127 + 4 = tileBytes :=
  ⟨0, vo 0 0 0 0 32760, State.reset, by decide +kernel⟩

theorem wit_VectorMemory_stride : ∃ (c : CoreId) (v : VOps) (s : State), coreActive s c.val = true ∧
    strideListed v = true ∧ vecListed v.vd = true ∧ vecListed v.va = true ∧ v.va = 0 ∧ v.vd = 0 ∧ v.vb = 15 ∧
    lanesInside (getCore s c) v (strideAddr v) = true :=
  ⟨0, vo 0 0 15 0 0x17fff, onCore (fun x => { x with ve := { x.ve with vl := 1 } }), by decide +kernel⟩

theorem wit_LanePermutations : ∃ (c : CoreId) (v : VOps) (s : State), coreActive s c.val = true ∧
    listed2 v (vty v.ty.toNat) = true ∧ listed1 { v with vb := 0 } (vty v.ty.toNat) = true :=
  ⟨0, { vo 0 64 255 0 0 with msk := 1 }, State.reset, by decide +kernel⟩

theorem wit_VectorReductions : ∃ (c : CoreId) (v : VOps) (s : State), coreActive s c.val = true ∧
    listed1 v (vty v.ty.toNat) = true ∧ v.resid = 0 ∧
    (List.range 128).all (fun i => !laneActive (getCore s c) v.msk i) = true :=
  ⟨0, { vo 0 1 0 0 0 with msk := 1 }, State.reset, by decide +kernel⟩

theorem wit_VectorReductions_active : ∃ (c : CoreId) (v : VOps) (s : State), coreActive s c.val = true ∧
    listed1 v (vty v.ty.toNat) = true ∧ v.resid = 0 ∧ laneActive (getCore s c) v.msk 127 = true :=
  ⟨0, vo 0 1 0 2 0, State.reset, by decide +kernel⟩

theorem wit_VectorTopK : ∃ (c : CoreId) (v : VOps) (s : State), coreActive s c.val = true ∧ topkListed v = true ∧
    vecListed v.va = true ∧ vecListed v.vb = true ∧ vecListed (v.va + 1) = true ∧ vecListed (v.vb + 1) = true ∧ v.va ≠ 0xFF ∧
    v.vb ≠ 0xFF := ⟨0, vo 30 30 254 0 64, State.reset, by decide +kernel⟩

theorem wit_VectorTranscendentals : ∃ (c : CoreId) (v : VOps) (s : State), coreActive s c.val = true ∧ v.resid = 0 ∧
    listed1 v (vty v.ty.toNat) = true ∧ (vtyD v).isFloat = true := ⟨0, vo 0 255 0 1 0, State.reset, by decide +kernel⟩

theorem wit_ConvertGroup : ∃ (c : CoreId) (s : State), coreActive s c.val = true ∧
    (∃ v : VOps, v.vd = 0 ∧ 3 ≤ v.va.toNat ∧ v.va.toNat ≤ 7 ∧ v.vb.toNat < 16 ∧ v.vb.toNat % 4 < 3 ∧
      (bit v.vb.toNat 3 = true ∧ (∃ e, elemFmt v.va.toNat = some e ∧ e.isInt = true) ∧ bit v.vb.toNat 2 = false)) ∧
    (∃ v : VOps, v.vd = 0 ∧ v.va = 0 ∧ v.vb = 0) ∧
    (∃ v : VOps, vecListed v.vd = true ∧ vecListed v.va = true ∧ v.vb = 0) ∧
    (∃ v : VOps, v.vd = 0 ∧ vecListed v.va = true ∧ vecListed v.vb = true ∧ v.vb = 0 ∧
      ceilTo (64 * bits v.imm.toNat 14 0 + (bits v.imm.toNat 23 15 + (cvGroups (getCore s c) v (slotG (getSlot8 (getCore s c) v))).length) *
        blockBytes (slotFmt (getSlot8 (getCore s c) v)) (slotG (getSlot8 (getCore s c) v))) 64 ≤ tileBytes) ∧
    (∃ v : VOps, vecListed v.vd = true ∧ v.va = 0 ∧ v.vb = 0 ∧ 64 * bits v.imm.toNat 14 0 + (bits v.imm.toNat 23 15 +
      dcvnGroups (getCore s c) v) * blockBytes (slotFmt (getSlot8 (getCore s c) v)) (slotG (getSlot8 (getCore s c) v)) ≤ tileBytes) :=
  ⟨0, onCore (fun x => setSlot8 (vo 0 0 0 0 0) { getSlot8 x (vo 0 0 0 0 0) with fmt := 7, gsize := 2 } x), by decide +kernel,
    ⟨vo 0 7 10 0 0, by decide +kernel, by decide +kernel, by decide +kernel, by decide +kernel, by decide +kernel, by decide +kernel,
      ⟨.int4, by decide +kernel⟩, by decide +kernel⟩,
    ⟨vo 0 0 0 7 0xFFFFFF, by decide +kernel⟩, ⟨vo 255 31 0 0 0, by decide +kernel⟩, ⟨vo 0 64 0 0 0x7ff0, by decide +kernel⟩,
    ⟨vo 255 0 0 0 0x7ff0, by decide +kernel⟩⟩

/-- CFL of a tensor of the slot's image. -/
theorem wit_ConvertGroup_cfl : ∃ (c : CoreId) (v : VOps) (s : State) (d : TensorDesc), coreActive s c.val = true ∧
    v.vd = 0 ∧ v.va = 0 ∧ v.vb = 0 ∧
    tensorOf s (getCtx (getCore s c) (getCore s c).ve.ctx).slot (getSlot8 (getCore s c) v).tensor = some d :=
  ⟨0, vo 0 0 0 0 0, withImage { image0 with tensors := [tensor0] } State.reset, tensor0, by decide +kernel⟩

/-- One mismatch without the core's residue strike, one with it, and one that the second run finds again. -/
theorem wit_ResidueCheck : ∃ (c : CoreId) (v : VOps) (s : State), v.resid = 1 ∧ coreActive s c.val = true ∧
    (∃ t, exec (.add c { v with resid := 0 }) s = .next t) ∧ (getCore s c).ve.strike = false :=
  ⟨0, { vo 0 1 2 2 0 with resid := 1 }, State.reset, by decide +kernel, by decide +kernel, next_of (by decide +kernel), by decide +kernel⟩

theorem wit_ResidueCheck_strike : ∃ (c : CoreId) (v : VOps) (s : State), 1 ≤ v.resid ∧ coreActive s c.val = true ∧
    (∃ t, exec (.gelu c { v with resid := 0 }) s = .next t) ∧ (getCore s c).ve.strike = true :=
  ⟨0, { vo 0 1 0 0 0 with resid := 1 }, onCore (fun x => { x with ve := { x.ve with strike := true, vl := 0 } }),
    by decide +kernel, by decide +kernel, next_of (by decide +kernel), by decide +kernel⟩

theorem wit_ResidueCheck_again : ∃ (c : CoreId) (v : VOps) (s : State), 2 ≤ v.resid ∧ coreActive s c.val = true ∧
    (∃ t, exec (.rsum c { v with resid := 0 }) s = .next t) ∧ (getCore s c).ve.strike = false :=
  ⟨255, { vo 0 1 0 2 0 with resid := 2 }, State.reset, by decide +kernel, by decide +kernel, next_of (by decide +kernel), by decide +kernel⟩

/-! ### Hypotheses of the statements: core commands, memory and lookup -/

theorem wit_SequencerCommands : ∃ (c : CoreId) (ctx : CtxId) (s : State) (op : TokenOp), canIssue s c ctx op.hdr = true ∧
    ctxBusy (getCore s c) ctx = false ∧ op.count ≠ 0 ∧ coreActive s c.val = true ∧ firstHeld s c ctx op.hdr = false ∧
    65535 < tokenGet s c ctx op.token.toNat + op.count.toNat ∧ op.count.toNat ≤ tokenGet s c ctx op.token.toNat :=
  ⟨255, 1, tokenSet 255 1 127 65535 State.reset, { hdr := hdr0, token := 127, count := 255 }, by decide +kernel⟩

theorem wit_SequencerCommands_wait : ∃ (c : CoreId) (ctx : CtxId) (s : State) (op : TokenOp), op.count ≠ 0 ∧
    coreActive s c.val = true ∧ firstHeld s c ctx op.hdr = false ∧ tokenGet s c ctx op.token.toNat < op.count.toNat ∧
    tokenGet s c ctx op.token.toNat + op.count.toNat ≤ 65535 :=
  ⟨0, 0, State.reset, { hdr := hdr0, token := 64, count := 1 }, by decide +kernel⟩

/-- END of the last program of a ream, and of one that a poisoned tensor has the ream rebuild. -/
theorem wit_SequencerCommands_end : ∃ (c : CoreId) (ctx : CtxId) (s : State) (h : CmdHdr) (r : Ream) (l : CoreId),
    canIssue s c ctx h = true ∧ ctxBusy (getCore s c) ctx = false ∧ reamOf s (getCtx (getCore s c) ctx).ream = some r ∧
    r.started.find? (fun l => physCore s l == c.val && (progsLeft r).contains l) = some l ∧ r.rebuild = [] ∧
    r.cores.filter (· != l) = [] :=
  ⟨0, 0, withReam { ream0 with started := [0] } State.reset, hdr0, { ream0 with started := [0] }, 0, by decide +kernel⟩

theorem wit_SequencerCommands_rebuild : ∃ (c : CoreId) (ctx : CtxId) (s : State) (h : CmdHdr) (r : Ream) (l : CoreId),
    canIssue s c ctx h = true ∧ ctxBusy (getCore s c) ctx = false ∧ reamOf s (getCtx (getCore s c) ctx).ream = some r ∧
    r.started.find? (fun l => physCore s l == c.val && (progsLeft r).contains l) = some l ∧ r.rebuild ≠ [] :=
  ⟨0, 0, withReam { ream0 with cores := [], rebuild := [0, 1], started := [0] } State.reset, hdr0,
    { ream0 with cores := [], rebuild := [0, 1], started := [0] }, 0, by decide +kernel⟩

theorem wit_ProgramStart : ∃ (c : CoreId) (ctx : CtxId) (ream : W32) (s : State) (r : Ream) (l : CoreId),
    reamOf s ream = some r ∧ ctx = ctxOf ream ∧ r.launched = true ∧ nextProg s r c = some l ∧ coreActive s c.val = true ∧
    domState s (domCore c.val) = 4 ∧ domState s (domCluster (c.val / 8)) = 4 ∧ peersFree s r c = true ∧
    ((getCtx (getCore s c) ctx).st = .idle ∨ (getCtx (getCore s c) ctx).st = .waitLaunch) :=
  ⟨0, 0, 0, withReam ream0 (domOn 0 (domOn 256 State.reset)), ream0, 0, by decide +kernel⟩

theorem wit_TileAttempts : ∃ (c : CoreId) (s : State) (ctx : CtxId) (op : MmaOp) (m : MeId), mmaListed op = true ∧
    mmaInside op = true ∧ canIssue s c ctx op.hdr = true ∧ bankHazard (getCore s c) ctx op.bank.toNat = false ∧
    (op.fence = true → ctxBusy (getCore s c) ctx = false) ∧ engineFor s c op.engine [] = some m ∧
    outranked s c ctx (some (.engine m)) = false :=
  ⟨0, State.reset, 0, { mma0 with fence := true, wAddr := 32767 }, 0, by decide +kernel⟩

/-- The other context's lower ream has an MMA for the engine in the queue. -/
def behind (s : State) : State :=
  { modCore 0 (fun x => setCtx 1 { getCtx x 1 with ream := 1 } x) s with
    pending := [.mma 0 0 mma0 .ok, .vec 0 0 { hdr := hdr0, instrOff := 0, instrCount := 1 } ⟨[0], []⟩] }

theorem wit_TileAttempts_outranked : ∃ (c : CoreId) (s : State) (ctx : CtxId) (op : MmaOp) (m : MeId), mmaListed op = true ∧
    mmaInside op = true ∧ canIssue s c ctx op.hdr = true ∧ bankHazard (getCore s c) ctx op.bank.toNat = false ∧
    (op.fence = true → ctxBusy (getCore s c) ctx = false) ∧ engineFor s c op.engine [] = some m ∧
    outranked s c ctx (some (.engine m)) = true :=
  ⟨0, behind State.reset, 1, mma0, 0, by decide +kernel⟩

theorem wit_TileAttempts_again : ∃ (c : CoreId) (s : State) (m : MeId) (r : MmaRun),
    (getEngine (getCore s c) m).reexec = some r ∧ engineActive s c m = true :=
  ⟨0, onCore (setEngine 3 { MEng.idle with reexec := some run0 }), 3, run0, by decide +kernel⟩

theorem wit_TileAttempts_moved : ∃ (c : CoreId) (s : State) (m : MeId) (r : MmaRun) (rest : List MmaRun),
    (getCore s c).reissue = r :: rest ∧ engineActive s c m = true ∧ (getEngine (getCore s c) m).reexec = none ∧
    r.checkFail ≠ some m ∧ r.deckleFail ≠ some m :=
  ⟨0, onCore (fun x => { x with reissue := [{ run0 with checkFail := some 0 }] }), 1, { run0 with checkFail := some 0 }, [],
    by decide +kernel⟩

/-- The last line of the die's SRAM to the last of tile memory; a weight tile of device memory needs its region. -/
theorem wit_LoadStore : ∃ (c : CoreId) (ctx : CtxId) (s : State) (op : LdtOp) (n : Nat), canIssue s c ctx op.hdr = true ∧
    memSpace op.space = some .die ∧ ldtShape op = some (n, none) ∧ op.memAddr.toNat + n ≤ spaceLines .die ∧
    op.tmAddr.toNat + n ≤ 32768 ∧ lineHazard s c ctx [(64 * op.tmAddr.toNat, 64 * n)] = false :=
  ⟨0, 0, State.reset, ldt0, 1, by decide +kernel⟩

theorem wit_LoadStore_weight : ∃ (c : CoreId) (ctx : CtxId) (s : State) (op : LdtOp) (errs : List (Nat × LineErr)) (n g nb st : Nat)
    (f : ElemFmt),
    canIssue s c ctx op.hdr = true ∧ memSpace op.space = some .device ∧ ldtShape op = some (n, some (f, g, nb, st)) ∧
    op.memAddr.toNat + n ≤ spaceLines .device ∧ op.tmAddr.toNat + n + nb * g / 16 ≤ 32768 ∧
    lineHazard s c ctx [(64 * op.tmAddr.toNat, 64 * (n + nb * g / 16))] = false ∧ (∀ e ∈ errs, e.2 ≠ .uncorrectable) ∧
    (∀ i < n, (lineSeen s (op.memAddr.toNat + i)).map (·.2) = some false) :=
  ⟨0, 0, withRegion 1 State.reset, { ldt0 with space := 0, wtile := true, tmAddr := 0, memAddr := 0, len := 0, wfmt := 6 },
    [(0, .corrected)], 1, 32, 1, 64, .int8, by decide +kernel⟩

/-- A line that comes with POISON. -/
theorem wit_LoadStore_poison : ∃ (c : CoreId) (ctx : CtxId) (s : State) (op : LdtOp) (u : NluId) (sub : Bool),
    canIssue s c ctx op.hdr = true ∧ memSpace op.space = some .device ∧ ldtShape op = some (1, none) ∧
    lineHazard s c ctx [(64 * op.tmAddr.toNat, 64)] = false ∧
    (∃ i < 1, (lineSeen s (op.memAddr.toNat + i)).map (·.2) = some true) ∧ ownerOf s op.memAddr.toNat = some (u.val, sub) :=
  ⟨0, 0, (fun s => { s with dsm := { s.dsm with poison := [0] } }) (withRegion 1 State.reset), { ldt0 with space := 0, memAddr := 0 }, 0, false,
    by decide +kernel⟩

theorem wit_LoadStore_store : ∃ (c : CoreId) (ctx : CtxId) (s : State) (op : SttOp), canIssue s c ctx op.hdr = true ∧
    memSpace op.space = some .cluster ∧ op.fromBank = true ∧ op.len.toNat < 4 ∧ op.memAddr.toNat + 384 ≤ spaceLines .cluster ∧
    bankHazard (getCore s c) ctx (op.len.toNat % 4) = false :=
  ⟨0, 0, State.reset, { hdr := hdr0, space := 2, fromBank := true, tmAddr := 0, memAddr := 261760, len := 3 }, by decide +kernel⟩

theorem wit_LoadStore_tile : ∃ (c : CoreId) (ctx : CtxId) (s : State) (op : SttOp), canIssue s c ctx op.hdr = true ∧
    memSpace op.space = some .device ∧ op.fromBank = false ∧ op.len = 1 ∧ op.memAddr.toNat + op.len.toNat ≤ spaceLines .device ∧
    op.tmAddr.toNat + op.len.toNat ≤ 32768 ∧ inBuckets s op.memAddr.toNat = false ∧ (lineSeen s op.memAddr.toNat).isSome = true ∧
    ovhOf s op.memAddr.toNat = none ∧ kindOf s (lineStripe op.memAddr.toNat) ≠ 0 ∧
    (place s (lineStripe op.memAddr.toNat) (lineSlot op.memAddr.toNat) (lineIx op.memAddr.toNat)).isSome = true :=
  ⟨0, 0, withRegion 1 State.reset, { hdr := hdr0, space := 0, fromBank := false, tmAddr := 32767, memAddr := 831, len := 1 },
    by decide +kernel⟩

/-- A program of one VNOP. -/
theorem wit_VectorProgram : ∃ (c : CoreId) (ctx : CtxId) (op : VecOp) (prog : List W64) (s : State), op.instrCount ≠ 0 ∧
    prog.length = op.instrCount.toNat ∧ canIssue s c ctx op.hdr = true ∧ ctxBusy (getCore s c) ctx = false ∧
    wordsFit c prog (vecStart c ctx op.hdr s) = true ∧ outranked s c ctx (some .vector) = false :=
  ⟨0, 0, { hdr := hdr0, instrOff := 0, instrCount := 1 }, [0], State.reset, by decide +kernel⟩

theorem wit_VectorProgram_outranked : ∃ (c : CoreId) (ctx : CtxId) (op : VecOp) (prog : List W64) (s : State), op.instrCount ≠ 0 ∧
    prog.length = op.instrCount.toNat ∧ canIssue s c ctx op.hdr = true ∧ ctxBusy (getCore s c) ctx = false ∧
    wordsFit c prog (vecStart c ctx op.hdr s) = true ∧ outranked s c ctx (some .vector) = true :=
  ⟨0, 1, { hdr := hdr0, instrOff := 0, instrCount := 1 }, [0], { behind State.reset with pending := (behind State.reset).pending.drop 1 },
    by decide +kernel⟩

def so1 : StandObj := { offset := 0, bytes := stand1, cluster := 0, cores := [0] }
def treed : State :=
  withImage { image0 with stands := [so1] } (onCore (fun x => { x with te := { x.te with segs := [(0, seg0)] } }))

theorem wit_TreeCommand : ∃ (c : CoreId) (ctx : CtxId) (op : TreeOp) (s : State) (so : StandObj) (se : SegEntry),
    standOf s (getCtx (getCore s c) ctx).slot op.standId.toNat = some so ∧
    segEntry (getCore s c) (getCtx (getCore s c) ctx).slot op.standId.toNat op.seg.toNat = some se ∧
    treeListed op (standHdr so.bytes) = true ∧ treeFeatAddr op op.samplesM1.toNat + 2 * (standHdr so.bytes).numFeat ≤ tileBytes ∧
    treeOutAddr op op.samplesM1.toNat + 4 * (standHdr so.bytes).numOut ≤ tileBytes ∧ canIssue s c ctx op.hdr = true ∧
    (op.fence = true → ctxBusy (getCore s c) ctx = false) ∧
    lineHazard s c ctx [(treeOutAddr op 0, 4 * (standHdr so.bytes).numOut)] = false ∧ outranked s c ctx (some .tree) = false :=
  ⟨0, 0, tree0, treed, so1, seg0, by decide +kernel⟩

/-- The walk reads the one node of the segment, whose parity fails. -/
theorem wit_TreeCommand_fault : ∃ (f : NodeFault), f.seg = tree0.seg.toNat ∧
    ∃ w ∈ segWalks (fun j => mapGetD 0 (seg0.base + j) (getCore treed 0).te.words) (standHdr so1.bytes)
      ((standHdr so1.bytes).segs.getD tree0.seg.toNat (0, 0)).1 (treeFeat (getCore treed 0) tree0 0), f.node ∈ w.nodes :=
  ⟨{ seg := 0, node := 0, again := true }, rfl, _, List.mem_cons_self, by decide +kernel⟩

theorem wit_TreeCommand_outranked : ∃ (c : CoreId) (ctx : CtxId) (op : TreeOp) (s : State) (so : StandObj),
    standOf s (getCtx (getCore s c) ctx).slot op.standId.toNat = some so ∧ canIssue s c ctx op.hdr = true ∧
    outranked s c ctx (some .tree) = true :=
  ⟨0, 1, tree0, { behind treed with pending := [.tree 0 0 tree0 []] }, so1, by decide +kernel⟩

/-- The lookups of a key in one bucket change nothing. -/
def markedB (s : State) (x : Tbl) (key view n : Nat) : Bool :=
  match lineSeen s (x.desc.bucketBase / 64 + bucketN x.desc n key) with
  | some (b, false) => (findIn (visibleIn x view) key n 0 (decodeBucket b)).all (fun f => eHit f.entry)
  | _ => true

theorem marked_of {s : State} {x : Tbl} {key view : Nat} (h : ∀ n < 2, markedB s x key view n = true) : hitsMarked s x key view := by
  intro n hn b f hb hf
  have h := h n hn
  simpa [markedB, hb, hf] using h

/-- A GATHER to the last line of the cluster's SRAM. -/
theorem wit_NluCommands : ∃ (d : CDie) (cmd : NluCmd) (s : State) (x : Tbl),
    (∀ p ∈ s.nlus, ∀ c ∈ p.2.coal, c.ream ≠ cmd.reamSeq) ∧ nluListed s d false cmd = true ∧ nluExtent false cmd ≤ 262144 ∧
    nluWaits s d cmd = false ∧
    getTbl s cmd.table.val = some x ∧ outBytes x.desc cmd.outFmt.toNat ≤ 64 * (cmd.destStrideM1.toNat + 1) ∧
    keyList s d cmd.keyLine.toNat (cmd.keyCountM1.toNat + 1) = [some 0] ∧
    ((keySeen s x 0 (reamView s cmd.reamSeq)).isSome = true ∧ bucketsSeen s x 0 (reamView s cmd.reamSeq)) ∧
    rowsApart s x [0] (reamView s cmd.reamSeq) :=
  ⟨0, cmd0, withTbl 1 (tbl0 0) State.reset, tbl0 0, by decide +kernel, by decide +kernel, by decide +kernel, by decide +kernel,
    by decide +kernel, by decide +kernel, by decide +kernel, ⟨by decide +kernel, by unfold bucketsSeen; decide +kernel⟩,
    .inl (List.forall_mem_singleton.mpr (marked_of (by decide +kernel)))⟩

/-- A launch edge ahead, and a stack asleep. -/
theorem wit_NluCommands_waits : ∃ (d : CDie) (cmd : NluCmd) (s : State), nluListed s d false cmd = true ∧
    nluExtent false cmd ≤ 262144 ∧ nluAhead s d cmd = true :=
  ⟨0, cmd0, withReam { ream0 with launched := false } (withTbl 1 (tbl0 0) State.reset), by decide +kernel⟩

theorem wit_NluCommands_asleep : ∃ (d : CDie) (cmd : NluCmd) (s : State), nluListed s d false cmd = true ∧
    nluExtent false cmd ≤ 262144 ∧ nluAhead s d cmd = false ∧ nluWaits s d cmd = true :=
  ⟨0, cmd0, setDom 307 2 (withTbl 1 (tbl0 0) State.reset), by decide +kernel⟩

/-- The line of the key list is poisoned. -/
theorem wit_NluCommands_poisoned : ∃ (d : CDie) (cmd : NluCmd) (s : State) (x : Tbl), nluListed s d false cmd = true ∧
    nluExtent false cmd ≤ 262144 ∧ nluWaits s d cmd = false ∧ getTbl s cmd.table.val = some x ∧
    outBytes x.desc cmd.outFmt.toNat ≤ 64 * (cmd.destStrideM1.toNat + 1) ∧
    keyList s d cmd.keyLine.toNat (cmd.keyCountM1.toNat + 1) = [none] :=
  ⟨0, cmd0, modDie 0 (fun x => { x with sramPoison := [0] }) (withTbl 1 (tbl0 0) State.reset), tbl0 0, by decide +kernel⟩

theorem wit_NluCommands_pool : ∃ (d : CDie) (cmd : NluCmd) (s : State) (x : Tbl), nluListed s d true cmd = true ∧
    nluExtent true cmd ≤ 262144 ∧ nluWaits s d cmd = false ∧ getTbl s cmd.table.val = some x ∧
    keyList s d cmd.keyLine.toNat (cmd.keyCountM1.toNat + 1) = [some 0] ∧
    ((keySeen s x 0 (reamView s cmd.reamSeq)).isSome = true ∧ bucketsSeen s x 0 (reamView s cmd.reamSeq)) ∧
    rowsApart s x [0] (reamView s cmd.reamSeq) :=
  ⟨0, { cmd0 with poolOp := 2, bagLine := 1 }, withTbl 1 (tbl0 0) State.reset, tbl0 0, by decide +kernel, by decide +kernel, by decide +kernel,
    by decide +kernel, by decide +kernel, ⟨by decide +kernel, by unfold bucketsSeen; decide +kernel⟩,
    .inl (List.forall_mem_singleton.mpr (marked_of (by decide +kernel)))⟩

def job0 : PoolJob := { die := 0, cmd := cmd0, bags := [([some 1, none, some 3, some 4], 1, false), ([], 0, true)] }

theorem wit_NluCommands_combine : ∃ (d : CDie) (cmd : NluCmd) (s : State) (j : PoolJob) (rest : List PoolJob) (x : Tbl),
    takeFirst (fun j => j.die == d && j.cmd.reamSeq == cmd.reamSeq && j.cmd.tensorId == cmd.tensorId) s.pools = some (j, rest) ∧
    j.cmd = cmd ∧ getTbl s cmd.table.val = some x ∧ (∀ b ∈ j.bags,
      (if b.2.2 then outBytes x.desc cmd.outFmt.toNat
        else if b.2.1 = 0 then (if cmd.outFmt.toNat = 1 then 2 else 4) * x.desc.rowLen
        else (if cmd.outFmt.toNat = 1 then 2 else 4) * b.1.length) ≤ 64 * (cmd.destStrideM1.toNat + 1)) :=
  ⟨0, cmd0, { withTbl 1 (tbl0 0) State.reset with pools := [job0] }, job0, [], tbl0 0, by decide +kernel⟩

def coal5 (res : Option RowRes) : Coal := { ream := 0, table := 7, key := 5, res := res, data := none, served := 1, uncoal := false }
def fwd5 : FwdLookup := { ream := 0, table := 7, key := 5, owner := 0, epoch := 0, tries := 0 }

theorem wit_NluLookups : ∃ (u : NluId) (s : State) (ream : W32) (tb : TableId) (key : W64) (x : Tbl) (c : Coal) (rest : List Coal),
    getTbl s tb.val = some x ∧ x.desc.kind = 0 ∧ nluOf s x.desc (bucketN x.desc 0 key.toNat) = u.val ∧
    takeFirst (fun c => sameCoal ream tb key c && !c.uncoal) (getNlu s u.val).coal = some (c, rest) :=
  ⟨0, setNlu 0 { Nlu.empty with coal := [coal5 none] } (withTbl 1 (tbl0 0) State.reset), 0, 7, 5, tbl0 0, coal5 none, [],
    by decide +kernel⟩

/-- A new pair whose key stands in bucket 0, and one that neither bucket holds. -/
theorem wit_NluLookups_new : ∃ (u : NluId) (s : State) (ream : W32) (tb : TableId) (key : W64) (x : Tbl), getTbl s tb.val = some x ∧
    x.desc.kind = 0 ∧ nluOf s x.desc (bucketN x.desc 0 key.toNat) = u.val ∧
    (∀ c ∈ (getNlu s u.val).coal, sameCoal ream tb key c = true → c.uncoal = true ∧ c.res ≠ none) ∧
    bucketsSeen s x key.toNat (reamView s ream) ∧ bucketSeen s x 0 key.toNat (reamView s ream) = some (some (.row 3)) :=
  ⟨0, entry5 (bucketN (desc0 0) 0 5) 3 1 (withTbl 1 (tbl0 0) State.reset), 0, 7, 5,
    { tbl0 0 with refs := [(3, 1)], occupied := 1 }, by unfold bucketsSeen; decide +kernel⟩

theorem wit_NluLookups_miss : ∃ (u : NluId) (s : State) (ream : W32) (tb : TableId) (key : W64) (x : Tbl), getTbl s tb.val = some x ∧
    x.desc.kind = 0 ∧ nluOf s x.desc (bucketN x.desc 0 key.toNat) = u.val ∧
    (∀ c ∈ (getNlu s u.val).coal, sameCoal ream tb key c = true → c.uncoal = true ∧ c.res ≠ none) ∧
    bucketsSeen s x key.toNat (reamView s ream) ∧ bucketSeen s x 0 key.toNat (reamView s ream) = some none ∧ bucketN x.desc 0 key.toNat ≠ bucketN x.desc 1 key.toNat :=
  ⟨0, withTbl 1 (tbl0 0) State.reset, 0, 7, 1, tbl0 0, by unfold bucketsSeen; decide +kernel⟩

theorem wit_NluLookups_forward : ∃ (u : NluId) (s : State) (f : FwdLookup) (rest : List FwdLookup) (x : Tbl) (c : Coal)
    (others : List Coal), (getNlu s u.val).fwd = f :: rest ∧ getTbl s f.table.val = some x ∧
    bucketsSeen s x f.key.toNat (reamView s f.ream) ∧ bucketSeen s x 1 f.key.toNat (reamView s f.ream) = some none ∧
    takeFirst (fun c => sameCoal f.ream f.table f.key c && c.res.isNone) (getNlu s f.owner.val).coal = some (c, others) ∧
    x.epoch ≠ f.epoch :=
  ⟨1, setNlu 0 { Nlu.empty with coal := [coal5 none] } (setNlu 1 { Nlu.empty with fwd := [fwd5] }
    (withTbl 1 { tbl0 0 with epoch := 1 } State.reset)), fwd5, [], { tbl0 0 with epoch := 1 }, coal5 none, [], by unfold bucketsSeen; decide +kernel⟩

theorem wit_NluLookups_overhang : ∃ (s : State) (unit : Nat) (o : OvhUnit), mapGet unit s.overhang.units = some o :=
  ⟨{ State.reset with overhang := { units := [(4, { dpa := 0, port := .h0, addr := 0, mirror := some 4096, crc := 0 })], delivered := [] } }, 4,
    { dpa := 0, port := .h0, addr := 0, mirror := some 4096, crc := 0 }, by decide +kernel⟩

/-! ### Hypotheses of the statements: stacks, tables and ports -/

theorem intact_of {s : State} (h : s.dsm.flaws = []) (t k : Nat) : intact s t k := fun _ _ _ _ => by simp [torn, h, mapGet]

theorem wit_GuardedMemory : ∃ (s : State) (l : Nat) (old : Bytes), l < dpaLines ∧ kindOf s (lineStripe l) = 1 ∧ inBuckets s l = false ∧
    holderOf s l = none ∧ intact s (lineStripe l) (lineIx l) ∧
    ((place s (lineStripe l) (lineSlot l) (lineIx l)).map (rawLine s)).or (reconstruct s (lineStripe l) (lineIx l) (lineSlot l)) =
      some old ∧ (place s (lineStripe l) (lineSlot l) (lineIx l)).isSome = true :=
  ⟨withRegion 1 State.reset, 831, zeroLine, by decide +kernel, by decide +kernel, by decide +kernel, by decide +kernel,
    intact_of rfl _ _, by decide +kernel⟩

/-- Line 64 is of slot 1 on S1, which is lost. -/
theorem wit_GuardedMemory_absent : ∃ (s : State) (l : Nat) (old : Bytes), l < dpaLines ∧ kindOf s (lineStripe l) = 1 ∧
    inBuckets s l = false ∧ holderOf s l = none ∧ intact s (lineStripe l) (lineIx l) ∧
    ((place s (lineStripe l) (lineSlot l) (lineIx l)).map (rawLine s)).or (reconstruct s (lineStripe l) (lineIx l) (lineSlot l)) =
      some old ∧ place s (lineStripe l) (lineSlot l) (lineIx l) = none ∧ (lineSeen s l).isSome = true ∧ ovhOf s l = none :=
  ⟨lostStack 1 (withRegion 1 State.reset), 64, zeroLine, by decide +kernel, by decide +kernel, by decide +kernel, by decide +kernel,
    intact_of rfl _ _, by decide +kernel⟩

/-- A line of a bucket area, and one that no guarded region holds. -/
theorem wit_GuardedMemory_discarded : ∃ (s u : State) (l m : Nat), l < dpaLines ∧ inBuckets s l = true ∧ kindOf s (lineStripe l) = 1 ∧
    m < dpaLines ∧ kindOf u (lineStripe m) ≠ 1 :=
  ⟨withTbl 1 (tbl0 0) State.reset, State.reset, 1, dpaLines - 1, by decide +kernel⟩

theorem wit_GuardedMemory_host : ∃ (s : State) (p : HPort) (addr : W64) (l : Nat), barUp s = true ∧ hdmLine s p addr.toNat = some l ∧
    (getPort s p).linkUp = true ∧ heldElsewhere s p l = false ∧ holderOf s l = none ∧
    (s.dsm.snoop.filter (fun h => h.1 == p)).length < snoopCap ∧ rejectsHostWrite s l = none ∧
    (place s (lineStripe l) (lineSlot l) (lineIx l)).isSome = true ∧ kindOf s (lineStripe l) ≠ 0 ∧
    intact s (lineStripe l) (lineIx l) :=
  ⟨withHdm (withRegion 1 State.reset), .h0, 0, 0, by decide +kernel, by decide +kernel, by decide +kernel, by decide +kernel,
    by decide +kernel, by decide +kernel, by decide +kernel, by decide +kernel, by decide +kernel, intact_of rfl _ _⟩

def heldBy (p : HPort) (s : State) : State := { s with dsm := { s.dsm with snoop := [(p, 0)] } }

theorem wit_GuardedMemory_rejected : ∃ (s : State) (p : HPort) (addr : W64) (l tb : Nat), barUp s = true ∧
    hdmLine s p addr.toNat = some l ∧ (getPort s p).linkUp = true ∧ heldElsewhere s p l = false ∧ holderOf s l = some p ∧
    rejectsHostWrite s l = some tb :=
  ⟨heldBy .h0 (withHdm (withTbl 1 (tbl0 0) State.reset)), .h0, 0, 0, 7, by decide +kernel⟩

theorem wit_GuardedMemory_elsewhere : ∃ (s : State) (p : HPort) (addr : W64) (l : Nat), barUp s = true ∧
    hdmLine s p addr.toNat = some l ∧ (getPort s p).linkUp = true ∧ heldElsewhere s p l = true :=
  ⟨heldBy .h1 (withHdm (withRegion 1 State.reset)), .h0, 0, 0, by decide +kernel⟩

/-- A port's filter holds as many other lines as it can. -/
def heldLines (n : Nat) : List (HPort × Nat) := (List.range n).map (fun i => (.h0, i + 1))
theorem heldLines_length (n : Nat) : ((heldLines n).filter (fun h => h.1 == .h0)).length = n := by
  rw [List.filter_eq_self.mpr (by simp [heldLines])]; simp [heldLines]
theorem full_of (n : Nat) : ∃ (s : State) (p : HPort), barUp s = true ∧ n ≤ (s.dsm.snoop.filter (fun h => h.1 == p)).length :=
  ⟨{ State.reset with dsm := { State.reset.dsm with snoop := heldLines n } }, .h0, (by decide +kernel : barUp State.reset = true),
    Nat.le_of_eq (heldLines_length n).symm⟩
theorem wit_GuardedMemory_full : ∃ (s : State) (p : HPort), barUp s = true ∧
    snoopCap ≤ (s.dsm.snoop.filter (fun h => h.1 == p)).length := full_of snoopCap

theorem wit_StackFaults_scrub : ∃ (s : State) (st : StackId) (n : Nat), stackLost s st.val = false ∧ n < 2 ^ 32 ∧
    slotOnStack (n / 64) st.val ≠ 13 ∧ kindOf s (n / 64) = 1 ∧ s.dsm.flaws = [] ∧ mapGet st.val s.dsm.ue = none ∧
    1 ≤ regF s 0xE0000C 0 15 0 ∧ (reconstruct s (n / 64) (n % 64) (slotOnStack (n / 64) st.val)).isSome = true :=
  ⟨withRegion 1 State.reset, 15, 63, by decide +kernel⟩

/-- Two other units of the stripe are absent. -/
theorem wit_StackFaults_scrub_lost : ∃ (s : State) (st : StackId) (n : Nat), stackLost s st.val = false ∧ n < 2 ^ 32 ∧
    slotOnStack (n / 64) st.val ≠ 13 ∧ kindOf s (n / 64) = 1 ∧ s.dsm.flaws = [] ∧ mapGet st.val s.dsm.ue = none ∧
    1 ≤ regF s 0xE0000C 0 15 0 ∧ reconstruct s (n / 64) (n % 64) (slotOnStack (n / 64) st.val) = none :=
  ⟨lostStack 1 (lostStack 2 (withRegion 1 State.reset)), 0, 0, by decide +kernel⟩

theorem wit_StackFaults_parity : ∃ (s : State) (t0 : Nat), s.dsm.flaws = [] ∧ t0 ∈ usedStripes s ∧ kindOf s t0 = 1 ∧
    (usedStripes s).filter (fun n => kindOf s n == 1) = [t0] ∧ (∀ k < 64, ∀ x ∈ List.range 13 ++ [14, 15], (place s t0 x k).isSome = true) :=
  ⟨setRaw 0 (List.replicate 64 7) (withRegion 1 State.reset), 0, by decide +kernel⟩

theorem wit_StackFaults_lost : ∃ (s : State) (st : StackId) (p : HPort), stackLost s st.val = false ∧ barUp s = true ∧
    holdsSem s p = true ∧ regF s 0xE00010 0 3 0 = st.val ∧ s.dsm.st = 0 := ⟨withSem State.reset, 0, .h0, by decide +kernel⟩

theorem wit_StackFaults_rebuild : ∃ s : State, rebuilding s = true ∧ bit (regW s 0xE00004 0) 16 = false ∧ s.dsm.next < stripeCount ∧
    slotOnStack s.dsm.next s.dsm.firstLost ≤ 12 ∧ kindOf s s.dsm.next = 1 ∧ s.dsm.firstLost < 16 ∧
    stackLost s s.dsm.firstLost = true ∧ stackLost s (slotStack s.dsm.next 13) = false ∧
    (∀ k < 64, s.dsm.reloc.contains (lineKey (slotStack s.dsm.next 13) s.dsm.next k) = false) ∧
    s.dsm.flaws = [] ∧ (reconstruct s s.dsm.next 63 (slotOnStack s.dsm.next s.dsm.firstLost)).isSome = true :=
  ⟨lostStack 1 (withRegion 1 State.reset), by decide +kernel⟩

def waiting (r : InsReq) (s : State) : State := { s with tbl := { s.tbl with inserts := [r], ords := 1 } }
def add5 : InsReq := { ins5 with op := 1 }

theorem wit_TableWriter_insert : ∃ (s : State) (x : Tbl) (r : InsReq) (es : List Entry) (n : Nat), getTbl s 7 = some x ∧
    takeFirst (fun r => mayRun r s) s.tbl.inserts = some (r, []) ∧ r.table = 7 ∧ r.op = 1 ∧
    foundSeen s x.desc (visibleIn x (now s)) r.entry.key = some none ∧ entryFits r.entry ∧
    bucketHeld s x.desc (bucketN x.desc 0 r.entry.key) ∧ slotsSeen s x.desc (bucketN x.desc 0 r.entry.key) = some es ∧ emptySlot es = some n ∧
    x.staging = none :=
  ⟨waiting add5 (withTbl 1 (tbl0 1) State.reset), tbl0 1, add5, emptyBucket, 0, by decide +kernel,
    by decide +kernel, by decide +kernel, by decide +kernel, by decide +kernel, by unfold entryFits; decide +kernel,
    by unfold bucketHeld; decide +kernel, by decide +kernel, by decide +kernel, by decide +kernel⟩

/-- An update of an absent key; a table that stages its oldest change; a delete of a present key; a writer with nothing to do. -/
theorem wit_TableWriter_update : ∃ (s : State) (x : Tbl) (r : InsReq), getTbl s 7 = some x ∧
    takeFirst (fun r => mayRun r s) s.tbl.inserts = some (r, []) ∧ r.table = 7 ∧ r.op ≠ 1 ∧
    foundSeen s x.desc (visibleIn x (now s)) r.entry.key = some none :=
  ⟨waiting ins5 (withTbl 1 (tbl0 1) State.reset), tbl0 1, ins5, by decide +kernel⟩

theorem wit_TableWriter_staging : ∃ (s : State) (x : Tbl) (r : InsReq), getTbl s 7 = some x ∧
    takeFirst (fun r => mayRun r s) s.tbl.inserts = some (r, []) ∧ r.table = 7 ∧ r.op = 1 ∧ x.staging.isSome = true ∧
    ((slotsSeen s x.desc (bucketN x.desc 0 r.entry.key)).bind emptySlot).isSome = true :=
  ⟨waiting add5 (withTbl 1 { tbl0 0 with staging := some (change0 (.group 0) [] 0) } State.reset),
    { tbl0 0 with staging := some (change0 (.group 0) [] 0) }, add5, by decide +kernel⟩

theorem wit_TableWriter_remove : ∃ (s : State) (x : Tbl) (r : InsReq) (f : Found), getTbl s 7 = some x ∧
    takeFirst (fun r => mayRun r s) s.tbl.inserts = some (r, []) ∧ r.table = 7 ∧ r.op = 3 ∧
    foundSeen s x.desc (visibleIn x (now s)) r.entry.key = some (some f) ∧ bucketHeld s x.desc f.bucket :=
  ⟨waiting { ins5 with op := 3 } (entry5 b0 3 1 (withTbl 2 (tbl0 1) State.reset)), { tbl0 1 with refs := [(3, 1)], occupied := 1 },
    { ins5 with op := 3 }, { n := 0, bucket := b0, slot := 3, entry := { key := 5, row := 3, flags := 64 } }, by decide +kernel,
    by decide +kernel, by decide +kernel, by decide +kernel, by decide +kernel, by unfold bucketHeld; decide +kernel⟩

theorem wit_TableWriter_idle : takeFirst (fun r => mayRun r State.reset) State.reset.tbl.inserts = none := by decide +kernel

/-- The last move of a chain, from slot 3 of one bucket to slot 0 of the other. -/
theorem wit_TableWriter_move : ∃ (s : State) (x : Tbl) (c : Chain) (m : Move), getTbl s 7 = some x ∧ s.tbl.chains[0]? = some c ∧
    c.req.table = 7 ∧ c.moves = [m] ∧ movesHeld s x = false ∧ m.fromB ≠ m.toB ∧ bucketHeld s x.desc m.fromB ∧
    bucketHeld s x.desc m.toB ∧ (slotsSeen s x.desc m.fromB).isSome = true ∧ (slotsSeen s x.desc m.toB).isSome = true ∧
    entryFits c.req.entry :=
  ⟨(let s := withTbl 1 (tbl0 0) State.reset;
    { s with tbl := { s.tbl with chains := [{ req := ins5, moves := [{ fromB := 0, fromS := 3, toB := 1, toS := 0 }] }] } }), tbl0 0,
    { req := ins5, moves := [{ fromB := 0, fromS := 3, toB := 1, toS := 0 }] }, { fromB := 0, fromS := 3, toB := 1, toS := 0 },
    by decide +kernel, by decide +kernel, by decide +kernel, by decide +kernel, by decide +kernel, by decide +kernel,
    by unfold bucketHeld; decide +kernel, by unfold bucketHeld; decide +kernel, by decide +kernel, by decide +kernel,
    by unfold entryFits; decide +kernel⟩

/-- A hold of the last two microseconds. -/
def hold0 : Hold := { ream := 0, key := 5, since := 0 }
theorem wit_TableWriter_held : movesHeld State.reset { tbl0 0 with holds := [hold0] } = true := by decide +kernel

def stagedTbl (ch : Change) : Tbl := { tbl0 0 with queue := [ch] }
def batch0 : Desc := descOf ([4] ++ List.replicate 15 0 ++ [7, 0, 0, 0, 1])

theorem wit_TableWriter_ahead : ∃ (s : State) (x : Tbl) (ch : Change), x.queue = [ch] ∧ batchAhead s 7 ch = true :=
  ⟨withInbox batch0 State.reset, stagedTbl (change0 (.group 2) [] 0), change0 (.group 2) [] 0, by decide +kernel⟩

theorem wit_TableWriter_stale : ∃ (x : Tbl) (ch : Change) (d : Desc), x.pending = false ∧ x.retiring = false ∧ x.staging = none ∧
    x.queue = [ch] ∧ movesHeld State.reset x = false ∧ batchAhead State.reset 7 ch = false ∧ ch.who = .desc d ∧
    ch.expect ≠ 0xFFFFFFFF ∧ ch.expect ≠ x.gen :=
  ⟨stagedTbl (change0 (.desc (descOf [])) [] 1), change0 (.desc (descOf [])) [] 1, descOf [], by decide +kernel⟩

theorem wit_TableWriter_staged : ∃ (x : Tbl) (ch : Change) (d : Desc), x.pending = false ∧ x.retiring = false ∧ x.staging = none ∧
    x.queue = [ch] ∧ movesHeld State.reset x = false ∧ batchAhead State.reset 7 ch = false ∧ ch.who = .desc d ∧ ch.expect = x.gen ∧
    ch.recs = [] :=
  ⟨stagedTbl (change0 (.desc (descOf [])) [] 0), change0 (.desc (descOf [])) [] 0, descOf [], by decide +kernel⟩

/-- A record of OP 5. -/
theorem wit_TableWriter_format : ∃ (x : Tbl) (ch : Change) (d : Desc) (rec : BatchRec), x.pending = false ∧ x.retiring = false ∧
    x.staging = none ∧ x.queue = [ch] ∧ movesHeld State.reset x = false ∧ batchAhead State.reset 7 ch = false ∧ ch.who = .desc d ∧
    ch.expect = x.gen ∧ ch.recs = [rec] ∧ (rec.reserved = true ∨ rec.op = 0 ∨ 4 < rec.op.toNat) :=
  ⟨stagedTbl (change0 (.desc (descOf [])) [{ del5 with op := 5 }] 0), change0 (.desc (descOf [])) [{ del5 with op := 5 }] 0, descOf [],
    { del5 with op := 5 }, by decide +kernel⟩

theorem wit_TableWriter_delete : ∃ (s : State) (x : Tbl) (ch : Change) (p : HPort) (r : BatchRec) (f : Found), getTbl s 7 = some x ∧
    x.pending = false ∧ x.retiring = false ∧ x.staging = none ∧ x.queue = [ch] ∧ movesHeld s x = false ∧ batchAhead s 7 ch = false ∧
    ch.who = .cmd p 3 0 ∧ ch.recs = [r] ∧ foundSeen s x.desc (fun e => eVis e == 2) r.key.toNat = some none ∧
    foundSeen s x.desc (fun e => eVis e == 1) r.key.toNat = some (some f) ∧ bucketHeld s x.desc f.bucket :=
  ⟨entry5 b0 3 1 (withTbl 1 (stagedTbl (change0 (.cmd .h0 3 0) [del5] 0)) State.reset),
    { stagedTbl (change0 (.cmd .h0 3 0) [del5] 0) with refs := [(3, 1)], occupied := 1 }, change0 (.cmd .h0 3 0) [del5] 0, .h0, del5,
    { n := 0, bucket := b0, slot := 3, entry := { key := 5, row := 3, flags := 64 } }, by decide +kernel, by decide +kernel, by decide +kernel,
    by decide +kernel, by decide +kernel, by decide +kernel, by decide +kernel, by decide +kernel, by decide +kernel, by decide +kernel,
    by decide +kernel, by unfold bucketHeld; decide +kernel⟩

/-- Staging ended at the edge before. -/
theorem wit_TableWriter_commit : ∃ (s : State) (x : Tbl) (ch : Change), getTbl s 7 = some x ∧ x.staging = some ch ∧
    (∀ p o n, ch.who ≠ .cmd p o n) ∧ x.pending = true ∧ ch.due ≤ now s ∧ x.stagedAt < now s :=
  ⟨atGt (nsT 10) (withTbl 1 { tbl0 0 with staging := some (change0 (.desc (descOf [])) [] 0), pending := true } State.reset),
    { tbl0 0 with staging := some (change0 (.desc (descOf [])) [] 0), pending := true }, change0 (.desc (descOf [])) [] 0,
    by decide +kernel, by decide +kernel, (fun _ _ _ h => by cases h), by decide +kernel, by decide +kernel, by decide +kernel⟩

/-- A key REMOVED at the commit, and a key ADDED. -/
theorem wit_TableWriter_retire (vis : Nat) (h : vis = 3 ∨ vis = 2) : ∃ (s : State) (x : Tbl) (f : Found), getTbl s 7 = some x ∧
    x.retiring = true ∧ x.revisited = false ∧ reamsDone s 7 x.commitGt = true ∧ x.changed = [5] ∧ bucketHeld s x.desc f.bucket ∧
    foundSeen s x.desc (fun e => eVis e == vis) 5 = some (some f) ∧ foundSeen s x.desc (fun e => eVis e == 5 - vis) 5 = some none := by
  rcases h with rfl | rfl
  · exact ⟨entry5 b1 0 3 (withTbl 1 { tbl0 0 with retiring := true, changed := [5] } State.reset),
      { tbl0 0 with retiring := true, changed := [5], refs := [(3, 1)], occupied := 1 },
      { n := 1, bucket := b1, slot := 0, entry := { key := 5, row := 3, flags := 192 } }, by decide +kernel, by decide +kernel,
      by decide +kernel, by decide +kernel, by decide +kernel, by unfold bucketHeld; decide +kernel, by decide +kernel, by decide +kernel⟩
  · exact ⟨entry5 b1 0 2 (withTbl 1 { tbl0 0 with retiring := true, changed := [5] } State.reset),
      { tbl0 0 with retiring := true, changed := [5], refs := [(3, 1)], occupied := 1 },
      { n := 1, bucket := b1, slot := 0, entry := { key := 5, row := 3, flags := 128 } }, by decide +kernel, by decide +kernel,
      by decide +kernel, by decide +kernel, by decide +kernel, by unfold bucketHeld; decide +kernel, by decide +kernel, by decide +kernel⟩

theorem wit_TableWriter_retired : ∃ x : Tbl, x.retiring = true ∧ x.revisited = true := ⟨{ tbl0 0 with retiring := true, revisited := true }, rfl, rfl⟩

def list0 : Bytes := [3] ++ List.replicate 7 0 ++ [5] ++ List.replicate 23 0
def batch1 : Desc := descOf ([4] ++ List.replicate 15 0 ++ [7, 1, 0, 0, 1])

/-- A list in host memory, for a table of either kind, and for a worker that took a copy of the table. -/
theorem wit_TableWriter_batch (kind : Nat) (h : kind = 0 ∨ kind = 1) : ∃ (s : State) (x : Tbl) (list : Bytes) (d : Desc)
    (rest : List Desc), getTbl s 7 = some x ∧
    takeFirst (fun d => dOp d == 4 && (bit (dNum d 17 1) 0 || 32 * dNum d 20 4 == list.length)) s.host.inbox = some (d, rest) ∧
    dNum d 16 1 = 7 ∧ bit (dNum d 17 1) 0 = false ∧ x.desc.kind = kind ∧ s.grp.role = 0 := by
  rcases h with rfl | rfl
  · exact ⟨withInbox batch0 (withTbl 1 (tbl0 0) State.reset), tbl0 0, list0, batch0, [], by decide +kernel⟩
  · exact ⟨withInbox batch0 (withTbl 1 (tbl0 1) State.reset), tbl0 1, list0, batch0, [], by decide +kernel⟩

theorem wit_TableWriter_copied : ∃ (s : State) (x : Tbl) (d : Desc) (rest : List Desc), getTbl s 7 = some x ∧
    takeFirst (fun d => dOp d == 4 && (bit (dNum d 17 1) 0 || 32 * dNum d 20 4 == list0.length)) s.host.inbox = some (d, rest) ∧
    dNum d 16 1 = 7 ∧ x.desc.kind ≠ 1 ∧ s.grp.role = 2 ∧ s.grp.copied.contains 7 = true :=
  ⟨(fun s => { s with grp := { s.grp with role := 2, copied := [7] } }) (withInbox batch0 (withTbl 1 (tbl0 0) State.reset)), tbl0 0,
    batch0, [], by decide +kernel⟩

/-- A list in the stacks: in REGEN_SCRATCH, clean or poisoned, and outside it. -/
theorem wit_TableWriter_device (poison : List Nat) (h : poison = [] ∨ poison = [0]) : ∃ (s : State) (x : Tbl) (d : Desc) (rest : List Desc),
    getTbl s 7 = some x ∧
    takeFirst (fun d => dOp d == 4 && (bit (dNum d 17 1) 0 || 32 * dNum d 20 4 == 0)) s.host.inbox = some (d, rest) ∧
    dNum d 16 1 = 7 ∧ x.desc.kind ≠ 1 ∧ bit (dNum d 17 1) 0 = true ∧ scratchRange s (dNum d 24 8) (32 * dNum d 20 4) = true ∧
    (bytesSeen s (dNum d 24 8) (32 * dNum d 20 4)).map (·.2) = some (poison != []) := by
  rcases h with rfl | rfl
  · exact ⟨withInbox batch1 (withTbl 4 (tbl0 0) State.reset), tbl0 0, batch1, [], by decide +kernel⟩
  · exact ⟨(fun s => { s with dsm := { s.dsm with poison := [0] } }) (withInbox batch1 (withTbl 4 (tbl0 0) State.reset)), tbl0 0, batch1,
      [], by decide +kernel⟩

theorem wit_TableWriter_outside : ∃ (s : State) (d : Desc), s.host.inbox = [d] ∧ dNum d 16 1 = 7 ∧ bit (dNum d 17 1) 0 = true ∧
    scratchRange s (dNum d 24 8) (32 * dNum d 20 4) = false :=
  ⟨withInbox batch1 (withTbl 1 (tbl0 0) State.reset), batch1, by decide +kernel⟩

theorem wit_TableCommands_absent : ∃ (p : HPort) (tb : TableId) (s : State), barUp s = true ∧ tblBusy s p = false ∧ getTbl s tb.val = none :=
  ⟨.h1, 255, State.reset, by decide +kernel⟩

theorem wit_TableCommands_miss (kind : Nat) (h : kind = 0 ∨ kind = 1) : ∃ (p : HPort) (s : State) (x : Tbl), barUp s = true ∧
    tblBusy s p = false ∧ getTbl s 7 = some x ∧ x.desc.kind = kind ∧
    foundSeen s x.desc (visibleIn x (now s)) (tblKey s p) = some none ∧ hwRecords s ≤ tblRow s p ∧ tblRow s p < x.desc.rowLimit := by
  rcases h with rfl | rfl
  · exact ⟨.h0, withKey5 (withTbl 1 (tbl0 0) State.reset), tbl0 0, by decide +kernel⟩
  · exact ⟨.h0, withKey5 (withTbl 2 (tbl0 1) State.reset), tbl0 1, by decide +kernel⟩

/-- A change that an earlier change of the same key keeps back, and one that nothing keeps back. -/
theorem wit_TableCommands_waits (op : Nat) (h : op = 1 ∨ op = 2 ∨ op = 3 ∨ op = 4) : ∃ (p : HPort) (s u : State) (x : Tbl),
    barUp s = true ∧ tblBusy s p = false ∧ getTbl s 7 = some x ∧ x.desc.kind ≠ 0 ∧ hwRecords s ≤ tblRow s p ∧
    tblRow s p < x.desc.rowLimit ∧ mayRun (tblReq p 7 op s) s = false ∧ mayRun (tblReq p 7 op u) u = true := by
  rcases h with rfl | rfl | rfl | rfl <;>
    exact ⟨.h0, waiting ins5 (withKey5 (withTbl 2 (tbl0 1) State.reset)), withKey5 (withTbl 2 (tbl0 1) State.reset), tbl0 1, by decide +kernel⟩

theorem wit_TableCommands_row : ∃ (p : HPort) (s : State) (x : Tbl), barUp s = true ∧ tblBusy s p = false ∧ getTbl s 7 = some x ∧
    x.desc.kind ≠ 0 ∧ tblRow s p = x.desc.rowLimit :=
  ⟨.h0, setRegW (tblCmdOff + 0x10) 0 1024 (withTbl 2 (tbl0 1) State.reset), tbl0 1, by decide +kernel⟩

/-- A visible entry of a FLOW table; the slot that TBL_MOVE names is empty. -/
theorem wit_TableCommands_found : ∃ (p : HPort) (s : State) (x : Tbl) (f : Found), barUp s = true ∧ tblBusy s p = false ∧
    getTbl s 7 = some x ∧ x.desc.kind = 1 ∧ foundSeen s x.desc (visibleIn x (now s)) (tblKey s p) = some (some f) ∧
    (∀ n < 2, (slotsSeen s x.desc (bucketN x.desc n (tblKey s p))).isSome = true) ∧ x.visited.contains f.bucket = false ∧
    bucketHeld s x.desc f.bucket ∧ tblRow s p < x.desc.rowLimit ∧ hwRecords s ≤ tblRow s p ∧
    (let w := regW s (tblCmdOff + 0x14) (portIx p)
     let b := bucketN x.desc (bits w 18 18) (tblKey s p)
     ((slotsSeen s x.desc b).map (fun es => eEmpty (es.getD (bits w 17 16) Entry.empty))) = some true ∧ bucketHeld s x.desc b) :=
  ⟨.h0, withKey5 (entry5 b0 3 1 (withTbl 2 (tbl0 1) State.reset)), { tbl0 1 with refs := [(3, 1)], occupied := 1 },
    { n := 0, bucket := b0, slot := 3, entry := { key := 5, row := 3, flags := 64 } }, by decide +kernel, by decide +kernel, by decide +kernel,
    by decide +kernel, by decide +kernel, by decide +kernel, by decide +kernel, by unfold bucketHeld; decide +kernel, by decide +kernel,
    by decide +kernel, by decide +kernel, by unfold bucketHeld; decide +kernel⟩

/-- The slot that TBL_MOVE names holds an entry. -/
theorem wit_TableCommands_full : ∃ (p : HPort) (s : State) (x : Tbl), barUp s = true ∧ tblBusy s p = false ∧ getTbl s 7 = some x ∧
    ((foundSeen s x.desc (visibleIn x (now s)) (tblKey s p)).map (·.isSome)) = some true ∧
    (let w := regW s (tblCmdOff + 0x14) (portIx p)
     (slotsSeen s x.desc (bucketN x.desc (bits w 18 18) (tblKey s p))).map (fun es => eEmpty (es.getD (bits w 17 16) Entry.empty))) =
      some false :=
  ⟨.h0, withKey5 (entry5 b0 0 1 (withTbl 2 (tbl0 1) State.reset)), { tbl0 1 with refs := [(3, 1)], occupied := 1 }, by decide +kernel⟩

theorem wit_ForwardingTables_format : ∃ (p : HPort) (d : NDie) (s : State), barUp s = true ∧ fwdRegRow s p d / 64 ≠ 0 :=
  ⟨.h0, .n1, setRegW (fwdCmdOff .n1 + 0x10) 0 64 State.reset, by decide +kernel⟩

theorem wit_ForwardingTables_miss : ∃ (p : HPort) (d : NDie) (s : State), barUp s = true ∧ fwdRegKey s p d / 2 ^ 60 = 0 ∧
    fwdRegRow s p d / 64 = 0 ∧ fwdFind s d (fwdRegKey s p d) = none ∧
    emptySlot (fwdBucket d (fwdHash 0 (fwdRegKey s p d)) s) = some 0 :=
  ⟨.h0, .n0, setRegW (fwdCmdOff .n0 + 0x10) 0 63 (setRegQ (fwdCmdOff .n0 + 8) 0 (2 ^ 60 - 1) State.reset), by decide +kernel⟩

theorem wit_ForwardingTables_found (flags : Nat) (h : flags = 0 ∨ flags = 0x40000) : ∃ (p : HPort) (d : NDie) (s : State)
    (e : Nat × Nat × Nat × Entry), barUp s = true ∧ fwdRegKey s p d = 5 ∧ fwdRegRow s p d / 64 = 0 ∧ fwdFind s d 5 = some e ∧
    fwdRegFlags s p d = flags ∧ eEmpty ((fwdBucket d (fwdHash (bits flags 18 18) 5) s).getD 0 Entry.empty) = (flags != 0) := by
  rcases h with rfl | rfl
  · exact ⟨.h0, .n0, fwdPut .n0 (fwdHash 0 5) 0 ins5.entry (setRegQ (fwdCmdOff .n0 + 8) 0 5 State.reset),
      (0, fwdHash 0 5, 0, ins5.entry), by decide +kernel⟩
  · exact ⟨.h0, .n0, fwdPut .n0 (fwdHash 0 5) 0 ins5.entry (setRegW (fwdCmdOff .n0 + 0x14) 0 0x40000
      (setRegQ (fwdCmdOff .n0 + 8) 0 5 State.reset)), (0, fwdHash 0 5, 0, ins5.entry), by decide +kernel⟩

theorem wit_ForwardingTables_timed : ∃ (d : NDie) (s : State) (k : W64) (h : Held), barUp s = true ∧
    mapGet k.toNat (getNet s d).hold = some h ∧ h.until_ ≤ now s :=
  ⟨.n1, modNet .n1 (fun x => { x with hold := [(5, { port := 0, until_ := 0, moveSeen := false })] }) State.reset, 5,
    { port := 0, until_ := 0, moveSeen := false }, by decide +kernel⟩

/-- The visit of the last bucket falls on an edge of a period of 10 ms, and not on the edge after it. -/
theorem wit_ForwardingTables_visit : ∃ (d : NDie) (s : State), bit (regW s (dieOff d 0x880044) 0) 16 = true ∧
    visitNow s (getNet s d).swept (10 * bits (regW s (dieOff d 0x880044) 0) 15 0) 65536 65535 = some (nsT 9999847) ∧
    visitNow { s with time := { s.time with prevGt := s.gt } } (nsT 9999847 + 1)
      (10 * bits (regW s (dieOff d 0x880044) 0) 15 0) 65536 65535 = none :=
  ⟨.n1, atGt (nsT 9999850) (setRegW (dieOff .n1 0x880044) 0 0x10001 State.reset), by decide +kernel⟩

theorem wit_ClassifierRegisters_prefix : ∃ (p : HPort) (d : NDie) (s : State) (cmd : W32), barUp s = true ∧
    pfxOk (pfxStaged s p d (bit cmd.toNat 16)) = true := ⟨.h0, .n0, State.reset, 0x1FFFF, by decide +kernel⟩

/-- An IPv4 prefix of 33 bits. -/
theorem wit_ClassifierRegisters_long : ∃ (p : HPort) (d : NDie) (s : State) (cmd : W32), barUp s = true ∧
    pfxOk (pfxStaged s p d (bit cmd.toNat 16)) = false := ⟨.h0, .n0, setRegW (pfxOff .n0 0x10) 0 33 State.reset, 0, by decide +kernel⟩

theorem wit_ClassifierRegisters_rule : ∃ (p : HPort) (d : NDie) (s : State) (cmd : W32), barUp s = true ∧ bit cmd.toNat 15 = true ∧
    (stagedWide s p (clsOff d 0) 23 &&& stagedWide s p (clsOff d 0x60) 23) = stagedWide s p (clsOff d 0) 23 ∧
    actListed (regQ s (clsOff d 0xC0) (portIx p)) = true ∧ bit cmd.toNat 16 = true ∧ bits cmd.toNat 13 0 = 16383 :=
  ⟨.h1, .n1, State.reset, 0x1FFFF, by decide +kernel⟩

theorem wit_ClassifierRegisters_format : ∃ (p : HPort) (d : NDie) (s : State) (cmd : W32), barUp s = true ∧ bit cmd.toNat 15 = true ∧
    actListed (regQ s (clsOff d 0xC0) (portIx p)) = false := ⟨.h0, .n0, setRegQ (clsOff .n0 0xC0) 0 4 State.reset, 0x8000, by decide +kernel⟩

/-- Both quads to 2x400, which 4 is not, and one of them alone to 8x200. -/
theorem wit_ClassifierRegisters_quad : ∃ (p : HPort) (d : NDie) (s : State), barUp s = true ∧ holdsSem s p = true ∧
    quadMode s d 0 ≠ 4 ∧ quadMode s d 1 ≠ 4 := ⟨.h0, .n0, withSem State.reset, by decide +kernel⟩

theorem wit_LaneCommands_up : ∃ (l : LaneId) (s : State), s.boot.fwUp = true ∧ isPort s l.val = true ∧ (getEPort s l.val).st ≠ 2 ∧
    (portLanes s l.val).filter (fun j => !(getLane s j).lost && (getLane s j).st != 3) ≠ [] ∧ portNative s l.val = true :=
  ⟨15, { State.reset with boot := { State.reset.boot with fwUp := true } }, by decide +kernel⟩

/-- The only lane of a port, and one of two. -/
theorem wit_LaneCommands_lost : ∃ (l : LaneId) (s : State), (getLane s l.val).lost = false ∧
    (getEPort s (portOfLane s l.val).1).st = 2 ∧ (portLanes s (portOfLane s l.val).1).any (fun j => j != l.val && (getLane s j).st == 2) = false :=
  ⟨0, laneUp 0 State.reset, by decide +kernel⟩

theorem wit_LaneCommands_narrower : ∃ (l : LaneId) (s : State), (getLane s l.val).lost = false ∧
    (getEPort s (portOfLane s l.val).1).st = 2 ∧ portNative s (portOfLane s l.val).1 = true ∧
    (portLanes s (portOfLane s l.val).1).any (fun j => j != l.val && (getLane s j).st == 2) = true :=
  ⟨1, setLane 1 { Lane.down with st := 2 } (laneUp 0 (setRegW 0x800000 0 1 State.reset)), by decide +kernel⟩

theorem wit_LaneCommands_rejoin : ∃ (l : LaneId) (s : State), (getLane s l.val).lost = true ∧ (getLane s l.val).dark = false ∧
    (getLane s l.val).st ≠ 3 := ⟨15, setLane 15 { Lane.down with lost := true, st := 1 } State.reset, by decide +kernel⟩

theorem wit_Egress_wheel : ∃ (d : NDie) (s : State), mapGet (dieIx d) s.net.wheelAt ≠ some (nowNs s / 64) ∧
    ((s.net.wheel.filter (fun w => w.1 ≤ nowNs s / 64 && w.2 / 4096 == dieIx d)).take 64).map (·.2) = [4096] :=
  ⟨.n1, { State.reset with net := { State.reset.net with wheel := [(0, 4096)] } }, by decide +kernel⟩

theorem wit_Egress_select : ∃ (port : LaneId) (q : Nat) (it : QItem) (rest : List QItem) (s : State), portUp s port.val = true ∧
    (getEPort s port.val).pause = false ∧ (getEPort s port.val).sending = none ∧ (getEPort s port.val).endAt ≤ now s ∧
    gateEn s port.val = false ∧ q < 16 ∧ getQueue s port.val q = it :: rest ∧
    (itemShapers s port.val q it).all (fun k => (getShaper s k).eligible) = true ∧
    (∀ r < 16, r ≠ q → getQueue s port.val r = [] ∨ bits (queueCfg s port.val r) 2 0 < bits (queueCfg s port.val q) 2 0) ∧
    1 ≤ bits (queueCfg s port.val q) 10 3 ∧ frameLen s it.frame ≤ 16383 :=
  ⟨0, 15, item0, [], setQueue 0 15 [item0] (withFrame (laneUp 0 State.reset)), by decide +kernel⟩

theorem wit_Egress_end : ∃ (port : LaneId) (q : Nat) (it : QItem) (k : Nat) (r : Req) (s : State),
    (getEPort s port.val).sending = some (it, q) ∧ (getEPort s port.val).endAt ≤ now s ∧ q < 16 ∧ it.entry = some k ∧
    getReq s k = some r ∧ r.reply.isSome = true ∧ r.deadline ≤ nowNs s :=
  ⟨0, 15, { item0 with entry := some 9 }, 9, { req0 with reply := some (0, [], []) }, setReq 9 { req0 with reply := some (0, [], []) }
    (modEPort 0 (fun x => { x with sending := some ({ item0 with entry := some 9 }, 15) }) (withFrame (laneUp 0 State.reset))),
    by decide +kernel⟩

theorem wit_Egress_gates : ∃ (port : LaneId) (s : State) (p : HPort), barUp s = true ∧ holdsSem s p = true ∧
    (getEPort s port.val).change = none := ⟨15, withSem State.reset, .h0, by decide +kernel⟩

theorem wit_Egress_change : ∃ (port : LaneId) (s : State) (n : Nat) (l : GateList), (getEPort s port.val).change = some (n, l) ∧
    nsT n ≤ now s := ⟨0, setEPort 0 { EPort.down with change := some (0, ⟨0, []⟩) } State.reset, 0, ⟨0, []⟩, by decide +kernel⟩

/-- A rate of 16,000,000, an overhead of -32 and the smallest burst. -/
theorem wit_Egress_shaper : ∃ (p : HPort) (d : NDie) (s : State) (v : W64), barUp s = true ∧ holdsSem s p = true ∧
    96 ≤ bits v.toNat 30 24 ∧ 64 ≤ bits v.toNat 55 32 ∧ bit v.toNat 31 = true ∧ bits v.toNat 23 0 ≠ 0 ∧ bits v.toNat 23 0 ≤ 16000000 ∧
    bits (regQ s (dieOff d 0x853008) 0) 23 0 ≤ bits (regQ s (dieOff d 0x853008) 0) 47 24 :=
  ⟨.h0, .n1, withSem State.reset, 0x40E0F42400, by decide +kernel⟩

/-! ### Hypotheses of the statements: requests, frames, flows, admission and time -/

theorem wit_EmptyFifoRead : ∃ (p : HPort) (d : NDie) (s : State), barUp s = true ∧
    (∀ sel, fifoSel s p d = some sel → (selGet s sel).words = []) := by
  refine ⟨.h0, .n1, State.reset, by decide +kernel, fun sel h => ?_⟩
  have h' : fifoSel State.reset .h0 .n1 = some (.learn .n1) := by decide +kernel
  rw [h'] at h
  cases h
  decide +kernel

theorem wit_FifoReads : ∃ (p : HPort) (d : NDie) (s : State) (sel : FifoSel) (w : FifoWord), barUp s = true ∧ fifoSel s p d = some sel ∧
    (selGet s sel).words = [w] ∧ 0 < (selGet s sel).gap ∧ sel = .punt .n0 7 :=
  ⟨.h1, .n0, setRegW 0x860000 1 9 (setPunt .n0 7 { words := [{ ctl := 1, data := 9 }], gap := 2 } State.reset), .punt .n0 7,
    { ctl := 1, data := 9 }, by decide +kernel⟩

def place0 : RowPlace := { share := 0, cluster := 0, off := 0, step := 1, ctxStep := 1, len := 4 }

/-- A ream of one request, whose output is 4 bytes in cluster 0; where `poison` names its line, the output is poisoned. -/
def answered (d : NDie) (ix : Nat) (poison : List Nat) : State :=
  modCluster 0 (fun k => { k with sramPoison := poison }) (setReq (rqtKey d ix) req0
    (withReam { ream0 with cores := [], rows := [{ req := rqtKey d ix, service := 0, body := [], input := [] }] }
      (withImage { image0 with outputs := [place0] } (laneUp 0 State.reset))))

theorem wit_Responses : ∃ (d : NDie) (ix : Nat) (s : State) (q : Req) (r : Ream) (im : Image), ix < 524288 ∧
    getReq s (rqtKey d ix) = some q ∧ q.infer = none ∧ portUp s q.port.val = true ∧ reamOf s q.ream = some r ∧
    slotImage s r.slot = some im ∧ q.st = 5 ∧ reamComplete r = true ∧
    (let row := (r.rows.takeWhile (fun x => x.req != rqtKey d ix)).length
     let parts := im.outputs.map (fun p => (p.share, outputAt s p r.seq row))
     let body := (parts.map (fun x => x.2.1)).flatten
     let ok := reqFrame s q stOk r.tgen ((getSlot s r.slot.val).hash.take 8) (body.take (((svcOf s r.slot q.service).map (·.resultLen)).getD body.length))
     body = [0, 0, 0, 0] ∧ ((parts.filter (fun x => x.2.2)).map (·.1)).eraseDups = [] ∧ ok.length ≤ portMaxFrame s q.port.val ∧
       hasCells s (laneDie q.port.val) ok.length true = true) :=
  ⟨.n1, 524287, answered .n1 524287 [], req0,
    { ream0 with cores := [], rows := [{ req := rqtKey .n1 524287, service := 0, body := [], input := [] }] },
    { image0 with outputs := [place0] }, by decide +kernel⟩

/-- No other device can compute the one share again. -/
theorem wit_Responses_poison : ∃ (s : State) (q : Req) (r : Ream) (im : Image), getReq s 9 = some q ∧ reamOf s q.ream = some r ∧
    slotImage s r.slot = some im ∧ reamComplete r = true ∧
    (let bad := (((im.outputs.map (fun p => (p.share, outputAt s p r.seq 0))).filter (fun x => x.2.2)).map (·.1)).eraseDups
     bad = [0] ∧ poisonShares s r im bad = none ∧
       hasCells s (laneDie q.port.val) (reqFrame s q stPoison 0 [] []).length true = true) :=
  ⟨answered .n0 9 [0], req0, { ream0 with cores := [], rows := [{ req := 9, service := 0, body := [], input := [] }] },
    { image0 with outputs := [place0] }, by decide +kernel⟩

theorem wit_Responses_wait : ∃ (d : NDie) (ix : Nat) (s : State) (q : Req), ix < 524288 ∧ getReq s (rqtKey d ix) = some q ∧
    q.infer = none ∧ portUp s q.port.val = true ∧ q.reply = some (0, [], []) ∧ q.st = 6 ∧
    s.net.ports.any (fun p => p.2.queues.any (fun q => q.2.any (fun it => it.entry == some (rqtKey d ix))) ||
      (p.2.sending.map (fun x => x.1.entry == some (rqtKey d ix))).getD false) = false ∧
    hasCells s (laneDie q.port.val) (reqFrame s q stOk 0 [] []).length true = true :=
  ⟨.n0, 0, setReq 0 { req0 with st := 6, reply := some (0, [], []) } (laneUp 0 State.reset),
    { req0 with st := 6, reply := some (0, [], []) }, by decide +kernel⟩

theorem wit_Responses_reap : ∃ (d : NDie) (ix : Nat) (s : State) (q : Req), ix < 524288 ∧ getReq s (rqtKey d ix) = some q ∧
    q.infer = none ∧ portUp s q.port.val = true ∧ q.st ≠ 6 ∧ q.deadline + regF s (dieOff d 0x830000) 0 23 8 * 1000 ≤ nowNs s ∧
    hasCells s (laneDie q.port.val) (reqFrame s q stLate 0 [] []).length true = true :=
  ⟨.n0, 0, setReq 0 req0 { laneUp 0 State.reset with gt := BitVec.ofNat 96 (nsT 1000000) }, req0, by decide +kernel⟩

/-- A frame of 63 bytes, and one behind a frame of this edge with a later stamp. -/
theorem wit_FrameReceive_short : ∃ (port : LaneId) (bytes : Bytes) (sub : BitVec 6) (s : State), portUp s port.val = true ∧
    (getEPort s port.val).pause = false ∧ rxOutranked s port.val sub = false ∧ bytes.length < 64 :=
  ⟨0, List.replicate 63 0, 0, netUp 0, by decide +kernel⟩

theorem wit_FrameReceive_outranked : ∃ (port : LaneId) (sub : BitVec 6) (s : State), portUp s port.val = true ∧
    rxOutranked s port.val sub = true :=
  ⟨0, 62, modNet .n0 (fun x => { x with lastRx := (now (netUp 0), 63, 0) }) (netUp 0), by decide +kernel⟩

/-- Frames of 64 bytes: PAUSE, a frame of the group, and a PTP message. -/
theorem wit_FrameReceive_pause : ∃ (port : LaneId) (bytes : Bytes) (s : State), portUp s port.val = true ∧
    (getEPort s port.val).pause = false ∧ 64 ≤ bytes.length ∧ bytes.length ≤ portMaxFrame s port.val ∧
    hasCells s (laneDie port.val) bytes.length false = true ∧
    (parseFrame bytes (portPvid s port.val) (regF s (pp port.val 0x800008) 0 15 0)).etype = 0x8808 :=
  ⟨0, List.replicate 12 0 ++ [0x88, 0x08] ++ List.replicate 50 0, netUp 0, by decide +kernel⟩

theorem wit_FrameReceive_group : ∃ (port : LaneId) (bytes : Bytes) (s : State), portUp s port.val = true ∧
    (getEPort s port.val).pause = false ∧ 64 ≤ bytes.length ∧ bytes.length ≤ portMaxFrame s port.val ∧
    hasCells s (laneDie port.val) bytes.length false = true ∧
    (let p := parseFrame bytes (portPvid s port.val) (regF s (pp port.val 0x800008) 0 15 0)
     p.etype = regF s (pp port.val 0x80000C) 0 15 0 ∧ p.dmac = portMac s port.val) :=
  ⟨0, List.replicate 12 0 ++ [0x88, 0xB5] ++ List.replicate 50 0, setRegW (pp 0 0x80000C) 0 0x88B5 (netUp 0), by decide +kernel⟩

theorem wit_FrameReceive_ptp : ∃ (port : LaneId) (bytes : Bytes) (s : State), portUp s port.val = true ∧
    (getEPort s port.val).pause = false ∧ 64 ≤ bytes.length ∧ bytes.length ≤ portMaxFrame s port.val ∧
    hasCells s (laneDie port.val) bytes.length false = true ∧
    (let p := parseFrame bytes (portPvid s port.val) (regF s (pp port.val 0x800008) 0 15 0)
     p.etype ≠ 0x8808 ∧ p.etype ≠ regF s (pp port.val 0x80000C) 0 15 0 ∧ isPtp p = true ∧ learnMode s port.val = 0) :=
  ⟨0, List.replicate 12 0 ++ [0x88, 0xF7] ++ List.replicate 50 0, netUp 0, by decide +kernel⟩

/-- A Sync of one step, or of two, under the source PTP. -/
theorem wit_FrameReceive_sync (two : Bool) : ∃ (bytes : Bytes) (s : State) (m : PtpMsg), s.time.source = 2 ∧ s.boot.fwUp = true ∧
    (portOfLane s (regF s 0x100038 0 3 0)).1 = 0 ∧
    ptpMsg (ptpBytes bytes (parseFrame bytes (portPvid s 0) (regF s (pp 0 0x800008) 0 15 0))) = some m ∧ m.typ = .sync ∧ m.twoStep = two := by
  let b (two : Bool) : Bytes :=
    List.replicate 12 0 ++ [0x88, 0xF7, 0, 2, 0, 44, 0, 0] ++ toBE 1 (if two then 2 else 0) ++ List.replicate 43 0
  let s : State := (fun s => { s with time := { s.time with source := 2 }, boot := { s.boot with fwUp := true } }) (netUp 0)
  let m (two : Bool) : PtpMsg := { typ := .sync, twoStep := two, corr := 0, port := 0, seq := 0, ns := 0, asker := 0 }
  cases two
  · exact ⟨b false, s, m false, by decide +kernel⟩
  · exact ⟨b true, s, m true, by decide +kernel⟩

/-- A full buffer. -/
theorem wit_FrameReceive_full : ∃ (port : LaneId) (bytes : Bytes) (s : State), portUp s port.val = true ∧
    (getEPort s port.val).pause = false ∧ 64 ≤ bytes.length ∧ bytes.length ≤ portMaxFrame s port.val ∧
    hasCells s (laneDie port.val) bytes.length false = false :=
  ⟨0, List.replicate 64 0, (let s := netUp 0
    { s with net := { s.net with frames := [(0, { die := .n0, len := 25165824, bytes := [], grp := none, copies := 1, cells := [] })] } }),
    by decide +kernel⟩

/-- A class G frame that rule 0 forwards to port 0. -/
theorem wit_FrameReceive_forward : ∃ (port : LaneId) (bytes : Bytes) (s : State) (k o : Nat) (r : Rule), portUp s port.val = true ∧
    (getEPort s port.val).pause = false ∧ 64 ≤ bytes.length ∧ bytes.length ≤ portMaxFrame s port.val ∧
    hasCells s (laneDie port.val) bytes.length false = true ∧
    (let g := port.val
     let d := laneDie g
     let p := parseFrame bytes (portPvid s g) (regF s (pp g 0x800008) 0 15 0)
     p.etype ≠ 0x8808 ∧ p.etype ≠ regF s (pp g 0x80000C) 0 15 0 ∧ isPtp p = false ∧ isClassM s g p = false ∧ p.ok = true ∧
     learnMode s g = 0 ∧ fwdFind s d (fwdKey p.dmac p.outerVid) = none ∧
     matchRule s d (ruleKey s g p ⟨false, false, if p.ip then (pfxLookup s d p.v6 (portVrf s g) p.dst).map (·.result) else none, auxOf s d [],
       bytes.length⟩) = some (k, r)) ∧ (s.net.rules.map (·.1)).Nodup ∧ bits r.act 2 0 = 0 ∧ bits r.act 4 3 = 2 ∧ bits r.act 8 5 = o ∧ bit r.act 9 = false ∧
    bit r.act 14 = false ∧ bit r.act 16 = false ∧ bit r.act 29 = true ∧ portUp s o = true ∧
    (∀ it ∈ getQueue s o (bits r.act 33 30), it.frame < s.net.nextFrame) ∧
    queueCells s o (bits r.act 33 30) + cellsOfLen bytes.length ≤ bits (queueCfg s o (bits r.act 33 30)) 48 32 :=
  ⟨0, List.replicate 64 0, netUp (2 ^ 29 + 16), 0, 0, { key := 0, mask := 0, act := 2 ^ 29 + 16, valid := true, hits := 0 },
    by decide +kernel⟩

/-- A request of class M that rule 0 marks REQUEST. -/
theorem wit_FrameReceive_request : ∃ (port : LaneId) (bytes : Bytes) (s : State) (k e o n : Nat) (r : Rule), portUp s port.val = true ∧
    (getEPort s port.val).pause = false ∧ 64 ≤ bytes.length ∧ bytes.length ≤ portMaxFrame s port.val ∧
    hasCells s (laneDie port.val) bytes.length false = true ∧
    (let g := port.val
     let d := laneDie g
     let p := parseFrame bytes (portPvid s g) (regF s (pp g 0x800008) 0 15 0)
     let pl := (bytes.drop o).take n
     p.etype ≠ 0x8808 ∧ p.etype ≠ regF s (pp g 0x80000C) 0 15 0 ∧ isPtp p = false ∧ isClassM s g p = true ∧ p.udp = some (o, n) ∧
     udpCsumOk bytes p = true ∧ mrpValid pl = true ∧ mxFits s d pl = true ∧
     matchRule s d (ruleKey s g p ⟨true, (fwdFind s d (fwdKey p.dmac p.outerVid)).isSome, none, auxOf s d (mxFields s d pl), bytes.length⟩) =
       some (k, r)) ∧
    bits r.act 2 0 = 3 ∧ bit r.act 9 = false ∧ bit r.act 16 = false ∧ unitActive s (ucNet .n0) = true ∧ freeReq s (laneDie port.val) = some e :=
  ⟨0, frame0, netUp 3, 0, 0, 42, 48, { key := 0, mask := 0, act := 3, valid := true, hits := 0 }, by decide +kernel⟩

theorem recordHeld_of {s : State} {a : Nat} (h : s.dsm.flaws = [])
    (h2 : ∀ l ∈ [a / 64, a / 64 + 1], l < dpaLines ∧ holderOf s l = none ∧ ovhOf s l = none ∧ kindOf s (lineStripe l) ≠ 0 ∧
      (place s (lineStripe l) (lineSlot l) (lineIx l)).isSome = true) : recordHeld s a := by
  have h1 (l : Nat) (hl : l ∈ [a / 64, a / 64 + 1]) : lineHeld s l :=
    ⟨(h2 l hl).1, (h2 l hl).2.1, (h2 l hl).2.2.1, (h2 l hl).2.2.2.1, (h2 l hl).2.2.2.2, intact_of h _ _⟩
  exact ⟨h1 _ (by simp), h1 _ (by simp)⟩

def flowIns (ix : Nat) : FlowIns := { frame := flow0, index := ix, ord := 0 }

/-- A record lies behind the buckets. -/
theorem wit_FlowRecords_present : ∃ (s : State) (x : Tbl) (fd : Found), flowTable s = some (7, x) ∧ getTbl s 7 = some x ∧
    x.desc.kind = 1 ∧ x.desc.rowBase % 64 = 0 ∧ s.flow.queue = [(0, flow0)] ∧ s.flow.inserts = [flowIns 1] ∧
    writerBusy 7 1 flow0.key 0 s = false ∧ movesHeld s x = false ∧
    foundSeen s x.desc (fun e => eVis e == 1) flow0.key = some (some fd) ∧ recordHeld s (rowAddr x.desc fd.entry.row) ∧
    bucketHeld s x.desc fd.bucket ∧ ∀ n < 2, (slotsSeen s x.desc (bucketN x.desc n flow0.key)).isSome = true ∧
      x.desc.bucketBase / 64 + bucketN x.desc n flow0.key < rowAddr x.desc fd.entry.row / 64 :=
  ⟨entry5 b0 3 1 { flowTbl State.reset with
      flow := { FlowState.empty with queue := [(0, flow0)], inserts := [flowIns 1] } },
    { tbl0 1 with refs := [(3, 1)], occupied := 1 }, { n := 0, bucket := b0, slot := 3, entry := { key := 5, row := 3, flags := 64 } },
    by decide +kernel, by decide +kernel, by decide +kernel, by decide +kernel, by decide +kernel, by decide +kernel, by decide +kernel,
    by decide +kernel, by decide +kernel, recordHeld_of (by decide +kernel) (by decide +kernel), by unfold bucketHeld; decide +kernel, by decide +kernel⟩

/-- An insertion of the key that came first. -/
theorem wit_FlowRecords_waits : ∃ (s : State) (x : Tbl) (i : FlowIns), flowTable s = some (7, x) ∧ s.flow.inserts = [i] ∧
    writerBusy 7 1 i.frame.key i.ord s = true :=
  ⟨waiting add5 { flowTbl State.reset with flow := { FlowState.empty with inserts := [{ flowIns 1 with ord := 1 }] } }, tbl0 1,
    { flowIns 1 with ord := 1 }, by decide +kernel⟩

/-- The frame brings a sample. -/
theorem wit_FlowRecords_sample : ∃ (s : State) (r : FlowRec) (sl : SlotId) (st : StandObj), sampleDue s flow0 r = true ∧
    activeSlot s = some sl ∧ flowStandOf s sl = some st :=
  ⟨{ State.reset with slots := famSet State.reset.slots 0 { Slot.empty with
      st := 3, image := some { image0 with stands := [{ standObj with bytes := [1, 6] ++ stand1.drop 2 }] } } },
    firstRecord State.reset flow0, 0, { standObj with bytes := [1, 6] ++ stand1.drop 2 }, by decide +kernel⟩

theorem wit_FlowRecords_new : ∃ (s : State) (x : Tbl) (es : List Entry) (n : Nat), flowTable s = some (7, x) ∧ getTbl s 7 = some x ∧
    x.desc.kind = 1 ∧ x.desc.rowBase % 64 = 0 ∧ s.flow.queue = [(0, flow0)] ∧ s.flow.inserts = [flowIns 511] ∧
    writerBusy 7 1 flow0.key 0 s = false ∧ movesHeld s x = false ∧
    foundSeen s x.desc (fun e => eVis e == 1) flow0.key = some none ∧ firstGap 0 s.flow.used < hwRecords s ∧
    s.flow.inserts.length < 4096 ∧ recordHeld s (rowAddr x.desc (firstGap 0 s.flow.used)) ∧
    slotsSeen s x.desc (bucketN x.desc 0 flow0.key) = some es ∧ emptySlot es = some n ∧
    bucketHeld s x.desc (bucketN x.desc 0 flow0.key) ∧ entryFits { key := flow0.key, row := 511, flags := mkFlags 0 true true false 1 } :=
  ⟨setRegF 0x820000 0 31 11 512 { flowTbl State.reset with flow := { FlowState.empty with queue := [(0, flow0)], inserts := [flowIns 511] } },
    tbl0 1, emptyBucket, 0,
    by decide +kernel, by decide +kernel, by decide +kernel, by decide +kernel, by decide +kernel, by decide +kernel, by decide +kernel,
    by decide +kernel, by decide +kernel, by decide +kernel, by decide +kernel, recordHeld_of (by decide +kernel) (by decide +kernel), by decide +kernel,
    by decide +kernel, by unfold bucketHeld; decide +kernel, by unfold entryFits; decide +kernel⟩

/-- No index is left: HW_RECORDS is 0. -/
theorem wit_FlowRecords_full : ∃ (s : State) (x : Tbl), flowTable s = some (7, x) ∧ getTbl s 7 = some x ∧ s.flow.queue = [(0, flow0)] ∧
    foundSeen s x.desc (fun e => eVis e == 1) flow0.key = some none ∧ hwRecords s ≤ firstGap 0 s.flow.used ∧
    (getReq s 9).isSome = true :=
  ⟨setReq 9 req0 (setRegF 0x820000 0 31 11 0 { flowTbl State.reset with flow := { FlowState.empty with queue := [(0, flow0)] } }), tbl0 1,
    by decide +kernel⟩

/-- Both buckets are full of other keys. -/
theorem wit_FlowRecords_noRoom : ∃ (s : State) (x : Tbl), flowTable s = some (7, x) ∧ getTbl s 7 = some x ∧ s.flow.inserts = [flowIns 511] ∧
    writerBusy 7 1 flow0.key 0 s = false ∧ movesHeld s x = false ∧ foundSeen s x.desc (fun e => eVis e == 1) flow0.key = some none ∧
    (planFor 7 flow0.key s).1.isNone = true :=
  ⟨(List.range 8).foldl (fun s n => putSlot 7 (n / 4) (n % 4) { key := 10 + n, row := 600, flags := 64 } s)
      { flowTbl State.reset with flow := { FlowState.empty with inserts := [flowIns 511] } },
    { tbl0 1 with refs := [(600, 8)], occupied := 8 }, by decide +kernel⟩

theorem wit_FlowScoring_sample : ∃ s : State, s.flow.samples = [smp0] ∧ standOf s smp0.slot smp0.stand = some standObj ∧
    standPlaced s smp0.slot standObj = true ∧ logicalClusterPhys s standObj.cluster.val = 0 ∧ (getCluster s 0).queue.length < 1024 :=
  ⟨withStand { State.reset with flow := { FlowState.empty with samples := [smp0] } }, by decide +kernel⟩

/-- A stand that is not in place, one that is gone, and a request that waits for its score. -/
def smpReq : Req := { req0 with st := 2, sample := some 1, flowIndex := some 3 }

theorem wit_FlowScoring_drop : ∃ s : State, s.flow.samples = [smp0] ∧ standOf s smp0.slot smp0.stand = some standObj ∧
    standPlaced s smp0.slot standObj = false ∧ waitsFor s smp0 = some 9 :=
  ⟨setReq 9 smpReq (withImage { image0 with stands := [standObj] } { State.reset with flow := { FlowState.empty with samples := [smp0] } }),
    by decide +kernel⟩

theorem wit_FlowScoring_gone : ∃ s : State, s.flow.samples = [smp0] ∧ standOf s smp0.slot smp0.stand = none ∧ waitsFor s smp0 = none :=
  ⟨{ State.reset with flow := { FlowState.empty with samples := [smp0] } }, by decide +kernel⟩

theorem wit_FlowScoring_dispatch : ∃ s : State, (getCluster s 0).queue = [smp0] ∧ standOf s smp0.slot smp0.stand = some standObj ∧
    standPlaced s smp0.slot standObj = true ∧
    (∀ c ∈ (List.range (standHdr standObj.bytes).segCount).map (segCore s standObj), c = 0) ∧ (getCore s 0).te.stream.length < 64 :=
  ⟨withStand (modCluster 0 (fun k => { k with queue := [smp0] }) State.reset), by decide +kernel⟩

/-- A core's input is full. -/
theorem wit_FlowScoring_full : ∃ (s : State) (c : CoreId), (getCluster s 0).queue = [smp0] ∧
    standOf s smp0.slot smp0.stand = some standObj ∧ standPlaced s smp0.slot standObj = true ∧
    c.val ∈ (List.range (standHdr standObj.bytes).segCount).map (segCore s standObj) ∧ 64 ≤ (getCore s c).te.stream.length :=
  ⟨modCore 0 (fun x => { x with te := { x.te with stream := List.range 64 } })
    (withStand (modCluster 0 (fun k => { k with queue := [smp0] }) State.reset)), 0, by decide +kernel⟩

theorem wit_FlowScoring_sum : ∃ s : State, (getCore s 0).te.stream = [1] ∧ combinerOf s 1 = some 0 ∧
    (getCluster s 0).inFlight.find? (fun f => f.sample.id == 1) = some (inFlight0 []) ∧
    standOf s smp0.slot smp0.stand = some standObj ∧ coreActive s 0 = true :=
  ⟨withStand (modCluster 0 (fun k => { k with inFlight := [inFlight0 []] }) State.reset), by decide +kernel⟩

/-- The walk of the segment reads the node whose parity fails. -/
theorem wit_FlowScoring_fault : ∃ (s : State) (q : NodeFault), (getCore s 0).te.stream = [1] ∧
    q.seg ∈ (List.range 8).filter (fun n => (segEntry (getCore s 0) smp0.slot smp0.stand n).isSome) ∧
    ∃ w ∈ (segEntry (getCore s 0) smp0.slot smp0.stand q.seg).elim [] (fun e =>
      segWalks (fun j => mapGetD 0 (e.base + j) (getCore s 0).te.words) (standHdr standObj.bytes)
        ((standHdr standObj.bytes).segs.getD q.seg (0, 0)).1 (fun j => smp0.feats.getD j 0)), q.node ∈ w.nodes :=
  ⟨withStand (modCluster 0 (fun k => { k with inFlight := [inFlight0 []] }) State.reset), { seg := 0, node := 0, again := true },
    by decide +kernel, by decide +kernel, _, List.mem_cons_self, by decide +kernel⟩

theorem wit_FlowScoring_return : ∃ (s : State) (x : Tbl), (getCluster s 0).inFlight = [inFlight0 [(0, [0x3F800000])]] ∧
    standOf s smp0.slot smp0.stand = some standObj ∧
    (∀ n < (standHdr standObj.bytes).segCount, (mapGet n (inFlight0 [(0, [0x3F800000])]).sums).isSome = true) ∧
    waitsFor s smp0 = some 9 ∧ getReq s 9 = some smpReq ∧ flowTable s = some (7, x) ∧ x.desc.rowBase % 64 = 0 ∧
    s.flow.inserts = [{ flowIns 3 with ord := 0 }] ∧ recordHeld s (rowAddr x.desc 3) ∧
    (bytesSeen s (rowAddr x.desc 3) 128).map (·.2) = some false :=
  ⟨setReq 9 smpReq (withStand (modCluster 0 (fun k => { k with inFlight := [inFlight0 [(0, [0x3F800000])]] })
      { flowTbl State.reset with flow := { FlowState.empty with inserts := [{ flowIns 3 with ord := 0 }] } })), tbl0 1,
    by decide +kernel, by decide +kernel, by decide +kernel, by decide +kernel, by decide +kernel, by decide +kernel, by decide +kernel,
    by decide +kernel, recordHeld_of (by decide +kernel) (by decide +kernel), by decide +kernel⟩

theorem wit_FlowScoring_wait : ∃ (d : NDie) (ix : Nat) (s : State) (q : Req) (t0 : Nat), getReq s (rqtKey d ix) = some q ∧
    q.sampled = some t0 ∧ q.st = 2 ∧ t0 + nsT (10 * regF s 0x840000 0 23 8) ≤ now s ∧ flowTable s = none :=
  ⟨.n0, 0, setReq 0 { req0 with st := 2, sampled := some 0, sample := some 0 } { State.reset with gt := BitVec.ofNat 96 (nsT 5000) },
    { req0 with st := 2, sampled := some 0, sample := some 0 }, 0, by decide +kernel⟩

/-- A descriptor whose LAUNCH_GT has come still waits for its launch edge. -/
theorem wit_Admission_owed : ∃ s : State, edgeOwed s = true :=
  ⟨{ withInbox { descOf [8] with due := 1 } State.reset with gt := 1 }, by decide +kernel⟩

theorem wit_Admission_shed : ∃ (s : State) (k : Nat) (r : Req), edgeOwed s = false ∧ (reamWindow s = 0 ∨ windowOf s (nowNs s) = s.adm.window) ∧
    s.adm.offers = [k] ∧ getReq s k = some r ∧ r.infer = none ∧ portUp s r.port.val = true ∧
    hasCells s (laneDie r.port.val) (reqFrame s r stShed 0 [] []).length true = true ∧ activeSlot s = none :=
  ⟨setReq 9 req0 { laneUp 0 State.reset with adm := { AdmState.reset with offers := [9] } }, 9, req0, by decide +kernel⟩

/-- A service that the image lacks. -/
theorem wit_Admission_service : ∃ (s : State) (r : Req) (sl : SlotId) (im : Image), edgeOwed s = false ∧ windowOf s (nowNs s) = s.adm.window ∧
    s.adm.offers = [9] ∧ getReq s 9 = some r ∧ r.bound = false ∧ activeSlot s = some sl ∧ shedding s = false ∧ slotImage s sl = some im ∧
    svcOf s sl r.service = none := ⟨offered req0 1, req0, 0, ((getSlot (offered req0 1) 0).image).getD image0, by decide +kernel⟩

/-- A request that is admitted, one that comes too late, one whose body does not fit, and one for which credits lack. -/
theorem wit_Admission : ∃ (s : State) (r : Req) (sl : SlotId) (im : Image) (svc : Service), edgeOwed s = false ∧ windowOf s (nowNs s) = s.adm.window ∧
    s.adm.offers = [9] ∧ getReq s 9 = some r ∧ r.bound = false ∧ activeSlot s = some sl ∧ shedding s = false ∧ slotImage s sl = some im ∧
    svcOf s sl r.service = some svc ∧ bodyFits svc r.body = true ∧
    completesBy s sl im svc (joinSeq s (windowOf s (nowNs s)) sl) (nowNs s) (launchAt s (windowOf s (nowNs s))) r.deadline = true ∧
    hasCredits s (cluNeed svc) (nluNeed s im svc r.body) = true := by
  refine ⟨offered { req0 with service := 9, deadline := 10000000 } 1, { req0 with service := 9, deadline := 10000000 }, 0,
    ((getSlot (serving 1) 0).image).getD image0,
    { id := 9, estNs := 0, units := 1, clusters := [0], bodyLen := some 0, resultLen := 4, keys := [] }, by decide +kernel⟩

theorem wit_Admission_late : ∃ (s : State) (r : Req) (sl : SlotId) (im : Image) (svc : Service), edgeOwed s = false ∧ windowOf s (nowNs s) = s.adm.window ∧
    s.adm.offers = [9] ∧ getReq s 9 = some r ∧ r.bound = false ∧ activeSlot s = some sl ∧ shedding s = false ∧ slotImage s sl = some im ∧
    svcOf s sl r.service = some svc ∧ bodyFits svc r.body = true ∧
    completesBy s sl im svc (joinSeq s (windowOf s (nowNs s)) sl) (nowNs s) (launchAt s (windowOf s (nowNs s))) r.deadline = false := by
  refine ⟨offered { req0 with service := 9 } 1, { req0 with service := 9 }, 0, ((getSlot (serving 1) 0).image).getD image0,
    { id := 9, estNs := 0, units := 1, clusters := [0], bodyLen := some 0, resultLen := 4, keys := [] }, by decide +kernel⟩

theorem wit_Admission_body : ∃ (s : State) (r : Req) (sl : SlotId) (svc : Service), edgeOwed s = false ∧ getReq s 9 = some r ∧ r.bound = false ∧ activeSlot s = some sl ∧
    svcOf s sl r.service = some svc ∧ bodyFits svc r.body = false := by
  refine ⟨offered { req0 with service := 9, body := [0] } 1, { req0 with service := 9, body := [0] }, 0,
    { id := 9, estNs := 0, units := 1, clusters := [0], bodyLen := some 0, resultLen := 4, keys := [] }, by decide +kernel⟩

theorem wit_Admission_credits : ∃ (s : State) (r : Req) (sl : SlotId) (im : Image) (svc : Service), edgeOwed s = false ∧ getReq s 9 = some r ∧
    activeSlot s = some sl ∧ shedding s = false ∧ slotImage s sl = some im ∧ svcOf s sl r.service = some svc ∧ bodyFits svc r.body = true ∧
    completesBy s sl im svc (joinSeq s (windowOf s (nowNs s)) sl) (nowNs s) (launchAt s (windowOf s (nowNs s))) r.deadline = true ∧
    hasCredits s (cluNeed svc) (nluNeed s im svc r.body) = false ∧ r.carries < regF s 0x840000 0 3 0 ∧ r.bound = false := by
  refine ⟨offered { req0 with service := 9, deadline := 10000000, carries := 1 } 65536,
    { req0 with service := 9, deadline := 10000000, carries := 1 }, 0, ((getSlot (serving 65536) 0).image).getD image0,
    { id := 9, estNs := 0, units := 65536, clusters := [0], bodyLen := some 0, resultLen := 4, keys := [] }, by decide +kernel⟩

/-- A request placed before the slot was switched keeps its slot. -/
theorem wit_Admission_bound : ∃ (s : State) (r : Req) (im : Image), getReq s 9 = some r ∧ r.bound = true ∧ r.slot = 0 ∧
    activeSlot s = none ∧ slotImage s 0 = some im :=
  ⟨setReq 9 { req0 with bound := true } (withImage image0 State.reset), { req0 with bound := true }, image0, by decide +kernel⟩

theorem wit_Admission_seal : ∃ s : State, ¬ (reamWindow s = 0 ∨ windowOf s (nowNs s) = s.adm.window) :=
  ⟨{ serving 1 with gt := BitVec.ofNat 96 (nsT 1000) }, by decide +kernel⟩

theorem wit_Launches_edge : ∃ (s : State) (q : W32) (r : Ream), s.host.sched = [] ∧ (∀ c ∈ s.host.protPending, now s < c.due) ∧
    dueBatches s = [] ∧ dueReams s = [q] ∧ reamOf s q = some r ∧ r.share = none ∧ (∀ k ∈ r.reqs, unjournalled s k = false) ∧
    s.grp.toManager = false ∧ s.grp.toLeave = false ∧ (getReq s 9).map (·.st) = some 4 ∧ r.reqs = [9] :=
  ⟨setReq 9 { req0 with st := 4 } (withReam { ream0 with launched := false, reqs := [9] } State.reset), 0,
    { ream0 with launched := false, reqs := [9] }, by decide +kernel⟩

theorem wit_Launches_late : ∃ (s : State) (dom : DomainId), domState s dom.val = 4 ∧ s.pwr.late = [(dom.val, 0)] :=
  ⟨domOn 336 { State.reset with pwr := { PowerState.reset with late := [(336, 0)] } }, 336, by decide +kernel⟩

theorem wit_Launches_asleep : ∃ (s : State) (dom : DomainId), domState s dom.val ≠ 4 := ⟨State.reset, 0, by decide +kernel⟩

theorem wit_Launches_again : ∃ (s : State) (ream : W32) (r : Ream), ream ∈ s.canopy.relaunch ∧ reamOf s ream = some r ∧ r.share = none ∧
    r.launched = true := ⟨withReam ream0 { State.reset with canopy := { Canopy.reset with relaunch := [0] } }, 0, ream0, by decide +kernel⟩

theorem wit_Launches_share : ∃ (s : State) (ream : W32) (r : Ream), ream ∈ s.canopy.relaunch ∧ reamOf s ream = some r ∧ r.share ≠ none ∧
    s.grp.toManager = false :=
  ⟨withReam { ream0 with share := some (1, 0) } { State.reset with canopy := { Canopy.reset with relaunch := [0] } }, 0,
    { ream0 with share := some (1, 0) }, by decide +kernel⟩

def merge0 : ClipMerge := { tensor := 0, ream := 0, slot := 0, posts := 1, clipped := 1, converted := 2, blocks := [(0, (0, 0x3F800000))] }

theorem wit_Launches_merge : ∃ (s : State) (d : CDie) (x : TensorDesc),
    (getDie s d).merges.find? (fun m => m.ream == 0 && m.tensor == 0) = some merge0 ∧ tensorOf s merge0.slot 0 = some x ∧
    x.posts ≤ merge0.posts ∧ x.satThresh * merge0.converted < merge0.clipped * 65536 ∧ numericsMode s ≠ 0 ∧
    merge0.blocks.filterMap (fun b => (raiseBlock x (liveScale s merge0.slot x b.1) (f32 b.2.1) (f32 b.2.2)).map (fun r => (b.1, r))) ≠ [] :=
  ⟨withImage { image0 with tensors := [tensor0] } (modDie 0 (fun x => { x with merges := [merge0] })
    { State.reset with host := { HostState.reset with cfg := { Cfg.empty with fields := [(4, 1)] } } }), 0, tensor0, by decide +kernel⟩

theorem wit_GroupTime_holdover : ∃ s : State, s.time.holdover = false ∧ s.time.source = 1 ∧
    usT 300 ≤ now s - s.time.lastExchange.getD 0 :=
  ⟨{ State.reset with gt := BitVec.ofNat 96 (usT 300), time := { TimeState.reset with source := 1 } }, by decide +kernel⟩

theorem wit_GroupTime_held : ∃ s : State, s.time.holdover = true ∧ s.time.source = 4 :=
  ⟨{ State.reset with time := { TimeState.reset with source := 4, holdover := true } }, by decide +kernel⟩

/-- The first edge at or after a whole second, and a source that keeps on time. -/
theorem wit_GroupTime_rise : ∃ s : State, bit (regW s 0x100034 0) 10 = true ∧ s.time.ppsOut = false ∧
    s.time.prevGt.toNat / nsT 1000000000 < now s / nsT 1000000000 :=
  ⟨atGt (nsT 3000000001) (setRegW 0x100034 0 0x464 State.reset), by decide +kernel⟩

theorem wit_GroupTime_again : ∃ s : State, s.time.holdover = true ∧ s.time.source = 3 ∧
    ¬ nsT 1100000000 ≤ now s - s.time.lastPps.getD 0 :=
  ⟨{ State.reset with time := { TimeState.reset with source := 3, holdover := true } }, by decide +kernel⟩

/-- The reload of a new microsecond, and none before. -/
theorem wit_GroupTime_replicas : State.reset.time.syncUs ≠ some (nowNs State.reset / 1000) ∧
    State.reset.time.replicas.Pairwise (fun a b => a.1 < b.1) ∧ (∀ x ∈ State.reset.time.replicas, x.1 < 65536) ∧
    ∃ s : State, s.time.syncUs = some (nowNs s / 1000) :=
  ⟨by decide +kernel, by decide +kernel, by decide +kernel,
    { State.reset with time := { TimeState.reset with syncUs := some 0 } }, by decide +kernel⟩

/-- A step that still stands at its edge, and one that a launch accepted since refuses. -/
theorem wit_GroupTime_edge : ∃ s u : State, s.pending = [] ∧ s.boot.held = false ∧ s.time.stepTo = some 9 ∧ s.time.stepJoin = false ∧
    now s < nsT 9 ∧ s.host.launch = [] ∧ u.pending = [] ∧ u.boot.held = false ∧ u.time.stepTo = some 9 ∧ u.time.stepJoin = false ∧
    u.boot.switchAt ≠ none :=
  ⟨{ State.reset with time := { TimeState.reset with stepTo := some 9 }, boot := { BootState.reset with held := false } },
    { State.reset with time := { TimeState.reset with stepTo := some 9 }, boot := { BootState.reset with held := false, switchAt := some 90 } },
    by decide +kernel⟩

theorem wit_GroupTime_fall : ∃ s : State, s.time.ppsOut = true ∧ s.time.ppsRise + msT (regF s 0x100034 0 9 0) ≤ now s :=
  ⟨{ State.reset with gt := BitVec.ofNat 96 (msT 100), time := { TimeState.reset with ppsOut := true } }, by decide +kernel⟩

theorem wit_GroupTime_writes : ∃ (s : State) (p : HPort) (v : W32), barUp s = true ∧ holdsSem s p = true ∧ bits v.toNat 2 0 = 4 ∧
    s.grp.role ≠ 2 ∧ holdsSem s (otherPort p) = false := ⟨withSem State.reset, .h0, 4, by decide +kernel⟩

theorem wit_GroupTime_worker : ∃ (s : State) (p : HPort), barUp s = true ∧ holdsSem s p = true ∧ s.grp.role = 2 :=
  ⟨withSem { State.reset with grp := { GroupState.reset with role := 2 } }, .h0, by decide +kernel⟩

/-- A step to a later GT, and one to GT 0, which is not later. -/
theorem wit_GroupTime_step : ∃ (s : State) (p : HPort), barUp s = true ∧ holdsSem s p = true ∧
    now s < nsT (regW s 0x100020 0 + 2 ^ 32 * regW s 0x100024 0) ∧ s.host.launch = [] ∧ s.boot.switchAt = none ∧ s.grp.role ≠ 1 ∧
    s.grp.role ≠ 2 := ⟨withSem (setRegW 0x100020 0 1 State.reset), .h0, by decide +kernel⟩

theorem wit_GroupTime_back : ∃ (s : State) (p : HPort), barUp s = true ∧ holdsSem s p = true ∧
    ¬ now s < nsT (regW s 0x100020 0 + 2 ^ 32 * regW s 0x100024 0) := ⟨withSem State.reset, .h0, by decide +kernel⟩

theorem wit_GroupTime_lock : ∃ (s : State) (c : Nat), s.boot.configAt = some c ∧ sourceAwaited s = true ∧ s.time.locked = false ∧
    c + nsT 30000000000 ≤ now s :=
  ⟨{ State.reset with gt := BitVec.ofNat 96 (nsT 30000000000), time := { TimeState.reset with source := 2 }
                      boot := { BootState.reset with configAt := some 0 } }, 0, by decide +kernel⟩

theorem wit_GroupTime_source (v : Byte) (h : v = 1 ∨ v = 0) : ∃ (s : State) (d : Desc), (takeDesc (isTimeCtl 0) s).map (·.1) = some d ∧
    dNum d 17 1 = v.toNat ∧ s.grp.role ≠ 2 := by
  rcases h with rfl | rfl
  · exact ⟨withInbox (dTime 0 [1]) State.reset, dTime 0 [1], by decide +kernel⟩
  · exact ⟨withInbox (dTime 0 [0]) State.reset, dTime 0 [0], by decide +kernel⟩

theorem wit_GroupTime_descriptors : ∃ (s1 s2 s3 : State), (takeDesc (isTimeCtl 1) s1).isSome = true ∧ s1.time.source = 0 ∧
    (takeDesc (isTimeCtl 2) s2).isSome = true ∧ s2.host.launch = [] ∧ now s2 < nsT (dNum (dTime 2 [0, 0, 0, 0, 0, 0, 0, 9]) 24 8) ∧
    s2.boot.switchAt = none ∧ s2.grp.role = 0 ∧ (takeDesc (isTimeCtl 3) s3).isSome = true :=
  ⟨withInbox (dTime 1 []) State.reset, withInbox (dTime 2 [0, 0, 0, 0, 0, 0, 0, 9]) State.reset, withInbox (dTime 3 []) State.reset,
    by decide +kernel⟩

def row0 : RegRow := ⟨0, 0, 1, 0, 1, 32, 0, false, none, false, []⟩

/-- Half of a 64-bit RWS register, and the whole of one. -/
theorem wit_Registers : ∃ (s : State) (p : HPort) (off : BitVec 24) (r : RegRow), barOpen s off.toNat = true ∧
    regFind (lineOff (normOff off.toNat)) = some (r, 0) ∧ off.toNat % 8 = 0 ∧ r.width = 64 ∧ rwsWritten r (2 ^ 64 - 1) = true ∧
    ownRow r.base 0 = false ∧ ownRow r.base 4 = false ∧ setBusy s p r.base = false ∧ 0x30000 ≤ r.base ∧
    r.base ∉ [0x800040, 0x800100, 0x800110, 0x100018, 0x100034, 0x400000, 0x84000C] ∧ holdsSem s p = true :=
  ⟨withSem State.reset, .h0, 0x850400, ((regFind 0x850400).map (·.1)).getD row0, by decide +kernel⟩

theorem wit_Registers_word : ∃ (s : State) (p : HPort) (off : BitVec 24) (r : RegRow), barOpen s off.toNat = true ∧
    regFind (lineOff (normOff off.toNat)) = some (r, 0) ∧ r.width = 32 ∧ ownRow r.base 0 = false ∧ setBusy s p r.base = false ∧
    0x30000 ≤ r.base ∧ r.base ∉ [0x800040, 0x800100, 0x800110, 0x100018, 0x100034, 0x400000, 0x84000C] ∧ holdsSem s p = false :=
  ⟨State.reset, .h1, 0xE0000C, ((regFind 0xE0000C).map (·.1)).getD row0, by decide +kernel⟩

/-- An unaligned write, and an 8-byte write of two 32-bit registers. -/
theorem wit_Registers_pair : ∃ (o1 o2 : BitVec 24), o1.toNat % 8 ≠ 0 ∧ o2.toNat % 8 = 0 ∧
    ((regFind (lineOff (normOff o2.toNat))).map (fun r => r.1.width)) = some 32 := ⟨0x300024, 0xE00008, by decide +kernel⟩

theorem wit_Registers_commit : ∃ (s : State) (p : HPort) (c : ProtChange), barUp s = true ∧ holdsSem s p = true ∧
    c ∈ s.host.protPending ∧ c.port ≠ p ∧ (∀ c ∈ s.host.protPending, c.port ≠ p) :=
  ⟨withSem { State.reset with host := { HostState.reset with
      protPending := [{ port := .h1, window := 63, content := ProtWin.closed, due := 1 }] } }, .h0,
    { port := .h1, window := 63, content := ProtWin.closed, due := 1 }, by decide +kernel⟩

theorem wit_Registers_pending : ∃ (s : State) (p : HPort) (c : ProtChange), barUp s = true ∧ holdsSem s p = true ∧
    c ∈ s.host.protPending ∧ c.port = p :=
  ⟨withSem { State.reset with host := { HostState.reset with
      protPending := [{ port := .h0, window := 0, content := ProtWin.closed, due := 1 }] } }, .h0,
    { port := .h0, window := 0, content := ProtWin.closed, due := 1 }, by decide +kernel⟩

theorem wit_Semaphore : ∃ (s : State) (p : HPort) (token : W16), s.boot.straps.getLsbD 3 = false ∧ s.host.sem.servedEarly = none ∧
    s.pending = [] ∧ s.host.sem.owner = some p ∧
    now s < s.host.sem.leaseEnd ∧ token ≠ 0 ∧ s.host.sem.token = token.toNat := ⟨withSem State.reset, .h0, 7, by decide +kernel⟩

theorem wit_Semaphore_ends : ∃ (s : State) (p : HPort), s.boot.straps.getLsbD 3 = false ∧ s.host.sem.servedEarly = none ∧
    s.pending = [] ∧ s.host.sem.owner = some p ∧
    s.host.sem.leaseEnd ≤ now s := ⟨{ withSem State.reset with gt := BitVec.ofNat 96 (2 ^ 95) }, .h0, by decide +kernel⟩

theorem wit_Semaphore_free : ∃ s : State, s.boot.straps.getLsbD 3 = false ∧ s.host.sem.servedEarly = none ∧ s.pending = [] ∧
    s.host.sem.owner = none := ⟨State.reset, by decide +kernel⟩


/-- The administrative list of port 0 while its change is pending. -/
theorem wit_Registers_gated : ∃ (s : State) (p : HPort) (off : BitVec 24) (r : RegRow), barOpen s off.toNat = true ∧
    regFind (lineOff (normOff off.toNat)) = some (r, 0) ∧ r.base ≠ 0x852000 ∧ gateHeld s r (normOff off.toNat) = true ∧
    holdsSem s p = true :=
  ⟨withSem (setEPort 0 { EPort.down with change := some (0, ⟨0, []⟩) } State.reset), .h0, 0x852008,
    ((regFind 0x852008).map (·.1)).getD row0, by decide +kernel⟩

/-! ### Hypotheses of the statements: rings, descriptors, slots and configuration -/

/-- Ring 0 of port H0 RUNNING, with its completion ring 0: 16 entries each, and a bit of SQ_CFG for a watched ring. -/
def ringUp (watched : Nat) (q : Sq) (s : State) : State :=
  setSq .h0 0 { q with st := 1 } (setRegW (cqOff .h0 0 8) 0 36 (setRegW (sqOff .h0 0 8) 0 (36 + 2 ^ 20 * watched)
    (modPort .h0 (fun x => { x with linkUp := true }) s)))

theorem wit_RingRegisters_doorbells : ∃ (s : State) (p : HPort) (i j : RingId) (v : W32), barUp s = true ∧
    bits v.toNat 15 0 < sqSize s p i.val ∧ sqSize s p j.val ≤ bits v.toNat 15 0 ∧ bits v.toNat 15 0 < cqSize s p i.val ∧
    cqSize s p j.val ≤ bits v.toNat 15 0 := ⟨setRegW (cqOff .h0 63 8) 0 5 (setRegW (sqOff .h0 63 8) 0 5 State.reset), .h0, 63, 0, 16, by decide +kernel⟩

/-- H1's write with H0's waiting behind it, at the first tie. -/
def tied (first : HPort) (early : Option HPort) : State :=
  { State.reset with
      pending := [.semReq .h0 5]
      host := { HostState.reset with sem := { Sem.free with tieFirst := first, servedEarly := early } } }

def semAfter (s : State) : Option (Option HPort × Nat × HPort × Option HPort) :=
  match exec (.semReq .h1 7) s with
  | .next t => some (t.host.sem.owner, t.host.sem.token, t.host.sem.tieFirst, t.host.sem.servedEarly)
  | _ => none

/-- The first tie goes to H0 though H1's write stands first in the queue (R335). -/
theorem test_semTie : semAfter (tied .h0 none) = some (some .h0, 5, .h1, some .h0) ∧
    semAfter (tied .h1 none) = some (some .h1, 7, .h0, none) ∧ semAfter (tied .h0 (some .h1)) = some (none, 0, .h0, none) := by
  decide +kernel

theorem wit_RingRegisters_tie : ∃ (s : State) (p : HPort), s.boot.straps.getLsbD 3 = false ∧ s.host.sem.servedEarly = none ∧
    s.host.sem.tieFirst ≠ p ∧ s.pending = [.semReq (otherPort p) 5] := ⟨tied .h0 none, .h1, by decide +kernel⟩

theorem wit_RingRegisters_tieWon : ∃ (s : State) (p : HPort), s.boot.straps.getLsbD 3 = false ∧ s.host.sem.servedEarly = none ∧
    s.host.sem.tieFirst = p ∧ s.pending = [.semReq (otherPort p) 5] := ⟨tied .h1 none, .h1, by decide +kernel⟩

theorem wit_RingRegisters_early : ∃ (s : State) (p : HPort), s.boot.straps.getLsbD 3 = false ∧ s.host.sem.servedEarly = some p :=
  ⟨tied .h0 (some .h1), .h1, by decide +kernel⟩

theorem wit_RingRegisters_snoop : ∃ (s : State) (p : HPort) (i : RingId), (getSq s p i.val).st = 1 ∧
    bit (regW s (sqOff p i.val 8) 0) 20 = true := ⟨ringUp 1 Sq.reset State.reset, .h0, 0, by decide +kernel⟩

theorem wit_RingRegisters_field : ∃ (p : HPort) (i : RingId) (r : RegRow) (f : RegField), regFind (sqOff p i.val 8) = some (r, 0) ∧
    f ∈ r.fields ∧ f.lo ≠ 5 := by
  have h : (regFind (sqOff .h1 63 8)).any (fun x => decide (x.2 = 0) && x.1.fields.any (fun f => decide (f.lo ≠ 5))) = true := by decide +kernel
  cases hx : regFind (sqOff .h1 63 8) with
  | none => rw [hx] at h; cases h
  | some x =>
    rw [hx, Option.any_some, Bool.and_eq_true, List.any_eq_true] at h
    obtain ⟨h0, f, hf, hl⟩ := h
    exact ⟨.h1, 63, x.1, f, by rw [show ((63 : RingId).val) = 63 from rfl, hx, ← of_decide_eq_true h0], hf, of_decide_eq_true hl⟩

/-- Below firmware stage 3, from it on, with EN set and clear. -/
theorem wit_RingRegisters_enable : ∃ s u : State, ∃ (p : HPort) (i j : RingId), bootStage s < 3 ∧ 3 ≤ bootStage u ∧
    bit (regW u (sqOff p i.val 8) 0) 5 = true ∧ bit (regW u (sqOff p j.val 8) 0) 5 = false ∧ bit (regW u (cqOff p i.val 8) 0) 5 = true ∧
    bit (regW u (cqOff p j.val 8) 0) 5 = false :=
  ⟨State.reset, ringUp 0 Sq.reset (setRegF 0x600000 0 2 0 3 State.reset), .h0, 0, 1, by decide +kernel⟩

theorem wit_RingRegisters_stopped : ∃ (s : State) (p : HPort) (i : RingId), (getSq s p i.val).st = 2 ∧ (getSq s p i.val).inflight = 0 :=
  ⟨setSq .h1 63 { Sq.reset with st := 2 } State.reset, .h1, 63, by decide +kernel⟩

theorem wit_RingRegisters_timer : ∃ (s : State) (p : HPort) (i : RingId) (g : Nat), (getCq s p i.val).since = some g ∧
    bits (regW s (cqOff p i.val 8) 0) 31 20 ≠ 0 ∧ bits (regW s (cqOff p i.val 8) 0) 13 6 ≠ 0 ∧
    g + usT (bits (regW s (cqOff p i.val 8) 0) 31 20) ≤ now s :=
  ⟨setCq .h0 3 { Cq.reset with since := some 0, unsignalled := 1 } (setRegW (cqOff .h0 3 8) 0 (36 + 2 ^ 6 + 2 ^ 20)
    { State.reset with gt := 2 ^ 95 }), .h0, 3, 0, by decide +kernel⟩

theorem wit_Descriptors_fetch : ∃ (s : State) (p : HPort) (i : RingId) (bs : Bytes), (getPort s p).linkUp = true ∧ canFetch s p i.val true = true ∧
    fetchTurn s p i.val = true ∧ bs.length = 64 ∧
    (bit (regW s (sqOff p i.val 8) 0) 20 && bit (bs.getD 1 0).toNat 7 != (getSq s p i.val).phase) = false :=
  ⟨ringUp 0 { Sq.reset with pi := 1 } State.reset, .h0, 0, List.replicate 64 0, by decide +kernel⟩

/-- A watched ring whose line is of the other phase. -/
theorem wit_Descriptors_watched : ∃ (s : State) (p : HPort) (i : RingId) (bs : Bytes), (getPort s p).linkUp = true ∧
    canFetch s p i.val true = true ∧ fetchTurn s p i.val = true ∧ bs.length = 64 ∧
    (bit (regW s (sqOff p i.val 8) 0) 20 && bit (bs.getD 1 0).toNat 7 != (getSq s p i.val).phase) = true :=
  ⟨ringUp 1 Sq.reset State.reset, .h0, 0, List.replicate 64 0, by decide +kernel⟩

/-- Ring 0 with one fetched descriptor, behind a window that lets every operation on every range pass. -/
def fetched (bs : Bytes) (s : State) : State :=
  let s := ringUp 0 { Sq.reset with fetched := [bs ++ List.replicate (64 - bs.length) 0] } s
  let w : ProtWin := { pl := 0, ops := 4095, tableLo := 0, tableHi := 255, base0 := 0, limit0 := 2 ^ 52, base1 := 0, limit1 := 0 }
  { s with host := { s.host with prot := [(0, w)] } }

/-- What DESCRIPTOR_ACCEPT makes of the fetched line `bs` at GT 0. -/
def acceptOf (s : State) (bs : Bytes) : Desc :=
  { port := .h0, ring := 0, bytes := bs, due := dueOf s (bNum bs 8 8), protGen := 0, stampNs := nowNs s, sub := 0, seq := 0, era := 0,
    entries := [], minSigs := 0, keys := [] }
def acceptTest (test : State → Desc → Bool) (s : State) : Bool :=
  match (getSq s .h0 0).fetched with
  | [bs] => (!bit (bNum bs 1 1) 0 || (getSq s .h0 0).inflight == 0) && test s (acceptOf s bs)
  | _ => false
def knownOp (d : Desc) : Bool := decide (dOp d ≠ 0 ∧ dOp d ≤ 12)
def winOf (s : State) : ProtWin := mapGetD ProtWin.closed (regF s (sqOff .h0 0 8) 0 17 12) s.host.prot
def passed (s : State) (d : Desc) : Bool := knownOp d && (reservedBad d.bytes).isNone && windowPasses (winOf s) d && (operandBad s d).isNone

/-- An opcode of none, a reserved byte set, a closed window, a bad operand, a launch time of none and a FENCE alone. -/
theorem wit_Descriptors_accept : acceptTest (fun _ d => !knownOp d) (fetched [] State.reset) = true ∧
    acceptTest (fun _ d => knownOp d && (reservedBad d.bytes).isSome) (fetched [8, 0, 0, 0, 1] State.reset) = true ∧
    acceptTest (fun s d => knownOp d && (reservedBad d.bytes).isNone && !windowPasses (winOf s) d)
      (let s := fetched [8] State.reset
       { s with host := { s.host with prot := [] } }) = true ∧
    acceptTest (fun s d => knownOp d && (reservedBad d.bytes).isNone && windowPasses (winOf s) d && (operandBad s d).isSome)
      (fetched ([9] ++ List.replicate 15 0 ++ [4]) State.reset) = true ∧
    acceptTest (fun s d => passed s d && dLaunch d == 0) (fetched [8, 1] State.reset) = true := by decide +kernel

/-- A launch time with entries for it, one that has passed, and a die without an entry. -/
theorem wit_Descriptors_launch :
    acceptTest (fun s d => passed s d && dLaunch d != 0 && decide (now s < nsT (dLaunch d)) && (allocLaunch (descDies s d) (dLaunch d) s).isSome)
      (fetched [8, 0, 0, 0, 0, 0, 0, 0, 1] State.reset) = true ∧
    acceptTest (fun s d => passed s d && dLaunch d != 0 && decide (nsT (dLaunch d) ≤ now s))
      (fetched [8, 0, 0, 0, 0, 0, 0, 0, 1] { State.reset with gt := 2 ^ 60 }) = true := by decide +kernel

theorem mapGet_held (k n a x : Nat) (h : a ≤ x ∧ x < a + n) : mapGet (k + x) ((List.range' a n).map (fun i => (k + i, 0))) = some 0 := by
  induction n generalizing a with
  | zero => omega
  | succ n ih =>
    simp only [List.range'_succ, List.map_cons, mapGet]
    split
    · rfl
    · rename_i hne
      exact ih (a + 1) ⟨by simp at hne; omega, by omega⟩

def withLaunches (m : List (Nat × Nat)) (s : State) : State := { s with host := { s.host with launch := m } }
def launches : List (Nat × Nat) := (List.range' 1 1023).map (fun i => (4096 + i, 0))

/-- Every entry of a die's launch table is taken. -/
theorem allocLaunch_none (d : Nat) (m : List (Nat × Nat)) (gt : Nat) (s : State) (hm : ∀ x, 1 ≤ x ∧ x < 1024 → mapGet (1024 * d + x) m = some 0) :
    allocLaunch [d] gt (withLaunches m s) = none := by
  have h : freeIx (withLaunches m s) d = none := by
    unfold freeIx
    refine List.find?_eq_none.mpr fun x hx => ?_
    have e : mapGet (1024 * d + x) (withLaunches m s).host.launch = some 0 := hm x (by have := List.mem_range'_1.mp hx; omega)
    simp [e]
  simp [allocLaunch, h]
theorem allocLaunch_full (gt : Nat) (s : State) : allocLaunch [4] gt (withLaunches launches s) = none :=
  allocLaunch_none 4 launches gt s (fun x h => mapGet_held 4096 1023 1 x ⟨h.1, by omega⟩)

theorem wit_Descriptors_noEntry : ∃ s : State,
    acceptTest (fun s d => passed s d && dLaunch d == 1 && descDies s d == [4]) s = true ∧ allocLaunch [4] 1 s = none :=
  ⟨withLaunches launches (fetched [12, 0, 0, 0, 0, 0, 0, 0, 1] State.reset), by decide +kernel, allocLaunch_full 1 _⟩

/-- A completion ring is disabled. -/
theorem wit_RingRegisters_cqDisable : ∃ (s : State) (p : HPort) (i : RingId) (cfg : W32), bit (regW s (cqOff p i.val 8) 0) 5 = true ∧
    bit cfg.toNat 5 = false ∧ barOpen s (cqOff p i.val 8) = true :=
  ⟨setRegW (cqOff .h1 63 8) 0 36 State.reset, .h1, 63, 4, by decide +kernel⟩

/-- An INFER of a body of no bytes at due time 0, and a later one that a worker turns away at once. -/
def infer0 : Desc := descOf [5]
def inferFirst (s : State) : Option (Desc × List Desc) :=
  takeFirst (fun d => dOp d == 5 && (s.grp.role == 2 || s.grp.role == 3 || descDue s d) && dNum d 32 4 == 0) s.host.inbox
theorem wit_Descriptors_infer : ∃ (s u v : State) (d : Desc), inferFirst s = some (d, []) ∧ s.grp.role = 2 ∧ descDue s d = false ∧
    inferFirst u = some (infer0, []) ∧ u.grp.role ≠ 2 ∧ u.grp.role ≠ 3 ∧ unitActive u (ucNet .n0) = false ∧ dNum infer0 48 4 < 64 ∧
    inferFirst v = some (infer0, []) ∧ v.grp.role ≠ 2 ∧ v.grp.role ≠ 3 ∧ unitActive v (ucNet .n0) = true ∧
    freeReq v (portDie infer0.port) = some 0 :=
  ⟨withInbox { infer0 with due := 9 } { State.reset with grp := { State.reset.grp with role := 2 } },
    withInbox infer0 (setUnit (ucNet .n0) 1 0 State.reset), withInbox infer0 State.reset, { infer0 with due := 9 }, by decide +kernel⟩


/-- A LOAD_IMAGE of a size into slot A. -/
def dLoad (size : Nat) : Desc := descOf ([1] ++ List.replicate 31 0 ++ toLE 8 size)
def slotSt (st : Nat) (s : State) : State := { s with slots := famSet s.slots 0 { Slot.empty with st := st } }

/-- An ACTIVE slot, an empty image, and an image for an EMPTY slot. -/
theorem wit_ModelSlots_load : (∃ s s' : State, ∃ d : Desc, takeDesc (fun d => dOp d == 1) s = some (d, s') ∧
      (getSlot s (dSlot d).val).st ≠ 0 ∧ (getSlot s (dSlot d).val).st ≠ 2) ∧
    (∃ s s' : State, ∃ d : Desc, takeDesc (fun d => dOp d == 1) s = some (d, s') ∧ (getSlot s (dSlot d).val).st = 2 ∧ dNum d 32 8 = 0) ∧
    ∃ s s' : State, ∃ d : Desc, takeDesc (fun d => dOp d == 1) s = some (d, s') ∧ (getSlot s (dSlot d).val).st = 0 ∧ dNum d 32 8 ≠ 0 :=
  ⟨⟨withInbox (dLoad 1024) (slotSt 3 State.reset), _, dLoad 1024, rfl, by decide +kernel⟩,
    ⟨withInbox (dLoad 0) (slotSt 2 State.reset), _, dLoad 0, rfl, by decide +kernel⟩,
    ⟨withInbox (dLoad 1024) State.reset, _, dLoad 1024, rfl, by decide +kernel⟩⟩

/-- An envelope without signatures, of an image of 1,024 bytes, around a digest. -/
def env0 (digest : Bytes) : Bytes := (toLE 4 0x4D425A46 ++ [1, 0, 0, 0] ++ toLE 8 1024) ++ (digest ++ List.replicate 960 0)

/-- The digest of no bytes, byte by byte. -/
def noDigest : Bytes := (List.range 48).map (fun i => (Config.sha384 []).getD i 0)
theorem noDigest_eq : noDigest = Config.sha384 [] := by
  have hl : (Config.sha384 []).length = 48 := by simp [Config.sha384]
  apply List.ext_getElem (by simp [noDigest, hl])
  intro i h1 h2
  simp [noDigest, List.getD_eq_getElem?_getD, List.getElem?_eq_getElem h2]

theorem env0_digest (d : Bytes) (h : d.length = 48) : ((env0 d).drop 16).take 48 = d := by
  unfold env0
  rw [List.drop_left' (by decide), List.take_left' h]

theorem env0_length (d : Bytes) (h : d.length = 48) : (env0 d).length = 1024 := by
  unfold env0
  rw [List.length_append, List.length_append (as := d), h, List.length_replicate]
  decide

theorem env0_bNum (d : Bytes) (o n : Nat) (h : o + n ≤ 16) :
    bNum (env0 d) o n = bNum (toLE 4 0x4D425A46 ++ [1, 0, 0, 0] ++ toLE 8 1024) o n := by
  have hl : (toLE 4 0x4D425A46 ++ [1, 0, 0, 0] ++ toLE 8 1024).length = 16 := by decide
  unfold bNum env0
  rw [List.drop_append_of_le_length (by omega), List.take_append_of_le_length (by rw [List.length_drop]; omega)]

theorem env0_zero (d : Bytes) (h : d.length = 48) (i : Nat) (hi : 64 ≤ i) : (env0 d).getD i 0 = 0 := by
  have hl : (toLE 4 0x4D425A46 ++ [1, 0, 0, 0] ++ toLE 8 1024).length = 16 := by decide
  unfold env0
  rw [List.getD_eq_getElem?_getD, List.getElem?_append_right (by omega), List.getElem?_append_right (by omega), List.getElem?_replicate]
  split <;> rfl

theorem env0_fits (d : Bytes) (h : d.length = 48) : envBad (env0 d) 1024 = none := by
  have h0 : (env0 d).getD 7 0 = 0 := by rfl
  unfold envBad
  simp only [env0_bNum d 6 1 (by omega), env0_bNum d 0 4 (by omega), env0_bNum d 4 2 (by omega), env0_bNum d 8 8 (by omega), h0,
    env0_length d h]
  have hz : ∀ o k, 64 ≤ o → ∀ x ∈ (List.range k).map (fun i => (o + i, (env0 d).getD (o + i) 0 != 0)), x.2 = false := by
    intro o k ho x hx
    obtain ⟨i, _, rfl⟩ := List.mem_map.mp hx
    simp only [env0_zero d h (o + i) (by omega)]
    rfl
  have hb : bNum (toLE 4 0x4D425A46 ++ [1, 0, 0, 0] ++ toLE 8 1024) 6 1 = 0 := by decide
  simp only [hb, Nat.not_lt_zero, if_false]
  generalize hf : firstFail _ = r
  have : r = none := by
    rw [← hf]
    unfold firstFail
    rw [Option.map_eq_none_iff, List.find?_eq_none]
    intro x hx
    rw [Bool.not_eq_true]
    simp only [List.mem_append] at hx
    rcases hx with (hx | hx) | hx
    · revert x
      decide
    · obtain ⟨l, hl, hx⟩ := List.mem_flatten.mp hx
      obtain ⟨i, _, rfl⟩ := List.mem_map.mp hl
      exact hz _ _ (by omega) x hx
    · exact hz _ _ (by omega) x hx
  rw [this]
  rfl

/-- Slot A loads: for signatures that count, at least `sigs`. -/
def loading (sigs : Nat) : State :=
  let s := slotSt 1 State.reset
  { s with host := { s.host with loads := [(0, { desc := { dLoad 1024 with minSigs := sigs }, prev := 0 })] } }
def loadD (sigs : Nat) : Desc := { dLoad 1024 with minSigs := sigs }
def sumsOf (env : Bytes) (d : Desc) : List Nat × Nat × Nat := signCount env (Config.sha384 []) d.keys
def readyFor (env : Bytes) (sigs : Nat) : State :=
  let s := setSlot 0 { getSlot (loading sigs) 0 with st := 0 } { loading sigs with host := { (loading sigs).host with loads := [] } }
  addCnt (cntSec 2) (sumsOf env (loadD sigs)).2.2 (addCnt (cntSec 1) (sumsOf env (loadD sigs)).2.1 s)
def checked (env : Bytes) (img : Image) : Nat × Option Nat :=
  contentCheck 0 (loadD 0) img (placeStands 0 img (readyFor env 0)).1 (clearSlot 0 (readyFor env 0))

/-- An envelope that is not one. -/
theorem wit_ModelSlots_end_format : ∃ (s : State) (slot : SlotId) (env content : Bytes) (l : Load) (o : Nat),
    mapGet slot.val s.host.loads = some l ∧ env.length = min 1024 (dNum l.desc 32 8) ∧ content.length = dNum l.desc 32 8 - 1024 ∧
    envBad env (dNum l.desc 32 8) = some o :=
  ⟨loading 0, 0, List.replicate 1024 0, [], { desc := loadD 0, prev := 0 }, 0, by decide +kernel⟩

/-- The digest of another content. -/
theorem wit_ModelSlots_end_digest : ∃ (s : State) (slot : SlotId) (env content : Bytes) (l : Load),
    mapGet slot.val s.host.loads = some l ∧ dNum l.desc 32 8 = 1024 ∧ env.length = 1024 ∧ content.length = 0 ∧ envBad env 1024 = none ∧
    Config.sha384 content ≠ (env.drop 16).take 48 := by
  obtain ⟨d, hd, hn⟩ : ∃ d : Bytes, d.length = 48 ∧ Config.sha384 [] ≠ d := by
    by_cases h : Config.sha384 [] = List.replicate 48 0
    · exact ⟨List.replicate 48 1, List.length_replicate, by rw [h]; decide⟩
    · exact ⟨List.replicate 48 0, List.length_replicate, h⟩
  exact ⟨loading 0, 0, env0 d, [], { desc := loadD 0, prev := 0 }, by decide +kernel, by decide +kernel, env0_length d hd, rfl, env0_fits d hd,
    by rw [env0_digest d hd]; exact hn⟩

/-- The right digest: too few signatures, an image that is accepted, and ones that are not. -/
theorem wit_ModelSlots_end_content : ∃ (s u : State) (slot : SlotId) (env content : Bytes) (l m : Load) (bad none_ : Image),
    mapGet slot.val s.host.loads = some l ∧ mapGet slot.val u.host.loads = some m ∧ dNum l.desc 32 8 = 1024 ∧ dNum m.desc 32 8 = 1024 ∧
    env.length = 1024 ∧ content.length = 0 ∧ envBad env 1024 = none ∧ Config.sha384 content = (env.drop 16).take 48 ∧
    (signCount env (Config.sha384 content) m.desc.keys).1.length < m.desc.minSigs ∧
    l.desc.minSigs ≤ (signCount env (Config.sha384 content) l.desc.keys).1.length ∧
    slot = 0 ∧ l.desc = loadD 0 ∧ (checked env image0).1 = 0 ∧ checked env bad = (stFormat, some 1024) ∧
    checked env none_ = (stFormat, none) := by
  have hd : noDigest.length = 48 := by simp [noDigest]
  refine ⟨loading 0, loading 1, 0, env0 noDigest, [], { desc := loadD 0, prev := 0 }, { desc := loadD 1, prev := 0 },
    { image0 with tables := [(1024, [])] }, { image0 with regions := [{ first := 0, count := 1, kind := 0 }] }, by decide +kernel,
    by decide +kernel, by decide +kernel, by decide +kernel, env0_length _ hd, rfl, env0_fits _ hd, ?_,
    by decide +kernel, by decide +kernel, rfl, rfl, by decide +kernel, by decide +kernel, by decide +kernel⟩
  rw [env0_digest _ hd, noDigest_eq]

def dActivate (due : Nat) : Desc := { descOf [2] with due := due }

/-- An ACTIVATE with a due time waits, and a test holds of it. -/
def actTest (test : State → Desc → State → Bool) (due : Nat) (s : State) : Bool :=
  match takeDescAny (fun d => dOp d == 2) (withInbox (dActivate due) s) with
  | some (e, s') => test (withInbox (dActivate due) s) e s'
  | none => false
def slotReady (s : State) (d : Desc) : Bool :=
  let x := getSlot s (dSlot d).val
  canActivate s d && !x.reload && x.image.all (fun im => x.st != 2 || standsHeld s (dSlot d) im)

/-- An EMPTY slot; a stand that finds no room; a launch edge to come; an ACTIVE slot; a READY one. -/
theorem wit_ModelSlots_activate : actTest (fun s d _ => !canActivate s d) 0 State.reset = true ∧
    actTest (fun s d s' => canActivate s d && (beginReload (dSlot d) s').1 != 0) 0
      (withImage { image0 with stands := [standObj] } (onCore (fun x =>
        { x with te := { x.te with segs := [(0, { seg0 with count := 131072, slot := 1 })] } }))) = true ∧
    actTest (fun s d _ => slotReady s d && d.due != 0) 1 (withImage image0 State.reset) = true ∧
    actTest (fun s d _ => slotReady s d && d.due == 0 && (getSlot s (dSlot d).val).st == 3) 0 (slotSt 3 State.reset) = true ∧
    actTest (fun s d _ => slotReady s d && d.due == 0 && (getSlot s (dSlot d).val).st != 3) 0 (withImage image0 State.reset) =
      true := by decide +kernel

/-- A change at its launch edge, with nothing else due there. -/
def alone (x : Sched) (s : State) : State := { s with host := { s.host with sched := [x] }, gt := 5 }
def aloneAt (s : State) (x : Sched) : Bool :=
  s.host.sched == [x] && decide (x.desc.due ≤ now s) && s.host.protPending.all (fun p => decide (now s < p.due)) && dueBatches s == [] &&
    dueReams s == [] && !s.grp.toManager && !s.grp.toLeave

theorem wit_ModelSlots_edge : ∃ (s u : State) (x : Sched), x.kind = .activate (dSlot x.desc) ∧ aloneAt s x = true ∧ slotReady s x.desc = true ∧
    (getSlot s (dSlot x.desc).val).st = 3 ∧ aloneAt u x = true ∧ slotReady u x.desc = true ∧ (getSlot u (dSlot x.desc).val).st = 2 :=
  ⟨alone { desc := dActivate 5, kind := .activate 0 } (slotSt 3 State.reset),
    alone { desc := dActivate 5, kind := .activate 0 } (withImage image0 State.reset), { desc := dActivate 5, kind := .activate 0 },
    by decide +kernel⟩

def reloading (sched : List Sched) : State :=
  let s := { State.reset with slots := famSet State.reset.slots 0 { Slot.empty with st := 3, reload := true } }
  { s with host := { s.host with sched := sched } }

theorem wit_ModelSlots_reload : ∃ (s u v : State) (slot : SlotId) (x : Sched), (getSlot s slot.val).reload = false ∧
    (getSlot u slot.val).reload = true ∧ dueSwitches (setSlot slot.val { getSlot u slot.val with reload := false } u) = [] ∧
    (getSlot v slot.val).reload = true ∧
    (let w := setSlot slot.val { getSlot v slot.val with reload := false } v
     dueSwitches w = [x] ∧ x.kind = .activate (dSlot x.desc) ∧ canActivate w x.desc = true ∧ (getSlot v (dSlot x.desc).val).st = 3) :=
  ⟨State.reset, reloading [], reloading [{ desc := dActivate 0, kind := .activate 0 }], 0, { desc := dActivate 0, kind := .activate 0 },
    by decide +kernel⟩

theorem wit_ModelSlots_drained : ∃ (s : State) (slot : SlotId), (getSlot s slot.val).st = 4 ∧ (getSlot s slot.val).bound = 0 ∧
    (∀ r ∈ (endReams s).reams, r.slot ≠ slot) ∧ slotSamples s slot = false :=
  ⟨slotSt 4 (withReam { ream0 with cores := [] } State.reset), 0, by decide +kernel⟩

theorem wit_ModelSlots_samples : ∃ (s : State) (slot : SlotId), slotSamples s slot = true :=
  ⟨{ State.reset with flow := { FlowState.empty with samples := [smp0] } }, 0, by decide +kernel⟩

/-- Core 255 takes over the segment of core 0, which is fenced; with 16 segments of its own it cannot. -/
def moving (segs : List (Nat × SegEntry)) : State :=
  let s := modCore 255 (fun x => { x with te := { x.te with segs := segs } }) (withStand State.reset)
  let s := { s with canopy := { s.canopy with coreMap := [(0, 255)] } }
  setUnit (unitCode 2 0) 2 0 s
def moves (s : State) (held : Bool) : Bool :=
  match (getCore s 0).te.segs.find? (fun p => (standOf s p.2.slot p.2.stand).isNone || (moveTarget s 0 p.2).isSome) with
  | some (n, e) => n == 0 && e == seg0 && standOf s e.slot e.stand == some standObj && segCore s standObj e.seg == 255 && coreActive s 255 &&
      (holdSeg { e with base := 0 } (segWords e.slot standObj e.seg s).1 (getCore s 255).te).isSome == held
  | none => false

theorem wit_ModelSlots_move : ∃ s u : State, moves s true = true ∧ moves u false = true :=
  ⟨moving [], moving ((List.range 16).map (fun n => (n, { seg0 with slot := 1, base := n }))), by decide +kernel⟩

/-- The segment of a stand that no slot holds. -/
theorem wit_ModelSlots_dropped : ∃ s : State, (getCore s 0).te.segs.find? (fun p =>
    (standOf s p.2.slot p.2.stand).isNone || (moveTarget s 0 p.2).isSome) = some (0, seg0) ∧ standOf s seg0.slot seg0.stand = none :=
  ⟨onCore (fun x => { x with te := { x.te with segs := [(0, seg0)] } }), by decide +kernel⟩

/-- A configuration block of FIELD entries, by its CRC. -/
def cfgBlk (overlay : Bool) (number : Nat) (ents : List (Nat × Nat)) (crc : Nat) : Bytes :=
  toLE 4 0x46435A46 ++ toLE 1 1 ++ toLE 1 (b2n overlay) ++ toLE 2 number ++ toLE 4 ((if overlay then 64 else 128) + 16 * ents.length) ++
    toLE 4 ents.length ++ List.replicate 44 0 ++ toLE 4 crc ++ (if overlay then [] else List.replicate 64 0) ++
    (ents.map (fun e => toLE 2 3 ++ toLE 2 e.1 ++ toLE 4 0 ++ toLE 8 e.2)).flatten
def ovl5 : Bytes := cfgBlk true 5 [] 3738397526
def ovl5Role : Bytes := cfgBlk true 5 [(1, 2)] 4195797505
def bcb0 : Bytes := cfgBlk false 0 [] 2679428714
def bcbRole : Bytes := cfgBlk false 0 [(1, 2)] 4263237662
def bcbWindow : Bytes := cfgBlk false 0 [(2, 2000)] 670579185
def cfgB (number : Nat) (ents : List (Nat × Nat)) : CfgBlock :=
  { number := number, flow := [], regions := [], entries := ents.map (fun e => { kind := 3, field := e.1, off := 0, value := e.2 }) }

/-- OVERLAY: an action, a number, a mask, EXPECT, a length and a launch edge. -/
def dOverlay (action number mask expect len due : Nat) : Desc :=
  let bs := [3] ++ List.replicate 15 0 ++ toLE 1 action ++ toLE 1 number ++ toLE 2 mask ++ toLE 4 expect ++ List.replicate 8 0 ++ toLE 4 len
  { descOf bs with due := due }

/-- Overlays `stored` and `applied`. -/
def withCfg (stored : List (Nat × Bytes)) (applied : Nat) (s : State) : State :=
  { s with host := { s.host with cfg := { s.host.cfg with stored := stored, applied := applied } } }

/-- A manager with a worker. -/
def peer1 : Peer :=
  { st := 2, port := 0, mac := 0, ident := 7, eligible := true, aligned := true, load := 0, hashA := 0, hashB := 0, tgen := 0, hbNs := 0, hbTx := 0,
    heard := 0, nextSeq := 0, expect := 0, unacked := [], waiting := [], copies := [] }
def managing (s : State) : State := { s with grp := { s.grp with role := 1, peers := [(1, peer1)] } }

/-- A descriptor of an OVERLAY action waits, and a test holds of it. -/
def ovlTest (action : Nat) (test : State → Desc → State → Bool) (d : Desc) (s : State) : Bool :=
  match takeDescAny (isOverlay action) (withInbox d s) with
  | some (e, s') => test (withInbox d s) e s'
  | none => false
def otherGen (s : State) (d : Desc) : Bool := dNum d 20 4 != 0xFFFFFFFF && dNum d 20 4 != s.host.cfg.gen

/-- The block of an OVERLAY action 0 parses, with the number that the descriptor names. -/
def storeOk (block : Bytes) (d : Desc) (s' : State) : Bool :=
  dNum d 17 1 ≤ 15 && (parseBlock true (some (dNum d 17 1)) (dNum d 32 4) block s').toOption.isSome
def storedCfg (block : Bytes) (s : State) (d : Desc) : Cfg :=
  { s.host.cfg with stored := mapSet (dNum d 17 1) (block.take (dNum d 32 4)) s.host.cfg.stored }

/-- A number of no overlay; no block; a block of another number. -/
theorem wit_Configuration_store_bad :
    ovlTest 0 (fun _ d _ => decide (15 < dNum d 17 1)) (dOverlay 0 16 0 0 64 0) State.reset = true ∧
    ovlTest 0 (fun _ d s' => dNum d 17 1 ≤ 15 && !storeOk [] d s') (dOverlay 0 15 0 0 0 0) State.reset = true ∧
    ovlTest 0 (fun _ d s' => dNum d 17 1 ≤ 15 && !storeOk ovl5 d s') (dOverlay 0 15 0 0 64 0) State.reset = true := by decide +kernel

/-- A launch edge to come, another generation, and the three outcomes. -/
theorem wit_Configuration_store :
    ovlTest 0 (fun _ d s' => storeOk ovl5 d s' && d.due != 0) (dOverlay 0 5 0 0 64 1) State.reset = true ∧
    ovlTest 0 (fun s d s' => storeOk ovl5 d s' && d.due == 0 && otherGen s d) (dOverlay 0 5 0 1 64 0) State.reset = true ∧
    ovlTest 0 (fun s d s' => storeOk ovl5 d s' && d.due == 0 && !otherGen s d && !bit s.host.cfg.applied (dNum d 17 1))
      (dOverlay 0 5 0 0 64 0) State.reset = true := by decide +kernel
theorem wit_Configuration_store_applied :
    ovlTest 0 (fun s d s' => storeOk ovl5Role d s' && d.due == 0 && !otherGen s d && bit s.host.cfg.applied (dNum d 17 1) &&
      roleRefused (storedCfg ovl5Role s d) s') (dOverlay 0 5 0 0xFFFFFFFF 80 0) (withCfg [(5, ovl5)] 32 (managing State.reset)) = true ∧
    ovlTest 0 (fun s d s' => storeOk ovl5 d s' && d.due == 0 && !otherGen s d && bit s.host.cfg.applied (dNum d 17 1) &&
      !roleRefused (storedCfg ovl5 s d) s' && (mapGet 1 (effFields (storedCfg ovl5 s d) s')).isNone)
      (dOverlay 0 5 0 0 64 0) (withCfg [(5, ovl5)] 32 State.reset) = true := by decide +kernel

/-- Overlays of a mask that are stored. -/
def allStored (s : State) (d : Desc) : Bool := (List.range 16).all (fun n => !bit (dNum d 18 2) n || (mapGet n s.host.cfg.stored).isSome)
def appliedCfg (s : State) (d : Desc) : Cfg := { s.host.cfg with applied := dNum d 18 2 }
theorem wit_Configuration_applySet :
    ovlTest 1 (fun _ d _ => d.due != 0) (dOverlay 1 0 32 0 0 1) State.reset = true ∧
    ovlTest 1 (fun s d _ => d.due == 0 && otherGen s d) (dOverlay 1 0 32 1 0 0) State.reset = true ∧
    ovlTest 1 (fun s d _ => d.due == 0 && !otherGen s d && !allStored s d) (dOverlay 1 0 32 0 0 0) State.reset = true ∧
    ovlTest 1 (fun s d s' => d.due == 0 && !otherGen s d && allStored s d && roleRefused (appliedCfg s d) s') (dOverlay 1 0 32 0 0 0)
      (withCfg [(5, ovl5Role)] 0 (managing State.reset)) = true ∧
    ovlTest 1 (fun s d s' => d.due == 0 && !otherGen s d && allStored s d && !roleRefused (appliedCfg s d) s') (dOverlay 1 0 32 0 0 0)
      (withCfg [(5, ovl5)] 0 State.reset) = true := by decide +kernel

def bcbCfg (block : Bytes) (s : State) (d : Desc) : Cfg := { s.host.cfg with bcb := some (block.take (dNum d 32 4)) }
def bcbSt (block : Bytes) (d : Desc) (s' : State) : Nat := (bcbCheck (dLaunch d) (blockOf false (block.take (dNum d 32 4)) s') s').1
def bcbOk (block : Bytes) (d : Desc) (s' : State) : Bool := (parseBlock false none (dNum d 32 4) block s').toOption.isSome

set_option maxRecDepth 100000 in
/-- No block; a launch edge to come; another generation; a window change without a launch time. -/
theorem wit_Configuration_bcb :
    ovlTest 2 (fun _ d s' => !bcbOk [] d s') (dOverlay 2 0 0 0 0 0) State.reset = true ∧
    ovlTest 2 (fun _ d s' => bcbOk bcb0 d s' && d.due != 0) (dOverlay 2 0 0 0 128 1) State.reset = true ∧
    ovlTest 2 (fun s d s' => bcbOk bcb0 d s' && d.due == 0 && otherGen s d) (dOverlay 2 0 0 1 128 0) State.reset = true ∧
    ovlTest 2 (fun s d s' => bcbOk bcbWindow d s' && d.due == 0 && !otherGen s d && bcbSt bcbWindow d s' != stOk)
      (dOverlay 2 0 0 0 144 0) State.reset = true := by decide +kernel

set_option maxRecDepth 100000 in
/-- A role change with a worker, and a block that takes effect. -/
theorem wit_Configuration_bcb_takes :
    ovlTest 2 (fun s d s' => bcbOk bcbRole d s' && d.due == 0 && !otherGen s d && bcbSt bcbRole d s' == stOk &&
      roleRefused (bcbCfg bcbRole s d) s') (dOverlay 2 0 0 0 144 0) (managing State.reset) = true ∧
    ovlTest 2 (fun s d s' => bcbOk bcb0 d s' && d.due == 0 && !otherGen s d && bcbSt bcb0 d s' == stOk && !roleRefused (bcbCfg bcb0 s d) s')
      (dOverlay 2 0 0 0 128 0) State.reset = true := by decide +kernel

/-- Each change at its launch edge. -/
theorem wit_Configuration_edge : aloneAt (alone { desc := dOverlay 0 5 0 0 64 5, kind := .store 5 ovl5 } State.reset)
      { desc := dOverlay 0 5 0 0 64 5, kind := .store 5 ovl5 } = true ∧
    aloneAt (alone { desc := dOverlay 1 0 0 0 0 5, kind := .applySet 0 } State.reset) { desc := dOverlay 1 0 0 0 0 5, kind := .applySet 0 } = true ∧
    aloneAt (alone { desc := dOverlay 2 0 0 0 128 5, kind := .bcb bcb0 } State.reset) { desc := dOverlay 2 0 0 0 128 5, kind := .bcb bcb0 } =
      true := by decide +kernel

/-- Stage 2 with the array filled, and copies of the configuration in flash. -/
def stage2 (x : CfgCopy) : State :=
  let s := setRegF 0x600000 0 2 0 2 State.reset
  { s with boot := { s.boot with filled := true, flash := { s.boot.flash with cfg := Vector.replicate 2 x } } }

theorem wit_Configuration_copies : ∃ s u v : State, ∃ x : CfgCopy, s.boot.filled = true ∧ bootStage s = 2 ∧
    (∀ x ∈ s.boot.flash.cfg.toList, cfgCopyOk s x = false) ∧ u.boot.filled = true ∧ bootStage u = 2 ∧ x ∈ u.boot.flash.cfg.toList ∧
    cfgCopyOk u x = true ∧ v.boot.fwUp = true ∧ v.boot.cfgDirty = true :=
  ⟨stage2 CfgCopy.empty, stage2 { CfgCopy.empty with crcOk := true },
    { State.reset with boot := { State.reset.boot with fwUp := true, cfgDirty := true } }, { CfgCopy.empty with crcOk := true }, by decide +kernel⟩

/-! ### Hypotheses of the statements: observation and attestation -/

/-- A descriptor waits, and a test holds of it. -/
def took (f : Desc → Bool) (test : State → Desc → Bool) (d : Desc) (s : State) : Bool :=
  match takeDesc f (withInbox d s) with
  | some (e, _) => test (withInbox d s) e
  | none => false
def tookAny (f : Desc → Bool) (test : State → Desc → Bool) (d : Desc) (s : State) : Bool :=
  match takeDescAny f (withInbox d s) with
  | some (e, _) => test (withInbox d s) e
  | none => false

/-- DUMP of tensor 0 at point 15: whether it disarms, its layer and the length of its buffer. -/
def dDump (disarm layer len : Nat) : Desc :=
  descOf ([6] ++ List.replicate 15 0 ++ toLE 1 15 ++ toLE 1 disarm ++ toLE 2 0 ++ toLE 4 0 ++ toLE 2 layer ++ toLE 2 0 ++ toLE 4 0 ++
    List.replicate 16 0 ++ toLE 4 len)

/-- Slot A ACTIVE with tensor 0, one line of core 0's tile memory. -/
def tensorX : TensorDesc := { tensor0 with parts := [.tile 0 0 1] }
def active (s : State) : State :=
  { s with slots := famSet s.slots 0 { Slot.empty with st := 3, image := some { image0 with tensors := [tensorX] } } }
def point0 : DumpPoint :=
  { desc := dDump 0 5 1024, slot := 0, tensor := 0, since := 0, seen := 0, marks := [], ends := [], ream := none, copied := [], op := 0,
    stampNs := 0, sub := 0, poison := false, stretched := false, gen := 0, reqIx := 0xFFFF, disarmed := false }
def withPoint (p : DumpPoint) (s : State) : State := { s with host := { s.host with dumps := [(15, p)] } }

def armTest (test : Option (SlotId × TensorDesc) → Desc → Bool) (d : Desc) (s : State) : Bool :=
  took (fun d => dOp d == 6 && !dDisarm d) (fun s d => (mapGet (dPoint d) s.host.dumps).isNone &&
    test ((activeSlot s).bind (fun sl => (tensorOf s sl (BitVec.ofNat 20 (dNum d 20 4))).map (fun t => (sl, t)))) d) d s

/-- An armed point; no tensor; another layer; a short buffer; a point that arms. -/
theorem wit_Dumps_arm :
    took (fun d => dOp d == 6 && !dDisarm d) (fun s d => (mapGet (dPoint d) s.host.dumps).isSome) (dDump 0 5 1024)
      (withPoint point0 State.reset) = true ∧
    armTest (fun f _ => f.isNone) (dDump 0 5 1024) State.reset = true ∧
    armTest (fun f d => f.any (fun x => !x.2.layers.contains (dLayer d))) (dDump 0 4 1024) (active State.reset) = true ∧
    armTest (fun f d => f.any (fun x => x.2.layers.contains (dLayer d) && dNum d 48 4 < dumpLen x.2.parts)) (dDump 0 5 143) (active State.reset) =
      true ∧
    armTest (fun f d => f.any (fun x => x.2.layers.contains (dLayer d) && dumpLen x.2.parts ≤ dNum d 48 4)) (dDump 0 5 144) (active State.reset) =
      true := by decide +kernel

/-- Core 0 has run layer 5 of ream 0. -/
def dumping (p : DumpPoint) : State :=
  withPoint p (withReam ream0 (active (onCore (setCtx 0 { Ctx.idle with lastLayer := 5, done := 1 }))))
def copyTest (p : DumpPoint) : Bool :=
  let s := dumping p
  (match mapGet 15 s.host.dumps, tensorOf s p.slot p.tensor, dumpReam s p 0 with
    | some q, some x, some r => q == p && x.tableOf.isNone && r == ream0 && x.parts[0]? == some (.tile 0 0 1) &&
        dumpCore s (.tile 0 0 1) 0 (dLayer p.desc) == some 0
    | _, _, _ => false)

/-- The dumping ream; another one; an occurrence before STEP. -/
theorem wit_Dumps_copy : ∃ p q r : DumpPoint, copyTest p = true ∧ p.copied = [] ∧ p.ream = none ∧ p.seen = dNum p.desc 28 4 ∧ p.marks = [] ∧
    copyTest q = true ∧ q.copied = [] ∧ q.ream = some 7 ∧ copyTest r = true ∧ r.copied = [] ∧ r.ream = none ∧ r.seen ≠ dNum r.desc 28 4 :=
  ⟨point0, { point0 with ream := some 7 }, { point0 with seen := 1 }, by decide +kernel⟩

theorem wit_Dumps_copyEnd : ∃ (s : State) (point : Fin 16) (p : DumpPoint) (x : TensorDesc) (seq : W32), mapGet point.val s.host.dumps = some p ∧
    tensorOf s p.slot p.tensor = some x ∧ p.ream = some seq ∧ p.copied.length = x.parts.length :=
  ⟨dumping { point0 with ream := some 0, copied := [0] }, 15, { point0 with ream := some 0, copied := [0] }, tensorX, 0, by decide +kernel⟩

theorem wit_Dumps_disarm :
    took (fun d => dOp d == 6 && dDisarm d) (fun s d => (mapGet (dPoint d) s.host.dumps).isNone) (dDump 1 0 0) State.reset = true ∧
    took (fun d => dOp d == 6 && dDisarm d) (fun s d => (mapGet (dPoint d) s.host.dumps).any (fun p => p.ream.isSome)) (dDump 1 0 0)
      (withPoint { point0 with ream := some 0 } State.reset) = true ∧
    took (fun d => dOp d == 6 && dDisarm d) (fun s d => (mapGet (dPoint d) s.host.dumps).any (fun p => p.ream.isNone)) (dDump 1 0 0)
      (withPoint point0 State.reset) = true := by decide +kernel

def dFreeze : Desc := descOf ([8] ++ List.replicate 15 0 ++ [1])
def dSnap (len : Nat) : Desc := descOf ([7] ++ List.replicate 23 0 ++ toLE 4 len)
def fires (s : State) : Bool := s.freeze.seq != 0 && s.freeze.gt == now s
def locked (s : State) : Bool := (snapLocks s).any (fun d => d.stampNs != nowNs s)
def frozenAt (s : State) : State := { s with freeze := { s.freeze with seq := 1, gt := now s } }
def copying (s : State) : State := { s with host := { s.host with snapReads := [{ dSnap 157760 with stampNs := 9 }] } }

/-- A freeze to come, a second one of an edge, one that a copy holds off, and one that samples. -/
theorem wit_Freezes_freeze :
    tookAny (fun d => dOp d == 8) (fun _ d => d.due != 0) { dFreeze with due := 1 } State.reset = true ∧
    tookAny (fun d => dOp d == 8) (fun s d => d.due == 0 && fires s) dFreeze (frozenAt State.reset) = true ∧
    tookAny (fun d => dOp d == 8) (fun s d => d.due == 0 && !fires s && locked s) dFreeze (copying State.reset) = true ∧
    tookAny (fun d => dOp d == 8) (fun s d => d.due == 0 && !fires s && !locked s && bit (dNum d 16 1) 0) dFreeze State.reset = true := by
  decide +kernel

/-- A freeze at its launch edge; edges to which FREEZE_IN and the threshold have counted down. -/
theorem wit_Freezes_edge : aloneAt (alone { desc := { dFreeze with due := 5 }, kind := .freeze } State.reset)
    { desc := { dFreeze with due := 5 }, kind := .freeze } = true := by decide +kernel

def counting (inEdge thresh : Option Nat) : State :=
  { State.reset with freeze := { State.reset.freeze with inEdge := inEdge, thresh := thresh }, boot := { State.reset.boot with held := false } }
theorem wit_Freezes_tick : ∃ s u v : State, s.pending = [] ∧ s.boot.held = false ∧ s.freeze.inEdge = some 2 ∧ u.pending = [] ∧
    u.boot.held = false ∧ u.freeze.inEdge = some 1 ∧ u.freeze.seq = 0 ∧ snapLocks u = [] ∧ v.pending = [] ∧ v.boot.held = false ∧
    v.freeze.thresh = some 1 ∧ v.freeze.seq = 0 ∧ snapLocks v = [] :=
  ⟨counting (some 2) none, counting (some 1) none, counting none (some 1), by decide +kernel⟩

theorem wit_Freezes_match : ∃ s u v : State, ((bit (regW s 0x400040 0) 2 && decide (nsT (regQ s 0x400048 0) ≤ now s)) = false) ∧
    ((bit (regW u 0x400040 0) 2 && decide (nsT (regQ u 0x400048 0) ≤ now u)) = true) ∧
    ((bit (regW s 0x400040 0) 3 && threshHolds s) = false) ∧ ((bit (regW v 0x400040 0) 3 && threshHolds v) = true) :=
  ⟨State.reset, setRegW 0x400040 0 4 State.reset, setRegW 0x400040 0 8 State.reset, by decide +kernel⟩

theorem wit_Freezes_snapshot : took (fun d => dOp d == 7) (fun _ d => decide (dNum d 24 4 < 157760)) (dSnap 157759) State.reset = true ∧
    took (fun d => dOp d == 7) (fun _ d => decide (157760 ≤ dNum d 24 4)) (dSnap 157760) State.reset = true ∧
    (copying State.reset).host.snapReads = [{ dSnap 157760 with stampNs := 9 }] := by decide +kernel

/-- Tracing to the port and to a drain, a drain that is off, each port as the drain's, and N1 fenced. -/
theorem wit_TraceAndEvents_trace : ∃ s u v w : State, bit (regW s 0x400000 0) 0 = true ∧ bit (regW s 0x400000 0) 1 = false ∧
    unitActive s (ucNet .n1) = true ∧ bit (regW u 0x400000 0) 0 = true ∧ bit (regW u 0x400000 0) 1 = true ∧ unitActive u (ucNet .n1) = true ∧
    u.tport.drainOff = false ∧ bit (regW v 0x400000 0) 0 = true ∧ bit (regW v 0x400000 0) 1 = true ∧ unitActive v (ucNet .n1) = true ∧
    v.tport.drainOff = true ∧ barUp w = true ∧ drainPort w ≠ .h1 ∧ drainPort w = .h0 :=
  ⟨setRegW 0x400000 0 1 State.reset, setRegW 0x400000 0 3 State.reset,
    setRegW 0x400000 0 3 { State.reset with tport := { TracePort.reset with drainOff := true } }, State.reset, by decide +kernel⟩

theorem wit_TraceAndEvents_n1 : ∃ s : State, bit (regW s 0x400000 0) 0 = true ∧ unitActive s (ucNet .n1) = false :=
  ⟨setUnit (ucNet .n1) 1 0 (setRegW 0x400000 0 1 State.reset), by decide +kernel⟩

def ev0 (endGt : Nat) : EvRec :=
  { code := 0x100A, open_ := true, stretched := false, cut := false, saturated := false, seq := 0, boot := 0, firstGt := 0, lastGt := 0,
    endGt := endGt, count := 1, firstUnit := 0, lastUnit := 0, min_ := 0, max_ := 0, sum := 0, hist := [], base := 0, firstOp := 0, lastOp := 0,
    detail := [] }
def opened (endGt : Nat) (hold : Option Nat) : State :=
  { State.reset with recorder := { Recorder.empty with opened := [(0x100A, ev0 endGt)], hold := hold } }

theorem wit_TraceAndEvents_records : ∃ (s u v : State) (code : W16) (r q : EvRec), mapGet code.toNat s.recorder.opened = some r ∧
    s.recorder.hold = none ∧ nowNs s < r.endGt ∧ mapGet code.toNat u.recorder.opened = some q ∧ u.recorder.hold = none ∧ q.endGt ≤ nowNs u ∧
    mapGet code.toNat v.recorder.opened = some q ∧ v.recorder.hold ≠ none ∧ q.endGt ≤ nowNs v :=
  ⟨opened 1 none, opened 0 none, opened 0 (some 0), 0x100A, ev0 1, ev0 0, by decide +kernel⟩

def dEvr (hold : Nat) : Desc := descOf ([11] ++ List.replicate 15 0 ++ toLE 4 hold ++ toLE 4 1)
theorem wit_TraceAndEvents_read :
    took (fun d => dOp d == 11 && !bit (dNum d 16 1) 0) (fun _ _ => true) (dEvr 0) State.reset = true ∧
    took (fun d => dOp d == 11 && bit (dNum d 16 1) 0) (fun s _ => s.recorder.hold.isSome) (dEvr 1) (opened 0 (some 0)) = true ∧
    took (fun d => dOp d == 11 && bit (dNum d 16 1) 0) (fun s _ => s.recorder.hold.isNone) (dEvr 1) State.reset = true := by decide +kernel

def reading (hold : Bool) : State :=
  let s := { opened 0 (if hold then some 0 else none) with gt := 2 ^ 95 }
  { s with host := { s.host with evrReads := [{ desc := dEvr (b2n hold), hold := hold, got := [], result := 0 }] } }
theorem wit_TraceAndEvents_complete : ∃ (s u : State) (e f : EvrRead) (g : Nat), s.host.evrReads = [e] ∧ e.hold = false ∧ u.host.evrReads = [f] ∧
    f.hold = true ∧ u.recorder.hold = some g ∧ takeFirst (fun e => e.hold) u.host.evrReads = some (f, []) ∧ g + msT 100 ≤ now u :=
  ⟨reading false, reading true, { desc := dEvr 0, hold := false, got := [], result := 0 }, { desc := dEvr 1, hold := true, got := [], result := 0 }, 0,
    by decide +kernel⟩

def dAttest (len : Nat) : Desc := descOf ([12] ++ List.replicate 55 0 ++ toLE 4 len)
theorem wit_Attestation_attest : took (fun d => dOp d == 12) (fun _ d => decide (dNum d 56 4 < 512)) (dAttest 511) State.reset = true ∧
    took (fun d => dOp d == 12) (fun _ d => decide (512 ≤ dNum d 56 4)) (dAttest 512) State.reset = true := by decide +kernel

def asked (whom : AttestTo) : State :=
  { State.reset with boot := { State.reset.boot with attest := [{ whom := whom, nonce := List.replicate 32 0 }] } }
theorem wit_Attestation_report : ∃ (s u : State) (a b : AttestReq) (d : Desc) (p : HPort), s.boot.attest = [a] ∧ a.whom = .desc d ∧
    u.boot.attest = [b] ∧ b.whom = .doe p :=
  ⟨asked (.desc (dAttest 512)), asked (.doe .h1), { whom := .desc (dAttest 512), nonce := List.replicate 32 0 },
    { whom := .doe .h1, nonce := List.replicate 32 0 }, dAttest 512, .h1, by decide +kernel⟩

/-- A certificate of 3 bytes: none of its number, an offset past its end, and one at it. -/
theorem wit_Attestation_certs : ∃ (s : State) (none_ dw2 past dw3 : W32) (c : Bytes), s.boot.certs[none_.toNat]? = none ∧
    s.boot.certs[dw2.toNat]? = some c ∧ c.length < past.toNat ∧ dw3.toNat ≤ c.length :=
  ⟨{ State.reset with boot := { State.reset.boot with certs := [[1, 2, 3]] } }, 1, 0, 4, 3, [1, 2, 3], by decide +kernel⟩

/-! ### Hypotheses of the statements: the group -/

/-- Port 0 is UP and a group port; the role, the members, the frames received. -/
def grouped (role : Nat) (peers : List (Nat × Peer)) (rx : List GrpRx) : State :=
  let s := laneUp 0 State.reset
  let s := { s with host := { s.host with cfg := { s.host.cfg with fields := [(0x12, 1)] } } }
  { s with grp := { s.grp with role := role, peers := peers, rx := rx, epoch := 2047 } }

def ghdr (typ : Byte) (epoch seq : W32) (src dst : PeerId) : GrpHdr :=
  { version := 1, typ := typ, len := 0, groupId := 0, epoch := epoch, srcId := src, srcUnassigned := false, dstId := dst, dstUnassigned := false,
    seq := seq, ack := 0 }
def rxOf (b : GrpBody) (src : PeerId) : GrpRx :=
  { port := 0, gtNs := 0, smac := 0, hdr := ghdr (BitVec.ofNat 8 (grpType b)) 2047 0 src 0, body := b }
def unsent : Unacked := { seq := 0, body := .ack, sent := 0 }
def later (s : State) : State := { s with gt := 2 ^ 94 }

def member (s : State) (h : GrpHdr) : Bool := hasId s && !h.srcUnassigned
def forUs (s : State) (h : GrpHdr) : Bool := !hasId s || h.dstUnassigned || h.dstId.val == s.grp.id

/-- The shortest frame of the group for port 0 that carries a header. -/
def gframe (s : State) (h : GrpHdr) : Bytes :=
  toBE 6 (portMac s 0) ++ toBE 6 0x020000000001 ++ toBE 2 (regF s (pp 0 0x80000C) 0 15 0) ++ grpHdrBytes h ++ List.replicate 18 0
def gparsed (s : State) (h : GrpHdr) : Parsed := portParse s 0 (gframe s h)
def gpayload (s : State) (h : GrpHdr) : Bytes := ((gframe s h).take ((gframe s h).length - 4)).drop (14 + 4 * (gparsed s h).tags)
def mine (s : State) (h : GrpHdr) : Bool :=
  let kind := h.typ.toNat
  s.grp.role != 0 && h.groupId == groupId s && h.version == 1 && (decide (1 ≤ kind ∧ kind ≤ 5) || decide (0x10 ≤ kind ∧ kind ≤ 0x1A)) &&
    decide (32 + h.len.toNat ≤ (gpayload s h).length)
/-- Port 0 takes the frame, and its header is read as it was made. -/
def ups (s : State) (h : GrpHdr) : Bool :=
  let bs := gframe s h
  let p := gparsed s h
  isGroup s 0 p && p.etype != 0x8808 && (learnMode s 0 == 0 || bit p.smac 40) && portUp s 0 && !(getEPort s 0).pause && !rxOutranked s 0 0 &&
    decide (64 ≤ bs.length) && decide (bs.length ≤ portMaxFrame s 0) && hasCells s (laneDie 0) bs.length false && grpHdrOf (gpayload s h) == h
def gets (s : State) (h : GrpHdr) : Bool := ups s h && decide (s.grp.rx.length < 4096)
def canSendB (g k : Nat) (b : GrpBody) (s : State) : Bool :=
  let q := bits (cfgField s 0x15 0) 3 0
  let n := cellsOfLen (max 64 (50 + (bodyBytes b).length))
  !s.grp.stopped && unitActive s (ucNet .n0) && portUp s g && decide (cellsUsed s (laneDie g) + k * n + respReserve s (laneDie g) ≤ bufCells) &&
    decide (queueCells s g q + k * n ≤ bits (queueCfg s g q) 48 32) && (getQueue s g q).all (fun it => decide (it.frame < s.net.nextFrame))
theorem canSend_of (g k : Nat) (b : GrpBody) (s : State) (h : canSendB g k b s = true) : canSend g k b s := by
  simpa [canSendB, canSend, and_assoc] using h

theorem bodyLen_le (b : GrpBody) : (bodyBytes b).length ≤ 8192 := by
  cases b with
  | heartbeat => exact (by omega : 56 ≤ 8192)
  | ack => exact Nat.zero_le _
  | leave => exact Nat.zero_le _
  | probe => exact Nat.zero_le _
  | _ => exact Nat.le_trans (List.length_take_le _ _) (Nat.le_refl _)

/-- A body of any length can be sent by port 0 of a state that could send one of the greatest length. -/
theorem canSend_any (g k : Nat) (b : GrpBody) (s : State) (h1 : s.grp.stopped = false) (h2 : unitActive s (ucNet .n0) = true)
    (h3 : portUp s g = true) (h4 : cellsUsed s (laneDie g) + k * cellsOfLen 8242 + respReserve s (laneDie g) ≤ bufCells)
    (h5 : queueCells s g (bits (cfgField s 0x15 0) 3 0) + k * cellsOfLen 8242 ≤ bits (queueCfg s g (bits (cfgField s 0x15 0) 3 0)) 48 32)
    (h6 : getQueue s g (bits (cfgField s 0x15 0) 3 0) = []) : canSend g k b s := by
  have hb := bodyLen_le b
  have hc : cellsOfLen (max 64 (50 + (bodyBytes b).length)) ≤ cellsOfLen 8242 := by
    unfold cellsOfLen
    omega
  have hk : k * cellsOfLen (max 64 (50 + (bodyBytes b).length)) ≤ k * cellsOfLen 8242 := Nat.mul_le_mul_left k hc
  exact ⟨h1, h2, h3, by omega, by omega, by rw [h6]; simp⟩

/-- A frame of the group, and one of another EtherType. -/
theorem wit_GroupTransport_full : ∃ s : State, ups s (ghdr 5 2047 0 1 0) = true ∧ 4096 ≤ s.grp.rx.length ∧
    isGroup s 0 (portParse s 0 frame0) = false := ⟨grouped 1 [] (List.replicate 4096 (rxOf .ack 0)), by decide +kernel⟩

/-- No group; an older epoch; a frame for another device; a newer epoch at a manager and at a worker; no peer. -/
theorem wit_GroupTransport_receive : (let s := grouped 0 [] []; gets s (ghdr 5 2047 0 1 0) && !mine s (ghdr 5 2047 0 1 0)) = true ∧
    (let s := grouped 1 [] []; let h := ghdr 5 1023 0 1 0; gets s h && mine s h && member s h && decide (1023 < s.grp.epoch.toNat)) = true ∧
    (let s := grouped 1 [] []; let h := ghdr 5 2047 0 1 9; gets s h && mine s h && member s h && !forUs s h) = true ∧
    (let s := grouped 1 [] []; let h := ghdr 5 3071 0 1 0; gets s h && mine s h && member s h && forUs s h) = true ∧
    (let s := grouped 2 [] []; let h := ghdr 5 3071 0 1 0; gets s h && mine s h && member s h && forUs s h && !s.grp.toManager && !s.grp.toLeave) =
      true ∧
    (let s := grouped 1 [] []; let h := ghdr 5 2047 0 1 0; gets s h && mine s h && member s h && forUs s h && (rxPeer s (rxOf .ack 1)).isNone) =
      true := by decide +kernel

/-- A frame of a member without a sequence, and ones in and out of order, that an ACK can answer. -/
theorem wit_GroupTransport_sequence : (let s := grouped 1 [(1, peer1)] []; let h := ghdr 5 2047 0 1 0
      gets s h && mine s h && forUs s h && rxPeer s (rxOf .ack 1) == some 1 && peer1.waiting.isEmpty && !sequenced 5) = true ∧
    (let s := grouped 1 [(1, peer1)] []; let h := ghdr 0x18 2047 0 1 0
      gets s h && mine s h && forUs s h && rxPeer s (rxOf .leave 1) == some 1 && sequenced 0x18 && h.seq == peer1.expect &&
        canSendB (peerPort s peer1) 1 .ack s) = true ∧
    (let s := grouped 1 [(1, peer1)] []; let h := ghdr 0x18 2047 7 1 0
      gets s h && mine s h && forUs s h && h.seq != peer1.expect) = true := by decide +kernel

/-- A frame that is not old enough to be sent again, and one that is. -/
theorem wit_GroupTransport_retransmit : ∃ (s u : State) (peer : PeerId) (p : Peer), getPeer s peer.val = some p ∧ p.unacked = [unsent] ∧
    now s < unsent.sent + usT 20 ∧ getPeer u peer.val = some p ∧ unsent.sent + usT 20 ≤ now u ∧
    canSendB (peerPort u p) 1 unsent.body u = true :=
  ⟨grouped 1 [(1, { peer1 with unacked := [unsent] })] [], later (grouped 1 [(1, { peer1 with unacked := [unsent] })] []), 1,
    { peer1 with unacked := [unsent] }, by decide +kernel⟩

/-- Frames that have been received; the manager's ACK of the last one that a leaving worker sent, and one before. -/
theorem wit_GroupTransport_frames : ∃ s u : State, (takeRx 5 s).isSome = true ∧ s.grp.leaving ≠ none ∧ getPeer s 0 = some peer1 ∧
    peer1.unacked = [] ∧ peer1.waiting = [] ∧
    (takeRx 5 u).isSome = true ∧ u.grp.leaving = none ∧ (takeRx 3 u).isSome = true ∧ (takeRx 0x1A u).isSome = true :=
  ⟨(let s := grouped 2 [(0, peer1)] [rxOf .ack 0]
    { s with grp := { s.grp with leaving := some 0 } }), grouped 2 [] [rxOf .ack 0, rxOf (.refuse 0) 0, rxOf .probe 0], by decide +kernel⟩

/-- What a joining device announces, a member's heartbeat and a holder's probe. -/
theorem wit_GroupTransport_sends : ∃ s u v : State, s.grp.role ≠ 3 ∧ u.grp.role = 3 ∧ u.grp.timeAhead = false ∧ u.canopy.handedOver = false ∧
    u.grp.lastAnnounce = none ∧ upGroupPorts u = [0] ∧ hasId u = false ∧ hasId s = true ∧ nowNs s / 100000 ≠ s.grp.lastHb / 100000 ∧
    getPeer s 1 = some peer1 ∧ canSendB (peerPort s peer1) s.grp.peers.length (heartbeatBody s peer1) s = true ∧
    u.grp.holder = false ∧ v.grp.holder = true ∧ v.grp.lost ≠ none ∧ v.grp.lastProbe = none ∧ upGroupPorts v = [0] ∧
    canSendB 0 (upGroupPorts v).length .probe v = true :=
  ⟨later (grouped 1 [(1, peer1)] []), grouped 3 [] [], (let s := grouped 2 [] []
    { s with grp := { s.grp with holder := true, lost := some 0 } }), by decide +kernel⟩

theorem wit_GroupTransport_announce : ∀ b : GrpBody, canSend 0 (upGroupPorts (grouped 3 [] [])).length b (grouped 3 [] []) := fun b =>
  canSend_any 0 _ b _ (by decide +kernel) (by decide +kernel) (by decide +kernel) (by decide +kernel) (by decide +kernel) (by decide +kernel)

/-- GROUP_CTL with an action and the numbers at 18 and 20. -/
def dGroup (action a b len : Nat) : Desc :=
  descOf ([10] ++ List.replicate 15 0 ++ toLE 2 action ++ toLE 2 a ++ toLE 2 b ++ List.replicate 10 0 ++ toLE 4 len)
def ctlTest (a : Nat) (test : State → Desc → Bool) (d : Desc) (s : State) : Bool :=
  took (fun d => dOp d == 10 && dNum d 16 1 == a) (fun s d => test s d) d s

/-- LIST, EVICT, SET_HOLDERS, HANDOVER and LEAVE at a device of another role. -/
theorem wit_GroupMembership_roles : ctlTest 0 (fun s _ => s.grp.role != 1) (dGroup 0 0 0 0) (grouped 0 [] []) = true ∧
    ctlTest 1 (fun s _ => s.grp.role != 1) (dGroup 1 0 0 0) (grouped 0 [] []) = true ∧
    ctlTest 2 (fun s _ => s.grp.role != 1) (dGroup 2 0 0 0) (grouped 0 [] []) = true ∧
    ctlTest 3 (fun s _ => s.grp.role != 1) (dGroup 3 0 0 0) (grouped 0 [] []) = true ∧
    ctlTest 4 (fun s _ => s.grp.role != 2) (dGroup 4 0 0 0) (grouped 0 [] []) = true := by decide +kernel

def holding (hs : List Nat) (s : State) : State := { s with grp := { s.grp with holders := hs } }

/-- At a manager with worker 1, READY: LIST, EVICT of 1 and of 1,023, SET_HOLDERS of 1 and of 0, HANDOVER to it and to no holder. -/
theorem wit_GroupMembership_manager : ctlTest 0 (fun s _ => s.grp.role == 1) (dGroup 0 0 0 16) (grouped 1 [(1, peer1)] []) = true ∧
    ctlTest 1 (fun s d => s.grp.role == 1 && dNum d 18 2 != 0 && (getPeer s (dNum d 18 2)).isSome) (dGroup 1 1 0 0) (grouped 1 [(1, peer1)] []) =
      true ∧
    ctlTest 1 (fun s d => s.grp.role == 1 && (getPeer s (dNum d 18 2)).isNone) (dGroup 1 1023 0 0) (grouped 1 [(1, peer1)] []) = true ∧
    ctlTest 2 (fun s d => s.grp.role == 1 && dNum d 18 2 == 1 && (getPeer s 1).any (·.st == 2) && dNum d 20 2 == 0xFFFF) (dGroup 2 1 0xFFFF 0)
      (grouped 1 [(1, peer1)] []) = true ∧
    ctlTest 2 (fun s d => s.grp.role == 1 && dNum d 18 2 == 0) (dGroup 2 0 0xFFFF 0) (grouped 1 [(1, peer1)] []) = true ∧
    ctlTest 3 (fun s d => s.grp.role == 1 && !s.grp.holders.contains (dNum d 18 2)) (dGroup 3 1 0 0) (grouped 1 [(1, peer1)] []) = true ∧
    ctlTest 3 (fun s d => s.grp.role == 1 && s.grp.holders.contains (dNum d 18 2)) (dGroup 3 1 0 0)
      (holding [1] (grouped 1 [(1, peer1)] [])) = true := by decide +kernel

theorem wit_GroupMembership_promote_sent : ∀ b : GrpBody, workers (grouped 1 [(1, peer1)] []) = [1] ∧
    canSend (peerPort (grouped 1 [(1, peer1)] []) peer1) 1 b (grouped 1 [(1, peer1)] []) := fun b =>
  ⟨by decide +kernel, canSend_any _ _ b _ (by decide +kernel) (by decide +kernel) (by decide +kernel) (by decide +kernel) (by decide +kernel)
    (by decide +kernel)⟩

theorem wit_GroupMembership_leaves : ctlTest 4 (fun s _ => s.grp.role == 2 && holdsShares s) (dGroup 4 0 0 0)
      (withReam { ream0 with share := some (0, 0) } (grouped 2 [] [])) = true ∧
    ctlTest 4 (fun s _ => s.grp.role == 2 && !holdsShares s && !s.grp.toManager) (dGroup 4 0 0 0) (grouped 2 [] []) = true := by decide +kernel

def hello0 : GrpBody := .announce 7 0 0 true 0
def joins (role : Nat) (peers : List (Nat × Peer)) : State := grouped role peers [rxOf hello0 0]

/-- ANNOUNCE at no manager; at one with ID 1 free; and of a worker that is a member. -/
theorem wit_GroupMembership_announce : ∃ (s u v : State) (q : Peer), (takeRx 1 s).map (·.1) = some (rxOf hello0 0) ∧ isManager s = false ∧
    (takeRx 1 u).map (·.1) = some (rxOf hello0 0) ∧ isManager u = true ∧ u.grp.peers = [] ∧ u.grp.freed = [] ∧ u.grp.holders = [] ∧
    (takeRx 1 v).map (·.1) = some (rxOf hello0 0) ∧ isManager v = true ∧
    v.grp.peers.find? (fun p => p.1 != 0 && p.2.ident == 7) = some (1, q) :=
  ⟨joins 2 [], joins 1 [], joins 1 [(1, peer1)], peer1, by decide +kernel⟩

/-- The manager can send a WELCOME or a REFUSE. -/
theorem wit_GroupMembership_announce_sent : ∀ b : GrpBody, canSend 0 1 b (joins 1 []) := fun b =>
  canSend_any 0 _ b _ (by decide +kernel) (by decide +kernel) (by decide +kernel) (by decide +kernel) (by decide +kernel) (by decide +kernel)

theorem joins_peers (m : List (Nat × Peer)) (i : Nat) : getPeer (joins 1 m) i = mapGet i m := rfl
def peer8 : Peer := { peer1 with ident := 8 }
theorem mapGet_peers (n a x : Nat) (h : a ≤ x ∧ x < a + n) : mapGet x ((List.range' a n).map (fun i => (i, peer8))) = some peer8 := by
  induction n generalizing a with
  | zero => omega
  | succ n ih =>
    simp only [List.range'_succ, List.map_cons, mapGet]
    split
    · rfl
    · rename_i hne
      exact ih (a + 1) ⟨by simp at hne; omega, by omega⟩

/-- A manager whose 1,023 IDs are taken. -/
theorem wit_GroupMembership_full : ∃ s : State, (takeRx 1 s).map (·.1) = some (rxOf hello0 0) ∧ isManager s = true ∧
    (¬ ∃ q ∈ s.grp.peers, q.1 ≠ 0 ∧ q.2.ident = 7) ∧ ∀ i, ¬ (1 ≤ i ∧ i < 1024 ∧ getPeer s i = none) := by
  refine ⟨joins 1 ((List.range' 1 1023).map (fun i => (i, peer8))), rfl, rfl, ?_, ?_⟩
  · rintro ⟨q, hq, _, h⟩
    obtain ⟨i, _, rfl⟩ := List.mem_map.mp hq
    exact absurd (show peer8.ident = 7 from h) (by decide)
  · rintro i ⟨h1, h2, h3⟩
    rw [joins_peers, mapGet_peers 1023 1 i ⟨h1, by omega⟩] at h3
    cases h3

/-- WELCOME at a worker; one whose time is behind by more than 1 ms; and one that a device accepts. -/
theorem wit_GroupMembership_welcome : ∃ s u v : State, ∃ x y z : GrpRx, (takeRx 2 s).map (·.1) = some x ∧ x.body = .welcome 1 0 7 ∧ s.grp.role ≠ 3 ∧
    (takeRx 2 u).map (·.1) = some y ∧ y.body = .welcome 1 0 7 ∧ u.grp.role = 3 ∧ 0 + 1000000 < nowNs u ∧
    (takeRx 2 v).map (·.1) = some z ∧ z.body = .welcome 1 5 7 ∧ v.grp.role = 3 ∧ nowNs v ≤ 5 + 1000000 :=
  ⟨grouped 2 [] [rxOf (.welcome 1 0 7) 0], later (grouped 3 [] [rxOf (.welcome 1 0 7) 0]), grouped 3 [] [rxOf (.welcome 1 5 7) 0],
    rxOf (.welcome 1 0 7) 0, rxOf (.welcome 1 0 7) 0, rxOf (.welcome 1 5 7) 0, by decide +kernel⟩

/-- WELCOME with a GT that is not ahead; one ahead where the time may step, and one where an edge that is waited for keeps it. -/
theorem wit_GroupMembership_welcome_step : ∃ s u v : State, ∃ x y : GrpRx, (takeRx 2 s).map (·.1) = some x ∧ x.body = .welcome 1 0 7 ∧
    s.grp.role = 3 ∧ regF s 0x600000 0 2 0 = 4 ∧
    (takeRx 2 u).map (·.1) = some y ∧ y.body = .welcome 1 5 7 ∧ u.grp.role = 3 ∧ nowNs u < 5 ∧ holdsLaunch u = false ∧ regF u 0x600000 0 2 0 ≠ 4 ∧
    (takeRx 2 v).map (·.1) = some y ∧ v.grp.role = 3 ∧ nowNs v < 5 ∧ holdsLaunch v = true :=
  ⟨setRegF 0x600000 0 2 0 4 (grouped 3 [] [rxOf (.welcome 1 0 7) 0]), grouped 3 [] [rxOf (.welcome 1 5 7) 0],
    withLaunches [(4097, 9)] (grouped 3 [] [rxOf (.welcome 1 5 7) 0]),
    rxOf (.welcome 1 0 7) 0, rxOf (.welcome 1 5 7) 0, by decide +kernel⟩

def beat (tPrev : W64) : GrpBody := .heartbeat 9 8 tPrev true true false false 0 0 0 0

/-- HEARTBEAT at a manager, from a worker whose tables are copied, of another slot or not, and at a worker. -/
theorem wit_GroupMembership_heartbeat : ∃ s u v : State, ∃ x y : GrpRx, ∃ p : Peer, (takeRx 4 s).map (·.1) = some x ∧ x.body = beat 0 ∧
    rxPeer s x = some 1 ∧ getPeer s 1 = some p ∧ p.copies = [] ∧ isManager s = true ∧ peerMatches s p = false ∧
    (takeRx 4 u).map (·.1) = some x ∧ rxPeer u x = some 1 ∧ getPeer u 1 = some p ∧ isManager u = true ∧ peerMatches u p = true ∧
    (takeRx 4 v).map (·.1) = some y ∧ y.body = beat 7 ∧ rxPeer v y = some 0 ∧ getPeer v 0 = some p ∧ isManager v = false ∧ v.time.source = 1 :=
  ⟨grouped 1 [(1, peer1)] [rxOf (beat 0) 1], active (grouped 1 [(1, peer1)] [rxOf (beat 0) 1]),
    (let s := grouped 2 [(0, peer1)] [rxOf (beat 7) 0]
     { s with time := { s.time with source := 1 } }), rxOf (beat 0) 1, rxOf (beat 7) 0, peer1, by decide +kernel⟩

/-- A worker that is not READY, and one that becomes so and the holder. -/
theorem wit_GroupMembership_ready : ∃ (s u : State) (peer : PeerId) (p q : Peer), getPeer s peer.val = some p ∧ p.st ≠ 1 ∧
    getPeer u peer.val = some q ∧ isManager u = true ∧ q.st = 1 ∧ q.aligned = true ∧ peerMatches u q = true ∧ q.copies = [] ∧
    (∀ b ∈ messages u peer.val, isTableFrame b = false) ∧ u.grp.setHolders = [] ∧ u.grp.holders = [] ∧
    ∀ x ∈ u.grp.peers, x.2.st = 2 → x.2.eligible = false :=
  ⟨grouped 1 [(1, peer1)] [], active (grouped 1 [(1, { peer1 with st := 1 })] []), 1, peer1, { peer1 with st := 1 }, by decide +kernel⟩

/-- A peer that has been heard; a worker that has not; a manager that is lost now, and one lost for 1.5 s. -/
theorem wit_GroupMembership_lost : ∃ s u v w : State, getPeer s 1 = some peer1 ∧ now s < peer1.heard + usT 300 ∧ getPeer u 1 = some peer1 ∧
    peer1.heard + usT 300 ≤ now u ∧ isManager u = true ∧ getPeer v 0 = some peer1 ∧ peer1.heard + usT 300 ≤ now v ∧ isManager v = false ∧
    v.grp.lost = none ∧ getPeer w 0 = some peer1 ∧ peer1.heard + nsT 1500000000 ≤ now w ∧ isManager w = false ∧ w.grp.lost ≠ none ∧
    w.grp.holder = false :=
  ⟨grouped 1 [(1, peer1)] [], later (grouped 1 [(1, peer1)] []), later (grouped 2 [(0, peer1)] []),
    (let s := later (grouped 2 [(0, peer1)] [])
     { s with grp := { s.grp with lost := some 0 } }), by decide +kernel⟩

/-- A worker whose manager is lost now. -/
def losing (f : GroupState → GroupState) : State :=
  let s := later (grouped 2 [(0, peer1)] [])
  { s with grp := f s.grp }

/-- A holder; a worker that leaves, with a share and none; and one that turns manager. -/
theorem wit_GroupMembership_lost_ends : (let s := losing (fun g => { g with holder := true })
      s.grp.holder && !s.grp.toLeave && !s.grp.toManager && s.grp.leaving.isNone && decide (peer1.heard + usT 300 ≤ now s)) = true ∧
    (let s := withReam { ream0 with share := some (0, 0) } (losing (fun g => { g with toLeave := true }))
     s.grp.toLeave && holdsShares s && s.grp.lost.isNone && !isManager s) = true ∧
    (let s := losing (fun g => { g with leaving := some 0 })
     s.grp.leaving.isSome && !s.grp.toManager && !s.grp.toLeave) = true ∧
    (let s := losing (fun g => { g with toLeave := true })
     !holdsShares s && !s.grp.toManager && s.grp.toLeave && getPeer s 0 == some peer1) = true ∧
    (let s := losing (fun g => { g with toManager := true })
     !holdsShares s && s.grp.toManager && s.grp.lost.isNone && !isManager s) = true := by decide +kernel

/-- LEAVE at a worker, and at a manager of a worker with and without a share to end. -/
theorem wit_GroupMembership_leave : ∃ s u v : State, ∃ x y : GrpRx, (takeRx 0x18 s).map (·.1) = some x ∧ isManager s = false ∧
    (takeRx 0x18 u).map (·.1) = some y ∧ isManager u = true ∧ rxPeer u y = some 1 ∧
    u.reams.any (fun r => r.shares.any (fun y => y.2.1 == 1 && !y.2.2)) = true ∧
    (takeRx 0x18 v).map (·.1) = some y ∧ isManager v = true ∧ rxPeer v y = some 1 ∧
    v.reams.any (fun r => r.shares.any (fun y => y.2.1 == 1 && !y.2.2)) = false :=
  ⟨grouped 2 [] [rxOf .leave 0], withReam { ream0 with shares := [(0, 1, false)] } (grouped 1 [(1, peer1)] [rxOf .leave 1]),
    grouped 1 [(1, peer1)] [rxOf .leave 1], rxOf .leave 0, rxOf .leave 1, by decide +kernel⟩

def worker (id : Nat) (s : State) : State := { s with grp := { s.grp with id := id, holder := true, lost := some 0 } }

/-- PROMOTE of an old epoch; of one that names this worker, and another one; and one that a manager receives. -/
theorem wit_GroupMembership_promote : ∃ s u v w : State, ∃ x y z : GrpRx, (takeRx 0x19 s).map (·.1) = some x ∧ x.body = .promote 2047 ∧
    2047 ≤ s.grp.epoch.toNat ∧ (takeRx 0x19 u).map (·.1) = some y ∧ y.body = .promote 3070 ∧ u.grp.epoch.toNat < 3070 ∧ hasId u = true ∧
    u.grp.role = 2 ∧ u.grp.holder = true ∧ u.grp.id = 1023 - 3070 % 1024 ∧ (takeRx 0x19 v).map (·.1) = some y ∧ v.grp.epoch.toNat < 3070 ∧
    hasId v = true ∧ v.grp.role = 2 ∧ v.grp.id ≠ 1023 - 3070 % 1024 ∧ (takeRx 0x19 w).map (·.1) = some z ∧ z.body = .promote 3070 ∧
    w.grp.epoch.toNat < 3070 ∧ hasId w = true ∧ w.grp.role = 1 :=
  ⟨grouped 2 [] [rxOf (.promote 2047) 0], worker 1 (grouped 2 [] [rxOf (.promote 3070) 0]), worker 5 (grouped 2 [] [rxOf (.promote 3070) 0]),
    grouped 1 [] [rxOf (.promote 3070) 0], rxOf (.promote 2047) 0, rxOf (.promote 3070) 0, rxOf (.promote 3070) 0, by decide +kernel⟩

/-- A holder before and after the wait, and one with a lower ID beside it. -/
theorem wit_GroupMembership_self : ∃ s u v : State, s.grp.lost = some 0 ∧ s.grp.holder = true ∧ s.grp.role = 2 ∧ s.grp.heardMgr = false ∧
    ¬ (0 + nsT 500000000 ≤ now s) ∧ u.grp.lost = some 0 ∧ u.grp.holder = true ∧ u.grp.role = 2 ∧ u.grp.heardMgr = false ∧
    (∀ m ∈ u.grp.members, m.2.holder = true → u.grp.id ≤ m.1) ∧ 0 + nsT 500000000 ≤ now u ∧ v.grp.lost = some 0 ∧ v.grp.holder = true ∧
    v.grp.role = 2 ∧ v.grp.heardMgr = false ∧ ¬ (∀ m ∈ v.grp.members, m.2.holder = true → v.grp.id ≤ m.1) ∧ 0 + nsT 1000000000 ≤ now v :=
  ⟨worker 1 (grouped 2 [] []), later (worker 1 (grouped 2 [] [])),
    (let s := later (worker 5 (grouped 2 [] []))
     { s with grp := { s.grp with members := [(1, { holder := true, eligible := true, ident := 0, mac := 0 })] } }), by decide +kernel⟩

/-- A leaving worker with a frame that is not acknowledged, before and after 10 ms; a manager that turns worker. -/
theorem wit_GroupMembership_times : ∃ s u v w : State, s.grp.leaving = some 0 ∧ ¬ (0 + msT 10 ≤ now s) ∧
    (∃ p, getPeer s 0 = some p ∧ p.unacked ≠ []) ∧ u.grp.leaving = some 0 ∧ 0 + msT 10 ≤ now u ∧ v.grp.toWorker = true ∧ v.rqt = [] ∧
    w.grp.toWorker = false :=
  ⟨(let s := grouped 2 [(0, { peer1 with unacked := [unsent] })] []
    { s with grp := { s.grp with leaving := some 0 } }),
    (let s := later (grouped 2 [] [])
     { s with grp := { s.grp with leaving := some 0 } }),
    (let s := grouped 1 [] []
     { s with grp := { s.grp with toWorker := true } }), State.reset, by decide +kernel, by decide +kernel,
    ⟨{ peer1 with unacked := [unsent] }, by decide +kernel⟩, by decide +kernel⟩

/-- A frame for the device's WRITE handler waits. -/
def heard (b : GrpBody) (src : PeerId) (s : State) : State := { s with grp := { s.grp with rx := [rxOf b src] } }
def took1 (t : Nat) (b : GrpBody) (src : PeerId) (s : State) : Bool := (takeRx t (heard b src s)).map (·.1) == some (rxOf b src)

/-- WRITE of die 3's last bytes, of cluster 31's, of a REGEN_SCRATCH line and of a GUARDED one. -/
theorem wit_GroupWork_write : took1 0x10 (.write 0 (3 * 2 ^ 32 + dieSramBytes - 1) [7]) 0 State.reset = true ∧
    took1 0x10 (.write 1 (31 * 2 ^ 32 + clusterSramBytes - 1) [7]) 0 State.reset = true ∧
    (let s := heard (.write 2 64 (List.replicate 64 7)) 0 (withRegion 4 State.reset)
     took1 0x10 (.write 2 64 (List.replicate 64 7)) 0 s && kindOf s (lineStripe 1) == 4 && (place s (lineStripe 1) (lineSlot 1) (lineIx 1)).isSome) =
      true ∧
    (let s := heard (.write 3 64 (List.replicate 64 7)) 0 (withRegion 1 State.reset)
     took1 0x10 (.write 3 64 (List.replicate 64 7)) 0 s && kindOf s (lineStripe 1) == 1 && (place s (lineStripe 1) (lineSlot 1) (lineIx 1)).isSome) =
      true := by decide +kernel

/-- The two lines can be written. -/
theorem wit_GroupWork_write_held : ∀ k ∈ [4, 1], lineHeld (heard (.write 2 64 (List.replicate 64 7)) 0 (withRegion k State.reset)) 1 := by
  intro k hk
  refine ⟨?_, ?_, ?_, ?_, ?_, intact_of rfl _ _⟩
  all_goals revert k; decide +kernel

def work0 : GrpBody := .work 0 0 0 0 9
def workTest (test : State → Bool) (s : State) : Bool := took1 0x11 work0 0 s && test (heard work0 0 s) && (heard work0 0 s).grp.role == 2
def progOf (core : CoreId) : CoreProgram := { core := core, ctx := 0, share := 0, cmds := [], vec := [] }
def workImage : Image := { image0 with programs := [progOf 0] }
def workDies (s : State) : List Nat :=
  launchDies s { emptyReam 0 0 0 0 9 with share := some (0, 0) } workImage (progsOf workImage 0 [0])
def workFound (im : Image) (s : State) : Bool :=
  ((slotOfHash s 0).bind (fun sl => (slotImage s sl).map (fun im => (sl, im)))) == some (0, im) && !s.grp.toManager && !s.grp.toLeave &&
    s.grp.leaving.isNone

/-- WORK at a worker that ends its shares; without the slot; and with it and launch entries, and without them. -/
theorem wit_GroupWork_work : workTest (fun s => s.grp.toLeave) (let s := grouped 2 [] []
      { s with grp := { s.grp with toLeave := true } }) = true ∧
    workTest (fun s => (slotOfHash s 0).isNone && !s.grp.toManager && !s.grp.toLeave && s.grp.leaving.isNone) (grouped 2 [] []) = true ∧
    workTest (fun s => workFound workImage s && (allocLaunch (workDies s) 9 s).isSome && (reamOf s 0).isNone && (progsOf workImage 0 [0]) == [0] &&
      (getCtx (getCore s 0) 0).st == .idle) (withImage workImage (grouped 2 [] [])) = true := by decide +kernel
/-- WORK for more than 60 s ahead, and for a launch that has passed. -/
theorem wit_GroupWork_work_times : (let b : GrpBody := .work 0 0 0 0 60000000001
      let s := withImage workImage (grouped 2 [] [])
      took1 0x11 b 0 s && workFound workImage s && decide (now s + nsT 60000000000 < nsT 60000000001)) = true ∧
    (let s := later (withImage workImage (grouped 2 [] []))
     workTest (fun s => workFound workImage s && decide (nsT 9 ≤ now s) && (reamOf s 0).isNone) s) = true := by decide +kernel
theorem wit_GroupWork_work_full : ∃ s : State, workTest (fun s => workFound image0 s && progsOf image0 0 [0] == [] && launchDies s
      { emptyReam 0 0 0 0 9 with share := some (0, 0) } image0 [] == [4]) s = true ∧
    allocLaunch [4] 9 s = none := ⟨withLaunches launches (withImage image0 (grouped 2 [] [])), by decide +kernel,
      allocLaunch_full 9 _⟩

def shareReam (cores : List CoreId) : Ream := { ream0 with cores := cores, share := some (0, 0) }
def sharing (cores : List CoreId) (f : GroupState → GroupState) (rest : List Ream) : State :=
  let s := grouped 2 [(0, peer1)] []
  { s with grp := f s.grp, reams := [shareReam cores] ++ rest }
def shareTest (test : State → Ream → Bool) (s : State) : Bool :=
  match s.reams.find? (fun r => r.seq == 0 && (r.share.map (fun x => x.2 == 0)).getD false) with
  | some r => test s r
  | none => false
def moreShares (s : State) : Bool := (s.reams.filter (fun m => !(m.seq == 0 && m.share.isSome))).any (fun m => m.share.isSome)

/-- SHARE_END of a share that runs; of one of two; of the last one of a worker that stays, leaves or turns manager. -/
theorem wit_GroupWork_shareEnd : shareTest (fun _ r => !reamComplete r) (sharing [0] id []) = true ∧
    shareTest (fun s r => reamComplete r && moreShares s) (sharing [] id [{ shareReam [] with seq := 2 }]) = true ∧
    shareTest (fun s r => reamComplete r && !moreShares s && !s.grp.toManager && !s.grp.toLeave) (sharing [] id []) = true ∧
    shareTest (fun s r => reamComplete r && !moreShares s && !s.grp.toManager && s.grp.toLeave)
      (sharing [] (fun g => { g with toLeave := true }) []) = true ∧
    shareTest (fun s r => reamComplete r && !moreShares s && s.grp.toManager) (sharing [] (fun g => { g with toManager := true }) []) = true := by
  decide +kernel

/-- A share with an output, clean or poisoned. -/
def outShare (poison : List Nat) : State :=
  modCluster 0 (fun k => { k with sramPoison := poison }) (withImage { image0 with outputs := [place0] }
    (let s := grouped 2 [(0, peer1)] []
     { s with reams := [{ shareReam [] with rows := [{ req := 0, service := 0, body := [], input := [] }] }] }))
theorem wit_GroupWork_shareEnd_outputs : ∀ p : Bool, shareTest (fun s r =>
      let outs := ((slotImage s r.slot).map (fun im => shareOutputs s r im 0)).getD []
      reamComplete r && outs.length == 1 && outs.all (fun o => o.2.1.length == 4 && o.2.2 == p)) (outShare (if p then [0] else [])) = true := by
  decide +kernel

/-- A manager's ream 0 whose share 1 worker 1 holds, with worker 2 READY for it or not. -/
def placed (shares : List (Nat × Nat × Bool)) (peers : List (Nat × Peer)) : State :=
  withReam { ream0 with cores := [], view := 1, shares := shares } (withImage image0 (grouped 1 peers []))
def refused0 (test : State → Bool) (s : State) : Bool :=
  took1 0x13 (.refuseWork 0 1 3) 1 s && isManager s && rxPeer s (rxOf (.refuseWork 0 1 3) 1) == some 1 && test s
def heldShare (s : State) : Bool := ((reamOf s 0).bind (fun r => mapGet 1 r.shares)) == some (1, false)
def targets (s : State) : List Nat := ((reamOf s 0).map (fun r => shareTargets s r image0 1 1)).getD []

theorem wit_GroupWork_result : (let s := placed [(1, 1, false)] [(1, peer1)]
    took1 0x12 (.result 0 1 0) 1 s && isManager s && rxPeer s (rxOf (.result 0 1 0) 1) == some 1) = true := by decide +kernel
/-- A RESULT that its share does not name, and one of a share with a poisoned output. -/
theorem wit_GroupWork_result_poison : (let s := placed [(1, 2, false)] [(1, peer1)]
      took1 0x12 (.result 0 1 0) 1 s && ((reamOf s 0).bind (fun r => (mapGet 1 r.shares).map (·.1))) != some 1) = true ∧
    (let p : RowPlace := { place0 with share := 1 }
     let im := { image0 with outputs := [p] }
     let s := withReam { ream0 with cores := [], shares := [(1, 1, false)], rows := [{ req := 0, service := 0, body := [], input := [] }] }
       (withImage im (grouped 1 [(1, peer1)] []))
     let b : GrpBody := .result 0 1 (BitVec.ofNat 8 stPoison)
     took1 0x12 b 1 s && rxPeer s (rxOf b 1) == some 1 && ((reamOf s 0).bind (fun r => (mapGet 1 r.shares).map (·.1))) == some 1 &&
       ((reamOf s 0).map (fun r => slotImage s r.slot)) == some (some im) && logicalClusterPhys s 0 == 0) = true := by decide +kernel
theorem wit_GroupWork_refused : refused0 (fun s => !heldShare s) (placed [(1, 1, true)] [(1, peer1)]) = true ∧
    refused0 (fun s => heldShare s && targets s == [2] && ((reamOf s 0).map (·.reqs)) == some []) (placed [(1, 1, false)] [(1, peer1), (2, peer1)]) =
      true ∧
    refused0 (fun s => heldShare s && targets s == [] && ((reamOf s 0).map (·.reqs)) == some []) (placed [(1, 1, false)] [(1, peer1)]) = true := by
  decide +kernel

/-- The device takes a share back: with launch entries, and with none. -/
theorem wit_GroupWork_refused_own : refused0 (fun s => heldShare s && targets s == [] && ((reamOf s 0).map (fun r =>
      (allocLaunch (launchDies s r image0 (progsOf image0 0 [1])) (nowNs s + launchLead s) s).isSome)) == some true)
        (placed [(1, 1, false)] [(1, peer1)]) = true ∧
    refused0 (fun s => heldShare s && targets s == [] && ((reamOf s 0).map (fun r => launchDies s r image0 (progsOf image0 0 [1]))) == some [4])
        (withLaunches launches (placed [(1, 1, false)] [(1, peer1)])) = true ∧
    ∀ gt, allocLaunch [4] gt (heard (.refuseWork 0 1 3) 1 (withLaunches launches (placed [(1, 1, false)] [(1, peer1)]))) = none :=
  ⟨by decide +kernel, by decide +kernel, fun gt => allocLaunch_full gt (heard (.refuseWork 0 1 3) 1 (placed [(1, 1, false)] [(1, peer1)]))⟩

def entry0 : JEntry :=
  { handle := 0, die := .n0, requestId := 0, deadline := 0, service := 9, slot := 0, port := 0, frame := [], outs := [], untracked := false,
    unscored := false }
def member0 : Member := { holder := false, eligible := true, ident := 7, mac := 1 }

/-- A journal of one byte a line, in line 0. -/
def journalAt (s : State) : State :=
  { s with host := { s.host with cfg := { s.host.cfg with fields := (0x13, 20 * 2 ^ 26) :: s.host.cfg.fields } } }
theorem wit_GroupWork_journal_held : ∃ s : State, took1 0x14 (.journal entry0) 0 s = true ∧
    let v := cfgField s 0x13 0
    let n := bits v 52 26 * 53248 / 2 ^ 20
    n = 1 ∧ bits v 25 0 * 53248 + entry0.handle * n = 0 ∧ ∀ bs : Bytes, bs.length ≤ n → ∀ l ∈ linesOf 0 bs.length, lineHeld s l := by
  refine ⟨journalAt (withRegion 1 (grouped 2 [(0, peer1)] [])), by decide +kernel, by decide +kernel, by decide +kernel, ?_⟩
  intro bs hb l hl
  have hn : bs.length = 0 ∨ bs.length = 1 := by
    have : bits (cfgField (journalAt (withRegion 1 (grouped 2 [(0, peer1)] []))) 0x13 0) 52 26 * 53248 / 2 ^ 20 = 1 := by decide +kernel
    omega
  rcases hn with h | h
  · rw [h] at hl; cases hl
  · rw [h, show linesOf 0 1 = [0] from rfl, List.mem_singleton] at hl
    subst hl
    exact ⟨by decide +kernel, by decide +kernel, by decide +kernel, by decide +kernel, by decide +kernel, intact_of rfl _ _⟩

theorem wit_GroupWork_journal : took1 0x14 (.journal entry0) 0 (grouped 2 [(0, peer1)] []) = true ∧
    took1 0x15 (.release [0, 7]) 0 (grouped 2 [(0, peer1)] []) = true ∧
    took1 0x16 (.members [(1, some member0), (2, none), (1, some { member0 with holder := true })]) 0 (grouped 2 [(0, peer1)] []) = true := by decide +kernel

/-- TABLE frames: the last of a copy, and a change. -/
theorem wit_GroupWork_table : took1 0x17 (.tableCopy 7 [] 0 [] 1 true) 0 (withTbl 1 (tbl0 0) State.reset) = true ∧
    took1 0x17 (.tableBatch 7 [] 0 0) 0 (withTbl 1 (tbl0 0) State.reset) = true ∧
    getTbl (withTbl 1 (tbl0 0) State.reset) 7 = some (tbl0 0) := by decide +kernel

/-- TABLE frames of the table's second bucket, and of DPA line 64, in the row area. -/
theorem wit_GroupWork_table_bucket : ∃ (s : State) (y : Tbl), took1 0x17 (.tableCopy 7 [] 64 (List.replicate 64 0) 1 false) 0 s = true ∧
    getTbl s 7 = some y ∧ 64 < rowArea ∧ bucketHeld s y.desc 1 ∧ (slotsSeen s y.desc 1).isSome = true :=
  ⟨withTbl 1 (tbl0 0) State.reset, tbl0 0, by decide +kernel, by decide +kernel, by decide +kernel, by unfold bucketHeld; decide +kernel,
    by decide +kernel⟩
theorem wit_GroupWork_table_row : ∃ (s : State) (y : Tbl) (a : Nat), took1 0x17 (.tableCopy 7 [] a (List.replicate 64 0) 1 false) 0 s = true ∧
    getTbl s 7 = some y ∧ y.desc.rowBase + a = rowArea + 64 * 64 ∧ rowArea ≤ a ∧ lineHeld s 64 :=
  ⟨withTbl 1 (tbl0 0) State.reset, tbl0 0, 2 ^ 40, by decide +kernel, by decide +kernel, by decide +kernel, by decide +kernel,
    by decide +kernel, by decide +kernel, by decide +kernel, by decide +kernel, by decide +kernel, intact_of rfl _ _⟩

/-- A change for more than 60 s ahead; for a launch that has passed; and for one with an entry, or without one. -/
def change9 (launch : W64) : GrpBody := .tableBatch 7 [] 0 launch
theorem wit_GroupWork_table_times : took1 0x17 (change9 60000000001) 0 (withTbl 1 (tbl0 0) State.reset) = true ∧
    (let s := later (withTbl 1 (tbl0 0) State.reset)
     took1 0x17 (change9 9) 0 s && decide (nsT 9 ≤ now s) && decide (dueOf s 9 ≤ now s + 1)) = true ∧
    (let s := withTbl 1 (tbl0 0) State.reset
     took1 0x17 (change9 9) 0 s && decide (now s + 1 < dueOf s 9) && (allocLaunch [0] 9 s).isSome) = true := by decide +kernel
theorem wit_GroupWork_table_full : ∃ s : State, took1 0x17 (change9 9) 0 s = true ∧ now s + 1 < dueOf s 9 ∧ allocLaunch [0] 9 s = none :=
  ⟨withLaunches ((List.range' 1 1023).map (fun i => (0 + i, 0))) (withTbl 1 (tbl0 0) State.reset), by decide +kernel, by decide +kernel,
    allocLaunch_none 0 _ 9 _ (fun x h => by simpa using mapGet_held 0 1023 1 x ⟨h.1, by omega⟩)⟩

/-! ### Hypotheses of the statements: faults, fences and power -/

def rep0 (code : W16) (suspect : UnitCode) (count : Nat) : Report :=
  { code := code, suspect := suspect, alt := 0, reporter := 0x2000, gtNs := 0, sub := 0, stretched := false, layer := 0, op := 0, value := 0,
    count := count, reporters := 1 }
def win0 (node : UnitCode) (r : Report) (endsAt count : Nat) : CanWindow :=
  { node := node, first := r, endsAt := endsAt, count := count, reporters := [r.reporter], moreReporters := 0 }
def withWindows (ws : List CanWindow) (roots : List RootWin) : State :=
  { State.reset with canopy := { State.reset.canopy with windows := ws, roots := roots } }
def root0 (unit : UnitCode) (endsAt count : Nat) (windthrow : Bool) (rs : List Report) : RootWin :=
  { unit := unit, endsAt := endsAt, count := count, windthrow := windthrow, reports := rs.map (fun r => (r, windthrow)) }

def openAt (s : State) (node : UnitCode) : Bool := s.canopy.windows.all (fun w => w.node != node || decide (now s < w.endsAt))
def fullAt (s : State) (node : UnitCode) (r : Report) : Bool :=
  !s.canopy.windows.any (fun w => w.node == node && sameFault w.first r) &&
    decide (nodeCap node ≤ (s.canopy.windows.filter (fun w => w.node == node && !(w.first.code == 0x56 && w.first.suspect == node))).length)

/-- A core's node with a window of the fault, without one, and with its 16 windows taken. -/
theorem wit_Canopy_report : ∃ (s u v : State) (node : UnitCode) (r : Report), node ≠ ucPackage ∧ openAt s node = true ∧
    (s.canopy.windows.find? (fun w => w.node == node && sameFault w.first r)).isSome = true ∧ openAt u node = true ∧ u.canopy.windows = [] ∧
    openAt v node = true ∧ fullAt v node r = true :=
  ⟨withWindows [win0 0x2000 (rep0 0x32 0x3000 1) 9 1] [], State.reset,
    withWindows ((List.range 16).map (fun i => win0 0x2000 (rep0 (BitVec.ofNat 16 i) 0x3000 1) 9 1)) [], 0x2000, rep0 0x32 0x3000 1, by decide +kernel⟩

/-- Two reports of one spine on their way to the root: the second one waits for the first. -/
theorem wit_Canopy_order : ∃ (s : State) (r q : Report), Machine.behind ucPackage q s = true ∧ Machine.behind ucPackage r s = false :=
  ⟨{ State.reset with canopy := { State.reset.canopy with transit := [(ucPackage, rep0 0x32 0x3000 1), (ucPackage, rep0 0x33 0x3000 1)] } },
    rep0 0x32 0x3000 1, rep0 0x33 0x3000 1, by decide +kernel⟩

def rootsOpen (s : State) : Bool := s.canopy.roots.all (fun w => decide (now s < w.endsAt))
def hitsRoot (s : State) (r : Report) : Bool :=
  let w := (s.canopy.roots.find? (fun w => w.unit == r.suspect)).getD (root0 r.suspect 0 0 false [])
  !w.windthrow && decide (64 ≤ w.count + r.count)

/-- At the package: the 64th count on a unit, a unit with a windthrow, and a report that opens a window. -/
theorem wit_Canopy_root : ∃ s u v : State, rootsOpen s = true ∧ hitsRoot s (rep0 0x32 0x3000 1) = true ∧ rootsOpen u = true ∧
    u.canopy.roots.any (·.windthrow) = true ∧ rootsOpen v = true ∧ v.canopy.roots.any (·.windthrow) = false ∧
    hitsRoot v (rep0 0x32 0x3000 1) = false :=
  ⟨withWindows [] [root0 0x3000 9 63 false [rep0 0x32 0x3000 63]], withWindows [] [root0 0x3000 9 64 true [rep0 0x32 0x3000 64]],
    withWindows [] [root0 0x3000 9 1 false [rep0 0x32 0x3000 1]], by decide +kernel⟩

/-- A report that its window at the package merges. -/
theorem wit_Canopy_root_merged : ∃ s : State, rootsOpen s = true ∧ (∀ w ∈ s.canopy.roots, w.windthrow = false) ∧
    (namedUnits (rep0 0x32 0x3000 1)).all (fun u => u == 0x3000) = true ∧ hitsRoot s (rep0 0x32 0x3000 1) = false ∧ openAt s ucPackage = true ∧
    (s.canopy.windows.find? (fun w => w.node == ucPackage && sameFault w.first (rep0 0x32 0x3000 1))).isSome = true :=
  ⟨withWindows [win0 ucPackage (rep0 0x32 0x3000 1) 9 1] [root0 0x3000 9 1 false [rep0 0x32 0x3000 1]], by decide +kernel⟩

def endsTest (test : CanWindow → Bool) (node : UnitCode) (s : State) : Bool :=
  (s.canopy.windows.find? (fun w => w.node == node && w.first.code == 0x32 && w.first.suspect == 0x3000 && w.first.alt == 0 &&
    decide (w.endsAt ≤ now s))).any test
theorem wit_Canopy_merge : ((State.reset).canopy.windows.find? (fun w => w.node == 0x2000)) = none ∧
    endsTest (fun w => decide (w.count ≤ w.first.count)) 0x2000 (withWindows [win0 0x2000 (rep0 0x32 0x3000 1) 0 1] []) = true ∧
    endsTest (fun w => decide (w.first.count < w.count)) 0x2000 (withWindows [win0 0x2000 (rep0 0x32 0x3000 1) 0 2] []) = true ∧
    endsTest (fun w => decide (w.first.count < w.count)) ucPackage (withWindows [win0 ucPackage (rep0 0x32 0x3000 1) 0 2] []) = true := by
  decide +kernel

def rootTest (test : RootWin → List Report → Bool) (unit : UnitCode) (w : RootWin) : Bool :=
  let s := withWindows [] [w]
  (s.canopy.roots.find? (fun w => w.unit == unit && decide (w.endsAt ≤ now s))).any (fun w =>
    test w ((w.reports.filter (fun p => !p.2 && p.1.suspect == unit)).map (·.1)))

/-- A window without an own report; WAKE_FAIL of cluster 31; a stack's loss; another unit; a windthrow of a cluster, a link and a die. -/
theorem wit_Canopy_actions : rootTest (fun w mine => !w.windthrow && mine == []) 0x3000 (root0 0x3000 0 1 false [rep0 0x32 0x2000 1]) = true ∧
    rootTest (fun w mine => !w.windthrow && mine.any (fun r => r.code == 0x32)) 0x301F (root0 0x301F 0 1 false [rep0 0x32 0x301F 1]) = true ∧
    rootTest (fun w mine => !w.windthrow && mine.any (fun r => r.code == 0x22)) 0x500F (root0 0x500F 0 1 false [rep0 0x22 0x500F 1]) = true ∧
    rootTest (fun w mine => !w.windthrow && mine != []) 0x2000 (root0 0x2000 0 1 false [rep0 0x32 0x2000 1]) = true ∧
    rootTest (fun w _ => w.windthrow && w.reports != []) 0x3000 (root0 0x3000 0 64 true [rep0 0x32 0x3000 64]) = true ∧
    rootTest (fun w _ => w.windthrow && w.reports != []) 0x700E (root0 0x700E 0 64 true [rep0 0x32 0x700E 64]) = true ∧
    rootTest (fun w _ => w.windthrow && w.reports != []) 0x4005 (root0 0x4005 0 64 true [rep0 0x32 0x4005 64]) = true ∧
    clusterActive State.reset 31 = true := by decide +kernel

/-- A node that is not silent, and silent ones of each class. -/
theorem wit_Canopy_nodes : ∃ s u : State, nodeSilent s 0x2000 = false ∧ (∀ n ∈ [0x20FF, 0x301F, 0x4000, 0x4004, 0x4005], n ∈ canopyNodes ∧
    nodeSilent u (BitVec.ofNat 16 n) = true) ∧ coreActive u 255 = true ∧ clusterActive u 31 = true ∧ unitLost u (ucSpine 0) = false ∧
    unitLost u (ucNet .n0) = false ∧ unitLost u (ucNet .n1) = false := ⟨State.reset, later State.reset, by decide +kernel⟩

/-- Port H0 holds HIF_SEM, and FENCE_CMD names a unit. -/
def fencing (u : UnitCode) (s : State) : State := setRegF 0x300008 0 15 0 u.toNat (withSem s)
def cmdTest (test : State → Bool) (s : State) : Bool := barUp s && holdsSem s .h0 && test s

theorem wit_Fences_commands : ∃ s : State, ∃ p : HPort, barUp s = true ∧ holdsSem s p = false := ⟨State.reset, .h1, by decide +kernel⟩

/-- A stack; an engine whose tile waits; cores with and without room beside them; a cluster; a unit that is FENCED. -/
theorem wit_Fences_fence : cmdTest (fun s => !fenceable (fenceUnit s)) (fencing 0x5000 State.reset) = true ∧
    cmdTest (fun s => fenceable (fenceUnit s) && unitActive s (fenceUnit s) && fenceUnit s == ucEngine 255 3 &&
      (getEngine (getCore s 255) 3).reexec.isSome) (fencing 0x13FF (modCore 255 (fun x =>
        setEngine 3 { getEngine x 3 with reexec := some run0 } x) State.reset)) = true ∧
    cmdTest (fun s => fenceUnit s == ucCore 255 && unitActive s (fenceUnit s) && coreActive s 254 && segsFit (getCore s 255) (getCore s 254))
      (fencing 0x20FF State.reset) = true ∧
    cmdTest (fun s => fenceUnit s == unitCode 3 31 && unitActive s (fenceUnit s) && logicalClusterPhys s 31 == 31 && clusterActive s 24 &&
        (List.range 32).all (fun j => (logicalsOfCluster s j).length == 1))
      (fencing 0x301F State.reset) = true ∧
    cmdTest (fun s => fenceable (fenceUnit s) && !unitActive s (fenceUnit s)) (fencing 0x2000 (setUnit 0x2000 1 0x50 State.reset)) = true := by
  decide +kernel

/-- A unit fenced as silent, and one that may come back. -/
theorem wit_Fences_unfence : cmdTest (fun s => fenceable (fenceUnit s) && unfenceRefused s (fenceUnit s))
      (fencing 0x2000 (later (setUnit 0x2000 1 0x33 State.reset))) = true ∧
    cmdTest (fun s => fenceable (fenceUnit s) && !unfenceRefused s (fenceUnit s)) (fencing 0x2000 (setUnit 0x2000 1 0x50 State.reset)) = true := by
  decide +kernel

/-- A core, an engine and a cluster that come back at this edge, and one at a later window. -/
theorem wit_Fences_apply : ∃ s : State, (ucCore 0, 0) ∈ s.canopy.unfence ∧ (unitRec s (ucCore 0)).st = 1 ∧
    (ucEngine 0 3, 0) ∈ s.canopy.unfence ∧ (unitRec s (ucEngine 0 3)).st = 1 ∧ (unitCode 3 31, 0) ∈ s.canopy.unfence ∧
    (unitRec s (unitCode 3 31)).st = 1 ∧ (ucCore 1, 9) ∈ s.canopy.unfence ∧ windowOf s (nowNs s) < 9 :=
  ⟨(let s := setUnit (ucCore 0) 1 0x50 (setUnit (ucEngine 0 3) 1 0x50 (setUnit (unitCode 3 31) 1 0x50 State.reset))
    { s with canopy := { s.canopy with unfence := [(ucCore 0, 0), (ucEngine 0 3, 0), (unitCode 3 31, 0), (ucCore 1, 9)] } }), by decide +kernel⟩

def readyGrp (s : State) : State := holding [1] s

/-- A link lost before, and one lost by a device alone, a worker, a joining device and managers with and without a holder. -/
theorem wit_Fences_link : ∃ s u v w x y : State, unitLost s (ucFelt 14) = true ∧ (∀ z ∈ [u, v, w, x, y], unitLost z (ucFelt 14) = false ∧
    unitActive z (ucNet .n0) = true ∧ z.canopy.handedOver = false) ∧ u.grp.role = 0 ∧ v.grp.role = 2 ∧ w.grp.role = 3 ∧ x.grp.role = 1 ∧
    readyHolder x = none ∧ y.grp.role = 1 ∧ readyHolder y = some 1 ∧ workers y = [1] ∧ getPeer y 1 = some peer1 :=
  ⟨setUnit (ucFelt 14) 2 0x33 State.reset, State.reset, grouped 2 [] [], grouped 3 [] [], grouped 1 [] [], readyGrp (grouped 1 [(1, peer1)] []),
    by decide +kernel⟩

theorem wit_Fences_handover : ∃ s u : State, barUp s = true ∧ unitActive s (ucFelt 14) = false ∧ barUp u = true ∧
    ¬ (regF u 0x300004 0 6 0 < fencedCores u ∨ u.dsm.st = 4 ∨ (∃ d < 6, unitActive u (unitCode 4 d) = false) ∨
      ∃ l < 15, unitActive u (ucFelt l) = false) :=
  ⟨setUnit (ucFelt 14) 2 0x33 State.reset, State.reset, by decide +kernel⟩

theorem wit_Fences_strikes : ∃ s : State, ∃ (c : CoreId) (m : MeId), (getEngine (getCore s c) m).deckleStrike = true ∧
    65536 ≤ (getEngine (getCore s c) m).deckleClean ∧ (getEngine (getCore s c) m).checkStrike = false :=
  ⟨modCore 255 (fun x => setEngine 3 { getEngine x 3 with deckleStrike := true, deckleClean := 65536 } x) State.reset, 255, 3, by decide +kernel⟩

/-- A domain in a state since GT 0. -/
def domIn (n st : Nat) (s : State) : State :=
  { s with pwr := { s.pwr with doms := mapSet n { Dom.off with st := st } s.pwr.doms } }
def launchAt (ns : Nat) : State := withReam { ream0 with sealed_ := true, launched := false, launchNs := ns } (domIn 0 2 State.reset)

theorem wit_Power_sleep : ∃ (s : State) (c : CoreId) (k : ClusterId), domState s c.val = 4 ∧ (∀ y ∈ (getCore s c).ctxs.toList, y.st = .idle) ∧
    (getCore s c).te.stream = [] ∧ (getCore s c).lastRun + usT (policy s 7 0) ≤ now s ∧ pendingLaunches s = [] ∧ heldAwake s (c.val / 8) = false ∧
    domState s (256 + k.val) = 4 ∧ heldAwake s k.val = false ∧ (getCore s c).lastRun + usT (policy s 15 8) ≤ now s :=
  ⟨domIn 255 4 (domIn (256 + 31) 4 (later State.reset)), 255, 31, by decide +kernel⟩

theorem wit_Power_cluster : ∃ (s : State) (k : ClusterId), domState s (256 + k.val) = 4 ∧ pendingLaunches s = [] ∧ heldAwake s k.val = false ∧
    ∀ c : CoreId, c.val / 8 = k.val → (coreActive s c.val = false ∨ domState s c.val = 2) ∧ (getCore s c).lastRun + usT (policy s 15 8) ≤ now s :=
  ⟨(List.range 8).foldl (fun s i => domIn (248 + i) 2 s) (domIn (256 + 31) 4 (later State.reset)), 31, by decide +kernel⟩

theorem wit_Power_stack : ∃ (s : State) (st : StackId), policy s 24 24 = 1 ∧ domState s (292 + st.val) = 4 ∧
    mapGetD 0 st.val s.dsm.used + msT (regF s 0x200008 0 15 0) ≤ now s ∧ pendingLaunches s = [] :=
  ⟨domIn 307 4 (setRegF 0x200004 0 24 24 1 (later State.reset)), 15, by decide +kernel⟩
theorem wit_Power_lane : ∃ (s : State) (l : LaneId), policy s 25 25 = 1 ∧ portEn s (portOfLane s l.val).1 = false ∧ domState s (316 + l.val) = 4 :=
  ⟨domIn 331 4 (setRegF 0x200004 0 25 25 1 (setRegQ (pp 15 0x8000B0) 0 0 State.reset)), 15, by decide +kernel⟩

/-- A sleep that has not ended, one with a wake asked for, and of each kind; a cluster's trace stream that sleep empties. -/
theorem wit_Power_entry : ∃ s u v : State, ∃ x : TraceStream, domState s 0 = 1 ∧ ¬ ((getDom s 0).since + nsT (entryNs 0) ≤ now s) ∧
    (∀ n ∈ [0, 287, 307, 315, 331], domState u n = 1 ∧ (getDom u n).since + nsT (entryNs n) ≤ now u ∧ (getDom u n).want = false) ∧
    mapGet 31 u.trace = some x ∧ domState v 255 = 1 ∧ (getDom v 255).since + nsT (entryNs 255) ≤ now v ∧ (getDom v 255).want = true :=
  ⟨domIn 0 1 State.reset,
    (let s := [0, 287, 307, 315, 331].foldl (fun s n => domIn n 1 s) (later State.reset)
     { s with trace := [(31, { fifo := Fifo.empty, lastNs := 0, syncMs := none, needSync := true })] }),
    (let s := later State.reset
     { s with pwr := { s.pwr with doms := [(255, { Dom.off with st := 1, want := true })] } }), { fifo := Fifo.empty, lastNs := 0, syncMs := none, needSync := true }, by decide +kernel⟩

/-- A domain that a launch waits for past its time; a core that comes up with its cluster for a launch. -/
theorem wit_Power_late : ∃ s u : State, (∃ l ∈ s.pwr.late, l.1 = 0) ∧ domState s 0 = 2 ∧
    domState u 256 = 3 ∧ (getDom u 256).since + nsT (wakeNs 256) ≤ now u ∧ (∃ l ∈ pendingLaunches u, 0 ∈ l.2) ∧ domState u 0 = 2 :=
  ⟨(let s := domIn 0 2 State.reset
    { s with pwr := { s.pwr with late := [(0, 9)] } }), later (domIn 256 3 (launchAt (2 ^ 63))), by decide +kernel⟩

/-- A launch within the wake time of core 0 and one beyond it; a domain asleep, one entering, and one that is ON. -/
theorem wit_Power_wakes : ∃ s u : State, (∃ l ∈ pendingLaunches s, 0 ∈ l.2 ∧ nsT l.1 ≤ now s + wakeLeft s 0 (now s)) ∧ domState s 0 = 2 ∧
    (∀ l ∈ pendingLaunches u, 0 ∈ l.2 → now u + wakeLeft u 0 (now u) < nsT l.1) ∧ (pendingLaunches u).length = 1 ∧ domState u 255 = 1 ∧
    (getDom u 255).want = false ∧ domState u 287 = 4 := ⟨launchAt 1500, domIn 287 4 (domIn 255 1 (launchAt 1501)), by decide +kernel⟩

/-- Wakes that have not ended, ended and failed, of each kind of domain. -/
theorem wit_Power_wakeEnd : ∃ s u : State, domState s 0 = 3 ∧ ¬ ((getDom s 0).since + nsT (wakeNs 0) ≤ now s) ∧
    (∀ n ∈ [0, 287, 292, 308, 331], domState u n = 3 ∧ wakeNs n ≠ 0 ∧ (getDom u n).since + nsT (4 * wakeNs n) ≤ now u) ∧
    (getDom u 0).retried = false ∧ domState u 255 = 3 ∧ (getDom u 255).retried = true ∧ (getLane u 15).st = 3 :=
  ⟨domIn 0 3 State.reset,
    (let s := [0, 287, 292, 308, 331].foldl (fun s n => domIn n 3 s) (setLane 15 { Lane.down with st := 3 } (later State.reset))
     { s with pwr := { s.pwr with doms := mapSet 255 { Dom.off with st := 3, retried := true } s.pwr.doms } }), by decide +kernel⟩

/-- A droop in cluster 31, and its recovery before 100 ns and after. -/
theorem wit_Power_droop : ∃ s u : State, (∃ p ∈ s.stretch.droop, p.1 = 31) ∧ mapGet 31 s.stretch.droop = some 0 ∧ now s < 0 + nsT 100 ∧
    (∀ p ∈ s.stretch.droop, p.1 ≠ 0) ∧ mapGet 31 u.stretch.droop = some 0 ∧ 0 + nsT 100 ≤ now u :=
  ⟨{ State.reset with stretch := { State.reset.stretch with droop := [(31, 0)] } },
    later { State.reset with stretch := { State.reset.stretch with droop := [(31, 0)] } }, by decide +kernel⟩

/-- A power window that was closed, and one that was not; temperatures at, below and 5 degrees below the limit of a die that stretches. -/
theorem wit_Power_limits : ∃ s u : State, ∃ temp cool : Byte, s.pwr.window = some (nowNs s / 1000000) ∧ u.pwr.window ≠ some (nowNs u / 1000000) ∧
    u.stretch.cap = false ∧ regF s 0x200018 0 7 0 ≤ temp.toNat ∧ cool.toNat + 5 ≤ regF s 0x200018 0 7 0 ∧ 5 ∈ s.stretch.thermal ∧
    5 ∉ u.stretch.thermal ∧ 3 ∉ u.stretch.avs :=
  ⟨(let s := setRegF 0x200018 0 7 0 105 State.reset
    { s with pwr := { s.pwr with window := some 0 }, stretch := { s.stretch with thermal := [5] } }), State.reset, 105, 100, by decide +kernel⟩

/-! ### Hypotheses of the statements: boot, security and the whole machine

Whether a firmware image verifies rests on the digests and signatures, which Config leaves open (log 6). A clause on an image that
verifies has its witness for every image and fuses that do. -/

def withBoot (f : BootState → BootState) (s : State) : State := { s with boot := f s.boot }
def ev1 : EvRec := { ev0 0 with open_ := true }

theorem wit_Boot_release : ∃ s u : State, s.boot.held = false ∧ u.boot.held = true ∧ ∃ p ∈ u.recorder.mram, p.2.open_ = true :=
  ⟨withBoot (fun b => { b with held := false }) State.reset,
    { State.reset with recorder := { State.reset.recorder with mram := [(4095, ev1)] } }, by decide +kernel⟩

/-- PORST_N is high, the newest directory prefers copy B, and two copies stand in flash. -/
def rom (straps : BitVec 4) (f : Fuses) (a b : FwCopy) : State :=
  withBoot (fun x => { x with
    held := false, straps := straps, fuses := f
    flash := { x.flash with
      dir := ⟨#[⟨6, false, true⟩, ⟨7, true, true⟩], rfl⟩, fw := ⟨#[a, b], rfl⟩ } }) State.reset
def romReady (s : State) : Bool :=
  !s.boot.held && !s.boot.straps.getLsbD 3 && regF s 0x600000 0 2 0 == 0 && s.boot.flash.dir.toList.contains ⟨7, true, true⟩ &&
    s.boot.flash.dir.toList.all (fun e => !e.crcOk || decide (e.seq < 7) || e == ⟨7, true, true⟩)

theorem fwVerifies_empty (f : Fuses) : fwVerifies f FwCopy.empty = false := rfl

/-- The recovery strap, and two copies that do not verify. -/
theorem wit_Boot_verify_hold : romReady (rom 1 Fuses.blank FwCopy.empty FwCopy.empty) = true ∧
    (rom 1 Fuses.blank FwCopy.empty FwCopy.empty).boot.straps.getLsbD 0 = true ∧
    romReady (rom 0 Fuses.blank FwCopy.empty FwCopy.empty) = true ∧
    fwVerifies Fuses.blank (fwCopy (rom 0 Fuses.blank FwCopy.empty FwCopy.empty) true) = false ∧
    fwVerifies Fuses.blank (fwCopy (rom 0 Fuses.blank FwCopy.empty FwCopy.empty) false) = false := by decide +kernel

theorem romReady_eq (x : BitVec 4) (f : Fuses) (a b : FwCopy) :
    romReady (rom x f a b) = romReady (rom x Fuses.blank FwCopy.empty FwCopy.empty) := rfl

/-- The preferred copy verifies, or the other one alone. -/
theorem wit_Boot_verify (f : Fuses) (c : FwCopy) (h : fwVerifies f c = true) : ∃ s u : State, romReady s = true ∧ romReady u = true ∧
    s.boot.straps.getLsbD 0 = false ∧ u.boot.straps.getLsbD 0 = false ∧ fwVerifies s.boot.fuses (fwCopy s true) = true ∧
    fwVerifies u.boot.fuses (fwCopy u true) = false ∧ fwVerifies u.boot.fuses (fwCopy u false) = true :=
  have hr : romReady (rom 0 Fuses.blank FwCopy.empty FwCopy.empty) = true := by decide +kernel
  have hs : (0 : BitVec 4).getLsbD 0 = false := by decide
  ⟨rom 0 f FwCopy.empty c, rom 0 f c FwCopy.empty, (romReady_eq 0 f _ _).trans hr, (romReady_eq 0 f _ _).trans hr, hs, hs, h,
    fwVerifies_empty f, h⟩

theorem wit_Boot_fill : ∃ s : State, s.boot.fwUp = true ∧ s.boot.filled = false ∧ s.boot.held = true :=
  ⟨withBoot (fun b => { b with fwUp := true }) State.reset, by decide +kernel⟩

def staged (st role src : Nat) (locked : Bool) : State :=
  let s := setRegF 0x600000 0 2 0 st State.reset
  { s with time := { s.time with source := src, locked := locked }, host := { s.host with cfg := { s.host.cfg with fields := [(1, role)] } } }

/-- Another stage; a source that has not locked; a step of GT; and each configured role. -/
theorem wit_Boot_serving : ∃ s u v : State, ∃ src : W64, regF s 0x600000 0 2 0 ≠ 3 ∧ regF u 0x600000 0 2 0 = 3 ∧ 2 ≤ u.time.source ∧
    u.boot.timeDone = false ∧ u.time.locked = false ∧ regF v 0x600000 0 2 0 = 3 ∧ 2 ≤ v.time.source ∧ v.boot.timeDone = false ∧
    v.time.locked = true ∧ v.grp.role = 0 ∧ now v < nsT src.toNat ∧ v.host.launch = [] ∧ v.boot.switchAt = none ∧ cfgField v 1 0 = 2 :=
  ⟨staged 2 0 0 false, staged 3 0 2 false, staged 3 2 2 true, 9, by decide +kernel⟩
theorem wit_Boot_serving_roles : ∀ role < 3, (staged 3 role 0 false).grp.role = 0 ∧ regF (staged 3 role 0 false) 0x600000 0 2 0 = 3 ∧
    cfgField (staged 3 role 0 false) 1 0 = role ∧ (staged 3 role 0 false).time.source < 2 := by decide +kernel

/-- Stage 8 with a step that waits, and after it; a source that is left in holdover, already there or not, and one that is not late. -/
def waitingStep (stepTo : Option W64) : State :=
  let s := staged 3 0 2 true
  { s with time := { s.time with stepTo := stepTo }, boot := { s.boot with timeDone := stepTo.isSome } }
def unlockedFor (holdover : Bool) : State :=
  let s := staged 2 0 2 false
  later { s with time := { s.time with holdover := holdover }, boot := { s.boot with configAt := some 0 } }
def lateLock (s : State) : Bool :=
  decide (2 ≤ s.time.source) && !s.boot.timeDone && !s.time.locked && decide (0 + nsT 30000000000 ≤ now s)
theorem wit_Boot_step : (waitingStep (some 9)).time.stepTo ≠ none ∧ regF (waitingStep (some 9)) 0x600000 0 2 0 = 3 ∧
    (waitingStep (some 9)).boot.timeDone = true ∧ (waitingStep none).time.stepTo = none ∧ (waitingStep none).time.locked = true ∧
    ¬ (now (waitingStep none) < nsT 0) ∧ holdsLaunch (staged 3 2 2 true) = false := by decide +kernel
theorem wit_Boot_timeout : lateLock (unlockedFor true) = true ∧ (unlockedFor true).time.holdover = true ∧ lateLock (unlockedFor false) = true ∧
    (unlockedFor false).time.holdover = false ∧ (unlockedFor false).boot.configAt = some 0 ∧ lateLock (staged 2 0 0 false) = false ∧
    (staged 2 0 0 false).boot.configAt = none := by decide +kernel

theorem wit_Boot_link : ∃ s u : State, unitActive s (ucNet (portDie .h1)) = false ∧ unitActive u (ucNet (portDie .h1)) = true ∧
    u.boot.straps.getLsbD 3 = false ∧ u.boot.fwUp = false :=
  ⟨setUnit (ucNet .n1) 2 0x33 State.reset, State.reset, by decide +kernel⟩

/-- A header whose fields R431 admits, of a body of 1 MiB. -/
def hdr1 : Bytes :=
  toLE 4 0x46575A46 ++ toLE 2 1 ++ [0, 0] ++ toLE 4 5 ++ toLE 4 1048576 ++ List.replicate 496 0
def body1 : Bytes := List.replicate 1048576 0
def writing (cmd : Nat) (f : BootState → BootState) : State :=
  setRegW 0x600030 0 cmd (setRegF 0x600020 0 23 0 1049088 (withSem (withBoot f State.reset)))
def noRoots : Fuses := { Fuses.blank with roots := Vector.replicate 4 { hash := [], programmed := false, revoked := false } }

theorem wit_FirmwareAndFuses_sem : ∃ (s : State) (p : HPort), holdsSem s p = false := ⟨State.reset, .h0, by decide +kernel⟩

theorem body1_length : (hdr1 ++ body1).length = 1049088 := by
  rw [List.length_append, show body1.length = 1048576 from List.length_replicate, show hdr1.length = 512 by decide +kernel]

/-- A write while one runs; a header of another magic; and an image that no root key signs. -/
theorem wit_FirmwareAndFuses_write : ∃ s u : State, ∃ hdr body : Bytes, holdsSem s .h0 = true ∧ bits (regW s 0x600030 0) 1 0 = 1 ∧
    bit (regW s 0x600030 0) 3 = true ∧ (hdr1 ++ body1).length = regF s 0x600020 0 23 0 ∧ holdsSem u .h0 = true ∧
    bits (regW u 0x600030 0) 1 0 = 1 ∧ bit (regW u 0x600030 0) 3 = false ∧ u.boot.write = none ∧ u.boot.switchAt = none ∧
    bit (regW u 0x600000 0) 5 = false ∧ (hdr ++ body).length = regF u 0x600020 0 23 0 ∧ fwFormat hdr = false ∧
    (hdr1 ++ body1).length = regF u 0x600020 0 23 0 ∧ fwFormat hdr1 = true ∧ body1.length = fwLen hdr1 ∧ fwSigned u.boot.fuses hdr1 = false := by
  refine ⟨writing 9 id, writing 1 (fun b => { b with fuses := noRoots }), 0 :: hdr1.drop 1, body1, by decide +kernel, by decide +kernel,
    by decide +kernel, by rw [body1_length]; decide +kernel, by decide +kernel, by decide +kernel, by decide +kernel, by decide +kernel,
    by decide +kernel, by decide +kernel, ?_, by decide +kernel, by rw [body1_length]; decide +kernel, by decide +kernel, ?_, by decide +kernel⟩
  · rw [List.length_append, show body1.length = 1048576 from List.length_replicate,
      show (0 :: hdr1.drop 1).length = 512 by decide +kernel]
    decide +kernel
  · rw [show body1.length = 1048576 from List.length_replicate]
    decide +kernel

theorem writing_regs (cmd : Nat) (f : BootState → BootState) : (writing cmd f).regs = (writing cmd id).regs := rfl
theorem writing_regW (cmd : Nat) (f : BootState → BootState) (o i : Nat) : regW (writing cmd f) o i = regW (writing cmd id) o i := by
  unfold regW
  rw [writing_regs]
theorem writing_regF (cmd : Nat) (f : BootState → BootState) (o i hi lo : Nat) :
    regF (writing cmd f) o i hi lo = regF (writing cmd id) o i hi lo := by
  unfold regF
  rw [writing_regW]
theorem writing_holds (cmd : Nat) (f : BootState → BootState) (p : HPort) : holdsSem (writing cmd f) p = holdsSem (writing cmd id) p := rfl

/-- Fuses under which a header of R431 is signed, with a counter at its SVN or above it. -/
theorem wit_FirmwareAndFuses_write_signed (f : Fuses) (h : fwSigned f hdr1 = true) : ∃ s u : State, holdsSem s .h0 = true ∧
    bits (regW s 0x600030 0) 1 0 = 1 ∧ bit (regW s 0x600030 0) 3 = false ∧ s.boot.write = none ∧ s.boot.switchAt = none ∧
    bit (regW s 0x600000 0) 5 = false ∧ (hdr1 ++ body1).length = regF s 0x600020 0 23 0 ∧ fwSigned s.boot.fuses hdr1 = true ∧
    bNum hdr1 8 4 < s.boot.fuses.counter ∧ holdsSem u .h0 = true ∧ bits (regW u 0x600030 0) 1 0 = 1 ∧ bit (regW u 0x600030 0) 3 = false ∧
    u.boot.write = none ∧ u.boot.switchAt = none ∧ bit (regW u 0x600000 0) 5 = false ∧
    (hdr1 ++ body1).length = regF u 0x600020 0 23 0 ∧ fwSigned u.boot.fuses hdr1 = true ∧ u.boot.fuses.counter ≤ bNum hdr1 8 4 := by
  have hn : bNum hdr1 8 4 = 5 := by decide +kernel
  have hw : holdsSem (writing 1 id) .h0 = true ∧ bits (regW (writing 1 id) 0x600030 0) 1 0 = 1 ∧ bit (regW (writing 1 id) 0x600030 0) 3 = false ∧
      (writing 1 id).boot.write = none ∧ (writing 1 id).boot.switchAt = none ∧ bit (regW (writing 1 id) 0x600000 0) 5 = false ∧
      1049088 = regF (writing 1 id) 0x600020 0 23 0 := by decide +kernel
  obtain ⟨w1, w2, w3, w4, w5, w6, w7⟩ := hw
  refine ⟨writing 1 (fun b => { b with fuses := { f with counter := 6 } }), writing 1 (fun b => { b with fuses := { f with counter := 5 } }),
    ?_, ?_, ?_, w4, w5, ?_, ?_, h, ?_, ?_, ?_, ?_, w4, w5, ?_, ?_, h, ?_⟩
  all_goals first
    | rw [writing_holds]; exact w1
    | rw [hn]; exact Nat.lt_succ_self 5
    | rw [hn]; exact Nat.le_refl 5
    | rw [writing_regF, body1_length]; exact w7
    | rw [writing_regW]; first | exact w2 | exact w3

def hdr2 : Bytes := List.replicate 24 0 ++ noDigest
def programming (hdr : Bytes) (hold : Bool) : State :=
  withBoot (fun b => { b with write := some { copy := 1, hold := hold, image := { hdr := hdr, body := [] } } }) State.reset

/-- Images whose programming ends with the digest of their header, in HOLD and elsewhere, and one without it. -/
theorem wit_FirmwareAndFuses_programmed : ∃ (s u v : State) (w x y : FwWrite), s.boot.write = some w ∧ w.copy < 2 ∧ w.hold = true ∧
    w.image.body.length = fwLen w.image.hdr ∧ Config.sha384 w.image.body = hdrBytes w.image.hdr 24 48 ∧ u.boot.write = some x ∧ x.copy < 2 ∧
    x.hold = false ∧ x.image = w.image ∧ v.boot.write = some y ∧ y.copy < 2 ∧ y.image.body.length ≠ fwLen y.image.hdr := by
  have hd : noDigest.length = 48 := by simp [noDigest]
  refine ⟨programming hdr2 true, programming hdr2 false, programming hdr1 false, _, _, _, rfl, by decide, rfl, by decide +kernel, ?_, rfl, by decide,
    rfl, rfl, rfl, by decide, by decide +kernel⟩
  show Config.sha384 [] = (hdr2.drop 24).take 48
  unfold hdr2
  rw [List.drop_left' (by decide), List.take_of_length_le (by omega), noDigest_eq]

/-- SWITCH while a command runs; without a standby; too far ahead; and a switch that waits. -/
theorem wit_FirmwareAndFuses_switch : ∃ s u v : State, holdsSem s .h0 = true ∧ bits (regW s 0x600030 0) 1 0 = 2 ∧
    bit (regW s 0x600030 0) 3 = true ∧ holdsSem u .h0 = true ∧ bits (regW u 0x600030 0) 1 0 = 2 ∧ bit (regW u 0x600030 0) 3 = false ∧
    u.boot.switchAt = none ∧ u.boot.standby = none ∧ holdsSem v .h0 = true ∧ bits (regW v 0x600030 0) 1 0 = 2 ∧
    bit (regW v 0x600030 0) 3 = false ∧ v.boot.switchAt = none ∧ v.boot.standby ≠ none ∧ tooFar v (regQ v 0x600028 0) = false ∧
    tooFar (setRegQ 0x600028 0 60000000001 v) (regQ (setRegQ 0x600028 0 60000000001 v) 0x600028 0) = true :=
  ⟨writing 10 id, writing 2 id, writing 2 (fun b => { b with standby := some (1, FwCopy.empty) }), by decide +kernel⟩

theorem wit_FirmwareAndFuses_handoff : ∃ s : State, s.boot.switchAt = some 1 ∧ s.boot.standby = some (1, FwCopy.empty) ∧ now s < 1 ∧
    (later s).boot.switchAt = some 1 ∧ 1 ≤ now (later s) :=
  ⟨withBoot (fun b => { b with switchAt := some 1, standby := some (1, FwCopy.empty) }) State.reset, by decide +kernel⟩

theorem wit_FirmwareAndFuses_trial : ∃ s u : State, bit (regW s 0x600000 0) 5 = false ∧ bit (regW u 0x600000 0) 5 = true ∧
    u.boot.probation = some 1 ∧ u.boot.resident = some (0, FwCopy.empty) ∧ now u < 1 ∧ 1 ≤ now (later u) ∧
    (later u).boot.probation = some 1 :=
  ⟨State.reset, withBoot (fun b => { b with probation := some 1, resident := some (0, FwCopy.empty) }) (setRegF 0x600000 0 5 5 1 State.reset),
    by decide +kernel⟩

/-- A fuse action and its target, and running firmware of SVN 5. -/
def fusing (action target busy : Nat) : State :=
  setRegW 0x608004 0 (action + 4 * target + 1024 * busy) (withSem (withBoot (fun b => { b with running := { hdr := hdr1, body := [] } }) State.reset))

/-- RAISE_COUNTER while fuses blow; to a value above the running SVN; and to 5. REVOKE_SLOT of slot 4. -/
theorem wit_FirmwareAndFuses_fuses : ∃ s u v w : State, holdsSem s .h0 = true ∧ bits (regW s 0x608004 0) 1 0 = 1 ∧
    bit (regW s 0x608004 0) 10 = true ∧ holdsSem u .h0 = true ∧ bits (regW u 0x608004 0) 1 0 = 1 ∧ bit (regW u 0x608004 0) 10 = false ∧
    fwSvn u.boot.running < bits (regW u 0x608004 0) 8 2 ∧ holdsSem v .h0 = true ∧ bits (regW v 0x608004 0) 1 0 = 1 ∧
    bit (regW v 0x608004 0) 10 = false ∧ bit (regW v 0x600000 0) 5 = false ∧ v.boot.fuses.counter < bits (regW v 0x608004 0) 8 2 ∧
    bits (regW v 0x608004 0) 8 2 ≤ 64 ∧ bits (regW v 0x608004 0) 8 2 ≤ fwSvn v.boot.running ∧ holdsSem w .h0 = true ∧
    bits (regW w 0x608004 0) 1 0 = 2 ∧ bit (regW w 0x608004 0) 10 = false ∧ 3 < bits (regW w 0x608004 0) 8 2 :=
  ⟨fusing 1 5 1, fusing 1 6 0, fusing 1 5 0, fusing 2 4 0, by decide +kernel⟩

def revoking (c : FwCopy) : State :=
  setRegW 0x608004 0 14 (withSem (withBoot (fun b => { b with flash := { b.flash with fw := ⟨#[c, c], rfl⟩ } }) State.reset))

/-- REVOKE_SLOT of a slot that leaves an image that verifies. -/
theorem wit_FirmwareAndFuses_revoke (c : FwCopy)
    (h : fwVerifies { Fuses.blank with roots := famMap (fun n x => if n = 3 then { x with revoked := true } else x) Fuses.blank.roots } c = true) :
    ∃ s : State, holdsSem s .h0 = true ∧ bits (regW s 0x608004 0) 1 0 = 2 ∧ bit (regW s 0x608004 0) 10 = false ∧
      bit (regW s 0x600000 0) 5 = false ∧ bits (regW s 0x608004 0) 8 2 = 3 ∧ ∃ x ∈ s.boot.flash.fw.toList,
        fwVerifies { s.boot.fuses with roots := famMap (fun n x => if n = 3 then { x with revoked := true } else x) s.boot.fuses.roots } x = true := by
  have hw : holdsSem (revoking FwCopy.empty) .h0 = true ∧ bits (regW (revoking FwCopy.empty) 0x608004 0) 1 0 = 2 ∧
      bit (regW (revoking FwCopy.empty) 0x608004 0) 10 = false ∧ bit (regW (revoking FwCopy.empty) 0x600000 0) 5 = false ∧
      bits (regW (revoking FwCopy.empty) 0x608004 0) 8 2 = 3 := by decide +kernel
  obtain ⟨w1, w2, w3, w4, w5⟩ := hw
  exact ⟨revoking c, w1, w2, w3, w4, w5, c, List.mem_cons_self, h⟩

theorem wit_FirmwareAndFuses_blow : ∃ s u : State, s.boot.fuseJob = some (1, 5) ∧ u.boot.fuseJob = some (2, 3) :=
  ⟨withBoot (fun b => { b with fuseJob := some (1, 5) }) State.reset, withBoot (fun b => { b with fuseJob := some (2, 3) }) State.reset, rfl, rfl⟩

/-- I3C offsets of a telemetry register, of none and of a port's own. -/
theorem wit_FirmwareAndFuses_i3c : ∃ s : State, s.boot.fwUp = true ∧ i3cAllowed 0x608000 = false ∧ i3cAllowed 0x14 = true ∧ portOwn 0x14 = false ∧
    0x14 % 4 = 0 ∧ holdsSem s .h0 = true :=
  ⟨withSem (withBoot (fun b => { b with fwUp := true }) State.reset), by decide +kernel⟩

/-- Running firmware: a step of the quiet clock from here keeps the invariant, as does any command. -/
theorem wit_InvariantKept : ∃ s t : State, Inv s ∧ s.boot.fuses.counter = 64 ∧ s.host.sem.owner = some .h0 ∧ step s = .next t := by
  refine ⟨withSem (withBoot (fun b => { b with held := false, fuses := { b.fuses with counter := 64 }, fuseJob := some (1, 64) }) State.reset), ?_⟩
  obtain ⟨t, h⟩ := next_of (r := step (withSem (withBoot (fun b =>
    { b with held := false, fuses := { b.fuses with counter := 64 }, fuseJob := some (1, 64) }) State.reset))) (by decide +kernel)
  refine ⟨t, ⟨by decide +kernel, ?_, by decide +kernel⟩, by decide +kernel, by decide +kernel, h⟩
  intro target ht
  have : (1, 64) = (1, target) := Option.some.inj ht
  cases this
  decide

/-- HIF_SEM comes to port H0 by its SEM_REQ. -/
theorem wit_WholeMachine : ∃ (s t : State) (i : Instr), exec i s = .next t ∧ t.host.sem.owner = some .h0 ∧ s.host.sem.owner = none := by
  have h : (match exec (.semReq .h0 7) State.reset with
    | .next t => decide (t.host.sem.owner = some .h0)
    | _ => false) = true := by decide +kernel
  cases hr : exec (.semReq .h0 7) State.reset with
  | next t => rw [hr] at h; exact ⟨State.reset, t, _, hr, of_decide_eq_true h, rfl⟩
  | fault _ => rw [hr] at h; cases h
  | refused _ => rw [hr] at h; cases h

/-- Values that are not listed, an address that does not exist, a VEC without instructions, and a fenced core. -/
theorem wit_CommandsStopWhere : ∃ (s : State) (v : VOps) (op : LdtOp) (vec : VecOp), holdsUnlisted s (.add 255 v) = true ∧
    holdsUnlisted s (.ldt 255 1 op []) = false ∧ reachesOutside s (.ldt 255 1 op []) = true ∧ vec.instrCount = 0 ∧
    vecEngineOf (.vnop 0 (vo 0 0 0 0 0)) = some 0 ∧ coreActive s 0 = false ∧ holdsUnlisted s (.vnop 0 (vo 0 0 0 0 0)) = false ∧
    reachesOutside s (.vnop 0 (vo 0 0 0 0 0)) = false :=
  ⟨setUnit (ucCore 0) 1 0x50 State.reset, vo 0 0 0 7 0, { ldt0 with memAddr := 1048576 }, { hdr := hdr0, instrOff := 0, instrCount := 0 },
    by decide +kernel⟩

/-- Its queue holds a command. -/
theorem wit_StepTakesFront : ∃ (s u : State) (c : Instr), s.pending = [c] ∧ u.pending = [] ∧ u.boot.held = false ∧ u.time.stepTo = some 9 ∧
    stepAllowed u 9 false = true ∧ stepAllowed (later u) 9 false = false :=
  ⟨{ State.reset with pending := [.porstAssert] }, withBoot (fun b => { b with held := false })
    { State.reset with time := { State.reset.time with stepTo := some 9 } }, .porstAssert, by decide +kernel⟩

/-! ### Worked values of the manual -/

/-- 00_scope, the example under its naming rules: C1.K3.P6.ME2 is core 94 and engine 378. -/
theorem test_unit_name : ucEngine 94 2 = 0x1000 + 378 := by decide +kernel

/-- 05_vector_engine, the example under R131. -/
theorem test_topk_word :
    vecOpcode 0x0000400009080A40 = 0x40 ∧ vecFields 0x0000400009080A40 = vo 10 8 9 0 64 := by decide +kernel

/-- 03_formats_quantisation, the example under R73: a group of 0.75 and a group of -0.3. -/
theorem test_size_constant :
    sizeGroup .int8 true (List.replicate 64 (f32 0x3F400000)) = { scale := 0x74, zp := -1, const := true } ∧
    packAct { scale := 0x74, seq := 5, const := true, cut := false, gsize := 1, zp := -1, wsum := 0 } = 0x0055FF74 ∧
    sizeGroup .int8 true (List.replicate 64 (f32 0xBE99999A)) = { scale := 0x6A, zp := 0, const := true } := by
  decide +kernel

/-- 03_formats_quantisation, the worked group: the two blocks as they lie in storage. -/
def workedW : Block :=
  readBlock true .fp4 32 (toLE 4 0x0054035C ++ [0x93, 0x07, 0xD4, 0x61, 0x93, 0x07, 0xD4, 0x61, 0x93, 0x07, 0xD4, 0x61, 0x93, 0x07, 0xD4, 0x61])
def workedA : Block :=
  readBlock false .int8 32 (toLE 4 0x0003E24A ++ (List.replicate 4 [0x0A, 0x14, 0xFB, 0x07, 0x00, 0x03, 0x64, 0xFE]).flatten)

theorem test_worked_deckles :
    workedW.dk = { scale := 0x5C, seq := 3, const := false, cut := false, gsize := 0, zp := 0, wsum := 84 } ∧
    workedA.dk = { scale := 0x4A, seq := 3, const := false, cut := false, gsize := 0, zp := -30, wsum := 0 } ∧
    wsumOf .fp4 workedW.codes = 84 := by decide +kernel

theorem test_worked_group :
    rawSum .fp4 .int8 workedW workedA = 64 ∧
    toF32 (roundFV fp32 (blockTerm .fp4 .int8 workedW workedA FV.zero)) = 0x40176800 ∧
    toF32 (narrowAcc .fp4 .int8 (f32 0xBFA00000) [workedW] [workedA] [FV.zero]) = 0x3F8ED000 := by decide +kernel

/-- 06_tree_engine, the worked traversal. -/
def workedNode (i : Nat) : W64 :=
  [0x0000000024220003, 0x0000000063F8000C, 0x80000000BE800000, 0x0000000043E80007, 0x80000000BE000000, 0x800000003F400000,
    0x80000000BD800000, 0x800000003F000000].getD i 0
def workedFeat (f : Nat) : W16 := if f == 3 then 0x4220 else if f == 7 then 0x3EA0 else if f == 12 then 0x7FC0 else 0

theorem test_worked_walks :
    walk workedNode true workedFeat 3 0 = { leaf := workedNode 5, nodes := [0, 3, 5], feats := [3, 7], nans := 0 } ∧
    walk workedNode true workedFeat 3 1 = { leaf := workedNode 7, nodes := [1, 7], feats := [12], nans := 1 } := by decide +kernel

theorem test_worked_tree_sum :
    toF32 (segSum [walk workedNode true workedFeat 3 0, walk workedNode true workedFeat 3 1] 0) = 0x3FA00000 ∧
    toF32 (add32 (f32 0xBF800000) (f32 0x3FA00000)) = 0x3E800000 := by decide +kernel

/-- 07_memory_stacks, the example under R187 and the coefficients of its rebuild. -/
theorem test_address_map :
    lineStripe (0x1000007C0 / 64) = 80659 ∧ lineSlot (0x1000007C0 / 64) = 9 ∧ lineIx (0x1000007C0 / 64) = 31 ∧
    slotStack 80659 9 = 12 ∧ slotStack 80659 13 = 0 ∧ slotStack 80659 14 = 1 ∧ slotStack 80659 15 = 2 ∧
    lineKey 12 80659 31 % 2 ^ 32 = 0x13B137C0 / 64 := by decide +kernel

theorem test_parity_coefficients : gfPow 9 = 0x3A ∧ gfPow 13 = 0x87 := by decide +kernel

/-- 09_packet_path, the example of the flow features. -/
theorem test_flow_features :
    lg16 1000 = 2551 ∧ lg16 3200 = 2980 ∧ iatBin 3200 = 1 ∧
    bumpHist [12, 255, 40, 3, 0, 0, 0, 1] 1 = [6, 128, 20, 1, 0, 0, 0, 0] := by decide +kernel

/-- 16_observation, the example of a counter's number. -/
theorem test_counter_number : cntEngine 343 5 = 2749 := by decide

/-! ### Terms that are not well formed, one for each check -/

theorem wf_vops : Instr.wf (.add 0 (vo 31 64 255 0 0)) = true ∧ Instr.wf (.add 0 (vo 32 1 2 0 0)) = false ∧
    Instr.wf (.add 0 (vo 0 63 2 0 0)) = false ∧ Instr.wf (.rsum 0 (vo 0 1 40 0 0)) = false := by decide +kernel

theorem wf_mma : Instr.wf (.mma 0 0 mma0 .ok) = true ∧ Instr.wf (.mma 0 0 { mma0 with gsize := 3 } .ok) = false ∧
    Instr.wf (.mma 0 0 { mma0 with nM1 := 48 } .ok) = false ∧ Instr.wf (.mma 0 0 { mma0 with sideRef := 1 } .ok) = false := by
  decide +kernel

def sttW : SttOp := { hdr := hdr0, space := 1, fromBank := true, tmAddr := 0, memAddr := 0, len := 3 }

theorem wf_load_store : Instr.wf (.ldt 0 0 ldt0 []) = true ∧ Instr.wf (.ldt 0 0 { ldt0 with space := 3 } []) = false ∧
    Instr.wf (.ldt 0 0 { ldt0 with len := 0 } []) = false ∧ Instr.wf (.stt 0 0 sttW) = true ∧
    Instr.wf (.stt 0 0 { sttW with len := 4 }) = false := by decide +kernel

theorem wf_vec : Instr.wf (.vec 0 0 { hdr := hdr0, instrOff := 0, instrCount := 1 } ⟨[0], []⟩) = true ∧
    Instr.wf (.vec 0 0 { hdr := hdr0, instrOff := 0, instrCount := 0 } ⟨[], []⟩) = false ∧
    Instr.wf (.vec 0 0 { hdr := hdr0, instrOff := 0, instrCount := 2 } ⟨[0], []⟩) = false := by decide +kernel

def treeW : TreeOp :=
  { hdr := hdr0, standId := 0, seg := 0, outMode := 1, fAddr := 0, oAddr := 0, fStrideM1 := 0, oStrideM1 := 0, samplesM1 := 0, fence := false }

theorem wf_tree : Instr.wf (.tree 0 0 treeW []) = true ∧ Instr.wf (.tree 0 0 { treeW with outMode := 3 } []) = false ∧
    Instr.wf (.tree 0 0 { treeW with seg := 1 } []) = false := by decide +kernel

theorem wf_token : Instr.wf (.wait 0 0 { hdr := hdr0, token := 5, count := 1 }) = true ∧
    Instr.wf (.wait 0 0 { hdr := hdr0, token := 5, count := 0 }) = false ∧
    Instr.wf (.signal 0 0 { hdr := hdr0, token := 5, count := 0 }) = false := by decide +kernel

def nluW : NluCmd :=
  { launchRef := 0, table := 0, poolOp := 0, outFmt := 1, keyLine := 0, keyCountM1 := 0, bagLine := 0, bagCountM1 := 0,
    destCluster := 0, destLine := 0, destStrideM1 := 0, tensorId := 0, reamSeq := 0 }

theorem wf_lookup : Instr.wf (.gather 0 nluW []) = true ∧ Instr.wf (.gather 0 { nluW with outFmt := 3 } []) = false ∧
    Instr.wf (.gather 0 { nluW with bagLine := 1 } []) = false ∧ Instr.wf (.pool 0 { nluW with poolOp := 2 } []) = true ∧
    Instr.wf (.pool 0 { nluW with poolOp := 3 } []) = false := by decide +kernel

theorem wf_addresses : Instr.wf (.guardedWrite 55834574847 0) = true ∧ Instr.wf (.guardedWrite 55834574848 0) = false ∧
    Instr.wf (.hdmRead .h0 64 none) = true ∧ Instr.wf (.hdmRead .h0 65 none) = false ∧
    Instr.wf (.responseCellWait .n0 524287) = true ∧ Instr.wf (.responseCellWait .n0 524288) = false := by decide +kernel

theorem wf_accesses : Instr.wf (.registerWrite .h0 4 false 0) = true ∧ Instr.wf (.registerWrite .h0 4 true 0) = false ∧
    Instr.wf (.registerWrite .h0 2 false 0) = false ∧ Instr.wf (.shadowRead .h0 6) = false := by decide +kernel

theorem wf_records : Instr.wf (.tableBatch ⟨(List.replicate 64 1), [[], []]⟩) = true ∧
    Instr.wf (.tableBatch ⟨(List.replicate 63 1), [[], []]⟩) = false ∧
    Instr.wf (.tableBatch ⟨(List.replicate 32 1), [[], []]⟩) = false := by decide +kernel

theorem wf_units : Instr.wf (.overhangRead 0 0 [none, some (List.replicate 4096 0)]) = true ∧
    Instr.wf (.overhangRead 0 0 [some (List.replicate 4095 0)]) = false := by decide +kernel

theorem wf_lengths : Instr.wf (.descriptorFetch .h0 0 (some (List.replicate 63 0))) = false ∧
    Instr.wf (.fwWrite .h0 (List.replicate 511 0) []) = false ∧ Instr.wf (.overlayStore (List.replicate 4097 0)) = false ∧
    Instr.wf (.doeAttest .h0 (List.replicate 31 0)) = false ∧ Instr.wf (.certRead .h0 3 0) = false ∧ Instr.wf (.certRead .h0 2 0) = true ∧
    Instr.wf (.loadImageEnd 0 (List.replicate 1025 0) [] image0) = false := by decide +kernel

theorem wf_block (block : Bytes) (h : 65536 < block.length) : Instr.wf (.replaceBcb block) = false := by
  simp [Instr.wf, h]

/-- The table gives no row any bits. -/
theorem test_no_word (n w : Nat) : decodeTableWord n w = none ∧ State.reset.withFetchWord n w = State.reset := ⟨rfl, rfl⟩
end Sys2Proof.Tests
end

section
/-! PROOFS. BAR0: a write of a register by access code, reads with an effect, PROT_COMMIT and HOST_PORT_RESET. -/

namespace Sys2Proof.Machine

/-! ### Fields of a number -/

theorem setBits_eq (w hi lo v : Nat) :
    setBits w hi lo v = 2 ^ lo * (2 ^ (hi + 1 - lo) * (w / 2 ^ lo / 2 ^ (hi + 1 - lo)) + v % 2 ^ (hi + 1 - lo)) + w % 2 ^ lo := by
  unfold setBits bits
  generalize 2 ^ (hi + 1 - lo) = n
  have hw := Nat.div_add_mod w (2 ^ lo)
  have hq := Nat.div_add_mod (w / 2 ^ lo) n
  have e : 2 ^ lo * (w / 2 ^ lo) = 2 ^ lo * (n * (w / 2 ^ lo / n)) + w / 2 ^ lo % n * 2 ^ lo := by
    conv_lhs => rw [← hq]
    ring
  rw [Nat.mul_add, Nat.mul_comm (2 ^ lo) (v % n)]
  omega

theorem testBit_bits (w hi lo j : Nat) : (bits w hi lo).testBit j = (decide (j < hi + 1 - lo) && w.testBit (j + lo)) := by
  rw [bits, Nat.testBit_mod_two_pow, Nat.testBit_div_two_pow]

theorem bits_lt (w hi lo : Nat) : bits w hi lo < 2 ^ (hi + 1 - lo) := Nat.mod_lt _ (Nat.two_pow_pos _)

theorem bits_mod_two_pow {hi lo k : Nat} (w : Nat) (h : hi < k) : bits (w % 2 ^ k) hi lo = bits w hi lo := by
  refine Nat.eq_of_testBit_eq fun j => ?_
  rw [testBit_bits, testBit_bits, Nat.testBit_mod_two_pow]
  by_cases hj : j < hi + 1 - lo
  · have : j + lo < k := by omega
    simp [this]
  · simp [hj]

theorem bits_setBits_same (w hi lo v : Nat) : bits (setBits w hi lo v) hi lo = v % 2 ^ (hi + 1 - lo) := by
  rw [setBits_eq, bits, Nat.mul_add_div (Nat.two_pow_pos lo), Nat.div_eq_of_lt (Nat.mod_lt w (Nat.two_pow_pos lo)), Nat.add_zero,
    Nat.mul_add_mod, Nat.mod_mod]

theorem testBit_setBits_out {hi lo j : Nat} (w v : Nat) (hle : lo ≤ hi) (h : j < lo ∨ hi < j) :
    (setBits w hi lo v).testBit j = w.testBit j := by
  have hr : w % 2 ^ lo < 2 ^ lo := Nat.mod_lt w (Nat.two_pow_pos lo)
  have hv : v % 2 ^ (hi + 1 - lo) < 2 ^ (hi + 1 - lo) := Nat.mod_lt v (Nat.two_pow_pos _)
  rw [setBits_eq, Nat.testBit_two_pow_mul_add _ hr]
  rcases h with h | h
  · simp [h]
  · rw [if_neg (by omega : ¬ j < lo), Nat.testBit_two_pow_mul_add _ hv, if_neg (by omega : ¬ j - lo < hi + 1 - lo),
      Nat.testBit_div_two_pow, Nat.testBit_div_two_pow]
    congr 1
    omega

theorem bits_setBits_apart {hi lo hi' lo' : Nat} (w v : Nat) (hle : lo' ≤ hi') (h : hi < lo' ∨ hi' < lo) :
    bits (setBits w hi' lo' v) hi lo = bits w hi lo := by
  refine Nat.eq_of_testBit_eq fun j => ?_
  rw [testBit_bits, testBit_bits]
  by_cases hj : j < hi + 1 - lo
  · rw [testBit_setBits_out w v hle (by omega)]
  · simp [hj]

theorem mergeBits_lt {old v m n : Nat} (hm : m < 2 ^ n) : mergeBits old v m n < 2 ^ n :=
  Nat.or_lt_two_pow (Nat.and_lt_two_pow _ (Nat.xor_lt_two_pow hm (by have := Nat.two_pow_pos n; omega))) (Nat.and_lt_two_pow _ hm)

/-! ### A write of one field, and of all fields of a register (R5 to R7) -/

/-- Two fields have no bit in common. -/
def RegField.apart (f g : RegField) : Prop := f.hi < g.lo ∨ g.hi < f.lo

theorem putField_eq_or (d : NDie) (sem : Bool) (base mask v w : Nat) (f : RegField) :
    putField d sem base mask v w f = w ∨ ∃ x, putField d sem base mask v w f = setBits w f.hi f.lo x := by
  unfold putField
  dsimp only
  split
  · exact .inl rfl
  cases f.acc with
  | ro => exact .inl rfl
  | wo => exact .inl rfl
  | w1c => exact .inr ⟨_, rfl⟩
  | rw | rws =>
    dsimp only
    split
    · exact .inr ⟨_, rfl⟩
    · exact .inl rfl

theorem bits_putField_apart {f g : RegField} (d : NDie) (sem : Bool) (base mask v w : Nat) (hg : g.lo ≤ g.hi) (h : f.apart g) :
    bits (putField d sem base mask v w g) f.hi f.lo = bits w f.hi f.lo := by
  rcases putField_eq_or d sem base mask v w g with e | ⟨x, e⟩ <;> rw [e]
  exact bits_setBits_apart w x hg h

/-- A field that a write reaches holds what its access code makes of it. -/
theorem bits_putField_same (d : NDie) (sem : Bool) (r : RegRow) (mask v w : Nat) (f : RegField) :
    bits (putField d sem r.base mask v w f) f.hi f.lo = fieldAfter sem d r f mask v (bits w f.hi f.lo) := by
  have hold := bits_lt w f.hi f.lo
  have hm := bits_lt mask f.hi f.lo
  have hx := mergeBits_lt (old := bits w f.hi f.lo) (v := bits v f.hi f.lo) hm
  have hc : bits w f.hi f.lo &&& (bits v f.hi f.lo &&& bits mask f.hi f.lo ^^^ (2 ^ (f.hi + 1 - f.lo) - 1)) < 2 ^ (f.hi + 1 - f.lo) :=
    Nat.lt_of_le_of_lt Nat.and_le_left hold
  unfold putField fieldAfter
  dsimp only
  by_cases h0 : bits mask f.hi f.lo = 0
  · simp [h0]
  · rw [if_neg (by simpa using h0), if_neg h0]
    cases f.acc with
    | ro => rfl
    | wo => rfl
    | w1c => exact (bits_setBits_same _ _ _ _).trans (Nat.mod_eq_of_lt hc)
    | rw | rws =>
      dsimp only
      split
      · rw [bits_setBits_same, Nat.mod_eq_of_lt hx]
      · rfl

theorem bits_foldl_putField_apart {f : RegField} (d : NDie) (sem : Bool) (base mask v : Nat) (gs : List RegField)
    (hg : ∀ g ∈ gs, g.lo ≤ g.hi ∧ f.apart g) (w : Nat) :
    bits (gs.foldl (putField d sem base mask v) w) f.hi f.lo = bits w f.hi f.lo := by
  induction gs generalizing w with
  | nil => rfl
  | cons g gs ih =>
    obtain ⟨hle, hap⟩ := hg g (by simp)
    rw [List.foldl_cons, ih (fun x hx => hg x (by simp [hx])), bits_putField_apart d sem base mask v w hle hap]

/-- Fields that lie apart are each written as if alone. -/
theorem bits_foldl_putField {f : RegField} (d : NDie) (sem : Bool) (r : RegRow) (mask v : Nat) (fs : List RegField)
    (hp : fs.Pairwise RegField.apart) (hle : ∀ g ∈ fs, g.lo ≤ g.hi) (hf : f ∈ fs) (w : Nat) :
    bits (fs.foldl (putField d sem r.base mask v) w) f.hi f.lo = fieldAfter sem d r f mask v (bits w f.hi f.lo) := by
  induction fs generalizing w with
  | nil => simp at hf
  | cons g fs ih =>
    obtain ⟨hap, hp⟩ := List.pairwise_cons.1 hp
    have hle' : ∀ x ∈ fs, x.lo ≤ x.hi := fun x hx => hle x (by simp [hx])
    rw [List.foldl_cons]
    rcases List.mem_cons.1 hf with rfl | hf
    · rw [bits_foldl_putField_apart d sem r.base mask v fs (fun x hx => ⟨hle' x hx, hap x hx⟩), bits_putField_same]
    · rw [ih hp hle' hf, bits_putField_apart d sem r.base mask v w (hle g (by simp)) (Or.symm (hap f hf))]

/-! ### The register table -/

theorem regRows_aligned : ∀ r ∈ regRows, r.base % 4 = 0 ∧ r.s1 % 4 = 0 ∧ r.s2 % 4 = 0 := by decide +kernel

theorem regRows_width : ∀ r ∈ regRows, r.width = 32 ∨ r.width = 64 := by decide +kernel

theorem regRows_extent : ∀ r ∈ regRows, r.base + (r.c1 - 1) * r.s1 + (r.c2 - 1) * r.s2 < 0xFFFFF0 ∧
    (r.base < 0x10000 → r.base + (r.c1 - 1) * r.s1 + (r.c2 - 1) * r.s2 < 0x10000) := by decide +kernel

theorem regRows_fields : ∀ r ∈ regRows, ∀ f ∈ r.fields, f.lo ≤ f.hi ∧ f.hi < r.width := by decide +kernel

theorem regRows_apart : ∀ r ∈ regRows, r.fields.Pairwise (fun f g => f.hi < g.lo ∨ g.hi < f.lo) := by decide +kernel

theorem regRows_rws : ∀ r ∈ regRows, ∀ f ∈ r.fields, f.acc = .rws → 0x800 ≤ r.base := by decide +kernel

theorem regRows_sel : ∀ r ∈ regRows, ∀ x ∈ r.sel, 0x800 ≤ x ∧ x + (if r.net then 0x200000 else 0) < 2 ^ 24 := by decide +kernel

/-- A line holds an offset `z` bytes into one of its registers. -/
theorem RegRow.within_some {r : RegRow} {off z : Nat} (h : r.within off = some z) :
    ∃ a b, a ≤ r.c1 - 1 ∧ b ≤ r.c2 - 1 ∧ off = r.base + a * r.s1 + b * r.s2 + z ∧ z * 8 < max r.width 32 := by
  have cut (x s c : Nat) : (if s == 0 then 0 else min (x / s) c) * s ≤ x ∧ (if s == 0 then 0 else min (x / s) c) ≤ c := by
    split
    · omega
    · exact ⟨le_trans (Nat.mul_le_mul_right s (Nat.min_le_left _ _)) (Nat.div_mul_le_self x s), Nat.min_le_right _ _⟩
  unfold RegRow.within at h
  dsimp only at h
  split at h
  · simp at h
  · obtain ⟨ha, ha'⟩ := cut (off - r.base) r.s1 (r.c1 - 1)
    revert h ha ha'
    generalize (if r.s1 == 0 then 0 else min ((off - r.base) / r.s1) (r.c1 - 1)) = a
    intro h ha ha'
    obtain ⟨hb, hb'⟩ := cut (off - r.base - a * r.s1) r.s2 (r.c2 - 1)
    revert h hb hb'
    generalize (if r.s2 == 0 then 0 else min ((off - r.base - a * r.s1) / r.s2) (r.c2 - 1)) = b
    intro h hb hb'
    split at h
    · injection h with h
      exact ⟨a, b, ha', hb', by omega, by omega⟩
    · simp at h

theorem regFind_some {x z : Nat} {r : RegRow} (h : regFind x = some (r, z)) : r ∈ regRows ∧ r.within x = some z := by
  obtain ⟨q, hq, e⟩ := List.exists_of_findSome?_eq_some h
  obtain ⟨y, hy, e⟩ := Option.map_eq_some_iff.1 e
  cases e
  exact ⟨hq, hy⟩

/-- A register of line `r` stands at `o`. -/
structure RegAt (r : RegRow) (o : Nat) : Prop where
  row : r ∈ regRows
  word : o % 4 = 0
  low : r.base ≤ o
  high : o < 0xFFFFF8
  hif : r.base < 0x10000 → o < 0x10000

theorem lineOff_cases (o : Nat) : lineOff o = o ∨ lineOff o = o - 0x200000 ∧ 0xA00000 ≤ o ∧ o < 0xC00000 := by
  unfold lineOff
  split
  · simp_all
  · exact .inl rfl

theorem regAt_of_regFind {o z : Nat} {r : RegRow} (ho : o < 2 ^ 24) (hw : o % 4 = 0) (h : regFind (lineOff o) = some (r, z)) :
    RegAt r (o - z) ∧ z ≤ o ∧ (z = 0 ∨ z = 4) := by
  obtain ⟨hr, hin⟩ := regFind_some h
  obtain ⟨a, b, ha, hb, hoff, hz⟩ := RegRow.within_some hin
  obtain ⟨al, a1, a2⟩ := regRows_aligned r hr
  obtain ⟨ext, exth⟩ := regRows_extent r hr
  have h1 := Nat.mul_le_mul_right r.s1 ha
  have h2 := Nat.mul_le_mul_right r.s2 hb
  have m1 : a * r.s1 % 4 = 0 := by rw [Nat.mul_mod, a1]; simp
  have m2 : b * r.s2 % 4 = 0 := by rw [Nat.mul_mod, a2]; simp
  have hz8 : z < 8 := by rcases regRows_width r hr with e | e <;> rw [e] at hz <;> omega
  rcases lineOff_cases o with e | ⟨e, hlo, hhi⟩ <;> rw [e] at hoff <;>
    exact ⟨⟨hr, by omega, by omega, by omega, by omega⟩, by omega, by omega⟩

theorem normOff_lt {off : Nat} (h : off < 2 ^ 24) : normOff off < 2 ^ 24 := by unfold normOff; split <;> omega
theorem normOff_mod_four {off : Nat} (h : off % 4 = 0) : normOff off % 4 = 0 := by unfold normOff; split <;> omega

/-! ### Stored words -/

theorem portIx_lt (p : HPort) : portIx p < 2 := by cases p <;> decide

theorem regW_of_regsKeep {ks : List Nat} {s t : State} {off ix : Nat} (h : regsKeep ks s t) (hk : regKey off ix ∉ ks) :
    regW t off ix = regW s off ix := by
  unfold regW
  rw [h _ hk]

theorem regVal_of_regsKeep {ks : List Nat} {s t : State} {r : RegRow} {o ix : Nat} (h : regsKeep ks s t)
    (h0 : regKey o ix ∉ ks) (h4 : regKey (o + 4) ix ∉ ks) : regVal t r o ix = regVal s r o ix := by
  unfold regVal regQ
  rw [regW_of_regsKeep h h0, regW_of_regsKeep h h4]

theorem regW_of_regs {s t : State} (h : t.regs = s.regs) (off ix : Nat) : regW t off ix = regW s off ix := by
  unfold regW
  rw [h]

theorem regsKeep_setRegW (off ix v : Nat) (s : State) : regsKeep [regKey off ix] s (setRegW off ix v s) := by
  intro k hk
  have hk : k ≠ regKey off ix := by simpa using hk
  unfold setRegW
  dsimp only
  split
  · exact mapGet_mapDel_other _ hk
  · exact mapGet_mapSet_other _ _ hk

theorem regsKeep_trans {ks ls : List Nat} {s t u : State} (h : regsKeep ks s t) (h' : regsKeep ls t u) : regsKeep (ks ++ ls) s u := by
  intro k hk
  rw [List.mem_append, not_or] at hk
  rw [h' k hk.2, h k hk.1]

theorem regsKeep_mono {ks ls : List Nat} {s t : State} (h : regsKeep ks s t) (hs : ks ⊆ ls) : regsKeep ls s t :=
  fun k hk => h k (fun hm => hk (hs hm))

theorem cntGet_of_counters {s t : State} (h : t.counters = s.counters) (k : Nat) : cntGet t k = cntGet s k := by
  unfold cntGet
  rw [h]

theorem regsOnly_trans {s t u : State} (h : t = { s with regs := t.regs }) (h' : u = { t with regs := u.regs }) :
    u = { s with regs := u.regs } := by
  rw [h', h]

theorem setRegF_regs (off ix hi lo v : Nat) (s : State) :
    setRegF off ix hi lo v s = { s with regs := (setRegF off ix hi lo v s).regs } := rfl

theorem regsKeep_of_regs {ks : List Nat} {s t u : State} (h : regsKeep ks s t) (e : u.regs = t.regs) : regsKeep ks s u :=
  fun k hk => by rw [e, h k hk]

theorem setRegVal_regs (r : RegRow) (o ix v : Nat) (s : State) :
    setRegVal r o ix v s = { s with regs := (setRegVal r o ix v s).regs } := by
  unfold setRegVal
  split <;> rfl

theorem regsKeep_setRegVal (r : RegRow) (o ix v : Nat) (s : State) :
    regsKeep [regKey o ix, regKey (o + 4) ix] s (setRegVal r o ix v s) := by
  unfold setRegVal
  split
  · exact regsKeep_trans (regsKeep_setRegW o ix v s) (regsKeep_setRegW (o + 4) ix _ _)
  · exact regsKeep_mono (regsKeep_setRegW o ix v s) (by simp)

/-- A register reads as written, cut to its width. -/
theorem regVal_setRegVal {r : RegRow} (hw : r.width = 32 ∨ r.width = 64) (o ix v : Nat) (s : State) :
    regVal (setRegVal r o ix v s) r o ix = v % 2 ^ r.width := by
  rcases hw with e | e
  · simp [regVal, setRegVal, e]
  · have hne : regKey o ix ≠ regKey (o + 4) ix := by unfold regKey; omega
    simp only [regVal, setRegVal, e, BEq.rfl, if_true, regQ, setRegQ, regW_setRegW]
    rw [regW_setRegW_ne _ _ _ _ hne, regW_setRegW]
    omega

/-! ### An ordinary register takes a write -/

/-- Every field of the register holds what a write of the masked bits makes of it. -/
def fieldsTake (sem : Bool) (ix o : Nat) (r : RegRow) (mask v : Nat) (s t : State) : Prop := ∀ f ∈ r.fields,
  bits (regVal t r o ix) f.hi f.lo = fieldAfter sem (offDie o) r f mask v (bits (regVal s r o ix) f.hi f.lo)

/-- The bits that a write of a gate list's control reaches while a change is pending (R322). -/
def gateMask (s : State) (r : RegRow) (o mask : Nat) : Nat := if gateHeld s r o then setBits mask 10 2 0 else mask

/-- Registers whose new value does more than being held, or that are held elsewhere. -/
def hooked : List Nat := [0x800040, 0x800100, 0x800110, 0x100018, 0x100034, 0x400000, 0x84000C]

theorem fieldsTake_setRegVal (sem : Bool) {o : Nat} {r : RegRow} (hr : RegAt r o) (ix mask v : Nat) (s : State) :
    fieldsTake sem ix o r mask v s (setRegVal r o ix (r.fields.foldl (putField (offDie o) sem r.base mask v) (regVal s r o ix)) s) := by
  intro f hf
  have hb := regRows_fields r hr.row
  rw [regVal_setRegVal (regRows_width r hr.row), bits_mod_two_pow _ (hb f hf).2,
    bits_foldl_putField _ _ _ _ _ _ (regRows_apart r hr.row) (fun g hg => (hb g hg).1) hf]

/-- The write changes the register's words alone. -/
theorem applyReg_ordinary (sem : Bool) (who : Nat) {o : Nat} {r : RegRow} (hr : RegAt r o) (mask v : Nat) (s : State)
    (hh : r.base ∉ hooked) (hd : drainHeld s r.base = false) (hg : gateHeld s r o = true → r.base = 0x852000) :
    let t := applyReg sem who o r mask v s
    let ix := regIx s who o r
    t = { s with regs := t.regs } ∧ regsKeep [regKey o ix, regKey (o + 4) ix] s t ∧
      fieldsTake sem ix o r (gateMask s r o mask) v s t := by
  simp only [hooked, List.mem_cons, List.not_mem_nil, or_false, not_or] at hh
  obtain ⟨h1, -, -, h2, h3, h4, h5⟩ := hh
  have hg' : (gateHeld s r o && r.base != 0x852000) = false := by
    cases h : gateHeld s r o
    · rfl
    · simp [hg h]
  have e : applyReg sem who o r mask v s = setRegVal r o (regIx s who o r)
      (r.fields.foldl (putField (offDie o) sem r.base (gateMask s r o mask) v) (regVal s r o (regIx s who o r))) s := by
    simp only [applyReg, applyAt, regHook, openMask, gateMask, h1, h2, h3, h4, h5, hd, hg', beq_iff_eq, Bool.false_or, if_false,
      Bool.false_eq_true, Bool.and_eq_true, false_and]
  dsimp only
  rw [e]
  exact ⟨setRegVal_regs _ _ _ _ _, regsKeep_setRegVal _ _ _ _ _, fieldsTake_setRegVal sem hr _ _ _ _⟩

/-! ### A write that HIF_SEM discards (R336) -/

/-- HIF_DISCARD shows the first discarded write. -/
def showDiscard (p : HPort) (off : Nat) (s : State) : State :=
  if regF s 0x200 (portIx p) 0 0 == 1 then s
  else setRegF 0x204 (portIx p) 23 0 off (setRegF 0x200 (portIx p) 15 8 stSemHeld (setSticky 0x200 (portIx p) 0 s))

theorem discardRws_eq (p : HPort) (off : Nat) (s : State) :
    discardRws p off s = hifEvent p 0 (incCnt (cntDiscard (portIx p)) (showDiscard p off s)) := rfl

theorem regsKeep_showDiscard (p : HPort) (off : Nat) (s : State) :
    regsKeep [regKey 0x200 (portIx p), regKey 0x204 (portIx p)] s (showDiscard p off s) := by
  unfold showDiscard
  split
  · exact fun _ _ => rfl
  · exact regsKeep_mono (regsKeep_trans (regsKeep_trans (regsKeep_setRegW _ _ _ _) (regsKeep_setRegW _ _ _ _))
      (regsKeep_setRegW _ _ _ _)) (by simp)

theorem regF_setRegF_same {off ix hi lo v : Nat} (s : State) (h : hi < 32) :
    regF (setRegF off ix hi lo v s) off ix hi lo = v % 2 ^ (hi + 1 - lo) := by
  rw [regF, setRegF, regW_setRegW, bits_mod_two_pow _ h, bits_setBits_same]

theorem regF_setRegF_apart {off ix hi lo hi' lo' : Nat} (v : Nat) (s : State) (hf : hi < 32) (hle : lo' ≤ hi')
    (h : hi < lo' ∨ hi' < lo) :
    regF (setRegF off ix hi' lo' v s) off ix hi lo = regF s off ix hi lo := by
  rw [regF, setRegF, regW_setRegW, bits_mod_two_pow _ hf, bits_setBits_apart _ _ hle h, regF]

theorem regW_setRegF_ne {off ix off' ix' : Nat} (hi lo v : Nat) (s : State) (h : regKey off' ix' ≠ regKey off ix) :
    regW (setRegF off ix hi lo v s) off' ix' = regW s off' ix' := regW_setRegW_ne _ _ _ _ h

theorem regF_of_regW {s t : State} {off ix : Nat} (h : regW t off ix = regW s off ix) (hi lo : Nat) :
    regF t off ix hi lo = regF s off ix hi lo := by rw [regF, h, regF]

/-- HIF_DISCARD shows a discarded write where it shows no other. -/
theorem showDiscard_shows {p : HPort} {s : State} (off : Nat) (h : regF s 0x200 (portIx p) 0 0 ≠ 1) :
    regF (showDiscard p off s) 0x200 (portIx p) 0 0 = 1 ∧ regF (showDiscard p off s) 0x200 (portIx p) 15 8 = stSemHeld ∧
      regF (showDiscard p off s) 0x204 (portIx p) 23 0 = off % 2 ^ 24 := by
  have hne : regKey 0x200 (portIx p) ≠ regKey 0x204 (portIx p) := by unfold regKey; omega
  unfold showDiscard
  rw [if_neg (by simpa using h)]
  refine ⟨?_, ?_, regF_setRegF_same _ (by decide)⟩
  · rw [regF, regW_setRegF_ne _ _ _ _ hne, ← regF, regF_setRegF_apart _ _ (by decide) (by decide) (by decide), setSticky,
      regF_setRegF_same _ (by decide)]
    rfl
  · rw [regF, regW_setRegF_ne _ _ _ _ hne, ← regF, regF_setRegF_same _ (by decide)]
    rfl

theorem showDiscard_regs (p : HPort) (off : Nat) (s : State) :
    showDiscard p off s = { s with regs := (showDiscard p off s).regs } := by
  unfold showDiscard
  split
  · rfl
  · exact regsOnly_trans (setRegF_regs _ _ _ _ _ s) (regsOnly_trans (setRegF_regs _ _ _ _ _ _) (setRegF_regs _ _ _ _ _ _))

theorem hifEvent_regs (p : HPort) (b : Nat) (s : State) : (hifEvent p b s).regs = (setSticky 0x210 (portIx p) b s).regs := rfl
theorem hifEvent_counters (p : HPort) (b : Nat) (s : State) : (hifEvent p b s).counters = s.counters := rfl

theorem rwsDiscarded_discardRws (p : HPort) (off : Nat) (s : State) : rwsDiscarded p off s (discardRws p off s) := by
  have hu := showDiscard_regs p off s
  have hkeep := regsKeep_showDiscard p off s
  have hshow := showDiscard_shows (p := p) (s := s) off
  have hsame (h : regF s 0x200 (portIx p) 0 0 = 1) : showDiscard p off s = s := by simp [showDiscard, h]
  rw [discardRws_eq]
  generalize showDiscard p off s = u at *
  have hp (q : HPort) : getPort (setSticky 0x210 (portIx p) 0 (incCnt (cntDiscard (portIx p)) u)) q = getPort s q := by
    rw [hu]; rfl
  have hc (k : Nat) : cntGet u k = cntGet s k := cntGet_of_counters (by rw [hu]) k
  have hcnt (k : Nat) : cntGet (hifEvent p 0 (incCnt (cntDiscard (portIx p)) u)) k = cntGet (addCnt (cntDiscard (portIx p)) 1 u) k :=
    cntGet_of_counters (hifEvent_counters _ _ _) k
  have hr (o : Nat) : regW (hifEvent p 0 (incCnt (cntDiscard (portIx p)) u)) o (portIx p) =
      regW (setSticky 0x210 (portIx p) 0 (incCnt (cntDiscard (portIx p)) u)) o (portIx p) := regW_of_regs (hifEvent_regs _ _ _) _ _
  have hw (o : Nat) (ho : o = 0x200 ∨ o = 0x204) :
      regW (hifEvent p 0 (incCnt (cntDiscard (portIx p)) u)) o (portIx p) = regW u o (portIx p) := by
    rw [hr, setSticky, regW_setRegF_ne _ _ _ _ (by rcases ho with rfl | rfl <;> (unfold regKey; omega))]
    exact regW_of_regs rfl _ _
  refine ⟨?_, ?_, ?_, ?_, ?_, ?_, ?_, ?_, ?_, ?_⟩
  · rw [hu]; rfl
  · rw [hu]; rfl
  · rw [hifEvent, sendIrq, modPort, getPort_setPort_ne _ _ _ (by cases p <;> decide), hp]
  · rw [hifEvent, sendIrq, getPort_modPort, hp]
  · refine regsKeep_of_regs (regsKeep_mono (regsKeep_trans hkeep (u := setSticky 0x210 (portIx p) 0 u) (regsKeep_setRegW _ _ _ _)) ?_)
      (hifEvent_regs _ _ _)
    simp
  · intro k hk
    rw [hcnt, cntGet_addCnt_ne _ _ _ (by simpa using hk), hc]
  · rw [hcnt, ← hc]
    cases p <;> simp [addCnt, cntGet, cntDiscard, portIx]
  · rw [hr, bit_setSticky _ _ _ _ _ (by decide)]; simp
  · rw [regF_of_regW (hw _ (.inl rfl))]
    by_cases h : regF s 0x200 (portIx p) 0 0 = 1
    · rw [hsame h, h]
    · exact (hshow h).1
  · split
    next h => rw [hw _ (.inl rfl), hw _ (.inr rfl), hsame h]; exact ⟨rfl, rfl⟩
    next h =>
      rw [regF_of_regW (hw _ (.inl rfl)), regF_of_regW (hw _ (.inr rfl))]
      exact (hshow h).2

/-! ### What a discarded write leaves of the next test -/

theorem regKey_not_discard {y : Nat} (ix : Nat) (p : HPort) (h : 0x800 ≤ y) (hy : y < 2 ^ 24) :
    regKey y ix ∉ [regKey 0x200 (portIx p), regKey 0x204 (portIx p), regKey 0x210 (portIx p)] := by
  have := portIx_lt p
  simp only [regKey, List.mem_cons, List.not_mem_nil, or_false]
  omega

theorem regsKeep_discardRws (p : HPort) (off : Nat) (s : State) :
    regsKeep [regKey 0x200 (portIx p), regKey 0x204 (portIx p), regKey 0x210 (portIx p)] s (discardRws p off s) := by
  obtain ⟨-, -, -, -, hkeep, -⟩ := rwsDiscarded_discardRws p off s
  exact hkeep

theorem regW_discardRws {y : Nat} (ix : Nat) (p : HPort) (off : Nat) (s : State) (h : 0x800 ≤ y) (hy : y < 2 ^ 24) :
    regW (discardRws p off s) y ix = regW s y ix :=
  regW_of_regsKeep (regsKeep_discardRws p off s) (regKey_not_discard ix p h hy)

theorem drainHeld_discardRws (p : HPort) (off base : Nat) (s : State) : drainHeld (discardRws p off s) base = drainHeld s base := by
  rw [drainHeld, regW_discardRws 0 p off s (by decide) (by decide), drainHeld]

theorem setBusy_discardRws (p q : HPort) (off base : Nat) (s : State) : setBusy (discardRws p off s) q base = setBusy s q base := by
  obtain ⟨-, hhost, -⟩ := rwsDiscarded_discardRws p off s
  have hp : (discardRws p off s).host.protPending = s.host.protPending := by rw [hhost]
  rw [setBusy, drainHeld_discardRws, tblBusy, regW_discardRws _ p off s (by decide) (by decide), hp, setBusy, tblBusy]

theorem gateHeld_discardRws (p : HPort) (off : Nat) (r : RegRow) (o : Nat) (s : State) :
    gateHeld (discardRws p off s) r o = gateHeld s r o := by
  have hn := net_of_proj (discardRws_frame (m0 := 805568512) (by decide) p off s)
  rw [gateHeld, gateHeld, getEPort, getEPort, hn]

/-- A window's selector is none of the words that a write changes. -/
theorem regIx_of_regsKeep {ks : List Nat} {s t : State} {r : RegRow} {o who : Nat} (hr : RegAt r o) (h : regsKeep ks s t)
    (hk : ∀ y, 0x800 ≤ y → y < 2 ^ 24 → regKey y who ∉ ks) : regIx t who o r = regIx s who o r := by
  have hs := regRows_sel r hr.row
  unfold regIx
  split
  · rfl
  · cases hx : r.sel with
    | none => rfl
    | some x =>
      obtain ⟨hlo, hhi⟩ := hs x (by simp [hx])
      dsimp only
      refine regW_of_regsKeep h (hk _ ?_ ?_) <;> cases hn : r.net <;> cases offDie o <;> simp [hn, dieOff] at hhi ⊢ <;> omega

theorem regIx_discardRws {r : RegRow} {o : Nat} (hr : RegAt r o) (p : HPort) (off who : Nat) (s : State) :
    regIx (discardRws p off s) who o r = regIx s who o r :=
  regIx_of_regsKeep hr (regsKeep_discardRws p off s) (fun _ h hy => regKey_not_discard who p h hy)

theorem rwsWritten_base {r : RegRow} {o mask : Nat} (hr : RegAt r o) (h : rwsWritten r mask = true) : 0x800 ≤ o := by
  obtain ⟨f, hf, hb⟩ := List.any_eq_true.1 h
  have ha : f.acc = .rws := by simp only [Bool.and_eq_true, beq_iff_eq] at hb; exact hb.1
  exact Nat.le_trans (regRows_rws r hr.row f hf ha) hr.low

theorem regVal_discardRws {r : RegRow} {o : Nat} (hr : RegAt r o) (ho : 0x800 ≤ o) (ix : Nat) (p : HPort) (off : Nat) (s : State) :
    regVal (discardRws p off s) r o ix = regVal s r o ix :=
  have := hr.high
  regVal_of_regsKeep (regsKeep_discardRws p off s) (regKey_not_discard ix p ho (by omega)) (regKey_not_discard ix p (by omega) (by omega))

/-! ### REGISTER_WRITE of an ordinary register (R5, R331, R336) -/

/-- A write from port `p` to byte `z` of the register of line `r` at `o` that nothing holds off, and that is no command of its own. -/
structure Ordinary (s : State) (p : HPort) (r : RegRow) (o z : Nat) : Prop where
  place : RegAt r o
  own : ownRow r.base z = false
  busy : setBusy s p r.base = false
  plain : r.base ∉ hooked
  ring : r.base < 0x10000 ∨ 0x30000 ≤ r.base

/-- The write reaches half of a register that takes effect whole (R272, R294). -/
def halfOnly (r : RegRow) (mask : Nat) : Bool := r.width == 64 && rwsWritten r (2 ^ 64 - 1) && r.base != 0x853010 && mask != 2 ^ 64 - 1

/-- The state after the test of HIF_SEM. -/
def afterSem (p : HPort) (off : Nat) (r : RegRow) (mask : Nat) (s : State) : State :=
  if !holdsSem s p && rwsWritten r mask then discardRws p off s else s

theorem ownRow_pairs {base z : Nat} (h : ownRow base z = false) : base ≠ 0x8100D0 ∧ base ≠ 0x890018 := by
  constructor <;> rintro rfl <;> simp [ownRow] at h

theorem writeReg_of_gated {s : State} {p : HPort} {r : RegRow} {o z : Nat} (h : Ordinary s p r o z) (off mask v : Nat)
    (hsem : holdsSem s p = true) (hg : gateHeld s r o = true) (hb : r.base ≠ 0x852000) : writeReg p off o z r mask v s = s := by
  obtain ⟨h1, h2⟩ := ownRow_pairs h.own
  simp [writeReg, hsem, h.own, h1, h2, hg, hb]

/-- The branches of `writeReg` that are left to an ordinary register. -/
theorem writeReg_ordinary {s : State} {p : HPort} {r : RegRow} {o z : Nat} (h : Ordinary s p r o z) (off mask v : Nat)
    (hg : gateHeld s r o = true → r.base = 0x852000) :
    writeReg p off o z r mask v s =
      if halfOnly r mask then
        if !holdsSem s p then afterSem p off r mask s
        else if z == 0 then setStaged o (regIx s (portIx p) o r) (v % 2 ^ 32) s
        else applyReg true (portIx p) o r (2 ^ 64 - 1)
          (v / 2 ^ 32 * 2 ^ 32 + (staged s o (regIx s (portIx p) o r)).getD (regW s o (regIx s (portIx p) o r)))
          (dropStaged o (regIx s (portIx p) o r) s)
      else applyReg (holdsSem s p) (portIx p) o r mask v (afterSem p off r mask s) := by
  obtain ⟨h1, h2⟩ := ownRow_pairs h.own
  have hpair : [0x8100D0, 0x890018].contains r.base = false := by simp [h1, h2]
  have hp := h.plain
  simp only [hooked, List.mem_cons, List.not_mem_nil, or_false, not_or, ← beq_eq_false_iff_ne (a := r.base)] at hp
  obtain ⟨-, h3, h4, -⟩ := hp
  have hlow := h.place.low
  have hhif := h.place.hif
  have hring : ¬ (0x10000 ≤ o ∧ o < 0x30000) := by rcases h.ring with e | e <;> omega
  have hbusy : setBusy (afterSem p off r mask s) p r.base = false := by
    unfold afterSem; split <;> simp [setBusy_discardRws, h.busy]
  have hgate : (gateHeld (afterSem p off r mask s) r o && r.base != 0x852000) = false := by
    have : gateHeld (afterSem p off r mask s) r o = gateHeld s r o := by unfold afterSem; split <;> simp [gateHeld_discardRws]
    rw [this]
    cases hx : gateHeld s r o
    · rfl
    · simp [hg hx]
  have hs0 : (if (!holdsSem s p && rwsWritten r mask && !ownRow r.base z) = true then discardRws p off s else s) =
      afterSem p off r mask s := by
    simp [afterSem, h.own]
  unfold writeReg
  dsimp only
  rw [hs0]
  simp only [hpair, h.own, hbusy, hgate, hring, h3, h4, Bool.false_and, Bool.or_self, Bool.false_eq_true, if_false,
    Bool.and_eq_true, decide_eq_true_eq]
  cases hsem : holdsSem s p
  · simp [halfOnly, and_assoc]
  · have h0 : afterSem p off r mask s = s := by simp [afterSem, hsem]
    simp [halfOnly, h0, and_assoc]

theorem drainHeld_of_setBusy {s : State} {p : HPort} {base : Nat} (h : setBusy s p base = false) : drainHeld s base = false := by
  simp only [setBusy, Bool.or_eq_false_iff] at h
  obtain ⟨⟨-, hd⟩, -⟩ := h
  exact hd

/-- A write that takes effect at once: the register's fields take it, and its words alone change, after what HIF_SEM's test shows of a
discarded part. -/
theorem writeReg_takes {s : State} {p : HPort} {r : RegRow} {o z : Nat} (h : Ordinary s p r o z) (off mask v : Nat)
    (hg : gateHeld s r o = true → r.base = 0x852000) (hh : halfOnly r mask = false) :
    let t := writeReg p off o z r mask v s
    let ix := regIx s (portIx p) o r
    fieldsTake (holdsSem s p) ix o r (gateMask s r o mask) v s t ∧
      (holdsSem s p = true ∨ rwsWritten r mask = false →
        t = { s with regs := t.regs } ∧ regsKeep [regKey o ix, regKey (o + 4) ix] s t) ∧
      (holdsSem s p = false → rwsWritten r mask = true → ∃ s', rwsDiscarded p off s s' ∧ t = { s' with regs := t.regs } ∧
        regsKeep [regKey o ix, regKey (o + 4) ix] s' t) := by
  have hd := drainHeld_of_setBusy h.busy
  dsimp only
  rw [writeReg_ordinary h off mask v hg, hh, if_neg Bool.false_ne_true]
  by_cases hw : holdsSem s p = false ∧ rwsWritten r mask = true
  · rw [show afterSem p off r mask s = discardRws p off s by simp [afterSem, hw]]
    obtain ⟨h1, h2, h3⟩ := applyReg_ordinary (holdsSem s p) (portIx p) h.place mask v (discardRws p off s) h.plain
      (by rwa [drainHeld_discardRws]) (by rwa [gateHeld_discardRws])
    rw [regIx_discardRws h.place] at h2 h3
    refine ⟨fun f hf => ?_, fun hn => ?_, fun _ _ => ⟨_, rwsDiscarded_discardRws p off s, h1, h2⟩⟩
    · rw [h3 f hf, regVal_discardRws h.place (rwsWritten_base h.place hw.2), gateMask, gateHeld_discardRws, gateMask]
    · simp [hw] at hn
  · have hn : (!holdsSem s p && rwsWritten r mask) = false := by simpa using hw
    rw [show afterSem p off r mask s = s by simp [afterSem, hn]]
    obtain ⟨h1, h2, h3⟩ := applyReg_ordinary (holdsSem s p) (portIx p) h.place mask v s h.plain hd hg
    exact ⟨h3, fun _ => ⟨h1, h2⟩, fun hs hr => absurd ⟨hs, hr⟩ hw⟩

/-! ### Halves that wait (R272, R294) -/

theorem regsKeep_setStaged (o ix v : Nat) (s : State) : regsKeep [regKey o (stageIx ix)] s (setStaged o ix v s) :=
  fun _ hk => mapGet_mapSet_other _ _ (by simpa using hk)

theorem regsKeep_dropStaged (o ix : Nat) (s : State) : regsKeep [regKey o (stageIx ix)] s (dropStaged o ix s) :=
  fun _ hk => mapGet_mapDel_other _ (by simpa using hk)

@[simp] theorem staged_setStaged (o ix v : Nat) (s : State) : staged (setStaged o ix v s) o ix = some v := mapGet_mapSet_same _ _ _
@[simp] theorem staged_dropStaged (o ix : Nat) (s : State) : staged (dropStaged o ix s) o ix = none := mapGet_mapDel_same _ _

theorem staged_of_regsKeep {ks : List Nat} {s t : State} {o ix : Nat} (h : regsKeep ks s t) (hk : regKey o (stageIx ix) ∉ ks) :
    staged t o ix = staged s o ix := h _ hk

/-- Where a half waits is no register's word. -/
theorem regKey_ne_stage {y i : Nat} (o ix : Nat) (hy : y < 2 ^ 24) (hi : i < 1048576 + ix) (ho : o < 2 ^ 24) :
    regKey y i ≠ regKey o (stageIx ix) := by
  unfold regKey stageIx
  omega

theorem regRows_gate : ∀ r ∈ regRows, r.base = 0x852000 → r.width = 32 := by decide +kernel

/-- The last half of a register takes it whole, with the half that waits. -/
theorem applyReg_dropStaged {s : State} {p : HPort} {r : RegRow} {o z : Nat} (h : Ordinary s p r o z) (mask v : Nat)
    (hg : gateHeld s r o = true → r.base = 0x852000) (hw : r.width = 64) :
    let ix := regIx s (portIx p) o r
    let t := applyReg true (portIx p) o r mask v (dropStaged o ix s)
    t = { s with regs := t.regs } ∧ staged t o ix = none ∧
      regsKeep [regKey o (stageIx ix), regKey o ix, regKey (o + 4) ix] s t ∧ fieldsTake true ix o r mask v s t := by
  have hp := portIx_lt p
  have ho := h.place.high
  have hgate : gateHeld s r o = false := by
    cases hx : gateHeld s r o
    · rfl
    · have := regRows_gate r h.place.row (hg hx)
      omega
  have hd := drainHeld_of_setBusy h.busy
  dsimp only
  generalize hix : regIx s (portIx p) o r = ix
  have hk := regsKeep_dropStaged o ix s
  have hne {y i : Nat} (hy : y < 2 ^ 24) (hi : i < 1048576 + ix) : regKey y i ∉ [regKey o (stageIx ix)] := by
    simpa using regKey_ne_stage o ix hy hi (by omega)
  have hix' : regIx (dropStaged o ix s) (portIx p) o r = ix := by
    rw [regIx_of_regsKeep h.place hk (fun y _ hy => hne hy (by omega)), hix]
  have hd' : drainHeld (dropStaged o ix s) r.base = false := by
    rw [drainHeld, regW_of_regsKeep hk (hne (by decide) (by omega)), ← drainHeld, hd]
  obtain ⟨h1, h2, h3⟩ := applyReg_ordinary true (portIx p) h.place mask v (dropStaged o ix s) h.plain hd' (fun hx => hg hx)
  rw [hix'] at h2 h3
  refine ⟨regsOnly_trans rfl h1, ?_, regsKeep_trans hk h2, fun f hf => ?_⟩
  · rw [staged_of_regsKeep h2, staged_dropStaged]
    have h0 := regKey_ne_stage (y := o) (i := ix) o ix (by omega) (by omega) (by omega)
    have h4 := regKey_ne_stage (y := o + 4) (i := ix) o ix (by omega) (by omega) (by omega)
    simp [h0.symm, h4.symm]
  · rw [h3 f hf, regVal_of_regsKeep hk (hne (by omega) (by omega)) (hne (by omega) (by omega)), gateMask,
      show gateHeld (dropStaged o ix s) r o = false from hgate]
    rfl

theorem writeReg_low_half {s : State} {p : HPort} {r : RegRow} {o : Nat} (h : Ordinary s p r o 0) (off mask v : Nat)
    (hg : gateHeld s r o = true → r.base = 0x852000) (hh : halfOnly r mask = true) (hsem : holdsSem s p = true) :
    writeReg p off o 0 r mask v s = setStaged o (regIx s (portIx p) o r) (v % 2 ^ 32) s := by
  rw [writeReg_ordinary h off mask v hg, if_pos hh, hsem]
  rfl

theorem writeReg_high_half {s : State} {p : HPort} {r : RegRow} {o : Nat} (h : Ordinary s p r o 4) (off mask u : Nat)
    (hg : gateHeld s r o = true → r.base = 0x852000) (hh : halfOnly r mask = true) (hsem : holdsSem s p = true) :
    let ix := regIx s (portIx p) o r
    let t := writeReg p off o 4 r mask (u * 2 ^ 32) s
    t = { s with regs := t.regs } ∧ staged t o ix = none ∧ regsKeep [regKey o (stageIx ix), regKey o ix, regKey (o + 4) ix] s t ∧
      fieldsTake true ix o r (2 ^ 64 - 1) (u * 2 ^ 32 + (staged s o ix).getD (regW s o ix)) s t := by
  have hw : r.width = 64 := by
    simp only [halfOnly, Bool.and_eq_true, beq_iff_eq, and_assoc] at hh
    exact hh.1
  have e : writeReg p off o 4 r mask (u * 2 ^ 32) s = applyReg true (portIx p) o r (2 ^ 64 - 1)
      (u * 2 ^ 32 + (staged s o (regIx s (portIx p) o r)).getD (regW s o (regIx s (portIx p) o r)))
      (dropStaged o (regIx s (portIx p) o r) s) := by
    rw [writeReg_ordinary h off mask _ hg, if_pos hh, hsem, Nat.mul_div_cancel _ (Nat.two_pow_pos 32)]
    rfl
  dsimp only
  rw [e]
  exact applyReg_dropStaged h _ _ hg hw

theorem writeReg_half_discarded {s : State} {p : HPort} {r : RegRow} {o z : Nat} (h : Ordinary s p r o z) (off mask v : Nat)
    (hg : gateHeld s r o = true → r.base = 0x852000) (hh : halfOnly r mask = true) (hsem : holdsSem s p = false)
    (hw : rwsWritten r mask = true) : writeReg p off o z r mask v s = discardRws p off s := by
  rw [writeReg_ordinary h off mask v hg, if_pos hh, afterSem, hsem, hw]
  rfl

/-! ### The command (R331) -/

/-- The bits of a register that a write at byte `z` of it reaches. -/
def accessMask (size8 : Bool) (z : Nat) : Nat := if size8 then 2 ^ 64 - 1 else (2 ^ 32 - 1) * 2 ^ (8 * z)

/-- What the write brings, in the register's place. -/
def accessValue (size8 : Bool) (z : Nat) (v : W64) : Nat := if size8 then v.toNat else v.toNat % 2 ^ 32 * 2 ^ (8 * z)

theorem exec_registerWrite (p : HPort) (off : BitVec 24) (size8 : Bool) (v : W64) (s : State) :
    exec (.registerWrite p off size8 v) s = execRegisterWrite p off size8 v s := rfl

theorem exec_registerWrite_at {s : State} (p : HPort) {off : BitVec 24} {size8 : Bool} (v : W64) {r : RegRow} {z : Nat}
    (hf : regFind (lineOff (normOff off.toNat)) = some (r, z)) (hb : barOpen s off.toNat = true)
    (ha : off.toNat % (if size8 then 8 else 4) = 0) (hz : z = 0 ∨ z = 4)
    (h8 : size8 = true → r.width = 64 ∧ z = 0 ∧ ownRow r.base 4 = false) :
    exec (.registerWrite p off size8 v) s =
      .next (writeReg p off.toNat (normOff off.toNat - z) z r (accessMask size8 z) (accessValue size8 z v) s) := by
  rw [exec_registerWrite]
  cases size8
  · simp only [Bool.false_eq_true, if_false] at ha
    rcases hz with rfl | rfl <;> simp [execRegisterWrite, ha, write4, hb, hf, accessMask, accessValue]
  · obtain ⟨hw, rfl, ho⟩ := h8 rfl
    simp only [if_true] at ha
    simp [execRegisterWrite, ha, write8, hb, hf, hw, ho, accessMask, accessValue]

theorem halfOnly_accessMask (r : RegRow) (size8 : Bool) {z : Nat} (hz : z = 0 ∨ z = 4) :
    halfOnly r (accessMask size8 z) = true ↔
      r.width = 64 ∧ rwsWritten r (2 ^ 64 - 1) = true ∧ r.base ≠ 0x853010 ∧ size8 = false := by
  cases size8 <;> rcases hz with rfl | rfl <;> simp [halfOnly, accessMask, and_assoc]

/-- A write that is not aligned, or of 4 bytes where no register answers, does nothing. -/
theorem exec_registerWrite_idle (p : HPort) {off : BitVec 24} {size8 : Bool} (v : W64) (s : State)
    (h : off.toNat % (if size8 then 8 else 4) ≠ 0 ∨
      (size8 = false ∧ (regFind (lineOff (normOff off.toNat)) = none ∨ barOpen s off.toNat = false))) :
    exec (.registerWrite p off size8 v) s = .next s := by
  rw [exec_registerWrite]
  rcases h with h | ⟨rfl, h | h⟩
  · cases size8 <;> simp [execRegisterWrite] at h ⊢ <;> simp [h]
  · simp [execRegisterWrite, write4, h]
  · simp [execRegisterWrite, write4, h]

/-- An 8-byte write of no 64-bit register is two writes of its words. -/
theorem exec_registerWrite_pair (p : HPort) {off : BitVec 24} (v : W64) (s : State) (ha : off.toNat % 8 = 0)
    (hw : ∀ r, regFind (lineOff (normOff off.toNat)) = some (r, 0) → r.width ≠ 64) :
    ∃ t1 t, exec (.registerWrite p off false v) s = .next t1 ∧ exec (.registerWrite p (off + 4) false (v >>> 32)) t1 = .next t ∧
      exec (.registerWrite p off true v) s = .next t := by
  have hoff : (off + 4).toNat = off.toNat + 4 := by
    have := off.isLt
    rw [BitVec.toNat_add]
    simp
    omega
  have hhi : (v >>> 32).toNat % 2 ^ 32 = v.toNat / 2 ^ 32 := by
    have := v.isLt
    rw [BitVec.toNat_ushiftRight, Nat.shiftRight_eq_div_pow]
    omega
  have h8 : write8 p off.toNat v.toNat s = write4 p (off.toNat + 4) (v.toNat / 2 ^ 32) (write4 p off.toNat (v.toNat % 2 ^ 32) s) := by
    unfold write8
    dsimp only
    split
    next r hr => simp [hw r hr]
    next => rfl
  have h4 : off.toNat % 4 = 0 := by omega
  have h4' : (off.toNat + 4) % 4 = 0 := by omega
  refine ⟨_, _, rfl, rfl, ?_⟩
  simp only [exec_registerWrite, execRegisterWrite, hoff, hhi, h8, h4, h4', ha, if_true, BEq.rfl]

/-! ### Reads with an effect (R54, R124, R413, R424) -/

theorem otherPort_ne (p : HPort) : otherPort p ≠ p := by cases p <;> decide

theorem modPort_ports (p : HPort) (f : PortState → PortState) (s : State) :
    modPort p f s = { s with host := { s.host with ports := (modPort p f s).host.ports } } ∧
      getPort (modPort p f s) (otherPort p) = getPort s (otherPort p) ∧ getPort (modPort p f s) p = f (getPort s p) :=
  ⟨rfl, getPort_setPort_ne _ _ _ (otherPort_ne p), getPort_modPort _ _ _⟩

theorem exec_shadowRead (p : HPort) {off : BitVec 24} {r : RegRow} (s : State)
    (hf : regFind (lineOff (normOff off.toNat)) = some (r, 0)) (hw : r.width = 64) (hb : barOpen s off.toNat = true) :
    exec (.shadowRead p off) s = .next (modPort p (fun x => { x with
      shadow := mapSet (normOff off.toNat + 4) (readReg s p r (normOff off.toNat) / 2 ^ 32) x.shadow }) s) := by
  change execShadowRead p off s = _
  simp [execShadowRead, hf, hw, hb]

theorem exec_logWordCapture (p : HPort) (s : State) (hb : barUp s = true) :
    exec (.logWordCapture p) s = .next (modPort p (fun x => { x with logShadow := logRecord s (regW s 0x300024 (portIx p)) }) s) := by
  change execLogWordCapture p s = _
  simp [execLogWordCapture, hb]

theorem exec_peakRead (s : State) (hb : barUp s = true) : exec .peakRead s = .next { s with pwr := { s.pwr with peak := 0 } } := by
  change execPeakRead s = _
  simp [execPeakRead, hb]

/-! ### PROT_COMMIT (R39, R363) -/

/-- The change that a write of HIF_PROT_CMD commits. -/
def commitOf (s : State) (p : HPort) (v : W32) : ProtChange :=
  { port := p, window := bits v.toNat 5 0, content := stagedWindow s p
    due := if regQ s 0x828 (portIx p) = 0 then now s + 1 else dueOf s (regQ s 0x828 (portIx p)) }

theorem exec_protCommit_closed (p : HPort) (v : W32) (s : State) (hb : barUp s = true) (h : holdsSem s p = false) :
    exec (.protCommit p v) s = .next (discardRws p 0x830 s) := by
  change execProtCommit p v s = _
  simp [execProtCommit, hb, h]

theorem exec_protCommit_busy (p : HPort) (v : W32) (s : State) (hb : barUp s = true) (h : holdsSem s p = true)
    (hc : ∃ c ∈ s.host.protPending, c.port = p) : exec (.protCommit p v) s = .next s := by
  have : s.host.protPending.any (fun c => c.port == p) = true := by simpa using hc
  change execProtCommit p v s = _
  simp [execProtCommit, hb, h, this]

theorem regW_setProtCmd {y : Nat} (ix v : Nat) (p : HPort) (s : State) (h : y / 4 < 0x830 / 4) :
    regW (setRegF 0x830 (portIx p) 5 0 v s) y ix = regW s y ix :=
  regW_setRegF_ne _ _ _ _ (by have := portIx_lt p; unfold regKey; omega)

theorem regQ_setProtCmd {y : Nat} (ix v : Nat) (p : HPort) (s : State) (h : y / 4 + 1 < 0x830 / 4) :
    regQ (setRegF 0x830 (portIx p) 5 0 v s) y ix = regQ s y ix := by
  rw [regQ, regW_setProtCmd _ _ _ _ (by omega), regW_setProtCmd _ _ _ _ (by omega), regQ]

theorem stagedWindow_setProtCmd (v : Nat) (p : HPort) (s : State) :
    stagedWindow (setRegF 0x830 (portIx p) 5 0 v s) p = stagedWindow s p := by
  have hq (y : Nat) (h : y / 4 + 1 < 0x830 / 4) := regQ_setProtCmd (portIx p) v p s h
  rw [stagedWindow, regW_setProtCmd _ _ _ _ (by decide), hq _ (by decide), hq _ (by decide), hq _ (by decide), hq _ (by decide),
    stagedWindow]

theorem notePast_counters (n : Nat) (s : State) :
    notePast n s = { s with counters := (notePast n s).counters } ∧ cntsKeep [cntPast] s (notePast n s) := by
  unfold notePast
  split
  · exact ⟨rfl, fun k hk => cntGet_addCnt_ne _ _ _ (by simpa using hk)⟩
  · exact ⟨rfl, fun _ _ => rfl⟩

/-- What the command does once the port may write: the window number is held, and a COMMIT that is not too far off waits. -/
theorem execProtCommit_open (p : HPort) (v : W32) (s : State) (hb : barUp s = true) (h : holdsSem s p = true)
    (hc : ∀ c ∈ s.host.protPending, c.port ≠ p) :
    execProtCommit p v s = .next (
      if bit v.toNat 6 ∧ tooFar s (regQ s 0x828 (portIx p)) = false then
        notePast (regQ s 0x828 (portIx p)) { setRegF 0x830 (portIx p) 5 0 v.toNat s with
          host := { s.host with protPending := s.host.protPending ++ [commitOf s p v] } }
      else setRegF 0x830 (portIx p) 5 0 v.toNat s) := by
  have hany : s.host.protPending.any (fun c => c.port == p) = false := by simpa using hc
  have hfar (n : Nat) : tooFar (setRegF 0x830 (portIx p) 5 0 v.toNat s) n = tooFar s n := rfl
  have hdue (n : Nat) : dueOf (setRegF 0x830 (portIx p) 5 0 v.toNat s) n = dueOf s n := rfl
  have hnow : now (setRegF 0x830 (portIx p) 5 0 v.toNat s) = now s := rfl
  have hhost : (setRegF 0x830 (portIx p) 5 0 v.toNat s).host = s.host := rfl
  unfold execProtCommit
  simp only [hb, h, hany, hfar, hdue, hnow, hhost, stagedWindow_setProtCmd, Bool.not_true, Bool.false_eq_true, if_false]
  by_cases hgo : bit v.toNat 6 = true ∧ tooFar s (regQ s 0x828 (portIx p)) = false
  · simp [hgo.1, hgo.2, commitOf]
  · rw [if_neg hgo, if_pos (by revert hgo; cases bit v.toNat 6 <;> simp)]

theorem exec_protCommit_open (p : HPort) (v : W32) (s : State) (hb : barUp s = true) (h : holdsSem s p = true)
    (hc : ∀ c ∈ s.host.protPending, c.port ≠ p) :
    ∃ t, exec (.protCommit p v) s = .next t ∧ t = { s with host := t.host, regs := t.regs, counters := t.counters } ∧
      regsKeep [regKey 0x830 (portIx p)] s t ∧ cntsKeep [cntPast] s t ∧
      t.host = { s.host with protPending := t.host.protPending } ∧
      t.host.protPending = s.host.protPending ++
        (if bit v.toNat 6 ∧ tooFar s (regQ s 0x828 (portIx p)) = false then [commitOf s p v] else []) := by
  have hkeep := regsKeep_setRegW 0x830 (portIx p) (setBits (regW s 0x830 (portIx p)) 5 0 v.toNat) s
  refine ⟨_, execProtCommit_open p v s hb h hc, ?_⟩
  split
  · generalize hu : ({ setRegF 0x830 (portIx p) 5 0 v.toNat s with
      host := { s.host with protPending := s.host.protPending ++ [commitOf s p v] } } : State) = u
    obtain ⟨ht, hcnt⟩ := notePast_counters (regQ s 0x828 (portIx p)) u
    generalize notePast (regQ s 0x828 (portIx p)) u = t at *
    subst hu
    rw [ht]
    exact ⟨rfl, hkeep, fun k hk => hcnt k hk, rfl, rfl⟩
  · exact ⟨rfl, hkeep, fun _ _ => rfl, rfl, (List.append_nil _).symm⟩

/-! ### HOST_PORT_RESET: the registers that it resets (R330) -/

theorem regFind_lt {o z : Nat} {r : RegRow} (h : regFind (lineOff o) = some (r, z)) : o < 2 ^ 24 := by
  obtain ⟨hr, hin⟩ := regFind_some h
  obtain ⟨a, b, ha, hb, hoff, hz⟩ := RegRow.within_some hin
  obtain ⟨ext, -⟩ := regRows_extent r hr
  have h1 := Nat.mul_le_mul_right r.s1 ha
  have h2 := Nat.mul_le_mul_right r.s2 hb
  have hw := regRows_width r hr
  rcases lineOff_cases o with e | ⟨e, hlo, hhi⟩ <;> omega

theorem resetsWithPort_lt {off : Nat} (h : resetsWithPort off = true) : off < 2 ^ 24 := by
  unfold resetsWithPort at h
  split at h
  next hf => exact regFind_lt hf
  next => simp at h

/-- A line holds a byte with the word that it stands in. -/
theorem RegRow.within_word {r : RegRow} (hr : r ∈ regRows) (x : Nat) :
    r.within (x / 4 * 4) = (r.within x).map (fun z => z / 4 * 4) := by
  obtain ⟨h0, h1, h2⟩ := regRows_aligned r hr
  have hw := regRows_width r hr
  have cut (y s c : Nat) (hs : s % 4 = 0) : (if s == 0 then 0 else min (y / 4 * 4 / s) c) = (if s == 0 then 0 else min (y / s) c) ∧
      4 ∣ (if s == 0 then 0 else min (y / s) c) * s := by
    obtain ⟨t, rfl⟩ := Nat.dvd_of_mod_eq_zero hs
    refine ⟨?_, Dvd.dvd.mul_left (Nat.dvd_mul_right 4 t) _⟩
    rw [Nat.mul_comm 4 t, Nat.mul_div_mul_right _ _ (by decide), Nat.mul_comm t 4, Nat.div_div_eq_div_mul]
  unfold RegRow.within
  by_cases hx : x < r.base
  · rw [if_pos hx, if_pos (by omega)]; rfl
  · rw [if_neg hx, if_neg (by omega)]
    dsimp only
    obtain ⟨e1, d1⟩ := cut (x - r.base) r.s1 (r.c1 - 1) h1
    rw [show x / 4 * 4 - r.base = (x - r.base) / 4 * 4 by omega, e1]
    generalize (if r.s1 == 0 then 0 else min ((x - r.base) / r.s1) (r.c1 - 1)) * r.s1 = m at d1
    obtain ⟨e2, d2⟩ := cut (x - r.base - m) r.s2 (r.c2 - 1) h2
    rw [show (x - r.base) / 4 * 4 - m = (x - r.base - m) / 4 * 4 by omega, e2]
    generalize (if r.s2 == 0 then 0 else min ((x - r.base - m) / r.s2) (r.c2 - 1)) * r.s2 = n at d2
    rw [show (x - r.base - m) / 4 * 4 - n = (x - r.base - m - n) / 4 * 4 by omega]
    by_cases hz : (x - r.base - m - n) * 8 < max r.width 32
    · rw [if_pos hz, if_pos (by omega)]; rfl
    · rw [if_neg hz, if_neg (by rcases hw with e | e <;> rw [e] at hz ⊢ <;> omega)]; rfl

theorem regFind_word (x : Nat) : (regFind (x / 4 * 4)).map (·.1) = (regFind x).map (·.1) := by
  have h (rows : List RegRow) (hr : ∀ r ∈ rows, r ∈ regRows) :
      (rows.findSome? (fun r => (r.within (x / 4 * 4)).map (fun z => (r, z)))).map (·.1) =
        (rows.findSome? (fun r => (r.within x).map (fun z => (r, z)))).map (·.1) := by
    induction rows with
    | nil => rfl
    | cons r rows ih =>
      have hw := RegRow.within_word (hr r (by simp)) x
      simp only [List.findSome?_cons, hw]
      cases r.within x
      · exact ih (fun q hq => hr q (by simp [hq]))
      · rfl
  exact h regRows (fun _ h => h)

theorem resetsWithPort_eq (off : Nat) : resetsWithPort off =
    (((regFind (lineOff off)).map (·.1)).any (·.priv) && !(decide (0x200 ≤ off) && decide (off < 0x300))) := by
  unfold resetsWithPort
  cases regFind (lineOff off) <;> simp

theorem resetsWithPort_word (off : Nat) : resetsWithPort (off / 4 * 4) = resetsWithPort off := by
  have hl : lineOff (off / 4 * 4) = lineOff off / 4 * 4 := by unfold lineOff; split <;> split <;> simp_all <;> omega
  rw [resetsWithPort_eq, resetsWithPort_eq, hl, regFind_word]
  congr 2
  rw [Bool.eq_iff_iff]
  simp only [Bool.and_eq_true, decide_eq_true_eq]
  omega

/-! ### HOST_PORT_RESET: the rings stop (R330) -/

/-- All but the rings of a port and the registers is as before. -/
def ringsOnly (p : HPort) (s t : State) : Prop :=
  t = { s with host := { s.host with ports := t.host.ports }, regs := t.regs } ∧ getPort t (otherPort p) = getPort s (otherPort p) ∧
  getPort t p = { getPort s p with sqs := (getPort t p).sqs, cqs := (getPort t p).cqs }

theorem ringsOnly_refl (p : HPort) (s : State) : ringsOnly p s s := ⟨rfl, rfl, rfl⟩

theorem ringsOnly_trans {p : HPort} {s t u : State} (h : ringsOnly p s t) (h' : ringsOnly p t u) : ringsOnly p s u := by
  obtain ⟨h1, h2, h3⟩ := h
  obtain ⟨k1, k2, k3⟩ := h'
  refine ⟨?_, k2.trans h2, ?_⟩
  · rw [k1, h1]
  · rw [k3, h3]

theorem ringsOnly_setSq (p : HPort) (i : Nat) (q : Sq) (s : State) : ringsOnly p s (setSq p i q s) := by
  obtain ⟨h1, h2, h3⟩ := modPort_ports p (fun x => { x with sqs := mapSetD Sq.reset i q x.sqs }) s
  refine ⟨rfl, h2, ?_⟩
  rw [setSq, h3]

theorem ringsOnly_setCq (p : HPort) (i : Nat) (q : Cq) (s : State) : ringsOnly p s (setCq p i q s) := by
  obtain ⟨h1, h2, h3⟩ := modPort_ports p (fun x => { x with cqs := mapSetD Cq.reset i q x.cqs }) s
  refine ⟨rfl, h2, ?_⟩
  rw [setCq, h3]

theorem ringsOnly_dropFetched (p : HPort) (i : Nat) (s : State) : ringsOnly p s (dropFetched p i s) := by
  unfold dropFetched
  dsimp only
  split
  · exact ringsOnly_setSq _ _ _ _
  · exact ringsOnly_trans (ringsOnly_setSq _ _ _ _) (ringsOnly_setCq _ _ _ _)

theorem ringsOnly_setRegF (p : HPort) (off ix hi lo v : Nat) (s : State) : ringsOnly p s (setRegF off ix hi lo v s) := ⟨rfl, rfl, rfl⟩

/-- One ring of each kind stops. -/
def stopRing (p : HPort) (s : State) (n : Nat) : State :=
  setRegF (cqOff p n 8) 0 5 5 0 (setRegF (sqOff p n 8) 0 5 5 0 (dropFetched p n s))

/-- Ring `n` of each kind is disabled, and no fetched descriptor waits. -/
def ringStopped (p : HPort) (n : Nat) (s : State) : Prop :=
  bit (regW s (sqOff p n 8) 0) 5 = false ∧ bit (regW s (cqOff p n 8) 0) 5 = false ∧ (getSq s p n).fetched = []

theorem ringsOnly_stopRing (p : HPort) (s : State) (n : Nat) : ringsOnly p s (stopRing p s n) :=
  ringsOnly_trans (ringsOnly_dropFetched p n s) (ringsOnly_trans (ringsOnly_setRegF _ _ _ _ _ _ _) (ringsOnly_setRegF _ _ _ _ _ _ _))

theorem getSq_setSq_same (p : HPort) (i : Nat) (q : Sq) (s : State) : getSq (setSq p i q s) p i = q := by
  rw [getSq, setSq, getPort_modPort, mapGetD_mapSetD_same]

theorem getSq_setSq_ne {p : HPort} {i j : Nat} (q : Sq) (s : State) (h : j ≠ i) : getSq (setSq p i q s) p j = getSq s p j := by
  rw [getSq, setSq, getPort_modPort, mapGetD_mapSetD_other _ _ _ h, getSq]

theorem getSq_setCq (p : HPort) (i j : Nat) (q : Cq) (s : State) : getSq (setCq p i q s) p j = getSq s p j := by
  rw [getSq, setCq, getPort_modPort, getSq]

theorem fetched_dropFetched (p : HPort) (n j : Nat) (s : State) (h : j = n ∨ (getSq s p j).fetched = []) :
    (getSq (dropFetched p n s) p j).fetched = [] := by
  have hs (q : Sq) (hq : q.fetched = []) : (getSq (setSq p n q s) p j).fetched = [] := by
    by_cases e : j = n
    · subst e; rw [getSq_setSq_same, hq]
    · rw [getSq_setSq_ne q s e]; exact h.resolve_left e
  unfold dropFetched
  dsimp only
  split
  · exact hs _ rfl
  · rw [getSq_setCq]; exact hs _ rfl

theorem getSq_setRegF (p : HPort) (j off ix hi lo v : Nat) (s : State) : getSq (setRegF off ix hi lo v s) p j = getSq s p j := rfl

/-- EN of a ring is clear once it is cleared, and clearing another register's bit leaves it. -/
theorem bit_setRegF_clear {off off' : Nat} (s : State) (ho : off % 4 = 0) (ho' : off' % 4 = 0)
    (h : off' = off ∨ bit (regW s off' 0) 5 = false) : bit (regW (setRegF off 0 5 5 0 s) off' 0) 5 = false := by
  by_cases e : off' = off
  · subst e
    have := testBit_bits (regW (setRegF off' 0 5 5 0 s) off' 0) 5 5 0
    rw [← regF, regF_setRegF_same s (by decide)] at this
    simpa [bit] using this.symm
  · rw [regW_setRegF_ne _ _ _ _ (by unfold regKey; omega)]
    exact h.resolve_left e

theorem sqOff_mod_four (p : HPort) (n : Nat) : sqOff p n 8 % 4 = 0 := by unfold sqOff; omega
theorem cqOff_mod_four (p : HPort) (n : Nat) : cqOff p n 8 % 4 = 0 := by unfold cqOff; omega

theorem ringStopped_stopRing {p : HPort} {n j : Nat} (s : State) (h : j = n ∨ ringStopped p j s) : ringStopped p j (stopRing p s n) := by
  have hr (off : Nat) : regW (dropFetched p n s) off 0 = regW s off 0 :=
    regW_of_regs (regs_of_proj (dropFetched_frame (m0 := 262144) (by decide) p n s)) off 0
  refine ⟨?_, ?_, ?_⟩
  · refine bit_setRegF_clear _ (cqOff_mod_four p n) (sqOff_mod_four p j)
      (.inr (bit_setRegF_clear _ (sqOff_mod_four p n) (sqOff_mod_four p j) ?_))
    exact h.imp (fun e => by rw [e]) (fun e => by rw [hr]; exact e.1)
  · refine bit_setRegF_clear _ (cqOff_mod_four p n) (cqOff_mod_four p j)
      (h.imp (fun e => by rw [e]) (fun e => bit_setRegF_clear _ (sqOff_mod_four p n) (cqOff_mod_four p j) (.inr ?_)))
    rw [hr]; exact e.2.1
  · rw [stopRing, getSq_setRegF, getSq_setRegF]
    exact fetched_dropFetched p n j s (h.imp id (fun e => e.2.2))

/-- Every ring of the port stops. -/
def stopRings (p : HPort) (s : State) : State := (List.range 64).foldl (stopRing p) s

theorem ringsOnly_stopRings (p : HPort) (s : State) : ringsOnly p s (stopRings p s) :=
  (List.range 64).foldlRecOn (stopRing p) (motive := ringsOnly p s) (ringsOnly_refl p s)
    (fun t ht n _ => ringsOnly_trans ht (ringsOnly_stopRing p t n))

theorem ringStopped_foldl (p : HPort) (ns : List Nat) {j : Nat} (s : State) (h : j ∈ ns ∨ ringStopped p j s) :
    ringStopped p j (ns.foldl (stopRing p) s) := by
  induction ns generalizing s with
  | nil => simpa using h
  | cons n ns ih =>
    refine ih _ ?_
    rcases h with h | h
    · exact (List.mem_cons.1 h).elim (fun e => .inr (ringStopped_stopRing s (.inl e))) .inl
    · exact .inr (ringStopped_stopRing s (.inr h))

theorem ringStopped_stopRings (p : HPort) {n : Nat} (hn : n < 64) (s : State) : ringStopped p n (stopRings p s) :=
  ringStopped_foldl p _ s (.inl (List.mem_range.2 hn))

/-! ### HOST_PORT_RESET: the whole (R330) -/

/-- A submission ring after the reset. -/
def sqCleared (q : Sq) : Sq := { q with st := 0, err := 0, inflight := 0, watch := none }

/-- A completion ring after the reset. -/
def cqCleared (q : Cq) : Cq := { q with reserved := 0, unsignalled := 0, since := none }

/-- The port after the reset, from what it was (`x`) and what it is with its rings stopped (`y`). -/
def portAfter (kind : PortReset) (x y : PortState) : PortState :=
  { y with
    era := x.era + 1, linkUp := if kind == .linkLoss then false else x.linkUp
    sqs := y.sqs.map (fun q => (q.1, sqCleared q.2)), cqs := y.cqs.map (fun q => (q.1, cqCleared q.2))
    shadow := [], logShadow := [], irqs := [] }

/-- A key of a word that the reset of the port with index `i` clears. -/
def clearedKey (i k : Nat) : Bool := (k / 2 ^ 24 == i || k / 2 ^ 24 == 1048576 + i) && resetsWithPort (k % 2 ^ 24)

/-- The state once the port, its registers and its waiting window change are reset, from the port as it was and the state with its
rings stopped. -/
def portCleared (p : HPort) (kind : PortReset) (x : PortState) (a : State) : State :=
  let u := setPort p (portAfter kind x (getPort a p)) a
  let u := { u with regs := u.regs.filter (fun r => !clearedKey (portIx p) r.1) }
  { u with host := { u.host with protPending := u.host.protPending.filter (fun c => c.port != p) } }

/-- HIF_SEM after the reset. -/
def semAfter (p : HPort) (kind : PortReset) (m : Sem) : Sem :=
  if kind ≠ .linkLoss ∧ m.owner = some p then { m with owner := none, token := 0 } else m

/-- The semaphore, or with a lost link the port's domain, after the reset. -/
def portReleased (p : HPort) (kind : PortReset) (u : State) : State :=
  if kind == .linkLoss then setDom (domHost p) 0 u
  else if u.host.sem.owner == some p then { u with host := { u.host with sem := { u.host.sem with owner := none, token := 0 } } }
  else u

/-- A drain into the port's host memory stops (R455). -/
def drainStopped (p : HPort) (v : State) : State :=
  if b2n (bit (regW v 0x400018 0) 5) == portIx p && bit (regW v 0x400000 0) 1 then { v with tport := { v.tport with drainOff := true } }
  else v

theorem resetPort_eq (p : HPort) (kind : PortReset) (s : State) :
    resetPort p kind s = drainStopped p (portReleased p kind (portCleared p kind (getPort s p) (stopRings p s))) := by
  unfold resetPort
  extract_lets i x a
  have ha : stopRings p s = a := rfl
  rw [ha]
  clear_value a
  rfl

theorem drainStopped_tport (p : HPort) (v : State) : drainStopped p v = { v with tport := (drainStopped p v).tport } := by
  unfold drainStopped
  split <;> rfl

theorem portReleased_regs (p : HPort) (kind : PortReset) (u : State) : (portReleased p kind u).regs = u.regs := by
  unfold portReleased
  split
  · exact regs_of_proj (setDom_frame (m0 := 2751467776) (by decide) _ _ _)
  · split <;> rfl

theorem portReleased_host (p : HPort) (kind : PortReset) (u : State) :
    (portReleased p kind u).host = { u.host with sem := semAfter p kind u.host.sem } := by
  unfold portReleased semAfter
  by_cases hk : kind = .linkLoss
  · rw [if_pos (by simp [hk]), host_of_proj (setDom_frame (m0 := 2751467776) (by decide) _ _ _), if_neg (by simp [hk])]
  · rw [if_neg (by simpa using hk)]
    by_cases ho : u.host.sem.owner = some p
    · rw [if_pos (by simp [ho]), if_pos ⟨hk, ho⟩]
    · rw [if_neg (by simpa using ho), if_neg (fun h => ho h.2)]

theorem resetPort_regs (p : HPort) (kind : PortReset) (s : State) :
    (resetPort p kind s).regs = (stopRings p s).regs.filter (fun r => !clearedKey (portIx p) r.1) := by
  rw [resetPort_eq, drainStopped_tport]
  exact portReleased_regs p kind _

theorem resetPort_host (p : HPort) (kind : PortReset) (s : State) : (resetPort p kind s).host = { s.host with
    ports := famSet (stopRings p s).host.ports (portIx p) (portAfter kind (getPort s p) (getPort (stopRings p s) p))
    protPending := s.host.protPending.filter (fun c => c.port != p)
    sem := semAfter p kind s.host.sem } := by
  obtain ⟨ha, -, -⟩ := ringsOnly_stopRings p s
  rw [resetPort_eq, drainStopped_tport]
  generalize stopRings p s = a at *
  have hh : a.host = { s.host with ports := a.host.ports } := by rw [ha]
  refine (portReleased_host p kind _).trans ?_
  simp only [portCleared, setPort]
  rw [hh]

theorem resetPort_ports (p : HPort) (kind : PortReset) (s : State) :
    getPort (resetPort p kind s) (otherPort p) = getPort s (otherPort p) ∧
      getPort (resetPort p kind s) p = portAfter kind (getPort s p) (getPort (stopRings p s) p) := by
  have h (q : HPort) : getPort (resetPort p kind s) q =
      getPort (setPort p (portAfter kind (getPort s p) (getPort (stopRings p s) p)) (stopRings p s)) q := by
    rw [getPort, resetPort_host]
    generalize stopRings p s = a
    rfl
  rw [h, h, getPort_setPort_ne _ _ _ (otherPort_ne p), getPort_setPort]
  exact ⟨(ringsOnly_stopRings p s).2.1, rfl⟩

/-- The parts that the reset leaves, from what it leaves outside the mask of `resetPort_frame`. -/
theorem resetPort_parts (p : HPort) (kind : PortReset) (s : State) : resetPort p kind s = { s with
    trace := (resetPort p kind s).trace, freeze := (resetPort p kind s).freeze, tport := (resetPort p kind s).tport
    host := (resetPort p kind s).host, pwr := (resetPort p kind s).pwr, regs := (resetPort p kind s).regs
    counters := (resetPort p kind s).counters, fresh := (resetPort p kind s).fresh } := by
  have e := resetPort_frame (m0 := 11610108160) (by decide) p kind s
  generalize resetPort p kind s = t at *
  rw [← gt_of_proj e, ← time_of_proj e, ← cores_of_proj e, ← clusters_of_proj e, ← dies_of_proj e, ← canopy_of_proj e,
    ← liveScales_of_proj e, ← scaleRaises_of_proj e, ← stretch_of_proj e, ← slots_of_proj e, ← recorder_of_proj e,
    ← dsm_of_proj e, ← nlus_of_proj e, ← pools_of_proj e, ← overhang_of_proj e, ← tbl_of_proj e, ← reams_of_proj e,
    ← net_of_proj e, ← flow_of_proj e, ← rqt_of_proj e, ← adm_of_proj e, ← grp_of_proj e, ← boot_of_proj e, ← snaps_of_proj e,
    ← pending_of_proj e]

/-! ### What the reset leaves in the registers and rings -/

theorem mapGet_map_value {α β : Type} (k : Nat) (f : α → β) (m : List (Nat × α)) :
    mapGet k (m.map (fun q => (q.1, f q.2))) = (mapGet k m).map f := by
  induction m with
  | nil => rfl
  | cons q m ih => by_cases h : q.1 = k <;> simp [mapGet, h, ih]

theorem mapGet_resetPort {p : HPort} {k : Nat} (kind : PortReset) (s : State) :
    mapGet k (resetPort p kind s).regs = if clearedKey (portIx p) k = true then none else mapGet k (stopRings p s).regs := by
  rw [resetPort_regs]
  split
  next h => exact mapGet_filter_drop k (fun j => !clearedKey (portIx p) j) _ (by simp [h])
  next h => exact mapGet_filter_keep k (fun j => !clearedKey (portIx p) j) _ (by simp [h])

theorem getSq_resetPort (p : HPort) (kind : PortReset) (s : State) (n : Nat) :
    getSq (resetPort p kind s) p n = sqCleared (getSq (stopRings p s) p n) := by
  rw [getSq, (resetPort_ports p kind s).2, getSq]
  generalize getPort (stopRings p s) p = y
  change (mapGet n (y.sqs.map (fun q => (q.1, sqCleared q.2)))).getD Sq.reset = sqCleared ((mapGet n y.sqs).getD Sq.reset)
  rw [mapGet_map_value]
  cases mapGet n y.sqs <;> rfl

theorem getCq_resetPort (p : HPort) (kind : PortReset) (s : State) (n : Nat) :
    getCq (resetPort p kind s) p n = cqCleared (getCq (stopRings p s) p n) := by
  rw [getCq, (resetPort_ports p kind s).2, getCq]
  generalize getPort (stopRings p s) p = y
  change (mapGet n (y.cqs.map (fun q => (q.1, cqCleared q.2)))).getD Cq.reset = cqCleared ((mapGet n y.cqs).getD Cq.reset)
  rw [mapGet_map_value]
  cases mapGet n y.cqs <;> rfl

theorem clearedKey_own {off : Nat} (p : HPort) (h : resetsWithPort off = true) : clearedKey (portIx p) (regKey off (portIx p)) = true := by
  have hlt := resetsWithPort_lt h
  have hp := portIx_lt p
  have hm : regKey off (portIx p) % 2 ^ 24 = off / 4 * 4 := by unfold regKey; omega
  have hd : regKey off (portIx p) / 2 ^ 24 = portIx p := by unfold regKey; omega
  simp only [clearedKey, hm, hd, resetsWithPort_word, h, BEq.rfl, Bool.true_or, Bool.and_self]

theorem clearedKey_stage {off : Nat} (p : HPort) (h : resetsWithPort off = true) :
    clearedKey (portIx p) (regKey off (stageIx (portIx p))) = true := by
  have hlt := resetsWithPort_lt h
  have hm : regKey off (stageIx (portIx p)) % 2 ^ 24 = off / 4 * 4 := by unfold regKey; omega
  have hd : regKey off (stageIx (portIx p)) / 2 ^ 24 = 1048576 + portIx p := by unfold regKey stageIx; omega
  simp only [clearedKey, hm, hd, resetsWithPort_word, h, BEq.rfl, Bool.or_true, Bool.and_self]

theorem resetsWithPort_rings : ∀ n < 64, (resetsWithPort (sqOff .h0 n 8) || resetsWithPort (cqOff .h0 n 8) ||
    resetsWithPort (sqOff .h1 n 8) || resetsWithPort (cqOff .h1 n 8)) = false := by decide +kernel

theorem regW_resetPort_ring {p : HPort} {n off : Nat} (kind : PortReset) (s : State) (hn : n < 64)
    (h : off = sqOff p n 8 ∨ off = cqOff p n 8) : regW (resetPort p kind s) off 0 = regW (stopRings p s) off 0 := by
  have hr := resetsWithPort_rings n hn
  simp only [Bool.or_eq_false_iff] at hr
  have hoff : resetsWithPort off = false := by cases p <;> rcases h with rfl | rfl <;> simp [hr]
  have hm : regKey off 0 % 2 ^ 24 = off := by
    have := portIx_lt p
    rcases h with rfl | rfl <;> (simp only [regKey, sqOff, cqOff]; omega)
  have hc : clearedKey (portIx p) (regKey off 0) = false := by rw [clearedKey, hm, hoff, Bool.and_false]
  rw [regW, mapGet_resetPort, hc, if_neg Bool.false_ne_true, regW]

theorem regW_resetPort_own {p : HPort} {off : Nat} (kind : PortReset) (s : State) (h : resetsWithPort off = true) (ha : off % 4 = 0) :
    regW (resetPort p kind s) off (portIx p) = regReset off := by
  rw [regW, mapGet_resetPort, if_pos (clearedKey_own p h), show off / 4 * 4 = off by omega]

theorem staged_resetPort {p : HPort} {off : Nat} (kind : PortReset) (s : State) (h : resetsWithPort off = true) :
    staged (resetPort p kind s) off (portIx p) = none := by
  rw [staged, mapGet_resetPort, if_pos (clearedKey_stage p h)]

/-- Every ring of the port is stopped and empty. -/
theorem resetPort_rings (p : HPort) (kind : PortReset) (s : State) {n : Nat} (hn : n < 64) :
    let t := resetPort p kind s
    bit (regW t (sqOff p n 8) 0) 5 = false ∧ bit (regW t (cqOff p n 8) 0) 5 = false ∧ (getSq t p n).st = 0 ∧
      (getSq t p n).fetched = [] ∧ (getSq t p n).inflight = 0 ∧ (getCq t p n).reserved = 0 := by
  obtain ⟨hsq, hcq, hf⟩ := ringStopped_stopRings p hn s
  dsimp only
  rw [regW_resetPort_ring kind s hn (.inl rfl), regW_resetPort_ring kind s hn (.inr rfl), getSq_resetPort, getCq_resetPort]
  generalize stopRings p s = a at *
  exact ⟨hsq, hcq, rfl, hf, rfl, rfl⟩

theorem exec_hostPortReset (p : HPort) (kind : PortReset) (s : State) :
    exec (.hostPortReset p kind) s = .next (resetPort p kind s) := rfl

/-- A write to an ordinary register, which stands `z` bytes below the offset written. -/
theorem exec_registerWrite_ordinary {s : State} {p : HPort} {off : BitVec 24} {size8 : Bool} (v : W64) {r : RegRow} {z : Nat}
    (hf : regFind (lineOff (normOff off.toNat)) = some (r, z)) (hb : barOpen s off.toNat = true)
    (ha : off.toNat % (if size8 then 8 else 4) = 0) (h8 : size8 = true → r.width = 64 ∧ z = 0 ∧ ownRow r.base 4 = false)
    (hown : ownRow r.base z = false) (hbusy : setBusy s p r.base = false) (hring : r.base < 0x10000 ∨ 0x30000 ≤ r.base)
    (hplain : r.base ∉ hooked) :
    Ordinary s p r (normOff off.toNat - z) z ∧ z ≤ normOff off.toNat ∧ (z = 0 ∨ z = 4) ∧
      exec (.registerWrite p off size8 v) s =
        .next (writeReg p off.toNat (normOff off.toNat - z) z r (accessMask size8 z) (accessValue size8 z v) s) := by
  have ha4 : off.toNat % 4 = 0 := by cases size8 <;> simp at ha <;> omega
  obtain ⟨hat, hle, hz⟩ := regAt_of_regFind (normOff_lt off.isLt) (normOff_mod_four ha4) hf
  exact ⟨⟨hat, hown, hbusy, hplain, hring⟩, hle, hz, exec_registerWrite_at p v hf hb ha hz h8⟩

/-- Settles O38: a write reaches one register of the table and its fields by `writeReg_takes`, or waits as a half; the reads,
PROT_COMMIT and HOST_PORT_RESET follow from what each leaves. -/
theorem registers : Obligations.Registers := by
  unfold Obligations.Registers
  intro s p
  refine ⟨?_, fun off size8 v h => exec_registerWrite_idle p v s h, fun off v ha hw => exec_registerWrite_pair p v s ha hw, ?_, ?_, ?_⟩
  · intro off size8 v r z
    dsimp only
    intro hf hb ha hz h8 hown hbusy hring hplain
    obtain ⟨hO, hle, hz, he⟩ := exec_registerWrite_ordinary v hf hb ha h8 hown hbusy hring hplain
    rw [he]
    have hhalf := halfOnly_accessMask r size8 hz
    refine ⟨fun hgate hne hsem => ?_, fun hg => ⟨fun hh => ?_, fun hh hsem hz0 => ?_, fun hh hsem hz4 => ?_, fun hh hsem hw => ?_⟩⟩
    · rw [writeReg_of_gated hO _ _ _ hsem hgate hne]
    · exact ⟨_, rfl, writeReg_takes hO off.toNat _ _ hg (by rwa [Bool.eq_false_iff, ne_eq, hhalf])⟩
    · subst hz0
      rw [writeReg_low_half hO _ _ _ hg (hhalf.2 hh) hsem]
      refine ⟨_, rfl, rfl, regsKeep_setStaged _ _ _ _, ?_⟩
      rw [Nat.sub_zero, staged_setStaged]
      obtain ⟨-, -, -, rfl⟩ := hh
      simp [accessValue]
    · subst hz4
      obtain ⟨ht, hst, hkeep, hfields⟩ := writeReg_high_half hO off.toNat (accessMask size8 4) (v.toNat % 2 ^ 32) hg (hhalf.2 hh) hsem
      obtain ⟨-, -, -, rfl⟩ := hh
      rw [Nat.sub_add_cancel hle] at hkeep
      rw [hsem]
      exact ⟨_, rfl, ht, hst, hkeep, hfields⟩
    · rw [writeReg_half_discarded hO _ _ _ hg (hhalf.2 hh) hsem hw]
      exact ⟨_, rfl, rwsDiscarded_discardRws p off.toNat s⟩
  · intro off r hf hw hb
    exact ⟨_, exec_shadowRead p s hf hw hb, modPort_ports p _ s⟩
  · intro hb
    exact ⟨⟨_, exec_logWordCapture p s hb, modPort_ports p _ s⟩, ⟨_, exec_peakRead s hb, rfl⟩, fun v =>
      ⟨fun h => ⟨_, exec_protCommit_closed p v s hb h, rwsDiscarded_discardRws p 0x830 s⟩, exec_protCommit_busy p v s hb,
        exec_protCommit_open p v s hb⟩⟩
  · intro kind
    obtain ⟨hother, hport⟩ := resetPort_ports p kind s
    obtain ⟨-, -, hrings⟩ := ringsOnly_stopRings p s
    have hparts := resetPort_parts p kind s
    have hhost := resetPort_host p kind s
    refine ⟨_, exec_hostPortReset p kind s, hparts, hother, ?_, ?_, ?_, ?_, ?_, fun off h _ => staged_resetPort kind s h,
      fun n hn => ?_, fun off h ha => regW_resetPort_own kind s h ha, ?_, ?_, ?_⟩
    · rw [hport]; rfl
    · rw [hport]; cases kind <;> rfl
    · rw [hport]; rfl
    · rw [hparts]
    · rw [hport, portAfter, hrings]
    · exact resetPort_rings p kind s hn
    · rw [hhost]
    · rw [hhost]
    · rw [hhost]; rfl

end Sys2Proof.Machine
end

section
/-! PROOFS. Frames as equations of states; reset and cold start, from PORST_N to SERVING. -/

namespace Sys2Proof.Machine

/-! ### What a frame leaves, as an equation of states -/

/-- `s` with the parts of `t` that a mask names: what a frame lemma says of `t`. -/
def withParts (m : Nat) (s t : State) : State :=
  { gt := if m.testBit 0 then t.gt else s.gt
    time := if m.testBit 1 then t.time else s.time
    cores := if m.testBit 2 then t.cores else s.cores
    clusters := if m.testBit 3 then t.clusters else s.clusters
    dies := if m.testBit 4 then t.dies else s.dies
    canopy := if m.testBit 5 then t.canopy else s.canopy
    liveScales := if m.testBit 6 then t.liveScales else s.liveScales
    scaleRaises := if m.testBit 7 then t.scaleRaises else s.scaleRaises
    trace := if m.testBit 8 then t.trace else s.trace
    stretch := if m.testBit 9 then t.stretch else s.stretch
    slots := if m.testBit 10 then t.slots else s.slots
    recorder := if m.testBit 11 then t.recorder else s.recorder
    freeze := if m.testBit 12 then t.freeze else s.freeze
    tport := if m.testBit 13 then t.tport else s.tport
    dsm := if m.testBit 14 then t.dsm else s.dsm
    nlus := if m.testBit 15 then t.nlus else s.nlus
    pools := if m.testBit 16 then t.pools else s.pools
    overhang := if m.testBit 17 then t.overhang else s.overhang
    host := { (if m.testBit 18 then t.host else s.host) with sem := if m.testBit 33 then t.host.sem else s.host.sem }
    tbl := if m.testBit 19 then t.tbl else s.tbl
    reams := if m.testBit 20 then t.reams else s.reams
    net := if m.testBit 21 then t.net else s.net
    flow := if m.testBit 22 then t.flow else s.flow
    rqt := if m.testBit 23 then t.rqt else s.rqt
    adm := if m.testBit 24 then t.adm else s.adm
    grp := if m.testBit 25 then t.grp else s.grp
    pwr := if m.testBit 26 then t.pwr else s.pwr
    boot := { (if m.testBit 27 then t.boot else s.boot) with
      fuses := if m.testBit 34 then t.boot.fuses else s.boot.fuses
      fuseJob := if m.testBit 35 then t.boot.fuseJob else s.boot.fuseJob }
    regs := if m.testBit 28 then t.regs else s.regs
    counters := if m.testBit 29 then t.counters else s.counters
    snaps := if m.testBit 30 then t.snaps else s.snaps
    fresh := if m.testBit 31 then t.fresh else s.fresh
    pending := if m.testBit 32 then t.pending else s.pending }

/-- A part is either taken as it is, or agrees. -/
theorem part_pick {α : Type} {b : Bool} {r x y : α} (e : (if b then r else x) = if b then r else y) :
    x = if b then x else y := by
  cases b
  · exact e
  · rfl

theorem host_withParts {m : Nat} {s t : State} (e : proj m t = proj m s) : t.host = (withParts m s t).host := by
  have hsem := part_pick (congrArg (fun u : State => u.host.sem) e)
  have h := congrArg (fun u : State => { u.host with sem := t.host.sem }) e
  simp only [withParts, ← hsem]
  cases h1 : m.testBit 18
  · simpa only [proj, h1, Bool.false_eq_true, if_false] using h
  · rfl

theorem boot_withParts {m : Nat} {s t : State} (e : proj m t = proj m s) : t.boot = (withParts m s t).boot := by
  have hfuses := part_pick (congrArg (fun u : State => u.boot.fuses) e)
  have hjob := part_pick (congrArg (fun u : State => u.boot.fuseJob) e)
  have h := congrArg (fun u : State => { u.boot with fuses := t.boot.fuses, fuseJob := t.boot.fuseJob }) e
  simp only [withParts, ← hfuses, ← hjob]
  cases h1 : m.testBit 27
  · simpa only [proj, h1, Bool.false_eq_true, if_false] using h
  · rfl

/-- A state that agrees with another outside a mask is the other but for the mask's parts. -/
theorem eq_withParts {m : Nat} {s t : State} (e : proj m t = proj m s) : t = withParts m s t := by
  have hparts : t = { withParts m s t with host := t.host, boot := t.boot } := by
    simp only [withParts]
    rw [← part_pick (congrArg State.gt e), ← part_pick (congrArg State.time e), ← part_pick (congrArg State.cores e),
      ← part_pick (congrArg State.clusters e), ← part_pick (congrArg State.dies e), ← part_pick (congrArg State.canopy e),
      ← part_pick (congrArg State.liveScales e), ← part_pick (congrArg State.scaleRaises e), ← part_pick (congrArg State.trace e),
      ← part_pick (congrArg State.stretch e), ← part_pick (congrArg State.slots e), ← part_pick (congrArg State.recorder e),
      ← part_pick (congrArg State.freeze e), ← part_pick (congrArg State.tport e), ← part_pick (congrArg State.dsm e),
      ← part_pick (congrArg State.nlus e), ← part_pick (congrArg State.pools e), ← part_pick (congrArg State.overhang e),
      ← part_pick (congrArg State.tbl e), ← part_pick (congrArg State.reams e), ← part_pick (congrArg State.net e),
      ← part_pick (congrArg State.flow e), ← part_pick (congrArg State.rqt e), ← part_pick (congrArg State.adm e),
      ← part_pick (congrArg State.grp e), ← part_pick (congrArg State.pwr e), ← part_pick (congrArg State.regs e),
      ← part_pick (congrArg State.counters e), ← part_pick (congrArg State.snaps e), ← part_pick (congrArg State.fresh e),
      ← part_pick (congrArg State.pending e)]
  rw [host_withParts e, boot_withParts e] at hparts
  exact hparts

/-! ### A bit of a register word -/

theorem bit_setRegF_same {off ix hi lo j : Nat} (v : Nat) (s : State) (hle : lo ≤ j) (hj : j ≤ hi) (hf : hi < 32) :
    bit (regW (setRegF off ix hi lo v s) off ix) j = v.testBit (j - lo) := by
  have hb := testBit_bits (regW (setRegF off ix hi lo v s) off ix) hi lo (j - lo)
  rw [← regF, regF_setRegF_same s hf, Nat.testBit_mod_two_pow, Nat.sub_add_cancel hle] at hb
  have hin : j - lo < hi + 1 - lo := by omega
  simpa [bit, hin] using hb.symm

theorem bit_setRegF_apart {off ix hi lo j : Nat} (v : Nat) (s : State) (hle : lo ≤ hi) (hj : j < 32) (h : j < lo ∨ hi < j) :
    bit (regW (setRegF off ix hi lo v s) off ix) j = bit (regW s off ix) j := by
  rw [bit, setRegF, regW_setRegW, Nat.testBit_mod_two_pow, testBit_setBits_out _ _ hle h]
  simp [hj, bit]

theorem testBit_b2n_zero (b : Bool) : (b2n b).testBit 0 = b := by cases b <;> rfl

/-- A flag of one bit reads as written. -/
theorem bit_setRegF_flag {off ix j : Nat} (v : Bool) (s : State) (hj : j < 32) :
    bit (regW (setRegF off ix j j (b2n v) s) off ix) j = v := by
  rw [bit_setRegF_same _ _ (le_refl j) (le_refl j) hj, Nat.sub_self, testBit_b2n_zero]

/-! ### Events and domains -/

theorem event_boot (code : Nat) (u : UnitCode) (v : Int) (layer op : W16) (detail : Bytes) (s : State) :
    (event code u v layer op detail s).boot = s.boot := boot_of_proj (event_frame (m0 := 536872960) (by decide) code u v layer op detail s)

/-- An event counts occurrences and records alone. -/
theorem cntGet_event (code : Nat) (u : UnitCode) (v : Int) (layer op : W16) (detail : Bytes) (s : State) {k : Nat}
    (h6 : k ≠ cntObs 6) (h7 : k ≠ cntObs 7) : cntGet (event code u v layer op detail s) k = cntGet s k := by
  have h : ∀ e : Recorder, cntGet { incCnt (cntObs 6) s with recorder := e } k = cntGet s k := fun _ => cntGet_addCnt_ne _ _ _ h6
  unfold event
  extract_lets t str w u e1 e2
  split
  · exact h _
  · exact (cntGet_addCnt_ne _ _ _ h7).trans (h _)

/-- A listing of domains reads, where it lists one, what the domain is. -/
theorem mapGetD_doms (f : Nat → Dom) (l : List Nat) (n : Nat) :
    mapGetD Dom.off n ((l.map (fun k => (k, f k))).filter (fun p => p.2 != Dom.off)) = if n ∈ l then f n else Dom.off := by
  induction l with
  | nil => rfl
  | cons k l ih =>
    rw [List.map_cons, List.filter_cons]
    by_cases hoff : f k = Dom.off
    · rw [if_neg (by simp [hoff]), ih]
      by_cases hk : n = k
      · simp [hk, hoff]
      · simp [hk]
    · rw [if_pos (by simp [hoff])]
      by_cases hk : n = k
      · simp [hk, mapGetD, mapGet]
      · have : k ≠ n := fun e => hk e.symm
        simpa [hk, mapGetD, mapGet, this] using ih

/-- A stage of cold start gives the domains that it reaches their STATE. -/
theorem getDom_powerUp_st (st : Nat → Nat) {n : Nat} (s : State) (hn : n < 337) (h : st n ≠ 0) :
    (getDom (powerUp st s) n).st = st n := by
  have hd := mapGetD_doms (fun n => if st n == 0 then getDom s n else { getDom s n with st := st n, gtNs := nowNs s, since := now s })
    (List.range 337) n
  rw [if_pos (List.mem_range.2 hn)] at hd
  simp only [getDom, powerUp] at hd ⊢
  rw [hd]
  simp [h]

/-- A change of one domain's STATE leaves the others. -/
theorem setDom_pwr (n st : Nat) (s : State) :
    (setDom n st s).pwr = (putDom n { getDom s n with st := st, gtNs := nowNs s, since := now s } s).pwr := by
  unfold setDom
  dsimp only
  split
  · have hp := pwr_of_proj (emitTrace_frame (m0 := 2684354816) (by decide) 9 (domUnit n) 0 0 (b2n (st == 4) + 2 * n) s)
    have hg := gt_of_proj (emitTrace_frame (m0 := 2684354816) (by decide) 9 (domUnit n) 0 0 (b2n (st == 4) + 2 * n) s)
    generalize emitTrace 9 (domUnit n) 0 0 (b2n (st == 4) + 2 * n) s = u at *
    simp only [noteStretch, putDom, markStretch, hp, nowNs, now, hg]
  · rfl

/-! ### Reset and stage 1 (R425, R426, R470) -/

/-- A record left open is cut as the recorder starts. -/
def cutRec (r : EvRec) : EvRec := { r with open_ := false, cut := r.open_ || r.cut }

/-- The recorder as it starts. -/
def restarted (e : Recorder) : Recorder :=
  { e with mram := e.mram.map (fun p => (p.1, cutRec p.2)), opened := [], waiting := [], hold := none, boot := (e.boot + 1) % 2 ^ 32 }

theorem cutRecords_eq (s : State) : cutRecords s =
    if s.recorder.mram.any (fun p => p.2.open_) then setSticky 0x500004 0 2 { s with recorder := restarted s.recorder }
    else { s with recorder := restarted s.recorder } := by
  have hm : s.recorder.mram.map (fun p => if p.2.open_ then (p.1, { p.2 with open_ := false, cut := true }) else p) =
      s.recorder.mram.map (fun p => (p.1, cutRec p.2)) :=
    List.map_congr_left fun p _ => by
      obtain ⟨k, r⟩ := p
      cases r with
      | mk _ o => cases o <;> rfl
  rw [restarted, ← hm]
  rfl

theorem cutRecords_regs (s : State) :
    cutRecords s = { s with recorder := restarted s.recorder, regs := (cutRecords s).regs } := by
  rw [cutRecords_eq]
  split <;> rfl

theorem regsKeep_cutRecords (s : State) : regsKeep [regKey 0x500004 0] s (cutRecords s) := by
  rw [cutRecords_eq]
  split
  · exact regsKeep_setRegW _ _ _ _
  · exact fun _ _ => rfl

theorem bit_cutRecords (s : State) (h : ∃ p ∈ s.recorder.mram, p.2.open_ = true) : bit (regW (cutRecords s) 0x500004 0) 2 = true := by
  rw [cutRecords_eq, if_pos (List.any_eq_true.2 h), bit_setSticky _ _ _ _ _ (by decide)]
  simp

theorem mapGet_restarted {e : Recorder} {k : Nat} {r : EvRec} (h : mapGet k e.mram = some r) :
    mapGet k (restarted e).mram = some (cutRec r) := by
  rw [restarted, mapGet_map_value, h, Option.map_some]

/-- The state of stage 1, before the recorder starts. -/
def stage1 (straps : BitVec 4) (s : State) : State :=
  powerUp stage1Doms { modBoot (fun b => { b with held := false, straps := straps, i3cAddr := 0x50 + bits straps.toNat 2 1 }) s with
    gt := 0, pwr := { s.pwr with qclk := true } }

theorem exec_porstRelease_up (straps : BitVec 4) {s : State} (h : s.boot.held = false) : exec (.porstRelease straps) s = .next s := by
  show execPorstRelease straps s = _
  simp [execPorstRelease, h]

theorem exec_porstRelease (straps : BitVec 4) {s : State} (h : s.boot.held = true) :
    exec (.porstRelease straps) s = .next (cutRecords (stage1 straps s)) := by
  show execPorstRelease straps s = _
  rw [execPorstRelease, h]
  rfl

/-! ### Stage 2 (R431 to R433) -/

/-- The newer of two directory copies. -/
def newerDir (a : Option DirCopy) (d : DirCopy) : Option DirCopy :=
  match a with
  | none => some d
  | some e => if e.seq < d.seq then some d else a

theorem goodDir_eq_foldl (s : State) : goodDir s = (s.boot.flash.dir.toList.filter (·.crcOk)).foldl newerDir none := rfl

theorem foldl_newerDir {d : DirCopy} {l : List DirCopy} {a : Option DirCopy} (hl : ∀ e ∈ l, e.seq < d.seq ∨ e = d)
    (ha : a = some d ∨ d ∈ l ∧ ∀ e ∈ a, e.seq < d.seq) : l.foldl newerDir a = some d := by
  induction l generalizing a with
  | nil => simpa using ha
  | cons x l ih =>
    refine ih (fun e he => hl e (by simp [he])) ?_
    rcases ha with rfl | ⟨hd, ha⟩
    · rcases hl x (by simp) with hx | rfl
      · exact .inl (if_neg (by omega))
      · exact .inl (if_neg (by omega))
    · rcases hl x (by simp) with hx | rfl
      · refine .inr ⟨(List.mem_cons.1 hd).resolve_left (fun e => by rw [e] at hx; omega), fun e he => ?_⟩
        cases a with
        | none => obtain rfl : x = e := by simpa [newerDir] using he
                  exact hx
        | some y =>
          simp only [newerDir] at he
          split at he
          · obtain rfl : x = e := by simpa using he
            exact hx
          · exact ha e he
      · cases a with
        | none => exact .inl rfl
        | some y => exact .inl (if_pos (ha y rfl))

theorem goodDir_newest {s : State} {d : DirCopy} (hd : d ∈ s.boot.flash.dir.toList) (hok : d.crcOk = true)
    (hnew : ∀ e ∈ s.boot.flash.dir.toList, e.crcOk = true → e.seq < d.seq ∨ e = d) : goodDir s = some d := by
  rw [goodDir_eq_foldl]
  refine foldl_newerDir (fun e he => ?_) (.inr ⟨List.mem_filter.2 ⟨hd, hok⟩, by simp⟩)
  exact hnew e (List.mem_filter.1 he).1 (List.mem_filter.1 he).2

/-- The ROM has drawn its free value and chosen the copy that it tries first. -/
def romRead (pref : Bool) (s : State) : State := modBoot (fun b => { b with prefB := pref }) { s with fresh := s.fresh + 1 }

/-- The ROM hands over to the firmware, with the certificates that stand in flash. -/
def handOver (s : State) : State := modBoot (fun x => { x with fwUp := true, certs := x.flash.certs }) s

/-- The firmware of a copy starts: stage 2 ends. -/
def startCopy (b : Bool) (s : State) : State := powerUp stage3Doms (setStage 2 (runFw b (fwCopy s b) (handOver s)))

theorem exec_firmwareVerify {s : State} {d : DirCopy} (hdir : goodDir s = some d) (hheld : s.boot.held = false)
    (htest : s.boot.straps.getLsbD 3 = false) (hstage : regF s 0x600000 0 2 0 = 0) :
    let u := romRead d.preferB s
    let ok (b : Bool) : Bool := fwVerifies s.boot.fuses (fwCopy s b)
    exec .firmwareVerify s = .next
      (if s.boot.straps.getLsbD 0 then setStage 1 u
       else if ok d.preferB then startCopy d.preferB u
       else if ok (!d.preferB) then setBootBit 3 true (startCopy (!d.preferB) u)
       else setStage 1 u) := by
  have hs : bootStage s = 0 := hstage
  show execFirmwareVerify s = _
  rw [execFirmwareVerify, hheld, htest, hs]
  have hg : goodDir { s with fresh := s.fresh + 1 } = some d := hdir
  simp only [drawFree, hg, Bool.or_self, bne_self_eq_false, Bool.false_eq_true, if_false, Option.map_some, Option.getD_some]
  simp only [apply_ite (Host.Outcome.next (σ := State) (φ := Fault) (ρ := Refusal))]
  rfl

/-- What BOOT_FW_SVN and BOOT_FW_INFO show of a copy that starts. -/
theorem regW_runFw (b : Bool) (c : FwCopy) (s : State) :
    regW (runFw b c s) 0x600010 0 = fwSvn c % 2 ^ 32 ∧ bit (regW (runFw b c s) 0x600014 0) 0 = b ∧
      bit (regW (runFw b c s) 0x600014 0) 1 = fwVerifies s.boot.fuses (fwCopy s (!b)) ∧
      regW (runFw b c s) 0x600000 0 = regW s 0x600000 0 := by
  unfold runFw setInactive
  refine ⟨?_, ?_, bit_setRegF_flag _ _ (by decide), ?_⟩
  · rw [regW_setRegF_ne _ _ _ _ (by decide), regW_setRegF_ne _ _ _ _ (by decide), regW_setRegW]
  · rw [bit_setRegF_apart _ _ (by decide) (by decide) (by decide), bit_setRegF_flag _ _ (by decide)]
  · rw [regW_setRegF_ne _ _ _ _ (by decide), regW_setRegF_ne _ _ _ _ (by decide), regW_setRegW_ne _ _ _ _ (by decide)]
    rfl

theorem regW_powerUp (st : Nat → Nat) (s : State) (off ix : Nat) : regW (powerUp st s) off ix = regW s off ix := rfl

theorem startCopy_boot (b : Bool) (s : State) :
    (startCopy b s).boot = { s.boot with fwUp := true, certs := s.boot.flash.certs, running := fwCopy s b } := by
  show (setStage 2 _).boot = _
  simp only [setStage, runFw, setInactive, setRegF_boot, setRegW_boot, modBoot_boot, handOver]

@[simp] theorem setBootBit_boot (n : Nat) (v : Bool) (s : State) : (setBootBit n v s).boot = s.boot := setRegF_boot _ _ _ _ _ _
@[simp] theorem setBootBit_pwr (n : Nat) (v : Bool) (s : State) : (setBootBit n v s).pwr = s.pwr := setRegF_pwr _ _ _ _ _ _

theorem getDom_startCopy (b : Bool) (s : State) {n : Nat} (hn : n < 292) : (getDom (startCopy b s) n).st = 4 := by
  have h4 : stage3Doms n = 4 := by simp [stage3Doms, hn]
  rw [startCopy, getDom_powerUp_st _ _ (by omega) (by rw [h4]; decide), h4]

/-- What the BOOT registers show once a copy has started. -/
theorem regW_startCopy (b : Bool) (s : State) :
    regF (startCopy b s) 0x600000 0 2 0 = 2 ∧ regW (startCopy b s) 0x600010 0 = fwSvn (fwCopy s b) % 2 ^ 32 ∧
      bit (regW (startCopy b s) 0x600014 0) 0 = b ∧
      bit (regW (startCopy b s) 0x600014 0) 1 = fwVerifies s.boot.fuses (fwCopy s (!b)) ∧
      bit (regW (startCopy b s) 0x600000 0) 3 = bit (regW s 0x600000 0) 3 := by
  obtain ⟨hsvn, hcopy, hother, hstatus⟩ := regW_runFw b (fwCopy s b) (handOver s)
  have hne {off : Nat} (h : regKey off 0 ≠ regKey 0x600000 0) : regW (startCopy b s) off 0 = regW (runFw b (fwCopy s b)
      (handOver s)) off 0 := by
    rw [startCopy, regW_powerUp, setStage, regW_setRegF_ne _ _ _ _ h]
  refine ⟨?_, ?_, ?_, ?_, ?_⟩
  · rw [startCopy, regF, regW_powerUp, ← regF, setStage, regF_setRegF_same _ (by decide)]; rfl
  · rw [hne (by decide), hsvn]
  · rw [hne (by decide), hcopy]
  · rw [hne (by decide), hother]; rfl
  · rw [startCopy, regW_powerUp, setStage, bit_setRegF_apart _ _ (by decide) (by decide) (by decide), hstatus]; rfl

/-- Firmware runs from the copy tried first or from the second one, but for the frame (R432, R433). -/
theorem firmwareRuns_of {pref second : Bool} {s t : State}
    (ht : t = if second then setBootBit 3 true (startCopy (!pref) (romRead pref s)) else startCopy pref (romRead pref s)) :
    t.boot = { s.boot with prefB := pref, fwUp := true, certs := s.boot.flash.certs, running := fwCopy s (pref ^^ second) } ∧
      regF t 0x600000 0 2 0 = 2 ∧ regW t 0x600010 0 = fwSvn (fwCopy s (pref ^^ second)) % 2 ^ 32 ∧
      bit (regW t 0x600014 0) 0 = (pref ^^ second) ∧
      bit (regW t 0x600014 0) 1 = fwVerifies s.boot.fuses (fwCopy s (pref ^^ !second)) ∧
      bit (regW t 0x600000 0) 3 = (second || bit (regW s 0x600000 0) 3) ∧ ∀ n < 292, (getDom t n).st = 4 := by
  subst ht
  cases second
  · obtain ⟨hstage, hsvn, hcopy, hother, hbit⟩ := regW_startCopy pref (romRead pref s)
    simp only [Bool.false_eq_true, if_false, Bool.xor_false, Bool.not_false, Bool.xor_true, Bool.false_or]
    exact ⟨startCopy_boot _ _, hstage, hsvn, hcopy, hother, hbit, fun n hn => getDom_startCopy _ _ hn⟩
  · obtain ⟨hstage, hsvn, hcopy, hother, -⟩ := regW_startCopy (!pref) (romRead pref s)
    simp only [if_true, Bool.xor_true, Bool.not_true, Bool.xor_false, Bool.true_or]
    refine ⟨(setBootBit_boot _ _ _).trans (startCopy_boot _ _), ?_, ?_, ?_, ?_, bit_setRegF_flag true _ (by decide), fun n hn => ?_⟩
    · rw [setBootBit, regF_setRegF_apart _ _ (by decide) (by decide) (by decide), hstage]
    · rw [setBootBit, regW_setRegF_ne _ _ _ _ (by decide), hsvn]; rfl
    · rw [setBootBit, regW_setRegF_ne _ _ _ _ (by decide), hcopy]
    · rw [setBootBit, regW_setRegF_ne _ _ _ _ (by decide), hother, Bool.not_not]; rfl
    · rw [getDom, setBootBit_pwr]
      exact getDom_startCopy _ _ hn

theorem event_regs (code : Nat) (u : UnitCode) (v : Int) (layer op : W16) (detail : Bytes) (s : State) :
    (event code u v layer op detail s).regs = s.regs := regs_of_proj (event_frame (m0 := 536872960) (by decide) code u v layer op detail s)

theorem regW_devEvent (code : Nat) (u : UnitCode) (v : Int) (s : State) (off ix : Nat) :
    regW (devEvent code u v s) off ix = regW s off ix := regW_of_regs (event_regs _ _ _ _ _ _ _) _ _

/-- FIRMWARE_VERIFY leaves the device in HOLD: no copy runs. -/
theorem held_of (pref : Bool) (s : State) :
    (setStage 1 (romRead pref s)).boot = { s.boot with prefB := pref } ∧ regF (setStage 1 (romRead pref s)) 0x600000 0 2 0 = 1 :=
  ⟨by rw [setStage, setRegF_boot]; rfl, by rw [setStage, regF_setRegF_same _ (by decide)]; rfl⟩

/-! ### Stage 4 (R186) -/

theorem readCells_nil (n a : Nat) : readCells n a [] = List.replicate n 0 := by
  induction n generalizing a with
  | zero => rfl
  | succ n ih => rw [readCells, ih, List.replicate_succ]

theorem exec_stackFillEnd {s : State} (hup : s.boot.fwUp = true) (hfill : s.boot.filled = false) :
    exec .stackFillEnd s = .next (powerUp stage4Doms (modBoot (fun b => { b with filled := true })
      { s with dsm := { s.dsm with cells := [], reloc := [], poison := [] } })) := by
  show execStackFillEnd s = _
  rw [execStackFillEnd, hup, hfill]
  rfl

/-! ### Stages 8 and 9 (R33, R426, R427) -/

theorem sourceAwaited_iff (s : State) : sourceAwaited s = true ↔ 2 ≤ s.time.source ∧ s.boot.timeDone = false := by
  simp [sourceAwaited]

theorem stepAllowed_iff (s : State) (ns : Nat) : stepAllowed s ns false = true ↔
    now s < nsT ns ∧ holdsLaunch s = false ∧ s.grp.role ≠ 1 ∧ s.grp.role ≠ 2 := by
  simp [stepAllowed, and_assoc]

theorem lockStep_of_step {src : W64} {s : State} (hw : sourceAwaited s = true) (hs : stepAllowed s src.toNat false = true) :
    lockStep src s = { s with
      boot := { s.boot with timeDone := true }, time := { s.time with stepTo := some src, stepJoin := false } } := by
  have hs' : stepAllowed (modBoot (fun b => { b with timeDone := true }) s) src.toNat false = true := hs
  simp only [lockStep, hw, hs', Bool.not_true, Bool.false_eq_true, if_false, if_true]
  rfl

theorem lockStep_of_no_step {src : W64} {s : State} (h : ¬ (sourceAwaited s = true ∧ stepAllowed s src.toNat false = true)) :
    lockStep src s = { s with boot := { s.boot with timeDone := s.boot.timeDone || sourceAwaited s } } := by
  cases hw : sourceAwaited s
  · simp [lockStep, hw]
  · have hs : stepAllowed (modBoot (fun b => { b with timeDone := true }) s) src.toNat false = false :=
      Bool.eq_false_iff.2 fun hs => h ⟨hw, hs⟩
    simp only [lockStep, hw, hs, Bool.not_true, Bool.false_eq_true, if_false, Bool.or_true]
    rfl

theorem exec_servingEnter_early (src : W64) {s : State} (h : ¬ (regF s 0x600000 0 2 0 = 3 ∧ (sourceAwaited s = true → s.time.locked = true))) :
    exec (.servingEnter src) s = .next s := by
  show execServingEnter src s = _
  refine if_pos ?_
  by_contra hc
  simp only [bootStage, Bool.or_eq_true, bne_iff_ne, Bool.and_eq_true, Bool.not_eq_true', not_or, not_and, ne_eq, not_not,
    Bool.not_eq_false] at hc
  exact h hc

/-- The device takes its role and, but for a worker, serves. -/
def enterRole (s : State) : State :=
  if cfgField s 1 0 == 2 then setStage 4 (changeRole (cfgField s 1 0) s) else beginServing (changeRole (cfgField s 1 0) s)

theorem exec_servingEnter (src : W64) {s : State} (h3 : regF s 0x600000 0 2 0 = 3) (hl : sourceAwaited s = true → s.time.locked = true) :
    exec (.servingEnter src) s =
      .next (if (lockStep src s).time.stepTo.isSome then lockStep src s else enterRole (lockStep src s)) := by
  show execServingEnter src s = _
  have h : (bootStage s != 3 || (sourceAwaited s && !s.time.locked)) = false := by
    cases hw : sourceAwaited s <;> simp [bootStage, h3, hw] at hl ⊢
    exact hl
  rw [execServingEnter, h, if_neg Bool.false_ne_true]
  split
  · rfl
  · rfl

/-- A device that stands alone takes its configured role: as a manager with its first EPOCH, or as a worker that joins. -/
theorem changeRole_alone (new : Nat) {s : State} (h : s.grp.role = 0) :
    changeRole new s = { s with grp := (changeRole new s).grp } ∧ (new ≠ 1 → new ≠ 2 → changeRole new s = s) ∧
      (new = 1 → (changeRole new s).grp.role = 1 ∧ (changeRole new s).grp.id = 0 ∧ 2047 ≤ (changeRole new s).grp.epoch.toNat) ∧
      (new = 2 → (changeRole new s).grp.role = 3) := by
  match new with
  | 0 => simp [changeRole, h]
  | 1 =>
    have e : changeRole 1 s = modGrp (fun g => { g with role := 1, epoch := if s.grp.epoch.toNat < 2047 then 2047 else s.grp.epoch })
      (forgetGroup s) := by simp [changeRole, h]
    rw [e]
    refine ⟨rfl, by simp, fun _ => ⟨rfl, rfl, ?_⟩, by simp⟩
    show 2047 ≤ (if s.grp.epoch.toNat < 2047 then (2047 : W32) else s.grp.epoch).toNat
    split
    · decide
    · omega
  | 2 =>
    have e : changeRole 2 s = modGrp (fun g => { g with role := 3, timeAhead := false }) (forgetGroup s) := by simp [changeRole, h]
    rw [e]
    exact ⟨rfl, by simp, by simp, fun _ => rfl⟩
  | n + 3 => simp [changeRole, h]

theorem nowNs_lt (s : State) : nowNs s < 2 ^ 64 := by
  have := s.gt.isLt
  unfold nowNs now
  omega

/-- SERVING, with its edge. -/
theorem beginServing_shows (s : State) : regF (beginServing s) 0x600000 0 2 0 = 5 ∧ regQ (beginServing s) 0x600008 0 = nowNs s := by
  unfold beginServing setRegQ
  refine ⟨?_, ?_⟩
  · rw [regF, regW_devEvent, regW_setRegW_ne _ _ _ _ (by decide), regW_setRegW_ne _ _ _ _ (by decide), ← regF,
      regF_setRegF_same _ (by decide)]; rfl
  · have := nowNs_lt s
    rw [regQ, regW_devEvent, regW_devEvent, regW_setRegW_ne _ _ _ _ (by decide), regW_setRegW, regW_setRegW]
    omega

theorem enterRole_worker {s : State} (h : cfgField s 1 0 = 2) : enterRole s = setStage 4 (changeRole 2 s) := by simp [enterRole, h]

theorem enterRole_serving {s : State} (h : cfgField s 1 0 ≠ 2) : enterRole s = beginServing (changeRole (cfgField s 1 0) s) := by
  simp [enterRole, h]

/-- A device that stands alone enters its role, and takes nothing but the role, its stage and the event COLD_START. -/
theorem enterRole_alone {s : State} (h : s.grp.role = 0) :
    enterRole s = { s with
      grp := (enterRole s).grp, regs := (enterRole s).regs, recorder := (enterRole s).recorder, counters := (enterRole s).counters } ∧
      (enterRole s).grp = (changeRole (cfgField s 1 0) s).grp := by
  obtain ⟨hgrp, -⟩ := changeRole_alone (cfgField s 1 0) h
  generalize hr : changeRole (cfgField s 1 0) s = u at *
  have hu (t : State) (e : proj 805308416 t = proj 805308416 u) : t = { s with
      grp := t.grp, regs := t.regs, recorder := t.recorder, counters := t.counters } ∧ t.grp = u.grp := by
    refine ⟨?_, grp_of_proj e⟩
    conv_lhs => rw [eq_withParts e, hgrp]
    rw [grp_of_proj e]
    rfl
  by_cases h2 : cfgField s 1 0 = 2
  · rw [enterRole_worker h2, ← h2, hr]
    exact hu _ (setRegF_frame (by decide) _ _ _ _ _ _)
  · rw [enterRole_serving h2, hr]
    exact hu _ (beginServing_frame (by decide) _)

theorem enterRole_shows {s : State} (h : s.grp.role = 0) :
    (cfgField s 1 0 = 2 → regF (enterRole s) 0x600000 0 2 0 = 4 ∧ (enterRole s).recorder = s.recorder) ∧
      (cfgField s 1 0 ≠ 2 → regF (enterRole s) 0x600000 0 2 0 = 5 ∧ regQ (enterRole s) 0x600008 0 = nowNs (enterRole s)) := by
  obtain ⟨hparts, -⟩ := enterRole_alone h
  refine ⟨fun h2 => ?_, fun h2 => ?_⟩
  · obtain ⟨hgrp, -⟩ := changeRole_alone 2 h
    rw [enterRole_worker h2]
    refine ⟨by rw [setStage, regF_setRegF_same _ (by decide)]; rfl, ?_⟩
    rw [setStage, setRegF_recorder, hgrp]
  · have hgt : (enterRole s).gt = (changeRole (cfgField s 1 0) s).gt := by
      obtain ⟨hgrp, -⟩ := changeRole_alone (cfgField s 1 0) h
      rw [hparts, hgrp]
    have hns : nowNs (enterRole s) = nowNs (changeRole (cfgField s 1 0) s) := by rw [nowNs, now, hgt]; rfl
    rw [hns, enterRole_serving h2]
    exact beginServing_shows _

/-! ### A source that does not lock, and the watchdog (R32, R428, R437) -/

/-- A source that has not locked 30 s after stage 6. -/
def lockLate (s : State) (c : Nat) : Prop :=
  2 ≤ s.time.source ∧ s.boot.timeDone = false ∧ s.time.locked = false ∧ c + nsT 30000000000 ≤ now s

theorem exec_timeLockTimeout {s : State} {c : Nat} (hc : s.boot.configAt = some c) :
    (¬ lockLate s c → exec .timeLockTimeout s = .next s) ∧
      (lockLate s c → exec .timeLockTimeout s = .next (if s.time.holdover then modBoot (fun b => { b with timeDone := true }) s
        else enterHoldover (modBoot (fun b => { b with timeDone := true }) s))) := by
  have hg : (!sourceAwaited s || s.time.locked || decide (now s < c + nsT 30000000000)) = true ↔ ¬ lockLate s c := by
    simp only [Bool.or_eq_true, Bool.not_eq_true', decide_eq_true_eq, lockLate, ← Bool.not_eq_true, sourceAwaited_iff]
    cases s.boot.timeDone <;> cases s.time.locked <;> simp [imp_iff_not_or]
  have he : exec .timeLockTimeout s = if !sourceAwaited s || s.time.locked || decide (now s < c + nsT 30000000000) then .next s
      else .next (if s.time.holdover then modBoot (fun b => { b with timeDone := true }) s
        else enterHoldover (modBoot (fun b => { b with timeDone := true }) s)) := by
    show execTimeLockTimeout s = _
    rw [execTimeLockTimeout, hc]
    rfl
  rw [he]
  exact ⟨fun h => if_pos (hg.2 h), fun h => if_neg (fun g => hg.1 g h)⟩

theorem enterHoldover_shows (s : State) :
    (enterHoldover s).time = { s.time with holdover := true, locked := false, aligned := false, within := 0, beyond := 0 } ∧
      (enterHoldover s).boot = s.boot ∧ bit (regW (enterHoldover s) 0x100004 0) 3 = true ∧ regsKeep [regKey 0x100004 0] s (enterHoldover s) := by
  unfold enterHoldover
  refine ⟨?_, event_boot _ _ _ _ _ _ _, ?_, ?_⟩
  · rw [devEvent, time_of_proj (event_frame (m0 := 536872960) (by decide) _ _ _ _ _ _ _)]
    rfl
  · rw [regW_devEvent, bit_setSticky _ _ _ _ _ (by decide)]
    simp
  · exact regsKeep_of_regs (regsKeep_setRegW _ _ _ _) (event_regs _ _ _ _ _ _ _)

/-- The ROM reloads the running copy, and takes it where it verifies. -/
def reloaded (s : State) : State :=
  if fwVerifies s.boot.fuses (fwCopy s (runningB s)) then modBoot (fun b => { b with running := fwCopy s (runningB s) }) s else s

theorem exec_watchdogExpire {s : State} (h : s.boot.fwUp = true) : exec .watchdogExpire s = .next
    (devEvent 0x1006 ucPackage (fwSvn (reloaded s).boot.running) (incCnt (cntSec 7) (setBootBit 6 true (reloaded s)))) := by
  show execWatchdogExpire s = _
  rw [execWatchdogExpire, h]
  rfl

theorem reloaded_counters (s : State) : (reloaded s).counters = s.counters := by
  unfold reloaded
  split <;> rfl

theorem watchdog_shows (v : Int) (s : State) :
    let t := devEvent 0x1006 ucPackage v (incCnt (cntSec 7) (setBootBit 6 true s))
    counted (cntSec 7) 1 s t ∧ bit (regW t 0x600000 0) 6 = true ∧ t.boot = s.boot := by
  refine ⟨?_, ?_, ?_⟩
  · rw [counted, devEvent, cntGet_event _ _ _ _ _ _ _ (by decide) (by decide), incCnt, cntGet_addCnt _ _ _ (by decide)]
    rfl
  · rw [regW_devEvent, show regW (incCnt (cntSec 7) (setBootBit 6 true s)) 0x600000 0 = regW (setBootBit 6 true s) 0x600000 0 from rfl]
    exact bit_setRegF_flag true _ (by decide)
  · rw [devEvent, event_boot, incCnt_boot, setBootBit_boot]

/-! ### A link that comes up (R417) -/

theorem exec_hostLinkUp {p : HPort} {s : State} (hu : unitActive s (ucNet (portDie p)) = true) (ht : s.boot.straps.getLsbD 3 = false) :
    exec (.hostLinkUp p) s = .next (setDom (domHost p) 4 (modPort p (fun x => { x with linkUp := true }) s)) := by
  show execHostLinkUp p s = _
  rw [execHostLinkUp, hu, ht]
  rfl

theorem exec_hostLinkUp_down {p : HPort} {s : State} (h : unitActive s (ucNet (portDie p)) = false ∨ s.boot.straps.getLsbD 3 = true) :
    exec (.hostLinkUp p) s = .next s := by
  show execHostLinkUp p s = _
  rcases h with h | h <;> simp [execHostLinkUp, h]

theorem getDom_setDom (n st : Nat) (s : State) :
    (getDom (setDom n st s) n).st = st ∧ ∀ k, k ≠ n → getDom (setDom n st s) k = getDom s k := by
  have hd (k : Nat) : getDom (setDom n st s) k = getDom (putDom n { getDom s n with st := st, gtNs := nowNs s, since := now s } s) k := by
    rw [getDom, setDom_pwr]
    rfl
  exact ⟨by rw [hd, getDom_putDom], fun k hk => by rw [hd, getDom_putDom_ne _ _ _ hk]⟩

/-! ### The statement, command by command -/

theorem boot_release (straps : BitVec 4) {s : State} (h : s.boot.held = true) :
    ∃ t, exec (.porstRelease straps) s = .next t ∧ t = { s with
          gt := t.gt, recorder := t.recorder, pwr := t.pwr
          boot := { t.boot with fuses := s.boot.fuses, fuseJob := s.boot.fuseJob }, regs := t.regs } ∧ t.gt = 0 ∧
        t.boot = { s.boot with held := false, straps := straps, i3cAddr := 0x50 + straps.toNat / 2 % 4 } ∧ t.pwr.qclk = true ∧
        t.recorder.opened = [] ∧ t.recorder.hold = none ∧ t.recorder.boot = (s.recorder.boot + 1) % 2 ^ 32 ∧
        (∀ k r, mapGet k s.recorder.mram = some r → mapGet k t.recorder.mram = some { r with open_ := false, cut := r.open_ || r.cut }) ∧
        ((∃ p ∈ s.recorder.mram, p.2.open_ = true) → bit (regW t 0x500004 0) 2 = true) ∧ regsKeep [regKey 0x500004 0] s t := by
  have hr := cutRecords_regs (stage1 straps s)
  refine ⟨_, exec_porstRelease straps h, ?_, ?_, ?_, ?_, ?_, ?_, ?_, fun k r hk => ?_, bit_cutRecords (stage1 straps s),
    regsKeep_cutRecords (stage1 straps s)⟩
  · rw [hr]; rfl
  · rw [hr]; rfl
  · rw [hr]; rfl
  · rw [hr]; rfl
  · rw [hr]; rfl
  · rw [hr]; rfl
  · rw [hr]; rfl
  · rw [hr]; exact mapGet_restarted hk

/-- The device is in HOLD (R433). -/
def firmwareHeld (pref : Bool) (s t : State) : Prop :=
  t = { s with
    pwr := t.pwr, boot := { t.boot with fuses := s.boot.fuses, fuseJob := s.boot.fuseJob }, regs := t.regs, fresh := t.fresh } ∧
  t.boot = { s.boot with prefB := pref } ∧ regF t 0x600000 0 2 0 = 1

/-- Firmware runs from the copy tried first or from the second one (R432, R433). -/
def firmwareRuns (pref second : Bool) (s t : State) : Prop :=
  t = { s with
    pwr := t.pwr, boot := { t.boot with fuses := s.boot.fuses, fuseJob := s.boot.fuseJob }, regs := t.regs, fresh := t.fresh } ∧
  t.boot = { s.boot with prefB := pref, fwUp := true, certs := s.boot.flash.certs, running := fwCopy s (pref ^^ second) } ∧
  regF t 0x600000 0 2 0 = 2 ∧ regW t 0x600010 0 = fwSvn (fwCopy s (pref ^^ second)) % 2 ^ 32 ∧
  bit (regW t 0x600014 0) 0 = (pref ^^ second) ∧
  bit (regW t 0x600014 0) 1 = fwVerifies s.boot.fuses (fwCopy s (pref ^^ !second)) ∧
  bit (regW t 0x600000 0) 3 = (second || bit (regW s 0x600000 0) 3) ∧ ∀ n < 292, (getDom t n).st = 4

theorem boot_verify {s : State} {d : DirCopy} (hdir : goodDir s = some d) (hheld : s.boot.held = false)
    (htest : s.boot.straps.getLsbD 3 = false) (hstage : regF s 0x600000 0 2 0 = 0) :
    let ok (second : Bool) : Bool := fwVerifies s.boot.fuses (fwCopy s (d.preferB ^^ second))
    ∃ t, exec .firmwareVerify s = .next t ∧
      (s.boot.straps.getLsbD 0 = true ∨ (ok false = false ∧ ok true = false) → firmwareHeld d.preferB s t) ∧
      (s.boot.straps.getLsbD 0 = false → ok false = true → firmwareRuns d.preferB false s t) ∧
      (s.boot.straps.getLsbD 0 = false → ok false = false → ok true = true → firmwareRuns d.preferB true s t) := by
  intro ok
  have hfirst : fwVerifies s.boot.fuses (fwCopy s d.preferB) = ok false := by simp [ok]
  have hsecond : fwVerifies s.boot.fuses (fwCopy s (!d.preferB)) = ok true := by simp [ok]
  have he := exec_firmwareVerify hdir hheld htest hstage
  simp only [hfirst, hsecond] at he
  obtain ⟨t, ht⟩ : ∃ t, t = (if s.boot.straps.getLsbD 0 then setStage 1 (romRead d.preferB s)
       else if ok false then startCopy d.preferB (romRead d.preferB s)
       else if ok true then setBootBit 3 true (startCopy (!d.preferB) (romRead d.preferB s))
       else setStage 1 (romRead d.preferB s)) := ⟨_, rfl⟩
  rw [← ht] at he
  have hparts := eq_withParts (execFirmwareVerify_frame (m0 := 2617245696) (by decide) s t he)
  refine ⟨t, he, fun h => ⟨hparts, ?_⟩, fun h0 h1 => ⟨hparts, ?_⟩, fun h0 h1 h2 => ⟨hparts, ?_⟩⟩
  · have hold : t = setStage 1 (romRead d.preferB s) := by
      rcases h with h | ⟨h1, h2⟩
      · rw [ht, if_pos h]
      · simp [ht, h1, h2]
    rw [hold]
    exact held_of d.preferB s
  · exact firmwareRuns_of (second := false) (by simp only [ht, h0, h1, if_true, Bool.false_eq_true, if_false])
  · exact firmwareRuns_of (second := true) (by simp only [ht, h0, h1, h2, if_true, Bool.false_eq_true, if_false])

theorem boot_fill {s : State} (hup : s.boot.fwUp = true) (hfill : s.boot.filled = false) : ∃ t, exec .stackFillEnd s = .next t ∧
    t = { s with
      dsm := { s.dsm with cells := [], reloc := [], poison := [] }, pwr := t.pwr, boot := { s.boot with filled := true } } ∧
    ∀ k, rawLine t k = zeroLine :=
  ⟨_, exec_stackFillEnd hup hfill, rfl, fun k => readCells_nil 64 (64 * k)⟩

/-- SERVING_ENTER in stage 8, with and without a step of GT, and stage 9 of a device that stands alone. -/
theorem boot_serving (src : W64) (s : State) :
    let waits : Bool := decide (2 ≤ s.time.source) && !s.boot.timeDone
    let steps : Prop := waits = true ∧ now s < nsT src.toNat ∧ holdsLaunch s = false ∧ s.grp.role ≠ 1 ∧ s.grp.role ≠ 2
    let role := cfgField s 1 0
    let ready : Prop := regF s 0x600000 0 2 0 = 3 ∧ (waits = true → s.time.locked = true)
    (¬ ready → exec (.servingEnter src) s = .next s) ∧
    (ready → steps → exec (.servingEnter src) s = .next { s with
      boot := { s.boot with timeDone := true }, time := { s.time with stepTo := some src, stepJoin := false } }) ∧
    (ready → ¬ steps → s.time.stepTo ≠ none →
      exec (.servingEnter src) s = .next { s with boot := { s.boot with timeDone := s.boot.timeDone || waits } }) ∧
    (ready → ¬ steps → s.time.stepTo = none → s.grp.role = 0 →
      ∃ t, exec (.servingEnter src) s = .next t ∧
        t = { s with
          boot := { s.boot with timeDone := s.boot.timeDone || waits }, grp := t.grp, regs := t.regs, recorder := t.recorder,
          counters := t.counters } ∧
        (role = 0 → t.grp = s.grp) ∧ (role = 1 → t.grp.role = 1 ∧ t.grp.id = 0 ∧ 2047 ≤ t.grp.epoch.toNat) ∧
        (role = 2 → t.grp.role = 3 ∧ regF t 0x600000 0 2 0 = 4 ∧ t.recorder = s.recorder) ∧
        (role ≠ 2 → regF t 0x600000 0 2 0 = 5 ∧ regQ t 0x600008 0 = nowNs t)) := by
  intro waits steps role ready
  have hsteps : steps ↔ sourceAwaited s = true ∧ stepAllowed s src.toNat false = true := and_congr_right fun _ => (stepAllowed_iff _ _).symm
  have hstay (hs : ¬ steps) := lockStep_of_no_step (fun h => hs (hsteps.2 h))
  refine ⟨exec_servingEnter_early src, fun hr hs => ?_, fun hr hs hto => ?_, fun hr hs hto h0 => ?_⟩
  · obtain ⟨hw, ha⟩ := hsteps.1 hs
    rw [exec_servingEnter src hr.1 hr.2, lockStep_of_step hw ha]
    rfl
  · rw [exec_servingEnter src hr.1 hr.2, hstay hs, if_pos (Option.isSome_iff_ne_none.2 hto)]
    rfl
  · have hno : ¬ (lockStep src s).time.stepTo.isSome = true := by rw [hstay hs]; simpa using hto
    have halone : (lockStep src s).grp.role = 0 := by rw [hstay hs]; exact h0
    have hrole : cfgField (lockStep src s) 1 0 = role := by rw [hstay hs]; rfl
    obtain ⟨hparts, hgrp⟩ := enterRole_alone halone
    obtain ⟨-, hkeep, hmanager, hworker⟩ := changeRole_alone role halone
    obtain ⟨hjoins, hserves⟩ := enterRole_shows halone
    rw [hrole] at hgrp hjoins hserves
    have he : exec (.servingEnter src) s = .next (enterRole (lockStep src s)) := by rw [exec_servingEnter src hr.1 hr.2, if_neg hno]
    generalize enterRole (lockStep src s) = t at *
    refine ⟨t, he, ?_, fun hz => ?_, fun h1 => ?_, fun h2 => ?_, fun h2 => hserves h2⟩
    · rw [hstay hs] at hparts
      exact hparts
    · rw [hgrp, hkeep (by omega) (by omega), hstay hs]
    · rw [hgrp]; exact hmanager h1
    · obtain ⟨hstage, hrec⟩ := hjoins h2
      refine ⟨by rw [hgrp]; exact hworker h2, hstage, ?_⟩
      rw [hrec, hstay hs]

theorem boot_timeout {s : State} {c : Nat} (hc : s.boot.configAt = some c) :
    (¬ lockLate s c → exec .timeLockTimeout s = .next s) ∧
    (lockLate s c → s.time.holdover = true → exec .timeLockTimeout s = .next { s with boot := { s.boot with timeDone := true } }) ∧
    (lockLate s c → s.time.holdover = false → ∃ t, exec .timeLockTimeout s = .next t ∧ t = { s with
        time := t.time, recorder := t.recorder
        boot := { t.boot with fuses := s.boot.fuses, fuseJob := s.boot.fuseJob }, regs := t.regs
        counters := t.counters } ∧
      t.boot = { s.boot with timeDone := true } ∧ t.gt = s.gt ∧
      t.time = { s.time with holdover := true, locked := false, aligned := false, within := 0, beyond := 0 } ∧
      bit (regW t 0x100004 0) 3 = true ∧ regsKeep [regKey 0x100004 0] s t) := by
  obtain ⟨hearly, hlate⟩ := exec_timeLockTimeout hc
  refine ⟨hearly, fun hl hh => ?_, fun hl hh => ?_⟩
  · rw [hlate hl, hh]; rfl
  · have he := hlate hl
    rw [hh, if_neg Bool.false_ne_true] at he
    have hframe := execTimeLockTimeout_frame (m0 := 939526146) (by decide) s _ he
    obtain ⟨htime, hboot, hbit, hregs⟩ := enterHoldover_shows (modBoot (fun b => { b with timeDone := true }) s)
    exact ⟨_, he, eq_withParts hframe, hboot, gt_of_proj hframe, htime, hbit, hregs⟩

theorem boot_link {p : HPort} {s : State} (hu : unitActive s (ucNet (portDie p)) = true) (ht : s.boot.straps.getLsbD 3 = false) :
    ∃ t, exec (.hostLinkUp p) s = .next t ∧ t = { s with
        trace := t.trace, freeze := t.freeze, host := { t.host with sem := s.host.sem }, pwr := t.pwr
        counters := t.counters, fresh := t.fresh } ∧ t.host = (modPort p (fun y => { y with linkUp := true }) s).host ∧
      (getDom t (domHost p)).st = 4 ∧ ∀ n, n ≠ domHost p → getDom t n = getDom s n := by
  have he := exec_hostLinkUp hu ht
  obtain ⟨hon, hothers⟩ := getDom_setDom (domHost p) 4 (modPort p (fun x => { x with linkUp := true }) s)
  exact ⟨_, he, eq_withParts (execHostLinkUp_frame (m0 := 2751729920) (by decide) p s _ he),
    host_of_proj (setDom_frame (m0 := 2751467776) (by decide) _ _ _), hon, hothers⟩

theorem boot_watchdog {s : State} (h : s.boot.fwUp = true) : ∃ t, exec .watchdogExpire s = .next t ∧ t = { s with
        recorder := t.recorder, boot := { t.boot with fuses := s.boot.fuses, fuseJob := s.boot.fuseJob }
        regs := t.regs, counters := t.counters } ∧ counted (cntSec 7) 1 s t ∧
      bit (regW t 0x600000 0) 6 = true ∧
      t.boot = if fwVerifies s.boot.fuses (fwCopy s (runningB s)) then { s.boot with running := fwCopy s (runningB s) } else s.boot := by
  have he := exec_watchdogExpire h
  obtain ⟨hcnt, hbit, hboot⟩ := watchdog_shows (fwSvn (reloaded s).boot.running) (reloaded s)
  refine ⟨_, he, eq_withParts (execWatchdogExpire_frame (m0 := 939526144) (by decide) s _ he), ?_, hbit, ?_⟩
  · rw [counted, hcnt, cntGet_of_counters (reloaded_counters s)]
  · rw [hboot, reloaded]
    split <;> rfl

/-- Settles O54: each command of reset and cold start by its own lemma. -/
theorem boot : Obligations.Boot := by
  intro s
  refine ⟨⟨_, rfl, rfl⟩, ⟨_, rfl, rfl⟩, fun straps => ⟨exec_porstRelease_up straps, boot_release straps⟩,
    fun d hd hok hnew hheld htest hstage => boot_verify (goodDir_newest hd hok hnew) hheld htest hstage,
    boot_fill, fun src => boot_serving src s, fun c hc => boot_timeout hc, fun hc => ?_,
    fun p => ⟨exec_hostLinkUp_down, boot_link⟩, fun h => ?_, boot_watchdog⟩
  · show execTimeLockTimeout s = _
    rw [execTimeLockTimeout, hc]
  · show execWatchdogExpire s = _
    rw [execWatchdogExpire, h]
    rfl

end Sys2Proof.Machine
end

section
/-! PROOFS. Admission: ADMISSION_OFFER and REAM_SEAL. -/

namespace Sys2Proof.Machine

/-! ### The counters of admission -/

/-- No counter of admission moves. -/
def admCountsKeep (s t : State) : Prop := ∀ n < 8, cntGet t (cntAdm n) = cntGet s (cntAdm n)

theorem admCountsKeep_of_counters {s t : State} (h : t.counters = s.counters) : admCountsKeep s t :=
  fun _ _ => cntGet_of_counters h _

theorem admCountsKeep_trans {s t u : State} (h : admCountsKeep s t) (h' : admCountsKeep t u) : admCountsKeep s u :=
  fun n hn => (h' n hn).trans (h n hn)

theorem admCountsKeep_addCnt {k : Nat} (n : Nat) (s : State) (h : ∀ n < 8, cntAdm n ≠ k) : admCountsKeep s (addCnt k n s) :=
  fun j hj => cntGet_addCnt_ne _ _ _ (h j hj)

theorem admCountsKeep_foldl {α : Type} (l : List α) (f : State → α → State) (h : ∀ s a, admCountsKeep s (f s a)) (s : State) :
    admCountsKeep s (l.foldl f s) :=
  l.foldlRecOn f (motive := admCountsKeep s) (fun _ _ => rfl) (fun _ ht a _ => admCountsKeep_trans ht (h _ a))

theorem stampSub_counters (u : UnitCode) (s : State) : (stampSub u s).2.counters = s.counters :=
  counters_of_proj (stampSub_frame (m0 := 2147483648) (by decide) u s)

theorem admCountsKeep_emitTrace (kind : Nat) (u : UnitCode) (layer op : W16) (payload : Nat) (s : State) :
    admCountsKeep s (emitTrace kind u layer op payload s) := by
  have h (k n : Nat) (x : List (Nat × TraceStream)) (hk : ∀ n < 8, cntAdm n ≠ k) :
      admCountsKeep s (addCnt k n { (stampSub u s).2 with trace := x }) :=
    admCountsKeep_trans (admCountsKeep_of_counters (stampSub_counters u s)) (admCountsKeep_addCnt _ _ hk)
  unfold emitTrace
  extract_lets n st
  split
  · exact fun _ _ => rfl
  · split
    rename_i sub v hv
    obtain rfl : (stampSub u s).2 = v := by rw [hv]
    extract_lets
    split
    · exact h _ _ _ (by unfold cntAdm cntObs; omega)
    · exact h _ _ _ (by unfold cntAdm cntObs; omega)

theorem admCountsKeep_enqueue {g q : Nat} (it : QItem) (answer : Bool) (s : State) (hg : g < 16) (hq : q < 16) :
    admCountsKeep s (enqueue g q it answer s).2 := by
  have hne (c : Nat) (hc : c < 2) : ∀ n < 8, cntAdm n ≠ cntQueue g q c := by unfold cntAdm cntQueue; omega
  unfold enqueue
  split
  · exact admCountsKeep_addCnt _ _ (hne 1 (by omega))
  · have hhold : (holdFrame it.frame s).counters = s.counters := counters_of_proj (holdFrame_frame (m0 := 2097152) (by decide) _ _)
    exact admCountsKeep_trans (admCountsKeep_of_counters hhold) (admCountsKeep_addCnt _ _ (hne 0 (by omega)))

theorem portUp_lt {s : State} {g : Nat} (h : portUp s g = true) : g < 16 := by
  simp only [portUp, isPort, Bool.and_eq_true, decide_eq_true_eq] at h
  exact h.1.1.1

theorem freeUnheld_counters (i : Nat) (s : State) : (freeUnheld i s).counters = s.counters :=
  counters_of_proj (freeUnheld_frame (m0 := 2097152) (by decide) i s)

theorem admCountsKeep_sendTo (g dmac : Nat) (dst : Option Nat) (seq ack : W32) (b : GrpBody) (s : State) :
    admCountsKeep s (sendTo g dmac dst seq ack b s) := by
  unfold sendTo
  split
  · exact fun _ _ => rfl
  · rename_i hsend
    have hg : g < 16 := by
      refine portUp_lt (s := s) ?_
      simp only [Bool.or_eq_true, Bool.not_eq_true', not_or] at hsend
      simpa using hsend.2
    extract_lets h f
    split
    · exact fun _ _ => rfl
    · have hq : bits (cfgField s 0x15 0) 3 0 < 16 := bits_lt _ _ _
      refine admCountsKeep_trans (admCountsKeep_enqueue { plainItem s.net.nextFrame with group := true } false
        (putFrame (laneDie g) f f.length (some (h, b)) s).2 hg hq) ?_
      dsimp only
      refine admCountsKeep_trans ?_ (admCountsKeep_of_counters (freeUnheld_counters _ _))
      split
      · exact admCountsKeep_addCnt _ _ (by unfold cntAdm cntGrp; omega)
      · exact fun _ _ => rfl

theorem admCountsKeep_sendSeq (i : Nat) (b : GrpBody) (s : State) : admCountsKeep s (sendSeq i b s) := by
  have hto (seq : W32) (s : State) : admCountsKeep s (toPeer i seq b s) := by
    unfold toPeer
    split
    · exact fun _ _ => rfl
    · exact admCountsKeep_sendTo _ _ _ _ _ _ _
  unfold sendSeq
  split
  · exact fun _ _ => rfl
  · split
    · exact fun _ _ => rfl
    · exact hto _ _

theorem admCountsKeep_journalReq (k : Nat) (s : State) : admCountsKeep s (journalReq k s) := by
  have hto (s : State) (i : Nat) : admCountsKeep s (journalTo i k s) := by
    unfold journalTo
    split
    · exact admCountsKeep_sendSeq _ _ _
    · exact fun _ _ => rfl
  unfold journalReq
  split
  · exact admCountsKeep_foldl _ (fun s i => journalTo i k s) hto s
  · exact fun _ _ => rfl

/-- One counter of admission counts a request, or none does. -/
def admCounts (c : Option Nat) (s t : State) : Prop :=
  ∀ n, (c = some n → counted (cntAdm n) 1 s t) ∧ (c ≠ some n → n < 8 → cntGet t (cntAdm n) = cntGet s (cntAdm n))

theorem admCounts_none {s t : State} (h : admCountsKeep s t) : admCounts none s t :=
  fun n => ⟨by simp, fun _ hn => h n hn⟩

theorem admCounts_incCnt {n : Nat} (s : State) (hn : n < 8) : admCounts (some n) s (incCnt (cntAdm n) s) := by
  refine fun j => ⟨fun e => ?_, fun e _ => cntGet_addCnt_ne _ _ _ fun h => e ?_⟩
  · obtain rfl : n = j := by simpa using e
    exact cntGet_addCnt _ _ _ (by unfold cntAdm; omega)
  · unfold cntAdm at h
    rw [show n = j by omega]

theorem admCounts_trans {c : Option Nat} {s t u : State} (h : admCounts c s t) (h' : admCountsKeep t u) (hc : ∀ n ∈ c, n < 8) :
    admCounts c s u :=
  fun n => ⟨fun e => (h' n (hc n e)).trans ((h n).1 e), fun e hn => (h' n hn).trans ((h n).2 e hn)⟩

/-! ### A request leaves admission with an answer (R297, R302, R315) -/

/-- Request `k` has left the admission unit of `s`; since then trace records, counters and free values alone have changed. -/
def leftAdmission (k : Nat) (s v : State) : Prop := proj 2684354816 v = proj 2684354816 (leaveAdmission k s)

theorem leftAdmission_eq {k : Nat} {s v : State} (h : leftAdmission k s v) :
    v = { leaveAdmission k s with trace := v.trace, counters := v.counters, fresh := v.fresh } := eq_withParts h

theorem leftAdmission_incCnt {k : Nat} {s v : State} (i : Nat) (h : leftAdmission k s v) : leftAdmission k s (incCnt i v) :=
  (incCnt_frame (by decide) i v).trans h

theorem leftAdmission_traceAdmit {k : Nat} {s v : State} (outcome j : Nat) (sl : SlotId) (h : leftAdmission k s v) :
    leftAdmission k s (traceAdmit outcome j sl v) :=
  (traceAdmit_frame (by decide) outcome j sl v).trans h

theorem modReq_eq {k : Nat} {s : State} {r : Req} (f : Req → Req) (h : getReq s k = some r) : modReq k f s = setReq k (f r) s := by
  simp only [modReq, h]

theorem getReq_of_rqt {s t : State} (h : t.rqt = s.rqt) (j : Nat) : getReq t j = getReq s j := by rw [getReq, h, getReq]

theorem getQueue_setQueue (g q : Nat) (l : List QItem) (s : State) : getQueue (setQueue g q l s) g q = l := by
  simp [getQueue, setQueue]

/-- One more copy of a frame leaves its bytes and all else of the packet path. -/
theorem holdFrame_spec (i : Nat) (s : State) :
    (holdFrame i s).net = { s.net with frames := (holdFrame i s).net.frames } ∧ frameBytes (holdFrame i s) i = frameBytes s i := by
  unfold holdFrame
  split
  · rename_i f hf
    exact ⟨rfl, by simp [frameBytes, getFrame] at hf ⊢; simp [hf]⟩
  · exact ⟨rfl, rfl⟩

/-- Frame `i` joins a queue as an answer, whatever MAX_CELLS says. -/
theorem enqueue_answer (g q : Nat) (it : QItem) (s : State) :
    getQueue (enqueue g q it true s).2 g q = getQueue s g q ++ [it] ∧ frameBytes (enqueue g q it true s).2 it.frame = frameBytes s it.frame := by
  obtain ⟨hnet, hbytes⟩ := holdFrame_spec it.frame s
  have hq : getQueue (holdFrame it.frame s) g q = getQueue s g q := by rw [getQueue, getEPort, hnet]; rfl
  have e : (enqueue g q it true s).2 = incCnt (cntQueue g q 0) (setQueue g q (getQueue s g q ++ [it]) (holdFrame it.frame s)) := by
    rw [← hq]; simp [enqueue, hq]
  rw [e]
  exact ⟨getQueue_setQueue _ _ _ _, hbytes⟩

/-- A response of bytes `f` stands in the queue of its port, in cells of its own. -/
def responseQueued (k : Nat) (r : Req) (f : Bytes) (s : State) : State :=
  let d := laneDie r.port.val
  modReq k (fun q => { q with st := 6 })
    (enqueue r.port.val (respQueue s d) { plainItem s.net.nextFrame with entry := some k } true (putFrame d f f.length none s).2).2

theorem queueResponse_of_cells {k : Nat} {r : Req} {f : Bytes} {s : State} (hp : portUp s r.port.val = true)
    (hc : hasCells s (laneDie r.port.val) f.length true = true) : queueResponse k r f s = (true, responseQueued k r f s) := by
  simp only [queueResponse, hp, hc, Bool.not_true, Bool.false_eq_true, if_false, if_true]
  rfl

/-- Where the frame of a queued response stands, and what queueing it leaves. -/
theorem responseQueued_spec (k : Nat) {r : Req} (f : Bytes) {s : State} (hr : getReq s k = some r) :
    let g := r.port.val
    let q := respQueue s (laneDie g)
    let t := responseQueued k r f s
    getReq t k = some { r with st := 6 } ∧ (∀ j, j ≠ k → getReq t j = getReq s j) ∧
      getQueue t g q = getQueue s g q ++ [{ plainItem s.net.nextFrame with entry := some k }] ∧
      frameBytes t s.net.nextFrame = f ∧ proj 547356672 t = proj 547356672 s ∧ admCountsKeep s t := by
  intro g q t
  have hput : frameBytes (putFrame (laneDie g) f f.length none s).2 s.net.nextFrame = f := by simp [frameBytes, getFrame, putFrame]
  obtain ⟨hqueue, hbytes⟩ := enqueue_answer g q { plainItem s.net.nextFrame with entry := some k } (putFrame (laneDie g) f f.length none s).2
  have hframe := enqueue_frame (m0 := 547356672) (by decide) g q { plainItem s.net.nextFrame with entry := some k } true
    (putFrame (laneDie g) f f.length none s).2
  have hcnt := admCountsKeep_enqueue { plainItem s.net.nextFrame with entry := some k } true (putFrame (laneDie g) f f.length none s).2
    r.port.isLt (show q < 16 from bits_lt _ _ _)
  have hrqt := rqt_of_proj (enqueue_frame (m0 := 538968064) (by decide) g q { plainItem s.net.nextFrame with entry := some k } true
    (putFrame (laneDie g) f f.length none s).2)
  have ht : t = modReq k (fun q => { q with st := 6 }) (enqueue g q { plainItem s.net.nextFrame with entry := some k } true
    (putFrame (laneDie g) f f.length none s).2).2 := rfl
  clear_value t
  generalize (enqueue g q { plainItem s.net.nextFrame with entry := some k } true (putFrame (laneDie g) f f.length none s).2).2 = u at *
  have hu (j : Nat) : getReq u j = getReq s j := getReq_of_rqt (hrqt.trans rfl) j
  rw [modReq_eq _ ((hu k).trans hr)] at ht
  subst ht
  exact ⟨getReq_setReq _ _ _, fun j hj => (getReq_setReq_ne _ _ _ hj).trans (hu j), hqueue, hbytes.trans hput, hframe, hcnt⟩

/-- Request `k` is answered with a status: it has left admission, its answer, frame `i`, stands in its port's queue, and the counter `c` of
admission counts it. -/
def requestAnswered (i k : Nat) (r : Req) (status : Nat) (c : Option Nat) (s t : State) : Prop :=
  k ∉ t.adm.offers ∧ getReq t k = some { r with st := 6 } ∧ (∀ j, j ≠ k → getReq t j = getReq s j) ∧
    getQueue t r.port.val (respQueue s (laneDie r.port.val)) =
      getQueue s r.port.val (respQueue s (laneDie r.port.val)) ++ [{ plainItem i with entry := some k }] ∧
    frameBytes t i = reqFrame s r status 0 [] [] ∧ t.reams = s.reams ∧ t.slots = s.slots ∧ admCounts c s t

theorem answerReq_of_cells {k status : Nat} {r : Req} {v : State} (hr : getReq v k = some r) (hi : r.infer = none)
    (hp : portUp v r.port.val = true) (hc : hasCells v (laneDie r.port.val) (reqFrame v r status 0 [] []).length true = true) :
    answerReq k status v =
      traceResponse k status (responseQueued k r (reqFrame v r status 0 [] []) (leaveAdmission k v)) := by
  have hq : queueResponse k r (reqFrame v r status 0 [] []) (leaveAdmission k v) =
      (true, responseQueued k r (reqFrame v r status 0 [] []) (leaveAdmission k v)) := queueResponse_of_cells hp hc
  have hf : reqFrame (leaveAdmission k v) r status 0 [] [] = reqFrame v r status 0 [] [] := rfl
  simp only [answerReq, hr, hi, hf, hq]

theorem answerReq_answered {k status : Nat} {r : Req} {c : Option Nat} {s v : State} (hv : leftAdmission k s v) (hcnt : admCounts c s v)
    (hc8 : ∀ n ∈ c, n < 8) (hr : getReq s k = some r) (hi : r.infer = none) (hp : portUp s r.port.val = true)
    (hcells : hasCells s (laneDie r.port.val) (reqFrame s r status 0 [] []).length true = true) :
    ∃ i, requestAnswered i k r status c s (answerReq k status v) := by
  have hreq (j : Nat) : getReq v j = getReq s j := getReq_of_rqt (rqt_of_proj hv) j
  have hreams : v.reams = s.reams := by rw [leftAdmission_eq hv]; rfl
  have hslots : v.slots = s.slots := by rw [leftAdmission_eq hv]; rfl
  have hf : reqFrame v r status 0 [] [] = reqFrame s r status 0 [] [] := by rw [leftAdmission_eq hv]; rfl
  have he : answerReq k status v = _ := answerReq_of_cells (status := status) ((hreq k).trans hr) hi (by rw [leftAdmission_eq hv]; exact hp)
    (by rw [hf]; rw [leftAdmission_eq hv]; exact hcells)
  obtain ⟨hself, hothers, hqueue, hbytes, hframe, hkeep⟩ :=
    responseQueued_spec k (reqFrame v r status 0 [] []) (s := leaveAdmission k v) ((hreq k).trans hr)
  rw [he]
  generalize responseQueued k r (reqFrame v r status 0 [] []) (leaveAdmission k v) = u at *
  have htrace := traceResponse_frame (m0 := 2684354816) (by decide) k status u
  have hcount : admCountsKeep u (traceResponse k status u) := admCountsKeep_emitTrace _ _ _ _ _ _
  generalize traceResponse k status u = t at *
  have hadm : t.adm = (leaveAdmission k v).adm := (adm_of_proj htrace).trans (adm_of_proj hframe)
  have hnetu : t.net = u.net := net_of_proj htrace
  refine ⟨v.net.nextFrame, ?_, ?_, fun j hj => ?_, ?_, ?_, ?_, ?_, ?_⟩
  · simp [hadm, leaveAdmission]
  · exact (getReq_of_rqt (rqt_of_proj htrace) k).trans hself
  · exact (getReq_of_rqt (rqt_of_proj htrace) j).trans ((hothers j hj).trans (hreq j))
  · have hq : respQueue (leaveAdmission k v) (laneDie r.port.val) = respQueue s (laneDie r.port.val) := by rw [leftAdmission_eq hv]; rfl
    have hold : getQueue (leaveAdmission k v) r.port.val (respQueue s (laneDie r.port.val)) =
        getQueue s r.port.val (respQueue s (laneDie r.port.val)) := by rw [leftAdmission_eq hv]; rfl
    rw [hq, hold] at hqueue
    rw [getQueue, getEPort, hnetu]
    exact hqueue
  · rw [frameBytes, getFrame, hnetu, ← hf]
    exact hbytes
  · exact (reams_of_proj htrace).trans ((reams_of_proj hframe).trans hreams)
  · exact (slots_of_proj htrace).trans ((slots_of_proj hframe).trans hslots)
  · exact admCounts_trans hcnt (admCountsKeep_trans (s := leaveAdmission k v) hkeep hcount) hc8

/-! ### The decision (R302 to R304) -/

theorem windowPassed_iff (s : State) : windowPassed s = true ↔ ¬ (reamWindow s = 0 ∨ windowOf s (nowNs s) = s.adm.window) := by
  simp [windowPassed]

theorem windowEnd_same {s : State} (h : reamWindow s = 0 ∨ windowOf s (nowNs s) = s.adm.window) : windowEnd s = s := by
  rw [windowEnd, if_neg]
  rw [windowPassed_iff]
  exact not_not_intro h

theorem exec_admissionOffer_owed {s : State} (h : edgeOwed s = true) : exec .admissionOffer s = .next s := if_pos h
theorem exec_reamSeal_owed {s : State} (h : edgeOwed s = true) : exec .reamSeal s = .next s := if_pos h

theorem exec_reamSeal {s : State} (h : edgeOwed s = false) : exec .reamSeal s = .next (windowEnd s) := if_neg (by simp [h])

theorem exec_admissionOffer {s : State} {k : Nat} {rest : List Nat} (h : edgeOwed s = false)
    (hsame : reamWindow s = 0 ∨ windowOf s (nowNs s) = s.adm.window) (ho : s.adm.offers = k :: rest) :
    exec .admissionOffer s = .next (decideReq k (nowNs s) false s) := by
  show execAdmissionOffer s = _
  simp only [execAdmissionOffer, h, Bool.false_eq_true, if_false, windowEnd_same hsame, ho]

/-- No slot, or admission that sheds: the request is answered SHED, and no counter of admission counts it. -/
theorem decideReq_shed {k a : Nat} {again : Bool} {s : State} {r : Req} (hr : getReq s k = some r)
    (h : reqSlot s r = none ∨ shedding s = true) :
    ∃ sl, decideReq k a again s = answerReq k stShed (traceAdmit 1 k sl (leaveAdmission k s)) := by
  have hr' : getReq (leaveAdmission k s) k = some r := hr
  have hslot : reqSlot (leaveAdmission k s) r = reqSlot s r := rfl
  have hshed : shedding (leaveAdmission k s) = shedding s := rfl
  cases hb : reqSlot s r with
  | none => exact ⟨0, by simp only [decideReq, hr', hslot, hb]⟩
  | some sl =>
    refine ⟨sl, ?_⟩
    have hs := h.resolve_left (by simp [hb])
    simp only [decideReq, hr', hslot, hb, hshed, hs, if_true]

/-- The slot's image does not hold the request's service. -/
theorem decideReq_noService {k a : Nat} {again : Bool} {s : State} {r : Req} {sl : SlotId} (hr : getReq s k = some r)
    (hb : reqSlot s r = some sl) (hs : shedding s = false) (hv : svcOf s sl r.service = none) :
    decideReq k a again s = answerReq k stFormat (incCnt (cntAdm 6) (leaveAdmission k s)) := by
  have hr' : getReq (leaveAdmission k s) k = some r := hr
  have hslot : reqSlot (leaveAdmission k s) r = some sl := hb
  have hshed : shedding (leaveAdmission k s) = false := hs
  have hsvc : svcOf (leaveAdmission k s) sl r.service = none := hv
  simp only [decideReq, hr', hslot, hshed, hsvc, Bool.false_eq_true, if_false]
  cases slotImage (leaveAdmission k s) sl <;> rfl

/-- A request of a service is refused for its body, shed by the prediction, admitted, or carried. -/
theorem decideReq_service {k a : Nat} {again : Bool} {s : State} {r : Req} {sl : SlotId} {im : Image} {svc : Service}
    (hr : getReq s k = some r) (hb : reqSlot s r = some sl) (hs : shedding s = false) (hi : slotImage s sl = some im)
    (hv : svcOf s sl r.service = some svc) :
    decideReq k a again s =
      if bodyFits svc r.body = false then answerReq k stFormat (incCnt (cntAdm 6) (leaveAdmission k s))
      else if completesBy s sl im svc (joinSeq s (windowOf s a) sl) a (launchAt s (windowOf s a)) r.deadline = false then
        answerReq k stShed (traceAdmit 1 k sl (incCnt (cntAdm (if again then 3 else 1)) (leaveAdmission k s)))
      else if hasCredits s (cluNeed svc) (nluNeed s im svc r.body) = true then
        admitReq k sl (windowOf s a) (cluNeed svc) (nluNeed s im svc r.body) (leaveAdmission k s)
      else carryReq k (leaveAdmission k s) := by
  have hr' : getReq (leaveAdmission k s) k = some r := hr
  have hslot : reqSlot (leaveAdmission k s) r = some sl := hb
  have hshed : shedding (leaveAdmission k s) = false := hs
  have himg : slotImage (leaveAdmission k s) sl = some im := hi
  have hsvc : svcOf (leaveAdmission k s) sl r.service = some svc := hv
  simp only [decideReq, hr', hslot, hshed, himg, hsvc, Bool.false_eq_true, if_false, Bool.not_eq_true']
  rfl

/-! ### Admission to a ream (R24, R303, R382) -/

/-- The ream that a window opens for a slot. -/
def openedReam (s : State) (n : Nat) (sl : SlotId) : Ream :=
  emptyReam s.adm.nextSeq sl n (s.reams.filter (fun r => r.window == n && r.share.isNone)).length (launchAt s n)

/-- The window has an open ream of a slot. -/
def withOpenReam (n : Nat) (sl : SlotId) (s : State) : State :=
  match openReam s n sl with
  | some _ => s
  | none =>
    { s with reams := s.reams ++ [openedReam s n sl], adm := { s.adm with nextSeq := s.adm.nextSeq + 1 } }

theorem openReam_some {s : State} {n : Nat} {sl : SlotId} {m : Ream} (h : openReam s n sl = some m) :
    m ∈ s.reams ∧ m.window = n ∧ m.slot = sl := by
  have hp := List.find?_some h
  simp only [Bool.and_eq_true, beq_iff_eq] at hp
  exact ⟨List.mem_of_find?_eq_some h, hp.1.2, hp.2⟩

theorem openReam_withOpenReam (n : Nat) (sl : SlotId) (s : State) :
    ∃ m, openReam (withOpenReam n sl s) n sl = some m ∧ m.seq = joinSeq s n sl := by
  unfold withOpenReam
  cases h : openReam s n sl with
  | some m => exact ⟨m, h, by simp [joinSeq, h]⟩
  | none =>
    refine ⟨openedReam s n sl, ?_, by simp [joinSeq, h, openedReam, emptyReam]⟩
    unfold openReam at h ⊢
    rw [List.find?_append, h]
    simp [openedReam, emptyReam]

theorem withOpenReam_parts (n : Nat) (sl : SlotId) (s : State) :
    withOpenReam n sl s = { s with reams := (withOpenReam n sl s).reams, adm := { s.adm with nextSeq := (withOpenReam n sl s).adm.nextSeq } } ∧
      (openReam s n sl = none → (withOpenReam n sl s).adm.nextSeq = s.adm.nextSeq + 1) := by
  unfold withOpenReam
  cases h : openReam s n sl <;> simp

/-- Request `k` joins ream `q` and takes its credits. -/
def joinReam (k : Nat) (q : W32) (clu nlu : List (Nat × Nat)) (s : State) : State :=
  modReam q (fun r => { r with
    reqs := r.reqs ++ [k], cluCredit := addCredits r.cluCredit clu, nluCredit := addCredits r.nluCredit nlu }) s

theorem admitReq_eq (k : Nat) (sl : SlotId) (n : Nat) (clu nlu : List (Nat × Nat)) (s : State) :
    admitReq k sl n clu nlu s = journalReq k (traceAdmit 0 k sl (incCnt (cntAdm 0)
      (modReq k (fun r => { r with st := 4, ream := joinSeq s n sl, clu := clu, nlu := nlu })
        (bindReq k sl (joinReam k (joinSeq s n sl) clu nlu (withOpenReam n sl s)))))) := by
  obtain ⟨m, hm, hq⟩ := openReam_withOpenReam n sl s
  rw [← hq]
  show (match openReam (withOpenReam n sl s) n sl with
    | none => withOpenReam n sl s
    | some m => _) = _
  rw [hm]
  rfl

/-- A request that is admitted holds its slot, which counts it once. -/
theorem bindReq_spec {k : Nat} {sl : SlotId} {s : State} {r : Req} (hr : getReq s k = some r) (hb : r.bound = true → r.slot = sl) :
    let t := bindReq k sl s
    getReq t k = some { r with slot := sl, bound := true } ∧ (∀ j, j ≠ k → getReq t j = getReq s j) ∧
      getSlot t sl.val = { getSlot s sl.val with bound := (getSlot s sl.val).bound + b2n (!r.bound) } := by
  intro t
  have ht : t = if r.bound then s else setReq k { r with slot := sl, bound := true }
      (modSlot sl.val (fun x => { x with bound := x.bound + 1 }) s) := by simp only [t, bindReq, hr]
  rw [ht]
  cases hbound : r.bound
  · refine ⟨getReq_setReq _ _ _, fun j hj => getReq_setReq_ne _ _ _ hj, ?_⟩
    exact getSlot_setSlot _ _ sl
  · refine ⟨?_, fun _ _ => rfl, rfl⟩
    rw [if_pos rfl, hr, ← hb hbound, ← hbound]

/-- The request as its ream takes it, before it is counted, traced and journalled. -/
def takenIn (k : Nat) (sl : SlotId) (n : Nat) (clu nlu : List (Nat × Nat)) (s : State) : State :=
  modReq k (fun r => { r with st := 4, ream := joinSeq s n sl, clu := clu, nlu := nlu })
    (bindReq k sl (joinReam k (joinSeq s n sl) clu nlu (withOpenReam n sl s)))

/-- Counting, tracing and journalling an admitted request. -/
theorem admitReq_takenIn (k : Nat) (sl : SlotId) (n : Nat) (clu nlu : List (Nat × Nat)) (s : State) :
    proj 2720006400 (admitReq k sl n clu nlu s) = proj 2720006400 (takenIn k sl n clu nlu s) ∧
      admCounts (some 0) (takenIn k sl n clu nlu s) (admitReq k sl n clu nlu s) := by
  rw [admitReq_eq]
  show proj _ (journalReq k (traceAdmit 0 k sl (incCnt (cntAdm 0) (takenIn k sl n clu nlu s)))) = _ ∧ admCounts _ _ (journalReq k
    (traceAdmit 0 k sl (incCnt (cntAdm 0) (takenIn k sl n clu nlu s))))
  refine ⟨(journalReq_frame (by decide) _ _).trans ((traceAdmit_frame (by decide) _ _ _ _).trans (incCnt_frame (by decide) _ _)), ?_⟩
  exact admCounts_trans (admCounts_incCnt _ (by decide))
    (admCountsKeep_trans (admCountsKeep_emitTrace _ _ _ _ _ _) (admCountsKeep_journalReq _ _)) (by simp)

/-- Joining a ream touches the reams alone, and one of the sequence number holds the request. -/
theorem mem_joinReam {k : Nat} {q : W32} (clu nlu : List (Nat × Nat)) {s : State} {m : Ream} (h : m ∈ s.reams) (hq : m.seq = q) :
    ∃ m' ∈ (joinReam k q clu nlu s).reams, m'.seq = q ∧ m'.window = m.window ∧ m'.slot = m.slot ∧ k ∈ m'.reqs :=
  ⟨{ m with reqs := m.reqs ++ [k], cluCredit := addCredits m.cluCredit clu, nluCredit := addCredits m.nluCredit nlu },
    List.mem_map.2 ⟨m, h, if_pos (by simp [hq])⟩, hq, rfl, rfl, by simp⟩

theorem takenIn_spec {k : Nat} {sl : SlotId} {s : State} {r : Req} (n : Nat) (clu nlu : List (Nat × Nat)) (hr : getReq s k = some r)
    (hb : r.bound = true → r.slot = sl) :
    let q := joinSeq s n sl
    let t := takenIn k sl n clu nlu s
    t = { s with slots := t.slots, reams := t.reams, rqt := t.rqt, adm := { s.adm with nextSeq := t.adm.nextSeq } } ∧
      getReq t k = some { r with st := 4, slot := sl, ream := q, bound := true, clu := clu, nlu := nlu } ∧
      (∀ j, j ≠ k → getReq t j = getReq s j) ∧ (∃ m ∈ t.reams, m.seq = q ∧ m.window = n ∧ m.slot = sl ∧ k ∈ m.reqs) ∧
      (openReam s n sl = none → t.adm.nextSeq = s.adm.nextSeq + 1) ∧
      getSlot t sl.val = { getSlot s sl.val with bound := (getSlot s sl.val).bound + b2n (!r.bound) } := by
  intro q t
  obtain ⟨hparts, hseq⟩ := withOpenReam_parts n sl s
  obtain ⟨m, hm, hmq⟩ := openReam_withOpenReam n sl s
  obtain ⟨hmem, hmn, hms⟩ := openReam_some hm
  have hjoin : ∃ m ∈ (joinReam k q clu nlu (withOpenReam n sl s)).reams, m.seq = q ∧ m.window = n ∧ m.slot = sl ∧ k ∈ m.reqs := by
    obtain ⟨m', hm', hq, hn, hs, hk⟩ := mem_joinReam (k := k) clu nlu hmem hmq
    exact ⟨m', hm', hq, hn.trans hmn, hs.trans hms, hk⟩
  have hpre : joinReam k q clu nlu (withOpenReam n sl s) = { s with
      reams := (joinReam k q clu nlu (withOpenReam n sl s)).reams
      adm := { s.adm with nextSeq := (withOpenReam n sl s).adm.nextSeq } } := by
    conv_lhs => rw [joinReam, modReam, hparts]
    rfl
  have ht : t = modReq k (fun r => { r with st := 4, ream := q, clu := clu, nlu := nlu })
    (bindReq k sl (joinReam k q clu nlu (withOpenReam n sl s))) := rfl
  generalize (withOpenReam n sl s).adm.nextSeq = ns at *
  generalize joinReam k q clu nlu (withOpenReam n sl s) = v at *
  have hreq (j : Nat) : getReq v j = getReq s j := by rw [hpre]; rfl
  have hslotv : getSlot v sl.val = getSlot s sl.val := by rw [hpre]; rfl
  obtain ⟨hself, hothers, hslot⟩ := bindReq_spec ((hreq k).trans hr) hb
  have hbind := eq_withParts (bindReq_frame (m0 := 8389632) (by decide) k sl v)
  rw [hslotv] at hslot
  generalize bindReq k sl v = w at *
  rw [ht, modReq_eq _ hself]
  clear ht
  have hreams : w.reams = v.reams := by rw [hbind]; rfl
  have hadm : w.adm = { s.adm with nextSeq := ns } := by rw [hbind, hpre]; rfl
  have hw : w = { s with slots := w.slots, reams := w.reams, rqt := w.rqt, adm := w.adm } := by
    conv_lhs => rw [hbind, hpre]
    rw [hreams, hadm]
    rfl
  refine ⟨?_, getReq_setReq _ _ _, fun j hj => (getReq_setReq_ne _ _ _ hj).trans ((hothers j hj).trans (hreq j)), ?_, ?_, hslot⟩
  · show setReq k _ w = { s with slots := w.slots, reams := w.reams, rqt := _, adm := { s.adm with nextSeq := w.adm.nextSeq } }
    conv_lhs => rw [setReq, hw]
    rw [hadm]
    rfl
  · show ∃ m ∈ w.reams, _
    rw [hreams]
    exact hjoin
  · intro ho
    show w.adm.nextSeq = _
    rw [hadm]
    exact hseq ho

/-! ### Carrying (R304) -/

theorem carryReq_eq {k : Nat} {s : State} {r : Req} (hr : getReq s k = some r) (hc : r.carries < regF s 0x840000 0 3 0) :
    carryReq k s = traceAdmit 2 k 0 (incCnt (cntAdm 2)
      { setReq k { r with st := 3, carries := r.carries + 1, clu := [], nlu := [] } s with
        adm := { s.adm with carried := s.adm.carried.filter (· != k) ++ [k] } }) := by
  simp only [carryReq, hr, Nat.not_le.2 hc, if_false, modReq_eq _ hr]
  rfl

theorem carryReq_spec {k : Nat} {s : State} {r : Req} (hr : getReq s k = some r) (hc : r.carries < regF s 0x840000 0 3 0) :
    let t := carryReq k s
    admCounts (some 2) s t ∧ t.adm = { s.adm with carried := s.adm.carried.filter (· != k) ++ [k] } ∧ t.reams = s.reams ∧ t.slots = s.slots ∧
      getReq t k = some { r with st := 3, carries := r.carries + 1, clu := [], nlu := [] } ∧ (∀ j, j ≠ k → getReq t j = getReq s j) := by
  intro t
  have ht : t = _ := carryReq_eq hr hc
  clear_value t
  subst ht
  have hframe (v : State) := traceAdmit_frame (m0 := 2684354816) (by decide) 2 k 0 v
  refine ⟨?_, (adm_of_proj (hframe _)).trans rfl, (reams_of_proj (hframe _)).trans rfl, (slots_of_proj (hframe _)).trans rfl, ?_, fun j hj => ?_⟩
  · exact admCounts_trans (t := incCnt (cntAdm 2) _) (admCounts_incCnt _ (by decide)) (admCountsKeep_emitTrace _ _ _ _ _ _) (by simp)
  · exact (getReq_of_rqt (rqt_of_proj (hframe _)) k).trans (getReq_setReq _ _ _)
  · exact (getReq_of_rqt (rqt_of_proj (hframe _)) j).trans (getReq_setReq_ne _ _ _ hj)

/-! ### ADMISSION_OFFER -/

/-- ADMISSION_OFFER is due for request `k`, the oldest offer, in a window that is not over. -/
structure OfferDue (s : State) (k : Nat) (r : Req) : Prop where
  owed : edgeOwed s = false
  same : reamWindow s = 0 ∨ windowOf s (nowNs s) = s.adm.window
  first : ∃ rest, s.adm.offers = k :: rest
  req : getReq s k = some r

/-- What ADMISSION_OFFER and REAM_SEAL may change. -/
def admissionParts (s t : State) : State :=
  { s with
    cores := t.cores, clusters := t.clusters, dies := t.dies, canopy := t.canopy, trace := t.trace
    slots := t.slots, host := { t.host with sem := s.host.sem }, reams := t.reams, net := t.net
    rqt := t.rqt, adm := t.adm, grp := t.grp, regs := t.regs, counters := t.counters, fresh := t.fresh }

theorem OfferDue.exec {s : State} {k : Nat} {r : Req} (h : OfferDue s k r) :
    exec .admissionOffer s = .next (decideReq k (nowNs s) false s) := by
  obtain ⟨rest, ho⟩ := h.first
  exact exec_admissionOffer h.owed h.same ho

theorem OfferDue.parts {s t : State} {k : Nat} {r : Req} (h : OfferDue s k r) (ht : decideReq k (nowNs s) false s = t) :
    Machine.exec .admissionOffer s = .next t ∧ t = admissionParts s t := by
  subst ht
  exact ⟨h.exec, eq_withParts (execAdmissionOffer_frame (m0 := 3014919484) (by decide) s _ h.exec)⟩

/-- Request `k` is answered with a status where its port is up and its answer finds cells, and it came as a frame. -/
def offerAnswered (s : State) (k : Nat) (r : Req) (status : Nat) (c : Option Nat) : Prop :=
  r.infer = none → portUp s r.port.val = true →
    hasCells s (laneDie r.port.val) (reqFrame s r status 0 [] []).length true = true →
    ∃ t i, exec .admissionOffer s = .next t ∧ t = admissionParts s t ∧ requestAnswered i k r status c s t

theorem OfferDue.answered {s v : State} {k status : Nat} {r : Req} {c : Option Nat} (h : OfferDue s k r)
    (hd : decideReq k (nowNs s) false s = answerReq k status v) (hv : leftAdmission k s v) (hcnt : admCounts c s v) (hc8 : ∀ n ∈ c, n < 8) :
    offerAnswered s k r status c := by
  intro hi hp hcells
  obtain ⟨he, hparts⟩ := h.parts hd
  obtain ⟨i, hans⟩ := answerReq_answered hv hcnt hc8 h.req hi hp hcells
  exact ⟨_, i, he, hparts, hans⟩

theorem leftAdmission_self (k : Nat) (s : State) : leftAdmission k s (leaveAdmission k s) := rfl

/-- Leaving admission counts nothing. -/
theorem admCounts_leave {c : Option Nat} {k : Nat} {s v : State} (h : admCounts c (leaveAdmission k s) v) : admCounts c s v := h

theorem OfferDue.shed {s : State} {k : Nat} {r : Req} (h : OfferDue s k r) (hs : reqSlot s r = none ∨ shedding s = true) :
    offerAnswered s k r stShed none := by
  obtain ⟨sl, hd⟩ := decideReq_shed (a := nowNs s) (again := false) h.req hs
  exact h.answered hd (leftAdmission_traceAdmit _ _ _ (leftAdmission_self k s))
    (admCounts_leave (admCounts_none (admCountsKeep_emitTrace _ _ _ _ _ _))) (by simp)

theorem OfferDue.noService {s : State} {k : Nat} {r : Req} {sl : SlotId} (h : OfferDue s k r) (hb : reqSlot s r = some sl)
    (hs : shedding s = false) (hv : svcOf s sl r.service = none) : offerAnswered s k r stFormat (some 6) :=
  h.answered (decideReq_noService h.req hb hs hv) (leftAdmission_incCnt _ (leftAdmission_self k s))
    (admCounts_leave (admCounts_incCnt _ (by decide))) (by simp)

/-- The oldest offer is a request of a service of its slot's image, and admission does not shed. -/
structure OfferServed (s : State) (k : Nat) (r : Req) (sl : SlotId) (im : Image) (svc : Service) : Prop extends OfferDue s k r where
  slot : reqSlot s r = some sl
  admits : shedding s = false
  image : slotImage s sl = some im
  service : svcOf s sl r.service = some svc

/-- The prediction: the request completes before its deadline in the ream that it would join. -/
def predicted (s : State) (r : Req) (sl : SlotId) (im : Image) (svc : Service) : Bool :=
  completesBy s sl im svc (joinSeq s (windowOf s (nowNs s)) sl) (nowNs s) (launchAt s (windowOf s (nowNs s))) r.deadline

section
variable {s : State} {k : Nat} {r : Req} {sl : SlotId} {im : Image} {svc : Service}

theorem OfferServed.decided (h : OfferServed s k r sl im svc) : decideReq k (nowNs s) false s =
    if bodyFits svc r.body = false then answerReq k stFormat (incCnt (cntAdm 6) (leaveAdmission k s))
    else if predicted s r sl im svc = false then answerReq k stShed (traceAdmit 1 k sl (incCnt (cntAdm 1) (leaveAdmission k s)))
    else if hasCredits s (cluNeed svc) (nluNeed s im svc r.body) = true then
      admitReq k sl (windowOf s (nowNs s)) (cluNeed svc) (nluNeed s im svc r.body) (leaveAdmission k s)
    else carryReq k (leaveAdmission k s) :=
  decideReq_service h.req h.slot h.admits h.image h.service

theorem OfferServed.badBody (h : OfferServed s k r sl im svc) (hbody : bodyFits svc r.body = false) :
    offerAnswered s k r stFormat (some 6) := by
  have hd := h.decided
  rw [if_pos hbody] at hd
  exact h.answered hd (leftAdmission_incCnt _ (leftAdmission_self k s)) (admCounts_leave (admCounts_incCnt _ (by decide))) (by simp)

theorem OfferServed.late (h : OfferServed s k r sl im svc) (hbody : bodyFits svc r.body = true) (hlate : predicted s r sl im svc = false) :
    offerAnswered s k r stShed (some 1) := by
  have hd := h.decided
  rw [if_neg (by simp [hbody]), if_pos hlate] at hd
  exact h.answered hd (leftAdmission_traceAdmit _ _ _ (leftAdmission_incCnt _ (leftAdmission_self k s)))
    (admCounts_leave (admCounts_trans (admCounts_incCnt _ (by decide)) (admCountsKeep_emitTrace _ _ _ _ _ _) (by simp))) (by simp)

theorem OfferServed.admitted (h : OfferServed s k r sl im svc) (hbody : bodyFits svc r.body = true) (htime : predicted s r sl im svc = true)
    (hcred : hasCredits s (cluNeed svc) (nluNeed s im svc r.body) = true) :
    let n := windowOf s (nowNs s)
    let q := joinSeq s n sl
    ∃ t, exec .admissionOffer s = .next t ∧ t = admissionParts s t ∧ counted (cntAdm 0) 1 s t ∧ k ∉ t.adm.offers ∧
      getReq t k = some { r with
        st := 4, slot := sl, ream := q, bound := true, clu := cluNeed svc, nlu := nluNeed s im svc r.body } ∧
      (∀ j, j ≠ k → getReq t j = getReq s j) ∧ (∃ m ∈ t.reams, m.seq = q ∧ m.window = n ∧ m.slot = sl ∧ k ∈ m.reqs) ∧
      (openReam s n sl = none → t.adm.nextSeq = s.adm.nextSeq + 1) ∧
      getSlot t sl.val = { getSlot s sl.val with bound := (getSlot s sl.val).bound + b2n (!r.bound) } := by
  intro n q
  have hd := h.decided
  rw [if_neg (by simp [hbody]), if_neg (by simp [htime]), if_pos hcred] at hd
  have hslot : r.bound = true → r.slot = sl := fun hbd => by simpa [reqSlot, hbd] using h.slot
  obtain ⟨hparts, hself, hothers, hream, hnew, hcount⟩ :=
    takenIn_spec (s := leaveAdmission k s) n (cluNeed svc) (nluNeed s im svc r.body) h.req hslot
  obtain ⟨hproj, hcnt⟩ := admitReq_takenIn k sl n (cluNeed svc) (nluNeed s im svc r.body) (leaveAdmission k s)
  obtain ⟨he, hall⟩ := h.parts hd
  generalize admitReq k sl n (cluNeed svc) (nluNeed s im svc r.body) (leaveAdmission k s) = t at *
  generalize takenIn k sl n (cluNeed svc) (nluNeed s im svc r.body) (leaveAdmission k s) = u at *
  have hadm := adm_of_proj hproj
  have hreq := getReq_of_rqt (rqt_of_proj hproj)
  have hcounters : u.counters = s.counters := by rw [hparts]; rfl
  refine ⟨t, he, hall, ?_, ?_, (hreq k).trans hself, fun j hj => (hreq j).trans (hothers j hj), ?_, fun ho => ?_, ?_⟩
  · rw [counted, (hcnt 0).1 rfl, cntGet_of_counters hcounters]
  · rw [hadm, hparts]
    simp [leaveAdmission]
  · rw [reams_of_proj hproj]
    exact hream
  · rw [hadm]
    exact hnew ho
  · rw [getSlot, slots_of_proj hproj]
    exact hcount

theorem OfferServed.carried (h : OfferServed s k r sl im svc) (hbody : bodyFits svc r.body = true) (htime : predicted s r sl im svc = true)
    (hcred : hasCredits s (cluNeed svc) (nluNeed s im svc r.body) = false) (hc : r.carries < regF s 0x840000 0 3 0) :
    ∃ t, exec .admissionOffer s = .next t ∧ t = admissionParts s t ∧ counted (cntAdm 2) 1 s t ∧
      k ∉ t.adm.offers ∧ t.adm.carried = s.adm.carried.filter (· != k) ++ [k] ∧ t.reams = s.reams ∧ t.slots = s.slots ∧
      getReq t k = some { r with st := 3, carries := r.carries + 1, clu := [], nlu := [] } ∧
      (∀ j, j ≠ k → getReq t j = getReq s j) := by
  have hd := h.decided
  rw [if_neg (by simp [hbody]), if_neg (by simp [htime]), if_neg (by simp [hcred])] at hd
  obtain ⟨hcnt, hadm, hreams, hslots, hself, hothers⟩ := carryReq_spec (s := leaveAdmission k s) h.req hc
  obtain ⟨he, hall⟩ := h.parts hd
  generalize carryReq k (leaveAdmission k s) = t at *
  refine ⟨t, he, hall, (hcnt 2).1 rfl, ?_, ?_, hreams, hslots, hself, hothers⟩
  · simp [hadm, leaveAdmission]
  · simp [hadm, leaveAdmission]
end

/-! ### What the end of a window keeps -/

/-- A ream stems from one of a list: it has its number, window and share, and stays sealed. -/
def stemsFrom (ms : List Ream) (m' : Ream) : Prop :=
  ∃ m ∈ ms, m'.seq = m.seq ∧ m'.window = m.window ∧ m'.share = m.share ∧ (m.sealed_ = true → m'.sealed_ = true)

/-- What sealing and deciding leave: the configuration, the window and its maps; offers only leave, and a ream that is new is of
window `n` or a later one. -/
structure WindowKeeps (n : Nat) (s t : State) : Prop where
  cfg : t.host.cfg = s.host.cfg
  offers : t.adm.offers.Sublist s.adm.offers
  window : t.adm.window = s.adm.window
  coreMap : t.adm.coreMap = s.adm.coreMap
  clusterMap : t.adm.clusterMap = s.adm.clusterMap
  reams : ∀ m ∈ t.reams, stemsFrom s.reams m ∨ n ≤ m.window

theorem stemsFrom_of_mem {ms : List Ream} {m : Ream} (h : m ∈ ms) : stemsFrom ms m := ⟨m, h, rfl, rfl, rfl, id⟩

namespace WindowKeeps
variable {n : Nat} {s t u : State}

theorem of_parts (hcfg : t.host.cfg = s.host.cfg) (hadm : t.adm = s.adm) (hreams : t.reams = s.reams) : WindowKeeps n s t :=
  ⟨hcfg, by rw [hadm], by rw [hadm], by rw [hadm], by rw [hadm], fun m hm => .inl (stemsFrom_of_mem (hreams ▸ hm))⟩

theorem refl (n : Nat) (s : State) : WindowKeeps n s s := of_parts rfl rfl rfl

/-- A frame that leaves the host interface, the admission unit and the reams. -/
theorem of_proj {K : Nat} (e : proj K t = proj K s) (h18 : K.testBit 18 = false := by decide) (h33 : K.testBit 33 = false := by decide)
    (h24 : K.testBit 24 = false := by decide) (h20 : K.testBit 20 = false := by decide) : WindowKeeps n s t :=
  of_parts (by rw [host_of_proj e h18 h33]) (adm_of_proj e h24) (reams_of_proj e h20)

theorem trans (h : WindowKeeps n s t) (h' : WindowKeeps n t u) : WindowKeeps n s u := by
  refine ⟨h'.cfg.trans h.cfg, h'.offers.trans h.offers, h'.window.trans h.window, h'.coreMap.trans h.coreMap,
    h'.clusterMap.trans h.clusterMap, fun m hm => ?_⟩
  rcases h'.reams m hm with ⟨x, hx, hseq, hwin, hshare, hseal⟩ | hn
  · rcases h.reams x hx with ⟨y, hy, hseq', hwin', hshare', hseal'⟩ | hn
    · exact .inl ⟨y, hy, hseq.trans hseq', hwin.trans hwin', hshare.trans hshare', fun hs => hseal (hseal' hs)⟩
    · exact .inr (by omega)
  · exact .inr hn

theorem foldl {α : Type} (l : List α) (f : State → α → State) (h : ∀ s a, WindowKeeps n s (f s a)) (s : State) :
    WindowKeeps n s (l.foldl f s) :=
  l.foldlRecOn f (motive := WindowKeeps n s) (refl n s) (fun _ ht a _ => ht.trans (h _ a))

theorem of_carried (n : Nat) (s : State) (l : List Nat) : WindowKeeps n s { s with adm := { s.adm with carried := l } } :=
  ⟨rfl, .refl _, rfl, rfl, rfl, fun _ hm => .inl (stemsFrom_of_mem hm)⟩

/-- Reams that leave the list. -/
theorem of_filter (n : Nat) (s : State) (p : Ream → Bool) : WindowKeeps n s { s with reams := s.reams.filter p } :=
  ⟨rfl, .refl _, rfl, rfl, rfl, fun _ hm => .inl (stemsFrom_of_mem (List.mem_filter.1 hm).1)⟩

/-- A change of reams that keeps their numbers, windows and shares, and unseals none. -/
theorem of_map (n : Nat) (s : State) (f : Ream → Ream)
    (hf : ∀ m, (f m).seq = m.seq ∧ (f m).window = m.window ∧ (f m).share = m.share ∧ (m.sealed_ = true → (f m).sealed_ = true)) :
    WindowKeeps n s { s with reams := s.reams.map f } := by
  refine ⟨rfl, .refl _, rfl, rfl, rfl, fun m hm => ?_⟩
  obtain ⟨x, hx, rfl⟩ := List.mem_map.1 hm
  exact .inl ⟨x, hx, hf x⟩

end WindowKeeps

section
variable {n : Nat}

theorem windowKeeps_modReam (q : W32) (f : Ream → Ream) (s : State)
    (hf : ∀ m, (f m).seq = m.seq ∧ (f m).window = m.window ∧ (f m).share = m.share ∧ (m.sealed_ = true → (f m).sealed_ = true)) :
    WindowKeeps n s (modReam q f s) := by
  refine .of_map n s (fun r => if r.seq == q then f r else r) (fun m => ?_)
  split
  · exact hf m
  · exact ⟨rfl, rfl, rfl, id⟩

/-! ### Requests that end or are carried -/

theorem windowKeeps_leaveAdmission (k : Nat) (s : State) : WindowKeeps n s (leaveAdmission k s) :=
  ⟨rfl, List.filter_sublist, rfl, rfl, rfl, fun _ hm => .inl (stemsFrom_of_mem hm)⟩

theorem windowKeeps_modReq (k : Nat) (f : Req → Req) (s : State) : WindowKeeps n s (modReq k f s) :=
  .of_proj (modReq_frame (m0 := 8388608) (by decide) k f s)

theorem windowKeeps_incCnt (i : Nat) (s : State) : WindowKeeps n s (incCnt i s) := .of_parts rfl rfl rfl

theorem windowKeeps_traceAdmit (outcome k : Nat) (sl : SlotId) (s : State) : WindowKeeps n s (traceAdmit outcome k sl s) :=
  .of_proj (traceAdmit_frame (m0 := 2684354816) (by decide) outcome k sl s)

theorem windowKeeps_traceResponse (k status : Nat) (s : State) : WindowKeeps n s (traceResponse k status s) :=
  .of_proj (traceResponse_frame (m0 := 2684354816) (by decide) k status s)

/-- An entry that is freed leaves the tracker, admission and its ream. -/
theorem windowKeeps_freeEntry (k : Nat) (s : State) : WindowKeeps n s (freeEntry k s) := by
  have hrest (u : State) : WindowKeeps n u (releaseHandle k { leaveAdmission k u with
      rqt := mapDel k u.rqt, reams := u.reams.map (fun m => { m with reqs := m.reqs.filter (· != k) }) }) := by
    refine (windowKeeps_leaveAdmission k u).trans (.trans (t := { leaveAdmission k u with
      rqt := mapDel k u.rqt, reams := u.reams.map (fun m => { m with reqs := m.reqs.filter (· != k) }) }) ?_
      (.of_proj (releaseHandle_frame (m0 := 572522496) (by decide) k _)))
    obtain ⟨h1, h2, h3, h4, h5, h6⟩ := WindowKeeps.of_map n (leaveAdmission k u)
      (fun m => { m with reqs := m.reqs.filter (· != k) }) (fun _ => ⟨rfl, rfl, rfl, id⟩)
    exact ⟨h1, h2, h3, h4, h5, h6⟩
  have hdrop (o : Option Nat) (u : State) : WindowKeeps n u (match o with | some i => dropFrame i u | none => u) := by
    cases o with
    | none => exact .refl n u
    | some i => exact .of_proj (dropFrame_frame (m0 := 2097152) (by decide) i u)
  have hbound (b : Bool) (i : Nat) (f : Slot → Slot) (u : State) : WindowKeeps n u (if b then modSlot i f u else u) := by
    cases b
    · exact .refl n u
    · exact .of_parts rfl rfl rfl
  unfold freeEntry
  split
  · exact .refl n s
  · rename_i r _
    exact (hdrop r.frame s).trans ((hbound _ _ _ _).trans (hrest _))

theorem cqSignal_cfg (p : HPort) (i : Nat) (s : State) : (cqSignal p i s).host.cfg = s.host.cfg := by
  unfold cqSignal
  extract_lets cfg q v
  split
  · rfl
  · split <;> rfl

theorem completeRaw_cfg (p : HPort) (ring tag : Nat) (quiet : Bool) (prot status result : Nat) (s : State) :
    (completeRaw p ring tag quiet prot status result s).host.cfg = s.host.cfg := by
  unfold completeRaw
  extract_lets
  split
  · rfl
  · exact (cqSignal_cfg _ _ _).trans rfl

/-- A completion leaves the configuration. -/
theorem complete_cfg (d : Desc) (status result : Nat) (s : State) : (complete d status result s).host.cfg = s.host.cfg := by
  have hdrop : (dropLaunch d.due d.entries s).host.cfg = s.host.cfg := by
    unfold dropLaunch
    split <;> rfl
  unfold complete
  extract_lets u
  split
  · exact hdrop
  · exact (completeRaw_cfg _ _ _ _ _ _ _ _).trans hdrop

theorem descWrite_cfg (d : Desc) (a : Nat) (bs : Bytes) (s : State) : (descWrite d a bs s).host.cfg = s.host.cfg := by
  unfold descWrite
  split <;> rfl

theorem windowKeeps_inferAnswer (r : Req) (d : Desc) (status gen : Nat) (hash body : Bytes) (s : State) :
    WindowKeeps n s (inferAnswer r d status gen hash body s).2 := by
  have hframe := inferAnswer_frame (m0 := 268697600) (by decide) r d status gen hash body s
  refine .of_parts ?_ (adm_of_proj hframe) (reams_of_proj hframe)
  unfold inferAnswer
  extract_lets fits
  split
  extract_lets bs u
  refine (complete_cfg _ _ _ _).trans ?_
  show (if fits [] = true then descWrite d (dNum d 40 8) bs s else s).host.cfg = _
  split
  · exact descWrite_cfg _ _ _ _
  · rfl

theorem windowKeeps_inferEnd (k : Nat) (r : Req) (d : Desc) (status gen : Nat) (hash body : Bytes) (s : State) :
    WindowKeeps n s (inferEnd k r d status gen hash body s) := by
  have hans := windowKeeps_inferAnswer (n := n) r d status gen hash body s
  unfold inferEnd
  split
  rename_i st v hv
  rw [hv] at hans
  refine hans.trans (.trans ?_ ((windowKeeps_traceResponse _ _ _).trans (windowKeeps_freeEntry _ _)))
  split
  · exact windowKeeps_incCnt _ _
  · exact .refl n v

theorem windowKeeps_enqueue (g q : Nat) (it : QItem) (answer : Bool) (s : State) : WindowKeeps n s (enqueue g q it answer s).2 :=
  .of_proj (enqueue_frame (m0 := 538968064) (by decide) g q it answer s)

theorem windowKeeps_responseQueued (k : Nat) (r : Req) (f : Bytes) (s : State) : WindowKeeps n s (responseQueued k r f s) :=
  .trans (t := (putFrame (laneDie r.port.val) f f.length none s).2) (.of_parts rfl rfl rfl)
    ((windowKeeps_enqueue _ _ _ _ _).trans (windowKeeps_modReq _ _ _))

theorem windowKeeps_queueResponse (k : Nat) (r : Req) (f : Bytes) (s : State) : WindowKeeps n s (queueResponse k r f s).2 := by
  by_cases hp : portUp s r.port.val = true
  · by_cases hc : hasCells s (laneDie r.port.val) f.length true = true
    · rw [queueResponse_of_cells hp hc]
      exact windowKeeps_responseQueued k r f s
    · simp only [queueResponse, hp, hc, Bool.not_true, Bool.false_eq_true, if_false]
      exact .refl n s
  · simp only [queueResponse, hp, Bool.not_false, if_true]
    exact (windowKeeps_incCnt _ s).trans (windowKeeps_freeEntry k _)

theorem windowKeeps_answerReq (k status : Nat) (s : State) : WindowKeeps n s (answerReq k status s) := by
  unfold answerReq
  split
  · exact .refl n s
  · refine (windowKeeps_leaveAdmission k s).trans ?_
    extract_lets u
    split
    · exact windowKeeps_inferEnd _ _ _ _ _ _ _ _
    · have hq := windowKeeps_queueResponse (n := n) k ‹Req› (reqFrame u ‹Req› status 0 [] []) u
      split
      · rename_i hv
        rw [hv] at hq
        exact hq.trans (windowKeeps_traceResponse _ _ _)
      · rename_i hv
        rw [hv] at hq
        exact hq.trans ((windowKeeps_incCnt _ _).trans (windowKeeps_freeEntry _ _))

theorem windowKeeps_carryReq (k : Nat) (s : State) : WindowKeeps n s (carryReq k s) := by
  unfold carryReq
  split
  · exact .refl n s
  · split
    · exact (windowKeeps_incCnt _ s).trans ((windowKeeps_traceAdmit _ _ _ _).trans (windowKeeps_answerReq _ _ _))
    · extract_lets v
      have hv : WindowKeeps n s v := windowKeeps_modReq _ _ _
      exact hv.trans ((WindowKeeps.of_carried n v _).trans ((windowKeeps_incCnt _ _).trans (windowKeeps_traceAdmit _ _ _ _)))

theorem windowKeeps_leaveReam (k : Nat) (s : State) : WindowKeeps n s (leaveReam k s) := by
  unfold leaveReam
  split
  · exact .refl n s
  · refine .trans (windowKeeps_modReam _ _ s ?_) (windowKeeps_carryReq k _)
    exact fun _ => ⟨rfl, rfl, rfl, id⟩

/-! ### Sealing -/

theorem allocLaunch_cfg {dies es : List Nat} {gtNs : Nat} {s t : State} (h : allocLaunch dies gtNs s = some (es, t)) :
    t.host.cfg = s.host.cfg := by
  refine List.foldlRecOn (motive := fun acc => ∀ es t, acc = some (es, t) → t.host.cfg = s.host.cfg) dies _ ?_ ?_ es t h
  · intro es t h
    cases h
    rfl
  · intro acc hacc d _ es t h
    cases acc with
    | none => cases h
    | some p =>
      obtain ⟨es', u⟩ := p
      dsimp only at h
      split at h
      · cases h
      · cases h
        exact hacc es' u rfl

theorem windowKeeps_allocLaunch {dies es : List Nat} {gtNs : Nat} {s t : State} (h : allocLaunch dies gtNs s = some (es, t)) :
    WindowKeeps n s t := by
  have hframe := some_eq h (allocLaunch_frame (m0 := 262144) (by decide) dies gtNs s)
  exact .of_parts (allocLaunch_cfg h) (adm_of_proj hframe) (reams_of_proj hframe)

theorem windowKeeps_issueGather (r : Ream) (e : GatherEntry) (g : Nat) (s : State) : WindowKeeps n s (issueGather r e g s) := by
  unfold issueGather
  split
  split
  · exact .refl n s
  · extract_lets j put u v
    have hu : WindowKeeps n s u := .of_parts rfl rfl rfl
    have hv : WindowKeeps n u v := by
      show WindowKeeps n u (if j.pool then put (entryCmd e).bagLine.toNat _ u else u)
      split
      · exact .of_parts rfl rfl rfl
      · exact .refl n u
    refine (hu.trans hv).trans (windowKeeps_modReam _ _ v ?_)
    exact fun _ => ⟨rfl, rfl, rfl, id⟩

theorem windowKeeps_issueJobs (r : Ream) (im : Image) (shares : List Nat) (s : State) : WindowKeeps n s (issueJobs r im shares s) := by
  refine .trans (.of_proj (putInputs_frame (m0 := 8) (by decide) r im shares s)) (.foldl _ _ (fun s g => ?_) _)
  split
  · exact windowKeeps_issueGather _ _ _ _
  · exact .refl n s

/-- No ream of number `q` is open. -/
def closed (q : W32) (s : State) : Prop := ∀ m ∈ s.reams, m.seq = q → m.sealed_ = true

/-- Where nothing opens a ream of any window, what is sealed stays so. -/
theorem closed_of_keeps {q : W32} {s t : State} (h : ∀ n, WindowKeeps n s t) (hc : closed q s) : closed q t := by
  intro m' hm hq
  rcases (h (m'.window + 1)).reams m' hm with ⟨m, hm, hseq, -, -, hseal⟩ | hn
  · exact hseal (hc m hm (hseq ▸ hq))
  · omega

theorem closed_drop (q : W32) (s : State) : closed q { s with reams := s.reams.filter (fun m => m.seq != q) } := by
  intro m hm hq
  have := (List.mem_filter.1 hm).2
  simp [hq] at this

theorem closed_modReam (q : W32) {f : Ream → Ream} (hf : ∀ m, (f m).sealed_ = true) (s : State) : closed q (modReam q f s) := by
  intro m hm hq
  obtain ⟨y, -, rfl⟩ := List.mem_map.1 hm
  by_cases hy : y.seq = q
  · simp [hy, hf]
  · simp [hy] at hq

/-- What the device does for a ream that is sealed: its own shares' commands and contexts, and the shares of workers. -/
theorem windowKeeps_issue (r : Ream) (im : Image) (mine : List Nat) (cores : List CoreId) (shares : List (Nat × Nat)) (gen : State → Nat)
    (launch : Nat) (s : State) : (∀ n, WindowKeeps n s (shares.foldl (fun s x => if x.2 == 0 then s else sendShare x.2 r im x.1 (gen s) launch s)
      (cores.foldl (fun s l => markCtx r l s) (issueJobs r im mine s)))) := by
  intro n
  have hmark (u : State) : WindowKeeps n u (cores.foldl (fun s l => markCtx r l s) u) :=
    .foldl _ _ (fun s l => .of_proj (markCtx_frame (m0 := 4) (by decide) r l s)) u
  refine (windowKeeps_issueJobs r im mine s).trans ((hmark _).trans (.foldl _ _ (fun s y => ?_) _))
  split
  · exact .refl n s
  · exact .of_proj (sendShare_frame (m0 := 580911104) (by decide) _ _ _ _ _ _ s)

/-- A ream that is sealed is open no more, and sealing opens none. -/
theorem sealReam_spec (q : W32) (s : State) : WindowKeeps n s (sealReam q s) ∧ closed q (sealReam q s) := by
  unfold sealReam
  split
  · rename_i h
    refine ⟨.refl n s, fun m hm hq => ?_⟩
    have := List.find?_eq_none.1 h m hm
    simp [hq] at this
  · rename_i r _
    extract_lets drop svcs
    have hdrop (u : State) : WindowKeeps n u (drop u) ∧ closed q (drop u) := ⟨.of_filter n u _, closed_drop q u⟩
    split
    · exact hdrop s
    · rename_i im hslot
      split
      · exact hdrop s
      · extract_lets shares mine cores
        split
        · have hleave : WindowKeeps n s (r.reqs.foldl (fun s k => leaveReam k s) s) := .foldl _ _ (fun s k => windowKeeps_leaveReam k s) s
          exact ⟨hleave.trans (hdrop _).1, (hdrop _).2⟩
        · rename_i es u halloc
          extract_lets rows v r'
          have hv : WindowKeeps n u v := windowKeeps_modReam _ _ u (fun _ => ⟨rfl, rfl, rfl, fun _ => rfl⟩)
          have hclosed : closed q v := closed_modReam q (by exact fun _ => rfl) u
          have htail := windowKeeps_issue r' im mine cores shares (fun s => tgenAt s r.slot r.launchNs) r.launchNs v
          exact ⟨(windowKeeps_allocLaunch halloc).trans (hv.trans (htail n)), closed_of_keeps htail hclosed⟩

/-- Sealing a list of reams leaves none of them open. -/
theorem sealReams_spec (qs : List W32) (s : State) : (∀ n, WindowKeeps n s (qs.foldl (fun s q => sealReam q s) s)) ∧
    ∀ q ∈ qs, closed q (qs.foldl (fun s q => sealReam q s) s) := by
  induction qs generalizing s with
  | nil => exact ⟨fun n => .refl n s, by simp⟩
  | cons q qs ih =>
    obtain ⟨hkeep, hclosed⟩ := ih (sealReam q s)
    refine ⟨fun n => (sealReam_spec q s).1.trans (hkeep n), fun p hp => ?_⟩
    rcases List.mem_cons.1 hp with rfl | hp
    · exact closed_of_keeps hkeep (sealReam_spec (n := 0) p s).2
    · exact hclosed p hp

/-- No open ream of the device is of a window before `n`. -/
def openFrom (n : Nat) (s : State) : Prop := ∀ m ∈ s.reams, m.share = none → m.sealed_ = true ∨ n ≤ m.window

theorem openFrom_of_keeps {s t : State} (h : WindowKeeps n s t) (ho : openFrom n s) : openFrom n t := by
  intro m' hm hshare
  rcases h.reams m' hm with ⟨m, hm, -, hwin, hsh, hseal⟩ | hn
  · rcases ho m hm (hsh ▸ hshare) with hs | hn
    · exact .inl (hseal hs)
    · exact .inr (by omega)
  · exact .inr hn

theorem sealWhere_past (n : Nat) (s : State) :
    (∀ k, WindowKeeps k s (sealWhere (fun r => decide (r.window < n)) s)) ∧ openFrom n (sealWhere (fun r => decide (r.window < n)) s) := by
  obtain ⟨hkeep, hclosed⟩ := sealReams_spec ((s.reams.filter (fun r => !r.sealed_ && r.share.isNone && decide (r.window < n))).map (·.seq)) s
  refine ⟨hkeep, fun m' hm' hshare => ?_⟩
  rcases (hkeep (m'.window + 1)).reams m' hm' with ⟨m, hm, hseq, hwin, hsh, hseal⟩ | hn
  · by_cases hopen : m.sealed_ = false ∧ m.window < n
    · refine .inl (hclosed m.seq (List.mem_map.2 ⟨m, List.mem_filter.2 ⟨hm, ?_⟩, rfl⟩) m' hm' hseq)
      simp [hopen.1, hopen.2, ← hsh, hshare]
    · by_cases hs : m.sealed_ = true
      · exact .inl (hseal hs)
      · exact .inr (by rw [hwin]; exact Nat.not_lt.1 fun hlt => hopen ⟨Bool.eq_false_iff.2 hs, hlt⟩)
  · omega
end

/-! ### The end of a window (R302, R304, R405) -/

theorem reamWindow_of_cfg {s t : State} (h : t.host.cfg = s.host.cfg) : reamWindow t = reamWindow s := by
  rw [reamWindow, cfgField, h]; rfl

/-- Past windows are sealed, and admission follows the maps from here on. -/
theorem sealPast_spec (s : State) :
    let n := windowOf s (nowNs s)
    (sealPast s).host.cfg = s.host.cfg ∧ (sealPast s).adm.offers.Sublist s.adm.offers ∧ (sealPast s).adm.window = n ∧
      (sealPast s).adm.coreMap = s.canopy.coreMap ∧ (sealPast s).adm.clusterMap = s.canopy.clusterMap ∧ openFrom n (sealPast s) := by
  intro n
  obtain ⟨hkeep, hopen⟩ := sealWhere_past n s
  have hmaps := canopy_of_proj (sealWhere_frame (m0 := 3014919452) (by decide) (fun r => decide (r.window < n)) s)
  refine ⟨(hkeep n).cfg, (hkeep n).offers, rfl, ?_, ?_, hopen⟩
  · rw [← hmaps]; rfl
  · rw [← hmaps]; rfl

theorem windowKeeps_withOpenReam (n : Nat) (sl : SlotId) (s : State) : WindowKeeps n s (withOpenReam n sl s) := by
  unfold withOpenReam
  split
  · exact .refl n s
  · refine ⟨rfl, .refl _, rfl, rfl, rfl, fun m hm => ?_⟩
    rcases List.mem_append.1 hm with hm | hm
    · exact .inl (stemsFrom_of_mem hm)
    · obtain rfl : m = openedReam s n sl := by simpa using hm
      exact .inr (le_refl n)

theorem windowKeeps_admitReq (k : Nat) (sl : SlotId) (n : Nat) (clu nlu : List (Nat × Nat)) (s : State) :
    WindowKeeps n s (admitReq k sl n clu nlu s) := by
  have hjoin (q : W32) (u : State) : WindowKeeps n u (joinReam k q clu nlu u) :=
    windowKeeps_modReam _ _ u (fun _ => ⟨rfl, rfl, rfl, id⟩)
  have hbind (u : State) : WindowKeeps n u (bindReq k sl u) := .of_proj (bindReq_frame (m0 := 8389632) (by decide) k sl u)
  have htaken : WindowKeeps n s (takenIn k sl n clu nlu s) :=
    (windowKeeps_withOpenReam n sl s).trans ((hjoin _ _).trans ((hbind _).trans (windowKeeps_modReq _ _ _)))
  exact htaken.trans (.of_proj (admitReq_takenIn k sl n clu nlu s).1)

/-- A decision opens a ream of its own window at most. -/
theorem windowKeeps_decideReq (k a : Nat) (again : Bool) (s : State) : WindowKeeps (windowOf s a) s (decideReq k a again s) := by
  have hleave := windowKeeps_leaveAdmission (n := windowOf s a) k s
  unfold decideReq
  extract_lets u
  have hu : WindowKeeps (windowOf s a) s u := hleave
  refine hu.trans ?_
  split
  · exact .refl _ _
  · split
    · exact (windowKeeps_traceAdmit _ _ _ _).trans (windowKeeps_answerReq _ _ _)
    · split
      · exact (windowKeeps_traceAdmit _ _ _ _).trans (windowKeeps_answerReq _ _ _)
      · split
        · extract_lets clu nlu
          split
          · exact (windowKeeps_incCnt _ _).trans (windowKeeps_answerReq _ _ _)
          · split
            · exact (windowKeeps_incCnt _ _).trans ((windowKeeps_traceAdmit _ _ _ _).trans (windowKeeps_answerReq _ _ _))
            · split
              · exact windowKeeps_admitReq _ _ _ _ _ _
              · exact windowKeeps_carryReq _ _
        · exact (windowKeeps_incCnt _ _).trans (windowKeeps_answerReq _ _ _)

theorem windowOf_windowStart {s : State} (h : reamWindow s ≠ 0) : windowOf s (s.adm.window * reamWindow s) = s.adm.window :=
  Nat.mul_div_cancel _ (Nat.pos_of_ne_zero h)

/-- Carried requests leave the list and are decided again, each with the start of the window as its stamp (R304). -/
theorem decideCarried_eq (s : State) : ∃ ps : List (Nat × Nat × Nat × Nat), decideCarried s =
    ps.foldl (fun t p => decideReq p.2.2.2 (t.adm.window * reamWindow t) true t) { s with adm := { s.adm with carried := [] } } :=
  ⟨_, rfl⟩

/-- Deciding carried requests opens reams of the admission unit's own window at most. -/
theorem windowKeeps_decideCarried {s : State} (h : reamWindow s ≠ 0) : WindowKeeps s.adm.window s (decideCarried s) := by
  obtain ⟨ps, hps⟩ := decideCarried_eq s
  rw [hps]
  refine ps.foldlRecOn _ (motive := WindowKeeps s.adm.window s) (.of_carried s.adm.window s []) (fun t ht p _ => ht.trans ?_)
  have hstart : windowOf t (t.adm.window * reamWindow t) = s.adm.window :=
    (windowOf_windowStart (by rw [reamWindow_of_cfg ht.cfg]; exact h)).trans ht.window
  exact hstart ▸ windowKeeps_decideReq p.2.2.2 (t.adm.window * reamWindow t) true t

theorem windowEnd_spec {s : State} (h : ¬ (reamWindow s = 0 ∨ windowOf s (nowNs s) = s.adm.window)) :
    (windowEnd s).adm.window = windowOf s (nowNs s) ∧ (windowEnd s).adm.offers.Sublist s.adm.offers ∧
      (windowEnd s).adm.coreMap = s.canopy.coreMap ∧ (windowEnd s).adm.clusterMap = s.canopy.clusterMap ∧
      openFrom (windowOf s (nowNs s)) (windowEnd s) := by
  obtain ⟨hcfg, hoffers, hwin, hcore, hcluster, hopen⟩ := sealPast_spec s
  have hpos : reamWindow (sealPast s) ≠ 0 := by
    rw [reamWindow_of_cfg hcfg]
    exact fun h0 => h (.inl h0)
  have hkeep := windowKeeps_decideCarried hpos
  rw [windowEnd, if_pos ((windowPassed_iff s).2 h)]
  rw [hwin] at hkeep
  exact ⟨hkeep.window.trans hwin, hkeep.offers.trans hoffers, hkeep.coreMap.trans hcore, hkeep.clusterMap.trans hcluster,
    openFrom_of_keeps hkeep hopen⟩

theorem reamSeal_spec {s : State} (h : edgeOwed s = false) : exec .reamSeal s = .next (windowEnd s) ∧ windowEnd s = admissionParts s (windowEnd s) :=
  ⟨exec_reamSeal h, eq_withParts (windowEnd_frame (m0 := 3014919484) (by decide) s)⟩

/-- Settles O35: the oldest offer by the branches of its decision, and the end of a window by what sealing and deciding keep. -/
theorem admission : Obligations.Admission := by
  intro s
  refine ⟨fun h => ⟨exec_admissionOffer_owed h, exec_reamSeal_owed h⟩, fun howed => ⟨?_, ?_⟩⟩
  · intro k rest r hsame hoffers hreq
    have hdue : OfferDue s k r := ⟨howed, hsame, ⟨rest, hoffers⟩, hreq⟩
    refine ⟨fun hs => hdue.shed hs, fun sl im hb hadmits himage => ⟨fun hv => hdue.noService hb hadmits hv, fun svc hv => ?_⟩⟩
    have hserved : OfferServed s k r sl im svc := { toOfferDue := hdue, slot := hb, admits := hadmits, image := himage, service := hv }
    exact ⟨fun hbody => hserved.badBody hbody, fun hbody hlate => hserved.late hbody hlate, fun hbody htime =>
      ⟨fun hcred => hserved.admitted hbody htime hcred, fun hcred hc => hserved.carried hbody htime hcred hc⟩⟩
  · obtain ⟨he, hparts⟩ := reamSeal_spec howed
    refine ⟨_, he, hparts, windowEnd_same, fun hpast => ?_⟩
    exact windowEnd_spec hpast

end Sys2Proof.Machine
end

section
/-! PROOFS. The state after reset, and the edge that judges a step of GT where a table number is listed twice. -/

namespace Sys2Proof.Machine

/-! ### The state after reset -/

theorem inv_reset : Inv State.reset := by
  refine ⟨by decide, fun _ h => ?_, by decide⟩
  cases h

/-- Settles O57: the state after reset lists nothing, so that every read finds its default. -/
theorem resetState : Obligations.ResetState := by
  refine ⟨rfl, rfl, rfl, inv_reset, rfl, rfl, rfl, rfl, fun _ _ => rfl, fun _ => rfl,
    fun k => readCells_nil 64 (64 * k), fun _ => rfl, fun _ => rfl, fun _ => rfl, fun sl => ?_⟩
  fin_cases sl <;> rfl

/-! ### The next edge judges a step anew, after the sweeps' visits have ended (R33, R256) -/

theorem advance_gt (s : State) : (advance s).gt = nextGt s := by
  unfold advance
  split <;> rfl

/-- The edge's GT is the one that the state with its visits ended gives. -/
theorem tick_gt {s : State} (h : s.boot.held = false) : (tick s).gt = nextGt (endVisits s) := by
  rw [tick, h, if_neg Bool.false_ne_true, gt_of_proj (evalHandover_frame (m0 := 3812464948) (by decide) _),
    gt_of_proj (commitCmds_frame (m0 := 2953576448) (by decide) _),
    gt_of_proj (edgeFreezes_frame (m0 := 1879054336) (by decide) _), advance_gt]

theorem step_nil {s : State} (h : s.pending = []) : step s = .next (tick s) := by
  rw [step, h]

/-- A table that nothing refers to, at address 0. -/
def bareTable : Tbl :=
  { desc := { table := 1, kind := 0, blog := 0, maxKick := 0, fmt := 0, gsize := 0, seed0 := 0, seed1 := 0, rowLen := 0
              bucketBase := 0, rowBase := 0, rowLimit := 0, default_ := 0, agePeriod := 0 }
    owners := [], gen := 0, pending := false, commitGt := 0, retiring := false, revisited := false, kick := 0, epoch := 0
    refs := [], occupied := 0, changed := [], queue := [], staging := none, stagedAt := 0, holds := [], swept := 0, visited := [] }

/-- A running device with a step to 100 ns that lists table 1 twice: once with a visit to end, once with a change that
waits for its launch edge. -/
def twiceListed : State :=
  { State.reset with
    boot := { BootState.reset with held := false }
    time := { TimeState.reset with stepTo := some 100 }
    tbl := { TableState.empty with
      tables := [(1, { bareTable with visited := [0] }),
                 (1, { bareTable with queue := [{ who := .group 0, recs := [], expect := 0, due := 1 }] })] } }

/-- The change that waits forbids the step. -/
theorem stepAllowed_twiceListed : stepAllowed twiceListed 100 false = false := by decide

/-- The end of the visit writes table 1, which drops its second listing with the change: the edge takes the step. -/
theorem step_twiceListed : ∃ t, step twiceListed = .next t ∧ t.gt = BitVec.ofNat 96 (nsT 100) := by
  have htarget : stepTarget (endVisits twiceListed) = some 100 := by decide
  refine ⟨_, step_nil rfl, ?_⟩
  rw [tick_gt rfl, nextGt, htarget]

/-- Refutes O56: where one table number is listed twice, the edge takes a step that the state before it does not allow, since
ending a visit drops the second listing. -/
theorem not_stepTakesFront : ¬ Obligations.StepTakesFront := by
  intro h
  obtain ⟨-, hedge⟩ := h twiceListed
  obtain ⟨-, hrun⟩ := hedge rfl
  obtain ⟨t, ht, -, -, -, hstep⟩ := hrun rfl
  obtain ⟨-, hrefused⟩ := hstep 100 rfl
  obtain ⟨hgt, -⟩ := hrefused stepAllowed_twiceListed
  obtain ⟨u, hu, hto⟩ := step_twiceListed
  obtain rfl : t = u := by rw [ht] at hu; exact Host.Outcome.next.inj hu
  exact absurd (hgt.symm.trans hto) (by decide)

/-- Refutes O37 at its clause on the next edge: where one table number is listed twice, the edge takes a step that may not be
taken while a change waits for its launch edge. -/
theorem not_groupTime : ¬ Obligations.GroupTime := by
  intro h
  obtain ⟨-, -, -, -, -, -, -, -, -, -, -, hedge, -⟩ := h twiceListed
  obtain ⟨t, ht, -, -, -, hstep⟩ := hedge rfl rfl
  obtain ⟨-, hrefused⟩ := hstep 100 rfl rfl
  obtain ⟨u, hu, hto⟩ := step_twiceListed
  obtain rfl : t = u := by rw [ht] at hu; exact Host.Outcome.next.inj hu
  obtain ⟨hgt, -⟩ := hrefused (by decide)
  exact absurd (hgt.symm.trans hto) (by decide)

end Sys2Proof.Machine
end

section
/-! PROOFS. A launch edge where one ream number is listed twice. -/

namespace Sys2Proof.Machine

/-- Ream 1 without requests, open, with a launch edge at a GT_NS. -/
def bareReam (launchNs : Nat) : Ream :=
  { seq := 1, slot := 0, window := 0, part := 0, launchNs := launchNs, sealed_ := false, launched := false, view := 0, reqs := [], rows := []
    jobs := [], cores := [], rebuild := [], started := [], occupied := [], cluCredit := [], nluCredit := [], entries := [], tgen := 0
    share := none, shares := [], abandoned := false }

/-- Ream 1 is listed twice: first open, with a launch entry for 100 ns, then sealed and due. -/
def twiceOpen : State :=
  { State.reset with
    host := { HostState.reset with launch := [(5, 100)] }
    reams := [{ bareReam 100 with entries := [5] }, { bareReam 0 with sealed_ := true }] }

theorem launchEdge_twiceOpen : ∃ t, exec .launchEdge twiceOpen = .next t ∧ t.host.launch = [] :=
  ⟨_, rfl, by decide⟩

/-- Refutes O36 at its clause on a single due ream: where a ream's number is listed twice, the launch takes the entries of the
first listing, whose own launch edge lies ahead, so that the launch tables change. -/
theorem not_launches : ¬ Obligations.Launches := by
  intro h
  obtain ⟨⟨t, ht, -, -, hdue⟩, -⟩ := h twiceOpen
  obtain ⟨hparts, -⟩ := hdue 1 { bareReam 100 with entries := [5] } rfl (by decide) (by decide) (by decide) (by decide) rfl
    (by decide) rfl rfl
  obtain ⟨u, hu, hfree⟩ := launchEdge_twiceOpen
  obtain rfl : t = u := by rw [ht] at hu; exact Host.Outcome.next.inj hu
  have hkept : t.host.launch = [(5, 100)] := by rw [hparts]; rfl
  exact absurd (hfree.symm.trans hkept) (by decide)

end Sys2Proof.Machine
end

section
/-! PROOFS. PROGRAM_START: the next logical core of a ream starts, and the first to start finds its tokens at 0. -/

namespace Sys2Proof.Machine

/-! ### Tokens (R108) -/

theorem mapGetD_dropTokens (j : CtxId) {k : Nat} (m : List (Nat × Nat)) (hk : k < 64) :
    mapGetD 0 (64 * j.val + k) (m.filter (fun t => t.1 / 64 != j.val)) = 0 := by
  rw [mapGetD, mapGet_filter_drop _ (fun n => n / 64 != j.val) m (by simp; omega)]
  rfl

/-- Some logical core of the ream runs on the unit of `size` cores that holds core `c`. -/
def startedNear (s : State) (r : Ream) (c : CoreId) (size : Nat) : Bool :=
  r.started.any (fun l => physCore s l / size == c.val / size)

/-- `s` with the tokens of a ream's context at 0 in a core's cluster. -/
def dropClusterTokens (r : Ream) (c : CoreId) (s : State) : State :=
  modCluster (clusterOf c) (fun k => { k with tokens := k.tokens.filter (fun t => t.1 / 64 != (ctxOf r.seq).val) }) s

/-- `s` with the tokens of a ream's context at 0 in a core's die. -/
def dropDieTokens (r : Ream) (c : CoreId) (s : State) : State :=
  modDie (dieOfCore c) (fun d => { d with tokens := d.tokens.filter (fun t => t.1 / 64 != (ctxOf r.seq).val) }) s

theorem clearTokens_eq (r : Ream) (c : CoreId) (s : State) : clearTokens r c s =
    let u := if startedNear s r c 8 then s else dropClusterTokens r c s
    if startedNear s r c 64 then u else dropDieTokens r c u := by
  unfold clearTokens
  cases h : r.started.any (fun l => physCore s l / 8 == c.val / 8) <;> simp only [startedNear, h] <;> rfl

/-- A cluster's token is 0 in the context that starts, but where a program of the ream has started in the cluster. -/
theorem tokenGet_clearTokens_cluster (r : Ream) (c : CoreId) (s : State) {k : Nat} (hk : k < 64) :
    tokenGet (clearTokens r c s) c (ctxOf r.seq) k = if startedNear s r c 8 then tokenGet s c (ctxOf r.seq) k else 0 := by
  have hdie (u : State) : getCluster (dropDieTokens r c u) (clusterOf c) = getCluster u (clusterOf c) := rfl
  simp only [tokenGet, hk, if_true, clearTokens_eq, apply_ite (fun u : State => getCluster u (clusterOf c)), hdie, ite_self]
  split
  · rfl
  · rw [dropClusterTokens, getCluster_modCluster]
    exact mapGetD_dropTokens _ _ hk

/-- A die's token is 0 in the context that starts, but where a program of the ream has started in the die. -/
theorem tokenGet_clearTokens_die (r : Ream) (c : CoreId) (s : State) {k : Nat} (hk : 64 ≤ k) (hk' : k < 128) :
    tokenGet (clearTokens r c s) c (ctxOf r.seq) k = if startedNear s r c 64 then tokenGet s c (ctxOf r.seq) k else 0 := by
  have hlt : ¬ k < 64 := by omega
  have hu : getDie (if startedNear s r c 8 then s else dropClusterTokens r c s) (dieOfCore c) = getDie s (dieOfCore c) := by
    split <;> rfl
  simp only [tokenGet, hlt, if_false, clearTokens_eq]
  split
  · rw [hu]
  · rw [dropDieTokens, getDie_modDie]
    exact mapGetD_dropTokens _ _ (by omega)

/-! ### The start -/

theorem reamOf_seq {s : State} {q : W32} {r : Ream} (h : reamOf s q = some r) : r.seq = q := by
  simpa using List.find?_some h

theorem reamOf_modReam {s : State} {q : W32} {r : Ream} {f : Ream → Ream} (hf : ∀ m, (f m).seq = m.seq) (h : reamOf s q = some r) :
    reamOf (modReam q f s) q = some (f r) := by
  have hq := reamOf_seq h
  have hkey : ((fun m : Ream => m.seq == q) ∘ fun m => if m.seq == q then f m else m) = fun m => m.seq == q := by
    funext m
    simp only [Function.comp]
    split
    · rw [hf]
    · rfl
  rw [reamOf, modReam, List.find?_map, hkey]
  show Option.map _ (reamOf s q) = _
  rw [h, Option.map_some, if_pos (by simpa using hq)]

/-- A core whose context begins the program of a ream. -/
def startCtx (s : State) (c : CoreId) (ctx : CtxId) (r : Ream) (ream : W32) (y : CoreState) : CoreState :=
  { setCtx ctx { getCtx (getCore s c) ctx with
      st := .running, ream := ream, slot := r.slot, done := 0, cslots := Vector.replicate 8 CSlot.cleared } y with
    lastRun := now s }

/-- The state with the program of logical core `l` begun on core `c`. -/
def startProg (c : CoreId) (ctx : CtxId) (r : Ream) (ream : W32) (l : CoreId) (s : State) : State :=
  modReam ream (fun m => { m with started := m.started ++ [l] }) (modCore c (startCtx s c ctx r ream) (clearTokens r c s))

theorem exec_programStart {c : CoreId} {ream : W32} {s : State} {r : Ream} {l : CoreId} (hr : reamOf s ream = some r)
    (hlaunched : r.launched = true) (hnext : nextProg s r c = some l) (hactive : coreActive s c.val = true)
    (hcore : domState s (domCore c.val) = 4) (hcluster : domState s (domCluster (c.val / 8)) = 4) (hpeers : peersFree s r c = true)
    (hfree : (getCtx (getCore s c) (ctxOf ream)).st = .idle ∨ (getCtx (getCore s c) (ctxOf ream)).st = .waitLaunch) :
    exec (.programStart c (ctxOf ream) ream) s = .next
      (if r.occupied.contains l then incCnt (cntCore c.val 0) (startProg c (ctxOf ream) r ream l s)
       else startProg c (ctxOf ream) r ream l s) := by
  show execProgramStart c (ctxOf ream) ream s = _
  have hidle : ((getCtx (getCore s c) (ctxOf ream)).st == .idle || (getCtx (getCore s c) (ctxOf ream)).st == .waitLaunch) = true := by
    simpa using hfree
  have hnow : now (clearTokens r c s) = now s := by rw [now, gt_of_proj (clearTokens_frame (m0 := 24) (by decide) r c s), now]
  simp only [execProgramStart, hr, hnext, hlaunched, hactive, hcore, hcluster, hpeers, hidle, hnow, bne_self_eq_false, beq_self_eq_true,
    Bool.not_true, Bool.and_self, Bool.or_self, Bool.false_eq_true, if_false]
  rfl

/-- A count of none or one. -/
theorem countedEach_b2n {k : Nat} (b : Bool) (s : State) (hk : k ≠ 19666 ∧ k ≠ 19667) :
    countedEach k (b2n b) s (if b then incCnt k s else s) := by
  cases b
  · rfl
  · exact cntGet_addCnt _ _ _ hk

/-- Settles O14: the tokens by `clearTokens`, the context by the write of one core, the ream by its one change. -/
theorem programStart : Obligations.ProgramStart := by
  intro c ctx ream s r l hr hctx hlaunched hnext hactive hcore hcluster hpeers hfree
  subst hctx
  obtain rfl : r.seq = ream := reamOf_seq hr
  have he := exec_programStart hr hlaunched hnext hactive hcore hcluster hpeers hfree
  have hclear := clearTokens_frame (m0 := 24) (by decide) r c s
  have hcores (d : CoreId) : getCore (clearTokens r c s) d = getCore s d := by
    rw [getCore, cores_of_proj hclear, getCore]
  have hream : reamOf (modCore c (startCtx s c (ctxOf r.seq) r r.seq) (clearTokens r c s)) r.seq = some r := by
    rw [reamOf, modCore_reams, reams_of_proj hclear]
    exact hr
  have hcounters : (startProg c (ctxOf r.seq) r r.seq l s).counters = s.counters :=
    show (clearTokens r c s).counters = s.counters from counters_of_proj hclear
  have hcount := countedEach_b2n (r.occupied.contains l) (startProg c (ctxOf r.seq) r r.seq l s) (k := cntCore c.val 0)
    (by unfold cntCore; omega)
  generalize ht : (if r.occupied.contains l then incCnt (cntCore c.val 0) (startProg c (ctxOf r.seq) r r.seq l s)
    else startProg c (ctxOf r.seq) r r.seq l s) = t at he hcount
  have hsame : t = { startProg c (ctxOf r.seq) r r.seq l s with counters := t.counters } := by
    rw [← ht]
    split <;> rfl
  refine ⟨t, he, fun d hd => ?_, eq_withParts (execProgramStart_frame (m0 := 537919516) (by decide) _ _ _ s t he), ?_, ?_, ?_,
    fun k hk => ?_, fun k hk hk' => ?_⟩
  · rw [hsame]
    exact (getCore_modCore_ne _ _ _ hd).trans (hcores d)
  · rw [hsame]
    exact (getCore_modCore _ _ _).trans (by rw [hcores]; rfl)
  · rw [hsame]
    exact reamOf_modReam (fun _ => rfl) hream
  · simpa only [countedEach, counted, cntGet_of_counters hcounters] using hcount
  · rw [hsame]
    exact tokenGet_clearTokens_cluster r c s hk
  · rw [hsame]
    exact tokenGet_clearTokens_die r c s hk hk'

end Sys2Proof.Machine
end

section
/-! PROOFS. Power: sleep and wakes of the domains. -/

namespace Sys2Proof.Machine

/-! ### A domain alone changes -/

/-- The domains but one, and the rest of the power state, are as before. -/
def domOnly (n : Nat) (s t : State) : Prop := t.pwr = { s.pwr with doms := t.pwr.doms } ∧ ∀ m, m ≠ n → getDom t m = getDom s m

theorem getDom_of_pwr {s t : State} (h : t.pwr = s.pwr) (n : Nat) : getDom t n = getDom s n := by rw [getDom, h, getDom]

theorem domOnly_of_pwr {n : Nat} {s t u : State} (h : domOnly n s t) (hu : u.pwr = t.pwr) : domOnly n s u := by
  obtain ⟨hpwr, hothers⟩ := h
  exact ⟨by rw [hu]; exact hpwr, fun m hm => by rw [getDom_of_pwr hu, hothers m hm]⟩

theorem domOnly_trans {n : Nat} {s t u : State} (h : domOnly n s t) (h' : domOnly n t u) : domOnly n s u := by
  obtain ⟨hpwr, hothers⟩ := h
  obtain ⟨hpwr', hothers'⟩ := h'
  exact ⟨by rw [hpwr', hpwr], fun m hm => (hothers' m hm).trans (hothers m hm)⟩

theorem domOnly_putDom (n : Nat) (d : Dom) (s : State) : domOnly n s (putDom n d s) :=
  ⟨rfl, fun _ hm => getDom_putDom_ne _ _ _ hm⟩

theorem setDom_changes (n st : Nat) (s : State) :
    domOnly n s (setDom n st s) ∧ getDom (setDom n st s) n = { getDom s n with st := st, gtNs := nowNs s, since := now s } := by
  have hpwr := setDom_pwr n st s
  exact ⟨domOnly_of_pwr (domOnly_putDom n _ s) hpwr, by rw [getDom_of_pwr hpwr, getDom_putDom]⟩

theorem domState_congr {s t : State} {n : Nat} (hc : t.canopy = s.canopy) (hd : t.dsm = s.dsm) (hn : getDom t n = getDom s n) :
    domState t n = domState s n := by
  unfold domState unitActive clusterActive unitActive unitRec stackLost
  rw [hc, hd, hn]

/-- What a command does that acts under a condition. -/
theorem answers_of_iff {b : Bool} {p : Prop} {r x y : Res} (hr : r = if b then x else y) (hb : b = true ↔ p) :
    (p → r = x) ∧ (¬ p → r = y) := by
  subst hr
  exact ⟨fun h => if_pos (hb.2 h), fun h => if_neg (fun e => h (hb.1 e))⟩

/-! ### Sleep (R418 to R420) -/

/-- Every pending launch that names the domain leaves it time to sleep and wake. -/
def launchesFar (s : State) (n wake : Nat) : Prop :=
  ∀ l ∈ pendingLaunches s, n ∈ l.2 → now s + nsT wake + usT (policy s 23 16) ≤ nsT l.1

theorem launchesFar_iff (s : State) (n wake : Nat) :
    (!namedBefore s n (now s + nsT wake + usT (policy s 23 16))) = true ↔ launchesFar s n wake := by
  simp only [namedBefore, launchesFar, Bool.not_eq_true', List.any_eq_false, Bool.and_eq_true, List.contains_iff_mem,
    decide_eq_true_eq, not_and, Nat.not_lt]

/-- The domain goes to sleep. -/
def entersSleep (n : Nat) (s t : State) : Prop :=
  t.pwr = { s.pwr with doms := t.pwr.doms } ∧ (∀ m, m ≠ n → getDom t m = getDom s m) ∧
    getDom t n = { getDom s n with st := 1, gtNs := nowNs s, since := now s }

theorem entersSleep_setDom (n : Nat) (s : State) : entersSleep n s (setDom n 1 s) := by
  obtain ⟨⟨hpwr, hothers⟩, hown⟩ := setDom_changes n 1 s
  exact ⟨hpwr, hothers, hown⟩

theorem entersSleep_of_pwr {n : Nat} {s t u : State} (h : entersSleep n s t) (hu : u.pwr = t.pwr) : entersSleep n s u := by
  obtain ⟨hpwr, hothers, hown⟩ := h
  obtain ⟨hpwr', hothers'⟩ := domOnly_of_pwr ⟨hpwr, hothers⟩ hu
  exact ⟨hpwr', hothers', by rw [getDom_of_pwr hu, hown]⟩

/-- A command that puts a domain to sleep where it is able to. -/
theorem sleep_spec {n : Nat} {b : Bool} {able : Prop} {r : Res} {s : State}
    (hr : r = if b then .next (setDom n 1 s) else .next s) (hb : b = true ↔ able) :
    (able → ∃ t, r = .next t ∧ t = { s with
      trace := t.trace, freeze := t.freeze, pwr := t.pwr, counters := t.counters, fresh := t.fresh } ∧ entersSleep n s t) ∧
    (¬ able → r = .next s) := by
  obtain ⟨hyes, hno⟩ := answers_of_iff hr hb
  exact ⟨fun h => ⟨_, hyes h, eq_withParts (setDom_frame (m0 := 2751467776) (by decide) _ _ _), entersSleep_setDom _ _⟩, hno⟩

theorem coreSleep_spec (c : CoreId) (s : State) :
    let x := getCore s c
    let able : Prop := domState s c.val = 4 ∧ (∀ y ∈ x.ctxs.toList, y.st = .idle ∨ y.st = .waitLaunch) ∧ x.te.stream = [] ∧
      x.lastRun + usT (policy s 7 0) ≤ now s ∧ launchesFar s c.val 2000 ∧ heldAwake s (c.val / 8) = false
    (able → ∃ t, exec (.coreSleep c) s = .next t ∧ t = { s with
      trace := t.trace, freeze := t.freeze, pwr := t.pwr, counters := t.counters, fresh := t.fresh } ∧ entersSleep c.val s t) ∧
    (¬ able → exec (.coreSleep c) s = .next s) := by
  have hc : c.val < 256 := c.isLt
  have htime : entryNs c.val + wakeNs c.val = 2000 := by simp [entryNs, wakeNs, hc]
  refine sleep_spec (n := c.val) rfl ?_
  rw [domCore, htime]
  simp only [Bool.and_eq_true, beq_iff_eq, List.all_eq_true, Bool.or_eq_true, List.isEmpty_iff, decide_eq_true_eq, launchesFar_iff,
    Bool.not_eq_true' (heldAwake _ _), and_assoc]

theorem clusterSleep_spec (k : ClusterId) (s : State) :
    let able : Prop := domState s (256 + k.val) = 4 ∧ launchesFar s (256 + k.val) 5000 ∧ heldAwake s k.val = false ∧
      ∀ c : CoreId, c.val / 8 = k.val →
        (coreActive s c.val = false ∨ domState s c.val = 2) ∧ (getCore s c).lastRun + usT (policy s 15 8) ≤ now s
    (able → ∃ t, exec (.clusterSleep k) s = .next t ∧ t = { s with
      trace := t.trace, freeze := t.freeze, pwr := t.pwr, counters := t.counters, fresh := t.fresh } ∧ entersSleep (256 + k.val) s t) ∧
    (¬ able → exec (.clusterSleep k) s = .next s) := by
  have hk : k.val < 32 := k.isLt
  have htime : entryNs (256 + k.val) + wakeNs (256 + k.val) = 5000 := by
    simp [entryNs, wakeNs, show 256 + k.val < 288 by omega]
  refine sleep_spec (n := 256 + k.val) rfl ?_
  rw [domCluster, htime]
  simp only [Bool.and_eq_true, beq_iff_eq, List.all_eq_true, Bool.or_eq_true, List.mem_filter, List.mem_finRange, true_and,
    decide_eq_true_eq, launchesFar_iff, Bool.not_eq_true' (heldAwake _ _), Bool.not_eq_true' (coreActive _ _), domCore]
  constructor
  · rintro ⟨⟨⟨⟨hon, hdown⟩, hidle⟩, hfar⟩, hheld⟩
    exact ⟨hon, hfar, hheld, fun c hc => ⟨hdown c hc, hidle c hc⟩⟩
  · rintro ⟨hon, hfar, hheld, hcores⟩
    exact ⟨⟨⟨⟨hon, fun c hc => (hcores c hc).1⟩, fun c hc => (hcores c hc).2⟩, hfar⟩, hheld⟩

theorem stackSelfRefresh_spec (st : StackId) (s : State) :
    let able : Prop := policy s 24 24 = 1 ∧ domState s (292 + st.val) = 4 ∧
      mapGetD 0 st.val s.dsm.used + msT (regF s 0x200008 0 15 0) ≤ now s ∧ launchesFar s (292 + st.val) 22000
    (able → ∃ t, exec (.stackSelfRefresh st) s = .next t ∧ t = { s with
      trace := t.trace, freeze := t.freeze, pwr := t.pwr, counters := t.counters, fresh := t.fresh } ∧ entersSleep (292 + st.val) s t) ∧
    (¬ able → exec (.stackSelfRefresh st) s = .next s) := by
  refine sleep_spec (n := 292 + st.val) rfl ?_
  simp only [Bool.and_eq_true, beq_iff_eq, decide_eq_true_eq, launchesFar_iff, domStack, and_assoc]

theorem getLane_setLane_ne {l j : Nat} (x : Lane) (s : State) (h : j ≠ l) : getLane (setLane l x s) j = getLane s j :=
  mapGetD_mapSetD_other _ _ _ h

theorem getLane_of_net {s t : State} (h : t.net = s.net) (l : Nat) : getLane t l = getLane s l := by rw [getLane, h, getLane]

theorem modLane_net (l : Nat) (f : Lane → Lane) (s : State) : (modLane l f s).net = { s.net with lanes := (modLane l f s).net.lanes } := rfl

theorem laneStandby_spec (l : LaneId) (s : State) :
    let able : Prop := policy s 25 25 = 1 ∧ portEn s (portOfLane s l.val).1 = false ∧ domState s (316 + l.val) = 4
    (able → ∃ t, exec (.laneStandby l) s = .next t ∧ t = { s with
        trace := t.trace, freeze := t.freeze, net := t.net, pwr := t.pwr, counters := t.counters, fresh := t.fresh } ∧
      entersSleep (316 + l.val) s t ∧
      t.net = { s.net with lanes := t.net.lanes } ∧ getLane t l.val = { getLane s l.val with st := 3 } ∧
      ∀ j, j ≠ l.val → getLane t j = getLane s j) ∧
    (¬ able → exec (.laneStandby l) s = .next s) := by
  intro able
  have hable : (policy s 25 25 == 1 && !portEn s (portOfLane s l.val).1 && domState s (316 + l.val) == 4) = true ↔ able := by
    simp only [able, Bool.and_eq_true, beq_iff_eq, Bool.not_eq_true', and_assoc]
  obtain ⟨hyes, hno⟩ := answers_of_iff (r := exec (.laneStandby l) s) rfl hable
  have hnet := net_of_proj (setDom_frame (m0 := 2751467776) (by decide) (316 + l.val) 1 s)
  have hsleep := entersSleep_setDom (316 + l.val) s
  have hframe (t : State) (h : exec (.laneStandby l) s = .next t) := eq_withParts (execLaneStandby_frame (m0 := 2753564928) (by decide) l s t h)
  simp only [domLane] at hyes
  generalize setDom (316 + l.val) 1 s = u at hyes hnet hsleep
  refine ⟨fun h => ⟨_, hyes h, hframe _ (hyes h), entersSleep_of_pwr hsleep rfl, ?_, ?_, fun j hj => ?_⟩, hno⟩
  · rw [modLane_net, hnet]
  · rw [modLane, getLane_setLane, getLane_of_net hnet]
  · rw [modLane, getLane_setLane_ne _ _ hj, getLane_of_net hnet]

/-! ### What sleep loses (R416, R453) -/

theorem finRange_filter_val {k : Nat} (i : Fin k) : (List.finRange k).filter (fun j => j.val == i.val) = [i] := by
  have h : (fun j : Fin k => j.val == i.val) = fun j => j == i := by
    funext j
    rw [Bool.eq_iff_iff]
    simp [Fin.ext_iff]
  rw [h, List.filter_beq, List.count_eq_one_of_mem (List.nodup_finRange k) (List.mem_finRange i)]
  rfl

/-- A fold over a family that acts on one member alone. -/
theorem foldl_finRange_at {k : Nat} {α : Type} (f : α → Fin k → α) (i : Fin k) (a : α) :
    (List.finRange k).foldl (fun a j => if j.val == i.val then f a j else a) a = f a i := by
  rw [← List.foldl_filter (p := fun j : Fin k => j.val == i.val), finRange_filter_val]
  rfl

/-- A core that has lost its memory to free bytes. -/
def coldCore (fresh : Nat) (x : CoreState) : CoreState :=
  let mem (i len : Nat) : List Host.Cell := cellsOf 0 ((Config.freeBytes (fresh + i)).take len)
  { x with
    tile := mem 0 tileBytes, tilePoison := []
    banks := famMap (fun b _ => { mem := mem (1 + b) 24576, poison := false }) x.banks }

/-- A cluster that has lost its memory to free bytes. -/
def coldCluster (fresh : Nat) (x : ClusterState) : ClusterState :=
  { x with sram := cellsOf 0 ((Config.freeBytes fresh).take clusterSramBytes), sramPoison := [] }

theorem loseMemory_core (c : CoreId) (s : State) :
    loseMemory c.val s = modCore c (coldCore s.fresh) { s with fresh := s.fresh + 5 } := by
  rw [loseMemory, if_pos c.isLt]
  exact foldl_finRange_at (fun s c' => modCore c' (coldCore _) s) c _

theorem loseMemory_cluster (k : ClusterId) (s : State) :
    loseMemory (256 + k.val) s = modCluster k (coldCluster s.fresh) { s with fresh := s.fresh + 1 } := by
  rw [loseMemory, if_neg (by omega), if_pos (by omega), Nat.add_sub_cancel_left]
  exact foldl_finRange_at (fun s k' => modCluster k' (coldCluster _) s) k _

theorem loseMemory_other {n : Nat} (h : 288 ≤ n) (s : State) : loseMemory n s = s := by
  rw [loseMemory, if_neg (by omega), if_neg (by omega)]

theorem domain_cases (n : Nat) : (∃ c : CoreId, n = c.val) ∨ (∃ k : ClusterId, n = 256 + k.val) ∨ 288 ≤ n := by
  by_cases hc : n < 256
  · exact .inl ⟨⟨n, hc⟩, rfl⟩
  · by_cases hk : n < 288
    · exact .inr (.inl ⟨⟨n - 256, by omega⟩, by simp only; omega⟩)
    · exact .inr (.inr (by omega))

/-- Sleep leaves of the cores all but the memory of the core whose domain it is. -/
theorem getCore_loseMemory (n : Nat) (s : State) (c : CoreId) :
    getCore (loseMemory n s) c = if c.val = n then { getCore s c with
      tile := (getCore (loseMemory n s) c).tile, tilePoison := [], banks := (getCore (loseMemory n s) c).banks } else getCore s c := by
  have hc : c.val < 256 := c.isLt
  rcases domain_cases n with ⟨d, rfl⟩ | ⟨k, rfl⟩ | hn
  · rw [loseMemory_core]
    by_cases h : c = d
    · subst h
      rw [getCore_modCore, if_pos rfl]
      rfl
    · rw [getCore_modCore_ne _ _ _ h, if_neg (fun e => h (Fin.ext e))]
      rfl
  · rw [if_neg (by omega), loseMemory_cluster]
    rfl
  · rw [if_neg (by omega), loseMemory_other hn]

/-- Sleep leaves of the clusters all but the memory of the cluster whose domain it is. -/
theorem getCluster_loseMemory (n : Nat) (s : State) (k : ClusterId) :
    getCluster (loseMemory n s) k = if 256 + k.val = n then { getCluster s k with
      sram := (getCluster (loseMemory n s) k).sram, sramPoison := [] } else getCluster s k := by
  rcases domain_cases n with ⟨c, rfl⟩ | ⟨j, rfl⟩ | hn
  · rw [if_neg (by omega), loseMemory_core]
    rfl
  · rw [loseMemory_cluster]
    by_cases h : k = j
    · subst h
      rw [getCluster_modCluster, if_pos rfl]
      rfl
    · rw [modCluster, getCluster_setCluster_ne _ _ _ h, if_neg (fun e => h (Fin.ext (by omega)))]
      rfl
  · rw [if_neg (by omega), loseMemory_other hn]

/-- A cluster's trace buffer is emptied, and its records counted as dropped. -/
theorem dropTrace_some {k : Nat} {s : State} {x : TraceStream} (h : mapGet k s.trace = some x) :
    ((mapGet k (dropTrace k s).trace).map (·.fifo.words)) = some [] ∧ counted (cntObs 1) x.fifo.words.length s (dropTrace k s) := by
  simp only [dropTrace, h]
  refine ⟨?_, cntGet_addCnt _ _ _ (by decide)⟩
  rw [addCnt_trace, mapGet_mapSet_same]
  rfl

/-! ### The end of a sleep entry (R421) -/

/-- A change of STATE that is no POWER trace record (R453). -/
theorem setDom_untraced {st : Nat} (n : Nat) (s : State) (h1 : st ≠ 1) (h4 : st ≠ 4) :
    proj 67112960 (setDom n st s) = proj 67112960 s := by
  have hst : (st == 1 || st == 4) = false := by simp [h1, h4]
  rw [setDom, hst, if_neg Bool.false_ne_true]
  exact (noteStretch_frame (by decide) _).trans ((putDom_frame (by decide) _ _ _).trans (markStretch_frame (by decide) _))

/-- The state in which a domain has fallen asleep. -/
def asleep (n : Nat) (s : State) : State :=
  if 256 ≤ n && n < 288 then dropTrace (n - 256) (loseMemory n (setDom n 2 s)) else loseMemory n (setDom n 2 s)

/-- The trace records alone tell a domain asleep from one that has lost its memory. -/
theorem asleep_frame (n : Nat) (s : State) : proj 536871168 (asleep n s) = proj 536871168 (loseMemory n (setDom n 2 s)) := by
  unfold asleep
  split
  · exact dropTrace_frame (by decide) _ _
  · rfl

theorem asleep_cores (n : Nat) (s : State) (c : CoreId) :
    getCore (asleep n s) c = if c.val = n then { getCore s c with
      tile := (getCore (asleep n s) c).tile, tilePoison := [], banks := (getCore (asleep n s) c).banks } else getCore s c := by
  have ht : getCore (asleep n s) c = getCore (loseMemory n (setDom n 2 s)) c := by
    rw [getCore, cores_of_proj (asleep_frame n s), getCore]
  have hs : getCore (setDom n 2 s) c = getCore s c := by
    rw [getCore, cores_of_proj (setDom_untraced n s (by decide) (by decide)), getCore]
  rw [ht, ← hs]
  exact getCore_loseMemory n _ c

theorem asleep_clusters (n : Nat) (s : State) (k : ClusterId) :
    getCluster (asleep n s) k = if 256 + k.val = n then { getCluster s k with
      sram := (getCluster (asleep n s) k).sram, sramPoison := [] } else getCluster s k := by
  have ht : getCluster (asleep n s) k = getCluster (loseMemory n (setDom n 2 s)) k := by
    rw [getCluster, clusters_of_proj (asleep_frame n s), getCluster]
  have hs : getCluster (setDom n 2 s) k = getCluster s k := by
    rw [getCluster, clusters_of_proj (setDom_untraced n s (by decide) (by decide)), getCluster]
  rw [ht, ← hs]
  exact getCluster_loseMemory n _ k

theorem asleep_pwr (n : Nat) (s : State) : (asleep n s).pwr = (setDom n 2 s).pwr :=
  (pwr_of_proj (asleep_frame n s)).trans (pwr_of_proj (loseMemory_frame (m0 := 2147483660) (by decide) n _))

theorem asleep_gt (n : Nat) (s : State) : now (asleep n s) = now s := by
  rw [now, gt_of_proj (asleep_frame n s), gt_of_proj (loseMemory_frame (m0 := 2147483660) (by decide) n _),
    gt_of_proj (setDom_untraced n s (by decide) (by decide)), now]

theorem loseMemory_trace (n : Nat) (s : State) :
    (loseMemory n (setDom n 2 s)).trace = s.trace ∧ (loseMemory n (setDom n 2 s)).counters = s.counters := by
  have hmem := loseMemory_frame (m0 := 2147483660) (by decide) n (setDom n 2 s)
  have hdom := setDom_untraced n s (st := 2) (by decide) (by decide)
  exact ⟨(trace_of_proj hmem).trans (trace_of_proj hdom), (counters_of_proj hmem).trans (counters_of_proj hdom)⟩

theorem asleep_untraced {n : Nat} (h : n < 256 ∨ 288 ≤ n) (s : State) :
    (asleep n s).trace = s.trace ∧ (asleep n s).counters = s.counters := by
  rw [asleep, if_neg (by simp; omega)]
  exact loseMemory_trace n s

theorem asleep_trace {k : ClusterId} {s : State} {x : TraceStream} (h : mapGet k.val s.trace = some x) :
    ((mapGet k.val (asleep (256 + k.val) s).trace).map (·.fifo.words)) = some [] ∧
      counted (cntObs 1) x.fifo.words.length s (asleep (256 + k.val) s) := by
  obtain ⟨htrace, hcounters⟩ := loseMemory_trace (256 + k.val) s
  obtain ⟨hwords, hcount⟩ := dropTrace_some (s := loseMemory (256 + k.val) (setDom (256 + k.val) 2 s)) (by rw [htrace]; exact h)
  rw [asleep, if_pos (by simp; omega), Nat.add_sub_cancel_left]
  exact ⟨hwords, by rw [counted, hcount, cntGet_of_counters hcounters]⟩

/-- A wake that was asked for during the entry begins at its end. -/
def wakeAsked (n : Nat) (s : State) : State :=
  putDom n { getDom s n with st := 3, want := false, wakes := min ((getDom s n).wakes + 1) (2 ^ 24 - 1), since := now s, retried := false } s

theorem exec_sleepEntryEnd (dom : DomainId) (s : State) :
    let beyond : Prop := domState s dom.val = 1 ∧ (getDom s dom.val).since + nsT (entryNs dom.val) ≤ now s
    (¬ beyond → exec (.sleepEntryEnd dom) s = .next s) ∧
    (beyond → exec (.sleepEntryEnd dom) s =
      .next (if (getDom s dom.val).want then wakeAsked dom.val (asleep dom.val s) else asleep dom.val s)) := by
  intro beyond
  have hr : exec (.sleepEntryEnd dom) s = if domState s dom.val != 1 || now s < (getDom s dom.val).since + nsT (entryNs dom.val) then .next s
      else .next (if (getDom s dom.val).want then wakeAsked dom.val (asleep dom.val s) else asleep dom.val s) := by
    rw [apply_ite (Host.Outcome.next (σ := State) (φ := Fault) (ρ := Refusal))]
    rfl
  have hb : (domState s dom.val != 1 || decide (now s < (getDom s dom.val).since + nsT (entryNs dom.val))) = true ↔ ¬ beyond := by
    simp only [beyond, Bool.or_eq_true, bne_iff_ne, decide_eq_true_eq, not_and_or, Nat.not_le, ne_eq]
  obtain ⟨hno, hyes⟩ := answers_of_iff hr hb
  exact ⟨hno, fun h => hyes (not_not.2 h)⟩

theorem sleepEntryEnd_spec (dom : DomainId) (s : State) :
    let n := dom.val
    let d := getDom s n
    let beyond : Prop := domState s n = 1 ∧ d.since + nsT (entryNs n) ≤ now s
    (¬ beyond → exec (.sleepEntryEnd dom) s = .next s) ∧
    (beyond → ∃ t, exec (.sleepEntryEnd dom) s = .next t ∧ t = { s with
        cores := t.cores, clusters := t.clusters, trace := t.trace, freeze := t.freeze, pwr := t.pwr
        counters := t.counters, fresh := t.fresh } ∧ t.pwr = { s.pwr with doms := t.pwr.doms } ∧
      (∀ m, m ≠ n → getDom t m = getDom s m) ∧
      (d.want = false → getDom t n = { d with st := 2, gtNs := nowNs s, since := now s }) ∧
      (d.want = true → getDom t n = { d with
        st := 3, want := false, wakes := min (d.wakes + 1) (2 ^ 24 - 1), gtNs := nowNs s, since := now s, retried := false }) ∧
      (∀ c : CoreId, getCore t c = if c.val = n then { getCore s c with
        tile := (getCore t c).tile, tilePoison := [], banks := (getCore t c).banks } else getCore s c) ∧
      (∀ k : ClusterId, getCluster t k = if 256 + k.val = n then { getCluster s k with
        sram := (getCluster t k).sram, sramPoison := [] } else getCluster s k) ∧
      (∀ k : ClusterId, 256 + k.val = n → ∀ x, mapGet k.val s.trace = some x →
        ((mapGet k.val t.trace).map (·.fifo.words)) = some [] ∧ counted (cntObs 1) x.fifo.words.length s t) ∧
      (n < 256 ∨ 288 ≤ n → t.trace = s.trace ∧ t.counters = s.counters)) := by
  intro n d beyond
  obtain ⟨hno, hyes⟩ := exec_sleepEntryEnd dom s
  refine ⟨hno, fun h => ?_⟩
  have he := hyes h
  obtain ⟨hdoms, hown⟩ := setDom_changes n 2 s
  have hasleep : domOnly n s (asleep n s) := domOnly_of_pwr hdoms (asleep_pwr n s)
  have hown' : getDom (asleep n s) n = { d with st := 2, gtNs := nowNs s, since := now s } := by
    rw [getDom_of_pwr (asleep_pwr n s), hown]
  generalize ht : (if (getDom s dom.val).want then wakeAsked dom.val (asleep dom.val s) else asleep dom.val s) = t at he
  -- the wake that was asked for touches the power state alone
  have hpwr : t = { asleep n s with pwr := t.pwr } := by
    rw [← ht]
    split <;> rfl
  have hdom : domOnly n s t ∧ (d.want = false → getDom t n = { d with st := 2, gtNs := nowNs s, since := now s }) ∧
      (d.want = true → getDom t n = { d with
        st := 3, want := false, wakes := min (d.wakes + 1) (2 ^ 24 - 1), gtNs := nowNs s, since := now s, retried := false }) := by
    rw [← ht]
    by_cases hw : d.want = true
    · rw [if_pos hw, wakeAsked, asleep_gt, show getDom (asleep dom.val s) dom.val = _ from hown']
      exact ⟨domOnly_trans hasleep (domOnly_putDom _ _ _), fun e => absurd (hw.symm.trans e) (by decide), fun _ => getDom_putDom _ _ _⟩
    · rw [if_neg hw]
      exact ⟨hasleep, fun _ => hown', fun e => absurd e hw⟩
  obtain ⟨⟨hpow, hothers⟩, hsleeps, hwakes⟩ := hdom
  refine ⟨t, he, eq_withParts (execSleepEntryEnd_frame (m0 := 2751467788) (by decide) dom s t he), hpow, hothers, hsleeps, hwakes,
    fun c => ?_, fun k => ?_, fun k hk x hx => ?_, fun hn => ?_⟩
  · rw [hpwr]
    exact asleep_cores n s c
  · rw [hpwr]
    exact asleep_clusters n s k
  · rw [hpwr, ← hk]
    exact asleep_trace hx
  · rw [hpwr]
    exact asleep_untraced hn s

/-! ### The beginning of a wake (R42, R419, R421) -/

/-- A domain asleep begins to wake, and one in entry will; the command counts where it changes something. -/
def wakesUp (n cnt : Nat) (s t : State) : Prop :=
  t = { s with pwr := t.pwr, counters := t.counters } ∧ t.pwr = { s.pwr with doms := t.pwr.doms } ∧
    (∀ m, m ≠ n → getDom t m = getDom s m) ∧ cntsKeep [cntPwr cnt] s t ∧
    (domState s n = 2 → counted (cntPwr cnt) 1 s t ∧ getDom t n = { getDom s n with
      st := 3, wakes := min ((getDom s n).wakes + 1) (2 ^ 24 - 1), gtNs := nowNs s, since := now s, retried := false }) ∧
    (domState s n = 1 → (getDom s n).want = false →
      counted (cntPwr cnt) 1 s t ∧ getDom t n = { getDom s n with want := true }) ∧
    ((domState s n ≠ 2 ∧ domState s n ≠ 1) ∨ (domState s n = 1 ∧ (getDom s n).want = true) → t = s)

theorem beginWake_asleep {n : Nat} (cnt : Nat) {s : State} (h : domState s n = 2) :
    beginWake n cnt s = incCnt (cntPwr cnt) (putDom n { getDom s n with
      st := 3, wakes := min ((getDom s n).wakes + 1) (2 ^ 24 - 1), gtNs := nowNs s, since := now s, retried := false } s) := by
  simp only [beginWake, h]

theorem beginWake_entering {n : Nat} (cnt : Nat) {s : State} (h : domState s n = 1) :
    beginWake n cnt s = if (getDom s n).want then s else incCnt (cntPwr cnt) (putDom n { getDom s n with want := true } s) := by
  simp only [beginWake, h]

theorem beginWake_other {n : Nat} (cnt : Nat) {s : State} (h2 : domState s n ≠ 2) (h1 : domState s n ≠ 1) : beginWake n cnt s = s := by
  unfold beginWake
  split
  next h => exact absurd h h2
  next h => exact absurd h h1
  next => rfl

/-- The parts that a counted change of one domain leaves. -/
theorem incCnt_putDom_keeps (n k : Nat) (d : Dom) (s : State) :
    let t := incCnt k (putDom n d s)
    t = { s with pwr := t.pwr, counters := t.counters } ∧ t.pwr = { s.pwr with doms := t.pwr.doms } ∧
      (∀ m, m ≠ n → getDom t m = getDom s m) ∧ cntsKeep [k] s t := by
  obtain ⟨hpwr, hothers⟩ := domOnly_putDom n d s
  exact ⟨rfl, hpwr, hothers, fun j hj => cntGet_addCnt_ne _ _ _ (by simpa using hj)⟩

theorem beginWake_spec (n : Nat) {cnt : Nat} (s : State) (hcnt : cnt < 8) : wakesUp n cnt s (beginWake n cnt s) := by
  have hk : cntPwr cnt ≠ 19666 ∧ cntPwr cnt ≠ 19667 := by unfold cntPwr; omega
  by_cases h2 : domState s n = 2
  · rw [beginWake_asleep cnt h2]
    obtain ⟨hparts, hpwr, hothers, hcnts⟩ := incCnt_putDom_keeps n (cntPwr cnt) { getDom s n with
      st := 3, wakes := min ((getDom s n).wakes + 1) (2 ^ 24 - 1), gtNs := nowNs s, since := now s, retried := false } s
    refine ⟨hparts, hpwr, hothers, hcnts, fun _ => ⟨cntGet_addCnt _ _ _ hk, getDom_putDom _ _ _⟩, fun h1 => ?_, ?_⟩
    · rw [h2] at h1
      exact absurd h1 (by decide)
    · rintro (⟨h, -⟩ | ⟨h, -⟩)
      · exact absurd h2 h
      · rw [h2] at h
        exact absurd h (by decide)
  · by_cases h1 : domState s n = 1
    · rw [beginWake_entering cnt h1]
      by_cases hw : (getDom s n).want = true
      · rw [if_pos hw]
        exact ⟨rfl, rfl, fun _ _ => rfl, fun _ _ => rfl, fun h => absurd h h2, fun _ h => absurd (hw.symm.trans h) (by decide), fun _ => rfl⟩
      · rw [if_neg hw]
        obtain ⟨hparts, hpwr, hothers, hcnts⟩ := incCnt_putDom_keeps n (cntPwr cnt) { getDom s n with want := true } s
        refine ⟨hparts, hpwr, hothers, hcnts, fun h => absurd h h2, fun _ _ => ⟨cntGet_addCnt _ _ _ hk, getDom_putDom _ _ _⟩, ?_⟩
        rintro (⟨-, h⟩ | ⟨-, h⟩)
        · exact absurd h1 h
        · exact absurd h hw
    · rw [beginWake_other cnt h2 h1]
      exact ⟨rfl, rfl, fun _ _ => rfl, fun _ _ => rfl, fun h => absurd h h2, fun h => absurd h h1, fun _ => rfl⟩

theorem demandWake_spec (dom : DomainId) (s : State) : ∃ t, exec (.demandWake dom) s = .next t ∧ wakesUp dom.val 1 s t :=
  ⟨_, rfl, beginWake_spec _ _ (by decide)⟩

theorem prewake_spec (dom : DomainId) (s : State) :
    let n := dom.val
    let named : Prop := (∃ l ∈ pendingLaunches s, n ∈ l.2 ∧ nsT l.1 ≤ now s + wakeLeft s n (now s)) ∨ ∃ l ∈ s.pwr.late, l.1 = n
    (named → ∃ t, exec (.prewake dom) s = .next t ∧ wakesUp n 0 s t) ∧ (¬ named → exec (.prewake dom) s = .next s) := by
  intro n named
  have hnamed : ((pendingLaunches s).any (fun l => l.2.contains n && decide (nsT l.1 ≤ now s + wakeLeft s n (now s))) ||
      s.pwr.late.any (fun l => l.1 == n)) = true ↔ named := by
    simp only [named, Bool.or_eq_true, List.any_eq_true, Bool.and_eq_true, List.contains_iff_mem, decide_eq_true_eq, beq_iff_eq]
  obtain ⟨hyes, hno⟩ := answers_of_iff (r := exec (.prewake dom) s) rfl hnamed
  exact ⟨fun h => ⟨_, hyes h, beginWake_spec _ _ (by decide)⟩, hno⟩

/-! ### The end of a wake (R42, R416) -/

/-- An item names the domain: a pending launch, or one that starts late. -/
def itemNames (s : State) (m : Nat) : Prop := (∃ l ∈ pendingLaunches s, m ∈ l.2) ∨ ∃ l ∈ s.pwr.late, l.1 = m

/-- A core that an item names wakes with its cluster. -/
def wakeCore (names : List Nat) (s : State) (c : Nat) : State :=
  if names.contains c && (domState s c == 2 || domState s c == 3) then setDom c 4 s else s

theorem wakeCore_frame (names : List Nat) (s : State) (c : Nat) : proj 2751467776 (wakeCore names s c) = proj 2751467776 s := by
  unfold wakeCore
  split
  · exact setDom_frame (by decide) _ _ _
  · rfl

theorem domOnly_wakeCore (names : List Nat) (s : State) (c : Nat) : domOnly c s (wakeCore names s c) := by
  unfold wakeCore
  split
  · exact (setDom_changes c 4 s).1
  · exact ⟨rfl, fun _ _ => rfl⟩

theorem getDom_wakeCore (names : List Nat) (s : State) (c : Nat) :
    getDom (wakeCore names s c) c = if names.contains c && (domState s c == 2 || domState s c == 3) then
      { getDom s c with st := 4, gtNs := nowNs s, since := now s } else getDom s c := by
  unfold wakeCore
  split
  · exact (setDom_changes c 4 s).2
  · rfl

/-- Cores wake each by itself. -/
theorem getDom_foldl_wakeCore (names l : List Nat) (hl : l.Nodup) (s : State) (m : Nat) :
    getDom (l.foldl (wakeCore names) s) m = if m ∈ l then getDom (wakeCore names s m) m else getDom s m := by
  induction l generalizing s with
  | nil => rfl
  | cons c l ih =>
    obtain ⟨hc, hl⟩ := List.nodup_cons.1 hl
    rw [List.foldl_cons, ih hl]
    by_cases hm : m = c
    · subst hm
      simp [hc]
    · have hdom := (domOnly_wakeCore names s c).2 m hm
      have hframe := wakeCore_frame names s c
      have hstate : domState (wakeCore names s c) m = domState s m := domState_congr (canopy_of_proj hframe) (dsm_of_proj hframe) hdom
      simp only [List.mem_cons, hm, false_or, getDom_wakeCore, hstate, hdom, nowNs, now, gt_of_proj hframe]

theorem foldl_wakeCore_pwr (names l : List Nat) (s : State) :
    (l.foldl (wakeCore names) s).pwr = { s.pwr with doms := (l.foldl (wakeCore names) s).pwr.doms } := by
  induction l generalizing s with
  | nil => rfl
  | cons c l ih => rw [List.foldl_cons, ih, (domOnly_wakeCore names s c).1]

/-- The domains that items name. -/
def namedDoms (s : State) : List Nat := ((pendingLaunches s).map (·.2)).flatten ++ s.pwr.late.map (·.1)

theorem mem_namedDoms (s : State) (m : Nat) : m ∈ namedDoms s ↔ itemNames s m := by
  simp only [namedDoms, itemNames, List.mem_append, List.mem_flatten, List.mem_map, exists_exists_and_eq_and]

theorem pendingLaunches_setDom (n st : Nat) (s : State) : pendingLaunches (setDom n st s) = pendingLaunches s := by
  rw [eq_withParts (setDom_frame (m0 := 2751467776) (by decide) n st s)]
  rfl

/-- A change of one domain leaves the items that name domains. -/
theorem namedDoms_setDom (n st : Nat) (s : State) : namedDoms (setDom n st s) = namedDoms s := by
  rw [namedDoms, pendingLaunches_setDom, (setDom_changes n st s).1.1, namedDoms]

/-- The state in which a domain has woken: a lane trains, and a cluster wakes the cores that items name. -/
def awoken (n : Nat) (s : State) : State :=
  if 256 ≤ n && n < 288 then (List.range' (8 * (n - 256)) 8).foldl (wakeCore (namedDoms s)) (setDom n 4 s) else domAwake n s

theorem domAwake_pwr (n : Nat) (s : State) : (domAwake n s).pwr = (setDom n 4 s).pwr := by
  unfold domAwake
  split <;> rfl

theorem exec_wakeEnd (dom : DomainId) (s : State) :
    let awake : Prop := domState s dom.val = 3 ∧ (getDom s dom.val).since + nsT (wakeNs dom.val) ≤ now s
    (¬ awake → exec (.wakeEnd dom) s = .next s) ∧ (awake → exec (.wakeEnd dom) s = .next (awoken dom.val s)) := by
  intro awake
  have hr : exec (.wakeEnd dom) s = if domState s dom.val != 3 || now s < (getDom s dom.val).since + nsT (wakeNs dom.val) then .next s
      else .next (awoken dom.val s) := by
    show execWakeEnd dom s = _
    unfold execWakeEnd awoken
    rw [apply_ite (Host.Outcome.next (σ := State) (φ := Fault) (ρ := Refusal)), ← namedDoms_setDom dom.val 4 s]
    by_cases hk : (decide (256 ≤ dom.val) && decide (dom.val < 288)) = true
    · have : domAwake dom.val s = setDom dom.val 4 s := if_neg (by simp at hk ⊢; omega)
      simp only [hk, if_true, this]
      rfl
    · simp only [hk, Bool.false_eq_true, if_false]
  have hb : (domState s dom.val != 3 || decide (now s < (getDom s dom.val).since + nsT (wakeNs dom.val))) = true ↔ ¬ awake := by
    simp only [awake, Bool.or_eq_true, bne_iff_ne, decide_eq_true_eq, not_and_or, Nat.not_le, ne_eq]
  obtain ⟨hno, hyes⟩ := answers_of_iff hr hb
  exact ⟨hno, fun h => hyes (not_not.2 h)⟩

theorem awoken_cluster (k : ClusterId) (s : State) :
    awoken (256 + k.val) s = (List.range' (8 * k.val) 8).foldl (wakeCore (namedDoms s)) (setDom (256 + k.val) 4 s) := by
  rw [awoken, if_pos (by simp; omega), Nat.add_sub_cancel_left]

theorem awoken_other {n : Nat} (h : n < 256 ∨ 288 ≤ n) (s : State) : awoken n s = domAwake n s := by
  rw [awoken, if_neg (by simp; omega)]

/-- A cluster's wake includes that of the cores that an item names. -/
theorem getDom_awoken_cluster (k : ClusterId) (s : State) (m : Nat) (hm : m ≠ 256 + k.val) :
    (m / 8 = k.val ∧ m < 256 ∧ itemNames s m ∧ (domState s m = 2 ∨ domState s m = 3) →
      getDom (awoken (256 + k.val) s) m = { getDom s m with st := 4, gtNs := nowNs s, since := now s }) ∧
    (¬ (m / 8 = k.val ∧ m < 256 ∧ itemNames s m ∧ (domState s m = 2 ∨ domState s m = 3)) →
      getDom (awoken (256 + k.val) s) m = getDom s m) := by
  have hk : k.val < 32 := k.isLt
  have hframe := setDom_frame (m0 := 2751467776) (by decide) (256 + k.val) 4 s
  have hdom := (setDom_changes (256 + k.val) 4 s).1.2 m hm
  have hstate : domState (setDom (256 + k.val) 4 s) m = domState s m := domState_congr (canopy_of_proj hframe) (dsm_of_proj hframe) hdom
  have hin : m ∈ List.range' (8 * k.val) 8 ↔ m / 8 = k.val ∧ m < 256 := by
    rw [List.mem_range'_1]
    omega
  have hwakes : ((namedDoms s).contains m && (domState s m == 2 || domState s m == 3)) = true ↔
      itemNames s m ∧ (domState s m = 2 ∨ domState s m = 3) := by
    simp only [Bool.and_eq_true, List.contains_iff_mem, mem_namedDoms, Bool.or_eq_true, beq_iff_eq]
  rw [awoken_cluster, getDom_foldl_wakeCore _ _ (List.nodup_range') _ _, getDom_wakeCore, hstate, hdom, nowNs, now, gt_of_proj hframe,
    ← now, ← nowNs]
  refine ⟨fun ⟨hcluster, hcore, h⟩ => ?_, fun h => ?_⟩
  · rw [if_pos (hin.2 ⟨hcluster, hcore⟩), if_pos (hwakes.2 h)]
  · split
    next hmem =>
      obtain ⟨hcluster, hcore⟩ := hin.1 hmem
      exact if_neg fun e => h ⟨hcluster, hcore, hwakes.1 e⟩
    next => rfl

theorem awoken_doms (n : Nat) (s : State) :
    (awoken n s).pwr = { s.pwr with doms := (awoken n s).pwr.doms } ∧
      getDom (awoken n s) n = { getDom s n with st := 4, gtNs := nowNs s, since := now s } ∧
      (n < 256 ∨ 288 ≤ n → ∀ m, m ≠ n → getDom (awoken n s) m = getDom s m) := by
  obtain ⟨hdoms, hown⟩ := setDom_changes n 4 s
  by_cases hn : n < 256 ∨ 288 ≤ n
  · rw [awoken_other hn]
    obtain ⟨hpwr, hothers⟩ := domOnly_of_pwr hdoms (domAwake_pwr n s)
    exact ⟨hpwr, by rw [getDom_of_pwr (domAwake_pwr n s), hown], fun _ => hothers⟩
  · obtain ⟨k, rfl⟩ : ∃ k : ClusterId, n = 256 + k.val := ⟨⟨n - 256, by omega⟩, by simp only; omega⟩
    have hk : k.val < 32 := k.isLt
    refine ⟨?_, ?_, fun h => absurd h hn⟩
    · rw [awoken_cluster, foldl_wakeCore_pwr, hdoms.1]
    · rw [awoken_cluster, getDom_foldl_wakeCore _ _ (List.nodup_range') _ _, if_neg (by rw [List.mem_range'_1]; omega), hown]

/-- A lane leaves STANDBY and trains as its domain wakes. -/
theorem getLane_awoken (l : LaneId) {s : State} (h : (getLane s l.val).st = 3) : (getLane (awoken (316 + l.val) s) l.val).st = 1 := by
  have hl : l.val < 16 := l.isLt
  have hnet := getLane_of_net (net_of_proj (setDom_frame (m0 := 2751467776) (by decide) (316 + l.val) 4 s)) l.val
  rw [awoken_other (by omega), domAwake, if_pos (by simp; omega), Nat.add_sub_cancel_left, modLane, getLane_setLane, hnet, h]
  rfl

theorem wakeEnd_spec (dom : DomainId) (s : State) :
    let n := dom.val
    let awake : Prop := domState s n = 3 ∧ (getDom s n).since + nsT (wakeNs n) ≤ now s
    (¬ awake → exec (.wakeEnd dom) s = .next s) ∧
    (awake → ∃ t, exec (.wakeEnd dom) s = .next t ∧ t = { s with
        trace := t.trace, freeze := t.freeze, net := t.net, pwr := t.pwr, counters := t.counters, fresh := t.fresh } ∧
      t.pwr = { s.pwr with doms := t.pwr.doms } ∧ (getDom t n).st = 4 ∧ (getDom t n).since = now s ∧
      (n < 256 ∨ 288 ≤ n → ∀ m, m ≠ n → getDom t m = getDom s m) ∧
      (∀ k : ClusterId, n = 256 + k.val → ∀ m, m ≠ n →
        getDom t m = if m / 8 = k.val ∧ m < 256 ∧ ((∃ l ∈ pendingLaunches s, m ∈ l.2) ∨ ∃ l ∈ s.pwr.late, l.1 = m) ∧
            (domState s m = 2 ∨ domState s m = 3) then
          { getDom s m with st := 4, gtNs := nowNs s, since := now s } else getDom s m) ∧
      (∀ l : LaneId, n = 316 + l.val → (getLane s l.val).st = 3 → (getLane t l.val).st = 1)) := by
  intro n awake
  obtain ⟨hno, hyes⟩ := exec_wakeEnd dom s
  obtain ⟨hpwr, hown, hothers⟩ := awoken_doms n s
  refine ⟨hno, fun h => ⟨awoken n s, hyes h, eq_withParts (execWakeEnd_frame (m0 := 2753564928) (by decide) dom s _ (hyes h)), hpwr,
    by rw [hown], by rw [hown], hothers, fun k hk m hm => ?_, fun l hl hst => ?_⟩⟩
  · rw [hk] at hm ⊢
    obtain ⟨hwakes, hrests⟩ := getDom_awoken_cluster k s m hm
    split
    next hc => exact hwakes hc
    next hc => exact hrests hc
  · rw [hl]
    exact getLane_awoken l hst

end Sys2Proof.Machine
end

section
/-! PROOFS. Power: ports that go down. -/

namespace Sys2Proof.Machine

/-! ### Ports and power counters under the packet path -/

/-- Ports keep their STATE, and lanes and the power counters stand. -/
structure PortsStay (s t : State) : Prop where
  st : ∀ g, (getEPort t g).st = (getEPort s g).st
  lanes : t.net.lanes = s.net.lanes
  counts : ∀ n, cntGet t (cntPwr n) = cntGet s (cntPwr n)

namespace PortsStay

theorem refl (s : State) : PortsStay s s := ⟨fun _ => rfl, rfl, fun _ => rfl⟩

theorem trans {s t u : State} (h : PortsStay s t) (h' : PortsStay t u) : PortsStay s u :=
  ⟨fun g => (h'.st g).trans (h.st g), h'.lanes.trans h.lanes, fun n => (h'.counts n).trans (h.counts n)⟩

theorem of_parts {s t : State} (hp : t.net.ports = s.net.ports) (hl : t.net.lanes = s.net.lanes) (hc : t.counters = s.counters) : PortsStay s t :=
  ⟨fun g => by rw [getEPort, hp, getEPort], hl, fun _ => cntGet_of_counters hc _⟩

theorem foldl {α : Type} (l : List α) (f : State → α → State) (h : ∀ s a, PortsStay s (f s a)) (s : State) : PortsStay s (l.foldl f s) :=
  l.foldlRecOn f (motive := PortsStay s) (refl s) (fun _ ht a _ => ht.trans (h _ a))

end PortsStay

theorem portsStay_incCnt {k : Nat} (s : State) (h : k < 19648) : PortsStay s (incCnt k s) :=
  ⟨fun _ => rfl, rfl, fun n => cntGet_addCnt_ne _ _ _ (by unfold cntPwr; omega)⟩

theorem portsStay_holdFrame (i : Nat) (s : State) : PortsStay s (holdFrame i s) := by
  unfold holdFrame
  split
  · exact PortsStay.of_parts rfl rfl rfl
  · exact PortsStay.refl s

theorem portsStay_freeUnheld (i : Nat) (s : State) : PortsStay s (freeUnheld i s) := by
  unfold freeUnheld
  split
  · split
    · exact PortsStay.of_parts rfl rfl rfl
    · exact PortsStay.refl s
  · exact PortsStay.refl s

theorem portsStay_dropFrame (i : Nat) (s : State) : PortsStay s (dropFrame i s) := by
  unfold dropFrame
  split
  · exact PortsStay.of_parts rfl rfl rfl
  · exact PortsStay.refl s

theorem portsStay_setQueue (g q : Nat) (l : List QItem) (s : State) : PortsStay s (setQueue g q l s) := by
  refine ⟨fun j => ?_, rfl, fun _ => rfl⟩
  by_cases h : j = g
  · subst h
    rw [setQueue, getEPort_modEPort]
  · rw [setQueue, modEPort, getEPort, setEPort, mapGetD_mapSetD_other _ _ _ h, getEPort]

theorem portsStay_enqueue {g q : Nat} (it : QItem) (answer : Bool) (s : State) (hg : g < 16) (hq : q < 16) :
    PortsStay s (enqueue g q it answer s).2 := by
  have hk (c : Nat) (hc : c < 2) : cntQueue g q c < 19648 := by unfold cntQueue; omega
  unfold enqueue
  split
  · exact portsStay_incCnt _ (hk 1 (by omega))
  · exact ((portsStay_holdFrame _ _).trans (portsStay_setQueue _ _ _ _)).trans (portsStay_incCnt _ (hk 0 (by omega)))

/-- A frame of a group is queued on a port that is up. -/
theorem portsStay_sendTo (g dmac : Nat) (dst : Option Nat) (seq ack : W32) (b : GrpBody) (s : State) :
    PortsStay s (sendTo g dmac dst seq ack b s) := by
  unfold sendTo
  split
  · exact .refl s
  · rename_i hsend
    have hg : g < 16 := by
      refine portUp_lt (s := s) ?_
      simp only [Bool.or_eq_true, Bool.not_eq_true', not_or] at hsend
      simpa using hsend.2
    extract_lets h f
    split
    · exact .refl s
    · have hput : PortsStay s (putFrame (laneDie g) f f.length (some (h, b)) s).2 := .of_parts rfl rfl rfl
      have hq : bits (cfgField s 0x15 0) 3 0 < 16 := bits_lt _ _ _
      refine (hput.trans (portsStay_enqueue { plainItem s.net.nextFrame with group := true } false _ hg hq)).trans ?_
      dsimp only
      refine PortsStay.trans ?_ (portsStay_freeUnheld _ _)
      split
      · exact portsStay_incCnt _ (by unfold cntGrp; omega)
      · exact .refl _

theorem portsStay_toPeer (i : Nat) (seq : W32) (b : GrpBody) (s : State) : PortsStay s (toPeer i seq b s) := by
  unfold toPeer
  split
  · exact .refl s
  · extract_lets g t
    have ht : PortsStay s t := .of_parts rfl rfl rfl
    exact ht.trans (portsStay_sendTo _ _ _ _ _ _ t)

theorem portsStay_sendSeq (i : Nat) (b : GrpBody) (s : State) : PortsStay s (sendSeq i b s) := by
  unfold sendSeq
  split
  · exact .refl s
  · split
    · exact .of_parts rfl rfl rfl
    · extract_lets t
      have ht : PortsStay s t := .of_parts rfl rfl rfl
      exact ht.trans (portsStay_toPeer _ _ _ t)

theorem portsStay_releaseHandle (k : Nat) (s : State) : PortsStay s (releaseHandle k s) := by
  unfold releaseHandle
  split
  · extract_lets t
    have ht : PortsStay s t := .of_parts rfl rfl rfl
    exact ht.trans (.foldl _ _ (fun s i => portsStay_sendSeq i _ s) t)
  · exact .refl s

theorem portsStay_freeEntry (k : Nat) (s : State) : PortsStay s (freeEntry k s) := by
  have hframe (o : Option Nat) (u : State) : PortsStay u (match o with | some i => dropFrame i u | none => u) := by
    cases o with
    | none => exact .refl u
    | some i => exact portsStay_dropFrame i u
  have hslot (b : Bool) (i : Nat) (f : Slot → Slot) (u : State) : PortsStay u (if b then modSlot i f u else u) := by
    cases b
    · exact .refl u
    · exact .of_parts rfl rfl rfl
  have hleave (u : State) : PortsStay u (releaseHandle k { leaveAdmission k u with
      rqt := mapDel k u.rqt, reams := u.reams.map (fun m => { m with reqs := m.reqs.filter (· != k) }) }) :=
    PortsStay.trans (t := { leaveAdmission k u with
      rqt := mapDel k u.rqt, reams := u.reams.map (fun m => { m with reqs := m.reqs.filter (· != k) }) }) (.of_parts rfl rfl rfl)
      (portsStay_releaseHandle k _)
  unfold freeEntry
  split
  · exact .refl s
  · rename_i r _
    exact (hframe r.frame s).trans ((hslot _ _ _ _).trans (hleave _))

theorem portsStay_dropItem {g : Nat} (it : QItem) (s : State) (hg : g < 16) : PortsStay s (dropItem g it s) := by
  have hcount := (portsStay_dropFrame it.frame s).trans (portsStay_incCnt (dropFrame it.frame s) (k := cntPort g 11) (by unfold cntPort; omega))
  unfold dropItem
  dsimp only
  split
  · exact hcount.trans (portsStay_freeEntry _ _)
  · exact hcount

/-- A port that goes down is in its new STATE; the other ports keep theirs. -/
theorem getEPort_portDown {g : Nat} (st : Nat) (s : State) (hg : g < 16) (j : Nat) :
    (getEPort (portDown g st s) j).st = if j = g then st else (getEPort s j).st := by
  unfold portDown
  extract_lets x items t
  rw [(PortsStay.foldl items (fun s it => dropItem g it s) (fun s it => portsStay_dropItem it s hg) t).st j]
  by_cases h : j = g
  · subst h
    rw [if_pos rfl]
    exact congrArg EPort.st (getEPort_setEPort _ _ _)
  · rw [if_neg h]
    exact congrArg EPort.st (mapGetD_mapSetD_other _ _ _ h)

theorem portDown_keeps {g : Nat} (st : Nat) (s : State) (hg : g < 16) :
    (portDown g st s).net.lanes = s.net.lanes ∧ ∀ n, cntGet (portDown g st s) (cntPwr n) = cntGet s (cntPwr n) := by
  unfold portDown
  extract_lets x items t
  have h := PortsStay.foldl items (fun s it => dropItem g it s) (fun s it => portsStay_dropItem it s hg) t
  exact ⟨h.lanes, h.counts⟩

/-- Ports that go down together. -/
theorem foldl_portDown (l : List Nat) (hl : ∀ g ∈ l, g < 16) (s : State) :
    let t := l.foldl (fun s g => portDown g 0 s) s
    (∀ j, j ∈ l ∨ (getEPort s j).st = 0 → (getEPort t j).st = 0) ∧ ∀ n, cntGet t (cntPwr n) = cntGet s (cntPwr n) := by
  induction l generalizing s with
  | nil => exact ⟨fun j hj => hj.resolve_left (by simp), fun _ => rfl⟩
  | cons g l ih =>
    have hg : g < 16 := hl g (by simp)
    obtain ⟨hdown, hcounts⟩ := ih (fun j hj => hl j (by simp [hj])) (portDown g 0 s)
    refine ⟨fun j hj => hdown j ?_, fun n => (hcounts n).trans ((portDown_keeps 0 s hg).2 n)⟩
    rw [getEPort_portDown 0 s hg, List.mem_cons] at *
    by_cases h : j = g
    · simp [h]
    · simpa [h] using hj

end Sys2Proof.Machine
end

section
/-! PROOFS. Power: reports, fences and losses. -/

namespace Sys2Proof.Machine

/-! ### Reports, fences and losses -/

/-- The units of the canopy stand, and its reports in transit stay. -/
structure CanopyGrows (s t : State) : Prop where
  units : t.canopy.units = s.canopy.units
  transit : ∀ r ∈ s.canopy.transit, r ∈ t.canopy.transit

namespace CanopyGrows

theorem refl (s : State) : CanopyGrows s s := ⟨rfl, fun _ h => h⟩

theorem trans {s t u : State} (h : CanopyGrows s t) (h' : CanopyGrows t u) : CanopyGrows s u :=
  ⟨h'.units.trans h.units, fun r hr => h'.transit r (h.transit r hr)⟩

theorem of_canopy {s t : State} (h : t.canopy = s.canopy) : CanopyGrows s t := ⟨by rw [h], fun _ hr => by rw [h]; exact hr⟩

theorem foldl {α : Type} (l : List α) (f : State → α → State) (h : ∀ s a, CanopyGrows s (f s a)) (s : State) :
    CanopyGrows s (l.foldl f s) :=
  l.foldlRecOn f (motive := CanopyGrows s) (refl s) (fun _ ht a _ => ht.trans (h _ a))

end CanopyGrows

theorem reportWith_canopy (code : Nat) (suspect alt reporter : UnitCode) (layer op : W16) (content : List Nat) (s : State) :
    ∃ r : Report, (reportWith code suspect alt reporter layer op content s).canopy =
        { s.canopy with transit := s.canopy.transit ++ [(reportNode reporter, r)] } ∧
      r.code = BitVec.ofNat 16 code ∧ r.suspect = suspect ∧ r.reporter = reporter := by
  have h := canopy_of_proj (stampSub_frame (m0 := 2147483648) (by decide) reporter s)
  unfold reportWith report
  generalize stampSub reporter s = p at h
  obtain ⟨sub, u⟩ := p
  exact ⟨_, by dsimp only at h ⊢; rw [h], rfl, rfl, rfl⟩

theorem canopyGrows_reportWith (code : Nat) (suspect alt reporter : UnitCode) (layer op : W16) (content : List Nat) (s : State) :
    CanopyGrows s (reportWith code suspect alt reporter layer op content s) := by
  obtain ⟨r, h, -⟩ := reportWith_canopy code suspect alt reporter layer op content s
  exact ⟨by rw [h], fun x hx => by rw [h]; exact List.mem_append_left _ hx⟩

theorem canopyGrows_markRelaunch (ream : W32) (s : State) : CanopyGrows s (markRelaunch ream s) := by
  unfold markRelaunch
  split
  · exact .refl s
  · exact ⟨rfl, fun _ h => h⟩

theorem canopyGrows_markCoreReams (c : CoreId) (s : State) : CanopyGrows s (markCoreReams c s) := by
  refine .foldl _ _ (fun s x => ?_) s
  split
  · exact .refl s
  · exact canopyGrows_markRelaunch _ _

theorem canopyGrows_moveCluster (k : Nat) (s : State) : CanopyGrows s (moveCluster k s) := by
  unfold moveCluster
  split
  · rename_i j _
    exact .foldl _ (fun s l => setClusterMap l j s) (fun _ _ => ⟨rfl, fun _ h => h⟩) s
  · exact .refl s

theorem canopyGrows_stopNlus (st : Nat) (s : State) : CanopyGrows s (stopNlus st s) := by
  refine .foldl _ _ (fun s i => ?_) s
  exact CanopyGrows.trans (.foldl _ _ (fun s r => canopyGrows_markRelaunch r s) s) (.of_canopy rfl)

theorem unitRec_setUnit (u : UnitCode) (st : Nat) (cause : W16) (s : State) :
    unitRec (setUnit u st cause s) u = { st := st, cause := cause, gtNs := BitVec.ofNat 64 (nowNs s) } :=
  mapGetD_mapSet_same _ _ _ _

/-- A cluster that is fenced is out of service, and its reports add to those in transit. -/
theorem fenceCluster_spec (k cause : Nat) (s : State) :
    clusterActive (fenceCluster k cause s) k = false ∧ (∀ r ∈ s.canopy.transit, r ∈ (fenceCluster k cause s).canopy.transit) ∧
      ∀ n, cntGet (fenceCluster k cause s) (cntPwr n) = cntGet s (cntPwr n) := by
  unfold fenceCluster
  by_cases h : clusterActive s k = true
  · rw [h]
    simp only [Bool.not_true, Bool.false_eq_true, if_false]
    have hmark : CanopyGrows (setUnit (unitCode 3 k) 1 (BitVec.ofNat 16 cause) s) (fenceMark (unitCode 3 k) cause s) :=
      CanopyGrows.trans (t := incCnt (cntFlt 3) (setUnit (unitCode 3 k) 1 (BitVec.ofNat 16 cause) s)) (.of_canopy rfl)
        (canopyGrows_reportWith _ _ _ _ _ _ _ _)
    have hreams (u : State) : CanopyGrows u
        (moveCluster k ((List.finRange 256).foldl (fun s c => if c.val / 8 == k then markCoreReams c s else s) u)) := by
      refine CanopyGrows.trans (.foldl _ _ (fun s c => ?_) u) (canopyGrows_moveCluster _ _)
      split
      · exact canopyGrows_markCoreReams _ _
      · exact .refl s
    have hall := hmark.trans (hreams _)
    have hcounters (u : State) : (moveCluster k ((List.finRange 256).foldl (fun s c => if c.val / 8 == k then markCoreReams c s else s) u)).counters
        = u.counters := by
      rw [counters_of_proj (moveCluster_frame (m0 := 32) (by decide) _ _)]
      refine counters_of_proj (K := 32) (foldl_proj _ _ (fun s c => ?_) u)
      split
      · exact markCoreReams_frame (by decide) _ _
      · rfl
    refine ⟨?_, fun r hr => hall.transit r hr, fun n => ?_⟩
    · rw [clusterActive, unitActive, unitRec, hall.units, ← unitRec, unitRec_setUnit]
      rfl
    · rw [cntGet_of_counters (hcounters _), fenceMark, cntGet_of_counters (counters_of_proj (reportWith_frame (m0 := 2147483680) (by decide) _ _ _ _ _ _ _ _))]
      exact cntGet_addCnt_ne _ _ _ (by unfold cntPwr cntFlt; omega)
  · rw [Bool.not_eq_true] at h
    rw [if_pos (by rw [h]; rfl)]
    exact ⟨h, fun _ hr => hr, fun _ => rfl⟩

theorem mem_setIns (k : Nat) (l : List Nat) : (setIns k l).contains k = true := by
  have := contains_setPut true k k l
  simpa [setPut] using this

/-- A stack that is declared lost is lost, and its reports add to those in transit. -/
theorem declareLost_spec (st : StackId) (retired : Bool) (cause : Nat) (s : State) :
    stackLost (declareLost st retired cause s) st.val = true ∧
      (∀ r ∈ s.canopy.transit, r ∈ (declareLost st retired cause s).canopy.transit) := by
  unfold declareLost
  by_cases h : stackLost s st.val = true
  · rw [if_pos h]
    exact ⟨h, fun _ hr => hr⟩
  · rw [if_neg h]
    extract_lets d lost first st' u
    have hstop : CanopyGrows s (stopNlus st.val u) := CanopyGrows.trans (t := u) (.of_canopy rfl) (canopyGrows_stopNlus _ _)
    have hunit (v : State) : ∀ r ∈ v.canopy.transit, r ∈ (setUnit (ucStack st) 2 (BitVec.ofNat 16 cause) v).canopy.transit := fun _ hr => hr
    refine ⟨?_, fun r hr => (canopyGrows_reportWith _ _ _ _ _ _ _ _).transit r (hunit _ r (hstop.transit r hr))⟩
    rw [stackLost, dsm_of_proj (reportWith_frame (m0 := 2147483680) (by decide) _ _ _ _ _ _ _ _), setUnit_dsm,
      dsm_of_proj (stopNlus_frame (m0 := 32800) (by decide) _ _)]
    exact mem_setIns _ _

/-- A lane that fails is lost, and its reports add to those in transit. -/
theorem loseLane_spec (l : Nat) (dark : Bool) (s : State) (hl : l < 16) :
    (getLane (loseLane l dark s) l).lost = true ∧ (∀ r ∈ s.canopy.transit, r ∈ (loseLane l dark s).canopy.transit) ∧
      ∀ n, cntGet (loseLane l dark s) (cntPwr n) = cntGet s (cntPwr n) := by
  have hg : (portOfLane s l).1 < 16 := by
    unfold portOfLane
    split <;> dsimp only <;> omega
  have hlane (x : Lane) (t : State) (ht : t.net.lanes = (setLane l x s).net.lanes) : getLane t l = x := by
    rw [getLane, ht]
    exact getLane_setLane _ _ _
  unfold loseLane
  extract_lets x g u v left
  by_cases hx : x.lost = true
  · rw [if_pos hx]
    exact ⟨hx, fun _ hr => hr, fun _ => rfl⟩
  · rw [if_neg hx]
    have hframe := reportWith_frame (m0 := 2147483680) (by decide) 0x40 (unitCode 8 l) 0 (unitCode 8 l) 0 0 [] u
    have hnet : v.net = u.net := net_of_proj hframe
    have hcounts : ∀ n, cntGet v (cntPwr n) = cntGet s (cntPwr n) := fun n => cntGet_of_counters (counters_of_proj hframe) _
    have htransit : ∀ r ∈ s.canopy.transit, r ∈ v.canopy.transit := (canopyGrows_reportWith _ _ _ _ _ _ _ u).transit
    split
    · exact ⟨by rw [hlane _ v (by rw [hnet])], htransit, hcounts⟩
    · split
      · exact ⟨by rw [hlane _ _ (show (modEPort g _ v).net.lanes = _ by rw [← hnet]; rfl)], htransit, hcounts⟩
      · obtain ⟨hlanes, hkeep⟩ := portDown_keeps 0 v hg
        have hreport := reportWith_frame (m0 := 2147483680) (by decide) 0x41 (unitCode 9 g) 0 (unitCode 9 g) 0 0 [] (portDown g 0 v)
        have hdown := canopy_of_proj (portDown_frame (m0 := 598737920) (by decide) g 0 v)
        refine ⟨?_, fun r hr => ?_, fun n => ?_⟩
        · rw [hlane _ _ (by rw [net_of_proj hreport, hlanes, hnet])]
        · exact (canopyGrows_reportWith _ _ _ _ _ _ _ _).transit r (by rw [hdown]; exact htransit r hr)
        · rw [cntGet_of_counters (counters_of_proj hreport), hkeep, hcounts]

end Sys2Proof.Machine
end

section
/-! PROOFS. Power: wakes that fail, domain by domain. -/

namespace Sys2Proof.Machine

/-! ### WAKE_FAIL (R422) -/

/-- The failure of a domain's wake is counted and reported, with a suspect. -/
def failReport (n : Nat) (suspect : UnitCode) (s : State) : State :=
  reportWith 0x32 suspect 0 (domUnit n) 0 0 [n] (incCnt (cntPwr 2) s)

theorem failReport_frame (n : Nat) (u : UnitCode) (s : State) : proj 2684354592 (failReport n u s) = proj 2684354592 s :=
  (reportWith_frame (by decide) _ _ _ _ _ _ _ _).trans (incCnt_frame (by decide) _ _)

/-- The pipeline's ports go down. -/
def pipeDown (i : Nat) (s : State) : State := (pipePorts s i).foldl (fun s g => portDown g 0 s) s

/-- What a wake that fails does: a core gets a second try and then costs its cluster; a stack is lost; a pipeline's ports go
down; a lane is lost. -/
def wakeFailed (n : Nat) (s : State) : State :=
  if n < 256 then
    if (getDom s n).retried then fenceCluster (n / 8) 0x32 (failReport n (unitCode 3 (n / 8)) s)
    else putDom n { getDom s n with since := now s, retried := true } (failReport n (domUnit n) s)
  else if n < 288 then fenceCluster (n - 256) 0x32 (failReport n (domUnit n) s)
  else if n < 308 then declareLost (stackFin (n - 292)) false 0x32 (failReport n (domUnit n) s)
  else if n < 316 then pipeDown (n - 308) (putDom n { getDom s n with st := 2 } (failReport n (domUnit n) s))
  else loseLane (n - 316) false (putDom n { getDom s n with st := 2 } (failReport n (domUnit n) s))

/-- A wake takes four times its latency. -/
def wakeFails (n : Nat) (s : State) : Prop := domState s n = 3 ∧ wakeNs n ≠ 0 ∧ (getDom s n).since + nsT (4 * wakeNs n) ≤ now s

theorem exec_wakeFail (dom : DomainId) (s : State) :
    (¬ wakeFails dom.val s → exec (.wakeFail dom) s = .next s) ∧
    (wakeFails dom.val s → exec (.wakeFail dom) s = .next (wakeFailed dom.val s)) := by
  have hr : exec (.wakeFail dom) s = if domState s dom.val != 3 || wakeNs dom.val == 0 || now s < (getDom s dom.val).since + nsT (4 * wakeNs dom.val)
      then .next s else .next (wakeFailed dom.val s) := by
    show execWakeFail dom s = _
    unfold execWakeFail wakeFailed
    simp only [apply_ite (Host.Outcome.next (σ := State) (φ := Fault) (ρ := Refusal))]
    cases (getDom s dom.val).retried <;> rfl
  have hb : (domState s dom.val != 3 || wakeNs dom.val == 0 || decide (now s < (getDom s dom.val).since + nsT (4 * wakeNs dom.val))) = true ↔
      ¬ wakeFails dom.val s := by
    simp only [wakeFails, Bool.or_eq_true, bne_iff_ne, beq_iff_eq, decide_eq_true_eq, not_and_or, Nat.not_le, ne_eq, not_not, or_assoc]
  obtain ⟨hno, hyes⟩ := answers_of_iff hr hb
  exact ⟨hno, fun h => hyes (not_not.2 h)⟩

/-- A failed wake of a domain is among the reports in transit. -/
def failReported (n : Nat) (suspect : UnitCode) (t : State) : Prop :=
  ∃ r ∈ t.canopy.transit, r.2.code = 0x32 ∧ r.2.suspect = suspect ∧ r.2.reporter = domUnit n

theorem failReported_mono {n : Nat} {u : UnitCode} {s t : State} (h : failReported n u s)
    (ht : ∀ r ∈ s.canopy.transit, r ∈ t.canopy.transit) : failReported n u t := by
  obtain ⟨r, hr, hreport⟩ := h
  exact ⟨r, ht r hr, hreport⟩

theorem failReport_spec (n : Nat) (u : UnitCode) (s : State) : failReported n u (failReport n u s) ∧
    (failReport n u s).counters = (incCnt (cntPwr 2) s).counters := by
  have hframe := reportWith_frame (m0 := 2147483680) (by decide) 0x32 u 0 (domUnit n) 0 0 [n] (incCnt (cntPwr 2) s)
  obtain ⟨r, hcanopy, hcode, hsuspect, hreporter⟩ := reportWith_canopy 0x32 u 0 (domUnit n) 0 0 [n] (incCnt (cntPwr 2) s)
  refine ⟨⟨(reportNode (domUnit n), r), ?_, hcode, hsuspect, hreporter⟩, counters_of_proj hframe⟩
  rw [failReport, hcanopy]
  exact List.mem_append_right _ (by simp)

/-- A count of one that nothing else moves. -/
theorem counted_failReport {n : Nat} {u : UnitCode} {s t : State}
    (h : cntGet t (cntPwr 2) = cntGet (failReport n u s) (cntPwr 2)) : counted (cntPwr 2) 1 s t := by
  obtain ⟨-, hcounters⟩ := failReport_spec n u s
  rw [counted, h, cntGet_of_counters hcounters]
  exact cntGet_addCnt _ _ _ (by decide)

theorem wakeFailed_first {n : Nat} {s : State} (hn : n < 256) (hr : (getDom s n).retried = false) :
    let t := wakeFailed n s
    counted (cntPwr 2) 1 s t ∧ failReported n (domUnit n) t ∧ getDom t n = { getDom s n with since := now s, retried := true } ∧
      t = { s with pwr := { s.pwr with doms := t.pwr.doms }, canopy := t.canopy, counters := t.counters, fresh := t.fresh } := by
  obtain ⟨hreported, -⟩ := failReport_spec n (domUnit n) s
  have hparts : failReport n (domUnit n) s = { s with
      canopy := (failReport n (domUnit n) s).canopy, counters := (failReport n (domUnit n) s).counters
      fresh := (failReport n (domUnit n) s).fresh } :=
    eq_withParts (failReport_frame n (domUnit n) s)
  have ht : wakeFailed n s = putDom n { getDom s n with since := now s, retried := true } (failReport n (domUnit n) s) := by
    rw [wakeFailed, if_pos hn, hr, if_neg Bool.false_ne_true]
  rw [ht]
  refine ⟨counted_failReport (n := n) (u := domUnit n) rfl, hreported, getDom_putDom _ _ _, ?_⟩
  generalize failReport n (domUnit n) s = u at hparts
  rw [hparts]
  rfl

/-- The fence of a cluster for a wake that failed. -/
theorem fenced_failReport (n k : Nat) (u : UnitCode) (s : State) :
    let t := fenceCluster k 0x32 (failReport n u s)
    counted (cntPwr 2) 1 s t ∧ failReported n u t ∧ clusterActive t k = false := by
  obtain ⟨hfenced, htransit, hcounts⟩ := fenceCluster_spec k 0x32 (failReport n u s)
  exact ⟨counted_failReport (hcounts 2), failReported_mono (failReport_spec n u s).1 htransit, hfenced⟩

theorem wakeFailed_again {n : Nat} {s : State} (hn : n < 256) (hr : (getDom s n).retried = true) :
    let t := wakeFailed n s
    counted (cntPwr 2) 1 s t ∧ failReported n (unitCode 3 (n / 8)) t ∧ clusterActive t (n / 8) = false := by
  have ht : wakeFailed n s = fenceCluster (n / 8) 0x32 (failReport n (unitCode 3 (n / 8)) s) := by
    rw [wakeFailed, if_pos hn, hr, if_pos rfl]
  rw [ht]
  exact fenced_failReport _ _ _ _

theorem wakeFailed_cluster {n : Nat} (s : State) (hn : 256 ≤ n) (hn' : n < 288) :
    let t := wakeFailed n s
    counted (cntPwr 2) 1 s t ∧ failReported n (domUnit n) t ∧ clusterActive t (n - 256) = false := by
  rw [wakeFailed, if_neg (by omega), if_pos hn']
  exact fenced_failReport _ _ _ _

theorem wakeFailed_stack {n : Nat} (s : State) (hn : 292 ≤ n) (hn' : n < 308) :
    let t := wakeFailed n s
    counted (cntPwr 2) 1 s t ∧ failReported n (domUnit n) t ∧ stackLost t (n - 292) = true := by
  have hst : (stackFin (n - 292)).val = n - 292 := Nat.mod_eq_of_lt (by omega)
  obtain ⟨hlost, htransit⟩ := declareLost_spec (stackFin (n - 292)) false 0x32 (failReport n (domUnit n) s)
  rw [wakeFailed, if_neg (by omega), if_neg (by omega), if_pos hn']
  rw [hst] at hlost
  exact ⟨counted_failReport (cntGet_of_counters (counters_of_proj (declareLost_frame (m0 := 2147532832) (by decide) _ _ _ _)) _),
    failReported_mono (failReport_spec n _ s).1 htransit, hlost⟩

/-- The domain of a pipeline or a lane falls asleep again as its wake fails. -/
def failAsleep (n : Nat) (s : State) : State := putDom n { getDom s n with st := 2 } (failReport n (domUnit n) s)

theorem pipePorts_failAsleep (n i : Nat) (s : State) : pipePorts (failAsleep n s) i = pipePorts s i := by
  have h : failAsleep n s = { s with
      pwr := (failAsleep n s).pwr, canopy := (failAsleep n s).canopy, counters := (failAsleep n s).counters, fresh := (failAsleep n s).fresh } :=
    eq_withParts (m := 2751463456) ((putDom_frame (by decide) _ _ _).trans
      (proj_mono (by decide) (failReport_frame _ _ _)))
  rw [h]
  rfl

theorem pipePorts_lt {s : State} {i g : Nat} (h : g ∈ pipePorts s i) : g < 16 := by
  have hport := (List.mem_filter.1 h).2
  simp only [isPort, Bool.and_eq_true, decide_eq_true_eq] at hport
  exact hport.1.1

theorem wakeFailed_pipe {n : Nat} (s : State) (hn : 308 ≤ n) (hn' : n < 316) :
    let t := wakeFailed n s
    counted (cntPwr 2) 1 s t ∧ failReported n (domUnit n) t ∧ (getDom t n).st = 2 ∧ ∀ g ∈ pipePorts s (n - 308), (getEPort t g).st = 0 := by
  have ht : wakeFailed n s = (pipePorts s (n - 308)).foldl (fun s g => portDown g 0 s) (failAsleep n s) := by
    rw [wakeFailed, if_neg (by omega), if_neg (by omega), if_neg (by omega), if_pos hn', pipeDown, ← failAsleep, pipePorts_failAsleep]
  have hframe := foldl_proj (K := 598737920) (pipePorts s (n - 308)) (fun s g => portDown g 0 s) (fun s g => portDown_frame (by decide) g 0 s)
    (failAsleep n s)
  obtain ⟨hdown, hcounts⟩ := foldl_portDown (pipePorts s (n - 308)) (fun g => pipePorts_lt) (failAsleep n s)
  rw [ht]
  refine ⟨counted_failReport (n := n) (u := domUnit n) (hcounts 2), failReported_mono (s := failAsleep n s) (failReport_spec n _ s).1 ?_, ?_,
    fun g hg => hdown g (.inl hg)⟩
  · rw [canopy_of_proj hframe]
    exact fun _ hr => hr
  · rw [getDom_of_pwr (pwr_of_proj hframe), failAsleep, getDom_putDom]

theorem wakeFailed_lane {n : Nat} (s : State) (hn : 316 ≤ n) (hn' : n < 332) :
    let t := wakeFailed n s
    counted (cntPwr 2) 1 s t ∧ failReported n (domUnit n) t ∧ (getDom t n).st = 2 ∧ (getLane t (n - 316)).lost = true := by
  have ht : wakeFailed n s = loseLane (n - 316) false (failAsleep n s) := by
    rw [wakeFailed, if_neg (by omega), if_neg (by omega), if_neg (by omega), if_neg (by omega), ← failAsleep]
  obtain ⟨hlost, htransit, hcounts⟩ := loseLane_spec (n - 316) false (failAsleep n s) (by omega)
  rw [ht]
  refine ⟨counted_failReport (n := n) (u := domUnit n) (hcounts 2), failReported_mono (s := failAsleep n s) (failReport_spec n _ s).1 htransit,
    ?_, hlost⟩
  rw [getDom_of_pwr (pwr_of_proj (loseLane_frame (m0 := 2746221600) (by decide) _ _ _)), failAsleep, getDom_putDom]

/-- A domain whose wake can fail is a core, a cluster, a stack, a pipeline or a lane. -/
theorem wakeNs_ne_zero {n : Nat} (h : wakeNs n ≠ 0) : n < 288 ∨ 292 ≤ n ∧ n < 332 := by
  by_contra hn
  refine h ?_
  unfold wakeNs
  rw [if_neg (by omega), if_neg (by omega)]
  split
  · rfl
  · rw [if_neg (by omega), if_neg (by omega), if_neg (by omega)]

theorem wakeFail_spec (dom : DomainId) (s : State) :
    let n := dom.val
    let d := getDom s n
    let failed : Prop := domState s n = 3 ∧ wakeNs n ≠ 0 ∧ d.since + nsT (4 * wakeNs n) ≤ now s
    (¬ failed → exec (.wakeFail dom) s = .next s) ∧
    (failed → ∃ t, exec (.wakeFail dom) s = .next t ∧ t = { s with
        canopy := t.canopy, slots := t.slots, dsm := t.dsm, nlus := t.nlus, reams := t.reams, net := t.net
        rqt := t.rqt, adm := t.adm, grp := t.grp, pwr := t.pwr, counters := t.counters, fresh := t.fresh } ∧ counted (cntPwr 2) 1 s t ∧
      (n < 256 → d.retried = false → failReported n (domUnit n) t ∧ getDom t n = { d with since := now s, retried := true } ∧
        t = { s with pwr := { s.pwr with doms := t.pwr.doms }, canopy := t.canopy, counters := t.counters, fresh := t.fresh }) ∧
      (n < 256 → d.retried = true → failReported n (unitCode 3 (n / 8)) t ∧ clusterActive t (n / 8) = false) ∧
      (256 ≤ n → n < 288 → failReported n (domUnit n) t ∧ clusterActive t (n - 256) = false) ∧
      (292 ≤ n → n < 308 → failReported n (domUnit n) t ∧ stackLost t (n - 292) = true) ∧
      (308 ≤ n → n < 316 → failReported n (domUnit n) t ∧ (getDom t n).st = 2 ∧ ∀ g ∈ pipePorts s (n - 308), (getEPort t g).st = 0) ∧
      (316 ≤ n → n < 332 → failReported n (domUnit n) t ∧ (getDom t n).st = 2 ∧ (getLane t (n - 316)).lost = true)) := by
  intro n d failed
  obtain ⟨hno, hyes⟩ := exec_wakeFail dom s
  refine ⟨hno, fun h => ⟨wakeFailed n s, hyes h, eq_withParts (execWakeFail_frame (m0 := 2813379616) (by decide) dom s _ (hyes h)), ?_,
    fun hn hr => (wakeFailed_first hn hr).2, fun hn hr => (wakeFailed_again hn hr).2, fun hn hn' => (wakeFailed_cluster s hn hn').2,
    fun hn hn' => (wakeFailed_stack s hn hn').2, fun hn hn' => (wakeFailed_pipe s hn hn').2, fun hn hn' => (wakeFailed_lane s hn hn').2⟩⟩
  obtain ⟨-, hlatency, -⟩ := h
  have hrange := wakeNs_ne_zero hlatency
  by_cases hcore : n < 256
  · cases hr : (getDom s n).retried
    · exact (wakeFailed_first hcore hr).1
    · exact (wakeFailed_again hcore hr).1
  by_cases hcluster : n < 288
  · exact (wakeFailed_cluster s (by omega) hcluster).1
  by_cases hstack : n < 308
  · exact (wakeFailed_stack s (by omega) hstack).1
  by_cases hpipe : n < 316
  · exact (wakeFailed_pipe s (by omega) hpipe).1
  · exact (wakeFailed_lane s (by omega) (by omega)).1

end Sys2Proof.Machine
end

section
/-! PROOFS. Power: stretching, the power cap, temperature, AVS and the quiet clock. -/

namespace Sys2Proof.Machine

/-! ### Stretching (R423) -/

/-- A change of the stretch notes the domains that it slows and leaves all else. -/
theorem setStretch_eq (f : Stretch → Stretch) (s : State) :
    setStretch f s = { s with stretch := f s.stretch, freeze := (setStretch f s).freeze } := rfl

theorem setStretch_stretch (f : Stretch → Stretch) (s : State) : (setStretch f s).stretch = f s.stretch := rfl

theorem setStretch_pwr (f : Stretch → Stretch) (s : State) : (setStretch f s).pwr = s.pwr := rfl

/-- The end of a cluster's stretch counts its suppressed edges, for the package and for the cluster. -/
theorem countStretch_counts {k : Nat} (s : State) (hk : k < 32) : ∃ v, counted (cntPwr 4) v s (countStretch k s) ∧
    counted (cntCluster k 1) v s (countStretch k s) ∧ cntsKeep [cntPwr 4, cntCluster k 1] s (countStretch k s) := by
  have hne : cntPwr 4 ≠ cntCluster k 1 := by unfold cntPwr cntCluster; omega
  have hcluster : cntCluster k 1 ≠ 19666 ∧ cntCluster k 1 ≠ 19667 := by unfold cntCluster; omega
  refine ⟨Config.free s.fresh % 2 ^ 48, ?_, ?_, fun j hj => ?_⟩
  · exact (cntGet_addCnt _ _ _ (by decide)).trans (by rw [cntGet_addCnt_ne _ _ _ hne]; rfl)
  · exact (cntGet_addCnt_ne _ _ _ hne.symm).trans (cntGet_addCnt _ _ _ hcluster)
  · simp only [List.mem_cons, List.not_mem_nil, or_false, not_or] at hj
    exact (cntGet_addCnt_ne _ _ _ hj.1).trans (cntGet_addCnt_ne _ _ _ hj.2)

/-- Stretches that end together count nothing of the cap or the throttle. -/
theorem foldl_countStretch (l : List Nat) (p : Nat → Bool) (hl : ∀ k ∈ l, k < 32) (s : State) {n : Nat} (hn : n ≠ 4) :
    cntGet (l.foldl (fun s k => if p k then countStretch k s else s) s) (cntPwr n) = cntGet s (cntPwr n) := by
  induction l generalizing s with
  | nil => rfl
  | cons k l ih =>
    have hk : k < 32 := hl k (by simp)
    rw [List.foldl_cons, ih (fun j hj => hl j (by simp [hj]))]
    split
    · obtain ⟨_, -, -, hkeep⟩ := countStretch_counts s hk
      refine hkeep _ ?_
      simp only [List.mem_cons, List.not_mem_nil, or_false, not_or]
      unfold cntPwr cntCluster
      omega
    · rfl

theorem droop_spec (k : ClusterId) (s : State) :
    ((∃ p ∈ s.stretch.droop, p.1 = k.val) → exec (.droop k) s = .next s) ∧
    ((∀ p ∈ s.stretch.droop, p.1 ≠ k.val) → ∃ t, exec (.droop k) s = .next t ∧
      t = { s with stretch := { s.stretch with droop := mapSet k.val (now s) s.stretch.droop }, freeze := t.freeze, counters := t.counters } ∧
      counted (cntPwr 3) 1 s t ∧ cntsKeep [cntPwr 3] s t) := by
  have hb : s.stretch.droop.any (fun p => p.1 == k.val) = true ↔ ∃ p ∈ s.stretch.droop, p.1 = k.val := by simp
  obtain ⟨hyes, hno⟩ := answers_of_iff (r := exec (.droop k) s) rfl hb
  refine ⟨hyes, fun h => ⟨_, hno (fun ⟨p, hp, e⟩ => h p hp e), ?_, cntGet_addCnt _ _ _ (by decide),
    fun j hj => cntGet_addCnt_ne _ _ _ (by simpa using hj)⟩⟩
  rw [setStretch_eq]
  rfl

theorem droopRecover_spec {k : ClusterId} {s : State} {a : Nat} (h : mapGet k.val s.stretch.droop = some a) :
    (now s < a + nsT 100 → exec (.droopRecover k) s = .next s) ∧
    (a + nsT 100 ≤ now s → ∃ t v, exec (.droopRecover k) s = .next t ∧
      t = { s with stretch := t.stretch, freeze := t.freeze, counters := t.counters, fresh := t.fresh, pwr := t.pwr } ∧ t.pwr = s.pwr ∧
      t.stretch = { s.stretch with droop := mapDel k.val s.stretch.droop } ∧ cntsKeep [cntPwr 4, cntCluster k.val 1] s t ∧
      counted (cntPwr 4) v s t ∧ counted (cntCluster k.val 1) v s t) := by
  have he : exec (.droopRecover k) s = if now s < a + nsT 100 then .next s
      else .next (countStretch k.val (setStretch (fun x => { x with droop := mapDel k.val x.droop }) s)) := by
    show execDroopRecover k s = _
    rw [execDroopRecover, h]
  refine ⟨fun hlt => by rw [he, if_pos hlt], fun hle => ?_⟩
  have hframe := countStretch_frame (m0 := 2684354560) (by decide) k.val (setStretch (fun x => { x with droop := mapDel k.val x.droop }) s)
  obtain ⟨v, hpower, hcluster, hkeep⟩ := countStretch_counts (setStretch (fun x => { x with droop := mapDel k.val x.droop }) s) k.isLt
  have hpwr := pwr_of_proj hframe
  have hstretch := stretch_of_proj hframe
  refine ⟨_, v, by rw [he, if_neg (by omega)], ?_, hpwr, hstretch, hkeep, hpower, hcluster⟩
  exact eq_withParts (m := 2751468032) ((proj_mono (by decide) hframe).trans (setStretch_frame (by decide) _ _))

/-- The stretches of some clusters end together. -/
def endStretches (p : Nat → Bool) (s : State) : State := (List.range 32).foldl (fun s k => if p k then countStretch k s else s) s

theorem endStretches_frame (p : Nat → Bool) (s : State) : proj 2684354560 (endStretches p s) = proj 2684354560 s :=
  foldl_proj _ _ (fun s k => ite_proj (countStretch_frame (by decide) k s) rfl) s

theorem cntGet_endStretches (p : Nat → Bool) (s : State) {n : Nat} (hn : n ≠ 4) :
    cntGet (endStretches p s) (cntPwr n) = cntGet s (cntPwr n) :=
  foldl_countStretch _ p (fun _ hk => List.mem_range.1 hk) s hn

/-! ### The power cap (R424) -/

/-- A counter that rises by one where a condition holds. -/
def countIf (b : Bool) (k : Nat) (s : State) : State := if b then incCnt k s else s

theorem countIf_frame (b : Bool) (k : Nat) (s : State) : proj 536870912 (countIf b k s) = proj 536870912 s :=
  ite_proj (incCnt_frame (by decide) _ _) rfl

theorem cntGet_countIf_ne {j k : Nat} (b : Bool) (s : State) (hj : j ≠ k) : cntGet (countIf b k s) j = cntGet s j := by
  cases b
  · rfl
  · exact cntGet_addCnt_ne _ _ _ hj

/-- A window counts the time under the cap and under the throttle. -/
def windowCounts (s : State) : State := countIf (!s.stretch.thermal.isEmpty) (cntPwr 6) (countIf s.stretch.cap (cntPwr 5) s)

theorem windowCounts_frame (s : State) : proj 536870912 (windowCounts s) = proj 536870912 s :=
  (countIf_frame _ _ _).trans (countIf_frame _ _ _)

theorem countedEach_congr {k n : Nat} {s s' t t' : State} (h : countedEach k n s t) (hs : cntGet s' k = cntGet s k)
    (ht : cntGet t' k = cntGet t k) : countedEach k n s' t' := by
  simpa only [countedEach, counted, hs, ht] using h

theorem windowCounts_counts (s : State) : countedEach (cntPwr 5) (b2n s.stretch.cap) s (windowCounts s) ∧
    countedEach (cntPwr 6) (b2n (!s.stretch.thermal.isEmpty)) s (windowCounts s) ∧ cntsKeep [cntPwr 5, cntPwr 6] s (windowCounts s) := by
  have hcap : countedEach (cntPwr 5) (b2n s.stretch.cap) s (countIf s.stretch.cap (cntPwr 5) s) := countedEach_b2n _ _ (by decide)
  have hthermal : countedEach (cntPwr 6) (b2n (!s.stretch.thermal.isEmpty)) (countIf s.stretch.cap (cntPwr 5) s) (windowCounts s) :=
    countedEach_b2n _ _ (by decide)
  refine ⟨countedEach_congr hcap rfl (cntGet_countIf_ne _ _ (by decide)),
    countedEach_congr hthermal (cntGet_countIf_ne _ _ (by decide)).symm rfl, fun j hj => ?_⟩
  simp only [List.mem_cons, List.not_mem_nil, or_false, not_or] at hj
  exact (cntGet_countIf_ne _ _ hj.2).trans (cntGet_countIf_ne _ _ hj.1)

/-- Whether the cap stretches after a window of average `w`: it starts above the limit and ends below 95 % of it. -/
def capAfter (s : State) (w : Nat) : Bool :=
  let limit := regF s 0x200010 0 10 0
  if s.stretch.cap then decide (95 * limit ≤ 100 * w) else decide (limit < w)

/-- The state with a window's average taken. -/
def windowTaken (w : Nat) (s : State) : State :=
  { windowCounts s with pwr := { s.pwr with watts := w, peak := max s.pwr.peak w, window := some (nowNs s / 1000000) } }

/-- The state after a window, before the cap is noted. -/
def windowEnds (w : Nat) (s : State) : State :=
  if s.stretch.cap && !capAfter s w then endStretches (fun _ => true) (windowTaken w s) else windowTaken w s

theorem exec_powerCapWindow (w : BitVec 11) (s : State) : exec (.powerCapWindow w) s =
    if s.pwr.window == some (nowNs s / 1000000) then .next s
    else .next (setStretch (fun x => { x with cap := capAfter s w.toNat }) (windowEnds w.toNat s)) := by
  show execPowerCapWindow w s = _
  have hlt (a b : Nat) : (!decide (a < b)) = decide (b ≤ a) := by rw [← decide_not]; simp only [Nat.not_lt]
  unfold execPowerCapWindow windowEnds windowTaken windowCounts countIf capAfter endStretches
  cases hcap : s.stretch.cap <;> cases hthermal : s.stretch.thermal.isEmpty <;>
    simp [hcap, hthermal, hlt]

theorem windowTaken_eq (w : Nat) (s : State) : windowTaken w s = { s with
    pwr := { s.pwr with watts := w, peak := max s.pwr.peak w, window := some (nowNs s / 1000000) }, counters := (windowCounts s).counters } := by
  have hparts : windowCounts s = { s with counters := (windowCounts s).counters } := eq_withParts (windowCounts_frame s)
  unfold windowTaken
  generalize windowCounts s = u at hparts
  rw [hparts]

/-- What the window's end leaves for the cap's stretch to be noted in. -/
theorem windowEnds_keeps (w : Nat) (s : State) :
    (windowEnds w s).stretch = s.stretch ∧ (windowEnds w s).pwr = (windowTaken w s).pwr ∧
    ∀ n, n ≠ 4 → cntGet (windowEnds w s) (cntPwr n) = cntGet (windowTaken w s) (cntPwr n) := by
  have hframe : proj 2684354560 (windowEnds w s) = proj 2684354560 (windowTaken w s) := ite_proj (endStretches_frame _ _) rfl
  refine ⟨(stretch_of_proj hframe).trans (by rw [windowTaken_eq]), pwr_of_proj hframe, fun n hn => ?_⟩
  unfold windowEnds
  split
  · exact cntGet_endStretches _ _ hn
  · rfl

theorem windowEnds_still {w : Nat} {s : State} (h : s.stretch.cap = false ∨ capAfter s w = true) : windowEnds w s = windowTaken w s := by
  refine if_neg ?_
  rcases h with h | h <;> simp [h]

theorem powerCapWindow_spec (w : BitVec 11) (s : State) :
    let ms := nowNs s / 1000000
    let limit := regF s 0x200010 0 10 0
    let cap : Bool := if s.stretch.cap then decide (95 * limit ≤ 100 * w.toNat) else decide (limit < w.toNat)
    (s.pwr.window = some ms → exec (.powerCapWindow w) s = .next s) ∧
    (s.pwr.window ≠ some ms → ∃ t, exec (.powerCapWindow w) s = .next t ∧ t = { s with
        stretch := t.stretch, freeze := t.freeze, counters := t.counters, fresh := t.fresh, pwr := t.pwr } ∧ t.stretch = { s.stretch with cap := cap } ∧
      t.pwr = { s.pwr with watts := w.toNat, peak := max s.pwr.peak w.toNat, window := some ms } ∧
      countedEach (cntPwr 5) (b2n s.stretch.cap) s t ∧ countedEach (cntPwr 6) (b2n (!s.stretch.thermal.isEmpty)) s t ∧
      (s.stretch.cap = false ∨ cap = true → cntsKeep [cntPwr 5, cntPwr 6] s t ∧ t.fresh = s.fresh)) := by
  intro ms limit cap
  have hb : (s.pwr.window == some ms) = true ↔ s.pwr.window = some ms := beq_iff_eq
  obtain ⟨hyes, hno⟩ := answers_of_iff (exec_powerCapWindow w s) hb
  obtain ⟨hstretch, hpwr, hcounts⟩ := windowEnds_keeps w.toNat s
  obtain ⟨hcap, hthermal, hkeep⟩ := windowCounts_counts s
  have htaken (k : Nat) : cntGet (windowTaken w.toNat s) k = cntGet (windowCounts s) k := rfl
  refine ⟨hyes, fun h => ⟨_, hno h, eq_withParts (execPowerCapWindow_frame (m0 := 2751468032) (by decide) w s _ (hno h)), ?_,
    hpwr.trans (by rw [windowTaken_eq]), countedEach_congr hcap rfl (hcounts 5 (by decide)),
    countedEach_congr hthermal rfl (hcounts 6 (by decide)), fun hstill => ?_⟩⟩
  · rw [setStretch_stretch, hstretch]
    rfl
  · rw [windowEnds_still hstill, setStretch_eq]
    exact ⟨hkeep, by rw [windowTaken_eq]⟩

/-! ### Temperature (R424, R483) -/

theorem thermal_spec (d : Fin 6) (temp : Byte) (s : State) :
    let limit := regF s 0x200018 0 7 0
    let hot : State := { s with pwr := { s.pwr with temps := famSet s.pwr.temps d.val temp.toNat } }
    (temp.toNat < limit → exec (.thermalThrottle d temp) s = .next hot) ∧
    (limit ≤ temp.toNat → ∃ t, exec (.thermalThrottle d temp) s = .next t ∧
      t = { hot with stretch := { s.stretch with thermal := setIns d.val s.stretch.thermal }, freeze := t.freeze }) ∧
    (limit < temp.toNat + 5 ∨ d.val ∉ s.stretch.thermal → exec (.thermalRelease d temp) s = .next hot) ∧
    (temp.toNat + 5 ≤ limit → d.val ∈ s.stretch.thermal → ∃ t, exec (.thermalRelease d temp) s = .next t ∧ t = { s with
        stretch := t.stretch, freeze := t.freeze, counters := t.counters, fresh := t.fresh, pwr := t.pwr } ∧
      t.pwr = hot.pwr ∧ t.stretch = { s.stretch with thermal := setDel d.val s.stretch.thermal }) ∧
    ∃ t, exec (.thermtrip d) s = .next t ∧
      t = { s with pwr := { s.pwr with temps := famSet s.pwr.temps d.val 120, trip := true } } := by
  intro limit hot
  have hthrottle : exec (.thermalThrottle d temp) s = if temp.toNat < limit then .next hot
      else .next (setStretch (fun x => { x with thermal := setIns d.val x.thermal }) hot) := rfl
  have hrelease : exec (.thermalRelease d temp) s = if limit < temp.toNat + 5 || !s.stretch.thermal.contains d.val then .next hot
      else .next (setStretch (fun x => { x with thermal := setDel d.val x.thermal }) (endStretches (fun k => k / 8 == d.val) hot)) := rfl
  have hb : (limit < temp.toNat + 5 || !s.stretch.thermal.contains d.val) = true ↔ limit < temp.toNat + 5 ∨ d.val ∉ s.stretch.thermal := by
    simp only [Bool.or_eq_true, decide_eq_true_eq, Bool.not_eq_true', List.contains_eq_mem, decide_eq_false_iff_not]
  obtain ⟨hhot, hcool⟩ := answers_of_iff hrelease hb
  have hframe := endStretches_frame (fun k => k / 8 == d.val) hot
  refine ⟨fun h => by rw [hthrottle, if_pos h], fun h => ⟨_, by rw [hthrottle, if_neg (by omega)], ?_⟩, hhot, fun h hd => ?_, _, rfl, rfl⟩
  · rw [setStretch_eq]
  · have hnext := hcool (fun hc => hc.elim (by omega) (fun hout => hout hd))
    refine ⟨_, hnext, eq_withParts (execThermalRelease_frame (m0 := 2751468032) (by decide) d temp s _ hnext), ?_, ?_⟩
    · rw [setStretch_pwr, pwr_of_proj hframe]
    · rw [setStretch_stretch, stretch_of_proj hframe]

/-! ### AVS (R480) -/

/-- The state with a die's failures in succession noted. -/
def putAvsFails (d : CDie) (v : Nat) (s : State) : State := { s with pwr := { s.pwr with avsFails := mapSetD 0 d.val v s.pwr.avsFails } }

theorem avsFails_putAvsFails (d : CDie) (v : Nat) (s : State) : mapGetD 0 d.val (putAvsFails d v s).pwr.avsFails = v :=
  mapGetD_mapSetD_same _ _ _ _

theorem avsRetry_spec (d : CDie) (s : State) :
    let n := mapGetD 0 d.val s.pwr.avsFails
    let framed (t : State) : Prop := t = { s with
      stretch := t.stretch, freeze := t.freeze, counters := t.counters, fresh := t.fresh, pwr := t.pwr }
    (∃ t, exec (.avsRetry d false) s = .next t ∧ framed t ∧ t.counters = s.counters ∧
      mapGetD 0 d.val t.pwr.avsFails = min (n + 1) 3 ∧
      t.stretch = if 2 ≤ n then { s.stretch with avs := setIns d.val s.stretch.avs } else s.stretch) ∧
    (∃ t, exec (.avsRetry d true) s = .next t ∧ framed t ∧ mapGetD 0 d.val t.pwr.avsFails = 0 ∧
      t.stretch = { s.stretch with avs := setDel d.val s.stretch.avs } ∧ (d.val ∉ s.stretch.avs → t.counters = s.counters)) := by
  intro n framed
  have hfails : exec (.avsRetry d false) s = .next (if 2 ≤ n then setStretch (fun x => { x with avs := setIns d.val x.avs })
      (putAvsFails d (min (n + 1) 3) s) else putAvsFails d (min (n + 1) 3) s) := rfl
  have hacked : exec (.avsRetry d true) s = .next (setStretch (fun x => { x with avs := setDel d.val x.avs })
      (putAvsFails d 0 (if s.stretch.avs.contains d.val then endStretches (fun k => k / 8 == d.val) s else s))) := rfl
  have hframed (b : Bool) (t : State) (h : exec (.avsRetry d b) s = .next t) : framed t :=
    eq_withParts (execAvsRetry_frame (m0 := 2751468032) (by decide) d b s _ h)
  refine ⟨⟨_, hfails, hframed _ _ hfails, ?_⟩, ⟨_, hacked, hframed _ _ hacked, ?_, ?_, fun hd => ?_⟩⟩
  · split
    · exact ⟨rfl, avsFails_putAvsFails _ _ _, rfl⟩
    · exact ⟨rfl, avsFails_putAvsFails _ _ _, rfl⟩
  · rw [setStretch_pwr, avsFails_putAvsFails]
  · have hframe : proj 2684354560 (if s.stretch.avs.contains d.val then endStretches (fun k => k / 8 == d.val) s else s) =
        proj 2684354560 s := ite_proj (endStretches_frame _ _) rfl
    rw [setStretch_stretch, putAvsFails, stretch_of_proj hframe]
  · rw [if_neg (by simpa using hd)]
    rfl

/-! ### The quiet clock (R415) -/

theorem qclkUnlock_spec (s : State) : ∃ t, exec .qclkUnlock s = .next t ∧
    t = { s with pwr := { s.pwr with qclk := false }, regs := t.regs, grp := { s.grp with stopped := true } } ∧
    bit (regW t 0x200000 0) 3 = true ∧ regsKeep [regKey 0x200000 0] s t := by
  refine ⟨_, rfl, rfl, ?_, fun k hk => setSticky_regs_ne _ (by simpa using hk)⟩
  exact (bit_setSticky 0x200000 0 3 3 { s with pwr := { s.pwr with qclk := false } } (by decide)).trans (by simp)

/-- Settles O53: each command by the lemma that says what it does. -/
theorem power : Obligations.Power := by
  intro s
  refine ⟨fun c => coreSleep_spec c s, fun k => clusterSleep_spec k s, fun st => stackSelfRefresh_spec st s, fun l => laneStandby_spec l s,
    fun dom => ?_, fun k => ⟨(droop_spec k s).1, (droop_spec k s).2, fun _ h => droopRecover_spec h⟩, fun w => powerCapWindow_spec w s,
    fun d temp => thermal_spec d temp s, fun d => avsRetry_spec d s, qclkUnlock_spec s, _, rfl, rfl⟩
  obtain ⟨hstays, hasleep⟩ := sleepEntryEnd_spec dom s
  obtain ⟨hnamed, hunnamed⟩ := prewake_spec dom s
  obtain ⟨hwaking, hawake⟩ := wakeEnd_spec dom s
  obtain ⟨hwaits, hfailed⟩ := wakeFail_spec dom s
  exact ⟨hstays, hasleep, hnamed, hunnamed, demandWake_spec dom s, hwaking, hawake, hwaits, hfailed⟩

end Sys2Proof.Machine
end

section
/-! PROOFS. A fence by software on a worker, which hands over. -/

namespace Sys2Proof.Machine

/-- A worker in service whose port H0 holds HIF_SEM. CORE_LIMIT is 1, core 1 is fenced, FLT_FENCE_CMD names core 0, and a share
of ream 1 waits for its launch edge at 100 ns with a launch entry. -/
def fencingWorker : State :=
  { State.reset with
    canopy := { State.reset.canopy with units := [(0x2001, { st := 1, cause := 0x50, gtNs := 0 })] }
    host := { HostState.reset with sem := { Sem.free with owner := some .h0, leaseEnd := 1 }, launch := [(5, 100)] }
    reams := [{ bareReam 100 with sealed_ := true, entries := [5], share := some (0, 0) }]
    grp := { State.reset.grp with role := 2 }
    regs := [(regKey 0x300004 0, 1), (regKey 0x300008 0, 0x2000)] }

set_option maxRecDepth 100000 in
/-- The second fenced core brings about the handover, by which the worker gives up its share and the launch entry (R410 to
R412). -/
theorem fenceCmd_fencingWorker : ∃ t, exec (.fenceCmd .h0) fencingWorker = .next t ∧ t.host.launch = [] :=
  ⟨_, rfl, by decide +kernel⟩

/-- Refutes O52 at its clause that FENCE_CMD leaves the host interface: where the fence hands over a worker, the launch entries
of the shares that it gives up are free. -/
theorem not_fences : ¬ Obligations.Fences := by
  intro h
  obtain ⟨-, hheld, -⟩ := h fencingWorker
  obtain ⟨-, hfence, -⟩ := hheld .h0 (by decide +kernel) (by decide +kernel)
  obtain ⟨t, ht, -, hhost, -⟩ := hfence (by decide +kernel)
  obtain ⟨u, hu, hfree⟩ := fenceCmd_fencingWorker
  obtain rfl : t = u := by rw [ht] at hu; exact Host.Outcome.next.inj hu
  have hkept : t.host.launch = [(5, 100)] := by rw [hhost]; rfl
  exact absurd (hfree.symm.trans hkept) (by decide)

end Sys2Proof.Machine
end

section
/-! PROOFS. Fences of engines, cores and clusters: units in service, reports on their way, and counters. -/

namespace Sys2Proof.Machine

/-- What fencing does beside moving work: units that are out of service stay so, its reports follow those on their way, and
only fences are counted. -/
structure Fencing (s t : State) : Prop where
  out : ∀ u, unitActive s u = false → unitActive t u = false
  sent : ∃ rest, t.canopy.transit = s.canopy.transit ++ rest
  counts : ∀ i, i ≠ cntFlt 3 → cntGet t i = cntGet s i

theorem unitRec_of_units {s t : State} (h : t.canopy.units = s.canopy.units) (u : UnitCode) : unitRec t u = unitRec s u := by
  rw [unitRec, h, unitRec]

namespace Fencing

theorem of_parts {s t : State} (hu : t.canopy.units = s.canopy.units) (hr : t.canopy.transit = s.canopy.transit)
    (hc : t.counters = s.counters) : Fencing s t :=
  ⟨fun u h => by rw [unitActive, unitRec_of_units hu, ← unitActive, h], ⟨[], by rw [hr, List.append_nil]⟩, fun i _ => cntGet_of_counters hc i⟩

theorem refl (s : State) : Fencing s s := of_parts rfl rfl rfl

theorem trans {s t u : State} (h : Fencing s t) (h' : Fencing t u) : Fencing s u := by
  obtain ⟨a, ha⟩ := h.sent
  obtain ⟨b, hb⟩ := h'.sent
  exact ⟨fun x hx => h'.out x (h.out x hx), ⟨a ++ b, by rw [hb, ha, List.append_assoc]⟩,
    fun i hi => (h'.counts i hi).trans (h.counts i hi)⟩

theorem foldl {α : Type} (l : List α) (f : State → α → State) (h : ∀ s a, Fencing s (f s a)) (s : State) : Fencing s (l.foldl f s) :=
  l.foldlRecOn f (motive := Fencing s) (refl s) (fun _ ht a _ => ht.trans (h _ a))

end Fencing

theorem fencing_markRelaunch (ream : W32) (s : State) : Fencing s (markRelaunch ream s) := by
  unfold markRelaunch
  split
  · exact .refl s
  · exact .of_parts rfl rfl rfl

theorem fencing_markCoreReams (c : CoreId) (s : State) : Fencing s (markCoreReams c s) := by
  refine .foldl _ _ (fun s x => ?_) s
  split
  · exact .refl s
  · exact fencing_markRelaunch _ _

theorem fencing_moveCluster (k : Nat) (s : State) : Fencing s (moveCluster k s) := by
  unfold moveCluster
  split
  · refine .foldl _ _ (fun s l => ?_) s
    exact .of_parts rfl rfl rfl
  · exact .refl s

theorem fencing_moveCore (c : CoreId) (s : State) : Fencing s (moveCore c s) := by
  unfold moveCore
  extract_lets k room
  split
  · refine .foldl _ _ (fun s l => ?_) s
    exact .of_parts rfl rfl rfl
  · exact fencing_moveCluster _ s

theorem reportWith_counters (code : Nat) (suspect alt reporter : UnitCode) (layer op : W16) (content : List Nat) (s : State) :
    (reportWith code suspect alt reporter layer op content s).counters = s.counters :=
  counters_of_proj (reportWith_frame (m0 := 2147483680) (by decide) code suspect alt reporter layer op content s)

theorem fencing_reportWith (code : Nat) (suspect alt reporter : UnitCode) (layer op : W16) (content : List Nat) (s : State) :
    Fencing s (reportWith code suspect alt reporter layer op content s) := by
  obtain ⟨r, h, -⟩ := reportWith_canopy code suspect alt reporter layer op content s
  have hunits : (reportWith code suspect alt reporter layer op content s).canopy.units = s.canopy.units := by rw [h]
  exact ⟨fun u hu => by rw [unitActive, unitRec_of_units hunits, ← unitActive, hu], ⟨_, by rw [h]⟩,
    fun i _ => cntGet_of_counters (reportWith_counters _ _ _ _ _ _ _ _) i⟩

theorem unitRec_setUnit_ne {u v : UnitCode} (st : Nat) (cause : W16) (s : State) (h : v ≠ u) :
    unitRec (setUnit u st cause s) v = unitRec s v :=
  mapGetD_mapSet_other _ _ _ (fun e => h (BitVec.eq_of_toNat_eq e))

theorem fencing_fenceMark (u : UnitCode) (cause : Nat) (s : State) : Fencing s (fenceMark u cause s) := by
  have hset : Fencing s (setUnit u 1 (BitVec.ofNat 16 cause) s) := by
    refine ⟨fun v hv => ?_, ⟨[], (List.append_nil _).symm⟩, fun _ _ => rfl⟩
    by_cases h : v = u
    · rw [h, unitActive, unitRec_setUnit]
      rfl
    · rw [unitActive, unitRec_setUnit_ne _ _ _ h, ← unitActive, hv]
  have hcnt (v : State) : Fencing v (incCnt (cntFlt 3) v) :=
    ⟨fun _ h => h, ⟨[], (List.append_nil _).symm⟩, fun i hi => cntGet_addCnt_ne _ _ _ hi⟩
  exact (hset.trans (hcnt _)).trans (fencing_reportWith _ _ _ _ _ _ _ _)

/-- A unit that is fenced is out of service. -/
theorem unitActive_fenceMark (u : UnitCode) (cause : Nat) (s : State) : unitActive (fenceMark u cause s) u = false := by
  have hset : unitActive (incCnt (cntFlt 3) (setUnit u 1 (BitVec.ofNat 16 cause) s)) u = false :=
    congrArg (fun r : UnitRec => r.st == 0) (unitRec_setUnit u 1 (BitVec.ofNat 16 cause) s)
  exact (fencing_reportWith _ _ _ _ _ _ _ _).out u hset

theorem fencing_fenceCluster (k cause : Nat) (s : State) : Fencing s (fenceCluster k cause s) := by
  unfold fenceCluster
  split
  · exact .refl s
  · refine ((fencing_fenceMark _ _ _).trans (.foldl _ _ (fun s c => ?_) _)).trans (fencing_moveCluster _ _)
    split
    · exact fencing_markCoreReams c s
    · exact .refl s

theorem fencing_fenceCore (c : CoreId) (cause : Nat) (s : State) : Fencing s (fenceCore c cause s) := by
  have hmark := (fencing_fenceMark (ucCore c) cause s).trans (fencing_markCoreReams c _)
  unfold fenceCore
  split
  · exact .refl s
  · dsimp only
    split
    · exact hmark.trans (fencing_fenceCluster _ _ _)
    · exact hmark.trans (fencing_moveCore _ _)

end Sys2Proof.Machine
end

section
/-! PROOFS. The matrix engines: what the parts of an attempt at a tile leave, and how a command ends. -/

namespace Sys2Proof.Machine

/-! ### Parts of a core -/

/-- An engine that is put back leaves its core. -/
theorem setEngine_getEngine (x : CoreState) (m : MeId) : setEngine m (getEngine x m) x = x := by
  have h : famSet x.engines m.val (getEngine x m) = x.engines := by
    refine Vector.ext fun i hi => ?_
    by_cases hm : m.val = i <;> simp [famSet, getEngine, famGet, hm, hi]
  rw [setEngine, h]

theorem getCore_of_cores {s t : State} (h : t.cores = s.cores) (c : CoreId) : getCore t c = getCore s c := by rw [getCore, h, getCore]

/-! ### What an operation leaves of the other parts -/

theorem cntEngine_lt (c : CoreId) (m : MeId) {k : Nat} (hk : k < 8) : cntEngine (4 * c.val + m.val) k < 8192 := by
  unfold cntEngine
  omega

theorem cntEngine_ne (g : Nat) {j k : Nat} (h : j ≠ k) : cntEngine g j ≠ cntEngine g k := by
  unfold cntEngine
  omega

variable {c : CoreId} {m : MeId} {ks : List Nat} {s t u : State}

/-- What handling a fault of an engine leaves: the other cores, the core's banks and the commands completed in its contexts, the
engine's counters but those listed, and the reports on their way. -/
structure EngineFrame (c : CoreId) (m : MeId) (ks : List Nat) (s t : State) : Prop where
  others : coreFrame c s t
  banks : ∀ n, getBank (getCore t c) n = getBank (getCore s c) n
  done : ∀ i, (getCtx (getCore t c) i).done = (getCtx (getCore s c) i).done
  counts : ∀ k < 5, k ∉ ks → cntGet t (cntEngine (4 * c.val + m.val) k) = cntGet s (cntEngine (4 * c.val + m.val) k)
  sent : ∃ rest, t.canopy.transit = s.canopy.transit ++ rest

namespace EngineFrame

theorem of_cores (hcores : t.cores = s.cores)
    (hcounts : ∀ k < 5, k ∉ ks → cntGet t (cntEngine (4 * c.val + m.val) k) = cntGet s (cntEngine (4 * c.val + m.val) k))
    (hsent : ∃ rest, t.canopy.transit = s.canopy.transit ++ rest) : EngineFrame c m ks s t :=
  ⟨fun d _ => getCore_of_cores hcores d, fun _ => by rw [getCore_of_cores hcores], fun _ => by rw [getCore_of_cores hcores], hcounts, hsent⟩

theorem of_parts (hcores : t.cores = s.cores) (hcounters : t.counters = s.counters) (hsent : t.canopy.transit = s.canopy.transit) :
    EngineFrame c m ks s t :=
  of_cores hcores (fun _ _ _ => cntGet_of_counters hcounters _) ⟨[], by rw [hsent, List.append_nil]⟩

theorem of_fencing (h : Fencing s t) (hcores : t.cores = s.cores) : EngineFrame c m ks s t :=
  of_cores hcores (fun k hk _ => h.counts _ (by have := cntEngine_lt c m (k := k) (by omega); unfold cntFlt; omega)) h.sent

theorem refl (s : State) : EngineFrame c m ks s s := of_parts rfl rfl rfl

theorem trans (h : EngineFrame c m ks s t) (h' : EngineFrame c m ks t u) : EngineFrame c m ks s u := by
  obtain ⟨a, ha⟩ := h.sent
  obtain ⟨b, hb⟩ := h'.sent
  exact ⟨fun d hd => (h'.others d hd).trans (h.others d hd), fun n => (h'.banks n).trans (h.banks n),
    fun i => (h'.done i).trans (h.done i), fun k hk hks => (h'.counts k hk hks).trans (h.counts k hk hks),
    ⟨a ++ b, by rw [hb, ha, List.append_assoc]⟩⟩

theorem setCore {x : CoreState} (hbanks : ∀ n, getBank x n = getBank (getCore s c) n)
    (hdone : ∀ i, (getCtx x i).done = (getCtx (getCore s c) i).done) : EngineFrame c m ks s (setCore c x s) :=
  ⟨fun d hd => getCore_setCore_ne s c _ hd, fun n => by rw [getCore_setCore, hbanks], fun i => by rw [getCore_setCore, hdone],
    fun _ _ _ => rfl, ⟨[], (List.append_nil _).symm⟩⟩

theorem modEngine (f : MEng → MEng) (s : State) :
    EngineFrame c m ks s (modCore c (fun x => setEngine m (f (getEngine x m)) x) s) := setCore (fun _ => rfl) fun _ => rfl

theorem reportWith (code : Nat) (suspect alt reporter : UnitCode) (layer op : W16) (content : List Nat) (s : State) :
    EngineFrame c m ks s (reportWith code suspect alt reporter layer op content s) :=
  of_fencing (fencing_reportWith _ _ _ _ _ _ _ _) (cores_of_proj (reportWith_frame (m0 := 2147483680) (by decide) _ _ _ _ _ _ _ _))

theorem incCnt {k : Nat} (hk : k ∈ ks) (s : State) : EngineFrame c m ks s (incCnt (cntEngine (4 * c.val + m.val) k) s) :=
  of_cores rfl (fun _ _ hj => cntGet_addCnt_ne _ _ _ (cntEngine_ne _ (fun e => hj (e ▸ hk)))) ⟨[], (List.append_nil _).symm⟩

end EngineFrame

/-! ### The last fault of an engine (R125) -/

/-- An engine with another last fault, of a kind. -/
def notedAs (kind : Nat) (e e' : MEng) : Prop := e' = { e with
  lastKind := BitVec.ofNat 8 kind, lastSub := e'.lastSub, lastStretched := e'.lastStretched, lastOp := e'.lastOp
  lastLayer := e'.lastLayer, lastGt := e'.lastGt }

theorem noteFault_core (c : CoreId) (m : MeId) (kind : Nat) (h : CmdHdr) (s : State) :
    ∃ e, getCore (noteFault c m kind h s) c = setEngine m e (getCore s c) ∧ notedAs kind (getEngine (getCore s c) m) e := by
  have hstamp := getCore_of_cores (cores_of_proj (stampSub_frame (m0 := 2147483648) (by decide) (ucEngine c m) s)) c
  rw [← hstamp]
  exact ⟨_, getCore_modCore _ _ _, rfl⟩

theorem engineFrame_noteFault (kind : Nat) (h : CmdHdr) (s : State) : EngineFrame c m ks s (noteFault c m kind h s) := by
  have hstamp := stampSub_frame (m0 := 2147483648) (by decide) (ucEngine c m) s
  have hframe : EngineFrame c m ks s (stampSub (ucEngine c m) s).2 :=
    .of_parts (cores_of_proj hstamp) (counters_of_proj hstamp) (by rw [canopy_of_proj hstamp])
  exact hframe.trans (.setCore (fun _ => rfl) fun _ => rfl)

/-! ### Strikes, holds, re-issues and fences -/

/-- A core whose engine holds no command. -/
def freeEngine (m : MeId) (x : CoreState) : CoreState := setEngine m { getEngine x m with reexec := none } x

theorem reissueOn_eq (c : CoreId) (m : MeId) (r : MmaRun) (s : State) : reissueOn c m r s =
    if otherEngine s c m then modCore c (fun x => { x with reissue := x.reissue ++ [{ r with moved := true }] }) (modCore c (freeEngine m) s)
    else markRelaunch (getCtx (getCore (modCore c (freeEngine m) s) c) r.ctx).ream (modCore c (freeEngine m) s) := rfl

theorem getCore_markRelaunch (ream : W32) (s : State) (c : CoreId) : getCore (markRelaunch ream s) c = getCore s c :=
  getCore_of_cores (cores_of_proj (markRelaunch_frame (m0 := 32) (by decide) ream s)) c

/-- A command that is handed on leaves its engine free, and another engine of the core finds it last of those to be re-issued. -/
theorem reissueOn_core (c : CoreId) (m : MeId) (r : MmaRun) (s : State) :
    ∃ rs, getCore (reissueOn c m r s) c = { freeEngine m (getCore s c) with reissue := rs } ∧
      (otherEngine s c m = true → rs.getLast? = some { r with moved := true }) := by
  rw [reissueOn_eq]
  by_cases h : otherEngine s c m = true
  · rw [if_pos h, getCore_modCore, getCore_modCore]
    exact ⟨_, rfl, fun _ => List.getLast?_concat⟩
  · rw [if_neg h, getCore_markRelaunch, getCore_modCore]
    exact ⟨_, rfl, fun hc => absurd hc h⟩

theorem engineFrame_reissueOn (r : MmaRun) (s : State) : EngineFrame c m ks s (reissueOn c m r s) := by
  have hfree : EngineFrame c m ks s (modCore c (freeEngine m) s) := .setCore (fun _ => rfl) fun _ => rfl
  rw [reissueOn_eq]
  split
  · exact hfree.trans (.setCore (fun _ => rfl) fun _ => rfl)
  · exact hfree.trans (.of_fencing (fencing_markRelaunch _ _) (cores_of_proj (markRelaunch_frame (m0 := 32) (by decide) _ _)))

theorem fenceMark_cores (v : UnitCode) (cause : Nat) (s : State) : (fenceMark v cause s).cores = s.cores :=
  cores_of_proj (fenceMark_frame (m0 := 2684354592) (by decide) v cause s)

theorem fenceCore_cores (c : CoreId) (cause : Nat) (s : State) : (fenceCore c cause s).cores = s.cores :=
  cores_of_proj (fenceCore_frame (m0 := 2684354592) (by decide) c cause s)

/-- The fence of an engine that holds no command: the engine is marked, put back, and with it the core's last goes the core. -/
theorem fenceEngine_free {c : CoreId} {m : MeId} {s : State} (cause : Nat) (h : (getEngine (getCore s c) m).reexec = none) :
    fenceEngine c m cause s = if engineActive s c m then
      let v := setCore c (getCore s c) (fenceMark (ucEngine c m) cause s)
      if (List.finRange 4).all (fun j => !engineActive v c j) then fenceCore c cause v else v
    else s := by
  have hx : getCore (fenceMark (ucEngine c m) cause s) c = getCore s c := getCore_of_cores (fenceMark_cores _ _ _) c
  have he : setEngine m { getEngine (getCore s c) m with reexec := none } (getCore s c) = getCore s c := by
    rw [← h]
    exact setEngine_getEngine _ _
  unfold fenceEngine
  cases engineActive s c m
  · rfl
  · simp only [hx, h, he, Bool.not_true, Bool.false_eq_true, if_false, if_true]

theorem getCore_fenceEngine (cause : Nat) (h : (getEngine (getCore s c) m).reexec = none) :
    getCore (fenceEngine c m cause s) c = getCore s c := by
  rw [fenceEngine_free cause h]
  split
  · dsimp only
    split
    · rw [getCore_of_cores (fenceCore_cores _ _ _), getCore_setCore]
    · rw [getCore_setCore]
  · rfl

theorem engineFrame_fenceEngine (cause : Nat) (h : (getEngine (getCore s c) m).reexec = none) :
    EngineFrame c m ks s (fenceEngine c m cause s) := by
  rw [fenceEngine_free cause h]
  split
  · have hmark : EngineFrame c m ks s (fenceMark (ucEngine c m) cause s) := .of_fencing (fencing_fenceMark _ _ _) (fenceMark_cores _ _ _)
    have hx : getCore (fenceMark (ucEngine c m) cause s) c = getCore s c := getCore_of_cores (fenceMark_cores _ _ _) c
    have hput := hmark.trans (.setCore (fun _ => by rw [hx]) fun _ => by rw [hx])
    dsimp only
    split
    · exact hput.trans (.of_fencing (fencing_fenceCore _ _ _) (fenceCore_cores _ _ _))
    · exact hput
  · exact .refl s

theorem engineActive_fenceEngine (cause : Nat) (h : (getEngine (getCore s c) m).reexec = none) :
    engineActive (fenceEngine c m cause s) c m = false := by
  rw [fenceEngine_free cause h]
  split
  · have hout : engineActive (setCore c (getCore s c) (fenceMark (ucEngine c m) cause s)) c m = false := unitActive_fenceMark _ _ _
    dsimp only
    split
    · exact (fencing_fenceCore _ _ _).out _ hout
    · exact hout
  · exact eq_false_of_ne_true ‹_›

end Sys2Proof.Machine
end

section
/-! PROOFS. The matrix engines: how a command ends, and how a fault is noted. -/

namespace Sys2Proof.Machine

variable {c : CoreId} {m : MeId} {s t u v : State}

/-! ### A command ends (R99, R101) -/

/-- An engine at the end of a command: its strikes age, and it holds none (R90, R118). -/
def agedEngine (good : Bool) (e : MEng) : MEng :=
  { e with
    deckleClean := if e.deckleStrike then e.deckleClean + 1 else 0
    checkClean := if e.checkStrike && good then e.checkClean + 1 else 0
    reexec := none }

/-- A core at the end of a command, before the context counts it. -/
def endedCore (m : MeId) (r : MmaRun) (cols : List (List W32)) (poison good : Bool) (x : CoreState) : CoreState :=
  setBank r.op.bank.toNat (writeCols (getBank x r.op.bank.toNat) cols poison) (setEngine m (agedEngine good (getEngine x m)) x)

/-- The counters of an engine at the end of a command. -/
def tileCounts (g : Nat) (moved : Bool) (skips : Nat) (s : State) : State :=
  addCnt (cntEngine g 4) skips (if moved then incCnt (cntEngine g 3) (incCnt (cntEngine g 0) s) else incCnt (cntEngine g 0) s)

theorem mmaFinish_eq (c : CoreId) (m : MeId) (r : MmaRun) (cols : List (List W32)) (poison good : Bool) (skips : Nat) (s : State) :
    mmaFinish c m r cols poison good skips s = traceEnd (ucEngine c m) r.op.hdr (ctxDone c r.ctx
      (tileCounts (4 * c.val + m.val) r.moved skips (setCore c (endedCore m r cols poison good (getCore s c)) s))) := rfl

theorem tileCounts_cores (g : Nat) (moved : Bool) (skips : Nat) (s : State) : (tileCounts g moved skips s).cores = s.cores := by
  cases moved <;> simp [tileCounts]

theorem cntGet_tileCounts {g : Nat} (moved : Bool) (skips : Nat) (s : State) (hg : g < 1024) :
    counted (cntEngine g 0) 1 s (tileCounts g moved skips s) ∧ countedEach (cntEngine g 3) (b2n moved) s (tileCounts g moved skips s) ∧
    counted (cntEngine g 4) skips s (tileCounts g moved skips s) ∧
    ∀ k, k = 1 ∨ k = 2 → cntGet (tileCounts g moved skips s) (cntEngine g k) = cntGet s (cntEngine g k) := by
  have htop (k : Nat) (hk : k < 8) : cntEngine g k ≠ 19666 ∧ cntEngine g k ≠ 19667 := by unfold cntEngine; omega
  have hlast {k : Nat} (hk : k ≠ 4) : cntGet (tileCounts g moved skips s) (cntEngine g k) =
      cntGet (if moved then incCnt (cntEngine g 3) (incCnt (cntEngine g 0) s) else incCnt (cntEngine g 0) s) (cntEngine g k) :=
    cntGet_addCnt_ne _ _ _ (cntEngine_ne g hk)
  have hmid {k : Nat} (hk : k ≠ 3) :
      cntGet (if moved then incCnt (cntEngine g 3) (incCnt (cntEngine g 0) s) else incCnt (cntEngine g 0) s) (cntEngine g k) =
      cntGet (incCnt (cntEngine g 0) s) (cntEngine g k) := by
    split
    · exact cntGet_addCnt_ne _ _ _ (cntEngine_ne g hk)
    · rfl
  have hfirst {k : Nat} (hk : k ≠ 0) : cntGet (incCnt (cntEngine g 0) s) (cntEngine g k) = cntGet s (cntEngine g k) :=
    cntGet_addCnt_ne _ _ _ (cntEngine_ne g hk)
  refine ⟨?_, ?_, ?_, fun k hk => ?_⟩
  · exact (hlast (by decide)).trans ((hmid (by decide)).trans (cntGet_addCnt _ _ _ (htop 0 (by decide))))
  · exact countedEach_congr (countedEach_b2n moved _ (htop 3 (by decide))) (hfirst (by decide)).symm (hlast (by decide))
  · exact (cntGet_addCnt _ _ _ (htop 4 (by decide))).trans (by rw [hmid (by decide), hfirst (by decide)])
  · rw [hlast (by omega), hmid (by omega), hfirst (by omega)]

theorem cntGet_emitTrace (kind : Nat) (w : UnitCode) (layer op : W16) (payload : Nat) (s : State) {i : Nat} (hi : i < 8192) :
    cntGet (emitTrace kind w layer op payload s) i = cntGet s i := by
  have h (k n : Nat) (x : List (Nat × TraceStream)) (hk : i ≠ k) :
      cntGet (addCnt k n { (stampSub w s).2 with trace := x }) i = cntGet s i :=
    (cntGet_addCnt_ne _ _ _ hk).trans (cntGet_of_counters (stampSub_counters w s) i)
  unfold emitTrace
  extract_lets n st
  split
  · rfl
  · split
    rename_i sub v hv
    obtain rfl : (stampSub w s).2 = v := by rw [hv]
    extract_lets
    split
    · exact h _ _ _ (by unfold cntObs; omega)
    · exact h _ _ _ (by unfold cntObs; omega)

theorem cntGet_traceEnd (w : UnitCode) (h : CmdHdr) (s : State) {i : Nat} (hi : i < 8192) : cntGet (traceEnd w h s) i = cntGet s i :=
  cntGet_emitTrace _ _ _ _ _ _ hi

/-- A command has ended on an engine, its columns and poison written into its bank. -/
structure TileEnded (c : CoreId) (m : MeId) (r : MmaRun) (cols : List (List W32)) (poison good : Bool) (skips : Nat) (s t : State) : Prop where
  others : coreFrame c s t
  bank : getBank (getCore t c) r.op.bank.toNat = writeCols (getBank (getCore s c) r.op.bank.toNat) cols poison
  banks : ∀ n, n ≠ r.op.bank.toNat → getBank (getCore t c) n = getBank (getCore s c) n
  engine : getEngine (getCore t c) m = agedEngine good (getEngine (getCore s c) m)
  done : (getCtx (getCore t c) r.ctx).done = (getCtx (getCore s c) r.ctx).done + 1
  tiles : counted (cntEngine (4 * c.val + m.val) 0) 1 s t
  moves : countedEach (cntEngine (4 * c.val + m.val) 3) (b2n r.moved) s t
  skipped : counted (cntEngine (4 * c.val + m.val) 4) skips s t
  faults : ∀ k, k = 1 ∨ k = 2 → cntGet t (cntEngine (4 * c.val + m.val) k) = cntGet s (cntEngine (4 * c.val + m.val) k)
  canopy : t.canopy = s.canopy
  regs : t.regs = s.regs

theorem mmaFinish_ended (r : MmaRun) (cols : List (List W32)) (poison good : Bool) (skips : Nat) (s : State) :
    TileEnded c m r cols poison good skips s (mmaFinish c m r cols poison good skips s) := by
  have hframe := mmaFinish_frame (m0 := 2684354820) (by decide) c m r cols poison good skips s
  rw [mmaFinish_eq] at hframe ⊢
  generalize hy : endedCore m r cols poison good (getCore s c) = y at hframe ⊢
  obtain ⟨htiles, hmoves, hskips, hfaults⟩ := cntGet_tileCounts r.moved skips (setCore c y s) (g := 4 * c.val + m.val) (by omega)
  have hstill := tileCounts_cores (4 * c.val + m.val) r.moved skips (setCore c y s)
  generalize tileCounts (4 * c.val + m.val) r.moved skips (setCore c y s) = w at *
  have hcnt (k : Nat) (hk : k < 8) : cntGet (traceEnd (ucEngine c m) r.op.hdr (ctxDone c r.ctx w)) (cntEngine (4 * c.val + m.val) k) =
    cntGet w (cntEngine (4 * c.val + m.val) k) := cntGet_traceEnd _ _ _ (cntEngine_lt c m hk)
  have hw (d : CoreId) : getCore w d = getCore (setCore c y s) d := getCore_of_cores hstill d
  have hcores (d : CoreId) : getCore (traceEnd (ucEngine c m) r.op.hdr (ctxDone c r.ctx w)) d = getCore (ctxDone c r.ctx w) d :=
    getCore_of_cores (cores_of_proj (traceEnd_frame (m0 := 2684354816) (by decide) _ _ _)) d
  have hcore : getCore (traceEnd (ucEngine c m) r.op.hdr (ctxDone c r.ctx w)) c =
      { setCtx r.ctx { getCtx y r.ctx with done := (getCtx y r.ctx).done + 1 } y with lastRun := now w } := by
    have hx : getCore w c = y := (hw c).trans (getCore_setCore _ _ _)
    subst hx
    exact (hcores c).trans (getCore_modCore _ _ _)
  refine ⟨fun d hd => ?_, ?_, fun n hn => ?_, ?_, ?_, ?_, ?_, ?_, fun k hk => ?_, canopy_of_proj hframe, regs_of_proj hframe⟩
  · rw [hcores, ctxDone, getCore_modCore_ne _ _ _ hd, hw, getCore_setCore_ne _ _ _ hd]
  · rw [hcore, ← hy]
    exact getBank_setBank _ _ _ (by omega)
  · rw [hcore, ← hy]
    exact getBank_setBank_ne _ _ _ hn
  · rw [hcore, ← hy]
    exact getEngine_setEngine _ _ _
  · rw [hcore]
    subst hy
    exact congrArg Ctx.done (getCtx_setCtx _ _ _)
  · exact (hcnt 0 (by omega)).trans htiles
  · exact countedEach_congr hmoves rfl (hcnt 3 (by omega))
  · exact (hcnt 4 (by omega)).trans hskips
  · rw [hcnt k (by omega)]
    exact hfaults k hk

end Sys2Proof.Machine
end

section
/-! PROOFS. The matrix engines: faults of an attempt at a tile. -/

namespace Sys2Proof.Machine

variable {c : CoreId} {m : MeId} {r : MmaRun} {k code kind : Nat} {s t u v w : State}

/-! ### A fault is counted, noted and reported (R90, R118, R125) -/

theorem counted_congr {k n : Nat} {s s' t t' : State} (h : counted k n s t) (hs : cntGet s' k = cntGet s k) (ht : cntGet t' k = cntGet t k) :
    counted k n s' t' := by simpa only [counted, hs, ht] using h

theorem EngineFrame.mono {ks ls : List Nat} (h : EngineFrame c m ks s t) (hs : ks ⊆ ls) : EngineFrame c m ls s t :=
  ⟨h.others, h.banks, h.done, fun k hk hks => h.counts k hk (fun hm => hks (hs hm)), h.sent⟩

theorem reportFirst_of_sent {suspect reporter : UnitCode} (h : reportFirst code suspect reporter s t)
    (hsent : ∃ rest, u.canopy.transit = t.canopy.transit ++ rest) : reportFirst code suspect reporter s u := by
  obtain ⟨q, rest, hcode, hsuspect, hreporter, htransit⟩ := h
  obtain ⟨more, hmore⟩ := hsent
  exact ⟨q, rest ++ more, hcode, hsuspect, hreporter, by rw [hmore, htransit, List.append_assoc, List.cons_append]⟩

/-- A fault of an engine has been counted and reported, and its core holds its banks and contexts. -/
structure FaultShown (c : CoreId) (m : MeId) (k code : Nat) (s t : State) : Prop where
  frame : EngineFrame c m [k] s t
  counts : counted (cntEngine (4 * c.val + m.val) k) 1 s t
  reported : reportFirst code (ucEngine c m) (ucEngine c m) s t

theorem FaultShown.andThen (h : FaultShown c m k code s t) (hk : k < 5) (h' : EngineFrame c m [] t u) : FaultShown c m k code s u :=
  ⟨h.frame.trans (h'.mono (List.nil_subset _)), counted_congr h.counts rfl (h'.counts k hk List.not_mem_nil),
    reportFirst_of_sent h.reported h'.sent⟩

/-- A fault has been shown and noted as the engine's last, and nothing else has come of it. -/
structure FaultNoted (c : CoreId) (m : MeId) (k code kind : Nat) (s t : State) : Prop where
  shown : FaultShown c m k code s t
  units : t.canopy.units = s.canopy.units
  core : ∃ e, getCore t c = setEngine m e (getCore s c) ∧ notedAs kind (getEngine (getCore s c) m) e

theorem reportFirst_reportWith (code : Nat) (layer op : W16) (content : List Nat) (h : t.canopy.transit = s.canopy.transit) :
    reportFirst code (ucEngine c m) (ucEngine c m) s (reportWith code (ucEngine c m) 0 (ucEngine c m) layer op content t) := by
  obtain ⟨q, hq, hcode, hsuspect, hreporter⟩ := reportWith_canopy code (ucEngine c m) 0 (ucEngine c m) layer op content t
  exact ⟨q, [], hcode, hsuspect, hreporter, by rw [hq, ← h]⟩

theorem reportWith_units (code : Nat) (suspect alt reporter : UnitCode) (layer op : W16) (content : List Nat) (s : State) :
    (reportWith code suspect alt reporter layer op content s).canopy.units = s.canopy.units := by
  obtain ⟨q, hq, -⟩ := reportWith_canopy code suspect alt reporter layer op content s
  rw [hq]

theorem getCore_reportWith (code : Nat) (suspect alt reporter : UnitCode) (layer op : W16) (content : List Nat) (s : State) (d : CoreId) :
    getCore (reportWith code suspect alt reporter layer op content s) d = getCore s d :=
  getCore_of_cores (cores_of_proj (reportWith_frame (m0 := 2147483680) (by decide) _ _ _ _ _ _ _ _)) d

theorem noteFault_canopy (c : CoreId) (m : MeId) (kind : Nat) (h : CmdHdr) (s : State) : (noteFault c m kind h s).canopy = s.canopy :=
  canopy_of_proj (noteFault_frame (m0 := 2147483652) (by decide) c m kind h s)

theorem counted_incCnt (s : State) (hk : k < 5) :
    counted (cntEngine (4 * c.val + m.val) k) 1 s (incCnt (cntEngine (4 * c.val + m.val) k) s) :=
  cntGet_addCnt _ _ _ (by have := cntEngine_lt c m (k := k) (by omega); omega)

/-- A deckle fault noted, counted and reported. -/
def deckleNoted (c : CoreId) (m : MeId) (r : MmaRun) (code : Nat) (value : List Nat) (s : State) : State :=
  reportWith code (ucEngine c m) 0 (ucEngine c m) r.op.hdr.layer r.op.hdr.op value
    (incCnt (cntEngine (4 * c.val + m.val) 2) (noteFault c m code r.op.hdr s))

theorem deckleNoted_noted (r : MmaRun) (code : Nat) (value : List Nat) (s : State) :
    FaultNoted c m 2 code code s (deckleNoted c m r code value s) := by
  have hnote := engineFrame_noteFault (ks := [2]) (c := c) (m := m) code r.op.hdr s
  have hcanopy := noteFault_canopy c m code r.op.hdr s
  obtain ⟨e, hcore, he⟩ := noteFault_core c m code r.op.hdr s
  have hcnt : counted (cntEngine (4 * c.val + m.val) 2) 1 s (incCnt (cntEngine (4 * c.val + m.val) 2) (noteFault c m code r.op.hdr s)) :=
    counted_congr (counted_incCnt _ (by decide)) ((engineFrame_noteFault (ks := []) code r.op.hdr s).counts 2 (by decide) (by simp)).symm rfl
  exact
    { shown := ⟨(hnote.trans (.incCnt (by simp) _)).trans (.reportWith _ _ _ _ _ _ _ _),
        counted_congr hcnt rfl (cntGet_of_counters (reportWith_counters _ _ _ _ _ _ _ _) _),
        reportFirst_reportWith _ _ _ _ (congrArg Canopy.transit hcanopy)⟩
      units := (reportWith_units _ _ _ _ _ _ _ _).trans (congrArg Canopy.units hcanopy)
      core := ⟨e, (getCore_reportWith _ _ _ _ _ _ _ _ c).trans hcore, he⟩ }

/-- A check failure counted, reported and noted. -/
def checkNoted (c : CoreId) (m : MeId) (r : MmaRun) (code kind row : Nat) (s : State) : State :=
  noteFault c m kind r.op.hdr (reportWith code (ucEngine c m) 0 (ucEngine c m) r.op.hdr.layer r.op.hdr.op [row]
    (incCnt (cntEngine (4 * c.val + m.val) 1) s))

theorem checkNoted_noted (r : MmaRun) (code kind row : Nat) (s : State) :
    FaultNoted c m 1 code kind s (checkNoted c m r code kind row s) := by
  have hcnt := counted_incCnt (c := c) (m := m) s (k := 1) (by decide)
  have hreport : FaultShown c m 1 code s (reportWith code (ucEngine c m) 0 (ucEngine c m) r.op.hdr.layer r.op.hdr.op [row]
      (incCnt (cntEngine (4 * c.val + m.val) 1) s)) :=
    ⟨(EngineFrame.incCnt (by simp) s).trans (.reportWith _ _ _ _ _ _ _ _),
      counted_congr hcnt rfl (cntGet_of_counters (reportWith_counters _ _ _ _ _ _ _ _) _), reportFirst_reportWith _ _ _ _ rfl⟩
  obtain ⟨e, hcore, he⟩ := noteFault_core c m kind r.op.hdr (reportWith code (ucEngine c m) 0 (ucEngine c m) r.op.hdr.layer r.op.hdr.op [row]
    (incCnt (cntEngine (4 * c.val + m.val) 1) s))
  rw [getCore_reportWith] at hcore he
  exact
    { shown := hreport.andThen (by decide) (engineFrame_noteFault _ _ _)
      units := (congrArg Canopy.units (noteFault_canopy _ _ _ _ _)).trans (reportWith_units _ _ _ _ _ _ _ _)
      core := ⟨e, hcore, he⟩ }

end Sys2Proof.Machine
end

section
/-! PROOFS. The matrix engines: second failures, strikes, holds, moves and fences after a fault. -/

namespace Sys2Proof.Machine

variable {c : CoreId} {m : MeId} {r : MmaRun} {k code kind : Nat} {s t u v w : State}

/-! ### A second failure ends the tile poisoned (R91, R119) -/

/-- A command has completed at an engine. -/
def tileDone (c : CoreId) (m : MeId) (r : MmaRun) (s t : State) : Prop :=
  (getEngine (getCore t c) m).reexec = none ∧ counted (cntEngine (4 * c.val + m.val) 0) 1 s t ∧
  countedEach (cntEngine (4 * c.val + m.val) 3) (b2n r.moved) s t ∧
  (getCtx (getCore t c) r.ctx).done = (getCtx (getCore s c) r.ctx).done + 1

/-- The engine of the first failure is in service, where one of these causes had fenced it. -/
def fenceLifted (c : CoreId) (m : MeId) (r : MmaRun) (m0 : MeId) (causes : List Nat) (s t : State) : Prop :=
  m0 ≠ m → r.fenced = true → causes.contains (unitRec s (ucEngine c m0)).cause.toNat = true → (unitRec t (ucEngine c m0)).st = 0

/-- What an attempt leaves of the other cores and banks. -/
def attemptFrame (c : CoreId) (r : MmaRun) (s t : State) : Prop :=
  coreFrame c s t ∧ ∀ n, n ≠ r.op.bank.toNat → getBank (getCore t c) n = getBank (getCore s c) n

theorem EngineFrame.tile {ks : List Nat} (h : EngineFrame c m ks s t) (r : MmaRun) :
    attemptFrame c r s t ∧ getBank (getCore t c) r.op.bank.toNat = getBank (getCore s c) r.op.bank.toNat :=
  ⟨⟨h.others, fun n _ => h.banks n⟩, h.banks _⟩

theorem mmaPoison_ended (r : MmaRun) (good : Bool) (s : State) :
    ∃ cols, TileEnded c m r cols true good 0 s (mmaPoison c m r good s) :=
  have h := mmaFinish_ended (c := c) (m := m) r (freeCols s r.op) true good 0 { s with fresh := s.fresh + mmaN r.op * mmaM r.op }
  ⟨_, { h with }⟩

theorem TileEnded.tile {cols : List (List W32)} {poison good : Bool} {skips : Nat} (h : TileEnded c m r cols poison good skips s t) :
    attemptFrame c r s t ∧ tileDone c m r s t := by
  refine ⟨⟨h.others, h.banks⟩, ?_, h.tiles, h.moves, h.done⟩
  rw [h.engine]
  rfl

/-- A fault has been counted and reported, and its command has ended with poison. -/
structure FaultEnded (c : CoreId) (m : MeId) (r : MmaRun) (k code : Nat) (s t : State) : Prop where
  frame : attemptFrame c r s t
  done : tileDone c m r s t
  poison : (getBank (getCore t c) r.op.bank.toNat).poison = true
  counts : counted (cntEngine (4 * c.val + m.val) k) 1 s t
  reported : reportFirst code (ucEngine c m) (ucEngine c m) s t

/-- A fault that has been shown, then an end with poison. -/
theorem FaultShown.ends {cols : List (List W32)} {good : Bool} (h : FaultShown c m k code s u) (hk : k = 1 ∨ k = 2)
    (he : TileEnded c m r cols true good 0 u t) : FaultEnded c m r k code s t := by
  have hkeep (j : Nat) (hj : j < 5) (hne : j ≠ k) := h.frame.counts j hj (by simpa using hne)
  obtain ⟨hframe, hfree, htiles, hmoves, hdone⟩ := he.tile
  refine ⟨⟨fun d hd => (he.others d hd).trans (h.frame.others d hd), fun n hn => (he.banks n hn).trans (h.frame.banks n)⟩,
    ⟨hfree, counted_congr htiles (hkeep 0 (by decide) (by omega)).symm rfl, countedEach_congr hmoves (hkeep 3 (by decide) (by omega)).symm rfl,
      hdone.trans (by rw [h.frame.done])⟩, ?_, counted_congr h.counts rfl (he.faults k hk), reportFirst_of_sent h.reported ⟨[], ?_⟩⟩
  · rw [he.bank]
    rfl
  · rw [he.canopy, List.append_nil]

/-- The engine of the first failure returns to service where this run's failure had fenced it. -/
def fenceLift (c : CoreId) (r : MmaRun) (m0 : MeId) (causes : List Nat) (s : State) : State :=
  if r.fenced then liftFence (ucEngine c m0) causes s else s

theorem liftFence_active (x : UnitCode) (causes : List Nat) (s : State) {y : UnitCode} (h : unitActive s y = true) :
    unitActive (liftFence x causes s) y = true := by
  unfold liftFence
  split
  · by_cases hy : y = x
    · rw [hy, unitActive, unitRec_setUnit]
      rfl
    · rw [unitActive, unitRec_setUnit_ne _ _ _ hy, ← unitActive, h]
  · exact h

theorem fenceLift_active (c : CoreId) (r : MmaRun) (m0 : MeId) (causes : List Nat) (s : State) {y : UnitCode} (h : unitActive s y = true) :
    unitActive (fenceLift c r m0 causes s) y = true := by
  unfold fenceLift
  split
  · exact liftFence_active _ _ _ h
  · exact h

theorem fenceLift_lifted (m : MeId) (m0 : MeId) (causes : List Nat) (s : State) :
    fenceLifted c m r m0 causes s (fenceLift c r m0 causes s) := by
  intro _ hfenced hcause
  rw [fenceLift, if_pos hfenced, liftFence, if_pos hcause, unitRec_setUnit]

theorem engineFrame_fenceLift {ks : List Nat} (r : MmaRun) (m0 : MeId) (causes : List Nat) (s : State) :
    EngineFrame c m ks s (fenceLift c r m0 causes s) := by
  unfold fenceLift liftFence
  split
  · split
    · exact .of_parts rfl rfl rfl
    · exact .refl s
  · exact .refl s

theorem getCore_fenceLift (c : CoreId) (r : MmaRun) (m0 : MeId) (causes : List Nat) (s : State) (d : CoreId) :
    getCore (fenceLift c r m0 causes s) d = getCore s d := by
  unfold fenceLift liftFence
  split
  · split <;> rfl
  · rfl

/-! ### Deckle faults (R88 to R91) -/

/-- A deckle strike is set. -/
def strikeDeckle (c : CoreId) (m : MeId) (s : State) : State :=
  modCore c (fun x => setEngine m { getEngine x m with deckleStrike := true, deckleClean := 0 } x) s

/-- An engine holds a command for its re-execution. -/
def holdRun (c : CoreId) (m : MeId) (r : MmaRun) (s : State) : State :=
  modCore c (fun x => setEngine m { getEngine x m with reexec := some r } x) s

theorem engineFrame_strikeDeckle (s : State) : EngineFrame c m [] s (strikeDeckle c m s) :=
  .modEngine (fun e => { e with deckleStrike := true, deckleClean := 0 }) s

theorem getCore_strikeDeckle (c : CoreId) (m : MeId) (s : State) : getCore (strikeDeckle c m s) c =
    setEngine m { getEngine (getCore s c) m with deckleStrike := true, deckleClean := 0 } (getCore s c) := getCore_modCore _ _ _

theorem engineFrame_holdRun (r : MmaRun) (s : State) : EngineFrame c m [] s (holdRun c m r s) :=
  .modEngine (fun e => { e with reexec := some r }) s

theorem getEngine_holdRun (c : CoreId) (m : MeId) (r : MmaRun) (s : State) :
    getEngine (getCore (holdRun c m r s) c) m = { getEngine (getCore s c) m with reexec := some r } := by
  rw [holdRun, getCore_modCore, getEngine_setEngine]

/-- A command after a deckle fault: R66 notes the engine, and whether its strike was set. -/
def deckleRun (m : MeId) (r : MmaRun) (code : Nat) (struck : Bool) : MmaRun :=
  if code == 2 then { r with deckleFail := some m, fenced := struck } else r

theorem deckleFault_second {m0 : MeId} (h : r.deckleFail.filter (· != m) = some m0) (value : List Nat) (act : Bool) (s : State) :
    deckleFault c m r 2 value act s = strikeDeckle c m (mmaPoison c m r true (fenceLift c r m0 [2]
      (reportWith 8 (ucCore c) 0 (ucEngine c m) r.op.hdr.layer r.op.hdr.op
        ([b2n act, if act then r.op.aAddr.toNat else r.op.wAddr.toNat] ++ value) (deckleNoted c m r 2 value s)))) := by
  unfold deckleFault
  simp only [beq_self_eq_true, if_true, h]
  rfl

theorem deckleFault_first (h : code = 2 → r.deckleFail.filter (· != m) = none) (value : List Nat) (act : Bool) (s : State) :
    deckleFault c m r code value act s =
      let u := deckleNoted c m r code value s
      let struck := (getEngine (getCore u c) m).deckleStrike
      let r := deckleRun m r code struck
      if struck then fenceEngine c m code (reissueOn c m r u) else holdRun c m r (strikeDeckle c m u) := by
  have hnone : (if code == 2 then r.deckleFail.filter (· != m) else none) = none := by
    by_cases hc : code = 2 <;> simp [hc, h]
  unfold deckleFault
  simp only [hnone]
  rfl

theorem notedAs.parts {e e' : MEng} (h : notedAs kind e e') : e'.deckleStrike = e.deckleStrike ∧ e'.checkStrike = e.checkStrike ∧
    e'.lastKind = BitVec.ofNat 8 kind := by
  have hdeckle := congrArg MEng.deckleStrike h
  have hcheck := congrArg MEng.checkStrike h
  have hkind := congrArg MEng.lastKind h
  exact ⟨hdeckle, hcheck, hkind⟩

theorem FaultNoted.notedCore (h : FaultNoted c m k code kind s u) :
    ∃ e, getEngine (getCore u c) m = e ∧ notedAs kind (getEngine (getCore s c) m) e := by
  obtain ⟨e, hcore, he⟩ := h.core
  exact ⟨e, by rw [hcore, getEngine_setEngine], he⟩

theorem otherEngine_of_units (h : t.canopy.units = s.canopy.units) (c : CoreId) (m : MeId) : otherEngine t c m = otherEngine s c m := by
  simp only [otherEngine, engineActive, unitActive, unitRec_of_units h]

/-- An engine that hands its command on and is fenced holds none, and is out of service. -/
theorem fenceEngine_reissueOn (code : Nat) (r : MmaRun) (u : State) :
    EngineFrame c m [] u (fenceEngine c m code (reissueOn c m r u)) ∧ engineActive (fenceEngine c m code (reissueOn c m r u)) c m = false ∧
    getCore (fenceEngine c m code (reissueOn c m r u)) c = getCore (reissueOn c m r u) c := by
  obtain ⟨rs, hcore, -⟩ := reissueOn_core c m r u
  have hfree : (getEngine (getCore (reissueOn c m r u) c) m).reexec = none := by
    rw [hcore]
    exact congrArg MEng.reexec (getEngine_setEngine _ _ _)
  exact ⟨(engineFrame_reissueOn r u).trans (engineFrame_fenceEngine code hfree), engineActive_fenceEngine code hfree,
    getCore_fenceEngine code hfree⟩

theorem reissueOn_parts (r : MmaRun) (u : State) :
    getEngine (getCore (reissueOn c m r u) c) m = { getEngine (getCore u c) m with reexec := none } ∧
    (otherEngine u c m = true → (getCore (reissueOn c m r u) c).reissue.getLast? = some { r with moved := true }) := by
  obtain ⟨rs, hcore, hlast⟩ := reissueOn_core c m r u
  rw [hcore]
  exact ⟨getEngine_setEngine _ _ _, hlast⟩

/-- The first deckle fault of an engine without a strike: the engine holds the tile for its re-execution. -/
theorem deckleFault_holds (h : code = 2 → r.deckleFail.filter (· != m) = none) (value : List Nat) (act : Bool)
    (hs : (getEngine (getCore s c) m).deckleStrike = false) : FaultShown c m 2 code s (deckleFault c m r code value act s) ∧
    ∃ e, notedAs code (getEngine (getCore s c) m) e ∧ getEngine (getCore (deckleFault c m r code value act s) c) m =
      { e with deckleStrike := true, deckleClean := 0, reexec := some (deckleRun m r code false) } := by
  have hnoted := deckleNoted_noted (c := c) (m := m) r code value s
  obtain ⟨e, hu, he⟩ := hnoted.notedCore
  have hstrike : e.deckleStrike = false := he.parts.1.trans hs
  rw [deckleFault_first h]
  dsimp only
  rw [hu, hstrike, if_neg Bool.false_ne_true]
  refine ⟨(hnoted.shown.andThen (by decide) (engineFrame_strikeDeckle _)).andThen (by decide) (engineFrame_holdRun _ _), e, he, ?_⟩
  rw [getEngine_holdRun, getCore_strikeDeckle, getEngine_setEngine, hu]

/-- A deckle fault of an engine whose strike is set: the engine is fenced, and the command moves. -/
theorem deckleFault_fences (h : code = 2 → r.deckleFail.filter (· != m) = none) (value : List Nat) (act : Bool)
    (hs : (getEngine (getCore s c) m).deckleStrike = true) : FaultShown c m 2 code s (deckleFault c m r code value act s) ∧
    engineActive (deckleFault c m r code value act s) c m = false ∧
    (∃ e, notedAs code (getEngine (getCore s c) m) e ∧
      getEngine (getCore (deckleFault c m r code value act s) c) m = { e with reexec := none }) ∧
    (otherEngine s c m = true → (getCore (deckleFault c m r code value act s) c).reissue.getLast? =
      some { deckleRun m r code true with moved := true }) := by
  have hnoted := deckleNoted_noted (c := c) (m := m) r code value s
  obtain ⟨e, hu, he⟩ := hnoted.notedCore
  have hstrike : e.deckleStrike = true := he.parts.1.trans hs
  rw [deckleFault_first h]
  dsimp only
  rw [hu, hstrike, if_pos rfl]
  obtain ⟨hframe, hout, hcore⟩ := fenceEngine_reissueOn (c := c) (m := m) code (deckleRun m r code true) (deckleNoted c m r code value s)
  obtain ⟨hengine, hlast⟩ := reissueOn_parts (c := c) (m := m) (deckleRun m r code true) (deckleNoted c m r code value s)
  rw [hcore, hengine, hu, ← otherEngine_of_units hnoted.units]
  exact ⟨hnoted.shown.andThen (by decide) hframe, hout, ⟨e, he, rfl⟩, hlast⟩

/-! ### Check failures (R117 to R119) -/

/-- A check strike is set. -/
def strikeCheck (c : CoreId) (m : MeId) (s : State) : State :=
  modCore c (fun x => setEngine m { getEngine x m with checkStrike := true, checkClean := 0 } x) s

theorem checkFault_second {m0 : MeId} (h : r.checkFail = some m0) (code row : Nat) (s : State) :
    checkFault c m r code row s = mmaPoison c m r false (fenceLift c r m0 [3, 4, 5]
      (reportWith 7 (ucCore c) 0 (ucEngine c m) r.op.hdr.layer r.op.hdr.op (operandLines r.op) (checkNoted c m r code 7 row s))) := by
  unfold checkFault
  simp only [h]
  rfl

theorem checkFault_first (h : r.checkFail = none) (code row : Nat) (s : State) : checkFault c m r code row s =
    let u := checkNoted c m r code code row s
    let struck := (getEngine (getCore u c) m).checkStrike
    let v := reissueOn c m { r with checkFail := some m, fenced := struck } (strikeCheck c m u)
    if struck then fenceEngine c m code v else v := by
  unfold checkFault
  simp only [h]
  rfl

/-- The first check failure of a command: the strike is set, the command moves, and an engine whose strike stood is fenced. -/
theorem checkFault_moves (h : r.checkFail = none) (code row : Nat) (s : State) :
    FaultShown c m 1 code s (checkFault c m r code row s) ∧
    (∃ e, notedAs code (getEngine (getCore s c) m) e ∧ getEngine (getCore (checkFault c m r code row s) c) m =
      { e with checkStrike := true, checkClean := 0, reexec := none }) ∧
    (otherEngine s c m = true → (getCore (checkFault c m r code row s) c).reissue.getLast? =
      some { r with checkFail := some m, fenced := (getEngine (getCore s c) m).checkStrike, moved := true }) ∧
    ((getEngine (getCore s c) m).checkStrike = true → engineActive (checkFault c m r code row s) c m = false) := by
  have hnoted := checkNoted_noted (c := c) (m := m) r code code row s
  obtain ⟨e, hu, he⟩ := hnoted.notedCore
  have hstrike : e.checkStrike = (getEngine (getCore s c) m).checkStrike := he.parts.2.1
  rw [checkFault_first h]
  dsimp only
  rw [hu, hstrike]
  generalize (getEngine (getCore s c) m).checkStrike = struck
  have hstruck := hnoted.shown.andThen (by decide) (.modEngine (c := c) (m := m) (fun e => { e with checkStrike := true, checkClean := 0 }) _)
  obtain ⟨hframe, hout, hcore⟩ := fenceEngine_reissueOn (c := c) (m := m) code { r with checkFail := some m, fenced := struck }
    (strikeCheck c m (checkNoted c m r code code row s))
  obtain ⟨hengine, hlast⟩ := reissueOn_parts (c := c) (m := m) { r with checkFail := some m, fenced := struck }
    (strikeCheck c m (checkNoted c m r code code row s))
  have hother : otherEngine (strikeCheck c m (checkNoted c m r code code row s)) c m = otherEngine s c m := otherEngine_of_units hnoted.units c m
  have hstrike' : getEngine (getCore (strikeCheck c m (checkNoted c m r code code row s)) c) m = { e with checkStrike := true, checkClean := 0 } := by
    rw [strikeCheck, getCore_modCore, getEngine_setEngine, hu]
  rw [hother] at hlast
  rw [hstrike'] at hengine
  cases struck
  · exact ⟨hstruck.andThen (by decide) (engineFrame_reissueOn _ _), ⟨e, he, hengine⟩, hlast, fun hc => absurd hc Bool.false_ne_true⟩
  · rw [if_pos rfl, hcore]
    exact ⟨hstruck.andThen (by decide) hframe, ⟨e, he, hengine⟩, hlast, fun _ => hout⟩

end Sys2Proof.Machine
end

section
/-! PROOFS. The matrix engines: what each outcome of an attempt at a tile comes to. -/

namespace Sys2Proof.Machine

variable {c : CoreId} {again : Bool} {m m0 : MeId} {r : MmaRun} {k code kind : Nat} {s t u v w : State}

/-! ### Second failures (R91, R119) -/

/-- A second failure: reported against the core, the fence of the first is lifted, and the tile ends poisoned. -/
theorem FaultNoted.endsPoisoned (h : FaultNoted c m k code kind s u) (hk : k = 1 ∨ k = 2) (good : Bool) (causes : List Nat)
    (second : Nat) (layer op : W16) (content : List Nat)
    (ht : t = mmaPoison c m r good (fenceLift c r m0 causes (reportWith second (ucCore c) 0 (ucEngine c m) layer op content u))) :
    FaultEnded c m r k code s t ∧
    (∃ e, notedAs kind (getEngine (getCore s c) m) e ∧ getEngine (getCore t c) m = agedEngine good e) ∧
    (engineActive s c m = true → engineActive t c m = true) ∧ fenceLifted c m r m0 causes s t := by
  obtain ⟨e, hu, he⟩ := h.notedCore
  have hunits : (reportWith second (ucCore c) 0 (ucEngine c m) layer op content u).canopy.units = s.canopy.units :=
    (reportWith_units _ _ _ _ _ _ _ _).trans h.units
  have hreport := getCore_reportWith second (ucCore c) 0 (ucEngine c m) layer op content u c
  have hshown := h.shown.andThen (by omega) (.reportWith second (ucCore c) 0 (ucEngine c m) layer op content u)
  generalize reportWith second (ucCore c) 0 (ucEngine c m) layer op content u = v at *
  obtain ⟨cols, hend⟩ := mmaPoison_ended (c := c) (m := m) r good (fenceLift c r m0 causes v)
  rw [← ht] at hend
  have hrec (x : UnitCode) : unitRec t x = unitRec (fenceLift c r m0 causes v) x := unitRec_of_units (by rw [hend.canopy]) x
  refine ⟨(hshown.andThen (by omega) (engineFrame_fenceLift _ _ _ _)).ends hk hend, ⟨e, he, ?_⟩, fun ha => ?_, fun hm hf hc => ?_⟩
  · rw [hend.engine, getCore_fenceLift, hreport, hu]
  · rw [engineActive, unitActive, hrec]
    exact fenceLift_active _ _ _ _ _ (by rwa [unitActive, unitRec_of_units hunits])
  · rw [hrec]
    exact fenceLift_lifted m m0 causes v hm hf (by rwa [unitRec_of_units hunits])

theorem FaultEnded.strikeDeckle (h : FaultEnded c m r k code s t) (hk : k = 1 ∨ k = 2) :
    FaultEnded c m r k code s (strikeDeckle c m t) := by
  have hs := engineFrame_strikeDeckle (c := c) (m := m) t
  have hkeep (j : Nat) (hj : j < 5) := hs.counts j hj List.not_mem_nil
  obtain ⟨⟨hothers, hbanks⟩, ⟨hfree, htiles, hmoves, hdone⟩, hpoison, hcounts, hreport⟩ := h
  refine ⟨⟨fun d hd => (hs.others d hd).trans (hothers d hd), fun n hn => (hs.banks n).trans (hbanks n hn)⟩,
    ⟨?_, counted_congr htiles rfl (hkeep 0 (by decide)), countedEach_congr hmoves rfl (hkeep 3 (by decide)), (hs.done _).trans hdone⟩,
    by rw [hs.banks, hpoison], counted_congr hcounts rfl (hkeep k (by omega)), reportFirst_of_sent hreport hs.sent⟩
  rw [getCore_strikeDeckle, getEngine_setEngine]
  exact hfree

/-- R66 on a second engine: the tile ends poisoned, and neither engine is fenced by it. -/
theorem deckleFault_ends (h : r.deckleFail.filter (· != m) = some m0) (value : List Nat) (act : Bool)
    (ht : t = deckleFault c m r 2 value act s) :
    FaultEnded c m r 2 2 s t ∧ (getEngine (getCore t c) m).lastKind = 2 ∧ (engineActive s c m = true → engineActive t c m = true) ∧
    (getEngine (getCore t c) m).deckleStrike = true ∧ fenceLifted c m r m0 [2] s t := by
  rw [deckleFault_second h] at ht
  generalize hv : mmaPoison c m r true _ = v at ht
  obtain ⟨hend, ⟨e, he, hengine⟩, hactive, hlifted⟩ :=
    (deckleNoted_noted r 2 value s).endsPoisoned (.inr rfl) true [2] 8 r.op.hdr.layer r.op.hdr.op _ hv.symm
  subst ht
  rw [getCore_strikeDeckle, getEngine_setEngine, hengine]
  exact ⟨hend.strikeDeckle (.inr rfl), he.parts.2.2, hactive, rfl, hlifted⟩

/-- A check failure on a second engine: the tile ends poisoned, without a strike or a fence. -/
theorem checkFault_ends (h : r.checkFail = some m0) (code row : Nat) (ht : t = checkFault c m r code row s) :
    FaultEnded c m r 1 code s t ∧ (engineActive s c m = true → engineActive t c m = true) ∧
    (getEngine (getCore t c) m).checkStrike = (getEngine (getCore s c) m).checkStrike ∧ (getEngine (getCore t c) m).lastKind = 7 ∧
    fenceLifted c m r m0 [3, 4, 5] s t := by
  rw [checkFault_second h] at ht
  obtain ⟨hend, ⟨e, he, hengine⟩, hactive, hlifted⟩ :=
    (checkNoted_noted r code 7 row s).endsPoisoned (.inl rfl) false [3, 4, 5] 7 r.op.hdr.layer r.op.hdr.op _ ht
  rw [hengine]
  exact ⟨hend, hactive, he.parts.2.1, he.parts.2.2, hlifted⟩

/-! ### Poisoned and parity-struck tiles (R89, R114 to R116) -/

/-- A tile without values: its re-execution ends it poisoned, and before that the engine holds it. -/
def tileHeld (c : CoreId) (m : MeId) (r : MmaRun) (again : Bool) (s : State) : State :=
  if again then mmaPoison c m r true s else holdRun c m r s

/-- How a tile without values stands. -/
def heldOrPoisoned (c : CoreId) (m : MeId) (r : MmaRun) (again : Bool) (s t : State) : Prop :=
  if again then tileDone c m r s t ∧ (getBank (getCore t c) r.op.bank.toNat).poison = true
  else (getEngine (getCore t c) m).reexec = some r ∧ getBank (getCore t c) r.op.bank.toNat = getBank (getCore s c) r.op.bank.toNat

theorem tileHeld_holds (h : EngineFrame c m [] s u) (again : Bool) : attemptFrame c r s (tileHeld c m r again u) ∧
    heldOrPoisoned c m r again s (tileHeld c m r again u) ∧
    (getEngine (getCore (tileHeld c m r again u) c) m).lastKind = (getEngine (getCore u c) m).lastKind ∧
    (tileHeld c m r again u).canopy = u.canopy ∧ (tileHeld c m r again u).regs = u.regs := by
  have hkeep (j : Nat) (hj : j < 5) := h.counts j hj List.not_mem_nil
  unfold tileHeld heldOrPoisoned
  cases again
  · obtain ⟨hframe, hbank⟩ := (h.trans (engineFrame_holdRun r u)).tile r
    simp only [Bool.false_eq_true, if_false]
    rw [getEngine_holdRun]
    exact ⟨hframe, ⟨rfl, hbank⟩, rfl, rfl, rfl⟩
  · obtain ⟨cols, hend⟩ := mmaPoison_ended (c := c) (m := m) r true u
    obtain ⟨⟨hothers, hbanks⟩, hfree, htiles, hmoves, hdone⟩ := hend.tile
    simp only [if_true]
    refine ⟨⟨fun d hd => (hothers d hd).trans (h.others d hd), fun n hn => (hbanks n hn).trans (h.banks n)⟩,
      ⟨⟨hfree, counted_congr htiles (hkeep 0 (by decide)).symm rfl, countedEach_congr hmoves (hkeep 3 (by decide)).symm rfl,
        hdone.trans (by rw [h.done])⟩, ?_⟩, ?_, hend.canopy, hend.regs⟩
    · rw [hend.bank]
      rfl
    · rw [hend.engine]
      rfl

/-- The sticky POISON bit of an engine's status. -/
def stickPoison (c : CoreId) (m : MeId) (s : State) : State := setSticky (engStatusOff m) c.val 4 s

theorem bit_stickPoison (s : State) (h : t.regs = (stickPoison c m s).regs) : bit (regW t (engStatusOff m) c.val) 4 = true := by
  rw [regW_of_regs h, stickPoison, bit_setSticky _ _ _ _ _ (by decide)]
  simp

theorem engineFrame_stickPoison (s : State) : EngineFrame c m [] s (stickPoison c m s) := .of_parts rfl rfl rfl

/-- A parity failure noted and reported. -/
def parityNoted (c : CoreId) (m : MeId) (r : MmaRun) (s : State) : State :=
  reportWith 6 (ucEngine c m) 0 (ucEngine c m) r.op.hdr.layer r.op.hdr.op [] (noteFault c m 6 r.op.hdr s)

theorem parityNoted_noted (r : MmaRun) (s : State) : EngineFrame c m [] s (parityNoted c m r s) ∧
    reportFirst 6 (ucEngine c m) (ucEngine c m) s (parityNoted c m r s) ∧ (getEngine (getCore (parityNoted c m r s) c) m).lastKind = 6 := by
  obtain ⟨e, hcore, he⟩ := noteFault_core c m 6 r.op.hdr s
  refine ⟨(engineFrame_noteFault _ _ _).trans (.reportWith _ _ _ _ _ _ _ _),
    reportFirst_reportWith _ _ _ _ (congrArg Canopy.transit (noteFault_canopy _ _ _ _ _)), ?_⟩
  rw [parityNoted, getCore_reportWith, hcore, getEngine_setEngine]
  exact he.parts.2.2

/-! ### Every outcome of an attempt -/

/-- An attempt at a tile goes on by its outcome. -/
def tileTried (c : CoreId) (m : MeId) (r : MmaRun) (again : Bool) (s : State) : TileOut → State
  | .values cols skips => mmaFinish c m r (cols.map (fun col => col.map toF32)) (r.op.keep && (getBank (getCore s c) r.op.bank.toNat).poison)
      true skips { s with fresh := s.fresh + mmaM r.op * mmaNb r.op }
  | .format act j => deckleFault c m r 2 [j] act s
  | .skew ex rc j => deckleFault c m r 1 [ex, rc, j] false s
  | .exact row => checkFault c m r 3 row s
  | .bound row => checkFault c m r 4 row s
  | .residue row => checkFault c m r 5 row s
  | .parity => tileHeld c m r again (stickPoison c m (parityNoted c m r s))
  | .poison => tileHeld c m r again (stickPoison c m s)

/-- How a check failure ends (R117 to R119). -/
def checkEnds (c : CoreId) (m : MeId) (r : MmaRun) (s t : State) (code : Nat) : Prop :=
  counted (cntEngine (4 * c.val + m.val) 1) 1 s t ∧ reportFirst code (ucEngine c m) (ucEngine c m) s t ∧
  match r.checkFail with
  | some m0 => tileDone c m r s t ∧ (getBank (getCore t c) r.op.bank.toNat).poison = true ∧
    (engineActive s c m = true → engineActive t c m = true) ∧
    (getEngine (getCore t c) m).checkStrike = (getEngine (getCore s c) m).checkStrike ∧ (getEngine (getCore t c) m).lastKind = 7 ∧
    fenceLifted c m r m0 [3, 4, 5] s t
  | none => getBank (getCore t c) r.op.bank.toNat = getBank (getCore s c) r.op.bank.toNat ∧ (getEngine (getCore t c) m).reexec = none ∧
    (getEngine (getCore t c) m).checkStrike = true ∧ (getEngine (getCore t c) m).checkClean = 0 ∧
    (otherEngine s c m = true → (getCore t c).reissue.getLast? =
      some { r with checkFail := some m, fenced := (getEngine (getCore s c) m).checkStrike, moved := true }) ∧
    ((getEngine (getCore s c) m).checkStrike = true → engineActive t c m = false)

theorem checkFault_checkEnds (code row : Nat) (ht : t = checkFault c m r code row s) : attemptFrame c r s t ∧ checkEnds c m r s t code := by
  unfold checkEnds
  cases h : r.checkFail with
  | some m0 =>
    obtain ⟨hend, hactive, hstrike, hkind, hlifted⟩ := checkFault_ends h code row ht
    exact ⟨hend.frame, hend.counts, hend.reported, hend.done, hend.poison, hactive, hstrike, hkind, hlifted⟩
  | none =>
    obtain ⟨hshown, ⟨e, -, hengine⟩, hlast, hout⟩ := checkFault_moves (c := c) (m := m) (s := s) h code row
    rw [← ht] at hshown hengine hlast hout
    obtain ⟨hframe, hbank⟩ := hshown.frame.tile r
    rw [hengine]
    exact ⟨hframe, hshown.counts, hshown.reported, hbank, rfl, rfl, rfl, hlast, hout⟩

/-- What each outcome of an attempt comes to. -/
def outcomeEnds (c : CoreId) (m : MeId) (r : MmaRun) (again : Bool) (s t : State) : TileOut → Prop
  | .values cols skips =>
    getBank (getCore t c) r.op.bank.toNat = writeCols (getBank (getCore s c) r.op.bank.toNat) (cols.map (fun col => col.map toF32))
      (r.op.keep && (getBank (getCore s c) r.op.bank.toNat).poison) ∧
    tileDone c m r s t ∧ t.canopy = s.canopy ∧ t.regs = s.regs ∧ counted (cntEngine (4 * c.val + m.val) 4) skips s t ∧
    getEngine (getCore t c) m = { getEngine (getCore s c) m with
      deckleClean := if (getEngine (getCore s c) m).deckleStrike then (getEngine (getCore s c) m).deckleClean + 1 else 0
      checkClean := if (getEngine (getCore s c) m).checkStrike then (getEngine (getCore s c) m).checkClean + 1 else 0
      reexec := none }
  | .parity => bit (regW t (engStatusOff m) c.val) 4 = true ∧ reportFirst 6 (ucEngine c m) (ucEngine c m) s t ∧
    (getEngine (getCore t c) m).lastKind = 6 ∧ heldOrPoisoned c m r again s t
  | .poison => bit (regW t (engStatusOff m) c.val) 4 = true ∧ t.canopy = s.canopy ∧ heldOrPoisoned c m r again s t
  | .skew _ _ _ => counted (cntEngine (4 * c.val + m.val) 2) 1 s t ∧
    getBank (getCore t c) r.op.bank.toNat = getBank (getCore s c) r.op.bank.toNat ∧
    reportFirst 1 (ucEngine c m) (ucEngine c m) s t ∧ (getEngine (getCore t c) m).lastKind = 1 ∧
    ((getEngine (getCore s c) m).deckleStrike = false → (getEngine (getCore t c) m).deckleStrike = true ∧
      (getEngine (getCore t c) m).deckleClean = 0 ∧ (getEngine (getCore t c) m).reexec = some r) ∧
    ((getEngine (getCore s c) m).deckleStrike = true → engineActive t c m = false ∧ (getEngine (getCore t c) m).reexec = none)
  | .format _ _ => counted (cntEngine (4 * c.val + m.val) 2) 1 s t ∧ reportFirst 2 (ucEngine c m) (ucEngine c m) s t ∧
    (getEngine (getCore t c) m).lastKind = 2 ∧
    match r.deckleFail.filter (· != m) with
    | some m0 => tileDone c m r s t ∧ (getBank (getCore t c) r.op.bank.toNat).poison = true ∧
      (engineActive s c m = true → engineActive t c m = true) ∧ (getEngine (getCore t c) m).deckleStrike = true ∧
      fenceLifted c m r m0 [2] s t
    | none => getBank (getCore t c) r.op.bank.toNat = getBank (getCore s c) r.op.bank.toNat ∧
      ((getEngine (getCore s c) m).deckleStrike = false → (getEngine (getCore t c) m).deckleStrike = true ∧
        (getEngine (getCore t c) m).deckleClean = 0 ∧
        (getEngine (getCore t c) m).reexec = some { r with deckleFail := some m, fenced := false }) ∧
      ((getEngine (getCore s c) m).deckleStrike = true → engineActive t c m = false ∧ (getEngine (getCore t c) m).reexec = none ∧
        (otherEngine s c m = true → (getCore t c).reissue.getLast? =
          some { r with deckleFail := some m, fenced := true, moved := true }))
  | .exact _ => checkEnds c m r s t 3
  | .bound _ => checkEnds c m r s t 4
  | .residue _ => checkEnds c m r s t 5

/-- How a first deckle fault of a command on an engine ends (R88 to R91). -/
theorem deckleFault_started (h : code = 2 → r.deckleFail.filter (· != m) = none) (value : List Nat) (act : Bool)
    (ht : t = deckleFault c m r code value act s) :
    FaultShown c m 2 code s t ∧ (getEngine (getCore t c) m).lastKind = BitVec.ofNat 8 code ∧
    ((getEngine (getCore s c) m).deckleStrike = false → (getEngine (getCore t c) m).deckleStrike = true ∧
      (getEngine (getCore t c) m).deckleClean = 0 ∧ (getEngine (getCore t c) m).reexec = some (deckleRun m r code false)) ∧
    ((getEngine (getCore s c) m).deckleStrike = true → engineActive t c m = false ∧ (getEngine (getCore t c) m).reexec = none ∧
      (otherEngine s c m = true → (getCore t c).reissue.getLast? = some { deckleRun m r code true with moved := true })) := by
  cases hs : (getEngine (getCore s c) m).deckleStrike
  · obtain ⟨hshown, e, he, hengine⟩ := deckleFault_holds (c := c) h value act hs
    rw [← ht] at hshown hengine
    rw [hengine]
    exact ⟨hshown, he.parts.2.2, fun _ => ⟨rfl, rfl, rfl⟩, fun hc => absurd hc Bool.false_ne_true⟩
  · obtain ⟨hshown, hout, ⟨e, he, hengine⟩, hlast⟩ := deckleFault_fences (c := c) h value act hs
    rw [← ht] at hshown hout hengine hlast
    rw [hengine]
    exact ⟨hshown, he.parts.2.2, fun hc => absurd hc.symm Bool.false_ne_true, fun _ => ⟨hout, rfl, hlast⟩⟩

theorem deckleFault_skewEnds (ex rc j : Nat) (ht : t = deckleFault c m r 1 [ex, rc, j] false s) :
    attemptFrame c r s t ∧ outcomeEnds c m r again s t (.skew ex rc j) := by
  obtain ⟨hshown, hkind, hfirst, hstruck⟩ := deckleFault_started (fun h => absurd h (by decide)) _ _ ht
  obtain ⟨hframe, hbank⟩ := hshown.frame.tile r
  exact ⟨hframe, hshown.counts, hbank, hshown.reported, hkind, hfirst, fun h => ⟨(hstruck h).1, (hstruck h).2.1⟩⟩

theorem deckleFault_formatEnds (act : Bool) (j : Nat) (ht : t = deckleFault c m r 2 [j] act s) :
    attemptFrame c r s t ∧ outcomeEnds c m r again s t (.format act j) := by
  unfold outcomeEnds
  cases h : r.deckleFail.filter (· != m) with
  | some m0 =>
    obtain ⟨hend, hkind, hactive, hstrike, hlifted⟩ := deckleFault_ends h _ _ ht
    exact ⟨hend.frame, hend.counts, hend.reported, hkind, hend.done, hend.poison, hactive, hstrike, hlifted⟩
  | none =>
    obtain ⟨hshown, hkind, hfirst, hstruck⟩ := deckleFault_started (fun _ => h) _ _ ht
    obtain ⟨hframe, hbank⟩ := hshown.frame.tile r
    exact ⟨hframe, hshown.counts, hshown.reported, hkind, hbank, hfirst, hstruck⟩

theorem tileTried_ends (again : Bool) (s : State) (o : TileOut) (ht : t = tileTried c m r again s o) :
    attemptFrame c r s t ∧ outcomeEnds c m r again s t o := by
  cases o with
  | values cols skips =>
    have h := mmaFinish_ended (c := c) (m := m) r (cols.map (fun col => col.map toF32))
      (r.op.keep && (getBank (getCore s c) r.op.bank.toNat).poison) true skips { s with fresh := s.fresh + mmaM r.op * mmaNb r.op }
    rw [show mmaFinish c m r _ _ true skips _ = t from ht.symm] at h
    obtain ⟨hframe, hdone⟩ := h.tile
    refine ⟨hframe, h.bank, hdone, h.canopy, h.regs, h.skipped, h.engine.trans ?_⟩
    simp only [agedEngine, Bool.and_true]
    rfl
  | format act j => exact deckleFault_formatEnds act j ht
  | skew ex rc j => exact deckleFault_skewEnds ex rc j ht
  | exact row => exact checkFault_checkEnds 3 row ht
  | bound row => exact checkFault_checkEnds 4 row ht
  | residue row => exact checkFault_checkEnds 5 row ht
  | parity =>
    obtain ⟨hnoted, hreport, hkind⟩ := parityNoted_noted (c := c) (m := m) r s
    obtain ⟨hframe, hheld, hlast, hcanopy, hregs⟩ := tileHeld_holds (r := r) (hnoted.trans (engineFrame_stickPoison _)) again
    subst ht
    exact ⟨hframe, bit_stickPoison _ hregs, reportFirst_of_sent hreport ⟨[], by rw [tileTried, hcanopy, List.append_nil]; rfl⟩,
      hlast.trans hkind, hheld⟩
  | poison =>
    obtain ⟨hframe, hheld, -, hcanopy, hregs⟩ := tileHeld_holds (r := r) (engineFrame_stickPoison (c := c) (m := m) s) again
    subst ht
    exact ⟨hframe, bit_stickPoison _ hregs, hcanopy, hheld⟩

end Sys2Proof.Machine
end

section
/-! PROOFS. The matrix engines: how an attempt at a tile begins, and the three commands. -/

namespace Sys2Proof.Machine

variable {c : CoreId} {again : Bool} {m : MeId} {r : MmaRun} {s t u v : State}

/-! ### What an attempt reads -/

/-- An attempt at a tile reads of the machine its core's tile memory and banks, the image in its context's slot, and what the hardware
is free in. -/
theorem attemptTile_congr {ctx : CtxId} {cs : Vector Ctx 2} {rs : List MmaRun} {l : Nat} (op : MmaOp) (f : EngineFault)
    (hcore : getCore t c = { getCore s c with ctxs := cs, reissue := rs, lastRun := l })
    (hslot : (getCtx (getCore t c) ctx).slot = (getCtx (getCore s c) ctx).slot) (hslots : t.slots = s.slots) (hfresh : t.fresh = s.fresh) :
    attemptTile t c ctx op f = attemptTile s c ctx op f := by
  unfold attemptTile sideEntryOf layerCuts
  simp only [hslot, hslots, hfresh]
  rw [hcore]
  generalize getCore s c = x
  rfl

/-! ### How an attempt begins -/

/-- What a command that begins at an engine leaves: all that its attempt reads, and all that its end speaks of. -/
structure TileBegun (c : CoreId) (m : MeId) (s t : State) : Prop where
  others : coreFrame c s t
  core : ∃ cs rs l, getCore t c = { getCore s c with ctxs := cs, reissue := rs, lastRun := l }
  slot : ∀ i, (getCtx (getCore t c) i).slot = (getCtx (getCore s c) i).slot
  done : ∀ i, (getCtx (getCore t c) i).done = (getCtx (getCore s c) i).done
  counts : ∀ k < 5, cntGet t (cntEngine (4 * c.val + m.val) k) = cntGet s (cntEngine (4 * c.val + m.val) k)
  canopy : t.canopy = s.canopy
  regs : t.regs = s.regs
  slots : t.slots = s.slots

namespace TileBegun

theorem of_cores (hcores : t.cores = s.cores)
    (hcounts : ∀ k < 5, cntGet t (cntEngine (4 * c.val + m.val) k) = cntGet s (cntEngine (4 * c.val + m.val) k))
    (hcanopy : t.canopy = s.canopy) (hregs : t.regs = s.regs) (hslots : t.slots = s.slots) : TileBegun c m s t :=
  have h := getCore_of_cores hcores
  ⟨fun d _ => h d, ⟨_, _, _, h c⟩, fun _ => by rw [h], fun _ => by rw [h], hcounts, hcanopy, hregs, hslots⟩

theorem trans (h : TileBegun c m s t) (h' : TileBegun c m t u) : TileBegun c m s u := by
  obtain ⟨cs, rs, l, hcore⟩ := h.core
  obtain ⟨cs', rs', l', hcore'⟩ := h'.core
  exact ⟨fun d hd => (h'.others d hd).trans (h.others d hd), ⟨cs', rs', l', by rw [hcore', hcore]⟩,
    fun i => (h'.slot i).trans (h.slot i), fun i => (h'.done i).trans (h.done i), fun k hk => (h'.counts k hk).trans (h.counts k hk),
    h'.canopy.trans h.canopy, h'.regs.trans h.regs, h'.slots.trans h.slots⟩

theorem setCore {x : CoreState} (hcore : ∃ cs rs l, x = { getCore s c with ctxs := cs, reissue := rs, lastRun := l })
    (hslot : ∀ i, (getCtx x i).slot = (getCtx (getCore s c) i).slot) (hdone : ∀ i, (getCtx x i).done = (getCtx (getCore s c) i).done) :
    TileBegun c m s (setCore c x s) :=
  ⟨fun d hd => getCore_setCore_ne s c _ hd, by rwa [getCore_setCore], fun i => by rw [getCore_setCore, hslot],
    fun i => by rw [getCore_setCore, hdone], fun _ _ => rfl, rfl, rfl, rfl⟩

theorem startCmdCnt {k : Nat} (hk : 5 ≤ k) (op : W16) (s : State) :
    TileBegun c m s (startCmdCnt (cntEngine (4 * c.val + m.val) k) op s) :=
  have hframe := startCmdCnt_frame (m0 := 2684354560) (by decide) (cntEngine (4 * c.val + m.val) k) op s
  of_cores (cores_of_proj hframe) (fun j hj => mapGetD_mapSetD_other 0 _ s.counters (cntEngine_ne _ (j := j) (k := k) (by omega)))
    (canopy_of_proj hframe) (regs_of_proj hframe) (slots_of_proj hframe)

theorem traceStart (w : UnitCode) (ctx : CtxId) (h : CmdHdr) (opcode eng : Nat) (s : State) :
    TileBegun c m s (traceStart c w ctx h opcode eng s) :=
  have hframe := traceStart_frame (m0 := 2684354816) (by decide) c w ctx h opcode eng s
  of_cores (cores_of_proj hframe) (fun _ hk => cntGet_emitTrace _ _ _ _ _ _ (cntEngine_lt c m (by omega)))
    (canopy_of_proj hframe) (regs_of_proj hframe) (slots_of_proj hframe)

theorem ctxIssued (ctx : CtxId) (h : CmdHdr) (s : State) : TileBegun c m s (ctxIssued c ctx h s) := by
  have hctx (i : CtxId) :
      let y := getCtx (setCtx ctx { getCtx (getCore s c) ctx with lastOp := h.op, lastLayer := h.layer } (getCore s c)) i
      y.slot = (getCtx (getCore s c) i).slot ∧ y.done = (getCtx (getCore s c) i).done := by
    by_cases hi : i = ctx
    · subst hi
      rw [getCtx_setCtx]
      exact ⟨rfl, rfl⟩
    · rw [getCtx_setCtx_ne _ _ _ hi]
      exact ⟨rfl, rfl⟩
  exact .setCore ⟨_, _, _, rfl⟩ (fun i => (hctx i).1) (fun i => (hctx i).2)

/-- How a tile ends is the same seen from before the command began. -/
theorem outcomeEnds_eq (h : TileBegun c m s u) (r : MmaRun) (t : State) (o : TileOut) :
    outcomeEnds c m r again s t o = outcomeEnds c m r again u t o := by
  obtain ⟨cs, rs, l, hcore⟩ := h.core
  have hbank (n : Nat) : getBank (getCore u c) n = getBank (getCore s c) n := by rw [hcore]; rfl
  have hengine : getEngine (getCore u c) m = getEngine (getCore s c) m := by rw [hcore]; rfl
  have hunit (x : UnitCode) : unitRec u x = unitRec s x := unitRec_of_units (by rw [h.canopy]) x
  have hactive (j : MeId) : engineActive u c j = engineActive s c j := by rw [engineActive, unitActive, hunit]; rfl
  have hother : otherEngine u c m = otherEngine s c m := by simp only [otherEngine, hactive]
  cases o <;> simp only [outcomeEnds, checkEnds, heldOrPoisoned, tileDone, fenceLifted, counted, countedEach, reportFirst,
    hbank, hengine, hunit, hactive, hother, h.done, h.canopy, h.regs, h.counts _ (show 0 < 5 by decide), h.counts _ (show 1 < 5 by decide),
    h.counts _ (show 2 < 5 by decide), h.counts _ (show 3 < 5 by decide), h.counts _ (show 4 < 5 by decide)]

theorem attemptFrame_from (h : TileBegun c m s u) (ht : attemptFrame c r u t) : attemptFrame c r s t := by
  obtain ⟨cs, rs, l, hcore⟩ := h.core
  refine ⟨fun d hd => (ht.1 d hd).trans (h.others d hd), fun n hn => (ht.2 n hn).trans ?_⟩
  rw [hcore]
  rfl

end TileBegun

/-- The engine's command counters start. -/
def engineCounted (c : CoreId) (m : MeId) (r : MmaRun) (s : State) : State :=
  startCmdCnt (cntEngine (4 * c.val + m.val) 6) r.op.hdr.op (startCmdCnt (cntEngine (4 * c.val + m.val) 5) r.op.hdr.op s)

theorem mmaAttempt_eq (c : CoreId) (m : MeId) (r : MmaRun) (f : EngineFault) (again : Bool) (s : State) : mmaAttempt c m r f again s =
    tileTried c m r again (engineCounted c m r s) (attemptTile (engineCounted c m r s) c r.ctx r.op f) := by
  unfold mmaAttempt
  cases h : attemptTile (engineCounted c m r s) c r.ctx r.op f <;> simp only [engineCounted] at h <;> simp only [h] <;> rfl

/-- An attempt at a tile, of a command that began in `s`, ends as what it finds says. -/
theorem mmaAttempt_ends (f : EngineFault) (again : Bool) (h : TileBegun c m s u) (ht : t = mmaAttempt c m r f again u) :
    attemptFrame c r s t ∧ ∃ n, outcomeEnds c m r again s t (attemptTile { s with fresh := n } c r.ctx r.op f) := by
  have hbegun := (h.trans (.startCmdCnt (k := 5) (by decide) r.op.hdr.op u)).trans (.startCmdCnt (k := 6) (by decide) r.op.hdr.op _)
  rw [mmaAttempt_eq] at ht
  obtain ⟨cs, rs, l, hcore⟩ := hbegun.core
  have hreads := attemptTile_congr (s := { s with fresh := (engineCounted c m r u).fresh }) r.op f hcore (hbegun.slot r.ctx) hbegun.slots rfl
  obtain ⟨hframe, hends⟩ := tileTried_ends again _ _ ht
  refine ⟨hbegun.attemptFrame_from hframe, (engineCounted c m r u).fresh, ?_⟩
  rw [← hreads, hbegun.outcomeEnds_eq]
  exact hends

/-! ### The three commands -/

/-- What the statement says of a command's next state. -/
def attemptEnds (c : CoreId) (s : State) (m : MeId) (r : MmaRun) (f : EngineFault) (again : Bool) (t : State) : Prop :=
  coreFrame c s t ∧ (∀ n, n ≠ r.op.bank.toNat → getBank (getCore t c) n = getBank (getCore s c) n) ∧
  t = { s with cores := t.cores, canopy := t.canopy, trace := t.trace, regs := t.regs, counters := t.counters, fresh := t.fresh } ∧
  ∃ n, outcomeEnds c m r again s t (attemptTile { s with fresh := n } c r.ctx r.op f)

/-- A command that has begun at an engine, and then attempts its tile, ends so. -/
theorem attemptEnds_of_begun {f : EngineFault} {res : Res} (hframe : outProj 2952790308 s res) (h : TileBegun c m s u)
    (hres : res = .next (mmaAttempt c m r f again u)) : ∃ t, res = .next t ∧ attemptEnds c s m r f again t := by
  obtain ⟨⟨hothers, hbanks⟩, hends⟩ := mmaAttempt_ends f again h rfl
  exact ⟨_, hres, hothers, hbanks, eq_withParts (next_eq hres hframe), hends⟩

/-- The command of an MMA that begins. -/
def freshRun (ctx : CtxId) (op : MmaOp) : MmaRun :=
  { ctx := ctx, op := op, checkFail := none, deckleFail := none, fenced := false, moved := false }

theorem issueMma_of_engine {ctx : CtxId} {op : MmaOp} (f : EngineFault) (hlisted : mmaListed op = true) (hinside : mmaInside op = true)
    (hissue : canIssue s c ctx op.hdr = true) (hbank : bankHazard (getCore s c) ctx op.bank.toNat = false)
    (hfence : op.fence = true → ctxBusy (getCore s c) ctx = false) (hengine : engineFor s c op.engine [] = some m) :
    issueMma c ctx op f s = .next (mmaAttempt c m (freshRun ctx op) f false
      (traceStart c (ucEngine c m) ctx op.hdr 1 m.val (ctxIssued c ctx op.hdr s))) := by
  have hclear : (op.fence && ctxBusy (getCore s c) ctx) = false := by
    cases h : op.fence
    · rfl
    · exact hfence h
  unfold issueMma
  simp only [hlisted, hinside, hissue, hbank, hclear, hengine, Bool.not_true, Bool.or_false, Bool.false_eq_true, if_false]
  rfl

/-- Settles O15: every command that attempts a tile leaves what its attempt reads as it stood, and each outcome ends as its own lemma
says. -/
theorem tileAttempts : Obligations.TileAttempts := by
  intro c s ends
  refine ⟨fun ctx op f m hlisted hinside hissue hbank hfence hengine => ?_, fun m f r hheld hactive => ?_,
    fun m f r rest hreissue hactive hfree hcheck hdeckle => ?_⟩
  · have hmma := issueMma_of_engine f hlisted hinside hissue hbank hfence hengine
    have hexec : exec (.mma c ctx op f) s = standBack (outranked s c ctx (some (.engine m))) s (issueMma c ctx op f s) := by
      change execMma c ctx op f s = _
      rw [execMma, hengine]
      rfl
    rw [hmma] at hexec
    refine ⟨fun hfirst => ?_, fun hout => by rw [hexec, hout]; rfl⟩
    rw [hfirst] at hexec
    exact attemptEnds_of_begun (execMma_frame (by decide) c ctx op f s) ((TileBegun.ctxIssued ctx op.hdr s).trans (.traceStart _ _ _ _ _ _)) hexec
  · have hexec : execTileReexecute c m f s = .next (mmaAttempt c m r f true s) := by
      rw [execTileReexecute, hheld]
      exact if_pos hactive
    exact attemptEnds_of_begun (execTileReexecute_frame (by decide) c m f s) (.of_cores rfl (fun _ _ => rfl) rfl rfl rfl) hexec
  · have hgo : (engineActive s c m && (getEngine (getCore s c) m).reexec == none && r.checkFail != some m && r.deckleFail != some m) = true := by
      simp [hactive, hfree, hcheck, hdeckle]
    have hexec : execMmaReissue c m f s = .next (mmaAttempt c m { r with moved := true } f false (traceStart c (ucEngine c m) r.ctx
        r.op.hdr 1 m.val (setCore c { getCore s c with reissue := rest } s))) := by
      rw [execMmaReissue, hreissue]
      exact if_pos hgo
    have hbegun : TileBegun c m s (setCore c { getCore s c with reissue := rest } s) := .setCore ⟨_, _, _, rfl⟩ (fun _ => rfl) fun _ => rfl
    exact attemptEnds_of_begun (execMmaReissue_frame (by decide) c m f s) (hbegun.trans (.traceStart _ _ _ _ _ _)) hexec

end Sys2Proof.Machine
end

section
/-! PROOFS. Vector instructions: how a listed one runs, and the lane-wise ones. -/

namespace Sys2Proof.Machine

variable {c : CoreId} {v : VOps} {s : State} {listed : Bool} {srcs : List (BitVec 8)}

/-! ### A listed instruction on a core in service -/

theorem vRun_listed (hactive : coreActive s c.val = true) (hlisted : listed = true) (f : State → State) :
    vRun c listed f s = .next (vDone c (f s)) := by
  simp only [vRun, hlisted, hactive, Bool.not_true, Bool.false_eq_true, if_false]

theorem withResidue_match (hactive : coreActive s c.val = true) (hlisted : listed = true) (hresid : v.resid = 0) (f : State → State) :
    withResidue c v listed f s = .next (vDone c (f s)) := by
  simp [withResidue, hlisted, hactive, hresid]

/-! ### What an instruction that changes its core leaves -/

/-- An instruction that puts `y` in place of its core, and sets flags, leaves all else. -/
theorem vecFrame_setCore (c : CoreId) (fs : List Nat) (y : CoreState) (s : State) :
    vecFrame c [] s (vDone c (setVFlags c fs (setCore c y s))) :=
  vecFrame_vDone c [] fs s _ rfl (fun _ hd => getCore_setCore_ne _ _ _ hd) (fun _ _ => rfl) List.not_mem_nil

theorem flagsAdded_setCore (c : CoreId) (fs : List Nat) (y : CoreState) (s : State) :
    flagsAdded c fs s (vDone c (setVFlags c fs (setCore c y s))) := flagsAdded_vDone c fs s _ rfl

/-- The core that such an instruction leaves is `y` with the flags' record and the position. -/
theorem getCore_vDone_setCore (c : CoreId) (fs : List Nat) (y : CoreState) (s : State) :
    ∃ o l p b, getCore (vDone c (setVFlags c fs (setCore c y s))) c =
      { y with ve := { y.ve with flagOp := o, flagLayer := l, flagPos := p, flagBit := b, pos := y.ve.pos + 1 } } := by
  have h := getCore_vDone_setVFlags c fs (setCore c y s)
  rwa [getCore_setCore] at h

/-- The whole effect of an instruction that writes one destination. -/
theorem destWrites_vDone (c : CoreId) (vd : BitVec 8) {lanes : List (Option W32)} {f : Nat → W32} {keeps : Bool} (poison : Bool)
    (fs : List Nat) (s : State) (hlen : lanes.length = 128)
    (hf : ∀ i (hi : i < 128), ((lanes[i]'(by omega)).getD (laneOf (readVec (getCore s c) vd) i)) = f i)
    (hkeep : lanes.any (·.isNone) = keeps) :
    destWrites c vd f poison keeps fs [] s (vDone c (setVFlags c fs (setCore c (writeVec vd lanes poison (getCore s c)) s))) :=
  destWrites_of c vd lanes f poison keeps fs [] s _ hlen hf hkeep (getCore_setCore _ _ _) rfl
    (fun _ hd => getCore_setCore_ne _ _ _ hd) (fun _ _ => rfl) List.not_mem_nil

/-! ### Lanes from lists of outcomes -/

theorem getD_map_readVec (x : CoreState) (n : BitVec 8) (g : W32 → LaneOut) {i : Nat} (hi : i < 128) :
    ((readVec x n).map g).getD i (laneBits 0) = g (laneOf (readVec x n) i) := by
  simp [laneOf, List.getD, hi]

theorem getD_zipWith_readVec (x : CoreState) (n m : BitVec 8) (g : W32 → W32 → LaneOut) {i : Nat} (hi : i < 128) :
    (List.zipWith g (readVec x n) (readVec x m)).getD i (laneBits 0) = g (laneOf (readVec x n) i) (laneOf (readVec x m) i) := by
  simp [laneOf, List.getD, hi]

/-- Writing lane outcomes is the whole effect of a lane-wise instruction. -/
theorem laneWise_vDone {F : CoreState → List LaneOut} {f : CoreState → Nat → LaneOut} (hlen : (F (getCore s c)).length = 128)
    (hf : ∀ i < 128, (F (getCore s c)).getD i (laneBits 0) = f (getCore s c) i) :
    laneWise c v srcs f s (vDone c (writeLanes c v srcs F s)) := laneWise_writeLanes c v srcs F f s s.fresh hlen hf

theorem vRun_laneWise {F : CoreState → List LaneOut} {f : CoreState → Nat → LaneOut} (hactive : coreActive s c.val = true)
    (hlisted : listed = true) (hlen : (F (getCore s c)).length = 128)
    (hf : ∀ i < 128, (F (getCore s c)).getD i (laneBits 0) = f (getCore s c) i) :
    ∃ t, vRun c listed (writeLanes c v srcs F) s = .next t ∧ laneWise c v srcs f s t :=
  ⟨_, vRun_listed hactive hlisted _, laneWise_vDone hlen hf⟩

theorem withResidue_laneWise {F : CoreState → List LaneOut} {f : CoreState → Nat → LaneOut} (hactive : coreActive s c.val = true)
    (hresid : v.resid = 0) (hlisted : listed = true) (hlen : (F (getCore s c)).length = 128)
    (hf : ∀ i < 128, (F (getCore s c)).getD i (laneBits 0) = f (getCore s c) i) :
    ∃ t, withResidue c v listed (writeLanes c v srcs F) s = .next t ∧ laneWise c v srcs f s t :=
  ⟨_, withResidue_match hactive hlisted hresid _, laneWise_vDone hlen hf⟩

/-! ### Instructions on one and two sources -/

theorem lane1_laneWise {ok : Bool} {g : VTy → W32 → LaneOut} {f : CoreState → Nat → LaneOut} (hactive : coreActive s c.val = true)
    (hlisted : listed1 v (vty v.ty.toNat) = true) (hok : ok = true) (hf : ∀ x i, g (vtyD v) (laneOf (readVec x v.va) i) = f x i) :
    ∃ t, lane1 c v ok g s = .next t ∧ laneWise c v [v.va] f s t :=
  vRun_laneWise hactive (by rw [hlisted, hok]; rfl) (by simp) (fun _ hi => (getD_map_readVec _ _ _ hi).trans (hf _ _))

theorem lane2_laneWise {ok : Bool} {g : VTy → W32 → W32 → LaneOut} {f : CoreState → Nat → LaneOut} (hactive : coreActive s c.val = true)
    (hlisted : listed2 v (vty v.ty.toNat) = true) (hok : ok = true)
    (hf : ∀ x i, g (vtyD v) (laneOf (readVec x v.va) i) (laneOf (readVec x v.vb) i) = f x i) :
    ∃ t, lane2 c v ok g s = .next t ∧ laneWise c v [v.va, v.vb] f s t :=
  vRun_laneWise hactive (by rw [hlisted, hok]; rfl) (by simp) (fun _ hi => (getD_zipWith_readVec _ _ _ _ hi).trans (hf _ _))

theorem arith2_laneWise (hactive : coreActive s c.val = true) (hresid : v.resid = 0) (hlisted : listed2 v (vty v.ty.toNat) = true)
    (fv : FV → FV → FV) (iv : Int → Int → Int) :
    ∃ t, arith2 c v fv iv s = .next t ∧ laneWise c v [v.va, v.vb]
      (fun x i => binLane (vtyD v) fv iv (laneOf (readVec x v.va) i) (laneOf (readVec x v.vb) i)) s t :=
  withResidue_laneWise hactive hresid hlisted (by simp) (fun _ hi => getD_zipWith_readVec _ _ _ _ hi)

/-! ### ADD, SUB, MUL, FMA, DIV and SQRT (R135, R136) -/

theorem fma_laneWise (hactive : coreActive s c.val = true) (hresid : v.resid = 0) (hlisted : listed2 v (vty v.ty.toNat) = true) :
    ∃ t, execFma c v s = .next t ∧ laneWise c v [v.va, v.vb, v.vd]
      (fun x i =>
        let a := laneOf (readVec x v.va) i
        let b := laneOf (readVec x v.vb) i
        let d := laneOf (readVec x v.vd) i
        if (vtyD v).isFloat then
          floatOut (vtyD v) [a, b, d] (addExact (mulExact (laneFV (vtyD v) a) (laneFV (vtyD v) b)) (laneFV (vtyD v) d))
        else intOut (vtyD v) (laneInt (vtyD v) d + laneInt (vtyD v) a * laneInt (vtyD v) b)) s t :=
  withResidue_laneWise hactive hresid hlisted (by simp) (fun i hi => by simp [laneOf, List.getD, hi, List.zip])

/-- Settles O1: each instruction writes its outcome lane by lane, under the residue check that matches. -/
theorem vectorArithmetic : Obligations.VectorArithmetic := by
  intro c v s hactive hresid
  refine ⟨fun hlisted => ⟨arith2_laneWise hactive hresid hlisted _ _, arith2_laneWise hactive hresid hlisted _ _,
    arith2_laneWise hactive hresid hlisted _ _, fma_laneWise hactive hresid hlisted, fun hfloat => ?_⟩, fun hlisted hfloat => ?_⟩
  · exact withResidue_laneWise hactive hresid (by rw [hlisted, hfloat]; rfl) (by simp) (fun _ hi => getD_zipWith_readVec _ _ _ _ hi)
  · exact withResidue_laneWise hactive hresid (by rw [hlisted, hfloat]; rfl) (by simp) (fun _ hi => getD_map_readVec _ _ _ hi)

end Sys2Proof.Machine
end

section
/-! PROOFS. Vector instructions: choice, signs, bits, constants and the transcendental functions. -/

namespace Sys2Proof.Machine

variable {c : CoreId} {v : VOps} {s : State}

/-! ### MAX, MIN, ABS, NEG, MOV and SEL (R132, R133, R135) -/

theorem sel_writes (hactive : coreActive s c.val = true) (hlisted : listed2 v (vty v.ty.toNat) = true) :
    ∃ t, execSel c v s = .next t ∧
      destWrites c v.vd
        (fun i => if i < (getCore s c).ve.vl then
            moveLane (vtyD v) (laneOf (readVec (getCore s c) (if (readMask (getCore s c) v.msk.toNat).getLsbD i then v.va else v.vb)) i)
          else if v.mz then 0 else laneOf (readVec (getCore s c) v.vd) i)
        (srcPoison (getCore s c) v [v.va, v.vb]) (!v.mz && decide ((getCore s c).ve.vl < 128))
        (flagList [(srcPoison (getCore s c) v [v.va, v.vb], vfPoison)]) [] s t := by
  refine ⟨_, vRun_listed hactive hlisted _, destWrites_vDone c v.vd _ _ s (by simp) (fun i hi => ?_) ?_⟩
  · rw [List.getElem_map, List.getElem_range]
    cases (readMask (getCore s c) v.msk.toNat).getLsbD i <;> split_ifs <;> rfl
  · rw [List.any_map, Bool.eq_iff_iff]
    cases v.mz
    · simp only [List.any_eq_true, List.mem_range, Function.comp, Bool.not_false, Bool.true_and, decide_eq_true_eq]
      refine ⟨fun ⟨i, hi, h⟩ => ?_, fun h => ⟨(getCore s c).ve.vl, h, by simp⟩⟩
      by_contra hvl
      rw [if_pos (by omega)] at h
      exact Bool.false_ne_true h
    · simp only [List.any_eq_true, Function.comp, Bool.not_true, Bool.false_and, Bool.false_eq_true, iff_false, not_exists, not_and]
      intro i _
      split_ifs <;> simp_all

theorem sign_laneWise (hactive : coreActive s c.val = true) (hlisted : listed1 v (vty v.ty.toNat) = true) (fv : FV → FV)
    (iv : Int → Int) (neg : Bool) :
    ∃ t, signInstr c v fv iv neg s = .next t ∧ laneWise c v [v.va]
      (fun x i =>
        let a := laneOf (readVec x v.va) i
        if (vtyD v).isFloat then laneBits (fvLane (vtyD v) (fv (laneFV (vtyD v) a)))
        else if laneInt (vtyD v) a = intMin (vtyD v) then laneBits (openLane (vtyD v) neg)
        else laneBits (intLane (vtyD v) (iv (laneInt (vtyD v) a)))) s t :=
  lane1_laneWise hactive hlisted rfl (fun x i => by simp only [beq_iff_eq])

theorem ite_neg_eq_natAbs (i : Int) : (if i < 0 then -i else i) = i.natAbs := by
  split <;> omega

/-- Settles O2: the open lanes of ABS and NEG are the model's free values of the type. -/
theorem vectorSelection : Obligations.VectorSelection := by
  refine ⟨fun t => openLane t false, fun t => openLane t true, fun c v s hactive =>
    ⟨fun hlisted => ⟨?max, ?min, sel_writes hactive hlisted⟩, fun hlisted => ⟨?mov, ?abs, ?neg⟩⟩⟩
  case max => exact lane2_laneWise (g := fun t => pickLane t maxFV max) hactive hlisted rfl (fun _ _ => rfl)
  case min => exact lane2_laneWise (g := fun t => pickLane t minFV min) hactive hlisted rfl (fun _ _ => rfl)
  case mov => exact lane1_laneWise (g := fun t a => laneBits (moveLane t a)) hactive hlisted rfl (fun _ _ => rfl)
  case abs =>
    simp only [← ite_neg_eq_natAbs]
    exact sign_laneWise hactive hlisted FV.abs (fun i => if i < 0 then -i else i) false
  case neg => exact sign_laneWise hactive hlisted FV.negate (fun i => -i) true

/-! ### AND, OR, XOR, SHL, SHRA and SHRL (R132, R136) -/

theorem rawLane_of_int {t : VTy} (h : t.isFloat = false) (n : Nat) : rawLane t n = intLane t n := by simp [rawLane, h]

theorem bitwise_laneWise (hactive : coreActive s c.val = true) (hlisted : listed2 v (vty v.ty.toNat) = true)
    (hint : (vtyD v).isFloat = false) (op : W32 → W32 → W32) :
    ∃ t, lane2 c v (!(vtyD v).isFloat) (bitLane op) s = .next t ∧ laneWise c v [v.va, v.vb]
      (fun x i => laneBits (intLane (vtyD v) (op (laneOf (readVec x v.va) i) (laneOf (readVec x v.vb) i)).toNat)) s t :=
  lane2_laneWise hactive hlisted (by rw [hint]; rfl) (fun _ _ => rfl)

/-- Settles O3: each bitwise instruction and each shift by its lane function. -/
theorem vectorBits : Obligations.VectorBits := by
  refine fun c v s hactive => ⟨fun hlisted hint => ?bitwise, fun hlisted => ⟨fun hint => ?shl, ?shra, ?shrl⟩⟩
  case bitwise =>
    have h := bitwise_laneWise hactive hlisted hint
    exact ⟨h (· &&& ·), h (· ||| ·), h (· ^^^ ·)⟩
  case shl =>
    change ∃ t, execShl c v s = .next t ∧ _
    exact lane1_laneWise hactive hlisted (by rw [hint]; rfl) (fun x i => congrArg laneBits (rawLane_of_int hint _))
  case shra =>
    change ∃ t, execShra c v s = .next t ∧ _
    exact lane1_laneWise hactive hlisted rfl (fun _ _ => rfl)
  case shrl =>
    change ∃ t, execShrl c v s = .next t ∧ _
    exact lane1_laneWise hactive hlisted rfl (fun _ _ => rfl)

/-! ### CVT, MOVI, BCAST and IOTA (R132, R136) -/

theorem getD_replicate_lanes (o : LaneOut) {i : Nat} (hi : i < 128) : (List.replicate 128 o).getD i (laneBits 0) = o := by
  rw [List.getD_eq_getElem _ _ (by simpa using hi), List.getElem_replicate]

theorem constant_listed (hty : (vty v.ty.toNat).isSome = true) (hvd : vecListed v.vd = true) (hva : v.va = 0) (hvb : v.vb = 0) :
    ((vty v.ty.toNat).isSome && vecListed v.vd && v.va == 0 && v.vb == 0) = true := by
  simp [hty, hvd, hva, hvb]

theorem constant_laneWise (hactive : coreActive s c.val = true) (hty : (vty v.ty.toNat).isSome = true) (hvd : vecListed v.vd = true)
    (hva : v.va = 0) (hvb : v.vb = 0) (o : LaneOut) :
    ∃ t, vRun c ((vty v.ty.toNat).isSome && vecListed v.vd && v.va == 0 && v.vb == 0)
      (writeLanes c v [] (fun _ => List.replicate 128 o)) s = .next t ∧ laneWise c v [] (fun _ _ => o) s t :=
  vRun_laneWise hactive (constant_listed hty hvd hva hvb) List.length_replicate (fun _ hi => getD_replicate_lanes o hi)

/-- Settles O4: CVT by its lane function, MOVI and BCAST by the one outcome of every lane, IOTA by the lane's number. -/
theorem vectorConstants : Obligations.VectorConstants := by
  refine fun c v s hactive => ⟨fun b hlisted hb => ?cvt, fun hty hvd hva hvb => ?movi, fun hlisted => ?bcast, fun hty hvd hva hvb => ?iota⟩
  case cvt =>
    change ∃ t, execCvt c v s = .next t ∧ _
    unfold execCvt
    exact lane1_laneWise hactive hlisted (by rw [hb]; rfl) (fun x i => by rw [hb]; rfl)
  case movi => exact constant_laneWise hactive hty hvd hva hvb _
  case bcast =>
    change ∃ t, execBcast c v s = .next t ∧ _
    unfold execBcast
    exact vRun_laneWise hactive hlisted List.length_replicate (fun i hi => getD_replicate_lanes _ hi)
  case iota =>
    change ∃ t, execIota c v s = .next t ∧ _
    unfold execIota
    exact vRun_laneWise hactive (constant_listed hty hvd hva hvb) (by simp) (fun i hi => by simp [List.getD, hi])

/-! ### EXP, LOG, RSQRT, TANH, SIGM and GELU (R136, R150, R151) -/

/-- The device's own value where the bound admits it, else the rounded middle. -/
theorem nearExact_enclResult (op ulps : Nat) (w : W32) (e : Encl) : nearExact ulps e (enclResult op ulps w e) := by
  unfold nearExact enclResult
  dsimp only
  split
  · exact .inl ‹_›
  · exact .inr rfl

theorem transTable_transLane (fn : TransFn) (w : W32) : transTable fn (f32 w) (transLane fn w) := by
  unfold transTable transLane
  cases hw : f32 w with
  | nan => cases fn <;> rfl
  | inf n => cases fn <;> rfl
  | fin n m e =>
    cases fn <;> simp +contextual [nearExact_enclResult]

theorem trans_laneWise (hactive : coreActive s c.val = true) (hresid : v.resid = 0) (hlisted : listed1 v (vty v.ty.toNat) = true)
    (hfloat : (vtyD v).isFloat = true) (fn : TransFn) :
    ∃ t, transInstr c v fn s = .next t ∧ laneWise c v [v.va] (fun x i => transOut fn (vtyD v) (laneOf (readVec x v.va) i)) s t :=
  withResidue_laneWise hactive hresid (by rw [hlisted, hfloat]; rfl) (by simp) (fun _ hi => getD_map_readVec _ _ _ hi)

/-- Settles O10: the model's FP32 result of a function is within R150's table, and a lane takes it from there. -/
theorem vectorTranscendentals : Obligations.VectorTranscendentals := by
  refine ⟨transLane, transTable_transLane, fun c v s hactive hresid hlisted hfloat => ?_⟩
  have h (fn : TransFn) := trans_laneWise hactive hresid hlisted hfloat fn
  exact ⟨h .exp, h .log, h .rsqrt, h .tanh, h .sigm, h .gelu⟩

end Sys2Proof.Machine
end

section
/-! PROOFS. Vector instructions: masks, the vector length, and counts. -/

namespace Sys2Proof.Machine

variable {c : CoreId} {v : VOps} {s : State}

/-! ### A mask from its bits -/

theorem foldl_two_pow (f : Nat → Bool) (k : Nat) :
    (List.range k).foldl (fun n i => if f i then n + 2 ^ i else n) 0 < 2 ^ k ∧
    ∀ i, ((List.range k).foldl (fun n i => if f i then n + 2 ^ i else n) 0).testBit i = (decide (i < k) && f i) := by
  induction k with
  | zero => simp
  | succ k ih =>
    obtain ⟨hlt, hbits⟩ := ih
    rw [List.range_succ, List.foldl_concat]
    generalize (List.range k).foldl (fun n i => if f i then n + 2 ^ i else n) 0 = n at hlt hbits
    refine ⟨by rw [pow_succ]; split <;> omega, fun i => ?_⟩
    have hor : n + 2 ^ k = 2 ^ k ||| n := by
      rw [Nat.add_comm]
      simpa using Nat.two_pow_add_eq_or_of_lt hlt 1
    rcases Nat.lt_trichotomy i k with h | rfl | h
    · have hne : k ≠ i := by omega
      split <;> simp [hor, hbits, h, hne, Nat.lt_succ_of_lt h]
    · split <;> simp [*]
    · have hne : k ≠ i := by omega
      split <;> simp [hor, hbits, hne, Nat.not_lt_of_gt h, Nat.not_lt.2 h]

theorem getLsbD_maskOf (f : Nat → Bool) {i : Nat} (hi : i < 128) : (maskOf f).getLsbD i = f i := by
  rw [maskOf, BitVec.getLsbD_ofNat, (foldl_two_pow f 128).2 i]
  simp [hi]

/-! ### A mask written -/

theorem readMask_writeMask {n : Nat} (hn : n ≠ 0) (m : BitVec 128) (poison : Bool) (x : CoreState) :
    readMask (writeMask n m poison x) n = m := by
  simp [readMask, writeMask, hn]

theorem readMask_writeMask_ne {n k : Nat} (h : k ≠ n) (m : BitVec 128) (poison : Bool) (x : CoreState) :
    readMask (writeMask n m poison x) k = readMask x k := by
  simp only [readMask, writeMask, mapGet_mapSet_other _ _ h]

theorem maskPoisoned_writeMask (n k : Nat) (m : BitVec 128) (poison : Bool) (x : CoreState) :
    maskPoisoned (writeMask n m poison x) k = if k = n then poison else maskPoisoned x k := contains_setPut _ _ _ _

/-- The whole effect of an instruction that writes a mask. -/
theorem maskWritten (c : CoreId) {vd : BitVec 8} (hvd : mskDest vd = true) (m : BitVec 128) (poison : Bool) (fs : List Nat) (s : State) :
    let t := vDone c (setVFlags c fs (setCore c (writeMask vd.toNat m poison (getCore s c)) s))
    vecFrame c [] s t ∧ maskFrame vd (getCore s c) (getCore t c) ∧ readMask (getCore t c) vd.toNat = m ∧
      maskPoisoned (getCore t c) vd.toNat = poison ∧ flagsAdded c fs s t := by
  have hvd0 : vd.toNat ≠ 0 := by
    rintro h
    have : vd = 0 := BitVec.eq_of_toNat_eq h
    simp [mskDest, this] at hvd
  obtain ⟨o, l, p, b, h⟩ := getCore_vDone_setCore c fs (writeMask vd.toNat m poison (getCore s c)) s
  have hmask (n : Nat) : readMask (getCore (vDone c (setVFlags c fs (setCore c (writeMask vd.toNat m poison (getCore s c)) s))) c) n =
      readMask (writeMask vd.toNat m poison (getCore s c)) n := by rw [h]; rfl
  have hmark (n : Nat) : maskPoisoned (getCore (vDone c (setVFlags c fs (setCore c (writeMask vd.toNat m poison (getCore s c)) s))) c) n =
      maskPoisoned (writeMask vd.toNat m poison (getCore s c)) n := by rw [h]; rfl
  refine ⟨vecFrame_setCore c fs _ s, ⟨?_, fun n hn => ?_⟩, ?_, ?_, flagsAdded_setCore c fs _ s⟩
  · rw [h]
    rfl
  · rw [hmask, hmark, readMask_writeMask_ne hn, maskPoisoned_writeMask, if_neg hn]
    exact ⟨rfl, rfl⟩
  · rw [hmask, readMask_writeMask hvd0]
  · rw [hmark, maskPoisoned_writeMask, if_pos rfl]

/-! ### VL written -/

/-- The whole effect of SETVL from its new VL, VL's mark and flags. -/
theorem vlWritten (c : CoreId) (n : Nat) (q : Bool) (fs : List Nat) (s : State) :
    let x := getCore s c
    let t := vDone c (setVFlags c fs (setCore c { x with ve := { x.ve with vl := n, vlPoison := q } } s))
    let y := (getCore t c).ve
    vecFrame c [] s t ∧ flagsAdded c fs s t ∧
      getCore t c = { x with ve := { x.ve with
        vl := n, vlPoison := q, flagOp := y.flagOp, flagLayer := y.flagLayer, flagPos := y.flagPos, flagBit := y.flagBit
        pos := x.ve.pos + 1 } } := by
  obtain ⟨o, l, p, b, h⟩ := getCore_vDone_setCore c fs { getCore s c with ve := { (getCore s c).ve with vl := n, vlPoison := q } } s
  refine ⟨vecFrame_setCore c fs _ s, flagsAdded_setCore c fs _ s, ?_⟩
  rw [h]

/-! ### VNOP, CMP, MLOG, MCNT and SETVL (R132 to R136, R140) -/

theorem cmp_effect (hactive : coreActive s c.val = true) (hty : (vty v.ty.toNat).isSome = true) (hvd : mskDest v.vd = true)
    (hva : vecListed v.va = true) (hvb : vecListed v.vb = true) (hp : bits v.imm.toNat 2 0 < 7) :
    let x := getCore s c
    let a (i : Nat) : W32 := laneOf (readVec x v.va) i
    let b (i : Nat) : W32 := laneOf (readVec x v.vb) i
    ∃ t, execCmp c v s = .next t ∧ vecFrame c [] s t ∧ maskFrame v.vd x (getCore t c) ∧
      maskWrites v x (fun i => cmpPred (vtyD v) (bits v.imm.toNat 2 0) (a i) (b i)) (getCore t c) ∧
      maskPoisoned (getCore t c) v.vd.toNat = (srcPoison x v [v.va, v.vb] || keepsLane v x && maskPoisoned x v.vd.toNat) ∧
      flagsAdded c (flagList
        [((List.range 128).any (fun i => laneActive x v.msk i && (isSnan (vtyD v) (a i) || isSnan (vtyD v) (b i))), vfInvalid),
          (srcPoison x v [v.va, v.vb], vfPoison)]) s t := by
  intro x a b
  have hlisted : ((vty v.ty.toNat).isSome && mskDest v.vd && vecListed v.va && vecListed v.vb && decide (bits v.imm.toNat 2 0 < 7)) = true := by
    simp [hty, hvd, hva, hvb, hp]
  unfold execCmp
  refine ⟨_, vRun_listed hactive hlisted _, ?_⟩
  obtain ⟨hframe, hmask, hread, hmark, hflags⟩ := maskWritten c hvd (maskOf (fun i => if laneActive x v.msk i then
    cmpPred (vtyD v) (bits v.imm.toNat 2 0) (a i) (b i) else if v.mz then false else (readMask x v.vd.toNat).getLsbD i))
    (srcPoison x v [v.va, v.vb] || keepsLane v x && maskPoisoned x v.vd.toNat) _ s
  exact ⟨hframe, hmask, fun i hi => (congrArg (·.getLsbD i) hread).trans (getLsbD_maskOf _ hi), hmark, hflags⟩

theorem mlog_effect (hactive : coreActive s c.val = true) (hty : (vty v.ty.toNat).isSome = true) (hvd : mskDest v.vd = true)
    (hva : mskListed v.va = true) (hvb : mskListed v.vb = true) (hp : bits v.imm.toNat 2 0 < 5)
    (hnot : bits v.imm.toNat 2 0 = 4 → v.vb = 0) :
    let x := getCore s c
    let p := bits v.imm.toNat 2 0
    let a := readMask x v.va.toNat
    let b := readMask x v.vb.toNat
    let bad := x.ve.vlPoison || maskPoisoned x v.va.toNat || (p != 4 && maskPoisoned x v.vb.toNat)
    ∃ t, execMlog c v s = .next t ∧ vecFrame c [] s t ∧ maskFrame v.vd x (getCore t c) ∧
      readMask (getCore t c) v.vd.toNat =
        (match p with
        | 0 => a &&& b
        | 1 => a ||| b
        | 2 => a ^^^ b
        | 3 => a &&& ~~~b
        | _ => ~~~a) ∧
      maskPoisoned (getCore t c) v.vd.toNat = bad ∧ flagsAdded c (flagList [(bad, vfPoison)]) s t := by
  intro x p a b bad
  have hlisted : ((vty v.ty.toNat).isSome && mskDest v.vd && mskListed v.va && mskListed v.vb && decide (p < 5) &&
      (p != 4 || v.vb == 0)) = true := by
    by_cases h : p = 4 <;> simp_all [p]
  unfold execMlog
  exact ⟨_, vRun_listed hactive hlisted _, maskWritten c hvd _ _ _ s⟩

theorem mcnt_effect (hactive : coreActive s c.val = true) (hty : (vty v.ty.toNat).isSome = true) (hvd : vecListed v.vd = true)
    (hva : v.va = 0) (hvb : v.vb = 0) :
    ∃ t, execMcnt c v s = .next t ∧
      destWrites c v.vd (fun _ => BitVec.ofNat 32 (activeCount (getCore s c) v.msk)) (srcPoison (getCore s c) v []) false
        (flagList [(srcPoison (getCore s c) v [], vfPoison)]) [] s t :=
  ⟨_, vRun_listed hactive (constant_listed hty hvd hva hvb) _, destWrites_vDone c v.vd _ _ s List.length_replicate
    (fun i hi => by rw [List.getElem_replicate]; rfl) (by rw [List.any_replicate]; rfl)⟩

/-- SETVL from a register: a poisoned one leaves VL 0 and marked, another its value held to 0 to 128. -/
theorem setvlReg_effect (hactive : coreActive s c.val = true) (hty : (vty v.ty.toNat).isSome = true) (hvd : v.vd = 0) (hvb : v.vb = 0)
    (hva : vecListed v.va = true) (hreg : bit v.imm.toNat 8 = true) :
    let x := getCore s c
    let i := signedOf 32 (laneOf (readVec x v.va) 0).toNat
    ∃ t, execSetvl c v s = .next t ∧ vecFrame c [] s t ∧
      flagsAdded c (if vecPoison x v.va then [vfPoison] else if i < 0 ∨ 128 < i then [vfVl] else []) s t ∧
      let y := (getCore t c).ve
      getCore t c = { x with ve := { x.ve with
        vl := if vecPoison x v.va then 0 else if i < 0 then 0 else if 128 < i then 128 else i.toNat
        vlPoison := x.ve.vlPoison || vecPoison x v.va
        flagOp := y.flagOp, flagLayer := y.flagLayer, flagPos := y.flagPos, flagBit := y.flagBit, pos := x.ve.pos + 1 } } := by
  intro x i
  have hlisted : ((vty v.ty.toNat).isSome && v.vd == 0 && v.vb == 0 &&
      (if bit v.imm.toNat 8 then vecListed v.va else v.va == 0 && decide (bits v.imm.toNat 7 0 ≤ 128))) = true := by
    simp [hty, hvd, hvb, hreg, hva]
  unfold execSetvl
  refine ⟨_, vRun_listed hactive hlisted _, ?_⟩
  simp only [hreg, Bool.not_true, Bool.false_eq_true, if_false]
  cases hpoison : vecPoison x v.va
  · simp only [x, Bool.false_eq_true, if_false, Bool.or_false]
    have hflags : (if i < 0 ∨ 128 < i then [vfVl] else []) = flagList [(decide (i < 0) || decide (128 < i), vfVl)] := by
      by_cases h : i < 0 ∨ 128 < i <;> simp [flagList, h]
    rw [hflags]
    exact vlWritten c _ _ _ s
  · simp only [x, if_true, Bool.or_true]
    exact vlWritten c 0 true [vfPoison] s

theorem setvlImm_effect (hactive : coreActive s c.val = true) (hty : (vty v.ty.toNat).isSome = true) (hvd : v.vd = 0) (hva : v.va = 0)
    (hvb : v.vb = 0) (himm : bit v.imm.toNat 8 = false) (hn : bits v.imm.toNat 7 0 ≤ 128) :
    ∃ t, execSetvl c v s = .next t ∧ vecFrame c [] s t ∧ flagsAdded c [] s t ∧
      getCore t c = { getCore s c with ve := { (getCore s c).ve with vl := bits v.imm.toNat 7 0, pos := (getCore s c).ve.pos + 1 } } := by
  unfold execSetvl
  refine ⟨_, vRun_listed hactive (by simp [hty, hvd, hva, hvb, himm, hn]) _, ?_⟩
  simp only [himm, Bool.not_false, if_true]
  exact ⟨vecFrame_setCore c [] _ s, flagsAdded_setCore c [] _ s, by rw [getCore_vDone, getCore_setCore]⟩

theorem vnop_effect (hactive : coreActive s c.val = true) (hty : (vty v.ty.toNat).isSome = true) (hvd : v.vd = 0) (hva : v.va = 0)
    (hvb : v.vb = 0) :
    ∃ t, execVnop c v s = .next t ∧ vecFrame c [] s t ∧ flagsAdded c [] s t ∧
      getCore t c = { getCore s c with ve := { (getCore s c).ve with pos := (getCore s c).ve.pos + 1 } } := by
  unfold execVnop
  exact ⟨_, vRun_listed hactive (by simp [hty, hvd, hva, hvb]) _,
    vecFrame_vDone c [] [] s s rfl (fun _ _ => rfl) (fun _ _ => rfl) List.not_mem_nil, flagsAdded_vDone c [] s s rfl, getCore_vDone c s⟩

/-- Settles O5: each instruction writes a mask, a destination or VL as a whole, and leaves all else. -/
theorem vectorMasks : Obligations.VectorMasks := fun _ _ _ hactive hty =>
  ⟨vnop_effect hactive hty, cmp_effect hactive hty, mlog_effect hactive hty, mcnt_effect hactive hty, setvlImm_effect hactive hty,
    setvlReg_effect hactive hty⟩

end Sys2Proof.Machine
end

section
/-! PROOFS. Vector instructions: permutations of lanes, loads and stores. -/

namespace Sys2Proof.Machine

variable {c : CoreId} {v : VOps} {s : State}

/-! ### Results in the active lanes (R133) -/

/-- The whole effect of an instruction that writes results to the active lanes. -/
theorem maskedWritten (c : CoreId) (v : VOps) (f : Nat → W32) (poison : Bool) (fs : List Nat) (s : State) :
    destWrites c v.vd (masked v (getCore s c) f) poison (keepsLane v (getCore s c)) fs [] s
      (vDone c (setVFlags c fs (setCore c (writeVec v.vd (maskedLanes (getCore s c) v f) poison (getCore s c)) s))) := by
  refine destWrites_vDone c v.vd poison fs s (length_maskedLanes _ _ _) (fun i hi => ?_) (any_maskedLanes _ _ _)
  rw [getElem_maskedLanes, masked]
  split_ifs <;> rfl

theorem maskedLanes_congr {x : CoreState} {f : Nat → W32} {l : Nat → Option W32}
    (h : ∀ i < 128, l i = if laneActive x v.msk i then some (f i) else if v.mz then some 0 else none) :
    (List.range 128).map l = maskedLanes x v f :=
  List.map_congr_left fun i hi => h i (List.mem_range.1 hi)

/-! ### The place of a lane among the active ones -/

/-- Of the numbers below `n` that a predicate lists, one that it lists stands behind those below it. -/
theorem findIdx?_filter_range (p : Nat → Bool) (n i : Nat) (hi : i < n) :
    ((List.range n).filter p).findIdx? (· == i) =
      if p i then some (((List.range n).filter p).filter (fun k => decide (k < i))).length else none := by
  induction n with
  | zero => omega
  | succ n ih =>
    rw [List.range_succ, List.filter_append, List.findIdx?_append, List.filter_append]
    rcases Nat.lt_succ_iff_lt_or_eq.1 hi with h | rfl
    · have hne : n ≠ i := by omega
      rw [ih h]
      cases p i <;> cases hn : p n <;> simp [hn, hne, Nat.le_of_lt h]
    · have hnone : ((List.range i).filter p).findIdx? (· == i) = none := by
        rw [List.findIdx?_eq_none_iff]
        intro k hk
        have := List.mem_range.1 (List.mem_of_mem_filter hk)
        simp; omega
      have hall : ((List.range i).filter p).filter (fun k => decide (k < i)) = (List.range i).filter p :=
        List.filter_eq_self.2 fun k hk => by simpa using List.mem_range.1 (List.mem_of_mem_filter hk)
      rw [hnone, hall]
      cases hp : p i <;> simp [hp]

/-! ### PERM, COMPRESS and EXPAND (R145, R146) -/

theorem perm_effect (hactive : coreActive s c.val = true) (hlisted : listed2 v (vty v.ty.toNat) = true) :
    let x := getCore s c
    let ix (i : Nat) : Nat := (laneOf (readVec x v.vb) i).toNat
    ∃ t, execPerm c v s = .next t ∧
      destWrites c v.vd (masked v x (fun i => if ix i < x.ve.vl then laneOf (readVec x v.va) (ix i) else 0))
        (srcPoison x v [v.va, v.vb]) (keepsLane v x)
        (flagList [((List.range 128).any (fun i => laneActive x v.msk i && decide (x.ve.vl ≤ ix i)), vfPerm),
          (srcPoison x v [v.va, v.vb], vfPoison)]) [] s t := by
  intro x ix
  unfold execPerm
  refine ⟨_, vRun_listed hactive hlisted _, ?_⟩
  dsimp only
  rw [maskedLanes_congr (f := fun i => if ix i < x.ve.vl then laneOf (readVec x v.va) (ix i) else 0) fun i _ => by
    rw [apply_ite some]]
  exact maskedWritten c v _ _ _ s

theorem compress_effect (hactive : coreActive s c.val = true) (hlisted : listed1 v (vty v.ty.toNat) = true) :
    let x := getCore s c
    let act := (List.range 128).filter (laneActive x v.msk)
    let p := srcPoison x v [v.va]
    ∃ t, execCompress c v s = .next t ∧
      destWrites c v.vd
        (fun i => if h : i < act.length then laneOf (readVec x v.va) act[i] else if v.mz then 0 else laneOf (readVec x v.vd) i)
        p (!v.mz && decide (act.length < 128)) (flagList [(p, vfPoison)]) [] s t := by
  intro x act p
  unfold execCompress
  refine ⟨_, vRun_listed hactive hlisted _, destWrites_vDone c v.vd _ _ s (by simp) (fun i hi => ?_) ?_⟩
  · rw [List.getElem_map, List.getElem_range]
    by_cases h : i < act.length
    · rw [dif_pos h, List.getElem?_eq_getElem h]
      rfl
    · rw [dif_neg h, List.getElem?_eq_none (Nat.le_of_not_lt h)]
      cases v.mz <;> rfl
  · rw [List.any_map, Bool.eq_iff_iff]
    simp only [List.any_eq_true, List.mem_range, Function.comp, Bool.and_eq_true, Bool.not_eq_true', decide_eq_true_eq]
    refine ⟨fun ⟨i, hi, h⟩ => ?_, fun ⟨hmz, h⟩ => ⟨act.length, h, ?_⟩⟩
    · by_cases hlt : i < act.length
      · rw [List.getElem?_eq_getElem hlt] at h
        exact absurd h (by simp)
      · rw [List.getElem?_eq_none (Nat.le_of_not_lt hlt)] at h
        exact ⟨by cases hmz : v.mz <;> simp_all, by omega⟩
    · rw [List.getElem?_eq_none (Nat.le_refl _), hmz]
      rfl

theorem expand_effect (hactive : coreActive s c.val = true) (hlisted : listed1 v (vty v.ty.toNat) = true) :
    let x := getCore s c
    let act := (List.range 128).filter (laneActive x v.msk)
    let p := srcPoison x v [v.va]
    ∃ t, execExpand c v s = .next t ∧
      destWrites c v.vd
        (fun i => if laneActive x v.msk i then laneOf (readVec x v.va) ((act.filter (fun k => decide (k < i))).length)
          else if v.mz then 0 else laneOf (readVec x v.vd) i)
        p (keepsLane v x) (flagList [(p, vfPoison)]) [] s t := by
  intro x act p
  unfold execExpand
  refine ⟨_, vRun_listed hactive hlisted _, ?_⟩
  dsimp only
  rw [maskedLanes_congr (f := fun i => laneOf (readVec x v.va) ((act.filter (fun k => decide (k < i))).length)) fun i hi => by
    rw [findIdx?_filter_range _ _ _ hi]
    cases laneActive x v.msk i <;> rfl]
  exact maskedWritten c v _ _ _ s

/-- Settles O7: PERM and EXPAND write the active lanes, COMPRESS the lanes below their count. -/
theorem lanePermutations : Obligations.LanePermutations := fun _ _ _ hactive =>
  ⟨perm_effect hactive, fun hlisted => ⟨compress_effect hactive hlisted, expand_effect hactive hlisted⟩⟩

end Sys2Proof.Machine
end

section
/-! PROOFS. Vector instructions: loads and stores, and what bytes and marks a store leaves in tile memory. -/

namespace Sys2Proof.Machine

variable {c : CoreId} {v : VOps} {s : State}

/-! ### Loads (R138 to R140) -/

theorem loadInstr_effect {ok : Bool} {addr : Nat → Nat} (hactive : coreActive s c.val = true) (hok : ok = true)
    (hinside : lanesInside (getCore s c) v addr = true) :
    let x := getCore s c
    let n := tyBytes (vtyD v)
    let p := srcPoison x v [] || ((List.range 128).filter (laneActive x v.msk)).any (fun i => tilePoisoned x (addr i) n)
    ∃ t, loadInstr c v ok addr s = .next t ∧
      destWrites c v.vd (masked v x (fun i => loadLane (vtyD v) (ramRead x.tile (addr i) n))) p (keepsLane v x)
        (flagList [(p, vfPoison)]) [] s t := by
  intro x n p
  unfold loadInstr
  simp only [hok, hinside, Bool.not_true, Bool.false_eq_true, if_false]
  exact ⟨_, vRun_listed hactive rfl _, maskedWritten c v _ _ _ s⟩

/-! ### Marks and bytes of tile memory -/

theorem contains_setIns (k l : Nat) (m : List Nat) : (setIns k m).contains l = (m.contains l || l == k) := by
  have h := contains_setPut true k l m
  rw [setPut, if_pos rfl] at h
  rw [h]
  by_cases e : l = k <;> simp [e]

theorem contains_foldl_setIns (ls m : List Nat) (l : Nat) :
    (ls.foldl (fun m k => setIns k m) m).contains l = (m.contains l || ls.contains l) := by
  induction ls generalizing m with
  | nil => simp
  | cons k ls ih => rw [List.foldl_cons, ih, contains_setIns, List.contains_cons, Bool.or_assoc]

/-- A poisoned write marks the lines that it touches, and no other. -/
theorem tilePoison_tileWrite_poisoned (a : Nat) (bs : Bytes) (x : CoreState) (l : Nat) :
    (tileWrite a bs true x).tilePoison.contains l = (x.tilePoison.contains l || (linesOf a bs.length).contains l) :=
  contains_foldl_setIns _ _ _

/-- A clean write of less than a line leaves every mark. -/
theorem tilePoison_tileWrite_short (a : Nat) {bs : Bytes} (h : bs.length < 64) (x : CoreState) :
    (tileWrite a bs false x).tilePoison = x.tilePoison := by
  have hkeep (m : List Nat) (l : Nat) : (if a ≤ 64 * l && 64 * l + 64 ≤ a + bs.length then setDel l m else m) = m := by
    have hnot : ¬ (a ≤ 64 * l && 64 * l + 64 ≤ a + bs.length) = true := by
      simp only [Bool.and_eq_true, decide_eq_true_eq]
      omega
    exact if_neg hnot
  simp only [tileWrite, Bool.false_eq_true, if_false, hkeep]
  exact List.foldl_fixed _

/-! ### The lanes of a store -/

section
variable (x : CoreState) (n : Nat) (addr : Nat → Nat) (vals : List W32) (act : List Nat)

theorem storeLanes_concat (p : Bool) (i : Nat) : storeLanes x n addr vals p (act ++ [i]) =
    tileWrite (addr i) (toLE n (laneOf vals i).toNat) p (storeLanes x n addr vals p act) := List.foldl_concat _ _ _ _

/-- A store changes tile memory and its marks, and nothing else. -/
theorem storeLanes_only (p : Bool) : storeLanes x n addr vals p act =
    { x with tile := (storeLanes x n addr vals p act).tile, tilePoison := (storeLanes x n addr vals p act).tilePoison } := by
  induction act using List.reverseRecOn with
  | nil => rfl
  | append_singleton act i ih =>
    rw [storeLanes_concat, ih]
    rfl

/-- A byte holds what the last lane that addresses it stores, else what it held. -/
theorem ramGet_storeLanes (p : Bool) (a : Nat) : ramGet (storeLanes x n addr vals p act).tile a =
    match act.reverse.find? (fun i => decide (addr i ≤ a) && decide (a < addr i + n)) with
    | some i => (toLE n (laneOf vals i).toNat).getD (a - addr i) 0
    | none => ramGet x.tile a := by
  induction act using List.reverseRecOn with
  | nil => rfl
  | append_singleton act i ih =>
    have hlen := length_toLE n (laneOf vals i).toNat
    rw [storeLanes_concat, List.reverse_concat, List.find?_cons]
    by_cases h : addr i ≤ a ∧ a < addr i + n
    · obtain ⟨k, rfl⟩ := Nat.exists_eq_add_of_le h.1
      have hk : k < (toLE n (laneOf vals i).toNat).length := by omega
      simp only [h.1, h.2, decide_true, Bool.and_self, Nat.add_sub_cancel_left, List.getD_eq_getElem _ _ hk]
      exact ramGet_ramWrite_in _ _ _ _ hk
    · have hfalse : (decide (addr i ≤ a) && decide (a < addr i + n)) = false := by
        simpa [← Bool.not_eq_true] using h
      simp only [hfalse]
      rw [← ih]
      exact ramGet_ramWrite_out _ _ _ _ (by omega)

theorem tilePoison_storeLanes_poisoned (l : Nat) : (storeLanes x n addr vals true act).tilePoison.contains l =
    (x.tilePoison.contains l || act.any (fun i => (linesOf (addr i) n).contains l)) := by
  induction act using List.reverseRecOn with
  | nil => simp [storeLanes]
  | append_singleton act i ih =>
    rw [storeLanes_concat, tilePoison_tileWrite_poisoned, ih, length_toLE, List.any_append, List.any_cons, List.any_nil, Bool.or_false,
      Bool.or_assoc]

theorem tilePoison_storeLanes_clean (h : n < 64) : (storeLanes x n addr vals false act).tilePoison = x.tilePoison := by
  induction act using List.reverseRecOn with
  | nil => rfl
  | append_singleton act i ih => rw [storeLanes_concat, tilePoison_tileWrite_short _ (by rwa [length_toLE]), ih]

end

theorem contains_filter (m : List Nat) (q : Nat → Bool) (l : Nat) : (m.filter q).contains l = (m.contains l && q l) := by
  simp [List.contains_eq_mem, List.mem_filter, Bool.decide_and]

theorem tyBytes_lt (t : VTy) : tyBytes t < 64 := by
  cases t <;> decide

/-! ### Stores (R138 to R140) -/

/-- The core that a store leaves: a poisoned one marks the lines it writes, a clean one unmarks those it covers whole. -/
def storedCore (x : CoreState) (v : VOps) (addr : Nat → Nat) (poison : Bool) : CoreState :=
  let act := (List.range 128).filter (laneActive x v.msk)
  let n := tyBytes (vtyD v)
  let x1 := storeLanes x n addr (readVec x v.va) poison act
  let covered (l : Nat) : Bool := (List.range 64).all (fun b =>
    act.any (fun i => decide (addr i ≤ 64 * l + b) && decide (64 * l + b < addr i + n)))
  if poison then x1 else { x1 with tilePoison := x1.tilePoison.filter (fun l => !covered l) }

theorem storedCore_only (x : CoreState) (v : VOps) (addr : Nat → Nat) (poison : Bool) : storedCore x v addr poison =
    { x with tile := (storedCore x v addr poison).tile, tilePoison := (storedCore x v addr poison).tilePoison } := by
  have h := storeLanes_only x (tyBytes (vtyD v)) addr (readVec x v.va) ((List.range 128).filter (laneActive x v.msk)) poison
  cases poison
  · exact congrArg (fun y : CoreState => { y with tilePoison := (storedCore x v addr false).tilePoison }) h
  · exact h

theorem storedCore_tile (x : CoreState) (v : VOps) (addr : Nat → Nat) (poison : Bool) : (storedCore x v addr poison).tile =
    (storeLanes x (tyBytes (vtyD v)) addr (readVec x v.va) poison ((List.range 128).filter (laneActive x v.msk))).tile := by
  cases poison <;> rfl

theorem storedCore_tilePoison (x : CoreState) (v : VOps) (addr : Nat → Nat) (poison : Bool) (l : Nat) :
    let act := (List.range 128).filter (laneActive x v.msk)
    let n := tyBytes (vtyD v)
    (storedCore x v addr poison).tilePoison.contains l =
      if poison then x.tilePoison.contains l || act.any (fun i => (linesOf (addr i) n).contains l)
      else x.tilePoison.contains l && !(List.range 64).all (fun b =>
        act.any (fun i => decide (addr i ≤ 64 * l + b) && decide (64 * l + b < addr i + n))) := by
  intro act n
  cases poison
  · have h := tilePoison_storeLanes_clean x n addr (readVec x v.va) act (tyBytes_lt _)
    simp only [storedCore, Bool.false_eq_true, if_false]
    rw [contains_filter, h]
  · exact tilePoison_storeLanes_poisoned x n addr (readVec x v.va) act l

theorem storeInstr_effect {ok : Bool} {addr : Nat → Nat} (hactive : coreActive s c.val = true) (hok : ok = true)
    (hinside : lanesInside (getCore s c) v addr = true) :
    let x := getCore s c
    let n := tyBytes (vtyD v)
    let act := (List.range 128).filter (laneActive x v.msk)
    ∃ t, storeInstr c v ok addr s = .next t ∧
      vecFrame c [] s t ∧ flagsAdded c (flagList [(srcPoison x v [v.va], vfPoison)]) s t ∧ tileFrame x (getCore t c) ∧
      (∀ l, (getCore t c).tilePoison.contains l =
        if srcPoison x v [v.va] then x.tilePoison.contains l || act.any (fun i => (linesOf (addr i) n).contains l)
        else x.tilePoison.contains l && !(List.range 64).all (fun b =>
          act.any (fun i => decide (addr i ≤ 64 * l + b) && decide (64 * l + b < addr i + n)))) ∧
      ∀ a, ramGet (getCore t c).tile a =
        match act.reverse.find? (fun i => decide (addr i ≤ a) && decide (a < addr i + n)) with
        | some i => (toLE n (laneOf (readVec x v.va) i).toNat).getD (a - addr i) 0
        | none => ramGet x.tile a := by
  intro x n act
  have hrun : storeInstr c v ok addr s = .next (vDone c (setVFlags c (flagList [(srcPoison x v [v.va], vfPoison)])
      (setCore c (storedCore x v addr (srcPoison x v [v.va])) s))) := by
    unfold storeInstr
    simp only [hok, hinside, Bool.not_true, Bool.false_eq_true, if_false]
    exact vRun_listed hactive rfl _
  obtain ⟨o, l, p, b, h⟩ := getCore_vDone_setCore c (flagList [(srcPoison x v [v.va], vfPoison)])
    (storedCore x v addr (srcPoison x v [v.va])) s
  refine ⟨_, hrun, vecFrame_setCore _ _ _ _, flagsAdded_setCore _ _ _ _, ?_, ?_, ?_⟩ <;> rw [h]
  · rw [storedCore_only]
    rfl
  · exact storedCore_tilePoison x v addr _
  · intro a
    dsimp only
    rw [storedCore_tile]
    exact ramGet_storeLanes _ _ _ _ _ _ a

/-- Settles O6: the loads and the stores differ in the addresses of their lanes alone. -/
theorem vectorMemory : Obligations.VectorMemory := fun _ _ _ hactive hty =>
  ⟨fun hvd hva hvb => loadInstr_effect hactive (constant_listed hty hvd hva hvb),
    fun hva hvd hvb => storeInstr_effect hactive (by simp [hty, hva, hvd, hvb]),
    fun hstride hvd hva => loadInstr_effect hactive (by simp [hstride, hvd, hva]),
    fun hstride hva hvd => storeInstr_effect hactive (by simp [hstride, hva, hvd])⟩

end Sys2Proof.Machine
end

section
/-! PROOFS. Vector instructions: reductions and top-k, and the count of those that find no active lane. -/

namespace Sys2Proof.Machine

variable {c : CoreId} {v : VOps} {s : State}

/-! ### VE_EMPTY (R142) -/

/-- The count of instructions without an active lane. -/
def countNoLane (c : CoreId) (empty : Bool) (s : State) : State := if empty then incCnt (cntCore c.val 2) s else s

theorem countNoLane_only (c : CoreId) (empty : Bool) (s : State) :
    countNoLane c empty s = { s with counters := (countNoLane c empty s).counters } := by
  cases empty <;> rfl

theorem getCore_countNoLane (c d : CoreId) (empty : Bool) (s : State) : getCore (countNoLane c empty s) d = getCore s d :=
  getCore_of_cores (by rw [countNoLane_only]) d

theorem cntGet_countNoLane_ne (c : CoreId) (empty : Bool) (s : State) {k : Nat} (h : k ≠ cntCore c.val 2) :
    cntGet (countNoLane c empty s) k = cntGet s k := by
  cases empty
  · rfl
  · exact cntGet_addCnt_ne _ _ _ h

theorem cntGet_countNoLane (c : CoreId) (empty : Bool) (s : State) : cntGet (countNoLane c empty s) (cntCore c.val 2) =
    if empty then min (cntGet s (cntCore c.val 2) + 1) (2 ^ 64 - 1) else cntGet s (cntCore c.val 2) := by
  cases empty
  · rfl
  · exact cntGet_addCnt s (cntCore c.val 2) 1 (by unfold cntCore; omega)

theorem cntCore_ne (c : CoreId) {j k : Nat} (h : j ≠ k) : cntCore c.val j ≠ cntCore c.val k := by
  unfold cntCore
  omega

/-- Flags and the completion leave every counter but VE_INSTR. -/
theorem cntGet_vDone_setVFlags (c : CoreId) (fs : List Nat) (s : State) {k : Nat} (h : k ≠ cntCore c.val 1) :
    cntGet (vDone c (setVFlags c fs s)) k = cntGet s k :=
  (cntGet_addCnt_ne _ _ _ h).trans (cntGet_of_counters (by rw [modCore_counters, setVFlags_only]) k)

/-- What an instruction that puts `y` in place of its core and may count as empty leaves. -/
theorem vecFrame_countNoLane (c : CoreId) (fs : List Nat) (y : CoreState) (empty : Bool) (s : State) :
    vecFrame c [cntCore c.val 2] s (vDone c (setVFlags c fs (countNoLane c empty (setCore c y s)))) := by
  refine vecFrame_vDone c _ fs s _ ?_ (fun d hd => ?_) (fun k hk => ?_) ?_
  · rw [countNoLane_only]
    rfl
  · rw [getCore_countNoLane, getCore_setCore_ne _ _ _ hd]
  · exact cntGet_countNoLane_ne _ _ _ (by simpa using hk)
  · simpa using cntCore_ne c (j := 1) (k := 2) (by decide)

/-- The core that such an instruction leaves is `y` with the flags' record and the position. -/
theorem getCore_vDone_countNoLane (c : CoreId) (fs : List Nat) (y : CoreState) (empty : Bool) (s : State) :
    ∃ o l p b, getCore (vDone c (setVFlags c fs (countNoLane c empty (setCore c y s)))) c =
      { y with ve := { y.ve with flagOp := o, flagLayer := l, flagPos := p, flagBit := b, pos := y.ve.pos + 1 } } := by
  have h := getCore_vDone_setVFlags c fs (countNoLane c empty (setCore c y s))
  rwa [getCore_countNoLane, getCore_setCore] at h

theorem flagsAdded_countNoLane (c : CoreId) (fs : List Nat) (y : CoreState) (empty : Bool) (s : State) :
    flagsAdded c fs s (vDone c (setVFlags c fs (countNoLane c empty (setCore c y s)))) :=
  flagsAdded_vDone c fs s _ (by rw [countNoLane_only]; rfl)

/-- The whole effect of an instruction that writes one destination and may count as empty. -/
theorem destWrites_countNoLane (c : CoreId) (vd : BitVec 8) {lanes : List (Option W32)} {f : Nat → W32} {keeps : Bool} (poison : Bool)
    (fs : List Nat) (empty : Bool) (s : State) (hlen : lanes.length = 128)
    (hf : ∀ i (hi : i < 128), ((lanes[i]'(by omega)).getD (laneOf (readVec (getCore s c) vd) i)) = f i)
    (hkeep : lanes.any (·.isNone) = keeps) :
    destWrites c vd f poison keeps fs [cntCore c.val 2] s
      (vDone c (setVFlags c fs (countNoLane c empty (setCore c (writeVec vd lanes poison (getCore s c)) s)))) :=
  destWrites_of c vd lanes f poison keeps fs _ s _ hlen hf hkeep (by rw [getCore_countNoLane, getCore_setCore])
    (by rw [countNoLane_only]; rfl) (fun d hd => by rw [getCore_countNoLane, getCore_setCore_ne _ _ _ hd])
    (fun k hk => cntGet_countNoLane_ne _ _ _ (by simpa using hk)) (by simpa using cntCore_ne c (j := 1) (k := 2) (by decide))

/-! ### Reductions (R141 to R144) -/

/-- What a reduction to `r` does, with the identity `idn` of no active lane; an index goes to lane 1 as `ix` says. -/
def reducesTo (c : CoreId) (v : VOps) (r : RedOut) (idn : W32) (ix : Bool) (s t : State) : Prop :=
  let x := getCore s c
  let empty := (List.range 128).all (fun i => !laneActive x v.msk i)
  let p := srcPoison x v [v.va]
  destWrites c v.vd
    (fun i => match i with
      | 0 => if empty then idn else r.lane0
      | 1 => if ix then (if empty then 0xFFFF else r.lane1.getD 0) else laneOf (readVec x v.vd) 1
      | i => laneOf (readVec x v.vd) i)
    p true
    (if empty then flagList [(true, vfEmpty), (p, vfPoison)]
     else flagList [(r.invalid, vfInvalid), (r.overflow, vfOverflow), (r.sat, vfSat), (p, vfPoison)])
    [cntCore c.val 2] s t ∧
  cntGet t (cntCore c.val 2) = if empty then min (cntGet s (cntCore c.val 2) + 1) (2 ^ 64 - 1) else cntGet s (cntCore c.val 2)

/-- The lanes of a register with whether each is active. -/
def redInput (x : CoreState) (v : VOps) : List (W32 × Bool) := (readVec x v.va).zip ((List.range 128).map (laneActive x v.msk))

theorem redInput_empty (x : CoreState) (v : VOps) :
    (!(redInput x v).any (·.2)) = (List.range 128).all (fun i => !laneActive x v.msk i) := by
  have h : (redInput x v).map (·.2) = (List.range 128).map (laneActive x v.msk) := by
    rw [redInput, List.map_snd_zip (by simp)]
  have hany : (redInput x v).any (·.2) = (List.range 128).any (laneActive x v.msk) := by
    simpa only [List.any_map, Function.id_comp] using congrArg (List.any · id) h
  rw [hany, List.not_any_eq_all_not]

/-- The result that a reduction writes: the identity where no lane is active. -/
def redResult (empty ix : Bool) (idn : W32) (r : RedOut) : RedOut :=
  if empty then { lane0 := idn, lane1 := if ix then some 0xFFFF else none, invalid := false, overflow := false, sat := false } else r

theorem redLanes_eq (c : CoreId) (v : VOps) (f : VTy → List (W32 × Bool) → RedOut) (idn : VTy → W32) (ix : Bool) (s : State) :
    redLanes c v f idn ix s =
      let x := getCore s c
      let empty := (List.range 128).all (fun i => !laneActive x v.msk i)
      let r := redResult empty ix (idn (vtyD v)) (f (vtyD v) (redInput x v))
      let p := srcPoison x v [v.va]
      setVFlags c (flagList [(empty, vfEmpty), (r.invalid, vfInvalid), (r.overflow, vfOverflow), (r.sat, vfSat), (p, vfPoison)])
        (countNoLane c empty (setCore c (writeVec v.vd
          ((List.range 128).map (fun i => if i == 0 then some r.lane0 else if i == 1 then r.lane1 else none)) p x) s)) := by
  dsimp only
  rw [← redInput_empty (getCore s c) v]
  rfl

theorem flagList_redResult (empty ix p : Bool) (idn : W32) (r : RedOut) :
    flagList [(empty, vfEmpty), ((redResult empty ix idn r).invalid, vfInvalid), ((redResult empty ix idn r).overflow, vfOverflow),
        ((redResult empty ix idn r).sat, vfSat), (p, vfPoison)] =
      if empty then flagList [(true, vfEmpty), (p, vfPoison)]
      else flagList [(r.invalid, vfInvalid), (r.overflow, vfOverflow), (r.sat, vfSat), (p, vfPoison)] := by
  cases empty <;> simp [redResult, flagList]

/-- Lane 1 of a reduction's result, where `old` stands. -/
theorem redResult_lane1 (empty ix : Bool) (idn old : W32) {r : RedOut} (hix : r.lane1.isSome = ix) :
    (redResult empty ix idn r).lane1.getD old = if ix then (if empty then 0xFFFF else r.lane1.getD 0) else old := by
  subst hix
  cases empty <;> cases h : r.lane1 <;> simp [redResult, h]

theorem redLanes_reducesTo (c : CoreId) (v : VOps) {f : VTy → List (W32 × Bool) → RedOut} {idn : VTy → W32} {ix : Bool} (s : State)
    (hix : (f (vtyD v) (redInput (getCore s c) v)).lane1.isSome = ix) :
    reducesTo c v (f (vtyD v) (redInput (getCore s c) v)) (idn (vtyD v)) ix s (vDone c (redLanes c v f idn ix s)) := by
  rw [redLanes_eq]
  dsimp only
  generalize f (vtyD v) (redInput (getCore s c) v) = r at hix
  rw [flagList_redResult]
  refine ⟨destWrites_countNoLane c v.vd _ _ _ s ?_ (fun i hi => ?_) ?_, ?_⟩
  · rw [List.length_map, List.length_range]
  · rw [List.getElem_map, List.getElem_range]
    match i with
    | 0 =>
      simp only [redResult, beq_self_eq_true, if_true]
      split_ifs <;> rfl
    | 1 => exact redResult_lane1 _ _ _ _ hix
    | i + 2 => rfl
  · rw [List.any_eq_true]
    exact ⟨none, List.mem_map.2 ⟨2, by simp, rfl⟩, rfl⟩
  · rw [cntGet_vDone_setVFlags _ _ _ (cntCore_ne c (by decide)), cntGet_countNoLane]
    rfl

theorem redSum_lane1 (t : VTy) (l : List (W32 × Bool)) : (redSum t l).lane1.isSome = false := by
  unfold redSum
  split
  · dsimp only
    split <;> rfl
  · rfl

theorem redMean_lane1 (t : VTy) (l : List (W32 × Bool)) : (redMean t l).lane1.isSome = false := by
  unfold redMean
  dsimp only
  split <;> exact redSum_lane1 t l

theorem redArg_lane1 (t : VTy) (isMax : Bool) (l : List (W32 × Bool)) : (redArg t isMax l).lane1.isSome = true := by
  unfold redArg
  dsimp only
  split <;> rfl

theorem redInstr_effect (hactive : coreActive s c.val = true) (hlisted : listed1 v (vty v.ty.toNat) = true)
    {f : VTy → List (W32 × Bool) → RedOut} {idn : VTy → W32} {ix : Bool} (hix : ∀ t l, (f t l).lane1.isSome = ix) :
    ∃ t, redInstr c v f idn ix s = .next t ∧ reducesTo c v (f (vtyD v) (redInput (getCore s c) v)) (idn (vtyD v)) ix s t :=
  ⟨_, vRun_listed hactive hlisted _, redLanes_reducesTo c v s (hix _ _)⟩

theorem sumInstr_effect (hactive : coreActive s c.val = true) (hlisted : listed1 v (vty v.ty.toNat) = true) (hresid : v.resid = 0)
    {f : VTy → List (W32 × Bool) → RedOut} (hix : ∀ t l, (f t l).lane1.isSome = false) :
    ∃ t, sumInstr c v f s = .next t ∧ reducesTo c v (f (vtyD v) (redInput (getCore s c) v)) 0 false s t :=
  ⟨_, withResidue_match hactive hlisted hresid _, redLanes_reducesTo c v (idn := fun _ => 0) s (hix _ _)⟩

/-- Settles O8: each reduction by its own function, whose result has an index where it is written. -/
theorem vectorReductions : Obligations.VectorReductions := by
  intro c v s hactive hlisted
  have hsum {f : VTy → List (W32 × Bool) → RedOut} (hix : ∀ t l, (f t l).lane1.isSome = false) (hresid : v.resid = 0) :=
    sumInstr_effect (c := c) (s := s) hactive hlisted hresid hix
  have hred {f : VTy → List (W32 × Bool) → RedOut} {ix : Bool} (idn : VTy → W32) (hix : ∀ t l, (f t l).lane1.isSome = ix) :=
    redInstr_effect (c := c) (s := s) (idn := idn) hactive hlisted hix
  exact ⟨hsum redSum_lane1, hsum redMean_lane1,
    hred (f := fun t => redExt t maxFV max (negInf t)) negInf fun _ _ => rfl,
    hred (f := fun t => redExt t minFV min (posInf t)) posInf fun _ _ => rfl,
    hred (f := fun t => redArg t true) negInf fun t => redArg_lane1 t true,
    hred (f := fun t => redArg t false) posInf fun t => redArg_lane1 t false⟩

end Sys2Proof.Machine
end

section
/-! PROOFS. Vector instructions: TOPK and TMERGE. -/

namespace Sys2Proof.Machine

variable {c : CoreId} {v : VOps} {s : State}

/-! ### A pair of registers written whole -/

theorem laneOf_writeVec_some {n : BitVec 8} {vals : List W32} {poison : Bool} {x : CoreState} (hlen : vals.length = 128) {i : Nat}
    (hi : i < 128) : laneOf (readVec (writeVec n (vals.map some) poison x) n) i = laneOf vals i := by
  rw [readVec_writeVec _ _ _ _ (by simpa using hlen), laneOf_mergeLanes _ _ i (by simpa using hi) (by simpa [hlen] using hi)]
  simp [laneOf, List.getD, hlen, hi]

theorem vecPoison_writeVec_some {n : BitVec 8} (hn : isVReg n = true) (vals : List W32) (poison : Bool) (x : CoreState) :
    vecPoison (writeVec n (vals.map some) poison x) n = poison := by
  have hwhole : (vals.map some).any (·.isNone) = false := by simp
  simp only [writeVec, hn, hwhole, Bool.false_and, Bool.or_false, if_true, vecPoison]
  exact (contains_setPut _ _ _ _).trans (if_pos rfl)

/-- An even V register is followed by another. -/
theorem isVReg_succ {n : BitVec 8} (hn : isVReg n = true) (heven : n.toNat % 2 = 0) : isVReg (n + 1) = true ∧ n ≠ n + 1 := by
  have hlt : n.toNat < 32 := of_decide_eq_true hn
  have hsucc : (n + 1).toNat = n.toNat + 1 := by
    rw [BitVec.toNat_add, Nat.mod_eq_of_lt (by simp; omega)]
    rfl
  exact ⟨decide_eq_true (by omega), fun h => by have := congrArg BitVec.toNat h; omega⟩

/-- Two registers written whole, one after the other: what each reads, their marks, and what is left. -/
structure PairWritten (n : BitVec 8) (vals ixs : List W32) (poison : Bool) (x y : CoreState) : Prop where
  lanes : ∀ i < 128, laneOf (readVec y n) i = laneOf vals i ∧ laneOf (readVec y (n + 1)) i = laneOf ixs i
  marks : vecPoison y n = poison ∧ vecPoison y (n + 1) = poison
  frame : destFrame [n, n + 1] x y

theorem pairWritten_writeVec {n : BitVec 8} (hn : isVReg n = true) (heven : n.toNat % 2 = 0) {vals ixs : List W32}
    (hvals : vals.length = 128) (hixs : ixs.length = 128) (poison : Bool) (x : CoreState) {y : CoreState} {o l p : W16} {b : Nat}
    (hy : y = let z := writeVec (n + 1) (ixs.map some) poison (writeVec n (vals.map some) poison x)
      { z with ve := { z.ve with flagOp := o, flagLayer := l, flagPos := p, flagBit := b, pos := z.ve.pos + 1 } }) :
    PairWritten n vals ixs poison x y := by
  obtain ⟨hsucc, hne⟩ := isVReg_succ hn heven
  subst hy
  have hkept := readVec_writeVec_ne (ixs.map some) poison (writeVec n (vals.map some) poison x) hn hne
  refine ⟨fun i hi => ⟨?_, laneOf_writeVec_some hixs hi⟩, ⟨hkept.2.trans (vecPoison_writeVec_some hn _ _ _),
    vecPoison_writeVec_some hsucc _ _ _⟩, ?_, fun m hm hout => ?_, fun w a h => ?_⟩
  · exact (congrArg (laneOf · i) hkept.1).trans (laneOf_writeVec_some hvals hi)
  · simp only [writeVec, hn, hsucc, if_true]
  · obtain ⟨h1, h2⟩ : m ≠ n ∧ m ≠ n + 1 := by simpa using hout
    have hfirst := readVec_writeVec_ne (vals.map some) poison x hm h1
    have hsecond := readVec_writeVec_ne (ixs.map some) poison (writeVec n (vals.map some) poison x) hm h2
    exact ⟨hsecond.1.trans hfirst.1, hsecond.2.trans hfirst.2⟩
  · exact (writeVec_bank (n + 1) (ixs.map some) poison _ w a (by simpa using hixs) (h _ (by simp))).trans
      (writeVec_bank n (vals.map some) poison x w a (by simpa using hvals) (h _ (by simp)))

/-! ### The best entries (R147 to R149) -/

/-- What TOPK and TMERGE do with a list of entries. -/
def listsBest (c : CoreId) (v : VOps) (es : List (W32 × Int)) (poison empty : Bool) (s t : State) : Prop :=
  let best := (sortBy (rankBefore (vtyD v)) es).take (bits v.imm.toNat 6 0)
  (∀ i < 128,
    laneOf (readVec (getCore t c) v.vd) i = (match best[i]? with
      | some e => if (vtyD v).isFloat then fvLane (vtyD v) (laneFV (vtyD v) e.1) else e.1
      | none => negInf (vtyD v)) ∧
    laneOf (readVec (getCore t c) (v.vd + 1)) i = (match best[i]? with
      | some e => BitVec.ofNat 32 (unsignedOf 32 e.2)
      | none => 0xFFFF)) ∧
  vecPoison (getCore t c) v.vd = poison ∧ vecPoison (getCore t c) (v.vd + 1) = poison ∧
  flagsAdded c (flagList [(empty, vfEmpty), ((vtyD v).isFloat && es.any (fun e => (laneFV (vtyD v) e.1).isNan), vfTopk),
    (poison, vfPoison)]) s t ∧
  destFrame [v.vd, v.vd + 1] (getCore s c) (getCore t c) ∧ vecFrame c [cntCore c.val 2] s t

theorem laneOf_map_range (f : Nat → W32) {i : Nat} (hi : i < 128) : laneOf ((List.range 128).map f) i = f i := by
  simp [laneOf, List.getD, hi]

theorem laneOf_topkLists (t : VTy) (k : Nat) (es : List (W32 × Int)) {i : Nat} (hi : i < 128) :
    laneOf (topkLists t k es).1 i = (match ((sortBy (rankBefore t) es).take k)[i]? with
      | some e => if t.isFloat then fvLane t (laneFV t e.1) else e.1
      | none => negInf t) ∧
    laneOf (topkLists t k es).2 i = (match ((sortBy (rankBefore t) es).take k)[i]? with
      | some e => BitVec.ofNat 32 (unsignedOf 32 e.2)
      | none => 0xFFFF) := by
  unfold topkLists
  dsimp only
  exact ⟨laneOf_map_range _ hi, laneOf_map_range _ hi⟩

/-- The core with the best entries in the pair of destinations. -/
def topkCore (v : VOps) (es : List (W32 × Int)) (poison : Bool) (x : CoreState) : CoreState :=
  let ls := topkLists (vtyD v) (bits v.imm.toNat 6 0) es
  writeVec (v.vd + 1) (ls.2.map some) poison (writeVec v.vd (ls.1.map some) poison x)

/-- The flags of TOPK and TMERGE. -/
def topkFlags (v : VOps) (es : List (W32 × Int)) (poison empty : Bool) : List Nat :=
  flagList [(empty, vfEmpty), ((vtyD v).isFloat && es.any (fun e => (laneFV (vtyD v) e.1).isNan), vfTopk), (poison, vfPoison)]

theorem writeTopk_eq (c : CoreId) (v : VOps) (es : List (W32 × Int)) (poison empty : Bool) (s : State) :
    writeTopk c v es poison empty s =
      setVFlags c (topkFlags v es poison empty) (countNoLane c empty (setCore c (topkCore v es poison (getCore s c)) s)) := rfl

theorem writeTopk_listsBest (hn : isVReg v.vd = true) (heven : v.vd.toNat % 2 = 0) (es : List (W32 × Int)) (poison empty : Bool)
    (s : State) : listsBest c v es poison empty s (vDone c (writeTopk c v es poison empty s)) := by
  rw [writeTopk_eq]
  obtain ⟨o, l, p, b, h⟩ := getCore_vDone_countNoLane c (topkFlags v es poison empty) (topkCore v es poison (getCore s c)) empty s
  obtain ⟨hlanes, ⟨hmark, hmark'⟩, hframe⟩ := pairWritten_writeVec hn heven (by simp [topkLists]) (by simp [topkLists]) poison (getCore s c) h
  refine ⟨fun i hi => ?_, hmark, hmark', flagsAdded_countNoLane c _ _ _ s, hframe, vecFrame_countNoLane c _ _ _ s⟩
  rw [(hlanes i hi).1, (hlanes i hi).2]
  exact laneOf_topkLists _ _ _ hi

theorem topk_effect (hactive : coreActive s c.val = true) (hlisted : topkListed v = true) (hva : vecListed v.va = true)
    (hvb : vecListed v.vb = true) :
    let x := getCore s c
    let act := (List.range 128).filter (laneActive x v.msk)
    ∃ t, execTopk c v s = .next t ∧
      listsBest c v (act.map (fun i => (laneOf (readVec x v.va) i, (((laneOf (readVec x v.vb) i).toNat % 65536 : Nat) : Int))))
        (srcPoison x v [v.va, v.vb]) act.isEmpty s t := by
  have hreg : isVReg v.vd = true ∧ v.vd.toNat % 2 = 0 := by simp_all [topkListed]
  unfold execTopk
  exact ⟨_, vRun_listed hactive (by simp [hlisted, hva, hvb]) _, writeTopk_listsBest hreg.1 hreg.2 _ _ _ s⟩

/-- The first 64 entries of two registers, lane by lane. -/
theorem take_zip_readVec (x : CoreState) (n m : BitVec 8) :
    (((readVec x n).zip (readVec x m)).take 64).map (fun p => (p.1, signedOf 32 p.2.toNat)) =
      (List.range 64).map (fun i => (laneOf (readVec x n) i, signedOf 32 (laneOf (readVec x m) i).toNat)) := by
  refine List.ext_getElem (by simp) fun i h _ => ?_
  have hi : i < 64 := by simpa using h
  have hn : i < (readVec x n).length := by rw [length_readVec]; omega
  have hm : i < (readVec x m).length := by rw [length_readVec]; omega
  simp only [List.getElem_map, List.getElem_take, List.getElem_zip, List.getElem_range, laneOf, List.getD_eq_getElem _ _ hn,
    List.getD_eq_getElem _ _ hm]

theorem tmerge_effect (hactive : coreActive s c.val = true) (hlisted : topkListed v = true) (hva : vecListed v.va = true)
    (hvb : vecListed v.vb = true) (hva1 : vecListed (v.va + 1) = true) (hvb1 : vecListed (v.vb + 1) = true) (ha : v.va ≠ 0xFF)
    (hb : v.vb ≠ 0xFF) :
    let x := getCore s c
    let pairs (n : BitVec 8) : List (W32 × Int) := (List.range 64).map (fun i =>
      (laneOf (readVec x n) i, signedOf 32 (laneOf (readVec x (n + 1)) i).toNat))
    ∃ t, execTmerge c v s = .next t ∧ listsBest c v (pairs v.va ++ pairs v.vb)
      (x.ve.vlPoison || [v.va, v.va + 1, v.vb, v.vb + 1].any (vecPoison x)) false s t := by
  intro x pairs
  have hreg : isVReg v.vd = true ∧ v.vd.toNat % 2 = 0 := by simp_all [topkListed]
  unfold execTmerge
  refine ⟨_, vRun_listed hactive (by rw [hlisted, hva, hvb, hva1, hvb1, bne_iff_ne.2 ha, bne_iff_ne.2 hb]; rfl) _, ?_⟩
  dsimp only
  rw [take_zip_readVec, take_zip_readVec]
  exact writeTopk_listsBest hreg.1 hreg.2 _ _ _ s

/-- Settles O9: both write the best of their entries to the pair of destinations. -/
theorem vectorTopK : Obligations.VectorTopK := fun _ _ _ hactive hlisted hva hvb =>
  ⟨topk_effect hactive hlisted hva hvb, tmerge_effect hactive hlisted hva hvb⟩

end Sys2Proof.Machine
end

section
/-! PROOFS. Vector instructions: the residue check, and the fence of a core whose check fails again. -/

namespace Sys2Proof.Machine

variable {c : CoreId} {v : VOps} {s t u : State}

/-! ### The record of a core that is fenced (R401) -/

theorem foldl_units {α : Type} (l : List α) (f : State → α → State) (h : ∀ s a, (f s a).canopy.units = s.canopy.units) (s : State) :
    (l.foldl f s).canopy.units = s.canopy.units :=
  l.foldlRecOn f (motive := fun t => t.canopy.units = s.canopy.units) rfl (fun t ht a _ => (h t a).trans ht)

theorem markCoreReams_units (c : CoreId) (s : State) : (markCoreReams c s).canopy.units = s.canopy.units := by
  refine foldl_units _ _ (fun s x => ?_) s
  unfold markRelaunch
  split_ifs <;> rfl

theorem moveCluster_units (k : Nat) (s : State) : (moveCluster k s).canopy.units = s.canopy.units := by
  unfold moveCluster
  split
  · refine foldl_units _ _ (fun s l => ?_) s
    rfl
  · rfl

theorem moveCore_units (c : CoreId) (s : State) : (moveCore c s).canopy.units = s.canopy.units := by
  unfold moveCore
  extract_lets k room
  split
  · refine foldl_units _ _ (fun s l => ?_) s
    rfl
  · exact moveCluster_units k s

theorem unitRec_fenceMark_ne {w x : UnitCode} (cause : Nat) (s : State) (h : x ≠ w) : unitRec (fenceMark w cause s) x = unitRec s x :=
  (unitRec_of_units (reportWith_units _ _ _ _ _ _ _ _) x).trans (unitRec_setUnit_ne 1 (BitVec.ofNat 16 cause) s h)

theorem unitRec_fenceMark (w : UnitCode) (cause : Nat) (s : State) : (unitRec (fenceMark w cause s) w).st = 1 := by
  rw [fenceMark, unitRec_of_units (reportWith_units _ _ _ _ _ _ _ _)]
  exact congrArg UnitRec.st (unitRec_setUnit w 1 (BitVec.ofNat 16 cause) s)

theorem toNat_ucCore (c : CoreId) : (ucCore c).toNat = 8192 + c.val := by
  have := c.isLt
  simp only [ucCore, unitCode, BitVec.toNat_ofNat]
  omega

/-- A core's report goes to its own node (R393). -/
theorem reportNode_ucCore (c : CoreId) : reportNode (ucCore c) = ucCore c := by
  have hclass : ucClass (ucCore c) = 2 := by
    have := c.isLt
    rw [ucClass, toNat_ucCore]
    omega
  simp [reportNode, hclass]

theorem unitRec_fenceCluster (c : CoreId) (cause : Nat) (s : State) :
    unitRec (fenceCluster (c.val / 8) cause s) (ucCore c) = unitRec s (ucCore c) := by
  have hne : ucCore c ≠ unitCode 3 (c.val / 8) := fun h => by
    have h := congrArg BitVec.toNat h
    have := c.isLt
    simp only [toNat_ucCore, unitCode, BitVec.toNat_ofNat] at h
    omega
  unfold fenceCluster
  split
  · rfl
  · refine (unitRec_of_units ((moveCluster_units _ _).trans (foldl_units _ _ (fun s d => ?_) _)) _).trans (unitRec_fenceMark_ne cause s hne)
    split_ifs
    · exact markCoreReams_units d s
    · rfl

/-- A core in service that is fenced has the state that says so. -/
theorem unitRec_fenceCore (cause : Nat) (hactive : coreActive s c.val = true) : (unitRec (fenceCore c cause s) (ucCore c)).st = 1 := by
  have hmark : (unitRec (markCoreReams c (fenceMark (ucCore c) cause s)) (ucCore c)).st = 1 := by
    rw [unitRec_of_units (markCoreReams_units _ _), unitRec_fenceMark]
  unfold fenceCore
  simp only [hactive, Bool.not_true, Bool.false_eq_true, if_false]
  split_ifs
  · rw [unitRec_fenceCluster, hmark]
  · rw [unitRec_of_units (moveCore_units _ _), hmark]

/-! ### A mismatch (R137) -/

/-- A core whose flags' record and residue strike, and nothing else, may have changed. -/
def residueApart (x y : CoreState) : Prop :=
  ∃ o l p b k n m, y = { x with ve := { x.ve with
    flagOp := o, flagLayer := l, flagPos := p, flagBit := b, strike := k, clean := n, mismatch := m } }

theorem residueApart.trans {x y z : CoreState} (h : residueApart x y) (h' : residueApart y z) : residueApart x z := by
  obtain ⟨o, l, p, b, k, n, m, rfl⟩ := h
  obtain ⟨o', l', p', b', k', n', m', rfl⟩ := h'
  exact ⟨o', l', p', b', k', n', m', rfl⟩

theorem residueApart.reads {x y : CoreState} (h : residueApart x y) (n : BitVec 8) :
    readVec y n = readVec x n ∧ vecPoison y n = vecPoison x n := by
  obtain ⟨o, l, p, b, k, q, m, rfl⟩ := h
  exact ⟨rfl, rfl⟩

/-- A mismatch that is flagged, counted and reported, before its strike or fence. -/
def residueNoted (c : CoreId) (s : State) : State :=
  reportWith 0x0A (ucCore c) 0 (ucCore c) (getCore s c).ve.layer (getCore s c).ve.op [(getCore s c).ve.pos]
    (setVFlags c [vfResidue] (incCnt (cntCore c.val 3) s))

/-- The strike that a first mismatch sets. -/
def residueStrike (x : CoreState) : CoreState := { x with ve := { x.ve with strike := true, clean := 0, mismatch := true } }

theorem residueFails_eq (c : CoreId) (s : State) : residueFails c s =
    if (getCore s c).ve.strike then fenceCore c 0x0A (residueNoted c s) else modCore c residueStrike (residueNoted c s) := rfl

theorem getCore_residueNoted (c : CoreId) (s : State) : sameButFlags (getCore s c) (getCore (residueNoted c s) c) := by
  rw [residueNoted, getCore_reportWith]
  exact getCore_setVFlags c [vfResidue] (incCnt (cntCore c.val 3) s)

theorem residueNoted_strike (c : CoreId) (s : State) : (getCore (residueNoted c s) c).ve.strike = (getCore s c).ve.strike := by
  obtain ⟨o, l, p, b, h⟩ := getCore_residueNoted c s
  rw [h]

theorem residueApart_of_flags {x y : CoreState} (h : sameButFlags x y) : residueApart x y := by
  obtain ⟨o, l, p, b, rfl⟩ := h
  exact ⟨o, l, p, b, _, _, _, rfl⟩

theorem residueApart_noted (c : CoreId) (s : State) : residueApart (getCore s c) (getCore (residueNoted c s) c) :=
  residueApart_of_flags (getCore_residueNoted c s)

theorem coreActive_residueNoted (c : CoreId) (s : State) : coreActive (residueNoted c s) c.val = coreActive s c.val := by
  have h : (residueNoted c s).canopy.units = s.canopy.units := (reportWith_units _ _ _ _ _ _ _ _).trans (by rw [setVFlags_only]; rfl)
  rw [coreActive, unitActive, unitRec_of_units h]
  rfl

theorem regs_residueNoted (c : CoreId) (s : State) :
    (residueNoted c s).regs = (setVFlags c [vfResidue] (incCnt (cntCore c.val 3) s)).regs :=
  regs_of_proj (reportWith_frame (m0 := 2147483680) (by decide) _ _ _ _ _ _ _ _)

theorem bit_residueNoted (c : CoreId) (s : State) : bit (regW (residueNoted c s) 0xF00400 c.val) vfResidue = true := by
  have h := flagsAdded_setVFlags c [vfResidue] (incCnt (cntCore c.val 3) s) vfResidue (by decide)
  rw [regW, regs_residueNoted]
  rw [regW] at h
  rw [h]
  simp

theorem cntGet_residueNoted (c : CoreId) (s : State) : counted (cntCore c.val 3) 1 s (residueNoted c s) := by
  have h : (residueNoted c s).counters = (incCnt (cntCore c.val 3) s).counters := (reportWith_counters _ _ _ _ _ _ _ _).trans (by rw [setVFlags_only])
  rw [counted, cntGet_of_counters h]
  exact cntGet_addCnt s (cntCore c.val 3) 1 (by have := c.isLt; unfold cntCore; omega)

theorem transit_residueNoted (c : CoreId) (s : State) : ∃ r : Report,
    (residueNoted c s).canopy.transit = s.canopy.transit ++ [(ucCore c, r)] ∧ r.code = 0x0A ∧ r.suspect = ucCore c := by
  obtain ⟨r, h, hcode, hsuspect, -⟩ := reportWith_canopy 0x0A (ucCore c) 0 (ucCore c) (getCore s c).ve.layer (getCore s c).ve.op
    [(getCore s c).ve.pos] (setVFlags c [vfResidue] (incCnt (cntCore c.val 3) s))
  refine ⟨r, ?_, hcode, hsuspect⟩
  rw [residueNoted, h, reportNode_ucCore, setVFlags_only]
  rfl

/-! ### A mismatch with and without the strike (R137, R401) -/

theorem residueFails_first (hstrike : (getCore s c).ve.strike = false) :
    residueFails c s = modCore c residueStrike (residueNoted c s) := by
  rw [residueFails_eq, hstrike]
  rfl

theorem residueFails_second (hstrike : (getCore s c).ve.strike = true) : residueFails c s = fenceCore c 0x0A (residueNoted c s) := by
  rw [residueFails_eq, hstrike]
  rfl

/-- A mismatch with the strike set fences the core, which keeps what it holds. -/
structure ResidueFenced (c : CoreId) (s t : State) : Prop where
  fenced : (unitRec t (ucCore c)).st = 1
  out : coreActive t c.val = false
  core : residueApart (getCore s c) (getCore t c)
  shown : bit (regW t 0xF00400 c.val) vfResidue = true
  counts : counted (cntCore c.val 3) 1 s t

theorem residueFails_fences (hactive : coreActive s c.val = true) (hstrike : (getCore s c).ve.strike = true) :
    ResidueFenced c s (residueFails c s) := by
  rw [residueFails_second hstrike]
  have hfenced : (unitRec (fenceCore c 0x0A (residueNoted c s)) (ucCore c)).st = 1 :=
    unitRec_fenceCore 0x0A ((coreActive_residueNoted c s).trans hactive)
  refine ⟨hfenced, ?_, ?_, ?_, ?_⟩
  · change ((unitRec (fenceCore c 0x0A (residueNoted c s)) (ucCore c)).st == 0) = false
    rw [hfenced]
    rfl
  · rw [getCore_of_cores (fenceCore_cores _ _ _)]
    exact residueApart_noted c s
  · rw [regW, regs_of_proj (fenceCore_frame (m0 := 2684354592) (by decide) c 0x0A (residueNoted c s))]
    exact bit_residueNoted c s
  · rw [counted, (fencing_fenceCore c 0x0A (residueNoted c s)).counts _ (by have := c.isLt; unfold cntCore cntFlt; omega)]
    exact cntGet_residueNoted c s

theorem getCore_residueFails_first (hstrike : (getCore s c).ve.strike = false) :
    residueApart (getCore s c) (getCore (residueFails c s) c) ∧ (getCore (residueFails c s) c).ve.strike = true ∧
      (getCore (residueFails c s) c).ve.clean = 0 := by
  obtain ⟨o, l, p, b, h⟩ := getCore_residueNoted c s
  rw [residueFails_first hstrike, getCore_modCore, h]
  exact ⟨⟨o, l, p, b, _, _, _, rfl⟩, rfl, rfl⟩

theorem coreActive_residueFails_first (hstrike : (getCore s c).ve.strike = false) :
    coreActive (residueFails c s) c.val = coreActive s c.val := by
  rw [residueFails_first hstrike]
  exact coreActive_residueNoted c s

/-! ### Instructions under the check write one destination -/

/-- What an instruction writes: the lanes of its destination, its poison, whether it found no lane, and its flags. -/
structure DestOut where
  lanes : List (Option W32)
  poison : Bool
  empty : Bool
  flags : List Nat

/-- An instruction that writes one destination from what its core holds. -/
def writeDest (c : CoreId) (vd : BitVec 8) (g : CoreState → DestOut) (s : State) : State :=
  let d := g (getCore s c)
  setVFlags c d.flags (countNoLane c d.empty (setCore c (writeVec vd d.lanes d.poison (getCore s c)) s))

/-- What lane outcomes write. -/
def laneDest (v : VOps) (srcs : List (BitVec 8)) (F : CoreState → List LaneOut) (x : CoreState) : DestOut :=
  let act := ((F x).zip (List.range 128)).filter (fun p => laneActive x v.msk p.2)
  { lanes := maskedLanes x v (fun i => ((F x).getD i (laneBits 0)).w), poison := srcPoison x v srcs, empty := false
    flags := flagList [(act.any (fun p => p.1.invalid), vfInvalid), (act.any (fun p => p.1.overflow), vfOverflow),
      (act.any (fun p => p.1.sat), vfSat), (srcPoison x v srcs, vfPoison)] }

theorem writeLanes_eq_writeDest (c : CoreId) (v : VOps) (srcs : List (BitVec 8)) (F : CoreState → List LaneOut) :
    writeLanes c v srcs F = writeDest c v.vd (laneDest v srcs F) := rfl

/-- What a sum writes. -/
def sumDest (v : VOps) (f : VTy → List (W32 × Bool) → RedOut) (x : CoreState) : DestOut :=
  let empty := (List.range 128).all (fun i => !laneActive x v.msk i)
  let r := redResult empty false 0 (f (vtyD v) (redInput x v))
  { lanes := (List.range 128).map (fun i => if i == 0 then some r.lane0 else if i == 1 then r.lane1 else none)
    poison := srcPoison x v [v.va], empty := empty
    flags := flagList [(empty, vfEmpty), (r.invalid, vfInvalid), (r.overflow, vfOverflow), (r.sat, vfSat), (srcPoison x v [v.va], vfPoison)] }

theorem redLanes_eq_writeDest (c : CoreId) (v : VOps) (f : VTy → List (W32 × Bool) → RedOut) :
    redLanes c v f (fun _ => 0) false = writeDest c v.vd (sumDest v f) := by
  funext s
  rw [redLanes_eq]
  rfl

theorem residueApart.writeVec {x y : CoreState} (h : residueApart x y) (n : BitVec 8) (lanes : List (Option W32)) (poison : Bool) :
    residueApart (writeVec n lanes poison x) (writeVec n lanes poison y) := by
  obtain ⟨o, l, p, b, k, q, m, rfl⟩ := h
  unfold Machine.writeVec
  dsimp only
  split <;> exact ⟨o, l, p, b, k, q, m, rfl⟩

/-- An instruction under the residue check: it writes its destination from parts of the core that the check leaves. -/
def residueChecked (c : CoreId) (v : VOps) (f : VOps → Instr) : Prop :=
  ∃ listed g, (∀ k s, exec (f { v with resid := k }) s = withResidue c { v with resid := k } listed (writeDest c v.vd g) s) ∧
    ∀ x y, residueApart x y → g y = g x

theorem residueChecked_lanes {f : VOps → Instr} {listed : Bool} {srcs : List (BitVec 8)} {F : CoreState → List LaneOut}
    (hexec : ∀ k s, exec (f { v with resid := k }) s = withResidue c { v with resid := k } listed (writeLanes c v srcs F) s)
    (hF : ∀ x y, residueApart x y → F y = F x) : residueChecked c v f := by
  refine ⟨listed, laneDest v srcs F, hexec, fun x y h => ?_⟩
  have hF := hF x y h
  obtain ⟨o, l, p, b, k, n, m, rfl⟩ := h
  unfold laneDest
  rw [hF]
  rfl

theorem residueChecked_sum {f : VOps → Instr} {F : VTy → List (W32 × Bool) → RedOut}
    (hexec : ∀ k s, exec (f { v with resid := k }) s = sumInstr c { v with resid := k } F s) : residueChecked c v f := by
  refine ⟨listed1 v (vty v.ty.toNat), sumDest v F, fun k s => (hexec k s).trans ?_, fun x y h => ?_⟩
  · rw [← redLanes_eq_writeDest]
    rfl
  obtain ⟨o, l, p, b, k, n, m, rfl⟩ := h
  rfl

theorem residueApart.readVec_eq {x y : CoreState} (h : residueApart x y) (n : BitVec 8) : readVec y n = readVec x n := (h.reads n).1

/-- Two sources lane by lane. -/
theorem residueChecked_zip {f : VOps → Instr} (listed : Bool) (g : W32 → W32 → LaneOut)
    (hexec : ∀ k s, exec (f { v with resid := k }) s = withResidue c { v with resid := k } listed
      (writeLanes c v [v.va, v.vb] (fun x => List.zipWith g (readVec x v.va) (readVec x v.vb))) s) : residueChecked c v f :=
  residueChecked_lanes hexec (fun x y h => by simp only [h.readVec_eq])

/-- One source lane by lane. -/
theorem residueChecked_map {f : VOps → Instr} (listed : Bool) (g : W32 → LaneOut)
    (hexec : ∀ k s, exec (f { v with resid := k }) s = withResidue c { v with resid := k } listed
      (writeLanes c v [v.va] (fun x => (readVec x v.va).map g)) s) : residueChecked c v f :=
  residueChecked_lanes hexec (fun x y h => by simp only [h.readVec_eq])

theorem residueChecked_fma : residueChecked c v (Instr.fma c) := by
  refine residueChecked_lanes (listed := listed2 v (vty v.ty.toNat)) (srcs := [v.va, v.vb, v.vd]) (F := fun x => List.zipWith
    (fun (p : W32 × W32) d =>
      if (vtyD v).isFloat then
        floatOut (vtyD v) [p.1, p.2, d] (addExact (mulExact (laneFV (vtyD v) p.1) (laneFV (vtyD v) p.2)) (laneFV (vtyD v) d))
      else intOut (vtyD v) (laneInt (vtyD v) d + laneInt (vtyD v) p.1 * laneInt (vtyD v) p.2))
    ((readVec x v.va).zip (readVec x v.vb)) (readVec x v.vd)) (fun _ _ => rfl) (fun x y h => by simp only [h.readVec_eq])

theorem residueChecked_of_mem {f : VOps → Instr} (h : f ∈ [Instr.add c, Instr.sub c, Instr.mul c, Instr.fma c, Instr.div c, Instr.sqrt c,
    Instr.rsum c, Instr.rmean c, Instr.exp c, Instr.log c, Instr.rsqrt c, Instr.tanh c, Instr.sigm c, Instr.gelu c]) (v : VOps) :
    residueChecked c v f := by
  have harith {f : VOps → Instr} (fv : FV → FV → FV) (iv : Int → Int → Int)
      (hexec : ∀ k s, exec (f { v with resid := k }) s = arith2 c { v with resid := k } fv iv s) : residueChecked c v f :=
    residueChecked_zip (listed2 v (vty v.ty.toNat)) (binLane (vtyD v) fv iv) hexec
  have htrans {f : VOps → Instr} (fn : TransFn) (hexec : ∀ k s, exec (f { v with resid := k }) s = transInstr c { v with resid := k } fn s) :
      residueChecked c v f :=
    residueChecked_map (listed1 v (vty v.ty.toNat) && (vtyD v).isFloat) (transOut fn (vtyD v)) hexec
  simp only [List.mem_cons, List.not_mem_nil, or_false] at h
  rcases h with rfl | rfl | rfl | rfl | rfl | rfl | rfl | rfl | rfl | rfl | rfl | rfl | rfl | rfl
  · exact harith addExact (· + ·) fun _ _ => rfl
  · exact harith subExact (· - ·) fun _ _ => rfl
  · exact harith mulExact (· * ·) fun _ _ => rfl
  · exact residueChecked_fma
  · exact residueChecked_zip (listed2 v (vty v.ty.toNat) && (vtyD v).isFloat)
      (fun a b => floatOut (vtyD v) [a, b] (divFV (vtyD v).wide (laneFV (vtyD v) a) (laneFV (vtyD v) b))) fun _ _ => rfl
  · exact residueChecked_map (listed1 v (vty v.ty.toNat) && (vtyD v).isFloat)
      (fun a => floatOut (vtyD v) [a] (sqrtFV (vtyD v).wide (laneFV (vtyD v) a))) fun _ _ => rfl
  · exact residueChecked_sum (F := redSum) fun _ _ => rfl
  · exact residueChecked_sum (F := redMean) fun _ _ => rfl
  · exact htrans .exp fun _ _ => rfl
  · exact htrans .log fun _ _ => rfl
  · exact htrans .rsqrt fun _ _ => rfl
  · exact htrans .tanh fun _ _ => rfl
  · exact htrans .sigm fun _ _ => rfl
  · exact htrans .gelu fun _ _ => rfl

/-! ### The check around an instruction -/

theorem getCore_vDone_writeDest (c : CoreId) (vd : BitVec 8) (g : CoreState → DestOut) (s : State) :
    ∃ o l p b, getCore (vDone c (writeDest c vd g s)) c =
      let y := writeVec vd (g (getCore s c)).lanes (g (getCore s c)).poison (getCore s c)
      { y with ve := { y.ve with flagOp := o, flagLayer := l, flagPos := p, flagBit := b, pos := y.ve.pos + 1 } } :=
  getCore_vDone_countNoLane c _ _ _ s

/-- A destination reads the same whatever flags and strike the core had. -/
theorem writeDest_reads {vd : BitVec 8} {g : CoreState → DestOut} (hg : ∀ x y, residueApart x y → g y = g x)
    (h : residueApart (getCore s c) (getCore u c)) :
    readVec (getCore (vDone c (writeDest c vd g u)) c) vd = readVec (getCore (vDone c (writeDest c vd g s)) c) vd ∧
    vecPoison (getCore (vDone c (writeDest c vd g u)) c) vd = vecPoison (getCore (vDone c (writeDest c vd g s)) c) vd := by
  obtain ⟨o, l, p, b, hu⟩ := getCore_vDone_writeDest c vd g u
  obtain ⟨o', l', p', b', hs⟩ := getCore_vDone_writeDest c vd g s
  rw [hu, hs, hg _ _ h]
  exact (h.writeVec vd _ _).reads vd

theorem writeVec_strike (n : BitVec 8) (lanes : List (Option W32)) (poison : Bool) (x : CoreState) :
    (writeVec n lanes poison x).ve.strike = x.ve.strike ∧ (writeVec n lanes poison x).ve.clean = x.ve.clean := by
  unfold writeVec
  dsimp only
  split <;> exact ⟨rfl, rfl⟩

theorem writeDest_strike (vd : BitVec 8) (g : CoreState → DestOut) (s : State) :
    (getCore (vDone c (writeDest c vd g s)) c).ve.strike = (getCore s c).ve.strike ∧
    (getCore (vDone c (writeDest c vd g s)) c).ve.clean = (getCore s c).ve.clean := by
  obtain ⟨o, l, p, b, h⟩ := getCore_vDone_writeDest c vd g s
  rw [h]
  exact writeVec_strike vd _ _ _

theorem writeDest_canopy (vd : BitVec 8) (g : CoreState → DestOut) (s : State) : (vDone c (writeDest c vd g s)).canopy = s.canopy := by
  rw [vDone_only, writeDest, setVFlags_only, countNoLane_only]
  rfl

theorem writeDest_bit {vd : BitVec 8} {g : CoreState → DestOut} {b : Nat} (hb : b < 32) (h : bit (regW s 0xF00400 c.val) b = true) :
    bit (regW (vDone c (writeDest c vd g s)) 0xF00400 c.val) b = true :=
  (flagsAdded_countNoLane c _ _ _ s b hb).trans (by rw [h, Bool.true_or])

theorem writeDest_cntGet {vd : BitVec 8} {g : CoreState → DestOut} :
    cntGet (vDone c (writeDest c vd g s)) (cntCore c.val 3) = cntGet s (cntCore c.val 3) :=
  (cntGet_vDone_setVFlags c _ _ (cntCore_ne c (by decide))).trans (cntGet_countNoLane_ne c _ _ (cntCore_ne c (by decide)))

theorem withResidue_once {listed : Bool} {F : State → State} (hlisted : listed = true) (hactive : coreActive s c.val = true)
    (hresid : v.resid = 1) (hstrike : (getCore s c).ve.strike = false) :
    withResidue c v listed F s = .next (vDone c (F (residueFails c s))) := by
  have h := (coreActive_residueFails_first hstrike).trans hactive
  simp [withResidue, hlisted, hactive, hresid, h]

theorem withResidue_struck {listed : Bool} {F : State → State} (hlisted : listed = true) (hactive : coreActive s c.val = true)
    (hresid : 1 ≤ v.resid) (hstrike : (getCore s c).ve.strike = true) :
    withResidue c v listed F s = .next (residueFails c s) := by
  have h := (residueFails_fences hactive hstrike).out
  have hne : v.resid ≠ 0 := by omega
  simp [withResidue, hlisted, hactive, hne, h]

theorem withResidue_twice {listed : Bool} {F : State → State} (hlisted : listed = true) (hactive : coreActive s c.val = true)
    (hresid : 2 ≤ v.resid) (hstrike : (getCore s c).ve.strike = false) :
    withResidue c v listed F s = .next (residueFails c (residueFails c s)) := by
  have hfirst := (coreActive_residueFails_first hstrike).trans hactive
  have h := (residueFails_fences hfirst (getCore_residueFails_first hstrike).2.1).out
  have hne : v.resid ≠ 0 := by omega
  have hnle : ¬ v.resid ≤ 1 := by omega
  simp [withResidue, hlisted, hactive, hne, hnle, hfirst, h]

theorem withResidue_listed {listed : Bool} {F : State → State} (h : ∃ t, withResidue c v listed F s = .next t) : listed = true := by
  obtain ⟨t, h⟩ := h
  cases listed
  · exact absurd h (by simp [withResidue])
  · rfl

/-- Settles O12: the instruction's own writes keep what the check has left, and read the same of the core. -/
theorem residueCheck : Obligations.ResidueCheck := by
  intro c v s f hf hresid hactive hnext
  obtain ⟨listed, g, hexec, hg⟩ := residueChecked_of_mem hf v
  have hlisted : listed = true := withResidue_listed (hnext.imp fun t h => (hexec 0 s).symm.trans h)
  have hclean := (hexec 0 s).trans (withResidue_match (v := { v with resid := 0 }) hactive hlisted rfl _)
  have hrun : exec (f v) s = withResidue c v listed (writeDest c v.vd g) s := hexec v.resid s
  refine ⟨fun hone hstrike => ?_, fun hagain => ?_⟩
  · obtain ⟨hapart, hstruck, hzero⟩ := getCore_residueFails_first hstrike
    have hfirst := residueFails_first hstrike
    have hbit : bit (regW (residueFails c s) 0xF00400 c.val) vfResidue = true := by rw [hfirst]; exact bit_residueNoted c s
    have hcount : counted (cntCore c.val 3) 1 s (residueFails c s) := by rw [hfirst]; exact cntGet_residueNoted c s
    obtain ⟨r, hsent, hcode, hsuspect⟩ := transit_residueNoted c s
    have hreads := writeDest_reads (vd := v.vd) hg hapart
    have hkept := writeDest_strike (c := c) v.vd g (residueFails c s)
    refine ⟨_, _, hclean, hrun.trans (withResidue_once hlisted hactive hone hstrike), hreads.1, hreads.2, hkept.1.trans hstruck,
      hkept.2.trans hzero, writeDest_bit (by decide) hbit, writeDest_cntGet.trans hcount, r, ?_, hcode, hsuspect⟩
    rw [writeDest_canopy, hfirst, ← hsent]
    rfl
  · cases hstrike : (getCore s c).ve.strike
    · have htwo : 2 ≤ v.resid := hagain.resolve_left (by rw [hstrike]; decide)
      obtain ⟨hapart, hstruck, -⟩ := getCore_residueFails_first hstrike
      have hcount : counted (cntCore c.val 3) 1 s (residueFails c s) := by rw [residueFails_first hstrike]; exact cntGet_residueNoted c s
      obtain ⟨hfenced, hout, hcore, hshown, hcounts⟩ := residueFails_fences ((coreActive_residueFails_first hstrike).trans hactive) hstruck
      have hreads := (hapart.trans hcore).reads v.vd
      refine ⟨_, hrun.trans (withResidue_twice hlisted hactive htwo hstrike), hfenced, hout, hreads.1, hreads.2, hshown,
        fun h => absurd h Bool.false_ne_true, fun _ => ?_⟩
      rw [counted] at hcount hcounts
      rw [hcounts, hcount]
    · obtain ⟨hfenced, hout, hcore, hshown, hcounts⟩ := residueFails_fences hactive hstrike
      have hreads := hcore.reads v.vd
      exact ⟨_, hrun.trans (withResidue_struck hlisted hactive hresid hstrike), hfenced, hout, hreads.1, hreads.2, hshown,
        fun _ => hcounts, fun h => absurd h Bool.noConfusion⟩

end Sys2Proof.Machine
end

section
/-! PROOFS. Vector instructions: the convert group. -/

namespace Sys2Proof.Machine

variable {c : CoreId} {v : VOps} {s : State}

/-! ### Convert slots (R152) -/

theorem getSlot8_setSlot8 (v : VOps) (k : CSlot) (x : CoreState) : getSlot8 (setSlot8 v k x) v = k := by
  have hctx : getCtx (setSlot8 v k x) (setSlot8 v k x).ve.ctx =
      { getCtx x x.ve.ctx with cslots := famSet (getCtx x x.ve.ctx).cslots v.ty.toNat k } := getCtx_setCtx x x.ve.ctx _
  rw [getSlot8, hctx]
  exact famGet_famSet_same _ _ _ _ v.ty.isLt

theorem getSlot8_setSlot8_ne {v w : VOps} (h : w.ty ≠ v.ty) (k : CSlot) (x : CoreState) : getSlot8 (setSlot8 v k x) w = getSlot8 x w := by
  have hctx : getCtx (setSlot8 v k x) (setSlot8 v k x).ve.ctx =
      { getCtx x x.ve.ctx with cslots := famSet (getCtx x x.ve.ctx).cslots v.ty.toNat k } := getCtx_setCtx x x.ve.ctx _
  rw [getSlot8, hctx]
  exact famGet_famSet_other _ _ _ fun e => h (BitVec.eq_of_toNat_eq e)

/-- The whole effect of an instruction that changes its slot. -/
theorem slotWritten (c : CoreId) (v : VOps) (k : CSlot) (s : State) :
    let t := vDone c (setCore c (setSlot8 v k (getCore s c)) s)
    vecFrame c [] s t ∧ flagsAdded c [] s t ∧ slotFrame v (getCore s c) (getCore t c) ∧ getSlot8 (getCore t c) v = k := by
  intro t
  have hcore : getCore t c = let y := setSlot8 v k (getCore s c); { y with ve := { y.ve with pos := y.ve.pos + 1 } } := by
    rw [getCore_vDone, getCore_setCore]
  refine ⟨vecFrame_setCore c [] _ s, flagsAdded_setCore c [] _ s, ⟨?_, fun w hw => ?_⟩, ?_⟩ <;> rw [hcore]
  · rfl
  · exact getSlot8_setSlot8_ne hw k (getCore s c)
  · exact getSlot8_setSlot8 v k (getCore s c)

theorem cvset_effect (hactive : coreActive s c.val = true) (hvd : v.vd = 0) (hlo : 3 ≤ v.va.toNat) (hhi : v.va.toNat ≤ 7)
    (hvb : v.vb.toNat < 16) (hg : v.vb.toNat % 4 < 3)
    (hzpen : bit v.vb.toNat 3 = true → (∃ e, elemFmt v.va.toNat = some e ∧ e.isInt = true) ∧ bit v.vb.toNat 2 = false) :
    ∃ t, execCvset c v s = .next t ∧ vecFrame c [] s t ∧ flagsAdded c [] s t ∧ slotFrame v (getCore s c) (getCore t c) ∧
      getSlot8 (getCore t c) v = { CSlot.cleared with
        tensor := BitVec.ofNat 20 v.imm.toNat, fmt := BitVec.ofNat 4 v.va.toNat, gsize := BitVec.ofNat 2 v.vb.toNat,
        weight := bit v.vb.toNat 2, zpen := bit v.vb.toNat 3
        constLine := (getSlot8 (getCore s c) v).constLine, cursor := (getSlot8 (getCore s c) v).cursor } := by
  unfold execCvset
  refine ⟨_, vRun_listed hactive ?_ _, slotWritten c v _ s⟩
  cases h : bit v.vb.toNat 3
  · simp [hvd, hlo, hhi, hvb, hg]
  · obtain ⟨⟨e, he, hint⟩, hweight⟩ := hzpen h
    simp [hvd, hlo, hhi, hvb, hg, he, hint, hweight]

theorem setcc_effect (hactive : coreActive s c.val = true) (hvd : v.vd = 0) (hva : v.va = 0) (hvb : v.vb = 0) :
    ∃ t, execSetcc c v s = .next t ∧ vecFrame c [] s t ∧ flagsAdded c [] s t ∧ slotFrame v (getCore s c) (getCore t c) ∧
      getSlot8 (getCore t c) v = { getSlot8 (getCore s c) v with constLine := BitVec.ofNat 15 v.imm.toNat, cursor := 0 } := by
  unfold execSetcc
  exact ⟨_, vRun_listed hactive (by simp [hvd, hva, hvb]) _, slotWritten c v _ s⟩

/-! ### SIZE (R153) -/

theorem size_effect (hactive : coreActive s c.val = true) (hvd : vecListed v.vd = true) (hva : vecListed v.va = true) (hvb : v.vb = 0) :
    let x := getCore s c
    let k := getSlot8 x v
    ∃ t, execSize c v s = .next t ∧
      destWrites c v.vd (fun i => BitVec.ofNat 32 (((cvGroups x v (slotG k)).map (sizeWord k)).getD i 0))
        (srcPoison x v [v.va]) false (flagList [(srcPoison x v [v.va], vfPoison)]) [] s t := by
  unfold execSize
  refine ⟨_, vRun_listed hactive (by simp [hvd, hva, hvb]) _, destWrites_vDone c v.vd _ _ s (by simp) (fun i hi => ?_) ?_⟩
  · rw [List.getElem_map, List.getElem_range]
    rfl
  · rw [List.any_map]
    exact List.any_eq_false.2 fun _ _ => Bool.false_ne_true

/-! ### CVTN (R154, R155) -/

/-- The clipped and converted elements that a conversion counts. -/
def convCounts (c : CoreId) (clipped converted : Nat) (s : State) : State :=
  addCnt (cntCore c.val 5) converted (addCnt (cntCore c.val 4) clipped s)

theorem cntGet_convCounts (c : CoreId) (clipped converted : Nat) (s : State) :
    cntGet (convCounts c clipped converted s) (cntCore c.val 4) = min (cntGet s (cntCore c.val 4) + clipped) (2 ^ 64 - 1) ∧
    cntGet (convCounts c clipped converted s) (cntCore c.val 5) = min (cntGet s (cntCore c.val 5) + converted) (2 ^ 64 - 1) := by
  have hlive {k : Nat} (hk : k < 24) : cntCore c.val k ≠ 19666 ∧ cntCore c.val k ≠ 19667 := by
    have := c.isLt
    unfold cntCore
    omega
  refine ⟨(cntGet_addCnt_ne _ _ _ (cntCore_ne c (by decide))).trans (cntGet_addCnt _ _ _ (hlive (by decide))),
    (cntGet_addCnt _ _ _ (hlive (by decide))).trans ?_⟩
  rw [cntGet_addCnt_ne _ _ _ (cntCore_ne c (by decide))]

theorem vecFrame_convCounts (c : CoreId) (fs : List Nat) (y : CoreState) (clipped converted : Nat) (s : State) :
    vecFrame c [cntCore c.val 4, cntCore c.val 5] s (vDone c (setVFlags c fs (convCounts c clipped converted (setCore c y s)))) := by
  refine vecFrame_vDone c _ fs s _ rfl (fun d hd => getCore_setCore_ne s c y hd) (fun k hk => ?_) ?_
  · obtain ⟨h4, h5⟩ : k ≠ cntCore c.val 4 ∧ k ≠ cntCore c.val 5 := by simpa using hk
    exact (cntGet_addCnt_ne _ _ _ h5).trans (cntGet_addCnt_ne _ _ _ h4)
  · simpa using ⟨cntCore_ne c (j := 1) (k := 4) (by decide), cntCore_ne c (j := 1) (k := 5) (by decide)⟩

/-- The core that a conversion leaves is `y` with the flags' record and the position. -/
theorem getCore_vDone_convCounts (c : CoreId) (fs : List Nat) (y : CoreState) (clipped converted : Nat) (s : State) :
    ∃ o l p b, getCore (vDone c (setVFlags c fs (convCounts c clipped converted (setCore c y s)))) c =
      { y with ve := { y.ve with flagOp := o, flagLayer := l, flagPos := p, flagBit := b, pos := y.ve.pos + 1 } } := by
  have h := getCore_vDone_setVFlags c fs (convCounts c clipped converted (setCore c y s))
  have hcore : getCore (convCounts c clipped converted (setCore c y s)) c = y := getCore_setCore s c y
  rwa [hcore] at h

theorem cvtn_effect (hactive : coreActive s c.val = true) :
    let x := getCore s c
    let k := getSlot8 x v
    let row := 64 * bits v.imm.toNat 14 0
    let j0 := bits v.imm.toNat 23 15
    let bb := blockBytes (slotFmt k) (slotG k)
    let n := (cvGroups x v (slotG k)).length
    let bs := cvBlocks x v (srcPoison x v [v.va, v.vb])
    let tail := ceilTo (row + (j0 + n) * bb) 64
    let pad := if n = 0 then [] else List.replicate (tail - (row + (j0 + n) * bb)) 0
    let ended := (bs.zip (List.range n)).foldl (cvtnNote j0)
      (tileWrite (row + j0 * bb) ((bs.map (·.bytes)).flatten ++ pad) false x, k)
    v.vd = 0 → vecListed v.va = true → vecListed v.vb = true → tail ≤ tileBytes →
    ∃ t, execCvtn c v s = .next t ∧ vecFrame c [cntCore c.val 4, cntCore c.val 5] s t ∧
      (getCore t c).tile = ended.1.tile ∧ getSlot8 (getCore t c) v = ended.2 ∧
      cntGet t (cntCore c.val 4) = min (cntGet s (cntCore c.val 4) + (bs.map (·.clipped)).foldl (· + ·) 0) (2 ^ 64 - 1) ∧
      cntGet t (cntCore c.val 5) = min (cntGet s (cntCore c.val 5) + (bs.map (·.converted)).foldl (· + ·) 0) (2 ^ 64 - 1) ∧
      flagsAdded c (flagList [(bs.any (·.poisoned), vfPoison)]) s t := by
  intro x k row j0 bb n bs tail pad ended hvd hva hvb htail
  have hrun : execCvtn c v s = .next (vDone c (setVFlags c (flagList [(bs.any (·.poisoned), vfPoison)])
      (convCounts c ((bs.map (·.clipped)).foldl (· + ·) 0) ((bs.map (·.converted)).foldl (· + ·) 0)
        (setCore c (setSlot8 v ended.2 ended.1) s)))) := by
    have hlisted : (!(v.vd == 0 && vecListed v.va && vecListed v.vb)) = false := by simp [hvd, hva, hvb]
    unfold execCvtn
    simp only [hlisted, Bool.false_eq_true, if_false, beq_iff_eq]
    exact (if_neg (Nat.not_lt.2 htail)).trans (vRun_listed hactive rfl _)
  obtain ⟨o, l, p, b, h⟩ := getCore_vDone_convCounts c (flagList [(bs.any (·.poisoned), vfPoison)]) (setSlot8 v ended.2 ended.1)
    ((bs.map (·.clipped)).foldl (· + ·) 0) ((bs.map (·.converted)).foldl (· + ·) 0) s
  refine ⟨_, hrun, vecFrame_convCounts c _ _ _ _ s, ?_, ?_, ?_, ?_, flagsAdded_vDone c _ s _ rfl⟩
  · rw [h]
    rfl
  · rw [h]
    exact getSlot8_setSlot8 v ended.2 ended.1
  · exact (cntGet_vDone_setVFlags c _ _ (cntCore_ne c (by decide))).trans (cntGet_convCounts c _ _ _).1
  · exact (cntGet_vDone_setVFlags c _ _ (cntCore_ne c (by decide))).trans (cntGet_convCounts c _ _ _).2

/-! ### SIDE (R155) -/

theorem contains_head_linesOf (a : Nat) {n : Nat} (hn : n ≠ 0) : (linesOf a n).contains (a / 64) = true := by
  simp [linesOf, hn, List.mem_range'_1]

theorem tilePoisoned_line (x : CoreState) (l : Nat) : tilePoisoned x (64 * l) 64 = x.tilePoison.contains l := by
  have hlines : linesOf (64 * l) 64 = [l] := by
    have h : 64 * l / 64 = l := by omega
    have h' : (64 * l + 63) / 64 = l := by omega
    simp [linesOf, h, h']
  simp [tilePoisoned, hlines]

/-- The core that SIDE leaves: the list's line cleared where it begins at slot 0, then the values kept. -/
def sideCore (line slot0 : Nat) (kept : Bytes) (poison : Bool) (x : CoreState) : CoreState :=
  tileWrite (64 * line + 2 * slot0) kept poison (if slot0 = 0 then tileWrite (64 * line) (List.replicate 64 0) poison x else x)

theorem sideCore_only (line slot0 : Nat) (kept : Bytes) (poison : Bool) (x : CoreState) : sideCore line slot0 kept poison x =
    { x with tile := (sideCore line slot0 kept poison x).tile, tilePoison := (sideCore line slot0 kept poison x).tilePoison } := by
  unfold sideCore
  split <;> rfl

theorem sideCore_tile (line slot0 : Nat) (kept : Bytes) (poison : Bool) (x : CoreState) : (sideCore line slot0 kept poison x).tile =
    ramWrite (if slot0 = 0 then ramWrite x.tile (64 * line) (List.replicate 64 0) else x.tile) (64 * line + 2 * slot0) kept := by
  unfold sideCore
  split <;> rfl

/-- A poisoned side list that writes marks its line. -/
theorem sideCore_marks {line slot0 : Nat} {kept : Bytes} (hslot : slot0 < 32) (hwrites : slot0 = 0 ∨ kept ≠ []) (x : CoreState) :
    tilePoisoned (sideCore line slot0 kept true x) (64 * line) 64 = true := by
  rw [tilePoisoned_line, sideCore, tilePoison_tileWrite_poisoned, Bool.or_eq_true]
  rcases hwrites with rfl | hkept
  · refine .inl ?_
    have h := contains_head_linesOf (64 * line) (n := (List.replicate 64 (0 : Byte)).length) (by simp)
    rw [Nat.mul_div_cancel_left _ (by decide)] at h
    rw [if_pos rfl, tilePoison_tileWrite_poisoned, h, Bool.or_true]
  · refine .inr ?_
    have h := contains_head_linesOf (64 * line + 2 * slot0) (n := kept.length) (by simpa using hkept)
    rwa [show (64 * line + 2 * slot0) / 64 = line by omega] at h

theorem side_effect (hactive : coreActive s c.val = true) :
    let x := getCore s c
    let row := 64 * bits v.imm.toNat 14 0
    let cuts := (cvLanes x v).filter (·.cut)
    let slot0 := bits v.imm.toNat 19 15
    let kept := ((cuts.take (32 - slot0)).map (fun l => toLE 2 (toBf16 l.val).toNat)).flatten
    v.vd = 0 → vecListed v.va = true → v.vb = 0 →
    ∃ t, execSide c v s = .next t ∧ vecFrame c [] s t ∧ tileFrame x (getCore t c) ∧
      (getCore t c).tile = ramWrite (if slot0 = 0 then ramWrite x.tile row (List.replicate 64 0) else x.tile) (row + 2 * slot0) kept ∧
      (srcPoison x v [v.va] = true → (slot0 = 0 ∨ kept ≠ []) → tilePoisoned (getCore t c) row 64 = true) ∧
      flagsAdded c (flagList [(srcPoison x v [v.va], vfPoison), (decide (32 - slot0 < cuts.length), vfCut)]) s t := by
  intro x row cuts slot0 kept hvd hva hvb
  have hrun : execSide c v s = .next (vDone c (setVFlags c
      (flagList [(srcPoison x v [v.va], vfPoison), (decide (32 - slot0 < cuts.length), vfCut)])
      (setCore c (sideCore (bits v.imm.toNat 14 0) slot0 kept (srcPoison x v [v.va]) x) s))) := by
    unfold execSide sideCore
    simp only [← beq_iff_eq (a := slot0)]
    exact vRun_listed hactive (by simp [hvd, hva, hvb]) _
  obtain ⟨o, l, p, b, h⟩ := getCore_vDone_setCore c
    (flagList [(srcPoison x v [v.va], vfPoison), (decide (32 - slot0 < cuts.length), vfCut)])
    (sideCore (bits v.imm.toNat 14 0) slot0 kept (srcPoison x v [v.va]) x) s
  refine ⟨_, hrun, vecFrame_setCore _ _ _ _, ?_, ?_, fun hpoison hwrites => ?_, flagsAdded_setCore _ _ _ _⟩ <;> rw [h]
  · rw [sideCore_only]
    rfl
  · exact sideCore_tile _ _ _ _ x
  · rw [hpoison]
    exact sideCore_marks (bits_lt _ 19 15) hwrites x

/-! ### DCVN (R156) -/

/-- The report of a block that fails. -/
def reportBlock (c : CoreId) (layer op : W16) (s : State) (e : BlockFault) : State :=
  match e with
  | .format => reportWith 2 (ucCore c) 0 (ucCore c) layer op [] s
  | .skew ex rc => reportWith 1 (ucCore c) 0 (ucCore c) layer op [ex, rc] s

/-- Reports of blocks leave the cores and the registers, and each is on its way. -/
theorem foldl_reportBlock (c : CoreId) (layer op : W16) (es : List BlockFault) (s : State) :
    (es.foldl (reportBlock c layer op) s).cores = s.cores ∧ (es.foldl (reportBlock c layer op) s).regs = s.regs ∧
      (es.foldl (reportBlock c layer op) s).canopy.transit.length = s.canopy.transit.length + es.length := by
  have hone (code : Nat) (content : List Nat) (s : State) : let u := reportWith code (ucCore c) 0 (ucCore c) layer op content s
      u.cores = s.cores ∧ u.regs = s.regs ∧ u.canopy.transit.length = s.canopy.transit.length + 1 := by
    have hframe := reportWith_frame (m0 := 2147483680) (by decide) code (ucCore c) 0 (ucCore c) layer op content s
    obtain ⟨r, hsent, -⟩ := reportWith_canopy code (ucCore c) 0 (ucCore c) layer op content s
    exact ⟨cores_of_proj hframe, regs_of_proj hframe, by rw [hsent, List.length_append]; rfl⟩
  induction es generalizing s with
  | nil => exact ⟨rfl, rfl, rfl⟩
  | cons e es ih =>
    obtain ⟨hcores, hregs, hlen⟩ := ih (reportBlock c layer op s e)
    obtain ⟨hcores', hregs', hlen'⟩ : (reportBlock c layer op s e).cores = s.cores ∧ (reportBlock c layer op s e).regs = s.regs ∧
        (reportBlock c layer op s e).canopy.transit.length = s.canopy.transit.length + 1 := by
      cases e with
      | format => exact hone 2 [] s
      | skew ex rc => exact hone 1 [ex, rc] s
    refine ⟨hcores.trans hcores', hregs.trans hregs', hlen.trans ?_⟩
    rw [hlen', List.length_cons]
    omega

/-- The lanes that DCVN writes: those decoded, in active lanes. -/
def dcvnLanes (v : VOps) (x : CoreState) : List (Option W32) :=
  (List.range 128).map (fun i => if laneActive x v.msk i && decide (i < dcvnGroups x v * slotG (getSlot8 x v))
    then some (laneOf (decodeBlocks x v).1 i) else none)

theorem laneOf_dcvnLanes (v : VOps) (poison : Bool) (x : CoreState) {i : Nat} (hi : i < 128) :
    laneOf (readVec (writeVec v.vd (dcvnLanes v x) poison x) v.vd) i =
      if laneActive x v.msk i ∧ i < dcvnGroups x v * slotG (getSlot8 x v) then laneOf (decodeBlocks x v).1 i
      else laneOf (readVec x v.vd) i := by
  have hlen : (dcvnLanes v x).length = 128 := by simp [dcvnLanes]
  rw [readVec_writeVec _ _ _ _ hlen, laneOf_mergeLanes _ _ i (by simpa using hi) (by omega)]
  simp only [dcvnLanes, List.getElem_map, List.getElem_range]
  by_cases h : laneActive x v.msk i ∧ i < dcvnGroups x v * slotG (getSlot8 x v) <;> simp [h]

/-- A destination written with poison is poisoned. -/
theorem vecPoison_writeVec_poisoned (n : BitVec 8) (lanes : List (Option W32)) (x : CoreState) :
    vecPoison (writeVec n lanes true x) n = true := by
  have h := vecPoison_writeVec n lanes true x (writeVec n lanes true x) ⟨_, _, _, _, rfl⟩
  unfold destPoison at h
  split at h
  · exact h
  · exact h rfl

theorem dcvn_effect (hactive : coreActive s c.val = true) :
    let x := getCore s c
    let k := getSlot8 x v
    let row := 64 * bits v.imm.toNat 14 0
    let j0 := bits v.imm.toNat 23 15
    let bb := blockBytes (slotFmt k) (slotG k)
    let r := decodeBlocks x v
    let n := dcvnGroups x v
    let p := tilePoisoned x (row + j0 * bb) (n * bb) || srcPoison x v []
    vecListed v.vd = true → v.va = 0 → v.vb = 0 → row + (j0 + n) * bb ≤ tileBytes →
    ∃ t, execDcvn c v s = .next t ∧
      (∀ i < 128, laneOf (readVec (getCore t c) v.vd) i =
        if laneActive x v.msk i ∧ i < n * slotG k then laneOf r.1 i else laneOf (readVec x v.vd) i) ∧
      (getSlot8 (getCore t c) v).cursor = r.2.1 ∧
      flagsAdded c (flagList [(!r.2.2.isEmpty, vfDeckle), (p, vfPoison)]) s t ∧
      (if r.2.2 = [] then vecFrame c [] s t
       else vecPoison (getCore t c) v.vd = true ∧ t.canopy.transit.length = s.canopy.transit.length + r.2.2.length) := by
  intro x k row j0 bb r n p hvd hva hvb hinside
  have hrun : execDcvn c v s = .next (vDone c (setVFlags c (flagList [(!r.2.2.isEmpty, vfDeckle), (p, vfPoison)])
      (r.2.2.foldl (reportBlock c x.ve.layer x.ve.op)
        (setCore c (setSlot8 v { k with cursor := r.2.1 } (writeVec v.vd (dcvnLanes v x) (!r.2.2.isEmpty || p) x)) s)))) := by
    have hlisted : (!(vecListed v.vd && v.va == 0 && v.vb == 0)) = false := by simp [hvd, hva, hvb]
    unfold execDcvn
    simp only [hlisted, Bool.false_eq_true, if_false]
    exact (if_neg (Nat.not_lt.2 hinside)).trans (vRun_listed hactive rfl _)
  generalize hpoison : (!r.2.2.isEmpty || p) = poison at hrun
  generalize hu : r.2.2.foldl (reportBlock c x.ve.layer x.ve.op)
    (setCore c (setSlot8 v { k with cursor := r.2.1 } (writeVec v.vd (dcvnLanes v x) poison x)) s) = u at hrun
  obtain ⟨hcores, hregs, hsent⟩ := foldl_reportBlock c x.ve.layer x.ve.op r.2.2
    (setCore c (setSlot8 v { k with cursor := r.2.1 } (writeVec v.vd (dcvnLanes v x) poison x)) s)
  rw [hu] at hcores hregs hsent
  obtain ⟨o, l, q, b, h⟩ := getCore_vDone_setVFlags c (flagList [(!r.2.2.isEmpty, vfDeckle), (p, vfPoison)]) u
  rw [getCore_of_cores hcores, getCore_setCore] at h
  refine ⟨_, hrun, fun i hi => ?_, ?_, flagsAdded_vDone c _ s u hregs, ?_⟩
  · rw [h]
    exact laneOf_dcvnLanes v poison x hi
  · rw [h]
    exact congrArg CSlot.cursor (getSlot8_setSlot8 v { k with cursor := r.2.1 } (writeVec v.vd (dcvnLanes v x) poison x))
  · split
    · rename_i hnone
      rw [hnone] at hu
      rw [← hu]
      exact vecFrame_setCore c _ _ s
    · rename_i hsome
      have hbad : poison = true := by rw [← hpoison]; simp [hsome]
      refine ⟨?_, ?_⟩
      · rw [h, hbad]
        exact vecPoison_writeVec_poisoned v.vd (dcvnLanes v x) x
      · rw [vDone_only, setVFlags_only]
        exact hsent

/-! ### CFL (R157) -/

theorem getSlot8_vDone {k : CSlot} {x : CoreState} {u : State} (h : getCore u c = setSlot8 v k x) :
    getSlot8 (getCore (vDone c u) c) v = k := by
  rw [getCore_vDone, h]
  exact getSlot8_setSlot8 v k x

theorem getDie_vDone (c : CoreId) (s : State) (d : CDie) : getDie (vDone c s) d = getDie s d := rfl

theorem cfl_effect (hactive : coreActive s c.val = true) (hvd : v.vd = 0) (hva : v.va = 0) (hvb : v.vb = 0) :
    let x := getCore s c
    let k := getSlot8 x v
    ∃ t, execCfl c v s = .next t ∧ t = { s with cores := t.cores, dies := t.dies, counters := t.counters } ∧
      getSlot8 (getCore t c) v = { k with clipped := 0, converted := 0, blocks := [] } ∧
      ∀ d, tensorOf s (getCtx x x.ve.ctx).slot k.tensor = some d →
        (getDie t d.spine).merges = mergePost
          { tensor := k.tensor, ream := (getCtx x x.ve.ctx).ream, slot := (getCtx x x.ve.ctx).slot, posts := 1,
            clipped := k.clipped, converted := k.converted,
            blocks := (k.blocks.filter (fun b => b.2.2.2)).map (fun b => (b.1, (b.2.1, b.2.2.1))) } (getDie s d.spine).merges := by
  intro x k
  unfold execCfl
  refine ⟨_, vRun_listed hactive (by simp [hvd, hva, hvb]) _, ?_⟩
  have htensor (y : CoreState) : tensorOf (setCore c y s) (getCtx x x.ve.ctx).slot k.tensor =
      tensorOf s (getCtx x x.ve.ctx).slot k.tensor := rfl
  dsimp only
  rw [htensor]
  cases hd : tensorOf s (getCtx x x.ve.ctx).slot k.tensor with
  | none => exact ⟨rfl, getSlot8_vDone (getCore_setCore s c _), fun d h => by cases h⟩
  | some d =>
    refine ⟨rfl, getSlot8_vDone (getCore_setCore s c _), fun d' h => ?_⟩
    obtain rfl : d = d' := Option.some.inj h
    rw [getDie_vDone]
    dsimp only
    rw [getDie_modDie]
    rfl

/-- Settles O11: each instruction of the group by its own effect. -/
theorem convertGroup : Obligations.ConvertGroup := fun _ _ _ hactive =>
  ⟨cvset_effect hactive, setcc_effect hactive, size_effect hactive, cvtn_effect hactive, side_effect hactive, dcvn_effect hactive,
    cfl_effect hactive⟩

end Sys2Proof.Machine
end

section
/-! PROOFS. What an access to stack memory leaves: the records of cores, the reports on their way, and the counters and registers of
other units. -/

namespace Sys2Proof.Machine

variable {s t u : State}

/-- A counter position that no access to stack memory counts at: those of engines, cores and clusters, and of later units the positions
at which no stack, NLU, table or power domain counts. -/
def countApart (k : Nat) : Prop := k < 14592 ∨ k % 8 = 4 ∨ k % 8 = 7

/-- The offset of a stored register word that no access to stack memory sets. -/
def regApart (k : Nat) : Prop := k % 16777216 ≠ 0xE00024 ∧ k % 16777216 ≠ 0xC80004

/-- What an access to stack memory leaves. -/
structure MemoryUsed (s t : State) : Prop where
  units : ∀ c : CoreId, unitRec t (ucCore c) = unitRec s (ucCore c)
  sent : ∃ rest, t.canopy.transit = s.canopy.transit ++ rest
  counts : ∀ k, countApart k → cntGet t k = cntGet s k
  regs : ∀ k, regApart k → mapGet k t.regs = mapGet k s.regs

namespace MemoryUsed

theorem of_parts (hu : t.canopy.units = s.canopy.units) (hr : t.canopy.transit = s.canopy.transit) (hc : t.counters = s.counters)
    (hg : t.regs = s.regs) : MemoryUsed s t :=
  ⟨fun _ => unitRec_of_units hu _, ⟨[], by rw [hr, List.append_nil]⟩, fun _ _ => cntGet_of_counters hc _, fun _ _ => by rw [hg]⟩

theorem refl (s : State) : MemoryUsed s s := of_parts rfl rfl rfl rfl

theorem trans (h : MemoryUsed s t) (h' : MemoryUsed t u) : MemoryUsed s u := by
  obtain ⟨a, ha⟩ := h.sent
  obtain ⟨b, hb⟩ := h'.sent
  exact ⟨fun c => (h'.units c).trans (h.units c), ⟨a ++ b, by rw [hb, ha, List.append_assoc]⟩,
    fun k hk => (h'.counts k hk).trans (h.counts k hk), fun k hk => (h'.regs k hk).trans (h.regs k hk)⟩

/-- The change begins where the parts that it speaks of stand as in `s`. -/
theorem congr (h : MemoryUsed u t) (hy : u.canopy = s.canopy) (hc : u.counters = s.counters) (hg : u.regs = s.regs) : MemoryUsed s t :=
  trans (of_parts (by rw [hy]) (by rw [hy]) hc hg) h

theorem foldl {α : Type} (l : List α) (f : State → α → State) (h : ∀ s a, MemoryUsed s (f s a)) (s : State) : MemoryUsed s (l.foldl f s) :=
  l.foldlRecOn f (motive := MemoryUsed s) (refl s) (fun _ ht a _ => ht.trans (h _ a))

end MemoryUsed

theorem memoryUsed_addCnt {i : Nat} (n : Nat) (s : State) (h : ¬ countApart i) : MemoryUsed s (addCnt i n s) :=
  ⟨fun _ => rfl, ⟨[], (List.append_nil _).symm⟩, fun _ hk => cntGet_addCnt_ne _ _ _ (fun e => h (e ▸ hk)), fun _ _ => rfl⟩

theorem memoryUsed_setSticky {off i b : Nat} (s : State) (ho : off = 0xE00024 ∨ off = 0xC80004) : MemoryUsed s (setSticky off i b s) := by
  refine ⟨fun _ => rfl, ⟨[], (List.append_nil _).symm⟩, fun _ _ => rfl, fun k hk => regsKeep_setRegW off i _ s k ?_⟩
  simp only [List.mem_singleton, regKey]
  unfold regApart at hk
  omega

theorem memoryUsed_reportWith (code : Nat) (suspect alt reporter : UnitCode) (layer op : W16) (content : List Nat) (s : State) :
    MemoryUsed s (reportWith code suspect alt reporter layer op content s) :=
  ⟨fun _ => unitRec_of_units (reportWith_units _ _ _ _ _ _ _ _) _, (fencing_reportWith _ _ _ _ _ _ _ _).sent,
    fun _ _ => cntGet_of_counters (reportWith_counters _ _ _ _ _ _ _ _) _,
    fun _ _ => by rw [regs_of_proj (reportWith_frame (m0 := 2147483680) (by decide) _ _ _ _ _ _ _ _)]⟩

theorem memoryUsed_drawFree (s : State) : MemoryUsed s (drawFree s).2 := .of_parts rfl rfl rfl rfl

/-! ### Stacks wake, err and are lost (R184, R197, R419) -/

theorem memoryUsed_touchStack (st : Nat) (s : State) : MemoryUsed s (touchStack st s) := by
  have hwake (v : State) : MemoryUsed v (incCnt (cntPwr 1) v) := memoryUsed_addCnt 1 v (by unfold countApart cntPwr; omega)
  unfold touchStack
  refine .congr (?_ : MemoryUsed { s with dsm := { s.dsm with used := mapSet st (now s) s.dsm.used } } _) rfl rfl rfl
  generalize { s with dsm := { s.dsm with used := mapSet st (now s) s.dsm.used } } = v
  unfold beginWake
  extract_lets d
  split
  · exact .congr (hwake _) rfl rfl rfl
  · split
    · exact .refl v
    · exact .congr (hwake _) rfl rfl rfl
  · exact .refl v

theorem memoryUsed_stopNlus (st : Nat) (s : State) : MemoryUsed s (stopNlus st s) := by
  have hmark (s : State) (r : W32) : MemoryUsed s (markRelaunch r s) := by
    unfold markRelaunch
    split
    · exact .refl s
    · exact .of_parts rfl rfl rfl rfl
  refine .foldl _ _ (fun s i => ?_) s
  extract_lets u x reams
  have hreams : MemoryUsed s (reams.foldl (fun s r => markRelaunch r s) s) := .foldl reams _ hmark s
  exact hreams.trans (.of_parts rfl rfl rfl rfl)

theorem ucCore_ne_ucStack (c : CoreId) (st : StackId) : ucCore c ≠ ucStack st := fun h => by
  have h := congrArg BitVec.toNat h
  have := c.isLt
  simp only [toNat_ucCore, ucStack, unitCode, BitVec.toNat_ofNat] at h
  omega

theorem memoryUsed_declareLost (st : StackId) (retired : Bool) (cause : Nat) (s : State) : MemoryUsed s (declareLost st retired cause s) := by
  have hset (v : State) : MemoryUsed v (setUnit (ucStack st) 2 (BitVec.ofNat 16 cause) v) :=
    ⟨fun c => unitRec_setUnit_ne _ _ _ (ucCore_ne_ucStack c st), ⟨[], (List.append_nil _).symm⟩, fun _ _ => rfl, fun _ _ => rfl⟩
  unfold declareLost
  split
  · exact .refl s
  · extract_lets d lost first st' v
    have hlost : MemoryUsed s v := .of_parts rfl rfl rfl rfl
    exact ((hlost.trans (memoryUsed_stopNlus _ _)).trans (hset _)).trans (memoryUsed_reportWith _ _ _ _ _ _ _ _)

theorem memoryUsed_noteUe (st : StackId) (s : State) : MemoryUsed s (noteUe st s) := by
  unfold noteUe
  extract_lets w
  split
  rename_i w0 n0 _
  extract_lets n v v1 v2
  have hcnt : MemoryUsed v (incCnt (cntStack st.val 1) v) := memoryUsed_addCnt 1 v (by unfold countApart cntStack; omega)
  have hseen : MemoryUsed v v1 := hcnt.trans (memoryUsed_setSticky _ (.inl rfl))
  have hnoted : MemoryUsed s v2 := .congr (hseen.trans (memoryUsed_reportWith _ _ _ _ _ _ _ _)) rfl rfl rfl
  split
  · exact hnoted.trans (memoryUsed_declareLost _ _ _ _)
  · exact hnoted

theorem memoryUsed_stackCnt (st : Nat) {n : Nat} (m : Nat) (s : State) (h : n < 4 ∨ n = 5 ∨ n = 6) : MemoryUsed s (addCnt (cntStack st n) m s) :=
  memoryUsed_addCnt m s (by unfold countApart cntStack; omega)

theorem memoryUsed_findErr (key : Nat) (s : State) : MemoryUsed s (findErr key s) := by
  unfold findErr
  split
  · exact .refl s
  · exact .congr (memoryUsed_stackCnt _ 1 _ (by omega)) rfl rfl rfl
  · exact memoryUsed_noteUe _ s

/-! ### Reads of a stripe's units (R198, R199) -/

theorem memoryUsed_readOthers (t k x : Nat) (s : State) : MemoryUsed s (readOthers t k x s).2 := by
  have hread (s : State) (y : Nat) :
      MemoryUsed s (if y == x then s else (place s t y k).elim s (fun key => findErr key (touchStack (keyStack key) s))) := by
    split
    · exact .refl s
    · cases place s t y k with
      | none => exact .refl s
      | some key => exact (memoryUsed_touchStack _ s).trans (memoryUsed_findErr key _)
  unfold readOthers
  extract_lets read v short w
  have hfold : MemoryUsed s v := .foldl _ read hread s
  change MemoryUsed s (if short then read v 15 else v)
  split
  · exact hfold.trans (hread v 15)
  · exact hfold

theorem memoryUsed_setRaw (key : Nat) (bs : Bytes) (s : State) : MemoryUsed s (setRaw key bs s) := .of_parts rfl rfl rfl rfl

theorem memoryUsed_readUnit (t k x : Nat) (s : State) : MemoryUsed s (readUnit t k x s).2 := by
  unfold readUnit
  split
  · dsimp only
    refine MemoryUsed.trans ?_ (memoryUsed_readOthers t k x _)
    split
    · exact memoryUsed_stackCnt _ 1 s (by omega)
    · exact .refl s
  · rename_i key _
    dsimp only
    have herr := memoryUsed_findErr key s
    split
    · have hothers := herr.trans (memoryUsed_readOthers t k x _)
      split
      · rename_i v w hw
        rw [hw] at hothers
        exact (hothers.trans (memoryUsed_setRaw key v w)).trans (memoryUsed_stackCnt _ 1 _ (by omega))
      · rename_i w hw
        rw [hw] at hothers
        exact hothers
    · exact herr

theorem memoryUsed_stackLine (l : Nat) (s : State) : MemoryUsed s (stackLine l s).2 := by
  unfold stackLine
  extract_lets t d k kind u key mark
  have htouch : MemoryUsed s u := memoryUsed_touchStack _ s
  split
  · exact htouch
  · split
    rename_i v w hw
    have hread : MemoryUsed u w := by
      split at hw
      · have := memoryUsed_readUnit t k d u
        rwa [hw] at this
      · split at hw
        · obtain ⟨-, rfl⟩ := Prod.mk.inj hw
          exact memoryUsed_findErr _ u
        · obtain ⟨-, rfl⟩ := Prod.mk.inj hw
          exact .refl u
    split
    · exact htouch.trans hread
    · exact (htouch.trans hread).trans (memoryUsed_drawFree w)

/-! ### Overhang units (R219) -/

theorem memoryUsed_deliverUnit (u unit : Nat) (o : OvhUnit) (attempts : List (Option Bytes)) (s : State) :
    MemoryUsed s (deliverUnit u unit o attempts s) := by
  have hcnt (i n : Nat) (v : State) (hi : i = 5 ∨ i = 6) : MemoryUsed v (addCnt (cntNlu u i) n v) :=
    memoryUsed_addCnt n v (by unfold countApart cntNlu; omega)
  unfold deliverUnit
  extract_lets tried fails v put
  have hcounted : MemoryUsed s v := (hcnt 6 fails s (.inr rfl)).trans (hcnt 5 1 _ (.inl rfl))
  have hput (x : Bytes × Bool) (w : State) : MemoryUsed w (put x w) := .of_parts rfl rfl rfl rfl
  split
  · exact hcounted.trans (hput _ v)
  · exact (hcounted.trans (memoryUsed_setSticky v (.inr rfl))).trans (hput _ _)

theorem memoryUsed_ovhLine (l unit : Nat) (o : OvhUnit) (s : State) : MemoryUsed s (ovhLine l unit o s).2 := by
  unfold ovhLine
  extract_lets v
  have hv : MemoryUsed s v := by
    unfold v
    split
    · exact .refl s
    · exact memoryUsed_deliverUnit _ _ _ _ s
  split
  · exact hv
  · exact hv.trans (memoryUsed_drawFree v)

/-! ### Writes of a stripe's units (R194, R200 to R203) -/

theorem memoryUsed_rebuildLine (t x : Nat) (s : State) (k : Nat) : MemoryUsed s (rebuildLine t x s k) := by
  have hothers := memoryUsed_readOthers t k x s
  unfold rebuildLine
  split
  · rename_i w hw
    rw [hw] at hothers
    exact hothers
  · rename_i v w hw
    rw [hw] at hothers
    extract_lets clr mark
    split
    rename_i q z hz
    have hq : MemoryUsed w z := by
      split at hz
      · have := memoryUsed_readUnit t k 15 w
        rwa [hz] at this
      · obtain ⟨-, rfl⟩ := Prod.mk.inj hz
        exact .refl w
    extract_lets z1 d z2
    have hput : MemoryUsed z z2 := .of_parts rfl rfl rfl rfl
    refine ((hothers.trans hq).trans hput).trans ?_
    split
    · exact memoryUsed_setRaw _ _ z2
    · exact .refl z2

theorem memoryUsed_rebuildStripe (t : Nat) (s : State) : MemoryUsed s (rebuildStripe t s) := by
  unfold rebuildStripe
  extract_lets x clr home v w
  have hv : MemoryUsed s v := memoryUsed_stackCnt home 1 s (by omega)
  have hw : MemoryUsed v w := by
    unfold w
    split
    · exact memoryUsed_stackCnt home 64 v (by omega)
    · exact .refl v
  split
  · exact hv
  · split
    · refine hv.trans (.foldl _ _ (fun s k => ?_) v)
      exact .of_parts rfl rfl rfl rfl
    · exact (hv.trans hw).trans (.foldl _ _ (fun s k => memoryUsed_rebuildLine t x s k) w)

theorem memoryUsed_readParity (t k x : Nat) (s : State) : MemoryUsed s (readParity t k x s).2 := by
  unfold readParity
  split
  · exact memoryUsed_readUnit t k x s
  · exact .refl s

theorem memoryUsed_writeGuarded (t k d : Nat) (bs : Bytes) (poison : Bool) (s : State) : MemoryUsed s (writeGuarded t k d bs poison s) := by
  unfold writeGuarded
  split
  rename_i old s1 h1
  split
  rename_i p s2 h2
  split
  rename_i q s3 h3
  have hreads : MemoryUsed s s3 := by
    have a := memoryUsed_readUnit t k d s
    have b := memoryUsed_readParity t k 14 s1
    have c := memoryUsed_readParity t k 15 s2
    rw [h1] at a; rw [h2] at b; rw [h3] at c
    exact (a.trans b).trans c
  extract_lets own put
  have hput (v : State) : MemoryUsed v (put v) := by
    unfold put
    split <;> exact .of_parts rfl rfl rfl rfl
  split
  · split
    · exact hreads.trans (hput s3)
    · exact hreads
  · extract_lets delta v2
    have hv2 : MemoryUsed (put s3) v2 := by
      unfold v2
      split
      · exact memoryUsed_setRaw _ _ _
      · exact .refl _
    refine ((hreads.trans (hput s3)).trans hv2).trans ?_
    split
    · exact memoryUsed_setRaw _ _ v2
    · exact .refl v2

theorem memoryUsed_putLine (l : Nat) (bs : Bytes) (poison : Bool) (s : State) : MemoryUsed s (putLine l bs poison s) := by
  unfold putLine
  extract_lets t d k kind s1 s2
  have h1 : MemoryUsed s s1 := memoryUsed_touchStack _ s
  have h2 : MemoryUsed s s2 := by
    refine h1.trans ?_
    unfold s2
    split
    · exact (memoryUsed_touchStack _ _).trans (memoryUsed_touchStack _ _)
    · exact .refl s1
  refine h2.trans ?_
  split
  · exact memoryUsed_stackCnt _ 1 s2 (by omega)
  · split
    · exact memoryUsed_writeGuarded t k d bs poison s2
    · split
      · exact .of_parts rfl rfl rfl rfl
      · split
        · exact (memoryUsed_rebuildStripe t s2).trans (.of_parts rfl rfl rfl rfl)
        · exact .refl s2

/-! ### Lines as device units use them (R193, R242, R333) -/

theorem memoryUsed_hostLine (l : Nat) (bs : Bytes) (s : State) : MemoryUsed s (hostLine l bs s) := by
  unfold hostLine
  split
  · exact memoryUsed_addCnt 1 s (by unfold countApart cntTable; omega)
  · exact memoryUsed_putLine l bs false s

theorem memoryUsed_recallLine (l : Nat) (s : State) : MemoryUsed s (recallLine l s) := by
  have hforget : MemoryUsed s (drawFree (forgetLine l s)).2 := .of_parts rfl rfl rfl rfl
  unfold recallLine
  split
  · exact .refl s
  · split
    rename_i v w hw
    rw [hw] at hforget
    split
    · exact hforget.trans (memoryUsed_hostLine _ _ w)
    · exact hforget

theorem memoryUsed_readLine (l : Nat) (s : State) : MemoryUsed s (readLine l s).2 := by
  refine (memoryUsed_recallLine l s).trans ?_
  unfold readLine fetchLine
  split
  · exact memoryUsed_ovhLine _ _ _ _
  · exact memoryUsed_stackLine _ _

theorem memoryUsed_readLines (n l : Nat) (s : State) : MemoryUsed s (readLines n l s).2 := by
  induction n generalizing l s with
  | zero => exact .refl s
  | succ n ih => exact (memoryUsed_readLine l s).trans (ih (l + 1) _)

theorem memoryUsed_readDpa (a n : Nat) (s : State) : MemoryUsed s (readDpa a n s).2 := by
  unfold readDpa
  split
  · exact .refl s
  · exact memoryUsed_readLines _ _ s

theorem memoryUsed_guardedLine (s : State) (slot : SlotId) (o : StandObj) (k j : Nat) : MemoryUsed s (guardedLine s slot o k j).2 := by
  unfold guardedLine
  dsimp only
  split
  · exact memoryUsed_readDpa _ _ s
  · exact .refl s

end Sys2Proof.Machine
end

section
/-! PROOFS. Lines written to tile memory, and the outputs that a TREE command writes there. -/

namespace Sys2Proof.Machine

/-! ### A byte string that stands in a memory -/

/-- A memory lists `bs` from address `a` on, with every lower address before them and every higher one behind. -/
def standsAt (r : List Host.Cell) (a : Nat) (bs : Bytes) : Prop :=
  ∃ before behind, r = before ++ cellsOf a bs ++ behind ∧ (∀ c ∈ before, c.1 < a) ∧ ∀ c ∈ behind, a + bs.length ≤ c.1

theorem standsAt_ramWrite (r : List Host.Cell) (a : Nat) (bs : Bytes) : standsAt (ramWrite r a bs) a bs :=
  ⟨_, _, rfl, fun _ hc => by simpa using (List.mem_filter.1 hc).2, fun _ hc => by simpa using (List.mem_filter.1 hc).2⟩

/-- A write elsewhere leaves it standing. -/
theorem standsAt.ramWrite {r : List Host.Cell} {a b : Nat} {bs cs : Bytes} (h : standsAt r a bs)
    (hapart : b + cs.length ≤ a ∨ a + bs.length ≤ b) : standsAt (ramWrite r b cs) a bs := by
  obtain ⟨before, behind, rfl, hbefore, hbehind⟩ := h
  have hcells (q : Host.Cell → Bool) (hq : ∀ c : Host.Cell, a ≤ c.1 → c.1 < a + bs.length → q c = true) :
      (cellsOf a bs).filter q = cellsOf a bs :=
    List.filter_eq_self.2 fun c hc => hq c (mem_cellsOf hc).1 (mem_cellsOf hc).2.1
  have hnone (q : Host.Cell → Bool) (hq : ∀ c : Host.Cell, a ≤ c.1 → c.1 < a + bs.length → q c = false) : (cellsOf a bs).filter q = [] :=
    List.filter_eq_nil_iff.2 fun c hc => by simp [hq c (mem_cellsOf hc).1 (mem_cellsOf hc).2.1]
  have hbelow (l : List Host.Cell) (hl : ∀ c ∈ l, c.1 < a) (q : Host.Cell → Bool) : ∀ c ∈ l.filter q, c.1 < a := fun c hc =>
    hl c (List.mem_filter.1 hc).1
  have habove (l : List Host.Cell) (hl : ∀ c ∈ l, a + bs.length ≤ c.1) (q : Host.Cell → Bool) : ∀ c ∈ l.filter q, a + bs.length ≤ c.1 :=
    fun c hc => hl c (List.mem_filter.1 hc).1
  unfold Machine.ramWrite
  simp only [List.filter_append]
  rcases hapart with h | h
  · rw [hcells (fun c => decide (b + cs.length ≤ c.1)) (fun c h1 h2 => by simp; omega),
      hnone (fun c => decide (c.1 < b)) (fun c h1 h2 => by simp; omega)]
    refine ⟨before.filter (fun c => decide (c.1 < b)) ++ behind.filter (fun c => decide (c.1 < b)) ++ cellsOf b cs ++
      before.filter (fun c => decide (b + cs.length ≤ c.1)), behind.filter (fun c => decide (b + cs.length ≤ c.1)),
      by simp only [List.append_assoc, List.append_nil], fun c hc => ?_, habove _ hbehind _⟩
    simp only [List.mem_append, List.mem_filter] at hc
    rcases hc with ((hc | hc) | hc) | hc
    · exact hbefore c hc.1
    · have := hbehind c hc.1
      have hlt : c.1 < b := by simpa using hc.2
      omega
    · have := mem_cellsOf hc
      omega
    · exact hbefore c hc.1
  · rw [hcells (fun c => decide (c.1 < b)) (fun c h1 h2 => by simp; omega),
      hnone (fun c => decide (b + cs.length ≤ c.1)) (fun c h1 h2 => by simp; omega)]
    refine ⟨before.filter (fun c => decide (c.1 < b)), behind.filter (fun c => decide (c.1 < b)) ++ cellsOf b cs ++
      (before.filter (fun c => decide (b + cs.length ≤ c.1)) ++ behind.filter (fun c => decide (b + cs.length ≤ c.1))),
      by simp only [List.append_assoc, List.append_nil], hbelow _ hbefore _, fun c hc => ?_⟩
    simp only [List.mem_append, List.mem_filter] at hc
    rcases hc with (hc | hc) | hc | hc
    · exact hbehind c hc.1
    · have := mem_cellsOf hc
      omega
    · have := hbefore c hc.1
      have hle : b + cs.length ≤ c.1 := by simpa using hc.2
      omega
    · exact hbehind c hc.1

/-- What stands in a memory is read. -/
theorem standsAt.ramRead {r : List Host.Cell} {a : Nat} {bs : Bytes} (h : standsAt r a bs) {i n : Nat} (hin : i + n ≤ bs.length) :
    ramRead r (a + i) n = (bs.drop i).take n := by
  obtain ⟨before, behind, rfl, hbefore, hbehind⟩ := h
  unfold Machine.ramRead
  rw [List.append_assoc, List.dropWhile_append_of_pos (fun c hc => by have := hbefore c hc; simp; omega),
    dropWhile_cellsOf a i bs _ (by omega) hbehind]
  refine readCells_cellsOf n (a + i) _ _ (by simp; omega) (fun c hc => ?_)
  have := hbehind c hc
  simp
  omega

/-! ### Lines written to tile memory (R140) -/

/-- A line of tile memory as a command writes it: its bytes from the first on, and whether they are poisoned. -/
structure LineOut where
  line : Nat
  bytes : Bytes
  poison : Bool

def LineOut.fits (w : LineOut) : Prop := 0 < w.bytes.length ∧ w.bytes.length ≤ 64

def putLineOut (x : CoreState) (w : LineOut) : CoreState := tileWrite (64 * w.line) w.bytes w.poison x

theorem linesOf_line (l : Nat) {n : Nat} (h : 0 < n) (h' : n ≤ 64) : linesOf (64 * l) n = [l] := by
  have hn : n ≠ 0 := by omega
  have h1 : 64 * l / 64 = l := by omega
  have h2 : (64 * l + n - 1) / 64 = l := by omega
  simp [linesOf, hn, h1, h2]

theorem contains_setDel (k l : Nat) (m : List Nat) : (setDel k m).contains l = (m.contains l && l != k) := contains_filter m (fun x => x != k) l

theorem contains_putLineOut (x : CoreState) {w : LineOut} (hw : w.fits) (l : Nat) : (putLineOut x w).tilePoison.contains l =
    if l = w.line then w.poison || (decide (w.bytes.length < 64) && x.tilePoison.contains l) else x.tilePoison.contains l := by
  obtain ⟨hpos, hle⟩ := hw
  have hlines := linesOf_line w.line hpos hle
  unfold putLineOut
  cases w.poison with
  | true =>
    rw [tilePoison_tileWrite_poisoned, hlines]
    by_cases hl : l = w.line <;> simp [hl]
  | false =>
    by_cases hshort : w.bytes.length < 64
    · rw [tilePoison_tileWrite_short _ hshort, decide_eq_true hshort]
      simp
    · have hfull : w.bytes.length = 64 := by omega
      have hmarks : (tileWrite (64 * w.line) w.bytes false x).tilePoison = setDel w.line x.tilePoison := by
        rw [tileWrite, hlines]
        simp [hfull]
      rw [hmarks, contains_setDel, decide_eq_false hshort]
      by_cases hl : l = w.line <;> simp [hl]

theorem putLineOut_only (x : CoreState) (w : LineOut) : putLineOut x w =
    { x with tile := (putLineOut x w).tile, tilePoison := (putLineOut x w).tilePoison } := rfl

section

variable {ws : List LineOut} (x : CoreState)

theorem foldl_putLineOut_only (ws : List LineOut) : ws.foldl putLineOut x =
    { x with tile := (ws.foldl putLineOut x).tile, tilePoison := (ws.foldl putLineOut x).tilePoison } := by
  induction ws using List.reverseRecOn with
  | nil => rfl
  | append_singleton ws w ih =>
    rw [List.foldl_concat, putLineOut_only, ih]

theorem ramGet_foldl_putLineOut {a : Nat} (h : ∀ w ∈ ws, a < 64 * w.line ∨ 64 * w.line + w.bytes.length ≤ a) :
    ramGet (ws.foldl putLineOut x).tile a = ramGet x.tile a := by
  induction ws generalizing x with
  | nil => rfl
  | cons w ws ih =>
    exact (ih _ fun v hv => h v (List.mem_cons_of_mem _ hv)).trans (ramGet_ramWrite_out _ _ _ _ (h w List.mem_cons_self))

theorem contains_foldl_putLineOut_ne {l : Nat} (hfits : ∀ w ∈ ws, w.fits) (h : ∀ w ∈ ws, w.line ≠ l) :
    (ws.foldl putLineOut x).tilePoison.contains l = x.tilePoison.contains l := by
  induction ws generalizing x with
  | nil => rfl
  | cons w ws ih =>
    rw [List.foldl_cons, ih _ (fun v hv => hfits v (List.mem_cons_of_mem _ hv)) (fun v hv => h v (List.mem_cons_of_mem _ hv)),
      contains_putLineOut x (hfits w List.mem_cons_self), if_neg (h w List.mem_cons_self).symm]

theorem standsAt_foldl_putLineOut {l : Nat} {bs : Bytes} (hbs : bs.length ≤ 64) (hfits : ∀ w ∈ ws, w.fits) (h : ∀ w ∈ ws, w.line ≠ l)
    (hx : standsAt x.tile (64 * l) bs) : standsAt (ws.foldl putLineOut x).tile (64 * l) bs := by
  induction ws generalizing x with
  | nil => exact hx
  | cons w ws ih =>
    refine ih _ (fun v hv => hfits v (List.mem_cons_of_mem _ hv)) (fun v hv => h v (List.mem_cons_of_mem _ hv)) ?_
    have := (hfits w List.mem_cons_self).2
    have := h w List.mem_cons_self
    exact hx.ramWrite (by omega)

/-- Each of several lines written stands as it was written. -/
theorem foldl_putLineOut_mem {w : LineOut} (hfits : ∀ w ∈ ws, w.fits) (hapart : ws.Pairwise (fun v w => v.line ≠ w.line)) (hw : w ∈ ws) :
    standsAt (ws.foldl putLineOut x).tile (64 * w.line) w.bytes ∧ (ws.foldl putLineOut x).tilePoison.contains w.line =
      (w.poison || (decide (w.bytes.length < 64) && x.tilePoison.contains w.line)) := by
  obtain ⟨before, behind, rfl⟩ := List.append_of_mem hw
  obtain ⟨-, hbehind, hbefore⟩ := List.pairwise_append.1 hapart
  have hafter : ∀ v ∈ behind, v.line ≠ w.line := fun v hv => ((List.pairwise_cons.1 hbehind).1 v hv).symm
  have hahead : ∀ v ∈ before, v.line ≠ w.line := fun v hv => hbefore v hv w List.mem_cons_self
  have hfits' : ∀ v ∈ behind, v.fits := fun v hv => hfits v (by simp [hv])
  rw [List.foldl_append, List.foldl_cons]
  refine ⟨standsAt_foldl_putLineOut _ (hfits w hw).2 hfits' hafter (standsAt_ramWrite _ _ _), ?_⟩
  rw [contains_foldl_putLineOut_ne _ hfits' hafter, contains_putLineOut _ (hfits w hw), if_pos rfl,
    contains_foldl_putLineOut_ne x (fun v hv => hfits v (by simp [hv])) hahead]

end

/-! ### The outputs of a TREE command (R170 to R172, R182) -/

section

variable (x : CoreState) (base : Nat → FV) (h : StandHdr) (e : SegEntry) (op : TreeOp)

/-- Output `o` of sample `i`. -/
def treeOut (i o : Nat) : W32 :=
  toF32 (match op.outMode.toNat with
    | 0 => segSum (treeWalks x h e op i) o
    | 1 => add32 (base o) (segSum (treeWalks x h e op i) o)
    | _ => add32 (f32 (BitVec.ofNat 32 (leNat (ramRead x.tile (treeOutAddr op i + 4 * o) 4)))) (segSum (treeWalks x h e op i) o))

/-- A feature that the sample's walks read is poisoned. -/
def featPoisoned (i : Nat) : Bool := (treeWalks x h e op i).any (fun w => w.feats.any (fun f => tilePoisoned x (treeFeatAddr op i + 2 * f) 2))

/-- Under ADD, line `l` of the sample's old outputs is poisoned. -/
def oldPoisoned (i l : Nat) : Bool := op.outMode == 2 && tilePoisoned x (treeOutAddr op i + 64 * l) 64

/-- The lines of one sample's outputs. -/
def outLines : Nat := (h.numOut + 15) / 16

/-- Line `l` of a sample's outputs. -/
def treeLine (i l : Nat) : LineOut :=
  { line := op.oAddr.toNat + i * (op.oStrideM1.toNat + 1) + l
    bytes := (((List.range' (16 * l) (min 16 (h.numOut - 16 * l))).map (treeOut x base h e op i)).map (fun v => toLE 4 v.toNat)).flatten
    poison := featPoisoned x h e op i || walksDead x e (treeWalks x h e op i) || oldPoisoned x op i l }

/-- The lines of `n` samples' outputs. -/
def treeLines (n : Nat) : List LineOut := (List.range n).flatMap (fun i => (List.range (outLines h)).map (treeLine x base h e op i))

/-- The command reads poison: a feature's, or under ADD an old output's. -/
def readsPoison (n : Nat) : Bool :=
  (List.range n).any (fun i => featPoisoned x h e op i || (List.range (outLines h)).any (oldPoisoned x op i))

theorem treeSample_eq (p : CoreState × Bool) (i : Nat) : treeSample x base h e op (treeWalks x h e op) p i =
    (((List.range (outLines h)).map (treeLine x base h e op i)).foldl putLineOut p.1,
      p.2 || (featPoisoned x h e op i || (List.range (outLines h)).any (oldPoisoned x op i))) := by
  have haddr (l : Nat) : 64 * (op.oAddr.toNat + i * (op.oStrideM1.toNat + 1) + l) = treeOutAddr op i + 64 * l := Nat.mul_add _ _ _
  rw [List.foldl_map, ← Bool.or_assoc]
  simp only [putLineOut, treeLine, haddr, List.map_map]
  rfl

theorem foldl_treeSample (n : Nat) : (List.range n).foldl (treeSample x base h e op (treeWalks x h e op)) (x, false) =
    ((treeLines x base h e op n).foldl putLineOut x, readsPoison x h e op n) := by
  induction n with
  | zero => rfl
  | succ n ih =>
    rw [List.range_succ, List.foldl_concat, ih, treeSample_eq]
    simp only [treeLines, readsPoison, List.range_succ, List.flatMap_append, List.foldl_append, List.flatMap_singleton, List.any_append,
      List.any_cons, List.any_nil, Bool.or_false]

theorem length_treeLine (i l : Nat) : (treeLine x base h e op i l).bytes.length = 4 * min 16 (h.numOut - 16 * l) := by
  rw [treeLine, length_flatten_lanes, List.length_map, List.length_range']

variable {x base h e op}

theorem treeLine_fits {i l : Nat} (hl : l < outLines h) : (treeLine x base h e op i l).fits := by
  unfold LineOut.fits
  rw [length_treeLine]
  unfold outLines at hl
  omega

theorem mem_treeLines {n : Nat} {w : LineOut} :
    w ∈ treeLines x base h e op n ↔ ∃ i < n, ∃ l < outLines h, treeLine x base h e op i l = w := by
  simp [treeLines]

theorem treeLines_fits {n : Nat} : ∀ w ∈ treeLines x base h e op n, w.fits := fun w hw => by
  obtain ⟨i, -, l, hl, rfl⟩ := mem_treeLines.1 hw
  exact treeLine_fits hl

/-- The lines of outputs that fit their stride lie apart. -/
theorem treeLines_apart (hfit : 4 * h.numOut ≤ 64 * (op.oStrideM1.toNat + 1)) (n : Nat) :
    (treeLines x base h e op n).Pairwise (fun v w => v.line ≠ w.line) := by
  have hl : outLines h ≤ op.oStrideM1.toNat + 1 := by
    unfold outLines
    omega
  refine List.pairwise_flatMap.2 ⟨fun i _ => ?_, List.pairwise_lt_range.imp fun {i j} hij v hv w hw => ?_⟩
  · refine List.pairwise_map.2 (List.pairwise_lt_range.imp fun {l m} hlm => ?_)
    simp only [treeLine]
    omega
  · obtain ⟨l, hl', rfl⟩ := List.mem_map.1 hv
    obtain ⟨m, hm', rfl⟩ := List.mem_map.1 hw
    rw [List.mem_range] at hl' hm'
    have hstep : (i + 1) * (op.oStrideM1.toNat + 1) ≤ j * (op.oStrideM1.toNat + 1) := Nat.mul_le_mul_right _ hij
    rw [Nat.add_mul, Nat.one_mul] at hstep
    simp only [treeLine]
    omega

theorem linesOf_within (a l r : Nat) {n : Nat} (ha : a = 64 * l + r) (hn : 0 < n) (hr : r + n ≤ 64) : linesOf a n = [l] := by
  have hn0 : n ≠ 0 := by omega
  have h1 : a / 64 = l := by omega
  have h2 : (a + n - 1) / 64 = l := by omega
  simp [linesOf, hn0, h1, h2]

/-- Each output stands where its sample and number put it, and its line's mark follows from what its sample read. -/
theorem treeLines_output (hfit : 4 * h.numOut ≤ 64 * (op.oStrideM1.toNat + 1)) {n i o : Nat} (hi : i < n) (ho : o < h.numOut) :
    let y := (treeLines x base h e op n).foldl putLineOut x
    let w := treeLine x base h e op i (o / 16)
    leNat (ramRead y.tile (treeOutAddr op i + 4 * o) 4) = (treeOut x base h e op i o).toNat ∧
      (w.poison = true → tilePoisoned y (treeOutAddr op i + 4 * o) 4 = true) ∧
      (w.poison = false → 16 * (o / 16 + 1) ≤ h.numOut → tilePoisoned y (treeOutAddr op i + 4 * o) 4 = false) := by
  intro y w
  have hl : o / 16 < outLines h := by
    unfold outLines
    omega
  have haddr : treeOutAddr op i + 4 * o = 64 * w.line + 4 * (o % 16) := by
    simp only [w, treeLine, treeOutAddr]
    omega
  obtain ⟨hstands, hmark⟩ := foldl_putLineOut_mem x treeLines_fits (treeLines_apart hfit n) (mem_treeLines.2 ⟨i, hi, o / 16, hl, rfl⟩)
  have hlen : w.bytes.length = 4 * min 16 (h.numOut - 16 * (o / 16)) := length_treeLine x base h e op i (o / 16)
  have hlines : tilePoisoned y (treeOutAddr op i + 4 * o) 4 = y.tilePoison.contains w.line := by
    simp [tilePoisoned, linesOf_within _ w.line _ haddr (by omega) (show 4 * (o % 16) + 4 ≤ 64 by omega)]
  refine ⟨?_, fun hp => ?_, fun hp hfull => ?_⟩
  · have hget : ((List.range' (16 * (o / 16)) (min 16 (h.numOut - 16 * (o / 16)))).map (treeOut x base h e op i))[o % 16]'(by
        rw [List.length_map, List.length_range']
        omega) = treeOut x base h e op i o := by
      rw [List.getElem_map, List.getElem_range']
      congr 1
      omega
    rw [haddr, hstands.ramRead (by rw [length_treeLine]; omega)]
    change leNat ((w.bytes.drop _).take 4) = _
    simp only [w, treeLine]
    rw [flatten_lanes _ (o % 16) (by
      rw [List.length_map, List.length_range']
      omega), hget, leNat_toLE]
    exact Nat.mod_eq_of_lt (treeOut x base h e op i o).isLt
  · rw [hlines, hmark, show (treeLine x base h e op i (o / 16)).poison = true from hp]
    rfl
  · have hwhole : ¬ w.bytes.length < 64 := by omega
    rw [hlines, hmark, show (treeLine x base h e op i (o / 16)).poison = false from hp, decide_eq_false hwhole]
    rfl

/-- Bytes that no sample's outputs cover are as before. -/
theorem treeLines_others {n a : Nat} (ha : ∀ i < n, a < treeOutAddr op i ∨ treeOutAddr op i + 4 * h.numOut ≤ a) :
    ramGet ((treeLines x base h e op n).foldl putLineOut x).tile a = ramGet x.tile a := by
  refine ramGet_foldl_putLineOut x fun w hw => ?_
  obtain ⟨i, hi, l, hl, rfl⟩ := mem_treeLines.1 hw
  have := ha i hi
  have haddr : 64 * (treeLine x base h e op i l).line = treeOutAddr op i + 64 * l := Nat.mul_add _ _ _
  rw [haddr, length_treeLine]
  unfold outLines at hl
  omega

end

end Sys2Proof.Machine
end

section
/-! PROOFS. TREE: how a command begins and ends on its engine, a node that fails, and the command. -/

namespace Sys2Proof.Machine

variable {c : CoreId} {ks : List Nat} {s t u : State}

/-! ### What the operations of a tree engine leave -/

/-- What an operation of a core's tree engine leaves: the other cores, the flags of TE_STATUS that are set, the core's counters but those
listed, whether the core is in service, and the reports on their way. -/
structure TreeFrame (c : CoreId) (ks : List Nat) (s t : State) : Prop where
  others : coreFrame c s t
  flags : ∀ b < 32, bit (regW s 0xF00800 c.val) b = true → bit (regW t 0xF00800 c.val) b = true
  counts : ∀ k < 24, k ∉ ks → cntGet t (cntCore c.val k) = cntGet s (cntCore c.val k)
  out : coreActive s c.val = false → coreActive t c.val = false
  sent : ∃ rest, t.canopy.transit = s.canopy.transit ++ rest

theorem cntCore_lt (c : CoreId) {k : Nat} (hk : k < 24) : cntCore c.val k < 14336 := by
  have := c.isLt
  unfold cntCore
  omega

namespace TreeFrame

theorem of_parts (hcores : coreFrame c s t) (hregs : t.regs = s.regs) (hcounters : t.counters = s.counters) (hcanopy : t.canopy = s.canopy) :
    TreeFrame c ks s t :=
  ⟨hcores, fun b _ h => by rwa [regW_of_regs hregs], fun _ _ _ => cntGet_of_counters hcounters _,
    fun h => (congrArg (fun r : UnitRec => r.st == 0) (unitRec_of_units (by rw [hcanopy]) (ucCore c))).trans h,
    ⟨[], by rw [hcanopy, List.append_nil]⟩⟩

theorem refl (s : State) : TreeFrame c ks s s := of_parts (fun _ _ => rfl) rfl rfl rfl

theorem trans (h : TreeFrame c ks s t) (h' : TreeFrame c ks t u) : TreeFrame c ks s u := by
  obtain ⟨a, ha⟩ := h.sent
  obtain ⟨b, hb⟩ := h'.sent
  exact ⟨fun d hd => (h'.others d hd).trans (h.others d hd), fun i hi hs => h'.flags i hi (h.flags i hi hs),
    fun k hk hks => (h'.counts k hk hks).trans (h.counts k hk hks), fun ho => h'.out (h.out ho),
    ⟨a ++ b, by rw [hb, ha, List.append_assoc]⟩⟩

theorem modCore (f : CoreState → CoreState) (s : State) : TreeFrame c ks s (modCore c f s) :=
  of_parts (fun _ hd => getCore_modCore_ne s c f hd) rfl rfl rfl

theorem of_counts (hcores : t.cores = s.cores) (hregs : t.regs = s.regs) (hcanopy : t.canopy = s.canopy)
    (hcounts : ∀ k < 24, k ∉ ks → cntGet t (cntCore c.val k) = cntGet s (cntCore c.val k)) : TreeFrame c ks s t :=
  have h : TreeFrame c ks s { t with counters := s.counters } := of_parts (fun d _ => getCore_of_cores hcores d) hregs rfl hcanopy
  ⟨h.others, h.flags, hcounts, h.out, h.sent⟩

theorem addCnt {k : Nat} (n : Nat) (s : State) (hk : k ∈ ks) : TreeFrame c ks s (addCnt (cntCore c.val k) n s) :=
  of_counts rfl rfl rfl fun _ _ hj => cntGet_addCnt_ne _ _ _ (cntCore_ne c fun e => hj (e ▸ hk))

theorem setSticky (b : Nat) (s : State) : TreeFrame c ks s (setSticky 0xF00800 c.val b s) :=
  ⟨fun _ _ => rfl, fun j hj h => by rw [bit_setSticky _ _ _ _ _ hj, h]; rfl, fun _ _ _ => rfl, fun h => h, ⟨[], (List.append_nil _).symm⟩⟩

theorem of_memory (hcores : t.cores = s.cores) (h : MemoryUsed s t) : TreeFrame c ks s t := by
  have hreg : regW t 0xF00800 c.val = regW s 0xF00800 c.val := by
    rw [regW, h.regs _ (by unfold regApart regKey; omega), ← regW]
  have hrec : coreActive t c.val = coreActive s c.val := congrArg (fun r : UnitRec => r.st == 0) (h.units c)
  exact ⟨fun d _ => getCore_of_cores hcores d, fun b _ hb => by rwa [hreg],
    fun k hk _ => h.counts _ (.inl (by have := cntCore_lt c hk; omega)), fun ho => hrec.trans ho, h.sent⟩

theorem of_fencing (hcores : t.cores = s.cores) (hregs : t.regs = s.regs) (h : Fencing s t) : TreeFrame c ks s t :=
  ⟨fun d _ => getCore_of_cores hcores d, fun b _ hb => by rwa [regW_of_regs hregs],
    fun k hk _ => h.counts _ (by have := cntCore_lt c hk; unfold cntFlt; omega), fun ho => h.out _ ho, h.sent⟩

end TreeFrame

/-- A trace record is counted at its own positions alone. -/
theorem cntGet_emitTrace_ne (kind : Nat) (w : UnitCode) (layer op : W16) (payload : Nat) (s : State) {i : Nat} (hi : i < 19672) :
    cntGet (emitTrace kind w layer op payload s) i = cntGet s i := by
  have h (k n : Nat) (x : List (Nat × TraceStream)) (hk : i ≠ k) :
      cntGet (addCnt k n { (stampSub w s).2 with trace := x }) i = cntGet s i :=
    (cntGet_addCnt_ne _ _ _ hk).trans (cntGet_of_counters (stampSub_counters w s) i)
  unfold emitTrace
  extract_lets n st
  split
  · rfl
  · split
    rename_i sub v hv
    obtain rfl : (stampSub w s).2 = v := by rw [hv]
    extract_lets
    split <;> exact h _ _ _ (by unfold cntObs; omega)

theorem treeFrame_countWalks (visits nans : Nat) (s : State) (h6 : 6 ∈ ks) (h8 : 8 ∈ ks) : TreeFrame c ks s (countWalks c visits nans s) := by
  have h := TreeFrame.trans (c := c) (.addCnt visits s h6) (.addCnt nans _ h8)
  unfold countWalks
  split
  · exact h.trans (.setSticky 8 _)
  · exact h

theorem treeFrame_countCut (ws : List Walk) (s : State) (h6 : 6 ∈ ks) (h8 : 8 ∈ ks) : TreeFrame c ks s (countCut c ws s) :=
  .trans (t := { s with fresh := s.fresh + 1 + 1 }) (.of_parts (fun _ _ => rfl) rfl rfl rfl) (treeFrame_countWalks _ _ _ h6 h8)

theorem cntGet_countStalls_ne (c : CoreId) (items : Nat) (s : State) {k : Nat} (h : k ≠ cntCore c.val 9) :
    cntGet (countStalls c items s) k = cntGet s k := by
  unfold countStalls
  split
  · rfl
  · exact cntGet_addCnt_ne _ _ _ h

/-! ### A node that fails parity (R181, R182) -/

/-- The report of a node's failure, with its counter and its flag. -/
def nodeNoted (c : CoreId) (layer op : W16) (o : StandObj) (f : NodeFault) (s : State) : State :=
  reportWith 0x0B (ucCore c) 0 (ucCore c) layer op [(standHdr o.bytes).id, f.seg, f.node]
    (setSticky 0xF00800 c.val 9 (incCnt (cntCore c.val 10) s))

/-- A core whose tree engine has the strike. -/
def struckTree (x : CoreState) : CoreState := { x with te := { x.te with strike := true, clean := 0 } }

/-- A node's failure up to the strike: noted, its walks cut short, its word loaded again. -/
def nodeStruck (c : CoreId) (layer op : W16) (o : StandObj) (e : SegEntry) (ws : Nat → List Walk) (f : NodeFault) (s : State) : State :=
  modCore c struckTree (reloadWord c e o f (countCut c ((ws f.seg).filter (fun w => w.nodes.contains f.node)) (nodeNoted c layer op o f s)))

theorem nodeFault_eq {slot : SlotId} {layer op : W16} {o : StandObj} {e : SegEntry} {ws : Nat → List Walk} {f : NodeFault}
    (he : segEntry (getCore s c) slot (standHdr o.bytes).id f.seg = some e) (hactive : coreActive s c.val = true) :
    nodeFault c slot layer op o ws s f = if (getCore s c).te.strike then fenceCore c 0x0B (nodeStruck c layer op o e ws f s)
      else nodeStruck c layer op o e ws f s := by
  unfold nodeFault
  simp only [he, hactive, Bool.not_true, Bool.false_eq_true, if_false]
  rfl

/-- What a node's failure shows, and what may follow it. -/
structure NodeFailed (c : CoreId) (s t : State) : Prop where
  others : coreFrame c s t
  tile : (getCore t c).tile = (getCore s c).tile
  strike : (getCore t c).te.strike = true
  clean : (getCore t c).te.clean = 0
  flag : bit (regW t 0xF00800 c.val) 9 = true
  counts : counted (cntCore c.val 10) 1 s t
  others_count : ∀ k < 24, k ∉ [6, 8, 10] → cntGet t (cntCore c.val k) = cntGet s (cntCore c.val k)
  reported : reportFirst 0x0B (ucCore c) (ucCore c) s t

theorem NodeFailed.andThen (h : NodeFailed c s t) (h' : TreeFrame c [6, 8] t u) (htile : (getCore u c).tile = (getCore t c).tile)
    (hte : (getCore u c).te = (getCore t c).te) : NodeFailed c s u := by
  refine ⟨fun d hd => (h'.others d hd).trans (h.others d hd), htile.trans h.tile, by rw [hte, h.strike], by rw [hte, h.clean],
    h'.flags 9 (by decide) h.flag, (h'.counts 10 (by decide) (by decide)).trans h.counts, fun k hk hks => ?_,
    reportFirst_of_sent h.reported h'.sent⟩
  simp only [List.mem_cons, List.not_mem_nil, or_false, not_or] at hks
  exact (h'.counts k hk (by simp [hks])).trans (h.others_count k hk (by simp [hks]))

theorem getCore_nodeNoted (layer op : W16) (o : StandObj) (f : NodeFault) (s : State) (d : CoreId) :
    getCore (nodeNoted c layer op o f s) d = getCore s d :=
  (getCore_reportWith _ _ _ _ _ _ _ _ d).trans (getCore_of_cores (by rw [setSticky_cores, incCnt_cores]) d)

theorem nodeNoted_regs (layer op : W16) (o : StandObj) (f : NodeFault) (s : State) :
    (nodeNoted c layer op o f s).regs = (setSticky 0xF00800 c.val 9 (incCnt (cntCore c.val 10) s)).regs :=
  regs_of_proj (reportWith_frame (m0 := 2147483680) (by decide) _ _ _ _ _ _ _ _)

theorem nodeNoted_counters (layer op : W16) (o : StandObj) (f : NodeFault) (s : State) :
    (nodeNoted c layer op o f s).counters = (incCnt (cntCore c.val 10) s).counters := reportWith_counters _ _ _ _ _ _ _ _

/-- A core whose tree memory has one word loaded again. -/
def reloadedWord (e : SegEntry) (f : NodeFault) (ws : List (W64 × Bool)) (x : CoreState) : CoreState :=
  { x with te := { x.te with
    words := mapSetD 0 (e.base + f.node) (ws.getD (f.node % 8) (0, false)).1 x.te.words
    bad := setPut ((ws.getD (f.node % 8) (0, false)).2 || f.again) (e.base + f.node) x.te.bad } }

theorem reloadWord_eq (c : CoreId) (e : SegEntry) (o : StandObj) (f : NodeFault) (s : State) : reloadWord c e o f s =
    modCore c (reloadedWord e f (guardedLine s e.slot o f.seg (f.node / 8)).1) (guardedLine s e.slot o f.seg (f.node / 8)).2 := rfl

/-- A node's failure sets the strike, is counted, flagged and reported, and leaves the core in service. -/
theorem nodeStruck_failed (layer op : W16) (o : StandObj) (e : SegEntry) (ws : Nat → List Walk) (f : NodeFault) (s : State) :
    NodeFailed c s (nodeStruck c layer op o e ws f s) ∧ coreActive (nodeStruck c layer op o e ws f s) c.val = coreActive s c.val := by
  have hnoted : ∀ k < 24, cntGet (nodeNoted c layer op o f s) (cntCore c.val k) = cntGet (incCnt (cntCore c.val 10) s) (cntCore c.val k) :=
    fun k _ => cntGet_of_counters (nodeNoted_counters layer op o f s) _
  unfold nodeStruck
  set n := nodeNoted c layer op o f s with hn
  set w := countCut c ((ws f.seg).filter (fun w => w.nodes.contains f.node)) n with hw
  rw [reloadWord_eq]
  set g := reloadedWord e f (guardedLine w e.slot o f.seg (f.node / 8)).1
  set v := (guardedLine w e.slot o f.seg (f.node / 8)).2 with hv
  have hmem : MemoryUsed w v := memoryUsed_guardedLine w e.slot o f.seg (f.node / 8)
  have hvcores : v.cores = w.cores := cores_of_proj (guardedLine_frame (m0 := 3020079136) (by decide) w e.slot o f.seg (f.node / 8))
  have hcut : TreeFrame c [6, 8] n w := treeFrame_countCut _ n (by decide) (by decide)
  have hafter : TreeFrame c [6, 8] n (modCore c struckTree (modCore c g v)) :=
    ((hcut.trans (.of_memory hvcores hmem)).trans (.modCore g v)).trans (.modCore struckTree _)
  have hwcores : w.cores = n.cores := cores_of_proj (countCut_frame (m0 := 2952790016) (by decide) c _ n)
  have hcore : getCore v c = getCore s c := by
    rw [getCore_of_cores hvcores, getCore_of_cores hwcores, hn, getCore_nodeNoted]
  refine ⟨⟨fun d hd => (hafter.others d hd).trans (getCore_nodeNoted layer op o f s d), ?_, ?_, ?_, ?_, ?_, fun k hk hks => ?_, ?_⟩, ?_⟩
  · rw [getCore_modCore, getCore_modCore, ← hcore]
    rfl
  · rw [getCore_modCore]
    rfl
  · rw [getCore_modCore]
    rfl
  · refine hafter.flags 9 (by decide) ?_
    rw [regW_of_regs (nodeNoted_regs layer op o f s), bit_setSticky _ _ _ _ _ (by decide)]
    simp
  · rw [counted, hafter.counts 10 (by decide) (by decide), hnoted 10 (by decide)]
    exact cntGet_addCnt _ _ _ (by have := cntCore_lt c (k := 10) (by decide); omega)
  · simp only [List.mem_cons, List.not_mem_nil, or_false, not_or] at hks
    rw [hafter.counts k hk (by simp [hks]), hnoted k hk]
    exact cntGet_addCnt_ne _ _ _ (cntCore_ne c hks.2.2)
  · obtain ⟨r, h, hcode, hsuspect, hreporter⟩ := reportWith_canopy 0x0B (ucCore c) 0 (ucCore c) layer op [(standHdr o.bytes).id, f.seg, f.node]
      (setSticky 0xF00800 c.val 9 (incCnt (cntCore c.val 10) s))
    obtain ⟨rest, hrest⟩ := hafter.sent
    refine ⟨r, rest, hcode, hsuspect, hreporter, ?_⟩
    rw [hrest, hn, nodeNoted, h]
    exact List.append_assoc _ _ _
  · have hunits : n.canopy.units = s.canopy.units := reportWith_units _ _ _ _ _ _ _ _
    have hwcanopy : w.canopy = n.canopy := canopy_of_proj (countCut_frame (m0 := 2952790016) (by decide) c _ n)
    refine congrArg (fun r : UnitRec => r.st == 0) ((hmem.units c).trans (unitRec_of_units ?_ _))
    rw [hwcanopy, hunits]

theorem coreActive_fenceCore (cause : Nat) (hactive : coreActive s c.val = true) : coreActive (fenceCore c cause s) c.val = false := by
  change ((unitRec (fenceCore c cause s) (ucCore c)).st == 0) = false
  rw [unitRec_fenceCore cause hactive]
  rfl

/-- A node's failure, by the strike: without it the core stays in service, with it the core is fenced. -/
theorem nodeFault_failed {slot : SlotId} {layer op : W16} {o : StandObj} {e : SegEntry} {ws : Nat → List Walk} {f : NodeFault}
    (he : segEntry (getCore s c) slot (standHdr o.bytes).id f.seg = some e) (hactive : coreActive s c.val = true) :
    NodeFailed c s (nodeFault c slot layer op o ws s f) ∧
      coreActive (nodeFault c slot layer op o ws s f) c.val = !(getCore s c).te.strike := by
  obtain ⟨hfailed, hin⟩ := nodeStruck_failed (c := c) layer op o e ws f s
  rw [nodeFault_eq he hactive]
  cases (getCore s c).te.strike with
  | false => exact ⟨hfailed, hin.trans hactive⟩
  | true =>
    have hcores := fenceCore_cores c 0x0B (nodeStruck c layer op o e ws f s)
    have hregs := regs_of_proj (fenceCore_frame (m0 := 2684354592) (by decide) c 0x0B (nodeStruck c layer op o e ws f s))
    exact ⟨hfailed.andThen (.of_fencing hcores hregs (fencing_fenceCore _ _ _)) (by rw [if_pos rfl, getCore_of_cores hcores])
      (by rw [if_pos rfl, getCore_of_cores hcores]), coreActive_fenceCore 0x0B (hin.trans hactive)⟩

end Sys2Proof.Machine
end

section
/-! PROOFS. The TREE command. -/

namespace Sys2Proof.Machine

variable {c : CoreId} {ctx : CtxId} {op : TreeOp} {so : StandObj} {e : SegEntry} {s t u : State}

/-! ### A command begins and ends (R166, R171, R172) -/

/-- The walks of a command's samples, in order. -/
def treeAll (x : CoreState) (so : StandObj) (e : SegEntry) (op : TreeOp) : List Walk :=
  ((List.range (op.samplesM1.toNat + 1)).map (treeWalks x (standHdr so.bytes) e op)).flatten

/-- A command has issued: its context's last command, its command counter and its CMD_START. -/
def treeBegun (c : CoreId) (ctx : CtxId) (op : TreeOp) (s : State) : State :=
  traceStart c (ucCore c) ctx op.hdr 5 0 (startCmdCnt (cntCore c.val 13) op.hdr.op (ctxIssued c ctx op.hdr s))

/-- The flags of TE_STATUS that a command sets: a comparison with a NaN, and poison read. -/
def treeFlagged (c : CoreId) (nans poison : Bool) (s : State) : State :=
  let s := if nans then setSticky 0xF00800 c.val 8 s else s
  if poison then setSticky 0xF00800 c.val 10 s else s

/-- The core with a command's outputs written. -/
def treeWritten (so : StandObj) (e : SegEntry) (op : TreeOp) (x : CoreState) : CoreState :=
  (treeLines x (standBase so.bytes) (standHdr so.bytes) e op (op.samplesM1.toNat + 1)).foldl putLineOut x

/-- What a command counts of its walks. -/
def treeCounted (c : CoreId) (ws : List Walk) (s : State) : State := addCnt (cntCore c.val 8) (nansOf ws) (addCnt (cntCore c.val 6) (visitsOf ws) s)

/-- A command's samples have been walked, its outputs written, and what it found counted and flagged. -/
def treeDone (c : CoreId) (op : TreeOp) (so : StandObj) (e : SegEntry) (s : State) : State :=
  let x := getCore s c
  incCnt (cntCore c.val 7) (countStalls c (treeAll x so e op).length
    (treeFlagged c (decide (0 < nansOf (treeAll x so e op))) (readsPoison x (standHdr so.bytes) e op (op.samplesM1.toNat + 1))
      (treeCounted c (treeAll x so e op) (setCore c (treeWritten so e op x) s))))

/-- A command has ended, and a clean one ages the strike. -/
def treeEnded (c : CoreId) (ctx : CtxId) (op : TreeOp) (so : StandObj) (e : SegEntry) (clean : Bool) (s : State) : State :=
  let v := treeDone c op so e s
  traceEnd (ucCore c) op.hdr (ctxDone c ctx (if clean then treeClean c v else v))

/-- The faults of a list that a command's walks meet. -/
def metFaults (x : CoreState) (so : StandObj) (e : SegEntry) (op : TreeOp) (faults : List NodeFault) : List NodeFault :=
  faults.filter (fun f => f.seg == op.seg.toNat && (treeAll x so e op).any (fun w => w.nodes.contains f.node))

/-- The state after a command's faults. -/
def treeFaulted (c : CoreId) (ctx : CtxId) (op : TreeOp) (so : StandObj) (e : SegEntry) (faults : List NodeFault) (s : State) : State :=
  let x := getCore s c
  (metFaults x so e op faults).foldl (nodeFault c (getCtx x ctx).slot op.hdr.layer op.hdr.op so (fun _ => treeAll x so e op))
    (treeBegun c ctx op s)

/-- A command that a core can issue on a segment that it holds. -/
structure TreeReady (s : State) (c : CoreId) (ctx : CtxId) (op : TreeOp) (so : StandObj) (e : SegEntry) : Prop where
  stand : standOf s (getCtx (getCore s c) ctx).slot op.standId.toNat = some so
  seg : segEntry (getCore s c) (getCtx (getCore s c) ctx).slot op.standId.toNat op.seg.toNat = some e
  listed : treeListed op (standHdr so.bytes) = true
  feats : treeFeatAddr op op.samplesM1.toNat + 2 * (standHdr so.bytes).numFeat ≤ tileBytes
  outs : treeOutAddr op op.samplesM1.toNat + 4 * (standHdr so.bytes).numOut ≤ tileBytes
  issue : canIssue s c ctx op.hdr = true
  fence : op.fence = true → ctxBusy (getCore s c) ctx = false
  hazard : lineHazard s c ctx ((List.range (op.samplesM1.toNat + 1)).map
    (fun i => (treeOutAddr op i, 4 * (standHdr so.bytes).numOut))) = false

theorem countWalks_flagged (c : CoreId) (ws : List Walk) (poison : Bool) (s : State) :
    (if poison then setSticky 0xF00800 c.val 10 (countWalks c (visitsOf ws) (nansOf ws) s) else countWalks c (visitsOf ws) (nansOf ws) s) =
      treeFlagged c (decide (0 < nansOf ws)) poison (treeCounted c ws s) := by
  simp only [treeFlagged, countWalks, treeCounted, decide_eq_true_eq]

/-- A command that can issue meets its faults, and then ends, unless its core has been fenced. -/
theorem TreeReady.issues (h : TreeReady s c ctx op so e) (faults : List NodeFault) : issueTree c ctx op faults s =
    .next (let u := treeFaulted c ctx op so e faults s
      if !coreActive u c.val then countCut c (treeAll (getCore s c) so e op) u
      else treeEnded c ctx op so e (metFaults (getCore s c) so e op faults).isEmpty u) := by
  have hinside : ¬ tileBytes < max (treeFeatAddr op (op.samplesM1.toNat + 1 - 1) + 2 * (standHdr so.bytes).numFeat)
      (treeOutAddr op (op.samplesM1.toNat + 1 - 1) + 4 * (standHdr so.bytes).numOut) := by
    have := h.feats
    have := h.outs
    rw [Nat.add_sub_cancel]
    omega
  have hfree : (op.fence && ctxBusy (getCore s c) ctx) = false := by
    cases hf : op.fence
    · rfl
    · exact h.fence hf
  unfold Machine.issueTree
  simp only [h.stand, h.seg, h.listed, hinside, h.issue, hfree, h.hazard, Bool.not_true, Bool.or_false, Bool.false_eq_true, if_false]
  split <;> rename_i hact
  · exact congrArg Host.Outcome.next (if_pos hact).symm
  · rw [foldl_treeSample, countWalks_flagged]
    exact congrArg Host.Outcome.next (if_neg hact).symm

/-! ### What the beginning leaves -/

theorem treeBegun_frame (c : CoreId) (ctx : CtxId) (op : TreeOp) (s : State) : proj 2684354820 (treeBegun c ctx op s) = proj 2684354820 s :=
  ((traceStart_frame (by decide) _ _ _ _ _ _ _).trans (startCmdCnt_frame (by decide) _ _ _)).trans (ctxIssued_frame (by decide) _ _ _ _)

theorem treeBegun_cores (c : CoreId) (ctx : CtxId) (op : TreeOp) (s : State) : (treeBegun c ctx op s).cores = (ctxIssued c ctx op.hdr s).cores :=
  (cores_of_proj (traceStart_frame (m0 := 2684354816) (by decide) _ _ _ _ _ _ _)).trans
    (cores_of_proj (startCmdCnt_frame (m0 := 2684354560) (by decide) _ _ _))

/-- A core whose context has issued a command. -/
def issuedCore (ctx : CtxId) (h : CmdHdr) (l : Nat) (x : CoreState) : CoreState :=
  { setCtx ctx { getCtx x ctx with lastOp := h.op, lastLayer := h.layer } x with lastRun := l }

theorem getCore_treeBegun (c : CoreId) (ctx : CtxId) (op : TreeOp) (s : State) :
    getCore (treeBegun c ctx op s) c = issuedCore ctx op.hdr (now s) (getCore s c) := by
  rw [getCore_of_cores (treeBegun_cores c ctx op s)]
  exact getCore_modCore s c _

theorem cntGet_treeBegun (c : CoreId) (ctx : CtxId) (op : TreeOp) (s : State) {k : Nat} (hk : k < 24) (h : k ≠ 13) :
    cntGet (treeBegun c ctx op s) (cntCore c.val k) = cntGet s (cntCore c.val k) :=
  (cntGet_emitTrace_ne _ _ _ _ _ _ (by have := cntCore_lt c hk; omega)).trans
    (mapGetD_mapSetD_other 0 _ s.counters (cntCore_ne c h))

theorem treeFrame_treeBegun (c : CoreId) (ctx : CtxId) (op : TreeOp) (s : State) : TreeFrame c [13] s (treeBegun c ctx op s) := by
  have hframe := treeBegun_frame c ctx op s
  have hothers : coreFrame c s (treeBegun c ctx op s) := fun d hd =>
    (getCore_of_cores (treeBegun_cores c ctx op s) d).trans (getCore_modCore_ne s c _ hd)
  have h : TreeFrame c [13] s { treeBegun c ctx op s with counters := s.counters } :=
    .of_parts hothers (regs_of_proj hframe) rfl (canopy_of_proj hframe)
  exact ⟨h.others, h.flags, fun k hk hks => cntGet_treeBegun c ctx op s hk (by simpa using hks), h.out, h.sent⟩

/-! ### What the end leaves -/

theorem setSticky_regs_congr (off idx b : Nat) (h : t.regs = s.regs) : (setSticky off idx b t).regs = (setSticky off idx b s).regs := by
  simp only [setSticky, setRegF, setRegW, regW_of_regs h, h]

theorem treeFlagged_regs_congr (c : CoreId) (nans poison : Bool) (h : t.regs = s.regs) :
    (treeFlagged c nans poison t).regs = (treeFlagged c nans poison s).regs := by
  cases nans <;> cases poison
  · exact h
  · exact setSticky_regs_congr _ _ _ h
  · exact setSticky_regs_congr _ _ _ h
  · exact setSticky_regs_congr _ _ _ (setSticky_regs_congr _ _ _ h)

theorem bit_treeFlagged (c : CoreId) (nans poison : Bool) (s : State) {b : Nat} (hb : b < 32) :
    bit (regW (treeFlagged c nans poison s) 0xF00800 c.val) b =
      (bit (regW s 0xF00800 c.val) b || (nans && b == 8) || (poison && b == 10)) := by
  cases nans <;> cases poison <;> simp [treeFlagged, bit_setSticky, hb]

theorem regsKeep_treeFlagged (c : CoreId) (nans poison : Bool) (s : State) :
    regsKeep [regKey 0xF00800 c.val] s (treeFlagged c nans poison s) := fun k hk => by
  have hk : k ≠ regKey 0xF00800 c.val := by simpa using hk
  cases nans <;> cases poison
  · rfl
  · exact setSticky_regs_ne _ hk
  · exact setSticky_regs_ne _ hk
  · exact (setSticky_regs_ne _ hk).trans (setSticky_regs_ne _ hk)

theorem treeFlagged_frame (c : CoreId) (nans poison : Bool) (s : State) : proj 268435456 (treeFlagged c nans poison s) = proj 268435456 s := by
  unfold treeFlagged
  dsimp only
  split_ifs <;> simp only [setSticky_frame (m0 := 268435456) (by decide)]

theorem treeCounted_frame (c : CoreId) (ws : List Walk) (s : State) : proj 536870912 (treeCounted c ws s) = proj 536870912 s :=
  (addCnt_frame (by decide) _ _ _).trans (addCnt_frame (by decide) _ _ _)

theorem treeDone_frame (c : CoreId) (op : TreeOp) (so : StandObj) (e : SegEntry) (s : State) :
    proj 2952790020 (treeDone c op so e s) = proj 2952790020 s := by
  unfold treeDone
  dsimp only
  rw [incCnt_frame (by decide), countStalls_frame (by decide), proj_mono (m := 2952790020) (by decide) (treeFlagged_frame _ _ _ _),
    proj_mono (m := 2952790020) (by decide) (treeCounted_frame _ _ _), setCore_frame (by decide)]

theorem treeDone_cores (c : CoreId) (op : TreeOp) (so : StandObj) (e : SegEntry) (s : State) :
    (treeDone c op so e s).cores = (setCore c (treeWritten so e op (getCore s c)) s).cores := by
  unfold treeDone
  dsimp only
  rw [incCnt_cores, cores_of_proj (countStalls_frame (m0 := 2684354560) (by decide) _ _ _), cores_of_proj (treeFlagged_frame _ _ _ _),
    cores_of_proj (treeCounted_frame _ _ _)]

theorem treeDone_regs (c : CoreId) (op : TreeOp) (so : StandObj) (e : SegEntry) (s : State) :
    (treeDone c op so e s).regs = (treeFlagged c (decide (0 < nansOf (treeAll (getCore s c) so e op)))
      (readsPoison (getCore s c) (standHdr so.bytes) e op (op.samplesM1.toNat + 1)) s).regs := by
  unfold treeDone
  dsimp only
  rw [incCnt_regs, regs_of_proj (countStalls_frame (m0 := 2684354560) (by decide) _ _ _)]
  exact treeFlagged_regs_congr _ _ _ ((regs_of_proj (treeCounted_frame _ _ _)).trans rfl)

theorem cntGet_addCnt_congr {k : Nat} (i n : Nat) (h : cntGet t k = cntGet s k) : cntGet (addCnt i n t) k = cntGet (addCnt i n s) k := by
  by_cases hk : k = i
  · subst hk
    simp only [addCnt, h]
    simp [cntGet]
  · rw [cntGet_addCnt_ne _ _ _ hk, cntGet_addCnt_ne _ _ _ hk, h]

theorem cntGet_treeDone (c : CoreId) (op : TreeOp) (so : StandObj) (e : SegEntry) (s : State) {k : Nat} (hk : k ≠ 9) :
    cntGet (treeDone c op so e s) (cntCore c.val k) =
      cntGet (incCnt (cntCore c.val 7) (treeCounted c (treeAll (getCore s c) so e op) s)) (cntCore c.val k) := by
  unfold treeDone
  refine cntGet_addCnt_congr _ _ ((cntGet_countStalls_ne _ _ _ (cntCore_ne c hk)).trans ?_)
  rw [cntGet_of_counters (counters_of_proj (treeFlagged_frame _ _ _ _))]
  exact cntGet_addCnt_congr _ _ (cntGet_addCnt_congr _ _ rfl)

/-- A core at the end of a command. -/
def endedTree (ctx : CtxId) (clean : Bool) (l : Nat) (y : CoreState) : CoreState :=
  let z := if clean then { y with te := { y.te with clean := if y.te.strike then y.te.clean + 1 else y.te.clean } } else y
  { setCtx ctx { getCtx z ctx with done := (getCtx z ctx).done + 1 } z with lastRun := l }

section

variable (c : CoreId) (ctx : CtxId) (op : TreeOp) (so : StandObj) (e : SegEntry) (clean : Bool) (s : State)

theorem treeEnded_cores : (treeEnded c ctx op so e clean s).cores =
    (ctxDone c ctx (if clean then treeClean c (treeDone c op so e s) else treeDone c op so e s)).cores :=
  cores_of_proj (traceEnd_frame (m0 := 2684354816) (by decide) _ _ _)

theorem getCore_treeEnded : getCore (treeEnded c ctx op so e clean s) c =
    endedTree ctx clean (now s) (treeWritten so e op (getCore s c)) := by
  have hdone : getCore (treeDone c op so e s) c = treeWritten so e op (getCore s c) :=
    (getCore_of_cores (treeDone_cores c op so e s) c).trans (getCore_setCore s c _)
  have hnow : now (treeDone c op so e s) = now s := congrArg BitVec.toNat (gt_of_proj (treeDone_frame c op so e s))
  rw [getCore_of_cores (treeEnded_cores c ctx op so e clean s), ← hdone, ← hnow]
  cases clean
  · exact getCore_modCore _ _ _
  · refine (getCore_modCore _ _ _).trans ?_
    rw [if_pos rfl, treeClean, getCore_modCore]
    rfl

theorem coreFrame_treeEnded : coreFrame c s (treeEnded c ctx op so e clean s) := fun d hd => by
  rw [getCore_of_cores (treeEnded_cores c ctx op so e clean s), ctxDone, getCore_modCore_ne _ _ _ hd]
  have hdone : getCore (treeDone c op so e s) d = getCore s d :=
    (getCore_of_cores (treeDone_cores c op so e s) d).trans (getCore_setCore_ne s c _ hd)
  cases clean
  · exact hdone
  · rw [if_pos rfl, treeClean]
    exact (getCore_modCore_ne _ _ _ hd).trans hdone

theorem treeEnded_frame : proj 2952790276 (treeEnded c ctx op so e clean s) = proj 2952790276 s := by
  have hdone := proj_mono (m := 2952790276) (by decide) (treeDone_frame c op so e s)
  unfold treeEnded
  dsimp only
  rw [traceEnd_frame (by decide), ctxDone_frame (by decide)]
  cases clean
  · exact hdone
  · exact (treeClean_frame (by decide) _ _).trans hdone

theorem treeEnded_regs : (treeEnded c ctx op so e clean s).regs = (treeDone c op so e s).regs := by
  refine (regs_of_proj (traceEnd_frame (m0 := 2684354816) (by decide) _ _ _)).trans ?_
  cases clean <;> rfl

theorem cntGet_treeEnded {k : Nat} (hk : k < 24) :
    cntGet (treeEnded c ctx op so e clean s) (cntCore c.val k) = cntGet (treeDone c op so e s) (cntCore c.val k) := by
  refine (cntGet_emitTrace_ne _ _ _ _ _ _ (by have := cntCore_lt c hk; omega)).trans ?_
  cases clean <;> rfl

/-- What a command counts: itself, its visits and its comparisons with a NaN. -/
theorem treeEnded_counts :
    counted (cntCore c.val 7) 1 s (treeEnded c ctx op so e clean s) ∧
    counted (cntCore c.val 6) (visitsOf (treeAll (getCore s c) so e op)) s (treeEnded c ctx op so e clean s) ∧
    counted (cntCore c.val 8) (nansOf (treeAll (getCore s c) so e op)) s (treeEnded c ctx op so e clean s) ∧
    ∀ k < 24, k ∉ [6, 7, 8, 9] → cntGet (treeEnded c ctx op so e clean s) (cntCore c.val k) = cntGet s (cntCore c.val k) := by
  have htop {k : Nat} (hk : k < 24) : cntCore c.val k ≠ 19666 ∧ cntCore c.val k ≠ 19667 := by
    have := cntCore_lt c hk
    omega
  have hall {k : Nat} (hk : k < 24) (h9 : k ≠ 9) := (cntGet_treeEnded c ctx op so e clean s hk).trans (cntGet_treeDone c op so e s h9)
  refine ⟨?_, ?_, ?_, fun k hk hks => ?_⟩
  · rw [counted, hall (by decide) (by decide), incCnt, cntGet_addCnt _ _ _ (htop (by decide)), treeCounted,
      cntGet_addCnt_ne _ _ _ (cntCore_ne c (by decide)), cntGet_addCnt_ne _ _ _ (cntCore_ne c (by decide))]
  · rw [counted, hall (by decide) (by decide), incCnt, cntGet_addCnt_ne _ _ _ (cntCore_ne c (by decide)), treeCounted,
      cntGet_addCnt_ne _ _ _ (cntCore_ne c (by decide)), cntGet_addCnt _ _ _ (htop (by decide))]
  · rw [counted, hall (by decide) (by decide), incCnt, cntGet_addCnt_ne _ _ _ (cntCore_ne c (by decide)), treeCounted,
      cntGet_addCnt _ _ _ (htop (by decide)), cntGet_addCnt_ne _ _ _ (cntCore_ne c (by decide))]
  · simp only [List.mem_cons, List.not_mem_nil, or_false, not_or] at hks
    rw [hall hk hks.2.2.2, incCnt, cntGet_addCnt_ne _ _ _ (cntCore_ne c hks.2.1), treeCounted,
      cntGet_addCnt_ne _ _ _ (cntCore_ne c hks.2.2.1), cntGet_addCnt_ne _ _ _ (cntCore_ne c hks.1)]

end

end Sys2Proof.Machine
end

section
/-! PROOFS. The TREE command, without a fault and with one. -/

namespace Sys2Proof.Machine

variable {c : CoreId} {ctx : CtxId} {op : TreeOp} {so : StandObj} {e : SegEntry} {s t : State}

/-! ### The parts of a command that runs to its end -/

theorem setCtx_setCtx (i : CtxId) (y z : Ctx) (x : CoreState) : setCtx i y (setCtx i z x) = setCtx i y x := by
  simp only [setCtx, famSet, Vector.setIfInBounds_setIfInBounds]

theorem foldl_putLineOut_issuedCore (ws : List LineOut) (h : CmdHdr) (l : Nat) (x : CoreState) :
    ws.foldl putLineOut (issuedCore ctx h l x) = issuedCore ctx h l (ws.foldl putLineOut x) := by
  induction ws generalizing x with
  | nil => rfl
  | cons w ws ih => exact ih (putLineOut x w)

/-- The end of a command that issued at the same time, on what its lines left of the core. -/
theorem endedTree_issuedCore (h : CmdHdr) (l : Nat) (x : CoreState) : endedTree ctx true l (issuedCore ctx h l x) =
    { setCtx ctx { getCtx x ctx with lastOp := h.op, lastLayer := h.layer, done := (getCtx x ctx).done + 1 } x with
      lastRun := l
      te := { x.te with clean := if x.te.strike then x.te.clean + 1 else x.te.clean } } := by
  have hctx : getCtx (issuedCore ctx h l x) ctx = { getCtx x ctx with lastOp := h.op, lastLayer := h.layer } := getCtx_setCtx ..
  have hend : endedTree ctx true l (issuedCore ctx h l x) =
      { setCtx ctx { getCtx (issuedCore ctx h l x) ctx with done := (getCtx (issuedCore ctx h l x) ctx).done + 1 }
          (setCtx ctx { getCtx x ctx with lastOp := h.op, lastLayer := h.layer } x) with
        lastRun := l
        te := { x.te with clean := if x.te.strike then x.te.clean + 1 else x.te.clean } } := rfl
  rw [hend, hctx, setCtx_setCtx]

/-- The lines that a command writes do not depend on its context's records. -/
theorem treeWritten_issuedCore (h : CmdHdr) (l : Nat) (x : CoreState) : treeWritten so e op (issuedCore ctx h l x) =
    issuedCore ctx h l (treeWritten so e op x) := foldl_putLineOut_issuedCore _ h l x

/-- A command without a fault leaves its core as it was but for its context, its outputs and the age of the strike. -/
theorem getCore_treeEnded_treeBegun : getCore (treeEnded c ctx op so e true (treeBegun c ctx op s)) c =
    let x := getCore s c
    { setCtx ctx { getCtx x ctx with lastOp := op.hdr.op, lastLayer := op.hdr.layer, done := (getCtx x ctx).done + 1 } x with
      lastRun := now s
      tile := (treeWritten so e op x).tile
      tilePoison := (treeWritten so e op x).tilePoison
      te := { x.te with clean := if x.te.strike then x.te.clean + 1 else x.te.clean } } := by
  have hnow : now (treeBegun c ctx op s) = now s := congrArg BitVec.toNat (gt_of_proj (treeBegun_frame c ctx op s))
  rw [getCore_treeEnded, hnow, getCore_treeBegun, treeWritten_issuedCore, endedTree_issuedCore, treeWritten, foldl_putLineOut_only]
  rfl

theorem treeAll_treeBegun : treeAll (getCore (treeBegun c ctx op s) c) so e op = treeAll (getCore s c) so e op := by
  rw [getCore_treeBegun]
  rfl

theorem readsPoison_treeBegun (h : StandHdr) (n : Nat) :
    readsPoison (getCore (treeBegun c ctx op s) c) h e op n = readsPoison (getCore s c) h e op n := by
  rw [getCore_treeBegun]
  rfl

theorem treeEnded_treeBegun_regs (clean : Bool) : (treeEnded c ctx op so e clean (treeBegun c ctx op s)).regs =
    (treeFlagged c (decide (0 < nansOf (treeAll (getCore s c) so e op)))
      (readsPoison (getCore s c) (standHdr so.bytes) e op (op.samplesM1.toNat + 1)) s).regs := by
  rw [treeEnded_regs, treeDone_regs, treeAll_treeBegun, readsPoison_treeBegun]
  exact treeFlagged_regs_congr _ _ _ (regs_of_proj (treeBegun_frame c ctx op s))

theorem treeEnded_treeBegun_frame (clean : Bool) : proj 2952790276 (treeEnded c ctx op so e clean (treeBegun c ctx op s)) = proj 2952790276 s :=
  (treeEnded_frame c ctx op so e clean _).trans (proj_mono (m := 2952790276) (by decide) (treeBegun_frame c ctx op s))

/-- What a command's end leaves of its core's flags, counters and reports. -/
theorem treeFrame_treeEnded (clean : Bool) (s : State) : TreeFrame c [6, 7, 8, 9] s (treeEnded c ctx op so e clean s) := by
  have hcanopy : (treeEnded c ctx op so e clean s).canopy = s.canopy := canopy_of_proj (treeEnded_frame c ctx op so e clean s)
  obtain ⟨-, -, -, hothers⟩ := treeEnded_counts c ctx op so e clean s
  refine ⟨coreFrame_treeEnded c ctx op so e clean s, fun b hb h => ?_, hothers, fun h => ?_, ⟨[], by rw [hcanopy, List.append_nil]⟩⟩
  · rw [regW_of_regs ((treeEnded_regs c ctx op so e clean s).trans (treeDone_regs c op so e s)), bit_treeFlagged c _ _ s hb, h]
    rfl
  · exact (congrArg (fun r : UnitRec => r.st == 0) (unitRec_of_units (by rw [hcanopy]) (ucCore c))).trans h

theorem treeBegun_canopy : (treeBegun c ctx op s).canopy = s.canopy := canopy_of_proj (treeBegun_frame c ctx op s)

theorem reportFirst_of_canopy {u : State} {code : Nat} {suspect reporter : UnitCode} (hcanopy : u.canopy = s.canopy)
    (h : reportFirst code suspect reporter u t) : reportFirst code suspect reporter s t := by
  unfold reportFirst at h ⊢
  rwa [← hcanopy]

/-! ### The command -/

theorem TreeReady.active (h : TreeReady s c ctx op so e) : coreActive (treeBegun c ctx op s) c.val = true := by
  have hissue := h.issue
  unfold canIssue at hissue
  simp only [Bool.and_eq_true] at hissue
  exact (congrArg (fun r : UnitRec => r.st == 0)
    (unitRec_of_units (by rw [canopy_of_proj (treeBegun_frame c ctx op s)]) (ucCore c))).trans hissue.1.1

theorem exec_tree_of_first {faults : List NodeFault} (h : outranked s c ctx (some .tree) = false) (ht : issueTree c ctx op faults s = .next t) :
    exec (.tree c ctx op faults) s = .next t := by
  change standBack (outranked s c ctx (some .tree)) s (issueTree c ctx op faults s) = .next t
  rw [h, ht]
  rfl

/-- A command without a fault runs to its end. -/
theorem TreeReady.runs (h : TreeReady s c ctx op so e) : issueTree c ctx op [] s = .next (treeEnded c ctx op so e true (treeBegun c ctx op s)) := by
  rw [h.issues]
  exact congrArg Host.Outcome.next (if_neg (by rw [show treeFaulted c ctx op so e [] s = treeBegun c ctx op s from rfl, h.active]; decide))

/-- The fault of a node that a command's walks reach is one that it meets. -/
theorem metFaults_singleton {x : CoreState} {f : NodeFault} (hseg : f.seg = op.seg.toNat) (hmet : ∃ w ∈ treeAll x so e op, f.node ∈ w.nodes) :
    metFaults x so e op [f] = [f] := by
  obtain ⟨w, hw, hn⟩ := hmet
  refine List.filter_eq_self.2 fun g hg => ?_
  obtain rfl := List.mem_singleton.1 hg
  simp only [hseg, beq_self_eq_true, Bool.true_and, List.any_eq_true, List.contains_iff_mem]
  exact ⟨w, hw, hn⟩

theorem standHdr_id_of_standOf {slot : SlotId} {id : Nat} (h : standOf s slot id = some so) : (standHdr so.bytes).id = id := by
  unfold standOf at h
  obtain ⟨im, -, hfind⟩ := Option.bind_eq_some_iff.1 h
  simpa using List.find?_some hfind

/-- A command whose walks meet a node's failure: the failure shows; with the strike set the core is out and has written nothing, and
without it the command runs to its end. -/
theorem TreeReady.fails (h : TreeReady s c ctx op so e) {f : NodeFault} (hseg : f.seg = op.seg.toNat)
    (hmet : ∃ w ∈ treeAll (getCore s c) so e op, f.node ∈ w.nodes) :
    ∃ t, issueTree c ctx op [f] s = .next t ∧ coreFrame c s t ∧ (getCore t c).te.strike = true ∧
      bit (regW t 0xF00800 c.val) 9 = true ∧ counted (cntCore c.val 10) 1 s t ∧ reportFirst 0x0B (ucCore c) (ucCore c) s t ∧
      ((getCore s c).te.strike = true → coreActive t c.val = false ∧ (getCore t c).tile = (getCore s c).tile) ∧
      ((getCore s c).te.strike = false → (getCore t c).te.clean = 0 ∧ counted (cntCore c.val 7) 1 s t) := by
  have hactive := h.active
  have hseen : treeFaulted c ctx op so e [f] s = nodeFault c (getCtx (getCore s c) ctx).slot op.hdr.layer op.hdr.op so
      (fun _ => treeAll (getCore s c) so e op) (treeBegun c ctx op s) f := by
    unfold treeFaulted
    dsimp only
    rw [metFaults_singleton hseg hmet]
    rfl
  have hentry : segEntry (getCore (treeBegun c ctx op s) c) (getCtx (getCore s c) ctx).slot (standHdr so.bytes).id f.seg = some e := by
    rw [getCore_treeBegun, standHdr_id_of_standOf h.stand, hseg]
    exact h.seg
  have hbegun : TreeFrame c [13] s (treeBegun c ctx op s) := treeFrame_treeBegun c ctx op s
  have hstrike : (getCore (treeBegun c ctx op s) c).te.strike = (getCore s c).te.strike := by
    rw [getCore_treeBegun]
    rfl
  obtain ⟨hfailed, hout⟩ := nodeFault_failed (layer := op.hdr.layer) (op := op.hdr.op) (ws := fun _ => treeAll (getCore s c) so e op)
    hentry hactive
  rw [← hseen] at hfailed hout
  rw [hstrike] at hout
  rw [h.issues, metFaults_singleton hseg hmet]
  refine ⟨_, rfl, ?_⟩
  dsimp only
  generalize treeFaulted c ctx op so e [f] s = u at hfailed hout ⊢
  have hothers : coreFrame c s u := fun d hd => (hfailed.others d hd).trans (hbegun.others d hd)
  have hcount : counted (cntCore c.val 10) 1 s u := counted_congr hfailed.counts (hbegun.counts 10 (by decide) (by decide)).symm rfl
  have htile : (getCore u c).tile = (getCore s c).tile := by
    rw [hfailed.tile, getCore_treeBegun]
    rfl
  have hsent : reportFirst 0x0B (ucCore c) (ucCore c) s u := reportFirst_of_canopy treeBegun_canopy hfailed.reported
  cases hs : (getCore s c).te.strike
  case true =>
    rw [hs] at hout
    have hcut : TreeFrame c [6, 8] u (countCut c (treeAll (getCore s c) so e op) u) := treeFrame_countCut _ u (by decide) (by decide)
    have hcore : getCore (countCut c (treeAll (getCore s c) so e op) u) c = getCore u c :=
      getCore_of_cores (cores_of_proj (countCut_frame (m0 := 2952790016) (by decide) c _ u)) c
    rw [hout]
    refine ⟨fun d hd => (hcut.others d hd).trans (hothers d hd), ?_, hcut.flags 9 (by decide) hfailed.flag,
      (hcut.counts 10 (by decide) (by decide)).trans hcount, reportFirst_of_sent hsent hcut.sent, fun _ => ⟨hcut.out hout, ?_⟩, nofun⟩
    · exact (congrArg (fun x => x.te.strike) hcore).trans hfailed.strike
    · exact (congrArg CoreState.tile hcore).trans htile
  case false =>
    rw [hs] at hout
    have hend : TreeFrame c [6, 7, 8, 9] u (treeEnded c ctx op so e false u) := treeFrame_treeEnded false u
    have hcore : (getCore (treeEnded c ctx op so e false u) c).te = (getCore u c).te := by
      rw [getCore_treeEnded, treeWritten, foldl_putLineOut_only]
      rfl
    obtain ⟨hcommand, -⟩ := treeEnded_counts c ctx op so e false u
    rw [hout]
    refine ⟨fun d hd => (hend.others d hd).trans (hothers d hd), ?_, hend.flags 9 (by decide) hfailed.flag,
      (hend.counts 10 (by decide) (by decide)).trans hcount, reportFirst_of_sent hsent hend.sent, nofun, fun _ => ⟨?_, ?_⟩⟩
    · exact (congrArg TEng.strike hcore).trans hfailed.strike
    · exact (congrArg TEng.clean hcore).trans hfailed.clean
    · exact counted_congr hcommand ((hfailed.others_count 7 (by decide) (by decide)).trans (hbegun.counts 7 (by decide) (by decide))).symm rfl

/-- Settles O18: the command's end writes each sample's lines and counts, a node's failure is `nodeFault_failed`. -/
theorem treeCommand : Obligations.TreeCommand := by
  unfold Obligations.TreeCommand
  intro c ctx op s so e x cx h n trees walks out seen dead held marked all hstand hseg hlisted hfeats houts hissue hfence hhazard
  have hready : TreeReady s c ctx op so e := ⟨hstand, hseg, hlisted, hfeats, houts, hissue, hfence, hhazard⟩
  refine ⟨fun hout faults => ?_, fun hfirst => ⟨?_, fun f hf hmet => ?_⟩⟩
  · obtain ⟨t, ht⟩ : ∃ t, issueTree c ctx op faults s = .next t := ⟨_, hready.issues faults⟩
    change standBack (outranked s c ctx (some .tree)) s (issueTree c ctx op faults s) = .next s
    rw [hout, ht]
    rfl
  · have hfit : 4 * h.numOut ≤ 64 * (op.oStrideM1.toNat + 1) := by
      unfold treeListed at hlisted
      simp only [Bool.and_eq_true, decide_eq_true_eq] at hlisted
      exact hlisted.2
    have hregs : (treeEnded c ctx op so e true (treeBegun c ctx op s)).regs =
      (treeFlagged c (decide (0 < nansOf all)) (readsPoison x h e op n) s).regs := treeEnded_treeBegun_regs true
    have hcore := getCore_treeEnded_treeBegun (c := c) (ctx := ctx) (op := op) (so := so) (e := e) (s := s)
    have hbegun := treeFrame_treeBegun c ctx op s
    obtain ⟨hcommand, hvisits, hnans, -⟩ := treeEnded_counts c ctx op so e true (treeBegun c ctx op s)
    rw [treeAll_treeBegun] at hvisits hnans
    refine ⟨_, exec_tree_of_first hfirst hready.runs,
      fun d hd => (coreFrame_treeEnded c ctx op so e true _ d hd).trans (hbegun.others d hd), eq_withParts (treeEnded_treeBegun_frame true),
      fun k hk => ?_, ?_, ?_, ?_, fun i hi o ho => ?_, fun a ha => ?_, counted_congr hcommand (hbegun.counts 7 (by decide) (by decide)).symm rfl,
      counted_congr hvisits (hbegun.counts 6 (by decide) (by decide)).symm rfl,
      counted_congr hnans (hbegun.counts 8 (by decide) (by decide)).symm rfl⟩
    · rw [hregs]
      exact regsKeep_treeFlagged c _ _ s k hk
    · rw [regW_of_regs hregs, bit_treeFlagged c _ _ s (by decide)]
      simp only [show ((10 : Nat) == 8) = false from rfl, beq_self_eq_true, Bool.and_false, Bool.and_true, Bool.or_false]
      rfl
    · rw [regW_of_regs hregs, bit_treeFlagged c _ _ s (by decide)]
      simp only [show ((8 : Nat) == 10) = false from rfl, beq_self_eq_true, Bool.and_false, Bool.and_true, Bool.or_false]
      rfl
    · rw [hcore]
    · rw [hcore]
      exact treeLines_output hfit hi ho
    · rw [hcore]
      exact treeLines_others ha
  · obtain ⟨t, ht, hshown⟩ := hready.fails hf hmet
    exact ⟨t, exec_tree_of_first hfirst ht, hshown⟩

end Sys2Proof.Machine
end

section
/-! PROOFS. A slot that is emptied while a batch for its table waits. -/

namespace Sys2Proof.Machine

/-- A descriptor of a command and its second 16 bytes' first, TABLE in a TABLE_BATCH and SLOT in a LOAD_IMAGE; all else is 0. -/
def bareDesc (op target : Byte) : Desc :=
  { port := .h0, ring := 0, bytes := op :: List.replicate 15 0 ++ target :: List.replicate 47 0, due := 0, protGen := 0, stampNs := 0, sub := 0
    seq := 1, era := 0, entries := [], minSigs := 0, keys := [] }

/-- LOAD_IMAGE of size 0, which empties slot A, and a TABLE_BATCH for table 1. -/
def emptyingLoad : Desc := bareDesc 1 0
def waitingBatch : Desc := bareDesc 4 1

/-- Slot A is READY and owns table 1; the LOAD_IMAGE that empties it stands ahead of a batch for the table. -/
def emptiedWithBatch : State :=
  { State.reset with
    host := { HostState.reset with inbox := [emptyingLoad, waitingBatch] }
    slots := famSet State.reset.slots 0 { Slot.empty with st := 2 }
    tbl := { TableState.empty with tables := [(1, { bareTable with owners := [0] })] } }

/-- The table is freed, and its batch ends with STALE_SLOT (R487). -/
theorem loadImage_emptiedWithBatch : ∃ t, exec .loadImage emptiedWithBatch = .next t ∧ t.host.inbox = [] :=
  ⟨_, rfl, by decide +kernel⟩

/-- Refutes O42 at its clause on LOAD_IMAGE: one that empties a slot frees the slot's tables, and their batches that wait in the inbox
end with it (R487), so that the inbox loses more than the LOAD_IMAGE. -/
theorem not_modelSlots : ¬ Obligations.ModelSlots := by
  intro h
  obtain ⟨hload, -⟩ := h emptiedWithBatch
  obtain ⟨t, ht, -, hinbox, -⟩ := hload emptyingLoad { emptiedWithBatch with host := { HostState.reset with inbox := [waitingBatch] } } rfl
  obtain ⟨u, hu, hnone⟩ := loadImage_emptiedWithBatch
  obtain rfl : t = u := by rw [ht] at hu; exact Host.Outcome.next.inj hu
  exact List.cons_ne_nil waitingBatch [] (hinbox.symm.trans hnone)

end Sys2Proof.Machine
end

section
/-! PROOFS. A flow record whose lines lie in two overhang units of one number. -/

namespace Sys2Proof.Machine

/-! ### Overhang units that read well (R219) -/

theorem crcByte_lt {c : Nat} (b : Byte) (h : c < 2 ^ 32) : crcByte c b < 2 ^ 32 := by
  have hstep (l : List Nat) (r : Nat) (hr : r < 2 ^ 32) :
      l.foldl (fun r _ => if r % 2 == 1 then (r / 2) ^^^ 0x82F63B78 else r / 2) r < 2 ^ 32 := by
    induction l generalizing r with
    | nil => exact hr
    | cons i l ih =>
      refine ih _ ?_
      dsimp only
      have hhalf : r / 2 < 2 ^ 32 := by omega
      split
      · exact Nat.xor_lt_two_pow hhalf (by decide)
      · exact hhalf
  exact hstep _ _ (Nat.xor_lt_two_pow h (by have := b.isLt; omega))

theorem crc32c_lt (bs : Bytes) : crc32c bs < 2 ^ 32 := by
  have hfold (c : Nat) (h : c < 2 ^ 32) : bs.foldl crcByte c < 2 ^ 32 := by
    induction bs generalizing c with
    | nil => exact h
    | cons b bs ih => exact ih _ (crcByte_lt b h)
  exact Nat.xor_lt_two_pow (hfold _ (by decide)) (by decide)

/-- The bytes of a unit, all of them one byte. -/
def unitBytes (v : Byte) : Bytes := List.replicate 4096 v

theorem length_unitBytes (v : Byte) : (unitBytes v).length = 4096 := List.length_replicate

/-- A port whose link is up and to whose memory the device has written those bytes. -/
def portOf (v : Byte) : PortState := { PortState.reset with linkUp := true, written := (List.range 4096).map (fun i => (i, v)) }

/-- The unit of that copy, from a DPA on. -/
def unitOf (p : HPort) (v : Byte) (dpa : Nat) : OvhUnit :=
  { dpa := dpa, port := p, addr := 0, mirror := none, crc := BitVec.ofNat 32 (crc32c (unitBytes v)) }

section

variable {s : State} {p : HPort} {v : Byte} (hport : getPort s p = portOf v)

include hport

theorem ovhCopy_unitOf : ovhCopy s p 0 = some (unitBytes v) := by
  have hwritten : (portOf v).written = (List.range 4096).map (fun i => (i, v)) := by rw [portOf]
  have hlen : (portOf v).written.length = 4096 := by rw [hwritten, List.length_map, List.length_range]
  have hall : (portOf v).written.filter (fun c => decide (0 ≤ c.1) && decide (c.1 < 0 + 4096)) = (portOf v).written := by
    refine List.filter_eq_self.2 fun c hc => ?_
    rw [hwritten] at hc
    obtain ⟨i, hi, rfl⟩ := List.mem_map.1 hc
    rw [Bool.and_eq_true, decide_eq_true_eq, decide_eq_true_eq]
    exact ⟨Nat.zero_le i, lt_of_lt_of_eq (List.mem_range.1 hi) (Nat.zero_add 4096).symm⟩
  have hbytes : (portOf v).written.map (·.2) = unitBytes v := by
    rw [hwritten, List.map_map]
    exact List.map_const'.trans (by rw [List.length_range, unitBytes])
  unfold ovhCopy
  rw [hport]
  dsimp only
  rw [hall, hlen, hbytes]
  rfl

theorem ovhAttempts_unitOf (dpa : Nat) :
    (ovhAttempts s (unitOf p v dpa)).find? (ovhGood (unitOf p v dpa)) = some (some (unitBytes v)) := by
  have hgood : ovhGood (unitOf p v dpa) (some (unitBytes v)) = true := by
    have hcrc : (unitOf p v dpa).crc.toNat = crc32c (unitBytes v) :=
      (BitVec.toNat_ofNat _ _).trans (Nat.mod_eq_of_lt (crc32c_lt _))
    simp only [ovhGood, hcrc, length_unitBytes, beq_self_eq_true, Bool.and_self]
  have hcopy : ovhCopy s (unitOf p v dpa).port (unitOf p v dpa).addr = some (unitBytes v) := ovhCopy_unitOf hport
  rw [ovhAttempts, hcopy]
  exact List.find?_cons_of_pos hgood

end

/-! ### Lines of such units -/

/-- A line of a unit's bytes. -/
def lineOf (v : Byte) : Bytes := List.replicate 64 v

theorem unitBytes_cut (v : Byte) {k : Nat} (h : k + 64 ≤ 4096) : ((unitBytes v).drop k).take 64 = lineOf v := by
  rw [unitBytes, List.drop_replicate, List.take_replicate, Nat.min_eq_left (by omega), lineOf]

/-- The delivery of a unit that reads well. -/
theorem deliverUnit_unitOf (u n dpa : Nat) {s : State} {p : HPort} {v : Byte} (hport : getPort s p = portOf v) :
    (deliverUnit u n (unitOf p v dpa) (ovhAttempts s (unitOf p v dpa)) s).dsm = s.dsm ∧
      (deliverUnit u n (unitOf p v dpa) (ovhAttempts s (unitOf p v dpa)) s).overhang =
        { s.overhang with delivered := mapSet n (unitBytes v, false) s.overhang.delivered } := by
  have htried : (ovhAttempts s (unitOf p v dpa)).take 2 = ovhAttempts s (unitOf p v dpa) := rfl
  have hmirror : (unitOf p v dpa).mirror = none := rfl
  unfold deliverUnit
  simp only [hmirror, Option.isSome_none, Bool.false_eq_true, if_false, htried, ovhAttempts_unitOf hport]
  exact ⟨rfl, rfl⟩

section

variable {s : State} {l n dpa : Nat} {p : HPort} {v : Byte} (hdsm : s.dsm = Dsm.reset) (hunit : ovhOf s l = some (n, unitOf p v dpa))

include hdsm

theorem holderOf_of_dsm : holderOf s l = none := by
  rw [holderOf, hdsm]
  rfl

include hunit

/-- A line of a unit that has not been delivered, as a read would find it. -/
theorem lineSeen_unit (hport : getPort s p = portOf v) (hnone : mapGet n s.overhang.delivered = none) (hin : 64 * l - dpa + 64 ≤ 4096) :
    lineSeen s l = some (lineOf v, false) := by
  have hwhole (t k : Nat) : ((List.range 16).all fun y => (place s t y k).all fun key => !torn s key) = true := by
    refine List.all_eq_true.2 fun y _ => ?_
    have htorn (key : Nat) : torn s key = false := by
      rw [torn, hdsm]
      rfl
    simp only [htorn, Bool.not_false]
    cases place s t y k <;> rfl
  unfold lineSeen
  simp only [holderOf_of_dsm hdsm, hwhole, hunit, Option.isSome_none, Bool.not_true, Bool.or_self, Bool.false_eq_true, if_false]
  unfold ovhSeen
  simp only [hnone, ovhAttempts_unitOf hport]
  exact congrArg (fun bs => some (bs, false)) (unitBytes_cut v hin)

/-- The first read of a line delivers its unit. -/
theorem readLine_unit (hport : getPort s p = portOf v) (hnone : mapGet n s.overhang.delivered = none) (hin : 64 * l - dpa + 64 ≤ 4096) :
    (readLine l s).1 = (lineOf v, false) ∧ (readLine l s).2.dsm = Dsm.reset ∧
      (readLine l s).2.overhang = { s.overhang with delivered := mapSet n (unitBytes v, false) s.overhang.delivered } := by
  have hread : readLine l s = ovhLine l n (unitOf p v dpa) s := by
    rw [readLine, recallLine, holderOf_of_dsm hdsm]
    simp only [fetchLine, hunit]
  obtain ⟨hd, ho⟩ := deliverUnit_unitOf (((ownerOf s l).map (·.1)).getD 0) n dpa hport
  have hdelivered : mapGet n
      (deliverUnit (((ownerOf s l).map (·.1)).getD 0) n (unitOf p v dpa) (ovhAttempts s (unitOf p v dpa)) s).overhang.delivered =
      some (unitBytes v, false) := by rw [ho]; exact mapGet_mapSet_same _ _ _
  rw [hread, ovhLine]
  simp only [hnone, Option.isSome_none, Bool.false_eq_true, if_false, hdelivered]
  exact ⟨congrArg (fun bs => (bs, false)) (unitBytes_cut v hin), hd.trans hdsm, ho⟩

/-- A further read of a line with its number answers from the delivered unit. -/
theorem readLine_delivered {w : Byte} (hsome : mapGet n s.overhang.delivered = some (unitBytes w, false)) (hin : 64 * l - dpa + 64 ≤ 4096) :
    readLine l s = ((lineOf w, false), s) := by
  rw [readLine, recallLine, holderOf_of_dsm hdsm]
  simp only [fetchLine, hunit, ovhLine, hsome, Option.isSome_some, if_true]
  exact congrArg (fun bs => ((bs, false), s)) (unitBytes_cut w hin)

end

/-! ### One unit number listed twice -/

/-- A flow table whose row 0 starts at DPA 32. -/
def shiftedFlow : Tbl := { bareTable with desc := { bareTable.desc with kind := 1, rowBase := 32 } }

/-- A request that waits for the score of a flow whose record is row 0. -/
def scoreReq : Req :=
  { id := 0, deadline := 0, st := 2, slot := 0, port := 0, worker := 0, hint := false, untracked := false, unscored := false, service := 0
    ream := 0, flowIndex := some 0, frame := none, infer := none, clientTag := [], body := [], outs := [], sampled := some 0, sample := none
    ord := 0, offeredAt := 0, carries := 0, clu := [], nlu := [], reply := none, bound := false, replaced := false }

/-- Overhang unit 0 is listed twice: line 0 lies in the one of zeros, lines 1 to 64 in the one of ones. -/
def twiceHeld : State :=
  { State.reset with
    gt := BitVec.ofNat 96 (nsT 5000)
    overhang := { units := [(0, unitOf .h1 1 64), (0, unitOf .h0 0 0)], delivered := [] }
    host := { HostState.reset with ports := #v[portOf 0, portOf 1] }
    tbl := { TableState.empty with tables := [(1, shiftedFlow)] }
    rqt := [(0, scoreReq)] }

/-- The record as its three lines are found before the read, and as they are read. -/
def recordFound : Bytes := ((lineOf 0 ++ lineOf 1 ++ lineOf 1).drop 32).take 128
def recordRead : Bytes := ((lineOf 0 ++ lineOf 0 ++ lineOf 0).drop 32).take 128

theorem bytesSeen_twiceHeld : bytesSeen twiceHeld 32 128 = some (recordFound, false) := by
  have h0 : lineSeen twiceHeld 0 = some (lineOf 0, false) := lineSeen_unit (n := 0) (p := .h0) (dpa := 0) rfl rfl rfl rfl (by decide)
  have h1 : lineSeen twiceHeld 1 = some (lineOf 1, false) := lineSeen_unit (n := 0) (p := .h1) (dpa := 64) rfl rfl rfl rfl (by decide)
  have h2 : lineSeen twiceHeld 2 = some (lineOf 1, false) := lineSeen_unit (n := 0) (p := .h1) (dpa := 64) rfl rfl rfl rfl (by decide)
  have hlines : List.range' (32 / 64) ((32 + 128 - 1) / 64 - 32 / 64 + 1) = [0, 1, 2] := rfl
  rw [bytesSeen, if_neg (by decide), hlines]
  simp only [List.map_cons, List.map_nil, h0, h1, h2]
  rfl

/-- The read of line 0 delivers the unit of zeros, and lines 1 and 2 answer from it. -/
theorem readDpa_twiceHeld {s : State} (hdsm : s.dsm = Dsm.reset) (hover : s.overhang = twiceHeld.overhang) (hhost : s.host = twiceHeld.host) :
    (readDpa 32 128 s).1 = (recordRead, false) := by
  have hfirst : ovhOf s 0 = some (0, unitOf .h0 0 0) := by
    rw [ovhOf, hover]
    rfl
  have hport : getPort s .h0 = portOf 0 := by
    rw [getPort, hhost]
    rfl
  obtain ⟨hline, hdsm', hover'⟩ := readLine_unit hdsm hfirst hport (by rw [hover]; rfl) (by decide)
  have hlast {l : Nat} (h1 : 64 ≤ 64 * l) (h2 : 64 * l < 4160) : ovhOf (readLine 0 s).2 l = some (0, unitOf .h1 1 64) := by
    rw [ovhOf, hover', hover]
    exact List.find?_cons_of_pos (by rw [Bool.and_eq_true, decide_eq_true_eq, decide_eq_true_eq]; exact ⟨h1, h2⟩)
  have hdelivered : mapGet 0 (readLine 0 s).2.overhang.delivered = some (unitBytes 0, false) := by
    rw [hover']
    exact mapGet_mapSet_same _ _ _
  have h1 := readLine_delivered hdsm' (hlast (l := 1) (by decide) (by decide)) hdelivered (by decide)
  have h2 := readLine_delivered hdsm' (hlast (l := 2) (by decide) (by decide)) hdelivered (by decide)
  have hlines : readLines 3 0 s = ([(lineOf 0, false), (lineOf 0, false), (lineOf 0, false)], (readLine 0 s).2) := by
    simp only [readLines, hline, h1, h2]
  have hcount : (32 + 128 - 1) / 64 - 32 / 64 + 1 = 3 := rfl
  have hstart : 32 / 64 = 0 := rfl
  rw [readDpa, if_neg (by decide), hcount, hstart, hlines]
  rfl

theorem lastOuts_twiceHeld {s : State} {i : Option Nat} (hi : i = some 0) (hdsm : s.dsm = Dsm.reset) (hover : s.overhang = twiceHeld.overhang)
    (hhost : s.host = twiceHeld.host) (htable : flowTable s = some (1, shiftedFlow)) : (lastOuts i s).1 = recOuts (decodeFlow recordRead) := by
  have hread := readDpa_twiceHeld hdsm hover hhost
  have haddr : rowAddr shiftedFlow.desc 0 = 32 := rfl
  unfold lastOuts
  simp only [hi, htable, readFlow, haddr, hread, Bool.false_eq_true, if_false, Option.map_some, Option.getD_some]

theorem getReq_offerUnscored {k : Nat} {q : Req} {s : State} (outs : List W32) (h : getReq s k = some q) :
    getReq (offerUnscored k outs s) k =
      some { q with unscored := true, outs := outs, st := 3, ord := s.adm.offered, offeredAt := now s } := by
  have hout : modReq k (fun r => { r with unscored := true, outs := outs }) s = setReq k { q with unscored := true, outs := outs } s := by
    simp only [modReq, h]
  unfold offerUnscored offer
  rw [hout]
  simp only [modReq, getReq_setReq]
  exact getReq_setReq ..

/-- A wait that is over ends with what the record last held. -/
theorem exec_scoreWaitExpire {s : State} {d : NDie} {ix t0 : Nat} {q : Req} (hq : getReq s (rqtKey d ix) = some q) (ht0 : q.sampled = some t0)
    (hst : q.st = 2) (hdue : t0 + nsT (10 * regF s 0x840000 0 23 8) ≤ now s) :
    ∃ t q', exec (.scoreWaitExpire d ix) s = .next t ∧ getReq t (rqtKey d ix) = some q' ∧
      q'.outs = (lastOuts q.flowIndex (incCnt (cntAdm 4) s)).1 := by
  have hexec : exec (.scoreWaitExpire d ix) s =
      .next (offerUnscored (rqtKey d ix) (lastOuts q.flowIndex (incCnt (cntAdm 4) s)).1 (lastOuts q.flowIndex (incCnt (cntAdm 4) s)).2) := by
    change execScoreWaitExpire d ix s = _
    unfold execScoreWaitExpire
    simp only [hq, ht0, hst, bne_self_eq_false, Bool.false_or, decide_eq_true_eq, if_neg (Nat.not_lt.2 hdue)]
  have hkept : getReq (lastOuts q.flowIndex (incCnt (cntAdm 4) s)).2 (rqtKey d ix) = some q :=
    (getReq_of_rqt (rqt_of_proj (lastOuts_frame (m0 := 3020079136) (by decide) _ _)) _).trans hq
  exact ⟨_, _, hexec, getReq_offerUnscored _ hkept, rfl⟩

theorem scoreDue_twiceHeld : 0 + nsT (10 * regF twiceHeld 0x840000 0 23 8) ≤ now twiceHeld := by decide

/-- The wait for the score ends with the outputs that were read. -/
theorem scoreWaitExpire_twiceHeld : ∃ t q, exec (.scoreWaitExpire .n0 0) twiceHeld = .next t ∧ getReq t (rqtKey .n0 0) = some q ∧
    q.outs = recOuts (decodeFlow recordRead) := by
  obtain ⟨t, q, hexec, hreq, houts⟩ := exec_scoreWaitExpire (s := twiceHeld) (d := .n0) (ix := 0) (q := scoreReq) rfl rfl rfl scoreDue_twiceHeld
  exact ⟨t, q, hexec, hreq, houts.trans (lastOuts_twiceHeld rfl rfl rfl rfl rfl)⟩

/-- Refutes O34 at its clause on SCORE_WAIT_EXPIRE: where one overhang unit number is listed twice, the read of a record's first line
delivers the unit, and the record's further lines answer from it though they lie in the unit listed otherwise. -/
theorem not_flowScoring : ¬ Obligations.FlowScoring := by
  intro h
  obtain ⟨-, -, -, -, hwait⟩ := h twiceHeld
  obtain ⟨t, outs, ht, -, -, ⟨hreq, -⟩, -, houts⟩ := hwait .n0 0 scoreReq 0 rfl rfl rfl scoreDue_twiceHeld
  have hseen := houts 1 shiftedFlow 0 recordFound rfl rfl bytesSeen_twiceHeld
  obtain ⟨u, q, hu, hq, hread⟩ := scoreWaitExpire_twiceHeld
  obtain rfl : t = u := by rw [ht] at hu; exact Host.Outcome.next.inj hu
  obtain rfl := Option.some.inj (hreq.symm.trans hq)
  exact absurd (hseen.symm.trans hread) (by decide)

end Sys2Proof.Machine
end
